-- ==== Sys2Proof/Word.lean ====
section
/-! DEFINITION. The word and byte types of the ZH-9024 and the plainest operations on them. -/

namespace Sys2Proof

/-- A 32-bit word: every register of the module and every general register of a service core. -/
abbrev Word := BitVec 32

/-- One byte. -/
abbrev Byte := BitVec 8

/-- A bit field of a 32-bit register: its lowest bit and its width (00_scope, Notation). -/
structure Fld where
  lo : Nat
  len : Nat
deriving DecidableEq, Repr

/-- The unsigned value of a field of a word. -/
def Fld.get (f : Fld) (w : Word) : Nat := w.toNat >>> f.lo % 2 ^ f.len

/-- The mask of a field within a word. -/
def Fld.mask (f : Fld) : Nat := (2 ^ f.len - 1) <<< f.lo

/-- A word with one field replaced by the low bits of `v`, every other bit kept. -/
def Fld.put (f : Fld) (w : Word) (v : Nat) : Word :=
  (w &&& ~~~(BitVec.ofNat 32 f.mask)) ||| BitVec.ofNat 32 ((v % 2 ^ f.len) <<< f.lo)

/-- One for true and zero for false, as a flag reads in a register. -/
def bit (b : Bool) : Nat := if b then 1 else 0

/-- The value of the `n`-bit two's complement number `v`. -/
def signed (n v : Nat) : Int :=
  if v % 2 ^ n < 2 ^ (n - 1) then (v % 2 ^ n : Nat) else (v % 2 ^ n : Nat) - (2 ^ n : Nat)

/-- The `n`-bit two's complement pattern of an integer. -/
def unsigned (n : Nat) (v : Int) : Nat := (v % (2 ^ n : Nat)).toNat

/-- The number of ones in the low `n` bits of `v`. -/
def popcount : Nat → Nat → Nat
  | 0, _ => 0
  | n + 1, v => v % 2 + popcount n (v / 2)

/-- The little-endian value of a list of bytes (R5). -/
def leNat : List Byte → Nat
  | [] => 0
  | b :: bs => b.toNat + 256 * leNat bs

/-- The `n` little-endian bytes of a number (R5). -/
def leBytes : Nat → Nat → List Byte
  | 0, _ => []
  | n + 1, v => BitVec.ofNat 8 v :: leBytes n (v / 256)

/-- The big-endian value of a list of bytes. -/
def beNat (bs : List Byte) : Nat := bs.foldl (fun a b => a * 256 + b.toNat) 0

end Sys2Proof
end

