-- ==== Sys2Proof/Syntax.lean ====
section
/-! DEFINITION. The commands of the block: one constructor of Instr per row of spec/opcode_table.json, with the operands
that the row's event, access or message carries. Indices are Fin types, so a port, flow or task that does not exist cannot be named. -/

namespace Sys2Proof

/-- Who writes a register or issues a command (R410): a service on a core pair, or maintenance through the bridge. -/
inductive Writer where
  | service (q : Fin 2)
  | maintenance
deriving DecidableEq, Repr

/-- The SG-5 conditions of R39. -/
inductive Sg5 where
  | overVoltage | current | stageTemp | dieTemp
deriving DecidableEq, Repr

/-- The supervised rails of R381, in the order of SUP_RAIL_STAT. -/
inductive Rail where
  | vcore | vser | vana | vddio | vsup
deriving DecidableEq, Repr

/-- What the SFDP table of the NOR states (R64, R65): log2 of the density in bits, 4-byte-only addressing, the quad reads
it offers and whether the quad-enable bit already reads set. -/
structure Sfdp where
  densityLog2 : Nat
  addr4Only : Bool
  read114 : Bool
  read144 : Bool
  quadEnabled : Bool
deriving DecidableEq, Repr

/-- Where the loader stalls while it checks a slot (R86, R420): nowhere, or in a step whose mark it has sent. -/
inductive CheckStall where
  | nowhere | inStep5 | inStep6
deriving DecidableEq, Repr

/-- One request presented to the matrix (R98): 1 to 16 beats of 64 bits, with 8 byte strobes per write beat. -/
structure Req where
  port : Fin 8
  id : Fin 16
  write : Bool
  addr : Word
  beats : Nat
  strobes : List Byte
  data : List (BitVec 64)
deriving DecidableEq, Repr

/-- What the receive lane of a line port carries in one frame of 125 µs (R119): its 2,430 N bytes from the position at which the framer
expects the frame on, and, where the search finds the alignment word at another bit position, that position and the bytes from there on. -/
structure LineFrame where
  bytes : List Byte
  found : Option (Nat × List Byte)
deriving DecidableEq, Repr

/-- The two error-rate detectors of R133. -/
inductive BerDetector where
  | exc | deg
deriving DecidableEq, Repr

/-- A higher-order path h or a lower-order path l, numbered as in R147. -/
inductive PathId where
  | ho (h : Fin 192)
  | lo (l : Fin 5376)
deriving DecidableEq, Repr

/-- One pointer reading with the container of the same frame or multiframe (R148, R152). -/
structure PtrReading where
  pointer : BitVec 16      -- H1 H2, or V1 V2
  concat : Bool            -- the concatenation indication of positions 2 and 3 is present
  vc : List Byte           -- the bytes of the VC, path overhead included
deriving DecidableEq, Repr

/-- The conditions of an SNCP selector (R164). -/
inductive SncpCond where
  | sfA | sdA | sfAp | sdAp
deriving DecidableEq, Repr

/-- A symbol on a tributary line (R173, R184). -/
inductive Pulse where
  | zero | plus | minus
deriving DecidableEq, Repr

/-- A folio request to the Lending Desk (R216). -/
structure FolioReq where
  requester : Fin 4
  flow : Fin 1024
  vpage : Fin 256
deriving DecidableEq, Repr

/-- The header fields of a twin-link message that a receiver judges (R267, R269). -/
structure MsgHead where
  seq : BitVec 16
  ack : BitVec 16
deriving DecidableEq, Repr

/-- Payload word 1 of a HEARTBEAT (R267). -/
structure Heartbeat where
  role : Fin 4
  claim : Bool
  ready : Bool
  tie : Fin 16
  request : Fin 16
  hitless : Bool
  state : Fin 8
  heard : BitVec 16
deriving DecidableEq, Repr

/-- Class A content of one frame (R272): phase difference in ps, and the Active twin's fill, pointer and adjustment state per path: readings
since the last adjustment, and whether a new pointer is still to go out with NDF. -/
structure MirrorA where
  phasePs : Int
  paths : List (PathId × Nat × Nat × Nat × Bool)
deriving DecidableEq, Repr

/-- Class B content of one period (R272): PTP time, the output phases of DPLL0 and, below the ns of PTP time, of DPLL1 in 10⁻¹⁸ s, DPLL
frequencies and, per flow, n_play, last SEQ, fill and NCO offset;
per tributary port, fill and symbol-timer offset. -/
structure MirrorB where
  ptpSeconds : Nat
  ptpNanos : Nat
  phase0 : Int
  phase1 : Int
  freq0 : Int
  freq1 : Int
  flows : List (Fin 1024 × Nat × Nat × Nat × Nat)
  tribs : List (Fin 64 × Nat × Nat)
deriving DecidableEq, Repr

/-- A class C record: address, mask and value, as a FIELD record (R267, R73). -/
structure MirrorRec where
  addr : Word
  mask : Word
  value : Word
deriving DecidableEq, Repr

/-- Why a run is aborted (R299). -/
inductive AbortCause where
  | illegal | misaligned | amoTarget
  | response (code : Fin 8)
deriving DecidableEq, Repr

/-- What the compare port's decoder delivers for one UI (R366). -/
inductive Symbol where
  | space | mark
deriving DecidableEq, Repr

/-- The commands: one constructor per row of spec/opcode_table.json. -/
inductive Instr where
  -- power (R40, R49, R54, R55, R380, R382, R386)
  | spPowerOnReset
  | converterStart
  | mainPowerGood (senior test : Bool) (vbak : Nat)
  | powerFailure
  | archiveWriteDone
  | powerReturn
  | converterStop
  | railFailure (r : Rail)
  | railRestart
  | sg5Warning (c : Sg5)
  | sg5Trip (c : Sg5)
  | sg5TripClear (c : Sg5)
  | vbakMeasure (vbak : Fin 512)
  | rtBrownOut
  -- supervisor and safety (R28 to R48)
  | mainClockDeviation
  | safetySelfTest (pass : Bool)
  | padEnableMismatch
  | keepaliveLoss
  | key2
  | claimInChange (level : Bool)
  | claimDisagree
  | monitorEvaluation (phaseA phaseB : Int)
  | squelchRelease
  | tmReport (freq caseTemp ntcTemp : Int) (phases : List Int)
  | spLaserShutdown (n : Fin 8) (losHeld : Bool)
  | l1Timeout (g : Fin 61) (awaitedHigh : Bool)
  | l2Timeout (k : Fin 98)
  | l3Timeout (q : Fin 2)
  | l4Timeout (q : Fin 2)
  | l5Timeout (i : Fin 24)
  | l6Timeout
  | l7Timeout
  | l8Timeout
  | safeHoldExpiry (testPasses : Bool)
  | safeSeal
  | safeCountClear
  | l7Kick (w : Writer) (checked : Bool) (kick token : Byte)
  | fittingMismatch
  | fittingMismatchClear
  | islandReset (i : Fin 24) (enter : Bool)
  -- loader and image (R61 to R88, R420)
  | bootRomSelfCheck (crcOk : Bool)
  | norDiscovery (jedec : BitVec 24) (sfdp : Option Sfdp)
  | catalogHeader (bytes : List Byte)
  | registerLoadRecord (words : List Word)
  | serviceProgramHead (words : List Word)
  | sectionEnd (rest : List Byte)
  | slotChecking (colophon : List Byte) (stalls : CheckStall)
  | archiveScan (heads : List (List Byte)) (records : List (Nat × List Byte))
  | archivePrepare (eraseOk stalls : Bool)
  | nvmWindowAccess (port : Fin 8) (write : Bool) (addr : Word)
  -- matrix and fences (R94 to R115)
  | matrixRequest (reqs : List Req)
  | matrixResponse (k : Fin 98)
  | lateResponse (target : Fin 7) (tag : Fin 128)
  | masterPortReset (port : Fin 8)
  | registerWrite (w : Writer) (addr value : Word)
  | mtxTxnRead (k : Fin 98)
  | mtxItcRead (i : Fin 24)
  | mtxFenceGo (w : Writer) (token : Byte) (go : Bool)
  | fenceDrainDone
  | fenceMarker (i : Fin 24)
  | fenceMarkerTimeout
  -- line ports (R116 to R144)
  | losBallChange (n : Fin 8) (level : Bool)
  | modAbsChange (n : Fin 8) (level : Bool)
  | modAbsSettle (n : Fin 8)
  | electricalLos (n : Fin 8) (lost : Bool)
  | cdrLockChange (n : Fin 8) (locked : Bool)
  | lineFrame (n : Fin 8) (f : LineFrame)
  | berSubwindowEnd (n : Fin 8) (d : BerDetector)
  | lineKTxWrite (n : Fin 8) (w : Writer) (value : Word) (inKSlot : Bool)
  | holdoffEnd (n : Fin 8)
  | alsDeactivation (n : Fin 8)
  | alsRestartPulse (n : Fin 8)
  | alsPulseEnd (n : Fin 8)
  | alsLosClear (n : Fin 8)
  | alsManualRestart (n : Fin 8) (w : Writer) (token : Byte)
  | alsManualTest (n : Fin 8) (w : Writer) (token : Byte)
  | lineEnable (n : Fin 8) (w : Writer)
  | lineDisable (n : Fin 8) (w : Writer)
  -- paths and Index (R145 to R167)
  | pointerReading (p : PathId) (r : PtrReading)
  | pathSecondEnd (p : PathId)
  | pointerGeneration (p : PathId) (fill : Nat) (vc : List Byte)
  | indexCheckSweep
  | indexEntryWrite (e : Fin 4096) (word : Fin 4) (w : Writer) (value : Word)
  | sncpEvaluation (e : Fin 4096)
  | sncpLockout (e : Fin 4096) (w : Writer)
  | sncpForcedSwitch (e : Fin 4096) (w : Writer)
  | sncpManualToProtecting (e : Fin 4096) (w : Writer)
  | sncpManualToA (e : Fin 4096) (w : Writer)
  | sncpHoldoffExpiry (e : Fin 4096) (c : SncpCond)
  | sncpWtrExpiry (e : Fin 4096)
  -- tributaries (R168 to R196)
  | tribCdrLockLoss (p : Fin 64)
  | tribCdrUnlockLos (p : Fin 64)
  | tribLos (p : Fin 64) (lost : Bool)
  | tribAisBlock (p : Fin 64) (zeros : Nat)
  | tribFrame (p : Fin 64) (rx : Option (List Pulse))
  | crc4MultiframeSearchEnd (p : Fin 64)
  | tribLofTimer (p : Fin 64)
  | tribSampleClockInvalid (c : Fin 4)
  | tribSampleClockValid (c : Fin 4)
  | uncontrolledSlip (p : Fin 64) (overflow : Bool)
  | controlledSlip (p : Fin 64) (delete : Bool)
  | templateWrite (t : Fin 16) (i : Fin 128) (w : Writer) (value : Word)
  | tribEnable (p : Fin 64) (w : Writer)
  | tribDisable (p : Fin 64) (w : Writer)
  | lloop (p : Fin 64) (w : Writer) (on : Bool)
  | forceAisTx (p : Fin 64) (w : Writer) (on : Bool)
  | forceAisRx (p : Fin 64) (w : Writer) (on : Bool)
  -- pseudowires and the Lending Desk (R197 to R226)
  | packetReceived (p : Fin 2) (frame : List Byte)
  | playoutSlot (f : Fin 1024)
  | folioGrant (reqs : List FolioReq)
  | pwTransmitPacket (f : Fin 1024) (bits : List Bool) (stamp : Word)
  | packetSent (d : Fin 4096)
  | packetLinkChange (p : Fin 2) (up : Bool)
  | flowEnable (f : Fin 1024) (w : Writer) (value : Word)
  | flowDisable (f : Fin 1024) (w : Writer) (value : Word)
  | flowDrainTimeout (f : Fin 1024)
  | flowDrainComplete (f : Fin 1024)
  | flowEntryWrite (profile : Bool) (i : Fin 1024) (word : Fin 16) (w : Writer) (value : Word)
  -- timing (R227 to R256)
  | ocxoFault
  | ocxoRecovery
  | refFreqMeasure (i : Fin 16) (ppb : Int)
  | refActivityFailure (i : Fin 16) (failed : Bool)
  | refQualify (i : Fin 16)
  | refHoldoffExpiry (i : Fin 16)
  | refSelection
  | selClear (d : Fin 2) (w : Writer) (token : Byte)
  | selForced (d : Fin 2) (ref : Fin 16) (w : Writer) (token : Byte)
  | selManual (d : Fin 2) (ref : Fin 16) (w : Writer) (token : Byte)
  | selForcedHoldover (d : Fin 2) (w : Writer) (token : Byte)
  | selForcedFreeRun (d : Fin 2) (w : Writer) (token : Byte)
  | dpllLock (d : Fin 4)
  | dpllLockLoss (d : Fin 4)
  | anchorSet
  | holdoverLimit
  | learningSample (offset temp : Int)
  | hoSamplePop (bridge : Bool)
  | modelCommit (w : Writer) (token : Byte)
  | tempSensorFault (fault : Bool)
  | esmcTimeout (p : Fin 2)
  | esmcInformationPdu (p : Fin 2)
  | esmcTxWrite (p : Fin 2) (w : Writer) (value : Word)
  | ptpTransmit (p : Fin 2)
  | ptpPhaseSample (p : Fin 2) (w : Writer) (value : Word)
  | todMessage (seconds : Option Nat)
  | timTodRead
  -- twin (R257 to R281, R287, R289)
  | tieHeartbeatSend
  | tiePulse (width : Nat)
  | tieOkLoss
  | heartbeatSend
  | heartbeat (m : MsgHead) (hb : Heartbeat)
  | pair (m : MsgHead) (id digest cfg ident : Word) (senior : Bool)
  | pairSend
  | mirrorA (m : MsgHead) (c : MirrorA)
  | mirrorB (m : MsgHead) (c : MirrorB)
  | mirrorC (m : MsgHead) (recs : List MirrorRec)
  | mirrorSend (classB : Bool)
  | stream2Retransmit
  | stream2AckTimeout
  | linkErrorDecay
  | syncPulse (frame : Fin 48) (superframe : BitVec 16)
  | cal (m : MsgHead) (echo : Bool) (stamp turnaround : Nat)
  | calSend
  | twinSdCondition (on : Bool)
  | twinSf
  | handover (m : MsgHead) (frame : BitVec 22) (toJunior : Bool)
  | commandedSwitch
  | handoverClaimTime
  | handoverFrame
  | sameInstantClaim
  | juniorYield
  | seniorSoloClaim
  | juniorSoloClaim
  | startWaitExpiry
  | twnClear (w : Writer) (token : Byte)
  | twnLo (w : Writer) (token : Byte)
  | twnFs (w : Writer) (token : Byte)
  | twnMsJ (w : Writer) (token : Byte)
  | twnMsS (w : Writer) (token : Byte)
  | equipmentWtrExpiry
  -- linear MSP (R282 to R289)
  | apsClear (g : Fin 4) (w : Writer) (token : Byte)
  | apsLockout (g : Fin 4) (w : Writer) (token : Byte)
  | apsForcedSwitch (g : Fin 4) (chan : Fin 8) (w : Writer) (token : Byte)
  | apsManualSwitch (g : Fin 4) (chan : Fin 8) (w : Writer) (token : Byte)
  | apsExercise (g : Fin 4) (chan : Fin 8) (w : Writer) (token : Byte)
  | mspHoldoffExpiry (g : Fin 4) (chan : Fin 8)
  | mspWtrExpiry (g : Fin 4)
  | dfopTimer (g : Fin 4) (present : Bool)
  -- service cores (R290 to R308)
  | lockstepMismatch (q : Fin 2) (output : Word)
  | pairSelfCheckDone (q : Fin 2) (pass : Bool)
  | addi (q : Fin 2) (gd ga : Fin 32) (imm : BitVec 16)
  | andi (q : Fin 2) (gd ga : Fin 32) (imm : BitVec 16)
  | ori (q : Fin 2) (gd ga : Fin 32) (imm : BitVec 16)
  | xori (q : Fin 2) (gd ga : Fin 32) (imm : BitVec 16)
  | shi (q : Fin 2) (gd ga : Fin 32) (imm : BitVec 16)
  | slti (q : Fin 2) (gd ga : Fin 32) (imm : BitVec 16)
  | lui (q : Fin 2) (gd : Fin 32) (imm : BitVec 16)
  | lw (q : Fin 2) (gd ga : Fin 32) (imm : BitVec 16)
  | lh (q : Fin 2) (gd ga : Fin 32) (imm : BitVec 16)
  | lhu (q : Fin 2) (gd ga : Fin 32) (imm : BitVec 16)
  | lb (q : Fin 2) (gd ga : Fin 32) (imm : BitVec 16)
  | lbu (q : Fin 2) (gd ga : Fin 32) (imm : BitVec 16)
  | sw (q : Fin 2) (gs ga : Fin 32) (imm : BitVec 16)
  | sh (q : Fin 2) (gs ga : Fin 32) (imm : BitVec 16)
  | sb (q : Fin 2) (gs ga : Fin 32) (imm : BitVec 16)
  | beq (q : Fin 2) (ga gb : Fin 32) (off : BitVec 16)
  | bne (q : Fin 2) (ga gb : Fin 32) (off : BitVec 16)
  | blt (q : Fin 2) (ga gb : Fin 32) (off : BitVec 16)
  | bge (q : Fin 2) (ga gb : Fin 32) (off : BitVec 16)
  | bltu (q : Fin 2) (ga gb : Fin 32) (off : BitVec 16)
  | bgeu (q : Fin 2) (ga gb : Fin 32) (off : BitVec 16)
  | jal (q : Fin 2) (off : BitVec 26)
  | jalr (q : Fin 2) (gd ga : Fin 32) (imm : BitVec 16)
  | add (q : Fin 2) (gd ga gb : Fin 32)
  | sub (q : Fin 2) (gd ga gb : Fin 32)
  | and (q : Fin 2) (gd ga gb : Fin 32)
  | or (q : Fin 2) (gd ga gb : Fin 32)
  | xor (q : Fin 2) (gd ga gb : Fin 32)
  | sll (q : Fin 2) (gd ga gb : Fin 32)
  | srl (q : Fin 2) (gd ga gb : Fin 32)
  | sra (q : Fin 2) (gd ga gb : Fin 32)
  | slt (q : Fin 2) (gd ga gb : Fin 32)
  | sltu (q : Fin 2) (gd ga gb : Fin 32)
  | mul (q : Fin 2) (gd ga gb : Fin 32)
  | mulhu (q : Fin 2) (gd ga gb : Fin 32)
  | divu (q : Fin 2) (gd ga gb : Fin 32)
  | remu (q : Fin 2) (gd ga gb : Fin 32)
  | amoSwap (q : Fin 2) (gd ga gb : Fin 32)
  | amoAdd (q : Fin 2) (gd ga gb : Fin 32)
  | amoAnd (q : Fin 2) (gd ga gb : Fin 32)
  | amoOr (q : Fin 2) (gd ga gb : Fin 32)
  | done (q : Fin 2)
  | fenceL (q : Fin 2)
  | fenceG (q : Fin 2)
  | rditc (q : Fin 2) (gd : Fin 32)
  | rditch (q : Fin 2) (gd : Fin 32)
  | raise (q : Fin 2) (ga gb : Fin 32)
  | ready (q : Fin 2)
  | taskAbort (q : Fin 2) (cause : AbortCause) (addr : Word)
  -- scheduler (R301 to R308, R325)
  | taskPeriod (t : Fin 256)
  | taskMakeReady (t : Fin 256) (w : Writer) (token : Byte)
  | taskCancel (t : Fin 256) (w : Writer) (token : Byte) (woken : Bool)
  | taskEnable (t : Fin 256) (w : Writer) (token : Byte)
  | taskDisable (t : Fin 256) (w : Writer) (token : Byte) (woken : Bool)
  -- observation (R327 to R352)
  | eventAccept (i : Fin 24)
  | ledgerWrite
  | accessionResume
  | evtPendClear (k : Fin 36) (w : Writer) (mask : Word)
  | evtLedgerNextRead
  | inventoryTick
  | invSnapshot (w : Writer) (token : Byte) (go : Bool)
  | inventoryGatherDone
  | checkBlockEnd (u : Fin 32) (block : List Byte) (carried : Word)
  | checkEntryWrite (u : Fin 32) (word : Fin 8) (w : Writer) (value : Word)
  -- management port (R347 to R351)
  | spiRead (addr : Word)
  | spiWrite (addr value : Word)
  | spiBadOpcode (opcode : Byte)
  | spiEarlyEnd (addr : Option Word) (issued : Option (Option Word))
  | i2cRead (device : BitVec 7) (addr : Word)
  | i2cWrite (device : BitVec 7) (addr value : Word)
  | i2cEarlyEnd (device : BitVec 7) (addr : Option Word) (issued : Option (Option Word))
  | mgmtUnlockWrite (value : Word)
  | unlockWindowExpiry
  | unlockBarEnd
  | unlockTimeout
  -- Facsimile engines (R353 to R374)
  | facStart (n : Fin 8) (step : BitVec 12) (w : Writer) (token : Byte)
  | facStop (n : Fin 8) (w : Writer) (token : Byte)
  | facTrig (n : Fin 8) (w : Writer) (token : Byte)
  | facAssign (n : Fin 8) (port cmp : Fin 64) (w : Writer) (token : Byte)
  | facRelease (n : Fin 8) (w : Writer) (token : Byte)
  | facCal (n : Fin 8) (w : Writer) (token : Byte)
  | facCalDone (n : Fin 8) (crossings : List (Option Nat))
  | facSetSkew (n : Fin 8) (skew : BitVec 12) (w : Writer) (token : Byte)
  | facSync (w : Writer) (token : Byte) (go : Bool)
  | facStream (n : Fin 8) (w : Writer) (token : Byte) (count : BitVec 16)
  | deadTimeEnd (n : Fin 8)
  | facTrigger (n : Fin 8) (trigs : BitVec 16)
  | waitTimeout (n : Fin 8)
  | stepEnd (n : Fin 8)
  | vectorCompare (n : Fin 8) (lag : Byte) (received : Symbol)
  | streamSample (n : Fin 8)
  | patternMemoryWrite (i : Fin 65536) (w : Writer) (value : Word)
  -- rows added at the table's end
  | tribCdrLock (p : Fin 64)
  | twinLaneAlignment (k : Fin 4) (lock aligned : Bool) (skew : Byte)
  | twinLinkCodingError
  | syncPulseMissing
  | transmitFrameBoundary (augs : List (List (List Byte)))
  | tribTransmitSymbol (p : Fin 64) (arrived : List Bool)
  | facsimileOutputSample (n : Fin 8)
deriving DecidableEq, Repr

end Sys2Proof
end

