-- ==== Sys2Proof/Decode.lean ====
section
/-! DEFINITION. Words of the module's own encodings. spec/opcode_table.json gives no row any bits, so no word spells a command; the
instruction words of the service cores (R295, R296) are decoded and encoded here for what R296 says of them. -/

namespace Sys2Proof

/-- The command that a word spells by the bits of spec/opcode_table.json: its rows give none. -/
def decodeTableWord (nbits w : Nat) : Option Instr :=
  let _ := nbits
  let _ := w
  none

/-! ### The fields of R295 -/

/-- OP. -/
def fieldOp (w : Word) : BitVec 6 := w.extractLsb' 26 6

/-- The register field in bits 25:21. -/
def fieldR1 (w : Word) : Fin 32 := Fin.ofNat 32 (w.extractLsb' 21 5).toNat

/-- The register field in bits 20:16. -/
def fieldR2 (w : Word) : Fin 32 := Fin.ofNat 32 (w.extractLsb' 16 5).toNat

/-- The register field in bits 15:11. -/
def fieldR3 (w : Word) : Fin 32 := Fin.ofNat 32 (w.extractLsb' 11 5).toNat

/-- FN. -/
def fieldFn (w : Word) : BitVec 11 := w.extractLsb' 0 11

/-- imm16 or off16. -/
def fieldImm (w : Word) : BitVec 16 := w.extractLsb' 0 16

/-- off26. -/
def fieldOff (w : Word) : BitVec 26 := w.extractLsb' 0 26

/-- A register number as five bits. -/
def regBits (r : Fin 32) : BitVec 5 := BitVec.ofNat 5 r.val

/-- Formats I, S and B: OP, two registers, 16 bits. -/
def packI (op : BitVec 6) (a b : Fin 32) (imm : BitVec 16) : Word := op ++ regBits a ++ regBits b ++ imm

/-- Format A: OP, three registers, FN. -/
def packA (op : BitVec 6) (a b c : Fin 32) (fn : BitVec 11) : Word := op ++ regBits a ++ regBits b ++ regBits c ++ fn

/-- Format J: OP, 26 bits. -/
def packJ (op : BitVec 6) (off : BitVec 26) : Word := op ++ off

/-! ### Decoding (R296) -/

/-- Bits 15:7 of a shift's imm16 are unused, and a kind of 3 is illegal. -/
def shiftImmOk (imm : BitVec 16) : Bool := decide (imm.toNat < 128) && decide (imm.toNat / 32 ≠ 3)

/-- OP 0x20: the register operations. -/
def decodeAlu (q : Fin 2) (w : Word) : Option Instr :=
  let d := fieldR1 w
  let a := fieldR2 w
  let b := fieldR3 w
  match (fieldFn w).toNat with
  | 0x000 => some (.add q d a b)
  | 0x001 => some (.sub q d a b)
  | 0x002 => some (.and q d a b)
  | 0x003 => some (.or q d a b)
  | 0x004 => some (.xor q d a b)
  | 0x005 => some (.sll q d a b)
  | 0x006 => some (.srl q d a b)
  | 0x007 => some (.sra q d a b)
  | 0x008 => some (.slt q d a b)
  | 0x009 => some (.sltu q d a b)
  | 0x00A => some (.mul q d a b)
  | 0x00B => some (.mulhu q d a b)
  | 0x00C => some (.divu q d a b)
  | 0x00D => some (.remu q d a b)
  | _ => none

/-- OP 0x21: the atomic operations. -/
def decodeAmo (q : Fin 2) (w : Word) : Option Instr :=
  let d := fieldR1 w
  let a := fieldR2 w
  let b := fieldR3 w
  match (fieldFn w).toNat with
  | 0x000 => some (.amoSwap q d a b)
  | 0x001 => some (.amoAdd q d a b)
  | 0x002 => some (.amoAnd q d a b)
  | 0x003 => some (.amoOr q d a b)
  | _ => none

/-- OP 0x3F: the instructions of the run, the fences, the time and the events. Unused fields are 0. -/
def decodeSys (q : Fin 2) (w : Word) : Option Instr :=
  let d := fieldR1 w
  let a := fieldR2 w
  let b := fieldR3 w
  let bare := decide (d = 0 ∧ a = 0 ∧ b = 0)
  match (fieldFn w).toNat with
  | 0x001 => if bare then some (.done q) else none
  | 0x002 => if bare then some (.fenceL q) else none
  | 0x003 => if bare then some (.fenceG q) else none
  | 0x004 => if a = 0 ∧ b = 0 then some (.rditc q d) else none
  | 0x005 => if a = 0 ∧ b = 0 then some (.rditch q d) else none
  | 0x006 => if d = 0 then some (.raise q a b) else none
  | 0x007 => if bare then some (.ready q) else none
  | _ => none

/-- The instruction that a word spells on the cores of pair `q`; none where it is illegal. -/
def decodeCore (q : Fin 2) (w : Word) : Option Instr :=
  let r1 := fieldR1 w
  let r2 := fieldR2 w
  let imm := fieldImm w
  match (fieldOp w).toNat with
  | 0x01 => some (.addi q r1 r2 imm)
  | 0x02 => some (.andi q r1 r2 imm)
  | 0x03 => some (.ori q r1 r2 imm)
  | 0x04 => some (.xori q r1 r2 imm)
  | 0x05 => if shiftImmOk imm then some (.shi q r1 r2 imm) else none
  | 0x06 => some (.slti q r1 r2 imm)
  | 0x07 => if r2 = 0 then some (.lui q r1 imm) else none
  | 0x08 => some (.lw q r1 r2 imm)
  | 0x09 => some (.lh q r1 r2 imm)
  | 0x0A => some (.lhu q r1 r2 imm)
  | 0x0B => some (.lb q r1 r2 imm)
  | 0x0C => some (.lbu q r1 r2 imm)
  | 0x0D => some (.sw q r1 r2 imm)
  | 0x0E => some (.sh q r1 r2 imm)
  | 0x0F => some (.sb q r1 r2 imm)
  | 0x10 => some (.beq q r1 r2 imm)
  | 0x11 => some (.bne q r1 r2 imm)
  | 0x12 => some (.blt q r1 r2 imm)
  | 0x13 => some (.bge q r1 r2 imm)
  | 0x14 => some (.bltu q r1 r2 imm)
  | 0x15 => some (.bgeu q r1 r2 imm)
  | 0x16 => some (.jal q (fieldOff w))
  | 0x17 => some (.jalr q r1 r2 imm)
  | 0x20 => decodeAlu q w
  | 0x21 => decodeAmo q w
  | 0x3F => decodeSys q w
  | _ => none

/-! ### Encoding (R295, R296) -/

/-- The pair and the word of a core instruction; none for every other command. -/
def encodeCore (i : Instr) : Option (Fin 2 × Word) :=
  match i with
  | .addi q d a v => some (q, packI 0x01 d a v)
  | .andi q d a v => some (q, packI 0x02 d a v)
  | .ori q d a v => some (q, packI 0x03 d a v)
  | .xori q d a v => some (q, packI 0x04 d a v)
  | .shi q d a v => some (q, packI 0x05 d a v)
  | .slti q d a v => some (q, packI 0x06 d a v)
  | .lui q d v => some (q, packI 0x07 d 0 v)
  | .lw q d a v => some (q, packI 0x08 d a v)
  | .lh q d a v => some (q, packI 0x09 d a v)
  | .lhu q d a v => some (q, packI 0x0A d a v)
  | .lb q d a v => some (q, packI 0x0B d a v)
  | .lbu q d a v => some (q, packI 0x0C d a v)
  | .sw q r a v => some (q, packI 0x0D r a v)
  | .sh q r a v => some (q, packI 0x0E r a v)
  | .sb q r a v => some (q, packI 0x0F r a v)
  | .beq q a b v => some (q, packI 0x10 a b v)
  | .bne q a b v => some (q, packI 0x11 a b v)
  | .blt q a b v => some (q, packI 0x12 a b v)
  | .bge q a b v => some (q, packI 0x13 a b v)
  | .bltu q a b v => some (q, packI 0x14 a b v)
  | .bgeu q a b v => some (q, packI 0x15 a b v)
  | .jal q v => some (q, packJ 0x16 v)
  | .jalr q d a v => some (q, packI 0x17 d a v)
  | .add q d a b => some (q, packA 0x20 d a b 0x000)
  | .sub q d a b => some (q, packA 0x20 d a b 0x001)
  | .and q d a b => some (q, packA 0x20 d a b 0x002)
  | .or q d a b => some (q, packA 0x20 d a b 0x003)
  | .xor q d a b => some (q, packA 0x20 d a b 0x004)
  | .sll q d a b => some (q, packA 0x20 d a b 0x005)
  | .srl q d a b => some (q, packA 0x20 d a b 0x006)
  | .sra q d a b => some (q, packA 0x20 d a b 0x007)
  | .slt q d a b => some (q, packA 0x20 d a b 0x008)
  | .sltu q d a b => some (q, packA 0x20 d a b 0x009)
  | .mul q d a b => some (q, packA 0x20 d a b 0x00A)
  | .mulhu q d a b => some (q, packA 0x20 d a b 0x00B)
  | .divu q d a b => some (q, packA 0x20 d a b 0x00C)
  | .remu q d a b => some (q, packA 0x20 d a b 0x00D)
  | .amoSwap q d a b => some (q, packA 0x21 d a b 0x000)
  | .amoAdd q d a b => some (q, packA 0x21 d a b 0x001)
  | .amoAnd q d a b => some (q, packA 0x21 d a b 0x002)
  | .amoOr q d a b => some (q, packA 0x21 d a b 0x003)
  | .done q => some (q, packA 0x3F 0 0 0 0x001)
  | .fenceL q => some (q, packA 0x3F 0 0 0 0x002)
  | .fenceG q => some (q, packA 0x3F 0 0 0 0x003)
  | .rditc q d => some (q, packA 0x3F d 0 0 0x004)
  | .rditch q d => some (q, packA 0x3F d 0 0 0x005)
  | .raise q a b => some (q, packA 0x3F 0 a b 0x006)
  | .ready q => some (q, packA 0x3F 0 0 0 0x007)
  | _ => none

end Sys2Proof
end

