-- ==== Sys2Proof/Machine/Crc.lean ====
section
/-! DEFINITION. The check values of the module: the generic CRC of R342, CRC-32C and CRC-16 built from it, the parities of R122,
SHA-256 and the P-256 verification of R77 to R79. -/

namespace Sys2Proof.Machine

/-- One byte fed to a CRC register of width `w` (R342). -/
def crcByte (w poly : Nat) (refin : Bool) (reg : Nat) (b : Byte) : Nat :=
  (List.range 8).foldl (fun r i =>
    let inBit := if refin then b.toNat >>> i % 2 else b.toNat >>> (7 - i) % 2
    let top := r >>> (w - 1) % 2
    let sh := (r <<< 1) % 2 ^ w
    if top = inBit then sh else sh ^^^ poly) reg

/-- The low `w` bits of `v` in reverse order. -/
def reflect (w v : Nat) : Nat :=
  (List.range w).foldl (fun a i => a + (v >>> i % 2) * 2 ^ (w - 1 - i)) 0

/-- A list of bytes fed to a CRC register (R342). -/
def crcFeed (w poly : Nat) (refin : Bool) (reg : Nat) (bs : List Byte) : Nat := bs.foldl (crcByte w poly refin) reg

/-- The result read from a CRC register (R342). -/
def crcResult (w : Nat) (refout : Bool) (xorout reg : Nat) : Nat := (if refout then reflect w reg else reg) ^^^ xorout

/-- CRC-32C: Castagnoli, reflected, initial value and final XOR all ones (chapter 03). -/
def crc32c (bs : List Byte) : Word :=
  BitVec.ofNat 32 (crcResult 32 true 0xFFFFFFFF (crcFeed 32 0x1EDC6F41 true 0xFFFFFFFF bs))

/-- The Ethernet frame check sequence: CRC-32, reflected. -/
def crc32 (bs : List Byte) : Word :=
  BitVec.ofNat 32 (crcResult 32 true 0xFFFFFFFF (crcFeed 32 0x04C11DB7 true 0xFFFFFFFF bs))

/-! ### Line coding (R121, R122, R127) -/

/-- The scrambler 1 + x⁶ + x⁷: its next bit and register. -/
def scramblerNext (r : Nat) : Nat × Nat := (r >>> 6 % 2, (r * 2 + (r >>> 6 + r >>> 5) % 2) % 128)

/-- One byte of the scrambling sequence, most significant bit first, and the register after it. -/
def scramblerByte (r : Nat) : Nat × Nat :=
  (List.range 8).foldl (fun (p : Nat × Nat) _ => (p.1 * 2 + (scramblerNext p.2).1, (scramblerNext p.2).2)) (0, r)

/-- Bytes scrambled from register `r` on; scrambling twice gives them back. -/
def scramble (r : Nat) : List Byte → List Byte
  | [] => []
  | b :: bs => (b ^^^ BitVec.ofNat 8 (scramblerByte r).1) :: scramble (scramblerByte r).2 bs

/-- The register at the byte after the first row of the section overhead. -/
def scramblerReset : Nat := 0x7F

/-- BIP-8: even parity of each bit position over a list of bytes. -/
def bip8 (bs : List Byte) : Byte := bs.foldl (· ^^^ ·) 0

/-- `k` groups as long as `acc` from the front of a list of bytes, added to it bit by bit. -/
def addGroups : Nat → List Byte → List Byte → List Byte
  | 0, acc, _ => acc
  | k + 1, acc, bs => addGroups k (List.zipWith (· ^^^ ·) acc (bs.take acc.length)) (bs.drop acc.length)

/-- BIP over groups of `n` bytes, as BIP-24N with n = 3N. -/
def bipN (n : Nat) (bs : List Byte) : List Byte := addGroups (bs.length / n) (List.replicate n 0) bs

/-- Violated parity bits between two parity bytes. -/
def bitErrors (a b : Byte) : Nat := popcount 8 (a ^^^ b).toNat

/-- Violated parity bits between two lists of parity bytes. -/
def listErrors (a b : List Byte) : Nat := (List.zipWith bitErrors a b).sum

/-- The CRC-7 of a 16-byte trace (G.707), its own bits taken as 0. -/
def crc7 (trace : List Byte) : Nat := crcFeed 7 0x09 false 0 (0x80 :: trace.drop 1)

/-! ### SHA-256 (FIPS 180) -/

/-- The primes below `n`, rising. -/
def primesBelow (n : Nat) : List Nat :=
  (List.range n).filter (fun p => decide (2 ≤ p) && (List.range p).all (fun d => decide (d < 2) || decide (p % d ≠ 0)))

/-- The `k`-th root of `v` rounded down, where it is less than `r + 2 ^ n`: one bit after another, highest first. -/
def rootFrom (k v : Nat) : Nat → Nat → Nat
  | 0, r => r
  | n + 1, r => rootFrom k v n (if (r + 2 ^ n) ^ k ≤ v then r + 2 ^ n else r)

/-- The first 32 bits of the fractional part of the `k`-th root of `p`, for a root below 16. -/
def fractionBits (k p : Nat) : Nat := rootFrom k (p * 2 ^ (32 * k)) 36 0 % 2 ^ 32

/-- The round constants: the fractions of the cube roots of the first 64 primes, of which 311 is the last. -/
def shaK : List Nat := (primesBelow 312).map (fractionBits 3)

/-- The initial hash value: the fractions of the square roots of the first 8 primes, of which 19 is the last. -/
def shaInit : List Word := (primesBelow 20).map (fun p => BitVec.ofNat 32 (fractionBits 2 p))

/-- A big-endian word from the front of a byte list. -/
def beWord : List Byte → Word
  | a :: b :: c :: d :: _ => BitVec.ofNat 32 (((a.toNat * 256 + b.toNat) * 256 + c.toNat) * 256 + d.toNat)
  | _ => 0

/-- The first `n` words of a byte list. -/
def beWords : Nat → List Byte → List Word
  | 0, _ => []
  | n + 1, bs => beWord bs :: beWords n (bs.drop 4)

/-- One more word of the message schedule, from the last sixteen (newest first). -/
def shaNext (w : List Word) : Word :=
  let x := w.getD 14 0
  let y := w.getD 1 0
  let s0 := (x.rotateRight 7) ^^^ (x.rotateRight 18) ^^^ (x >>> 3)
  let s1 := (y.rotateRight 17) ^^^ (y.rotateRight 19) ^^^ (y >>> 10)
  w.getD 15 0 + s0 + w.getD 6 0 + s1

/-- The message schedule of 64 words, newest first. -/
def shaSchedule (w : List Word) : List Word := (List.range 48).foldl (fun l _ => shaNext l :: l) w.reverse

/-- One round on the eight working variables. -/
def shaRound : List Word → Word × Nat → List Word
  | [a, b, c, d, e, f, g, h], (w, k) =>
    let t1 := h + ((e.rotateRight 6) ^^^ (e.rotateRight 11) ^^^ (e.rotateRight 25)) + ((e &&& f) ^^^ (~~~e &&& g))
      + BitVec.ofNat 32 k + w
    let t2 := ((a.rotateRight 2) ^^^ (a.rotateRight 13) ^^^ (a.rotateRight 22)) + ((a &&& b) ^^^ (a &&& c) ^^^ (b &&& c))
    [t1 + t2, a, b, c, d + t1, e, f, g]
  | l, _ => l

/-- One 64-byte block. -/
def shaBlock (h : List Word) (block : List Byte) : List Word :=
  let v := ((shaSchedule (beWords 16 block)).reverse.zip shaK).foldl shaRound h
  List.zipWith (· + ·) h v

/-- `n` blocks from the front of a padded message. -/
def shaBlocks : Nat → List Word → List Byte → List Word
  | 0, h, _ => h
  | n + 1, h, bs => shaBlocks n (shaBlock h (bs.take 64)) (bs.drop 64)

/-- The big-endian bytes of a number. -/
def beBytes (n v : Nat) : List Byte := (leBytes n v).reverse

/-- SHA-256 of a byte list, as 32 bytes. -/
def sha256 (bs : List Byte) : List Byte :=
  let zeros := (119 - bs.length % 64) % 64
  let msg := bs ++ [0x80] ++ List.replicate zeros 0 ++ beBytes 8 (8 * bs.length)
  (shaBlocks (msg.length / 64) shaInit msg).flatMap (fun w => beBytes 4 w.toNat)

/-! ### ECDSA on P-256 (FIPS 186) -/

/-- The field prime, the coefficient b, the group order and the base point of P-256. -/
def p256 : Nat := 0xffffffff00000001000000000000000000000000ffffffffffffffffffffffff
def p256b : Nat := 0x5ac635d8aa3a93e7b3ebbd55769886bc651d06b0cc53b0f63bce3c3e27d2604b
def p256n : Nat := 0xffffffff00000000ffffffffffffffffbce6faada7179e84f3b9cac2fc632551
def p256x : Nat := 0x6b17d1f2e12c4247f8bce6e563a440f277037d812deb33a0f4a13945d898c296
def p256y : Nat := 0x4fe342e2fe1a7f9b8ee7eb4a7c0f9e162bce33576b315ececbb6406837bf51f5

/-- `x ^ e mod m` over the low `fuel` bits of `e`, most significant first. -/
def powMod (m x e : Nat) : Nat → Nat
  | 0 => 1
  | fuel + 1 =>
    let h := powMod m x (e / 2) fuel
    if e % 2 = 1 then h * h % m * x % m else h * h % m

/-- The inverse modulo a prime, by Fermat. -/
def invMod (m x : Nat) : Nat := powMod m (x % m) (m - 2) 256

/-- A point of the curve; none is the point at infinity. -/
abbrev Point := Option (Nat × Nat)

/-- Addition on the curve. -/
def ecAdd : Point → Point → Point
  | none, q => q
  | p, none => p
  | some (x1, y1), some (x2, y2) =>
    if x1 = x2 ∧ (y1 + y2) % p256 = 0 then none
    else
      let l := if x1 = x2 then (3 * x1 * x1 + (p256 - 3)) * invMod p256 (2 * y1) % p256
        else (y2 + p256 - y1) * invMod p256 (x2 + p256 - x1) % p256
      let x3 := (l * l + 2 * p256 - x1 - x2) % p256
      some (x3, (l * (x1 + p256 - x3) + p256 - y1) % p256)

/-- `k` times a point, over the low `fuel` bits of `k`. -/
def ecMul (p : Point) (k : Nat) : Nat → Point
  | 0 => none
  | fuel + 1 =>
    let h := ecMul p (k / 2) fuel
    let d := ecAdd h h
    if k % 2 = 1 then ecAdd d p else d

/-- ECDSA verification of the message hash `z` under the key (x, y) with signature (r, s). -/
def ecdsaVerify (x y r s z : Nat) : Bool :=
  if x < p256 ∧ y < p256 ∧ (y * y) % p256 = (x * x * x + (p256 - 3) * x + p256b) % p256
      ∧ 0 < r ∧ r < p256n ∧ 0 < s ∧ s < p256n then
    let w := invMod p256n s
    match ecAdd (ecMul (some (p256x, p256y)) (z * w % p256n) 256) (ecMul (some (x, y)) (r * w % p256n) 256) with
    | none => false
    | some (vx, _) => decide (vx % p256n = r)
  else false

end Sys2Proof.Machine
end

