-- ==== Sys2Proof/Machine/Regs.lean ====
section
/-! DEFINITION. The registers of the module by the manual's own names: the byte address of each (R407 to R409, with the
offsets and strides of the owning chapters' tables) and the bit field of each of its named fields. -/

namespace Sys2Proof.Machine

/-! ### SUP: supervisor -/

def SUP_IDENT : Nat := 0x40000000
def SUP_IDENT_PART : Fld := ⟨16, 16⟩
def SUP_IDENT_STEPPING : Fld := ⟨12, 4⟩
def SUP_IDENT_VARIANT : Fld := ⟨8, 4⟩
def SUP_STATE : Nat := 0x40000004
def SUP_STATE_STATE : Fld := ⟨0, 4⟩
def SUP_STATE_PREV : Fld := ⟨4, 4⟩
def SUP_STATE_ENTRY_CAUSE : Fld := ⟨8, 8⟩
def SUP_STATE_LIMP_CAUSES : Fld := ⟨16, 8⟩
def SUP_STATE_PAIRED : Fld := ⟨24, 1⟩
def SUP_STATE_SENIOR : Fld := ⟨25, 1⟩
def SUP_STATE_SLOT : Fld := ⟨26, 1⟩
def SUP_RST_CAUSE : Nat := 0x4000000C
def SUP_RST_CAUSE_CAUSE : Fld := ⟨0, 2⟩
def SUP_FIT_CFG : Nat := 0x40000010
def SUP_FIT_CFG_PAIRED : Fld := ⟨0, 1⟩
def SUP_FIT_CFG_LIMP_EN : Fld := ⟨1, 1⟩
def SUP_ISLAND_CFG : Nat := 0x40000014
def SUP_ISLAND_CFG_LP_EN : Fld := ⟨0, 8⟩
def SUP_ISLAND_CFG_TR_EN : Fld := ⟨8, 2⟩
def SUP_ISLAND_CFG_PK_EN : Fld := ⟨10, 2⟩
def SUP_ISLAND_CFG_FC_EN : Fld := ⟨12, 1⟩
def SUP_ISLAND_STAT : Nat := 0x40000018
def SUP_ISLAND_STAT_RUN : Fld := ⟨0, 24⟩
def SUP_SAFE_CFG : Nat := 0x40000020
def SUP_SAFE_CFG_HOLD_MS : Fld := ⟨0, 16⟩
def SUP_SAFE_CFG_BACKOFF_MAX : Fld := ⟨16, 4⟩
def SUP_MON_CFG : Nat := 0x40000024
def SUP_MON_CFG_LIMIT_PPB : Fld := ⟨0, 13⟩
def SUP_MON_CFG_RELEASE_S : Fld := ⟨16, 10⟩
def SUP_ALS_CFG : Nat := 0x40000028
def SUP_ALS_CFG_SP_ALS_EN : Fld := ⟨0, 8⟩
def SUP_ALS_CFG_T_DEACT_MS : Fld := ⟨8, 10⟩
def SUP_TO_CFG : Nat := 0x4000002C
def SUP_TO_CFG_L4_WIN : Fld := ⟨0, 10⟩
def SUP_TO_CFG_L5_WIN : Fld := ⟨10, 10⟩
def SUP_TO_CFG_L7_WIN : Fld := ⟨20, 5⟩
def SUP_PF_CFG : Nat := 0x40000030
def SUP_PF_CFG_VIN_PF : Fld := ⟨0, 10⟩
def SUP_PF_CFG_HYST : Fld := ⟨10, 5⟩
def SUP_PF_CFG_ARCH_EN : Fld := ⟨15, 1⟩
def SUP_PWR_CFG : Nat := 0x40000034
def SUP_PWR_CFG_VBAK_WARN : Fld := ⟨0, 9⟩
def SUP_SAFETY_STAT : Nat := 0x40000040
def SUP_SAFETY_STAT_CLAIM_OUT : Fld := ⟨0, 1⟩
def SUP_SAFETY_STAT_CLAIM_IN : Fld := ⟨1, 1⟩
def SUP_SAFETY_STAT_KEY2 : Fld := ⟨2, 1⟩
def SUP_SAFETY_STAT_SHARED_EN : Fld := ⟨3, 1⟩
def SUP_SAFETY_STAT_SQUELCH : Fld := ⟨4, 1⟩
def SUP_SAFETY_STAT_MON_A : Fld := ⟨5, 1⟩
def SUP_SAFETY_STAT_MON_B : Fld := ⟨6, 1⟩
def SUP_SAFETY_STAT_CORR_REJ : Fld := ⟨7, 1⟩
def SUP_SAFETY_STAT_SP_ALS : Fld := ⟨8, 8⟩
def SUP_SAFETY_STAT_SG5_VIN : Fld := ⟨16, 1⟩
def SUP_SAFETY_STAT_SG5_CUR : Fld := ⟨17, 1⟩
def SUP_SAFETY_STAT_SG5_STAGE_T : Fld := ⟨18, 1⟩
def SUP_SAFETY_STAT_SG5_DIE_T : Fld := ⟨19, 1⟩
def SUP_TO_STAT : Nat := 0x40000044
def SUP_TO_STAT_LEVEL : Fld := ⟨0, 4⟩
def SUP_TO_STAT_SOURCE : Fld := ⟨4, 12⟩
def SUP_TO_STAT_SAFE_COUNT : Fld := ⟨16, 8⟩
def SUP_RET_STAT : Nat := 0x40000048
def SUP_RET_STAT_VALID : Fld := ⟨0, 1⟩
def SUP_RET_STAT_BOD_SEEN : Fld := ⟨1, 1⟩
def SUP_RET_STAT_SEAL_BAD : Fld := ⟨2, 1⟩
def SUP_RET_STAT_CRC_BAD : Fld := ⟨3, 1⟩
def SUP_RET_STAT_ARCH_DONE : Fld := ⟨4, 1⟩
def SUP_RET_STAT_ARCH_SKIPPED : Fld := ⟨5, 1⟩
def SUP_RET_STAT_VBAK_PRESENT : Fld := ⟨6, 1⟩
def SUP_L7_KICK : Nat := 0x40000050
def SUP_L7_KICK_TOKEN : Fld := ⟨0, 8⟩
def SUP_L7_KICK_KICK : Fld := ⟨8, 8⟩
def SUP_L7_KICK_RESULT : Fld := ⟨16, 8⟩
def SUP_TO_CNT (n : Nat) : Nat := 0x40000060 + 0x4 * n
def SUP_TO_CNT_CNT : Fld := ⟨0, 32⟩
def SUP_PWR_STAT : Nat := 0x40000080
def SUP_PWR_STAT_VIN : Fld := ⟨0, 10⟩
def SUP_PWR_STAT_VBAK : Fld := ⟨16, 9⟩
def SUP_PWR_STAT_VBAK_LOW : Fld := ⟨25, 1⟩
def SUP_TEMP : Nat := 0x40000084
def SUP_TEMP_DIE : Fld := ⟨0, 16⟩
def SUP_TEMP_STAGE : Fld := ⟨16, 16⟩
def SUP_RAIL_STAT : Nat := 0x40000088
def SUP_RAIL_STAT_GOOD : Fld := ⟨0, 5⟩
def SUP_RAIL_STAT_LAST_FAIL : Fld := ⟨8, 3⟩
def SUP_RAIL_STAT_FAIL_CNT : Fld := ⟨16, 8⟩
def SUP_SCRATCH : Nat := 0x4000008C
def SUP_SCRATCH_VALUE : Fld := ⟨0, 32⟩
def SUP_BKP_SERIAL_LO : Nat := 0x40000100
def SUP_BKP_SERIAL_LO_SERIAL : Fld := ⟨0, 32⟩
def SUP_BKP_SERIAL_HI : Nat := 0x40000104
def SUP_BKP_SERIAL_HI_SERIAL : Fld := ⟨0, 32⟩
def SUP_BKP_DIE : Nat := 0x40000108
def SUP_BKP_DIE_STEPPING : Fld := ⟨0, 4⟩
def SUP_BKP_DIE_VARIANT : Fld := ⟨4, 4⟩
def SUP_BKP_DIE_LOT : Fld := ⟨8, 24⟩
def SUP_BKP_KEYHASH (n : Nat) : Nat := 0x40000110 + 0x4 * n
def SUP_BKP_KEYHASH_HASH : Fld := ⟨0, 32⟩
def SUP_BKP_RSVD : Nat := 0x4000010C
def SUP_BKP_CHECK : Nat := 0x40000130
def SUP_BKP_CHECK_CRC : Fld := ⟨0, 32⟩
def SUP_L5_STAT (n : Nat) : Nat := 0x40000140 + 0x4 * n
def SUP_L5_STAT_FIRE_WIN : Fld := ⟨0, 2⟩
def SUP_L5_STAT_HELD : Fld := ⟨8, 1⟩
def SUP_L5_STAT_EXEMPT : Fld := ⟨9, 1⟩
def SUP_L5_STAT_SP : Nat := 0x4000019C
def SUP_L5_STAT_SP_FIRE_WIN : Fld := ⟨0, 2⟩
def SUP_L5_STAT_SP_HELD : Fld := ⟨8, 1⟩
def SUP_L5_STAT_SP_EXEMPT : Fld := ⟨9, 1⟩
/-! ### NVM: loader -/

def NVM_STAT : Nat := 0x40010000
def NVM_STAT_WINDOW : Fld := ⟨0, 1⟩
def NVM_STAT_STEP : Fld := ⟨1, 4⟩
def NVM_STAT_MODE : Fld := ⟨5, 2⟩
def NVM_STAT_ADDR4 : Fld := ⟨7, 1⟩
def NVM_STAT_CLK : Fld := ⟨8, 2⟩
def NVM_STAT_SFDP_OK : Fld := ⟨10, 1⟩
def NVM_STAT_DENSITY_LOG2 : Fld := ⟨11, 5⟩
def NVM_JEDEC_ID : Nat := 0x40010004
def NVM_JEDEC_ID_ID : Fld := ⟨0, 24⟩
def NVM_SLOT_STAT (n : Nat) : Nat := 0x40010010 + 0x4 * n
def NVM_SLOT_STAT_RESULT : Fld := ⟨0, 8⟩
def NVM_SLOT_STAT_SECTION : Fld := ⟨8, 8⟩
def NVM_IMG_VER : Nat := 0x40010018
def NVM_IMG_VER_VERSION : Fld := ⟨0, 32⟩
def NVM_IMG_BUILD : Nat := 0x4001001C
def NVM_IMG_BUILD_BUILD : Fld := ⟨0, 32⟩
def NVM_STEP_TIME (n : Nat) : Nat := 0x40010020 + 0x4 * n
def NVM_STEP_TIME_US : Fld := ⟨0, 32⟩
def NVM_ARCH_STAT : Nat := 0x40010050
def NVM_ARCH_STAT_NEWEST : Fld := ⟨0, 9⟩
def NVM_ARCH_STAT_FOUND : Fld := ⟨9, 1⟩
def NVM_ARCH_STAT_NEXT : Fld := ⟨10, 9⟩
def NVM_ARCH_STAT_PREPARED : Fld := ⟨19, 1⟩
/-! ### MTX: matrix -/

def MTX_REMAP : Nat := 0x40020010
def MTX_REMAP_SWAP : Fld := ⟨0, 1⟩
def MTX_TGT_CFG0 (n : Nat) : Nat := 0x40020020 + 0x4 * n
def MTX_TGT_CFG0_L2_CYC : Fld := ⟨0, 16⟩
def MTX_TGT_CFG2 : Nat := 0x40020028
def MTX_TGT_CFG2_L2_CYC : Fld := ⟨0, 16⟩
def MTX_TGT_CFG3 : Nat := 0x4002002C
def MTX_TGT_CFG3_L2_CYC : Fld := ⟨0, 16⟩
def MTX_TGT_CFG4 : Nat := 0x40020030
def MTX_TGT_CFG4_L2_CYC : Fld := ⟨0, 16⟩
def MTX_TGT_CFG5 : Nat := 0x40020034
def MTX_TGT_CFG5_L2_CYC : Fld := ⟨0, 16⟩
def MTX_TGT_CFG6 : Nat := 0x40020038
def MTX_TGT_CFG6_L2_CYC : Fld := ⟨0, 16⟩
def MTX_FENCE_CFG : Nat := 0x40020040
def MTX_FENCE_CFG_TIMEOUT_US : Fld := ⟨0, 14⟩
def MTX_FENCE : Nat := 0x40020044
def MTX_FENCE_TOKEN : Fld := ⟨0, 8⟩
def MTX_FENCE_GO : Fld := ⟨8, 1⟩
def MTX_FENCE_RESULT : Fld := ⟨16, 8⟩
def MTX_FENCE_FENCE_LO : Fld := ⟨24, 8⟩
def MTX_FENCE_NO : Nat := 0x40020048
def MTX_FENCE_NO_COMPLETED : Fld := ⟨0, 16⟩
def MTX_FENCE_NO_ISSUED : Fld := ⟨16, 16⟩
def MTX_FENCE_MISS : Nat := 0x4002004C
def MTX_FENCE_MISS_MISS : Fld := ⟨0, 24⟩
def MTX_ERR_LAST : Nat := 0x40020050
def MTX_ERR_LAST_PORT : Fld := ⟨0, 3⟩
def MTX_ERR_LAST_TARGET : Fld := ⟨4, 3⟩
def MTX_ERR_LAST_CODE : Fld := ⟨8, 3⟩
def MTX_ERR_LAST_ID : Fld := ⟨12, 4⟩
def MTX_ERR_LAST_WRITE : Fld := ⟨16, 1⟩
def MTX_ERR_ADDR : Nat := 0x40020054
def MTX_ERR_ADDR_ADDR : Fld := ⟨0, 32⟩
def MTX_LATE_CNT : Nat := 0x40020058
def MTX_LATE_CNT_CNT : Fld := ⟨0, 32⟩
def MTX_MERGE_CNT : Nat := 0x4002005C
def MTX_MERGE_CNT_CNT : Fld := ⟨0, 32⟩
def MTX_GATE_STAT (n : Nat) : Nat := 0x40020100 + 0x4 * n
def MTX_GATE_STAT_OFFLINE_LO : Fld := ⟨0, 1⟩
def MTX_GATE_STAT_OFFLINE_HI : Fld := ⟨1, 1⟩
def MTX_GATE_STAT_PHASE : Fld := ⟨2, 2⟩
def MTX_GATE_STAT_FIRE_WIN : Fld := ⟨8, 5⟩
def MTX_GATE_TO_CNT (n : Nat) : Nat := 0x40020200 + 0x4 * n
def MTX_GATE_TO_CNT_CNT : Fld := ⟨0, 32⟩
def MTX_TXN (n : Nat) (k : Nat) : Nat := 0x40020400 + 0x8 * n + 0x4 * k
def MTX_TXN_WORD : Fld := ⟨0, 32⟩
def MTX_ITC (n : Nat) (k : Nat) : Nat := 0x40020800 + 0x8 * n + 0x4 * k
def MTX_ITC_WORD : Fld := ⟨0, 32⟩
/-! ### EVT: event hub -/

def EVT_CFG : Nat := 0x40030000
def EVT_CFG_SPI_EN : Fld := ⟨0, 1⟩
def EVT_CFG_I2C_EN : Fld := ⟨1, 1⟩
def EVT_CFG_UNLOCK_TO_S : Fld := ⟨2, 10⟩
def EVT_STAT : Nat := 0x40030004
def EVT_STAT_QUEUE : Fld := ⟨0, 10⟩
def EVT_STAT_LOSING : Fld := ⟨10, 1⟩
def EVT_STAT_JUMPED : Fld := ⟨11, 1⟩
def EVT_STAT_INTA : Fld := ⟨12, 1⟩
def EVT_STAT_INTB : Fld := ⟨13, 1⟩
def EVT_LEDGER_NEXT (n : Nat) : Nat := 0x40030008 + 0x4 * n
def EVT_LEDGER_NEXT_WORD : Fld := ⟨0, 32⟩
def EVT_GAP_CNT : Nat := 0x40030018
def EVT_GAP_CNT_CNT : Fld := ⟨0, 32⟩
def EVT_MGMT_UNLOCK : Nat := 0x40030040
def EVT_MGMT_UNLOCK_STATE : Fld := ⟨0, 2⟩
def EVT_MGMT_UNLOCK_UNLOCK_FAIL : Fld := ⟨8, 8⟩
def EVT_MGMT_REF : Nat := 0x40030048
def EVT_MGMT_REF_ADDR : Fld := ⟨0, 32⟩
def EVT_MGMT_REF_CODE : Nat := 0x4003004C
def EVT_MGMT_REF_CODE_CODE : Fld := ⟨0, 3⟩
def EVT_MGMT_REF_CODE_WRITE : Fld := ⟨8, 1⟩
def EVT_ISL_LOST_CNT (n : Nat) : Nat := 0x40030100 + 0x4 * n
def EVT_ISL_LOST_CNT_CNT : Fld := ⟨0, 32⟩
def EVT_PEND (n : Nat) : Nat := 0x40030200 + 0x4 * n
def EVT_PEND_PEND : Fld := ⟨0, 32⟩
def EVT_EVENT_CFG (n : Nat) : Nat := 0x40031000 + 0x4 * n
def EVT_EVENT_CFG_LOG : Fld := ⟨0, 1⟩
def EVT_EVENT_CFG_INTA : Fld := ⟨1, 1⟩
def EVT_EVENT_CFG_INTB : Fld := ⟨2, 1⟩
def EVT_CNT (n : Nat) : Nat := 0x40033000 + 0x4 * n
def EVT_CNT_CNT : Fld := ⟨0, 32⟩
/-! ### INV: Inventory -/

def INV_CFG : Nat := 0x40040000
def INV_CFG_TICK_EN : Fld := ⟨0, 1⟩
def INV_SNAPSHOT : Nat := 0x40040004
def INV_SNAPSHOT_TOKEN : Fld := ⟨0, 8⟩
def INV_SNAPSHOT_GO : Fld := ⟨8, 1⟩
def INV_SNAPSHOT_RESULT : Fld := ⟨16, 8⟩
def INV_SNAPSHOT_SEQ_LO : Fld := ⟨24, 8⟩
def INV_STAT : Nat := 0x40040008
def INV_STAT_ACTIVE : Fld := ⟨0, 1⟩
def INV_STAT_GATHERING : Fld := ⟨1, 1⟩
def INV_STAT_HELD : Fld := ⟨2, 1⟩
def INV_STAT_SEQ : Fld := ⟨16, 16⟩
def INV_MERGE_CNT : Nat := 0x4004000C
def INV_MERGE_CNT_CNT : Fld := ⟨0, 32⟩
/-! ### CHK: check units -/

def CHK_RESULT (n : Nat) : Nat := 0x40050100 + 0x10 * n
def CHK_RESULT_VALUE : Fld := ⟨0, 32⟩
def CHK_RUN (n : Nat) : Nat := 0x40050104 + 0x10 * n
def CHK_RUN_VALUE : Fld := ⟨0, 32⟩
def CHK_STAT (n : Nat) : Nat := 0x40050108 + 0x10 * n
def CHK_STAT_RUNNING : Fld := ⟨0, 1⟩
def CHK_STAT_MISMATCH : Fld := ⟨1, 1⟩
def CHK_BYTE_CNT (n : Nat) : Nat := 0x40050800 + 0x10 * n
def CHK_BYTE_CNT_CNT : Fld := ⟨0, 32⟩
def CHK_BLOCK_CNT (n : Nat) : Nat := 0x40050804 + 0x10 * n
def CHK_BLOCK_CNT_CNT : Fld := ⟨0, 32⟩
def CHK_MATCH_CNT (n : Nat) : Nat := 0x40050808 + 0x10 * n
def CHK_MATCH_CNT_CNT : Fld := ⟨0, 32⟩
def CHK_MISMATCH_CNT (n : Nat) : Nat := 0x4005080C + 0x10 * n
def CHK_MISMATCH_CNT_CNT : Fld := ⟨0, 32⟩
def CHK_ENTRY0 (n : Nat) : Nat := 0x40051000 + 0x20 * n
def CHK_ENTRY0_EN : Fld := ⟨0, 1⟩
def CHK_ENTRY0_TAP : Fld := ⟨1, 7⟩
def CHK_ENTRY0_WIDTH : Fld := ⟨8, 5⟩
def CHK_ENTRY0_REFIN : Fld := ⟨13, 1⟩
def CHK_ENTRY0_REFOUT : Fld := ⟨14, 1⟩
def CHK_ENTRY0_MODE : Fld := ⟨15, 2⟩
def CHK_ENTRY0_SEL : Fld := ⟨17, 13⟩
def CHK_POLY (n : Nat) : Nat := 0x40051004 + 0x20 * n
def CHK_POLY_VALUE : Fld := ⟨0, 32⟩
def CHK_INIT (n : Nat) : Nat := 0x40051008 + 0x20 * n
def CHK_INIT_VALUE : Fld := ⟨0, 32⟩
def CHK_XOROUT (n : Nat) : Nat := 0x4005100C + 0x20 * n
def CHK_XOROUT_VALUE : Fld := ⟨0, 32⟩
def CHK_EXPECT (n : Nat) : Nat := 0x40051010 + 0x20 * n
def CHK_EXPECT_VALUE : Fld := ⟨0, 32⟩
def CHK_RSVD (n : Nat) (k : Nat) : Nat := 0x40051014 + 0x20 * n + 0x4 * k
/-! ### LINE: line ports -/

def LINE_CFG (n : Nat) : Nat := 0x40100000 + 0x10000 * n
def LINE_CFG_EN : Fld := ⟨0, 1⟩
def LINE_CFG_RATE : Fld := ⟨1, 2⟩
def LINE_CFG_SONET : Fld := ⟨3, 1⟩
def LINE_CFG_SCR_EN : Fld := ⟨4, 1⟩
def LINE_CFG_LOS_SRC : Fld := ⟨5, 2⟩
def LINE_CFG_ALS_EN : Fld := ⟨7, 1⟩
def LINE_CFG_AIS_ON_TIM : Fld := ⟨8, 1⟩
def LINE_CFG_RX_INV : Fld := ⟨9, 1⟩
def LINE_CFG_TX_INV : Fld := ⟨10, 1⟩
def LINE_STAT (n : Nat) : Nat := 0x40100004 + 0x10000 * n
def LINE_STAT_LOS : Fld := ⟨0, 1⟩
def LINE_STAT_OOF : Fld := ⟨1, 1⟩
def LINE_STAT_LOF : Fld := ⟨2, 1⟩
def LINE_STAT_TIM : Fld := ⟨3, 1⟩
def LINE_STAT_MSAIS : Fld := ⟨4, 1⟩
def LINE_STAT_MSRDI : Fld := ⟨5, 1⟩
def LINE_STAT_SF : Fld := ⟨6, 1⟩
def LINE_STAT_SD : Fld := ⟨7, 1⟩
def LINE_STAT_KINC : Fld := ⟨8, 1⟩
def LINE_STAT_MOD_ABS : Fld := ⟨9, 1⟩
def LINE_STAT_LOS_PIN : Fld := ⟨10, 1⟩
def LINE_STAT_HOLDOFF : Fld := ⟨11, 1⟩
def LINE_STAT_TSF : Fld := ⟨12, 1⟩
def LINE_STAT_TSD : Fld := ⟨13, 1⟩
def LINE_STAT_AIS_OUT : Fld := ⟨14, 1⟩
def LINE_STAT_TXDIS : Fld := ⟨15, 1⟩
def LINE_STAT_CDR_LOCK : Fld := ⟨16, 1⟩
def LINE_STAT_DISABLED : Fld := ⟨17, 1⟩
def LINE_STICKY (n : Nat) : Nat := 0x40100008 + 0x10000 * n
def LINE_STICKY_BITS : Fld := ⟨0, 14⟩
def LINE_LOS_CFG (n : Nat) : Nat := 0x40100010 + 0x10000 * n
def LINE_LOS_CFG_LOS_T_US : Fld := ⟨0, 7⟩
def LINE_FRM_STAT (n : Nat) : Nat := 0x40100014 + 0x10000 * n
def LINE_FRM_STAT_STATE : Fld := ⟨0, 3⟩
def LINE_FRM_STAT_LOFI : Fld := ⟨3, 5⟩
def LINE_FRM_STAT_ALS : Fld := ⟨16, 3⟩
def LINE_SERDES_CFG (n : Nat) : Nat := 0x40100018 + 0x10000 * n
def LINE_SERDES_CFG_TX_SWING : Fld := ⟨0, 4⟩
def LINE_SERDES_CFG_RX_EQ : Fld := ⟨4, 4⟩
def LINE_ALS_CFG (n : Nat) : Nat := 0x40100020 + 0x10000 * n
def LINE_ALS_CFG_DEACT_MS : Fld := ⟨0, 10⟩
def LINE_ALS_CFG_RESTART_S : Fld := ⟨10, 9⟩
def LINE_ALS_CFG_PULSE_MS : Fld := ⟨19, 12⟩
def LINE_ALS_CMD (n : Nat) : Nat := 0x40100024 + 0x10000 * n
def LINE_ALS_CMD_TOKEN : Fld := ⟨0, 8⟩
def LINE_ALS_CMD_CMD : Fld := ⟨8, 2⟩
def LINE_ALS_CMD_RESULT : Fld := ⟨16, 8⟩
def LINE_J0_CFG (n : Nat) : Nat := 0x40100030 + 0x10000 * n
def LINE_J0_CFG_MODE : Fld := ⟨0, 2⟩
def LINE_J0_EXP (n : Nat) (k : Nat) : Nat := 0x40100040 + 0x10000 * n + 0x4 * k
def LINE_J0_EXP_WORD : Fld := ⟨0, 32⟩
def LINE_J0_ACC (n : Nat) (k : Nat) : Nat := 0x40100080 + 0x10000 * n + 0x4 * k
def LINE_J0_ACC_WORD : Fld := ⟨0, 32⟩
def LINE_J0_TX (n : Nat) (k : Nat) : Nat := 0x401000C0 + 0x10000 * n + 0x4 * k
def LINE_J0_TX_WORD : Fld := ⟨0, 32⟩
def LINE_K_CFG (n : Nat) : Nat := 0x40100100 + 0x10000 * n
def LINE_K_CFG_PERSIST : Fld := ⟨0, 3⟩
def LINE_K_RX (n : Nat) : Nat := 0x40100104 + 0x10000 * n
def LINE_K_RX_K1 : Fld := ⟨0, 8⟩
def LINE_K_RX_K2_LOW : Fld := ⟨8, 3⟩
def LINE_K_RX_K2_HIGH : Fld := ⟨11, 5⟩
def LINE_K_RX_VALID : Fld := ⟨16, 1⟩
def LINE_K_TX (n : Nat) : Nat := 0x40100108 + 0x10000 * n
def LINE_K_TX_K1 : Fld := ⟨0, 8⟩
def LINE_K_TX_K2 : Fld := ⟨8, 8⟩
def LINE_K_RAW (n : Nat) : Nat := 0x4010010C + 0x10000 * n
def LINE_K_RAW_K1 : Fld := ⟨0, 8⟩
def LINE_K_RAW_K2 : Fld := ⟨8, 8⟩
def LINE_S1 (n : Nat) : Nat := 0x40100110 + 0x10000 * n
def LINE_S1_RX : Fld := ⟨0, 4⟩
def LINE_S1_RX_VALID : Fld := ⟨4, 1⟩
def LINE_S1_TX : Fld := ⟨8, 4⟩
def LINE_OH_RX (n : Nat) : Nat := 0x40100114 + 0x10000 * n
def LINE_OH_RX_E1 : Fld := ⟨0, 8⟩
def LINE_OH_RX_E2 : Fld := ⟨8, 8⟩
def LINE_OH_RX_F1 : Fld := ⟨16, 8⟩
def LINE_OH_TX (n : Nat) : Nat := 0x40100118 + 0x10000 * n
def LINE_OH_TX_E1 : Fld := ⟨0, 8⟩
def LINE_OH_TX_E2 : Fld := ⟨8, 8⟩
def LINE_OH_TX_F1 : Fld := ⟨16, 8⟩
def LINE_DCC_CFG (n : Nat) : Nat := 0x4010011C + 0x10000 * n
def LINE_DCC_CFG_RS_FIX : Fld := ⟨0, 1⟩
def LINE_DCC_CFG_MS_FIX : Fld := ⟨1, 1⟩
def LINE_DCC_CFG_PEER : Fld := ⟨2, 3⟩
def LINE_DCC_CFG_FILL : Fld := ⟨8, 8⟩
def LINE_DEG_CFG (n : Nat) : Nat := 0x40100140 + 0x10000 * n
def LINE_DEG_CFG_SD_EXP : Fld := ⟨0, 4⟩
def LINE_DEG_CFG_SF_EXP : Fld := ⟨4, 4⟩
def LINE_DEG_CFG_AIS_ON_SF : Fld := ⟨8, 1⟩
def LINE_BER_STAT (n : Nat) : Nat := 0x40100144 + 0x10000 * n
def LINE_BER_STAT_DEG_SUM : Fld := ⟨0, 16⟩
def LINE_BER_STAT_EXC_SUM : Fld := ⟨16, 16⟩
def LINE_FORCE (n : Nat) : Nat := 0x40100160 + 0x10000 * n
def LINE_FORCE_MSAIS : Fld := ⟨0, 1⟩
def LINE_FORCE_MSRDI : Fld := ⟨1, 1⟩
def LINE_FORCE_B1_ERR : Fld := ⟨2, 1⟩
def LINE_FORCE_B2_ERR_N : Fld := ⟨8, 8⟩
def LINE_B1_CNT (n : Nat) : Nat := 0x40100200 + 0x10000 * n
def LINE_B1_CNT_CNT : Fld := ⟨0, 32⟩
def LINE_B2_CNT (n : Nat) : Nat := 0x40100204 + 0x10000 * n
def LINE_B2_CNT_CNT : Fld := ⟨0, 32⟩
def LINE_REI_CNT (n : Nat) : Nat := 0x40100208 + 0x10000 * n
def LINE_REI_CNT_CNT : Fld := ⟨0, 32⟩
def LINE_OOF_CNT (n : Nat) : Nat := 0x4010020C + 0x10000 * n
def LINE_OOF_CNT_CNT : Fld := ⟨0, 32⟩
def LINE_J0_CRC_CNT (n : Nat) : Nat := 0x40100210 + 0x10000 * n
def LINE_J0_CRC_CNT_CNT : Fld := ⟨0, 32⟩
/-! ### PATH: path processors -/

def PATH_SLOT_CFG (n : Nat) : Nat := 0x40200000 + 0x8 * n
def PATH_SLOT_CFG_EN : Fld := ⟨0, 1⟩
def PATH_SLOT_CFG_PORT : Fld := ⟨1, 3⟩
def PATH_SLOT_CFG_AUG : Fld := ⟨4, 4⟩
def PATH_SLOT_CFG_STRUCT : Fld := ⟨8, 2⟩
def PATH_SLOT_CFG_TERM : Fld := ⟨10, 3⟩
def PATH_SLOT_CFG_MON : Fld := ⟨13, 3⟩
def PATH_SLOT_MAP (n : Nat) : Nat := 0x40200004 + 0x8 * n
def PATH_SLOT_MAP_CONTENT1 : Fld := ⟨0, 2⟩
def PATH_SLOT_MAP_MASK1 : Fld := ⟨2, 7⟩
def PATH_SLOT_MAP_CONTENT2 : Fld := ⟨9, 2⟩
def PATH_SLOT_MAP_MASK2 : Fld := ⟨11, 7⟩
def PATH_SLOT_MAP_CONTENT3 : Fld := ⟨18, 2⟩
def PATH_SLOT_MAP_MASK3 : Fld := ⟨20, 7⟩
def PATH_HO_DEG_CFG : Nat := 0x40200400
def PATH_HO_DEG_CFG_DEGTHR : Fld := ⟨0, 13⟩
def PATH_HO_DEG_CFG_DEGM : Fld := ⟨13, 4⟩
def PATH_HO_DEG_CFG_EXCTHR : Fld := ⟨17, 13⟩
def PATH_LO_DEG_CFG : Nat := 0x40200404
def PATH_LO_DEG_CFG_DEGTHR : Fld := ⟨0, 13⟩
def PATH_LO_DEG_CFG_DEGM : Fld := ⟨13, 4⟩
def PATH_LO_DEG_CFG_EXCTHR : Fld := ⟨17, 13⟩
def PATH_SUM (n : Nat) : Nat := 0x40200410 + 0x4 * n
def PATH_SUM_BITS : Fld := ⟨0, 32⟩
def PATH_B3_CNT (n : Nat) : Nat := 0x40200800 + 0x4 * n
def PATH_B3_CNT_CNT : Fld := ⟨0, 32⟩
def PATH_HREI_CNT (n : Nat) : Nat := 0x40200B00 + 0x4 * n
def PATH_HREI_CNT_CNT : Fld := ⟨0, 32⟩
def PATH_HO0 (n : Nat) : Nat := 0x40201000 + 0x10 * n
def PATH_HO0_J1_MODE : Fld := ⟨0, 2⟩
def PATH_HO0_TIM_NOAIS : Fld := ⟨2, 1⟩
def PATH_HO0_C2_EXP : Fld := ⟨8, 8⟩
def PATH_HO1 (n : Nat) : Nat := 0x40201004 + 0x10 * n
def PATH_HO1_PTR_STATE : Fld := ⟨0, 2⟩
def PATH_HO1_AIS : Fld := ⟨2, 1⟩
def PATH_HO1_LOP : Fld := ⟨3, 1⟩
def PATH_HO1_UNEQ : Fld := ⟨4, 1⟩
def PATH_HO1_PLM : Fld := ⟨5, 1⟩
def PATH_HO1_TIM : Fld := ⟨6, 1⟩
def PATH_HO1_RDI : Fld := ⟨7, 1⟩
def PATH_HO1_EXC : Fld := ⟨8, 1⟩
def PATH_HO1_DEG : Fld := ⟨9, 1⟩
def PATH_HO1_LOM : Fld := ⟨10, 1⟩
def PATH_HO1_TSF_N : Fld := ⟨11, 1⟩
def PATH_HO1_TSF_I : Fld := ⟨12, 1⟩
def PATH_HO1_TSD : Fld := ⟨13, 1⟩
def PATH_HO1_C2_RX : Fld := ⟨16, 8⟩
def PATH_HO2 (n : Nat) : Nat := 0x40201008 + 0x10 * n
def PATH_HO2_PTR_RX : Fld := ⟨0, 10⟩
def PATH_HO2_PTR_TX : Fld := ⟨16, 10⟩
def PATH_HO3 (n : Nat) : Nat := 0x4020100C + 0x10 * n
def PATH_HO3_ES_FILL : Fld := ⟨0, 8⟩
def PATH_HO3_ADJ_TX : Fld := ⟨16, 8⟩
def PATH_HO3_ADJ_RX : Fld := ⟨24, 8⟩
def PATH_J1_EXP (n : Nat) (k : Nat) : Nat := 0x40202000 + 0x40 * n + 0x4 * k
def PATH_J1_EXP_WORD : Fld := ⟨0, 32⟩
def PATH_J1_TX (n : Nat) (k : Nat) : Nat := 0x40205000 + 0x40 * n + 0x4 * k
def PATH_J1_TX_WORD : Fld := ⟨0, 32⟩
def PATH_J1_ACC (n : Nat) (k : Nat) : Nat := 0x40208000 + 0x40 * n + 0x4 * k
def PATH_J1_ACC_WORD : Fld := ⟨0, 32⟩
def PATH_J2_PROF (n : Nat) (k : Nat) : Nat := 0x4020B000 + 0x10 * n + 0x4 * k
def PATH_J2_PROF_WORD : Fld := ⟨0, 32⟩
def PATH_LO0 (n : Nat) : Nat := 0x4020D000 + 0x10 * n
def PATH_LO0_EXP_PROF : Fld := ⟨0, 9⟩
def PATH_LO0_TX_PROF : Fld := ⟨9, 9⟩
def PATH_LO0_TRACE_EN : Fld := ⟨18, 1⟩
def PATH_LO0_TIM_NOAIS : Fld := ⟨19, 1⟩
def PATH_LO0_C2_EXP : Fld := ⟨24, 8⟩
def PATH_LO1 (n : Nat) : Nat := 0x4020D004 + 0x10 * n
def PATH_LO1_PTR_STATE : Fld := ⟨0, 2⟩
def PATH_LO1_AIS : Fld := ⟨2, 1⟩
def PATH_LO1_LOP : Fld := ⟨3, 1⟩
def PATH_LO1_UNEQ : Fld := ⟨4, 1⟩
def PATH_LO1_PLM : Fld := ⟨5, 1⟩
def PATH_LO1_TIM : Fld := ⟨6, 1⟩
def PATH_LO1_RDI : Fld := ⟨7, 1⟩
def PATH_LO1_EXC : Fld := ⟨8, 1⟩
def PATH_LO1_DEG : Fld := ⟨9, 1⟩
def PATH_LO1_SSF : Fld := ⟨10, 1⟩
def PATH_LO1_TSF_N : Fld := ⟨11, 1⟩
def PATH_LO1_TSF_I : Fld := ⟨12, 1⟩
def PATH_LO1_TSD : Fld := ⟨13, 1⟩
def PATH_LO1_LABEL_RX : Fld := ⟨16, 8⟩
def PATH_LO2 (n : Nat) : Nat := 0x4020D008 + 0x10 * n
def PATH_LO2_EB : Fld := ⟨0, 11⟩
def PATH_LO2_REI : Fld := ⟨16, 11⟩
def PATH_LO3 (n : Nat) : Nat := 0x4020D00C + 0x10 * n
def PATH_LO3_PTR_RX : Fld := ⟨0, 10⟩
def PATH_LO3_PTR_TX : Fld := ⟨16, 10⟩
def PATH_LO3_ES_FILL : Fld := ⟨26, 6⟩
def PATH_J2_ACC (n : Nat) (k : Nat) : Nat := 0x40222000 + 0x10 * n + 0x4 * k
def PATH_J2_ACC_WORD : Fld := ⟨0, 32⟩
/-! ### IDX: Index -/

def IDX_SNCP_CFG : Nat := 0x40240000
def IDX_SNCP_CFG_HOLDOFF : Fld := ⟨0, 7⟩
def IDX_SNCP_CFG_WTR_MIN : Fld := ⟨8, 4⟩
def IDX_STAT : Nat := 0x40240004
def IDX_STAT_ACTIVE : Fld := ⟨0, 13⟩
def IDX_STAT_CHECK_FAIL : Fld := ⟨16, 1⟩
def IDX_STAT_CONFLICT : Fld := ⟨17, 1⟩
def IDX_CHECK_CNT : Nat := 0x40240008
def IDX_CHECK_CNT_CNT : Fld := ⟨0, 32⟩
def IDX_SWITCH_CNT : Nat := 0x4024000C
def IDX_SWITCH_CNT_CNT : Fld := ⟨0, 32⟩
def IDX_CHECK_LAST : Nat := 0x40240010
def IDX_CHECK_LAST_ENTRY : Fld := ⟨0, 12⟩
def IDX_ENTRY_A (n : Nat) : Nat := 0x40250000 + 0x10 * n
def IDX_ENTRY_A_FIELDS : Fld := ⟨0, 28⟩
def IDX_ENTRY_A_TYPE : Fld := ⟨28, 4⟩
def IDX_ENTRY_B (n : Nat) : Nat := 0x40250004 + 0x10 * n
def IDX_ENTRY_B_FIELDS : Fld := ⟨0, 28⟩
def IDX_ENTRY_B_TYPE : Fld := ⟨28, 4⟩
def IDX_ENTRY_AP (n : Nat) : Nat := 0x40250008 + 0x10 * n
def IDX_ENTRY_AP_FIELDS : Fld := ⟨0, 28⟩
def IDX_ENTRY_AP_TYPE : Fld := ⟨28, 4⟩
def IDX_ENTRY_W3 (n : Nat) : Nat := 0x4025000C + 0x10 * n
def IDX_ENTRY_W3_VALID : Fld := ⟨0, 1⟩
def IDX_ENTRY_W3_SNCP : Fld := ⟨1, 2⟩
def IDX_ENTRY_W3_REVERT : Fld := ⟨3, 1⟩
def IDX_ENTRY_W3_CMD : Fld := ⟨4, 3⟩
def IDX_ENTRY_W3_CHECK : Fld := ⟨16, 16⟩
def IDX_STATUS (n : Nat) : Nat := 0x40260000 + 0x4 * n
def IDX_STATUS_ACTIVE : Fld := ⟨0, 1⟩
def IDX_STATUS_CHECK_FAIL : Fld := ⟨1, 1⟩
def IDX_STATUS_CONFLICT : Fld := ⟨2, 1⟩
def IDX_STATUS_SEL : Fld := ⟨3, 1⟩
def IDX_STATUS_REQ : Fld := ⟨4, 4⟩
def IDX_STATUS_WTR_LEFT : Fld := ⟨8, 8⟩
def IDX_STATUS_SF_A : Fld := ⟨16, 1⟩
def IDX_STATUS_SD_A : Fld := ⟨17, 1⟩
def IDX_STATUS_SF_AP : Fld := ⟨18, 1⟩
def IDX_STATUS_SD_AP : Fld := ⟨19, 1⟩
/-! ### TRIB: tributary ports -/

def TRIB_GRP_CFG (n : Nat) : Nat := 0x40300000 + 0x4 * n
def TRIB_GRP_CFG_MODE : Fld := ⟨0, 1⟩
def TRIB_CLK_STAT : Nat := 0x40300020
def TRIB_CLK_STAT_VALID : Fld := ⟨0, 4⟩
def TRIB_TPL_CFG (n : Nat) : Nat := 0x40300040 + 0x4 * n
def TRIB_TPL_CFG_MASK : Fld := ⟨0, 2⟩
def TRIB_CFG (n : Nat) : Nat := 0x40300100 + 0x40 * n
def TRIB_CFG_EN : Fld := ⟨0, 1⟩
def TRIB_CFG_CODE : Fld := ⟨1, 2⟩
def TRIB_CFG_FRAMING : Fld := ⟨3, 3⟩
def TRIB_CFG_TEMPLATE : Fld := ⟨6, 4⟩
def TRIB_CFG_AMP_TRIM : Fld := ⟨10, 8⟩
def TRIB_CFG_RX_LONG : Fld := ⟨18, 1⟩
def TRIB_CFG_TX_RETIME : Fld := ⟨19, 1⟩
def TRIB_CFG_AIS_ON_LOF : Fld := ⟨20, 1⟩
def TRIB_CFG_CRC4_IW : Fld := ⟨21, 1⟩
def TRIB_CFG_DESYNC_BW : Fld := ⟨22, 3⟩
def TRIB_LOS_CFG (n : Nat) : Nat := 0x40300104 + 0x40 * n
def TRIB_LOS_CFG_N_LOS : Fld := ⟨0, 8⟩
def TRIB_LOS_CFG_LOF_MS : Fld := ⟨8, 12⟩
def TRIB_STAT (n : Nat) : Nat := 0x40300108 + 0x40 * n
def TRIB_STAT_LOS : Fld := ⟨0, 1⟩
def TRIB_STAT_AIS : Fld := ⟨1, 1⟩
def TRIB_STAT_OOF : Fld := ⟨2, 1⟩
def TRIB_STAT_LOF : Fld := ⟨3, 1⟩
def TRIB_STAT_RAI : Fld := ⟨4, 1⟩
def TRIB_STAT_CDR_LOCK : Fld := ⟨5, 1⟩
def TRIB_STAT_AIS_TO_IDX : Fld := ⟨6, 1⟩
def TRIB_STAT_AIS_TX : Fld := ⟨7, 1⟩
def TRIB_STAT_DRIVEN : Fld := ⟨8, 1⟩
def TRIB_STAT_FAC : Fld := ⟨9, 1⟩
def TRIB_STAT_DISABLED : Fld := ⟨10, 1⟩
def TRIB_STICKY (n : Nat) : Nat := 0x4030010C + 0x40 * n
def TRIB_STICKY_BITS : Fld := ⟨0, 5⟩
def TRIB_FRM_STAT (n : Nat) : Nat := 0x40300110 + 0x40 * n
def TRIB_FRM_STAT_RX_STATE : Fld := ⟨0, 2⟩
def TRIB_FRM_STAT_CRC4 : Fld := ⟨2, 2⟩
def TRIB_FRM_STAT_TX_STATE : Fld := ⟨4, 2⟩
def TRIB_FRM_STAT_SA : Fld := ⟨8, 5⟩
def TRIB_FRM_STAT_A : Fld := ⟨13, 1⟩
def TRIB_FRM_STAT_FDL : Fld := ⟨16, 16⟩
def TRIB_TX_STAT (n : Nat) : Nat := 0x40300114 + 0x40 * n
def TRIB_TX_STAT_FILL : Fld := ⟨0, 10⟩
def TRIB_TX_STAT_OFFSET : Fld := ⟨16, 16⟩
def TRIB_MAINT (n : Nat) : Nat := 0x40300118 + 0x40 * n
def TRIB_MAINT_LLOOP : Fld := ⟨0, 1⟩
def TRIB_MAINT_FORCE_AIS_TX : Fld := ⟨1, 1⟩
def TRIB_MAINT_FORCE_AIS_RX : Fld := ⟨2, 1⟩
def TRIB_CV_CNT (n : Nat) : Nat := 0x40300120 + 0x40 * n
def TRIB_CV_CNT_CNT : Fld := ⟨0, 32⟩
def TRIB_FAS_CNT (n : Nat) : Nat := 0x40300124 + 0x40 * n
def TRIB_FAS_CNT_CNT : Fld := ⟨0, 32⟩
def TRIB_CRC_CNT (n : Nat) : Nat := 0x40300128 + 0x40 * n
def TRIB_CRC_CNT_CNT : Fld := ⟨0, 32⟩
def TRIB_REI_CNT (n : Nat) : Nat := 0x4030012C + 0x40 * n
def TRIB_REI_CNT_CNT : Fld := ⟨0, 32⟩
def TRIB_SLIP_CNT (n : Nat) : Nat := 0x40300130 + 0x40 * n
def TRIB_SLIP_CNT_CNT : Fld := ⟨0, 32⟩
def TRIB_SAT_CNT (n : Nat) : Nat := 0x40300134 + 0x40 * n
def TRIB_SAT_CNT_CNT : Fld := ⟨0, 32⟩
def TRIB_TPL_ROM (n : Nat) (k : Nat) : Nat := 0x40310000 + 0x200 * n + 0x4 * k
def TRIB_TPL_ROM_WORD : Fld := ⟨0, 32⟩
def TRIB_TPL (n : Nat) (k : Nat) : Nat := 0x40311000 + 0x200 * n + 0x4 * k
def TRIB_TPL_WORD : Fld := ⟨0, 32⟩
/-! ### PW: pseudowires -/

def PW_PORT_CFG (n : Nat) : Nat := 0x40400100 + 0x80 * n
def PW_PORT_CFG_MODE : Fld := ⟨0, 2⟩
def PW_PORT_CFG_AN_EN : Fld := ⟨2, 1⟩
def PW_PORT_CFG_RX_INV : Fld := ⟨3, 1⟩
def PW_PORT_CFG_TX_INV : Fld := ⟨4, 1⟩
def PW_PORT_MAC_LO (n : Nat) : Nat := 0x40400104 + 0x80 * n
def PW_PORT_MAC_LO_MAC : Fld := ⟨0, 32⟩
def PW_PORT_MAC_HI (n : Nat) : Nat := 0x40400108 + 0x80 * n
def PW_PORT_MAC_HI_MAC : Fld := ⟨0, 16⟩
def PW_PORT_STAT (n : Nat) : Nat := 0x4040010C + 0x80 * n
def PW_PORT_STAT_LINK : Fld := ⟨0, 1⟩
def PW_PORT_STAT_SYNC : Fld := ⟨1, 1⟩
def PW_PORT_STAT_AN_DONE : Fld := ⟨2, 1⟩
def PW_PORT_STAT_FLOWS : Fld := ⟨16, 10⟩
def PW_PORT_SERDES_CFG (n : Nat) : Nat := 0x40400110 + 0x80 * n
def PW_PORT_SERDES_CFG_TX_SWING : Fld := ⟨0, 4⟩
def PW_PORT_SERDES_CFG_RX_EQ : Fld := ⟨4, 4⟩
def PW_PORT_CNT (n : Nat) (k : Nat) : Nat := 0x40400140 + 0x80 * n + 0x4 * k
def PW_PORT_CNT_CNT : Fld := ⟨0, 32⟩
def PW_CFG (n : Nat) : Nat := 0x40410000 + 0x20 * n
def PW_CFG_EN : Fld := ⟨0, 1⟩
def PW_CFG_HOME : Fld := ⟨1, 1⟩
def PW_CFG_KIND : Fld := ⟨2, 2⟩
def PW_CFG_PROFILE : Fld := ⟨4, 7⟩
def PW_CFG_RTP_EN : Fld := ⟨11, 1⟩
def PW_CFG_CLOCK : Fld := ⟨12, 2⟩
def PW_CFG_SUBST : Fld := ⟨14, 2⟩
def PW_CFG_P : Fld := ⟨16, 11⟩
def PW_CFG_JB_LOG2 : Fld := ⟨27, 4⟩
def PW_KEY (n : Nat) : Nat := 0x40410004 + 0x20 * n
def PW_KEY_KEY : Fld := ⟨0, 20⟩
def PW_TXKEY (n : Nat) : Nat := 0x40410008 + 0x20 * n
def PW_TXKEY_KEY : Fld := ⟨0, 20⟩
def PW_JB (n : Nat) : Nat := 0x4041000C + 0x20 * n
def PW_JB_TARGET : Fld := ⟨0, 16⟩
def PW_JB_LOPS_N : Fld := ⟨16, 4⟩
def PW_JB_LOPS_EXIT : Fld := ⟨20, 4⟩
def PW_JB_IDLE : Fld := ⟨24, 8⟩
def PW_SLOTS (n : Nat) : Nat := 0x40410010 + 0x20 * n
def PW_SLOTS_MASK : Fld := ⟨0, 32⟩
def PW_GUAR (n : Nat) : Nat := 0x40410014 + 0x20 * n
def PW_GUAR_GUAR : Fld := ⟨0, 9⟩
def PW_RTP (n : Nat) : Nat := 0x40410018 + 0x20 * n
def PW_RTP_PT : Fld := ⟨0, 7⟩
def PW_SSRC (n : Nat) : Nat := 0x4041001C + 0x20 * n
def PW_SSRC_SSRC : Fld := ⟨0, 32⟩
def PW_PROF0 (n : Nat) : Nat := 0x40420000 + 0x40 * n
def PW_PROF0_ENCAP : Fld := ⟨0, 3⟩
def PW_PROF0_TAGS : Fld := ⟨3, 2⟩
def PW_PROF0_TC : Fld := ⟨5, 3⟩
def PW_PROF0_TTL : Fld := ⟨8, 8⟩
def PW_PROF0_DSCP : Fld := ⟨16, 6⟩
def PW_PROF0_UDP0_OK : Fld := ⟨22, 1⟩
def PW_PROF0_TUNNEL : Fld := ⟨23, 1⟩
def PW_PROF1 (n : Nat) : Nat := 0x40420004 + 0x40 * n
def PW_PROF1_TUNNEL_LABEL : Fld := ⟨0, 20⟩
def PW_PROF_WORDS (n : Nat) (k : Nat) : Nat := 0x40420008 + 0x40 * n + 0x4 * k
def PW_PROF_WORDS_WORD : Fld := ⟨0, 32⟩
def PW_PROF14 (n : Nat) : Nat := 0x40420038 + 0x40 * n
def PW_PROF14_FLOW_LABEL : Fld := ⟨0, 20⟩
def PW_PROF15 (n : Nat) : Nat := 0x4042003C + 0x40 * n
def PW_STAT (n : Nat) : Nat := 0x40430000 + 0x10 * n
def PW_STAT_STATE : Fld := ⟨0, 2⟩
def PW_STAT_L_RX : Fld := ⟨2, 1⟩
def PW_STAT_R_RX : Fld := ⟨3, 1⟩
def PW_STAT_L_TX : Fld := ⟨4, 1⟩
def PW_STAT_R_TX : Fld := ⟨5, 1⟩
def PW_STAT_DRAINING : Fld := ⟨6, 1⟩
def PW_STAT_LAST_DISC : Fld := ⟨8, 4⟩
def PW_STAT_FOLIOS : Fld := ⟨16, 9⟩
def PW_STAT1 (n : Nat) : Nat := 0x40430004 + 0x10 * n
def PW_STAT1_N_PLAY : Fld := ⟨0, 16⟩
def PW_STAT1_TX_SEQ : Fld := ⟨16, 16⟩
def PW_STAT2 (n : Nat) : Nat := 0x40430008 + 0x10 * n
def PW_STAT2_FILL : Fld := ⟨0, 17⟩
def PW_STAT3 (n : Nat) : Nat := 0x4043000C + 0x10 * n
def PW_STAT3_NCO : Fld := ⟨16, 16⟩
def PW_LOST_CNT (n : Nat) : Nat := 0x40438000 + 0x8 * n
def PW_LOST_CNT_CNT : Fld := ⟨0, 32⟩
def PW_DISC_CNT (n : Nat) : Nat := 0x40438004 + 0x8 * n
def PW_DISC_CNT_CNT : Fld := ⟨0, 32⟩
/-! ### LEND: Lending Desk -/

def LEND_CFG : Nat := 0x40440000
def LEND_CFG_TX_RSV : Fld := ⟨0, 11⟩
def LEND_CFG_LOW_WATER : Fld := ⟨16, 13⟩
def LEND_STAT : Nat := 0x40440004
def LEND_STAT_FREE : Fld := ⟨0, 14⟩
def LEND_STAT_DESC_FREE : Fld := ⟨16, 13⟩
def LEND_SHARED : Nat := 0x40440008
def LEND_SHARED_FREE : Fld := ⟨0, 14⟩
def LEND_GRANT_CNT : Nat := 0x40440020
def LEND_GRANT_CNT_CNT : Fld := ⟨0, 32⟩
def LEND_RETURN_CNT : Nat := 0x40440024
def LEND_RETURN_CNT_CNT : Fld := ⟨0, 32⟩
def LEND_RETRY_CNT : Nat := 0x40440028
def LEND_RETRY_CNT_CNT : Fld := ⟨0, 32⟩
def LEND_SETFULL_CNT : Nat := 0x4044002C
def LEND_SETFULL_CNT_CNT : Fld := ⟨0, 32⟩
def LEND_DRAIN_CNT : Nat := 0x40440030
def LEND_DRAIN_CNT_CNT : Fld := ⟨0, 32⟩
def LEND_MAP (n : Nat) : Nat := 0x40450000 + 0x4 * n
def LEND_MAP_VALID : Fld := ⟨31, 1⟩
def LEND_MAP_FLOW : Fld := ⟨21, 10⟩
def LEND_MAP_VPAGE : Fld := ⟨13, 8⟩
def LEND_MAP_FOLIO : Fld := ⟨0, 13⟩
def LEND_DESC0 (n : Nat) : Nat := 0x40460000 + 0x10 * n
def LEND_DESC0_VALID : Fld := ⟨31, 1⟩
def LEND_DESC0_DIR : Fld := ⟨30, 1⟩
def LEND_DESC0_FLOW : Fld := ⟨20, 10⟩
def LEND_DESC0_SEQ : Fld := ⟨0, 16⟩
def LEND_DESC1 (n : Nat) : Nat := 0x40460004 + 0x10 * n
def LEND_DESC1_FIRST_FOLIO : Fld := ⟨0, 13⟩
def LEND_DESC1_FOLIOS : Fld := ⟨16, 3⟩
def LEND_DESC2 (n : Nat) : Nat := 0x40460008 + 0x10 * n
def LEND_DESC2_LENGTH : Fld := ⟨0, 11⟩
def LEND_DESC2_AGE : Fld := ⟨16, 16⟩
def LEND_DESC3 (n : Nat) : Nat := 0x4046000C + 0x10 * n
def LEND_DESC3_ITC : Fld := ⟨0, 32⟩
/-! ### TIM: timing -/

def TIM_CFG : Nat := 0x40500000
def TIM_CFG_OPTION : Fld := ⟨0, 1⟩
def TIM_CFG_QL_EN : Fld := ⟨1, 1⟩
def TIM_CFG_REVERT : Fld := ⟨2, 1⟩
def TIM_CFG_FREERUN_TRAFFIC : Fld := ⟨3, 1⟩
def TIM_CFG_SYNCE_TX : Fld := ⟨4, 2⟩
def TIM_CFG_OCXO_NOM : Fld := ⟨6, 2⟩
def TIM_CFG_OWN_QL : Fld := ⟨8, 4⟩
def TIM_STAT : Nat := 0x40500004
def TIM_STAT_SEL0 : Fld := ⟨0, 4⟩
def TIM_STAT_SEL0_VALID : Fld := ⟨4, 1⟩
def TIM_STAT_SEL1 : Fld := ⟨8, 4⟩
def TIM_STAT_SEL1_VALID : Fld := ⟨12, 1⟩
def TIM_STAT_REF_OK : Fld := ⟨16, 1⟩
def TIM_STAT_HO_VALID : Fld := ⟨17, 1⟩
def TIM_STAT_OCXO_FAULT : Fld := ⟨18, 1⟩
def TIM_STAT_CLOCK_QL : Fld := ⟨20, 4⟩
def TIM_REF_TIMES : Nat := 0x40500010
def TIM_REF_TIMES_QUAL_S : Fld := ⟨0, 8⟩
def TIM_REF_TIMES_HOLDOFF_MS : Fld := ⟨8, 11⟩
def TIM_SEL_CMD : Nat := 0x40500020
def TIM_SEL_CMD_TOKEN : Fld := ⟨0, 8⟩
def TIM_SEL_CMD_CMD : Fld := ⟨8, 3⟩
def TIM_SEL_CMD_DPLL : Fld := ⟨11, 1⟩
def TIM_SEL_CMD_REF : Fld := ⟨12, 4⟩
def TIM_SEL_CMD_RESULT : Fld := ⟨16, 8⟩
def TIM_REF_CFG (n : Nat) : Nat := 0x40500100 + 0x10 * n
def TIM_REF_CFG_EN : Fld := ⟨0, 1⟩
def TIM_REF_CFG_PRIO : Fld := ⟨1, 4⟩
def TIM_REF_CFG_DPLL_MASK : Fld := ⟨5, 2⟩
def TIM_REF_CFG_FREQ_LIM : Fld := ⟨7, 10⟩
def TIM_REF_CFG_WTR_S : Fld := ⟨17, 10⟩
def TIM_REF_CFG_ESMC_REQ : Fld := ⟨27, 1⟩
def TIM_REF_SRC (n : Nat) : Nat := 0x40500104 + 0x10 * n
def TIM_REF_SRC_PORT : Fld := ⟨0, 6⟩
def TIM_REF_SRC_FREQ : Fld := ⟨8, 3⟩
def TIM_REF_QL (n : Nat) : Nat := 0x40500108 + 0x10 * n
def TIM_REF_QL_QL : Fld := ⟨0, 4⟩
def TIM_REF_STAT (n : Nat) : Nat := 0x4050010C + 0x10 * n
def TIM_REF_STAT_STATE : Fld := ⟨0, 2⟩
def TIM_REF_STAT_CAUSE : Fld := ⟨2, 2⟩
def TIM_REF_STAT_WAIT : Fld := ⟨4, 10⟩
def TIM_REF_STAT_OFFSET : Fld := ⟨14, 18⟩
def TIM_DPLL_CFG0 : Nat := 0x40500300
def TIM_DPLL_CFG0_BW : Fld := ⟨0, 4⟩
def TIM_DPLL_CFG0_PSL : Fld := ⟨8, 8⟩
def TIM_DPLL_CFG0_LOCK_NS : Fld := ⟨16, 12⟩
def TIM_DPLL_CFG1 : Nat := 0x40500320
def TIM_DPLL_CFG1_BW : Fld := ⟨0, 4⟩
def TIM_DPLL_CFG1_PSL : Fld := ⟨8, 8⟩
def TIM_DPLL_CFG1_LOCK_NS : Fld := ⟨16, 12⟩
def TIM_DPLL_STAT (n : Nat) : Nat := 0x40500310 + 0x20 * n
def TIM_DPLL_STAT_STATE : Fld := ⟨0, 3⟩
def TIM_DPLL_STAT_REF : Fld := ⟨4, 4⟩
def TIM_DPLL_STAT_PHASE : Fld := ⟨8, 24⟩
def TIM_DPLL_FREQ (n : Nat) : Nat := 0x40500314 + 0x20 * n
def TIM_DPLL_FREQ_FREQ : Fld := ⟨0, 32⟩
def TIM_OUT_CFG : Nat := 0x40500400
def TIM_OUT_CFG_EN : Fld := ⟨0, 3⟩
def TIM_OUT_CFG_QL_MIN : Fld := ⟨4, 4⟩
def TIM_OUT_CFG_PPS_WIDTH : Fld := ⟨8, 8⟩
def TIM_PPS_OFFSET : Nat := 0x40500404
def TIM_PPS_OFFSET_NS : Fld := ⟨0, 32⟩
def TIM_HO_CFG : Nat := 0x40500500
def TIM_HO_CFG_HO_MAX_H : Fld := ⟨0, 8⟩
def TIM_HO_CFG_ANCHOR_S : Fld := ⟨8, 13⟩
def TIM_HO_CFG_TEMP_SRC : Fld := ⟨21, 1⟩
def TIM_HO_CFG_LEARN_QL_MAX : Fld := ⟨24, 4⟩
def TIM_HO_CFG2 : Nat := 0x40500504
def TIM_HO_CFG2_HO_AVG_S : Fld := ⟨0, 10⟩
def TIM_HO_CFG2_OCXO_TAG : Fld := ⟨16, 16⟩
def TIM_HO_STAT : Nat := 0x40500508
def TIM_HO_STAT_MODEL : Fld := ⟨0, 2⟩
def TIM_HO_STAT_ACTIVE : Fld := ⟨2, 1⟩
def TIM_HO_STAT_ANCHORED : Fld := ⟨3, 1⟩
def TIM_HO_STAT_IN_HO : Fld := ⟨4, 1⟩
def TIM_HO_STAT_TEMP_FAULT : Fld := ⟨5, 1⟩
def TIM_HO_STAT_OUT_OF_RANGE : Fld := ⟨6, 1⟩
def TIM_HO_TIME : Nat := 0x4050050C
def TIM_HO_TIME_SECONDS : Fld := ⟨0, 32⟩
def TIM_HO_CMD : Nat := 0x40500510
def TIM_HO_CMD_TOKEN : Fld := ⟨0, 8⟩
def TIM_HO_CMD_CMD : Fld := ⟨8, 8⟩
def TIM_HO_CMD_RESULT : Fld := ⟨16, 8⟩
def TIM_HO_TEMP : Nat := 0x40500520
def TIM_HO_TEMP_TEMP : Fld := ⟨0, 32⟩
def TIM_HO_SAMPLE (n : Nat) : Nat := 0x40500530 + 0x4 * n
def TIM_HO_SAMPLE_WORD : Fld := ⟨0, 32⟩
def TIM_PTP_PORT_CFG (n : Nat) : Nat := 0x40500600 + 0x20 * n
def TIM_PTP_PORT_CFG_EN : Fld := ⟨0, 1⟩
def TIM_PTP_PORT_CFG_PROFILE : Fld := ⟨1, 1⟩
def TIM_PTP_PORT_CFG_ONE_STEP : Fld := ⟨2, 1⟩
def TIM_PTP_PORT_CFG_MCAST : Fld := ⟨3, 1⟩
def TIM_PTP_PORT_CFG_DOMAIN : Fld := ⟨8, 8⟩
def TIM_PTP_PORT_IP (n : Nat) : Nat := 0x40500604 + 0x20 * n
def TIM_PTP_PORT_IP_IP : Fld := ⟨0, 32⟩
def TIM_PTP_PORT_ASYM (n : Nat) : Nat := 0x40500608 + 0x20 * n
def TIM_PTP_PORT_ASYM_ASYM : Fld := ⟨0, 32⟩
def TIM_PTP_PHASE (n : Nat) : Nat := 0x40500640 + 0x4 * n
def TIM_PTP_PHASE_PHASE : Fld := ⟨0, 32⟩
def TIM_ESMC_TX (n : Nat) : Nat := 0x40500650 + 0x4 * n
def TIM_ESMC_TX_SSM : Fld := ⟨0, 4⟩
def TIM_ESMC_TX_ENH : Fld := ⟨8, 8⟩
def TIM_ESMC_TX_ESMC_TX : Fld := ⟨16, 1⟩
def TIM_ESMC_TX_SEND_TLV : Fld := ⟨17, 1⟩
def TIM_ESMC_RX (n : Nat) : Nat := 0x40500660 + 0x4 * n
def TIM_ESMC_RX_SSM : Fld := ⟨0, 4⟩
def TIM_ESMC_RX_ENH : Fld := ⟨8, 8⟩
def TIM_ESMC_RX_TIMEOUT : Fld := ⟨16, 1⟩
def TIM_TOD (n : Nat) : Nat := 0x40500700 + 0x4 * n
def TIM_TOD_WORD : Fld := ⟨0, 32⟩
def TIM_SWITCH_CNT : Nat := 0x40500720
def TIM_SWITCH_CNT_CNT : Fld := ⟨0, 32⟩
def TIM_PTP_RXQ_OVF_CNT : Nat := 0x40500724
def TIM_PTP_RXQ_OVF_CNT_CNT : Fld := ⟨0, 32⟩
def TIM_PTP_TSF_OVF_CNT : Nat := 0x40500728
def TIM_PTP_TSF_OVF_CNT_CNT : Fld := ⟨0, 32⟩
def TIM_PTP_QPTR : Nat := 0x40500730
def TIM_PTP_QPTR_RX : Fld := ⟨0, 8⟩
def TIM_PTP_QPTR_TX0 : Fld := ⟨8, 6⟩
def TIM_PTP_QPTR_TX1 : Fld := ⟨16, 6⟩
def TIM_PTP_RXQ (n : Nat) (k : Nat) : Nat := 0x40510000 + 0x80 * n + 0x4 * k
def TIM_PTP_RXQ_WORD : Fld := ⟨0, 32⟩
def TIM_PTP_TXQ (n : Nat) (k : Nat) : Nat := 0x40520000 + 0x2000 * n + 0x4 * k
def TIM_PTP_TXQ_WORD : Fld := ⟨0, 32⟩
/-! ### TWN: twin -/

def TWN_CFG : Nat := 0x40600000
def TWN_CFG_EQ_REVERT : Fld := ⟨0, 1⟩
def TWN_CFG_L6_US : Fld := ⟨1, 14⟩
def TWN_CFG_START_WAIT : Fld := ⟨15, 8⟩
def TWN_CFG_EQ_WTR_S : Fld := ⟨23, 8⟩
def TWN_SKEW : Nat := 0x40600004
def TWN_SKEW_SKEW_TRIM : Fld := ⟨0, 16⟩
def TWN_PAIR_ID : Nat := 0x40600008
def TWN_PAIR_ID_ID : Fld := ⟨0, 32⟩
def TWN_PAIR_DIGEST : Nat := 0x4060000C
def TWN_PAIR_DIGEST_DIGEST : Fld := ⟨0, 32⟩
def TWN_CMD : Nat := 0x40600010
def TWN_CMD_TOKEN : Fld := ⟨0, 8⟩
def TWN_CMD_CMD : Fld := ⟨8, 3⟩
def TWN_CMD_RESULT : Fld := ⟨16, 8⟩
def TWN_STAT : Nat := 0x40600020
def TWN_STAT_ROLE : Fld := ⟨0, 2⟩
def TWN_STAT_TWIN_ROLE : Fld := ⟨2, 2⟩
def TWN_STAT_LINK_UP : Fld := ⟨4, 1⟩
def TWN_STAT_QUAR : Fld := ⟨5, 1⟩
def TWN_STAT_TIE_OK : Fld := ⟨6, 1⟩
def TWN_STAT_SILENT : Fld := ⟨7, 1⟩
def TWN_STAT_HITLESS : Fld := ⟨8, 1⟩
def TWN_STAT_READY : Fld := ⟨9, 1⟩
def TWN_STAT_MISMATCH : Fld := ⟨10, 1⟩
def TWN_STAT_SOLO : Fld := ⟨11, 1⟩
def TWN_STAT_EQ_REQ : Fld := ⟨12, 4⟩
def TWN_STAT_EQ_SEL : Fld := ⟨16, 1⟩
def TWN_STAT_WTR : Fld := ⟨17, 1⟩
def TWN_STAT_WTR_LEFT : Fld := ⟨24, 8⟩
def TWN_TIE_STAT : Nat := 0x40600024
def TWN_TIE_STAT_RX : Fld := ⟨0, 3⟩
def TWN_TIE_STAT_TX : Fld := ⟨4, 3⟩
def TWN_TIE_STAT_WIDTH : Fld := ⟨8, 8⟩
def TWN_LINK_ERR : Nat := 0x40600028
def TWN_LINK_ERR_ERR : Fld := ⟨0, 8⟩
def TWN_DELAY : Nat := 0x4060002C
def TWN_DELAY_PS : Fld := ⟨0, 32⟩
def TWN_SYNC_STAT : Nat := 0x40600030
def TWN_SYNC_STAT_SYNC_A : Fld := ⟨0, 1⟩
def TWN_SYNC_STAT_SYNC_B : Fld := ⟨1, 1⟩
def TWN_SYNC_STAT_SYNC_C : Fld := ⟨2, 1⟩
def TWN_SYNC_STAT_CAL_OK : Fld := ⟨3, 1⟩
def TWN_SYNC_STAT_FRAME : Fld := ⟨8, 6⟩
def TWN_SYNC_STAT_UNACKED : Fld := ⟨16, 16⟩
def TWN_DUP_CNT : Nat := 0x40600040
def TWN_DUP_CNT_CNT : Fld := ⟨0, 32⟩
def TWN_GAP_CNT : Nat := 0x40600044
def TWN_GAP_CNT_CNT : Fld := ⟨0, 32⟩
def TWN_TIE_ERR_CNT : Nat := 0x40600048
def TWN_TIE_ERR_CNT_CNT : Fld := ⟨0, 32⟩
def TWN_EQ_SWITCH_CNT : Nat := 0x4060004C
def TWN_EQ_SWITCH_CNT_CNT : Fld := ⟨0, 32⟩
def TWN_DIVERGE_CNT : Nat := 0x40600050
def TWN_DIVERGE_CNT_CNT : Fld := ⟨0, 32⟩
def TWN_LANE_CFG (n : Nat) : Nat := 0x40600060 + 0x4 * n
def TWN_LANE_CFG_TX_SWING : Fld := ⟨0, 4⟩
def TWN_LANE_CFG_RX_EQ : Fld := ⟨4, 4⟩
def TWN_LANE_STAT (n : Nat) : Nat := 0x40600070 + 0x4 * n
def TWN_LANE_STAT_BLOCK_LOCK : Fld := ⟨0, 1⟩
def TWN_LANE_STAT_ALIGNED : Fld := ⟨1, 1⟩
def TWN_LANE_STAT_SKEW : Fld := ⟨8, 8⟩
def TWN_LANE_STAT_HDR_ERR : Fld := ⟨16, 16⟩
/-! ### APS: linear MSP -/

def APS_CFG (n : Nat) : Nat := 0x40640000 + 0x40 * n
def APS_CFG_EN : Fld := ⟨0, 1⟩
def APS_CFG_ARCH : Fld := ⟨1, 2⟩
def APS_CFG_BIDIR : Fld := ⟨3, 1⟩
def APS_CFG_REVERT : Fld := ⟨4, 1⟩
def APS_CFG_PROT : Fld := ⟨5, 3⟩
def APS_CFG_WORK : Fld := ⟨8, 8⟩
def APS_CFG_WTR_MIN : Fld := ⟨16, 4⟩
def APS_CFG_HOLDOFF : Fld := ⟨20, 7⟩
def APS_CMD (n : Nat) : Nat := 0x40640004 + 0x40 * n
def APS_CMD_TOKEN : Fld := ⟨0, 8⟩
def APS_CMD_CMD : Fld := ⟨8, 3⟩
def APS_CMD_CHAN : Fld := ⟨12, 3⟩
def APS_CMD_RESULT : Fld := ⟨16, 8⟩
def APS_STAT (n : Nat) : Nat := 0x40640008 + 0x40 * n
def APS_STAT_REQ : Fld := ⟨0, 4⟩
def APS_STAT_CHAN : Fld := ⟨4, 4⟩
def APS_STAT_SEL : Fld := ⟨8, 4⟩
def APS_STAT_BRIDGE : Fld := ⟨12, 4⟩
def APS_STAT_FAR_REQ : Fld := ⟨16, 4⟩
def APS_STAT_FAR_CHAN : Fld := ⟨20, 4⟩
def APS_STAT_WTR : Fld := ⟨24, 1⟩
def APS_STAT_DFOP : Fld := ⟨25, 1⟩
def APS_WTR (n : Nat) : Nat := 0x4064000C + 0x40 * n
def APS_WTR_SECONDS : Fld := ⟨0, 32⟩
def APS_SWITCH_CNT (n : Nat) : Nat := 0x40640010 + 0x40 * n
def APS_SWITCH_CNT_CNT : Fld := ⟨0, 32⟩
/-! ### SVC: service cores -/

def SVC_CFG : Nat := 0x40700000
def SVC_CFG_PREEMPT_EN : Fld := ⟨0, 1⟩
def SVC_MEM_CFG : Nat := 0x40700004
def SVC_MEM_CFG_CODE_TOP : Fld := ⟨0, 8⟩
def SVC_MEM_CFG_SAVE_BASE : Fld := ⟨8, 8⟩
def SVC_PAIR_STAT (n : Nat) : Nat := 0x40700010 + 0x4 * n
def SVC_PAIR_STAT_STATE : Fld := ⟨0, 2⟩
def SVC_PAIR_STAT_IDLE : Fld := ⟨2, 1⟩
def SVC_PAIR_STAT_MISMATCH_WIN : Fld := ⟨4, 4⟩
def SVC_PAIR_STAT_TASK : Fld := ⟨8, 9⟩
def SVC_TASK_CMD : Nat := 0x40700020
def SVC_TASK_CMD_TOKEN : Fld := ⟨0, 8⟩
def SVC_TASK_CMD_CMD : Fld := ⟨8, 3⟩
def SVC_TASK_CMD_TASK : Fld := ⟨16, 8⟩
def SVC_TASK_CMD_RESULT : Fld := ⟨24, 8⟩
def SVC_SCHED_STAT : Nat := 0x40700024
def SVC_SCHED_STAT_READY : Fld := ⟨0, 9⟩
def SVC_SCHED_STAT_PRIO : Fld := ⟨12, 4⟩
def SVC_SCHED_STAT_ALL_REQ_READY : Fld := ⟨16, 1⟩
def SVC_RDY_MAP (n : Nat) : Nat := 0x40700040 + 0x4 * n
def SVC_RDY_MAP_BITS : Fld := ⟨0, 32⟩
def SVC_TASK_DROPPED : Nat := 0x40700080
def SVC_TASK_DROPPED_CNT : Fld := ⟨0, 32⟩
def SVC_WAKE_MERGED : Nat := 0x40700084
def SVC_WAKE_MERGED_CNT : Fld := ⟨0, 32⟩
def SVC_ABORT_CNT : Nat := 0x40700088
def SVC_ABORT_CNT_CNT : Fld := ⟨0, 32⟩
def SVC_PREEMPT_CNT : Nat := 0x4070008C
def SVC_PREEMPT_CNT_CNT : Fld := ⟨0, 32⟩
def SVC_LOCKSTEP_CNT : Nat := 0x40700090
def SVC_LOCKSTEP_CNT_CNT : Fld := ⟨0, 32⟩
def SVC_CODE_WR_CNT : Nat := 0x40700094
def SVC_CODE_WR_CNT_CNT : Fld := ⟨0, 32⟩
def SVC_TASK_ENTRY (n : Nat) : Nat := 0x40710000 + 0x10 * n
def SVC_TASK_ENTRY_ENTRY : Fld := ⟨0, 32⟩
def SVC_TASK_W1 (n : Nat) : Nat := 0x40710004 + 0x10 * n
def SVC_TASK_W1_EN : Fld := ⟨0, 1⟩
def SVC_TASK_W1_PRIO : Fld := ⟨1, 4⟩
def SVC_TASK_W1_AFFINITY : Fld := ⟨5, 2⟩
def SVC_TASK_W1_REQUIRED : Fld := ⟨7, 1⟩
def SVC_TASK_W1_INIT : Fld := ⟨8, 1⟩
def SVC_TASK_W1_BUDGET : Fld := ⟨12, 20⟩
def SVC_TASK_W2 (n : Nat) : Nat := 0x40710008 + 0x10 * n
def SVC_TASK_W2_PERIOD : Fld := ⟨0, 24⟩
def SVC_TASK_ARG (n : Nat) : Nat := 0x4071000C + 0x10 * n
def SVC_TASK_ARG_ARG : Fld := ⟨0, 32⟩
def SVC_TASK_STAT (n : Nat) : Nat := 0x40720000 + 0x10 * n
def SVC_TASK_STAT_STATE : Fld := ⟨0, 3⟩
def SVC_TASK_STAT_PENDING : Fld := ⟨3, 1⟩
def SVC_TASK_STAT_LAST_PAIR : Fld := ⟨4, 2⟩
def SVC_TASK_STAT_ABORTS : Fld := ⟨6, 3⟩
def SVC_TASK_STAT_CAUSE : Fld := ⟨16, 16⟩
def SVC_TASK_RUNS (n : Nat) : Nat := 0x40720004 + 0x10 * n
def SVC_TASK_RUNS_CNT : Fld := ⟨0, 32⟩
def SVC_TASK_LONGEST (n : Nat) : Nat := 0x40720008 + 0x10 * n
def SVC_TASK_LONGEST_US : Fld := ⟨0, 32⟩
def SVC_TASK_ABORTS (n : Nat) : Nat := 0x4072000C + 0x10 * n
def SVC_TASK_ABORTS_CNT : Fld := ⟨0, 32⟩
def SVC_WAKE_MAP (n : Nat) : Nat := 0x40730000 + 0x4 * n
def SVC_WAKE_MAP_TASK_EVEN : Fld := ⟨0, 8⟩
def SVC_WAKE_MAP_VALID_EVEN : Fld := ⟨15, 1⟩
def SVC_WAKE_MAP_TASK_ODD : Fld := ⟨16, 8⟩
def SVC_WAKE_MAP_VALID_ODD : Fld := ⟨31, 1⟩
/-! ### FAC: Facsimile engines -/

def FAC_SYNC : Nat := 0x40800000
def FAC_SYNC_TOKEN : Fld := ⟨0, 8⟩
def FAC_SYNC_GO : Fld := ⟨8, 1⟩
def FAC_SYNC_RESULT : Fld := ⟨16, 8⟩
def FAC_FRAME_CFG : Nat := 0x40800004
def FAC_FRAME_CFG_SF : Fld := ⟨0, 16⟩
def FAC_FRAME_CFG_MATCH_EN : Fld := ⟨16, 1⟩
def FAC_CFG (n : Nat) : Nat := 0x40800100 + 0x100 * n
def FAC_CFG_ASSIGN : Fld := ⟨0, 1⟩
def FAC_CFG_PORT : Fld := ⟨1, 6⟩
def FAC_CFG_CMP_PORT : Fld := ⟨7, 6⟩
def FAC_CFG_LAG : Fld := ⟨13, 8⟩
def FAC_SKEW (n : Nat) : Nat := 0x40800104 + 0x100 * n
def FAC_SKEW_SKEW : Fld := ⟨0, 12⟩
def FAC_CMD (n : Nat) : Nat := 0x40800120 + 0x100 * n
def FAC_CMD_TOKEN : Fld := ⟨0, 8⟩
def FAC_CMD_CMD : Fld := ⟨8, 4⟩
def FAC_CMD_ARG : Fld := ⟨12, 12⟩
def FAC_CMD_RESULT : Fld := ⟨24, 8⟩
def FAC_STREAM (n : Nat) : Nat := 0x40800124 + 0x100 * n
def FAC_STREAM_TOKEN : Fld := ⟨0, 8⟩
def FAC_STREAM_COUNT : Fld := ⟨8, 16⟩
def FAC_STREAM_RESULT : Fld := ⟨24, 8⟩
def FAC_STAT (n : Nat) : Nat := 0x40800140 + 0x100 * n
def FAC_STAT_STATE : Fld := ⟨0, 3⟩
def FAC_STAT_MODE : Fld := ⟨3, 1⟩
def FAC_STAT_STEP : Fld := ⟨4, 10⟩
def FAC_STAT_CAUSE : Fld := ⟨16, 4⟩
def FAC_STAT_FAULT : Fld := ⟨20, 4⟩
def FAC_STAT_FREE : Fld := ⟨24, 1⟩
def FAC_TRIG_STAT (n : Nat) : Nat := 0x40800144 + 0x100 * n
def FAC_TRIG_STAT_BITS : Fld := ⟨0, 16⟩
def FAC_STREAM_STAT (n : Nat) : Nat := 0x40800148 + 0x100 * n
def FAC_STREAM_STAT_RD : Fld := ⟨0, 16⟩
def FAC_STREAM_STAT_FILL : Fld := ⟨16, 16⟩
def FAC_STICKY (n : Nat) : Nat := 0x4080014C + 0x100 * n
def FAC_STICKY_BITS : Fld := ⟨0, 5⟩
def FAC_VEC_FIRST (n : Nat) : Nat := 0x40800150 + 0x100 * n
def FAC_VEC_FIRST_ELEMENT : Fld := ⟨0, 16⟩
def FAC_VEC_FIRST_STEP : Fld := ⟨16, 10⟩
def FAC_VEC_FIRST_VALID : Fld := ⟨31, 1⟩
def FAC_CAL_STAT (n : Nat) : Nat := 0x40800154 + 0x100 * n
def FAC_CAL_STAT_CAL_DELAY : Fld := ⟨0, 16⟩
def FAC_CAL_STAT_VALID : Fld := ⟨16, 1⟩
def FAC_CNT (n : Nat) (k : Nat) : Nat := 0x40800180 + 0x100 * n + 0x4 * k
def FAC_CNT_CNT : Fld := ⟨0, 32⟩
def FAC_STEP_W0 (n : Nat) : Nat := 0x40810000 + 0x10 * n
def FAC_STEP_W0_SEG : Fld := ⟨0, 10⟩
def FAC_STEP_W0_REPEAT : Fld := ⟨16, 16⟩
def FAC_STEP_W1 (n : Nat) : Nat := 0x40810004 + 0x10 * n
def FAC_STEP_W1_RATIO : Fld := ⟨0, 19⟩
def FAC_STEP_W1_CONT : Fld := ⟨19, 1⟩
def FAC_STEP_W1_MOD : Fld := ⟨20, 6⟩
def FAC_STEP_W1_MARK : Fld := ⟨26, 1⟩
def FAC_STEP_W1_LAST : Fld := ⟨27, 1⟩
def FAC_STEP_W2 (n : Nat) : Nat := 0x40810008 + 0x10 * n
def FAC_STEP_W2_WAIT : Fld := ⟨0, 16⟩
def FAC_STEP_W2_WAIT_TO : Fld := ⟨16, 16⟩
def FAC_STEP_W3 (n : Nat) : Nat := 0x4081000C + 0x10 * n
def FAC_STEP_W3_NEXT : Fld := ⟨0, 10⟩
def FAC_STEP_W3_TO_NEXT : Fld := ⟨16, 10⟩
def FAC_SEG_W0 (n : Nat) : Nat := 0x40814000 + 0x8 * n
def FAC_SEG_W0_START : Fld := ⟨0, 16⟩
def FAC_SEG_W0_KIND : Fld := ⟨16, 2⟩
def FAC_SEG_W1 (n : Nat) : Nat := 0x40814004 + 0x8 * n
def FAC_SEG_W1_LENGTH : Fld := ⟨0, 16⟩
def FAC_MOD_W0 (n : Nat) : Nat := 0x40816000 + 0x8 * n
def FAC_MOD_W0_TYPE : Fld := ⟨0, 2⟩
def FAC_MOD_W0_ARG : Fld := ⟨16, 16⟩
def FAC_MOD_W1 (n : Nat) : Nat := 0x40816004 + 0x8 * n
def FAC_MOD_W1_VALUE : Fld := ⟨0, 32⟩
def FAC_PATTERN (n : Nat) : Nat := 0x40840000 + 0x4 * n
def FAC_PATTERN_WORD : Fld := ⟨0, 32⟩

end Sys2Proof.Machine
end

