-- ==== Sys2Proof/Config.lean ====
section
/-! DEFINITION. What one implementation of the module fixes, and the free values the spec leaves open. -/

namespace Sys2Proof

/-- The boot ROM's contents by byte offset: R417 says this manual does not publish them (DESIGN CHOICE, log entry 4).
A constant with no body, so nothing can be proved of a ROM byte. -/
opaque Config.bootRom : Nat → Byte

/-- A fresh word wherever the spec gives a value no rule (DESIGN CHOICE, log entry 5): the n-th use in a run reads `freeWord n`. -/
opaque Config.freeWord : Nat → Word

/-- The ROM templates 0 to 7 (R187): the manual gives their peaks and not their samples (DESIGN CHOICE, log entry 6);
indexed by template and halfword pair. -/
opaque Config.romTemplate : Nat → Nat → Word

/-- The sample of ROM template 0 or 1 that holds its peak code (R186): the manual gives the code and not its place (DESIGN CHOICE, log
entry 6). -/
opaque Config.romPeak : Nat → Fin 256

/-- The desynchroniser loop of a tributary port (R185): the manual gives its order and bandwidth and not its arithmetic (DESIGN CHOICE, log
entry 126). Arguments: DESYNC_BW, the store's fill less its centre, and the loop's integrator; the results are the symbol timer's offset in
units of 0.01 ppm and the integrator after it. -/
opaque Config.desync : Nat → Int → Int → Int × Int

/-- The taps of the Facsimile interpolator (R364): an 8-tap windowed sinc whose coefficients the manual does not print
(DESIGN CHOICE, log entry 7). Arguments: phase 0 to 1,023, tap 0 to 7, RATIO. The result is in units of 2^-14. -/
opaque Config.sincTap : Nat → Nat → Nat → Int

/-- How the sine of a modulation entry is rounded (R368): amplitude, frequency in mHz, mode and sample clocks since its phase was 0. The
manual gives A × sin(2πFt) and no rounding (DESIGN CHOICE, log entry 12). -/
opaque Config.sine : Nat → Nat → Nat → Nat → Int

/-- How an event's record codes a cause, a kind or a condition for which the manual gives a word and no number (DESIGN CHOICE, log entry 19): the event and
the model's own number of the cause. -/
opaque Config.codeOf : Nat → Nat → Word

/-- Whether 256 samples lie within pulse mask 0, 1 or 2 (R187): the masks are those of G.703, which the manual names and does not print
(DESIGN CHOICE, log entry 21). -/
opaque Config.pulseMask : Nat → List Int → Bool

/-- What a port sends in a byte of the section overhead that the spec does not name, by its place in the frame (DESIGN CHOICE, log
entry 120). -/
opaque Config.sohByte : Nat → Byte

/-- The payload words of a twin-link message of TYPE `t` whose layout R267 does not give, from the values it carries (R272, R275;
DESIGN CHOICE, log entry 132). -/
opaque Config.linkPayload : Nat → List Int → List (BitVec 64)

/-- The bits of a HANDOVER's payload word above the frame number, which name the direction, to the junior or to the senior (R267;
DESIGN CHOICE, log entry 132). -/
opaque Config.handoverDirection : Bool → BitVec 42

/-- How far the module's clock moves at a step that finds no command waiting (DESIGN CHOICE, log entry 2): one 125 µs frame, in ns. -/
def Config.tickNs : Nat := 125000

end Sys2Proof
end

