-- ==== Sys2Proof/Machine/Ces.lean ====
section
/-! DEFINITION. The frames a CESoPSN flow builds towards the Index (R206): E1 basic or CRC-4, T1 SF or ESF. -/

namespace Sys2Proof.Machine

/-- What the frame builder carries from frame to frame: frames built, bits of the block under check, the CRC of the block before it and
FDL bits sent. -/
structure CesPos where
  frame : Nat
  bits : List Bool
  crc : Nat
  fdl : Nat
deriving DecidableEq, Repr

/-- The bits of a number, most significant first. -/
def bitsOf (n v : Nat) : List Bool := (List.range n).map (fun i => v.testBit (n - 1 - i))

/-- The bits of a list of bytes, bit 7 of each first. -/
def byteBits (l : List Byte) : List Bool := l.flatMap (fun b => bitsOf 8 b.toNat)

/-- Bits fed to a CRC register of `n` bits under the generator whose low `n` bits are `poly`. -/
def crcMore (n poly reg : Nat) (l : List Bool) : Nat :=
  l.foldl (fun r b => let t := Nat.xor (r / 2 ^ (n - 1)) (bit b); Nat.xor (r * 2 % 2 ^ n) (if t = 1 then poly else 0)) reg

/-- The remainder of a bit string shifted up by `n`. -/
def crcBits (n poly : Nat) (l : List Bool) : Nat := crcMore n poly 0 l

/-- Time slot 0 of E1 frame `k` of the multiframe (R206): FAS and NFAS, the international bit being 1 in basic framing, and in CRC-4
framing the CRC of the submultiframe before, the multiframe word and the E bits. -/
def e1Slot0 (crc4 : Bool) (k crc : Nat) (far : Bool) : List Bool :=
  if k % 2 = 0 then (if crc4 then crc.testBit (3 - k / 2 % 4) else true) :: [false, false, true, true, false, true, true]
  else
    let si := if crc4 then [false, false, true, false, true, true, true, true].getD (k / 2) true else true
    [si, true, far, true, true, true, true, true]

/-- The octet in slot `i` of a frame: time slot `i` of E1, channel `i + 1` of T1, bit 7 first. -/
def slotOctet (t1 : Bool) (fr : List Bool) (i : Nat) : Byte :=
  BitVec.ofNat 8 (((fr.drop (8 * i + bit t1)).take 8).foldl (fun a b => 2 * a + bit b) 0)

/-- The payload of CESoPSN from received frames: the slots of the mask in rising order, frame after frame (R206). -/
def cesPayload (t1 : Bool) (mask : Nat) (frames : List (List Bool)) : List Byte :=
  frames.flatMap fun fr => ((List.range 32).filter (fun i => mask.testBit i)).map (slotOctet t1 fr)

/-- The octets of `n` slots: those of the mask from the payload in rising order, the others IDLE. -/
def fillSlots (mask idle : Nat) (payload : List Byte) : List Nat → List Byte
  | [] => []
  | i :: is => if mask.testBit i then payload.getD 0 0 :: fillSlots mask idle (payload.drop 1) is
    else BitVec.ofNat 8 idle :: fillSlots mask idle payload is

/-- One E1 frame. -/
def e1Frame (crc4 : Bool) (mask idle : Nat) (far : Bool) (c : CesPos) (payload : List Byte) : CesPos × List Bool :=
  let k := c.frame % 16
  let body := byteBits (fillSlots mask idle payload ((List.range 31).map (· + 1)))
  let f := e1Slot0 crc4 k c.crc far ++ body
  -- the CRC covers the submultiframe with its C bits at 0
  let checked := c.bits ++ (if k % 2 = 0 then false :: f.drop 1 else f)
  let done := decide (k % 8 = 7)
  ({ c with frame := c.frame + 1, bits := if done then [] else checked, crc := if done then crcBits 4 0x3 checked else c.crc }, f)

/-- The F bit of T1 frame `k` of its superframe. -/
def t1FBit (esf : Bool) (k crc : Nat) (far : Bool) (fdl : Nat) : Bool :=
  if !esf then [true, false, false, false, true, true, false, true, true, true, false, false].getD k false
  else if k % 2 = 0 then !far || decide (fdl % 16 < 8)
  else if k % 4 = 1 then crc.testBit (5 - k / 4)
  else [false, false, true, false, true, true].getD (k / 4) false

/-- One T1 frame. -/
def t1Frame (esf : Bool) (mask idle : Nat) (far : Bool) (c : CesPos) (payload : List Byte) : CesPos × List Bool :=
  let k := c.frame % (if esf then 24 else 12)
  let body := byteBits (fillSlots mask idle payload (List.range 24))
  let f := t1FBit esf k c.crc far c.fdl
  -- the CRC covers the superframe with its F bits at 1
  let checked := if esf then c.bits ++ true :: body else []
  let done := decide (k = 23)
  ({ frame := c.frame + 1, bits := if done then [] else checked, crc := if done then crcBits 6 0x3 checked else c.crc
     fdl := if esf ∧ k % 2 = 0 then (if far then c.fdl + 1 else 0) else c.fdl }, f :: body)

/-- The frames of one payload of `n` slots a frame: `framing` as TRIB[p]_CFG codes it, 1 and 2 E1, 3 and 4 T1. -/
def cesFrames (framing mask idle n : Nat) (far : Bool) : Nat → CesPos → List Byte → CesPos × List Bool
  | 0, c, _ => (c, [])
  | k + 1, c, l =>
    let r := if framing ≤ 2 then e1Frame (framing == 2) mask idle far c (l.take n) else t1Frame (framing == 4) mask idle far c (l.take n)
    let t := cesFrames framing mask idle n far k r.1 (l.drop n)
    (t.1, r.2 ++ t.2)

end Sys2Proof.Machine
end

