-- ==== Sys2Proof/Machine/Framer.lean ====
section
/-! DEFINITION. The line decoder and coder of a tributary port and its framers, on plain bits (R173, R177, R178, R181, R184). -/

namespace Sys2Proof.Machine

/-! ### Line codes (R173, R184) -/

/-- The line codes. -/
inductive LineCode where
  | ami | hdb3 | b8zs
deriving DecidableEq, Repr

/-- The symbols that a substitution of a code stands for, and for which decoder and coder look at once. -/
def codeRun : LineCode → Nat
  | .ami => 1
  | .hdb3 => 4
  | .b8zs => 8

/-- The symbols that stand for a full run of zeros after a pulse of polarity `pol`: 000V or B00V, so that the violations alternate, and
000VB0VB. -/
def substitution (c : LineCode) (pol : Int) (odd : Bool) : List Int :=
  match c with
  | .ami => [0]
  | .hdb3 => if odd then [0, 0, 0, pol] else [-pol, 0, 0, -pol]
  | .b8zs => [0, 0, 0, pol, -pol, 0, -pol, pol]

/-- A decoder: the symbols it still looks at, oldest first, the polarity of the last pulse before them, that of the last HDB3 violation, 0 where
there is none, and the zeros of the running run. -/
structure Decoder where
  win : List Int
  pol : Int
  vPol : Int
  zeros : Nat
deriving DecidableEq, Repr

/-- A decoder that has received nothing. -/
def Decoder.init : Decoder := ⟨[], 0, 0, 0⟩

/-- The symbols `w` after a pulse of polarity `pol` are a valid substitution. Those of HDB3 carry violations of alternating polarity. -/
def validSubstitution (c : LineCode) (pol vPol : Int) (w : List Int) : Bool :=
  match c with
  | .ami => false
  | .hdb3 => decide (pol ≠ 0) && decide (w.getLast?.getD 0 ≠ vPol) && (decide (w = substitution c pol true) || decide (w = substitution c pol false))
  | .b8zs => decide (pol ≠ 0) && decide (w = substitution c pol true)

/-- The longest run of zeros a code sends; AMI has a limit in T1 mode only (R173). -/
def zeroLimit (c : LineCode) (t1 : Bool) : Option Nat :=
  match c with
  | .hdb3 => some 3
  | .b8zs => some 7
  | .ami => if t1 then some 15 else none

/-- One received symbol: the decoder after it, the bits it delivers, and what it counts in CV_CNT (R173). -/
def Decoder.step (c : LineCode) (t1 : Bool) (d : Decoder) (a : Int) : Decoder × List Bool × Nat :=
  let zeros := if a = 0 then d.zeros + 1 else 0
  let excess := bit (decide (zeroLimit c t1 = some (zeros - 1) ∧ 0 < zeros))
  let win := d.win ++ [a]
  let d := { d with win := win, zeros := zeros }
  if win.length < codeRun c then (d, [], excess)
  else if validSubstitution c d.pol d.vPol win then
    let v := win.getLast?.getD 0
    ({ d with win := [], pol := v, vPol := if c = .hdb3 then v else d.vPol }, List.replicate (codeRun c) false, excess)
  else
    let h := win.headD 0
    ({ d with win := win.drop 1, pol := if h = 0 then d.pol else h }, [decide (h ≠ 0)], excess + bit (decide (h ≠ 0 ∧ h = d.pol)))

/-- A list of received symbols. -/
def Decoder.run (c : LineCode) (t1 : Bool) : Decoder → List Int → Decoder × List Bool × Nat
  | d, [] => (d, [], 0)
  | d, a :: l =>
    let r := d.step c t1 a
    let t := Decoder.run c t1 r.1 l
    (t.1, r.2.1 ++ t.2.1, r.2.2 + t.2.2)

/-- A coder: the symbols of a substitution still to be sent, the polarity of the last pulse, and whether an odd number of pulses has gone out
since the last HDB3 violation. -/
structure Coder where
  syms : List Int
  polarity : Int
  odd : Bool
deriving DecidableEq, Repr

/-- A coder that has sent nothing. -/
def Coder.init : Coder := ⟨[], -1, false⟩

/-- A mark goes out, with the polarity opposite to the last. -/
def Coder.mark (x : Coder) : Coder × Int := (⟨[], -x.polarity, !x.odd⟩, -x.polarity)

/-- The symbol of the first of the bits `bits`, looking ahead for a run of zeros (R184). -/
def Coder.next (c : LineCode) (x : Coder) (bits : List Bool) : Coder × Int :=
  match x.syms with
  | a :: rest => ({ x with syms := rest }, a)
  | [] =>
    if c ≠ .ami ∧ codeRun c ≤ bits.length ∧ (bits.take (codeRun c)).all (· = false) then
      let sub := substitution c x.polarity x.odd
      (⟨sub.drop 1, (sub.filter (· ≠ 0)).getLast?.getD x.polarity, false⟩, sub.headD 0)
    else if bits.headD false then x.mark
    else (x, 0)

/-! ### Framers (R177, R178) -/

/-- Framer states (TRIB_FRM_STAT). -/
def trOff : Nat := 0
def trSearch : Nat := 1
def trConfirm : Nat := 2
def trIn : Nat := 3

/-- What a framer holds beside its state: the bits not yet used, oldest first, the number of the next frame in its cycle, the run of errored
FAS, the last Ft or FPS bits, newest first, true where errored, and the check of the last whole submultiframe or superframe. -/
structure Framer where
  buf : List Bool
  pos : Nat
  err : Nat
  bits : List Bool
  crc : Option Nat
deriving DecidableEq, Repr

/-- A framer that has seen nothing. -/
def Framer.init : Framer := ⟨[], 0, 0, [], none⟩

/-- FAS in bits 2 to 8 of time slot 0, and the FPS of ESF (R178). -/
def fasBits : List Bool := [false, false, true, true, false, true, true]
def fpsBits : List Bool := [false, false, true, false, true, true]

/-- The Fs bits of SF that follow Ft in frames 1, 3 and so on: 0b00_1110. -/
def fsBits : List Bool := [false, false, true, true, true, false]

/-- Bits of a frame of a FRAMING. -/
def frameLen (m : Nat) : Nat := if m ≤ 2 then 256 else 193

/-- Frames after which the alignment bits repeat: FAS and NFAS, an SF or an ESF superframe. -/
def framePeriod (m : Nat) : Nat := if m ≤ 2 then 2 else if m = 3 then 12 else 24

/-- Bits that the search looks at from a candidate position on, and that the confirmation needs. -/
def searchSpan (m : Nat) : Nat := if m ≤ 2 then 8 else if m = 3 then 3 * 386 + 1 else 5 * 772 + 1
def confirmSpan (m : Nat) : Nat := if m ≤ 2 then 520 else if m = 3 then 24 * 193 else 66 * 193 + 1

/-- The search pattern stands at the front of `b` (R178). -/
def patternAt (m : Nat) (b : List Bool) : Bool :=
  if m ≤ 2 then decide ((b.drop 1).take 7 = fasBits)
  else if m = 3 then decide ((List.range 4).map (fun k => b.getD (386 * k) false) = [true, false, true, false])
  else decide ((List.range 6).map (fun k => b.getD (772 * k) false) = fpsBits)

/-- The search: whether a candidate is found, and the bits from the earliest on (R178). -/
def searchFrom (m : Nat) : List Bool → Bool × List Bool
  | [] => (false, [])
  | b :: r =>
    if (b :: r).length < searchSpan m then (false, b :: r)
    else if patternAt m (b :: r) then (true, b :: r)
    else searchFrom m r

/-- The place in its superframe, 0, 4 or 8, of the SF frame at the front of `b`, where Ft is correct in 12 positions and Fs follows. -/
def sfPhase (b : List Bool) : Option Nat :=
  if (List.range 12).all (fun k => b.getD (386 * k) false == decide (k % 2 = 0)) then
    [0, 4, 8].find? fun r => (List.range 12).all fun k => b.getD (386 * k + 193) false == fsBits.getD ((k + r / 2) % 6) false
  else none

/-- An ESF superframe with its F bits at 1, for its CRC-6. -/
def esfChecked (b : List Bool) : List Bool := (List.range 24).flatMap fun k => true :: (b.drop (193 * k + 1)).take 192

/-- The framer after the confirmation of the candidate at the front of its bits, where it holds (R178): it goes on at the FAS that confirms,
after the 12 Ft positions, or at the ESF superframe whose CRC-6 bits were the last looked at. -/
def Framer.confirm (m : Nat) (f : Framer) : Option Framer :=
  let b := f.buf
  if m ≤ 2 then
    if b.getD 257 false ∧ (b.drop 513).take 7 = fasBits then some ⟨b.drop 512, 0, 0, [], none⟩ else none
  else if m = 3 then (sfPhase b).map (fun r => ⟨b.drop (24 * 193), r, 0, [], none⟩)
  else
    let crc := crcBits 6 0x3 (esfChecked (b.drop (21 * 193)))
    if (List.range 6).map (fun k => b.getD ((45 + 4 * k + 1) * 193) false) = bitsOf 6 crc then some ⟨b.drop (45 * 193), 0, 0, [], some crc⟩
    else none

/-- Errored alignment bits of frame number `pos`, none where it carries no FAS, Ft or FPS bit. -/
def alignErrors (m pos : Nat) (fr : List Bool) : Option Nat :=
  if m ≤ 2 then
    if pos % 2 = 0 then some ((List.zipWith (fun a b => bit (a != b)) ((fr.drop 1).take 7) fasBits).sum) else none
  else if m = 3 then
    if pos % 2 = 0 then some (bit (fr.headD false != decide (pos % 4 = 0))) else none
  else if pos % 4 = 3 then some (bit (fr.headD false != fpsBits.getD (pos / 4) false)) else none

/-- Whether the loss rule holds after one more frame: 3 consecutive errored FAS, or 2 errored of 4 consecutive bits; with the run and the bits
kept (R178). -/
def frameLoss (m err : Nat) (bits : List Bool) : Option Nat → Bool × Nat × List Bool
  | none => (false, err, bits)
  | some e =>
    if m ≤ 2 then
      let err := if e = 0 then 0 else err + 1
      (decide (3 ≤ err), err, bits)
    else
      let bits := (decide (e ≠ 0) :: bits).take 4
      (decide (2 ≤ (bits.filter (· = true)).length), err, bits)

/-- One advance of a framer: its next state, itself, the frame it has just taken In frame with that frame's number, and whether it may advance
further on the bits it has. -/
structure FramerStep where
  st : Nat
  f : Framer
  frame : Option (Nat × List Bool)
  go : Bool
deriving DecidableEq, Repr

/-- The state table of R177 with the patterns and rules of R178. -/
def Framer.advance (m st : Nat) (f : Framer) : FramerStep :=
  if st = trSearch then
    let r := searchFrom m f.buf
    ⟨if r.1 then trConfirm else trSearch, { f with buf := r.2 }, none, r.1⟩
  else if st = trConfirm then
    if f.buf.length < confirmSpan m then ⟨trConfirm, f, none, false⟩
    else match f.confirm m with
    | some g => ⟨trIn, g, none, true⟩
    | none => ⟨trSearch, { f with buf := f.buf.drop 1 }, none, true⟩
  else if st = trIn then
    if f.buf.length < frameLen m then ⟨trIn, f, none, false⟩
    else
      let fr := f.buf.take (frameLen m)
      let l := frameLoss m f.err f.bits (alignErrors m f.pos fr)
      ⟨if l.1 then trSearch else trIn,
        { f with buf := f.buf.drop (frameLen m), pos := (f.pos + 1) % framePeriod m, err := l.2.1, bits := l.2.2 }, some (f.pos, fr), true⟩
  else ⟨trOff, .init, none, false⟩

/-! ### What a frame carries (R179, R181) -/

/-- Bit 2 of every channel of a T1 frame is 0: the far-end alarm of SF (R181). -/
def yellowSf (fr : List Bool) : Bool := (List.range 24).all fun i => fr.getD (8 * i + 2) false == false

/-- The FDL word 0xFF00 that tells the far-end alarm of ESF (R181). -/
def fdlAlarm : List Bool := bitsOf 16 0xFF00

/-- The bits of a number read most significant first. -/
def bitsNat (l : List Bool) : Nat := l.foldl (fun a b => 2 * a + bit b) 0

/-- An MFAS word (R179), carried one bit in each NFAS. -/
def mfasBits : List Bool := [false, false, true, false, true, true]

end Sys2Proof.Machine
end

