-- ==== Sys2Proof/Machine/RegTable.lean ====
section
/-! DEFINITION. The register table of the module: for every register and register-space memory its address, type, write rights,
reset value, fields and permitted ranges, as the tables of chapters 00 to 15 give them (R3, R4, R7, R407 to R411). It is also the
field table of the boot ROM (R75). -/

namespace Sys2Proof.Machine

/-- The type codes of R3. -/
inductive RType where
  | i | is | m | k | s | c | x
deriving DecidableEq, Repr

/-- One field: name, highest and lowest bit, type code and the fixed part of its permitted range (R75). -/
structure RegField where
  name : String
  hi : Nat
  lo : Nat
  ty : RType
  range : Option (Int × Int)
deriving DecidableEq, Repr

/-- One row: `count1` instances `stride1` bytes apart, each of `count2` words `stride2` bytes apart; `mem` for the memories of R407;
the write rights of R410 (image records, services, maintenance); the reset word. -/
structure RegRow where
  name : String
  base : Nat
  count1 : Nat
  stride1 : Nat
  count2 : Nat
  stride2 : Nat
  ty : RType
  mem : Bool
  image : Bool
  svc : Bool
  mnt : Bool
  reset : Nat
  fields : List RegField
deriving DecidableEq, Repr

/-- SUP (supervisor), part 1 of its rows. -/
def regTableSup0 : List RegRow := [
  ⟨"SUP_IDENT", 0x40000000, 1, 0x4, 1, 4, .s, false, false, false, false, 0x90242200,
    [⟨"PART", 31, 16, .s, none⟩, ⟨"STEPPING", 15, 12, .s, none⟩, ⟨"VARIANT", 11, 8, .s, none⟩]⟩,
  ⟨"SUP_STATE", 0x40000004, 1, 0x4, 1, 4, .s, false, false, false, false, 0x00000001,
    [⟨"STATE", 3, 0, .s, none⟩, ⟨"PREV", 7, 4, .s, none⟩, ⟨"ENTRY_CAUSE", 15, 8, .s, none⟩, ⟨"LIMP_CAUSES", 23, 16, .s, none⟩, ⟨"PAIRED", 24, 24, .s, none⟩, ⟨"SENIOR", 25, 25, .s, none⟩, ⟨"SLOT", 26, 26, .s, none⟩]⟩,
  ⟨"SUP_RST_CAUSE", 0x4000000C, 1, 0x4, 1, 4, .s, false, false, false, false, 0x00000001,
    [⟨"CAUSE", 1, 0, .s, none⟩]⟩,
  ⟨"SUP_FIT_CFG", 0x40000010, 1, 0x4, 1, 4, .i, false, true, false, false, 0x00000002,
    [⟨"PAIRED", 0, 0, .i, none⟩, ⟨"LIMP_EN", 1, 1, .i, none⟩]⟩,
  ⟨"SUP_ISLAND_CFG", 0x40000014, 1, 0x4, 1, 4, .i, false, true, false, false, 0x00001FFF,
    [⟨"LP_EN", 7, 0, .i, none⟩, ⟨"TR_EN", 9, 8, .i, none⟩, ⟨"PK_EN", 11, 10, .i, none⟩, ⟨"FC_EN", 12, 12, .i, none⟩]⟩,
  ⟨"SUP_ISLAND_STAT", 0x40000018, 1, 0x4, 1, 4, .s, false, false, false, false, 0x00000000,
    [⟨"RUN", 23, 0, .s, none⟩]⟩,
  ⟨"SUP_SAFE_CFG", 0x40000020, 1, 0x4, 1, 4, .i, false, true, false, false, 0x000C03E8,
    [⟨"HOLD_MS", 15, 0, .i, some (100, 60000)⟩, ⟨"BACKOFF_MAX", 19, 16, .i, some (0, 12)⟩]⟩,
  ⟨"SUP_MON_CFG", 0x40000024, 1, 0x4, 1, 4, .i, false, true, false, false, 0x000A0032,
    [⟨"LIMIT_PPB", 12, 0, .i, some (10, 4600)⟩, ⟨"RELEASE_S", 25, 16, .i, some (1, 600)⟩]⟩,
  ⟨"SUP_ALS_CFG", 0x40000028, 1, 0x4, 1, 4, .i, false, true, false, false, 0x000226FF,
    [⟨"SP_ALS_EN", 7, 0, .i, none⟩, ⟨"T_DEACT_MS", 17, 8, .i, some (100, 550)⟩]⟩,
  ⟨"SUP_TO_CFG", 0x4000002C, 1, 0x4, 1, 4, .i, false, true, false, false, 0x00A02864,
    [⟨"L4_WIN", 9, 0, .i, some (1, 1000)⟩, ⟨"L5_WIN", 19, 10, .i, some (1, 1000)⟩, ⟨"L7_WIN", 24, 20, .i, some (1, 19)⟩]⟩,
  ⟨"SUP_PF_CFG", 0x40000030, 1, 0x4, 1, 4, .i, false, true, false, false, 0x0000A855,
    [⟨"VIN_PF", 9, 0, .i, some (85, 600)⟩, ⟨"HYST", 14, 10, .i, some (5, 30)⟩, ⟨"ARCH_EN", 15, 15, .i, none⟩]⟩,
  ⟨"SUP_PWR_CFG", 0x40000034, 1, 0x4, 1, 4, .i, false, true, false, false, 0x000000DC,
    [⟨"VBAK_WARN", 8, 0, .i, some (190, 300)⟩]⟩]

/-- SUP (supervisor), part 2 of its rows. -/
def regTableSup1 : List RegRow := [
  ⟨"SUP_SAFETY_STAT", 0x40000040, 1, 0x4, 1, 4, .s, false, false, false, false, 0x0000FF10,
    [⟨"CLAIM_OUT", 0, 0, .s, none⟩, ⟨"CLAIM_IN", 1, 1, .s, none⟩, ⟨"KEY2", 2, 2, .s, none⟩, ⟨"SHARED_EN", 3, 3, .s, none⟩, ⟨"SQUELCH", 4, 4, .s, none⟩, ⟨"MON_A", 5, 5, .s, none⟩, ⟨"MON_B", 6, 6, .s, none⟩, ⟨"CORR_REJ", 7, 7, .s, none⟩, ⟨"SP_ALS", 15, 8, .s, none⟩, ⟨"SG5_VIN", 16, 16, .s, none⟩, ⟨"SG5_CUR", 17, 17, .s, none⟩, ⟨"SG5_STAGE_T", 18, 18, .s, none⟩, ⟨"SG5_DIE_T", 19, 19, .s, none⟩]⟩,
  ⟨"SUP_TO_STAT", 0x40000044, 1, 0x4, 1, 4, .s, false, false, false, false, 0x00000000,
    [⟨"LEVEL", 3, 0, .s, none⟩, ⟨"SOURCE", 15, 4, .s, none⟩, ⟨"SAFE_COUNT", 23, 16, .s, none⟩]⟩,
  ⟨"SUP_RET_STAT", 0x40000048, 1, 0x4, 1, 4, .s, false, false, false, false, 0x00000000,
    [⟨"VALID", 0, 0, .s, none⟩, ⟨"BOD_SEEN", 1, 1, .s, none⟩, ⟨"SEAL_BAD", 2, 2, .s, none⟩, ⟨"CRC_BAD", 3, 3, .s, none⟩, ⟨"ARCH_DONE", 4, 4, .s, none⟩, ⟨"ARCH_SKIPPED", 5, 5, .s, none⟩, ⟨"VBAK_PRESENT", 6, 6, .s, none⟩]⟩,
  ⟨"SUP_L7_KICK", 0x40000050, 1, 0x4, 1, 4, .k, false, false, true, false, 0x00000000,
    [⟨"TOKEN", 7, 0, .k, none⟩, ⟨"KICK", 15, 8, .k, none⟩, ⟨"RESULT", 23, 16, .k, none⟩]⟩,
  ⟨"SUP_TO_CNT", 0x40000060, 8, 0x4, 1, 4, .c, false, false, false, false, 0x00000000,
    [⟨"CNT", 31, 0, .c, none⟩]⟩,
  ⟨"SUP_PWR_STAT", 0x40000080, 1, 0x4, 1, 4, .s, false, false, false, false, 0x00000000,
    [⟨"VIN", 9, 0, .s, none⟩, ⟨"VBAK", 24, 16, .s, none⟩, ⟨"VBAK_LOW", 25, 25, .s, none⟩]⟩,
  ⟨"SUP_TEMP", 0x40000084, 1, 0x4, 1, 4, .s, false, false, false, false, 0x00000000,
    [⟨"DIE", 15, 0, .s, none⟩, ⟨"STAGE", 31, 16, .s, none⟩]⟩,
  ⟨"SUP_RAIL_STAT", 0x40000088, 1, 0x4, 1, 4, .s, false, false, false, false, 0x00000000,
    [⟨"GOOD", 4, 0, .s, none⟩, ⟨"LAST_FAIL", 10, 8, .s, none⟩, ⟨"FAIL_CNT", 23, 16, .s, none⟩]⟩,
  ⟨"SUP_SCRATCH", 0x4000008C, 1, 0x4, 1, 4, .m, false, false, false, true, 0x00000000,
    [⟨"VALUE", 31, 0, .m, none⟩]⟩,
  ⟨"SUP_BKP_SERIAL_LO", 0x40000100, 1, 0x4, 1, 4, .s, false, false, false, false, 0x00000000,
    [⟨"SERIAL", 31, 0, .s, none⟩]⟩,
  ⟨"SUP_BKP_SERIAL_HI", 0x40000104, 1, 0x4, 1, 4, .s, false, false, false, false, 0x00000000,
    [⟨"SERIAL", 31, 0, .s, none⟩]⟩,
  ⟨"SUP_BKP_DIE", 0x40000108, 1, 0x4, 1, 4, .s, false, false, false, false, 0x00000022,
    [⟨"STEPPING", 3, 0, .s, none⟩, ⟨"VARIANT", 7, 4, .s, none⟩, ⟨"LOT", 31, 8, .s, none⟩]⟩]

/-- SUP (supervisor), part 3 of its rows. -/
def regTableSup2 : List RegRow := [
  ⟨"SUP_BKP_KEYHASH", 0x40000110, 8, 0x4, 1, 4, .s, false, false, false, false, 0x00000000,
    [⟨"HASH", 31, 0, .s, none⟩]⟩,
  ⟨"SUP_BKP_RSVD", 0x4000010C, 1, 0x4, 1, 4, .s, true, false, false, false, 0x00000000,
    []⟩,
  ⟨"SUP_BKP_CHECK", 0x40000130, 1, 0x4, 1, 4, .s, false, false, false, false, 0x00000000,
    [⟨"CRC", 31, 0, .s, none⟩]⟩,
  ⟨"SUP_L5_STAT", 0x40000140, 23, 0x4, 1, 4, .s, false, false, false, false, 0x00000000,
    [⟨"FIRE_WIN", 1, 0, .s, none⟩, ⟨"HELD", 8, 8, .s, none⟩, ⟨"EXEMPT", 9, 9, .s, none⟩]⟩,
  ⟨"SUP_L5_STAT_SP", 0x4000019C, 1, 0x4, 1, 4, .s, false, false, false, false, 0x00000200,
    [⟨"FIRE_WIN", 1, 0, .s, none⟩, ⟨"HELD", 8, 8, .s, none⟩, ⟨"EXEMPT", 9, 9, .s, none⟩]⟩]

/-- The rows of block SUP. -/
def regTableSup : List RegRow := regTableSup0 ++ regTableSup1 ++ regTableSup2

/-- NVM (loader), part 1 of its rows. -/
def regTableNvm0 : List RegRow := [
  ⟨"NVM_STAT", 0x40010000, 1, 0x4, 1, 4, .s, false, false, false, false, 0x00000001,
    [⟨"WINDOW", 0, 0, .s, none⟩, ⟨"STEP", 4, 1, .s, none⟩, ⟨"MODE", 6, 5, .s, none⟩, ⟨"ADDR4", 7, 7, .s, none⟩, ⟨"CLK", 9, 8, .s, none⟩, ⟨"SFDP_OK", 10, 10, .s, none⟩, ⟨"DENSITY_LOG2", 15, 11, .s, none⟩]⟩,
  ⟨"NVM_JEDEC_ID", 0x40010004, 1, 0x4, 1, 4, .s, false, false, false, false, 0x00000000,
    [⟨"ID", 23, 0, .s, none⟩]⟩,
  ⟨"NVM_SLOT_STAT", 0x40010010, 2, 0x4, 1, 4, .s, false, false, false, false, 0x0000FF00,
    [⟨"RESULT", 7, 0, .s, none⟩, ⟨"SECTION", 15, 8, .s, none⟩]⟩,
  ⟨"NVM_IMG_VER", 0x40010018, 1, 0x4, 1, 4, .s, false, false, false, false, 0x00000000,
    [⟨"VERSION", 31, 0, .s, none⟩]⟩,
  ⟨"NVM_IMG_BUILD", 0x4001001C, 1, 0x4, 1, 4, .s, false, false, false, false, 0x00000000,
    [⟨"BUILD", 31, 0, .s, none⟩]⟩,
  ⟨"NVM_STEP_TIME", 0x40010020, 9, 0x4, 1, 4, .s, false, false, false, false, 0x00000000,
    [⟨"US", 31, 0, .s, none⟩]⟩,
  ⟨"NVM_ARCH_STAT", 0x40010050, 1, 0x4, 1, 4, .s, false, false, false, false, 0x00000000,
    [⟨"NEWEST", 8, 0, .s, none⟩, ⟨"FOUND", 9, 9, .s, none⟩, ⟨"NEXT", 18, 10, .s, none⟩, ⟨"PREPARED", 19, 19, .s, none⟩]⟩]

/-- The rows of block NVM. -/
def regTableNvm : List RegRow := regTableNvm0

/-- MTX (matrix), part 1 of its rows. -/
def regTableMtx0 : List RegRow := [
  ⟨"MTX_REMAP", 0x40020010, 1, 0x4, 1, 4, .s, false, false, false, false, 0x00000000,
    [⟨"SWAP", 0, 0, .s, none⟩]⟩,
  ⟨"MTX_TGT_CFG0", 0x40020020, 2, 0x4, 1, 4, .i, false, true, false, false, 0x0000003F,
    [⟨"L2_CYC", 15, 0, .i, some (1, 65535)⟩]⟩,
  ⟨"MTX_TGT_CFG2", 0x40020028, 1, 0x4, 1, 4, .i, false, true, false, false, 0x000001FF,
    [⟨"L2_CYC", 15, 0, .i, some (1, 65535)⟩]⟩,
  ⟨"MTX_TGT_CFG3", 0x4002002C, 1, 0x4, 1, 4, .i, false, true, false, false, 0x00001FFF,
    [⟨"L2_CYC", 15, 0, .i, some (1, 65535)⟩]⟩,
  ⟨"MTX_TGT_CFG4", 0x40020030, 1, 0x4, 1, 4, .i, false, true, false, false, 0x000001FF,
    [⟨"L2_CYC", 15, 0, .i, some (1, 65535)⟩]⟩,
  ⟨"MTX_TGT_CFG5", 0x40020034, 1, 0x4, 1, 4, .i, false, true, false, false, 0x0000FFFF,
    [⟨"L2_CYC", 15, 0, .i, some (1, 65535)⟩]⟩,
  ⟨"MTX_TGT_CFG6", 0x40020038, 1, 0x4, 1, 4, .i, false, false, false, false, 0x0000FFFF,
    [⟨"L2_CYC", 15, 0, .i, some (1, 65535)⟩]⟩,
  ⟨"MTX_FENCE_CFG", 0x40020040, 1, 0x4, 1, 4, .i, false, true, false, false, 0x000003E8,
    [⟨"TIMEOUT_US", 13, 0, .i, some (10, 10000)⟩]⟩,
  ⟨"MTX_FENCE", 0x40020044, 1, 0x4, 1, 4, .m, false, false, false, true, 0x00000000,
    [⟨"TOKEN", 7, 0, .m, none⟩, ⟨"GO", 8, 8, .m, none⟩, ⟨"RESULT", 23, 16, .s, none⟩, ⟨"FENCE_LO", 31, 24, .s, none⟩]⟩,
  ⟨"MTX_FENCE_NO", 0x40020048, 1, 0x4, 1, 4, .s, false, false, false, false, 0x00000000,
    [⟨"COMPLETED", 15, 0, .s, none⟩, ⟨"ISSUED", 31, 16, .s, none⟩]⟩,
  ⟨"MTX_FENCE_MISS", 0x4002004C, 1, 0x4, 1, 4, .s, false, false, false, false, 0x00000000,
    [⟨"MISS", 23, 0, .s, none⟩]⟩,
  ⟨"MTX_ERR_LAST", 0x40020050, 1, 0x4, 1, 4, .s, false, false, false, false, 0x00000000,
    [⟨"PORT", 2, 0, .s, none⟩, ⟨"TARGET", 6, 4, .s, none⟩, ⟨"CODE", 10, 8, .s, none⟩, ⟨"ID", 15, 12, .s, none⟩, ⟨"WRITE", 16, 16, .s, none⟩]⟩]

/-- MTX (matrix), part 2 of its rows. -/
def regTableMtx1 : List RegRow := [
  ⟨"MTX_ERR_ADDR", 0x40020054, 1, 0x4, 1, 4, .s, false, false, false, false, 0x00000000,
    [⟨"ADDR", 31, 0, .s, none⟩]⟩,
  ⟨"MTX_LATE_CNT", 0x40020058, 1, 0x4, 1, 4, .c, false, false, false, false, 0x00000000,
    [⟨"CNT", 31, 0, .c, none⟩]⟩,
  ⟨"MTX_MERGE_CNT", 0x4002005C, 1, 0x4, 1, 4, .c, false, false, false, false, 0x00000000,
    [⟨"CNT", 31, 0, .c, none⟩]⟩,
  ⟨"MTX_GATE_STAT", 0x40020100, 61, 0x4, 1, 4, .s, false, false, false, false, 0x00000003,
    [⟨"OFFLINE_LO", 0, 0, .s, none⟩, ⟨"OFFLINE_HI", 1, 1, .s, none⟩, ⟨"PHASE", 3, 2, .s, none⟩, ⟨"FIRE_WIN", 12, 8, .s, none⟩]⟩,
  ⟨"MTX_GATE_TO_CNT", 0x40020200, 61, 0x4, 1, 4, .c, false, false, false, false, 0x00000000,
    [⟨"CNT", 31, 0, .c, none⟩]⟩,
  ⟨"MTX_TXN", 0x40020400, 98, 0x8, 2, 4, .s, true, false, false, false, 0x00000000,
    [⟨"WORD", 31, 0, .s, none⟩]⟩,
  ⟨"MTX_ITC", 0x40020800, 24, 0x8, 2, 4, .s, false, false, false, false, 0x00000000,
    [⟨"WORD", 31, 0, .s, none⟩]⟩]

/-- The rows of block MTX. -/
def regTableMtx : List RegRow := regTableMtx0 ++ regTableMtx1

/-- EVT (event hub), part 1 of its rows. -/
def regTableEvt0 : List RegRow := [
  ⟨"EVT_CFG", 0x40030000, 1, 0x4, 1, 4, .i, false, true, false, false, 0x000000F3,
    [⟨"SPI_EN", 0, 0, .i, none⟩, ⟨"I2C_EN", 1, 1, .i, none⟩, ⟨"UNLOCK_TO_S", 11, 2, .i, some (10, 600)⟩]⟩,
  ⟨"EVT_STAT", 0x40030004, 1, 0x4, 1, 4, .s, false, false, false, false, 0x00000000,
    [⟨"QUEUE", 9, 0, .s, none⟩, ⟨"LOSING", 10, 10, .s, none⟩, ⟨"JUMPED", 11, 11, .s, none⟩, ⟨"INTA", 12, 12, .s, none⟩, ⟨"INTB", 13, 13, .s, none⟩]⟩,
  ⟨"EVT_LEDGER_NEXT", 0x40030008, 2, 0x4, 1, 4, .s, false, false, false, false, 0x00000000,
    [⟨"WORD", 31, 0, .s, none⟩]⟩,
  ⟨"EVT_GAP_CNT", 0x40030018, 1, 0x4, 1, 4, .c, false, false, false, false, 0x00000000,
    [⟨"CNT", 31, 0, .c, none⟩]⟩,
  ⟨"EVT_MGMT_UNLOCK", 0x40030040, 1, 0x4, 1, 4, .m, false, false, false, false, 0x00000000,
    [⟨"STATE", 1, 0, .m, none⟩, ⟨"UNLOCK_FAIL", 15, 8, .m, none⟩]⟩,
  ⟨"EVT_MGMT_REF", 0x40030048, 1, 0x4, 1, 4, .s, false, false, false, false, 0x00000000,
    [⟨"ADDR", 31, 0, .s, none⟩]⟩,
  ⟨"EVT_MGMT_REF_CODE", 0x4003004C, 1, 0x4, 1, 4, .s, false, false, false, false, 0x00000000,
    [⟨"CODE", 2, 0, .s, none⟩, ⟨"WRITE", 8, 8, .s, none⟩]⟩,
  ⟨"EVT_ISL_LOST_CNT", 0x40030100, 24, 0x4, 1, 4, .c, false, false, false, false, 0x00000000,
    [⟨"CNT", 31, 0, .c, none⟩]⟩,
  ⟨"EVT_PEND", 0x40030200, 36, 0x4, 1, 4, .x, false, false, false, true, 0x00000000,
    [⟨"PEND", 31, 0, .x, none⟩]⟩,
  ⟨"EVT_EVENT_CFG", 0x40031000, 1152, 0x4, 1, 4, .i, true, true, false, true, 0x00000001,
    [⟨"LOG", 0, 0, .i, none⟩, ⟨"INTA", 1, 1, .i, none⟩, ⟨"INTB", 2, 2, .i, none⟩]⟩,
  ⟨"EVT_CNT", 0x40033000, 1152, 0x4, 1, 4, .c, true, false, false, false, 0x00000000,
    [⟨"CNT", 31, 0, .c, none⟩]⟩]

/-- The rows of block EVT. -/
def regTableEvt : List RegRow := regTableEvt0

/-- INV (Inventory), part 1 of its rows. -/
def regTableInv0 : List RegRow := [
  ⟨"INV_CFG", 0x40040000, 1, 0x4, 1, 4, .i, false, true, false, false, 0x00000001,
    [⟨"TICK_EN", 0, 0, .i, none⟩]⟩,
  ⟨"INV_SNAPSHOT", 0x40040004, 1, 0x4, 1, 4, .k, false, false, true, true, 0x00000000,
    [⟨"TOKEN", 7, 0, .k, none⟩, ⟨"GO", 8, 8, .k, none⟩, ⟨"RESULT", 23, 16, .k, none⟩, ⟨"SEQ_LO", 31, 24, .k, none⟩]⟩,
  ⟨"INV_STAT", 0x40040008, 1, 0x4, 1, 4, .s, false, false, false, false, 0x00000000,
    [⟨"ACTIVE", 0, 0, .s, none⟩, ⟨"GATHERING", 1, 1, .s, none⟩, ⟨"HELD", 2, 2, .s, none⟩, ⟨"SEQ", 31, 16, .s, none⟩]⟩,
  ⟨"INV_MERGE_CNT", 0x4004000C, 1, 0x4, 1, 4, .c, false, false, false, false, 0x00000000,
    [⟨"CNT", 31, 0, .c, none⟩]⟩]

/-- The rows of block INV. -/
def regTableInv : List RegRow := regTableInv0

/-- CHK (check units), part 1 of its rows. -/
def regTableChk0 : List RegRow := [
  ⟨"CHK_RESULT", 0x40050100, 32, 0x10, 1, 4, .s, false, false, false, false, 0x00000000,
    [⟨"VALUE", 31, 0, .s, none⟩]⟩,
  ⟨"CHK_RUN", 0x40050104, 32, 0x10, 1, 4, .s, false, false, false, false, 0x00000000,
    [⟨"VALUE", 31, 0, .s, none⟩]⟩,
  ⟨"CHK_STAT", 0x40050108, 32, 0x10, 1, 4, .s, false, false, false, false, 0x00000000,
    [⟨"RUNNING", 0, 0, .s, none⟩, ⟨"MISMATCH", 1, 1, .s, none⟩]⟩,
  ⟨"CHK_BYTE_CNT", 0x40050800, 32, 0x10, 1, 4, .c, false, false, false, false, 0x00000000,
    [⟨"CNT", 31, 0, .c, none⟩]⟩,
  ⟨"CHK_BLOCK_CNT", 0x40050804, 32, 0x10, 1, 4, .c, false, false, false, false, 0x00000000,
    [⟨"CNT", 31, 0, .c, none⟩]⟩,
  ⟨"CHK_MATCH_CNT", 0x40050808, 32, 0x10, 1, 4, .c, false, false, false, false, 0x00000000,
    [⟨"CNT", 31, 0, .c, none⟩]⟩,
  ⟨"CHK_MISMATCH_CNT", 0x4005080C, 32, 0x10, 1, 4, .c, false, false, false, false, 0x00000000,
    [⟨"CNT", 31, 0, .c, none⟩]⟩,
  ⟨"CHK_ENTRY0", 0x40051000, 32, 0x20, 1, 4, .is, true, true, true, true, 0x00000000,
    [⟨"EN", 0, 0, .is, none⟩, ⟨"TAP", 7, 1, .is, some (0, 95)⟩, ⟨"WIDTH", 12, 8, .is, none⟩, ⟨"REFIN", 13, 13, .is, none⟩, ⟨"REFOUT", 14, 14, .is, none⟩, ⟨"MODE", 16, 15, .is, none⟩, ⟨"SEL", 29, 17, .is, none⟩]⟩,
  ⟨"CHK_POLY", 0x40051004, 32, 0x20, 1, 4, .is, true, true, true, true, 0x00000000,
    [⟨"VALUE", 31, 0, .is, none⟩]⟩,
  ⟨"CHK_INIT", 0x40051008, 32, 0x20, 1, 4, .is, true, true, true, true, 0x00000000,
    [⟨"VALUE", 31, 0, .is, none⟩]⟩,
  ⟨"CHK_XOROUT", 0x4005100C, 32, 0x20, 1, 4, .is, true, true, true, true, 0x00000000,
    [⟨"VALUE", 31, 0, .is, none⟩]⟩,
  ⟨"CHK_EXPECT", 0x40051010, 32, 0x20, 1, 4, .is, true, true, true, true, 0x00000000,
    [⟨"VALUE", 31, 0, .is, none⟩]⟩]

/-- CHK (check units), part 2 of its rows. -/
def regTableChk1 : List RegRow := [
  ⟨"CHK_RSVD", 0x40051014, 32, 0x20, 3, 4, .is, true, true, true, true, 0x00000000,
    []⟩]

/-- The rows of block CHK. -/
def regTableChk : List RegRow := regTableChk0 ++ regTableChk1

/-- LINE (line ports), part 1 of its rows. -/
def regTableLine0 : List RegRow := [
  ⟨"LINE_CFG", 0x40100000, 8, 0x10000, 1, 4, .is, false, true, true, false, 0x000001D0,
    [⟨"EN", 0, 0, .is, none⟩, ⟨"RATE", 2, 1, .i, some (0, 2)⟩, ⟨"SONET", 3, 3, .i, none⟩, ⟨"SCR_EN", 4, 4, .i, none⟩, ⟨"LOS_SRC", 6, 5, .i, some (0, 2)⟩, ⟨"ALS_EN", 7, 7, .i, none⟩, ⟨"AIS_ON_TIM", 8, 8, .i, none⟩, ⟨"RX_INV", 9, 9, .i, none⟩, ⟨"TX_INV", 10, 10, .i, none⟩]⟩,
  ⟨"LINE_STAT", 0x40100004, 8, 0x10000, 1, 4, .s, false, false, false, false, 0x00028000,
    [⟨"LOS", 0, 0, .s, none⟩, ⟨"OOF", 1, 1, .s, none⟩, ⟨"LOF", 2, 2, .s, none⟩, ⟨"TIM", 3, 3, .s, none⟩, ⟨"MSAIS", 4, 4, .s, none⟩, ⟨"MSRDI", 5, 5, .s, none⟩, ⟨"SF", 6, 6, .s, none⟩, ⟨"SD", 7, 7, .s, none⟩, ⟨"KINC", 8, 8, .s, none⟩, ⟨"MOD_ABS", 9, 9, .s, none⟩, ⟨"LOS_PIN", 10, 10, .s, none⟩, ⟨"HOLDOFF", 11, 11, .s, none⟩, ⟨"TSF", 12, 12, .s, none⟩, ⟨"TSD", 13, 13, .s, none⟩, ⟨"AIS_OUT", 14, 14, .s, none⟩, ⟨"TXDIS", 15, 15, .s, none⟩, ⟨"CDR_LOCK", 16, 16, .s, none⟩, ⟨"DISABLED", 17, 17, .s, none⟩]⟩,
  ⟨"LINE_STICKY", 0x40100008, 8, 0x10000, 1, 4, .x, false, false, false, true, 0x00000000,
    [⟨"BITS", 13, 0, .x, none⟩]⟩,
  ⟨"LINE_LOS_CFG", 0x40100010, 8, 0x10000, 1, 4, .i, false, true, false, false, 0x00000028,
    [⟨"LOS_T_US", 6, 0, .i, some (3, 100)⟩]⟩,
  ⟨"LINE_FRM_STAT", 0x40100014, 8, 0x10000, 1, 4, .s, false, false, false, false, 0x00000000,
    [⟨"STATE", 2, 0, .s, none⟩, ⟨"LOFI", 7, 3, .s, none⟩, ⟨"ALS", 18, 16, .s, none⟩]⟩,
  ⟨"LINE_SERDES_CFG", 0x40100018, 8, 0x10000, 1, 4, .i, false, true, false, false, 0x00000004,
    [⟨"TX_SWING", 3, 0, .i, some (0, 8)⟩, ⟨"RX_EQ", 7, 4, .i, some (0, 12)⟩]⟩,
  ⟨"LINE_ALS_CFG", 0x40100020, 8, 0x10000, 1, 4, .i, false, true, false, false, 0x3E8191F4,
    [⟨"DEACT_MS", 9, 0, .i, some (100, 550)⟩, ⟨"RESTART_S", 18, 10, .i, some (60, 300)⟩, ⟨"PULSE_MS", 30, 19, .i, some (1750, 2250)⟩]⟩,
  ⟨"LINE_ALS_CMD", 0x40100024, 8, 0x10000, 1, 4, .m, false, false, true, true, 0x00000000,
    [⟨"TOKEN", 7, 0, .m, none⟩, ⟨"CMD", 9, 8, .m, none⟩, ⟨"RESULT", 23, 16, .s, none⟩]⟩,
  ⟨"LINE_J0_CFG", 0x40100030, 8, 0x10000, 1, 4, .i, false, true, false, false, 0x00000000,
    [⟨"MODE", 1, 0, .i, none⟩]⟩,
  ⟨"LINE_J0_EXP", 0x40100040, 8, 0x10000, 16, 4, .i, false, true, false, false, 0x00000000,
    [⟨"WORD", 31, 0, .i, none⟩]⟩,
  ⟨"LINE_J0_ACC", 0x40100080, 8, 0x10000, 16, 4, .s, false, false, false, false, 0x00000000,
    [⟨"WORD", 31, 0, .s, none⟩]⟩,
  ⟨"LINE_J0_TX", 0x401000C0, 8, 0x10000, 16, 4, .i, false, true, false, false, 0x00000000,
    [⟨"WORD", 31, 0, .i, none⟩]⟩]

/-- LINE (line ports), part 2 of its rows. -/
def regTableLine1 : List RegRow := [
  ⟨"LINE_K_CFG", 0x40100100, 8, 0x10000, 1, 4, .i, false, true, false, false, 0x00000003,
    [⟨"PERSIST", 2, 0, .i, some (3, 7)⟩]⟩,
  ⟨"LINE_K_RX", 0x40100104, 8, 0x10000, 1, 4, .s, false, false, false, false, 0x00000000,
    [⟨"K1", 7, 0, .s, none⟩, ⟨"K2_LOW", 10, 8, .s, none⟩, ⟨"K2_HIGH", 15, 11, .s, none⟩, ⟨"VALID", 16, 16, .s, none⟩]⟩,
  ⟨"LINE_K_TX", 0x40100108, 8, 0x10000, 1, 4, .is, false, true, true, false, 0x00000000,
    [⟨"K1", 7, 0, .is, none⟩, ⟨"K2", 15, 8, .is, none⟩]⟩,
  ⟨"LINE_K_RAW", 0x4010010C, 8, 0x10000, 1, 4, .s, false, false, false, false, 0x00000000,
    [⟨"K1", 7, 0, .s, none⟩, ⟨"K2", 15, 8, .s, none⟩]⟩,
  ⟨"LINE_S1", 0x40100110, 8, 0x10000, 1, 4, .is, false, true, true, false, 0x00000F00,
    [⟨"RX", 3, 0, .s, none⟩, ⟨"RX_VALID", 4, 4, .s, none⟩, ⟨"TX", 11, 8, .is, none⟩]⟩,
  ⟨"LINE_OH_RX", 0x40100114, 8, 0x10000, 1, 4, .s, false, false, false, false, 0x00000000,
    [⟨"E1", 7, 0, .s, none⟩, ⟨"E2", 15, 8, .s, none⟩, ⟨"F1", 23, 16, .s, none⟩]⟩,
  ⟨"LINE_OH_TX", 0x40100118, 8, 0x10000, 1, 4, .is, false, true, true, false, 0x00000000,
    [⟨"E1", 7, 0, .is, none⟩, ⟨"E2", 15, 8, .is, none⟩, ⟨"F1", 23, 16, .is, none⟩]⟩,
  ⟨"LINE_DCC_CFG", 0x4010011C, 8, 0x10000, 1, 4, .i, false, true, false, false, 0x00000003,
    [⟨"RS_FIX", 0, 0, .i, none⟩, ⟨"MS_FIX", 1, 1, .i, none⟩, ⟨"PEER", 4, 2, .i, none⟩, ⟨"FILL", 15, 8, .i, none⟩]⟩,
  ⟨"LINE_DEG_CFG", 0x40100140, 8, 0x10000, 1, 4, .i, false, true, false, false, 0x00000036,
    [⟨"SD_EXP", 3, 0, .i, some (5, 9)⟩, ⟨"SF_EXP", 7, 4, .i, some (3, 5)⟩, ⟨"AIS_ON_SF", 8, 8, .i, none⟩]⟩,
  ⟨"LINE_BER_STAT", 0x40100144, 8, 0x10000, 1, 4, .s, false, false, false, false, 0x00000000,
    [⟨"DEG_SUM", 15, 0, .s, none⟩, ⟨"EXC_SUM", 31, 16, .s, none⟩]⟩,
  ⟨"LINE_FORCE", 0x40100160, 8, 0x10000, 1, 4, .m, false, false, false, true, 0x00000000,
    [⟨"MSAIS", 0, 0, .m, none⟩, ⟨"MSRDI", 1, 1, .m, none⟩, ⟨"B1_ERR", 2, 2, .m, none⟩, ⟨"B2_ERR_N", 15, 8, .m, none⟩]⟩,
  ⟨"LINE_B1_CNT", 0x40100200, 8, 0x10000, 1, 4, .c, false, false, false, false, 0x00000000,
    [⟨"CNT", 31, 0, .c, none⟩]⟩]

/-- LINE (line ports), part 3 of its rows. -/
def regTableLine2 : List RegRow := [
  ⟨"LINE_B2_CNT", 0x40100204, 8, 0x10000, 1, 4, .c, false, false, false, false, 0x00000000,
    [⟨"CNT", 31, 0, .c, none⟩]⟩,
  ⟨"LINE_REI_CNT", 0x40100208, 8, 0x10000, 1, 4, .c, false, false, false, false, 0x00000000,
    [⟨"CNT", 31, 0, .c, none⟩]⟩,
  ⟨"LINE_OOF_CNT", 0x4010020C, 8, 0x10000, 1, 4, .c, false, false, false, false, 0x00000000,
    [⟨"CNT", 31, 0, .c, none⟩]⟩,
  ⟨"LINE_J0_CRC_CNT", 0x40100210, 8, 0x10000, 1, 4, .c, false, false, false, false, 0x00000000,
    [⟨"CNT", 31, 0, .c, none⟩]⟩]

/-- The rows of block LINE. -/
def regTableLine : List RegRow := regTableLine0 ++ regTableLine1 ++ regTableLine2

/-- PATH (path processors), part 1 of its rows. -/
def regTablePath0 : List RegRow := [
  ⟨"PATH_SLOT_CFG", 0x40200000, 64, 0x8, 1, 4, .i, false, true, false, false, 0x0000E000,
    [⟨"EN", 0, 0, .i, none⟩, ⟨"PORT", 3, 1, .i, none⟩, ⟨"AUG", 7, 4, .i, none⟩, ⟨"STRUCT", 9, 8, .i, some (0, 1)⟩, ⟨"TERM", 12, 10, .i, none⟩, ⟨"MON", 15, 13, .i, none⟩]⟩,
  ⟨"PATH_SLOT_MAP", 0x40200004, 64, 0x8, 1, 4, .i, false, true, false, false, 0x00000000,
    [⟨"CONTENT1", 1, 0, .i, some (0, 2)⟩, ⟨"MASK1", 8, 2, .i, none⟩, ⟨"CONTENT2", 10, 9, .i, some (0, 2)⟩, ⟨"MASK2", 17, 11, .i, none⟩, ⟨"CONTENT3", 19, 18, .i, some (0, 2)⟩, ⟨"MASK3", 26, 20, .i, none⟩]⟩,
  ⟨"PATH_HO_DEG_CFG", 0x40200400, 1, 0x4, 1, 4, .i, false, true, false, false, 0x3840E960,
    [⟨"DEGTHR", 12, 0, .i, some (1, 8000)⟩, ⟨"DEGM", 16, 13, .i, some (2, 10)⟩, ⟨"EXCTHR", 29, 17, .i, some (1, 8000)⟩]⟩,
  ⟨"PATH_LO_DEG_CFG", 0x40200404, 1, 0x4, 1, 4, .i, false, true, false, false, 0x0E10E258,
    [⟨"DEGTHR", 12, 0, .i, some (1, 2000)⟩, ⟨"DEGM", 16, 13, .i, some (2, 10)⟩, ⟨"EXCTHR", 29, 17, .i, some (1, 2000)⟩]⟩,
  ⟨"PATH_SUM", 0x40200410, 2, 0x4, 1, 4, .s, false, false, false, false, 0x00000000,
    [⟨"BITS", 31, 0, .s, none⟩]⟩,
  ⟨"PATH_B3_CNT", 0x40200800, 192, 0x4, 1, 4, .c, false, false, false, false, 0x00000000,
    [⟨"CNT", 31, 0, .c, none⟩]⟩,
  ⟨"PATH_HREI_CNT", 0x40200B00, 192, 0x4, 1, 4, .c, false, false, false, false, 0x00000000,
    [⟨"CNT", 31, 0, .c, none⟩]⟩,
  ⟨"PATH_HO0", 0x40201000, 192, 0x10, 1, 4, .is, true, true, true, false, 0x00000000,
    [⟨"J1_MODE", 1, 0, .is, none⟩, ⟨"TIM_NOAIS", 2, 2, .is, none⟩, ⟨"C2_EXP", 15, 8, .is, none⟩]⟩,
  ⟨"PATH_HO1", 0x40201004, 192, 0x10, 1, 4, .s, true, false, false, false, 0x00000000,
    [⟨"PTR_STATE", 1, 0, .s, none⟩, ⟨"AIS", 2, 2, .s, none⟩, ⟨"LOP", 3, 3, .s, none⟩, ⟨"UNEQ", 4, 4, .s, none⟩, ⟨"PLM", 5, 5, .s, none⟩, ⟨"TIM", 6, 6, .s, none⟩, ⟨"RDI", 7, 7, .s, none⟩, ⟨"EXC", 8, 8, .s, none⟩, ⟨"DEG", 9, 9, .s, none⟩, ⟨"LOM", 10, 10, .s, none⟩, ⟨"TSF_N", 11, 11, .s, none⟩, ⟨"TSF_I", 12, 12, .s, none⟩, ⟨"TSD", 13, 13, .s, none⟩, ⟨"C2_RX", 23, 16, .s, none⟩]⟩,
  ⟨"PATH_HO2", 0x40201008, 192, 0x10, 1, 4, .s, true, false, false, false, 0x00000000,
    [⟨"PTR_RX", 9, 0, .s, none⟩, ⟨"PTR_TX", 25, 16, .s, none⟩]⟩,
  ⟨"PATH_HO3", 0x4020100C, 192, 0x10, 1, 4, .s, true, false, false, false, 0x00000000,
    [⟨"ES_FILL", 7, 0, .s, none⟩, ⟨"ADJ_TX", 23, 16, .s, none⟩, ⟨"ADJ_RX", 31, 24, .s, none⟩]⟩,
  ⟨"PATH_J1_EXP", 0x40202000, 192, 0x40, 16, 4, .i, true, true, false, false, 0x00000000,
    [⟨"WORD", 31, 0, .i, none⟩]⟩]

/-- PATH (path processors), part 2 of its rows. -/
def regTablePath1 : List RegRow := [
  ⟨"PATH_J1_TX", 0x40205000, 192, 0x40, 16, 4, .i, true, true, false, false, 0x00000000,
    [⟨"WORD", 31, 0, .i, none⟩]⟩,
  ⟨"PATH_J1_ACC", 0x40208000, 192, 0x40, 16, 4, .s, true, false, false, false, 0x00000000,
    [⟨"WORD", 31, 0, .s, none⟩]⟩,
  ⟨"PATH_J2_PROF", 0x4020B000, 512, 0x10, 4, 4, .i, true, true, false, false, 0x00000000,
    [⟨"WORD", 31, 0, .i, none⟩]⟩,
  ⟨"PATH_LO0", 0x4020D000, 5376, 0x10, 1, 4, .is, true, true, true, false, 0x00000000,
    [⟨"EXP_PROF", 8, 0, .is, none⟩, ⟨"TX_PROF", 17, 9, .is, none⟩, ⟨"TRACE_EN", 18, 18, .is, none⟩, ⟨"TIM_NOAIS", 19, 19, .is, none⟩, ⟨"C2_EXP", 31, 24, .is, none⟩]⟩,
  ⟨"PATH_LO1", 0x4020D004, 5376, 0x10, 1, 4, .s, true, false, false, false, 0x00000000,
    [⟨"PTR_STATE", 1, 0, .s, none⟩, ⟨"AIS", 2, 2, .s, none⟩, ⟨"LOP", 3, 3, .s, none⟩, ⟨"UNEQ", 4, 4, .s, none⟩, ⟨"PLM", 5, 5, .s, none⟩, ⟨"TIM", 6, 6, .s, none⟩, ⟨"RDI", 7, 7, .s, none⟩, ⟨"EXC", 8, 8, .s, none⟩, ⟨"DEG", 9, 9, .s, none⟩, ⟨"SSF", 10, 10, .s, none⟩, ⟨"TSF_N", 11, 11, .s, none⟩, ⟨"TSF_I", 12, 12, .s, none⟩, ⟨"TSD", 13, 13, .s, none⟩, ⟨"LABEL_RX", 23, 16, .s, none⟩]⟩,
  ⟨"PATH_LO2", 0x4020D008, 5376, 0x10, 1, 4, .s, true, false, false, false, 0x00000000,
    [⟨"EB", 10, 0, .s, none⟩, ⟨"REI", 26, 16, .s, none⟩]⟩,
  ⟨"PATH_LO3", 0x4020D00C, 5376, 0x10, 1, 4, .s, true, false, false, false, 0x00000000,
    [⟨"PTR_RX", 9, 0, .s, none⟩, ⟨"PTR_TX", 25, 16, .s, none⟩, ⟨"ES_FILL", 31, 26, .s, none⟩]⟩,
  ⟨"PATH_J2_ACC", 0x40222000, 5376, 0x10, 4, 4, .s, true, false, false, false, 0x00000000,
    [⟨"WORD", 31, 0, .s, none⟩]⟩]

/-- The rows of block PATH. -/
def regTablePath : List RegRow := regTablePath0 ++ regTablePath1

/-- IDX (Index), part 1 of its rows. -/
def regTableIdx0 : List RegRow := [
  ⟨"IDX_SNCP_CFG", 0x40240000, 1, 0x4, 1, 4, .i, false, true, false, false, 0x00000500,
    [⟨"HOLDOFF", 6, 0, .i, some (0, 100)⟩, ⟨"WTR_MIN", 11, 8, .i, some (1, 12)⟩]⟩,
  ⟨"IDX_STAT", 0x40240004, 1, 0x4, 1, 4, .s, false, false, false, false, 0x00000000,
    [⟨"ACTIVE", 12, 0, .s, none⟩, ⟨"CHECK_FAIL", 16, 16, .s, none⟩, ⟨"CONFLICT", 17, 17, .s, none⟩]⟩,
  ⟨"IDX_CHECK_CNT", 0x40240008, 1, 0x4, 1, 4, .c, false, false, false, false, 0x00000000,
    [⟨"CNT", 31, 0, .c, none⟩]⟩,
  ⟨"IDX_SWITCH_CNT", 0x4024000C, 1, 0x4, 1, 4, .c, false, false, false, false, 0x00000000,
    [⟨"CNT", 31, 0, .c, none⟩]⟩,
  ⟨"IDX_CHECK_LAST", 0x40240010, 1, 0x4, 1, 4, .s, false, false, false, false, 0x00000000,
    [⟨"ENTRY", 11, 0, .s, none⟩]⟩,
  ⟨"IDX_ENTRY_A", 0x40250000, 4096, 0x10, 1, 4, .is, true, true, true, false, 0x00000000,
    [⟨"FIELDS", 27, 0, .is, none⟩, ⟨"TYPE", 31, 28, .is, some (0, 4)⟩]⟩,
  ⟨"IDX_ENTRY_B", 0x40250004, 4096, 0x10, 1, 4, .is, true, true, true, false, 0x00000000,
    [⟨"FIELDS", 27, 0, .is, none⟩, ⟨"TYPE", 31, 28, .is, some (0, 4)⟩]⟩,
  ⟨"IDX_ENTRY_AP", 0x40250008, 4096, 0x10, 1, 4, .is, true, true, true, false, 0x00000000,
    [⟨"FIELDS", 27, 0, .is, none⟩, ⟨"TYPE", 31, 28, .is, some (0, 4)⟩]⟩,
  ⟨"IDX_ENTRY_W3", 0x4025000C, 4096, 0x10, 1, 4, .is, true, true, true, false, 0x00000000,
    [⟨"VALID", 0, 0, .is, none⟩, ⟨"SNCP", 2, 1, .is, some (0, 2)⟩, ⟨"REVERT", 3, 3, .is, none⟩, ⟨"CMD", 6, 4, .is, none⟩, ⟨"CHECK", 31, 16, .is, none⟩]⟩,
  ⟨"IDX_STATUS", 0x40260000, 4096, 0x4, 1, 4, .s, true, false, false, false, 0x00000000,
    [⟨"ACTIVE", 0, 0, .s, none⟩, ⟨"CHECK_FAIL", 1, 1, .s, none⟩, ⟨"CONFLICT", 2, 2, .s, none⟩, ⟨"SEL", 3, 3, .s, none⟩, ⟨"REQ", 7, 4, .s, none⟩, ⟨"WTR_LEFT", 15, 8, .s, none⟩, ⟨"SF_A", 16, 16, .s, none⟩, ⟨"SD_A", 17, 17, .s, none⟩, ⟨"SF_AP", 18, 18, .s, none⟩, ⟨"SD_AP", 19, 19, .s, none⟩]⟩]

/-- The rows of block IDX. -/
def regTableIdx : List RegRow := regTableIdx0

/-- TRIB (tributary ports), part 1 of its rows. -/
def regTableTrib0 : List RegRow := [
  ⟨"TRIB_GRP_CFG", 0x40300000, 8, 0x4, 1, 4, .i, false, true, false, false, 0x00000000,
    [⟨"MODE", 0, 0, .i, none⟩]⟩,
  ⟨"TRIB_CLK_STAT", 0x40300020, 1, 0x4, 1, 4, .s, false, false, false, false, 0x00000000,
    [⟨"VALID", 3, 0, .s, none⟩]⟩,
  ⟨"TRIB_TPL_CFG", 0x40300040, 8, 0x4, 1, 4, .i, false, true, false, false, 0x00000000,
    [⟨"MASK", 1, 0, .i, none⟩]⟩,
  ⟨"TRIB_CFG", 0x40300100, 64, 0x40, 1, 4, .is, false, true, true, false, 0x00A00000,
    [⟨"EN", 0, 0, .is, none⟩, ⟨"CODE", 2, 1, .i, some (0, 1)⟩, ⟨"FRAMING", 5, 3, .i, some (0, 4)⟩, ⟨"TEMPLATE", 9, 6, .i, none⟩, ⟨"AMP_TRIM", 17, 10, .i, none⟩, ⟨"RX_LONG", 18, 18, .i, none⟩, ⟨"TX_RETIME", 19, 19, .i, none⟩, ⟨"AIS_ON_LOF", 20, 20, .i, none⟩, ⟨"CRC4_IW", 21, 21, .i, none⟩, ⟨"DESYNC_BW", 24, 22, .i, some (0, 5)⟩]⟩,
  ⟨"TRIB_LOS_CFG", 0x40300104, 64, 0x40, 1, 4, .i, false, true, false, false, 0x00000300,
    [⟨"N_LOS", 7, 0, .i, none⟩, ⟨"LOF_MS", 19, 8, .i, some (1, 2500)⟩]⟩,
  ⟨"TRIB_STAT", 0x40300108, 64, 0x40, 1, 4, .s, false, false, false, false, 0x00000444,
    [⟨"LOS", 0, 0, .s, none⟩, ⟨"AIS", 1, 1, .s, none⟩, ⟨"OOF", 2, 2, .s, none⟩, ⟨"LOF", 3, 3, .s, none⟩, ⟨"RAI", 4, 4, .s, none⟩, ⟨"CDR_LOCK", 5, 5, .s, none⟩, ⟨"AIS_TO_IDX", 6, 6, .s, none⟩, ⟨"AIS_TX", 7, 7, .s, none⟩, ⟨"DRIVEN", 8, 8, .s, none⟩, ⟨"FAC", 9, 9, .s, none⟩, ⟨"DISABLED", 10, 10, .s, none⟩]⟩,
  ⟨"TRIB_STICKY", 0x4030010C, 64, 0x40, 1, 4, .x, false, false, false, true, 0x00000000,
    [⟨"BITS", 4, 0, .x, none⟩]⟩,
  ⟨"TRIB_FRM_STAT", 0x40300110, 64, 0x40, 1, 4, .s, false, false, false, false, 0x00000000,
    [⟨"RX_STATE", 1, 0, .s, none⟩, ⟨"CRC4", 3, 2, .s, none⟩, ⟨"TX_STATE", 5, 4, .s, none⟩, ⟨"SA", 12, 8, .s, none⟩, ⟨"A", 13, 13, .s, none⟩, ⟨"FDL", 31, 16, .s, none⟩]⟩,
  ⟨"TRIB_TX_STAT", 0x40300114, 64, 0x40, 1, 4, .s, false, false, false, false, 0x00000000,
    [⟨"FILL", 9, 0, .s, none⟩, ⟨"OFFSET", 31, 16, .s, none⟩]⟩,
  ⟨"TRIB_MAINT", 0x40300118, 64, 0x40, 1, 4, .m, false, false, false, true, 0x00000000,
    [⟨"LLOOP", 0, 0, .m, none⟩, ⟨"FORCE_AIS_TX", 1, 1, .m, none⟩, ⟨"FORCE_AIS_RX", 2, 2, .m, none⟩]⟩,
  ⟨"TRIB_CV_CNT", 0x40300120, 64, 0x40, 1, 4, .c, false, false, false, false, 0x00000000,
    [⟨"CNT", 31, 0, .c, none⟩]⟩,
  ⟨"TRIB_FAS_CNT", 0x40300124, 64, 0x40, 1, 4, .c, false, false, false, false, 0x00000000,
    [⟨"CNT", 31, 0, .c, none⟩]⟩]

/-- TRIB (tributary ports), part 2 of its rows. -/
def regTableTrib1 : List RegRow := [
  ⟨"TRIB_CRC_CNT", 0x40300128, 64, 0x40, 1, 4, .c, false, false, false, false, 0x00000000,
    [⟨"CNT", 31, 0, .c, none⟩]⟩,
  ⟨"TRIB_REI_CNT", 0x4030012C, 64, 0x40, 1, 4, .c, false, false, false, false, 0x00000000,
    [⟨"CNT", 31, 0, .c, none⟩]⟩,
  ⟨"TRIB_SLIP_CNT", 0x40300130, 64, 0x40, 1, 4, .c, false, false, false, false, 0x00000000,
    [⟨"CNT", 31, 0, .c, none⟩]⟩,
  ⟨"TRIB_SAT_CNT", 0x40300134, 64, 0x40, 1, 4, .c, false, false, false, false, 0x00000000,
    [⟨"CNT", 31, 0, .c, none⟩]⟩,
  ⟨"TRIB_TPL_ROM", 0x40310000, 8, 0x200, 128, 4, .s, true, false, false, false, 0x00000000,
    [⟨"WORD", 31, 0, .s, none⟩]⟩,
  ⟨"TRIB_TPL", 0x40311000, 8, 0x200, 128, 4, .i, true, true, false, false, 0x00000000,
    [⟨"WORD", 31, 0, .i, none⟩]⟩]

/-- The rows of block TRIB. -/
def regTableTrib : List RegRow := regTableTrib0 ++ regTableTrib1

/-- PW (pseudowires), part 1 of its rows. -/
def regTablePw0 : List RegRow := [
  ⟨"PW_PORT_CFG", 0x40400100, 2, 0x80, 1, 4, .i, false, true, false, false, 0x00000004,
    [⟨"MODE", 1, 0, .i, some (0, 2)⟩, ⟨"AN_EN", 2, 2, .i, none⟩, ⟨"RX_INV", 3, 3, .i, none⟩, ⟨"TX_INV", 4, 4, .i, none⟩]⟩,
  ⟨"PW_PORT_MAC_LO", 0x40400104, 2, 0x80, 1, 4, .i, false, true, false, false, 0x00000000,
    [⟨"MAC", 31, 0, .i, none⟩]⟩,
  ⟨"PW_PORT_MAC_HI", 0x40400108, 2, 0x80, 1, 4, .i, false, true, false, false, 0x00000000,
    [⟨"MAC", 15, 0, .i, none⟩]⟩,
  ⟨"PW_PORT_STAT", 0x4040010C, 2, 0x80, 1, 4, .s, false, false, false, false, 0x00000000,
    [⟨"LINK", 0, 0, .s, none⟩, ⟨"SYNC", 1, 1, .s, none⟩, ⟨"AN_DONE", 2, 2, .s, none⟩, ⟨"FLOWS", 25, 16, .s, none⟩]⟩,
  ⟨"PW_PORT_SERDES_CFG", 0x40400110, 2, 0x80, 1, 4, .i, false, true, false, false, 0x00000004,
    [⟨"TX_SWING", 3, 0, .i, some (0, 8)⟩, ⟨"RX_EQ", 7, 4, .i, some (0, 12)⟩]⟩,
  ⟨"PW_PORT_CNT", 0x40400140, 2, 0x80, 15, 4, .c, false, false, false, false, 0x00000000,
    [⟨"CNT", 31, 0, .c, none⟩]⟩,
  ⟨"PW_CFG", 0x40410000, 1024, 0x20, 1, 4, .is, true, true, true, false, 0x00000000,
    [⟨"EN", 0, 0, .is, none⟩, ⟨"HOME", 1, 1, .is, none⟩, ⟨"KIND", 3, 2, .is, some (0, 1)⟩, ⟨"PROFILE", 10, 4, .is, none⟩, ⟨"RTP_EN", 11, 11, .is, none⟩, ⟨"CLOCK", 13, 12, .is, some (0, 2)⟩, ⟨"SUBST", 15, 14, .is, some (0, 2)⟩, ⟨"P", 26, 16, .is, some (8, 1440)⟩, ⟨"JB_LOG2", 30, 27, .is, some (0, 8)⟩]⟩,
  ⟨"PW_KEY", 0x40410004, 1024, 0x20, 1, 4, .is, true, true, true, false, 0x00000000,
    [⟨"KEY", 19, 0, .is, none⟩]⟩,
  ⟨"PW_TXKEY", 0x40410008, 1024, 0x20, 1, 4, .is, true, true, true, false, 0x00000000,
    [⟨"KEY", 19, 0, .is, none⟩]⟩,
  ⟨"PW_JB", 0x4041000C, 1024, 0x20, 1, 4, .is, true, true, true, false, 0x00000000,
    [⟨"TARGET", 15, 0, .is, none⟩, ⟨"LOPS_N", 19, 16, .is, some (1, 15)⟩, ⟨"LOPS_EXIT", 23, 20, .is, some (1, 15)⟩, ⟨"IDLE", 31, 24, .is, none⟩]⟩,
  ⟨"PW_SLOTS", 0x40410010, 1024, 0x20, 1, 4, .is, true, true, true, false, 0x00000000,
    [⟨"MASK", 31, 0, .is, none⟩]⟩,
  ⟨"PW_GUAR", 0x40410014, 1024, 0x20, 1, 4, .is, true, true, true, false, 0x00000000,
    [⟨"GUAR", 8, 0, .is, some (0, 256)⟩]⟩]

/-- PW (pseudowires), part 2 of its rows. -/
def regTablePw1 : List RegRow := [
  ⟨"PW_RTP", 0x40410018, 1024, 0x20, 1, 4, .is, true, true, true, false, 0x00000000,
    [⟨"PT", 6, 0, .is, none⟩]⟩,
  ⟨"PW_SSRC", 0x4041001C, 1024, 0x20, 1, 4, .is, true, true, true, false, 0x00000000,
    [⟨"SSRC", 31, 0, .is, none⟩]⟩,
  ⟨"PW_PROF0", 0x40420000, 128, 0x40, 1, 4, .is, true, true, true, false, 0x00000000,
    [⟨"ENCAP", 2, 0, .is, some (0, 3)⟩, ⟨"TAGS", 4, 3, .is, some (0, 2)⟩, ⟨"TC", 7, 5, .is, none⟩, ⟨"TTL", 15, 8, .is, some (1, 255)⟩, ⟨"DSCP", 21, 16, .is, none⟩, ⟨"UDP0_OK", 22, 22, .is, none⟩, ⟨"TUNNEL", 23, 23, .is, none⟩]⟩,
  ⟨"PW_PROF1", 0x40420004, 128, 0x40, 1, 4, .is, true, true, true, false, 0x00000000,
    [⟨"TUNNEL_LABEL", 19, 0, .is, none⟩]⟩,
  ⟨"PW_PROF_WORDS", 0x40420008, 128, 0x40, 12, 4, .is, true, true, true, false, 0x00000000,
    [⟨"WORD", 31, 0, .is, none⟩]⟩,
  ⟨"PW_PROF14", 0x40420038, 128, 0x40, 1, 4, .is, true, true, true, false, 0x00000000,
    [⟨"FLOW_LABEL", 19, 0, .is, none⟩]⟩,
  ⟨"PW_PROF15", 0x4042003C, 128, 0x40, 1, 4, .is, true, true, true, false, 0x00000000,
    []⟩,
  ⟨"PW_STAT", 0x40430000, 1024, 0x10, 1, 4, .s, true, false, false, false, 0x00000000,
    [⟨"STATE", 1, 0, .s, none⟩, ⟨"L_RX", 2, 2, .s, none⟩, ⟨"R_RX", 3, 3, .s, none⟩, ⟨"L_TX", 4, 4, .s, none⟩, ⟨"R_TX", 5, 5, .s, none⟩, ⟨"DRAINING", 6, 6, .s, none⟩, ⟨"LAST_DISC", 11, 8, .s, none⟩, ⟨"FOLIOS", 24, 16, .s, none⟩]⟩,
  ⟨"PW_STAT1", 0x40430004, 1024, 0x10, 1, 4, .s, true, false, false, false, 0x00000000,
    [⟨"N_PLAY", 15, 0, .s, none⟩, ⟨"TX_SEQ", 31, 16, .s, none⟩]⟩,
  ⟨"PW_STAT2", 0x40430008, 1024, 0x10, 1, 4, .s, true, false, false, false, 0x00000000,
    [⟨"FILL", 16, 0, .s, none⟩]⟩,
  ⟨"PW_STAT3", 0x4043000C, 1024, 0x10, 1, 4, .s, true, false, false, false, 0x00000000,
    [⟨"NCO", 31, 16, .s, none⟩]⟩,
  ⟨"PW_LOST_CNT", 0x40438000, 1024, 0x8, 1, 4, .c, true, false, false, false, 0x00000000,
    [⟨"CNT", 31, 0, .c, none⟩]⟩]

/-- PW (pseudowires), part 3 of its rows. -/
def regTablePw2 : List RegRow := [
  ⟨"PW_DISC_CNT", 0x40438004, 1024, 0x8, 1, 4, .c, true, false, false, false, 0x00000000,
    [⟨"CNT", 31, 0, .c, none⟩]⟩]

/-- The rows of block PW. -/
def regTablePw : List RegRow := regTablePw0 ++ regTablePw1 ++ regTablePw2

/-- LEND (Lending Desk), part 1 of its rows. -/
def regTableLend0 : List RegRow := [
  ⟨"LEND_CFG", 0x40440000, 1, 0x4, 1, 4, .i, false, true, false, false, 0x02000100,
    [⟨"TX_RSV", 10, 0, .i, some (64, 1024)⟩, ⟨"LOW_WATER", 28, 16, .i, some (0, 4095)⟩]⟩,
  ⟨"LEND_STAT", 0x40440004, 1, 0x4, 1, 4, .s, false, false, false, false, 0x10002000,
    [⟨"FREE", 13, 0, .s, none⟩, ⟨"DESC_FREE", 28, 16, .s, none⟩]⟩,
  ⟨"LEND_SHARED", 0x40440008, 1, 0x4, 1, 4, .s, false, false, false, false, 0x00001F00,
    [⟨"FREE", 13, 0, .s, none⟩]⟩,
  ⟨"LEND_GRANT_CNT", 0x40440020, 1, 0x4, 1, 4, .c, false, false, false, false, 0x00000000,
    [⟨"CNT", 31, 0, .c, none⟩]⟩,
  ⟨"LEND_RETURN_CNT", 0x40440024, 1, 0x4, 1, 4, .c, false, false, false, false, 0x00000000,
    [⟨"CNT", 31, 0, .c, none⟩]⟩,
  ⟨"LEND_RETRY_CNT", 0x40440028, 1, 0x4, 1, 4, .c, false, false, false, false, 0x00000000,
    [⟨"CNT", 31, 0, .c, none⟩]⟩,
  ⟨"LEND_SETFULL_CNT", 0x4044002C, 1, 0x4, 1, 4, .c, false, false, false, false, 0x00000000,
    [⟨"CNT", 31, 0, .c, none⟩]⟩,
  ⟨"LEND_DRAIN_CNT", 0x40440030, 1, 0x4, 1, 4, .c, false, false, false, false, 0x00000000,
    [⟨"CNT", 31, 0, .c, none⟩]⟩,
  ⟨"LEND_MAP", 0x40450000, 8192, 0x4, 1, 4, .s, true, false, false, false, 0x00000000,
    [⟨"VALID", 31, 31, .s, none⟩, ⟨"FLOW", 30, 21, .s, none⟩, ⟨"VPAGE", 20, 13, .s, none⟩, ⟨"FOLIO", 12, 0, .s, none⟩]⟩,
  ⟨"LEND_DESC0", 0x40460000, 4096, 0x10, 1, 4, .s, true, false, false, false, 0x00000000,
    [⟨"VALID", 31, 31, .s, none⟩, ⟨"DIR", 30, 30, .s, none⟩, ⟨"FLOW", 29, 20, .s, none⟩, ⟨"SEQ", 15, 0, .s, none⟩]⟩,
  ⟨"LEND_DESC1", 0x40460004, 4096, 0x10, 1, 4, .s, true, false, false, false, 0x00000000,
    [⟨"FIRST_FOLIO", 12, 0, .s, none⟩, ⟨"FOLIOS", 18, 16, .s, none⟩]⟩,
  ⟨"LEND_DESC2", 0x40460008, 4096, 0x10, 1, 4, .s, true, false, false, false, 0x00000000,
    [⟨"LENGTH", 10, 0, .s, none⟩, ⟨"AGE", 31, 16, .s, none⟩]⟩]

/-- LEND (Lending Desk), part 2 of its rows. -/
def regTableLend1 : List RegRow := [
  ⟨"LEND_DESC3", 0x4046000C, 4096, 0x10, 1, 4, .s, true, false, false, false, 0x00000000,
    [⟨"ITC", 31, 0, .s, none⟩]⟩]

/-- The rows of block LEND. -/
def regTableLend : List RegRow := regTableLend0 ++ regTableLend1

/-- TIM (timing), part 1 of its rows. -/
def regTableTim0 : List RegRow := [
  ⟨"TIM_CFG", 0x40500000, 1, 0x4, 1, 4, .i, false, true, false, false, 0x00000706,
    [⟨"OPTION", 0, 0, .i, none⟩, ⟨"QL_EN", 1, 1, .i, none⟩, ⟨"REVERT", 2, 2, .i, none⟩, ⟨"FREERUN_TRAFFIC", 3, 3, .i, none⟩, ⟨"SYNCE_TX", 5, 4, .i, none⟩, ⟨"OCXO_NOM", 7, 6, .i, some (0, 2)⟩, ⟨"OWN_QL", 11, 8, .i, none⟩]⟩,
  ⟨"TIM_STAT", 0x40500004, 1, 0x4, 1, 4, .s, false, false, false, false, 0x00000000,
    [⟨"SEL0", 3, 0, .s, none⟩, ⟨"SEL0_VALID", 4, 4, .s, none⟩, ⟨"SEL1", 11, 8, .s, none⟩, ⟨"SEL1_VALID", 12, 12, .s, none⟩, ⟨"REF_OK", 16, 16, .s, none⟩, ⟨"HO_VALID", 17, 17, .s, none⟩, ⟨"OCXO_FAULT", 18, 18, .s, none⟩, ⟨"CLOCK_QL", 23, 20, .s, none⟩]⟩,
  ⟨"TIM_REF_TIMES", 0x40500010, 1, 0x4, 1, 4, .i, false, true, false, false, 0x0001F40A,
    [⟨"QUAL_S", 7, 0, .i, some (1, 60)⟩, ⟨"HOLDOFF_MS", 18, 8, .i, some (0, 1800)⟩]⟩,
  ⟨"TIM_SEL_CMD", 0x40500020, 1, 0x4, 1, 4, .k, false, false, true, true, 0x00000000,
    [⟨"TOKEN", 7, 0, .k, none⟩, ⟨"CMD", 10, 8, .k, none⟩, ⟨"DPLL", 11, 11, .k, none⟩, ⟨"REF", 15, 12, .k, none⟩, ⟨"RESULT", 23, 16, .k, none⟩]⟩,
  ⟨"TIM_REF_CFG", 0x40500100, 16, 0x10, 1, 4, .i, false, true, false, false, 0x02582E20,
    [⟨"EN", 0, 0, .i, none⟩, ⟨"PRIO", 4, 1, .i, none⟩, ⟨"DPLL_MASK", 6, 5, .i, none⟩, ⟨"FREQ_LIM", 16, 7, .i, some (1, 1000)⟩, ⟨"WTR_S", 26, 17, .i, some (0, 720)⟩, ⟨"ESMC_REQ", 27, 27, .i, none⟩]⟩,
  ⟨"TIM_REF_SRC", 0x40500104, 16, 0x10, 1, 4, .i, false, true, false, false, 0x00000000,
    [⟨"PORT", 5, 0, .i, none⟩, ⟨"FREQ", 10, 8, .i, some (0, 4)⟩]⟩,
  ⟨"TIM_REF_QL", 0x40500108, 16, 0x10, 1, 4, .is, false, true, true, false, 0x0000000F,
    [⟨"QL", 3, 0, .is, none⟩]⟩,
  ⟨"TIM_REF_STAT", 0x4050010C, 16, 0x10, 1, 4, .s, false, false, false, false, 0x00000000,
    [⟨"STATE", 1, 0, .s, none⟩, ⟨"CAUSE", 3, 2, .s, none⟩, ⟨"WAIT", 13, 4, .s, none⟩, ⟨"OFFSET", 31, 14, .s, none⟩]⟩,
  ⟨"TIM_DPLL_CFG0", 0x40500300, 1, 0x4, 1, 4, .i, false, true, false, false, 0x00640004,
    [⟨"BW", 3, 0, .i, some (0, 6)⟩, ⟨"PSL", 15, 8, .i, none⟩, ⟨"LOCK_NS", 27, 16, .i, some (10, 4000)⟩]⟩,
  ⟨"TIM_DPLL_CFG1", 0x40500320, 1, 0x4, 1, 4, .i, false, true, false, false, 0x00641402,
    [⟨"BW", 3, 0, .i, some (0, 6)⟩, ⟨"PSL", 15, 8, .i, some (1, 255)⟩, ⟨"LOCK_NS", 27, 16, .i, some (10, 4000)⟩]⟩,
  ⟨"TIM_DPLL_STAT", 0x40500310, 4, 0x20, 1, 4, .s, false, false, false, false, 0x00000000,
    [⟨"STATE", 2, 0, .s, none⟩, ⟨"REF", 7, 4, .s, none⟩, ⟨"PHASE", 31, 8, .s, none⟩]⟩,
  ⟨"TIM_DPLL_FREQ", 0x40500314, 4, 0x20, 1, 4, .s, false, false, false, false, 0x00000000,
    [⟨"FREQ", 31, 0, .s, none⟩]⟩]

/-- TIM (timing), part 2 of its rows. -/
def regTableTim1 : List RegRow := [
  ⟨"TIM_OUT_CFG", 0x40500400, 1, 0x4, 1, 4, .i, false, true, false, false, 0x00000AF0,
    [⟨"EN", 2, 0, .i, none⟩, ⟨"QL_MIN", 7, 4, .i, none⟩, ⟨"PPS_WIDTH", 15, 8, .i, some (1, 255)⟩]⟩,
  ⟨"TIM_PPS_OFFSET", 0x40500404, 1, 0x4, 1, 4, .i, false, true, false, false, 0x00000000,
    [⟨"NS", 31, 0, .i, some (-500000, 500000)⟩]⟩,
  ⟨"TIM_HO_CFG", 0x40500500, 1, 0x4, 1, 4, .i, false, true, false, false, 0x03238418,
    [⟨"HO_MAX_H", 7, 0, .i, some (1, 168)⟩, ⟨"ANCHOR_S", 20, 8, .i, some (60, 7200)⟩, ⟨"TEMP_SRC", 21, 21, .i, none⟩, ⟨"LEARN_QL_MAX", 27, 24, .i, some (1, 7)⟩]⟩,
  ⟨"TIM_HO_CFG2", 0x40500504, 1, 0x4, 1, 4, .i, false, true, false, false, 0x00000064,
    [⟨"HO_AVG_S", 9, 0, .i, some (10, 1000)⟩, ⟨"OCXO_TAG", 31, 16, .i, none⟩]⟩,
  ⟨"TIM_HO_STAT", 0x40500508, 1, 0x4, 1, 4, .s, false, false, false, false, 0x00000000,
    [⟨"MODEL", 1, 0, .s, none⟩, ⟨"ACTIVE", 2, 2, .s, none⟩, ⟨"ANCHORED", 3, 3, .s, none⟩, ⟨"IN_HO", 4, 4, .s, none⟩, ⟨"TEMP_FAULT", 5, 5, .s, none⟩, ⟨"OUT_OF_RANGE", 6, 6, .s, none⟩]⟩,
  ⟨"TIM_HO_TIME", 0x4050050C, 1, 0x4, 1, 4, .s, false, false, false, false, 0x00000000,
    [⟨"SECONDS", 31, 0, .s, none⟩]⟩,
  ⟨"TIM_HO_CMD", 0x40500510, 1, 0x4, 1, 4, .k, false, false, true, false, 0x00000000,
    [⟨"TOKEN", 7, 0, .k, none⟩, ⟨"CMD", 15, 8, .k, none⟩, ⟨"RESULT", 23, 16, .k, none⟩]⟩,
  ⟨"TIM_HO_TEMP", 0x40500520, 1, 0x4, 1, 4, .s, false, false, false, false, 0x00000000,
    [⟨"TEMP", 31, 0, .s, none⟩]⟩,
  ⟨"TIM_HO_SAMPLE", 0x40500530, 2, 0x4, 1, 4, .s, false, false, false, false, 0x00000000,
    [⟨"WORD", 31, 0, .s, none⟩]⟩,
  ⟨"TIM_PTP_PORT_CFG", 0x40500600, 2, 0x20, 1, 4, .i, false, true, false, false, 0x00001800,
    [⟨"EN", 0, 0, .i, none⟩, ⟨"PROFILE", 1, 1, .i, none⟩, ⟨"ONE_STEP", 2, 2, .i, none⟩, ⟨"MCAST", 3, 3, .i, none⟩, ⟨"DOMAIN", 15, 8, .i, none⟩]⟩,
  ⟨"TIM_PTP_PORT_IP", 0x40500604, 2, 0x20, 1, 4, .i, false, true, false, false, 0x00000000,
    [⟨"IP", 31, 0, .i, none⟩]⟩,
  ⟨"TIM_PTP_PORT_ASYM", 0x40500608, 2, 0x20, 1, 4, .i, false, true, false, false, 0x00000000,
    [⟨"ASYM", 31, 0, .i, none⟩]⟩]

/-- TIM (timing), part 3 of its rows. -/
def regTableTim2 : List RegRow := [
  ⟨"TIM_PTP_PHASE", 0x40500640, 2, 0x4, 1, 4, .is, false, true, true, false, 0x00000000,
    [⟨"PHASE", 31, 0, .is, none⟩]⟩,
  ⟨"TIM_ESMC_TX", 0x40500650, 2, 0x4, 1, 4, .is, false, true, true, false, 0x00000000,
    [⟨"SSM", 3, 0, .is, none⟩, ⟨"ENH", 15, 8, .is, none⟩, ⟨"ESMC_TX", 16, 16, .is, none⟩, ⟨"SEND_TLV", 17, 17, .is, none⟩]⟩,
  ⟨"TIM_ESMC_RX", 0x40500660, 2, 0x4, 1, 4, .s, false, false, false, false, 0x00000000,
    [⟨"SSM", 3, 0, .s, none⟩, ⟨"ENH", 15, 8, .s, none⟩, ⟨"TIMEOUT", 16, 16, .s, none⟩]⟩,
  ⟨"TIM_TOD", 0x40500700, 3, 0x4, 1, 4, .s, false, false, false, false, 0x00000000,
    [⟨"WORD", 31, 0, .s, none⟩]⟩,
  ⟨"TIM_SWITCH_CNT", 0x40500720, 1, 0x4, 1, 4, .c, false, false, false, false, 0x00000000,
    [⟨"CNT", 31, 0, .c, none⟩]⟩,
  ⟨"TIM_PTP_RXQ_OVF_CNT", 0x40500724, 1, 0x4, 1, 4, .c, false, false, false, false, 0x00000000,
    [⟨"CNT", 31, 0, .c, none⟩]⟩,
  ⟨"TIM_PTP_TSF_OVF_CNT", 0x40500728, 1, 0x4, 1, 4, .c, false, false, false, false, 0x00000000,
    [⟨"CNT", 31, 0, .c, none⟩]⟩,
  ⟨"TIM_PTP_QPTR", 0x40500730, 1, 0x4, 1, 4, .s, false, false, false, false, 0x00000000,
    [⟨"RX", 7, 0, .s, none⟩, ⟨"TX0", 13, 8, .s, none⟩, ⟨"TX1", 21, 16, .s, none⟩]⟩,
  ⟨"TIM_PTP_RXQ", 0x40510000, 256, 0x80, 32, 4, .s, true, false, false, false, 0x00000000,
    [⟨"WORD", 31, 0, .s, none⟩]⟩,
  ⟨"TIM_PTP_TXQ", 0x40520000, 2, 0x2000, 2048, 4, .is, true, false, true, false, 0x00000000,
    [⟨"WORD", 31, 0, .is, none⟩]⟩]

/-- The rows of block TIM. -/
def regTableTim : List RegRow := regTableTim0 ++ regTableTim1 ++ regTableTim2

/-- TWN (twin), part 1 of its rows. -/
def regTableTwn0 : List RegRow := [
  ⟨"TWN_CFG", 0x40600000, 1, 0x4, 1, 4, .i, false, true, false, false, 0x1E1903E9,
    [⟨"EQ_REVERT", 0, 0, .i, none⟩, ⟨"L6_US", 14, 1, .i, some (200, 10000)⟩, ⟨"START_WAIT", 22, 15, .i, some (1, 255)⟩, ⟨"EQ_WTR_S", 30, 23, .i, some (10, 255)⟩]⟩,
  ⟨"TWN_SKEW", 0x40600004, 1, 0x4, 1, 4, .i, false, true, false, false, 0x00000000,
    [⟨"SKEW_TRIM", 15, 0, .i, some (-2000, 2000)⟩]⟩,
  ⟨"TWN_PAIR_ID", 0x40600008, 1, 0x4, 1, 4, .i, false, true, false, false, 0x00000000,
    [⟨"ID", 31, 0, .i, none⟩]⟩,
  ⟨"TWN_PAIR_DIGEST", 0x4060000C, 1, 0x4, 1, 4, .i, false, true, false, false, 0x00000000,
    [⟨"DIGEST", 31, 0, .i, none⟩]⟩,
  ⟨"TWN_CMD", 0x40600010, 1, 0x4, 1, 4, .k, false, false, true, true, 0x00000000,
    [⟨"TOKEN", 7, 0, .k, none⟩, ⟨"CMD", 10, 8, .k, none⟩, ⟨"RESULT", 23, 16, .k, none⟩]⟩,
  ⟨"TWN_STAT", 0x40600020, 1, 0x4, 1, 4, .s, false, false, false, false, 0x0000000C,
    [⟨"ROLE", 1, 0, .s, none⟩, ⟨"TWIN_ROLE", 3, 2, .s, none⟩, ⟨"LINK_UP", 4, 4, .s, none⟩, ⟨"QUAR", 5, 5, .s, none⟩, ⟨"TIE_OK", 6, 6, .s, none⟩, ⟨"SILENT", 7, 7, .s, none⟩, ⟨"HITLESS", 8, 8, .s, none⟩, ⟨"READY", 9, 9, .s, none⟩, ⟨"MISMATCH", 10, 10, .s, none⟩, ⟨"SOLO", 11, 11, .s, none⟩, ⟨"EQ_REQ", 15, 12, .s, none⟩, ⟨"EQ_SEL", 16, 16, .s, none⟩, ⟨"WTR", 17, 17, .s, none⟩, ⟨"WTR_LEFT", 31, 24, .s, none⟩]⟩,
  ⟨"TWN_TIE_STAT", 0x40600024, 1, 0x4, 1, 4, .s, false, false, false, false, 0x00000000,
    [⟨"RX", 2, 0, .s, none⟩, ⟨"TX", 6, 4, .s, none⟩, ⟨"WIDTH", 15, 8, .s, none⟩]⟩,
  ⟨"TWN_LINK_ERR", 0x40600028, 1, 0x4, 1, 4, .c, false, false, false, false, 0x00000000,
    [⟨"ERR", 7, 0, .c, none⟩]⟩,
  ⟨"TWN_DELAY", 0x4060002C, 1, 0x4, 1, 4, .s, false, false, false, false, 0x00000000,
    [⟨"PS", 31, 0, .s, none⟩]⟩,
  ⟨"TWN_SYNC_STAT", 0x40600030, 1, 0x4, 1, 4, .s, false, false, false, false, 0x00000000,
    [⟨"SYNC_A", 0, 0, .s, none⟩, ⟨"SYNC_B", 1, 1, .s, none⟩, ⟨"SYNC_C", 2, 2, .s, none⟩, ⟨"CAL_OK", 3, 3, .s, none⟩, ⟨"FRAME", 13, 8, .s, none⟩, ⟨"UNACKED", 31, 16, .s, none⟩]⟩,
  ⟨"TWN_DUP_CNT", 0x40600040, 1, 0x4, 1, 4, .c, false, false, false, false, 0x00000000,
    [⟨"CNT", 31, 0, .c, none⟩]⟩,
  ⟨"TWN_GAP_CNT", 0x40600044, 1, 0x4, 1, 4, .c, false, false, false, false, 0x00000000,
    [⟨"CNT", 31, 0, .c, none⟩]⟩]

/-- TWN (twin), part 2 of its rows. -/
def regTableTwn1 : List RegRow := [
  ⟨"TWN_TIE_ERR_CNT", 0x40600048, 1, 0x4, 1, 4, .c, false, false, false, false, 0x00000000,
    [⟨"CNT", 31, 0, .c, none⟩]⟩,
  ⟨"TWN_EQ_SWITCH_CNT", 0x4060004C, 1, 0x4, 1, 4, .c, false, false, false, false, 0x00000000,
    [⟨"CNT", 31, 0, .c, none⟩]⟩,
  ⟨"TWN_DIVERGE_CNT", 0x40600050, 1, 0x4, 1, 4, .c, false, false, false, false, 0x00000000,
    [⟨"CNT", 31, 0, .c, none⟩]⟩,
  ⟨"TWN_LANE_CFG", 0x40600060, 4, 0x4, 1, 4, .i, false, true, false, false, 0x00000004,
    [⟨"TX_SWING", 3, 0, .i, some (0, 8)⟩, ⟨"RX_EQ", 7, 4, .i, some (0, 12)⟩]⟩,
  ⟨"TWN_LANE_STAT", 0x40600070, 4, 0x4, 1, 4, .s, false, false, false, false, 0x00000000,
    [⟨"BLOCK_LOCK", 0, 0, .s, none⟩, ⟨"ALIGNED", 1, 1, .s, none⟩, ⟨"SKEW", 15, 8, .s, none⟩, ⟨"HDR_ERR", 31, 16, .s, none⟩]⟩]

/-- The rows of block TWN. -/
def regTableTwn : List RegRow := regTableTwn0 ++ regTableTwn1

/-- APS (linear MSP), part 1 of its rows. -/
def regTableAps0 : List RegRow := [
  ⟨"APS_CFG", 0x40640000, 4, 0x40, 1, 4, .i, false, true, false, false, 0x00050000,
    [⟨"EN", 0, 0, .i, none⟩, ⟨"ARCH", 2, 1, .i, some (0, 1)⟩, ⟨"BIDIR", 3, 3, .i, none⟩, ⟨"REVERT", 4, 4, .i, none⟩, ⟨"PROT", 7, 5, .i, none⟩, ⟨"WORK", 15, 8, .i, none⟩, ⟨"WTR_MIN", 19, 16, .i, some (1, 12)⟩, ⟨"HOLDOFF", 26, 20, .i, some (0, 100)⟩]⟩,
  ⟨"APS_CMD", 0x40640004, 4, 0x40, 1, 4, .k, false, false, true, true, 0x00000000,
    [⟨"TOKEN", 7, 0, .k, none⟩, ⟨"CMD", 10, 8, .k, none⟩, ⟨"CHAN", 14, 12, .k, none⟩, ⟨"RESULT", 23, 16, .k, none⟩]⟩,
  ⟨"APS_STAT", 0x40640008, 4, 0x40, 1, 4, .s, false, false, false, false, 0x00000000,
    [⟨"REQ", 3, 0, .s, none⟩, ⟨"CHAN", 7, 4, .s, none⟩, ⟨"SEL", 11, 8, .s, none⟩, ⟨"BRIDGE", 15, 12, .s, none⟩, ⟨"FAR_REQ", 19, 16, .s, none⟩, ⟨"FAR_CHAN", 23, 20, .s, none⟩, ⟨"WTR", 24, 24, .s, none⟩, ⟨"DFOP", 25, 25, .s, none⟩]⟩,
  ⟨"APS_WTR", 0x4064000C, 4, 0x40, 1, 4, .s, false, false, false, false, 0x00000000,
    [⟨"SECONDS", 31, 0, .s, none⟩]⟩,
  ⟨"APS_SWITCH_CNT", 0x40640010, 4, 0x40, 1, 4, .c, false, false, false, false, 0x00000000,
    [⟨"CNT", 31, 0, .c, none⟩]⟩]

/-- The rows of block APS. -/
def regTableAps : List RegRow := regTableAps0

/-- SVC (service cores), part 1 of its rows. -/
def regTableSvc0 : List RegRow := [
  ⟨"SVC_CFG", 0x40700000, 1, 0x4, 1, 4, .i, false, true, false, false, 0x00000001,
    [⟨"PREEMPT_EN", 0, 0, .i, none⟩]⟩,
  ⟨"SVC_MEM_CFG", 0x40700004, 1, 0x4, 1, 4, .i, false, true, false, false, 0x00007010,
    [⟨"CODE_TOP", 7, 0, .i, some (1, 120)⟩, ⟨"SAVE_BASE", 15, 8, .i, some (1, 119)⟩]⟩,
  ⟨"SVC_PAIR_STAT", 0x40700010, 2, 0x4, 1, 4, .s, false, false, false, false, 0x00010004,
    [⟨"STATE", 1, 0, .s, none⟩, ⟨"IDLE", 2, 2, .s, none⟩, ⟨"MISMATCH_WIN", 7, 4, .s, none⟩, ⟨"TASK", 16, 8, .s, none⟩]⟩,
  ⟨"SVC_TASK_CMD", 0x40700020, 1, 0x4, 1, 4, .k, false, false, true, true, 0x00000000,
    [⟨"TOKEN", 7, 0, .k, none⟩, ⟨"CMD", 10, 8, .k, none⟩, ⟨"TASK", 23, 16, .k, none⟩, ⟨"RESULT", 31, 24, .k, none⟩]⟩,
  ⟨"SVC_SCHED_STAT", 0x40700024, 1, 0x4, 1, 4, .s, false, false, false, false, 0x00000000,
    [⟨"READY", 8, 0, .s, none⟩, ⟨"PRIO", 15, 12, .s, none⟩, ⟨"ALL_REQ_READY", 16, 16, .s, none⟩]⟩,
  ⟨"SVC_RDY_MAP", 0x40700040, 8, 0x4, 1, 4, .s, false, false, false, false, 0x00000000,
    [⟨"BITS", 31, 0, .s, none⟩]⟩,
  ⟨"SVC_TASK_DROPPED", 0x40700080, 1, 0x4, 1, 4, .c, false, false, false, false, 0x00000000,
    [⟨"CNT", 31, 0, .c, none⟩]⟩,
  ⟨"SVC_WAKE_MERGED", 0x40700084, 1, 0x4, 1, 4, .c, false, false, false, false, 0x00000000,
    [⟨"CNT", 31, 0, .c, none⟩]⟩,
  ⟨"SVC_ABORT_CNT", 0x40700088, 1, 0x4, 1, 4, .c, false, false, false, false, 0x00000000,
    [⟨"CNT", 31, 0, .c, none⟩]⟩,
  ⟨"SVC_PREEMPT_CNT", 0x4070008C, 1, 0x4, 1, 4, .c, false, false, false, false, 0x00000000,
    [⟨"CNT", 31, 0, .c, none⟩]⟩,
  ⟨"SVC_LOCKSTEP_CNT", 0x40700090, 1, 0x4, 1, 4, .c, false, false, false, false, 0x00000000,
    [⟨"CNT", 31, 0, .c, none⟩]⟩,
  ⟨"SVC_CODE_WR_CNT", 0x40700094, 1, 0x4, 1, 4, .c, false, false, false, false, 0x00000000,
    [⟨"CNT", 31, 0, .c, none⟩]⟩]

/-- SVC (service cores), part 2 of its rows. -/
def regTableSvc1 : List RegRow := [
  ⟨"SVC_TASK_ENTRY", 0x40710000, 256, 0x10, 1, 4, .i, true, true, false, false, 0x00000000,
    [⟨"ENTRY", 31, 0, .i, some (0, 524284)⟩]⟩,
  ⟨"SVC_TASK_W1", 0x40710004, 256, 0x10, 1, 4, .i, true, true, false, false, 0x00000000,
    [⟨"EN", 0, 0, .i, none⟩, ⟨"PRIO", 4, 1, .i, none⟩, ⟨"AFFINITY", 6, 5, .i, some (0, 2)⟩, ⟨"REQUIRED", 7, 7, .i, none⟩, ⟨"INIT", 8, 8, .i, none⟩, ⟨"BUDGET", 31, 12, .i, some (1, 1000000)⟩]⟩,
  ⟨"SVC_TASK_W2", 0x40710008, 256, 0x10, 1, 4, .i, true, true, false, false, 0x00000000,
    [⟨"PERIOD", 23, 0, .i, none⟩]⟩,
  ⟨"SVC_TASK_ARG", 0x4071000C, 256, 0x10, 1, 4, .is, true, true, true, false, 0x00000000,
    [⟨"ARG", 31, 0, .is, none⟩]⟩,
  ⟨"SVC_TASK_STAT", 0x40720000, 256, 0x10, 1, 4, .s, true, false, false, false, 0x00000000,
    [⟨"STATE", 2, 0, .s, none⟩, ⟨"PENDING", 3, 3, .s, none⟩, ⟨"LAST_PAIR", 5, 4, .s, none⟩, ⟨"ABORTS", 8, 6, .s, none⟩, ⟨"CAUSE", 31, 16, .s, none⟩]⟩,
  ⟨"SVC_TASK_RUNS", 0x40720004, 256, 0x10, 1, 4, .s, true, false, false, false, 0x00000000,
    [⟨"CNT", 31, 0, .s, none⟩]⟩,
  ⟨"SVC_TASK_LONGEST", 0x40720008, 256, 0x10, 1, 4, .s, true, false, false, false, 0x00000000,
    [⟨"US", 31, 0, .s, none⟩]⟩,
  ⟨"SVC_TASK_ABORTS", 0x4072000C, 256, 0x10, 1, 4, .s, true, false, false, false, 0x00000000,
    [⟨"CNT", 31, 0, .s, none⟩]⟩,
  ⟨"SVC_WAKE_MAP", 0x40730000, 576, 0x4, 1, 4, .i, true, true, false, false, 0x00000000,
    [⟨"TASK_EVEN", 7, 0, .i, none⟩, ⟨"VALID_EVEN", 15, 15, .i, none⟩, ⟨"TASK_ODD", 23, 16, .i, none⟩, ⟨"VALID_ODD", 31, 31, .i, none⟩]⟩]

/-- The rows of block SVC. -/
def regTableSvc : List RegRow := regTableSvc0 ++ regTableSvc1

/-- FAC (Facsimile engines), part 1 of its rows. -/
def regTableFac0 : List RegRow := [
  ⟨"FAC_SYNC", 0x40800000, 1, 0x4, 1, 4, .k, false, false, true, true, 0x00000000,
    [⟨"TOKEN", 7, 0, .k, none⟩, ⟨"GO", 8, 8, .k, none⟩, ⟨"RESULT", 23, 16, .k, none⟩]⟩,
  ⟨"FAC_FRAME_CFG", 0x40800004, 1, 0x4, 1, 4, .m, false, false, true, true, 0x00000000,
    [⟨"SF", 15, 0, .m, none⟩, ⟨"MATCH_EN", 16, 16, .m, none⟩]⟩,
  ⟨"FAC_CFG", 0x40800100, 8, 0x100, 1, 4, .is, false, true, true, false, 0x00000000,
    [⟨"ASSIGN", 0, 0, .is, none⟩, ⟨"PORT", 6, 1, .is, none⟩, ⟨"CMP_PORT", 12, 7, .is, none⟩, ⟨"LAG", 20, 13, .is, none⟩]⟩,
  ⟨"FAC_SKEW", 0x40800104, 8, 0x100, 1, 4, .is, false, true, true, false, 0x00000000,
    [⟨"SKEW", 11, 0, .is, none⟩]⟩,
  ⟨"FAC_CMD", 0x40800120, 8, 0x100, 1, 4, .k, false, false, true, true, 0x00000000,
    [⟨"TOKEN", 7, 0, .k, none⟩, ⟨"CMD", 11, 8, .k, none⟩, ⟨"ARG", 23, 12, .k, none⟩, ⟨"RESULT", 31, 24, .k, none⟩]⟩,
  ⟨"FAC_STREAM", 0x40800124, 8, 0x100, 1, 4, .k, false, false, true, true, 0x00000000,
    [⟨"TOKEN", 7, 0, .k, none⟩, ⟨"COUNT", 23, 8, .k, none⟩, ⟨"RESULT", 31, 24, .k, none⟩]⟩,
  ⟨"FAC_STAT", 0x40800140, 8, 0x100, 1, 4, .s, false, false, false, false, 0x00000000,
    [⟨"STATE", 2, 0, .s, none⟩, ⟨"MODE", 3, 3, .s, none⟩, ⟨"STEP", 13, 4, .s, none⟩, ⟨"CAUSE", 19, 16, .s, none⟩, ⟨"FAULT", 23, 20, .s, none⟩, ⟨"FREE", 24, 24, .s, none⟩]⟩,
  ⟨"FAC_TRIG_STAT", 0x40800144, 8, 0x100, 1, 4, .s, false, false, false, false, 0x00000000,
    [⟨"BITS", 15, 0, .s, none⟩]⟩,
  ⟨"FAC_STREAM_STAT", 0x40800148, 8, 0x100, 1, 4, .s, false, false, false, false, 0x00000000,
    [⟨"RD", 15, 0, .s, none⟩, ⟨"FILL", 31, 16, .s, none⟩]⟩,
  ⟨"FAC_STICKY", 0x4080014C, 8, 0x100, 1, 4, .x, false, false, false, true, 0x00000000,
    [⟨"BITS", 4, 0, .x, none⟩]⟩,
  ⟨"FAC_VEC_FIRST", 0x40800150, 8, 0x100, 1, 4, .s, false, false, false, false, 0x00000000,
    [⟨"ELEMENT", 15, 0, .s, none⟩, ⟨"STEP", 25, 16, .s, none⟩, ⟨"VALID", 31, 31, .s, none⟩]⟩,
  ⟨"FAC_CAL_STAT", 0x40800154, 8, 0x100, 1, 4, .s, false, false, false, false, 0x00000000,
    [⟨"CAL_DELAY", 15, 0, .s, none⟩, ⟨"VALID", 16, 16, .s, none⟩]⟩]

/-- FAC (Facsimile engines), part 2 of its rows. -/
def regTableFac1 : List RegRow := [
  ⟨"FAC_CNT", 0x40800180, 8, 0x100, 8, 4, .c, false, false, false, false, 0x00000000,
    [⟨"CNT", 31, 0, .c, none⟩]⟩,
  ⟨"FAC_STEP_W0", 0x40810000, 1024, 0x10, 1, 4, .is, true, true, true, true, 0x00000000,
    [⟨"SEG", 9, 0, .is, none⟩, ⟨"REPEAT", 31, 16, .is, none⟩]⟩,
  ⟨"FAC_STEP_W1", 0x40810004, 1024, 0x10, 1, 4, .is, true, true, true, true, 0x00000000,
    [⟨"RATIO", 18, 0, .is, none⟩, ⟨"CONT", 19, 19, .is, none⟩, ⟨"MOD", 25, 20, .is, none⟩, ⟨"MARK", 26, 26, .is, none⟩, ⟨"LAST", 27, 27, .is, none⟩]⟩,
  ⟨"FAC_STEP_W2", 0x40810008, 1024, 0x10, 1, 4, .is, true, true, true, true, 0x00000000,
    [⟨"WAIT", 15, 0, .is, none⟩, ⟨"WAIT_TO", 31, 16, .is, none⟩]⟩,
  ⟨"FAC_STEP_W3", 0x4081000C, 1024, 0x10, 1, 4, .is, true, true, true, true, 0x00000000,
    [⟨"NEXT", 9, 0, .is, none⟩, ⟨"TO_NEXT", 25, 16, .is, none⟩]⟩,
  ⟨"FAC_SEG_W0", 0x40814000, 1024, 0x8, 1, 4, .is, true, true, true, true, 0x00000000,
    [⟨"START", 15, 0, .is, none⟩, ⟨"KIND", 17, 16, .is, none⟩]⟩,
  ⟨"FAC_SEG_W1", 0x40814004, 1024, 0x8, 1, 4, .is, true, true, true, true, 0x00000000,
    [⟨"LENGTH", 15, 0, .is, none⟩]⟩,
  ⟨"FAC_MOD_W0", 0x40816000, 64, 0x8, 1, 4, .is, true, true, true, true, 0x00000000,
    [⟨"TYPE", 1, 0, .is, none⟩, ⟨"ARG", 31, 16, .is, none⟩]⟩,
  ⟨"FAC_MOD_W1", 0x40816004, 64, 0x8, 1, 4, .is, true, true, true, true, 0x00000000,
    [⟨"VALUE", 31, 0, .is, none⟩]⟩,
  ⟨"FAC_PATTERN", 0x40840000, 65536, 0x4, 1, 4, .is, true, true, true, true, 0x00000000,
    [⟨"WORD", 31, 0, .is, none⟩]⟩]

/-- The rows of block FAC. -/
def regTableFac : List RegRow := regTableFac0 ++ regTableFac1

/-- The rows of the block whose window holds address `a` (R408); none outside every window. -/
def regBlock (a : Nat) : List RegRow :=
  if 0x40000000 ≤ a ∧ a < 0x40010000 then regTableSup
  else if 0x40010000 ≤ a ∧ a < 0x40020000 then regTableNvm
  else if 0x40020000 ≤ a ∧ a < 0x40030000 then regTableMtx
  else if 0x40030000 ≤ a ∧ a < 0x40040000 then regTableEvt
  else if 0x40040000 ≤ a ∧ a < 0x40050000 then regTableInv
  else if 0x40050000 ≤ a ∧ a < 0x40060000 then regTableChk
  else if 0x40100000 ≤ a ∧ a < 0x40180000 then regTableLine
  else if 0x40200000 ≤ a ∧ a < 0x40240000 then regTablePath
  else if 0x40240000 ≤ a ∧ a < 0x40280000 then regTableIdx
  else if 0x40300000 ≤ a ∧ a < 0x40320000 then regTableTrib
  else if 0x40400000 ≤ a ∧ a < 0x40440000 then regTablePw
  else if 0x40440000 ≤ a ∧ a < 0x40470000 then regTableLend
  else if 0x40500000 ≤ a ∧ a < 0x40530000 then regTableTim
  else if 0x40600000 ≤ a ∧ a < 0x40610000 then regTableTwn
  else if 0x40640000 ≤ a ∧ a < 0x40650000 then regTableAps
  else if 0x40700000 ≤ a ∧ a < 0x40740000 then regTableSvc
  else if 0x40800000 ≤ a ∧ a < 0x40880000 then regTableFac
  else []

/-- Whether row `r` holds the word at byte address `a`. -/
def RegRow.holds (r : RegRow) (a : Nat) : Bool :=
  let o := a - r.base
  decide (r.base ≤ a) && decide (o / r.stride1 < r.count1) && decide (o % r.stride1 % r.stride2 = 0) &&
    decide (o % r.stride1 / r.stride2 < r.count2)

/-- The row of the word at byte address `a`, none where nothing is mapped (R408). -/
def regRow (a : Nat) : Option RegRow := (regBlock a).find? (fun r => r.holds a)

/-- The Bookplate's key hash and check word at reset (DESIGN CHOICE, log entry 3). -/
def bookplateReset (a : Nat) : Option Nat :=
  match a with
  | 0x40000110 => some 0x7DDB75D8
  | 0x40000114 => some 0x362223EF
  | 0x40000118 => some 0xC638C7AE
  | 0x4000011C => some 0x803EBBB0
  | 0x40000120 => some 0x0F5D2F14
  | 0x40000124 => some 0x24DFF4D8
  | 0x40000128 => some 0xF5EED6FE
  | 0x4000012C => some 0x9F0DB5CB
  | 0x40000130 => some 0x6EEA0DEF
  | _ => none

/-- What an unlisted word of the register target reads as: its reset value (R411). -/
def resetWord (a : Nat) : Word :=
  match bookplateReset a with
  | some v => BitVec.ofNat 32 v
  | none =>
    if a = 0x40031000 + 4 * 0x473 then 0
    else if a = 0x40500534 then 0x20000
    else match regRow a with
      | some r => BitVec.ofNat 32 r.reset
      | none => 0

end Sys2Proof.Machine
end

