-- ==== Sys2Proof/Machine/Section.lean ====
section
/-! DEFINITION. The bytes of an STM-N frame: where the section overhead lies, scrambling, the parities of R122 and the frame a port sends
(R119, R121, R122, R124, R145). The spec names the bytes of G.707 and not their places: those, and what the module sends in a byte that
the spec does not name, are those of G.707 and free bytes (PRESUMED, log entry 120). -/

namespace Sys2Proof.Machine

/-- Bytes of one row of an STM-N frame, of its section overhead in that row, and of the whole frame. -/
def stmRow (N : Nat) : Nat := 270 * N
def stmSoh (N : Nat) : Nat := 9 * N
def stmFrame (N : Nat) : Nat := 9 * stmRow N

/-- The place of row `r`, column `c` of an STM-N, both counted from 1. -/
def stmPlace (N r c : Nat) : Nat := (r - 1) * stmRow N + (c - 1)

/-- The second and third byte groups of a section overhead row begin in these columns. -/
def colB (N : Nat) : Nat := 3 * N + 1
def colC (N : Nat) : Nat := 6 * N + 1

/-- The column of M1 in row 9. -/
def colM1 (N : Nat) : Nat := 3 * N + 3

/-- A lane of inverted polarity. -/
def invertLane (inv : Bool) (bs : List Byte) : List Byte := if inv then bs.map (~~~ ·) else bs

/-- A frame scrambled, or descrambled: its first row of section overhead is not (R121). -/
def scrambleFrame (N : Nat) (on : Bool) (bs : List Byte) : List Byte :=
  if on then bs.take (stmSoh N) ++ scramble scramblerReset (bs.drop (stmSoh N)) else bs

/-- The bytes of a frame but its regenerator-section overhead, rows 1 to 3 of the overhead columns (R122). -/
def multiplexSection (N : Nat) (bs : List Byte) : List Byte :=
  (List.range 9).flatMap fun r => ((bs.drop (stmRow N * r)).take (stmRow N)).drop (if r < 3 then stmSoh N else 0)

/-- BIP-24N of a frame before scrambling (R122). -/
def bip24 (N : Nat) (bs : List Byte) : List Byte := bipN (3 * N) (multiplexSection N bs)

/-! ### The received frame -/

/-- What one received frame says: whether its alignment word is correct, the parities over it, and its overhead bytes. -/
structure RxFrame where
  wordOk : Bool
  bip8 : Byte              -- over every bit as received, scrambled
  bip24 : List Byte        -- over every bit but the regenerator-section overhead, descrambled
  b1 : Byte
  b2 : List Byte
  m1 : Byte
  k1 : Byte
  k2 : Byte
  s1 : Byte
  e1 : Byte
  e2 : Byte
  f1 : Byte
  j0 : Byte
  dcc : List Byte          -- D1 to D12
deriving DecidableEq, Repr

/-- A frame read from the bytes on the lane (R119, R121, R122, R124). -/
def readFrame (N : Nat) (scr inv : Bool) (lane : List Byte) : RxFrame :=
  let raw := invertLane inv lane
  let bs := scrambleFrame N scr raw
  let at_ (r c : Nat) : Byte := bs.getD (stmPlace N r c) 0
  { wordOk := decide ((raw.drop (3 * N - 2)).take 4 = [0xF6, 0xF6, 0x28, 0x28])
    bip8 := Machine.bip8 raw
    bip24 := Machine.bip24 N bs
    b1 := at_ 2 1, e1 := at_ 2 (colB N), f1 := at_ 2 (colC N), j0 := at_ 1 (colC N)
    b2 := (bs.drop (stmPlace N 5 1)).take (3 * N)
    k1 := at_ 5 (colB N), k2 := at_ 5 (colC N), s1 := at_ 9 1, m1 := at_ 9 (colM1 N), e2 := at_ 9 (colC N)
    dcc := [3, 6, 7, 8].flatMap (fun r => [at_ r 1, at_ r (colB N), at_ r (colC N)]) }

/-! ### The transmitted frame -/

/-- The overhead bytes a line port sends in one frame (R122 to R132). -/
structure TxFrame where
  b1 : Byte
  b2 : List Byte
  m1 : Byte
  k1 : Byte
  k2 : Byte
  s1 : Byte
  j0 : Byte
  e1 : Byte
  e2 : Byte
  f1 : Byte
  dcc : List Byte          -- D1 to D12
deriving DecidableEq, Repr

/-- The section overhead byte of row `r`, column `c`; a byte the spec does not name is free. -/
def TxFrame.soh (f : TxFrame) (N r c : Nat) : Byte :=
  let group (a b d : Byte) : Byte := if c = 1 then a else if c = colB N then b else if c = colC N then d else Config.sohByte (stmPlace N r c)
  let dcc (i : Nat) : Byte := f.dcc.getD i 0
  match r with
  | 1 => if c ≤ 3 * N then 0xF6 else if c ≤ 6 * N then 0x28 else group 0 0 f.j0
  | 2 => group f.b1 f.e1 f.f1
  | 3 => group (dcc 0) (dcc 1) (dcc 2)
  | 5 => if c ≤ 3 * N then f.b2.getD (c - 1) 0 else group 0 f.k1 f.k2
  | 6 => group (dcc 3) (dcc 4) (dcc 5)
  | 7 => group (dcc 6) (dcc 7) (dcc 8)
  | 8 => group (dcc 9) (dcc 10) (dcc 11)
  | _ => if c = colM1 N then f.m1 else group f.s1 (Config.sohByte (stmPlace N r c)) f.e2

/-- Bytes of an AUG-1 in one frame: 9 in the pointer row and 261 in each of 9 rows. -/
def augBytes : Nat := 9 + 9 * 261

/-- The unequipped AU-4 of an AUG-1 that no slot binds (R145): NDF normal, pointer 522, the VC-4 all zero. -/
def unequippedAug : List Byte := [0x6A, 0x9B, 0x9B, 0x0A, 0xFF, 0xFF, 0, 0, 0] ++ List.replicate (9 * 261) 0

/-- `k` bytes of `N` AUG-1s interleaved byte by byte, from place `o` of each. -/
def interleave (augs : List (List Byte)) (o k : Nat) : List Byte :=
  (List.range k).flatMap fun i => augs.map (fun a => a.getD (o + i) 0)

/-- One row of a frame before scrambling. -/
def TxFrame.row (f : TxFrame) (N : Nat) (augs : List (List Byte)) (r : Nat) : List Byte :=
  (if r = 4 then interleave augs 0 9 else (List.range (stmSoh N)).map (fun c => f.soh N r (c + 1)))
    ++ interleave augs (9 + 261 * (r - 1)) 261

/-- The frame before scrambling. Forced MS-AIS sets every bit after the regenerator-section overhead. -/
def TxFrame.bytes (f : TxFrame) (N : Nat) (ais : Bool) (augs : List (List Byte)) : List Byte :=
  (List.range 9).flatMap fun r =>
    let row := f.row N augs (r + 1)
    if !ais then row
    else (if r < 3 then row.take (stmSoh N) else List.replicate (stmSoh N) 0xFF) ++ List.replicate (261 * N) 0xFF

end Sys2Proof.Machine
end

