-- ==== Sys2Proof/Machine/State.lean ====
section
/-! DEFINITION. The state of the module as plain data, the reasons a step can stop, and the state right after reset.
Registers and register-space memories have one home, `State.regs`; the bytes of the memory targets have one, `State.mem`; everything the
spec gives a block beside its registers stands in the structures below, each named for its chapter. -/

namespace Sys2Proof.Machine

/-- A sparse table by number, in one canonical form: keys strictly rising and no entry equal to what an unlisted key reads as. -/
abbrev Tbl (α : Type) := List (Nat × α)

/-- The clock of one island (R102): what its counter held when it last started, and the moment it started. -/
structure Clock where
  held : Nat
  since : Nat
deriving DecidableEq, Repr

/-- One event on its way to EH (R327): its number, the raising island, that island's ITC, 0 to 3 data words. -/
structure Ev where
  num : Nat
  isl : Nat
  itc : Nat
  data : List Word
deriving DecidableEq, Repr

/-- One record in EH's intake queue (R330, R333): its accession number once it has one, its KIND and the event. -/
structure Rec where
  acc : Option Nat
  kind : Nat
  ev : Ev
deriving DecidableEq, Repr

/-- A count window of R45: firings counted so far and the moment of the last. -/
structure Win where
  count : Nat
  last : Nat
deriving DecidableEq, Repr

/-- Where the power-fail sequence of R49 stands: not running, its Archive write under way (step 6), or waiting (steps 7 and 8). -/
inductive PowerFail where
  | idle | archiving | waiting
deriving DecidableEq, Repr

/-- What SP, RT and the input stage hold beside their registers (chapters 02, 03, 14). -/
structure Sup where
  powered : Bool           -- SP has left power-on reset (R40)
  converter : Bool         -- the converter runs or soft-starts (R380)
  dormant : Bool           -- the module is in Dormant (R14)
  latched : Bool           -- SENIOR and TEST latched since power-on (R391)
  senior : Bool            -- SENIOR as latched
  test : Bool              -- TEST as latched
  powerFail : PowerFail
  railOff : Nat            -- converter-off time after a rail failure, ms; 0 none (R382)
  railFails : List Nat     -- moments of rail failures in the last 60 s
  rstCause : Nat           -- cause to be latched at the next start (R58)
  holdMs : Nat             -- length of the running Safe hold, ms (R47)
  sealing : Bool           -- step 2 of R50 runs: records accepted now are not queued
  secondGate : Bool        -- the second pad-enable gate is open (R30)
  keepalive : Bool         -- the keep-alive toggle is present (R31)
  refOk : Bool             -- last REF_OK reported by TM (R243)
  hoValid : Bool           -- last HO_VALID reported by TM
  corr : Int               -- last accepted correction word, units of 1e-12 (R34)
  corrSeen : Bool          -- a correction word has been accepted since SP's reset
  rejects : List Nat       -- moments of correction-word rejections in the last second
  phasesA : List Int       -- phase samples of monitor A in the last 1 ms, oldest first, ps (R33)
  phasesB : List Int
  overA : Bool             -- the last estimate of monitor A exceeded the limit
  overB : Bool
  l7Run : Bool             -- L7 counts (R44)
  l7Since : Nat            -- moment of the last reload
  sealA : Word             -- RT's seal registers (R49 step 5)
  sealB : Word
  sealCrc : Word
  bodSeen : Bool           -- RT's brown-out latch (R54)
  rtOpen : Bool            -- RT's write port is open (R49 step 4, R50)
  stopAfter : Bool         -- SP stops the converter when the power-fail sequence ends (R39, R382)
  archDone : Bool          -- the last Archive write completed, shown at the next start
  archSkipped : Bool       -- the last Archive write was skipped, shown at the next start
  archive : List Byte      -- the Archive record being written or last written (R52)
  claimBad : Bool          -- CLAIM_IN has disagreed with the twin's reported claim for 1 ms (R32)
  losBall : BitVec 8       -- levels of the LOS and MOD_ABS balls as SP's own receivers see them, bit n for LPn (R36)
  modAbs : BitVec 8
  entryAt : Option Nat     -- moment at which Limp or Safe was entered last (R22, R25)
deriving DecidableEq, Repr

/-- One staged register-load word (R73, R75): address, mask and value. -/
structure Staged where
  addr : Nat
  mask : Word
  value : Word
deriving DecidableEq, Repr

/-- One section entry of the Catalog (R70). -/
structure SecEntry where
  ty : Nat
  offset : Nat
  length : Nat
  crc : Word
deriving DecidableEq, Repr

/-- Where the loader stands (R86, R420): halted by a failed self-check or in one of its steps, and what it holds of the slot
being read. -/
structure Loader where
  running : Bool           -- the step program runs
  selfChecked : Bool       -- the self-check of step 1 has been made
  timed : Bool             -- SP times the current step
  stepSince : Nat          -- moment of the step's start mark
  unprovisioned : Bool     -- R83
  fallback03 : Bool        -- the 0x03 fallback of R66 is in use
  density : Nat            -- log2 of the NOR density in bits
  sections : List SecEntry  -- the section entries accepted so far
  secNo : Nat              -- index of the section being read
  secBytes : List Byte     -- body bytes of the current section read so far
  slotBytes : List Byte    -- bytes of the slot read so far
  imageLength : Nat
  version : Word
  build : Word
  staged : List Staged     -- register-load records staged in folio memory, in order
  ended : Bool             -- END of the current register-load section has arrived
  head : Bool              -- the head of the current service program section has been judged
  programs : List (Nat × Nat)  -- service program heads accepted: LOAD_ADDR and SIZE
  vector : Bool            -- a VECTOR section has been accepted
  fail : Option (Nat × Nat)    -- the first failure: code and SECTION
  applied : Bool           -- the slot has been applied (R80)
  scanned : Bool           -- the Archive heads have been read (R84)
  archNewest : Option Nat  -- index of the newest valid Archive record
deriving DecidableEq, Repr

/-- One transaction in flight (R98, R115): its beats performed at the target so far, in grant order, with the code and the read data of
each, and how many of them have been answered. -/
structure Txn where
  req : Req
  target : Nat
  accepted : Nat           -- moment of acceptance
  codes : List Nat         -- response code of each beat performed
  rdata : List (BitVec 64) -- read data of each beat performed
  answered : Nat
  orphan : Bool
  tag : Nat
deriving DecidableEq, Repr

/-- One global fence (R105): its number, who issued it, its phase, the islands whose markers are awaited and those missed. -/
structure Fence where
  no : Nat
  issuer : Nat             -- master port 0 to 3, or 7 for MTX_FENCE
  draining : Bool
  waitFor : List Nat       -- islands broadcast to whose marker EH has not accepted
  unmarked : List Nat      -- islands broadcast to that have not placed their marker
  writes : List Nat        -- tags of the writes it waits for
deriving DecidableEq, Repr

/-- The system matrix beside its registers (chapter 04). -/
structure Matrix where
  txns : Tbl Txn           -- by entry k of MTX_TXN
  pointers : List Nat      -- for each target and class 1 and 0, the master last granted (R94)
  nextTag : Nat
  fence : Option Fence
  waiting : List Nat       -- issuers of fences waiting (R109)
  late : List (Nat × Nat)  -- missed markers still on their way: fence number and island (R108)
  lateWrites : List Txn    -- writes answered TIMEOUT that their target may still carry out (R99)
  held : List Req          -- requests held at their ports until their ID is released, oldest first (R113)
  resp : Nat               -- response code of the access just made (R99)
deriving DecidableEq, Repr

/-- EH beside its registers (chapter 12). -/
structure Hub where
  queue : List Rec         -- the intake queue, oldest first
  held : Option Rec        -- the power-fail record (R331)
  nextAcc : Nat            -- next accession number
  numbered : Bool          -- the next accession number has been set at this start (R335)
  retGood : Bool           -- retention was accepted at this start
  lost : Nat               -- records lost in the running loss episode
  firstLost : Nat × Nat    -- event and island of the first lost record
  lastLost : Nat × Nat
  startAcc : Nat           -- first accession number given at this start (R336 step 1)
  accepted : Tbl Nat       -- events of each island accepted by EH (R104)
  raised : Tbl Nat         -- events each island has raised
  recent : Nat × List Nat  -- the moment at which events last set pending bits, and those events (R329)
deriving DecidableEq, Repr

/-- One freeze of the Inventory (R338, R340). -/
structure Freeze where
  command : Bool
  token : Nat
deriving DecidableEq, Repr

/-- The Inventory reader beside its registers. -/
structure Inventory where
  seq : Nat                -- number of the last freeze started
  running : Option Freeze
  held : Option Freeze
  words : Tbl Word         -- the header words, shadow registers and EVT_CNT copy of the freeze being gathered, by bank offset
  dark : List Nat          -- islands that could not be read when the freeze started
deriving DecidableEq, Repr

/-- The management bridge beside its registers (R347 to R350). -/
structure Bridge where
  failures : List Nat      -- moments of failed sequences in the last 60 s
  reply : List (BitVec 8)  -- data and status bytes last returned to the host
deriving DecidableEq, Repr

/-- One line port beside its registers (chapter 05). -/
structure LinePort where
  elec : Bool              -- electrical loss of signal (R118)
  settling : Bool          -- MOD_ABS has been low for less than 300 ms (R116)
  candidate : Nat          -- candidate or held alignment position
  errRun : Nat             -- consecutive errored frames in In frame
  goodRun : Nat            -- consecutive correct frames at the old position in Out of frame
  newPos : Option Nat      -- new position found by the parallel search in Out of frame
  inRun : Nat              -- consecutive frames in In frame, for the LOF integrator, at most 24
  synced : Bool            -- 24 frames in In frame since the signal came (R260)
  kLast : Option Nat       -- 13-bit K value of the last frame of the filter's run
  kRun : Nat
  kMiss : Nat              -- consecutive frames in which no value met the persistence
  kAcc : Option Nat        -- value already accepted
  lowLast : Nat            -- K2 bits 2:0 of the last frame, and their run
  lowRun : Nat
  aisOn : Nat              -- runs of the detectors of R130
  aisOff : Nat
  rdiOn : Nat
  rdiOff : Nat
  s1Last : Option Nat
  s1Run : Nat
  j0Buf : List Byte        -- bytes of the trace period in progress
  j0Last : List Byte       -- last whole trace period, and its run
  j0Run : Nat
  j0Acc : Bool             -- a trace has been accepted
  refB1 : Option Byte      -- BIP-8 of the previous frame, where it was received in In frame
  refB2 : Option (List Byte)
  lastB2 : Nat             -- B2 violations of the last received frame (R123)
  dcc : List Byte          -- D1 to D12 of the last received frame
  excSum : Nat             -- B2 violations of the running sub-window of each detector, and whether counting never stopped in it
  excOk : Bool
  degSum : Nat
  degOk : Bool
  excWin : List (Option Nat)   -- the last sub-windows, oldest first; none where counting stopped (R134)
  degWin : List (Option Nat)
  sendRdi : Bool           -- MS-RDI is being sent (R135)
  kNow : Word              -- while a write that landed in the K-byte slot waits: LINE_K_TX for the next frame (R131)
  kLate : Bool             -- such a write waits
  txJ0 : Nat               -- position in the transmitted trace
  tx : TxFrame             -- the overhead of the frame being sent, its parities and its bytes on the lane
  txPar : Option (Byte × List Byte)
  sent : List Byte
  losBits : Nat            -- the sources that last reported loss of signal (R144)
deriving DecidableEq, Repr

/-- One path of PX beside its registers (chapter 06). -/
structure PathPort where
  started : Bool           -- in service: the interpreter has started in LOP (R148)
  aisRun : Nat             -- consecutive ais_ind, inv_point and ndf_enable readings
  invRun : Nat
  ndfRun : Nat
  sameRun : Nat            -- consecutive norm_point or new_point readings of one value
  sameVal : Nat
  adjGap : Nat             -- readings since the last adjustment or NDF, at most 3
  h4Next : Nat             -- H4 multiframe tracking (R149)
  h4Bad : Nat
  h4Good : Nat
  trace : List Byte        -- trace period in progress, last whole period, its run, and whether one has been accepted
  traceLast : List Byte
  traceRun : Nat
  traceAcc : Bool
  labelLast : Nat          -- signal label of the last frame, its run, and whether one has been accepted
  labelRun : Nat
  labelAcc : Bool
  rdiOn : Nat              -- runs of the RDI detector
  rdiOff : Nat
  refBip : Option Byte     -- parity of the previous VC
  lastViol : Nat           -- violations of the last received VC, returned as REI
  blocks : Nat             -- errored blocks, REI and adjustments of the running second
  rei : Nat
  adjRx : Nat
  adjTx : Nat
  held : Bool              -- the running second contains AIS, LOP or SSF (R153)
  badRun : Nat             -- consecutive bad seconds and seconds that are not bad
  goodRun : Nat
  ndfPending : Bool        -- the store has been recentred; the new pointer is still to go out with NDF (R151)
  ptrOld : Nat             -- the pointer value sent until then
  txGap : Nat              -- readings since the last adjustment or NDF sent, at most 4
  rxTotal : Nat            -- the adjustment counters held only in the Inventory (R341)
  txTotal : Nat
  txTrace : Nat            -- position in the transmitted trace, parity of the container sent last, multiframe sequence (R152)
  txBip : Byte
  txH4 : Nat
  sentPtr : BitVec 16      -- the pointer bytes and the container sent last
  sentVc : List Byte
deriving DecidableEq, Repr

/-- The endpoints A, B and A′ of an Index entry as they stood at its last passing check (R161). -/
structure Kept where
  a : Word
  b : Word
  ap : Word
deriving DecidableEq, Repr

/-- A compare an engine still owes (R366): element, step and whether a mark is expected. -/
structure Owed where
  element : Nat
  step : Nat
  mark : Bool
  run : Nat                -- which step since reset drove it
deriving DecidableEq, Repr

/-- One Facsimile engine beside its registers (chapter 13). -/
structure Engine where
  st : List Word           -- the step entry as fetched, 4 words (R357)
  sg : List Word           -- its segment entry, 2 words, and that of the stream its modulation names, 2 words
  md : List Word           -- its modulation entry, 2 words
  ratioBefore : Option Nat -- RATIO and MOD of the step before it in the same run (R365)
  modBefore : Option Nat
  x : Nat                  -- read position in a waveform segment, in 2^-16 samples (R364)
  plays : Nat              -- plays completed of the running step
  ended : Bool             -- the last play is over
  clk : Nat                -- sample clocks since the step's first sample
  modClk : Nat             -- sample clocks since the sine's phase was 0, or since the last ring sample
  skew : Nat               -- SKEW in effect (R371)
  positive : Bool          -- polarity of the next mark (R366)
  marks : List (Int × Int) -- marks on the line: start in sample clocks of the step, and polarity
  owed : List Owed         -- compares owed, oldest first
  runs : Nat               -- steps begun
  failed : Option Nat      -- the last of them that has had its first failure (R367)
  ring : Option Nat        -- the segment of the bound stream ring (R370)
  phiFrom : Int            -- the ramp of a stream's phase offset, 1/256 UI
  phiTo : Int
  latching : Bool          -- a wait has begun: triggers set TRIG_STAT (R363)
  calibrating : Bool
  out : Int                -- the output code
deriving DecidableEq, Repr

/-- One tributary port beside its registers (chapter 07). -/
structure TribPort where
  losPulse : Bool          -- dLOS for want of pulses (R172), and for an unlocked CDR (R171)
  losCdr : Bool
  losCause : Nat           -- the cause that the declaration of dLOS carried (R196)
  aisOn : Nat              -- runs of 512-bit blocks (R174)
  aisOff : Nat
  dec : Decoder            -- the line decoder (R173)
  toIdx : List Bool        -- the bits last handed towards the Index (R176)
  found : List (List Bool) -- the last frames the receive framer found, as handed towards the Index, oldest first, at most 64 (R206)
  rx : Framer              -- the receive framer and the transmit framer (R177)
  tx : Framer
  frames : Nat             -- frames since the CRC-4 multiframe search began (R179)
  si : List Bool           -- the last bits 1 of NFAS, at most 6
  mfas : List Nat          -- frames in which an MFAS word ended
  firstIn : Nat            -- moment of the first In frame since dOOF was declared, plus 1
  quiet : Bool             -- a new basic frame search runs with no dOOF declared
  mf : Nat                 -- number of the next frame in the multiframe
  crcAcc : Option Nat      -- check of the submultiframe or superframe in progress, where its start was seen, and its C bits so far
  cBits : List Bool
  crcNo : Nat              -- submultiframes checked, and the numbers of those errored among the last 1,000
  crcBad : List Nat
  raiOn : Nat              -- runs of the dRAI detector (R181)
  raiOff : Nat
  yellow : Bool            -- T1 SF: the alarm in every frame of the running 40 ms window, and the frames of it so far
  winFrames : Nat
  fdl : List Bool          -- T1 ESF: the last FDL bits, at most 16, and how many of them the running period has
  fdlNo : Nat
  store : List Bool        -- the transmit store, oldest bit first (R191, R192)
  looped : List Bool       -- bits received under LLOOP and not yet in the store (R194)
  gone : List Bool         -- the last bits sent, newest last, at most one frame
  coder : Coder            -- the line coder (R184)
  phase : Nat              -- the symbol timer's 48-bit phase, and its loop's integrator (R185)
  integ : Int
  symbols : List (Nat × Int)  -- the last symbols started, newest first: the sample at which each starts, and its value
  out : List Int           -- the output codes of the last whole symbol interval
deriving DecidableEq, Repr

/-- One timing reference beside its registers (R229, R230). -/
structure Ref where
  act : Bool               -- its activity failure condition holds
  freqBad : Nat            -- consecutive measurements beyond FREQ_LIM, at most 2
  before : Bool            -- it has been Qualified since start
  waitEnd : Nat            -- moment at which its running wait ends
deriving DecidableEq, Repr

/-- One DPLL beside its registers (R234, R236). -/
structure Dpll where
  since : Nat              -- moment it last became Locked
  ran : Bool               -- it has been Locked for 1 s in this start
  cmd : Nat                -- the command in force, 0 none, and its reference
  cmdRef : Nat
  ever : Bool              -- a reference has been selected
  out : Int                -- DPLL0, DPLL1: output phase from the OCXO; DPLL2, DPLL3: the phase held of their reference; all in 10⁻¹⁸ s
  off : Option Int         -- what phase build-out adds to the output phase, none until the next tick takes it (R235, R238)
  err : Int                -- phase error against the reference, the output ahead being positive, in 10⁻¹⁸ s
deriving DecidableEq, Repr

/-- A two-step transmit timestamp (R247): sequenceId, messageType, and time in 2^-16 ns. -/
structure TxStamp where
  seq : Nat
  kind : Nat
  time : Nat
deriving DecidableEq, Repr

/-- TM beside its registers (chapter 09). -/
structure Timing where
  refs : Tbl Ref
  dplls : Tbl Dpll
  avg : List (Nat × Int × Nat)  -- OCXO offsets while Locked: second, sum in 1e-12 and count (R249)
  fEntry : Int             -- f_entry in 1e-12, T_entry in 0.01 °C, the slope there in 0.01 K/h and the moment
  tEntry : Int
  slopeEntry : Int
  entryAt : Nat
  seen : Option (Int × Int × Int)  -- the three as a failure of DPLL0's reference was first seen, while it stands (R235, R249)
  temp : Int               -- last good temperature, 0.01 °C, and slope, 0.01 K/h
  slope : Int
  temps : List (Nat × Int)     -- readings of the last second and the temperatures of the last 600 s, with their moments (R249)
  tempLog : List (Nat × Int)
  phase : Option Int       -- a sample for DPLL1 that the next tick uses, in 2^-16 ns (R248)
  limit : Bool             -- the running Holdover has reached HO_MAX_H
  modelOk : Bool           -- the active copy passes every check of R250, STATE included
  commit : Bool            -- the other copy becomes active at the next tick (R252)
  qualityStop : Bool       -- the outputs are stopped by the quality test (R241)
  clkOk : Bool             -- the sample clocks are marked valid (R242)
  learnClean : Bool        -- DPLL0 Locked without a switch since the last learning sample (R251)
  samples : List (Int × Int × Bool)  -- the learning FIFO, oldest first: offset in 1e-14, temperature, valid
  rxCount : Nat            -- PTP frames placed in the receive queue (R247)
  rxLost : Bool            -- an entry was lost before the next one
  stamps : Tbl (List TxStamp)  -- the timestamp FIFO of each port
  esmcOut : Tbl (List Byte)    -- the last ESMC and PTP frames sent on each port
  ptpOut : Tbl (List Byte)
deriving DecidableEq, Repr

/-- One flow beside its registers (chapter 08). -/
structure Flow where
  started : Bool           -- a packet has been placed in the running buffer, so n_play stands (R209)
  nHi : Nat                -- highest sequence number placed
  arrived : List Nat       -- the arrival map: sequence numbers written and not yet played
  early : Nat              -- consecutive early packets (R211)
  missing : Nat            -- consecutive slots fallen due without data
  run : Nat                -- packets in the run of R210
  last : Option (List Byte)    -- payload of the slot last played, none where it was missing
  far : Bool               -- received M is 0b10 (R206)
  reclaimed : Nat          -- descriptors reclaimed by the running disable sequence
  tsf : Bool               -- all ones with TSF go towards the Index (R214)
  out : List Bool          -- the bits last sent towards the Index
  cesFrame : Nat           -- CESoPSN framing: frames built, bits of the block under check, its CRC before it, FDL bits sent
  cesBits : List Bool
  cesCrc : Nat
  cesFdl : Nat
deriving DecidableEq, Repr

/-- A transmit descriptor beside its table entry: its folios, the bytes of the packet in them, and the moment it was taken (R220). -/
structure Desc where
  folios : List Nat
  len : Nat
  since : Nat
deriving DecidableEq, Repr

/-- The Lending Desk and the packet ports beside their registers. -/
structure Lending where
  descs : Tbl Desc         -- live transmit descriptors
  granted : Tbl (List Nat) -- folios of the transmit reserve granted to a flow for its next packet
  low : Bool               -- FREE has fallen below LOW_WATER
  sent : Tbl (List Byte)   -- the last frame each packet port sent
deriving DecidableEq, Repr

/-- What a twin-link message carries (R267, R272, R275). A class C snapshot goes out as messages of its records. -/
inductive LinkMsg where
  | heartbeat (hb : Heartbeat)
  | pair (id digest cfg ident : Word) (senior : Bool)
  | mirrorA (c : MirrorA)
  | mirrorB (c : MirrorB)
  | mirrorC (recs : List MirrorRec)
  | handover (frame : BitVec 22) (toJunior : Bool)
  | cal (echo : Bool) (stamp turnaround : Nat)
deriving DecidableEq, Repr

/-- TW, and the claim and tie-line logic of SP, beside their registers (chapter 10). -/
structure Twin where
  tx0 : Nat                -- last SEQ sent and last SEQ accepted of each stream
  tx1 : Nat
  tx2 : Nat
  rx0 : Nat
  rx1 : Nat
  rx2 : Nat
  unacked : List (Nat × LinkMsg)  -- stream-2 messages not yet acknowledged, oldest first
  snapshot : Bool          -- a class C snapshot is still to be sent
  out : List (List (BitVec 64))  -- the messages sent last, as words (R267)
  pulse : Option (Nat × Nat)   -- frame counter and superframe of the sync pulse sent at the last frame boundary (R275)
  heard : Nat              -- the SEQ the twin last reported hearing
  known : Bool             -- the twin has been heard since Serving was entered (R280)
  twinClaim : Bool         -- the claim state of the twin's last HEARTBEAT (R32)
  req : Nat                -- highest request of the twin's last HEARTBEAT, by order number
  sym : Nat                -- its tie-class symbol
  tieSym : Nat             -- symbol of the last pulses on TIE_HB_IN, and their run
  tieRun : Nat
  sd : Bool                -- a condition of R259 has raised SD for 10 ms
  seniorFault : Bool       -- SF or SD stood against the senior at the last ruling
  wtrEnd : Nat             -- moment at which equipment WTR ends
  runA : Nat               -- consecutive aligned frames and periods (R272)
  runB : Nat
  calLast : Option Int     -- the last calibration result, ps
  handover : Option Nat    -- the target frame number of a commanded switch under way
  silentAt : Nat           -- S of R279
  servedAt : Nat           -- moment of the last Serving entry from Armed
  claimFell : Nat          -- moment from which CLAIM_IN has been low
  super : Nat              -- superframe number of the transmit frame timing, and the moment of its last frame boundary
  boundary : Nat
  split : List Nat         -- Index entries whose own selection differs from the one mirrored (R274)
deriving DecidableEq, Repr

/-- One MSP group beside its registers. -/
structure Grp where
  counted : List (Nat × Bool)  -- channels whose SF (false) or SD (true) has persisted for HOLDOFF
  wtr : Option (Nat × Nat) -- channel and end of a running wait to restore
  dnr : Option Nat         -- channel held by Do not revert
  best : Nat × Nat         -- order and channel of the highest local request at the last ruling
  diverged : Bool          -- the standby's own decision differs from the one mirrored (R274)
deriving DecidableEq, Repr

/-- What holds a core at an instruction (R104, R105): the events of its island that EH must have accepted, with what follows (0 the next
instruction, 1 DONE, 2 READY), or the global fence it issued. -/
inductive Stall where
  | locally (count next : Nat)
  | globally
deriving DecidableEq, Repr

/-- One lockstep pair: both cores hold the same (R290 to R305). -/
structure Core where
  g : Tbl Word             -- g1 to g31
  pc : Word
  itcHi : Word             -- high word latched by RDITC
  starting : Bool          -- the start routine runs (R300)
  stall : Option Stall
  since : Nat              -- moment from which the running task is charged, or at which the pair went out
  rejoin : Nat             -- why the pair is restarting: 0 module start, 1 lockstep mismatch, 2 watchdog
deriving DecidableEq, Repr

/-- One task beside its table and status entries. -/
structure Task where
  order : Nat              -- its place among the tasks that became Ready
  pcause : Nat             -- cause of the wake that PENDING stands for
  saved : Bool             -- its context lies in its save area (R304)
  spent : Nat              -- ns spent Running in this run (R306)
  off : Option Nat         -- moment of its last disable command (R325)
deriving DecidableEq, Repr

/-- One check unit beside its registers (R342). -/
structure CheckUnit where
  reg : Nat
  fed : Bool               -- a block start has restarted `reg` since EN was set
deriving DecidableEq, Repr

/-- Why the machine stops. No command of the module stops it: every event the spec names has an effect, or none, and the module goes on. -/
inductive Fault where
  /-- A byte outside every memory target was touched. Raised by nobody: the matrix answers DECODE (R99). Safe. -/
  | unmapped (addr : Nat)
deriving DecidableEq, Repr

/-- Why a command is refused by the model. -/
inductive Refusal where
  /-- The command has no meaning in the model yet. Raised by `exec` alone, by name. Safe. -/
  | notModelled (mnemonic : String)
deriving DecidableEq, Repr

/-- The whole module. -/
structure State where
  pending : List Instr     -- commands waiting, first in, first out
  now : Nat                -- true time in ns since power was applied
  free : Nat               -- how many free words the run has used (DESIGN CHOICE, log entry 5)
  regs : Tbl Word          -- words of target 5 by byte address
  mem : List Host.Cell     -- bytes of targets 1 to 4 by byte address
  itc : Tbl Clock
  chan : List Ev           -- events raised and not yet accepted, oldest first
  firsts : Tbl Nat         -- the second in which an event raised "first in each second" was last raised, plus 1 (R419)
  wins : Tbl Win           -- escalation windows (R45)
  sp : Sup
  ld : Loader
  mtx : Matrix
  eh : Hub
  inv : Inventory
  mg : Bridge
  tm : Timing
  mirrorQ : List MirrorRec -- service writes not yet mirrored to the twin (R272)
  lines : Tbl LinePort     -- by port
  paths : Tbl PathPort     -- by path: h for a higher-order path, 192 + l for a lower-order path
  kept : Tbl Kept          -- by Index entry
  engines : Tbl Engine     -- by Facsimile engine
  tribs : Tbl TribPort     -- by tributary port
  flows : Tbl Flow         -- by flow
  tw : Twin
  msp : Tbl Grp            -- by MSP group
  lend : Lending
  cores : Tbl Core         -- by pair
  tasks : Tbl Task         -- by task
  turns : Nat              -- tasks that have become Ready so far
  chk : Tbl CheckUnit      -- by check unit
  wtrs : Tbl Nat           -- by Index entry: the moment its wait to restore ends, plus 1; 0 not running (R164)
deriving DecidableEq, Repr

/-- SP as power is applied (R40). -/
def Sup.init : Sup := {
  powered := false, converter := false, dormant := true, latched := false, senior := false, test := false, powerFail := .idle, railOff := 0,
  railFails := [], rstCause := 1, holdMs := 0, sealing := false, secondGate := false, keepalive := true,
  refOk := false, hoValid := false, corr := 0, corrSeen := false, rejects := [], phasesA := [], phasesB := [], overA := false,
  overB := false, l7Run := false, l7Since := 0, sealA := 0, sealB := 0, sealCrc := 0, bodSeen := false, rtOpen := false,
  stopAfter := false, archDone := false, archSkipped := false, archive := [], claimBad := false, losBall := 0, modAbs := 0,
  entryAt := none }

/-- The loader in reset. -/
def Loader.init : Loader := {
  running := false, selfChecked := false, timed := false, stepSince := 0, unprovisioned := false, fallback03 := false, density := 0, sections := [],
  secNo := 0, secBytes := [], slotBytes := [], imageLength := 0, version := 0, build := 0, staged := [], ended := false, head := false,
  programs := [], vector := false, fail := none, applied := false, scanned := false, archNewest := none }

/-- The matrix in reset. -/
def Matrix.init : Matrix := { txns := [], pointers := [], nextTag := 0, fence := none, waiting := [], late := [], lateWrites := [], held := [], resp := 0 }

/-- EH in reset. -/
def Hub.init : Hub := {
  queue := [], held := none, nextAcc := 0, numbered := false, retGood := false, lost := 0, firstLost := (0, 0), lastLost := (0, 0),
  startAcc := 0, accepted := [], raised := [], recent := (0, []) }

/-- The Inventory reader in reset. -/
def Inventory.init : Inventory := { seq := 0, running := none, held := none, words := [], dark := [] }

/-- The management bridge in reset. -/
def Bridge.init : Bridge := { failures := [], reply := [] }

/-- A line port in reset. -/
def LinePort.init : LinePort := {
  elec := false, settling := false, candidate := 0, errRun := 0, goodRun := 0, newPos := none, inRun := 0, synced := false, kLast := none, kRun := 0,
  kMiss := 0, kAcc := none, lowLast := 0, lowRun := 0, aisOn := 0, aisOff := 0, rdiOn := 0, rdiOff := 0, s1Last := none, s1Run := 0,
  j0Buf := [], j0Last := [], j0Run := 0, j0Acc := false, refB1 := none, refB2 := none, lastB2 := 0, dcc := [], excSum := 0,
  excOk := true, degSum := 0, degOk := true, excWin := [], degWin := [], sendRdi := false, kNow := 0, kLate := false, txJ0 := 0,
  tx := ⟨0, [], 0, 0, 0, 0, 0, 0, 0, 0, []⟩, txPar := none, sent := [],
  losBits := 0 }

/-- A path out of service. -/
def PathPort.init : PathPort := {
  started := false, aisRun := 0, invRun := 0, ndfRun := 0, sameRun := 0, sameVal := 0, adjGap := 3, h4Next := 0, h4Bad := 0,
  h4Good := 0, trace := [], traceLast := [], traceRun := 0, traceAcc := false, labelLast := 0, labelRun := 0, labelAcc := false,
  rdiOn := 0, rdiOff := 0, refBip := none, lastViol := 0, blocks := 0, rei := 0, adjRx := 0, adjTx := 0, held := false, badRun := 0,
  goodRun := 0, ndfPending := false, ptrOld := 0, txGap := 4, rxTotal := 0, txTotal := 0, txTrace := 0, txBip := 0, txH4 := 0,
  sentPtr := 0, sentVc := [] }

/-- An engine in reset. -/
def Engine.init : Engine := {
  st := [], sg := [], md := [], ratioBefore := none, modBefore := none, x := 0, plays := 0, ended := false, clk := 0, modClk := 0,
  skew := 0, positive := true, marks := [], owed := [], runs := 0, failed := none, ring := none, phiFrom := 0, phiTo := 0, latching := false,
  calibrating := false, out := 0 }

/-- A tributary port in reset. -/
def TribPort.init : TribPort := {
  losPulse := false, losCdr := false, losCause := 0, aisOn := 0, aisOff := 0, dec := .init, toIdx := [], found := [], rx := .init, tx := .init, frames := 0,
  si := [], mfas := [], firstIn := 0, quiet := false, mf := 0, crcAcc := none, cBits := [], crcNo := 0, crcBad := [], raiOn := 0,
  raiOff := 0, yellow := true, winFrames := 0, fdl := [], fdlNo := 0, store := [], looped := [], gone := [], coder := .init,
  phase := 0, integ := 0, symbols := [], out := [] }

/-- A DPLL in Free-run, with no phase measured. -/
def Dpll.init : Dpll := { since := 0, ran := false, cmd := 0, cmdRef := 0, ever := false, out := 0, off := none, err := 0 }

/-- TM in reset. -/
def Timing.init : Timing := {
  refs := [], dplls := [], avg := [], fEntry := 0, tEntry := 0, slopeEntry := 0, entryAt := 0, seen := none, temp := 0, slope := 0,
  temps := [], tempLog := [], phase := none,
  limit := false, modelOk := false, commit := false, qualityStop := false, clkOk := false, learnClean := false, samples := [],
  rxCount := 0, rxLost := false, stamps := [], esmcOut := [], ptpOut := [] }

/-- A flow in Idle. -/
def Flow.init : Flow := {
  started := false, nHi := 0, arrived := [], early := 0, missing := 0, run := 0, last := none, far := false, reclaimed := 0, tsf := true, out := [],
  cesFrame := 0, cesBits := [], cesCrc := 0, cesFdl := 0 }

/-- The Lending Desk with nothing lent. -/
def Lending.init : Lending := { descs := [], granted := [], low := false, sent := [] }

/-- TW in reset. -/
def Twin.init : Twin := {
  tx0 := 0, tx1 := 0, tx2 := 0, rx0 := 0, rx1 := 0, rx2 := 0, unacked := [], snapshot := false, out := [], pulse := none, heard := 0, known := false,
  twinClaim := false, req := 10, sym := 0, tieSym := 0, tieRun := 0, sd := false, seniorFault := false, wtrEnd := 0, runA := 0, runB := 0,
  calLast := none, handover := none, silentAt := 0, servedAt := 0, claimFell := 0, super := 0, boundary := 0, split := [] }

/-- A group with nothing requested. -/
def Grp.init : Grp := { counted := [], wtr := none, dnr := none, best := (12, 0), diverged := false }

/-- A pair in reset. -/
def Core.init : Core := { g := [], pc := 0, itcHi := 0, starting := false, stall := none, since := 0, rejoin := 0 }

/-- A task with nothing noted. -/
def Task.init : Task := { order := 0, pcause := 0, saved := false, spent := 0, off := none }

/-- A check unit with nothing fed. -/
def CheckUnit.init : CheckUnit := { reg := 0, fed := false }

/-- The module right after power is applied: Dormant, nothing listed, every register at its reset value (R14, R40, R411). -/
def State.reset : State := {
  pending := [], now := 0, free := 0, regs := [], mem := [], itc := [], chan := [], firsts := [], wins := [], sp := .init,
  ld := .init, mtx := .init, eh := .init, inv := .init, mg := .init, tm := .init, mirrorQ := [], lines := [], paths := [], kept := [],
  engines := [], tribs := [],
  flows := [], lend := .init, tw := .init, msp := [], cores := [], tasks := [], turns := 0, chk := [], wtrs := [] }

end Sys2Proof.Machine
end

