-- ==== Sys2Proof/Machine/Ops.lean ====
section
/-! DEFINITION. The named operations over registers, memory, clocks and events that every meaning is built from. -/

namespace Sys2Proof.Machine

/-! ### Sparse tables -/

/-- The entry at key `k`, or `d` where the table lists none. -/
def tget {α : Type} (t : Tbl α) (d : α) (k : Nat) : α :=
  match t with
  | [] => d
  | (j, v) :: r => if j = k then v else tget r d k

/-- The table without key `k`. -/
def terase {α : Type} (t : Tbl α) (k : Nat) : Tbl α := t.filter (fun p => p.1 ≠ k)

/-- The table with `(k, v)` put in its place among rising keys. -/
def tinsert {α : Type} (t : Tbl α) (k : Nat) (v : α) : Tbl α :=
  match t with
  | [] => [(k, v)]
  | (j, w) :: r => if k < j then (k, v) :: (j, w) :: r else (j, w) :: tinsert r k v

/-- The table that reads `v` at `k`; writing the default `d` removes the entry, so equal tables are equal data. -/
def tset {α : Type} [DecidableEq α] (t : Tbl α) (d : α) (k : Nat) (v : α) : Tbl α :=
  if v = d then terase t k else tinsert (terase t k) k v

/-- Keys strictly rising. -/
def rising {α : Type} : Tbl α → Bool
  | [] => true
  | (j, _) :: r => r.all (fun p => decide (j < p.1)) && rising r

/-- The canonical form of a table whose unlisted keys read as `d k`. -/
def tableWf {α : Type} [DecidableEq α] (t : Tbl α) (d : Nat → α) : Bool :=
  rising t && t.all (fun p => decide (p.2 ≠ d p.1))

/-- The memory's canonical form: addresses strictly rising, and no byte equal to what an unlisted address reads as (DESIGN CHOICE, log entry 8). -/
def Memory.wf (m : List Host.Cell) : Bool := tableWf m (fun _ => (0 : Byte))

/-! ### Registers (R3, R409) -/

/-- The word at byte address `a` of the register target. -/
def State.reg (s : State) (a : Nat) : Word := tget s.regs (resetWord a) a

/-- The state with the word at `a` replaced. -/
def State.setReg (s : State) (a : Nat) (w : Word) : State := { s with regs := tset s.regs (resetWord a) a w }

/-- A field of a register, unsigned. -/
def State.fld (s : State) (a : Nat) (f : Fld) : Nat := f.get (s.reg a)

/-- The state with one field of a register replaced. -/
def State.setFld (s : State) (a : Nat) (f : Fld) (v : Nat) : State := s.setReg a (f.put (s.reg a) v)

/-- Whether a field is not 0. -/
def State.flag (s : State) (a : Nat) (f : Fld) : Bool := decide (s.fld a f ≠ 0)

/-- The state with a one-bit field set or cleared. -/
def State.setFlag (s : State) (a : Nat) (f : Fld) (b : Bool) : State := s.setFld a f (bit b)

/-- A bit of a register by number. -/
def State.bitAt (s : State) (a b : Nat) : Bool := s.flag a ⟨b, 1⟩

/-- A bit of a register by number, set or cleared. -/
def State.setBitAt (s : State) (a b : Nat) (v : Bool) : State := s.setFlag a ⟨b, 1⟩ v

/-- A wrapping 32-bit counter advanced by `n` (type C). -/
def State.count (s : State) (a : Nat) (n : Nat := 1) : State := s.setReg a (s.reg a + BitVec.ofNat 32 n)

/-- A field advanced by one and held at its largest value `m`. -/
def State.satInc (s : State) (a : Nat) (f : Fld) (m : Nat) : State := s.setFld a f (min m (s.fld a f + 1))

/-- The bits that the row's own type covers: a field marked otherwise, and reserved bits, take no write by any master (R3, R4). -/
def RegRow.writable (r : RegRow) : Word :=
  BitVec.ofNat 32 (r.fields.foldl (fun m f => if f.ty = r.ty then m ||| Fld.mask ⟨f.lo, f.hi - f.lo + 1⟩ else m) 0)

/-- Do `f` only when `c` holds. -/
def State.when (s : State) (c : Bool) (f : State → State) : State := if c then f s else s

/-- Do `f` for every element of a list, in order. -/
def State.each {α : Type} (s : State) (l : List α) (f : State → α → State) : State := l.foldl f s

/-! ### Memory (R97): one byte per address, an unlisted byte reads 0 (DESIGN CHOICE, log entry 8) -/

/-- The byte at an address of targets 1 to 4. -/
def State.byte (s : State) (a : Nat) : Byte := tget s.mem 0 a

/-- The state with one byte replaced. -/
def State.setByte (s : State) (a : Nat) (b : Byte) : State := { s with mem := tset s.mem 0 a b }

/-- `n` bytes from address `a`, lowest address first. -/
def State.bytes (s : State) (a n : Nat) : List Byte := (List.range n).map (fun i => s.byte (a + i))

/-- A list of bytes as table entries from address `a` on, bytes of 0 left out. -/
def cellsFrom (a : Nat) : List Byte → List Host.Cell
  | [] => []
  | b :: bs => if b = 0 then cellsFrom (a + 1) bs else (a, b) :: cellsFrom (a + 1) bs

/-- The state with a list of bytes stored from address `a` on. -/
def State.setBytes (s : State) (a : Nat) (bs : List Byte) : State :=
  { s with mem := s.mem.filter (fun p => decide (p.1 < a)) ++ cellsFrom a bs ++ s.mem.filter (fun p => decide (a + bs.length ≤ p.1)) }

/-- The 32-bit little-endian word at `a` (R5). -/
def State.word (s : State) (a : Nat) : Word := BitVec.ofNat 32 (leNat (s.bytes a 4))

/-- The state with a 32-bit little-endian word stored at `a`. -/
def State.setWord (s : State) (a : Nat) (w : Word) : State := s.setBytes a (leBytes 4 w.toNat)

/-- The state with `n` bytes from `a` on zero. -/
def State.zero (s : State) (a n : Nat) : State := { s with mem := s.mem.filter (fun p => p.1 < a || decide (a + n ≤ p.1)) }

/-- Base addresses of the memory targets; working SRAM's own bytes are kept at 0x1000_0000 whatever SWAP says (R61). -/
def sramBase : Nat := 0x10000000
def folioBase : Nat := 0x20000000
def retentionBase : Nat := 0x30000000
def inventoryBase : Nat := 0x38000000
def sramSize : Nat := 0x80000
def folioSize : Nat := 0x200000
def retentionSize : Nat := 0x18000

/-! ### Life cycle state, islands and their clocks -/

/-- The life cycle states as SUP_STATE.STATE codes them; 0 stands for Dormant (R25). -/
def stDormant : Nat := 0
def stLoading : Nat := 1
def stChecking : Nat := 2
def stArmed : Nat := 3
def stServing : Nat := 4
def stLimp : Nat := 5
def stSafe : Nat := 6

/-- The life cycle state. -/
def State.life (s : State) : Nat := if s.sp.dormant then stDormant else s.fld SUP_STATE SUP_STATE_STATE

/-- The module is in one of the listed life cycle states. -/
def State.inState (s : State) (l : List Nat) : Bool := l.contains s.life

/-- Island `i` is out of reset and clocked (SUP_ISLAND_STAT.RUN). -/
def State.running (s : State) (i : Nat) : Bool := !s.sp.dormant && s.bitAt SUP_ISLAND_STAT i

/-- Island numbers of R10. -/
def islMX : Nat := 0
def islSV (q : Nat) : Nat := 1 + q
def islEH : Nat := 3
def islLD : Nat := 4
def islLP (n : Nat) : Nat := 5 + n
def islPX : Nat := 13
def islTR (p : Nat) : Nat := 14 + p / 32
def islPK (p : Nat) : Nat := 16 + p
def islFM : Nat := 18
def islTM : Nat := 19
def islTW : Nat := 20
def islFC : Nat := 21
def islRT : Nat := 22
def islSP : Nat := 23

/-- Island `i` is enabled by SUP_ISLAND_CFG; the islands of R20 that cannot be disabled always are. -/
def State.enabled (s : State) (i : Nat) : Bool :=
  if 5 ≤ i ∧ i ≤ 12 then s.bitAt SUP_ISLAND_CFG (i - 5)
  else if i = 14 ∨ i = 15 then s.bitAt SUP_ISLAND_CFG (8 + (i - 14))
  else if i = 16 ∨ i = 17 then s.bitAt SUP_ISLAND_CFG (10 + (i - 16))
  else if i = 21 then s.bitAt SUP_ISLAND_CFG 12
  else true

/-- The nominal clock of island `i` in Hz (R10). -/
def islandHz (i : Nat) : Nat :=
  if i = 0 ∨ i = 18 then 333000000
  else if i = 1 ∨ i = 2 then 400000000
  else if i = 3 ∨ i = 19 ∨ i = 21 then 250000000
  else if i = 4 then 200000000
  else if i ≤ 15 then 311040000
  else if i = 16 ∨ i = 17 then 322265625
  else if i = 20 then 195312500
  else 25000000

/-- The nominal period of island `i` in units of 2^-24 ns, to the nearest unit (R102; DESIGN CHOICE, log entry 59). -/
def islandPeriod (i : Nat) : Nat := (2 ^ 24 * 1000000000 + islandHz i / 2) / islandHz i

/-- What the whole cycles of island `i` in `ns` add to its time counter: each advances it by the nominal period (R102). -/
def cyclesTime (i ns : Nat) : Nat := ns * islandHz i / 1000000000 * islandPeriod i / 2 ^ 24

/-- The 64-bit island time counter of island `i`, in ns (R102). SP's runs from power-on, in Dormant too (R40). -/
def State.itcOf (s : State) (i : Nat) : Nat :=
  let c := tget s.itc ⟨0, 0⟩ i
  (if s.bitAt SUP_ISLAND_STAT i || (decide (i = islSP) && s.sp.powered) then c.held + cyclesTime i (s.now - c.since) else c.held) % 2 ^ 64

/-- A fresh free word (DESIGN CHOICE, log entry 5). -/
def State.freeWord (s : State) : Word := Config.freeWord s.free

/-- The state after one free word has been used. -/
def State.useFree (s : State) : State := { s with free := s.free + 1 }

/-! ### Events (R91, R327, R418, R419) -/

/-- Island `isl` raises event `e` with its data words. In Dormant the event hub is held in reset and nothing is raised (R26). -/
def State.raise (s : State) (isl e : Nat) (data : List Word := []) : State :=
  if s.sp.dormant then s
  else { s with
    chan := s.chan ++ [⟨e, isl, s.itcOf isl, data⟩]
    eh := { s.eh with raised := tset s.eh.raised 0 isl (tget s.eh.raised 0 isl + 1) } }

/-- Raise "first in each second" (R419): `unit` tells the ports, flows, units or engines apart. -/
def State.raiseFirst (s : State) (isl e unit : Nat) (data : List Word := []) : State :=
  let sec := s.itcOf isl / 1000000000 + 1
  let key := e * 65536 + unit
  if tget s.firsts 0 key = sec then s
  else ({ s with firsts := tset s.firsts 0 key sec }).raise isl e data

/-- A data word from a number. -/
def w32 (n : Nat) : Word := BitVec.ofNat 32 n

/-- The instance of a register array that an address holds: base, stride and count. -/
def slotOf (a base stride n : Nat) : Option Nat :=
  if base ≤ a ∧ a < base + stride * n ∧ (a - base) % stride = 0 then some ((a - base) / stride) else none

/-! ### Commands of registers of type K (R351) -/

/-- A register whose token equals the stored one makes the write a repeat. -/
def State.tokenIs (s : State) (a : Nat) (f : Fld) (token : Nat) : Bool := decide (s.fld a f = token)

/-! ### Who may write (R410) -/

/-- The management bridge is unlocked (R350). -/
def State.unlocked (s : State) : Bool := decide (s.fld EVT_MGMT_UNLOCK EVT_MGMT_UNLOCK_STATE = 2)

/-- The states in which maintenance has its write rights: Serving, Limp and Safe (R410). -/
def State.maintained (s : State) : Bool := s.inState [stServing, stLimp, stSafe]

/-- Services may write from Armed onwards, while their pair runs. -/
def State.serviceMay (s : State) (q : Nat) : Bool :=
  s.inState [stArmed, stServing, stLimp] && s.running (islSV q)

/-- This module is the Active twin of a pair whose link carries mirror messages (R262, R270, R272, R287). -/
def State.mirroring (s : State) : Bool :=
  s.flag SUP_FIT_CFG SUP_FIT_CFG_PAIRED && decide (s.fld TWN_STAT TWN_STAT_ROLE = 2) && s.flag TWN_STAT TWN_STAT_LINK_UP
    && !s.flag TWN_STAT TWN_STAT_QUAR && !s.flag TWN_STAT TWN_STAT_MISMATCH

/-- A write waits to be mirrored in a class C message; while nothing is mirrored, the snapshot that follows will carry it (R272). -/
def State.mirror (s : State) (a : Nat) (mask value : Word) : State :=
  if s.mirroring then { s with mirrorQ := s.mirrorQ ++ [⟨w32 a, mask, value⟩] } else s

/-- A service's write to an IS register: the bits under `mask` take `value`, and the write is mirrored (R410, R272). -/
def State.serviceWrite (s : State) (a : Nat) (mask value : Word) : State :=
  (s.setReg a ((s.reg a &&& ~~~mask) ||| (value &&& mask))).mirror a mask value

end Sys2Proof.Machine
end

