-- ==== Sys2Proof/Machine/Shape.lean ====
section
/-! DEFINITION. What the image's settings make of paths, slots and Index entries: which paths exist, what an endpoint word names, which
pairs an entry may join and its check value (R11, R145 to R147, R156 to R160, R165). -/

namespace Sys2Proof.Machine

/-! ### Paths and slots (R145 to R147, R165) -/

/-- The path's number h or l. -/
def pathNum : PathId → Nat
  | .ho h => h
  | .lo l => l

/-- The key of a path in `State.paths`. -/
def pathKey : PathId → Nat
  | .ho h => h
  | .lo l => 192 + l

/-- Status word 1 of the path's table entry; both tables share the places of its bits (R166). -/
def pathStatAddr : PathId → Nat
  | .ho h => PATH_HO1 h
  | .lo l => PATH_LO1 l

/-- The slot of a path (R147). -/
def pathSlot : PathId → Nat
  | .ho h => h / 3
  | .lo l => l / 84

/-- Higher-order path `h` lies in an enabled slot whose structure has that position (R145, R147). -/
def State.hoExists (s : State) (h : Nat) : Bool :=
  s.flag (PATH_SLOT_CFG (h / 3)) PATH_SLOT_CFG_EN
    && (decide (h % 3 = 0) || decide (s.fld (PATH_SLOT_CFG (h / 3)) PATH_SLOT_CFG_STRUCT = 1))

/-- Higher-order path `h` is terminated. -/
def State.hoTerm (s : State) (h : Nat) : Bool := s.bitAt (PATH_SLOT_CFG (h / 3)) (10 + h % 3)

/-- Higher-order path `h` is passed through and monitored. -/
def State.hoMon (s : State) (h : Nat) : Bool := !s.hoTerm h && s.bitAt (PATH_SLOT_CFG (h / 3)) (13 + h % 3)

/-- The higher-order path that carries lower-order path `l`. -/
def State.loParent (s : State) (l : Nat) : Nat :=
  3 * (l / 84) + (if s.fld (PATH_SLOT_CFG (l / 84)) PATH_SLOT_CFG_STRUCT = 0 then 0 else l % 84 / 28)

/-- CONTENT of the TUG-3 or AU-3 of lower-order path `l`. -/
def State.loContent (s : State) (l : Nat) : Nat := s.fld (PATH_SLOT_MAP (l / 84)) ⟨9 * (l % 84 / 28), 2⟩

/-- Lower-order path `l` lies in a TUG-2 that carries TU-11 or VT1.5. -/
def State.loTu11 (s : State) (l : Nat) : Bool := s.bitAt (PATH_SLOT_MAP (l / 84)) (9 * (l % 84 / 28) + 2 + l % 28 / 4)

/-- Lower-order path `l` is a TU-3. -/
def State.loTu3 (s : State) (l : Nat) : Bool := decide (s.loContent l = 1)

/-- Lower-order path `l` exists: a terminated position in an enabled slot, with that content (R146). -/
def State.loExists (s : State) (l : Nat) : Bool :=
  let h := s.loParent l
  s.hoExists h && s.hoTerm h
    && (if s.loContent l = 1 then decide (l % 28 = 0)
        else decide (s.loContent l = 2) && (decide (l % 4 ≠ 3) || s.loTu11 l))

/-- The path exists. -/
def State.pathExists (s : State) : PathId → Bool
  | .ho h => s.hoExists h
  | .lo l => s.loExists l

/-- Higher-order path `h` carries TUG-2, so that its multiframe is tracked (R149). -/
def State.hoTug2 (s : State) (h : Nat) : Bool :=
  if s.fld (PATH_SLOT_CFG (h / 3)) PATH_SLOT_CFG_STRUCT = 0 then
    (List.range 3).any (fun k => decide (s.fld (PATH_SLOT_MAP (h / 3)) ⟨9 * k, 2⟩ = 2))
  else decide (s.fld (PATH_SLOT_MAP (h / 3)) ⟨9 * (h % 3), 2⟩ = 2)

/-- The largest pointer value of a path. -/
def State.ptrMax (s : State) : PathId → Nat
  | .ho _ => 782
  | .lo l => if s.loTu3 l then 764 else if s.loTu11 l then 103 else 139

/-- The path is an AU-4 or STS-3c, whose concatenation indication is checked. -/
def State.ptrConcat (s : State) : PathId → Bool
  | .ho h => decide (s.fld (PATH_SLOT_CFG (h / 3)) PATH_SLOT_CFG_STRUCT = 0)
  | .lo _ => false

/-- The lower-order paths that may lie in higher-order path `h`. -/
def State.hoLos (s : State) (h : Nat) : List Nat :=
  if s.fld (PATH_SLOT_CFG (h / 3)) PATH_SLOT_CFG_STRUCT = 0 then (List.range 84).map (fun j => 84 * (h / 3) + j)
  else (List.range 28).map (fun j => 84 * (h / 3) + 28 * (h % 3) + j)

/-! ### Endpoints (R157) -/

/-- The TYPE of an endpoint word. -/
def epType (w : Word) : Nat := IDX_ENTRY_A_TYPE.get w

/-- The slot that binds the port and AUG of a path endpoint, if one is enabled. -/
def State.epSlot (s : State) (w : Word) : Option Nat :=
  (List.range 64).find? fun k =>
    s.flag (PATH_SLOT_CFG k) PATH_SLOT_CFG_EN && decide (s.fld (PATH_SLOT_CFG k) PATH_SLOT_CFG_PORT = w.toNat % 8)
      && decide (s.fld (PATH_SLOT_CFG k) PATH_SLOT_CFG_AUG = w.toNat / 8 % 16)

/-- The path an endpoint word names, where it names one that exists. -/
def State.epPath (s : State) (w : Word) : Option PathId :=
  match s.epSlot w with
  | none => none
  | some k =>
    if epType w = 1 then
      let h := 3 * k + (w.toNat / 128 % 4 - 1)
      if hh : h < 192 then if s.hoExists h then some (.ho ⟨h, hh⟩) else none else none
    else if epType w = 2 then
      let l := 84 * k + 28 * (w.toNat / 128 % 4 - 1) + 4 * (w.toNat / 512 % 8 - 1) + (w.toNat / 4096 % 8 - 1)
      if hl : l < 5376 then if s.loExists l then some (.lo ⟨l, hl⟩) else none else none
    else none

/-! ### Index entries (R11, R156, R158, R159) -/

/-- The word of an Index entry that names endpoint A, B or A′. -/
def State.entryEnds (s : State) (e : Nat) : Kept := ⟨s.reg (IDX_ENTRY_A e), s.reg (IDX_ENTRY_B e), s.reg (IDX_ENTRY_AP e)⟩

/-- SNCP mode of an entry. -/
def State.entrySncp (s : State) (e : Nat) : Nat := s.fld (IDX_ENTRY_W3 e) IDX_ENTRY_W3_SNCP

/-- The entry's check value (R158). -/
def State.entryCheck (s : State) (e : Nat) : Nat :=
  let w3 := (s.reg (IDX_ENTRY_W3 e)).toNat % 65536
  let w3 := w3 - 16 * (w3 / 16 % 8)
  let w (a : Nat) := leBytes 4 (s.reg a).toNat
  crcResult 16 false 0 (crcFeed 16 0x1021 false 0xFFFF
    (leBytes 2 e ++ [0, 0] ++ w (IDX_ENTRY_A e) ++ w (IDX_ENTRY_B e) ++ w (IDX_ENTRY_AP e) ++ leBytes 2 w3))

/-- CHECK of the entry is correct. -/
def State.entryOk (s : State) (e : Nat) : Bool := decide (s.fld (IDX_ENTRY_W3 e) IDX_ENTRY_W3_CHECK = s.entryCheck e)

/-- The endpoint words of all entries, whatever their VALID, that are not 0. -/
def State.endpointWords (s : State) : List Word :=
  s.regs.filterMap fun (a, w) => if 0x40250000 ≤ a ∧ a < 0x40260000 ∧ a % 16 ≠ 12 then some w else none

/-- The entries with VALID at 1, in rising order. -/
def State.validEntries (s : State) : List Nat :=
  s.regs.filterMap fun (a, w) =>
    if 0x40250000 ≤ a ∧ a < 0x40260000 ∧ a % 16 = 12 ∧ w.toNat % 2 = 1 then some ((a - 0x40250000) / 16) else none

/-- The bits an endpoint word of its type may use (R157). -/
def epBits (t : Nat) : Nat :=
  match t with
  | 1 => 0x100001FF
  | 2 => 0x20007FFF
  | 3 => 0x3000003F
  | 4 => 0x400003FF
  | _ => 0

/-- A path endpoint's slot is in SONET mode. -/
def State.epSonet (s : State) (w : Word) : Bool := s.flag (LINE_CFG (w.toNat % 8)) LINE_CFG_SONET

/-- The endpoint word is well formed and what it names exists, of the right kind: pass-through for a higher-order path (R160). -/
def State.epOk (s : State) (w : Word) : Bool :=
  decide (w.toNat &&& epBits (epType w) = w.toNat) &&
  match epType w with
  | 1 => match s.epPath w with
    | some (.ho h) => !s.hoTerm h && decide (w.toNat / 128 % 4 = (if s.ptrConcat (.ho h) then 0 else h.val % 3 + 1))
    | _ => false
  | 2 => match s.epPath w with
    | some (.lo l) =>
      if s.loTu3 l then decide (w.toNat / 512 % 64 = 0 ∧ w.toNat / 128 % 4 ≠ 0)
      else decide (w.toNat / 512 % 8 ≠ 0 ∧ w.toNat / 128 % 4 ≠ 0 ∧ w.toNat / 4096 % 8 ≠ 0 ∧
        w.toNat / 4096 % 8 ≤ (if s.loTu11 l then 4 else 3))
    | _ => false
  | 3 => true
  | 4 => true
  | _ => false

/-- What an endpoint carries, as far as two ends must agree: 0 AU-4, 1 STS-3c, 2 AU-3, 3 STS-1, 4 TU-3, 5 E1, 6 T1, 7 either of the
last two. TU-12 and VT2 carry E1, TU-11 and VT1.5 carry T1. R11 joins paths "of the same structure" and does not say whether TU-12 and VT2
are one structure, or AU-3 and STS-1: the model takes TU-12 with VT2 and TU-11 with VT1.5 as one, and AU-4, STS-3c, AU-3 and STS-1 as four
(DESIGN CHOICE, log entry 123). -/
def State.epCarries (s : State) (w : Word) : Nat :=
  match epType w with
  | 1 => match s.epPath w with
    | some p => 2 * bit (!s.ptrConcat p) + bit (s.epSonet w)
    | none => 8
  | 2 => match s.epPath w with
    | some (.lo l) => if s.loTu3 l then 4 else if s.loTu11 l then 6 else 5
    | _ => 8
  | 3 => 5 + s.fld (TRIB_GRP_CFG (w.toNat % 64 / 8)) TRIB_GRP_CFG_MODE
  | 4 => 7
  | _ => 8

/-- The pair may be joined (R11). -/
def State.pairOk (s : State) (a b : Word) : Bool :=
  let ta := epType a
  let tb := epType b
  let ca := s.epCarries a
  let cb := s.epCarries b
  s.epOk a && s.epOk b &&
    (decide (ta = 1 ∧ tb = 1 ∧ ca = cb) || decide (ta = 2 ∧ tb = 2 ∧ ca = cb)
      || decide (ta = 2 ∧ tb = 3 ∧ ca = cb) || decide (ta = 2 ∧ tb = 4 ∧ (ca = 5 ∨ ca = 6)) || decide (ta = 3 ∧ tb = 4))

/-- The entry's own part of R159: the pair, A′ of the TYPE and structure of A and only with SNCP, SNCP only where A is a path, no endpoint
twice. -/
def State.endsOk (s : State) (k : Kept) (sncp : Nat) : Bool :=
  s.pairOk k.a k.b && decide (sncp ≠ 3) && decide (k.a ≠ k.b) &&
    (if sncp = 0 then decide (k.ap = 0)
     else (decide (epType k.a = 1) || decide (epType k.a = 2)) && decide (epType k.ap = epType k.a) && s.epOk k.ap
      && decide (s.epCarries k.ap = s.epCarries k.a) && decide (k.ap ≠ k.a) && decide (k.ap ≠ k.b))

/-- The endpoints an entry holds. -/
def keptList (k : Kept) : List Word := if epType k.ap = 0 then [k.a, k.b] else [k.a, k.b, k.ap]

end Sys2Proof.Machine
end

