-- ==== Sys2Proof/Machine/Join.lean ====
section
/-! DEFINITION. The joins of the Index in force: the endpoints kept of each entry, its status word, the check made at every use, and what an
endpoint is given (R38, R155, R159, R161, R163). -/

namespace Sys2Proof.Machine

/-! ### An entry and its status -/

/-- What an unlisted entry of `State.kept` reads as. -/
def Kept.none : Kept := ⟨0, 0, 0⟩

/-- The endpoints of entry `e` as kept, all 0 where none are. -/
def State.keptOf (s : State) (e : Nat) : Kept := tget s.kept .none e

/-- A flag of an entry's status word. -/
def State.idx (s : State) (e : Nat) (f : Fld) : Bool := s.flag (IDX_STATUS e) f

/-- The status words that are not 0. -/
def State.statusWords (s : State) : List Word :=
  s.regs.filterMap fun (a, w) => if 0x40260000 ≤ a ∧ a < 0x40264000 then some w else none

/-- IDX_STAT follows the status words. -/
def State.updateIdxStat (s : State) : State :=
  let ws := s.statusWords
  let s := s.setFld IDX_STAT IDX_STAT_ACTIVE (ws.filter (fun w => w.toNat % 2 = 1)).length
  let s := s.setFlag IDX_STAT IDX_STAT_CHECK_FAIL (ws.any (fun w => w.toNat / 2 % 2 = 1))
  s.setFlag IDX_STAT IDX_STAT_CONFLICT (ws.any (fun w => w.toNat / 4 % 2 = 1))

/-- PX raises an event of an entry with its number and status word (R167). -/
def State.idxEvent (s : State) (e n : Nat) : State := s.raise islPX n [w32 e, s.reg (IDX_STATUS e)]

/-- One flag of an entry's status word replaced, IDX_STAT with it. -/
def State.setIdx (s : State) (e : Nat) (f : Fld) (b : Bool) : State := (s.setFlag (IDX_STATUS e) f b).updateIdxStat

/-! ### The check at every use (R161) -/

/-- A check fails: CHECK_FAIL, the join ends, the counters and event 0x350 (R161). -/
def State.checkFails (s : State) (e : Nat) : State :=
  if s.idx e IDX_STATUS_CHECK_FAIL then s
  else
    let s := s.setFlag (IDX_STATUS e) IDX_STATUS_CHECK_FAIL true
    let s := s.setIdx e IDX_STATUS_ACTIVE false
    let s := (s.count IDX_CHECK_CNT).setReg IDX_CHECK_LAST (w32 e)
    s.idxEvent e 0x350

/-- An entry in use is checked: a check that fails acts as at the sweep. -/
def State.checkUse (s : State) (e : Nat) : State := if s.idx e IDX_STATUS_ACTIVE && !s.entryOk e then s.checkFails e else s

/-! ### What an endpoint is given -/

/-- What a sink is given: nothing, AIS, or the signal of another endpoint (R38, R155, R159, R163). -/
inductive Feed where
  | nothing
  | ais
  | signal (from_ : Word)
deriving DecidableEq, Repr

/-- What one kept entry gives the endpoint `w` that it holds: AIS where its check fails, nothing while it is not active, otherwise the other
side. Towards B that is A, or A′ where the selector has chosen it; A′ is bridged only while SNCP is not 0 (R159). -/
def State.entryFeed (s : State) (e : Nat) (k : Kept) (w : Word) : Feed :=
  let sncp := decide (s.entrySncp e ≠ 0)
  if s.idx e IDX_STATUS_CHECK_FAIL then .ais
  else if !s.idx e IDX_STATUS_ACTIVE then .nothing
  else if !s.entryOk e then .ais
  else if w = k.b then .signal (if s.idx e IDX_STATUS_SEL && sncp then k.ap else k.a)
  else if w = k.a ∨ sncp then .signal k.b
  else .nothing

/-- The entry that holds the endpoint `w`, with its kept endpoints. -/
def State.holder (s : State) (w : Word) : Option (Nat × Kept) :=
  s.kept.find? (fun p => p.2.a = w ∨ p.2.b = w ∨ (p.2.ap = w ∧ epType w ≠ 0))

/-- What the endpoint `w` is given by the Index. -/
def State.feed (s : State) (w : Word) : Feed :=
  match s.holder w with
  | some (e, k) => s.entryFeed e k w
  | none => .nothing

/-- The entry that feeds the endpoint `w` is used, and so checked (R161). -/
def State.useFeed (s : State) (w : Word) : State :=
  match s.holder w with
  | some (e, _) => s.checkUse e
  | none => s

end Sys2Proof.Machine
end

