-- ==== Sys2Proof/Machine/Access.lean ====
section
/-! DEFINITION. What a refused or failed access leaves behind, and the guard every command write passes: the writer's rights, then the
island that answers (R99, R350, R410, R413, R416). -/

namespace Sys2Proof.Machine

/-- Response codes of R99. -/
def rOkay : Nat := 0
def rRefused : Nat := 1
def rDecode : Nat := 2
def rMalformed : Nat := 3
def rOffline : Nat := 4
def rGate : Nat := 5
def rTimeout : Nat := 6

/-- The event of an error response; TIMEOUT has none of its own (chapter 04, Events). -/
def responseEvent (code : Nat) : Option Nat :=
  if code = rDecode then some 0x080
  else if code = rRefused then some 0x081
  else if code = rMalformed then some 0x082
  else if code = rOffline then some 0x083
  else if code = rGate then some 0x084
  else none

/-- MTX_ERR_LAST and MTX_ERR_ADDR take an error response, and its event is raised. A GATE record carries the gate number in place of the
address. -/
def State.errorResponse (s : State) (port tgt code id : Nat) (write : Bool) (addr gate : Nat) : State :=
  let s := s.setReg MTX_ERR_LAST (w32 (port + 16 * tgt + 256 * code + 4096 * id + 65536 * bit write))
  let s := { s.setReg MTX_ERR_ADDR (w32 addr) with mtx := { s.mtx with resp := code } }
  match responseEvent code with
  | some e => s.raise islMX e [s.reg MTX_ERR_LAST, if code = rGate then w32 gate else s.reg MTX_ERR_ADDR]
  | none => s

/-- The bridge records an access that was refused or in error: EVT_MGMT_REF, its code, and event 0x47B, first in each second (R350). -/
def State.bridgeError (s : State) (addr code : Nat) (write : Bool) : State :=
  let s := { s.setReg EVT_MGMT_REF (w32 addr) with mtx := { s.mtx with resp := code } }
  let s := s.setReg EVT_MGMT_REF_CODE (w32 (code + 256 * bit write))
  s.raiseFirst islEH 0x47B 0 [s.reg EVT_MGMT_REF, s.reg EVT_MGMT_REF_CODE]

/-- The master port through which a writer reaches the matrix (R94, R95). -/
def writerPort : Writer → Nat
  | .service q => 2 * q.val
  | .maintenance => 7

/-! ### Where an address leads (R61, R97, R408, R416) -/

/-- The target whose region holds an address: 0 to 6, or 7 where no target's region does. -/
def State.target (s : State) (a : Nat) : Nat :=
  let swap := s.flag MTX_REMAP MTX_REMAP_SWAP
  if a < 0x80000 then if swap then 1 else 0
  else if 0x10000000 ≤ a ∧ a < 0x10080000 then if swap then 0 else 1
  else if 0x20000000 ≤ a ∧ a < 0x20200000 then 2
  else if 0x30000000 ≤ a ∧ a < 0x30018000 then 3
  else if 0x38000000 ≤ a ∧ a < 0x38010000 then 4
  else if 0x40000000 ≤ a ∧ a < 0x60000000 then 5
  else if 0x60000000 ≤ a ∧ a < 0x70000000 then 6
  else 7

/-- The island that answers a word of the register target (R416). The shared tables of TRIB, PW and SVC are answered by the
lower-numbered copy that runs; in Safe, where neither SV island runs, SV0 answers. -/
def State.regIsl (s : State) (a : Nat) : Nat :=
  let pk (f : Nat) : Nat := islPK (s.fld (PW_CFG f) PW_CFG_HOME)
  if a < 0x40010000 then islSP
  else if a < 0x40020000 then islLD
  else if a < 0x40030000 then islMX
  else if a < 0x40060000 then islEH
  else if a < 0x40180000 then islLP ((a - 0x40100000) / 0x10000)
  else if a < 0x40280000 then islPX
  else if a < 0x40300100 ∨ (0x40310000 ≤ a ∧ a < 0x40320000) then if s.running 14 then 14 else 15
  else if a < 0x40320000 then islTR ((a - 0x40300100) / 0x40 % 64)
  else if a < 0x40410000 then islPK ((a - 0x40400100) / 0x80 % 2)
  else if a < 0x40430000 then if s.running 16 then 16 else 17
  else if a < 0x40438000 then pk ((a - 0x40430000) / 0x10)
  else if a < 0x40440000 then pk ((a - 0x40438000) / 0x8)
  else if a < 0x40470000 then islFM
  else if a < 0x40530000 then islTM
  else if a < 0x40610000 then islTW
  else if a < 0x40650000 then islPX
  else if a < 0x40740000 then if s.running 1 || !s.running 2 then 1 else 2
  else islFC

/-- The island behind a target (R97). -/
def State.targetIsl (s : State) (tgt a : Nat) : Nat :=
  match tgt with
  | 0 | 1 => islMX
  | 2 => islFM
  | 3 => islRT
  | 4 => islEH
  | 5 => s.regIsl a
  | _ => islLD

/-! ### Transactions in flight (R98, R115) -/

/-- The in-flight entry of a port and an ID. -/
def txnKey (port id : Nat) : Nat := if port = 6 then 96 else if port = 7 then 97 else 16 * port + id

/-- The island of a master port: the pairs, the Lending Desk, the twin mirror engine, the loader or the Inventory reader, the bridge. -/
def State.portIsl (s : State) (port : Nat) : Nat :=
  if port < 4 then islSV (port / 2)
  else if port = 4 then islFM
  else if port = 5 then islTW
  else if port = 6 then if s.inState [stLoading, stChecking] then islLD else islEH
  else islEH

/-- The matrix beside its registers, replaced. -/
def State.setMtx (s : State) (x : Matrix) : State := { s with mtx := x }

/-- The access just made ended in `code`. -/
def State.respond (s : State) (code : Nat) : State := s.setMtx { s.mtx with resp := code }

/-- The transaction at key `k` replaced. -/
def State.setTxn (s : State) (k : Nat) (t : Txn) : State :=
  s.setMtx { s.mtx with txns := tinsert (terase s.mtx.txns k) k t }

/-- Arbitration classes of R94. -/
def portClass (port : Nat) : Nat := if port < 4 then 1 else if port < 6 then 0 else if port = 6 then 2 else 3

/-- The pointer of a target and class moves past the master granted (R94). -/
def State.movePointer (s : State) (tgt port : Nat) : State :=
  let c := portClass port
  if 1 < c then s
  else
    let l := s.mtx.pointers ++ List.replicate (16 - s.mtx.pointers.length) 7
    s.setMtx { s.mtx with pointers := l.set (2 * tgt + c) port }

/-- A granted request enters the in-flight table, and its L2 starts (R100, R113). -/
def State.accept (s : State) (r : Req) : State :=
  let k := txnKey r.port r.id
  let t : Txn := ⟨r, s.target r.addr.toNat, s.now, [], [], 0, false, s.mtx.nextTag⟩
  (s.setTxn k t).setMtx { (s.setTxn k t).mtx with nextTag := s.mtx.nextTag + 1 }

/-- Entry `k` is released, and a request held at its port for that ID is granted and accepted (R113). -/
def State.release (s : State) (k : Nat) : State :=
  let s := s.setMtx { s.mtx with txns := terase s.mtx.txns k }
  match s.mtx.held.find? (fun r => decide (txnKey r.port r.id = k)) with
  | none => s
  | some r => ((s.setMtx { s.mtx with held := s.mtx.held.erase r }).movePointer (s.target r.addr.toNat) r.port).accept r

/-- The error with which entry `t` ends when the matrix answers every beat not yet answered with `code` (R99). OFFLINE and GATE say that no
byte of a write beat was written, so a write beat that has taken effect keeps its own code. The first error of a transaction alone counts, and
OKAY stands for none left (log entry 113). -/
def Txn.endCode (t : Txn) (code : Nat) : Nat :=
  let own := if t.req.write && decide (code ≠ rTimeout) then t.codes.drop t.answered else []
  let rest := if t.req.write && decide (code ≠ rTimeout) && decide (t.req.beats ≤ t.codes.length) then [] else [code]
  if (t.codes.take t.answered).any (fun c => decide (c ≠ rOkay)) then rOkay
  else ((own ++ rest).find? (fun c => decide (c ≠ rOkay))).getD rOkay

/-- Every beat of entry `k` not yet answered is answered with `code`, and its ID is released. -/
def State.endTxn (s : State) (k code gate : Nat) : State :=
  match s.mtx.txns.find? (fun p => p.1 = k) with
  | none => s
  | some (_, t) =>
    let s := s.release k
    let c := t.endCode code
    if t.orphan || decide (c = rOkay) then s
    else
      let s := s.errorResponse t.req.port.val t.target c t.req.id.val t.req.write t.req.addr.toNat gate
      if t.req.port = 7 then s.bridgeError t.req.addr.toNat c t.req.write else s

/-- Transactions under way at an island that goes offline are answered OFFLINE; beats already written stay written (chapter 04, Corners). -/
def State.offlineTxns (s : State) (l : List Nat) : State :=
  s.each ((s.mtx.txns.filter (fun p => l.contains (s.targetIsl p.2.target p.2.req.addr.toNat))).map (fun p => p.1))
    (fun s k => s.endTxn k rOffline 0)

/-- A transaction whose master was reset (R112): its target still sees the whole burst, with no strobe on the beats not yet supplied. How many
a master has supplied no command carries: those that have taken effect, and of the others as many as free word `w` says (DESIGN CHOICE, log
entry 114). -/
def Txn.orphaned (t : Txn) (w : Word) : Txn :=
  let n := t.codes.length + w.toNat % (t.req.beats - t.codes.length + 1)
  { t with orphan := true, req := { t.req with strobes := t.req.strobes.take n ++ List.replicate (t.req.strobes.length - n) 0 } }

/-- A port is reset: a request not yet accepted is dropped, its live transactions become orphans, and event 0x085 tells how many there are
(R112). -/
def State.resetPort (s : State) (port : Nat) : State :=
  let s := s.setMtx { s.mtx with held := s.mtx.held.filter (fun r => decide (r.port.val ≠ port)) }
  let l := s.mtx.txns.filter (fun p => decide (p.2.req.port.val = port) && !p.2.orphan)
  if l = [] then s
  else
    let s := s.each l (fun s p => (s.setTxn p.1 (p.2.orphaned s.freeWord)).useFree)
    s.raise islMX 0x085 [w32 port, w32 l.length]

/-- The ports of the listed islands are reset (R112). -/
def State.resetPorts (s : State) (l : List Nat) : State :=
  s.each ((List.range 8).filter (fun p => l.contains (s.portIsl p))) State.resetPort

/-- An access through `port` has ended: an error response is recorded by the matrix, and for maintenance by the bridge as well (R99,
R350). With MX in reset the master's own gate answers OFFLINE, and the matrix records nothing (R92). -/
def State.logAccess (s : State) (port id : Nat) (write : Bool) (addr : Nat) : State :=
  let code := s.mtx.resp
  if code = rOkay then s
  else
    let s := if s.running islMX then s.errorResponse port (s.target addr) code id write addr 0 else s
    if port = 7 then s.bridgeError addr code write else s

/-- The ID of a register access by a writer: a pair's cores issue target 5's number (R297). -/
def writerId : Writer → Nat
  | .service _ => 5
  | .maintenance => 0

/-- A permitted writer's write to a command register at `addr`, answered by island `isl`. -/
def State.judgedWrite (s : State) (w : Writer) (ok : Bool) (isl addr : Nat) (f : State → State) : State :=
  let s := s.respond rOkay
  let s := if !s.running islMX || !s.running isl then s.respond rOffline
    else if ok then f (s.movePointer 5 (writerPort w))
    else (s.movePointer 5 (writerPort w)).respond rRefused
  s.logAccess (writerPort w) (writerId w) true addr

/-- A write by `w` to a command register at `addr`, answered by island `isl`, that services (`svc`) and maintenance (`mnt`) may or may not
write: `f` where it is permitted, otherwise REFUSED or OFFLINE. A locked bridge refuses in itself, without the matrix (R350). -/
def State.commandWrite (s : State) (w : Writer) (svc mnt : Bool) (isl addr : Nat) (f : State → State) : State :=
  match w with
  | .service q => if s.serviceMay q then s.judgedWrite w svc isl addr f else s
  | .maintenance =>
    if !s.running islEH then s
    else if !s.unlocked then s.bridgeError addr rRefused true
    else s.judgedWrite w (mnt && s.maintained) isl addr f

end Sys2Proof.Machine
end

