-- ==== Sys2Proof/Machine/Life.lean ====
section
/-! DEFINITION. The life cycle of the module (R14 to R16), its islands and gates (R90 to R92), the output enables and the
squelch gate (R29, R35), the role machine of a pair (R257 to R263), entry to Limp and Safe (R15, R46, R48) and the escalation windows of the timeout ladder (R42, R45). -/

namespace Sys2Proof.Machine

/-! ### Gates (R90) -/

/-- The lower- and higher-numbered island a gate joins. -/
def gateEnds (g : Nat) : Nat × Nat :=
  if g < 23 then (0, g + 1)
  else if g < 31 then (5 + (g - 23), 13)
  else if g < 33 then (13, 14 + (g - 31))
  else if g < 35 then (13, 16 + (g - 33))
  else if g < 37 then (16 + (g - 35), 18)
  else if g < 39 then (16 + (g - 37), 19)
  else if g < 47 then (5 + (g - 39), 19)
  else if g = 47 then (19, 20)
  else if g = 48 then (13, 20)
  else if g = 49 then (18, 20)
  else if g = 50 then (20, 23)
  else if g < 53 then (14 + (g - 51), 21)
  else if g = 53 then (19, 23)
  else if g = 54 then (3, 22)
  else if g = 55 then (22, 23)
  else if g = 56 then (3, 23)
  else if g = 57 then (19, 21)
  else if g < 60 then (14 + (g - 58), 19)
  else (1, 2)

/-- The gate joining MX to island `i` (1 to 23). -/
def mxGate (i : Nat) : Nat := i - 1

/-- One gate brought in line with its two islands: a side is offline while its island is in reset or disabled, a gate that comes
back is idle, and a change raises event 0x088 (R92). -/
def State.syncGate (s : State) (g : Nat) : State :=
  let lo := !s.running (gateEnds g).1
  let hi := !s.running (gateEnds g).2
  let a := MTX_GATE_STAT g
  if s.flag a MTX_GATE_STAT_OFFLINE_LO = lo ∧ s.flag a MTX_GATE_STAT_OFFLINE_HI = hi then s
  else
    let s := (s.setFlag a MTX_GATE_STAT_OFFLINE_LO lo).setFlag a MTX_GATE_STAT_OFFLINE_HI hi
    let s := s.setFld a MTX_GATE_STAT_PHASE 0
    s.raise islMX 0x088 [w32 g, s.reg a]

/-- Every gate brought in line with the running islands. -/
def State.syncGates (s : State) : State := s.each (List.range 61) State.syncGate

/-- Island `i` starts or stops being clocked: its RUN bit, and its time counter, which starts from 0 (R102). SP is reset at power-on alone,
so its counter goes on over a start (R40). -/
def State.clockIsland (s : State) (b : Bool) (i : Nat) : State :=
  let held := if b then 0 else s.itcOf i
  let s := if i = islSP then s else { s with itc := tset s.itc ⟨0, 0⟩ i ⟨held, s.now⟩ }
  s.setBitAt SUP_ISLAND_STAT i b

/-- The islands whose gates an event of island `i` passes on its way to EH (R91, R327). -/
def eventPath (i : Nat) : List Nat :=
  if i = islEH then [islEH] else if i = islMX ∨ i = islRT ∨ i = islSP then [i, islEH] else [i, islMX, islEH]

/-- The words of island `i` that its event channel holds, oldest first: at most 4 (R89). Those it has raised beyond them wait in the island. -/
def State.inFlight (s : State) (i : Nat) : List Ev := (s.chan.filter (fun e => decide (e.isl = i))).take 4

/-- The gates of the listed islands are offline: an event on its way over one is lost, a marker still on its way to one of them is not
placed, a write that one of them might still carry out is not (R92, R99), and the islands take no part in the running fence (R107). Which of its
gates an event has passed already no command shows: every event of an island that stops is lost, and its count of raised events starts again
with EH's count of it (DESIGN CHOICE, log entry 115). -/
def State.clearGates (s : State) (l : List Nat) : State :=
  let away (i : Nat) : Bool := !l.contains i
  { s with
    chan := s.chan.filter (fun e => (eventPath e.isl).all away)
    eh := { s.eh with raised := l.foldl (fun t i => tset t 0 i (tget s.eh.accepted 0 i)) s.eh.raised }
    mtx := { s.mtx with
      late := s.mtx.late.filter (fun p => away p.2)
      lateWrites := s.mtx.lateWrites.filter (fun t => away (s.targetIsl t.target t.req.addr.toNat))
      fence := s.mtx.fence.map (fun f => { f with waitFor := f.waitFor.filter away, unmarked := f.unmarked.filter away }) } }

/-- The listed islands leave reset or go out of service: RUN bits, clocks, event 0x009 where a bit changed, gates, and the transactions to
and from an island that stops (R26, R92, R112). -/
def State.setIslands (s : State) (l : List Nat) (b : Bool) : State :=
  let l := l.filter (fun i => s.bitAt SUP_ISLAND_STAT i != b)
  if l = [] then s
  else
    let s := s.each l (fun s i => s.clockIsland b i)
    let s := (s.raise islSP 0x009 [s.reg SUP_STATE]).syncGates
    if b then s else ((s.clearGates l).offlineTxns l).resetPorts l

/-! ### Output enables and squelch (R29, R35) -/

/-- The shared outputs are driven at the pads: SP enables them and the pad ring sees the keep-alive toggle (R31). -/
def State.sharedDriven (s : State) : Bool := s.flag SUP_SAFETY_STAT SUP_SAFETY_STAT_SHARED_EN && s.sp.keepalive

/-- Each enabled port of a running TR island drives its transmit pair exactly while the shared outputs are driven (R29, R189). -/
def State.updateDriven (s : State) : State :=
  s.each (List.range 64) fun s p =>
    if s.running (islTR p) then s.setFlag (TRIB_STAT p) TRIB_STAT_DRIVEN (s.flag (TRIB_CFG p) TRIB_CFG_EN && s.sharedDriven) else s

/-- SP drives the shared pads only with both keys, in Serving or Limp, and while the second gate is closed (R29, R30). -/
def State.updatePads (s : State) : State :=
  (s.setFlag SUP_SAFETY_STAT SUP_SAFETY_STAT_SHARED_EN
    (s.flag SUP_SAFETY_STAT SUP_SAFETY_STAT_CLAIM_OUT && s.flag SUP_SAFETY_STAT SUP_SAFETY_STAT_KEY2
      && s.inState [stServing, stLimp] && !s.sp.secondGate)).updateDriven

/-- The timing outputs are driven: the shared enable and an open squelch gate (R29). -/
def State.timingDriven (s : State) : Bool := s.sharedDriven && !s.flag SUP_SAFETY_STAT SUP_SAFETY_STAT_SQUELCH

/-- The squelch gate closes, with event 0x012 where it was open (R35). -/
def State.squelchClose (s : State) : State :=
  if s.flag SUP_SAFETY_STAT SUP_SAFETY_STAT_SQUELCH then s
  else (s.setFlag SUP_SAFETY_STAT SUP_SAFETY_STAT_SQUELCH true).raise islSP 0x012

/-- Line port `n` asserts its own TX_DISABLE drive: disabled, outside Serving and Limp, MOD_ABS settling, or Laser off (R116, R16). -/
def State.updateLaser (s : State) (n : Nat) : State :=
  s.setFlag (LINE_STAT n) LINE_STAT_TXDIS
    (!s.flag (LINE_CFG n) LINE_CFG_EN || !s.inState [stServing, stLimp] || (tget s.lines .init n).settling
      || decide (s.fld (LINE_FRM_STAT n) LINE_FRM_STAT_ALS = 1))

/-- The TX_DISABLE ball of port `n` is asserted: by the line port, by SP, or by the pad ring without the keep-alive toggle (R31, R36). -/
def State.laserOff (s : State) (n : Nat) : Bool :=
  s.flag (LINE_STAT n) LINE_STAT_TXDIS || s.bitAt SUP_SAFETY_STAT (8 + n) || !s.sp.keepalive

/-- CLAIM_OUT is driven high or low, with event 0x421 or 0x422 where it changes, and the pad enables follow. -/
def State.driveClaim (s : State) (b : Bool) : State :=
  let was := s.flag SUP_SAFETY_STAT SUP_SAFETY_STAT_CLAIM_OUT
  let s := (s.setFlag SUP_SAFETY_STAT SUP_SAFETY_STAT_CLAIM_OUT b).updatePads
  if was = b then s else s.raise islSP (if b then 0x421 else 0x422)

/-! ### Roles of a pair (R257 to R263, R271, R276, R287, R289) -/

/-- Roles as TWN_STAT codes them. -/
def roObserver : Nat := 0
def roStandby : Nat := 1
def roActive : Nat := 2

/-- PAIRED. -/
def State.paired (s : State) : Bool := s.flag SUP_FIT_CFG SUP_FIT_CFG_PAIRED

/-- This twin is the senior. -/
def State.senior (s : State) : Bool := s.flag SUP_STATE SUP_STATE_SENIOR

/-- A bit of TWN_STAT. -/
def State.twn (s : State) (f : Fld) : Bool := s.flag TWN_STAT f

/-- This twin's role. -/
def State.role (s : State) : Nat := s.fld TWN_STAT TWN_STAT_ROLE

/-- The Standby twin's protection services compute but do not write: they take the Active twin's decisions (R274). -/
def State.computesOnly (s : State) : Bool := s.paired && decide (s.role = roStandby)

/-- TW beside its registers, replaced. -/
def State.setTw (s : State) (x : Twin) : State := { s with tw := x }

/-- The module carries traffic: Serving or Limp. -/
def State.live (s : State) : Bool := s.inState [stServing, stLimp]

/-- READY (R260): an enabled line port counts while it has dLOS, or has dLOF clear and 3 ms in frame behind it. -/
def State.isReady (s : State) : Bool :=
  s.live && (List.range 8).all fun n =>
    !s.flag (LINE_CFG n) LINE_CFG_EN || s.flag (LINE_STAT n) LINE_STAT_LOS
      || (!s.flag (LINE_STAT n) LINE_STAT_LOF && (tget s.lines .init n).synced)

/-- SF against this twin (R259). -/
def State.selfSf (s : State) : Bool := !s.live || decide (s.sp.powerFail ≠ .idle) || !s.twn TWN_STAT_READY

/-- SD against this twin (R259). -/
def State.selfSd (s : State) : Bool := decide (s.life = stLimp) || s.tw.sd

/-- The link is up and not quarantined. -/
def State.linkOk (s : State) : Bool := s.twn TWN_STAT_LINK_UP && !s.twn TWN_STAT_QUAR

/-- The standing equipment command: CMD while RESULT says it is in force, 0 none. -/
def State.twnStanding (s : State) : Nat := if s.fld TWN_CMD TWN_CMD_RESULT = 1 then s.fld TWN_CMD TWN_CMD_CMD else 0

/-- The order number of a TWN_CMD command (R258): LO 1, FS 2, MS-J 7, MS-S 8. -/
def twnOrder (cmd : Nat) : Nat :=
  match cmd with
  | 1 => 1 | 2 => 2 | 3 => 7 | 4 => 8 | _ => 10

/-- The order number of a tie-class symbol sent by the senior or the junior: 4 LO, 3 FS, 2 SF. -/
def symOrder (sym : Nat) (senior : Bool) : Nat :=
  match sym with
  | 4 => 1
  | 3 => 2
  | 2 => if senior then 4 else 3
  | _ => 10

/-- The accepted tie symbol, 0 where there is none or PAIRED is 0. -/
def State.tieSymbol (s : State) : Nat := if s.paired && s.twn TWN_STAT_TIE_OK then s.fld TWN_TIE_STAT TWN_TIE_STAT_RX else 0

/-- The twin's requests by order number (R271): LO, FS and SF from either channel, the others from the link only. -/
def State.twinOrders (s : State) : List Nat :=
  (symOrder s.tieSymbol (!s.senior) :: (if s.linkOk then [symOrder s.tw.sym (!s.senior), s.tw.req] else [])).filter
    (fun o => decide (1 ≤ o ∧ o ≤ 9))

/-- This twin's own requests by order number, its standing command left out. -/
def State.ownOrders (s : State) : List Nat :=
  (if s.selfSf then [if s.senior then 4 else 3] else []) ++ (if s.selfSd then [if s.senior then 6 else 5] else [])
    ++ (if s.twn TWN_STAT_WTR then [9] else [])

/-- A role change: event 0x420 with the old and new roles, and CLAIM_OUT raised or lowered with it (R257, R261). -/
def State.roleTo (s : State) (r : Nat) : State :=
  if s.role = r then s
  else
    let old := s.role
    let s := (s.setFld TWN_STAT TWN_STAT_ROLE r).raise 20 0x420 [w32 old, w32 r]
    s.driveClaim (decide (r = roActive))

/-- HITLESS (R276), with event 0x42A or 0x42B. -/
def State.updateHitless (s : State) : State :=
  let h := s.linkOk && s.flag TWN_SYNC_STAT TWN_SYNC_STAT_CAL_OK && s.flag TWN_SYNC_STAT TWN_SYNC_STAT_SYNC_A
    && s.flag TWN_SYNC_STAT TWN_SYNC_STAT_SYNC_B && s.flag TWN_SYNC_STAT TWN_SYNC_STAT_SYNC_C
  if s.twn TWN_STAT_HITLESS = h then s
  else (s.setFlag TWN_STAT TWN_STAT_HITLESS h).raise 20 (if h then 0x42A else 0x42B) [s.reg TWN_STAT]

/-- SILENT (R279), evaluated from Armed onwards; SOLO ends with contact. -/
def State.updateSilent (s : State) : State :=
  let now := s.inState [stArmed, stServing, stLimp, stSafe] && !s.twn TWN_STAT_LINK_UP && !s.twn TWN_STAT_TIE_OK
  let s := if now && !s.twn TWN_STAT_SILENT then s.setTw { s.tw with silentAt := s.now } else s
  let s := s.setFlag TWN_STAT TWN_STAT_SILENT now
  if now then s else s.setFlag TWN_STAT TWN_STAT_SOLO false

/-- Equipment WTR (R287): it starts where SF or SD against the senior clears while the junior is Active and EQ_REVERT is 1, and a request
of higher order ends it. -/
def State.updateEqWtr (s : State) : State :=
  let tw := s.twinOrders
  let fault := if s.senior then s.selfSf || s.selfSd else tw.contains 4 || tw.contains 6
  let juniorActive := if s.senior then decide (s.fld TWN_STAT TWN_STAT_TWIN_ROLE = roActive) else decide (s.role = roActive)
  let start := s.tw.seniorFault && !fault && juniorActive && s.flag TWN_CFG TWN_CFG_EQ_REVERT && !s.twn TWN_STAT_WTR
  let s := s.setTw { s.tw with seniorFault := fault }
  let s := if start then
      let n := s.fld TWN_CFG TWN_CFG_EQ_WTR_S
      ((s.setTw { s.tw with wtrEnd := s.now + 1000000000 * n }).setFlag TWN_STAT TWN_STAT_WTR true).raise 20 0x43C [w32 n]
    else s
  if s.twn TWN_STAT_WTR && (s.ownOrders ++ s.twinOrders ++ [twnOrder s.twnStanding]).any (fun o => decide (o < 9)) then
    s.setFlag TWN_STAT TWN_STAT_WTR false
  else s

/-- A standing command that a higher request overrides, or an MS whose link has gone, is cleared with RESULT 0x03 (R271, R289). -/
def State.dropCommand (s : State) : State :=
  let o := twnOrder s.twnStanding
  if o < 10 ∧ ((s.ownOrders ++ s.twinOrders).any (fun x => decide (x < o)) ∨ (6 < o ∧ !s.linkOk)) then
    s.setFld TWN_CMD TWN_CMD_RESULT 0x03
  else s

/-- The highest request of both twins, 10 where there is none (R258). -/
def State.ruling (s : State) : Nat := (s.ownOrders ++ s.twinOrders).foldl min (twnOrder s.twnStanding)

/-- Whether the ruling selects the junior: by the request's own column, and with none the senior where EQ_REVERT is 1, otherwise the
equipment already selected. -/
def State.selectsJunior (s : State) (order : Nat) : Bool :=
  if order = 10 then
    if s.flag TWN_CFG TWN_CFG_EQ_REVERT then false
    else if s.role = roActive then !s.senior
    else if s.linkOk ∧ s.fld TWN_STAT TWN_STAT_TWIN_ROLE = roActive then s.senior
    else s.twn TWN_STAT_EQ_SEL
  else decide (order = 2 ∨ order = 4 ∨ order = 6 ∨ order = 7 ∨ order = 9)

/-- A signalled switch is done: TWN_EQ_SWITCH_CNT, and event 0x42C with EQ_REQ and the sequence, 0 commanded and 1 signalled. -/
def State.switchDone (s : State) (kind : Nat) : State :=
  (s.count TWN_EQ_SWITCH_CNT).raise 20 0x42C [w32 (s.fld TWN_STAT TWN_STAT_EQ_REQ), w32 kind]

/-- A commanded switch under way is given up where HITLESS falls before the claims have been exchanged (R277). -/
def State.dropHandover (s : State) : State :=
  if s.tw.handover.isSome && !s.twn TWN_STAT_HITLESS
      && (s.flag SUP_SAFETY_STAT SUP_SAFETY_STAT_CLAIM_OUT == decide (s.role = roActive)) then
    s.setTw { s.tw with handover := none }
  else s

/-- What the ruling makes of the role (R261, R262, R277, R278): a switch with HITLESS at 1 that R277 runs as a commanded one is left to
its own steps, and a revert waits for HITLESS. -/
def State.moveRole (s : State) : State :=
  let order := s.fld TWN_STAT TWN_STAT_EQ_REQ
  let me := s.twn TWN_STAT_EQ_SEL != s.senior
  let movable := s.linkOk || decide (order ≤ 4)
  let waits := decide (order = 10) && !s.twn TWN_STAT_HITLESS
    || s.twn TWN_STAT_HITLESS && (decide (order = 2) || decide (order = 7) || decide (order = 8) || decide (order = 10))
    || s.tw.handover.isSome
  let twinSf := decide (s.tieSymbol = 2) || s.twinOrders.contains (if s.senior then 3 else 4)
  let twinActive := decide (s.fld TWN_STAT TWN_STAT_TWIN_ROLE = roActive) && !twinSf
  let twinIdle := twinSf || (s.linkOk && decide (s.fld TWN_STAT TWN_STAT_TWIN_ROLE ≠ roActive))
  if s.selfSf then (s.setTw { s.tw with handover := none }).roleTo roObserver
  else if s.twn TWN_STAT_MISMATCH then s
  else if s.role = roObserver then
    if s.linkOk && twinActive && s.flag TWN_SYNC_STAT TWN_SYNC_STAT_SYNC_A && s.flag TWN_SYNC_STAT TWN_SYNC_STAT_SYNC_B
        && s.flag TWN_SYNC_STAT TWN_SYNC_STAT_SYNC_C then s.roleTo roStandby
    else if twinIdle && movable && me then s.roleTo roActive
    else s
  else if s.role = roStandby then
    if me && movable && !waits then (s.roleTo roActive).switchDone 1 else s
  else if !me && movable && !waits && !s.twn TWN_STAT_SILENT then (s.roleTo roStandby).switchDone 1
  else s

/-- The role machine judged on what now stands. Unpaired, the module is Active while it carries traffic (R263). -/
def State.roleEval (s : State) : State :=
  if s.sp.dormant || !s.running 20 then s
  else if !s.paired then (s.setFlag TWN_STAT TWN_STAT_READY s.isReady).roleTo (if s.live then roActive else roObserver)
  else
    let s := s.setFlag TWN_STAT TWN_STAT_READY s.isReady
    let s := ((s.updateHitless).updateSilent).updateEqWtr
    let s := s.dropCommand
    let order := s.ruling
    let s := s.setFlag TWN_STAT TWN_STAT_EQ_SEL (s.selectsJunior order)
    let s := s.setFld TWN_STAT TWN_STAT_EQ_REQ order
    s.dropHandover.moveRole

/-! ### Transitions (R14, R25, R26) -/

/-- The module enters life cycle state `st`: PREV, STATE and ENTRY_CAUSE, and event `st` with SUP_STATE and `extra`. -/
def State.enter (s : State) (st cause : Nat) (extra : List Word := []) : State :=
  let prev := s.life
  let s := { s with sp := { s.sp with dormant := false } }
  let s := s.setFld SUP_STATE SUP_STATE_PREV prev
  let s := s.setFld SUP_STATE SUP_STATE_STATE st
  let s := s.setFld SUP_STATE SUP_STATE_ENTRY_CAUSE cause
  let s := ((s.raise islSP st (s.reg SUP_STATE :: extra)).updatePads).each (List.range 8) State.updateLaser
  let s := if st = stServing ∧ prev = stArmed then
      s.setTw { s.tw with servedAt := s.now, known := s.twn TWN_STAT_LINK_UP || s.twn TWN_STAT_TIE_OK }
    else s
  s.roleEval

/-- The bridge locks for `reason`, with event 0x479 where it was unlocked (R350). -/
def State.lockBridge (s : State) (reason : Nat) : State :=
  let st := s.fld EVT_MGMT_UNLOCK EVT_MGMT_UNLOCK_STATE
  if st = 2 then (s.setFld EVT_MGMT_UNLOCK EVT_MGMT_UNLOCK_STATE 0).raise islEH 0x479 [w32 reason]
  else if st = 1 then s.setFld EVT_MGMT_UNLOCK EVT_MGMT_UNLOCK_STATE 0
  else s

/-- The hold of R47 in ms for the SAFE_COUNT that stands. -/
def State.safeHold (s : State) : Nat :=
  let h := s.fld SUP_SAFE_CFG SUP_SAFE_CFG_HOLD_MS
  let k := s.fld SUP_TO_STAT SUP_TO_STAT_SAFE_COUNT
  min (h * 2 ^ min (k - 1) (s.fld SUP_SAFE_CFG SUP_SAFE_CFG_BACKOFF_MAX)) 3600000

/-- SP asserts every TX_DISABLE ball (R36, R46). -/
def State.lasersOff (s : State) : State :=
  s.setFld SUP_SAFETY_STAT SUP_SAFETY_STAT_SP_ALS 0xFF

/-- The islands Safe stops: all but MX, EH, RT and SP (R46). -/
def safeStops : List Nat := (List.range 24).filter (fun i => !([0, 3, 22, 23].contains i))

/-- What R46 does to the outputs: shared outputs high-impedance, lasers off, squelch closed. -/
def State.outputsOff (s : State) : State :=
  (((s.setFlag SUP_SAFETY_STAT SUP_SAFETY_STAT_SHARED_EN false).updateDriven).lasersOff).squelchClose

/-- Whether a cause that comes now falls in the cycle in which Limp or Safe was entered. True time does not tell two cycles of one frame
apart, so a free bit decides where no time has passed (DESIGN CHOICE, log entry 101). -/
def State.sameCycle (s : State) : Bool := decide (s.sp.entryAt = some s.now) && s.freeWord.getLsbD 0

/-- The moment of an entry into Limp or Safe. -/
def State.markEntry (s : State) : State := { s with sp := { s.sp with entryAt := some s.now } }

/-- Causes of one cycle (R22, R25): ENTRY_CAUSE keeps the lowest code, and the record of the further cause, event `e`, carries SUP_STATE with
the code of that cause (log entry 101). -/
def State.mergeCause (s : State) (e cause : Nat) : State :=
  let s := s.raise islSP e [SUP_STATE_ENTRY_CAUSE.put (s.reg SUP_STATE) cause]
  s.setFld SUP_STATE SUP_STATE_ENTRY_CAUSE (min cause (s.fld SUP_STATE SUP_STATE_ENTRY_CAUSE))

/-- The module enters Safe from `prev` with `cause`: the claim dropped, SAFE_COUNT and the hold, the outputs off, the bridge locked, the NVM
window closed, and every island but EH, MX, RT and SP stopped (R13, R16, R46, R48). -/
def State.enterSafe (s : State) (prev cause : Nat) : State :=
  let s := s.driveClaim false
  let s := s.setFld SUP_TO_STAT SUP_TO_STAT_SAFE_COUNT (min 255 (s.fld SUP_TO_STAT SUP_TO_STAT_SAFE_COUNT + 1))
  let s := (s.setFld SUP_STATE SUP_STATE_STATE prev).enter stSafe cause
  let s := { s with sp := { s.sp with holdMs := s.safeHold, l7Run := false }, ld := { s.ld with running := false, timed := false } }
  let s := (s.outputsOff.setFlag NVM_STAT NVM_STAT_WINDOW false).markEntry
  let s := s.lockBridge 2
  s.setIslands safeStops false

/-- A Safe-class fault (R14, R22): from every state but Dormant and Safe the module enters Safe with `cause`. Where Limp was entered in the
same cycle Safe prevails, and PREV is the state before that cycle. In Safe a cause of the cycle of the entry joins it, and a later one changes
nothing (log entry 25). -/
def State.safeEntry (s : State) (cause : Nat) : State :=
  if s.life = stDormant then s
  else if s.life = stSafe then
    if s.sp.entryAt = some s.now then if s.sameCycle then (s.mergeCause 0x006 cause).useFree else s.useFree else s
  else if s.life = stLimp ∧ s.sp.entryAt = some s.now then
    if s.sameCycle then s.useFree.enterSafe stServing cause else s.useFree.enterSafe stLimp cause
  else s.enterSafe s.life cause

/-- A Limp-class fault with its bit of LIMP_CAUSES and its cause code (R14, R15, R25): from Serving with LIMP_EN at 1 the module
enters Limp, in Limp a new bit raises 0x007 and a cause of the cycle of the entry may lower ENTRY_CAUSE, and anywhere else the module enters
Safe with cause 0x25. -/
def State.limpFault (s : State) (b code : Nat) : State :=
  let was := s.bitAt SUP_STATE (16 + b)
  let s := if s.sp.dormant then s else s.setBitAt SUP_STATE (16 + b) true
  if s.life = stLimp then
    if was then s
    else if s.sp.entryAt = some s.now then
      if s.sameCycle then (s.mergeCause 0x007 code).useFree else (s.raise islSP 0x007 [s.reg SUP_STATE]).useFree
    else s.raise islSP 0x007 [s.reg SUP_STATE]
  else if s.life = stServing ∧ s.flag SUP_FIT_CFG SUP_FIT_CFG_LIMP_EN then (s.enter stLimp code).markEntry
  else s.safeEntry 0x25

/-- A Limp cause clears: event 0x007 in Limp, and back to Serving once LIMP_CAUSES reads 0 (R14). -/
def State.limpClear (s : State) (b : Nat) : State :=
  if s.bitAt SUP_STATE (16 + b) then
    let s := s.setBitAt SUP_STATE (16 + b) false
    if s.life = stLimp then
      let s := s.raise islSP 0x007 [s.reg SUP_STATE]
      if s.fld SUP_STATE SUP_STATE_LIMP_CAUSES = 0 then s.enter stServing 0x02 else s
    else s
  else s

/-! ### The timeout ladder (R42, R45) -/

/-- A firing of level `lvl` at `source`: SUP_TO_CNT, SUP_TO_STAT and event 0x030 + (lvl − 1), which names SP. -/
def State.ladder (s : State) (lvl source : Nat) : State :=
  let s := s.count (SUP_TO_CNT (lvl - 1))
  let s := s.setFld SUP_TO_STAT SUP_TO_STAT_LEVEL lvl
  let s := s.setFld SUP_TO_STAT SUP_TO_STAT_SOURCE source
  s.raise islSP (0x030 + (lvl - 1)) [s.reg SUP_TO_STAT]

/-- The key of the escalation window of level `lvl` at `source`. -/
def winKey (lvl source : Nat) : Nat := lvl * 4096 + source

/-- The firings in the window of `lvl` at `source` with one more counted: the window restarts only after `span` ns without a
firing (R45). -/
def State.windowCount (s : State) (lvl source span : Nat) : Nat :=
  let w := tget s.wins ⟨0, 0⟩ (winKey lvl source)
  if w.count ≠ 0 ∧ s.now - w.last < span then w.count + 1 else 1

/-- The window with that firing noted. -/
def State.noteFiring (s : State) (lvl source span : Nat) : State :=
  { s with wins := tset s.wins ⟨0, 0⟩ (winKey lvl source) ⟨s.windowCount lvl source span, s.now⟩ }

/-- The firings that the window of `lvl` at `source` now holds. -/
def State.firings (s : State) (lvl source : Nat) : Nat := (tget s.wins ⟨0, 0⟩ (winKey lvl source)).count

/-- An escalation from level `lvl` at `source` raises event 0x038 (R42). The window goes on, so a firing that follows within it escalates
again (R45). -/
def State.escalate (s : State) (lvl source : Nat) : State := s.raise islSP 0x038 [w32 lvl, w32 source]

end Sys2Proof.Machine
end

