-- ==== Sys2Proof/Machine/Msp.lean ====
section
/-! DEFINITION. Linear MSP: the ranking of requests, the transmitted K bytes, selector and bridge, wait to restore, dFOP and the APS
commands (R282 to R289). The protection service decides; on a standby twin it computes without writing (R274). -/

namespace Sys2Proof.Machine

/-- What a line port holds beside its registers. -/
def State.line (s : State) (n : Nat) : LinePort := tget s.lines .init n

/-- The same, replaced. -/
def State.setLine (s : State) (n : Nat) (l : LinePort) : State := { s with lines := tset s.lines .init n l }

/-- A write to LINE_K_TX, effective at the next frame boundary, or one frame later when it lands in the K-byte slot: the next frame then takes
what stood before it (R131). -/
def State.kTxWrite (s : State) (n : Nat) (value : Word) (inKSlot : Bool) : State :=
  let l := s.line n
  let next := if l.kLate then l.kNow else s.reg (LINE_K_TX n)
  let s := s.serviceWrite (LINE_K_TX n) 0xFFFF value
  s.setLine n { l with kNow := if inKSlot then next else 0, kLate := inKSlot }

/-- What a group holds beside its registers. -/
def State.grp (s : State) (g : Nat) : Grp := tget s.msp .init g

/-- The same, replaced. -/
def State.setGrp (s : State) (g : Nat) (x : Grp) : State := { s with msp := tset s.msp .init g x }

/-- The ports of a group by channel: the protection port, then the set bits of WORK (R282). -/
def State.grpPorts (s : State) (g : Nat) : List Nat :=
  s.fld (APS_CFG g) APS_CFG_PROT :: (List.range 8).filter (fun n => (s.fld (APS_CFG g) APS_CFG_WORK).testBit n)

/-- One request: its order number, channel and K1 code (R283). -/
structure Request where
  order : Nat
  chan : Nat
  code : Nat
deriving DecidableEq, Repr

/-- The request that ranks first: lower order, and among equals the lower channel. -/
def Request.better (a b : Request) : Bool := decide (a.order < b.order) || (decide (a.order = b.order) && decide (a.chan < b.chan))

/-- The best of a list and a fallback. -/
def bestRequest (d : Request) (l : List Request) : Request := l.foldl (fun a b => if b.better a then b else a) d

/-- The request of a K1 code and channel, none where the code is undefined; the low-priority SF and SD rank just below the others. Orders
are those of R283 doubled, so that these fit between. -/
def requestOf (code chan : Nat) : Option Request :=
  let o : Option Nat := match code with
    | 0xF => some 2 | 0xE => some 4
    | 0xD => some (if chan = 0 then 6 else 8) | 0xC => some 9
    | 0xB => some (if chan = 0 then 10 else 12) | 0xA => some 13
    | 0x8 => some 14 | 0x6 => some 16 | 0x4 => some 18 | 0x2 => some 20 | 0x1 => some 22 | 0x0 => some 24
    | _ => none
  o.map (fun o => ⟨o, chan, code⟩)

/-- The codes that move the selector to their channel. -/
def switches (code : Nat) : Bool := [0xE, 0xD, 0xC, 0xB, 0xA, 0x8, 0x6, 0x1].contains code

/-- The standing command of a group as a request. -/
def State.apsStanding (s : State) (g : Nat) : Option Request :=
  if s.fld (APS_CMD g) APS_CMD_RESULT ≠ 1 then none
  else
    let ch := s.fld (APS_CMD g) APS_CMD_CHAN
    match s.fld (APS_CMD g) APS_CMD_CMD with
    | 1 => requestOf 0xF 0
    | 2 => requestOf 0xE ch
    | 3 => requestOf 0x8 ch
    | 4 => requestOf 0x4 ch
    | _ => none

/-- The SF and SD requests of the group's ports: persisted for HOLDOFF and still there. -/
def State.lineRequests (s : State) (g : Nat) : List Request :=
  (s.grp g).counted.filterMap (fun c => requestOf (if c.2 then 0xB else 0xD) c.1)

/-- The far end's request, in a bidirectional group without dFOP (R283, R285). -/
def State.farRequest (s : State) (g : Nat) : Option Request :=
  let k := s.reg (LINE_K_RX (s.fld (APS_CFG g) APS_CFG_PROT))
  if s.flag (APS_CFG g) APS_CFG_BIDIR && !s.flag (APS_STAT g) APS_STAT_DFOP && decide (LINE_K_RX_VALID.get k = 1) then
    requestOf (LINE_K_RX_K1.get k / 16) (LINE_K_RX_K1.get k % 16)
  else none

/-- The conditions that count (R283): those standing that counted already, or with HOLDOFF at 0 every one that stands. -/
def State.recount (s : State) (g : Nat) : State :=
  let ports := s.grpPorts g
  let x := s.grp g
  let stands (c : Nat × Bool) := s.flag (LINE_STAT (ports.getD c.1 0)) (if c.2 then LINE_STAT_TSD else LINE_STAT_TSF)
  let all := (List.range ports.length).flatMap (fun c => [(c, false), (c, true)])
  s.setGrp g { x with counted := (if s.fld (APS_CFG g) APS_CFG_HOLDOFF = 0 then all else x.counted).filter stands }

/-- A command that a higher request overrides is cleared with RESULT 0x03 (R289). -/
def State.dropAps (s : State) (g : Nat) : State :=
  match s.apsStanding g with
  | some r =>
    if (s.lineRequests g ++ (s.farRequest g).toList).any (fun x => decide (x.order < r.order)) then
      if s.computesOnly then s else s.setFld (APS_CMD g) APS_CMD_RESULT 0x03
    else s
  | none => s

/-- The group's events are raised by PX, which holds the APS block. -/
def State.apsEvent (s : State) (g e : Nat) (data : List Word := []) : State := s.raise islPX e (w32 g :: data)

/-- An event of the protection service, which raises none where it only computes (R274). -/
def State.mspEvent (s : State) (g e : Nat) (data : List Word := []) : State := if s.computesOnly then s else s.apsEvent g e data

/-- Wait to restore and Do not revert (R286): the clearing of SF or SD on the selected working channel starts one or the other, and a
request of higher order ends it. -/
def State.updateGrpWtr (s : State) (g : Nat) : State :=
  let x := s.grp g
  let local_ := s.lineRequests g ++ (s.apsStanding g).toList
  let best := bestRequest ⟨24, 0, 0⟩ local_
  let sel := s.fld (APS_STAT g) APS_STAT_SEL
  let cleared := decide (x.best.2 = sel ∧ sel ≠ 0) && decide (x.best.1 = 8 ∨ x.best.1 = 12)
    && !(s.lineRequests g).any (fun r => decide (r.chan = sel))
  let rev := s.flag (APS_CFG g) APS_CFG_REVERT
  let x := { x with best := (best.order, best.chan) }
  let s := if cleared && rev && x.wtr.isNone then
      (s.setGrp g { x with wtr := some (sel, s.now + 60000000000 * s.fld (APS_CFG g) APS_CFG_WTR_MIN) }).mspEvent g 0x439 [w32 sel]
    else if cleared && !rev then s.setGrp g { x with dnr := some sel }
    else s.setGrp g x
  let all := local_ ++ (s.farRequest g).toList
  let x := s.grp g
  let s := if x.wtr.isSome && all.any (fun r => decide (r.order < 16)) then s.setGrp g { x with wtr := none } else s
  let x := s.grp g
  if x.dnr.isSome && all.any (fun r => decide (r.order < 22)) then s.setGrp g { x with dnr := none } else s

/-- The request a group's own side makes: commands, SF, SD, WTR and Do not revert, or none. -/
def State.localRequest (s : State) (g : Nat) : Request :=
  let x := s.grp g
  bestRequest ⟨24, 0, 0⟩ (s.lineRequests g ++ (s.apsStanding g).toList ++ (x.wtr.map (fun p => ⟨16, p.1, 0x6⟩)).toList
    ++ (x.dnr.map (fun c => ⟨22, c, 0x1⟩)).toList)

/-- The selector and bridge of a group, and its K bytes to every port (R283 to R285). `rule` is the ruling request, `tx` what K1 sends. -/
def State.applyAps (s : State) (g : Nat) (rule tx : Request) : State :=
  let ports := s.grpPorts g
  let sel := if switches rule.code && decide (0 < rule.chan ∧ rule.chan < ports.length) then rule.chan else 0
  let k2 := sel * 16 + 8 * bit (decide (s.fld (APS_CFG g) APS_CFG_ARCH = 1)) + (if s.flag (APS_CFG g) APS_CFG_BIDIR then 5 else 4)
  let k := w32 (tx.code * 16 + tx.chan + 256 * k2)
  if s.computesOnly then
    let differs := decide (s.reg (LINE_K_TX (ports.headD 0)) ≠ k) || decide (s.fld (APS_STAT g) APS_STAT_SEL ≠ sel)
    let x := s.grp g
    let s := if differs && !x.diverged then s.count TWN_DIVERGE_CNT else s
    s.setGrp g { x with diverged := differs }
  else
    let was := s.reg (APS_STAT g)
    let far := s.reg (LINE_K_RX (ports.headD 0))
    let s := (s.setFld (APS_STAT g) APS_STAT_REQ rule.code).setFld (APS_STAT g) APS_STAT_CHAN rule.chan
    let s := (s.setFld (APS_STAT g) APS_STAT_SEL sel).setFld (APS_STAT g) APS_STAT_BRIDGE sel
    let s := s.setFld (APS_STAT g) APS_STAT_FAR_REQ (LINE_K_RX_K1.get far / 16)
    let s := s.setFld (APS_STAT g) APS_STAT_FAR_CHAN (LINE_K_RX_K1.get far % 16)
    let s := s.setFlag (APS_STAT g) APS_STAT_WTR (s.grp g).wtr.isSome
    let s := if APS_STAT_REQ.get was = rule.code ∧ APS_STAT_CHAN.get was = rule.chan then s
      else s.apsEvent g 0x434 [w32 (rule.code * 16 + rule.chan)]
    let s := if APS_STAT_SEL.get was = sel then s
      else (s.count (APS_SWITCH_CNT g)).apsEvent g 0x435 [s.reg (APS_STAT g)]
    let s := if s.reg (APS_STAT g) = was then s else s.mirror (APS_STAT g) 0xFFFFFFFF (s.reg (APS_STAT g))
    s.each ports fun s n => if s.running (islLP n) ∧ s.reg (LINE_K_TX n) ≠ k then s.kTxWrite n k false else s

/-- The MSP service judges group `g` on what now stands (R283 to R286). -/
def State.mspEval (s : State) (g : Nat) : State :=
  if !s.flag (APS_CFG g) APS_CFG_EN || !s.running islPX || !s.inState [stArmed, stServing, stLimp] then s
  else
    let s := (s.recount g).dropAps g
    let s := s.updateGrpWtr g
    let top := s.localRequest g
    match s.farRequest g with
    | some far =>
      if far.better top then s.applyAps g far (if far.order ≤ 18 then ⟨20, far.chan, 0x2⟩ else top) else s.applyAps g top top
    | none => s.applyAps g top top

/-- The enabled group that port `n` belongs to. -/
def State.grpOf (s : State) (n : Nat) : Option Nat :=
  (List.range 4).find? (fun g => s.flag (APS_CFG g) APS_CFG_EN && (s.grpPorts g).contains n)

/-- The port whose signal PX takes at the AUG-1 positions of port `n`: the protection port while the selector has chosen it (R282). -/
def State.rxPort (s : State) (n : Nat) : Nat :=
  match s.grpOf n with
  | some g =>
    let sel := s.fld (APS_STAT g) APS_STAT_SEL
    if sel ≠ 0 ∧ (s.grpPorts g).getD sel 0 = n then s.fld (APS_CFG g) APS_CFG_PROT else n
  | none => n

/-- The port whose AUG-1 positions port `n` transmits: a protection port sends what the bridge gives it, in 1+1 always the working port's
(R282). -/
def State.txPort (s : State) (n : Nat) : Nat :=
  match s.grpOf n with
  | some g =>
    let b := if s.fld (APS_CFG g) APS_CFG_ARCH = 0 then 1 else s.fld (APS_STAT g) APS_STAT_BRIDGE
    if n = s.fld (APS_CFG g) APS_CFG_PROT ∧ b ≠ 0 then (s.grpPorts g).getD b n else n
  | none => n

/-- The group that port `n` belongs to, judged. -/
def State.mspPort (s : State) (n : Nat) : State :=
  match s.grpOf n with
  | some g => s.mspEval g
  | none => s

/-- MSP_HOLDOFF_EXPIRY (R283): aTSF or aTSD of a channel's port has persisted for HOLDOFF. -/
def execMspHoldoffExpiry (g : Fin 4) (chan : Fin 8) (s : State) : Host.Outcome State Fault Refusal :=
  .next (let ports := s.grpPorts g
  if !s.flag (APS_CFG g) APS_CFG_EN || decide (ports.length ≤ chan.val) then s
  else
    let st := s.reg (LINE_STAT (ports.getD chan 0))
    let x := s.grp g
    let add := (if LINE_STAT_TSF.get st = 1 then [(chan.val, false)] else []) ++ (if LINE_STAT_TSD.get st = 1 then [(chan.val, true)] else [])
    (s.setGrp g { x with counted := x.counted.filter (fun c => decide (c.1 ≠ chan.val)) ++ add }).mspEval g)

/-- MSP_WTR_EXPIRY (R286): event 0x43A. -/
def execMspWtrExpiry (g : Fin 4) (s : State) : Host.Outcome State Fault Refusal :=
  .next (if (s.grp g).wtr.isSome then ((s.setGrp g { s.grp g with wtr := none }).mspEvent g 0x43A).mspEval g else s)

/-- DFOP_TIMER (R274, R285): the condition has persisted, or been absent, for 50 ms; events 0x436 and 0x437. A Standby twin takes dFOP from
the Active twin. -/
def execDfopTimer (g : Fin 4) (present : Bool) (s : State) : Host.Outcome State Fault Refusal :=
  .next (if !s.flag (APS_CFG g) APS_CFG_EN || decide (s.flag (APS_STAT g) APS_STAT_DFOP = present) || s.computesOnly then s
  else ((s.setFlag (APS_STAT g) APS_STAT_DFOP present).apsEvent g (if present then 0x436 else 0x437)
    [s.reg (LINE_K_RX (s.fld (APS_CFG g) APS_CFG_PROT))]).mspEval g)

/-- RESULT of an APS command (R289): refused as invalid, refused below a standing one, cleared, or in force. -/
def State.apsResult (s : State) (g cmd chan : Nat) : Nat :=
  let n := (s.grpPorts g).length - 1
  let chanOk := decide (cmd ≤ 1) || decide (1 ≤ chan ∧ chan ≤ n) || (decide (cmd = 3) && decide (chan = 0))
  if 4 < cmd ∨ chanOk = false ∨ s.flag (APS_CFG g) APS_CFG_EN = false then 0x04
  else if cmd = 0 then 0x02
  else match s.apsStanding g with
    | some r => if r.order < ([2, 4, 14, 18].getD (cmd - 1) 0) then 0x03 else 0x01
    | none => 0x01

/-- A write to APS_GRP[g]_CMD (R289, R351): a repeated token has no effect, a refused command changes only RESULT; event 0x438. -/
def State.apsCommand (s : State) (g cmd chan token : Nat) : State :=
  if s.tokenIs (APS_CMD g) APS_CMD_TOKEN token then s
  else
    let r := s.apsResult g cmd chan
    if r = 0x03 ∨ r = 0x04 then
      let s := s.setFld (APS_CMD g) APS_CMD_RESULT r
      s.apsEvent g 0x438 [s.reg (APS_CMD g)]
    else
      let v := token + 256 * cmd + 4096 * chan
      let s := s.setReg (APS_CMD g) (w32 (v + 65536 * r))
      ((s.apsEvent g 0x438 [s.reg (APS_CMD g)]).mirror (APS_CMD g) 0xFFFF (w32 v)).mspEval g

/-- The same by a writer. -/
def State.apsWrite (s : State) (w : Writer) (g cmd chan token : Nat) : State :=
  s.commandWrite w true true islPX (APS_CMD g) (fun s => s.apsCommand g cmd chan token)

end Sys2Proof.Machine
end

