-- ==== Sys2Proof/Machine/Sched.lean ====
section
/-! DEFINITION. The task scheduler and the running of the core pairs: task states, wakes, dispatch, preemption, the end of a run, the stop
and the restart of a pair (R291 to R293, R300 to R308, R325, R326). The two copies of the scheduler are kept equal, so one is kept
here (R416). -/

namespace Sys2Proof.Machine

/-! ### Names -/

/-- Task states as SVC_TASK_STAT codes them. -/
def tkDisabled : Nat := 0
def tkIdle : Nat := 1
def tkReady : Nat := 2
def tkRunning : Nat := 3
def tkPreempted : Nat := 4
def tkParked : Nat := 5

/-- SVC_PAIR_STAT.TASK with no task running. -/
def noTask : Nat := 0x100

/-- Wake causes beside event numbers (R305). -/
def wkTimer : Nat := 0x800
def wkInit : Nat := 0x801
def wkCommand : Nat := 0x802

/-- A pair. -/
def State.core (s : State) (q : Nat) : Core := tget s.cores .init q

/-- A pair, replaced. -/
def State.setCore (s : State) (q : Nat) (x : Core) : State := { s with cores := tset s.cores .init q x }

/-- A task beside its registers. -/
def State.task (s : State) (t : Nat) : Task := tget s.tasks .init t

/-- The same, replaced. -/
def State.setTask (s : State) (t : Nat) (x : Task) : State := { s with tasks := tset s.tasks .init t x }

/-- A task's state. -/
def State.taskState (s : State) (t : Nat) : Nat := s.fld (SVC_TASK_STAT t) SVC_TASK_STAT_STATE

/-- A task's state, replaced. -/
def State.setTaskState (s : State) (t st : Nat) : State := s.setFld (SVC_TASK_STAT t) SVC_TASK_STAT_STATE st

/-- The task a pair runs, `noTask` for none. -/
def State.pairTask (s : State) (q : Nat) : Nat := s.fld (SVC_PAIR_STAT q) SVC_PAIR_STAT_TASK

/-- The pair's TASK and IDLE. -/
def State.setPairTask (s : State) (q t : Nat) : State :=
  (s.setFld (SVC_PAIR_STAT q) SVC_PAIR_STAT_TASK t).setFlag (SVC_PAIR_STAT q) SVC_PAIR_STAT_IDLE (decide (t = noTask))

/-- The pair is in: out of reset and neither restarting nor held out. -/
def State.pairIn (s : State) (q : Nat) : Bool := s.running (islSV q) && decide (s.fld (SVC_PAIR_STAT q) SVC_PAIR_STAT_STATE = 0)

/-- The pair may take a task: it is in, its start routine has ended and no task runs on it. -/
def State.pairFree (s : State) (q : Nat) : Bool := s.pairIn q && !(s.core q).starting && decide (s.pairTask q = noTask)

/-- The scheduler runs: one of its copies is out of reset. -/
def State.schedRuns (s : State) : Bool := s.running 1 || s.running 2

/-- The island of a scheduler event that no pair is tied to (R416, R418). -/
def State.schedIsl (s : State) : Nat := if s.running 1 || !s.running 2 then 1 else 2

/-- Fields of a task's table entry. -/
def State.taskPrio (s : State) (t : Nat) : Nat := s.fld (SVC_TASK_W1 t) SVC_TASK_W1_PRIO
def State.taskReq (s : State) (t : Nat) : Bool := s.flag (SVC_TASK_W1 t) SVC_TASK_W1_REQUIRED
def State.taskPending (s : State) (t : Nat) : Bool := s.flag (SVC_TASK_STAT t) SVC_TASK_STAT_PENDING

/-- The pairs a task may use: by AFFINITY, and either pair for a required task whose own pair is out (R308). -/
def State.pairsOf (s : State) (t : Nat) : List Nat :=
  let a := s.fld (SVC_TASK_W1 t) SVC_TASK_W1_AFFINITY
  if (a = 1 ∨ a = 2) ∧ (s.pairIn (a - 1) || !s.taskReq t) then [a - 1] else [0, 1]

/-- Write transactions and reads of the pair's port under way in the matrix. -/
def State.portLive (s : State) (q : Nat) : Bool := s.mtx.txns.any (fun p => decide (p.2.req.port.val = 2 * q) && !p.2.orphan)

/-! ### Readiness (R301, R302) -/

/-- A task becomes Ready, behind those that are. -/
def State.makeReady (s : State) (t : Nat) : State :=
  ({ s with turns := s.turns + 1 }.setTask t { s.task t with order := s.turns }).setTaskState t tkReady

/-- A merged wake (R302). -/
def State.mergeWake (s : State) (t cause : Nat) : State :=
  (s.count SVC_WAKE_MERGED).raiseFirst s.schedIsl 0x44C 0 [w32 t, w32 cause]

/-- TASK_WAKE (R301, R302): a wake reaches task `t`; a Disabled one drops it. -/
def State.wake (s : State) (t cause : Nat) : State :=
  if !s.schedRuns then s
  else
    let st := s.taskState t
    if st = tkDisabled then s.count SVC_TASK_DROPPED
    else if st = tkIdle then (s.setFld (SVC_TASK_STAT t) SVC_TASK_STAT_CAUSE cause).makeReady t
    else if st = tkReady ∨ st = tkPreempted then s.mergeWake t cause
    else if s.taskPending t then s
    else (s.setFlag (SVC_TASK_STAT t) SVC_TASK_STAT_PENDING true).setTask t { s.task t with pcause := cause }

/-- A task's place is settled against the pairs that are in: Parked with event 0x447 while it may use none, and Ready again with event
0x448 (R301, R308). -/
def State.parkTask (s : State) (t : Nat) : State :=
  let st := s.taskState t
  let some := (s.pairsOf t).any s.pairIn
  if (st = tkReady ∨ st = tkPreempted) ∧ !some then (s.setTaskState t tkParked).raise s.schedIsl 0x447 [w32 t]
  else if st = tkParked ∧ some then (s.makeReady t).raise s.schedIsl 0x448 [w32 t]
  else s

/-! ### Dispatch (R303 to R305) -/

/-- Whether task `t` goes before task `u`: by priority, then by when it became Ready, then by number. -/
def State.before (s : State) (t u : Nat) : Bool :=
  let a := s.taskPrio t
  let b := s.taskPrio u
  decide (a < b) || (decide (a = b) && (decide ((s.task t).order < (s.task u).order)
    || (decide ((s.task t).order = (s.task u).order) && decide (t < u))))

/-- The first task in that order that satisfies `ok`. -/
def State.firstTask (s : State) (ok : Nat → Bool) : Option Nat :=
  (List.range 256).foldl (fun b t => if ok t then
    match b with
    | none => some t
    | some u => some (if s.before t u then t else u)
    else b) none

/-- The save area of a task (R300, R304). -/
def State.saveArea (s : State) (t : Nat) : Nat := sramBase + s.fld SVC_MEM_CFG SVC_MEM_CFG_SAVE_BASE * 4096 + 128 * t

/-- g1 to g31 and the PC as 128 bytes, in that order (R304). -/
def Core.context (c : Core) : List Byte := (List.range 31).flatMap (fun i => leBytes 4 (tget c.g 0 (i + 1)).toNat) ++ leBytes 4 c.pc.toNat

/-- The registers that a saved context holds. -/
def State.savedRegs (s : State) (a : Nat) : Tbl Word := (List.range 31).foldl (fun g i => tset g 0 (i + 1) (s.word (a + 4 * i))) []

/-- The registers at the start of a run (R305). -/
def State.freshRegs (s : State) (q t : Nat) : Tbl Word :=
  let cause := s.fld (SVC_TASK_STAT t) SVC_TASK_STAT_CAUSE
  tset (tset (tset (tset [] 0 1 (w32 t)) 0 2 (w32 cause)) 0 3 (s.reg (SVC_TASK_ARG t))) 0 4 (w32 q)

/-- Task `t` is dispatched on pair `q`: a new run, or a saved context restored (R304, R305). PENDING clears on leaving Ready (R301). -/
def State.startTask (s : State) (q t : Nat) : State :=
  let s := if s.taskState t = tkReady then s.setFlag (SVC_TASK_STAT t) SVC_TASK_STAT_PENDING false else s
  let s := (s.setTaskState t tkRunning).setFld (SVC_TASK_STAT t) SVC_TASK_STAT_LAST_PAIR q
  let s := s.setPairTask q t
  let x := s.task t
  let c := s.core q
  if x.saved then
    let a := s.saveArea t
    (s.setCore q { c with g := s.savedRegs a, pc := s.word (a + 124), since := s.now, stall := none }).setTask t { x with saved := false }
  else
    (s.setCore q { c with g := s.freshRegs q t, pc := s.reg (SVC_TASK_ENTRY t), since := s.now, stall := none }).setTask t
      { x with spent := 0 }

/-- An idle pair takes the first task it may (R303). -/
def State.dispatchPair (s : State) (q : Nat) : State :=
  if s.pairFree q then
    match s.firstTask (fun t => (decide (s.taskState t = tkReady) || decide (s.taskState t = tkPreempted)) && (s.pairsOf t).contains q) with
    | some t => s.startTask q t
    | none => s
  else s

/-- The task on pair `q` is charged up to now and its context goes to its save area (R304, R306). -/
def State.saveTask (s : State) (q : Nat) : State :=
  let t := s.pairTask q
  let x := s.task t
  let s := s.setBytes (s.saveArea t) (s.core q).context
  let s := s.setTask t { x with saved := true, spent := x.spent + (s.now - (s.core q).since) }
  (s.setTaskState t tkPreempted).count SVC_PREEMPT_CNT

/-- Pair `q` runs a task that task `t` may preempt: one of strictly lower priority, at an instruction boundary and with no access
outstanding (R304). -/
def State.preemptable (s : State) (t q : Nat) : Bool :=
  s.pairIn q && !(s.core q).starting && decide (s.pairTask q ≠ noTask) && decide (s.taskPrio t < s.taskPrio (s.pairTask q))
    && decide ((s.core q).stall = none) && !s.portLive q

/-- TASK_PREEMPT (R304): the first Ready task preempts the lowest-priority task it may, on a tie that of SV1. -/
def State.preempt (s : State) : State :=
  if !s.flag SVC_CFG SVC_CFG_PREEMPT_EN then s
  else match s.firstTask (fun t => decide (s.taskState t = tkReady) && (s.pairsOf t).any (s.preemptable t)) with
  | none => s
  | some t =>
    let v := (s.pairsOf t).filter (s.preemptable t)
    let q := if v = [0, 1] then (if s.taskPrio (s.pairTask 1) < s.taskPrio (s.pairTask 0) then 0 else 1) else v.headD 0
    (s.saveTask q).startTask q t

/-- TASK_DISPATCH (R303, R304, R308): tasks are parked or released, idle pairs take tasks, SV0 first, then a Ready task may preempt on
each pair. -/
def State.dispatch (s : State) : State :=
  if !s.schedRuns then s
  else
    let s := s.each (List.range 256) State.parkTask
    ((s.dispatchPair 0).dispatchPair 1).preempt.preempt

/-- The task that event `e` wakes, if its wake-map entry names one (R301). -/
def State.wakeTask (s : State) (e : Nat) : Option Nat :=
  let w := s.reg (SVC_WAKE_MAP (e / 2))
  if e % 2 = 0 then if SVC_WAKE_MAP_VALID_EVEN.get w = 1 then some (SVC_WAKE_MAP_TASK_EVEN.get w) else none
  else if SVC_WAKE_MAP_VALID_ODD.get w = 1 then some (SVC_WAKE_MAP_TASK_ODD.get w) else none

/-- An accepted event wakes its task. -/
def State.wakeBy (s : State) (e : Nat) : State :=
  match s.wakeTask e with
  | some t => (s.wake t e).dispatch
  | none => s

/-! ### The end of a run (R301, R306, R307) -/

/-- Armed is left for Serving: L7 starts, and the last loader step's duration is kept (R14, R44, R86). -/
def State.serve (s : State) : State :=
  let s := s.setReg (NVM_STEP_TIME 8) (w32 (min 0xFFFFFFFF ((s.now - s.ld.stepSince) / 1000)))
  let s := { s with sp := { s.sp with l7Run := true, l7Since := s.now }, ld := { s.ld with timed := false } }
  s.enter stServing 0x00

/-- A task has reported ready (SVC_RDY_MAP). -/
def State.reported (s : State) (t : Nat) : Bool := s.bitAt (SVC_RDY_MAP (t / 32)) (t % 32)

/-- SERVING_ENTRY (R307): every enabled required task has reported ready, with event 0x44D once. -/
def State.checkReady (s : State) : State :=
  if s.flag SVC_SCHED_STAT SVC_SCHED_STAT_ALL_REQ_READY then s
  else if (List.range 256).all (fun t => decide (s.taskState t = tkDisabled) || !s.taskReq t || s.reported t) then
    let s := (s.setFlag SVC_SCHED_STAT SVC_SCHED_STAT_ALL_REQ_READY true).raise s.schedIsl 0x44D
    if s.life = stArmed then s.serve else s
  else s

/-- READY reported by task `t` on pair `q` (R307). -/
def State.reportReady (s : State) (q t : Nat) : State :=
  if s.taskReq t && !s.reported t then
    ((s.setBitAt (SVC_RDY_MAP (t / 32)) (t % 32) true).raise (islSV q) 0x449 [w32 t]).checkReady
  else s

/-- Pair `q` no longer waits in FENCE.G: its fence request, where that has not been issued, goes with the wait (R109; log entry 118). -/
def State.dropRequest (s : State) (q : Nat) : State :=
  s.setMtx { s.mtx with waiting := s.mtx.waiting.filter (fun i => decide (i ≠ 2 * q)) }

/-- The run on pair `q` is over: charged, its longest time kept, the pair free, and the task Idle, or Ready where PENDING is set. -/
def State.closeRun (s : State) (q : Nat) (cancelled : Bool) : State :=
  let t := s.pairTask q
  let x := s.task t
  let us := (x.spent + (s.now - (s.core q).since)) / 1000
  let s := s.setReg (SVC_TASK_LONGEST t) (w32 (max (s.reg (SVC_TASK_LONGEST t)).toNat (min 0xFFFFFFFF us)))
  let s := s.setTask t { x with saved := false, spent := 0 }
  let s := s.setPairTask q noTask
  let s := (s.setCore q { s.core q with stall := none }).dropRequest q
  if cancelled then (s.setFlag (SVC_TASK_STAT t) SVC_TASK_STAT_PENDING false).setTaskState t tkIdle
  else if s.taskPending t then (s.setFld (SVC_TASK_STAT t) SVC_TASK_STAT_CAUSE x.pcause).makeReady t
  else s.setTaskState t tkIdle

/-- A run ends by DONE or READY; the count of budget aborts returns to 0 (R306). -/
def State.finishRun (s : State) (q : Nat) (ready : Bool) : State :=
  let t := s.pairTask q
  let s := s.count (SVC_TASK_RUNS t)
  let s := (s.setFld (SVC_TASK_STAT t) SVC_TASK_STAT_ABORTS 0).closeRun q false
  let s := if ready then s.reportReady q t else s
  s.dispatch

/-- A run is aborted and counted. -/
def State.abortRun (s : State) (q : Nat) (cancelled : Bool) : State :=
  ((s.count (SVC_TASK_ABORTS (s.pairTask q))).count SVC_ABORT_CNT).closeRun q cancelled

/-- The start routine of pair `q` has ended: the pair rejoins dispatch, and after a restart clears its Limp cause and raises event 0x440
(R291, R300). -/
def State.endStart (s : State) (q : Nat) : State :=
  let c := s.core q
  let s := s.setCore q { c with starting := false, stall := none, rejoin := 0 }
  let s := if c.rejoin = 1 then s.limpClear q else s
  let s := if c.rejoin = 0 then s else s.raise (islSV q) 0x440 [w32 q]
  s.dispatch

/-- DONE or READY takes effect on pair `q`. -/
def State.endRun (s : State) (q : Nat) (ready : Bool) : State :=
  if (s.core q).starting then s.endStart q
  else if s.pairTask q = noTask then s
  else s.finishRun q ready

/-- The cause word of event 0x445 (DESIGN CHOICE, log entry 19): 0 illegal, 1 misaligned, 2 AMO outside working SRAM, 3 and more a response code. -/
def abortCode (n : Nat) : Word := Config.codeOf 0x445 n

/-- The cause word and the address of a run aborted on an exception (R299). A start routine that aborts has ended. -/
def State.exception (s : State) (q : Nat) (cause addr : Word) : State :=
  if (s.core q).starting then s.endStart q
  else if s.pairTask q = noTask then s
  else ((s.abortRun q false).raise (islSV q) 0x445 [cause, addr]).dispatch

/-! ### A pair stops and restarts (R291, R292, R300, R308) -/

/-- The pair's start routine begins at address 0. -/
def State.bootPair (s : State) (q : Nat) : State :=
  s.setCore q { Core.init with starting := true, since := s.now, rejoin := (s.core q).rejoin }

/-- A pair stops: the task running on it returns to Ready and reruns from ENTRY (R308). -/
def State.stopPair (s : State) (q why : Nat) : State :=
  let t := s.pairTask q
  let s := if t = noTask then s
    else ((s.setTask t { s.task t with saved := false, spent := 0 }).makeReady t).setPairTask q noTask
  (s.setCore q { Core.init with rejoin := why, since := s.now }).dropRequest q

/-- Required tasks bound to the pair that stopped migrate, each with event 0x446 (R308). -/
def State.migrate (s : State) (q : Nat) : State :=
  s.each ((List.range 256).filter (fun t =>
      decide (s.taskState t ≠ tkDisabled) && s.taskReq t && decide (s.fld (SVC_TASK_W1 t) SVC_TASK_W1_AFFINITY = q + 1)))
    (fun s t => s.raise s.schedIsl 0x446 [w32 t, w32 q])

/-- Islands stop, and a core whose access under way is thereby answered OFFLINE aborts its run (R299, chapter 04, Corners). -/
def State.stopIslands (s : State) (l : List Nat) : State :=
  let hit := s.mtx.txns.filter (fun p => decide (p.2.req.port.val < 4) && !p.2.orphan && !l.contains (s.portIsl p.2.req.port)
    && l.contains (s.targetIsl p.2.target p.2.req.addr.toNat) && decide (p.2.endCode rOffline ≠ rOkay))
  (s.setIslands l false).each hit (fun s p => s.exception (p.2.req.port / 2) (abortCode (3 + p.2.endCode rOffline)) p.2.req.addr)

/-- A pair goes out with STATE `st`: 1 restarting, 2 held out. The events that say why (R291 to R293, R306) are raised as its island stops, and
are not lost with those it raised before (log entry 115). -/
def State.pairOut (s : State) (q st why : Nat) (told : List (Nat × List Word) := []) : State :=
  let was := s.pairIn q
  let s := s.setFld (SVC_PAIR_STAT q) SVC_PAIR_STAT_STATE st
  let s := (s.stopPair q why).stopIslands [islSV q]
  let s := s.each told (fun s e => s.raise (islSV q) e.1 e.2)
  (if was then s.migrate q else s).dispatch

/-- The pair's loss is a Limp-class fault; with the other pair already out it is Safe with cause 0x21 (R42, R291). -/
def State.loseLimp (s : State) (q : Nat) : State :=
  if s.pairIn (1 - q) then s.limpFault q (0x10 + q) else s.safeEntry 0x21

/-- Pair `q` went out for `why` in the cycle of what strikes it now (Corners). True time does not tell two cycles of one frame apart, so a free
bit decides where no time has passed (DESIGN CHOICE, log entry 101). -/
def State.justOut (s : State) (q why : Nat) : Bool :=
  decide (s.fld (SVC_PAIR_STAT q) SVC_PAIR_STAT_STATE = 1) && decide ((s.core q).rejoin = why) && decide ((s.core q).since = s.now)
    && s.freeWord.getLsbD 0

/-- The watchdog's action on a pair (R42, R292), after the events in `told`: reset and self-check, or hold-out with event 0x443 on
escalation. -/
def State.fireL4 (s : State) (q : Nat) (told : List (Nat × List Word) := []) : State :=
  let s := (s.ladder 4 q).noteFiring 4 q 10000000000
  if 3 ≤ s.firings 4 q then ((s.escalate 4 q).pairOut q 2 2 (told ++ [(0x443, [w32 q])])).loseLimp q
  else s.pairOut q 1 2 told

/-! ### The commands on tasks (R301, R325, R326) -/

/-- TASK_PERIOD (R301): the task's PERIOD expires. -/
def execTaskPeriod (t : Fin 256) (s : State) : Host.Outcome State Fault Refusal :=
  .next (if s.fld (SVC_TASK_W2 t) SVC_TASK_W2_PERIOD = 0 ∨ s.taskState t = tkDisabled then s else (s.wake t wkTimer).dispatch)

/-- A task is cancelled: a run is aborted at the next instruction boundary, a saved context and PENDING are discarded (R325). -/
def State.cancelTask (s : State) (t : Nat) : State :=
  let st := s.taskState t
  if st = tkReady ∨ st = tkPreempted ∨ st = tkParked then
    let s := s.setTask t { s.task t with saved := false, spent := 0 }
    (s.setFlag (SVC_TASK_STAT t) SVC_TASK_STAT_PENDING false).setTaskState t tkIdle
  else if st = tkRunning then
    let q := if s.pairTask 0 = t then 0 else 1
    s.abortRun q true
  else s

/-- A wake that falls in the cycle of a cancel: dropped with event 0x44A, or without it where the task is Disabled (R326, Corners). -/
def State.dropWake (s : State) (t : Nat) (woken : Bool) : State :=
  if !woken then s
  else
    let s := s.count SVC_TASK_DROPPED
    if s.taskState t = tkDisabled then s else s.raise s.schedIsl 0x44A [w32 t]

/-- EN of a task follows a disable command, and with it the state (R301, R325). -/
def State.disableTask (s : State) (t : Nat) : State :=
  ((s.setFlag (SVC_TASK_W1 t) SVC_TASK_W1_EN false).setTask t { s.task t with off := some s.now }).setTaskState t tkDisabled

/-- EN of a task follows an enable command (R301, R325): of an enable and a disable in one cycle the disable stands, where a free bit puts
two commands at one moment into one cycle (DESIGN CHOICE, log entry 101). -/
def State.enableTask (s : State) (t : Nat) : State :=
  let together := decide ((s.task t).off = some s.now)
  let stands := together && s.freeWord.getLsbD 0
  let s := if together then s.useFree else s
  if stands then s
  else
    let s := s.setFlag (SVC_TASK_W1 t) SVC_TASK_W1_EN true
    if s.taskState t = tkDisabled then s.setTaskState t tkIdle else s

/-- The effect of an accepted SVC_TASK_CMD. -/
def State.taskEffect (s : State) (cmd t : Nat) (woken : Bool) : State :=
  match cmd with
  | 1 => s.wake t wkCommand
  | 2 => (s.dropWake t woken).cancelTask t
  | 3 => s.enableTask t
  | 4 => ((s.dropWake t woken).cancelTask t).disableTask t
  | _ => s

/-- A write to SVC_TASK_CMD (R325, R351): a repeated token has no effect; commands 0 and 5 to 7, and an enable or disable of task 0, are
refused; event 0x44B either way. -/
def State.taskCommand (s : State) (cmd t token : Nat) (woken : Bool) : State :=
  if s.tokenIs SVC_TASK_CMD SVC_TASK_CMD_TOKEN token then s
  else if cmd = 0 ∨ 4 < cmd ∨ (3 ≤ cmd ∧ t = 0) then
    let s := s.setFld SVC_TASK_CMD SVC_TASK_CMD_RESULT 0x04
    s.raise s.schedIsl 0x44B [w32 t, w32 cmd, 0x04]
  else
    let s := s.setReg SVC_TASK_CMD (w32 (token + 256 * cmd + 65536 * t + 16777216 * 0x01))
    let s := s.raise s.schedIsl 0x44B [w32 t, w32 cmd, 0x01]
    (s.taskEffect cmd t woken).dispatch

/-- A write to SVC_TASK_CMD by a writer. -/
def State.taskWrite (s : State) (w : Writer) (cmd t token : Nat) (woken : Bool) : State :=
  s.commandWrite w true true (s.regIsl SVC_TASK_CMD) SVC_TASK_CMD (fun s => s.taskCommand cmd t token woken)

/-! ### Mismatch, self-check, budget and watchdog (R291 to R293, R306) -/

/-- A lockstep mismatch (R291): the pair stops, its Limp cause is set with event 0x441, and it restarts, or is held out at the third
mismatch within 10 s. -/
def State.mismatch (s : State) (q : Nat) (output : Word) : State :=
  let s := (s.count SVC_LOCKSTEP_CNT).noteFiring 9 q 10000000000
  let told := [(0x441, [w32 q, output])]
  let s := if 3 ≤ s.firings 9 q then s.pairOut q 2 1 (told ++ [(0x442, [w32 q])]) else s.pairOut q 1 1 told
  s.loseLimp q

/-- LOCKSTEP_MISMATCH (R291): of a mismatch and a watchdog firing in one cycle both are counted, and the mismatch governs (Corners). -/
def execLockstepMismatch (q : Fin 2) (output : Word) (s : State) : Host.Outcome State Fault Refusal :=
  .next (if s.pairIn q || s.justOut q 2 then s.mismatch q output else s)

/-- PAIR_SELF_CHECK_DONE (R49, R291, R292): the pair leaves reset and executes its start routine, or is held out. After a power failure has
been declared both pairs stay halted. -/
def execPairSelfCheckDone (q : Fin 2) (pass : Bool) (s : State) : Host.Outcome State Fault Refusal :=
  .next (if s.inState [stArmed, stServing, stLimp] && decide (s.sp.powerFail = .idle)
      && decide (s.fld (SVC_PAIR_STAT q) SVC_PAIR_STAT_STATE = 1) then
    if pass then
      let s := s.setFld (SVC_PAIR_STAT q) SVC_PAIR_STAT_STATE 0
      ((s.setIslands [islSV q] true).bootPair q).dispatch
    else
      let s := s.setFld (SVC_PAIR_STAT q) SVC_PAIR_STAT_STATE 2
      if (s.core q).rejoin = 1 then (s.raise (islSV q) 0x442 [w32 q]).loseLimp q
      else ((s.escalate 4 q).raise (islSV q) 0x443 [w32 q]).loseLimp q
  else s)

/-- L3_TIMEOUT (R306): the running task reaches its BUDGET and is aborted with event 0x444; the fourth in a row applies L4 to the pair. -/
def execL3Timeout (q : Fin 2) (s : State) : Host.Outcome State Fault Refusal :=
  .next (if s.pairIn q && decide (s.pairTask q ≠ noTask) then
    let t := s.pairTask q
    let n := s.fld (SVC_TASK_STAT t) SVC_TASK_STAT_ABORTS % 4 + 1
    let s := s.setFld (SVC_TASK_STAT t) SVC_TASK_STAT_ABORTS n
    let s := (s.abortRun q false).ladder 3 t
    if n = 4 then (s.escalate 3 t).fireL4 q [(0x444, [w32 t])]
    else (s.raise (islSV q) 0x444 [w32 t]).dispatch
  else s)

/-- L4_TIMEOUT (R292, R293): a firing in the cycle of a mismatch is counted and does no more (Corners). -/
def execL4Timeout (q : Fin 2) (s : State) : Host.Outcome State Fault Refusal :=
  .next (if s.pairIn q then s.fireL4 q
    else if s.justOut q 1 then (s.ladder 4 q).noteFiring 4 q 10000000000
    else s)

end Sys2Proof.Machine
end

