-- ==== Sys2Proof/Machine/Ledger.lean ====
section
/-! DEFINITION. The event counters, the pending bits, the intake queue and the Ledger (R328 to R337). -/

namespace Sys2Proof.Machine

/-- The 32 bytes of a Ledger record (R333). -/
def recordBytes (acc kind flags : Nat) (ev : Ev) : List Byte :=
  leBytes 6 acc ++ leBytes 1 (20 + 4 * min 3 ev.data.length) ++ leBytes 1 kind ++ leBytes 8 ev.itc
    ++ leBytes 2 (ev.num % 2048 + 2048 * ev.isl) ++ leBytes 1 (min 3 ev.data.length) ++ leBytes 1 flags
    ++ leBytes 4 (ev.data.getD 0 0).toNat ++ leBytes 4 (ev.data.getD 1 0).toNat ++ leBytes 4 (ev.data.getD 2 0).toNat

/-- The address of the slot of accession number `n` (R332). -/
def slotAddr (n : Nat) : Nat := retentionBase + 32 * (n % 2048)

/-- A record is written to its slot while RT's write port is open (R332, R49 step 4). -/
def State.writeRecord (s : State) (acc kind flags : Nat) (ev : Ev) : State :=
  if s.sp.rtOpen then s.setBytes (slotAddr acc) (recordBytes acc kind flags ev) else s

/-- The intake queue replaced, with EVT_STAT.QUEUE showing its length. -/
def State.setQueue (s : State) (q : List Rec) : State :=
  ({ s with eh := { s.eh with queue := q } }).setFld EVT_STAT EVT_STAT_QUEUE q.length

/-- A record is lost to a full queue (R330). -/
def State.loseRecord (s : State) (ev : Ev) : State :=
  let s := s.count (EVT_ISL_LOST_CNT ev.isl)
  let s := s.setFlag EVT_STAT EVT_STAT_LOSING true
  { s with eh := { s.eh with
    lost := s.eh.lost + 1
    firstLost := if s.eh.lost = 0 then (ev.num, ev.isl) else s.eh.firstLost
    lastLost := (ev.num, ev.isl) } }

/-- Give the next accession number (R103). -/
def State.takeNumber (s : State) : State :=
  { s with eh := { s.eh with nextAcc := (s.eh.nextAcc + 1) % 2 ^ 48 } }

/-- A record enters the queue, numbered on entry once the next number is set, or is lost (R103, R330). After step 2 of R50 has begun, and
once RT has closed its write port, nothing is queued. -/
def State.enqueue (s : State) (kind : Nat) (ev : Ev) : State :=
  if s.sp.sealing || !s.sp.rtOpen then s
  else if 512 ≤ s.eh.queue.length then s.loseRecord ev
  else if s.eh.numbered then
    (s.setQueue (s.eh.queue ++ [⟨some s.eh.nextAcc, kind, ev⟩])).takeNumber
  else s.setQueue (s.eh.queue ++ [⟨none, kind, ev⟩])

/-- Whether any pending bit whose event has the configuration bit `b` set is 1 (R329). -/
def State.anyPending (s : State) (b : Fld) : Bool :=
  (List.range 36).any fun k =>
    decide (s.reg (EVT_PEND k) ≠ 0) &&
    (List.range 32).any fun j => s.bitAt (EVT_PEND k) j && s.flag (EVT_EVENT_CFG (32 * k + j)) b

/-- EVT_STAT shows the drive of INTA_N and INTB_N (R329). -/
def State.updatePins (s : State) : State :=
  (s.setFlag EVT_STAT EVT_STAT_INTA (s.anyPending EVT_EVENT_CFG_INTA)).setFlag EVT_STAT EVT_STAT_INTB (s.anyPending EVT_EVENT_CFG_INTB)

/-- Event `e` is counted, and sets its pending bit and drives its pins as its configuration says (R328, R329). -/
def State.countEvent (s : State) (e : Nat) : State :=
  let s := s.count (EVT_CNT e)
  let a := s.flag (EVT_EVENT_CFG e) EVT_EVENT_CFG_INTA
  let b := s.flag (EVT_EVENT_CFG e) EVT_EVENT_CFG_INTB
  if a || b then
    let s := s.setBitAt (EVT_PEND (e / 32)) (e % 32) true
    let s := { s with eh := { s.eh with recent := (s.now, e :: if s.eh.recent.1 = s.now then s.eh.recent.2 else []) } }
    let s := if a then s.setFlag EVT_STAT EVT_STAT_INTA true else s
    if b then s.setFlag EVT_STAT EVT_STAT_INTB true else s
  else s

/-- The record in slot `i` of the ring as read back: its accession number and its LEN. -/
def State.slotAcc (s : State) (i : Nat) : Nat := leNat (s.bytes (retentionBase + 32 * i) 6)
def State.slotLen (s : State) (i : Nat) : Nat := (s.byte (retentionBase + 32 * i + 6)).toNat

/-- Accession numbers of the readable records in the ring (R334, R335): LEN 1 to 32. -/
def State.ringNumbers (s : State) : List Nat :=
  (List.range 2048).filterMap fun i =>
    if 1 ≤ s.slotLen i ∧ s.slotLen i ≤ 32 then some (s.slotAcc i) else none

/-- A record that EH places itself: counted, and queued whatever its LOG bit holds (R328). -/
def State.placeNow (s : State) (kind e : Nat) (data : List Word) : State :=
  ((s.countEvent e).enqueue kind ⟨e, islEH, s.itcOf islEH, data⟩).wakeBy e

/-- EH sets its next accession number from retention and numbers the queued records; with retention discarded a tail-lost record takes the
first number (R335). -/
def State.numberQueue (s : State) : State :=
  let next := if s.eh.retGood then (s.ringNumbers.foldl (fun a n => max a (n + 1)) 0) % 2 ^ 48 else 0
  let old := s.eh.queue
  let s := { s with eh := { s.eh with numbered := true, nextAcc := next, startAcc := next } }
  let s := s.setQueue []
  let s := if s.eh.retGood then s else s.placeNow 3 0x477 [s.reg SUP_RET_STAT]
  s.each old (fun s r => (s.setQueue (s.eh.queue ++ [⟨some s.eh.nextAcc, r.kind, r.ev⟩])).takeNumber)


/-- KIND of the record of an accepted event (R333): fence markers are 2. -/
def recordKind (e : Nat) : Nat := if e = 0x0A1 ∨ e = 0x0A4 then 2 else 0

/-- What EH does in the cycle in which it accepts an event (R328, R330, R331): count it, set its pending bit, queue its record if LOG is
set; the power-fail record is numbered and held in a place of its own. A power failure that comes before the next number is set makes EH set it
first, so that no number of the ring is used again (R103, R335; log entry 116). -/
def State.acceptCore (s : State) (ev : Ev) : State :=
  let s := s.countEvent ev.num
  let s := { s with eh := { s.eh with accepted := tset s.eh.accepted 0 ev.isl (tget s.eh.accepted 0 ev.isl + 1) } }
  if ev.num = 0x028 then
    let s := if s.eh.numbered then s else s.numberQueue
    ({ s with eh := { s.eh with held := some ⟨some s.eh.nextAcc, 5, ev⟩ } }).takeNumber
  else if s.flag (EVT_EVENT_CFG ev.num) EVT_EVENT_CFG_LOG then s.enqueue (recordKind ev.num) ev
  else s

/-- A fence marker as EH takes it: of the running fence, whose island is then no longer awaited, or late (R105, R108). -/
def State.takeMarker (s : State) (ev : Ev) : State × Ev :=
  if ev.num = 0x0A1 then
    match s.mtx.fence with
    | some f =>
      if f.waitFor.contains ev.isl && decide ((ev.data.getD 0 0).toNat = f.no) then
        (s.setMtx { s.mtx with fence := some { f with waitFor := f.waitFor.erase ev.isl } }, ev)
      else (s, { ev with num := 0x0A4 })
    | none => (s, { ev with num := 0x0A4 })
  else (s, ev)

/-- EH accepts an event that has arrived, and the task it wakes is woken (R108, R301, R328). -/
def State.acceptEvent (s : State) (ev : Ev) : State :=
  let r := s.takeMarker ev
  (r.1.acceptCore r.2).wakeBy r.2.num

/-- The events that EH has raised itself and not yet taken from its internal input are accepted, oldest first, so that a record it places
itself does not pass them (R101, R327). -/
def State.takeOwn (s : State) : State :=
  ({ s with chan := s.chan.filter (fun e => decide (e.isl ≠ islEH)) }).each (s.chan.filter (fun e : Ev => decide (e.isl = islEH)))
    State.acceptEvent

/-- EH places a record of its own behind the events it raised before (R101, R328). -/
def State.placeOwn (s : State) (kind e : Nat) (data : List Word) : State := s.takeOwn.placeNow kind e data

/-- The loss episode ends in the first cycle in which the queue holds 256 records or fewer: one gap record is placed (R330). -/
def State.closeLoss (s : State) : State :=
  if s.flag EVT_STAT EVT_STAT_LOSING ∧ s.eh.queue.length ≤ 256 then
    let word (p : Nat × Nat) : Word := w32 (p.1 + 65536 * p.2)
    let d := [w32 s.eh.lost, word s.eh.firstLost, word s.eh.lastLost]
    let s := s.setFlag EVT_STAT EVT_STAT_LOSING false
    let s := { s with eh := { s.eh with lost := 0 } }
    (s.count EVT_GAP_CNT).placeOwn 1 0x475 d
  else s

/-- The Ledger writer takes the head of the queue and writes it to its slot (R332). -/
def State.writeHead (s : State) : State :=
  match s.eh.queue with
  | ⟨some n, kind, ev⟩ :: q => ((s.writeRecord n kind 0 ev).setQueue q).closeLoss
  | _ => s

/-- `k` records written one after another. -/
def State.writeHeads : Nat → State → State
  | 0, s => s
  | k + 1, s => writeHeads k s.writeHead

/-- Step 3 of R49: the records still queued are abandoned and the held power-fail record is written last, with their number in its
data word 2 (R331). -/
def State.powerFailRecord (s : State) : State :=
  match s.eh.held with
  | some ⟨some n, kind, ev⟩ =>
    let abandoned := s.eh.queue.length
    let s := s.setQueue []
    let s := s.writeRecord n kind 0 { ev with data := [ev.data.getD 0 0, ev.data.getD 1 0, w32 abandoned] }
    { s with eh := { s.eh with held := none } }
  | _ => s

/-- Every event on its way is accepted, oldest first. -/
def State.acceptAll (s : State) : State :=
  ({ s with chan := [] }).each s.chan State.acceptEvent

end Sys2Proof.Machine
end

