-- ==== Sys2Proof/Machine/Power.lean ====
section
/-! DEFINITION. Power: SP's power-on reset, the converter, the start into Loading, the power-fail sequence with the seal and the
Archive record, rail failures, the SG-5 conditions and the backup cell (R39, R40, R49 to R58, R380 to R392, R411, R412). -/

namespace Sys2Proof.Machine

/-! ### Resets (R40, R411, R412) -/

/-- The SUP registers that only a power-on resets: offsets 0x0040 to 0x00FF and 0x0140 to 0x019C (R412). -/
def spHeld (a : Nat) : Bool :=
  (decide (0x40000040 ≤ a) && decide (a ≤ 0x400000FF)) || (decide (0x40000140 ≤ a) && decide (a ≤ 0x4000019C))

/-- SP's safety status as it stands in Dormant: nothing claimed, nothing driven, squelched, lasers off; islands no longer held (R16, R59). -/
def State.dormantOutputs (s : State) : State :=
  let s := s.setFlag SUP_SAFETY_STAT SUP_SAFETY_STAT_CLAIM_OUT false
  let s := s.setFlag SUP_SAFETY_STAT SUP_SAFETY_STAT_SHARED_EN false
  let s := s.setFlag SUP_SAFETY_STAT SUP_SAFETY_STAT_SQUELCH true
  let s := s.setFld SUP_SAFETY_STAT SUP_SAFETY_STAT_SP_ALS 0xFF
  s.each (List.range 23) (fun s i => s.setFlag (SUP_L5_STAT i) SUP_L5_STAT_HELD false)

/-- What RT and SP keep of `s` through a reset of everything else. The spec does not say when the second series gate that R30 opened closes
again: it closes here, with the reset that leads to the next start (DESIGN CHOICE, log entry 106). -/
def State.keepSup (s : State) : Sup := { s.sp with
  dormant := true, holdMs := 0, sealing := false, l7Run := false, powerFail := .idle, stopAfter := false, secondGate := false,
  refOk := false, hoValid := false, phasesA := [], phasesB := [], overA := false, overB := false, rtOpen := false, claimBad := false,
  entryAt := none }

/-- A supervisor reset with its cause (R40, R47, R49, R58): Dormant; every register but SP's own returns to its reset value; SP with its time
counter and its count windows, RT and the memories keep what they hold. -/
def State.supervisorReset (s : State) (cause : Nat) : State :=
  State.dormantOutputs { State.reset with
    pending := s.pending, now := s.now, free := s.free, mem := s.mem
    regs := s.regs.filter (fun p => spHeld p.1)
    itc := s.itc.filter (fun p => decide (p.1 = islSP) || (decide (p.1 = islRT) && s.running islRT))
    wins := s.wins
    sp := { s.keepSup with rstCause := cause } }

/-- The bytes that survive without VCORE: the retention SRAM, on VSUP (R381). -/
def retentionOnly (m : List Host.Cell) : List Host.Cell :=
  m.filter (fun p => decide (retentionBase ≤ p.1) && decide (p.1 < retentionBase + retentionSize))

/-- The converter stops: the internal rails fall, the module is in Dormant and only SP and RT hold anything (R14, R381, R392). -/
def State.converterOff (s : State) : State :=
  let off := s.sp.railOff
  let s := s.supervisorReset 3
  let s := { s with mem := retentionOnly s.mem, itc := terase s.itc islRT, sp := { s.sp with converter := false, railOff := off } }
  s.setFld SUP_RAIL_STAT SUP_RAIL_STAT_GOOD 0x10

/-! ### Retention (R50, R54, R55) -/

/-- The seal words of R49. -/
def sealWord : Word := 0x5EA1ED96
def sealComplement : Word := 0xA15E1269

/-- CRC-32C over the 96 KiB of retention SRAM. -/
def State.retentionCrc (s : State) : Word := crc32c (s.bytes retentionBase retentionSize)

/-- RT closes its write port and seals, with event 0x029 (R49 steps 4 and 5). An RT that L5 holds in reset has discarded its contents and
seals nothing (R43). -/
def State.sealRetention (s : State) : State :=
  if s.running islRT then
    let c := s.retentionCrc
    ({ s with sp := { s.sp with rtOpen := false, sealCrc := c, sealA := sealWord, sealB := sealComplement } }).raise islRT 0x029
  else { s with sp := { s.sp with rtOpen := false } }

/-! ### Outputs during start (R59, R60) -/

/-- The loader drives the QSPI pads: in Loading and Checking, and from the start of the Archive write to its end; otherwise they are
high-impedance, also in Loading once a power failure has made LD abandon the slot (R49, R59, R60). -/
def State.qspiDriven (s : State) : Bool :=
  (s.inState [stLoading, stChecking] && decide (s.sp.powerFail = .idle)) || decide (s.sp.powerFail = .archiving)

/-- A transmit lane whose island is `i` (packet ports 16 and 17, twin link 20) is enabled: from Armed on, while the island runs; otherwise
off, at common mode (R59). -/
def State.laneOn (s : State) (i : Nat) : Bool := s.inState [stArmed, stServing, stLimp] && s.running i

/-- PG_N is driven low: VCORE, VSER, VANA and VDDIO are all good (R392). -/
def State.powerGoodLow (s : State) : Bool := decide (s.fld SUP_RAIL_STAT SUP_RAIL_STAT_GOOD % 16 = 15)

/-- VOUT33 is supplied: from the converter's start until it stops (R384). -/
def State.vout33 (s : State) : Bool := s.sp.converter

/-- The IEEE 1149.1 port is live: in every state, Dormant included (R59, R401). -/
def State.jtagLive (_ : State) : Bool := true

/-- RT opens its write port, which clears its seal registers (R50). The spec does not say when the latch BOD_SEEN of R54 clears: it clears
here, once the check of R55 has read it and SUP_RET_STAT shows it (DESIGN CHOICE, log entry 107). -/
def State.openRetention (s : State) : State :=
  { s with sp := { s.sp with rtOpen := true, sealA := 0, sealB := 0, bodSeen := false } }

/-- Both seal registers hold their values. -/
def State.sealGood (s : State) : Bool := decide (s.sp.sealA = sealWord) && decide (s.sp.sealB = sealComplement)

/-- RT accepts its contents (R55). -/
def State.retentionGood (s : State) : Bool :=
  !s.sp.bodSeen && s.sealGood && decide (s.retentionCrc = s.sp.sealCrc)

/-- The retention check at start (R55): SUP_RET_STAT, the contents kept or zero-filled, and RT's write port opened. -/
def State.checkRetention (s : State) (vbak : Nat) : State :=
  let ok := s.retentionGood
  let crcBad := s.sealGood && decide (s.retentionCrc ≠ s.sp.sealCrc)
  let s := s.setFlag SUP_RET_STAT SUP_RET_STAT_VALID ok
  let s := s.setFlag SUP_RET_STAT SUP_RET_STAT_BOD_SEEN s.sp.bodSeen
  let s := s.setFlag SUP_RET_STAT SUP_RET_STAT_SEAL_BAD (!s.sealGood)
  let s := s.setFlag SUP_RET_STAT SUP_RET_STAT_CRC_BAD crcBad
  let s := s.setFlag SUP_RET_STAT SUP_RET_STAT_ARCH_DONE s.sp.archDone
  let s := s.setFlag SUP_RET_STAT SUP_RET_STAT_ARCH_SKIPPED s.sp.archSkipped
  let s := s.setFlag SUP_RET_STAT SUP_RET_STAT_VBAK_PRESENT (decide (185 < vbak))
  let s := if ok then s else s.zero retentionBase retentionSize
  ({ s with eh := { s.eh with retGood := ok } }).openRetention

/-! ### The Archive record (R52) -/

/-- The bytes of one Ledger slot. -/
def State.slotBytes (s : State) (n : Nat) : List Byte := s.bytes (slotAddr n) 32

/-- The last Ledger records up to number `last`, oldest first, at most 120 of them. -/
def State.lastRecords (s : State) (last : Nat) : List (List Byte) :=
  let held := (List.range 2048).filterMap fun i =>
    let n := last + i + 1 - 2048
    if 2048 ≤ last + i + 1 ∧ s.slotAcc (n % 2048) = n ∧ s.slotLen (n % 2048) ≠ 0 then some (s.slotBytes n) else none
  held.drop (held.length - 120)

/-- The Archive record of R52, from SUP_STATE, SUP_SAFETY_STAT, SUP_TO_STAT and the PTP time at step 1. -/
def State.archiveRecord (s : State) (last : Nat) (supState safety toStat : Word) (ptp : Nat) : List Byte :=
  let recs := s.lastRecords last
  let sealed := s.sealGood
  let body := leBytes 4 0x41524348 ++ leBytes 4 4096 ++ leBytes 8 last ++ leBytes 4 supState.toNat ++ leBytes 4 safety.toNat
    ++ leBytes 4 toStat.toNat ++ leBytes 4 (bit sealed) ++ leBytes 6 (ptp / 1000000000) ++ leBytes 2 0
    ++ leBytes 4 (ptp % 1000000000) ++ leBytes 4 recs.length ++ List.replicate 176 0
    ++ recs.flatten ++ List.replicate (3840 - 32 * recs.length) 0 ++ List.replicate 28 0
  body ++ leBytes 4 (crc32c body).toNat

/-! ### The power-fail sequence (R49) -/

/-- DPLL `d` beside its registers. -/
def State.dpll (s : State) (d : Nat) : Dpll := tget s.tm.dplls .init d

/-- PTP time in ns: the time counter runs on the output phase of DPLL1 (R227). -/
def State.ptpTime (s : State) : Nat := ((s.now : Int) + (s.dpll 1).out / 1000000000).toNat

/-- The islands that step 2 stops; the cores halt at step 3 (R49). -/
def powerFailStops : List Nat := [1, 2, 5, 6, 7, 8, 9, 10, 11, 12, 13, 14, 15, 16, 17, 19, 20, 21]

/-- The gather that runs is abandoned, and a freeze held behind it with it; the active bank does not change (R340). -/
def State.abandonGather (s : State) : State :=
  ({ s with inv := { s.inv with running := none, held := none, words := [], dark := [] } }.setFlag INV_STAT INV_STAT_GATHERING false).setFlag
    INV_STAT INV_STAT_HELD false

/-- Steps 1 to 6 of R49. `core` and `nor` say whether the rails of EH and of the NOR still stand, since a step that needs a failed
rail is skipped (R382). R52 takes SUP_SAFETY_STAT 'at step 1', in which the outputs go off: it is taken before they do (DESIGN CHOICE, log
entry 108). -/
def State.powerFailSequence (s : State) (core nor : Bool) : State :=
  -- step 1
  let supState := s.reg SUP_STATE
  let safety := s.reg SUP_SAFETY_STAT
  let toStat := s.reg SUP_TO_STAT
  let ptp := s.ptpTime
  let s := s.raise islSP 0x028 [supState, s.reg SUP_PWR_STAT, 0]
  let s := (({ s with sp := { s.sp with powerFail := .waiting } }).roleEval).driveClaim false
  let s := s.outputsOff.abandonGather
  -- step 2
  let s := { s with ld := { s.ld with running := false, timed := false }, sp := { s.sp with l7Run := false } }
  let s := s.setIslands powerFailStops false
  -- step 3: the writer carries on between acceptance and this step, so how many records it still writes is not fixed (DESIGN CHOICE, log entry 9)
  let s := if core then s.acceptAll else s
  let last := match s.eh.held with
    | some r => r.acc.getD 0
    | none => s.eh.nextAcc
  let s := if core then
      ((s.writeHeads (min s.eh.queue.length (s.freeWord.toNat % 351))).useFree).powerFailRecord
    else s
  -- steps 4 and 5
  let s := s.sealRetention
  -- step 6
  let prepared := s.flag NVM_ARCH_STAT NVM_ARCH_STAT_PREPARED && s.flag SUP_PF_CFG SUP_PF_CFG_ARCH_EN
  if prepared && core && nor then
    { s with sp := { s.sp with powerFail := .archiving, archDone := false, archSkipped := false
                               archive := s.archiveRecord last supState safety toStat ptp } }
  else
    { s with sp := { s.sp with powerFail := .waiting, archDone := false, archSkipped := !prepared } }

/-- The sequence runs once: a second cause while it runs adds nothing (chapter 14, Corners). -/
def State.failPower (s : State) (core nor : Bool) : State :=
  if s.sp.powerFail = .idle then s.powerFailSequence core nor else s

/-- The sequence has ended: where SP is to stop the converter, it does (R39, R382). -/
def State.sequenceEnd (s : State) : State :=
  if s.sp.powerFail = .waiting ∧ s.sp.stopAfter then s.converterOff else s

/-! ### The commands -/

/-- SP_POWER_ON_RESET (R40, R380, R411, R412): every register returns to its reset value; RT keeps its contents and seal. -/
def execSpPowerOnReset (s : State) : Host.Outcome State Fault Refusal :=
  .next (if s.sp.powered && (!s.sp.dormant || s.sp.converter) then s
  else { State.reset with
    pending := s.pending, now := s.now, free := s.free, mem := retentionOnly s.mem
    itc := [(islSP, ⟨0, s.now⟩)]
    sp := { Sup.init with
      powered := true, sealA := s.sp.sealA, sealB := s.sp.sealB, sealCrc := s.sp.sealCrc, bodSeen := s.sp.bodSeen
      archDone := s.sp.archDone, archSkipped := s.sp.archSkipped, archive := s.sp.archive
      losBall := s.sp.losBall, modAbs := s.sp.modAbs } })

/-- CONVERTER_START (R380, R384, R392): with SP out of reset, and no off time running, the converter soft-starts and the rails rise. -/
def execConverterStart (s : State) : Host.Outcome State Fault Refusal :=
  .next (if s.sp.powered && s.sp.dormant && decide (s.sp.railOff = 0) then
    ({ s with sp := { s.sp with converter := true } }).setFld SUP_RAIL_STAT SUP_RAIL_STAT_GOOD 0x1F
  else s)

/-- Step 6 of the power-up sequence: SENIOR and TEST are latched once after SP's power-on reset (R391). -/
def State.latchStraps (s : State) (senior test : Bool) : State :=
  if s.sp.latched then s else { s with sp := { s.sp with latched := true, senior := senior, test := test } }

/-- LD leaves reset: its hardware sends the mark of step 1, and SP times that step (R86, R420). -/
def State.startLoader (s : State) : State :=
  { s.setFld NVM_STAT NVM_STAT_STEP 1 with ld := { Loader.init with running := true, timed := true, stepSince := s.now } }

/-- The islands released into Loading (chapter 03, step 8), with SP and RT, which run already. -/
def loadingIslands : List Nat := [0, 3, 4, 18, 22, 23]

/-- Steps 7 and 8 of the power-up sequence: the retention check, the reset cause latched, reset released, Loading entered. -/
def State.startLoading (s : State) (vbak : Nat) : State :=
  let s := s.checkRetention vbak
  let s := s.setFld SUP_RST_CAUSE SUP_RST_CAUSE_CAUSE s.sp.rstCause
  let s := s.setFlag SUP_STATE SUP_STATE_SENIOR s.sp.senior
  let s := { s with sp := { s.sp with dormant := false } }
  let s := s.setFld SUP_STATE SUP_STATE_STATE 0
  let s := s.enter stLoading 0x00 [w32 s.sp.rstCause]
  let s := s.raise islRT (if s.eh.retGood then 0x02C else 0x02D) [s.reg SUP_RET_STAT]
  let rt := s.itc.find? (fun p => p.1 = islRT)
  let s := s.setIslands loadingIslands true
  let s := match rt with
    | some p => { s with itc := tset s.itc ⟨0, 0⟩ islRT p.2 }
    | none => s
  let s := s.raise islEH 0x479 [w32 3]
  s.startLoader

/-- MAIN_POWER_GOOD (R55, R57, R58, R391): with TEST latched high the die stays in reset and the module in Dormant. -/
def execMainPowerGood (senior test : Bool) (vbak : Nat) (s : State) : Host.Outcome State Fault Refusal :=
  .next (if s.sp.powered && s.sp.converter && s.sp.dormant then
    let s := s.latchStraps senior test
    if s.sp.test then s else s.startLoading vbak
  else s)

/-- POWER_FAILURE (R49 to R51): in any state but Dormant the power-fail sequence runs to the start of the Archive write. -/
def execPowerFailure (s : State) : Host.Outcome State Fault Refusal :=
  .next (if s.sp.dormant then s else s.failPower true true)

/-- ARCHIVE_WRITE_DONE (R49 step 7): event 0x02A, and SP waits; after a trip or a rail failure it stops the converter. -/
def execArchiveWriteDone (s : State) : Host.Outcome State Fault Refusal :=
  .next (if s.sp.powerFail = .archiving then
    let s := { s with sp := { s.sp with powerFail := .waiting, archDone := true } }
    let s := s.setFlag NVM_ARCH_STAT NVM_ARCH_STAT_PREPARED false
    (s.raise islLD 0x02A).sequenceEnd
  else s)

/-- POWER_RETURN (R49 step 8): VIN has recovered for 100 ms after the sequence, and a supervisor reset is issued. -/
def execPowerReturn (s : State) : Host.Outcome State Fault Refusal :=
  .next (if s.sp.powerFail = .waiting then s.supervisorReset 3 else s)

/-- CONVERTER_STOP (R49 step 8, R380): VIN falls below 6.0 V, after a power failure or in Dormant, where none is declared; the Archive write
still in progress is lost. -/
def execConverterStop (s : State) : Host.Outcome State Fault Refusal :=
  .next (if !s.sp.converter || (decide (s.sp.powerFail = .idle) && !s.sp.dormant) then s else s.converterOff)

/-- The code of a rail in SUP_RAIL_STAT.LAST_FAIL. -/
def railCode : Rail → Nat
  | .vcore => 1 | .vser => 2 | .vana => 3 | .vddio => 4 | .vsup => 5

/-- A failed rail in SUP_RAIL_STAT (R381). -/
def State.noteRail (s : State) (r : Rail) : State :=
  let s := s.setBitAt SUP_RAIL_STAT (railCode r - 1) false
  let s := s.setFld SUP_RAIL_STAT SUP_RAIL_STAT_LAST_FAIL (railCode r)
  s.satInc SUP_RAIL_STAT SUP_RAIL_STAT_FAIL_CNT 255

/-- RAIL_FAILURE (R381, R382): event 0x022, the power-fail sequence less the steps that need the rail, and the converter off for
10 ms, or 60 s after three failures within 60 s. A VSUP failure is left to the retention rule of R57. -/
def execRailFailure (r : Rail) (s : State) : Host.Outcome State Fault Refusal :=
  .next (if !s.sp.converter then s
  else
    let s := s.noteRail r
    if r = .vsup then s
    else
      let recent := (s.sp.railFails.filter (fun t => s.now - t < 60000000000)) ++ [s.now]
      let s := { s with sp := { s.sp with
        railFails := recent, railOff := if 3 ≤ recent.length then 60000 else 10, stopAfter := true } }
      if s.sp.dormant then s.converterOff
      else ((s.raise islSP 0x022 [s.reg SUP_RAIL_STAT]).failPower (r != .vcore) (r != .vddio)).sequenceEnd)

/-- RAIL_RESTART (R382): the converter-off time ends, and the converter restarts with reset cause 0x3. -/
def execRailRestart (s : State) : Host.Outcome State Fault Refusal :=
  .next (if s.sp.railOff ≠ 0 ∧ !s.sp.converter then
    ({ s with sp := { s.sp with railOff := 0, converter := true, rstCause := 3 } }).setFld SUP_RAIL_STAT SUP_RAIL_STAT_GOOD 0x1F
  else s)

/-- The number of an SG-5 condition, in the order of the bits of SUP_SAFETY_STAT. -/
def sg5Code : Sg5 → Nat
  | .overVoltage => 0 | .current => 1 | .stageTemp => 2 | .dieTemp => 3

/-- SG5_WARNING (R39): event 0x020. -/
def execSg5Warning (c : Sg5) (s : State) : Host.Outcome State Fault Refusal :=
  .next (s.raise islSP 0x020 [w32 (sg5Code c)])

/-- SG5_TRIP (R39): the trip bit, event 0x021, Safe with cause 0x24; after an over-voltage or current trip the power-fail sequence
runs and the converter stops. -/
def execSg5Trip (c : Sg5) (s : State) : Host.Outcome State Fault Refusal :=
  .next (if s.sp.dormant then s
  else
    let s := s.setBitAt SUP_SAFETY_STAT (16 + sg5Code c) true
    let s := s.raise islSP 0x021 [w32 (sg5Code c)]
    let s := s.safeEntry 0x24
    if c = .overVoltage ∨ c = .current then
      (({ s with sp := { s.sp with stopAfter := true } }).failPower true true).sequenceEnd
    else s)

/-- SG5_TRIP_CLEAR (R39): the trip bit clears, and a converter that the trip stopped restarts. -/
def execSg5TripClear (c : Sg5) (s : State) : Host.Outcome State Fault Refusal :=
  .next (let was := s.bitAt SUP_SAFETY_STAT (16 + sg5Code c)
  let s := s.setBitAt SUP_SAFETY_STAT (16 + sg5Code c) false
  if was ∧ (c = .overVoltage ∨ c = .current) ∧ !s.sp.converter ∧ s.sp.powered
      ∧ !s.bitAt SUP_SAFETY_STAT 16 ∧ !s.bitAt SUP_SAFETY_STAT 17 ∧ s.sp.railOff = 0 then
    ({ s with sp := { s.sp with converter := true, rstCause := 3 } }).setFld SUP_RAIL_STAT SUP_RAIL_STAT_GOOD 0x1F
  else s)

/-- VBAK_MEASURE (R386): VBAK in 10 mV units; VBAK_LOW is set below VBAK_WARN and cleared once VBAK is more than 50 mV above it,
each with event 0x023. -/
def execVbakMeasure (vbak : Fin 512) (s : State) : Host.Outcome State Fault Refusal :=
  .next (if !s.sp.converter then s
  else
    let s := s.setFld SUP_PWR_STAT SUP_PWR_STAT_VBAK vbak
    let warn := s.fld SUP_PWR_CFG SUP_PWR_CFG_VBAK_WARN
    let low := s.flag SUP_PWR_STAT SUP_PWR_STAT_VBAK_LOW
    let low' := if low then !decide (warn + 5 < vbak.val) else decide (vbak.val < warn)
    if low = low' then s
    else
      let s := s.setFlag SUP_PWR_STAT SUP_PWR_STAT_VBAK_LOW low'
      s.raise islSP 0x023 [s.reg SUP_PWR_STAT])

/-- RT_BROWN_OUT (R54): RT clears both seal registers and latches BOD_SEEN. -/
def execRtBrownOut (s : State) : Host.Outcome State Fault Refusal :=
  .next { s with sp := { s.sp with sealA := 0, sealB := 0, bodSeen := true } }

end Sys2Proof.Machine
end

