-- ==== Sys2Proof/Machine/Supervisor.lean ====
section
/-! DEFINITION. The supervisor island: the safety mechanisms of SG-1 and SG-2, the L7 and L8 timeouts, the Safe hold and its end, and the
fitting mismatch (R23, R28 to R35, R41, R44, R47, R48, R50, R420). -/

namespace Sys2Proof.Machine

/-- MAIN_CLOCK_DEVIATION (R41): Safe with cause 0x26. -/
def execMainClockDeviation (s : State) : Host.Outcome State Fault Refusal := .next (s.safeEntry 0x26)

/-- In a pair CLAIM_IN disagrees with the claim that the twin last reported over the link (R32). -/
def State.claimDiffers (s : State) : Bool :=
  s.paired && s.linkOk && (s.flag SUP_SAFETY_STAT SUP_SAFETY_STAT_CLAIM_IN != s.tw.twinClaim)

/-- SAFETY_SELF_TEST (R28, R32): a failure raises 0x03C and takes the module to Safe with cause 0x26. A claim disagreement of 1 ms that still
stands at the test fails it (log entry 103). -/
def execSafetySelfTest (pass : Bool) (s : State) : Host.Outcome State Fault Refusal :=
  .next (if s.sp.dormant then s
  else
    let bad := s.sp.claimBad && s.claimDiffers
    let s := { s with sp := { s.sp with claimBad := bad } }
    if pass && !bad then s else (s.raise islSP 0x03C).safeEntry 0x26)

/-- PAD_ENABLE_MISMATCH (R30): SP opens the second gate, raises 0x016 and enters Safe with cause 0x26. -/
def execPadEnableMismatch (s : State) : Host.Outcome State Fault Refusal :=
  .next (if s.sp.dormant then s
  else
    let s := ({ s with sp := { s.sp with secondGate := true } }).updatePads
    (s.raise islSP 0x016).safeEntry 0x26)

/-- KEEPALIVE_LOSS (R31): the pad ring forces the shared outputs high-impedance and TX_DISABLE asserted, whatever SP commands. -/
def execKeepaliveLoss (s : State) : Host.Outcome State Fault Refusal :=
  .next ({ s with sp := { s.sp with keepalive := false } }).updateDriven

/-- KEY2 (R29): CLAIM_IN has been low for 1,250 SP cycles; the second key is granted and the enables are judged again. -/
def execKey2 (s : State) : Host.Outcome State Fault Refusal :=
  .next (if !s.sp.powered || s.flag SUP_SAFETY_STAT SUP_SAFETY_STAT_CLAIM_IN then s
  else (s.setFlag SUP_SAFETY_STAT SUP_SAFETY_STAT_KEY2 true).updatePads)

/-- CLAIM_IN_CHANGE (R29): the level seen; any change ends the unbroken low, so the second key is withdrawn. -/
def execClaimInChange (level : Bool) (s : State) : Host.Outcome State Fault Refusal :=
  .next (if !s.sp.powered then s
  else
    let s := s.setFlag SUP_SAFETY_STAT SUP_SAFETY_STAT_CLAIM_IN level
    let s := if level then s else s.setTw { s.tw with claimFell := s.now }
    (s.setFlag SUP_SAFETY_STAT SUP_SAFETY_STAT_KEY2 false).updatePads)

/-- CLAIM_DISAGREE (R32): in a pair the disagreement has lasted 1 ms; event 0x015, and it counts towards the next self-test. The enable is not
opened. -/
def execClaimDisagree (s : State) : Host.Outcome State Fault Refusal :=
  .next (if s.claimDiffers then
    ({ s with sp := { s.sp with claimBad := true } }).raise islSP 0x015 [s.reg SUP_SAFETY_STAT]
  else s)

/-! ### The frequency monitors (R33, R35) -/

/-- Samples kept for the 1 ms slope: eight, 125 µs apart. -/
def pushSample (l : List Int) (y : Int) : List Int := (l ++ [y]).drop ((l.length + 1) - 8)

/-- The least-squares slope of eight phase samples as a frequency offset in units of 10⁻¹², none before the window is filled:
the sum of (2i − 7)·y over 84 is the slope in ps per 125 µs. The spec gives no rounding of the estimate: it is rounded down to a whole
10⁻¹² (DESIGN CHOICE, log entry 104). -/
def slopeEstimate (l : List Int) : Option Int :=
  if l.length = 8 then
    some (8000 * ((l.zipIdx.map (fun p => (2 * (p.2 : Int) - 7) * p.1)).sum) / 84)
  else none

/-- Whether an estimate is further than LIMIT_PPB from `expected`, both in units of 10⁻¹². -/
def State.overLimit (s : State) (est : Option Int) (expected : Int) : Bool :=
  match est with
  | none => false
  | some e => decide ((s.fld SUP_MON_CFG SUP_MON_CFG_LIMIT_PPB : Int) * 1000 < (e - expected).natAbs)

/-- The frequency monitor A expects of the output, against the OCXO, in units of 10⁻¹² (R243): the measured offset of DPLL0's reference in
Acquiring (1) and Locked (2), the OCXO corrected by CORR in Holdover, and in Free-run too (log entry 105). -/
def State.expectedA (s : State) : Int :=
  let st := s.fld (TIM_DPLL_STAT 0) TIM_DPLL_STAT_STATE
  if st = 1 ∨ st = 2 then
    1000 * signed 18 (s.fld (TIM_REF_STAT (s.fld (TIM_DPLL_STAT 0) TIM_DPLL_STAT_REF)) TIM_REF_STAT_OFFSET)
  else (s.reg (TIM_DPLL_FREQ 0)).toInt

/-- Rejections of the correction word within the last second. -/
def State.recentRejects (s : State) : List Nat := s.sp.rejects.filter (fun t => s.now - t < 1000000000)

/-- A monitor's verdict bit, with its event where it starts to disagree. -/
def State.monitorVerdict (s : State) (f : Fld) (e : Nat) (bad : Bool) : State :=
  let was := s.flag SUP_SAFETY_STAT f
  let s := s.setFlag SUP_SAFETY_STAT f bad
  if bad && !was then s.raise islSP e else s

/-- The squelch gate closes when either monitor disagrees, or when TM reports neither a qualified reference nor a valid model (R35). -/
def State.judgeSquelch (s : State) : State :=
  if s.flag SUP_SAFETY_STAT SUP_SAFETY_STAT_MON_A || s.flag SUP_SAFETY_STAT SUP_SAFETY_STAT_MON_B || !(s.sp.refOk || s.sp.hoValid)
  then s.squelchClose else s

/-- MONITOR_EVALUATION (R33, R35, R243): each monitor takes its sample; two consecutive estimates over the limit make it disagree. Monitor A
compares with the frequency TM expects of the output, monitor B with the OCXO corrected by the last accepted word. -/
def execMonitorEvaluation (phaseA phaseB : Int) (s : State) : Host.Outcome State Fault Refusal :=
  .next (if s.sp.dormant then s
  else
    let la := pushSample s.sp.phasesA phaseA
    let lb := pushSample s.sp.phasesB phaseB
    let overA := s.running islTM && s.overLimit (slopeEstimate la) s.expectedA
    let overB := s.overLimit (slopeEstimate lb) s.sp.corr
    let badA := overA && s.sp.overA
    let badB := (overB && s.sp.overB) || decide (3 ≤ s.recentRejects.length)
    let s := { s with sp := { s.sp with phasesA := la, phasesB := lb, overA := overA, overB := overB } }
    let s := s.monitorVerdict SUP_SAFETY_STAT_MON_A 0x010 badA
    let s := s.monitorVerdict SUP_SAFETY_STAT_MON_B 0x011 badB
    s.judgeSquelch)

/-- SQUELCH_RELEASE (R35): RELEASE_S of agreement and of a qualified reference or a valid model; the gate reopens with event 0x013, in
the states in which timing outputs may be driven (R16) and while TM reports. -/
def execSquelchRelease (s : State) : Host.Outcome State Fault Refusal :=
  .next (if s.inState [stServing, stLimp] && s.running islTM && !s.flag SUP_SAFETY_STAT SUP_SAFETY_STAT_MON_A
      && !s.flag SUP_SAFETY_STAT SUP_SAFETY_STAT_MON_B && (s.sp.refOk || s.sp.hoValid)
      && s.flag SUP_SAFETY_STAT SUP_SAFETY_STAT_SQUELCH then
    (s.setFlag SUP_SAFETY_STAT SUP_SAFETY_STAT_SQUELCH false).raise islSP 0x013
  else s)

/-! ### L7, L8 and the Safe hold -/

/-- L7_TIMEOUT (R44): no valid kick within L7_WIN; Safe with cause 0x20. -/
def execL7Timeout (s : State) : Host.Outcome State Fault Refusal :=
  .next (if s.sp.l7Run then (s.ladder 7 0).safeEntry 0x20 else s)

/-- L8_TIMEOUT (R86, R420): a timed loader step overran; Safe with cause 0x23. -/
def execL8Timeout (s : State) : Host.Outcome State Fault Refusal :=
  .next (if s.ld.timed then (s.ladder 8 (s.fld NVM_STAT NVM_STAT_STEP)).safeEntry 0x23 else s)

/-- The entry cause of Safe is absent (R47). -/
def State.causeAbsent (s : State) (testPasses : Bool) : Bool :=
  let c := s.fld SUP_STATE SUP_STATE_ENTRY_CAUSE
  if c = 0x24 then decide ((s.reg SUP_SAFETY_STAT).toNat >>> 16 % 16 = 0)
  else if c = 0x26 then testPasses
  else true

/-- SAFE_HOLD_EXPIRY (R47, R50): with the cause absent SP raises 0x03D, and once EH has accepted it nothing more is queued; with the
cause present the hold starts again with the same k. -/
def execSafeHoldExpiry (testPasses : Bool) (s : State) : Host.Outcome State Fault Refusal :=
  .next (if s.life = stSafe ∧ !s.sp.sealing ∧ s.sp.powerFail = .idle then
    if s.causeAbsent testPasses then
      let s := (s.raise islSP 0x03D).acceptAll
      { s with sp := { s.sp with sealing := true } }
    else { s with sp := { s.sp with holdMs := s.safeHold } }
  else s)

/-- SAFE_SEAL (R49, R50): EH's queue has drained; RT seals, and the supervisor reset with cause 0x2 follows at once. Once a power failure has
been declared its own sequence seals and ends in its own reset, and this one does not follow. -/
def execSafeSeal (s : State) : Host.Outcome State Fault Refusal :=
  .next (if s.sp.sealing ∧ s.eh.queue = [] ∧ s.sp.powerFail = .idle then (s.sealRetention).supervisorReset 2 else s)

/-- SAFE_COUNT_CLEAR (R48): after 600 s of continuous Serving or Limp. -/
def execSafeCountClear (s : State) : Host.Outcome State Fault Refusal :=
  .next (if s.inState [stServing, stLimp] then s.setFld SUP_TO_STAT SUP_TO_STAT_SAFE_COUNT 0 else s)

/-- A write to SUP_L7_KICK (R44): its RESULT, and for an accepted kick the token and the reload. -/
def State.kick (s : State) (checked : Bool) (kick token : Nat) : State :=
  if kick ≠ 0xA5 ∨ !checked then s.setFld SUP_L7_KICK SUP_L7_KICK_RESULT 0x01
  else if s.tokenIs SUP_L7_KICK SUP_L7_KICK_TOKEN token then s.setFld SUP_L7_KICK SUP_L7_KICK_RESULT 0x02
  else
    let s := s.setReg SUP_L7_KICK (w32 (token + 256 * 0xA5))
    { s with sp := { s.sp with l7Since := s.now } }

/-- FITTING_MISMATCH (R23): a single-fitted module sees CLAIM_IN high; event 0x008 and the fitting-mismatch Limp cause. -/
def execFittingMismatch (s : State) : Host.Outcome State Fault Refusal :=
  .next (if !s.flag SUP_FIT_CFG SUP_FIT_CFG_PAIRED && s.flag SUP_SAFETY_STAT SUP_SAFETY_STAT_CLAIM_IN
      && s.inState [stServing, stLimp] then
    (s.raise islSP 0x008 [s.reg SUP_STATE]).limpFault 3 0x13
  else s)

/-- FITTING_MISMATCH_CLEAR (R23): CLAIM_IN has been low for 50 µs. -/
def execFittingMismatchClear (s : State) : Host.Outcome State Fault Refusal :=
  .next (if s.flag SUP_SAFETY_STAT SUP_SAFETY_STAT_CLAIM_IN then s else s.limpClear 3)

end Sys2Proof.Machine
end

