-- ==== Sys2Proof/Machine/Vc.lean ====
section
/-! DEFINITION. The bytes of a virtual container: its path overhead as received and as generated (R127, R149, R152). The spec names the
overhead bytes of G.707 and their bits, and not their places in the container: those are G.707's (PRESUMED, log entry 120). -/

namespace Sys2Proof.Machine

/-! ### Trace bytes (R125, R127) -/

/-- The byte a trace sends at position `p` of its period, and the next position: in mode 2 the 16-byte format with its CRC-7, in mode 3 the 64
bytes, otherwise the first byte alone. -/
def traceOut (mode : Nat) (t : List Byte) (p : Nat) : Byte × Nat :=
  match mode with
  | 2 =>
    let body := t.map (· &&& 0x7F)
    (if p = 0 then BitVec.ofNat 8 (128 + crc7 (body.take 16)) else body.getD p 0, (p + 1) % 16)
  | 3 => (t.getD p 0, (p + 1) % 64)
  | _ => (t.getD 0 0, 0)

/-! ### Containers -/

/-- BIP-2 of a container in bits 7:6: the parity of the odd and of the even bits of all its bytes. -/
def bip2 (bs : List Byte) : Byte :=
  let x := bip8 bs
  (x ^^^ (x <<< 2) ^^^ (x <<< 4) ^^^ (x <<< 6)) &&& 0xC0

/-- Whether a container is sent over one frame, a VC-4 or VC-3, or over a multiframe of four, a VC-12 or VC-11. -/
inductive VcKind where
  | frame | multiframe
deriving DecidableEq, Repr

/-- The parity of a container, as the next one carries it. -/
def VcKind.parity (k : VcKind) (vc : List Byte) : Byte :=
  match k with
  | .frame => bip8 vc
  | .multiframe => bip2 vc

/-- The byte that heads row `r` of a container of nine rows, or frame `r` of one of four frames. -/
def VcKind.place (k : VcKind) (vc : List Byte) (r : Nat) : Nat :=
  match k with
  | .frame => vc.length / 9 * r
  | .multiframe => vc.length / 4 * r

/-- What the path overhead of one received container says (R152). -/
structure PathOverhead where
  trace : Byte             -- J1 or J2
  bip : Byte               -- B3, or V5 bits 7:6
  parity : Byte            -- the same computed over this container
  label : Nat              -- C2, or V5 bits 3:1
  rei : Nat                -- G1 bits 7:4, or V5 bit 5
  rdi : Bool               -- G1 bit 3, or V5 bit 0
  h4 : Byte                -- H4 of a VC-4 or VC-3
deriving DecidableEq, Repr

/-- The overhead read from a container. -/
def VcKind.read (k : VcKind) (vc : List Byte) : PathOverhead :=
  let at_ (r : Nat) : Byte := vc.getD (k.place vc r) 0
  match k with
  | .frame =>
    { trace := at_ 0, bip := at_ 1, parity := k.parity vc, label := (at_ 2).toNat, rei := (at_ 3).toNat / 16
      rdi := (at_ 3).getLsbD 3, h4 := at_ 5 }
  | .multiframe =>
    let v5 := at_ 0
    { trace := at_ 1, bip := v5 &&& 0xC0, parity := k.parity vc, label := v5.toNat / 2 % 8, rei := v5.toNat / 32 % 2
      rdi := v5.getLsbD 0, h4 := 0 }

/-- What PX generates in the path overhead of one container (R152). -/
structure TxOverhead where
  trace : Byte
  bip : Byte               -- parity of the container before
  rei : Nat                -- violations of the last container received
  rdi : Bool
  h4 : Nat                 -- multiframe sequence
deriving DecidableEq, Repr

/-- A container with its overhead generated; bytes and bits that R152 does not name stay as the payload brings them. -/
def VcKind.write (k : VcKind) (f : TxOverhead) (vc : List Byte) : List Byte :=
  let put (r : Nat) (g : Byte → Byte) (l : List Byte) : List Byte := l.set (k.place vc r) (g (l.getD (k.place vc r) 0))
  let rdi : Byte := if f.rdi then 1 else 0
  match k with
  | .frame =>
    let vc := put 0 (fun _ => f.trace) vc
    let vc := put 1 (fun _ => f.bip) vc
    let vc := put 2 (fun _ => 0x02) vc
    let vc := put 3 (fun b => BitVec.ofNat 8 (16 * min 8 f.rei) ||| (rdi <<< 3) ||| (b &&& 0x07)) vc
    put 5 (fun b => (b &&& 0xFC) ||| BitVec.ofNat 8 (f.h4 % 4)) vc
  | .multiframe =>
    let vc := put 0 (fun _ => (f.bip &&& 0xC0) ||| (if f.rei = 0 then 0 else 0x20) ||| 0x04 ||| rdi) vc
    let vc := put 1 (fun _ => f.trace) vc
    put 3 (fun _ => 0) vc

end Sys2Proof.Machine
end

