-- ==== Sys2Proof/Machine/Line.lean ====
section
/-! DEFINITION. The line ports: loss of signal, the framer and the LOF integrator, overhead processing, defects and consequent actions,
error-rate detectors, laser shutdown and the transmitted overhead (R36, R37, R116 to R144). -/

namespace Sys2Proof.Machine

/-! ### Names -/

/-- Framer states (LINE_FRM_STAT.STATE). -/
def frDisabled : Nat := 0
def frDark : Nat := 1
def frSearch : Nat := 2
def frPresync : Nat := 3
def frInFrame : Nat := 4
def frOutOfFrame : Nat := 5

/-- Laser states (LINE_FRM_STAT.ALS). -/
def alsOn : Nat := 0
def alsOff : Nat := 1
def alsRestart : Nat := 2
def alsManual : Nat := 3

/-- A STAT bit of a port. -/
def State.lstat (s : State) (n : Nat) (f : Fld) : Bool := s.flag (LINE_STAT n) f

/-- A STAT bit changed; bits 0 to 13 latch in STICKY on becoming 1. -/
def State.setLstat (s : State) (n : Nat) (f : Fld) (b : Bool) : State :=
  let s := if b && !s.lstat n f && decide (f.lo ≤ 13) then s.setBitAt (LINE_STICKY n) f.lo true else s
  s.setFlag (LINE_STAT n) f b

/-- Port n raises event 0x100 + 0x40·n + k; a disabled port raises only k = 0 (R139, R144). -/
def State.lineEvent (s : State) (n k : Nat) (data : List Word := []) : State :=
  if k = 0 ∨ s.flag (LINE_CFG n) LINE_CFG_EN then s.raise (islLP n) (0x100 + 0x40 * n + k) data else s

/-- A defect declared or cleared, with its event where it changes. -/
def State.lineDefect (s : State) (n : Nat) (f : Fld) (b : Bool) (kOn kOff : Nat) (data : List Word := []) : State :=
  if s.lstat n f = b then s
  else (s.setLstat n f b).lineEvent n (if b then kOn else kOff) data

/-- The port is enabled and its island runs. -/
def State.lineUp (s : State) (n : Nat) : Bool := s.running (islLP n) && s.flag (LINE_CFG n) LINE_CFG_EN

/-- The factor N of an STM-N. -/
def State.stmN (s : State) (n : Nat) : Nat :=
  match s.fld (LINE_CFG n) LINE_CFG_RATE with
  | 0 => 1
  | 1 => 4
  | _ => 16

/-! ### Consequent actions (R135, R138) -/

/-- dTIM acts only with AIS_ON_TIM at 1. -/
def State.timActs (s : State) (n : Nat) : Bool := s.lstat n LINE_STAT_TIM && s.flag (LINE_CFG n) LINE_CFG_AIS_ON_TIM

/-- dLOS, dLOF, an acting dTIM or dAIS: the defects behind AIS, aTSF and MS-RDI alike. -/
def State.lineFail (s : State) (n : Nat) : Bool :=
  s.lstat n LINE_STAT_LOS || s.lstat n LINE_STAT_LOF || s.timActs n || s.lstat n LINE_STAT_MSAIS

/-- The actions every declared defect requires, or, while the hold-off runs, those already in force. -/
def State.lineActs (s : State) (n : Nat) : State :=
  if s.lstat n LINE_STAT_HOLDOFF then s
  else
    let off := !s.flag (LINE_CFG n) LINE_CFG_EN
    let fail := s.lineFail n
    let sf := s.lstat n LINE_STAT_SF
    let ais := off || fail || (sf && s.flag (LINE_DEG_CFG n) LINE_DEG_CFG_AIS_ON_SF)
    let s := s.setLstat n LINE_STAT_AIS_OUT ais
    let s := s.setLine n { s.line n with sendRdi := fail && !off }
    let s := s.lineDefect n LINE_STAT_TSF (off || fail || sf) 0x20 0x21
    s.lineDefect n LINE_STAT_TSD (s.lstat n LINE_STAT_SD && !off) 0x22 0x23

/-- The consequent actions, then what the MSP group of the port and the role machine make of them (R259, R260, R283). -/
def State.lineActions (s : State) (n : Nat) : State := ((s.lineActs n).mspPort n).roleEval

/-- While dLOS, dLOF or dAIS is declared the K-byte filter and the SSM are frozen, and their runs restart when they clear (R129, R132). -/
def State.lineFreeze (s : State) (n : Nat) : State :=
  if s.lstat n LINE_STAT_LOS || s.lstat n LINE_STAT_LOF || s.lstat n LINE_STAT_MSAIS then
    let s := s.setFlag (LINE_K_RX n) LINE_K_RX_VALID false
    let s := s.setFlag (LINE_S1 n) LINE_S1_RX_VALID false
    s.setLine n { s.line n with kLast := none, kRun := 0, kMiss := 0, s1Last := none, s1Run := 0 }
  else s

/-! ### Loss of signal and the framer (R118, R119) -/

/-- The framer enters a state; leaving Out of frame clears OOF, entering it declares it and counts. -/
def State.setFramer (s : State) (n st : Nat) : State :=
  let old := s.fld (LINE_FRM_STAT n) LINE_FRM_STAT_STATE
  if old = st then s
  else
    let s := s.setFld (LINE_FRM_STAT n) LINE_FRM_STAT_STATE st
    let l := s.line n
    let keep := l.synced && decide (st ≠ frDark)
    let s := s.setLine n { l with errRun := 0, goodRun := 0, newPos := none, refB1 := none, refB2 := none, synced := keep }
    let s := if st = frOutOfFrame then s.count (LINE_OOF_CNT n) else s
    s.lineDefect n LINE_STAT_OOF (decide (st = frOutOfFrame)) 0x03 0x04

/-- Dark is left for Search once dLOS is clear and the receive CDR is locked (R119). -/
def State.leaveDark (s : State) (n : Nat) : State :=
  if s.fld (LINE_FRM_STAT n) LINE_FRM_STAT_STATE = frDark ∧ !s.lstat n LINE_STAT_LOS ∧ s.lstat n LINE_STAT_CDR_LOCK then
    s.setFramer n frSearch
  else s

/-- The sources that report loss of signal now, as bits: 1 LOS ball, 2 electrical, 4 MOD_ABS (R118). -/
def State.losCause (s : State) (n : Nat) : Nat :=
  let src := s.fld (LINE_CFG n) LINE_CFG_LOS_SRC
  bit (s.lstat n LINE_STAT_LOS_PIN && decide (src ≠ 1)) + 2 * bit ((s.line n).elec && decide (src ≠ 0))
    + 4 * bit (s.lstat n LINE_STAT_MOD_ABS)

/-- dLOS declared or cleared by its sources; declaring it takes the framer to Dark (R118, R119). The record carries the sources that report
the loss, or, where it clears, those that last reported it (R144, log entry 19). -/
def State.updateLos (s : State) (n : Nat) : State :=
  if !s.lineUp n then s
  else
    let c := s.losCause n
    let s := s.lineDefect n LINE_STAT_LOS (decide (c ≠ 0)) 0x01 0x02 [w32 (if c = 0 then (s.line n).losBits else c)]
    let s := if c = 0 then s else s.setLine n { s.line n with losBits := c }
    let s := if c ≠ 0 then s.setFramer n frDark else s.leaveDark n
    s.lineFreeze n

/-- Bit `n` of a byte of ball levels, replaced. -/
def setBall (b : BitVec 8) (n : Fin 8) (level : Bool) : BitVec 8 :=
  if level then b ||| BitVec.ofNat 8 (2 ^ n.val) else b &&& ~~~BitVec.ofNat 8 (2 ^ n.val)

/-- LOS_BALL_CHANGE (R36, R117, R118): the filtered level of the LOS ball, with event k = 0x19. SP's own receiver sees it whether the port
runs or not. -/
def execLosBallChange (n : Fin 8) (level : Bool) (s : State) : Host.Outcome State Fault Refusal :=
  .next (let s := { s with sp := { s.sp with losBall := setBall s.sp.losBall n level } }
  if !s.running (islLP n) then s
  else
    let s := s.setLstat n LINE_STAT_LOS_PIN level
    let s := s.lineEvent n 0x19 [w32 (bit level)]
    (s.updateLos n).lineActions n)

/-- ELECTRICAL_LOS (R118): no transition for LOS_T_US, or two clean intervals. -/
def execElectricalLos (n : Fin 8) (lost : Bool) (s : State) : Host.Outcome State Fault Refusal :=
  .next (if !s.running (islLP n) then s
  else
    let s := s.setLine n { s.line n with elec := lost }
    (s.updateLos n).lineActions n)

/-- MOD_ABS_CHANGE (R36, R116, R117, R118, R138): event k = 0x18; a removal declares dLOS with cause MOD_ABS, and where the framer was in search the
search is aborted with event k = 0x1D and the 10 ms hold-off starts. SP's own receiver sees the level, and the 300 ms of R116 run, whether the
port runs or not. -/
def execModAbsChange (n : Fin 8) (level : Bool) (s : State) : Host.Outcome State Fault Refusal :=
  .next (let s := { s with sp := { s.sp with modAbs := setBall s.sp.modAbs n level } }
  let s := s.setLine n { s.line n with settling := !level }
  if !s.running (islLP n) then s
  else
    let st := s.fld (LINE_FRM_STAT n) LINE_FRM_STAT_STATE
    let abort := level && s.lineUp n && (decide (st = frSearch) || decide (st = frPresync) || decide (st = frOutOfFrame))
    let s := s.setLstat n LINE_STAT_MOD_ABS level
    let s := s.lineEvent n 0x18 [w32 (bit level)]
    let s := s.updateLaser n
    let s := if abort then s.setLstat n LINE_STAT_HOLDOFF true else s
    let s := s.updateLos n
    let s := if abort then s.lineEvent n 0x1D else s
    s.lineActions n)

/-- MOD_ABS_SETTLE (R116): MOD_ABS has been low for 300 ms. -/
def execModAbsSettle (n : Fin 8) (s : State) : Host.Outcome State Fault Refusal :=
  .next (if s.sp.modAbs.getLsbD n then s
  else
    let s := s.setLine n { s.line n with settling := false }
    if s.running (islLP n) then s.updateLaser n else s)

/-- HOLDOFF_END (R138): event k = 0x1E, and every action the declared defects require starts. -/
def execHoldoffEnd (n : Fin 8) (s : State) : Host.Outcome State Fault Refusal :=
  .next (if s.running (islLP n) && s.lstat n LINE_STAT_HOLDOFF then
    ((s.setLstat n LINE_STAT_HOLDOFF false).lineEvent n 0x1E).lineActions n
  else s)

/-- CDR_LOCK_CHANGE (R119): lock lets Dark end; its loss raises event k = 0x1F. -/
def execCdrLockChange (n : Fin 8) (locked : Bool) (s : State) : Host.Outcome State Fault Refusal :=
  .next (if !s.running (islLP n) then s
  else
    let was := s.lstat n LINE_STAT_CDR_LOCK
    let s := s.setLstat n LINE_STAT_CDR_LOCK locked
    if locked then s.leaveDark n
    else if was then s.lineEvent n 0x1F else s)

/-! ### One received frame (R119 to R132) -/

/-- A frame on port `n`'s lane as its settings read it (R119, R121, R122). -/
def State.lineRx (s : State) (n : Nat) (bytes : List Byte) : RxFrame :=
  readFrame (s.stmN n) (s.flag (LINE_CFG n) LINE_CFG_SCR_EN) (s.flag (LINE_CFG n) LINE_CFG_RX_INV) bytes

/-- In Out of frame: the word is correct at the old position in a second consecutive frame. -/
def State.oldBack (s : State) (n : Nat) (ok : Bool) : Bool := ok && decide (1 ≤ (s.line n).goodRun)

/-- In Out of frame: the position that the search found in the frame before is confirmed. -/
def State.newBack (s : State) (n : Nat) (f : LineFrame) : Option (Nat × List Byte) :=
  f.found.filter (fun p => decide ((s.line n).newPos = some p.1))

/-- The framer's next state and what it remembers, for one frame whose word at the expected position is correct or not (R119). -/
def State.framerStep (s : State) (n : Nat) (ok : Bool) (f : LineFrame) : State :=
  let st := s.fld (LINE_FRM_STAT n) LINE_FRM_STAT_STATE
  let l := s.line n
  if st = frSearch then
    match f.found with
    | some p => (s.setFramer n frPresync).setLine n { (s.setFramer n frPresync).line n with candidate := p.1 }
    | none => s
  else if st = frPresync then s.setFramer n (if ok then frInFrame else frSearch)
  else if st = frInFrame then
    if ok then s.setLine n { l with errRun := 0 }
    else if 3 ≤ l.errRun then s.setFramer n frOutOfFrame
    else s.setLine n { l with errRun := l.errRun + 1 }
  else if st = frOutOfFrame then
    if s.oldBack n ok then s.setFramer n frInFrame
    else match s.newBack n f with
      | some p => (s.setFramer n frInFrame).setLine n { (s.setFramer n frInFrame).line n with candidate := p.1 }
      | none => s.setLine n { l with goodRun := bit ok, newPos := f.found.map (fun p => p.1) }
  else s

/-- The bytes of the frame that the framer has taken: those from a new position where it has just been confirmed. -/
def State.frameBytes (s : State) (n : Nat) (ok : Bool) (f : LineFrame) : List Byte :=
  if s.fld (LINE_FRM_STAT n) LINE_FRM_STAT_STATE = frOutOfFrame ∧ !s.oldBack n ok then
    match s.newBack n f with
    | some p => p.2
    | none => f.bytes
  else f.bytes

/-- The LOF integrator (R120): it counts frames out of In frame, and 24 consecutive frames in In frame reset it. Under dLOS nothing is
declared. One that has reached 24 by then declares dLOF at the first frame after dLOS has cleared, whatever state the framer has reached: the
spec does not say otherwise (DESIGN CHOICE, log entry 121). -/
def State.lofStep (s : State) (n : Nat) : State :=
  let l := s.line n
  let inFrame := decide (s.fld (LINE_FRM_STAT n) LINE_FRM_STAT_STATE = frInFrame)
  let run := if inFrame then min 24 (l.inRun + 1) else 0
  let s := s.setLine n { l with inRun := run, synced := l.synced || decide (run = 24) }
  let i := s.fld (LINE_FRM_STAT n) LINE_FRM_STAT_LOFI
  let i' := if inFrame then (if run = 24 then 0 else i) else min 24 (i + 1)
  let s := s.setFld (LINE_FRM_STAT n) LINE_FRM_STAT_LOFI i'
  if s.lstat n LINE_STAT_LOS then s
  else if i' = 24 then s.lineDefect n LINE_STAT_LOF true 0x05 0x06
  else if run = 24 then s.lineDefect n LINE_STAT_LOF false 0x05 0x06
  else s

/-- dAIS and dRDI from K2 bits 2:0, and K2_LOW as last filtered: a value that has held for 3 frames (R130). -/
def State.lowDetect (s : State) (n low : Nat) : State :=
  let l := s.line n
  let aisOn := if low = 7 then min 3 (l.aisOn + 1) else 0
  let aisOff := if low = 7 then 0 else min 3 (l.aisOff + 1)
  let rdiOn := if low = 6 then min 5 (l.rdiOn + 1) else 0
  let rdiOff := if low = 6 then 0 else min 5 (l.rdiOff + 1)
  let run := if low = l.lowLast then min 3 (l.lowRun + 1) else 1
  let s := s.setLine n { l with aisOn := aisOn, aisOff := aisOff, rdiOn := rdiOn, rdiOff := rdiOff, lowLast := low, lowRun := run }
  let s := if run = 3 then s.setFld (LINE_K_RX n) LINE_K_RX_K2_LOW low else s
  let s := if aisOn = 3 then s.lineDefect n LINE_STAT_MSAIS true 0x09 0x0A
    else if aisOff = 3 then s.lineDefect n LINE_STAT_MSAIS false 0x09 0x0A else s
  if rdiOn = 5 then s.lineDefect n LINE_STAT_MSRDI true 0x0B 0x0C
  else if rdiOff = 5 then s.lineDefect n LINE_STAT_MSRDI false 0x0B 0x0C else s

/-- The K1/K2 filter and dKINC (R128, R129) for the 13-bit value of one frame. A value that persists makes K_RX current; only one that differs
from the value already accepted is an acceptance, which raises event k = 0x11 and ends dKINC. -/
def State.kFilter (s : State) (n v : Nat) : State :=
  let l := s.line n
  let run := if l.kLast = some v then l.kRun + 1 else 1
  let met := decide (s.fld (LINE_K_CFG n) LINE_K_CFG_PERSIST ≤ run)
  let miss := if met then 0 else min 12 (l.kMiss + 1)
  let s := s.setLine n { l with kLast := some v, kRun := min 7 run, kMiss := miss }
  if met then
    let s := s.setFld (LINE_K_RX n) LINE_K_RX_K1 (v / 32)
    let s := s.setFld (LINE_K_RX n) LINE_K_RX_K2_HIGH (v % 32)
    let s := s.setFlag (LINE_K_RX n) LINE_K_RX_VALID true
    if l.kAcc = some v then s
    else
      let s := (s.setLine n { s.line n with kAcc := some v }).lineEvent n 0x11 [s.reg (LINE_K_RX n)]
      s.lineDefect n LINE_STAT_KINC false 0x12 0x13
  else if miss = 12 then s.lineDefect n LINE_STAT_KINC true 0x12 0x13
  else s

/-- The SSM accepted after 8 identical frames (R132). -/
def State.ssmFilter (s : State) (n v : Nat) : State :=
  let l := s.line n
  let run := if l.s1Last = some v then min 8 (l.s1Run + 1) else 1
  let s := s.setLine n { l with s1Last := some v, s1Run := run }
  if run = 8 ∧ (!s.flag (LINE_S1 n) LINE_S1_RX_VALID ∨ s.fld (LINE_S1 n) LINE_S1_RX ≠ v) then
    let s := s.setFld (LINE_S1 n) LINE_S1_RX v
    (s.setFlag (LINE_S1 n) LINE_S1_RX_VALID true).lineEvent n 0x14 [w32 v]
  else s

/-- The bytes of a 16-word trace register array. -/
def State.traceBytes (s : State) (a : Nat → Nat) : List Byte :=
  (List.range 16).flatMap fun k => leBytes 4 (s.reg (a k)).toNat

/-- dTIM judged on the accepted trace and J0_EXP (R125, R126). -/
def State.judgeTim (s : State) (n : Nat) : State :=
  let acc := s.traceBytes (LINE_J0_ACC n)
  let exp := s.traceBytes (LINE_J0_EXP n)
  let bad := match s.fld (LINE_J0_CFG n) LINE_J0_CFG_MODE with
    | 0 => false
    | 1 => decide (acc.take 1 ≠ exp.take 1)
    | 2 => decide (((acc.take 16).drop 1).map (· &&& 0x7F) ≠ ((exp.take 16).drop 1).map (· &&& 0x7F))
    | _ => decide (acc ≠ exp)
  s.lineDefect n LINE_STAT_TIM (bad && (s.line n).j0Acc) 0x07 0x08

/-- A trace accepted: J0_ACC, event k = 0x15, dTIM judged (R126). -/
def State.acceptTrace (s : State) (n : Nat) (t : List Byte) : State :=
  let raw := t ++ List.replicate (64 - t.length) 0
  let old := s.traceBytes (LINE_J0_ACC n)
  let had := (s.line n).j0Acc
  let s := s.each (List.range 16) (fun s k => s.setReg (LINE_J0_ACC n k) (w32 (leNat ((raw.drop (4 * k)).take 4))))
  let s := s.setLine n { s.line n with j0Acc := true }
  let s := if had && decide (old = raw) then s else s.lineEvent n 0x15 [w32 (leNat (raw.take 4))]
  s.judgeTim n

/-- A whole trace period: its run, and acceptance after 3 identical periods (R126). -/
def State.tracePeriod (s : State) (n : Nat) (t : List Byte) : State :=
  let l := s.line n
  let run := if l.j0Last = t then min 3 (l.j0Run + 1) else 1
  let s := s.setLine n { l with j0Buf := [], j0Last := t, j0Run := run }
  if run = 3 then s.acceptTrace n t else s

/-- One J0 byte received in In frame (R125, R126). -/
def State.traceByte (s : State) (n : Nat) (b : Byte) : State :=
  let l := s.line n
  match s.fld (LINE_J0_CFG n) LINE_J0_CFG_MODE with
  | 0 => s
  | 1 => s.tracePeriod n [b]
  | 2 =>
    let buf := if b.toNat ≥ 128 then [b] else if l.j0Buf = [] then [] else l.j0Buf ++ [b]
    if buf.length = 16 then
      if crc7 buf = (buf.getD 0 0).toNat % 128 then s.tracePeriod n buf
      else (s.setLine n { l with j0Buf := [], j0Last := [], j0Run := 0 }).count (LINE_J0_CRC_CNT n)
    else s.setLine n { l with j0Buf := buf }
  | _ =>
    let buf := (l.j0Buf ++ [b]).drop (l.j0Buf.length + 1 - 64)
    if buf.length = 64 ∧ buf.getD 62 0 = 0x0D ∧ buf.getD 63 0 = 0x0A then s.tracePeriod n buf
    else s.setLine n { l with j0Buf := buf }

/-- B2 and REI counting runs (R123). -/
def State.b2Counting (s : State) (n : Nat) : Bool :=
  decide (s.fld (LINE_FRM_STAT n) LINE_FRM_STAT_STATE = frInFrame) && !s.lineFail n

/-- The received REI: M1, 0 where it is beyond 24N on STM-1 and STM-4 (R123). -/
def State.reiOf (s : State) (n : Nat) (m1 : Byte) : Nat :=
  match s.fld (LINE_CFG n) LINE_CFG_RATE with
  | 0 => if m1.toNat ≤ 24 then m1.toNat else 0
  | 1 => if m1.toNat ≤ 96 then m1.toNat else 0
  | _ => m1.toNat

/-- A frame in which B2 counting stopped spoils both sub-windows (R134). -/
def State.spoilWindows (s : State) (n : Nat) : State := s.setLine n { s.line n with excOk := false, degOk := false }

/-- B1, B2 and M1 of one frame in In frame, against the parities of the previous frame (R122, R123, R134). -/
def State.parityStep (s : State) (n : Nat) (f : RxFrame) : State :=
  let l := s.line n
  let v1 := match l.refB1 with
    | some p => bitErrors p f.b1
    | none => 0
  let v2 := match l.refB2 with
    | some p => listErrors p f.b2
    | none => 0
  let count1 := !s.lstat n LINE_STAT_LOS && !s.lstat n LINE_STAT_LOF
  let count2 := s.b2Counting n
  let s := if count1 then s.count (LINE_B1_CNT n) v1 else s
  let s := s.setLine n { s.line n with refB1 := some f.bip8, refB2 := some f.bip24, lastB2 := v2 }
  if count2 then
    let s := (s.count (LINE_B2_CNT n) v2).count (LINE_REI_CNT n) (s.reiOf n f.m1)
    s.setLine n { s.line n with excSum := l.excSum + v2, degSum := l.degSum + v2 }
  else s.spoilWindows n

/-- The overhead of a frame received in In frame. -/
def State.overheadStep (s : State) (n : Nat) (f : RxFrame) : State :=
  let s := s.setReg (LINE_K_RAW n) (w32 (f.k1.toNat + 256 * f.k2.toNat))
  let s := s.setReg (LINE_OH_RX n) (w32 (f.e1.toNat + 256 * f.e2.toNat + 65536 * f.f1.toNat))
  let s := s.setLine n { s.line n with dcc := f.dcc }
  let s := s.parityStep n f
  let s := s.lowDetect n (f.k2.toNat % 8)
  let s := s.lineFreeze n
  let frozen := s.lstat n LINE_STAT_LOS || s.lstat n LINE_STAT_LOF || s.lstat n LINE_STAT_MSAIS
  let s := if frozen then s else (s.kFilter n (f.k1.toNat * 32 + f.k2.toNat / 8)).ssmFilter n (f.s1.toNat % 16)
  s.traceByte n f.j0

/-- LINE_FRAME (R119 to R132, R135): the framer, then the overhead of a frame received in In frame, then the LOF integrator and the
consequent actions. -/
def execLineFrame (n : Fin 8) (f : LineFrame) (s : State) : Host.Outcome State Fault Refusal :=
  .next (if !s.lineUp n then s
  else
    let ok := (s.lineRx n f.bytes).wordOk
    let bytes := s.frameBytes n ok f
    let s := s.framerStep n ok f
    let s := s.lofStep n
    let s := if s.fld (LINE_FRM_STAT n) LINE_FRM_STAT_STATE = frInFrame then s.overheadStep n (s.lineRx n bytes) else s.spoilWindows n
    (s.lineFreeze n).lineActions n)

/-! ### Error rate (R133, R134) -/

/-- Declare and clear counts of a threshold exponent for STM-1. -/
def berCounts (k : Nat) : Nat × Nat :=
  match k with
  | 3 => (307, 61)
  | 4 => (569, 113)
  | 5 => (611, 122)
  | 6 => (615, 122)
  | _ => (616, 123)

/-- A window with one more sub-window, at most eight. -/
def pushWindow (l : List (Option Nat)) (v : Option Nat) : List (Option Nat) := (l ++ [v]).drop (l.length + 1 - 8)

/-- The sum over a window; a spoilt sub-window contributes 0. -/
def windowSum (l : List (Option Nat)) : Nat := (l.map (fun o => o.getD 0)).sum

/-- A detector judged at a sub-window's end: held while a spoilt sub-window lies in its window. -/
def State.judgeBer (s : State) (n : Nat) (win : List (Option Nat)) (exp : Nat) (f : Fld) (kOn kOff : Nat) : State :=
  if win.any (fun o => o.isNone) then s
  else if (berCounts exp).1 * s.stmN n ≤ windowSum win then s.lineDefect n f true kOn kOff
  else if windowSum win ≤ (berCounts exp).2 * s.stmN n then s.lineDefect n f false kOn kOff
  else s

/-- BER_SUBWINDOW_END (R133 to R135). A sub-window at whose end B2 counting stands still holds frames not counted. -/
def execBerSubwindowEnd (n : Fin 8) (d : BerDetector) (s : State) : Host.Outcome State Fault Refusal :=
  .next (if !s.lineUp n then s
  else
    let l := s.line n
    match d with
    | .exc =>
      let win := pushWindow l.excWin (if l.excOk && s.b2Counting n then some l.excSum else none)
      let s := s.setLine n { l with excWin := win, excSum := 0, excOk := true }
      let s := s.setFld (LINE_BER_STAT n) LINE_BER_STAT_EXC_SUM (min 65535 (windowSum win))
      (s.judgeBer n win (s.fld (LINE_DEG_CFG n) LINE_DEG_CFG_SF_EXP) LINE_STAT_SF 0x0D 0x0E).lineActions n
    | .deg =>
      let win := pushWindow l.degWin (if l.degOk && s.b2Counting n then some l.degSum else none)
      let s := s.setLine n { l with degWin := win, degSum := 0, degOk := true }
      let s := s.setFld (LINE_BER_STAT n) LINE_BER_STAT_DEG_SUM (min 65535 (windowSum win))
      (s.judgeBer n win (s.fld (LINE_DEG_CFG n) LINE_DEG_CFG_SD_EXP) LINE_STAT_SD 0x0F 0x10).lineActions n)

/-! ### Laser shutdown (R36, R37, R136, R140) -/

/-- The laser state machine enters a state. -/
def State.setAls (s : State) (n st : Nat) : State := (s.setFld (LINE_FRM_STAT n) LINE_FRM_STAT_ALS st).updateLaser n

/-- The laser state. -/
def State.als (s : State) (n : Nat) : Nat := s.fld (LINE_FRM_STAT n) LINE_FRM_STAT_ALS

/-- ALS_DEACTIVATION (R136): dLOS declared for DEACT_MS. -/
def execAlsDeactivation (n : Fin 8) (s : State) : Host.Outcome State Fault Refusal :=
  .next (if s.lineUp n && s.flag (LINE_CFG n) LINE_CFG_ALS_EN && s.lstat n LINE_STAT_LOS && decide (s.als n = alsOn) then
    (s.setAls n alsOff).lineEvent n 0x1A
  else s)

/-- ALS_RESTART_PULSE (R136): RESTART_S elapsed in Laser off. -/
def execAlsRestartPulse (n : Fin 8) (s : State) : Host.Outcome State Fault Refusal :=
  .next (if s.lineUp n && decide (s.als n = alsOff) then (s.setAls n alsRestart).lineEvent n 0x1B else s)

/-- ALS_PULSE_END (R136, R140): a pulse ends with dLOS still declared. -/
def execAlsPulseEnd (n : Fin 8) (s : State) : Host.Outcome State Fault Refusal :=
  .next (if s.lineUp n && s.lstat n LINE_STAT_LOS && (decide (s.als n = alsRestart) || decide (s.als n = alsManual)) then
    let s := if s.als n = alsManual then s.setFld (LINE_ALS_CMD n) LINE_ALS_CMD_RESULT 0x03 else s
    s.setAls n alsOff
  else s)

/-- ALS_LOS_CLEAR (R136, R140): dLOS clears in Laser off or during a pulse; event k = 0x1C. -/
def execAlsLosClear (n : Fin 8) (s : State) : Host.Outcome State Fault Refusal :=
  .next (if s.lineUp n && !s.lstat n LINE_STAT_LOS && decide (s.als n ≠ alsOn) then
    let s := if s.als n = alsManual then s.setFld (LINE_ALS_CMD n) LINE_ALS_CMD_RESULT 0x02 else s
    (s.setAls n alsOn).lineEvent n 0x1C
  else s)

/-- A command of LINE_ALS_CMD (R140): a repeated token has no effect; outside Laser off, or with CMD 0 or 3, it is refused. -/
def State.alsCommand (s : State) (n : Nat) (cmd token : Nat) : State :=
  if s.tokenIs (LINE_ALS_CMD n) LINE_ALS_CMD_TOKEN token then s
  else if s.lineUp n && decide (s.als n = alsOff) && (decide (cmd = 1) || decide (cmd = 2)) then
    let s := s.setReg (LINE_ALS_CMD n) (w32 (token + 256 * cmd + 65536 * 0x01))
    (s.setAls n alsManual).lineEvent n 0x1B
  else s.setFld (LINE_ALS_CMD n) LINE_ALS_CMD_RESULT 0x04

/-- SP_LASER_SHUTDOWN (R36, R37, R46, R49): SP judges its own TX_DISABLE drive for a port, MOD_ABS by its own receiver, whatever state the line
port is in; asserting it on LOS while the line port does not raises event 0x018. From Safe entry or the declaration of power failure on the
drive stays asserted. -/
def execSpLaserShutdown (n : Fin 8) (losHeld : Bool) (s : State) : Host.Outcome State Fault Refusal :=
  .next (if !s.sp.powered then s
  else
    let en := s.bitAt SUP_ALS_CFG n
    let held := en && losHeld
    let want := held || (en && (s.sp.modAbs.getLsbD n || !s.running (islLP n))) || decide (s.life = stDormant)
      || decide (s.life = stSafe) || decide (s.sp.powerFail ≠ .idle)
    let was := s.bitAt SUP_SAFETY_STAT (8 + n.val)
    let s := s.setBitAt SUP_SAFETY_STAT (8 + n.val) want
    if held && !was && !s.lstat n LINE_STAT_TXDIS then s.raise islSP 0x018 [w32 n] else s)

/-! ### Enabling, disabling, transmitting (R116, R119, R124, R131, R139) -/

/-- A port's own state put back to its start: what it has received and detected is forgotten, every defect bit reads 0 and no event is raised;
the balls, and what hangs on them, stay. -/
def State.clearLine (s : State) (n : Nat) (st : Nat) : State :=
  let s := s.setFld (LINE_STAT n) ⟨0, 9⟩ 0
  let s := s.setFlag (LINE_STAT n) LINE_STAT_HOLDOFF false
  let s := s.setFld (LINE_FRM_STAT n) LINE_FRM_STAT_STATE st
  let s := s.setFld (LINE_FRM_STAT n) LINE_FRM_STAT_LOFI 0
  let s := s.setFlag (LINE_K_RX n) LINE_K_RX_VALID false
  let s := s.setFlag (LINE_S1 n) LINE_S1_RX_VALID false
  s.setLine n { LinePort.init with elec := (s.line n).elec, settling := (s.line n).settling }

/-- The enabled port starts in Dark, and its defects are detected again (R119, R139). -/
def State.startLine (s : State) (n : Nat) : State :=
  let s := (s.clearLine n frDark).setLstat n LINE_STAT_DISABLED false
  ((s.updateLaser n).updateLos n).lineActions n

/-- The port is enabled: event k = 0x00, and it starts (R139). -/
def State.enableLine (s : State) (n : Nat) : State := (s.lineEvent n 0x00 [w32 1]).startLine n

/-- The disabled port: TX_DISABLE, AIS towards PX, aTSF, the framer in Disabled, the lane at common mode and every defect bit 0 (R135, R139). -/
def State.haltLine (s : State) (n : Nat) : State :=
  let s := (s.clearLine n frDisabled).setLstat n LINE_STAT_DISABLED true
  let s := s.setFld (LINE_FRM_STAT n) LINE_FRM_STAT_ALS alsOn
  (s.updateLaser n).lineActions n

/-- The port is disabled with event k = 0x00 (R139). -/
def State.disableLine (s : State) (n : Nat) : State := (s.lineEvent n 0x00 [w32 0]).haltLine n

/-- The island of port `n` leaves reset: the balls as they stand, and the port started or held as EN says. EN has not changed, so event k = 0x00
is not raised (R119, R135, R144). -/
def State.bootLine (s : State) (n : Nat) : State :=
  let s := s.setFlag (LINE_STAT n) LINE_STAT_LOS_PIN (s.sp.losBall.getLsbD n)
  let s := s.setFlag (LINE_STAT n) LINE_STAT_MOD_ABS (s.sp.modAbs.getLsbD n)
  if s.flag (LINE_CFG n) LINE_CFG_EN then s.startLine n else s.haltLine n

/-- EN written by a service: the port follows where the bit changes. -/
def State.lineEnWrite (s : State) (n : Nat) (en : Bool) : State :=
  let was := s.flag (LINE_CFG n) LINE_CFG_EN
  let s := s.serviceWrite (LINE_CFG n) 1 (w32 (bit en))
  if was = en then s else if en then s.enableLine n else s.disableLine n

/-- The transmitted J0 byte and the next trace position (R125, R127). -/
def State.txTrace (s : State) (n : Nat) : Byte × Nat :=
  traceOut (s.fld (LINE_J0_CFG n) LINE_J0_CFG_MODE) (s.traceBytes (LINE_J0_TX n)) (s.line n).txJ0

/-- `k` parity bits inverted, from the most significant bit of the first byte on. -/
def invertBits : Nat → List Byte → List Byte
  | _, [] => []
  | k, b :: bs => (b ^^^ BitVec.ofNat 8 (256 - 2 ^ (8 - min 8 k))) :: invertBits (k - min 8 k) bs

/-- The D bytes port `n` sends in one group: those received by a port that names it PEER in transparent mode, else its own FILL (R124). A port
that has received no frame has no bytes to give, and they are free (DESIGN CHOICE, log entry 5). -/
def State.txDcc (s : State) (n : Nat) (fix : Fld) (o len : Nat) : List Byte :=
  match (List.range 8).find? (fun m => s.lineUp m && !s.flag (LINE_DCC_CFG m) fix && decide (s.fld (LINE_DCC_CFG m) LINE_DCC_CFG_PEER = n)) with
  | some m =>
    if (s.line m).dcc = [] then (List.range len).map (fun i => BitVec.ofNat 8 (s.freeWord.toNat >>> (2 * i + o)))
    else ((s.line m).dcc.drop o).take len
  | none => List.replicate len (BitVec.ofNat 8 (s.fld (LINE_DCC_CFG n) LINE_DCC_CFG_FILL))

/-- The largest M1 of each rate (R123). -/
def State.m1Max (s : State) (n : Nat) : Nat := min 255 (24 * s.stmN n)

/-- The overhead of port `n`'s next frame. Before it has sent a frame its parity bytes are free (R122 to R132). -/
def State.lineTx (s : State) (n : Nat) : TxFrame :=
  let l := s.line n
  let par := l.txPar.getD (BitVec.ofNat 8 s.freeWord.toNat, (List.range (3 * s.stmN n)).map (fun i => BitVec.ofNat 8 (s.freeWord.toNat >>> i)))
  let k := if l.kLate then l.kNow else s.reg (LINE_K_TX n)
  let rdi := l.sendRdi || s.flag (LINE_FORCE n) LINE_FORCE_MSRDI
  let k2 := if rdi then (k.toNat / 256 % 256) / 8 * 8 + 6 else k.toNat / 256 % 256
  let m1 := if s.lstat n LINE_STAT_LOS || s.lstat n LINE_STAT_LOF || s.lstat n LINE_STAT_MSAIS then 0 else min (s.m1Max n) l.lastB2
  let b1 := if s.flag (LINE_FORCE n) LINE_FORCE_B1_ERR then par.1 ^^^ 1 else par.1
  let b2 := invertBits (min (24 * s.stmN n) (s.fld (LINE_FORCE n) LINE_FORCE_B2_ERR_N)) par.2
  let ais := s.flag (LINE_FORCE n) LINE_FORCE_MSAIS
  let ms (b : Byte) : Byte := if ais then 0xFF else b
  let oh := s.reg (LINE_OH_TX n)
  { b1 := b1, b2 := b2.map ms, m1 := ms (BitVec.ofNat 8 m1), k1 := ms (BitVec.ofNat 8 k.toNat), k2 := ms (BitVec.ofNat 8 k2)
    s1 := ms (BitVec.ofNat 8 (s.fld (LINE_S1 n) LINE_S1_TX)), j0 := (s.txTrace n).1
    e1 := BitVec.ofNat 8 oh.toNat, e2 := ms (BitVec.ofNat 8 (oh.toNat / 256)), f1 := BitVec.ofNat 8 (oh.toNat / 65536)
    dcc := s.txDcc n LINE_DCC_CFG_RS_FIX 0 3 ++ (s.txDcc n LINE_DCC_CFG_MS_FIX 3 9).map ms }

/-- A slot that is enabled binds AUG-1 `a` of port `n` (R145). -/
def State.augBound (s : State) (n a : Nat) : Bool :=
  (List.range 64).any fun k =>
    s.flag (PATH_SLOT_CFG k) PATH_SLOT_CFG_EN && decide (s.fld (PATH_SLOT_CFG k) PATH_SLOT_CFG_PORT = n)
      && decide (s.fld (PATH_SLOT_CFG k) PATH_SLOT_CFG_AUG = a)

/-- The AUG-1s of port `n`'s next frame: what PX hands the port it transmits for where a slot binds the position, an unequipped AU-4
elsewhere (R145, R282). -/
def State.txAugs (s : State) (n : Nat) (augs : List (List Byte)) : List (List Byte) :=
  (List.range (s.stmN n)).map fun a => if s.augBound (s.txPort n) a then augs.getD a [] else unequippedAug

/-- Port `n` sends its next frame around the AU payload `augs` that PX hands it, scrambled and with its lane's polarity, and takes the parities
of the frame for the one that follows (R121, R122, R131). -/
def State.buildFrame (s : State) (n : Nat) (augs : List (List Byte)) : State :=
  if !s.lineUp n then s
  else
    let N := s.stmN n
    let l := s.line n
    let fr := s.lineTx n
    let bs := fr.bytes N (s.flag (LINE_FORCE n) LINE_FORCE_MSAIS) (s.txAugs n augs)
    let lane := scrambleFrame N (s.flag (LINE_CFG n) LINE_CFG_SCR_EN) bs
    let s := s.setLine n { l with
      tx := fr, txJ0 := (s.txTrace n).2, kNow := 0, kLate := false, txPar := some (bip8 lane, bip24 N bs)
      sent := invertLane (s.flag (LINE_CFG n) LINE_CFG_TX_INV) lane }
    s.useFree

end Sys2Proof.Machine
end

