-- ==== Sys2Proof/Machine/Path.lean ====
section
/-! DEFINITION. Path processing: which paths the slots carry, pointer interpretation and generation, path overhead, path defects and
their consequent actions, and the paths that the Index joins (R145 to R155, R157). -/

namespace Sys2Proof.Machine

/-! ### What a path holds -/

/-- What a path holds beside its registers. -/
def State.path (s : State) (p : PathId) : PathPort := tget s.paths .init (pathKey p)

/-- The same, replaced. -/
def State.setPath (s : State) (p : PathId) (x : PathPort) : State := { s with paths := tset s.paths .init (pathKey p) x }

/-- A status bit of a path. -/
def State.pstat (s : State) (p : PathId) (f : Fld) : Bool := s.flag (pathStatAddr p) f

/-! ### The paths an entry joins (R157, R159) -/

/-- The endpoint word of a path, by its slot's port and AUG (R147, R157). -/
def State.pathEp (s : State) (p : PathId) : Word :=
  let c := s.reg (PATH_SLOT_CFG (pathSlot p))
  let base := PATH_SLOT_CFG_PORT.get c + 8 * PATH_SLOT_CFG_AUG.get c
  match p with
  | .ho h => w32 (0x10000000 + base + 128 * (if PATH_SLOT_CFG_STRUCT.get c = 0 then 0 else h.val % 3 + 1))
  | .lo l =>
    if s.loTu3 l then w32 (0x20000000 + base + 128 * (l % 84 / 28 + 1))
    else w32 (0x20000000 + base + 128 * (l % 84 / 28 + 1) + 512 * (l % 28 / 4 + 1) + 4096 * (l % 4 + 1))

/-- The paths that transmit what path `p` receives. -/
def State.pathDests (s : State) (p : PathId) : List PathId :=
  let w := s.pathEp p
  s.kept.flatMap fun (e, k) =>
    ([k.a, k.b, k.ap].filterMap fun d =>
      if s.entryFeed e k d = .signal w ∧ epType d ≠ 0 then s.epPath d else none)

/-- Lower-order path `l` is joined to another path, so it is passed through (R152). -/
def State.loPassed (s : State) (l : Fin 5376) : Bool :=
  match s.feed (s.pathEp (.lo l)) with
  | .signal w => decide (epType w = 2)
  | _ => false

/-- The path is terminated. -/
def State.pathTerm (s : State) : PathId → Bool
  | .ho h => s.hoTerm h
  | .lo l => !s.loPassed l

/-- The path's overhead is processed: terminated, or passed through and monitored (R152). -/
def State.pathWatched (s : State) : PathId → Bool
  | .ho h => s.hoTerm h || s.hoMon h
  | .lo _ => true

/-! ### Defects and consequent actions (R154, R155, R167) -/

/-- PATH_SUM shows whether any path of slot `k` has a declared defect. -/
def State.updatePathSum (s : State) (k : Nat) : State :=
  let bad (w : Word) : Bool := decide ((⟨2, 9⟩ : Fld).get w ≠ 0)
  let any := (List.range 3).any (fun j => bad (s.reg (PATH_HO1 (3 * k + j))))
    || (List.range 84).any (fun j => bad (s.reg (PATH_LO1 (84 * k + j))))
  s.setBitAt (PATH_SUM (k / 32)) (k % 32) any

/-- PX raises an event of a path with its number and status word (R167). -/
def State.pathEvent (s : State) (p : PathId) (e : Nat) : State := s.raise islPX e [w32 (pathNum p), s.reg (pathStatAddr p)]

/-- The event number by which a defect is declared; clearing it raises the next (R167). -/
def pathDefectEvent (p : PathId) (f : Fld) : Nat :=
  match p with
  | .ho _ => 0x300 + 2 * (f.lo - 2)
  | .lo _ => if f.lo = 10 then 0x331 else 0x320 + 2 * (f.lo - 2)

/-- A defect bit of a path declared or cleared, with its event where it changes. -/
def State.pathDefect (s : State) (p : PathId) (f : Fld) (b : Bool) : State :=
  if s.pstat p f = b then s
  else
    let s := (s.setFlag (pathStatAddr p) f b).updatePathSum (pathSlot p)
    s.pathEvent p (pathDefectEvent p f + bit (!b))

/-- dTIM acts unless TIM_NOAIS is 1. -/
def State.pathTimActs (s : State) (p : PathId) : Bool :=
  s.pstat p PATH_HO1_TIM && !(match p with
    | .ho h => s.flag (PATH_HO0 h) PATH_HO0_TIM_NOAIS
    | .lo l => s.flag (PATH_LO0 l) PATH_LO0_TIM_NOAIS)

/-- AIS, LOP, or on a lower-order path server signal fail. -/
def State.pathDown (s : State) (p : PathId) : Bool :=
  s.pstat p PATH_HO1_AIS || s.pstat p PATH_HO1_LOP || (match p with
    | .ho _ => false
    | .lo l => s.flag (PATH_LO1 l) PATH_LO1_SSF)

/-- Forward AIS is sent for the path (R155). -/
def State.pathForwardAis (s : State) (p : PathId) : Bool :=
  s.pathDown p || s.pstat p PATH_HO1_UNEQ || s.pathTimActs p || s.pstat p PATH_HO1_PLM

/-- RDI is sent back for a terminated path (R155). -/
def State.pathSendsRdi (s : State) (p : PathId) : Bool :=
  s.pathTerm p && (s.pathDown p || s.pstat p PATH_HO1_UNEQ || s.pathTimActs p)

/-- TSF and TSD as the declared defects require (R155). -/
def State.pathTsf (s : State) (p : PathId) : State :=
  let down := s.pathDown p
  let a := pathStatAddr p
  let s1 := s.setFlag a PATH_HO1_TSF_I down
  let s2 := s1.setFlag a PATH_HO1_TSF_N (down || s.pstat p PATH_HO1_UNEQ || s.pathTimActs p || s.pstat p PATH_HO1_EXC)
  s2.setFlag a PATH_HO1_TSD (s.pstat p PATH_HO1_DEG)

/-- Server signal fail of lower-order path `l`: TSF of its higher-order path, or dLOM (R154). A second in which it stands is held (R153). -/
def State.updateSsf (s : State) (l : Fin 5376) : State :=
  let h := s.loParent l
  let lom := s.flag (PATH_HO1 h) PATH_HO1_LOM && !s.loTu3 l
  let ssf := s.flag (PATH_HO1 h) PATH_HO1_TSF_N || lom
  let was := s.flag (PATH_LO1 l) PATH_LO1_SSF
  let s := s.when (was || ssf) (fun s => s.setPath (.lo l) { s.path (.lo l) with held := true })
  let s := s.pathDefect (.lo l) PATH_LO1_SSF ssf
  s.pathTsf (.lo l)

/-- The consequent actions of a path, and of a higher-order path those of the lower-order paths it carries (R155). -/
def State.pathActions (s : State) (p : PathId) : State :=
  match p with
  | .lo _ => s.pathTsf p
  | .ho h =>
    let key (s : State) := (s.flag (PATH_HO1 h) PATH_HO1_TSF_N, s.flag (PATH_HO1 h) PATH_HO1_LOM)
    let s' := s.pathTsf p
    s'.each ((s'.hoLos h).filter s'.loExists) fun s l =>
      if hl : l < 5376 then
        let was := s.flag (PATH_LO1 l) PATH_LO1_SSF
        let now := (key s).1 || ((key s).2 && !s.loTu3 l)
        if was = now then s else s.updateSsf ⟨l, hl⟩
      else s

/-! ### What the tributary ports transmit (R182, R190, R193, R194) -/

/-- The mode of port `p`: 0 E1, 1 T1. -/
def State.tribMode (s : State) (p : Nat) : Nat := s.fld (TRIB_GRP_CFG (p / 8)) TRIB_GRP_CFG_MODE

/-- The sample clock of port `p` is valid. -/
def State.tribClkOk (s : State) (p : Nat) : Bool := s.bitAt TRIB_CLK_STAT (2 * (p / 32) + s.tribMode p)

/-- A tributary port beside its registers. -/
def State.trib (s : State) (p : Nat) : TribPort := tget s.tribs .init p

/-- The same, replaced. -/
def State.setTrib (s : State) (p : Nat) (x : TribPort) : State := { s with tribs := tset s.tribs .init p x }

/-- Port `p` is in retimed timing; a line loopback runs in through timing (R185, R194). -/
def State.retimed (s : State) (p : Nat) : Bool :=
  s.flag (TRIB_CFG p) TRIB_CFG_TX_RETIME && !s.flag (TRIB_MAINT p) TRIB_MAINT_LLOOP

/-- Bits of a frame of the port's mode (R168). -/
def State.tribFrameBits (s : State) (p : Nat) : Nat := if s.tribMode p = 0 then 256 else 193

/-- The size of the transmit store in bits: 512, and two frames in retimed timing (R191, R192). -/
def State.tribDepth (s : State) (p : Nat) : Nat := if s.retimed p then 2 * s.tribFrameBits p else 512

/-- The centre of the transmit store. -/
def State.tribCentre (s : State) (p : Nat) : Nat := s.tribDepth p / 2

/-- The transmit store replaced; its fill is shown in TRIB[p]_TX_STAT. -/
def State.setStore (s : State) (p : Nat) (l : List Bool) : State :=
  (s.setTrib p { s.trib p with store := l }).setFld (TRIB_TX_STAT p) TRIB_TX_STAT_FILL l.length

/-- `k` free bits, one from each free word (DESIGN CHOICE, log entry 5). -/
def State.freeBits (s : State) (k : Nat) : List Bool := (List.range k).map fun i => (Config.freeWord (s.free + i)).getLsbD 0

/-- The state after `k` free words have been used. -/
def State.useFrees (s : State) (k : Nat) : State := { s with free := s.free + k }

/-- The transmit store brought to a fill of `n` bits: the oldest are discarded, or bits that no rule gives come in front. -/
def State.fillStore (s : State) (p n : Nat) : State :=
  let l := (s.trib p).store
  (s.setStore p (s.freeBits (n - l.length) ++ l.drop (l.length - n))).useFrees (n - l.length)

/-- The Index gives port `p` forward AIS, or nothing because its entry is not valid (R163, R190). -/
def State.tribFeedAis (s : State) (p : Nat) : Bool :=
  match s.feed (w32 (0x30000000 + p)) with
  | .signal w => match s.epPath w with
    | some q => s.pathForwardAis q
    | none => false
  | _ => true

/-- Port `p` transmits all ones: R182 and FORCE_AIS_TX prevail over LLOOP, which discards the Index signal. -/
def State.tribSendsAis (s : State) (p : Nat) : Bool :=
  s.flag (TRIB_CFG p) TRIB_CFG_EN && !s.flag (TRIB_STAT p) TRIB_STAT_FAC &&
    (!s.tribClkOk p || s.flag (TRIB_MAINT p) TRIB_MAINT_FORCE_AIS_TX
      || (!s.flag (TRIB_MAINT p) TRIB_MAINT_LLOOP && s.tribFeedAis p))

/-- AIS_TX of port `p` follows; where AIS ends the store restarts from its centre (R190). -/
def State.updateTribTx (s : State) (p : Nat) : State :=
  let was := s.flag (TRIB_STAT p) TRIB_STAT_AIS_TX
  let now := s.tribSendsAis p
  let s := s.setFlag (TRIB_STAT p) TRIB_STAT_AIS_TX now
  if was && !now then s.fillStore p (s.tribCentre p) else s

/-- The same for every enabled port of a running island. -/
def State.updateTribs (s : State) : State :=
  s.each ((List.range 64).filter (fun p => s.flag (TRIB_CFG p) TRIB_CFG_EN && s.running (islTR p))) State.updateTribTx

/-! ### Pointer generation (R150, R151) -/

/-- Depth, centre, low and high threshold of the transmit store (R150). -/
def State.storeSize (s : State) : PathId → Nat × Nat × Nat × Nat
  | .ho h => if s.fld (PATH_SLOT_CFG (h / 3)) PATH_SLOT_CFG_STRUCT = 0 then (48, 24, 12, 36) else (16, 8, 4, 12)
  | .lo l => if s.loTu3 l then (16, 8, 4, 12) else (8, 4, 1, 7)

/-- ES_FILL of a path. -/
def State.storeFill (s : State) : PathId → Nat
  | .ho h => s.fld (PATH_HO3 h) PATH_HO3_ES_FILL
  | .lo l => s.fld (PATH_LO3 l) PATH_LO3_ES_FILL

/-- ES_FILL replaced. -/
def State.setStoreFill (s : State) (p : PathId) (v : Nat) : State :=
  match p with
  | .ho h => s.setFld (PATH_HO3 h) PATH_HO3_ES_FILL v
  | .lo l => s.setFld (PATH_LO3 l) PATH_LO3_ES_FILL v

/-- The transmitted pointer value. -/
def State.ptrTx (s : State) : PathId → Nat
  | .ho h => s.fld (PATH_HO2 h) PATH_HO2_PTR_TX
  | .lo l => s.fld (PATH_LO3 l) PATH_LO3_PTR_TX

/-- The same, replaced. -/
def State.setPtrTx (s : State) (p : PathId) (v : Nat) : State :=
  match p with
  | .ho h => s.setFld (PATH_HO2 h) PATH_HO2_PTR_TX v
  | .lo l => s.setFld (PATH_LO3 l) PATH_LO3_PTR_TX v

/-- The store of path `p` is recentred and its new pointer goes out with NDF set, with event 0x342 (R151). The new pointer value is where
the payload then lies, which no rule gives: a free value (DESIGN CHOICE, log entry 5). -/
def State.recentre (s : State) (p : PathId) : State :=
  let x := s.path p
  let old := if x.ndfPending then x.ptrOld else s.ptrTx p
  let s' := (s.setStoreFill p (s.storeSize p).2.1).setPtrTx p (s.freeWord.toNat % (s.ptrMax p + 1))
  let s' := s'.useFree.setPath p { s'.path p with ndfPending := true, ptrOld := old }
  s'.pathEvent p 0x342

/-- The generator of path `p` sends AIS: its source is in AIS or LOP or has TSF, or the Index gives it AIS (R38, R151, R155). -/
def State.sendsAis (s : State) (p : PathId) : Bool :=
  match s.feed (s.pathEp p) with
  | .ais => true
  | .nothing => false
  | .signal w => match s.epPath w with
    | some q => s.pathForwardAis q || s.pstat q PATH_HO1_TSF_N
    | none => false

/-- The path is an endpoint that the Index gives nothing: it transmits an unequipped VC with a valid pointer (R163). -/
def State.unequipped (s : State) (p : PathId) : Bool :=
  (match p with
    | .ho h => !s.hoTerm h
    | .lo _ => true) && decide (s.feed (s.pathEp p) = .nothing)

/-- The 5 I bits and the 5 D bits of a 10-bit pointer value, as masks (PRESUMED, log entry 10). -/
def iBits : Nat := 0x2AA
def dBits : Nat := 0x155

/-- The two bits between NDF and value of a transmitted pointer: 0b11 for a TU-11, 0b00 for an AU in SONET mode, else 0b10 (PRESUMED, log
entry 120). -/
def State.ptrSize (s : State) : PathId → Nat
  | .ho h => if s.flag (LINE_CFG (s.fld (PATH_SLOT_CFG (h / 3)) PATH_SLOT_CFG_PORT)) LINE_CFG_SONET then 0 else 2
  | .lo l => if !s.loTu3 l && s.loTu11 l then 3 else 2

/-- The pointer bytes with NDF bits `ndf` and value `v`. -/
def State.ptrWord (s : State) (p : PathId) (ndf v : Nat) : BitVec 16 := BitVec.ofNat 16 (ndf * 4096 + s.ptrSize p * 1024 + v)

/-- The generator's choice at one pointer position with the store fill found there, and the pointer bytes it sends: recentre on overflow or
underflow, send a pending NDF, or adjust by one unit beyond a threshold, adjustments and NDFs being at least 4 readings apart (R150, R151). -/
def State.pointerStep (s : State) (p : PathId) (fill : Nat) : State × BitVec 16 :=
  let x := s.path p
  let z := s.storeSize p
  let v := s.ptrTx p
  let same := s.ptrWord p 0b0110 (if x.ndfPending then x.ptrOld else v)
  if fill = 0 ∨ z.1 < fill then (s.recentre p, same)
  else
    let s := s.setStoreFill p fill
    let adjust (v' bits : Nat) : State × BitVec 16 :=
      ((s.setPtrTx p v').setPath p { x with txGap := 1, adjTx := x.adjTx + 1, txTotal := x.txTotal + 1 }, s.ptrWord p 0b0110 (v ^^^ bits))
    if x.txGap < 4 then (s.setPath p { x with txGap := min 4 (x.txGap + 1) }, same)
    else if x.ndfPending then (s.setPath p { x with ndfPending := false, txGap := 1 }, s.ptrWord p 0b1001 v)
    else
      let m := s.ptrMax p + 1
      if fill ≤ z.2.2.1 then adjust ((v + 1) % m) iBits
      else if z.2.2.2 ≤ fill then adjust ((v + m - 1) % m) dBits
      else (s, same)

/-! ### The transmitted container (R152, R155, R163) -/

/-- A container sent over one frame, or over a multiframe of four. -/
def State.vcKind (s : State) : PathId → VcKind
  | .ho _ => .frame
  | .lo l => if s.loTu3 l then .frame else .multiframe

/-- `n` little-endian words of registers from `a` on, as bytes. -/
def State.regBytes (s : State) (a n : Nat) : List Byte := (List.range n).flatMap fun k => leBytes 4 (s.reg (a + 4 * k)).toNat

/-- The trace byte a terminated path sends and its next position: J1 from the transmit memory, J2 from the path's profile in the 16-byte
format. -/
def State.pathTraceOut (s : State) (p : PathId) : Byte × Nat :=
  let o := (s.path p).txTrace
  match p with
  | .ho h => traceOut (s.fld (PATH_HO0 h) PATH_HO0_J1_MODE) (s.regBytes (PATH_J1_TX h 0) 16) o
  | .lo l => traceOut 2 (s.regBytes (PATH_J2_PROF (s.fld (PATH_LO0 l) PATH_LO0_TX_PROF) 0) 4) o

/-- The overhead PX generates for the next container of a terminated path. -/
def State.pathTx (s : State) (p : PathId) : TxOverhead :=
  let x := s.path p
  { trace := (s.pathTraceOut p).1, bip := x.txBip, rei := x.lastViol, rdi := s.pathSendsRdi p, h4 := x.txH4 }

/-- The container sent for a path that the store hands `vc`: AIS, unequipped, with overhead generated at a terminated position, or unaltered. -/
def State.txVc (s : State) (p : PathId) (vc : List Byte) : List Byte :=
  if s.sendsAis p then vc.map (fun _ => 0xFF)
  else if s.unequipped p then vc.map (fun _ => 0)
  else if s.pathTerm p then (s.vcKind p).write (s.pathTx p) vc
  else vc

/-- A pointer and a container go out; the container's parity is what the next one carries. -/
def State.sendVc (s : State) (p : PathId) (ptr : BitVec 16) (vc : List Byte) (trace : Nat) : State :=
  let x := s.path p
  s.setPath p { x with
    sentPtr := ptr, sentVc := vc, txBip := (s.vcKind p).parity vc, txTrace := trace, txH4 := (x.txH4 + 1) % 4 }

/-- POINTER_GENERATION (R150 to R152, R161, R163): the pointer at this position and the container that follows it. -/
def execPointerGeneration (p : PathId) (fill : Nat) (vc : List Byte) (s : State) : Host.Outcome State Fault Refusal :=
  .next (if !s.running islPX || !s.pathExists p then s
  else
    let s := s.useFeed (s.pathEp p)
    let out := s.txVc p vc
    let trace := (s.pathTraceOut p).2
    let r := if s.sendsAis p then (s, 0xFFFF) else s.pointerStep p fill
    r.1.sendVc p r.2 out trace)

/-! ### Pointer interpretation (R148) -/

/-- The indications of a pointer reading. -/
inductive PtrInd where
  | ais | norm | new (v : Nat) | ndf (v : Nat) | inc | dec | inv
deriving DecidableEq, Repr

/-- The indication of one reading against the active value (R148). -/
def classify (active max gap : Nat) (concatOk : Bool) (w : BitVec 16) : PtrInd :=
  let ndf := w.toNat / 4096
  let v := w.toNat % 1024
  let x := v ^^^ active
  let i := popcount 10 (x &&& iBits)
  let d := popcount 10 (x &&& dBits)
  if w = 0xFFFF then .ais
  else if !concatOk then .inv
  else if popcount 4 (ndf ^^^ 0b1001) ≤ 1 then
    if v ≤ max then .ndf v else .inv
  else if 1 < popcount 4 (ndf ^^^ 0b0110) then .inv
  else if v = active ∧ v ≤ max then .norm
  else if 3 ≤ i ∧ d ≤ 2 then if 3 ≤ gap then .inc else .inv
  else if 3 ≤ d ∧ i ≤ 2 then if 3 ≤ gap then .dec else .inv
  else if v ≤ max then .new v
  else .inv

/-- The active pointer value. -/
def State.ptrRx (s : State) : PathId → Nat
  | .ho h => s.fld (PATH_HO2 h) PATH_HO2_PTR_RX
  | .lo l => s.fld (PATH_LO3 l) PATH_LO3_PTR_RX

/-- The same, replaced. -/
def State.setPtrRx (s : State) (p : PathId) (v : Nat) : State :=
  match p with
  | .ho h => s.setFld (PATH_HO2 h) PATH_HO2_PTR_RX v
  | .lo l => s.setFld (PATH_LO3 l) PATH_LO3_PTR_RX v

/-- A new active value adopted by ndf_enable or by three readings: event 0x340 where it differs. -/
def State.adoptPtr (s : State) (p : PathId) (v : Nat) (always : Bool) : State :=
  if s.ptrRx p = v ∧ !always then s else (s.setPtrRx p v).pathEvent p 0x340

/-- The runs of bad and good readings with one more (R148). -/
def pathRuns (x : PathPort) (active : Nat) (i : PtrInd) : PathPort :=
  let same (v : Nat) (x : PathPort) : PathPort :=
    { x with sameRun := if x.sameRun ≠ 0 ∧ x.sameVal = v then min 3 (x.sameRun + 1) else 1, sameVal := v }
  let gap := min 3 (x.adjGap + 1)
  let x := { x with adjGap := gap }
  match i with
  | .ais => { x with aisRun := min 3 (x.aisRun + 1), invRun := 0, ndfRun := 0, sameRun := 0 }
  | .inv => { x with aisRun := 0, invRun := min 8 (x.invRun + 1), ndfRun := 0, sameRun := 0 }
  | .ndf _ => { x with aisRun := 0, invRun := 0, ndfRun := min 8 (x.ndfRun + 1), sameRun := 0, adjGap := 0 }
  | .inc | .dec => { x with aisRun := 0, invRun := 0, ndfRun := 0, sameRun := 0, adjGap := 0 }
  | .norm => same active { x with aisRun := 0, invRun := 0, ndfRun := 0 }
  | .new v => same v { x with aisRun := 0, invRun := 0, ndfRun := 0 }

/-- PTR_STATE codes. -/
def ptrNorm : Nat := 0
def ptrAis : Nat := 1
def ptrLop : Nat := 2

/-- The interpreter's next state after the runs have been counted (R148). -/
def nextPtrState (st : Nat) (x : PathPort) (i : PtrInd) : Nat :=
  let isNdf : Bool := match i with
    | .ndf _ => true
    | _ => false
  if st = ptrNorm then
    if x.aisRun = 3 then ptrAis else if x.invRun = 8 ∨ x.ndfRun = 8 then ptrLop else ptrNorm
  else if st = ptrAis then
    if x.sameRun = 3 ∨ isNdf = true then ptrNorm else if x.invRun = 8 then ptrLop else ptrAis
  else if x.sameRun = 3 then ptrNorm else if x.aisRun = 3 then ptrAis else ptrLop

/-- The active value after one reading, and the adjustments received. -/
def State.movePtr (s : State) (p : PathId) (st st' : Nat) (i : PtrInd) : State :=
  let x := s.path p
  let m := s.ptrMax p + 1
  let adj (s : State) : State := s.setPath p { x with adjRx := x.adjRx + 1, rxTotal := x.rxTotal + 1 }
  match i with
  | .inc => if st = ptrNorm then adj (s.setPtrRx p ((s.ptrRx p + 1) % m)) else s
  | .dec => if st = ptrNorm then adj (s.setPtrRx p ((s.ptrRx p + m - 1) % m)) else s
  | .ndf v => if st = ptrNorm ∨ st' = ptrNorm then s.adoptPtr p v true else s
  | .new v => if x.sameRun = 3 then s.adoptPtr p v false else s
  | _ => s

/-- The interpreter of a path advances by one reading (R148); a path in service starts in LOP. While a lower-order path has SSF its
defects stand as they are (R154). -/
def State.interpret (s : State) (p : PathId) (r : PtrReading) : State :=
  let s := if (s.path p).started then s
    else
      let s := s.setPath p { PathPort.init with started := true }
      (s.setFld (pathStatAddr p) PATH_HO1_PTR_STATE ptrLop).setFlag (pathStatAddr p) PATH_HO1_LOP true
  let st := s.fld (pathStatAddr p) PATH_HO1_PTR_STATE
  let x := s.path p
  let i := classify (s.ptrRx p) (s.ptrMax p) x.adjGap (r.concat || !s.ptrConcat p) r.pointer
  let x := pathRuns x (s.ptrRx p) i
  let st' := nextPtrState st x i
  let s := (s.setPath p (if st' = st then x else { x with aisRun := 0, invRun := 0, ndfRun := 0 })).movePtr p st st' i
  let s := s.setFld (pathStatAddr p) PATH_HO1_PTR_STATE st'
  let ssf := match p with
    | .ho _ => false
    | .lo l => s.flag (PATH_LO1 l) PATH_LO1_SSF
  if ssf then s
  else
    let was := s.pstat p PATH_HO1_AIS || s.pstat p PATH_HO1_LOP
    let s := (s.pathDefect p PATH_HO1_AIS (decide (st' = ptrAis))).pathDefect p PATH_HO1_LOP (decide (st' = ptrLop))
    if was && decide (st' = ptrNorm) then s.each (s.pathDests p) State.recentre else s

/-! ### Path overhead (R149, R152) -/

/-- The trace receiver of R125 and R126 with one byte: the bytes of the period in progress, and the period it completes. -/
def traceCollect (mode : Nat) (buf : List Byte) (b : Byte) : List Byte × Option (List Byte) :=
  match mode with
  | 0 => ([], none)
  | 1 => ([], some [b])
  | 2 =>
    let buf := if b.toNat ≥ 128 then [b] else if buf = [] then [] else buf ++ [b]
    if buf.length = 16 then ([], some buf) else (buf, none)
  | _ =>
    let buf := (buf ++ [b]).drop (buf.length + 1 - 64)
    if buf.length = 64 ∧ buf.getD 62 0 = 0x0D ∧ buf.getD 63 0 = 0x0A then ([], some buf) else (buf, none)

/-- Whether an accepted trace differs from the expected one (R126). -/
def traceDiffers (mode : Nat) (acc exp : List Byte) : Bool :=
  match mode with
  | 0 => false
  | 1 => decide (acc.take 1 ≠ exp.take 1)
  | 2 => decide (((acc.take 16).drop 1).map (· &&& 0x7F) ≠ ((exp.take 16).drop 1).map (· &&& 0x7F))
  | _ => decide (acc.take 64 ≠ exp.take 64)

/-- A list of bytes stored into registers from `a` on, 4 to a word, the rest of `n` words zero. -/
def State.setRegBytes (s : State) (a n : Nat) (bs : List Byte) : State :=
  s.each (List.range n) fun s k => s.setReg (a + 4 * k) (w32 (leNat ((bs.drop (4 * k)).take 4)))

/-- The trace mode of a path, its expected bytes, and the place and length in words of its accepted trace. -/
def State.traceCfg (s : State) : PathId → Nat × List Byte × Nat × Nat
  | .ho h => (s.fld (PATH_HO0 h) PATH_HO0_J1_MODE, s.regBytes (PATH_J1_EXP h 0) 16, PATH_J1_ACC h 0, 16)
  | .lo l => (if s.flag (PATH_LO0 l) PATH_LO0_TRACE_EN then 2 else 0,
      s.regBytes (PATH_J2_PROF (s.fld (PATH_LO0 l) PATH_LO0_EXP_PROF) 0) 4, PATH_J2_ACC l 0, 4)

/-- One trace byte: acceptance after 3 identical periods, event 0x312 or 0x330, and dTIM (R126, R152). -/
def State.pathTrace (s : State) (p : PathId) (b : Byte) : State :=
  let c := s.traceCfg p
  let x := s.path p
  match traceCollect c.1 x.trace b with
  | (buf, none) => s.setPath p { x with trace := buf }
  | (buf, some t) =>
    if c.1 = 2 ∧ crc7 t ≠ (t.getD 0 0).toNat % 128 then s.setPath p { x with trace := buf, traceLast := [], traceRun := 0 }
    else
      let run := if x.traceLast = t then min 3 (x.traceRun + 1) else 1
      let s := s.setPath p { x with trace := buf, traceLast := t, traceRun := run }
      if run < 3 then s
      else
        let old := s.regBytes c.2.2.1 c.2.2.2
        let raw := t ++ List.replicate (4 * c.2.2.2 - t.length) 0
        let s := s.setRegBytes c.2.2.1 c.2.2.2 raw
        let s := s.setPath p { s.path p with traceAcc := true }
        let s := if x.traceAcc && decide (old = raw) then s else s.pathEvent p (match p with
          | .ho _ => 0x312
          | .lo _ => 0x330)
        s.pathDefect p PATH_HO1_TIM (traceDiffers c.1 raw c.2.1)

/-- dUNEQ and dPLM of an accepted signal label (R152): C2 for a VC-4, VC-3 or TU-3, V5 bits 3:1 for a VC-12 or VC-11. dPLM is declared
only at terminated positions. -/
def State.judgeLabel (s : State) (p : PathId) (v : Nat) : State :=
  let plm := match p with
    | .ho h =>
      let exp := s.fld (PATH_HO0 h) PATH_HO0_C2_EXP
      decide (v ≠ (if exp = 0 then 0x02 else exp) ∧ v ≠ 0x01 ∧ v ≠ 0x00)
    | .lo l =>
      if s.loTu3 l then
        let exp := s.fld (PATH_LO0 l) PATH_LO0_C2_EXP
        decide (v ≠ (if exp = 0 then 0x02 else exp) ∧ v ≠ 0x01 ∧ v ≠ 0x00)
      else decide (v ≠ 2 ∧ v ≠ 1)
  let s := s.pathDefect p PATH_HO1_UNEQ (decide (v = 0))
  s.pathDefect p PATH_HO1_PLM (plm && s.pathTerm p)

/-- The signal label of one frame: accepted after 5 identical frames (R152). -/
def State.pathLabel (s : State) (p : PathId) (v : Nat) : State :=
  let x := s.path p
  let run := if x.labelRun ≠ 0 ∧ x.labelLast = v then min 5 (x.labelRun + 1) else 1
  let s := s.setPath p { x with labelLast := v, labelRun := run, labelAcc := x.labelAcc || decide (run = 5) }
  if run = 5 then (s.setFld (pathStatAddr p) PATH_HO1_C2_RX v).judgeLabel p v else s

/-- dRDI after 5 frames of one value (R152). -/
def State.pathRdi (s : State) (p : PathId) (rdi : Bool) : State :=
  let x := s.path p
  let on := if rdi then min 5 (x.rdiOn + 1) else 0
  let off := if rdi then 0 else min 5 (x.rdiOff + 1)
  let s := s.setPath p { x with rdiOn := on, rdiOff := off }
  if on = 5 then s.pathDefect p PATH_HO1_RDI true
  else if off = 5 then s.pathDefect p PATH_HO1_RDI false else s

/-- The received REI of a higher-order path is 0 to 8; other codes count nothing (PRESUMED, log entry 11). -/
def reiCount (p : PathId) (rei : Nat) : Nat :=
  match p with
  | .ho _ => if rei ≤ 8 then rei else 0
  | .lo _ => rei % 2

/-- The received parity against that of the previous VC: errored blocks and REI (R152). -/
def State.pathParity (s : State) (p : PathId) (r : PathOverhead) : State :=
  let x := s.path p
  let v := match x.refBip with
    | some q => bitErrors q r.bip
    | none => 0
  let rei := reiCount p r.rei
  let s := s.setPath p { x with refBip := some r.parity, lastViol := v, blocks := x.blocks + bit (decide (v ≠ 0)), rei := x.rei + rei }
  match p with
  | .ho h => (s.count (PATH_B3_CNT h) (bit (decide (v ≠ 0)))).count (PATH_HREI_CNT h) rei
  | .lo _ => s

/-- H4 bits 1:0 checked for sequence: dLOM after 8 frames out of sequence, cleared after 2 in sequence (R149). -/
def State.multiframe (s : State) (h : Fin 192) (h4 : Byte) : State :=
  if !s.hoTerm h || !s.hoTug2 h then s
  else
    let x := s.path (.ho h)
    let v := h4.toNat % 4
    let ok := decide (v = x.h4Next)
    let bad := if ok then 0 else min 8 (x.h4Bad + 1)
    let good := if ok then min 2 (x.h4Good + 1) else 0
    let s := s.setPath (.ho h) { x with h4Next := (v + 1) % 4, h4Bad := bad, h4Good := good }
    if bad = 8 then s.pathDefect (.ho h) PATH_HO1_LOM true
    else if good = 2 then s.pathDefect (.ho h) PATH_HO1_LOM false else s

/-- The path overhead of one frame or multiframe; nothing is declared or cleared while the path has AIS, LOP or SSF, and no violation is
returned for a container that is not received (R152, R154). -/
def State.pathOverhead (s : State) (p : PathId) (vc : List Byte) : State :=
  if s.pathDown p then s.setPath p { s.path p with refBip := none, lastViol := 0, held := true }
  else if !s.pathWatched p then s
  else
    let r := (s.vcKind p).read vc
    let s := s.pathTrace p r.trace
    let s := s.pathParity p r
    let s := s.pathLabel p r.label
    let s := s.pathRdi p r.rdi
    match p with
    | .ho h => s.multiframe h r.h4
    | .lo _ => s

/-- The reading as PX takes it: of a higher-order path whose port gives AIS towards PX every bit is 1, whatever the line carries (R135). -/
def State.arriving (s : State) (p : PathId) (r : PtrReading) : PtrReading :=
  match p with
  | .ho h =>
    if s.lstat (s.rxPort (s.fld (PATH_SLOT_CFG (h / 3)) PATH_SLOT_CFG_PORT)) LINE_STAT_AIS_OUT then
      { r with pointer := 0xFFFF, vc := r.vc.map (fun _ => 0xFF) }
    else r
  | .lo _ => r

/-- POINTER_READING (R135, R148, R149, R152, R154, R155): the interpreter, the overhead of the same frame or multiframe, and the actions. -/
def execPointerReading (p : PathId) (r : PtrReading) (s : State) : Host.Outcome State Fault Refusal :=
  .next (if !s.running islPX || !s.pathExists p then s
  else
    let r := s.arriving p r
    let s := match p with
      | .ho _ => s
      | .lo l => s.updateSsf l
    let s := s.interpret p r
    let s := s.pathActions p
    let s := s.pathOverhead p r.vc
    (s.pathActions p).updateTribs)

/-! ### The path's second (R153) -/

/-- dDEG and dEXC at the end of a second that was not held. -/
def State.judgeSecond (s : State) (p : PathId) (blocks : Nat) : State :=
  let a := match p with
    | .ho _ => PATH_HO_DEG_CFG
    | .lo _ => PATH_LO_DEG_CFG
  let x := s.path p
  let bad := decide (s.fld a PATH_HO_DEG_CFG_DEGTHR ≤ blocks)
  let m := s.fld a PATH_HO_DEG_CFG_DEGM
  let badRun := if bad then min m (x.badRun + 1) else 0
  let goodRun := if bad then 0 else min m (x.goodRun + 1)
  let s := s.setPath p { x with badRun := badRun, goodRun := goodRun }
  let s := s.pathDefect p PATH_HO1_EXC (decide (s.fld a PATH_HO_DEG_CFG_EXCTHR ≤ blocks))
  if bad && decide (badRun = m) then s.pathDefect p PATH_HO1_DEG true
  else if !bad && decide (goodRun = m) then s.pathDefect p PATH_HO1_DEG false else s

/-- PATH_SECOND_END (R153, R155): the second's counts are shown, and the detectors judged unless the second held AIS, LOP or SSF. -/
def execPathSecondEnd (p : PathId) (s : State) : Host.Outcome State Fault Refusal :=
  .next (if !s.running islPX || !s.pathExists p then s
  else
    let x := s.path p
    let s := match p with
      | .ho h => (s.setFld (PATH_HO3 h) PATH_HO3_ADJ_TX (min 255 x.adjTx)).setFld (PATH_HO3 h) PATH_HO3_ADJ_RX (min 255 x.adjRx)
      | .lo l => (s.setFld (PATH_LO2 l) PATH_LO2_EB (min 2047 x.blocks)).setFld (PATH_LO2 l) PATH_LO2_REI (min 2047 x.rei)
    let s := s.setPath p { x with blocks := 0, rei := 0, adjTx := 0, adjRx := 0, held := false }
    if x.held || s.pathDown p || !s.pathWatched p then s else (s.judgeSecond p x.blocks).pathActions p)

end Sys2Proof.Machine
end

