-- ==== Sys2Proof/Machine/Index.lean ====
section
/-! DEFINITION. The Index cross-connect: checking, activation, writes to entries, and the SNCP selectors (R38, R156 to R164). -/

namespace Sys2Proof.Machine

/-- R159 for entry `e`: its own part, and no endpoint held by another entry. -/
def State.mayActivate (s : State) (e : Nat) : Bool :=
  let k := s.entryEnds e
  s.endsOk k (s.entrySncp e) &&
    s.kept.all (fun p => decide (p.1 = e) || (keptList p.2).all (fun w => !(keptList k).contains w))

/-- The SNCP mode `m` may stand in entry `e`: none, or one that R159 permits with its endpoints. -/
def State.sncpFits (s : State) (e m : Nat) : Bool := decide (m = 0) || s.endsOk (s.entryEnds e) m

/-- An activation that breaks R159: CONFLICT and event 0x352 (R163). -/
def State.conflict (s : State) (e : Nat) : State :=
  if s.idx e IDX_STATUS_CONFLICT then s else (s.setIdx e IDX_STATUS_CONFLICT true).idxEvent e 0x352

/-- The entry's words are taken as checked and it carries traffic. -/
def State.takeEntry (s : State) (e : Nat) (event : Nat) : State :=
  let s := { s with kept := tset s.kept .none e (s.entryEnds e) }
  let s := s.setFlag (IDX_STATUS e) IDX_STATUS_CHECK_FAIL false
  let s := s.setFlag (IDX_STATUS e) IDX_STATUS_CONFLICT false
  let s := s.setIdx e IDX_STATUS_ACTIVE true
  s.idxEvent e event

/-- VALID has changed from 0 to 1: R159 first, then CHECK (R162, R163). -/
def State.activate (s : State) (e : Nat) : State :=
  if !s.mayActivate e then s.conflict e
  else if !s.entryOk e then s.checkFails e
  else s.takeEntry e 0x353

/-- VALID has changed from 1 to 0: the entry carries nothing (R163). -/
def State.deactivate (s : State) (e : Nat) : State :=
  let had := s.keptOf e ≠ .none
  let s := { s with kept := tset s.kept .none e .none, wtrs := tset s.wtrs 0 e 0 }
  let s := (s.setReg (IDX_STATUS e) 0).updateIdxStat
  if had then s.idxEvent e 0x354 else s

/-- One valid entry read and checked (R161). -/
def State.sweepEntry (s : State) (e : Nat) : State :=
  if !s.entryOk e then s.checkFails e
  else if s.idx e IDX_STATUS_CHECK_FAIL then
    if (s.entryEnds e = s.keptOf e ∧ s.sncpFits e (s.entrySncp e) = true) ∨ s.mayActivate e then s.takeEntry e 0x351 else s.conflict e
  else if s.idx e IDX_STATUS_ACTIVE then s
  else if s.idx e IDX_STATUS_CONFLICT then s
  else if s.mayActivate e then s.takeEntry e 0x353
  else s.conflict e

/-- INDEX_CHECK_SWEEP (R38, R161): PX reads every valid entry and checks it. An entry the image has placed is taken at its first sweep. -/
def execIndexCheckSweep (s : State) : Host.Outcome State Fault Refusal :=
  .next (if !s.running islPX then s else (s.each s.validEntries State.sweepEntry).updateTribs)

/-- The writable bits of word 3. -/
def word3Mask : Word := 0xFFFF007F

/-- An entry whose SNCP has become 0 has no selector: no request, no condition, no wait to restore, and A is chosen (R159, R164). -/
def State.dropSelector (s : State) (e : Nat) : State :=
  ({ s with wtrs := tset s.wtrs 0 e 0 }).setReg (IDX_STATUS e) (s.reg (IDX_STATUS e) &&& 0x00000007)

/-- A service's write to word `k` of entry `e` (R162): words 0 to 2 only while VALID is 0 or CHECK_FAIL is 1, word 3 at any time, a change
of VALID acting at once, and CMD 5 to 7 refused with event 0x363 (R164). A write that leaves VALID at 1 with an SNCP mode that may not
stand there is refused whole (DESIGN CHOICE, log entry 122). -/
def State.indexWrite (s : State) (e k : Nat) (value : Word) : State :=
  let was := s.flag (IDX_ENTRY_W3 e) IDX_ENTRY_W3_VALID
  if k < 3 then
    if !was || s.idx e IDX_STATUS_CHECK_FAIL then s.serviceWrite (IDX_ENTRY_A e + 4 * k) 0xFFFFFFFF value
    else s.respond rRefused
  else if was && decide (IDX_ENTRY_W3_VALID.get value = 1) && !s.idx e IDX_STATUS_CHECK_FAIL && !s.sncpFits e (IDX_ENTRY_W3_SNCP.get value) then
    s.respond rRefused
  else
    let s := s.serviceWrite (IDX_ENTRY_W3 e) word3Mask value
    let s := if 5 ≤ IDX_ENTRY_W3_CMD.get value then s.idxEvent e 0x363 else s
    let now := s.flag (IDX_ENTRY_W3 e) IDX_ENTRY_W3_VALID
    if now && !was then s.activate e
    else if was && !now then s.deactivate e
    else if now && decide (s.entrySncp e = 0) then s.dropSelector e
    else s

/-! ### SNCP selectors (R164) -/

/-- TSF and TSD of an endpoint for an SNCP mode. -/
def State.epConds (s : State) (w : Word) (sncp : Nat) : Bool × Bool :=
  match s.epPath w with
  | none => (false, false)
  | some p =>
    if sncp = 2 then (s.pstat p PATH_HO1_TSF_N, s.pstat p PATH_HO1_TSD) else (s.pstat p PATH_HO1_TSF_I, false)

/-- Whether a condition stands now, whatever HOLDOFF says. -/
def State.rawCond (s : State) (e : Nat) (c : SncpCond) : Bool :=
  let k := s.keptOf e
  let m := s.entrySncp e
  match c with
  | .sfA => (s.epConds k.a m).1
  | .sdA => (s.epConds k.a m).2
  | .sfAp => (s.epConds k.ap m).1
  | .sdAp => (s.epConds k.ap m).2

/-- The COND bit of a condition. -/
def condFld : SncpCond → Fld
  | .sfA => IDX_STATUS_SF_A
  | .sdA => IDX_STATUS_SD_A
  | .sfAp => IDX_STATUS_SF_AP
  | .sdAp => IDX_STATUS_SD_AP

/-- COND shows the conditions that count: those standing that counted already, or at once with HOLDOFF at 0. -/
def State.updateConds (s : State) (e : Nat) : State :=
  s.each [.sfA, .sdA, .sfAp, .sdAp] fun s c =>
    s.setFlag (IDX_STATUS e) (condFld c)
      (s.rawCond e c && (s.idx e (condFld c) || decide (s.fld IDX_SNCP_CFG IDX_SNCP_CFG_HOLDOFF = 0)))

/-- The ruling request and the choice it makes, in the order of R164. -/
def sncpOrder (cmd : Nat) (sfA sdA sfAp sdAp wtr revert sel : Bool) : Nat × Bool :=
  if cmd = 1 then (1, false)
  else if cmd = 2 then (2, true)
  else if sfAp then (3, false)
  else if sfA then (4, true)
  else if sdAp then (5, false)
  else if sdA then (6, true)
  else if cmd = 3 then (7, true)
  else if cmd = 4 then (8, false)
  else if wtr && revert then (9, true)
  else (10, if revert then false else sel)

/-- Wait to restore starts: WTR_LEFT and event 0x361. -/
def State.startWtr (s : State) (e : Nat) : State :=
  let m := s.fld IDX_SNCP_CFG IDX_SNCP_CFG_WTR_MIN
  let s := { s with wtrs := tset s.wtrs 0 e (s.now + m * 60000000000 + 1) }
  (s.setFld (IDX_STATUS e) IDX_STATUS_WTR_LEFT (6 * m)).idxEvent e 0x361

/-- Wait to restore ends. -/
def State.stopWtr (s : State) (e : Nat) : State :=
  ({ s with wtrs := tset s.wtrs 0 e 0 }).setFld (IDX_STATUS e) IDX_STATUS_WTR_LEFT 0

/-- WTR_LEFT shows what remains in units of 10 s, begun units counting whole. -/
def State.showWtr (s : State) (e : Nat) : State :=
  let t := tget s.wtrs 0 e
  if t = 0 then s else s.setFld (IDX_STATUS e) IDX_STATUS_WTR_LEFT (max 1 ((t - 1 - s.now + 9999999999) / 10000000000))

/-- SEL of entry `e`; the store of B is recentred where the source it now takes has its fill outside the thresholds (R151). -/
def State.selectSide (s : State) (e : Nat) (ap : Bool) : State :=
  let s := s.setFlag (IDX_STATUS e) IDX_STATUS_SEL ap
  match s.epPath (s.keptOf e).b with
  | some q =>
    let z := s.storeSize q
    if s.storeFill q < z.2.2.1 ∨ z.2.2.2 < s.storeFill q then s.recentre q else s
  | none => s

/-- A Standby twin's own selection, which differs from the one mirrored or agrees with it: each new disagreement counts (R274). -/
def State.noteSplit (s : State) (e : Nat) (differs : Bool) : State :=
  let had := s.tw.split.contains e
  let s := if differs && !had then s.count TWN_DIVERGE_CNT else s
  s.setTw { s.tw with split := if differs then (if had then s.tw.split else e :: s.tw.split) else s.tw.split.filter (· ≠ e) }

/-- The part of IDX_STATUS that is mirrored: the selector state (R164, R272). -/
def selectorMask : Word := w32 (IDX_STATUS_REQ.mask ||| IDX_STATUS_SEL.mask)

/-- The request that rules now is applied: REQ, and on a change SEL, the switch counter, event 0x360, the recentred store of B, and the
mirrored selector state (R151, R164). A Standby twin only compares (R274). -/
def State.applySelector (s : State) (e : Nat) : State :=
  let r := sncpOrder (s.fld (IDX_ENTRY_W3 e) IDX_ENTRY_W3_CMD) (s.idx e IDX_STATUS_SF_A) (s.idx e IDX_STATUS_SD_A)
    (s.idx e IDX_STATUS_SF_AP) (s.idx e IDX_STATUS_SD_AP) (decide (tget s.wtrs 0 e ≠ 0))
    (s.flag (IDX_ENTRY_W3 e) IDX_ENTRY_W3_REVERT) (s.idx e IDX_STATUS_SEL)
  if s.computesOnly then s.noteSplit e (s.idx e IDX_STATUS_SEL != r.2)
  else
    let was := s.reg (IDX_STATUS e)
    let s := s.setFld (IDX_STATUS e) IDX_STATUS_REQ r.1
    let s := if s.idx e IDX_STATUS_SEL = r.2 then s else ((s.selectSide e r.2).count IDX_SWITCH_CNT).idxEvent e 0x360
    if was &&& selectorMask = s.reg (IDX_STATUS e) &&& selectorMask then s else s.mirror (IDX_STATUS e) selectorMask (s.reg (IDX_STATUS e))

/-- One evaluation of an active entry's selector (R164). -/
def State.evaluateSelector (s : State) (e : Nat) : State :=
  let was := s.idx e IDX_STATUS_SF_A || s.idx e IDX_STATUS_SD_A
  let s := s.updateConds e
  let now := s.idx e IDX_STATUS_SF_A || s.idx e IDX_STATUS_SD_A
  let s := if now then s.stopWtr e
    else if was && s.idx e IDX_STATUS_SEL && s.flag (IDX_ENTRY_W3 e) IDX_ENTRY_W3_REVERT then s.startWtr e
    else s.showWtr e
  s.applySelector e

/-- The entry carries traffic and has a selector. -/
def State.hasSelector (s : State) (e : Nat) : Bool :=
  s.running islPX && s.idx e IDX_STATUS_ACTIVE && decide (s.entrySncp e ≠ 0)

/-- What an active entry's selector does at a use of the entry: the entry is checked first, and one that fails acts no more (R161). -/
def State.useSelector (s : State) (e : Nat) (f : State → State) : State :=
  if s.hasSelector e then
    let s := s.checkUse e
    if s.hasSelector e then f s else s.updateTribs
  else s

/-- SNCP_EVALUATION (R161, R164). -/
def execSncpEvaluation (e : Fin 4096) (s : State) : Host.Outcome State Fault Refusal :=
  .next (s.useSelector e (fun s => (s.evaluateSelector e).updateTribs))

/-- A service's write of CMD alone. -/
def State.sncpCommand (s : State) (w : Writer) (e cmd : Nat) : State :=
  s.commandWrite w true false islPX (IDX_ENTRY_W3 e)
    (fun s => s.indexWrite e 3 (IDX_ENTRY_W3_CMD.put (s.reg (IDX_ENTRY_W3 e)) cmd))

/-- SNCP_HOLDOFF_EXPIRY (R164): a condition that has persisted starts to count. -/
def execSncpHoldoffExpiry (e : Fin 4096) (c : SncpCond) (s : State) : Host.Outcome State Fault Refusal :=
  .next (s.useSelector e (fun s =>
    if s.rawCond e c then
      (s.setFlag (IDX_STATUS e) (condFld c) true).when (decide (c = .sfA ∨ c = .sdA)) (fun s => s.stopWtr e)
    else s))

/-- SNCP_WTR_EXPIRY (R164): event 0x362, and the selector goes back to A where nothing else rules. -/
def execSncpWtrExpiry (e : Fin 4096) (s : State) : Host.Outcome State Fault Refusal :=
  .next (s.useSelector e (fun s =>
    if tget s.wtrs 0 e = 0 then s else (((s.stopWtr e).idxEvent e 0x362).applySelector e).updateTribs))

end Sys2Proof.Machine
end

