-- ==== Sys2Proof/Machine/Fac.lean ====
section
/-! DEFINITION. The Facsimile engines: commands, the step table, triggers, waveform and vector playback, modulation, streams and
calibration (R353 to R374), and the pulse synthesis they share with the tributary ports (R183, R184). -/

namespace Sys2Proof.Machine

/-! ### Pulse synthesis (R183, R184) -/

/-- The peak code of a ROM template, where the manual gives it (R186). -/
def romPeakCode (t : Nat) : Option Int := if t = 0 then some 1706 else if t = 1 then some 1348 else none

/-- Sample `i` of ROM template `t`: free, but for the peak of templates 0 and 1 (DESIGN CHOICE, log entry 6). -/
def romSample (t i : Nat) : Int :=
  let v := signed 12 ((Config.romTemplate t (i / 2)).toNat / (if i % 2 = 0 then 1 else 65536))
  match romPeakCode t with
  | some c => if i = Config.romPeak t then c else max (-c) (min c v)
  | none => v

/-- Word `k` of a ROM template: two halfwords, each a sample with its sign extended (R183). -/
def romTemplateWord (t k : Nat) : Word :=
  BitVec.ofInt 16 (romSample t (2 * k + 1)) ++ BitVec.ofInt 16 (romSample t (2 * k))

/-- Word `k` of template `t`: ROM for 0 to 7. -/
def State.tplWord (s : State) (t k : Nat) : Word := if t < 8 then romTemplateWord t k else s.reg (TRIB_TPL (t - 8) k)

/-- Sample `i` of template `t`, a signed 12-bit number; 0 outside 0 to 255. -/
def State.tplSample (s : State) (t : Nat) (i : Int) : Int :=
  if i < 0 ∨ 255 < i then 0
  else if t < 8 then romSample t i.toNat
  else signed 12 ((s.reg (TRIB_TPL (t - 8) (i.toNat / 2))).toNat / (if i.toNat % 2 = 0 then 1 else 65536))

/-- A sum of template samples with the gain of port `p`, rounded and before clamping: ties round upwards (DESIGN CHOICE, log entry 13). -/
def State.gained (s : State) (p : Nat) (sum : Int) : Int :=
  let g := 1024 + signed 8 (s.fld (TRIB_CFG p) TRIB_CFG_AMP_TRIM)
  (sum * g + 512) / 1024

/-- Codes stay within ±2,047. -/
def clampCode (v : Int) : Int := max (-2047) (min 2047 v)

/-! ### Engines -/

/-- Engine states (FAC_STAT.STATE). -/
def egOff : Nat := 0
def egIdle : Nat := 1
def egDead : Nat := 2
def egWaiting : Nat := 3
def egPlaying : Nat := 4
def egFault : Nat := 5

/-- An engine beside its registers. -/
def State.engine (s : State) (n : Nat) : Engine := tget s.engines .init n

/-- The same, replaced. -/
def State.setEngine (s : State) (n : Nat) (x : Engine) : State := { s with engines := tset s.engines .init n x }

/-- The engine's state. -/
def State.egState (s : State) (n : Nat) : Nat := s.fld (FAC_STAT n) FAC_STAT_STATE

/-- The same, replaced. -/
def State.setEgState (s : State) (n st : Nat) : State := s.setFld (FAC_STAT n) FAC_STAT_STATE st

/-- The engine runs: in dead time, waiting or playing. -/
def State.egRuns (s : State) (n : Nat) : Bool := decide (2 ≤ s.egState n ∧ s.egState n ≤ 4)

/-- The engine is set up on its output port: STAT.FAC of the port, which then takes its samples from the engine (R195). -/
def State.setTribFac (s : State) (p : Nat) (b : Bool) : State := (s.setFlag (TRIB_STAT p) TRIB_STAT_FAC b).updateTribTx p

/-- The assignment an engine's CFG would have keeps R353, R354 and R21. -/
def State.assignOk (s : State) (n port cmp : Nat) : Bool :=
  s.flag SUP_ISLAND_CFG SUP_ISLAND_CFG_FC_EN && decide (s.tribMode port = s.tribMode cmp)
    && s.enabled (islTR port) && s.enabled (islTR cmp)
    && (List.range 8).all (fun m => decide (m = n) || !s.flag (FAC_CFG m) FAC_CFG_ASSIGN
      || decide (s.fld (FAC_CFG m) FAC_CFG_PORT ≠ port))

/-- The FC sample clock of a mode is valid: it goes with the clock of that mode in TR0 and TR1 (R242, R355; log entry 74). -/
def State.facClock (s : State) (mode : Nat) : Bool := s.bitAt TRIB_CLK_STAT mode || s.bitAt TRIB_CLK_STAT (mode + 2)

/-- FREE of an engine follows its sample clock, with event 0x46B on each change (R355). -/
def State.facFreeOne (s : State) (n : Nat) : State :=
  let b := !s.facClock (s.fld (FAC_STAT n) FAC_STAT_MODE)
  if s.flag (FAC_STAT n) FAC_STAT_FREE = b then s
  else
    let s := s.setFlag (FAC_STAT n) FAC_STAT_FREE b
    let s := if b then s.setBitAt (FAC_STICKY n) 4 true else s
    s.raise islFC 0x46B [w32 n, s.reg (FAC_STAT n)]

/-- Engine `n` follows its CFG: Idle and bound to its port, in the port's mode, with event 0x467 on the new assignment (R361). -/
def State.facAssigned (s : State) (n : Nat) : State :=
  let p := s.fld (FAC_CFG n) FAC_CFG_PORT
  let s := s.setFld (FAC_STAT n) FAC_STAT_MODE (s.tribMode p)
  let s := (s.setEgState n egIdle).facFreeOne n
  (s.setTribFac p true).raise islFC 0x467 [w32 n, s.reg (FAC_CFG n)]

/-- The output goes to code 0, comparisons and the bound ring end (R361). -/
def State.facQuiet (s : State) (n : Nat) : State :=
  s.setEngine n { s.engine n with out := 0, owed := [], ring := none, marks := [], calibrating := false }

/-- Event 0x461 with its reason: 0 STOP, 1 LAST, 2 RELEASE. -/
def State.facStopped (s : State) (n reason : Nat) : State := s.raise islFC 0x461 [w32 n, w32 reason]

/-- A step faults: Fault, its code, output 0, event 0x462 (R361). -/
def State.facFault (s : State) (n code : Nat) : State :=
  let s := s.setEngine n { s.engine n with out := 0, ring := none, marks := [] }
  let s := (s.setFld (FAC_STAT n) FAC_STAT_FAULT code).setEgState n egFault
  let s := s.count (FAC_CNT n 1)
  s.raise islFC 0x462 [w32 n, w32 (s.fld (FAC_STAT n) FAC_STAT_STEP + 65536 * code)]

/-- The dead time of step `k` begins (R359). -/
def State.facDead (s : State) (n k : Nat) : State :=
  let s := (s.setFld (FAC_STAT n) FAC_STAT_STEP k).setEgState n egDead
  s.setEngine n { s.engine n with out := 0, marks := [] }

/-! ### Triggers (R362, R363) -/

/-- The lowest-numbered bit set among the low 16. -/
def lowestBit (v : Nat) : Nat := ((List.range 16).find? (fun b => v >>> b % 2 = 1)).getD 15

/-- The first sample of the step leaves the engine next. -/
def State.facPlay (s : State) (n : Nat) : State := s.setEgState n egPlaying

/-- Triggers pulse at engine `n`: latched once a wait has begun, and a masked one ends the wait (R363). -/
def State.facPulse (s : State) (n : Nat) (bits : Nat) : State :=
  let x := s.engine n
  if !x.latching || decide (bits = 0) || !s.running islFC then s
  else
    let s := s.setFld (FAC_TRIG_STAT n) FAC_TRIG_STAT_BITS (s.fld (FAC_TRIG_STAT n) FAC_TRIG_STAT_BITS ||| bits)
    let hit := s.fld (FAC_TRIG_STAT n) FAC_TRIG_STAT_BITS &&& FAC_STEP_W2_WAIT.get (x.st.getD 2 0)
    if s.egState n = egWaiting ∧ hit ≠ 0 then (s.setFld (FAC_STAT n) FAC_STAT_CAUSE (lowestBit hit)).facPlay n else s

/-- Triggers pulse at every engine. -/
def State.facPulseAll (s : State) (bits : Nat) : State := s.each (List.range 8) (fun s n => s.facPulse n bits)

/-- A trigger of one compare port pulses: 12 CDR lock, 13 dLOS (R362). -/
def State.facPortPulse (s : State) (port b : Nat) : State :=
  s.each (List.range 8) fun s n =>
    if s.flag (FAC_CFG n) FAC_CFG_ASSIGN ∧ s.fld (FAC_CFG n) FAC_CFG_CMP_PORT = port then s.facPulse n (2 ^ b) else s

/-- FAC_TRIGGER (R362, R363): triggers pulse; 14 and 15 are never asserted. -/
def execFacTrigger (n : Fin 8) (trigs : BitVec 16) (s : State) : Host.Outcome State Fault Refusal :=
  .next (s.facPulse n (trigs.toNat % 16384))

/-! ### Commands (R351, R353, R354, R361, R370 to R374) -/

/-- A command is refused: RESULT 0x04, the stored token kept. -/
def State.facRefuse (s : State) (n : Nat) : State := s.setFld (FAC_CMD n) FAC_CMD_RESULT 0x04

/-- A command is accepted with its RESULT. -/
def State.facAccept (s : State) (n cmd arg token result : Nat) : State :=
  s.setReg (FAC_CMD n) (w32 (token + 256 * cmd + 4096 * arg + 16777216 * result))

/-- START at step `k` (R359, R361, R370). -/
def State.facStart (s : State) (n k token : Nat) : State :=
  if s.egState n = egIdle ∧ !(s.engine n).calibrating then
    let s := s.facAccept n 1 k token 0x01
    let s := s.setEngine n { s.engine n with ratioBefore := none, modBefore := none, x := 0, modClk := 0, owed := [], phiFrom := 0, phiTo := 0 }
    let s := (s.setReg (FAC_STREAM_STAT n) 0).setReg (FAC_VEC_FIRST n) 0
    let s := s.setFld (FAC_STAT n) FAC_STAT_FAULT 0
    (s.facDead n k).raise islFC 0x460 [w32 n, w32 k]
  else s.facRefuse n

/-- STOP: the output to code 0, and Idle, from every state but Off. -/
def State.facStop (s : State) (n token : Nat) : State :=
  if s.egState n = egOff then s.facRefuse n
  else
    let ran := s.egRuns n
    let s := (s.facAccept n 2 0 token 0x01).facQuiet n
    let s := s.setEgState n egIdle
    if ran then s.facStopped n 0 else s

/-- TRIG pulses trigger 0, and is refused outside Waiting. -/
def State.facTrig (s : State) (n token : Nat) : State :=
  if s.egState n = egWaiting then (s.facAccept n 3 0 token 0x01).facPulse n 1 else s.facRefuse n

/-- ASSIGN binds the ports as a service write would, from Idle or Off, where R353, R354 and R21 allow it (R374). -/
def State.facAssign (s : State) (n port cmp token : Nat) : State :=
  if s.egState n ≤ egIdle ∧ s.assignOk n port cmp ∧ !(s.engine n).calibrating then
    let s := s.facAccept n 4 (port + 64 * cmp) token 0x01
    let s := if s.egState n = egIdle then s.setTribFac (s.fld (FAC_CFG n) FAC_CFG_PORT) false else s
    let c := FAC_CFG_ASSIGN.put (FAC_CFG_PORT.put (FAC_CFG_CMP_PORT.put (s.reg (FAC_CFG n)) cmp) port) 1
    (s.serviceWrite (FAC_CFG n) 0x1FFFFF c).facAssigned n
  else s.facRefuse n

/-- The engine goes Off and its port is free again (R195, R361). -/
def State.facOff (s : State) (n : Nat) : State :=
  let ran := s.egRuns n
  let s := s.facQuiet n
  let s := (s.setFlag (FAC_CFG n) FAC_CFG_ASSIGN false).setEgState n egOff
  let s := s.setTribFac (s.fld (FAC_CFG n) FAC_CFG_PORT) false
  let s := if ran then s.facStopped n 2 else s
  s.raise islFC 0x467 [w32 n, s.reg (FAC_CFG n)]

/-- RELEASE. -/
def State.facRelease (s : State) (n token : Nat) : State :=
  if s.egState n = egOff then s.facRefuse n else (s.facAccept n 5 0 token 0x01).facOff n

/-- An engine in reset is Off (R361). -/
def State.facReset (s : State) (n : Nat) : State := (s.facQuiet n).setEgState n egOff

/-- CAL, accepted in Idle only: it runs until its 64 marks are timed (R372). -/
def State.facCal (s : State) (n token : Nat) : State :=
  if s.egState n = egIdle ∧ !(s.engine n).calibrating then
    (s.facAccept n 6 0 token 0x02).setEngine n { s.engine n with calibrating := true, clk := 0 }
  else s.facRefuse n

/-- SET_SKEW writes SKEW as a service write would (R374); it takes effect at the next step start (R371). -/
def State.facSetSkew (s : State) (n skew token : Nat) : State :=
  (s.facAccept n 7 skew token 0x01).serviceWrite (FAC_SKEW n) 0xFFF (w32 skew)

/-- Any command of FAC_CMD: a repeated token has no effect, and every command raises event 0x46C (R351, R374). -/
def State.facCommand (s : State) (n cmd arg token : Nat) : State :=
  if s.tokenIs (FAC_CMD n) FAC_CMD_TOKEN token then s
  else
    let s := match cmd with
      | 1 => s.facStart n (arg % 1024) token
      | 2 => s.facStop n token
      | 3 => s.facTrig n token
      | 4 => s.facAssign n (arg % 64) (arg / 64 % 64) token
      | 5 => s.facRelease n token
      | 6 => s.facCal n token
      | 7 => s.facSetSkew n arg token
      | _ => s.facRefuse n
    s.raise islFC 0x46C [w32 n, s.reg (FAC_CMD n)]

/-- A command of FAC_CMD by a writer. -/
def State.facWrite (s : State) (w : Writer) (n cmd arg token : Nat) : State :=
  s.commandWrite w true true islFC (FAC_CMD n) (fun s => s.facCommand n cmd arg token)

/-- FAC_CAL_DONE (R372): the 64 first crossings in 1/64 sample; a missing one, or one beyond 16 UI, fails the calibration. -/
def execFacCalDone (n : Fin 8) (crossings : List (Option Nat)) (s : State) : Host.Outcome State Fault Refusal :=
  .next (if !s.running islFC || !(s.engine n).calibrating then s
  else
    let s := s.setEngine n { s.engine n with calibrating := false }
    let good := crossings.filterMap (fun c => c.bind (fun v => if v ≤ 65535 then some v else none))
    let s := if good.length = 64 ∧ crossings.length = 64 then
        let mean := good.sum / 64
        let s := s.setReg (FAC_CAL_STAT n) (w32 (mean + 65536))
        let s := s.setFld (FAC_CFG n) FAC_CFG_LAG ((mean + 2048) / 4096)
        s.setFld (FAC_CMD n) FAC_CMD_RESULT 0x01
      else (s.setFlag (FAC_CAL_STAT n) FAC_CAL_STAT_VALID false).setFld (FAC_CMD n) FAC_CMD_RESULT 0x04
    s.raise islFC 0x468 [w32 n, s.reg (FAC_CAL_STAT n)])

/-- A write to FAC_SYNC (R351, R362). -/
def State.facSyncWrite (s : State) (token : Nat) (go : Bool) : State :=
  if !go || s.tokenIs FAC_SYNC FAC_SYNC_TOKEN token then s
  else
    let s := s.setReg FAC_SYNC (w32 (token + 256 + 65536 * 0x01))
    (s.facPulseAll 2).raise islFC 0x46D [s.reg FAC_SYNC]

/-- START and LENGTH of the bound stream ring, as its segment entry was fetched (R357). -/
def Engine.ringStart (x : Engine) : Nat := FAC_SEG_W0_START.get (x.sg.getD 2 0)
def Engine.ringLength (x : Engine) : Nat := FAC_SEG_W1_LENGTH.get (x.sg.getD 3 0)

/-- A write to FAC_STREAM (R370). -/
def State.facStreamWrite (s : State) (n token count : Nat) : State :=
  if s.tokenIs (FAC_STREAM n) FAC_STREAM_TOKEN token then s
  else match (s.engine n).ring with
  | none => s.setFld (FAC_STREAM n) FAC_STREAM_RESULT 0x04
  | some _ =>
    if count = 0 then s.setFld (FAC_STREAM n) FAC_STREAM_RESULT 0x04
    else
      let free := (s.engine n).ringLength - s.fld (FAC_STREAM_STAT n) FAC_STREAM_STAT_FILL
      let s := s.setFld (FAC_STREAM_STAT n) FAC_STREAM_STAT_FILL (s.fld (FAC_STREAM_STAT n) FAC_STREAM_STAT_FILL + min count free)
      if count ≤ free then s.setReg (FAC_STREAM n) (w32 (token + 256 * count + 16777216 * 0x01))
      else
        let s := s.setReg (FAC_STREAM n) (w32 (token + 256 * count + 16777216 * 0x02))
        let s := (s.setBitAt (FAC_STICKY n) 1 true).count (FAC_CNT n 5)
        s.raise islFC 0x466 [w32 n, s.reg (FAC_STREAM n)]

/-! ### The dead time and its check (R356, R358, R359, R365, R368 to R370) -/

/-- Bytes of a segment's items. -/
def segBytes (kind length : Nat) : Nat := if kind = 1 then (length + 1) / 2 else 2 * length

/-- The fault code of a segment entry that should be of one of the listed kinds (R356). -/
def segFault (w0 w1 : Word) (kinds : List Nat) : Nat :=
  let len := FAC_SEG_W1_LENGTH.get w1
  let kind := FAC_SEG_W0_KIND.get w0
  if len = 0 then 1
  else if 262144 < 4 * FAC_SEG_W0_START.get w0 + segBytes kind len then 2
  else if kinds.contains kind then 0 else 3

/-- A ring is in use by another running engine (R370). -/
def State.ringTaken (s : State) (n seg : Nat) : Bool :=
  (List.range 8).any fun m => decide (m ≠ n) && s.egRuns m && decide ((s.engine m).ring = some seg)

/-- A sine is too steep (R369): 2π × F × A/256 beyond half the line rate, with F in mHz. -/
def sineSteep (mode a f : Nat) : Bool :=
  if mode = 0 then decide (41721513401 < a * f) else decide (31454109713 < a * f)

/-- The fault code of a fetched modulation entry, 0 where it is good. A or F beyond its range, or MOD_INT 0, is taken like an invalid TYPE
(DEDUCED, log entry 74). -/
def State.modFault (s : State) (n : Nat) (x : Engine) : Nat :=
  let w0 := x.md.getD 0 0
  let w1 := x.md.getD 1 0
  match FAC_MOD_W0_TYPE.get w0 with
  | 0 => 0
  | 1 =>
    let a := FAC_MOD_W0_ARG.get w0
    if 32767 < a ∨ w1.toNat < 10 ∨ 200000000 < w1.toNat then 7
    else if sineSteep (s.fld (FAC_STAT n) FAC_STAT_MODE) a w1.toNat then 5 else 0
  | 2 =>
    let seg := FAC_MOD_W0_ARG.get w0 % 1024
    let f := segFault (x.sg.getD 2 0) (x.sg.getD 3 0) [2]
    if f ≠ 0 then f else if s.ringTaken n seg then 3 else if w1.toNat % 65536 = 0 then 7 else 0
  | _ => 7

/-- The entries of step `k` as fetched now, the segment entry that its modulation would stream from among them. -/
def State.fetchStep (s : State) (n k : Nat) : Engine :=
  let seg := s.fld (FAC_STEP_W0 k) FAC_STEP_W0_SEG
  let m := s.fld (FAC_STEP_W1 k) FAC_STEP_W1_MOD
  let r := s.fld (FAC_MOD_W0 m) FAC_MOD_W0_ARG % 1024
  { s.engine n with
    st := [s.reg (FAC_STEP_W0 k), s.reg (FAC_STEP_W1 k), s.reg (FAC_STEP_W2 k), s.reg (FAC_STEP_W3 k)]
    sg := [s.reg (FAC_SEG_W0 seg), s.reg (FAC_SEG_W1 seg), s.reg (FAC_SEG_W0 r), s.reg (FAC_SEG_W1 r)]
    md := [s.reg (FAC_MOD_W0 m), s.reg (FAC_MOD_W1 m)] }

/-- Fields of the fetched step. -/
def Engine.ratio (x : Engine) : Nat := FAC_STEP_W1_RATIO.get (x.st.getD 1 0)
def Engine.modNo (x : Engine) : Nat := FAC_STEP_W1_MOD.get (x.st.getD 1 0)
def Engine.kind (x : Engine) : Nat := FAC_SEG_W0_KIND.get (x.sg.getD 0 0)
def Engine.length (x : Engine) : Nat := FAC_SEG_W1_LENGTH.get (x.sg.getD 1 0)
def Engine.start (x : Engine) : Nat := FAC_SEG_W0_START.get (x.sg.getD 0 0)
def Engine.modType (x : Engine) : Nat := FAC_MOD_W0_TYPE.get (x.md.getD 0 0)
def Engine.repeats (x : Engine) : Nat := FAC_STEP_W0_REPEAT.get (x.st.getD 0 0)

/-- The fault code of a fetched step, 0 where it may play. -/
def State.stepFault (s : State) (n : Nat) (x : Engine) : Nat :=
  let f := segFault (x.sg.getD 0 0) (x.sg.getD 1 0) [0, 1]
  if f ≠ 0 then f
  else if x.kind = 0 ∧ (x.ratio < 0x1000 ∨ 0x40000 < x.ratio) then 4
  else s.modFault n x

/-- The engine as the step starts: position, phases, skew and marks (R365, R366, R371). -/
def Engine.begin (x : Engine) (skew : Nat) : Engine :=
  let cont := decide ((x.st.getD 1 0).toNat / 524288 % 2 = 1) && decide (x.ratioBefore = some x.ratio)
  let same := decide (x.modBefore = some x.modNo)
  { x with
    x := if cont then x.x % 65536 else 0, plays := 0, ended := false, clk := 0
    modClk := if same then x.modClk + 32 else 0
    phiFrom := if same then x.phiFrom else 0, phiTo := if same then x.phiTo else 0
    skew := skew, positive := true, marks := [], runs := x.runs + 1
    ring := if x.modType = 2 then some (FAC_MOD_W0_ARG.get (x.md.getD 0 0) % 1024) else none
    ratioBefore := some x.ratio, modBefore := some x.modNo }

/-- DEAD_TIME_END (R356, R358, R359, R363): the step, its segment and its modulation are fetched and checked; then a fault, a wait or
the first sample. -/
def execDeadTimeEnd (n : Fin 8) (s : State) : Host.Outcome State Fault Refusal :=
  .next (if !s.running islFC || decide (s.egState n ≠ egDead) then s
  else
    let x := s.fetchStep n (s.fld (FAC_STAT n) FAC_STAT_STEP)
    let f := s.stepFault n x
    if f ≠ 0 then (s.setEngine n x).facFault n f
    else
      let x := x.begin (s.fld (FAC_SKEW n) FAC_SKEW_SKEW)
      if FAC_STEP_W2_WAIT.get (x.st.getD 2 0) ≠ 0 then
        ((s.setEngine n { x with latching := true }).setFld (FAC_TRIG_STAT n) FAC_TRIG_STAT_BITS 0).setEgState n egWaiting
      else (s.setEngine n x).facPlay n)

/-- WAIT_TIMEOUT (R363). -/
def execWaitTimeout (n : Fin 8) (s : State) : Host.Outcome State Fault Refusal :=
  .next (if s.running islFC && decide (s.egState n = egWaiting)
      && decide (FAC_STEP_W2_WAIT_TO.get ((s.engine n).st.getD 2 0) ≠ 0) then
    let s := (s.setFld (FAC_STAT n) FAC_STAT_CAUSE 0xF).count (FAC_CNT n 7)
    let s := s.raise islFC 0x463 [w32 n, w32 (s.fld (FAC_STAT n) FAC_STAT_STEP)]
    s.facDead n (FAC_STEP_W3_TO_NEXT.get ((s.engine n).st.getD 3 0))
  else s)

/-- STEP_END (R360): MARK, then LAST or NEXT. -/
def execStepEnd (n : Fin 8) (s : State) : Host.Outcome State Fault Refusal :=
  .next (if s.running islFC && decide (s.egState n = egPlaying) && decide ((s.engine n).repeats ≠ 0) then
    let x := s.engine n
    let w1 := x.st.getD 1 0
    let s := s.count (FAC_CNT n 0)
    let s := if FAC_STEP_W1_MARK.get w1 = 1 then
        (s.facPulseAll (2 ^ (4 + n.val))).raise islFC 0x469 [w32 n, w32 (s.fld (FAC_STAT n) FAC_STAT_STEP)]
      else s
    if FAC_STEP_W1_LAST.get w1 = 1 then
      let s := s.setEngine n { s.engine n with out := 0, ring := none, marks := [] }
      (s.setEgState n egIdle).facStopped n 1
    else s.facDead n (FAC_STEP_W3_NEXT.get (x.st.getD 3 0))
  else s)

/-! ### Playing (R364 to R369) -/

/-- Halfword `i` from word `start` of the pattern memory. -/
def State.patternHalf (s : State) (start i : Nat) : Nat :=
  (s.reg (FAC_PATTERN (start + i / 2))).toNat / (if i % 2 = 0 then 1 else 65536) % 65536

/-- Vector element `i` from word `start` of the pattern memory: low nibble first. -/
def State.patternNibble (s : State) (start i : Nat) : Nat := (s.reg (FAC_PATTERN (start + i / 8))).toNat / 16 ^ (i % 8) % 16

/-- MOD_INT in sample clocks. -/
def modClocks (mode us : Nat) : Nat := us * (if mode = 0 then 131072 else 98816) / 1000

/-- sin(2π × num/den) in units of 2^-48: the argument folded into the first quarter, where ten terms of the sine series are summed. -/
def sineOf (num den : Nat) : Int :=
  let r := 4 * (num % den)
  let y := if r / den % 2 = 0 then r % den else den - r % den
  let x : Int := (442139859501778 * y / den : Nat)
  let sum := (List.range 9).foldl (fun (p : Int × Int) k =>
    let t := -(p.1 * (x * x / 2 ^ 48) / 2 ^ 48) / (((2 * k + 2) * (2 * k + 3) : Nat) : Int)
    (t, p.2 + t)) (x, x)
  if r / den < 2 then sum.2 else -sum.2

/-- A × sin(2πFt) in whole 1/256 UI for F in mHz at a number of sample clocks of a mode (R368). The manual gives no rounding: the nearest
whole value, the one below it or the one above it, as a free value says (DESIGN CHOICE, log entry 12). -/
def sineOffset (a f mode clk : Nat) : Int :=
  let v := (a : Int) * sineOf (f * clk) (if mode = 0 then 131072000000 else 98816000000)
  (v + 2 ^ 47) / 2 ^ 48 + (Config.sine a f mode clk % 3 - 1)

/-- The phase offset φ now, in 1/256 UI (R368). -/
def State.phi (s : State) (n : Nat) : Int :=
  let x := s.engine n
  let mode := s.fld (FAC_STAT n) FAC_STAT_MODE
  match x.modType with
  | 1 => sineOffset (FAC_MOD_W0_ARG.get (x.md.getD 0 0)) (x.md.getD 1 0).toNat mode x.modClk
  | 2 =>
    let span := max 1 (modClocks mode ((x.md.getD 1 0).toNat % 65536))
    x.phiFrom + (x.phiTo - x.phiFrom) * (min x.modClk span : Nat) / (span : Int)
  | _ => 0

/-- One waveform output (R364): eight taps around x + δ, wrapping across the segment boundary; with RATIO at 1 and a zero phase the stored
sample itself. -/
def State.waveOut (s : State) (n : Nat) : Int :=
  let x := s.engine n
  let r : Int := x.ratio
  let at64 : Int := 64 * (x.x : Int) - 16 * r * s.phi n - r * (x.skew : Int)
  let i := at64 / 4194304
  let phase := ((at64 % 4194304) / 4096).toNat
  let sample (j : Int) : Int := signed 12 (s.patternHalf x.start (j % (max 1 x.length : Nat)).toNat)
  if x.ratio = 65536 ∧ phase = 0 then sample i
  else clampCode (((List.range 8).foldl (fun a t => a + Config.sincTap phase t x.ratio * sample (i + (t : Int) - 3)) 0 + 8192) / 16384)

/-- The engine after one waveform sample: a play ends where x reaches LENGTH, and of a short segment more than one may end (R364). -/
def Engine.waveStep (x : Engine) : Engine :=
  let p := x.x + x.ratio
  let len := max 1 (65536 * x.length)
  let plays := x.plays + p / len
  { x with x := p % len, clk := x.clk + 1, modClk := x.modClk + 1, plays := plays, ended := decide (x.repeats ≠ 0 ∧ x.repeats ≤ plays) }

/-- The symbol start delay of a vector step in whole samples: the offset and SKEW, taken up to the next 1/64 UI (R185, R371). -/
def State.vecShift (s : State) (n : Nat) : Int := (16 * s.phi n + ((s.engine n).skew : Int) + 63) / 64

/-- The mark of the step's element `k`, counted over all plays, is placed on the line; no element follows the last play (R366). -/
def State.placeMark (s : State) (n k : Nat) : State :=
  let x := s.engine n
  let len := max 1 x.length
  if s.patternNibble x.start (k % len) % 4 = 1 ∧ (x.repeats = 0 ∨ k < x.repeats * len) then
    let start : Int := 64 * (k : Int) + s.vecShift n
    s.setEngine n { x with
      marks := ((start, if x.positive then 1 else -1) :: x.marks).filter (fun m => decide ((x.clk : Int) < m.1 + 192))
      positive := !x.positive }
  else s

/-- A vector element starts: its compare is owed and the mark of the element after it is placed, since a template begins 1 UI before its
symbol (R183); an invalid code faults (R366). -/
def State.vecElement (s : State) (n : Nat) : State :=
  let x := s.engine n
  let k := x.clk / 64
  let i := k % max 1 x.length
  let c := s.patternNibble x.start i
  if 2 ≤ c % 4 ∨ c / 4 = 3 then s.facFault n 6
  else
    let s := if c / 4 = 2 then s
      else s.setEngine n { x with owed := x.owed ++ [⟨i, s.fld (FAC_STAT n) FAC_STAT_STEP, decide (c / 4 = 1), x.runs⟩] }
    let s := if k = 0 then s.placeMark n 0 else s
    s.placeMark n (k + 1)

/-- One vector output: the marks shaped by the output port's TEMPLATE and AMP_TRIM (R184, R366). -/
def State.vecOut (s : State) (n : Nat) : Int :=
  let x := s.engine n
  let p := s.fld (FAC_CFG n) FAC_CFG_PORT
  let t := s.fld (TRIB_CFG p) TRIB_CFG_TEMPLATE
  clampCode (s.gained p (x.marks.foldl (fun a m => a + m.2 * s.tplSample t ((x.clk : Int) - m.1 + 64)) 0))

/-- The engine after one vector sample clock. -/
def Engine.vecStep (x : Engine) : Engine :=
  let clk := x.clk + 1
  let wrap := decide (clk % (64 * max 1 x.length) = 0)
  { x with clk := clk, modClk := x.modClk + 1, plays := if wrap then x.plays + 1 else x.plays
           ended := wrap && decide (x.repeats ≠ 0 ∧ x.repeats ≤ x.plays + 1) }

/-- One output of a calibration (R372): 64 single marks spaced 256 UI apart, each shaped like a mark of a vector step. Their polarity
alternates from a positive first one (DEDUCED from R366, log entry 74). -/
def State.calOut (s : State) (n : Nat) : Int :=
  let clk := (s.engine n).clk
  let p := s.fld (FAC_CFG n) FAC_CFG_PORT
  let v := s.tplSample (s.fld (TRIB_CFG p) TRIB_CFG_TEMPLATE) ((clk % 16384 : Nat) : Int)
  if 64 ≤ clk / 16384 then 0 else clampCode (s.gained p (if clk / 16384 % 2 = 0 then v else -v))

/-- FACSIMILE_OUTPUT_SAMPLE (R364, R366, R368, R372). -/
def execFacsimileOutputSample (n : Fin 8) (s : State) : Host.Outcome State Fault Refusal :=
  .next (if !s.running islFC then s
  else if (s.engine n).calibrating then
    s.setEngine n { s.engine n with out := s.calOut n, clk := (s.engine n).clk + 1 }
  else if s.egState n ≠ egPlaying ∨ (s.engine n).ended then s
  else if (s.engine n).kind = 0 then
    s.setEngine n { (s.engine n).waveStep with out := s.waveOut n }
  else
    let s := if (s.engine n).clk % 64 = 0 then s.vecElement n else s
    if s.egState n ≠ egPlaying then s
    else s.setEngine n { (s.engine n).vecStep with out := s.vecOut n })

/-- The CDR of an engine's compare port is locked. -/
def State.cmpLocked (s : State) (n : Nat) : Bool :=
  let p := s.fld (FAC_CFG n) FAC_CFG_CMP_PORT
  s.running (islTR p) && s.flag (TRIB_CFG p) TRIB_CFG_EN && s.flag (TRIB_STAT p) TRIB_STAT_CDR_LOCK

/-- VECTOR_COMPARE (R366, R367): the compare port's decoder delivers the symbol of the UI that starts `lag` UI after the oldest element owed was
driven. At LAG it is that element's, whose compare is judged; an unlocked CDR fails it. -/
def execVectorCompare (n : Fin 8) (lag : Byte) (received : Symbol) (s : State) : Host.Outcome State Fault Refusal :=
  .next (if !s.running islFC || decide (lag.toNat ≠ s.fld (FAC_CFG n) FAC_CFG_LAG) then s
  else match (s.engine n).owed with
  | [] => s
  | o :: rest =>
    let locked := s.cmpLocked n
    let s := s.setEngine n { s.engine n with owed := rest }
    let s := s.count (FAC_CNT n 2)
    let s := if locked then s else s.setBitAt (FAC_STICKY n) 3 true
    if locked && decide ((received = .mark) = o.mark) then s
    else
      let s := s.count (FAC_CNT n 3)
      if (s.engine n).failed = some o.run then s
      else
        let s := s.setEngine n { s.engine n with failed := some o.run }
        let s := s.setReg (FAC_VEC_FIRST n) (w32 (o.element + 65536 * o.step + 2147483648))
        s.raise islFC 0x464 [w32 n, s.reg (FAC_VEC_FIRST n)])

/-- The largest change of φ over one MOD_INT: 0.5 UI per UI (R369). -/
def slopeLimit (mode us : Nat) : Int := ((128 * us * (if mode = 0 then 2048 else 1544) / 1000 : Nat) : Int)

/-- STREAM_SAMPLE (R368 to R370): one ring sample becomes the new φ, within the slope limit, or φ holds on underrun. -/
def execStreamSample (n : Fin 8) (s : State) : Host.Outcome State Fault Refusal :=
  .next (if !s.running islFC || decide (s.egState n ≠ egPlaying) then s
  else match (s.engine n).ring with
  | none => s
  | some _ =>
    let x := s.engine n
    let fill := s.fld (FAC_STREAM_STAT n) FAC_STREAM_STAT_FILL
    if fill = 0 then
      let s := s.setEngine n { x with phiFrom := x.phiTo, modClk := 0 }
      let s := (s.setBitAt (FAC_STICKY n) 0 true).count (FAC_CNT n 4)
      s.raiseFirst islFC 0x465 n [w32 n, s.reg (FAC_STREAM_STAT n)]
    else
      let rd := s.fld (FAC_STREAM_STAT n) FAC_STREAM_STAT_RD
      let v := signed 16 (s.patternHalf x.ringStart rd)
      let lim := slopeLimit (s.fld (FAC_STAT n) FAC_STAT_MODE) ((x.md.getD 1 0).toNat % 65536)
      let v' := max (x.phiTo - lim) (min (x.phiTo + lim) v)
      let s := s.setReg (FAC_STREAM_STAT n) (w32 ((rd + 1) % max 1 x.ringLength + 65536 * (fill - 1)))
      let s := s.setEngine n { x with phiFrom := x.phiTo, phiTo := v', modClk := 0 }
      if v' = v then s
      else
        let s := (s.setBitAt (FAC_STICKY n) 2 true).count (FAC_CNT n 6)
        s.raiseFirst islFC 0x46E n [w32 n])

/-! ### Pattern memory (R357) -/

/-- Word `i` of the pattern memory lies in the waveform or vector segment of a step being played or waited for. -/
def State.patternBusy (s : State) (i : Nat) : Bool :=
  (List.range 8).any fun n =>
    let x := s.engine n
    (decide (s.egState n = egPlaying) || decide (s.egState n = egWaiting)) && decide (x.kind ≤ 1)
      && decide (x.start ≤ i ∧ 4 * i < 4 * x.start + segBytes x.kind x.length)

/-- A write to the pattern memory: refused with event 0x46A where the word is in play; a service's write is mirrored (R272, R357). -/
def State.patternWrite (s : State) (w : Writer) (i : Nat) (value : Word) : State :=
  if s.patternBusy i then (s.respond rRefused).raise islFC 0x46A [w32 (FAC_PATTERN i)]
  else match w with
  | .service _ => s.serviceWrite (FAC_PATTERN i) 0xFFFFFFFF value
  | .maintenance => s.setReg (FAC_PATTERN i) value

/-- The FC sample clock of a mode may have become invalid or valid: FREE of the engines that run in it (R355). -/
def State.facFree (s : State) (mode : Nat) : State :=
  if !s.running islFC then s
  else s.each ((List.range 8).filter (fun n => decide (s.egState n ≠ egOff ∧ s.fld (FAC_STAT n) FAC_STAT_MODE = mode))) State.facFreeOne

/-- A service's write to FAC_CFG: ASSIGN and the ports act as the ASSIGN and RELEASE commands do, within the rules of R354; the write is
mirrored. -/
def State.facCfgWrite (s : State) (n : Nat) (value : Word) : State :=
  let was := s.flag (FAC_CFG n) FAC_CFG_ASSIGN
  let now := decide (value.toNat % 2 = 1)
  let moved := decide (FAC_CFG_PORT.get value ≠ s.fld (FAC_CFG n) FAC_CFG_PORT)
  if now && !s.assignOk n (FAC_CFG_PORT.get value) (FAC_CFG_CMP_PORT.get value) then s.respond rRefused
  else if was && !now then (s.facOff n).serviceWrite (FAC_CFG n) 0x1FFFFF value
  else
    let s := if was && moved then s.setTribFac (s.fld (FAC_CFG n) FAC_CFG_PORT) false else s
    let s := s.serviceWrite (FAC_CFG n) 0x1FFFFF value
    if now && !was then s.facAssigned n
    else if now && moved then
      let p := FAC_CFG_PORT.get value
      let s := ((s.setFld (FAC_STAT n) FAC_STAT_MODE (s.tribMode p)).facFreeOne n).setTribFac p true
      s.raise islFC 0x467 [w32 n, s.reg (FAC_CFG n)]
    else s

end Sys2Proof.Machine
end

