-- ==== Sys2Proof/Machine/Fence.lean ====
section
/-! DEFINITION. Fences and what waits for them: global fences, their markers and completion, the local fence of a core, and the acceptance
of events by EH (R104 to R109, R111, R327, R328). -/

namespace Sys2Proof.Machine

/-! ### Global fences (R105 to R109) -/

/-- Tags of the writes that have not been answered. -/
def State.liveWrites (s : State) : List Nat := (s.mtx.txns.filter (fun p => p.2.req.write)).map (fun p => p.2.tag)

/-- FENCE_ISSUE (R105): the next number, event 0x0A0, and the drain begins. A fence from MTX_FENCE shows its number in FENCE_LO. -/
def State.issueFence (s : State) (issuer : Nat) : State :=
  let n := (s.fld MTX_FENCE_NO MTX_FENCE_NO_ISSUED + 1) % 65536
  let s := s.setFld MTX_FENCE_NO MTX_FENCE_NO_ISSUED n
  let s := if issuer = 7 then s.setFld MTX_FENCE MTX_FENCE_FENCE_LO n else s
  (s.setMtx { s.mtx with fence := some ⟨n, issuer, true, [], [], s.liveWrites⟩ }).raise islMX 0x0A0 [w32 n, w32 issuer]

/-- A fence is requested: issued at once, or waiting its turn while one runs; a core has at most one request waiting (R109). -/
def State.requestFence (s : State) (issuer : Nat) : State :=
  if s.mtx.fence.isNone then s.issueFence issuer
  else if s.mtx.waiting.contains issuer then s
  else s.setMtx { s.mtx with waiting := s.mtx.waiting ++ [issuer] }

/-- The core of pair `q` that waits in FENCE.G goes on. -/
def State.releaseG (s : State) (q : Nat) : State :=
  let c := s.core q
  if c.stall = some .globally then (s.setCore q { c with stall := none, pc := c.pc + 4 }).dispatch else s

/-- The fence is over: its number, the missed islands, event 0x0A2 or 0x0A3, the issuer released (unless a newer request
of its own waits), and the next request served. -/
def State.endFence (s : State) (f : Fence) (missed : List Nat) : State :=
  let miss := missed.foldl (fun a i => a + 2 ^ i) 0
  let s := (s.setFld MTX_FENCE_NO MTX_FENCE_NO_COMPLETED f.no).setReg MTX_FENCE_MISS (w32 miss)
  let s := if missed = [] then s.raise islMX 0x0A2 [w32 f.no] else s.raise islMX 0x0A3 [w32 f.no, w32 miss]
  let s := if f.issuer = 7 then s.setFld MTX_FENCE MTX_FENCE_RESULT (if missed = [] then 0x02 else 0x03) else s
  let s := s.setMtx { s.mtx with
    fence := none, late := s.mtx.late ++ ((f.unmarked.filter missed.contains).map (fun i => (f.no, i))) }
  let s := if f.issuer = 7 ∨ s.mtx.waiting.contains f.issuer then s else s.releaseG (f.issuer / 2)
  match s.mtx.waiting with
  | [] => s
  | i :: l => (s.setMtx { s.mtx with waiting := l }).issueFence i

/-- FENCE_COMPLETE (R105): the fence is complete once EH has accepted the marker of every island broadcast to that is not absent. -/
def State.checkFence (s : State) : State :=
  match s.mtx.fence with
  | none => s
  | some f => if !f.draining && f.waitFor.isEmpty then s.endFence f [] else s

/-- FENCE_DRAIN_DONE (R105): the writes accepted before the issue have been answered; markers go to every running island. -/
def execFenceDrainDone (s : State) : Host.Outcome State Fault Refusal :=
  .next (match s.mtx.fence with
  | none => s
  | some f =>
    if f.draining && (f.writes.filter s.liveWrites.contains).isEmpty then
      let l := (List.range 24).filter s.running
      (s.setMtx { s.mtx with fence := some { f with draining := false, waitFor := l, unmarked := l, writes := [] } }).checkFence
    else s)

/-- Island `i` places the marker of fence `n` in its event path: event 0x0A1, which EH records as 0x0A4 where the fence is over (R105,
R108). -/
def State.placeMarker (s : State) (n i : Nat) : State := s.raise i 0x0A1 [w32 n, w32 i, w32 (s.itcOf i)]

/-- FENCE_MARKER (R105, R108): a marker reaches an island; one of a fence already over comes first. -/
def execFenceMarker (i : Fin 24) (s : State) : Host.Outcome State Fault Refusal :=
  .next (if !s.running i then s
  else match s.mtx.late.find? (fun p => p.2 = i.val) with
  | some p => (s.setMtx { s.mtx with late := s.mtx.late.erase p }).placeMarker p.1 i
  | none =>
    match s.mtx.fence with
    | none => s
    | some f =>
      if f.unmarked.contains i.val then
        (s.setMtx { s.mtx with fence := some { f with unmarked := f.unmarked.erase i.val } }).placeMarker f.no i
      else s)

/-- FENCE_MARKER_TIMEOUT (R107): the islands still awaited are missed. -/
def execFenceMarkerTimeout (s : State) : Host.Outcome State Fault Refusal :=
  .next (match s.mtx.fence with
  | none => s
  | some f => if f.draining then s else s.endFence f f.waitFor)

/-- A write to MTX_FENCE (R109, R111): no command without GO or with the stored token; refused while a fence from MTX_FENCE runs or
waits. -/
def State.fenceWrite (s : State) (token : Nat) (go : Bool) : State :=
  if !go || s.tokenIs MTX_FENCE MTX_FENCE_TOKEN token then s
  else if s.mtx.waiting.contains 7 || (match s.mtx.fence with | some f => decide (f.issuer = 7) | none => false) then
    s.setFld MTX_FENCE MTX_FENCE_RESULT 0x04
  else
    let s := (s.setFld MTX_FENCE MTX_FENCE_TOKEN token).setFld MTX_FENCE MTX_FENCE_RESULT 0x01
    s.requestFence 7

/-! ### Local fences (R104) -/

/-- The effect of FENCE.L has come for pair `q`: nothing of its port is outstanding, and EH has accepted the first `count` events of its
island. -/
def State.settledL (s : State) (q count : Nat) : Bool := !s.portLive q && decide (count ≤ tget s.eh.accepted 0 (islSV q))

/-- A core that waits in FENCE.L, DONE or READY goes on once the fence's effect has come. -/
def State.releaseL (s : State) (q : Nat) : State :=
  let c := s.core q
  match c.stall with
  | some (.locally count next) =>
    if s.settledL q count then
      let s := s.setCore q { c with stall := none, pc := c.pc + 4 }
      if next = 0 then s.dispatch else s.endRun q (decide (next = 2))
    else s
  | _ => s

/-- Both pairs looked at again. -/
def State.releaseCores (s : State) : State := (s.releaseL 0).releaseL 1

/-! ### Acceptance of an event (R108, R327, R328) -/

/-- EVENT_ACCEPT (R91, R327, R328): the oldest event of island `i` on its way is accepted: SP's and RT's over their own gates, EH's own from its
internal input, every other island's where MX forwards it. It is counted, its pending bit set, its record queued, its task woken; a fence may
complete and a core's FENCE.L end with it. What the island raised as it stopped has left it (log entry 115). -/
def execEventAccept (i : Fin 24) (s : State) : Host.Outcome State Fault Refusal :=
  .next (if !(eventPath i).all (fun j => s.running j || (decide (j = i.val) && decide (i.val ≠ islEH))) then s
  else match s.inFlight i with
  | [] => s
  | ev :: _ => (({ s with chan := s.chan.erase ev }).acceptEvent ev).checkFence.releaseCores)

/-- LEDGER_WRITE (R332): the record at the head of the queue is written to its slot. -/
def execLedgerWrite (s : State) : Host.Outcome State Fault Refusal :=
  .next (if s.running islEH then s.writeHead else s)

end Sys2Proof.Machine
end

