-- ==== Sys2Proof/Machine/Frames.lean ====
section
/-! DEFINITION. Ethernet, IPv4, UDP and ESMC frames as bytes, most significant byte first on the wire (R5, R200, R201, R232, R245). -/

namespace Sys2Proof.Machine

/-- The ones' complement sum of 16-bit words, an odd last byte padded with 0. -/
def onesSum : List Byte → Nat
  | [] => 0
  | [a] => a.toNat * 256
  | a :: b :: r =>
    let v := a.toNat * 256 + b.toNat + onesSum r
    if v < 65536 then v else v - 65535

/-- The Internet checksum of a list of bytes whose checksum field is 0. -/
def inetChecksum (bs : List Byte) : Nat := 65535 - onesSum bs

/-- `n` bytes of `l` from offset `o`. -/
def slice (l : List Byte) (o n : Nat) : List Byte := (l.drop o).take n

/-- The big-endian number in `n` bytes of `l` from offset `o`. -/
def field (l : List Byte) (o n : Nat) : Nat := beNat (slice l o n)

/-- An IPv4 header for `len` bytes after it, with DF set (R201). -/
def ipv4Header (dscp ttl len : Nat) (src dst : List Byte) : List Byte :=
  let h (c : Nat) : List Byte :=
    [0x45] ++ beBytes 1 (4 * dscp) ++ beBytes 2 (20 + len) ++ beBytes 2 0 ++ beBytes 2 0x4000 ++ beBytes 1 ttl ++ [17] ++ beBytes 2 c
      ++ src ++ dst
  h (inetChecksum (h 0))

/-- A UDP header with its checksum as given. -/
def udpHeader (src dst len sum : Nat) : List Byte := beBytes 2 src ++ beBytes 2 dst ++ beBytes 2 (8 + len) ++ beBytes 2 sum

/-- A frame padded with zeros to 60 bytes and closed by its FCS (R200). -/
def closeFrame (f : List Byte) : List Byte :=
  let f := f ++ List.replicate (60 - f.length) 0
  f ++ leBytes 4 (crc32 f).toNat

/-- The FCS of a frame is right. -/
def fcsOk (f : List Byte) : Bool :=
  let n := f.length - 4
  decide (leNat (f.drop n) = (crc32 (f.take n)).toNat)

/-- VLAN tags present after the addresses, at most 2 (R199, R200). -/
def vlanTags (f : List Byte) : Nat :=
  let tag (o : Nat) := decide (field f o 2 = 0x8100 ∨ field f o 2 = 0x88A8)
  if tag 12 then (if tag 16 then 2 else 1) else 0

/-- The slow-protocol address of an ESMC PDU (R232). -/
def esmcAddress : List Byte := [0x01, 0x80, 0xC2, 0x00, 0x00, 0x02]

/-- An ESMC frame: the information or event PDU with its SSM TLV and, where asked, the extended QL TLV, as G.8264 lays them out
(PRESUMED, log entry 14). -/
def esmcFrame (mac : List Byte) (event : Bool) (ssm : Nat) (enh : Option Nat) : List Byte :=
  closeFrame (esmcAddress ++ mac ++ [0x88, 0x09, 0x0A, 0x00, 0x19, 0xA7, 0x00, 0x01] ++ beBytes 1 (0x10 + 8 * bit event) ++ [0, 0, 0]
    ++ [0x01, 0x00, 0x04] ++ beBytes 1 (ssm % 16)
    ++ (match enh with
      | some e => [0x02, 0x00, 0x14] ++ beBytes 1 e ++ mac.take 3 ++ [0xFF, 0xFE] ++ mac.drop 3 ++ [0, 1] ++ List.replicate 6 0
      | none => []))

end Sys2Proof.Machine
end

