-- ==== Sys2Proof/Machine/Trib.lean ====
section
/-! DEFINITION. The tributary ports: loss of signal, received AIS, framing monitors, CRC-4, far-end alarm, sample clocks, slips, templates,
maintenance and pulse synthesis (R168 to R196). -/

namespace Sys2Proof.Machine

/-- A STAT bit of a port. -/
def State.tstat (s : State) (p : Nat) (f : Fld) : Bool := s.flag (TRIB_STAT p) f

/-- A STAT bit changed; bits 0 to 4 latch in STICKY on becoming 1. -/
def State.setTstat (s : State) (p : Nat) (f : Fld) (b : Bool) : State :=
  let s := if b && !s.tstat p f && decide (f.lo ≤ 4) then s.setBitAt (TRIB_STICKY p) f.lo true else s
  s.setFlag (TRIB_STAT p) f b

/-- A port's event, with its number and STAT (R196). -/
def State.tribEvent (s : State) (p e : Nat) (data : List Word := []) : State :=
  s.raise (islTR p) e (w32 p :: s.reg (TRIB_STAT p) :: data)

/-- A defect declared or cleared, with its event where it changes. -/
def State.tribDefect (s : State) (p : Nat) (f : Fld) (b : Bool) (eOn eOff : Nat) (data : List Word := []) : State :=
  if s.tstat p f = b then s else (s.setTstat p f b).tribEvent p (if b then eOn else eOff) data

/-- The port is enabled and its island runs. -/
def State.tribUp (s : State) (p : Nat) : Bool := s.running (islTR p) && s.flag (TRIB_CFG p) TRIB_CFG_EN

/-- FRAMING of a port. -/
def State.framing (s : State) (p : Nat) : Nat := s.fld (TRIB_CFG p) TRIB_CFG_FRAMING

/-- All ones are sent towards the Index (R176). -/
def State.tribIdx (s : State) (p : Nat) : State :=
  s.setTstat p TRIB_STAT_AIS_TO_IDX
    (s.tstat p TRIB_STAT_LOS || (s.tstat p TRIB_STAT_LOF && s.flag (TRIB_CFG p) TRIB_CFG_AIS_ON_LOF)
      || !s.flag (TRIB_CFG p) TRIB_CFG_EN || s.flag (TRIB_MAINT p) TRIB_MAINT_FORCE_AIS_RX)

/-- TSF reported to a pseudowire endpoint: dLOS, or EN at 0 (R176). -/
def State.tribTsf (s : State) (p : Nat) : Bool := s.tstat p TRIB_STAT_LOS || !s.flag (TRIB_CFG p) TRIB_CFG_EN

/-! ### Loss of signal and received AIS (R171, R172, R174, R175) -/

/-- The receive framer's state. -/
def State.rxFramer (s : State) (p : Nat) : Nat := s.fld (TRIB_FRM_STAT p) TRIB_FRM_STAT_RX_STATE

/-- dOOF follows the framer: declared whenever it is not In frame, held while dAIS stands, and not declared by a search that R179 starts
without it (R175, R177, R179). Declaring it ends a 400 ms interval. -/
def State.syncOof (s : State) (p : Nat) : State :=
  let lost := decide (s.rxFramer p ≠ trIn)
  if s.tstat p TRIB_STAT_AIS || (lost && (s.trib p).quiet) then s
  else
    let s := if lost && !s.tstat p TRIB_STAT_OOF then s.setTrib p { s.trib p with firstIn := 0 } else s
    s.tribDefect p TRIB_STAT_OOF lost 0x384 0x385

/-- The receive framer enters a state; CRC-4 alignment and the far-end alarm's run start anew (R177, R179, R181). -/
def State.setRxFramer (s : State) (p st : Nat) : State :=
  let s := s.setFld (TRIB_FRM_STAT p) TRIB_FRM_STAT_RX_STATE st
  let x := s.trib p
  let first := if st = trIn ∧ x.firstIn = 0 then s.now + 1 else x.firstIn
  let s := s.setTrib p { x with frames := 0, si := [], mfas := [], crcAcc := none, cBits := [], crcNo := 0, crcBad := [], raiOn := 0
                                raiOff := 0, yellow := true, winFrames := 0, fdl := [], fdlNo := 0, found := [], firstIn := first
                                quiet := x.quiet && decide (st ≠ trIn) }
  s.setFld (TRIB_FRM_STAT p) TRIB_FRM_STAT_CRC4 (if st = trIn ∧ s.framing p = 2 then 1 else 0)

/-- dLOS follows its two causes; declaring it sends the receive framer to Search and pulses trigger 13 (R172, R175, R362). The record
carries the cause, 0 no pulses or 1 CDR; that of the clearing carries the cause that the declaration had (R196). A run of AIS blocks
does not go on across it (R174). -/
def State.updateTribLos (s : State) (p : Nat) : State :=
  let x := s.trib p
  let los := x.losPulse || x.losCdr
  if s.tstat p TRIB_STAT_LOS = los then s
  else
    let cause := if los then bit (!x.losPulse) else x.losCause
    let s := s.setTrib p { x with losCause := cause, aisOn := 0, aisOff := 0, quiet := x.quiet && !los }
    let s := s.tribDefect p TRIB_STAT_LOS los 0x380 0x381 [w32 cause]
    let s := if los && decide (s.framing p ≠ 0) then (s.setRxFramer p trSearch).syncOof p else s
    let s := if los then s.facPortPulse p 13 else s
    s.tribIdx p

/-- TRIB_LOS (R172): N_LOS bit periods without a pulse, or the two clearing windows. -/
def execTribLos (p : Fin 64) (lost : Bool) (s : State) : Host.Outcome State Fault Refusal :=
  .next (if s.tribUp p then (s.setTrib p { s.trib p with losPulse := lost }).updateTribLos p else s)

/-- TRIB_CDR_LOCK_LOSS (R171): event 0x396. -/
def execTribCdrLockLoss (p : Fin 64) (s : State) : Host.Outcome State Fault Refusal :=
  .next (if s.tribUp p && s.tstat p TRIB_STAT_CDR_LOCK then (s.setTstat p TRIB_STAT_CDR_LOCK false).tribEvent p 0x396 else s)

/-- TRIB_CDR_UNLOCK_LOS (R171): unlocked for 1 ms, dLOS with cause CDR. -/
def execTribCdrUnlockLos (p : Fin 64) (s : State) : Host.Outcome State Fault Refusal :=
  .next (if s.tribUp p && !s.tstat p TRIB_STAT_CDR_LOCK then (s.setTrib p { s.trib p with losCdr := true }).updateTribLos p else s)

/-- TRIB_CDR_LOCK (R171, R362): lock after 64 symbols, which ends the CDR's cause of dLOS and pulses trigger 12. -/
def execTribCdrLock (p : Fin 64) (s : State) : Host.Outcome State Fault Refusal :=
  .next (if s.tribUp p && !s.tstat p TRIB_STAT_CDR_LOCK then
    let s := s.setTstat p TRIB_STAT_CDR_LOCK true
    let s := (s.setTrib p { s.trib p with losCdr := false }).updateTribLos p
    s.facPortPulse p 12
  else s)

/-- TRIB_AIS_BLOCK (R174, R175): a block of 512 bits with that many zeros; held while dLOS stands, whose blocks end a run. -/
def execTribAisBlock (p : Fin 64) (zeros : Nat) (s : State) : Host.Outcome State Fault Refusal :=
  .next (if !s.tribUp p then s
  else if s.tstat p TRIB_STAT_LOS then s.setTrib p { s.trib p with aisOn := 0, aisOff := 0 }
  else
    let x := s.trib p
    let ais := decide (zeros < 3)
    let on := if ais then min 2 (x.aisOn + 1) else 0
    let off := if ais then 0 else min 2 (x.aisOff + 1)
    let s := s.setTrib p { x with aisOn := on, aisOff := off }
    if on = 2 then s.tribDefect p TRIB_STAT_AIS true 0x382 0x383
    else if off = 2 ∧ s.tstat p TRIB_STAT_AIS then
      let s := s.tribDefect p TRIB_STAT_AIS false 0x382 0x383
      if s.framing p ≠ 0 then s.syncOof p else s
    else s)

/-! ### Framing monitors (R177 to R181) -/

/-- The CRC-4 multiframe is lost or given up with dOOF declared and a new search (R179). -/
def State.basicSearch (s : State) (p : Nat) (quiet : Bool) : State :=
  let s := s.setRxFramer p trSearch
  (s.setTrib p { s.trib p with quiet := quiet }).syncOof p

/-- The CRC-4 multiframe search: two MFAS words a multiple of 16 frames apart (R179). A word ends in frame 11 of its multiframe. -/
def State.crc4Search (s : State) (p : Nat) (fas : Bool) (fr : List Bool) : State :=
  let x := s.trib p
  let k := x.frames + 1
  let si := if fas then x.si else let l := x.si ++ [fr.headD false]; l.drop (l.length - 6)
  let word := !fas && decide (si = mfasBits)
  let found := word && x.mfas.any (fun j => decide (j < k ∧ (k - j) % 16 = 0))
  let s := s.setTrib p { x with frames := k, si := si, mfas := if word then x.mfas ++ [k] else x.mfas, mf := 12 }
  if found then (s.setFld (TRIB_FRM_STAT p) TRIB_FRM_STAT_CRC4 2).tribEvent p 0x389 else s

/-- A submultiframe has been checked: its error counts, and 915 of the last 1,000 lose the multiframe (R179). -/
def State.crc4Judge (s : State) (p : Nat) (err : Bool) : State :=
  let x := s.trib p
  let no := x.crcNo + 1
  let bad := (if err then no :: x.crcBad else x.crcBad).filter (fun j => decide (no < j + 1000))
  let s := s.count (TRIB_CRC_CNT p) (bit err)
  let s := s.setTrib p { x with crcNo := no, crcBad := bad }
  if 915 ≤ bad.length then (s.tribEvent p 0x388).basicSearch p false else s

/-- One frame in the CRC-4 multiframe: the CRC-4 of the submultiframe before, carried in bit 1 of its FAS frames, is checked at its end, and the E
bits of frames 13 and 15 are read (R179). -/
def State.crc4Frame (s : State) (p : Nat) (fas : Bool) (fr : List Bool) : State :=
  let x := s.trib p
  let first := decide (x.mf % 8 = 0)
  let acc := (if first then some 0 else x.crcAcc).map (fun r => crcMore 4 0x3 r (if fas then false :: fr.drop 1 else fr))
  let c := (if first then [] else x.cBits) ++ (if fas then [fr.headD false] else [])
  let s := s.count (TRIB_REI_CNT p) (bit (decide (x.mf = 13 ∨ x.mf = 15) && !fas && !fr.headD false))
  if x.mf % 8 ≠ 7 then s.setTrib p { x with mf := x.mf + 1, crcAcc := acc, cBits := c }
  else
    let s := s.setTrib p { x with mf := (x.mf + 1) % 16, crcAcc := none, cBits := [], rx := { x.rx with crc := acc } }
    match acc, x.rx.crc with
    | some _, some v => s.crc4Judge p (decide (c ≠ bitsOf 4 v))
    | _, _ => s

/-- The CRC-4 monitor of one frame in mode 2 (R179). -/
def State.crc4Step (s : State) (p : Nat) (fas : Bool) (fr : List Bool) : State :=
  let st := s.fld (TRIB_FRM_STAT p) TRIB_FRM_STAT_CRC4
  if st = 1 then s.crc4Search p fas fr else if st = 2 then s.crc4Frame p fas fr else s

/-- One frame of an ESF superframe: the CRC-6 of the superframe before is checked at its end (R178). -/
def State.esfFrame (s : State) (p pos : Nat) (fr : List Bool) : State :=
  let x := s.trib p
  let acc := (if pos = 0 then some 0 else x.crcAcc).map (fun r => crcMore 6 0x3 r (true :: fr.drop 1))
  let c := (if pos = 0 then [] else x.cBits) ++ (if pos % 4 = 1 then [fr.headD false] else [])
  if pos ≠ 23 then s.setTrib p { x with crcAcc := acc, cBits := c }
  else
    let s := s.setTrib p { x with crcAcc := none, cBits := [], rx := { x.rx with crc := acc } }
    match acc, x.rx.crc with
    | some _, some v => s.count (TRIB_CRC_CNT p) (bit (decide (c ≠ bitsOf 6 v)))
    | _, _ => s

/-- dRAI from a run of one condition; it holds while dLOS stands (R175, R181). -/
def State.raiRun (s : State) (p n : Nat) (on : Bool) : State :=
  let x := s.trib p
  let a := if on then min n (x.raiOn + 1) else 0
  let b := if on then 0 else min n (x.raiOff + 1)
  let s := s.setTrib p { x with raiOn := a, raiOff := b }
  if s.tstat p TRIB_STAT_LOS then s
  else if a = n then s.tribDefect p TRIB_STAT_RAI true 0x38B 0x38C
  else if b = n then s.tribDefect p TRIB_STAT_RAI false 0x38B 0x38C else s

/-- The far-end alarm of E1, and what an NFAS shows: its A bit and Sa4 to Sa8, Sa4 in bit 12 (R181; DEDUCED, log entry 127). -/
def State.alarmE1 (s : State) (p : Nat) (fr : List Bool) : State :=
  let s := s.setFld (TRIB_FRM_STAT p) TRIB_FRM_STAT_SA (bitsNat ((fr.drop 3).take 5))
  let s := s.setFlag (TRIB_FRM_STAT p) TRIB_FRM_STAT_A (fr.getD 2 false)
  s.raiRun p 3 (fr.getD 2 false)

/-- The far-end alarm of SF: bit 2 of every channel at 0 in every frame of a window of 320 frames (R181). -/
def State.alarmSf (s : State) (p : Nat) (fr : List Bool) : State :=
  let x := s.trib p
  let on := x.yellow && yellowSf fr
  if x.winFrames < 319 then s.setTrib p { x with yellow := on, winFrames := x.winFrames + 1 }
  else (s.setTrib p { x with yellow := true, winFrames := 0 }).raiRun p 1 on

/-- The far-end alarm of ESF, one FDL bit: a period ends with the word 0xFF00, or after 16 bits without it (R181; DESIGN CHOICE, log entry
127). -/
def State.alarmEsf (s : State) (p : Nat) (b : Bool) : State :=
  let x := s.trib p
  let all := x.fdl ++ [b]
  let l := all.drop (all.length - 16)
  let hit := decide (l = fdlAlarm)
  if !hit && decide (x.fdlNo < 15) then s.setTrib p { x with fdl := l, fdlNo := x.fdlNo + 1 }
  else ((s.setTrib p { x with fdl := l, fdlNo := 0 }).setFld (TRIB_FRM_STAT p) TRIB_FRM_STAT_FDL (bitsNat l)).raiRun p 16 hit

/-- What one frame received In frame tells beside its alignment (R178, R179, R181). -/
def State.monitorFrame (s : State) (p pos : Nat) (fr : List Bool) : State :=
  let m := s.framing p
  let fas := decide (pos % 2 = 0)
  if m ≤ 2 then
    let s := if fas then s else s.alarmE1 p fr
    if m = 2 then s.crc4Step p fas fr else s
  else if m = 3 then s.alarmSf p fr
  else
    let s := s.esfFrame p pos fr
    if fas then s.alarmEsf p (fr.headD false) else s

/-- A frame the receive framer has found, as it goes towards the Index: all ones under R176 (R206). -/
def State.foundFrame (s : State) (p : Nat) (fr : List Bool) : State :=
  let x := s.trib p
  let l := x.found ++ [if s.tstat p TRIB_STAT_AIS_TO_IDX then fr.map (fun _ => true) else fr]
  s.setTrib p { x with found := l.drop (l.length - 64) }

/-- One advance of the receive framer (R177 to R181), and whether it may advance further. -/
def State.rxStep (s : State) (p : Nat) : State × Bool :=
  let st := s.rxFramer p
  let x := s.trib p
  let r := x.rx.advance (s.framing p) st
  let s := s.setTrib p { x with rx := r.f }
  let s := match r.frame with
    | some (pos, fr) => s.count (TRIB_FAS_CNT p) ((alignErrors (s.framing p) pos fr).getD 0)
    | none => s
  let s := if r.st ≠ st then (s.setRxFramer p r.st).syncOof p
    else match r.frame with
    | some (pos, fr) => (s.foundFrame p fr).monitorFrame p pos fr
    | none => s
  (s, r.go)

/-- The receive framer advances as far as its bits go: each advance but the last two uses a bit or more. -/
def State.rxAdvance (s : State) (p : Nat) : Nat → State
  | 0 => s
  | n + 1 => let r := s.rxStep p; if r.2 then r.1.rxAdvance p n else r.1

/-- The transmit framer of a retimed port, in the same way (R177, R192). -/
def State.txAdvance (s : State) (p : Nat) : Nat → State
  | 0 => s
  | n + 1 =>
    let x := s.trib p
    let r := x.tx.advance (s.framing p) (s.fld (TRIB_FRM_STAT p) TRIB_FRM_STAT_TX_STATE)
    let s := (s.setTrib p { x with tx := r.f }).setFld (TRIB_FRM_STAT p) TRIB_FRM_STAT_TX_STATE r.st
    if r.go then s.txAdvance p n else s

/-- The sign of a symbol. -/
def pulseSign : Pulse → Int
  | .zero => 0
  | .plus => 1
  | .minus => -1

/-- The line code of a port. -/
def State.lineCode (s : State) (p : Nat) : LineCode :=
  if s.fld (TRIB_CFG p) TRIB_CFG_CODE = 1 then .ami else if s.tribMode p = 0 then .hdb3 else .b8zs

/-- Received symbols through the decoder (R173): the state after it and the bits. They go towards the Index, or all ones in their place (R176),
and under LLOOP to the transmit store too (R194). -/
def State.decodeLine (s : State) (p : Nat) (l : List Pulse) : State × List Bool :=
  let x := s.trib p
  let r := Decoder.run (s.lineCode p) (decide (s.tribMode p = 1)) x.dec (l.map pulseSign)
  let bits := r.2.1
  let s := s.setTrib p { x with
    dec := r.1, toIdx := if s.tstat p TRIB_STAT_AIS_TO_IDX then bits.map (fun _ => true) else bits
    looped := if s.flag (TRIB_MAINT p) TRIB_MAINT_LLOOP then x.looped ++ bits else [] }
  (s.count (TRIB_CV_CNT p) r.2.2, bits)

/-- TRIB_FRAME (R173, R177 to R181): the symbols of one received frame period, or, for a retimed port, the bits it has sent since the transmit
framer last looked. -/
def execTribFrame (p : Fin 64) (rx : Option (List Pulse)) (s : State) : Host.Outcome State Fault Refusal :=
  .next (if !s.tribUp p then s
  else match rx with
  | none =>
    if s.framing p ≠ 0 ∧ s.flag (TRIB_CFG p) TRIB_CFG_TX_RETIME then s.txAdvance p (2 * (s.trib p).tx.buf.length + 2) else s
  | some l =>
    let r := s.decodeLine p l
    let s := r.1
    if s.framing p = 0 then s
    else
      let x := s.trib p
      let s := s.setTrib p { x with rx := { x.rx with buf := x.rx.buf ++ r.2 } }
      s.rxAdvance p (2 * (x.rx.buf.length + r.2.length) + 2))

/-- CRC4_MULTIFRAME_SEARCH_END (R179): the multiframe is not found within 8 ms. -/
def execCrc4MultiframeSearchEnd (p : Fin 64) (s : State) : Host.Outcome State Fault Refusal :=
  .next (if s.tribUp p && decide (s.rxFramer p = trIn) && decide (s.fld (TRIB_FRM_STAT p) TRIB_FRM_STAT_CRC4 = 1) then
    if !s.flag (TRIB_CFG p) TRIB_CFG_CRC4_IW then s.basicSearch p false
    else if s.now + 1 ≤ (s.trib p).firstIn + 400000000 then s.basicSearch p true
    else (s.setFld (TRIB_FRM_STAT p) TRIB_FRM_STAT_CRC4 3).tribEvent p 0x38A
  else s)

/-- TRIB_LOF_TIMER (R175, R180): dOOF has persisted, or been clear, for LOF_MS; held while dLOS or dAIS stands. -/
def execTribLofTimer (p : Fin 64) (s : State) : Host.Outcome State Fault Refusal :=
  .next (if !s.tribUp p || s.tstat p TRIB_STAT_LOS || s.tstat p TRIB_STAT_AIS then s
  else (s.tribDefect p TRIB_STAT_LOF (s.tstat p TRIB_STAT_OOF) 0x386 0x387).tribIdx p)

/-! ### Sample clocks (R182, R242, R355) -/

/-- A sample clock's bit follows what TM marks it (R242), with its event, the ports of its island and mode, and the engines of its mode. -/
def State.sampleClock (s : State) (c : Nat) (ok : Bool) : State :=
  if !s.running (14 + c / 2) || decide (s.bitAt TRIB_CLK_STAT c = ok) || s.tm.clkOk != ok then s
  else
    let s := s.setBitAt TRIB_CLK_STAT c ok
    let s := s.raise (14 + c / 2) (if ok then 0x394 else 0x393) [w32 (c / 2), w32 (c % 2)]
    (s.updateTribs).facFree (c % 2)

/-- TRIB_SAMPLE_CLOCK_INVALID (R182): 0 TR0 E1, 1 TR0 T1, 2 TR1 E1, 3 TR1 T1. -/
def execTribSampleClockInvalid (c : Fin 4) (s : State) : Host.Outcome State Fault Refusal := .next (s.sampleClock c false)

/-- TRIB_SAMPLE_CLOCK_VALID (R182): the ports go on with their stores at their centres. -/
def execTribSampleClockValid (c : Fin 4) (s : State) : Host.Outcome State Fault Refusal := .next (s.sampleClock c true)

/-! ### Slips (R191, R192) -/

/-- The transmit side works on the store: enabled, no engine assigned (R195). -/
def State.tribStore (s : State) (p : Nat) : Bool := s.tribUp p && !s.tstat p TRIB_STAT_FAC

/-- The store is recentred after an overflow or underflow, and the slip counts (R191). -/
def State.slip (s : State) (p : Nat) (overflow : Bool) : State :=
  ((s.fillStore p (s.tribCentre p)).count (TRIB_SLIP_CNT p)).tribEvent p 0x391 [w32 (bit overflow)]

/-- UNCONTROLLED_SLIP (R191, R192): the store overflows or underflows; a retimed port makes one only while its transmit framer is not
In frame. -/
def execUncontrolledSlip (p : Fin 64) (overflow : Bool) (s : State) : Host.Outcome State Fault Refusal :=
  .next (if s.tribStore p && (!s.retimed p || decide (s.fld (TRIB_FRM_STAT p) TRIB_FRM_STAT_TX_STATE ≠ trIn)) then s.slip p overflow else s)

/-- CONTROLLED_SLIP (R192): at a transmit frame boundary the frame sent last is repeated below 32 bits, or the next one deleted above the size
less 32; the record states the direction: 0 repeated, 1 deleted. -/
def execControlledSlip (p : Fin 64) (delete : Bool) (s : State) : Host.Outcome State Fault Refusal :=
  .next (if s.tribStore p && s.retimed p && decide (s.fld (TRIB_FRM_STAT p) TRIB_FRM_STAT_TX_STATE = trIn) then
    let x := s.trib p
    let fill := x.store.length
    let f := s.tribFrameBits p
    if delete && decide (2 * f < fill + 32) then
      ((s.setStore p (x.store.drop f)).count (TRIB_SLIP_CNT p)).tribEvent p 0x390 [w32 1]
    else if !delete && decide (fill < 32) then
      let again := s.freeBits (f - x.gone.length) ++ x.gone.drop (x.gone.length - f)
      (((s.setStore p (again ++ x.store)).useFrees (f - x.gone.length)).count (TRIB_SLIP_CNT p)).tribEvent p 0x390 [w32 0]
    else s
  else s)

/-! ### Templates, enabling and maintenance (R188, R190, R193 to R195) -/

/-- An enabled port that selects template `t`. -/
def State.templateUser (s : State) (t : Nat) : Option Nat :=
  (List.range 64).find? fun p => s.flag (TRIB_CFG p) TRIB_CFG_EN && decide (s.fld (TRIB_CFG p) TRIB_CFG_TEMPLATE = t)

/-- A refused write to template `t` raises event 0x397 for the ROM templates and for one that an enabled port selects, whoever writes (R188). A
ROM template that no port selects has no port to name: what the record carries in its place the manual does not say (DESIGN CHOICE, log
entry 19). -/
def State.templateRefused (s : State) (t : Nat) : State :=
  match s.templateUser t with
  | some p => (s.respond rRefused).tribEvent p 0x397 [w32 t]
  | none =>
    if t < 8 then (s.respond rRefused).raise (s.regIsl 0x40310000) 0x397 [Config.codeOf 0x397 0, Config.codeOf 0x397 1, w32 t]
    else s.respond rRefused

/-- A write to word `i` of template `t`: services may write 8 to 15 where no enabled port selects them (R188). -/
def State.templateWrite (s : State) (w : Writer) (t i : Nat) (value : Word) : State :=
  if t < 8 ∨ s.templateUser t ≠ none ∨ w = .maintenance then s.templateRefused t
  else s.serviceWrite (0x40310000 + 512 * t + 4 * i) 0xFFFFFFFF value

/-- The port starts: CDR unlocked, dLOS declared, the store centred, the framer in Search (R177, R193). -/
def State.startTrib (s : State) (p : Nat) : State :=
  let s := s.tribEvent p 0x395
  let s := (s.setTrib p { TribPort.init with losPulse := true }).fillStore p (s.tribCentre p)
  let s := (s.setTstat p TRIB_STAT_CDR_LOCK false).setTstat p TRIB_STAT_LOS true
  let s := (s.setTstat p TRIB_STAT_OOF true).setTstat p TRIB_STAT_DISABLED false
  let s := if s.framing p = 0 then s
    else
      let s := s.setFld (TRIB_FRM_STAT p) TRIB_FRM_STAT_RX_STATE trSearch
      s.setFld (TRIB_FRM_STAT p) TRIB_FRM_STAT_TX_STATE (if s.flag (TRIB_CFG p) TRIB_CFG_TX_RETIME then trSearch else trOff)
  ((s.tribIdx p).updateTribTx p).updateDriven

/-- The port stops: event 0x395, then the pair high-impedance, all ones and TSF towards the Index, the store emptied, framers Off and every
defect bit 0 (R193). -/
def State.stopTrib (s : State) (p : Nat) : State :=
  let s := s.tribEvent p 0x395
  let s := s.setTrib p .init
  let s := s.setFld (TRIB_STAT p) ⟨0, 9⟩ 0
  let s := s.setFlag (TRIB_STAT p) TRIB_STAT_DISABLED true
  let s := s.setFld (TRIB_TX_STAT p) TRIB_TX_STAT_FILL 0
  let s := s.setFld (TRIB_FRM_STAT p) TRIB_FRM_STAT_RX_STATE trOff
  let s := s.setFld (TRIB_FRM_STAT p) TRIB_FRM_STAT_CRC4 0
  let s := s.setFld (TRIB_FRM_STAT p) TRIB_FRM_STAT_TX_STATE trOff
  s.tribIdx p

/-- EN written by a service: the port follows where the bit changes. -/
def State.tribEnWrite (s : State) (p : Nat) (en : Bool) : State :=
  let was := s.flag (TRIB_CFG p) TRIB_CFG_EN
  let s := s.serviceWrite (TRIB_CFG p) 1 (w32 (bit en))
  if was = en then s else if en then s.startTrib p else s.stopTrib p

/-- TRIB[p]_MAINT takes a value: AIS follows, and event 0x398 where it changes (R176, R190, R194). A port whose EN is 0 raises no event
(R193 prevails over the Settings' "each change"; DESIGN CHOICE, log entry 125). -/
def State.maintWrite (s : State) (p : Nat) (value : Word) : State :=
  let v := value &&& 7
  if s.reg (TRIB_MAINT p) = v then s
  else
    let s := s.setReg (TRIB_MAINT p) v
    if s.flag (TRIB_CFG p) TRIB_CFG_EN then ((s.tribEvent p 0x398).tribIdx p).updateTribTx p else s

/-- One bit of TRIB[p]_MAINT written. -/
def State.maintBit (s : State) (w : Writer) (p : Nat) (f : Fld) (on : Bool) : State :=
  s.commandWrite w false true (islTR p) (TRIB_MAINT p) (fun s => s.maintWrite p (f.put (s.reg (TRIB_MAINT p)) (bit on)))

/-! ### The transmitted symbol (R184, R185) -/

/-- What one sample clock adds to the symbol timer, of which 2^48 make a symbol: 2^42 at the nominal rate, and `offset` in units of 0.01 ppm
more or less. -/
def timerStep (offset : Int) : Nat := (2 ^ 42 * (100000000 + offset) / 100000000).toNat

/-- The samples from one symbol's start to the next: the next symbol starts at the first sample at or after the timer's completion of it. -/
def timerGap (phase : Nat) (offset : Int) : Nat := (2 ^ 48 - phase + timerStep offset - 1) / timerStep offset

/-- The output before rounding to the range, at sample `j`: R184 over the symbols in reach. -/
def State.synthAt (s : State) (p : Nat) (syms : List (Nat × Int)) (j : Nat) : Int :=
  let t := s.fld (TRIB_CFG p) TRIB_CFG_TEMPLATE
  s.gained p (syms.foldl (fun a x => a + x.2 * s.tplSample t ((j : Int) - x.1 + 64)) 0)

/-- The samples that the newest symbol completes: a template begins one UI before its symbol, so they are those from the start of the symbol two
before to that of the symbol before. -/
def wholeSamples : List (Nat × Int) → List Nat
  | _ :: y :: z :: _ => (List.range (y.1 - z.1)).map (z.1 + ·)
  | _ => []

/-- A symbol starts after `gap` samples: the samples it completes, the clamped ones counted (R184). -/
def State.startSymbol (s : State) (p gap : Nat) (a : Int) : State :=
  let x := s.trib p
  let at_ := match x.symbols with
    | y :: _ => y.1 + gap
    | [] => 0
  let syms := ((at_, a) :: x.symbols).take 8
  let raw := (wholeSamples syms).map (s.synthAt p syms)
  let clamped := (raw.filter (fun v => clampCode v ≠ v)).length
  let s := s.setTrib p { x with symbols := syms, out := raw.map clampCode }
  if clamped = 0 then s
  else (s.count (TRIB_SAT_CNT p) clamped).raiseFirst (islTR p) 0x392 p [w32 p, s.reg (TRIB_STAT p)]

/-- The symbol timer's offset, in units of 0.01 ppm: nominal under AIS and in retimed timing, otherwise steered by the loop that keeps the store
at its centre (R185, R190). -/
def State.steerTimer (s : State) (p : Nat) (nominal : Bool) : State :=
  let x := s.trib p
  let r := if nominal then (0, 0) else Config.desync (s.fld (TRIB_CFG p) TRIB_CFG_DESYNC_BW) ((x.store.length : Int) - s.tribCentre p) x.integ
  (s.setTrib p { x with integ := r.2 }).setFld (TRIB_TX_STAT p) TRIB_TX_STAT_OFFSET ((max (-32768) (min 32767 r.1)) % 65536).toNat

/-- The timer completes a symbol: the samples since the last symbol's start. -/
def State.completeSymbol (s : State) (p : Nat) : State × Nat :=
  let x := s.trib p
  let offset := signed 16 (s.fld (TRIB_TX_STAT p) TRIB_TX_STAT_OFFSET)
  let gap := timerGap x.phase offset
  (s.setTrib p { x with phase := x.phase + gap * timerStep offset - 2 ^ 48 }, gap)

/-- The bit sent next and the symbol that carries it: the store's oldest, a free one where it is empty; what has arrived since the last symbol
comes into the store first, and what finds it full is lost (R191, R194; DESIGN CHOICE, log entry 126). -/
def State.takeSymbol (s : State) (p : Nat) (arrived : List Bool) : State × Int :=
  let x := s.trib p
  let new := if s.flag (TRIB_MAINT p) TRIB_MAINT_LLOOP then x.looped else arrived
  let l := (x.store ++ new).take (s.tribDepth p)
  let front := if l = [] then s.freeBits 1 else l
  let r := x.coder.next (s.lineCode p) front
  let gone := x.gone ++ front.take 1
  let s := (s.setTrib p { x with
    coder := r.1, looped := [], gone := gone.drop (gone.length - s.tribFrameBits p)
    tx := if s.framing p ≠ 0 ∧ s.flag (TRIB_CFG p) TRIB_CFG_TX_RETIME then { x.tx with buf := x.tx.buf ++ front.take 1 } else x.tx }).setStore p (l.drop 1)
  (s.when (decide (l = [])) State.useFree, r.2)

/-- TRIB_TRANSMIT_SYMBOL (R182, R184, R185, R190, R194): the symbol timer completes a symbol, which is taken from the store with the bits that
have arrived from the Index, or is a mark without substitution under AIS. -/
def execTribTransmitSymbol (p : Fin 64) (arrived : List Bool) (s : State) : Host.Outcome State Fault Refusal :=
  .next (if !s.tribStore p then s
  else
    let s := s.updateTribTx p
    let ais := s.tstat p TRIB_STAT_AIS_TX
    let r := if ais then
        let x := s.trib p
        (s.setTrib p { x with coder := x.coder.mark.1, looped := [] }, x.coder.mark.2)
      else s.takeSymbol p arrived
    let t := (r.1.steerTimer p (ais || s.retimed p)).completeSymbol p
    t.1.startSymbol p t.2 r.2)

end Sys2Proof.Machine
end

