-- ==== Sys2Proof/Machine/Timing.lean ====
section
/-! DEFINITION. Timing: references and their qualification, selection, the DPLLs, holdover and its model, ESMC, PTP and the report to SP
(R34, R227 to R256, R389). -/

namespace Sys2Proof.Machine

/-! ### Names -/

def Ref.init : Ref := ⟨false, 0, false, 0⟩

/-- Reference states (TIM_REF_STAT.STATE). -/
def rfOff : Nat := 0
def rfFailed : Nat := 1
def rfWait : Nat := 2
def rfQualified : Nat := 3

/-- DPLL states (TIM_DPLL_STAT.STATE). -/
def dpFree : Nat := 0
def dpAcquiring : Nat := 1
def dpLocked : Nat := 2
def dpHoldover : Nat := 3

def State.ref (s : State) (i : Nat) : Ref := tget s.tm.refs .init i
def State.setRef (s : State) (i : Nat) (r : Ref) : State := { s with tm := { s.tm with refs := tset s.tm.refs .init i r } }
def State.setDpll (s : State) (d : Nat) (x : Dpll) : State := { s with tm := { s.tm with dplls := tset s.tm.dplls .init d x } }
def State.refState (s : State) (i : Nat) : Nat := s.fld (TIM_REF_STAT i) TIM_REF_STAT_STATE
def State.dpState (s : State) (d : Nat) : Nat := s.fld (TIM_DPLL_STAT d) TIM_DPLL_STAT_STATE
def State.refQl (s : State) (i : Nat) : Nat := s.fld (TIM_REF_QL i) TIM_REF_QL_QL

/-- SEL and SEL_VALID of DPLL 0 and 1 in TIM_STAT. -/
def selFld (d : Nat) : Fld := if d = 0 then TIM_STAT_SEL0 else TIM_STAT_SEL1
def selValidFld (d : Nat) : Fld := if d = 0 then TIM_STAT_SEL0_VALID else TIM_STAT_SEL1_VALID
def State.sel (s : State) (d : Nat) : Nat := s.fld TIM_STAT (selFld d)
def State.selValid (s : State) (d : Nat) : Bool := s.flag TIM_STAT (selValidFld d)

/-- The activity failure condition of reference `i` (R132, R229): of a line port, a packet port and the tributary port that SRC names from
what they show; of references 10 to 14 as their own detectors last said. -/
def State.refAct (s : State) (i : Nat) : Bool :=
  if i < 8 then !s.flag (LINE_S1 i) LINE_S1_RX_VALID || !s.flag (LINE_CFG i) LINE_CFG_EN
  else if i < 10 then
    !s.flag (PW_PORT_STAT (i - 8)) PW_PORT_STAT_LINK
      || (s.flag (TIM_REF_CFG i) TIM_REF_CFG_ESMC_REQ && s.flag (TIM_ESMC_RX (i - 8)) TIM_ESMC_RX_TIMEOUT)
  else if i = 15 then
    let p := s.fld (TIM_REF_SRC 15) TIM_REF_SRC_PORT
    s.tstat p TRIB_STAT_LOS || s.tstat p TRIB_STAT_AIS
  else (s.ref i).act

/-- The reference fails on activity or frequency now (R229). -/
def State.refFails (s : State) (i : Nat) : Bool := s.refAct i || decide ((s.ref i).freqBad = 2)

/-- The failure cause shown in the status and in the record: 1 activity, 2 frequency. -/
def State.refCause (s : State) (i : Nat) : Nat := bit (s.refAct i) + 2 * bit (decide ((s.ref i).freqBad = 2))

/-- The measured offset of reference `i` from the OCXO in ppb (R229). -/
def State.refOffset (s : State) (i : Nat) : Int := signed 18 (s.fld (TIM_REF_STAT i) TIM_REF_STAT_OFFSET)

/-- A reference's event, with its number and status (R256). -/
def State.refEvent (s : State) (i e : Nat) : State := s.raise islTM e [w32 i, s.reg (TIM_REF_STAT i)]

/-! ### Quality, HO_VALID and sample clock validity (R241, R242, R250) -/

/-- CLOCK_QL (R241). -/
def State.clockQl (s : State) : Nat :=
  if s.dpState 0 = dpLocked then s.refQl (s.sel 0) else s.fld TIM_CFG TIM_CFG_OWN_QL

/-- HO_VALID by the rule of R250. -/
def State.hoValid (s : State) : Bool :=
  s.tm.modelOk && s.flag TIM_HO_STAT TIM_HO_STAT_ANCHORED && !s.flag TIM_STAT TIM_STAT_OCXO_FAULT
    && !(decide (s.dpState 0 = dpHoldover) && s.tm.limit)

/-- What follows from the states: REF_OK, CLOCK_QL, the quality stop (event 0x415), HO_VALID (0x40C) and sample clock validity (0x418). -/
def State.timSettle (s : State) : State :=
  let s := s.setFlag TIM_STAT TIM_STAT_REF_OK (decide (s.dpState 0 = dpLocked))
  let s := s.setFld TIM_STAT TIM_STAT_CLOCK_QL s.clockQl
  let stop := decide (s.fld TIM_OUT_CFG TIM_OUT_CFG_QL_MIN < s.clockQl)
  let s := if stop = s.tm.qualityStop then s
    else ({ s with tm := { s.tm with qualityStop := stop } }).raise islTM 0x415 [w32 0, s.reg TIM_STAT]
  let ho := s.hoValid
  let s := if s.flag TIM_STAT TIM_STAT_HO_VALID = ho then s
    else
      let s := s.setFlag TIM_STAT TIM_STAT_HO_VALID ho
      s.raise islTM 0x40C [w32 0, s.reg TIM_STAT]
  let ok := s.flag TIM_STAT TIM_STAT_REF_OK || s.flag TIM_STAT TIM_STAT_HO_VALID || s.flag TIM_CFG TIM_CFG_FREERUN_TRAFFIC
  if ok = s.tm.clkOk then s
  else ({ s with tm := { s.tm with clkOk := ok } }).raise islTM 0x418 [w32 0, s.reg TIM_STAT]

/-- Output `o` of TIM_OUT_CFG runs: enabled, and its quality test passes (R240, R241). -/
def State.outputRuns (s : State) (o : Nat) : Bool := s.bitAt TIM_OUT_CFG o && !s.tm.qualityStop

/-- The DPLL that output `o` is taken from (R240): 0 10 MHz and 1 1PPS from DPLL1, 2 2.048 MHz from DPLL0. -/
def outputDpll (o : Nat) : Nat := if o = 2 then 0 else 1

/-- OUT_PPS is high (R240): it rises at each PTP second plus PPS_OFFSET and stays high for PPS_WIDTH. -/
def State.ppsHigh (s : State) : Bool :=
  s.outputRuns 1
    && decide (((s.ptpTime : Int) - (s.reg TIM_PPS_OFFSET).toInt) % 1000000000 < 10000 * (s.fld TIM_OUT_CFG TIM_OUT_CFG_PPS_WIDTH : Nat))

/-- The loop bandwidth of DPLL `d` in 0.01 Hz (R237): BW's, and ten times that while DPLL0 is in Acquiring. -/
def State.loopBw (s : State) (d : Nat) : Nat :=
  let code := if d = 0 then s.fld TIM_DPLL_CFG0 TIM_DPLL_CFG0_BW else s.fld TIM_DPLL_CFG1 TIM_DPLL_CFG1_BW
  let bw := [1, 3, 10, 30, 100, 300, 1000].getD code 0
  if d = 0 ∧ s.dpState 0 = dpAcquiring then 10 * bw else bw

/-- DPLL0's pull-in and hold-in range in ppb (R237). -/
def dpll0Range : Nat := 12000

/-! ### The holdover model (R249, R250, R252, R255) -/

/-- The base of a model copy. -/
def modelBase (c : Nat) : Nat := retentionBase + 0x10000 + 0x4000 * c

/-- The copy passes R250 apart from STATE: MAGIC, FORMAT, CRC and OCXO_ID. -/
def State.copyOk (s : State) (c : Nat) : Bool :=
  let b := modelBase c
  let id := s.word (b + 0x10)
  decide (s.word b = 0x444C4F48) && decide (leNat (s.bytes (b + 4) 2) = 1)
    && decide (id.toNat % 4 = s.fld TIM_CFG TIM_CFG_OCXO_NOM) && decide (id.toNat / 65536 = s.fld TIM_HO_CFG2 TIM_HO_CFG2_OCXO_TAG)
    && decide (s.word (b + 0x3FFC) = crc32c (s.bytes b 0x3FFC))

/-- STATE of a copy. -/
def State.copyState (s : State) (c : Nat) : Nat := leNat (s.bytes (modelBase c + 6) 2)

/-- The active copy. -/
def State.activeCopy (s : State) : Nat := s.fld TIM_HO_STAT TIM_HO_STAT_ACTIVE

/-- MODEL and the model's validity as the active copy reads. -/
def State.loadModel (s : State) : State :=
  let ok := s.copyOk s.activeCopy
  let st := if ok then min 2 (s.copyState s.activeCopy) else 0
  ({ s with tm := { s.tm with modelOk := ok && decide (st = 2) } }).setFld TIM_HO_STAT TIM_HO_STAT_MODEL st

/-- The same, with event 0x40D where MODEL changes. -/
def State.readModel (s : State) : State :=
  let t := s.loadModel
  if s.fld TIM_HO_STAT TIM_HO_STAT_MODEL = t.fld TIM_HO_STAT TIM_HO_STAT_MODEL then t else t.raise islTM 0x40D [w32 0, t.reg TIM_HO_STAT]

/-- A signed field of a model copy. -/
def State.modelInt (s : State) (o n : Nat) : Int := signed (8 * n) (leNat (s.bytes (modelBase s.activeCopy + o) n))

/-- The centres, in 0.01 °C, and DELTAs of the bins whose COUNT is at least 16, coldest first. -/
def State.bins (s : State) : List (Int × Int) :=
  (List.range 256).filterMap fun b =>
    if 16 ≤ leNat (s.bytes (modelBase s.activeCopy + 0x40 + 8 * b + 4) 2) then
      some ((-3975 + 50 * (b : Int)), s.modelInt (0x40 + 8 * b) 4)
    else none

/-- The line through two points at `t`, in a tenth of the unit of the points. -/
def lineAt (p q : Int × Int) (t : Int) : Int := 10 * p.2 + (10 * (q.2 - p.2) * (t - p.1)) / (q.1 - p.1)

/-- D(T) in 10⁻¹⁵ and whether `t` lies outside the populated range (R249). -/
def tempTerm (bins : List (Int × Int)) (t : Int) : Int × Bool :=
  match bins with
  | [] => (0, true)
  | [p] => (10 * p.2, decide (t ≠ p.1))
  | p :: q :: _ =>
    let lower := (bins.filter (fun b => decide (b.1 ≤ t))).getLast?
    let upper := bins.find? (fun b => decide (t < b.1))
    match lower, upper with
    | some a, some b => (lineAt a b t, false)
    | none, _ => (lineAt p q t, true)
    | some a, none =>
      let before := ((bins.filter (fun b => decide (b.1 < a.1))).getLast?).getD p
      (lineAt before a t, decide (t ≠ a.1))

/-- f(t) in 10⁻¹², rounded to the nearest (R249). -/
def State.predicted (s : State) : Int × Bool :=
  if !s.tm.modelOk then (s.tm.fEntry, false)
  else
    let bins := s.bins
    let d := tempTerm bins s.tm.temp
    let e := tempTerm bins s.tm.tEntry
    let secs : Int := ((s.now - s.tm.entryAt) / 1000000000 : Nat)
    let f := 1000 * s.tm.fEntry + (d.1 - e.1) + s.modelInt 0x28 4 * secs / 86400
      + s.modelInt 0x2C 4 * (s.tm.slope - s.tm.slopeEntry) / 100
    ((f + 500) / 1000, d.2)

/-- The mean OCXO offset over the time spent Locked within the last HO_AVG_S (R249); within its first tick, the offset now. -/
def State.meanOffset (s : State) : Int :=
  let n := (s.tm.avg.map (fun x => x.2.2)).sum
  if n = 0 then -(s.reg (TIM_DPLL_FREQ 0)).toInt else ((s.tm.avg.map (fun x => x.2.1)).sum) / (n : Int)

/-- One more OCXO offset in the mean of the last HO_AVG_S seconds. -/
def State.addOffset (s : State) (f : Int) : State :=
  let sec := s.now / 1000000000
  let l := s.tm.avg.filter (fun x => decide (sec < x.1 + s.fld TIM_HO_CFG2 TIM_HO_CFG2_HO_AVG_S))
  let l := match l.getLast? with
    | some (t, a, n) => if t = sec then l.dropLast ++ [(t, a + f, n + 1)] else l ++ [(sec, f, 1)]
    | none => [(sec, f, 1)]
  { s with tm := { s.tm with avg := l } }

/-! ### DPLL states (R236) -/

/-- Event 0x404, 0x405 or 0x406. -/
def State.dpEvent (s : State) (d : Nat) : State := s.raise islTM (0x404 + min d 2) [w32 d, s.reg (TIM_DPLL_STAT d)]

/-- The record of DPLL0 entering or leaving Holdover carries its status register, f_entry and T_entry, with the number, 0, above T_entry's
16 bits (R256, log entry 128). -/
def State.hoEvent (s : State) (e : Nat) : State :=
  s.raise islTM e [s.reg (TIM_DPLL_STAT 0), BitVec.ofInt 32 s.tm.fEntry, w32 (unsigned 16 s.tm.tEntry)]

/-- f_entry, T_entry and the slope there, as they are now (R249). -/
def State.entryNow (s : State) : Int × Int × Int := (s.meanOffset, s.tm.temp, s.tm.slope)

/-- DPLL `d` uses its reference, or stops using it at once (R235). Where DPLL0 stops, the moment is kept for Holdover. -/
def State.useRef (s : State) (d : Nat) (b : Bool) : State :=
  let was := s.selValid d
  let s := s.setFlag TIM_STAT (selValidFld d) b
  if d ≠ 0 then s
  else if b then { s with tm := { s.tm with seen := none } }
  else if was then { s with tm := { s.tm with seen := some s.entryNow } }
  else s

/-- A DPLL has been Locked for 1 s without a break in this start. -/
def State.dpRan (s : State) (d : Nat) : Bool :=
  (s.dpll d).ran || (decide (s.dpState d = dpLocked) && decide ((s.dpll d).since + 1000000000 ≤ s.now))

/-- DPLL0 enters Holdover: f_entry and T_entry, as the failure was first seen, and the moment (R249). -/
def State.holdoverEntry (s : State) : State :=
  let e := s.tm.seen.getD s.entryNow
  let s := { s with tm := { s.tm with
    fEntry := e.1, tEntry := e.2.1, slopeEntry := e.2.2, entryAt := s.now, seen := none, limit := false } }
  ((s.setFlag TIM_HO_STAT TIM_HO_STAT_IN_HO true).setReg TIM_HO_TIME 0).hoEvent 0x40A

/-- A DPLL enters a state. -/
def State.setDpState (s : State) (d st : Nat) : State :=
  let old := s.dpState d
  if old = st then s
  else
    let x := s.dpll d
    let s := s.setDpll d { x with since := if st = dpLocked then s.now else x.since, ran := s.dpRan d }
    let s := (s.setFld (TIM_DPLL_STAT d) TIM_DPLL_STAT_STATE st).dpEvent d
    if d ≠ 0 then s
    else
      let s := { s with tm := { s.tm with learnClean := false, avg := if st = dpLocked then [] else s.tm.avg } }
      let s := if old = dpHoldover then
          (({ s with tm := { s.tm with limit := false } }).setFlag TIM_HO_STAT TIM_HO_STAT_IN_HO false).hoEvent 0x40B
        else s
      if st = dpHoldover then s.holdoverEntry else s

/-- A DPLL loses its reference with no other candidate: Holdover after 1 s of Locked in this start, else Free-run. -/
def State.dpLost (s : State) (d : Nat) : State :=
  let s := s.useRef d false
  if s.dpState d = dpAcquiring ∨ s.dpState d = dpLocked then s.setDpState d (if s.dpRan d then dpHoldover else dpFree) else s

/-! ### Selection (R231, R233, R234) -/

/-- DPLL_MASK permits reference `i` for DPLL `d`, and for DPLL1 it is 10, 11 or 14 (R227). -/
def State.refPermitted (s : State) (d i : Nat) : Bool :=
  s.bitAt (TIM_REF_CFG i) (5 + d) && (decide (d = 0) || [10, 11, 14].contains i)

/-- Reference `i` may be selected for DPLL `d`. -/
def State.candidate (s : State) (d i : Nat) : Bool :=
  decide (s.refState i = rfQualified) && decide (s.fld (TIM_REF_CFG i) TIM_REF_CFG_PRIO ≠ 0) && s.refPermitted d i
    && !(s.flag TIM_CFG TIM_CFG_QL_EN && decide (s.refQl i = 15))

/-- Rank, PRIO and number in one ordering. -/
def State.refOrder (s : State) (i : Nat) : Nat :=
  (if s.flag TIM_CFG TIM_CFG_QL_EN then 256 * s.refQl i else 0) + 16 * s.fld (TIM_REF_CFG i) TIM_REF_CFG_PRIO + i

/-- The first of a list of references in that ordering. -/
def State.firstRef (s : State) (l : List Nat) : Option Nat :=
  l.foldl (fun b i => match b with
    | none => some i
    | some j => if s.refOrder i < s.refOrder j then some i else some j) none

/-- The candidates of a DPLL. -/
def State.candidates (s : State) (d : Nat) : List Nat := (List.range 16).filter (s.candidate d)

/-- The reference a DPLL is on. -/
def State.current (s : State) (d : Nat) : Option Nat :=
  if s.dpState d = dpAcquiring ∨ s.dpState d = dpLocked then some (s.sel d) else none

/-- The automatic choice (R233). -/
def State.autoChoice (s : State) (d : Nat) : Option Nat :=
  match s.firstRef (s.candidates d), s.current d with
  | some b, some c =>
    if s.flag TIM_CFG TIM_CFG_REVERT || !s.candidate d c then some b
    else if s.flag TIM_CFG TIM_CFG_QL_EN && decide (s.refQl b < s.refQl c) then some b
    else some c
  | b, _ => b

/-- The choice with the command in force. -/
def State.choice (s : State) (d : Nat) : Option Nat :=
  match (s.dpll d).cmd with
  | 1 => some (s.dpll d).cmdRef
  | 2 => some (s.dpll d).cmdRef
  | 3 => none
  | 4 => none
  | _ => s.autoChoice d

/-- The output phase of DPLL0 through a switch: it moves by a free amount of at most 10 ns (R238). -/
def State.moveOut (s : State) : State :=
  let x := s.dpll 0
  (s.setDpll 0 { x with out := x.out + ((s.freeWord.toNat % 20000000001 : Nat) : Int) - 10000000000 }).useFree

/-- A switch of DPLL0 to reference `i` is hitless: phase build-out absorbs the phase that DPLL2 holds of it, or, where DPLL2 is not on it,
the phase that the next tick measures. A switch of DPLL1 starts from no phase error, and its output slews to what the next sample says
(R238). -/
def State.switchPhase (s : State) (d i : Nat) : State :=
  if d = 0 then
    let s := s.moveOut
    let x := s.dpll 0
    let held := decide (s.dpState 2 ≠ dpFree) && decide (s.fld (TIM_DPLL_STAT 2) TIM_DPLL_STAT_REF = i)
    s.setDpll 0 { x with off := if held then some ((s.dpll 2).out - x.out) else none, err := 0 }
  else
    let s := s.setDpll d { s.dpll d with err := 0 }
    { s with tm := { s.tm with phase := none } }

/-- A DPLL takes a reference: its event and the switch counter where it is another, and Acquiring where it had none. -/
def State.takeRef (s : State) (d i : Nat) : State :=
  let another := decide (s.sel d ≠ i) || !(s.dpll d).ever
  let s := s.setDpll d { s.dpll d with ever := true }
  let s := if another then s.switchPhase d i else s
  let s := (s.setFld TIM_STAT (selFld d) i).useRef d (!s.refFails i)
  let s := s.setFld (TIM_DPLL_STAT d) TIM_DPLL_STAT_REF i
  let s := if another then
      let s := (s.count TIM_SWITCH_CNT).raise islTM (0x407 + d) [w32 d, s.reg TIM_STAT]
      if d = 0 then { s with tm := { s.tm with learnClean := false } } else s
    else s
  if s.dpState d = dpFree ∨ s.dpState d = dpHoldover then s.setDpState d dpAcquiring else s

/-- The standby DPLL of `d` takes the second choice (R227, R233). -/
def State.takeSecond (s : State) (d : Nat) (first : Option Nat) : State :=
  match s.firstRef ((s.candidates d).filter (fun i => some i ≠ first)) with
  | some i =>
    let moved := decide (s.fld (TIM_DPLL_STAT (d + 2)) TIM_DPLL_STAT_REF ≠ i)
    let s := s.setFld (TIM_DPLL_STAT (d + 2)) TIM_DPLL_STAT_REF i
    if moved || decide (s.dpState (d + 2) = dpFree) then s.setDpState (d + 2) dpAcquiring else s
  | none => s.setDpState (d + 2) dpFree

/-- Selection for one DPLL. -/
def State.selectFor (s : State) (d : Nat) : State :=
  if s.flag TIM_STAT TIM_STAT_OCXO_FAULT then s
  else
    let c := s.choice d
    let s := match c with
      | some i => s.takeRef d i
      | none => if 3 ≤ (s.dpll d).cmd then s.useRef d false else s.dpLost d
    s.takeSecond d c

/-- Selection for both, and what follows. -/
def State.select (s : State) : State := ((s.selectFor 0).selectFor 1).timSettle

/-- REF_SELECTION (R233): the 10 ms tick. -/
def execRefSelection (s : State) : Host.Outcome State Fault Refusal := .next (if s.running islTM then s.select else s)

/-- A command can be carried out (R234). -/
def State.selAllowed (s : State) (cmd d i : Nat) : Bool :=
  let mask := s.refPermitted d i
  match cmd with
  | 0 => true
  | 1 => mask && (decide (s.refState i = rfWait) || decide (s.refState i = rfQualified))
  | 2 => mask && decide (s.refState i = rfQualified) && (!s.flag TIM_CFG TIM_CFG_QL_EN
      || (decide (s.refQl i ≠ 15) && (match s.autoChoice d with
        | some b => decide (s.refQl i ≤ s.refQl b)
        | none => true)))
  | 3 => s.dpRan d
  | 4 => true
  | _ => false

/-- A write to TIM_SEL_CMD (R234, R351): a repeated token has no effect; a refused command changes only RESULT and leaves the DPLL's
selection automatic (log entry 76); event 0x409. -/
def State.selCommand (s : State) (d cmd i token : Nat) : State :=
  if s.tokenIs TIM_SEL_CMD TIM_SEL_CMD_TOKEN token then s
  else if !s.selAllowed cmd d i then
    let s := (s.setFld TIM_SEL_CMD TIM_SEL_CMD_RESULT 0x04).setDpll d { s.dpll d with cmd := 0 }
    s.raise islTM 0x409 [w32 d, s.reg TIM_SEL_CMD]
  else
    let v := token + 256 * cmd + 2048 * d + 4096 * i
    let s := s.setReg TIM_SEL_CMD (w32 (v + 65536 * (if cmd = 0 then 0x00 else 0x01)))
    let s := s.raise islTM 0x409 [w32 d, s.reg TIM_SEL_CMD]
    let s := s.setDpll d { s.dpll d with cmd := cmd, cmdRef := i }
    let s := match cmd with
      | 3 => (s.useRef d false).setDpState d dpHoldover
      | 4 => (s.useRef d false).setDpState d dpFree
      | _ => s
    s.timSettle

/-- The same, an accepted command being mirrored in class C (R272). -/
def State.selMirrored (s : State) (d cmd i token : Nat) : State :=
  let s' := s.selCommand d cmd i token
  if s'.fld TIM_SEL_CMD TIM_SEL_CMD_TOKEN = s.fld TIM_SEL_CMD TIM_SEL_CMD_TOKEN then s'
  else s'.mirror TIM_SEL_CMD 0xFFFF (w32 (token + 256 * cmd + 2048 * d + 4096 * i))

/-- A command by a writer. -/
def State.selWrite (s : State) (w : Writer) (d cmd i token : Nat) : State :=
  s.commandWrite w true true islTM TIM_SEL_CMD (fun s => s.selMirrored d cmd i token)

/-- A forced or manual selection of reference `i` lapses (R234). -/
def State.lapse (s : State) (i : Nat) : State :=
  s.each [0, 1] fun s d =>
    let x := s.dpll d
    if (x.cmd = 1 ∨ x.cmd = 2) ∧ x.cmdRef = i then
      let s := s.setDpll d { x with cmd := 0 }
      if s.fld TIM_SEL_CMD TIM_SEL_CMD_DPLL = d ∧ s.fld TIM_SEL_CMD TIM_SEL_CMD_CMD = x.cmd ∧ s.fld TIM_SEL_CMD TIM_SEL_CMD_REF = i then
        s.setFld TIM_SEL_CMD TIM_SEL_CMD_RESULT 0x02
      else s
    else s

/-! ### Qualification (R229, R230, R235) -/

/-- A reference enters Wait: WTR_S, or QUAL_S on the first qualification; event 0x402. -/
def State.refWaits (s : State) (i : Nat) : State :=
  let t := if (s.ref i).before then s.fld (TIM_REF_CFG i) TIM_REF_CFG_WTR_S else s.fld TIM_REF_TIMES TIM_REF_TIMES_QUAL_S
  let s := s.setRef i { s.ref i with waitEnd := s.now + 1000000000 * t }
  let s := (s.setFld (TIM_REF_STAT i) TIM_REF_STAT_STATE rfWait).setFld (TIM_REF_STAT i) TIM_REF_STAT_WAIT t
  (s.setFld (TIM_REF_STAT i) TIM_REF_STAT_CAUSE 0).refEvent i 0x402

/-- A failure condition of a reference appears or ends. A DPLL on it stops using it at once, and resumes where it ends in time. -/
def State.refJudge (s : State) (i : Nat) : State :=
  let fails := s.refFails i
  let st := s.refState i
  let use (b : Bool) (s : State) : State :=
    s.each [0, 1] fun s d => if s.current d = some i ∧ s.sel d = i then s.useRef d b else s
  if st = rfQualified then use (!fails) s
  else if st = rfWait ∧ fails then
    let s := (s.setFld (TIM_REF_STAT i) TIM_REF_STAT_STATE rfFailed).setFld (TIM_REF_STAT i) TIM_REF_STAT_WAIT 0
    ((s.setFld (TIM_REF_STAT i) TIM_REF_STAT_CAUSE (s.refCause i)).lapse i).select
  else if st = rfFailed ∧ !fails then s.refWaits i
  else s

/-- The reference is enabled and TM runs. -/
def State.refUp (s : State) (i : Nat) : Bool := s.running islTM && s.flag (TIM_REF_CFG i) TIM_REF_CFG_EN

/-- DPLL0 leaves Locked where its reference lies beyond its hold-in range (R237, log entry 129). -/
def State.holdIn (s : State) (i : Nat) : State :=
  if s.dpState 0 = dpLocked ∧ s.sel 0 = i ∧ dpll0Range < (s.refOffset i).natAbs then (s.setDpState 0 dpAcquiring).timSettle else s

/-- REF_FREQ_MEASURE (R229, R237): the offset in ppb; two consecutive measurements beyond FREQ_LIM are a failure on frequency. -/
def execRefFreqMeasure (i : Fin 16) (ppb : Int) (s : State) : Host.Outcome State Fault Refusal :=
  .next (if !s.refUp i then s
  else
    let lim : Int := 100 * (s.fld (TIM_REF_CFG i) TIM_REF_CFG_FREQ_LIM : Nat)
    let bad := decide (lim < ppb.natAbs)
    let r := s.ref i
    let s := s.setRef i { r with freqBad := if bad then min 2 (r.freqBad + 1) else 0 }
    ((s.setFld (TIM_REF_STAT i) TIM_REF_STAT_OFFSET (unsigned 18 (max (-131072) (min 131071 ppb)))).refJudge i).holdIn i)

/-- REF_ACTIVITY_FAILURE (R229, R230, R235): the condition appears or ends. For references 10 to 14 `failed` is what their detector says;
of the others TM takes the condition from the ports. -/
def execRefActivityFailure (i : Fin 16) (failed : Bool) (s : State) : Host.Outcome State Fault Refusal :=
  .next (if !s.refUp i then s else (s.setRef i { s.ref i with act := failed }).refJudge i)

/-- REF_QUALIFY (R230): event 0x400. -/
def execRefQualify (i : Fin 16) (s : State) : Host.Outcome State Fault Refusal :=
  .next (if s.refUp i && decide (s.refState i = rfWait) && !s.refFails i then
    let s := s.setRef i { s.ref i with before := true }
    ((s.setFld (TIM_REF_STAT i) TIM_REF_STAT_STATE rfQualified).setFld (TIM_REF_STAT i) TIM_REF_STAT_WAIT 0).refEvent i 0x400
  else s)

/-- REF_HOLDOFF_EXPIRY (R230, R234 to R236): a failure has persisted for HOLDOFF_MS; Failed with event 0x401, and selection runs. -/
def execRefHoldoffExpiry (i : Fin 16) (s : State) : Host.Outcome State Fault Refusal :=
  .next (if s.refUp i && decide (s.refState i = rfQualified) && s.refFails i then
    let s := s.setFld (TIM_REF_STAT i) TIM_REF_STAT_STATE rfFailed
    let s := s.setFld (TIM_REF_STAT i) TIM_REF_STAT_CAUSE (s.refCause i)
    ((s.refEvent i 0x401).lapse i).select
  else s)

/-- A service's write to TIM_REF[i]_QL: event 0x403 where it changes (R256). -/
def State.refQlWrite (s : State) (i : Nat) (value : Word) : State :=
  let was := s.refQl i
  let s := s.serviceWrite (TIM_REF_QL i) 0xF value
  if s.refQl i = was then s else (s.raise islTM 0x403 [w32 i, s.reg (TIM_REF_QL i)]).timSettle

/-! ### OCXO, lock, anchor and holdover (R228, R236, R250) -/

/-- Every DPLL in Free-run, using no reference (R228, R236). -/
def State.freeRun (s : State) : State :=
  ((s.useRef 0 false).useRef 1 false).each (List.range 4) (fun s d => s.setDpState d dpFree)

/-- OCXO_FAULT (R228): every DPLL in Free-run, REF_OK and HO_VALID withdrawn, ANCHORED cleared, event 0x413. -/
def execOcxoFault (s : State) : Host.Outcome State Fault Refusal :=
  .next (if s.running islTM && !s.flag TIM_STAT TIM_STAT_OCXO_FAULT then
    let s := s.setFlag TIM_STAT TIM_STAT_OCXO_FAULT true
    let s := s.setFlag TIM_HO_STAT TIM_HO_STAT_ANCHORED false
    let s := s.freeRun
    (s.raise islTM 0x413 [w32 1, s.reg TIM_STAT]).timSettle
  else s)

/-- OCXO_RECOVERY (R228): TM switches back, event 0x413. -/
def execOcxoRecovery (s : State) : Host.Outcome State Fault Refusal :=
  .next (if s.running islTM && s.flag TIM_STAT TIM_STAT_OCXO_FAULT then
    let s := s.setFlag TIM_STAT TIM_STAT_OCXO_FAULT false
    (s.raise islTM 0x413 [w32 0, s.reg TIM_STAT]).timSettle
  else s)

/-- LOCK_NS of DPLL `d`, in 10⁻¹⁸ s; the standby DPLLs have that of the DPLL they stand by for (log entry 129). -/
def State.lockWindow (s : State) (d : Nat) : Nat :=
  1000000000 * (if d % 2 = 0 then s.fld TIM_DPLL_CFG0 TIM_DPLL_CFG0_LOCK_NS else s.fld TIM_DPLL_CFG1 TIM_DPLL_CFG1_LOCK_NS)

/-- The DPLL can lock: its phase error lies within LOCK_NS, and DPLL0's reference within its pull-in range (R236, R237). -/
def State.canLock (s : State) (d : Nat) : Bool :=
  decide ((s.dpll d).err.natAbs ≤ s.lockWindow d) && (decide (d ≠ 0) || decide ((s.refOffset (s.sel 0)).natAbs ≤ dpll0Range))

/-- DPLL_LOCK (R236, R237, R241): the phase error has stayed within LOCK_NS for 2 s. -/
def execDpllLock (d : Fin 4) (s : State) : Host.Outcome State Fault Refusal :=
  .next (if s.running islTM && decide (s.dpState d = dpAcquiring) && s.canLock d then (s.setDpState d dpLocked).timSettle else s)

/-- DPLL_LOCK_LOSS (R236, R241): the phase error has lain beyond 4 × LOCK_NS for 100 ms. -/
def execDpllLockLoss (d : Fin 4) (s : State) : Host.Outcome State Fault Refusal :=
  .next (if s.running islTM && decide (s.dpState d = dpLocked) && decide (4 * s.lockWindow d < (s.dpll d).err.natAbs) then
    (s.setDpState d dpAcquiring).timSettle
  else s)

/-- ANCHOR_SET (R250). -/
def execAnchorSet (s : State) : Host.Outcome State Fault Refusal :=
  .next (if s.running islTM && decide (s.dpState 0 = dpLocked) then
    (s.setFlag TIM_HO_STAT TIM_HO_STAT_ANCHORED true).timSettle
  else s)

/-- HOLDOVER_LIMIT (R250): HO_MAX_H is reached and HO_VALID falls. -/
def execHoldoverLimit (s : State) : Host.Outcome State Fault Refusal :=
  .next (if s.running islTM && decide (s.dpState 0 = dpHoldover) then ({ s with tm := { s.tm with limit := true } }).timSettle else s)

/-- TEMP_SENSOR_FAULT (R389): TEMP_FAULT with event 0x414. -/
def execTempSensorFault (fault : Bool) (s : State) : Host.Outcome State Fault Refusal :=
  .next (if s.running islTM && s.flag TIM_HO_STAT TIM_HO_STAT_TEMP_FAULT != fault then
    let s := s.setFlag TIM_HO_STAT TIM_HO_STAT_TEMP_FAULT fault
    s.raise islTM 0x414 [w32 (bit fault), s.reg TIM_HO_STAT]
  else s)

/-! ### Learning and the model commit (R251, R252) -/

/-- TIM_HO_SAMPLE shows the FIFO's head. -/
def State.showSample (s : State) : State :=
  match s.tm.samples with
  | [] => (s.setReg (TIM_HO_SAMPLE 0) 0).setReg (TIM_HO_SAMPLE 1) 0x20000
  | (y, t, v) :: _ =>
    (s.setReg (TIM_HO_SAMPLE 0) (BitVec.ofInt 32 y)).setReg (TIM_HO_SAMPLE 1) (w32 (unsigned 16 t + 65536 * bit v))

/-- LEARNING_SAMPLE (R251): offset in 10⁻¹⁴ and temperature in 0.01 °C; the oldest of 16 is dropped. -/
def execLearningSample (offset temp : Int) (s : State) : Host.Outcome State Fault Refusal :=
  .next (if !s.running islTM then s
  else
    let locked := decide (s.dpState 0 = dpLocked)
    let valid := locked && s.tm.learnClean && decide (s.refQl (s.sel 0) ≤ s.fld TIM_HO_CFG TIM_HO_CFG_LEARN_QL_MAX)
    let l := s.tm.samples ++ [(offset, temp, valid)]
    ({ s with tm := { s.tm with samples := l.drop (l.length - 16), learnClean := locked } }).showSample)

/-- The head sample is popped. -/
def State.popSample (s : State) : State := ({ s with tm := { s.tm with samples := s.tm.samples.drop 1 } }).showSample

/-- A write to TIM_HO_CMD (R252): CMD 1 checks the inactive copy apart from STATE, which becomes active at the next tick, or is refused
with event 0x40E; other commands are refused. -/
def State.hoCommand (s : State) (cmd token : Nat) : State :=
  if s.tokenIs TIM_HO_CMD TIM_HO_CMD_TOKEN token then s
  else if cmd = 1 ∧ s.copyOk (1 - s.activeCopy) then
    ({ s with tm := { s.tm with commit := true } }).setReg TIM_HO_CMD (w32 (token + 256 * cmd + 65536 * 0x01))
  else
    let s := s.setFld TIM_HO_CMD TIM_HO_CMD_RESULT 0x04
    if cmd = 1 then s.raise islTM 0x40E [w32 0, s.reg TIM_HO_STAT] else s

/-- A commit accepted before takes effect at the 125 µs tick. -/
def State.commitTick (s : State) : State :=
  if s.tm.commit then
    let s := { s with tm := { s.tm with commit := false } }
    (s.setFld TIM_HO_STAT TIM_HO_STAT_ACTIVE (1 - s.activeCopy)).readModel
  else s

/-! ### The report to SP (R34, R35, R243) -/

/-- Monitor B takes or rejects the correction word (R34). -/
def State.correctionWord (s : State) (corr : Int) : State :=
  let step : Int := (s.fld SUP_MON_CFG SUP_MON_CFG_LIMIT_PPB : Int) * 1000
  let bad := decide (4600000 < corr.natAbs) || (s.sp.corrSeen && decide (step < 4 * (corr - s.sp.corr).natAbs))
  if bad then
    let s := { s with sp := { s.sp with rejects := s.recentRejects ++ [s.now] } }
    (s.setFlag SUP_SAFETY_STAT SUP_SAFETY_STAT_CORR_REJ true).raise islSP 0x014 [BitVec.ofInt 32 corr]
  else
    ({ s with sp := { s.sp with corr := corr, corrSeen := true, rejects := s.recentRejects } }).setFlag SUP_SAFETY_STAT
      SUP_SAFETY_STAT_CORR_REJ false

/-- DPLL0's frequency of this tick: the one given while it runs on a reference or freely, the one before while it holds over a failure of
its reference (R235), the predicted one in Holdover (R249). -/
def State.dpll0Freq (s : State) (freq : Int) : State :=
  if s.dpState 0 = dpHoldover then
    let f := s.predicted
    let s := s.setFlag TIM_HO_STAT TIM_HO_STAT_OUT_OF_RANGE f.2
    let s := s.setReg TIM_HO_TIME (w32 ((s.now - s.tm.entryAt) / 1000000000))
    s.setReg (TIM_DPLL_FREQ 0) (BitVec.ofInt 32 (-f.1))
  else if s.dpState 0 ≠ dpFree ∧ !s.selValid 0 then s
  else
    let s := s.setReg (TIM_DPLL_FREQ 0) (BitVec.ofInt 32 freq)
    if s.dpState 0 = dpLocked ∧ s.selValid 0 then s.addOffset (-freq) else s

/-! ### Phases (R227, R235, R238, R239, R248) -/

/-- A phase in whole ns, held to the 24 bits of TIM_DPLL_STAT.PHASE. -/
def phaseField (x : Int) : Nat := unsigned 24 (max (-8388608) (min 8388607 (x / 1000000000)))

/-- The phase error of DPLL `d`, in its status too. -/
def State.setErr (s : State) (d : Nat) (x : Int) : State :=
  (s.setDpll d { s.dpll d with err := x }).setFld (TIM_DPLL_STAT d) TIM_DPLL_STAT_PHASE (phaseField x)

/-- DPLL0 advances by its frequency over 125 µs. On its reference, whose phase is in `phases`, it shows the phase error after build-out;
off it, the build-out waits for the next tick on a reference, which resumes without a step (R235, R238). -/
def State.tickDpll0 (s : State) (phases : List Int) : State :=
  let x := s.dpll 0
  let out := x.out + 125 * (s.reg (TIM_DPLL_FREQ 0)).toInt
  if s.selValid 0 then
    let p := phases.getD (s.sel 0) 0
    let off := x.off.getD (p - out)
    (s.setDpll 0 { x with out := out, off := some off }).setErr 0 (out + off - p)
  else s.setDpll 0 { x with out := out, off := none }

/-- A phase sample in 2^-16 ns as 10⁻¹⁸ s. -/
def sampleAtto (v : Int) : Int := v * 1953125 / 128

/-- The phase of reference `i` as a standby DPLL sees it: PTP's by the last sample of its servo, the others' as measured. -/
def State.refPhase (s : State) (phases : List Int) (i : Nat) : Int :=
  if i = 10 ∨ i = 11 then (s.dpll 1).out - sampleAtto (s.reg (TIM_PTP_PHASE (i - 10))).toInt else phases.getD i 0

/-- A standby DPLL holds the phase of its reference while that does not fail (R227). -/
def State.tickStandby (s : State) (phases : List Int) (d : Nat) : State :=
  let i := s.fld (TIM_DPLL_STAT d) TIM_DPLL_STAT_REF
  if s.dpState d = dpFree ∨ s.refFails i then s
  else
    let p := s.refPhase phases i
    let s := s.setErr d ((s.dpll d).out - p)
    (s.setDpll d { s.dpll d with out := p }).setReg (TIM_DPLL_FREQ d) (BitVec.ofInt 32 (1000 * s.refOffset i))

/-- A time error brought within half a second of 0: what PPS_IN alone says of it. -/
def withinSecond (x : Int) : Int := (x + 500000000000000000) % 1000000000000000000 - 500000000000000000

/-- DPLL1's time error at this tick: with PTP the sample written since the last, and without one what the last left; with reference 14 the
distance of its second from the pulse on PPS_IN (R248). -/
def State.timeError (s : State) (phases : List Int) : Int :=
  if s.sel 1 = 14 then withinSecond ((s.dpll 1).out - phases.getD 14 0)
  else
    match s.tm.phase with
    | some v => sampleAtto v
    | none => (s.dpll 1).err

/-- The time counter is stepped by `step` ns, with event 0x410 (R239, R256). -/
def State.stepTime (s : State) (step : Int) : State :=
  let s := s.setDpll 1 { s.dpll 1 with out := (s.dpll 1).out + 1000000000 * step }
  s.raise islTM 0x410 [w32 1, s.reg (TIM_DPLL_STAT 1), BitVec.ofInt 32 step]

/-- In Acquiring a time error above 1 µs steps the counter by its whole ns (R239). -/
def State.judgeStep (s : State) (err : Int) : State :=
  if s.dpState 1 = dpAcquiring ∧ 1000000000000 < err.natAbs then
    let ns := err.tdiv 1000000000
    (s.stepTime (-ns)).setErr 1 (err - 1000000000 * ns)
  else s.setErr 1 err

/-- The rate, in 10⁻¹², at which DPLL1 slews against its phase error: any up to PSL that does not take the error past 0 within the tick
(R238). The loop between these bounds is not stated: a free word says it (log entry 130). -/
def State.slewRate (s : State) : Int :=
  let e := (s.dpll 1).err
  let m := min (1000 * s.fld TIM_DPLL_CFG1 TIM_DPLL_CFG1_PSL) (e.natAbs / 125)
  let r : Int := ((s.freeWord.toNat % (m + 1) : Nat) : Int)
  if 0 ≤ e then -r else r

/-- DPLL1 takes its time error, steps where it must, and rides on DPLL0's frequency with its slew (R227, R238, R239, R248). -/
def State.tickDpll1 (s : State) (phases : List Int) : State :=
  let f := (s.reg (TIM_DPLL_FREQ 0)).toInt
  let s := if s.selValid 1 then s.judgeStep (s.timeError phases) else s
  let r := if s.selValid 1 then s.slewRate else 0
  let s := if s.selValid 1 then s.useFree else s
  let s := s.setDpll 1 { s.dpll 1 with out := (s.dpll 1).out + 125 * (f + r), err := (s.dpll 1).err + 125 * r }
  ({ s with tm := { s.tm with phase := none } }).setReg (TIM_DPLL_FREQ 1) (BitVec.ofInt 32 (f + r))

/-- The four DPLLs at a tick. With an OCXO fault they run freely. -/
def State.tickDplls (s : State) (phases : List Int) : State :=
  (((s.tickDpll0 phases).tickStandby phases 2).tickStandby phases 3).tickDpll1 phases

/-! ### Temperature (R249) -/

/-- The mean of the readings of the last second and the slope over the last 600 s, in 0.01 °C and 0.01 K/h, after one more reading. The
slope is that between the oldest temperature kept, one a second, and the present one (DESIGN CHOICE, log entry 131). -/
def State.readTemp (s : State) (reading : Int) : State :=
  let l := s.tm.temps.filter (fun x => decide (s.now < x.1 + 1000000000)) ++ [(s.now, reading)]
  let t := (l.map (fun x => x.2)).sum / (l.length : Int)
  let g := s.tm.tempLog.filter (fun x => decide (s.now ≤ x.1 + 600000000000))
  let g := match g.getLast? with
    | some x => if x.1 + 1000000000 ≤ s.now then g ++ [(s.now, t)] else g
    | none => [(s.now, t)]
  let slope := match g.head? with
    | some x => if x.1 < s.now then (t - x.2) * 3600000000000 / ((s.now - x.1 : Nat) : Int) else 0
    | none => 0
  { s with tm := { s.tm with temps := l, tempLog := g, temp := t, slope := slope } }

/-- T and its slope at a tick: from the sensor that TEMP_SRC selects. A thermistor at fault leaves T at its last good value and the slope at
0 (chapter 09, Corners; log entry 131). -/
def State.tickTemp (s : State) (caseTemp ntcTemp : Int) : State :=
  let ntc := s.flag TIM_HO_CFG TIM_HO_CFG_TEMP_SRC
  let s := if ntc && s.flag TIM_HO_STAT TIM_HO_STAT_TEMP_FAULT then { s with tm := { s.tm with slope := 0 } }
    else s.readTemp (if ntc then ntcTemp else caseTemp)
  s.setReg TIM_HO_TEMP (BitVec.ofInt 32 s.tm.temp)

/-- TM_REPORT (R34, R35, R242, R243, R249, R252): the 125 µs tick. `freq` is the offset from the OCXO, in 10⁻¹², at which DPLL0's loop runs
on a reference or freely; `caseTemp` and `ntcTemp` are the readings of the two sensors in 0.01 °C; `phases` are the phases of the sixteen
references from the OCXO in 10⁻¹⁸ s, the output of the phase detectors. -/
def execTmReport (freq caseTemp ntcTemp : Int) (phases : List Int) (s : State) : Host.Outcome State Fault Refusal :=
  .next (if !s.running islTM then s
  else
    let s := ((((s.commitTick).tickTemp caseTemp ntcTemp).dpll0Freq freq).tickDplls phases).timSettle
    let s := { s with sp := { s.sp with refOk := s.flag TIM_STAT TIM_STAT_REF_OK, hoValid := s.flag TIM_STAT TIM_STAT_HO_VALID } }
    (s.correctionWord (s.reg (TIM_DPLL_FREQ 0)).toInt).judgeSquelch)

/-- GEN of a copy, incremented on each commit (R252). -/
def State.copyGen (s : State) (c : Nat) : Nat := (s.word (modelBase c + 8)).toNat

/-- The copy that was active before the start: of those that pass the check the one committed last. -/
def State.startCopy (s : State) : Nat := if s.copyOk 1 ∧ (!s.copyOk 0 ∨ s.copyGen 0 < s.copyGen 1) then 1 else 0

/-- TM as the slot is applied or as it leaves reset: the DPLLs run freely (R236), enabled references enter Wait, and the model region is
judged as R255 says, with event 0x40D for a copy that fails or was discarded. -/
def State.startTiming (s : State) : State :=
  let s := s.freeRun
  let s := s.each ((List.range 16).filter (fun i => s.flag (TIM_REF_CFG i) TIM_REF_CFG_EN)) State.refWaits
  let s := s.setFld TIM_HO_STAT TIM_HO_STAT_ACTIVE s.startCopy
  let s := if s.eh.retGood && s.copyOk s.activeCopy then s.loadModel
    else ({ s with tm := { s.tm with modelOk := false } }).raise islTM 0x40D [w32 0, s.reg TIM_HO_STAT]
  s.timSettle

/-! ### ESMC (R232) -/

/-- The port's MAC address as bytes. -/
def State.portMac (s : State) (p : Nat) : List Byte :=
  leBytes 4 (s.reg (PW_PORT_MAC_LO p)).toNat ++ leBytes 2 (s.reg (PW_PORT_MAC_HI p)).toNat

/-- An ESMC PDU sent on port `p` where ESMC_TX is set. -/
def State.sendEsmc (s : State) (p : Nat) (event : Bool) : State :=
  if s.flag (TIM_ESMC_TX p) TIM_ESMC_TX_ESMC_TX then
    let enh := if s.flag (TIM_ESMC_TX p) TIM_ESMC_TX_SEND_TLV then some (s.fld (TIM_ESMC_TX p) TIM_ESMC_TX_ENH) else none
    let f := esmcFrame (s.portMac p) event (s.fld (TIM_ESMC_TX p) TIM_ESMC_TX_SSM) enh
    { s with tm := { s.tm with esmcOut := tset s.tm.esmcOut [] p f } }
  else s

/-- An ESMC PDU received on port `p`: its codes are kept and TIMEOUT clears. `f` is the frame with its tags removed. -/
def State.esmcReceived (s : State) (p : Nat) (f : List Byte) : State :=
  if !s.running islTM then s
  else
    let s := s.setFld (TIM_ESMC_RX p) TIM_ESMC_RX_SSM ((f.getD 27 0).toNat % 16)
    let s := if f.getD 28 0 = 0x02 then s.setFld (TIM_ESMC_RX p) TIM_ESMC_RX_ENH (f.getD 31 0).toNat else s
    s.setFlag (TIM_ESMC_RX p) TIM_ESMC_RX_TIMEOUT false

/-- ESMC_TIMEOUT (R232): event 0x416. -/
def execEsmcTimeout (p : Fin 2) (s : State) : Host.Outcome State Fault Refusal :=
  .next (if s.running islTM && !s.flag (TIM_ESMC_RX p) TIM_ESMC_RX_TIMEOUT then
    let s := s.setFlag (TIM_ESMC_RX p) TIM_ESMC_RX_TIMEOUT true
    s.raise islTM 0x416 [w32 p, s.reg (TIM_ESMC_RX p)]
  else s)

/-- ESMC_INFORMATION_PDU (R232): once a second. -/
def execEsmcInformationPdu (p : Fin 2) (s : State) : Host.Outcome State Fault Refusal :=
  .next (if s.running islTM then s.sendEsmc p false else s)

/-- A service's write to TIM_ESMC_TX: a change sends an event PDU. -/
def State.esmcTxWrite (s : State) (p : Nat) (value : Word) : State :=
  let was := s.reg (TIM_ESMC_TX p)
  let s := s.serviceWrite (TIM_ESMC_TX p) 0x3FF0F value
  if s.reg (TIM_ESMC_TX p) = was then s else s.sendEsmc p true

/-! ### PTP (R239, R245 to R248) -/

/-- A timestamp of now at port `p` in 2^-16 ns, with ASYM added (R246). -/
def State.stamp (s : State) (p : Nat) : Nat :=
  (65536 * (s.now : Int) + 128 * (s.dpll 1).out / 1953125 + (s.reg (TIM_PTP_PORT_ASYM p)).toInt).toNat

/-- Seconds, nanoseconds and fraction of a timestamp. -/
def stampParts (t : Nat) : Nat × Nat × Nat := (t / 65536 / 1000000000 % 2 ^ 48, t / 65536 % 1000000000, t % 65536)

/-- Bytes stored as little-endian words from a word address of the register target on. -/
def State.setQueueBytes (s : State) (a : Nat) (bs : List Byte) : State := s.setRegBytes a 32 (bs ++ List.replicate (128 - bs.length) 0)

/-- A PTP message received on port `p`: placed with its timestamp, or lost to a full queue (R247). Nothing tells TM how far the service has
read, so once 256 entries have been placed a free bit says whether the queue is full (DESIGN CHOICE, log entry 15). -/
def State.ptpReceived (s : State) (p : Nat) (m : List Byte) : State :=
  if !s.running islTM || !s.flag (TIM_PTP_PORT_CFG p) TIM_PTP_PORT_CFG_EN || decide (m.length < 34) || decide (112 < m.length) then s
  else
    let full := decide (256 ≤ s.tm.rxCount) && s.freeWord.getLsbD 0
    let s := if 256 ≤ s.tm.rxCount then s.useFree else s
    if full then
      let s := { s with tm := { s.tm with rxLost := true } }
      (s.count TIM_PTP_RXQ_OVF_CNT).raise islTM 0x411 [w32 p, s.reg TIM_PTP_QPTR]
    else
      let k := s.fld TIM_PTP_QPTR TIM_PTP_QPTR_RX
      let t := stampParts (s.stamp p)
      let e := leBytes 2 m.length ++ leBytes 1 p ++ leBytes 1 (bit s.tm.rxLost) ++ leBytes 6 t.1 ++ leBytes 4 t.2.1 ++ leBytes 2 t.2.2 ++ m
      let s := (s.setQueueBytes (TIM_PTP_RXQ k 0) e).setFld TIM_PTP_QPTR TIM_PTP_QPTR_RX (k + 1)
      { s with tm := { s.tm with rxCount := s.tm.rxCount + 1, rxLost := false } }

/-- The queue pointer of a transmit queue. -/
def txPtr (p : Nat) : Fld := if p = 0 then TIM_PTP_QPTR_TX0 else TIM_PTP_QPTR_TX1

/-- The frame of a PTP message: Ethernet multicast for G.8275.1, UDP over IPv4 with checksum 0 for G.8275.2 (R245, R247). The unicast
destination MAC is given nowhere: a free value. -/
def State.ptpFrame (s : State) (p : Nat) (dst msg : List Byte) : List Byte :=
  if s.flag (TIM_PTP_PORT_CFG p) TIM_PTP_PORT_CFG_PROFILE then
    let port := if (msg.getD 0 0).toNat % 16 < 8 then 319 else 320
    let ip := leBytes 4 (s.reg (TIM_PTP_PORT_IP p)).toNat
    closeFrame (leBytes 4 s.freeWord.toNat ++ leBytes 2 (s.useFree.freeWord).toNat ++ s.portMac p ++ [0x08, 0x00]
      ++ ipv4Header 0 64 (8 + msg.length) ip dst ++ udpHeader port port msg.length 0 ++ msg)
  else
    closeFrame ((if s.flag (TIM_PTP_PORT_CFG p) TIM_PTP_PORT_CFG_MCAST then [0x01, 0x80, 0xC2, 0x00, 0x00, 0x0E]
      else [0x01, 0x1B, 0x19, 0x00, 0x00, 0x00]) ++ s.portMac p ++ [0x88, 0xF7] ++ msg)

/-- The two-step timestamp of a message is placed in its port's FIFO, or lost to a full one (R247, log entry 15). -/
def State.pushStamp (s : State) (p : Nat) (x : TxStamp) : State :=
  let l := tget s.tm.stamps [] p
  let full := decide (64 ≤ l.length) && s.freeWord.getLsbD 0
  let s := if 64 ≤ l.length then s.useFree else s
  if full then (s.count TIM_PTP_TSF_OVF_CNT).raise islTM 0x412 [w32 p, s.reg TIM_PTP_QPTR]
  else { s with tm := { s.tm with stamps := tset s.tm.stamps [] p ((l ++ [x]).drop (l.length + 1 - 64)) } }

/-- PTP_TRANSMIT (R246, R247): the entry at the head of the port's transmit queue goes out; a one-step Sync takes its originTimestamp as it
leaves, a two-step message leaves its timestamp. -/
def execPtpTransmit (p : Fin 2) (s : State) : Host.Outcome State Fault Refusal :=
  .next (if !s.running islTM || !s.flag (TIM_PTP_PORT_CFG p) TIM_PTP_PORT_CFG_EN then s
  else
    let k := s.fld TIM_PTP_QPTR (txPtr p)
    let e := s.regBytes (TIM_PTP_TXQ p (32 * k)) 32
    let len := leNat (e.take 2)
    if len < 34 ∨ 112 < len then s.setFld TIM_PTP_QPTR (txPtr p) (k + 1)
    else
      let flags := (e.getD 3 0).toNat
      let msg := slice e 16 len
      let t := stampParts (s.stamp p)
      let kind := (msg.getD 0 0).toNat % 16
      let msg := if flags % 2 = 1 ∧ s.flag (TIM_PTP_PORT_CFG p) TIM_PTP_PORT_CFG_ONE_STEP ∧ kind = 0 then
          msg.take 34 ++ beBytes 6 t.1 ++ beBytes 4 t.2.1 ++ msg.drop 44
        else msg
      let s := { s with tm := { s.tm with ptpOut := tset s.tm.ptpOut [] p (s.ptpFrame p (slice e 4 4) msg) } }
      let s := if s.flag (TIM_PTP_PORT_CFG p) TIM_PTP_PORT_CFG_PROFILE then s.useFree.useFree else s
      let s := s.setFld TIM_PTP_QPTR (txPtr p) (k + 1)
      if flags / 2 % 2 = 1 then s.pushStamp p ⟨field msg 30 2, kind, s.stamp p⟩ else s)

/-- A service's write to TIM_PTP_PHASE: DPLL1 uses it at its next tick while its reference is selected (R248). -/
def State.phaseWrite (s : State) (p : Nat) (value : Word) : State :=
  let s := s.serviceWrite (TIM_PTP_PHASE p) 0xFFFFFFFF value
  if s.sel 1 = 10 + p ∧ s.selValid 1 then { s with tm := { s.tm with phase := some value.toInt } } else s

/-- TOD_MESSAGE (R239, R248): the second named by a time event message, taken with reference 14; none for a malformed message, which raises
event 0x417. -/
def execTodMessage (seconds : Option Nat) (s : State) : Host.Outcome State Fault Refusal :=
  .next (if !s.running islTM then s
  else match seconds with
  | none => s.raise islTM 0x417 [w32 14, s.reg (TIM_REF_STAT 14)]
  | some t =>
    let err : Int := (t : Int) - ((s.ptpTime / 1000000000 : Nat) : Int)
    if s.sel 1 = 14 ∧ s.selValid 1 ∧ s.dpState 1 = dpAcquiring ∧ err ≠ 0 then s.stepTime (1000000000 * err) else s)

/-- TIM_TOD shows the time now in its three words. -/
def State.latchTod (s : State) : State :=
  let t := s.ptpTime
  let sec := t / 1000000000
  ((s.setReg (TIM_TOD 0) (w32 sec)).setReg (TIM_TOD 1) (w32 (sec / 2 ^ 32 % 65536))).setReg (TIM_TOD 2) (w32 (t % 1000000000))

end Sys2Proof.Machine
end

