-- ==== Sys2Proof/Machine/Hub.lean ====
section
/-! DEFINITION. The pending bits, the Inventory and the check units of EH (R329, R338 to R344). -/

namespace Sys2Proof.Machine

/-! ### Pending bits and the next accession number (R329, R346) -/

/-- The bits of EVT_PEND[k] that events have set at this very moment. -/
def State.freshPending (s : State) (k : Nat) : Word :=
  if s.eh.recent.1 = s.now then (s.eh.recent.2.filter (fun e => decide (e / 32 = k))).foldl (fun m e => m ||| w32 (2 ^ (e % 32))) 0 else 0

/-- Pending bits cleared by writing 1 to them, and the pins after it (R329). A bit whose event occurs in the cycle of the write stays set, where
a free bit tells whether what comes at one moment falls in one cycle (DESIGN CHOICE, log entry 101). -/
def State.clearPending (s : State) (k : Nat) (mask : Word) : State :=
  let fresh := mask &&& s.freshPending k
  let keep := if s.freeWord.getLsbD 0 then fresh else 0
  let s := if fresh = 0 then s else s.useFree
  (s.setReg (EVT_PEND k) (s.reg (EVT_PEND k) &&& ~~~(mask &&& ~~~keep))).updatePins

/-- A read of the low word of EVT_LEDGER_NEXT latches the high word. -/
def State.latchNext (s : State) : State :=
  (s.setReg (EVT_LEDGER_NEXT 0) (w32 s.eh.nextAcc)).setReg (EVT_LEDGER_NEXT 1) (w32 (s.eh.nextAcc / 2 ^ 32 % 65536))

/-- INTA and INTB of an event's configuration, written by maintenance: event 0x47D where they change, and the pins follow. -/
def State.eventCfgWrite (s : State) (e : Nat) (value : Word) : State :=
  let a := EVT_EVENT_CFG e
  let v := (s.reg a &&& ~~~(6 : Word)) ||| (value &&& 6)
  if v = s.reg a then s else ((s.setReg a v).raise islEH 0x47D [w32 e, v]).updatePins

/-! ### The Inventory (R96, R338 to R341) -/

/-- Where a block counter stands: a register, or one of the adjustment counters of a higher-order path. -/
inductive Counter where
  | reg (addr : Nat)
  | adjRx (h : Nat)
  | adjTx (h : Nat)
deriving DecidableEq, Repr

/-- `n` counters from address `a` on, `d` bytes apart. -/
def counterRun (a d n : Nat) : List Counter := (List.range n).map (fun i => .reg (a + d * i))

/-- `m` instances `d` bytes apart of `n` counters in consecutive words from address `a` on. -/
def counterGrid (a d m n : Nat) : List Counter := (List.range m).flatMap (fun i => counterRun (a + d * i) 4 n)

/-- The block counters by slot (R341). -/
def blockCounters : List Counter :=
  counterGrid 0x40100200 0x10000 8 5 ++ counterRun (PATH_B3_CNT 0) 4 192 ++ counterRun (PATH_HREI_CNT 0) 4 192
    ++ (List.range 192).map .adjRx ++ (List.range 192).map .adjTx ++ counterGrid (TRIB_CV_CNT 0) 0x40 64 6
    ++ counterRun (PW_LOST_CNT 0) 4 2048 ++ counterGrid (PW_PORT_CNT 0 0) 0x80 2 15 ++ counterRun LEND_GRANT_CNT 4 5
    ++ counterRun TIM_SWITCH_CNT 4 3 ++ counterRun IDX_CHECK_CNT 4 2 ++ counterRun MTX_LATE_CNT 4 2
    ++ counterRun (MTX_GATE_TO_CNT 0) 4 61 ++ counterRun (SUP_TO_CNT 0) 4 8 ++ counterRun TWN_DUP_CNT 4 5
    ++ counterRun (APS_SWITCH_CNT 0) 0x40 4 ++ counterRun SVC_TASK_DROPPED 4 6 ++ counterGrid (CHK_BYTE_CNT 0) 0x10 32 4
    ++ counterGrid (FAC_CNT 0 0) 0x100 8 8 ++ counterRun (EVT_ISL_LOST_CNT 0) 4 24 ++ [.reg INV_MERGE_CNT, .reg EVT_GAP_CNT]

/-- A counter's island and its value. -/
def State.counterValue (s : State) (c : Counter) : Nat × Word :=
  match c with
  | .reg a => (s.regIsl a, s.reg a)
  | .adjRx h => (islPX, w32 (tget s.paths .init h).rxTotal)
  | .adjTx h => (islPX, w32 (tget s.paths .init h).txTotal)

/-- An island's registers can be read: it runs, or Safe has stopped it (R346, R413). -/
def State.readable (s : State) (i : Nat) : Bool :=
  s.running i || (decide (s.life = stSafe) && s.enabled i && !s.flag (SUP_L5_STAT i) SUP_L5_STAT_HELD)

/-- What the shadow of a counter holds from a freeze on: nothing where its island does not run or is disabled (R338, R339). -/
def State.slotValue (s : State) (c : Counter) : Word :=
  let v := s.counterValue c
  if s.readable v.1 then v.2 else 0

/-- Whether the read of a counter's slot is answered with another code than OKAY (R339): its island could not be read when the freeze started, or
cannot be read now that the gather ends. Whether such a slot was read before its island went, no rule says, and a free bit tells for each island
(DESIGN CHOICE, log entry 96). A disabled island's slots are not counted. -/
def State.slotFails (s : State) (c : Counter) : Bool :=
  let i := (s.counterValue c).1
  s.enabled i && (s.inv.dark.contains i || (!s.readable i && s.freeWord.getLsbD i))

/-- PTP time is valid while DPLL1 is Locked or in Holdover (R338). -/
def State.timeValid (s : State) : Bool := decide (s.dpState 1 = dpLocked) || decide (s.dpState 1 = dpHoldover)

/-- Words by bank offset, 0 left out. -/
def wordsAt (a : Nat) : List Word → Tbl Word
  | [] => []
  | w :: ws => if w = 0 then wordsAt (a + 4) ws else (a, w) :: wordsAt (a + 4) ws

/-- What a freeze copies, as it stands in the bank once every slot has been read (R339, R340). -/
def State.freezeWords (s : State) (f : Freeze) (seq : Nat) : Tbl Word :=
  let t := s.ptpTime
  let itc := s.itcOf islEH
  let flags := bit f.command + 4 * bit s.timeValid
  wordsAt 0 ([w32 seq, w32 flags, w32 (t / 1000000000), w32 (t / 1000000000 / 2 ^ 32 % 65536), w32 (t % 1000000000), w32 itc,
      w32 (itc / 2 ^ 32), w32 f.token] ++ List.replicate 8 0 ++ blockCounters.map s.slotValue
      ++ (List.range 1152).map (fun e => s.reg (EVT_CNT e)))
    ++ wordsAt 0x7FFC [w32 seq]

/-- The slots whose read fails, and FAILED (R339). -/
def State.failedSlots (s : State) : List Nat := (List.range 3584).zip blockCounters |>.filterMap (fun p => if s.slotFails p.2 then some p.1 else none)

/-- The bank as the reader fills it: a slot whose read fails holds 0, and FAILED and INCOMPLETE tell (R339). -/
def State.bankWords (s : State) (failed : List Nat) : Tbl Word :=
  let l := s.inv.words.filter (fun p => decide (p.1 < 0x40) || !failed.contains ((p.1 - 0x40) / 4))
  tset l 0 4 (tget l 0 4 ||| w32 (2 * bit (decide (failed ≠ [])) + 65536 * min 65535 failed.length))

/-- The Inventory reader beside its registers, replaced. -/
def State.setInv (s : State) (x : Inventory) : State := { s with inv := x }

/-- A freeze starts: every island's counters are copied, and the gather begins (R338). -/
def State.startFreeze (s : State) (f : Freeze) : State :=
  let seq := (s.inv.seq + 1) % 2 ^ 32
  (s.setInv { s.inv with
    seq := seq
    running := some f
    words := s.freezeWords f seq
    dark := (List.range 24).filter (fun i => !s.readable i) }).setFlag INV_STAT INV_STAT_GATHERING true

/-- The result of a freeze that falls due: started, held, or merged with event 0x474 (R340). -/
inductive FreezeOutcome where
  | taken | merged
deriving DecidableEq, Repr

/-- A freeze falls due. -/
def State.freezeDue (s : State) (f : Freeze) : State × FreezeOutcome :=
  if s.inv.running.isNone then (s.startFreeze f, .taken)
  else if s.inv.held.isNone then ((s.setInv { s.inv with held := some f }).setFlag INV_STAT INV_STAT_HELD true, .taken)
  else ((s.count INV_MERGE_CNT).raiseFirst islEH 0x474 0, .merged)

/-- The reader may gather: Armed has been entered at this start (R96). -/
def State.gathers (s : State) : Bool := s.running islEH && s.flag MTX_REMAP MTX_REMAP_SWAP

/-- INVENTORY_TICK (R338). -/
def execInventoryTick (s : State) : Host.Outcome State Fault Refusal :=
  .next (if s.gathers && s.flag INV_CFG INV_CFG_TICK_EN then (s.freezeDue ⟨false, 0⟩).1 else s)

/-- A write to INV_SNAPSHOT (R96, R340, R351). -/
def State.snapshotWrite (s : State) (token : Nat) (go : Bool) : State :=
  if !go || s.tokenIs INV_SNAPSHOT INV_SNAPSHOT_TOKEN token then s
  else if !s.gathers then s.setFld INV_SNAPSHOT INV_SNAPSHOT_RESULT 0x04
  else
    let r := s.freezeDue ⟨true, token⟩
    let s := r.1.setFld INV_SNAPSHOT INV_SNAPSHOT_TOKEN token
    s.setFld INV_SNAPSHOT INV_SNAPSHOT_RESULT (if r.2 = .merged then 0x03 else 0x01)

/-- `n` words from offset `o` on as bytes, taken from a table of words in rising order. -/
def tableBytes : Nat → Nat → Tbl Word → List Byte
  | 0, _, _ => []
  | n + 1, o, [] => List.replicate 4 0 ++ tableBytes n (o + 4) []
  | n + 1, o, (k, v) :: r =>
    if k = o then leBytes 4 v.toNat ++ tableBytes n (o + 4) r else List.replicate 4 0 ++ tableBytes n (o + 4) ((k, v) :: r)

/-- INVENTORY_GATHER_DONE (R339, R340): the bank is filled and becomes active, with event 0x472 or 0x473; a held freeze starts. A power
failure abandons the gather. -/
def execInventoryGatherDone (s : State) : Host.Outcome State Fault Refusal :=
  .next (if !s.running islEH || decide (s.sp.powerFail ≠ .idle) then s
  else match s.inv.running with
  | none => s
  | some f =>
    let bank := 1 - s.fld INV_STAT INV_STAT_ACTIVE
    let failed := s.failedSlots
    let s := (s.setBytes (inventoryBase + 0x8000 * bank) (tableBytes 0x2000 0 (s.bankWords failed))).useFree
    let s := (s.setFld INV_STAT INV_STAT_ACTIVE bank).setFld INV_STAT INV_STAT_SEQ s.inv.seq
    let s := s.setFlag INV_STAT INV_STAT_GATHERING false
    let s := if f.command && decide (s.fld INV_SNAPSHOT INV_SNAPSHOT_TOKEN = f.token) then
        (s.setFld INV_SNAPSHOT INV_SNAPSHOT_RESULT 0x02).setFld INV_SNAPSHOT INV_SNAPSHOT_SEQ_LO s.inv.seq
      else s
    let s := s.raise islEH (if f.command then 0x472 else 0x473) [w32 s.inv.seq, w32 (min 65535 failed.length)]
    let next := s.inv.held
    let s := (s.setInv { s.inv with running := none, held := none, words := [], dark := [] }).setFlag INV_STAT INV_STAT_HELD false
    match next with
    | some g => s.startFreeze g
    | none => s)

/-! ### Check units (R342 to R345) -/

/-- A check unit beside its registers. -/
def State.unit (s : State) (u : Nat) : CheckUnit := tget s.chk .init u

/-- The same, replaced. -/
def State.setUnit (s : State) (u : Nat) (x : CheckUnit) : State := { s with chk := tset s.chk .init u x }

/-- A field of a unit's word 0. -/
def State.chkFld (s : State) (u : Nat) (f : Fld) : Nat := s.fld (CHK_ENTRY0 u) f

/-- W of a unit. -/
def State.chkWidth (s : State) (u : Nat) : Nat := s.chkFld u CHK_ENTRY0_WIDTH + 1

/-- The result that a register value stands for. -/
def State.chkResult (s : State) (u reg : Nat) : Nat :=
  crcResult (s.chkWidth u) (decide (s.chkFld u CHK_ENTRY0_REFOUT = 1)) (s.reg (CHK_XOROUT u)).toNat reg

/-- A comparison in modes 2 and 3: MATCH or MISMATCH, and event 0x470, first for the unit in each second (R343). -/
def State.chkCompare (s : State) (u result expected : Nat) : State :=
  if result = expected then (s.count (CHK_MATCH_CNT u)).setFlag (CHK_STAT u) CHK_STAT_MISMATCH false
  else
    let s := (s.count (CHK_MISMATCH_CNT u)).setFlag (CHK_STAT u) CHK_STAT_MISMATCH true
    s.raiseFirst islEH 0x470 u [w32 u, w32 result, w32 expected]

/-- CHECK_BLOCK_END (R78, R342, R343): the block's bytes have been fed, and the check value that the tap carries is at hand. Unit 31 is the
loader's in Loading and Checking, and what the image has set for it takes effect from Armed. -/
def execCheckBlockEnd (u : Fin 32) (block : List Byte) (carried : Word) (s : State) : Host.Outcome State Fault Refusal :=
  .next (if !s.running islEH || decide (s.chkFld u CHK_ENTRY0_EN = 0) || (decide (u = 31) && s.inState [stLoading, stChecking]) then s
  else
    let x := s.unit u
    let w := s.chkWidth u
    let init := (s.reg (CHK_INIT u)).toNat
    let reg := crcFeed w (s.reg (CHK_POLY u)).toNat (decide (s.chkFld u CHK_ENTRY0_REFIN = 1)) (if x.fed then x.reg else init) block
    let result := s.chkResult u reg
    let mode := s.chkFld u CHK_ENTRY0_MODE
    let after := if mode = 0 then reg else init
    let s := s.setUnit u ⟨after, true⟩
    let s := (s.count (CHK_BYTE_CNT u) block.length).count (CHK_BLOCK_CNT u)
    let s := (s.setReg (CHK_RUN u) (w32 (s.chkResult u after))).setFlag (CHK_STAT u) CHK_STAT_RUNNING true
    if mode = 0 then s
    else
      let s := s.setReg (CHK_RESULT u) (w32 result)
      if mode = 1 then s
      else s.chkCompare u result (if mode = 2 then (s.reg (CHK_EXPECT u)).toNat else carried.toNat % 2 ^ w))

/-- The last SEL of a tap; a tap without SEL takes any. -/
def tapSel (tap : Nat) : Nat :=
  if 16 ≤ tap ∧ tap ≤ 79 then 1
  else if tap = 84 then 191
  else if tap = 85 then 5375
  else if tap = 86 ∨ tap = 87 then 1023
  else if tap = 93 ∨ tap = 95 then 7
  else 8191

/-- A tap that carries a check value (R343). -/
def tapCarries (tap : Nat) : Bool := decide (80 ≤ tap ∧ tap ≤ 83) || decide (88 ≤ tap ∧ tap ≤ 90)

/-- A unit's entry as its words 0 to 4 would stand is permitted (R344). -/
def checkEntryOk (w0 : Word) (ws : List Word) : Bool :=
  let tap := CHK_ENTRY0_TAP.get w0
  decide (tap ≤ 95) && decide (CHK_ENTRY0_SEL.get w0 ≤ tapSel tap) && (decide (CHK_ENTRY0_MODE.get w0 ≠ 3) || tapCarries tap)
    && ws.all (fun v => decide (v.toNat < 2 ^ (CHK_ENTRY0_WIDTH.get w0 + 1)))

/-- A write to word `k` of a unit's entry (R78, R344): words 5 to 7 are reserved; a change is refused where EN is 1 and is not cleared by
it, or where the entry would break R344; otherwise it stands, with event 0x471, and EN binds or unbinds the unit. -/
def State.checkWrite (s : State) (w : Writer) (u k : Nat) (value : Word) : State :=
  if 5 ≤ k then s
  else
    let a := CHK_ENTRY0 u + 4 * k
    let mask : Word := if k = 0 then 0x3FFFFFFF else 0xFFFFFFFF
    let v := value &&& mask
    if v = s.reg a then s
    else
      let word (j : Nat) : Word := if j = k then v else s.reg (CHK_ENTRY0 u + 4 * j)
      let en := s.flag (CHK_ENTRY0 u) CHK_ENTRY0_EN
      let en' := decide ((word 0).toNat % 2 = 1)
      if (en && en') || !checkEntryOk (word 0) [word 1, word 2, word 3, word 4] || (decide (u = 31) && s.inState [stLoading, stChecking]) then
        s.respond rRefused
      else
        let s := match w with
          | .service _ => s.serviceWrite a mask value
          | .maintenance => s.setReg a v
        let s := if en = en' then s else (s.setUnit u { s.unit u with fed := false }).setFlag (CHK_STAT u) CHK_STAT_RUNNING en'
        s.raise islEH 0x471 [w32 u, s.reg (CHK_ENTRY0 u)]

end Sys2Proof.Machine
end

