-- ==== Sys2Proof/Machine/FlowRules.lean ====
section
/-! DEFINITION. What a flow's entry and its profile must satisfy before the flow may be enabled, by the loader or by a service (R197,
R206, R208, R215, R223 to R225). -/

namespace Sys2Proof.Machine

/-- The flows with EN at 1, in rising order. -/
def State.enabledFlows (s : State) : List Nat :=
  s.regs.filterMap fun (a, w) =>
    if 0x40410000 ≤ a ∧ a < 0x40418000 ∧ a % 32 = 0 ∧ w.toNat % 2 = 1 then some ((a - 0x40410000) / 32) else none

/-- The profile of a flow. -/
def State.flowProf (s : State) (f : Nat) : Nat := s.fld (PW_CFG f) PW_CFG_PROFILE

/-- The packet port of a flow. -/
def State.flowHome (s : State) (f : Nat) : Nat := s.fld (PW_CFG f) PW_CFG_HOME

/-- P of a flow. -/
def State.flowP (s : State) (f : Nat) : Nat := s.fld (PW_CFG f) PW_CFG_P

/-- The size S of a flow's virtual buffer (R208). -/
def State.flowS (s : State) (f : Nat) : Nat := 256 * 2 ^ s.fld (PW_CFG f) PW_CFG_JB_LOG2

/-- The encapsulation of a profile: 0 MPLS, 1 UDP/IPv4, 2 UDP/IPv6, 3 MEF 8. -/
def State.encap (s : State) (q : Nat) : Nat := s.fld (PW_PROF0 q) PW_PROF0_ENCAP

/-- A key as an encapsulation reads it: a label or ECID of 20 bits, a UDP port of 16. -/
def keyOf (enc : Nat) (w : Word) : Nat := if enc = 1 ∨ enc = 2 then w.toNat % 2 ^ 16 else w.toNat % 2 ^ 20

/-- The endpoint word of a flow (R157). -/
def flowEp (f : Nat) : Word := w32 (0x40000000 + f)

/-- The valid Index entry with a correct check that holds the flow's endpoint, and what it joins the flow to. -/
def State.flowPartner (s : State) (f : Nat) : Option Word :=
  s.validEntries.findSome? fun e =>
    let k := s.entryEnds e
    if !s.entryOk e then none else if k.b = flowEp f then some k.a else if k.a = flowEp f then some k.b else none

/-- The tributary port a flow is joined to. -/
def State.flowPort (s : State) (f : Nat) : Option Nat :=
  match s.flowPartner f with
  | some w => if epType w = 3 then some (w.toNat % 64) else none
  | none => none

/-- Bytes before the payload of a transmitted packet (R200 to R203). -/
def State.headerBytes (s : State) (f : Nat) : Nat :=
  let q := s.flowProf f
  let enc := s.encap q
  14 + 4 * s.fld (PW_PROF0 q) PW_PROF0_TAGS
    + (if enc = 0 then 4 + 4 * s.fld (PW_PROF0 q) PW_PROF0_TUNNEL else if enc = 1 then 28 else if enc = 2 then 48 else 4)
    + 4 + 12 * s.fld (PW_CFG f) PW_CFG_RTP_EN

/-- Each field of the flow's entry and profile is in its range (R224). -/
def State.flowFieldsOk (s : State) (f : Nat) : Bool :=
  let c := s.reg (PW_CFG f)
  let q := s.flowProf f
  let jb := s.reg (PW_JB f)
  let keyOk (a : Nat) := decide (keyOf (s.encap q) (s.reg a) = (s.reg a).toNat)
  decide (PW_CFG_KIND.get c ≤ 1 ∧ PW_CFG_CLOCK.get c ≤ 2 ∧ PW_CFG_SUBST.get c ≤ 2 ∧ 8 ≤ PW_CFG_P.get c ∧ PW_CFG_P.get c ≤ 1440)
    && decide (PW_CFG_JB_LOG2.get c ≤ 8 ∧ 1 ≤ PW_JB_LOPS_N.get jb ∧ 1 ≤ PW_JB_LOPS_EXIT.get jb)
    && decide (s.fld (PW_GUAR f) PW_GUAR_GUAR ≤ 256 ∧ s.encap q ≤ 3 ∧ s.fld (PW_PROF0 q) PW_PROF0_TAGS ≤ 2
      ∧ 1 ≤ s.fld (PW_PROF0 q) PW_PROF0_TTL)
    && keyOk (PW_KEY f) && keyOk (PW_TXKEY f)

/-- The slot mask of a flow (R206, R224): 0 for SAToP; for CESoPSN the slots of the partner's frame, with F a whole number of frames. -/
def State.flowSlotsOk (s : State) (f : Nat) : Bool :=
  let m := (s.reg (PW_SLOTS f)).toNat
  if s.fld (PW_CFG f) PW_CFG_KIND = 0 then decide (m = 0)
  else match s.flowPort f with
  | none => false
  | some p =>
    let n := popcount 32 m
    decide (s.fld (TRIB_CFG p) TRIB_CFG_FRAMING ≠ 0 ∧ 0 < n ∧ s.flowP f % n = 0 ∧ 1 ≤ s.flowP f / n ∧ s.flowP f / n ≤ 64)
      && (if s.fld (TRIB_GRP_CFG (p / 8)) TRIB_GRP_CFG_MODE = 0 then decide (m % 2 = 0) else decide (m < 2 ^ 24))

/-- The jitter buffer's constraints (R208). -/
def State.flowBufferOk (s : State) (f : Nat) : Bool :=
  let t := s.fld (PW_JB f) PW_JB_TARGET
  decide (2 ^ s.fld (PW_CFG f) PW_CFG_JB_LOG2 ≤ s.flowP f ∧ 2 * s.flowP f ≤ s.flowS f ∧ 1 ≤ t ∧ t ≤ s.flowS f - s.flowP f)

/-- The flow's own rules: its fields, slots, buffer, differential clock (R213) and frame length (R225). -/
def State.flowOk (s : State) (f : Nat) : Bool :=
  s.flowFieldsOk f && s.flowSlotsOk f && s.flowBufferOk f
    && decide (s.fld (PW_CFG f) PW_CFG_CLOCK = 2 → s.flag (PW_CFG f) PW_CFG_RTP_EN = true)
    && decide (max 64 (s.headerBytes f + s.flowP f + 4) ≤ 1518 + 4 * s.fld (PW_PROF0 (s.flowProf f)) PW_PROF0_TAGS)

/-- The flows homed on port `p` among `l` number at most 512 (R197). -/
def State.homesOk (s : State) (l : List Nat) (p : Nat) : Bool := decide ((l.filter (fun f => decide (s.flowHome f = p))).length ≤ 512)

/-- The guarantees of the flows `l` (R215). -/
def State.guarantees (s : State) (l : List Nat) : Nat := (l.map (fun f => s.fld (PW_GUAR f) PW_GUAR_GUAR)).sum

/-- Another enabled flow has the same key on the same port and encapsulation (R223). -/
def State.keyTaken (s : State) (l : List Nat) (f : Nat) : Bool :=
  let enc := s.encap (s.flowProf f)
  l.any fun g => decide (g ≠ f ∧ s.flowHome g = s.flowHome f ∧ s.encap (s.flowProf g) = enc
    ∧ keyOf enc (s.reg (PW_KEY g)) = keyOf enc (s.reg (PW_KEY f)))

/-- The set of enabled flows `l` satisfies R197 and R215, and flow `f` of it R223. -/
def State.mayEnable (s : State) (l : List Nat) (f : Nat) : Bool :=
  s.flowOk f && s.homesOk l (s.flowHome f) && decide (s.fld LEND_CFG LEND_CFG_TX_RSV + s.guarantees l ≤ 8192)
    && !s.keyTaken l f && (s.flowPartner f).isSome

end Sys2Proof.Machine
end

