-- ==== Sys2Proof/Machine/Pw.lean ====
section
/-! DEFINITION. Pseudowires and the Lending Desk: packet reception and placement, jitter buffers and play-out, folios and their map,
transmission, and the enabling and draining of flows (R197 to R226). -/

namespace Sys2Proof.Machine

/-! ### What a flow holds -/

/-- A flow beside its registers. -/
def State.flow (s : State) (f : Nat) : Flow := tget s.flows .init f

/-- The same, replaced. -/
def State.setFlow (s : State) (f : Nat) (x : Flow) : State := { s with flows := tset s.flows .init f x }

/-- The Lending Desk, replaced. -/
def State.setLend (s : State) (x : Lending) : State := { s with lend := x }

/-- STATE codes of a flow. -/
def flIdle : Nat := 0
def flFill : Nat := 1
def flPlay : Nat := 2
def flLops : Nat := 3

/-- The state of a flow. -/
def State.flowState (s : State) (f : Nat) : Nat := s.fld (PW_STAT f) PW_STAT_STATE

/-- EN of a flow. -/
def State.flowEn (s : State) (f : Nat) : Bool := s.flag (PW_CFG f) PW_CFG_EN

/-- DRAINING of a flow. -/
def State.flowDraining (s : State) (f : Nat) : Bool := s.flag (PW_STAT f) PW_STAT_DRAINING

/-- The island of a flow's home port. -/
def State.flowIsl (s : State) (f : Nat) : Nat := islPK (s.flowHome f)

/-- A flow's event, with its number and word 0 of its status (R226). -/
def State.flowEvent (s : State) (f e : Nat) (data : List Word := []) : State :=
  s.raise (s.flowIsl f) e (w32 f :: s.reg (PW_STAT f) :: data)

/-- n_play. -/
def State.nPlay (s : State) (f : Nat) : Nat := s.fld (PW_STAT1 f) PW_STAT1_N_PLAY

/-- Slots from n_play up to the highest number placed, 0 where play-out has passed it. -/
def State.slotsAhead (s : State) (f : Nat) : Nat := (signed 16 ((s.flow f).nHi + 65536 - s.nPlay f) + 1).toNat

/-- The fill shown in word 2 (chapter 08, Read-back). -/
def State.showFill (s : State) (f : Nat) : State :=
  s.setFld (PW_STAT2 f) PW_STAT2_FILL (if (s.flow f).started then s.slotsAhead f * s.flowP f else 0)

/-! ### Folios (R215 to R219) -/

/-- The map words in force, by word number. -/
def State.mapWords (s : State) : List (Nat × Word) :=
  s.regs.filterMap fun (a, w) =>
    if 0x40450000 ≤ a ∧ a < 0x40458000 ∧ LEND_MAP_VALID.get w = 1 then some ((a - 0x40450000) / 4, w) else none

/-- Folios of the transmit reserve in use. -/
def State.txFolios (s : State) : List Nat := s.lend.descs.flatMap (fun p => p.2.folios) ++ s.lend.granted.flatMap (fun p => p.2)

/-- Every folio lent. -/
def State.lentFolios (s : State) : List Nat := s.mapWords.map (fun p => LEND_MAP_FOLIO.get p.2) ++ s.txFolios

/-- Folios of flow `f`. -/
def State.flowFolios (s : State) (f : Nat) : Nat := s.fld (PW_STAT f) PW_STAT_FOLIOS

/-- The guarantee of a flow: GUAR with EN at 1, otherwise none. -/
def State.guaranteeOf (s : State) (f : Nat) : Nat := if s.flowEn f then s.fld (PW_GUAR f) PW_GUAR_GUAR else 0

/-- Folios lent to flows beyond their guarantees. -/
def State.sharedUsed (s : State) : Nat :=
  (s.regs.filterMap fun (a, w) =>
    if 0x40430000 ≤ a ∧ a < 0x40434000 ∧ a % 16 = 0 then
      some (PW_STAT_FOLIOS.get w - s.guaranteeOf ((a - 0x40430000) / 16)) else none).sum

/-- Folios free in the shared pool (R215). -/
def State.sharedFree (s : State) : Nat := 8192 - s.fld LEND_CFG LEND_CFG_TX_RSV - s.guarantees s.enabledFlows - s.sharedUsed

/-- LEND_STAT and LEND_SHARED follow what is lent, with events 0x3E4 and 0x3E5 at LOW_WATER. -/
def State.showLend (s : State) : State :=
  let free := 8192 - s.lentFolios.length
  let s := s.setFld LEND_STAT LEND_STAT_FREE free
  let s := s.setFld LEND_STAT LEND_STAT_DESC_FREE (4096 - s.lend.descs.length)
  let s := s.setFld LEND_SHARED LEND_SHARED_FREE s.sharedFree
  let w := s.fld LEND_CFG LEND_CFG_LOW_WATER
  if !s.lend.low && decide (free < w) then (s.setLend { s.lend with low := true }).raise islFM 0x3E4 [s.reg LEND_STAT]
  else if s.lend.low && decide (w < free) then (s.setLend { s.lend with low := false }).raise islFM 0x3E5 [s.reg LEND_STAT]
  else s

/-- A free folio and a free descriptor: which one is granted no rule says, so a free word picks it (DESIGN CHOICE, log entry 16). -/
def State.pickFolio (s : State) : Option Nat :=
  let l := (List.range 8192).filter (fun k => !s.lentFolios.contains k)
  l[s.freeWord.toNat % max 1 l.length]?

/-- The same of descriptors. -/
def State.pickDesc (s : State) : Option Nat :=
  let l := (List.range 4096).filter (fun d => !s.lend.descs.any (fun p => p.1 == d))
  l[s.freeWord.toNat % max 1 l.length]?

/-- The map set of a page (R218). -/
def mapSet (f v : Nat) : Nat := Nat.xor ((256 * f + v) % 2048) ((256 * f + v) / 2048 * 16)

/-- The map word number of a page, where it is mapped. -/
def State.mapOf (s : State) (f v : Nat) : Option Nat :=
  ((List.range 4).map (fun w => 4 * mapSet f v + w)).find? fun k =>
    s.flag (LEND_MAP k) LEND_MAP_VALID && decide (s.fld (LEND_MAP k) LEND_MAP_FLOW = f ∧ s.fld (LEND_MAP k) LEND_MAP_VPAGE = v)

/-- Why a grant is denied. -/
inductive Denial where
  | empty | setFull
deriving DecidableEq, Repr

/-- A denied grant's events: 0x3E0, and 0x3E1 for a full set. -/
def State.denied (s : State) (f : Nat) (d : Denial) : State :=
  let s := s.raiseFirst islFM 0x3E0 0 [w32 f, s.reg LEND_STAT]
  if d = .setFull then s.raiseFirst islFM 0x3E1 0 [w32 f, s.reg LEND_STAT] else s

/-- A folio for page `v` of flow `f` (R215, R217, R218): from the guarantee or the shared pool, mapped in the lowest free way. -/
def State.grantPage (s : State) (f v : Nat) : State × Option Denial :=
  let fromGuar := decide (s.flowFolios f < s.guaranteeOf f)
  if !fromGuar && decide (s.sharedFree = 0) then (s.denied f .empty, some .empty)
  else match ((List.range 4).map (fun w => 4 * mapSet f v + w)).find? (fun k => !s.flag (LEND_MAP k) LEND_MAP_VALID), s.pickFolio with
    | none, _ => (s.denied f .setFull, some .setFull)
    | some _, none => (s.denied f .empty, some .empty)
    | some k, some folio =>
      let s := s.useFree.setReg (LEND_MAP k) (w32 (2 ^ 31 + f * 2 ^ 21 + v * 2 ^ 13 + folio))
      let s := s.setFld (PW_STAT f) PW_STAT_FOLIOS (s.flowFolios f + 1)
      ((s.count LEND_GRANT_CNT).showLend, none)

/-- The folio of page `v` of flow `f` returned and its map entry invalidated (R219). -/
def State.returnPage (s : State) (f v : Nat) : State :=
  match s.mapOf f v with
  | none => s
  | some k =>
    let s := s.setReg (LEND_MAP k) 0
    let s := s.setFld (PW_STAT f) PW_STAT_FOLIOS (s.flowFolios f - 1)
    (s.count LEND_RETURN_CNT).showLend

/-- Every folio of a flow returned. -/
def State.returnAll (s : State) (f : Nat) : State :=
  s.each ((s.mapWords.filter (fun p => decide (LEND_MAP_FLOW.get p.2 = f))).map (fun p => LEND_MAP_VPAGE.get p.2)) (fun s v => s.returnPage f v)

/-- Folios for the absent pages of a list, in order; the first denial returns those obtained (R217). -/
def State.grantPages (s : State) (f : Nat) (got : List Nat) : List Nat → State × Option Denial
  | [] => (s, none)
  | v :: vs =>
    if (s.mapOf f v).isSome then s.grantPages f got vs
    else match s.grantPage f v with
    | (s', none) => s'.grantPages f (v :: got) vs
    | (s', some d) => (s'.each got (fun s v => s.returnPage f v), some d)

/-- The pages that the slot of packet `n` touches, in order (R208). -/
def State.slotPages (s : State) (f n : Nat) : List Nat :=
  ((List.range (s.flowP f)).map (fun j => (n * s.flowP f + j) % s.flowS f / 256)).dedup

/-- The address of byte `j` of the slot of packet `n`, where its page is mapped. -/
def State.slotByte (s : State) (f n j : Nat) : Option Nat :=
  let pos := (n * s.flowP f + j) % s.flowS f
  (s.mapOf f (pos / 256)).map (fun k => folioBase + 256 * s.fld (LEND_MAP k) LEND_MAP_FOLIO + pos % 256)

/-- The payload written to the slot of packet `n`. -/
def State.writeSlot (s : State) (f n : Nat) (l : List Byte) : State :=
  s.each l.zipIdx fun s b =>
    match s.slotByte f n b.2 with
    | some a => s.setByte a b.1
    | none => s

/-- The payload read from the slot of packet `n`. -/
def State.readSlotOf (s : State) (f n : Nat) : List Byte :=
  (List.range (s.flowP f)).map fun j =>
    match s.slotByte f n j with
    | some a => s.byte a
    | none => 0

/-! ### Discards -/

/-- The port counters, by index. -/
def rxOk : Nat := 0
def rxFcs : Nat := 1
def rxOther : Nat := 2
def rxOversize : Nat := 3
def rxMalformed : Nat := 4
def rxMismatch : Nat := 5
def rxLate : Nat := 6
def rxDup : Nat := 7
def rxEarly : Nat := 8
def rxNoFolio : Nat := 9
def rxNoDesc : Nat := 10
def rxDisabled : Nat := 11
def txOk : Nat := 12
def txNoDesc : Nat := 13
def txNoFolio : Nat := 14

/-- A packet of a flow discarded: PW[f]_DISC_CNT, LAST_DISC and event 0x3D0. -/
def State.discarded (s : State) (f code : Nat) : State :=
  let s := (s.count (PW_DISC_CNT f)).setFld (PW_STAT f) PW_STAT_LAST_DISC code
  s.raiseFirst (s.flowIsl f) 0x3D0 f [w32 f, s.reg (PW_STAT f)]

/-- A packet of a flow discarded and counted by its port. -/
def State.discard (s : State) (f code cnt : Nat) : State := (s.count (PW_PORT_CNT (s.flowHome f) cnt)).discarded f code

/-! ### The jitter buffer (R208 to R211) -/

/-- The buffer of a flow is emptied: every folio returned, nothing placed. -/
def State.emptyBuffer (s : State) (f : Nat) : State :=
  let s := s.returnAll f
  let x := s.flow f
  (s.setFlow f { x with started := false, nHi := 0, arrived := [], early := 0, missing := 0, run := 0, last := none }).showFill f

/-- All ones with TSF go towards the Index (R210, R214, R222). -/
def State.silence (s : State) (f : Nat) : State :=
  s.setFlow f { s.flow f with tsf := true, out := List.replicate (8 * s.flowP f) true }

/-- The flow enters Fill, with event 0x3C5 and its cause: 0 enable, 1 LOPS exit, 2 resync. -/
def State.enterFill (s : State) (f cause : Nat) : State :=
  let s := (s.setFld (PW_STAT f) PW_STAT_STATE flFill).setFlag (PW_STAT f) PW_STAT_R_TX false
  (s.silence f).flowEvent f 0x3C5 [w32 cause]

/-- Fill ends once enough is buffered: Play, with event 0x3C4 (R209). -/
def State.tryPlay (s : State) (f : Nat) : State :=
  if s.flowState f = flFill ∧ (s.flow f).started ∧ s.fld (PW_JB f) PW_JB_TARGET ≤ s.slotsAhead f * s.flowP f then
    (s.setFld (PW_STAT f) PW_STAT_STATE flPlay).flowEvent f 0x3C4
  else s

/-- Packet `n` placed: folios for every absent page, then its bytes; without them it is discarded (R217). The flag says it was placed. -/
def State.place (s : State) (f n : Nat) (l : List Byte) : State × Bool :=
  match s.grantPages f [] (s.slotPages f n) with
  | (s', some .empty) => (s'.discard f 7 rxNoFolio, false)
  | (s', some .setFull) => ((s'.count LEND_SETFULL_CNT).discarded f 10, false)
  | (s', none) =>
    let s := (s'.writeSlot f n l).count (PW_PORT_CNT (s'.flowHome f) rxOk)
    let x := s.flow f
    let s := if x.started then s else s.setFld (PW_STAT1 f) PW_STAT1_N_PLAY n
    let hi := if x.started ∧ signed 16 (n + 65536 - x.nHi) < 0 then x.nHi else n
    let s := s.setFlow f { x with started := true, nHi := hi, arrived := x.arrived.filter (· ≠ n) ++ [n], early := 0 }
    (s.showFill f, true)

/-- A packet in Fill or Play (R209, R211); the eighth consecutive early packet causes a resync, of which it is the first placed. -/
def State.judge (s : State) (f n : Nat) (l : List Byte) : State :=
  let x := s.flow f
  if !x.started then ((s.place f n l).1).tryPlay f
  else
    let d := (n + 65536 - s.nPlay f) % 65536
    if 32768 ≤ d then (s.setFlow f { x with early := 0 }).discard f 4 rxLate
    else if d < s.flowS f / s.flowP f then
      if x.arrived.contains n then (s.setFlow f { x with early := 0 }).discard f 5 rxDup
      else ((s.setFlow f { x with early := 0 }).place f n l).1.tryPlay f
    else if x.early < 7 then (s.setFlow f { x with early := x.early + 1 }).discard f 6 rxEarly
    else
      let s := (s.flowEvent f 0x3CC).emptyBuffer f
      (((s.enterFill f 2).place f n l).1).tryPlay f

/-- The run of R210 reaches LOPS_EXIT: events 0x3C7 and 0x3C5, Fill. -/
def State.lopsExit (s : State) (f : Nat) : State :=
  if (s.flow f).run = s.fld (PW_JB f) PW_JB_LOPS_EXIT then
    let s := s.setFlow f { s.flow f with run := 0 }
    ((s.flowEvent f 0x3C7).enterFill f 1).tryPlay f
  else s

/-- A packet in LOPS starts, extends or ends the run (R210). -/
def State.lopsPacket (s : State) (f n : Nat) (l : List Byte) : State :=
  let x := s.flow f
  if x.started ∧ x.arrived.contains n then s.discard f 5 rxDup
  else
    let next := decide (x.started = true ∧ n = (x.nHi + 1) % 65536)
    let s := if next then s else s.emptyBuffer f
    match s.place f n l with
    | (s', true) => (s'.setFlow f { s'.flow f with run := (if next then x.run else 0) + 1 }).lopsExit f
    | (s', false) => s'

/-! ### Reception (R199 to R204) -/

/-- What the encapsulation of a frame addressed to the port yields: its key, the addresses, whether a check already failed, whether the
UDP checksum is 0 over IPv6, and the bytes from the control word on. -/
structure Pkt where
  enc : Nat
  key : Nat
  addrs : List Byte
  bad : Bool
  zeroSum : Bool
  body : List Byte
deriving DecidableEq, Repr

/-- A parsed frame: for no flow, malformed before its key is known, or a packet with a key. -/
inductive Parsed where
  | other | malformed | packet (k : Pkt)
deriving DecidableEq, Repr

/-- The UDP layer in `u`, whose IP header says it is `len` bytes long. -/
def parseUdp (v6 : Bool) (addrs u : List Byte) (len : Nat) : Parsed :=
  let sum := field u 6 2
  let pseudo := addrs ++ (if v6 then beBytes 4 len ++ beBytes 4 17 else beBytes 2 17 ++ beBytes 2 len)
  .packet ⟨if v6 then 2 else 1, field u 2 2, addrs, decide (field u 4 2 ≠ len) || (decide (sum ≠ 0)
    && decide (onesSum (pseudo ++ u.take len) ≠ 65535)), v6 && decide (sum = 0), slice u 8 (len - 8)⟩

/-- The encapsulation layer of a frame without tags or FCS (R201). -/
def parseFrame (f : List Byte) : Parsed :=
  let ty := field f 12 2
  let p := f.drop 14
  if ty = 0x8847 then
    if field p 0 4 / 256 % 2 = 1 then .packet ⟨0, field p 0 4 / 4096, [], false, false, p.drop 4⟩
    else if field p 4 4 / 256 % 2 = 1 then .packet ⟨0, field p 4 4 / 4096, [], false, false, p.drop 8⟩
    else .other
  else if ty = 0x88D8 then
    .packet ⟨3, field p 0 4 / 4096, [], decide (field p 0 4 % 4096 ≠ 0x102), false, p.drop 4⟩
  else if ty = 0x0800 then
    let total := field p 2 2
    if (p.getD 0 0).toNat ≠ 0x45 ∨ total < 28 ∨ p.length < total ∨ field p 6 2 % 0x4000 ≠ 0 then .malformed
    else if (p.getD 9 0).toNat ≠ 17 then .other
    else if onesSum (p.take 20) ≠ 65535 then .malformed
    else parseUdp false (slice p 12 8) (p.drop 20) (total - 20)
  else if ty = 0x86DD then
    let len := field p 4 2
    if (p.getD 0 0).toNat / 16 ≠ 6 ∨ len < 8 ∨ p.length < 40 + len then .malformed
    else if (p.getD 6 0).toNat ≠ 17 then .other
    else parseUdp true (slice p 8 32) (p.drop 40) len
  else .other

/-- Flow `f` is homed on the port, with the packet's encapsulation and key. -/
def State.flowMatches (s : State) (p : Nat) (k : Pkt) (f : Nat) : Bool :=
  decide (s.flowHome f = p ∧ s.encap (s.flowProf f) = k.enc ∧ keyOf k.enc (s.reg (PW_KEY f)) = k.key)

/-- The flow a packet belongs to: the enabled one that matches, which R223 allows one of, otherwise one that drains (R199, R222). -/
def State.flowOf (s : State) (p : Nat) (k : Pkt) : Option Nat :=
  ((List.range 1024).find? fun f => s.flowEn f && s.flowMatches p k f)
    <|> ((List.range 1024).find? fun f => s.flowDraining f && s.flowMatches p k f)

/-- The bytes of a profile. -/
def State.profBytes (s : State) (q : Nat) : List Byte := s.regBytes (PW_PROF0 q) 16

/-- Source equal to the remote address and destination to the local one (R201). -/
def State.addrsMatch (s : State) (q : Nat) (k : Pkt) : Bool :=
  let n := if k.enc = 1 then 4 else 16
  decide (k.enc = 0) || decide (k.enc = 3)
    || decide (k.addrs = slice (s.profBytes q) 40 n ++ slice (s.profBytes q) 24 n)

/-- R and L of a received packet shown, with their events where they change. -/
def State.showRx (s : State) (f : Nat) (b : Bool) (fl : Fld) (e : Nat) : State :=
  if s.flag (PW_STAT f) fl = b then s else (s.setFlag (PW_STAT f) fl b).flowEvent f (if b then e else e + 1)

/-- The payload of a packet body after the control word and the RTP header, none where a check of R202 to R204 makes it malformed. -/
def State.payloadOf (s : State) (f : Nat) (b : List Byte) : Option (List Byte) :=
  let b0 := (b.getD 0 0).toNat
  let b1 := (b.getD 1 0).toNat
  let len := b1 % 64
  let hdr := 4 + 12 * s.fld (PW_CFG f) PW_CFG_RTP_EN
  let n := if len = 0 then b.length else len
  if b0 / 16 ≠ 0 ∨ b1 / 64 ≠ 0 ∨ b.length < n ∨ n < hdr then none
  else if s.fld (PW_CFG f) PW_CFG_KIND = 1 ∧ b0 % 4 = 3 then none
  else if hdr = 16 ∧ (b.getD 4 0).toNat / 64 ≠ 2 then none
  else some (slice b hdr (n - hdr))

/-- A packet of a flow, past its address checks: control word, payload length, then the jitter buffer. -/
def State.flowPacket (s : State) (f : Nat) (b : List Byte) : State :=
  match s.payloadOf f b with
  | none => s.discard f 2 rxMalformed
  | some l =>
    let b0 := (b.getD 0 0).toNat
    let lbit := decide (b0 / 8 % 2 = 1)
    if s.flowP f < l.length then s.discard f 1 rxOversize
    else if l.length < s.flowP f ∧ !(l.length = 0 ∧ lbit) then s.discard f 2 rxMalformed
    else
      let s := s.showRx f (decide (b0 / 4 % 2 = 1)) PW_STAT_R_RX 0x3C8
      let s := s.showRx f lbit PW_STAT_L_RX 0x3CA
      let s := s.setFlow f { s.flow f with far := decide (b0 % 4 = 2) }
      let l := if lbit then List.replicate (s.flowP f) 0xFF else l
      let n := field b 2 2
      if s.flowState f = flLops then s.lopsPacket f n l else s.judge f n l

/-- A packet for flow `f`: disabled, then its descriptor, then the checks of R201 (R220, R222). -/
def State.classified (s : State) (f : Nat) (k : Pkt) : State :=
  let q := s.flowProf f
  if !s.flowEn f then s.discard f 9 rxDisabled
  else if 4096 ≤ s.lend.descs.length then
    (s.discard f 8 rxNoDesc).raiseFirst islFM 0x3E2 0 [w32 f, s.reg LEND_STAT]
  else if !s.addrsMatch q k then s.discard f 3 rxMismatch
  else if k.bad || (k.zeroSum && !s.flag (PW_PROF0 q) PW_PROF0_UDP0_OK) then s.discard f 2 rxMalformed
  else s.flowPacket f k.body

/-- A PTP message in a frame without tags or FCS: Ethernet with the PTP type, or UDP to the port's own address on a port of profile
G.8275.2; of the length its header states. -/
def State.ptpIn (s : State) (p : Nat) (f : List Byte) : Option (List Byte) :=
  let m (o : Nat) := (f.drop o).take (field f (o + 2) 2)
  if field f 12 2 = 0x88F7 then some (m 14)
  else if field f 12 2 = 0x0800 ∧ (f.getD 14 0).toNat = 0x45 ∧ (f.getD 23 0).toNat = 17 ∧ (field f 36 2 = 319 ∨ field f 36 2 = 320)
      ∧ s.flag (TIM_PTP_PORT_CFG p) TIM_PTP_PORT_CFG_PROFILE ∧ slice f 30 4 = leBytes 4 (s.reg (TIM_PTP_PORT_IP p)).toNat then
    some (m 42)
  else none

/-- A frame that passed its length and FCS, without tags and FCS, is classified (R199). -/
def State.classify (s : State) (p : Nat) (f : List Byte) : State :=
  let ok := PW_PORT_CNT p rxOk
  match s.ptpIn p f with
  | some m => (s.count ok).ptpReceived p m
  | none =>
    if f.take 6 = esmcAddress ∧ field f 12 2 = 0x8809 ∧ (f.getD 14 0).toNat = 0x0A then (s.count ok).esmcReceived p f
    else if f.take 6 ≠ s.portMac p then s.count (PW_PORT_CNT p rxOther)
    else match parseFrame f with
    | .other => s.count (PW_PORT_CNT p rxOther)
    | .malformed => s.count (PW_PORT_CNT p rxMalformed)
    | .packet k => match s.flowOf p k with
      | none => s.count (PW_PORT_CNT p rxOther)
      | some f => s.classified f k

/-- PACKET_RECEIVED (R199 to R204, R208 to R211, R217, R220): the frame with its FCS. -/
def execPacketReceived (p : Fin 2) (frame : List Byte) (s : State) : Host.Outcome State Fault Refusal :=
  .next (if !s.running (islPK p) then s
  else
    let t := vlanTags frame
    if frame.length < 64 ∨ !fcsOk frame then (s.count (PW_PORT_CNT p rxFcs)).raiseFirst (islPK p) 0x3F2 p [w32 p]
    else if 1518 + 4 * t < frame.length then (s.count (PW_PORT_CNT p rxOversize)).raiseFirst (islPK p) 0x3F2 p [w32 p]
    else s.classify p (frame.take 12 ++ (frame.take (frame.length - 4)).drop (12 + 4 * t)))

/-! ### Play-out (R206, R209, R212 to R214, R219) -/

/-- What a missing slot plays (R212). -/
def State.substitute (s : State) (f : Nat) : List Byte :=
  let ones := List.replicate (s.flowP f) (0xFF : Byte)
  match s.fld (PW_CFG f) PW_CFG_SUBST with
  | 1 => List.replicate (s.flowP f) (BitVec.ofNat 8 (s.fld (PW_JB f) PW_JB_IDLE))
  | 2 => (s.flow f).last.getD ones
  | _ => ones

/-- A payload played towards the Index: the bit stream of SAToP, or the frames of CESoPSN (R205, R206). -/
def State.playBytes (s : State) (f : Nat) (l : List Byte) : State :=
  let x := { s.flow f with tsf := false }
  if s.fld (PW_CFG f) PW_CFG_KIND = 0 then s.setFlow f { x with out := byteBits l }
  else match s.flowPort f with
  | none => s.setFlow f x
  | some p =>
    let mask := (s.reg (PW_SLOTS f)).toNat
    let n := popcount 32 mask
    let r := cesFrames (s.fld (TRIB_CFG p) TRIB_CFG_FRAMING) mask (s.fld (PW_JB f) PW_JB_IDLE) n x.far (s.flowP f / n)
      ⟨x.cesFrame, x.cesBits, x.cesCrc, x.cesFdl⟩ l
    s.setFlow f { x with out := r.2, cesFrame := r.1.frame, cesBits := r.1.bits, cesCrc := r.1.crc, cesFdl := r.1.fdl }

/-- The folios whose last byte play-out of slot `n` has passed go back, unless a slot still to be played has bytes in the page. -/
def State.returnPassed (s : State) (f n : Nat) : State :=
  let p := s.flowP f
  let passed := (List.range p).filterMap fun j =>
    let pos := (n * p + j) % s.flowS f
    if pos % 256 = 255 then some (pos / 256) else none
  let needed := (s.flow f).arrived.flatMap (fun m => s.slotPages f m)
  s.each (passed.filter (fun v => !needed.contains v)) (fun s v => s.returnPage f v)

/-- The play-out offset of a steered clock (R213): no rule gives the loop's gains, so it is a free value within ±200 ppm. -/
def State.steer (s : State) (f : Nat) : State :=
  if s.fld (PW_CFG f) PW_CFG_CLOCK = 0 then s.setFld (PW_STAT3 f) PW_STAT3_NCO 0
  else (s.setFld (PW_STAT3 f) PW_STAT3_NCO (unsigned 16 ((s.freeWord.toNat % 40001 : Nat) - 20000))).useFree

/-- The flow enters LOPS: event 0x3C6, every folio returned, R in its transmitted packets, all ones with TSF towards the Index (R209, R210). -/
def State.enterLops (s : State) (f : Nat) : State :=
  let s := (s.setFld (PW_STAT f) PW_STAT_STATE flLops).setFlag (PW_STAT f) PW_STAT_R_TX true
  ((s.silence f).flowEvent f 0x3C6).emptyBuffer f

/-- PLAYOUT_SLOT (R209, R212 to R214, R219): the slot that falls due is played or substituted as a whole and n_play advances. -/
def execPlayoutSlot (f : Fin 1024) (s : State) : Host.Outcome State Fault Refusal :=
  .next (if !s.running (s.flowIsl f) || !s.flowEn f || decide (s.flowState f ≠ flPlay) then s
  else
    let n := s.nPlay f
    let x := s.flow f
    let here := x.arrived.contains n
    let l := if here then s.readSlotOf f n else s.substitute f
    let s := s.playBytes f l
    let s := s.setFlow f { s.flow f with
      arrived := x.arrived.filter (· ≠ n), missing := if here then 0 else x.missing + 1, last := if here then some l else none }
    let s := if here then s
      else (s.count (PW_LOST_CNT f)).raiseFirst (s.flowIsl f) 0x3CD f [w32 f, s.reg (PW_STAT f)]
    let s := (s.setFld (PW_STAT1 f) PW_STAT1_N_PLAY (n + 1)).returnPassed f n
    let s := (s.steer f).showFill f
    if (s.flow f).missing = s.fld (PW_JB f) PW_JB_LOPS_N then s.enterLops f else s)

/-! ### The Lending Desk's own cycle (R216) -/

/-- The request of the lowest requester, the first of equals (R216: the lowest requester number wins). -/
def lowestReq (reqs : List FolioReq) : Option FolioReq :=
  reqs.foldl (fun best r => match best with
    | none => some r
    | some b => if r.requester.val < b.requester.val then some r else some b) none

/-- The Lending Desk works: FM runs, and the image has been applied (R96). -/
def State.deskUp (s : State) : Bool := s.running islFM && (s.ld.applied || s.inState [stArmed, stServing, stLimp])

/-- FOLIO_GRANT (R96, R215, R216, R218): the lowest requester is granted one folio; each of the others retries and counts. A receiver's folio is
mapped, a transmitter's is taken from the reserve for the flow's next packet. -/
def execFolioGrant (reqs : List FolioReq) (s : State) : Host.Outcome State Fault Refusal :=
  .next (match lowestReq reqs with
  | none => s
  | some r =>
    if !s.deskUp then s
    else
      let s := s.count LEND_RETRY_CNT (reqs.length - 1)
      if r.requester.val < 2 then
        if (s.mapOf r.flow r.vpage).isSome || decide (2 ^ s.fld (PW_CFG r.flow) PW_CFG_JB_LOG2 ≤ r.vpage.val) then s
        else (s.grantPage r.flow r.vpage).1
      else if s.fld LEND_CFG LEND_CFG_TX_RSV ≤ s.txFolios.length then s.denied r.flow .empty
      else match s.pickFolio with
        | none => s.denied r.flow .empty
        | some k =>
          let l := tget s.lend.granted [] r.flow
          ((s.useFree.setLend { s.lend with granted := tset s.lend.granted [] r.flow (l ++ [k]) }).count LEND_GRANT_CNT).showLend)

/-! ### Transmission (R200 to R203, R207, R217, R220, R221) -/

/-- The Index delivers forward AIS or TSF to the flow, or a CESoPSN partner's framer is not In frame (R155, R163, R176, R207). -/
def State.flowSendsL (s : State) (f : Nat) : Bool :=
  match s.feed (flowEp f) with
  | .signal w =>
    (match s.epPath w with
      | some q => s.pathForwardAis q || s.pstat q PATH_HO1_TSF_N
      | none => false)
    || (decide (epType w = 3) && (s.flag (TRIB_STAT (w.toNat % 64)) TRIB_STAT_LOS || !s.flag (TRIB_CFG (w.toNat % 64)) TRIB_CFG_EN
      || (decide (s.fld (PW_CFG f) PW_CFG_KIND = 1)
        && decide (s.fld (TRIB_FRM_STAT (w.toNat % 64)) TRIB_FRM_STAT_RX_STATE ≠ 3))))
  | _ => true

/-- An MPLS label stack entry. -/
def labelEntry (label tc ttl : Nat) (bottom : Bool) : List Byte := beBytes 4 (label * 4096 + tc * 512 + 256 * bit bottom + ttl)

/-- A packet's bytes up to its last payload byte: Ethernet, encapsulation, control word, RTP and payload (R200 to R203). -/
def State.buildPacket (s : State) (f seq : Nat) (lbit : Bool) (stamp : Word) (payload : List Byte) : List Byte :=
  let q := s.flowProf f
  let b := s.profBytes q
  let enc := s.encap q
  let ttl := s.fld (PW_PROF0 q) PW_PROF0_TTL
  let tc := s.fld (PW_PROF0 q) PW_PROF0_TC
  let dscp := s.fld (PW_PROF0 q) PW_PROF0_DSCP
  let key := keyOf enc (s.reg (PW_TXKEY f))
  let rtp := s.flag (PW_CFG f) PW_CFG_RTP_EN
  let inner := 4 + 12 * bit rtp + payload.length
  let eth := slice b 8 6 ++ s.portMac (s.flowHome f) ++ slice b 16 (4 * s.fld (PW_PROF0 q) PW_PROF0_TAGS)
  let len := if s.headerBytes f + payload.length < 60 then inner else 0
  let cw := beBytes 1 (8 * bit lbit + 4 * bit (decide (s.flowState f = flLops))) ++ beBytes 1 len ++ beBytes 2 seq
  let body := cw ++ (if rtp then [0x80] ++ beBytes 1 (s.fld (PW_RTP f) PW_RTP_PT) ++ beBytes 2 seq ++ beBytes 4 stamp.toNat
    ++ beBytes 4 (s.reg (PW_SSRC f)).toNat else []) ++ payload
  let src := keyOf enc (s.reg (PW_KEY f))
  match enc with
  | 0 => eth ++ [0x88, 0x47]
      ++ (if s.flag (PW_PROF0 q) PW_PROF0_TUNNEL then labelEntry (s.fld (PW_PROF1 q) PW_PROF1_TUNNEL_LABEL) tc ttl false else [])
      ++ labelEntry key tc ttl true ++ body
  | 1 => eth ++ [0x08, 0x00] ++ ipv4Header dscp ttl (8 + inner) (slice b 24 4) (slice b 40 4) ++ udpHeader src key inner 0 ++ body
  | 2 =>
    let addrs := slice b 24 16 ++ slice b 40 16
    let sum := inetChecksum (addrs ++ beBytes 4 (8 + inner) ++ beBytes 4 17 ++ udpHeader src key inner 0 ++ body)
    eth ++ [0x86, 0xDD] ++ beBytes 4 (6 * 2 ^ 28 + 4 * dscp * 2 ^ 20 + s.fld (PW_PROF14 q) PW_PROF14_FLOW_LABEL) ++ beBytes 2 (8 + inner)
      ++ [17] ++ beBytes 1 ttl ++ addrs ++ udpHeader src key inner (if sum = 0 then 65535 else sum) ++ body
  | _ => eth ++ [0x88, 0xD8] ++ beBytes 4 (key * 4096 + 0x102) ++ body

/-- One more folio of the transmit reserve beside those already granted to the flow, while the reserve has room and a folio is free. -/
def State.txGrant (s : State) (f : Nat) (got : List Nat) : Option (State × List Nat) :=
  if s.fld LEND_CFG LEND_CFG_TX_RSV ≤ s.txFolios.length then none
  else s.pickFolio.map fun k =>
    ((s.useFree.setLend { s.lend with granted := tset s.lend.granted [] f (got ++ [k]) }).count LEND_GRANT_CNT, got ++ [k])

/-- `n` more folios, one after another; none where one of them cannot be granted. -/
def State.txGrants (f : Nat) : Nat → Option (State × List Nat) → Option (State × List Nat)
  | 0, x => x
  | n + 1, x => State.txGrants f n (x.bind fun p => p.1.txGrant f p.2)

/-- The bytes of a packet written to its folios. -/
def State.writeFolios (s : State) (folios : List Nat) (l : List Byte) : State :=
  s.each folios.zipIdx (fun s p => s.setBytes (folioBase + 256 * p.1) (slice l (256 * p.2) 256))

/-- The bytes of a packet read from its folios. -/
def State.readFolios (s : State) (folios : List Nat) (n : Nat) : List Byte :=
  (folios.flatMap (fun k => s.bytes (folioBase + 256 * k) 256)).take n

/-- The tributary port that the Index joins the flow to. -/
def State.feedPort (s : State) (f : Nat) : Option Nat :=
  match s.feed (flowEp f) with
  | .signal w => if epType w = 3 then some (w.toNat % 64) else none
  | _ => none

/-- Bits as bytes, bit 7 of each first (R205). -/
def bitBytes : Nat → List Bool → List Byte
  | 0, _ => []
  | n + 1, l => BitVec.ofNat 8 (bitsNat (l.take 8)) :: bitBytes n (l.drop 8)

/-- The payload of the flow's next packet, none while there is not a payload's worth: SAToP takes the bits that the Index hands over, all ones
under R176; CESoPSN takes the slots of the next F frames that the partner port's receive framer has found (R205, R206). -/
def State.nextPayload (s : State) (f : Nat) (bits : List Bool) : Option (List Byte) :=
  let P := s.flowP f
  if s.flowSendsL f then some (List.replicate P 0xFF)
  else if s.fld (PW_CFG f) PW_CFG_KIND = 0 then
    let ones := (s.feedPort f).any (fun p => s.flag (TRIB_STAT p) TRIB_STAT_AIS_TO_IDX)
    if bits.length ≠ 8 * P then none else some (if ones then List.replicate P 0xFF else bitBytes P bits)
  else match s.feedPort f with
  | none => none
  | some p =>
    let mask := (s.reg (PW_SLOTS f)).toNat
    let F := P / popcount 32 mask
    if (s.trib p).found.length < F then none
    else some (cesPayload (decide (s.tribMode p = 1)) mask ((s.trib p).found.take F))

/-- The frames of a CESoPSN packet are taken from its partner port. -/
def State.takeFrames (s : State) (f : Nat) : State :=
  match s.feedPort f with
  | some p =>
    if s.fld (PW_CFG f) PW_CFG_KIND = 0 then s
    else s.setTrib p { s.trib p with found := (s.trib p).found.drop (s.flowP f / popcount 32 (s.reg (PW_SLOTS f)).toNat) }
  | none => s

/-- The packet of a flow is assembled under descriptor `d` (R217, R220). -/
def State.assemble (s : State) (f d : Nat) (payload : List Byte) (stamp : Word) : State :=
  let l := s.flowSendsL f
  let seq := (s.fld (PW_STAT1 f) PW_STAT1_TX_SEQ + 1) % 65536
  let bytes := s.buildPacket f seq l stamp payload
  let need := (bytes.length + 255) / 256
  let had := tget s.lend.granted [] f
  match State.txGrants f (need - had.length) (some (s, had)) with
  | none => (s.count (PW_PORT_CNT (s.flowHome f) txNoFolio)).denied f .empty
  | some (s, got) =>
    let s := s.setLend { s.lend with
      descs := tset s.lend.descs ⟨[], 0, 0⟩ d ⟨got.take need, bytes.length, s.now⟩, granted := tset s.lend.granted [] f (got.drop need) }
    let s := s.writeFolios (got.take need) bytes
    let s := s.setReg (LEND_DESC0 d) (w32 (2 ^ 31 + 2 ^ 30 + f * 2 ^ 20 + seq))
    let s := s.setReg (LEND_DESC1 d) (w32 (got.headD 0 + need * 2 ^ 16))
    let s := s.setReg (LEND_DESC2 d) (w32 payload.length)
    let s := s.setReg (LEND_DESC3 d) (w32 (s.itcOf (s.flowIsl f)))
    let s := s.setFld (PW_STAT1 f) PW_STAT1_TX_SEQ seq
    (s.setFlag (PW_STAT f) PW_STAT_L_TX l).showLend

/-- PW_TRANSMIT_PACKET (R161, R205 to R207, R217, R220): the bits that the Index has handed over, and the 19.44 MHz count at the first. -/
def execPwTransmitPacket (f : Fin 1024) (bits : List Bool) (stamp : Word) (s : State) : Host.Outcome State Fault Refusal :=
  .next (if !s.running (s.flowIsl f) || !s.flowEn f then s
  else
    let s := s.useFeed (flowEp f)
    match s.nextPayload f bits with
    | none => s
    | some payload =>
      let s := s.takeFrames f
      match s.pickDesc with
      | none => (s.count (PW_PORT_CNT (s.flowHome f) txNoDesc)).raiseFirst islFM 0x3E2 0 [w32 f, s.reg LEND_STAT]
      | some d => s.useFree.assemble f d payload stamp)

/-- The module is the standby of a pair, whose packets are discarded before transmission (R221). -/
def State.standby (s : State) : Bool := s.flag SUP_FIT_CFG SUP_FIT_CFG_PAIRED && decide (s.fld TWN_STAT TWN_STAT_ROLE ≠ 2)

/-- A descriptor freed and its folios returned (R219, R220). -/
def State.freeDesc (s : State) (d : Nat) : State :=
  let n := (tget s.lend.descs ⟨[], 0, 0⟩ d).folios.length
  let s := s.setLend { s.lend with descs := terase s.lend.descs d }
  let s := s.each (List.range 4) (fun s k => s.setReg (LEND_DESC0 d + 4 * k) 0)
  (s.count LEND_RETURN_CNT n).showLend

/-- The flow of a live descriptor. -/
def State.descFlow (s : State) (d : Nat) : Nat := s.fld (LEND_DESC0 d) LEND_DESC0_FLOW

/-- PACKET_SENT (R200, R219 to R221): the frame with its pad and FCS has left the port. -/
def execPacketSent (d : Fin 4096) (s : State) : Host.Outcome State Fault Refusal :=
  .next (let p := s.flowHome (s.descFlow d)
  if !s.lend.descs.any (fun x => x.1 == d.val) || !s.running (islPK p) then s
  else
    let x := tget s.lend.descs ⟨[], 0, 0⟩ d
    let frame := closeFrame (s.readFolios x.folios x.len)
    let s := if s.standby then s
      else (s.setLend { s.lend with sent := tset s.lend.sent [] p frame }).count (PW_PORT_CNT p txOk)
    s.freeDesc d)

/-- PACKET_LINK_CHANGE (R198): events 0x3F0 and 0x3F1. -/
def execPacketLinkChange (p : Fin 2) (up : Bool) (s : State) : Host.Outcome State Fault Refusal :=
  .next (if !s.running (islPK p) || decide (s.flag (PW_PORT_STAT p) PW_PORT_STAT_LINK = up) then s
  else
    let s := (s.setFlag (PW_PORT_STAT p) PW_PORT_STAT_LINK up).setFlag (PW_PORT_STAT p) PW_PORT_STAT_SYNC up
    let s := s.setFlag (PW_PORT_STAT p) PW_PORT_STAT_AN_DONE
      (up && s.flag (PW_PORT_CFG p) PW_PORT_CFG_AN_EN && decide (s.fld (PW_PORT_CFG p) PW_PORT_CFG_MODE ≠ 0))
    s.raise (islPK p) (if up then 0x3F1 else 0x3F0) [w32 p, s.reg (PW_PORT_STAT p)])

/-! ### Enabling and disabling a flow (R209, R222, R223) -/

/-- PW_PORT[p]_STAT shows how many enabled flows the port homes. -/
def State.showHomes (s : State) : State :=
  s.each [0, 1] fun s p =>
    s.setFld (PW_PORT_STAT p) PW_PORT_STAT_FLOWS ((s.enabledFlows.filter (fun f => decide (s.flowHome f = p))).length)

/-- A flow whose EN has just become 1 goes from Idle to Fill: events 0x3C0 and 0x3C5. -/
def State.startFlow (s : State) (f : Nat) : State :=
  let s := (s.setFlow f .init).flowEvent f 0x3C0
  ((s.enterFill f 0).showHomes).showLend

/-- Every flow that the image enables starts. -/
def State.startFlows (s : State) : State := s.each s.enabledFlows State.startFlow

/-- EN set: refused with event 0x3C2 where R223 says so. -/
def State.enableFlow (s : State) (f : Nat) (value : Word) : State :=
  if s.flowEn f then if value &&& 0x7FFFFFFF = s.reg (PW_CFG f) then s else s.respond rRefused
  else
    let t := s.setReg (PW_CFG f) (value &&& 0x7FFFFFFF)
    if s.flowDraining f || !t.mayEnable t.enabledFlows f then (s.respond rRefused).flowEvent f 0x3C2
    else (s.serviceWrite (PW_CFG f) 0x7FFFFFFF value).startFlow f

/-- EN cleared: step 1 of R222; without EN the word's other fields take the value, unless the flow drains. -/
def State.disableFlow (s : State) (f : Nat) (value : Word) : State :=
  if s.flowEn f then
    let s := (s.serviceWrite (PW_CFG f) 1 0).setFlag (PW_STAT f) PW_STAT_DRAINING true
    let s := (s.setFlow f { s.flow f with reclaimed := 0 }).silence f
    ((s.flowEvent f 0x3C1).showHomes).showLend
  else if s.flowDraining f then s.respond rRefused
  else s.serviceWrite (PW_CFG f) 0x7FFFFFFF value

/-- A write to word 0 of a flow entry. -/
def State.flowWord0 (s : State) (f : Nat) (value : Word) : State :=
  if value.toNat % 2 = 1 then s.enableFlow f value else s.disableFlow f value

/-- The bits of words 1 to 7 of a flow entry, and of a profile's words, that a service may set (R224). -/
def flowMask (k : Nat) : Word :=
  match k with
  | 1 | 2 => 0xFFFFF
  | 5 => 0x1FF
  | 6 => 0x7F
  | _ => 0xFFFFFFFF

/-- The same of a profile. -/
def profMask (k : Nat) : Word :=
  match k with
  | 0 => 0xFFFFFF
  | 1 | 14 => 0xFFFFF
  | 15 => 0
  | _ => 0xFFFFFFFF

/-- A write to word `k` of a flow entry (R223). -/
def State.flowWrite (s : State) (f k : Nat) (value : Word) : State :=
  if k = 0 then s.flowWord0 f value
  else if s.flowEn f || s.flowDraining f then s.respond rRefused
  else s.serviceWrite (PW_CFG f + 4 * k) (flowMask k) value

/-- A write to word `k` of a profile (R223). -/
def State.profWrite (s : State) (q k : Nat) (value : Word) : State :=
  if s.enabledFlows.any (fun f => decide (s.flowProf f = q)) then s.respond rRefused
  else s.serviceWrite (PW_PROF0 q + 4 * k) (profMask k) value

/-- The island that answers the tables of PW (R416): PK0, or PK1 while PK0 does not run. -/
def State.pwIsl (s : State) : Nat := if s.running 16 then 16 else 17

/-- Live transmit descriptors of a flow. -/
def State.flowDescs (s : State) (f : Nat) : List Nat := (s.lend.descs.map (fun p => p.1)).filter (fun d => decide (s.descFlow d = f))

/-- FLOW_DRAIN_TIMEOUT (R222): descriptors still live at 1 ms are reclaimed and counted, with event 0x3E3. -/
def execFlowDrainTimeout (f : Fin 1024) (s : State) : Host.Outcome State Fault Refusal :=
  .next (let l := s.flowDescs f
  if !s.flowDraining f || decide (l = []) || !s.running islFM then s
  else
    let s := (s.each l State.freeDesc).count LEND_DRAIN_CNT l.length
    let s := s.setFlow f { s.flow f with reclaimed := (s.flow f).reclaimed + l.length }
    s.raise islFM 0x3E3 [w32 f, s.reg (PW_STAT f), w32 l.length])

/-- FLOW_DRAIN_COMPLETE (R222): every folio is returned, the flow is Idle, and event 0x3C3 carries the counts: descriptors reclaimed in its
low half, folios returned in its high half. -/
def execFlowDrainComplete (f : Fin 1024) (s : State) : Host.Outcome State Fault Refusal :=
  .next (if !s.flowDraining f || decide (s.flowDescs f ≠ []) || !s.running (s.flowIsl f) then s
  else
    let kept := tget s.lend.granted [] f
    let n := s.flowFolios f + kept.length
    let r := (s.flow f).reclaimed
    let s := (s.emptyBuffer f).setFlow f .init
    let s := (s.setLend { s.lend with granted := terase s.lend.granted f }).count LEND_RETURN_CNT kept.length
    let s := (s.setFld (PW_STAT f) PW_STAT_STATE flIdle).setFlag (PW_STAT f) PW_STAT_DRAINING false
    let s := s.setFlag (PW_STAT f) PW_STAT_R_TX false
    (s.flowEvent f 0x3C3 [w32 (r + n * 65536)]).showLend)

end Sys2Proof.Machine
end

