-- ==== Sys2Proof/Machine/Twin.lean ====
section
/-! DEFINITION. The pair: tie lines, the twin link and its messages, mirroring, calibration, the switchover sequences, the silent-twin and
claim rules and the equipment commands (R257 to R281, R287, R289). The role machine itself stands in Life. -/

namespace Sys2Proof.Machine

/-! ### Tie lines (R264, R265) -/

/-- The symbol TIE_HB_OUT carries: 0 low, 1 NR, 2 SF, 3 FS, 4 LO. -/
def State.tieOut (s : State) : Nat :=
  if s.sp.powerFail ≠ .idle ∨ !s.inState [stArmed, stServing, stLimp, stSafe] then 0
  else if s.twnStanding = 1 then 4
  else if s.twnStanding = 2 then 3
  else if s.inState [stArmed, stSafe] ∨ (s.paired ∧ s.selfSf) then 2
  else 1

/-- TIE_HEARTBEAT_SEND (R264): the next pulse on TIE_HB_OUT. -/
def execTieHeartbeatSend (s : State) : Host.Outcome State Fault Refusal :=
  .next (if !s.sp.powered then s else s.setFld TWN_TIE_STAT TWN_TIE_STAT_TX s.tieOut)

/-- The symbol of a pulse width in 40 ns cycles, 0 for a coding error: within 0.25 µs of 1, 2, 3 or 4 µs. -/
def tieSymbolOf (width : Nat) : Nat :=
  ((List.range 4).map (· + 1)).find? (fun k => decide (1000 * k ≤ 40 * width + 250 ∧ 40 * width ≤ 1000 * k + 250)) |>.getD 0

/-- TIE_PULSE (R263, R265): a pulse on TIE_HB_IN, in cycles of 40 ns. A coding error counts and restarts acceptance; three consecutive
identical symbols are accepted, and TIE_OK rises with event 0x428. -/
def execTiePulse (width : Nat) (s : State) : Host.Outcome State Fault Refusal :=
  .next (if s.sp.dormant || !s.paired then s
  else
    let s := s.setFld TWN_TIE_STAT TWN_TIE_STAT_WIDTH (min 255 width)
    let sym := tieSymbolOf width
    if sym = 0 then
      ((s.setTw { s.tw with tieSym := 0, tieRun := 0 }).count TWN_TIE_ERR_CNT).raiseFirst islSP 0x429 0 [w32 width]
    else
      let run := if s.tw.tieSym = sym then min 3 (s.tw.tieRun + 1) else 1
      let s := s.setTw { s.tw with tieSym := sym, tieRun := run }
      if run < 3 then s
      else
        let s := s.setFld TWN_TIE_STAT TWN_TIE_STAT_RX sym
        let s := s.setTw { s.tw with known := true }
        let s := if s.twn TWN_STAT_TIE_OK then s else (s.setFlag TWN_STAT TWN_STAT_TIE_OK true).raise islSP 0x428 [w32 sym]
        s.roleEval)

/-- TIE_OK_LOSS (R265): no valid symbol for 50 µs; event 0x427, and the accepted symbol lapses. -/
def execTieOkLoss (s : State) : Host.Outcome State Fault Refusal :=
  .next (if s.sp.dormant || !s.twn TWN_STAT_TIE_OK then s
  else
    let s := (s.setFlag TWN_STAT TWN_STAT_TIE_OK false).setFld TWN_TIE_STAT TWN_TIE_STAT_RX 0
    let s := s.setTw { s.tw with tieSym := 0, tieRun := 0 }
    (s.raise islSP 0x427).roleEval)

/-! ### The twin link (R267 to R271) -/

/-- TW sends and takes twin-link messages: paired, running, and from Armed onwards (R59, R263). -/
def State.linkRuns (s : State) : Bool := s.running 20 && s.paired && s.inState [stArmed, stServing, stLimp, stSafe]

/-- The mirroring classes start over: their SYNC bits fall and the Active twin owes a snapshot (R262, R270). -/
def State.resync (s : State) : State :=
  let s := s.setTw { s.tw with runA := 0, runB := 0, snapshot := decide (s.role = roActive) }
  let s := { s with mirrorQ := [] }
  let s := s.setFlag TWN_SYNC_STAT TWN_SYNC_STAT_SYNC_A false
  (s.setFlag TWN_SYNC_STAT TWN_SYNC_STAT_SYNC_B false).setFlag TWN_SYNC_STAT TWN_SYNC_STAT_SYNC_C false

/-- The unacknowledged stream-2 messages, with their number shown. -/
def State.setUnacked (s : State) (l : List (Nat × LinkMsg)) : State :=
  (s.setTw { s.tw with unacked := l }).setFld TWN_SYNC_STAT TWN_SYNC_STAT_UNACKED l.length

/-- TYPE of a message (R267). -/
def LinkMsg.type : LinkMsg → Nat
  | .heartbeat _ => 0x01
  | .pair .. => 0x02
  | .mirrorA _ => 0x10
  | .mirrorB _ => 0x11
  | .mirrorC _ => 0x20
  | .handover .. => 0x21
  | .cal .. => 0x30

/-- Payload word 1 of a HEARTBEAT as it is laid out (R267). -/
def Heartbeat.word (h : Heartbeat) : BitVec 64 :=
  BitVec.ofNat 64 (h.role + 4 * bit h.claim + 8 * bit h.ready + 16 * h.tie + 256 * h.request + 4096 * bit h.hitless + 8192 * h.state
    + 65536 * h.heard.toNat)

/-- Two 32-bit words as one payload word, the first below (R5). -/
def pairWord (a b : Word) : BitVec 64 := b ++ a

/-- The values that class A and class B messages carry, in order. -/
def MirrorA.values (c : MirrorA) : List Int :=
  let pathNo (p : PathId) : Int := match p with
    | .ho i => i.val
    | .lo i => 192 + i.val
  let one (p : PathId × Nat × Nat × Nat × Bool) : List Int := [pathNo p.1, p.2.1, p.2.2.1, p.2.2.2.1, bit p.2.2.2.2]
  c.phasePs :: c.paths.flatMap one

def MirrorB.values (c : MirrorB) : List Int :=
  let flow (f : Fin 1024 × Nat × Nat × Nat × Nat) : List Int := [f.1.val, f.2.1, f.2.2.1, f.2.2.2.1, f.2.2.2.2]
  let trib (p : Fin 64 × Nat × Nat) : List Int := [p.1.val, p.2.1, p.2.2]
  [(c.ptpSeconds : Int), c.ptpNanos, c.phase0, c.phase1, c.freq0, c.freq1] ++ c.flows.flatMap flow ++ c.tribs.flatMap trib

/-- A class C record as the FIELD record it is (R73). -/
def MirrorRec.words (r : MirrorRec) : List (BitVec 64) := [pairWord 0x20010000 r.addr, pairWord r.mask r.value]

/-- The payload of a message, at most 255 words. Class C records are FIELD records (R73). Where R267 names the content alone, its words are
not stated (log entry 132). -/
def LinkMsg.payload (m : LinkMsg) : List (BitVec 64) :=
  (match m with
  | .heartbeat hb => [Heartbeat.word hb]
  | .pair id digest cfg ident senior => [pairWord id digest, pairWord cfg ident] ++ Config.linkPayload 0x02 [(bit senior : Int)]
  | .mirrorA c => Config.linkPayload 0x10 (MirrorA.values c)
  | .mirrorB c => Config.linkPayload 0x11 (MirrorB.values c)
  | .mirrorC recs => recs.flatMap MirrorRec.words
  | .handover frame toJunior => [Config.handoverDirection toJunior ++ frame]
  | .cal echo stamp turnaround => Config.linkPayload 0x30 [(bit echo : Int), stamp, turnaround]).take 255

/-- A message as words: the header with TYPE, STREAM, SEQ, ACK and LEN, the payload, and CRC-32C over both (R267). -/
def LinkMsg.words (m : LinkMsg) (stream seq ack : Nat) : List (BitVec 64) :=
  let l := m.payload
  let l := BitVec.ofNat 64 (m.type + 256 * stream + 65536 * seq + 2 ^ 32 * ack + 2 ^ 48 * l.length) :: l
  l ++ [(crc32c (l.flatMap (fun w => leBytes 8 w.toNat))).setWidth 64]

/-- A message goes out on a stream with the stream's next SEQ; stream 2 keeps it until it is acknowledged. -/
def State.sendMsg (s : State) (stream : Nat) (m : LinkMsg) : State :=
  match stream with
  | 0 =>
    let n := (s.tw.tx0 + 1) % 65536
    s.setTw { s.tw with tx0 := n, out := [m.words 0 n s.tw.rx2] }
  | 1 =>
    let n := (s.tw.tx1 + 1) % 65536
    s.setTw { s.tw with tx1 := n, out := [m.words 1 n s.tw.rx2] }
  | _ =>
    let n := (s.tw.tx2 + 1) % 65536
    (s.setTw { s.tw with tx2 := n, out := [m.words 2 n s.tw.rx2] }).setUnacked (s.tw.unacked ++ [(n, m)])

/-- Stream 2 can take one more message: at most 64 stay unacknowledged (R269). -/
def State.stream2Open (s : State) : Bool := decide (s.tw.unacked.length < 64)

/-- A link error (R270): TWN_LINK_ERR advances, and at 255 quarantine begins with event 0x425. -/
def State.linkError (s : State) : State :=
  let s := s.satInc TWN_LINK_ERR TWN_LINK_ERR_ERR 255
  if s.fld TWN_LINK_ERR TWN_LINK_ERR_ERR = 255 ∧ !s.twn TWN_STAT_QUAR then
    ((s.setFlag TWN_STAT TWN_STAT_QUAR true).raise 20 0x425 [s.reg TWN_STAT]).roleEval
  else s

/-- The last SEQ accepted on a stream. -/
def State.lastSeq (s : State) (stream : Nat) : Nat :=
  match stream with
  | 0 => s.tw.rx0
  | 1 => s.tw.rx1
  | _ => s.tw.rx2

/-- The same, replaced. -/
def State.setLastSeq (s : State) (stream n : Nat) : State :=
  match stream with
  | 0 => s.setTw { s.tw with rx0 := n }
  | 1 => s.setTw { s.tw with rx1 := n }
  | _ => s.setTw { s.tw with rx2 := n }

/-- The judgement of R269; the flag says the message is accepted. In quarantine only HEARTBEAT is taken (R270). -/
def State.judgeSeq (s : State) (stream seq : Nat) (heartbeat : Bool) : State × Bool :=
  if !s.linkRuns || (s.twn TWN_STAT_QUAR && !heartbeat) then (s, false)
  else
    let d := (seq + 65536 - s.lastSeq stream) % 65536
    if d = 0 ∨ 32768 ≤ d then ((s.count TWN_DUP_CNT).raiseFirst 20 0x42F 0 [w32 stream, w32 seq], false)
    else if d = 1 then (s.setLastSeq stream seq, true)
    else if stream = 2 then (s.linkError, false)
    else ((s.setLastSeq stream seq).count TWN_GAP_CNT (d - 1), true)

/-- ACK of a message: the stream-2 messages up to it are acknowledged, and SYNC_C rises at the source once none is outstanding (R269,
R272). -/
def State.takeAck (s : State) (ack : Nat) : State :=
  let l := s.tw.unacked.filter (fun p => decide (32768 ≤ (ack + 65536 - p.1) % 65536))
  let s := if l = s.tw.unacked then s else s.setUnacked l
  if s.role = roActive ∧ s.linkOk ∧ l = [] ∧ s.tw.snapshot = false ∧ s.mirrorQ = [] then
    (s.setFlag TWN_SYNC_STAT TWN_SYNC_STAT_SYNC_C true).updateHitless
  else s

/-- The message as judged, its ACK taken, and then `f` where it is accepted. -/
def State.received (s : State) (stream : Nat) (m : MsgHead) (heartbeat : Bool) (f : State → State) : State :=
  match s.judgeSeq stream m.seq.toNat heartbeat with
  | (s', true) => f (if s'.twn TWN_STAT_QUAR then s' else s'.takeAck m.ack.toNat)
  | (s', false) => s'

/-- Word 1 of this twin's HEARTBEAT. -/
def State.heartbeatWord (s : State) : Heartbeat := {
  role := Fin.ofNat 4 s.role, claim := s.flag SUP_SAFETY_STAT SUP_SAFETY_STAT_CLAIM_OUT, ready := s.twn TWN_STAT_READY
  tie := Fin.ofNat 16 s.tieOut, request := Fin.ofNat 16 (s.ownOrders.foldl min (twnOrder s.twnStanding))
  hitless := s.twn TWN_STAT_HITLESS, state := Fin.ofNat 8 s.life, heard := BitVec.ofNat 16 s.tw.rx0 }

/-- A HEARTBEAT goes out. -/
def State.sendHeartbeat (s : State) : State := if s.linkRuns then s.sendMsg 0 (.heartbeat s.heartbeatWord) else s

/-- HEARTBEAT_SEND (R267). -/
def execHeartbeatSend (s : State) : Host.Outcome State Fault Refusal := .next s.sendHeartbeat

/-- The link comes up (R268): event 0x423; the classes start over and the sync-header counts restart. -/
def State.linkRise (s : State) : State :=
  let s := s.setFlag TWN_STAT TWN_STAT_LINK_UP true
  let s := s.each (List.range 4) (fun s k => s.setFld (TWN_LANE_STAT k) TWN_LANE_STAT_HDR_ERR 0)
  let s := s.setTw { s.tw with known := true, calLast := none }
  s.resync.raise 20 0x423 [s.reg TWN_STAT]

/-- The link falls (R262, R268): event 0x424; mirroring stops. -/
def State.linkFall (s : State) : State :=
  if s.twn TWN_STAT_LINK_UP then
    let s := s.resync.setFlag TWN_STAT TWN_STAT_LINK_UP false
    (s.raise 20 0x424 [s.reg TWN_STAT]).roleEval
  else s

/-- Every lane is aligned. -/
def State.lanesAligned (s : State) : Bool := (List.range 4).all (fun k => s.flag (TWN_LANE_STAT k) TWN_LANE_STAT_ALIGNED)

/-- HEARTBEAT (R32, R258, R261, R268 to R271, R278): a new heard SEQ brings the link up, and the claim is kept for SP's comparison; outside
quarantine the twin's role and requests count. -/
def execHeartbeat (m : MsgHead) (hb : Heartbeat) (s : State) : Host.Outcome State Fault Refusal :=
  .next (s.received 0 m true fun s =>
    let new := decide (hb.heard.toNat ≠ s.tw.heard)
    let s := s.setTw { s.tw with heard := hb.heard.toNat, twinClaim := hb.claim }
    let s := if new && !s.twn TWN_STAT_LINK_UP && s.lanesAligned then s.linkRise else s
    if s.twn TWN_STAT_QUAR then s.roleEval
    else
      let s := s.setFld TWN_STAT TWN_STAT_TWIN_ROLE hb.role
      (s.setTw { s.tw with req := hb.request, sym := hb.tie, known := true }).roleEval)

/-- PAIR (R287): event 0x42E where MISMATCH rises. -/
def execPair (m : MsgHead) (id digest cfg ident : Word) (senior : Bool) (s : State) : Host.Outcome State Fault Refusal :=
  let _ := ident
  .next (s.received 0 m false fun s =>
    let bad := decide (id ≠ s.reg TWN_PAIR_ID) || decide (digest ≠ s.reg TWN_PAIR_DIGEST) || decide (cfg ≠ s.reg TWN_CFG)
      || decide (senior = s.senior)
    let was := s.twn TWN_STAT_MISMATCH
    let s := s.setFlag TWN_STAT TWN_STAT_MISMATCH bad
    let s := if bad && !was then s.resync.raise 20 0x42E [id, digest] else s
    s.roleEval)

/-- PAIR_SEND (R267). -/
def execPairSend (s : State) : Host.Outcome State Fault Refusal :=
  .next (if s.linkRuns then
    s.sendMsg 0 (.pair (s.reg TWN_PAIR_ID) (s.reg TWN_PAIR_DIGEST) (s.reg TWN_CFG) (s.reg SUP_IDENT) s.senior)
  else s)

/-- STREAM2_RETRANSMIT (R269): stream 2 is resent from the first unacknowledged message. -/
def execStream2Retransmit (s : State) : Host.Outcome State Fault Refusal :=
  .next (if s.linkRuns && decide (s.tw.unacked ≠ []) then
    s.setTw { s.tw with out := s.tw.unacked.map (fun p => p.2.words 2 p.1 s.tw.rx2) }
  else s)

/-- STREAM2_ACK_TIMEOUT (R269): SYNC_C falls and a full snapshot is owed. -/
def execStream2AckTimeout (s : State) : Host.Outcome State Fault Refusal :=
  .next (if s.linkRuns && decide (s.tw.unacked ≠ []) then
    let s := s.setFlag TWN_SYNC_STAT TWN_SYNC_STAT_SYNC_C false
    (s.setTw { s.tw with snapshot := true }).roleEval
  else s)

/-- LINK_ERROR_DECAY (R270): 10 ms without a link error; at 0 quarantine lifts with event 0x426 and all classes start over. -/
def execLinkErrorDecay (s : State) : Host.Outcome State Fault Refusal :=
  .next (if !s.running 20 then s
  else
    let s := s.setFld TWN_LINK_ERR TWN_LINK_ERR_ERR (s.fld TWN_LINK_ERR TWN_LINK_ERR_ERR - 1)
    if s.fld TWN_LINK_ERR TWN_LINK_ERR_ERR = 0 ∧ s.twn TWN_STAT_QUAR then
      let s := s.resync.setFlag TWN_STAT TWN_STAT_QUAR false
      (s.raise 20 0x426 [s.reg TWN_STAT]).roleEval
    else s)

/-- TWIN_LANE_ALIGNMENT (R268, R270): a lane's lock, alignment and skew; losing alignment is a link error. -/
def execTwinLaneAlignment (k : Fin 4) (lock aligned : Bool) (skew : Byte) (s : State) : Host.Outcome State Fault Refusal :=
  .next (if !s.running 20 then s
  else
    let was := s.flag (TWN_LANE_STAT k) TWN_LANE_STAT_ALIGNED
    let s := s.setFlag (TWN_LANE_STAT k) TWN_LANE_STAT_BLOCK_LOCK lock
    let s := s.setFlag (TWN_LANE_STAT k) TWN_LANE_STAT_ALIGNED aligned
    let s := s.setFld (TWN_LANE_STAT k) TWN_LANE_STAT_SKEW skew.toNat
    if was && !aligned then s.linkError else s)

/-- TWIN_LINK_CODING_ERROR (R270): a CRC failure, or an invalid sync header or block type, each one link error. The row does not say which,
nor the lane whose HDR_ERR counts a header: free bits do (DESIGN CHOICE, log entry 17). -/
def execTwinLinkCodingError (s : State) : Host.Outcome State Fault Refusal :=
  .next (if !s.running 20 then s
  else
    let r := s.freeWord.toNat % 5
    let s := s.useFree
    (if r < 4 then s.satInc (TWN_LANE_STAT r) TWN_LANE_STAT_HDR_ERR 65535 else s).linkError)

/-! ### Mirroring (R272 to R276) -/

/-- This twin is a sink of mirror messages that count: not Active, and the pair matches. -/
def State.mirrorSink (s : State) : Bool := decide (s.role ≠ roActive) && s.linkOk && !s.twn TWN_STAT_MISMATCH

/-- A frame or period judged: its run, and the SYNC bit, which rises at `n` and falls with the run. -/
def State.judgeSync (s : State) (ok : Bool) (run n : Nat) (f : Fld) : State × Nat :=
  let run := if ok then min n (run + 1) else 0
  (s.setFlag TWN_SYNC_STAT f (decide (run = n)), run)

/-- MIRROR_A (R272): the Active twin's stores and pointers are compared, then taken over. -/
def execMirrorA (m : MsgHead) (c : MirrorA) (s : State) : Host.Outcome State Fault Refusal :=
  .next (s.received 1 m false fun s =>
    if !s.mirrorSink || !s.running islPX then s
    else
      let ok := decide (c.phasePs.natAbs ≤ 4000) && c.paths.all (fun p => decide (s.storeFill p.1 = p.2.1 ∧ s.ptrTx p.1 = p.2.2.1))
      let s := s.each c.paths fun s p =>
        let s := (s.setStoreFill p.1 p.2.1).setPtrTx p.1 p.2.2.1
        s.setPath p.1 { s.path p.1 with txGap := p.2.2.2.1, ndfPending := p.2.2.2.2 }
      let r := s.judgeSync ok s.tw.runA 16 TWN_SYNC_STAT_SYNC_A
      (r.1.setTw { r.1.tw with runA := r.2 }).roleEval)

/-- One flow's class B values equal: n_play and SEQ, and the fill within a byte. -/
def State.flowEqual (s : State) (f : Fin 1024 × Nat × Nat × Nat × Nat) : Bool :=
  decide (s.nPlay f.1 = f.2.1 ∧ s.fld (PW_STAT1 f.1) PW_STAT1_TX_SEQ = f.2.2.1)
    && decide (((s.fld (PW_STAT2 f.1) PW_STAT2_FILL : Int) - f.2.2.2.1).natAbs ≤ 1)

/-- MIRROR_B (R221, R272): PTP time, DPLL phases and frequencies, flows and tributary ports are compared, then taken over. -/
def execMirrorB (m : MsgHead) (c : MirrorB) (s : State) : Host.Outcome State Fault Refusal :=
  .next (s.received 1 m false fun s =>
    if !s.mirrorSink then s
    else
      let ok := c.flows.all s.flowEqual
        && c.tribs.all (fun p => decide (((s.fld (TRIB_TX_STAT p.1) TRIB_TX_STAT_FILL : Int) - p.2.1).natAbs ≤ 2))
      let s := if s.running islTM then
          let time : Int := (c.ptpSeconds * 1000000000 + c.ptpNanos : Nat)
          let s := s.setDpll 0 { s.dpll 0 with out := c.phase0 }
          let s := s.setDpll 1 { s.dpll 1 with out := 1000000000 * (time - (s.now : Int)) + c.phase1 }
          (s.setReg (TIM_DPLL_FREQ 0) (BitVec.ofInt 32 c.freq0)).setReg (TIM_DPLL_FREQ 1) (BitVec.ofInt 32 c.freq1)
        else s
      let s := s.each c.flows fun s f =>
        if s.running (s.flowIsl f.1) then
          let s := (s.setFld (PW_STAT1 f.1) PW_STAT1_N_PLAY f.2.1).setFld (PW_STAT1 f.1) PW_STAT1_TX_SEQ f.2.2.1
          (s.setFld (PW_STAT2 f.1) PW_STAT2_FILL f.2.2.2.1).setFld (PW_STAT3 f.1) PW_STAT3_NCO f.2.2.2.2
        else s
      let s := s.each c.tribs fun s p =>
        if s.running (islTR p.1) then
          (s.fillStore p.1 p.2.1).setFld (TRIB_TX_STAT p.1) TRIB_TX_STAT_OFFSET p.2.2
        else s
      let r := s.judgeSync ok s.tw.runB 8 TWN_SYNC_STAT_SYNC_B
      (r.1.setTw { r.1.tw with runB := r.2 }).roleEval)

/-- The path a key of `State.paths` stands for. -/
def pathOfKey (k : Nat) : Option PathId :=
  if k < 192 then some (.ho (Fin.ofNat 192 k))
  else if k < 5568 then some (.lo (Fin.ofNat 5376 (k - 192)))
  else none

/-- Class A content: every path in service. -/
def State.classA (s : State) : MirrorA := {
  phasePs := 0
  paths := s.paths.filterMap fun p =>
    (pathOfKey p.1).map (fun i => (i, s.storeFill i, s.ptrTx i, p.2.txGap, p.2.ndfPending)) }

/-- Class B content: time, DPLLs, every enabled flow and tributary port. -/
def State.classB (s : State) : MirrorB := {
  ptpSeconds := s.ptpTime / 1000000000, ptpNanos := s.ptpTime % 1000000000
  phase0 := (s.dpll 0).out, phase1 := (s.dpll 1).out % 1000000000
  freq0 := (s.reg (TIM_DPLL_FREQ 0)).toInt, freq1 := (s.reg (TIM_DPLL_FREQ 1)).toInt
  flows := s.enabledFlows.map fun f =>
    (Fin.ofNat 1024 f, s.nPlay f, s.fld (PW_STAT1 f) PW_STAT1_TX_SEQ, s.fld (PW_STAT2 f) PW_STAT2_FILL, s.fld (PW_STAT3 f) PW_STAT3_NCO)
  tribs := ((List.range 64).filter (fun p => s.flag (TRIB_CFG p) TRIB_CFG_EN)).map fun p =>
    (Fin.ofNat 64 p, s.fld (TRIB_TX_STAT p) TRIB_TX_STAT_FILL, s.fld (TRIB_TX_STAT p) TRIB_TX_STAT_OFFSET) }

/-- The words of a row of the register table. -/
def RegRow.addresses (r : RegRow) : List Nat :=
  (List.range r.count1).flatMap fun i => (List.range r.count2).map fun j => r.base + i * r.stride1 + j * r.stride2

/-- What class C carries beside service writes (R272): APS and SNCP state and the equipment, APS and selection commands. -/
def classCState : List Nat :=
  (List.range 4).map APS_STAT ++ (List.range 4096).map IDX_STATUS ++ TWN_CMD :: TIM_SEL_CMD :: (List.range 4).map APS_CMD

/-- Every word of class C: the IS registers and image-loadable memories that services write, and the state above (R272). -/
def classCWords : List Nat :=
  ((regTablePath ++ regTableIdx ++ regTableTrib ++ regTablePw ++ regTableLend ++ regTableTim ++ regTableSvc ++ regTableFac ++ regTableLine
    ++ regTableChk).filter (fun r => decide (r.ty = .is) && r.svc)).flatMap RegRow.addresses ++ classCState

/-- A full class C snapshot as records. -/
def State.snapshotRecs (s : State) : List MirrorRec := classCWords.map (fun a => ⟨w32 a, 0xFFFFFFFF, s.reg a⟩)

/-- Class C (R269, R272): a snapshot that is owed takes the place of the writes waiting, since it carries them; the records go out in order,
while fewer than 64 messages are unacknowledged. A message of 255 payload words holds at most 127 records. -/
def State.sendC (s : State) : State :=
  let s := if s.tw.snapshot then { (s.setTw { s.tw with snapshot := false }) with mirrorQ := s.snapshotRecs } else s
  if s.mirrorQ ≠ [] ∧ s.stream2Open then
    { (s.sendMsg 2 (.mirrorC (s.mirrorQ.take 127))) with mirrorQ := s.mirrorQ.drop 127 }
  else s

/-- MIRROR_SEND (R272): class A every frame, or class B every ms, with class C within 100 µs of its writes. The source counts the frames
and periods it has sent towards its own SYNC bits (DEDUCED, log entry 18). -/
def execMirrorSend (classB : Bool) (s : State) : Host.Outcome State Fault Refusal :=
  .next (if !s.linkRuns || !s.mirroring then s
  else
    let c := s.sendC
    let new := if c.tw.tx2 = s.tw.tx2 then [] else c.tw.out
    let s := c.sendMsg 1 (if classB then .mirrorB c.classB else .mirrorA c.classA)
    let s := s.setTw { s.tw with out := s.tw.out ++ new }
    let r := if classB then s.judgeSync true s.tw.runB 8 TWN_SYNC_STAT_SYNC_B else s.judgeSync true s.tw.runA 16 TWN_SYNC_STAT_SYNC_A
    let s := r.1
    (if classB then s.setTw { s.tw with runB := r.2 } else s.setTw { s.tw with runA := r.2 }).roleEval)

/-! ### Frame timing and calibration (R275) -/

/-- SYNC_PULSE (R275): the Active twin's frame counter and superframe number are taken over, and the frame timing is advanced by the one-way
delay of TWN_DELAY. -/
def execSyncPulse (frame : Fin 48) (superframe : BitVec 16) (s : State) : Host.Outcome State Fault Refusal :=
  .next (if s.linkRuns && decide (s.role ≠ roActive) then
    (s.setFld TWN_SYNC_STAT TWN_SYNC_STAT_FRAME frame).setTw { s.tw with
      super := superframe.toNat, boundary := ((s.now : Int) - (s.reg TWN_DELAY).toInt / 1000).toNat }
  else s)

/-- SYNC_PULSE_MISSING (R275): event 0x431. -/
def execSyncPulseMissing (s : State) : Host.Outcome State Fault Refusal :=
  .next (if s.linkRuns && decide (s.role ≠ roActive) then (s.setTw { s.tw with runA := 0 }).raise 20 0x431 [s.reg TWN_SYNC_STAT] else s)

/-- CAL_OK changes, with event 0x430. -/
def State.setCal (s : State) (ok : Bool) : State :=
  if s.flag TWN_SYNC_STAT TWN_SYNC_STAT_CAL_OK = ok then s
  else (s.setFlag TWN_SYNC_STAT TWN_SYNC_STAT_CAL_OK ok).raise 20 0x430 [w32 (bit ok), s.reg TWN_DELAY]

/-- CAL (R275): the junior echoes a stamp with its turnaround time; the senior takes the one-way delay from an echo, with SKEW_TRIM added
from senior to junior and taken off from junior to senior. What TWN_DELAY reads in the junior, which only echoes, is not stated: a free word
(log entry 133). -/
def execCal (m : MsgHead) (echo : Bool) (stamp turnaround : Nat) (s : State) : Host.Outcome State Fault Refusal :=
  .next (s.received 0 m false fun s =>
    if s.senior then
      if !echo then s
      else
        let trim := signed 16 (s.fld TWN_SKEW TWN_SKEW_SKEW_TRIM)
        let d := ((s.itcOf 20 : Int) - stamp - turnaround) * 1000 / 2 + (if s.role = roActive then trim else -trim)
        let ok := match s.tw.calLast with
          | some p => decide ((d - p).natAbs ≤ 2000)
          | none => true
        let s := (s.setReg TWN_DELAY (BitVec.ofInt 32 d)).setTw { s.tw with calLast := some d }
        (s.setCal ok).roleEval
    else if echo then s
    else
      let s := (s.sendMsg 0 (.cal true stamp s.freeWord.toNat)).useFree
      ((s.setReg TWN_DELAY s.freeWord).useFree.setCal true).roleEval)

/-- CAL_SEND (R275): the senior's stamp. -/
def execCalSend (s : State) : Host.Outcome State Fault Refusal :=
  .next (if s.linkRuns && s.senior && s.twn TWN_STAT_LINK_UP then s.sendMsg 0 (.cal false (s.itcOf 20) 0) else s)

/-- The Active twin sends its sync pulse (R275). -/
def State.sendPulse (s : State) (n : Nat) : State :=
  s.setTw { s.tw with pulse := if s.linkRuns && decide (s.role = roActive) then some (n, s.tw.super) else none }

/-- TRANSMIT_FRAME_BOUNDARY (R122 to R132, R275, R362): the frame counter advances, the Active twin sends its sync pulse, every line port
builds its frame, and trigger 2 pulses at counter 0. -/
def execTransmitFrameBoundary (augs : List (List (List Byte))) (s : State) : Host.Outcome State Fault Refusal :=
  .next (let n := (s.fld TWN_SYNC_STAT TWN_SYNC_STAT_FRAME + 1) % 48
  let s := if s.running 20 then
      ((s.setFld TWN_SYNC_STAT TWN_SYNC_STAT_FRAME n).setTw { s.tw with
        super := if n = 0 then (s.tw.super + 1) % 65536 else s.tw.super, boundary := s.now }).sendPulse n
    else s
  let s := s.each (List.range 8) (fun s n => s.buildFrame n (augs.getD (s.txPort n) []))
  if s.running 20 ∧ n = 0 ∧ (!s.flag FAC_FRAME_CFG FAC_FRAME_CFG_MATCH_EN || decide (s.tw.super = s.fld FAC_FRAME_CFG FAC_FRAME_CFG_SF)) then
    s.facPulseAll 4
  else s)

/-! ### Switchover (R259, R277, R278) -/

/-- TWIN_SD_CONDITION (R259): a difference against the twin has lasted 10 ms, or has ended. -/
def execTwinSdCondition (on : Bool) (s : State) : Host.Outcome State Fault Refusal :=
  .next (if s.linkRuns then (s.setTw { s.tw with sd := on }).roleEval else s)

/-- TWIN_SF (R278): with SF against itself the twin's claim falls, and a HEARTBEAT carrying SF goes out at once. -/
def execTwinSf (s : State) : Host.Outcome State Fault Refusal :=
  .next (let s := s.roleEval
  if s.paired && !s.sp.dormant && s.selfSf then (s.driveClaim false).sendHeartbeat else s)

/-- HANDOVER (R277): the Standby twin takes note of F where the direction names it; event 0x43E. -/
def execHandover (m : MsgHead) (frame : BitVec 22) (toJunior : Bool) (s : State) : Host.Outcome State Fault Refusal :=
  .next (s.received 2 m false fun s =>
    if s.role = roStandby ∧ s.senior = !toJunior ∧ !s.twn TWN_STAT_MISMATCH then
      (s.setTw { s.tw with handover := some frame.toNat }).raise 20 0x43E [w32 frame.toNat]
    else s)

/-- The frame number F of R277: the first boundary with frame counter 0 at least 1 ms away. -/
def State.targetFrame (s : State) : Nat :=
  let k := 48 - s.fld TWN_SYNC_STAT TWN_SYNC_STAT_FRAME
  let away := 125000 * k - (s.now - s.tw.boundary)
  (s.tw.super + (if 1000000 ≤ away then 1 else 2)) % 65536

/-- COMMANDED_SWITCH (R269, R277 step 1): the Active twin schedules F and sends HANDOVER, with event 0x43E, once stream 2 takes a message. -/
def execCommandedSwitch (s : State) : Host.Outcome State Fault Refusal :=
  .next (let order := s.fld TWN_STAT TWN_STAT_EQ_REQ
  if s.linkRuns && decide (s.role = roActive) && s.twn TWN_STAT_HITLESS && !s.twn TWN_STAT_MISMATCH && s.tw.handover.isNone && s.stream2Open
      && (s.twn TWN_STAT_EQ_SEL == s.senior) && (decide (order = 2) || decide (order = 7) || decide (order = 8) || decide (order = 10)) then
    let f := s.targetFrame
    let s := s.setTw { s.tw with handover := some f }
    (s.sendMsg 2 (.handover (BitVec.ofNat 22 f) s.senior)).raise 20 0x43E [w32 f]
  else s)

/-- HANDOVER_CLAIM_TIME (R277 step 2): X lowers its claim once class C has nothing outstanding, Y raises its own. -/
def execHandoverClaimTime (s : State) : Host.Outcome State Fault Refusal :=
  .next (if s.tw.handover.isNone || !s.linkRuns then s
  else if s.role = roActive then
    if s.tw.unacked = [] ∧ s.mirrorQ = [] then s.driveClaim false else s
  else if s.role = roStandby then s.driveClaim true
  else s)

/-- HANDOVER_FRAME (R277 steps 5 and 6): the packet ports swap their discard, which follows the role, and the roles change; events 0x420
and 0x42C. -/
def execHandoverFrame (s : State) : Host.Outcome State Fault Refusal :=
  .next (let claim := s.flag SUP_SAFETY_STAT SUP_SAFETY_STAT_CLAIM_OUT
  if s.tw.handover.isNone || !s.linkRuns then s
  else if s.role = roActive ∧ !claim then
    ((s.setTw { s.tw with handover := none }).roleTo roStandby).switchDone 0
  else if s.role = roStandby ∧ claim then
    ((s.setTw { s.tw with handover := none }).roleTo roActive).switchDone 0
  else s)

/-! ### Claims and silence (R279 to R281) -/

/-- A claim without contact: Active, SOLO and event 0x432 with its rule, 0 silent twin and 1 START_WAIT. -/
def State.soloClaim (s : State) (solo : Bool) (why : Nat) : State :=
  if s.role = roActive then s.setFlag TWN_STAT TWN_STAT_SOLO (solo || s.twn TWN_STAT_SOLO)
  else
    let s := (s.roleTo roActive).setFlag TWN_STAT TWN_STAT_SOLO solo
    s.raise 20 0x432 [w32 why]

/-- The pair's claim rules act: paired, TW running, traffic carried and no SF against itself. -/
def State.mayClaim (s : State) : Bool := s.running 20 && s.paired && s.live && !s.selfSf

/-- CLAIM_IN has been low since moment `t`. -/
def State.claimLowSince (s : State) (t : Nat) : Bool :=
  !s.flag SUP_SAFETY_STAT SUP_SAFETY_STAT_CLAIM_IN && decide (s.tw.claimFell ≤ t)

/-- SAME_INSTANT_CLAIM (R281): the junior backs off with event 0x433; the senior keeps its claim. -/
def execSameInstantClaim (s : State) : Host.Outcome State Fault Refusal :=
  .next (if s.running 20 && s.paired && !s.senior && decide (s.role = roActive) && s.flag SUP_SAFETY_STAT SUP_SAFETY_STAT_CLAIM_IN
      && s.flag SUP_SAFETY_STAT SUP_SAFETY_STAT_CLAIM_OUT then
    (s.roleTo roStandby).raise 20 0x433 [s.reg TWN_STAT]
  else s)

/-- JUNIOR_YIELD (R279): S + 100 µs. -/
def execJuniorYield (s : State) : Host.Outcome State Fault Refusal :=
  .next (if s.running 20 && s.paired && !s.senior && s.twn TWN_STAT_SILENT && decide (s.role = roActive) then s.roleTo roStandby else s)

/-- SENIOR_SOLO_CLAIM (R279): S + 1 ms. -/
def execSeniorSoloClaim (s : State) : Host.Outcome State Fault Refusal :=
  .next (if s.mayClaim && s.senior && s.twn TWN_STAT_SILENT then s.soloClaim true 0 else s)

/-- JUNIOR_SOLO_CLAIM (R279): S + 2 ms, with CLAIM_IN low throughout. -/
def execJuniorSoloClaim (s : State) : Host.Outcome State Fault Refusal :=
  .next (if s.mayClaim && !s.senior && s.twn TWN_STAT_SILENT && s.claimLowSince s.tw.silentAt then s.soloClaim true 0 else s)

/-- START_WAIT_EXPIRY (R280, R287): an Observer that has not heard its twin since Serving entry claims; in a mismatched pair the senior does
and the junior stays. -/
def execStartWaitExpiry (s : State) : Host.Outcome State Fault Refusal :=
  .next (let mis := s.twn TWN_STAT_MISMATCH
  if s.mayClaim && decide (s.role = roObserver) && (!s.tw.known || mis)
      && (s.senior || (!mis && s.claimLowSince s.tw.servedAt)) then s.soloClaim (!mis) 1 else s)

/-! ### Equipment commands (R258, R289) -/

/-- RESULT of a TWN_CMD command: refused as invalid or unpaired, refused for want of HITLESS, cleared, refused below a standing command of
either twin, or in force. -/
def State.twnResult (s : State) (cmd : Nat) : Nat :=
  if 4 < cmd ∨ s.paired = false then 0x04
  else if cmd = 0 then 0x02
  else if 3 ≤ cmd ∧ s.twn TWN_STAT_HITLESS = false then 0x05
  else if twnOrder s.twnStanding < twnOrder cmd
      ∨ s.twinOrders.any (fun o => decide (o < twnOrder cmd) && [1, 2, 7, 8].contains o) then 0x03
  else 0x01

/-- A write to TWN_CMD (R289, R351): a repeated token has no effect, a refused command changes only RESULT; event 0x42D. -/
def State.twnCommand (s : State) (cmd token : Nat) : State :=
  if s.tokenIs TWN_CMD TWN_CMD_TOKEN token then s
  else
    let r := s.twnResult cmd
    if 0x03 ≤ r then
      let s := s.setFld TWN_CMD TWN_CMD_RESULT r
      s.raise 20 0x42D [s.reg TWN_CMD]
    else
      let v := token + 256 * cmd
      let s := s.setReg TWN_CMD (w32 (v + 65536 * r))
      ((s.raise 20 0x42D [s.reg TWN_CMD]).mirror TWN_CMD 0xFFFF (w32 v)).roleEval

/-- The same by a writer. -/
def State.twnWrite (s : State) (w : Writer) (cmd token : Nat) : State :=
  s.commandWrite w true true 20 TWN_CMD (fun s => s.twnCommand cmd token)

/-- EQUIPMENT_WTR_EXPIRY (R287): event 0x43D. -/
def execEquipmentWtrExpiry (s : State) : Host.Outcome State Fault Refusal :=
  .next (if s.running 20 && s.twn TWN_STAT_WTR then
    ((s.setFlag TWN_STAT TWN_STAT_WTR false).raise 20 0x43D [s.reg TWN_STAT]).roleEval
  else s)

end Sys2Proof.Machine
end

