-- ==== Sys2Proof/Machine/Unlock.lean ====
section
/-! DEFINITION. The unlock sequence of the management bridge (R350). -/

namespace Sys2Proof.Machine

/-- The bridge's lock state, replaced: 0 locked, 1 first word received, 2 unlocked, 3 barred. -/
def State.setUnlock (s : State) (st : Nat) : State := s.setFld EVT_MGMT_UNLOCK EVT_MGMT_UNLOCK_STATE st

/-- The bridge's lock state. -/
def State.unlockState (s : State) : Nat := s.fld EVT_MGMT_UNLOCK EVT_MGMT_UNLOCK_STATE

/-- Failed sequences of the last 60 s. -/
def State.recentFailures (s : State) : List Nat := s.mg.failures.filter (fun t => decide (s.now - t < 60000000000))

/-- A failed sequence: counted, event 0x47A, and the eighth within 60 s bars unlocking. -/
def State.unlockFails (s : State) : State :=
  let l := s.recentFailures ++ [s.now]
  (({ s with mg := { s.mg with failures := l } }).setUnlock (if 8 ≤ l.length then 3 else 0)).raise islEH 0x47A

/-- An unlock word written through the bridge. -/
def State.unlockWord (s : State) (v : Word) : State :=
  match s.unlockState with
  | 0 => if v = 0xA55A then s.setUnlock 1 else if v = 0 then s else s.unlockFails
  | 1 => if v = 0x5AA5 then (s.setUnlock 2).raise islEH 0x478 else if v = 0 then s.setUnlock 0 else s.unlockFails
  | 2 => if v = 0 then s.lockBridge 0 else s
  | _ => s

end Sys2Proof.Machine
end

