-- ==== Sys2Proof/Machine/Bus.lean ====
section
/-! DEFINITION. What an access does at its target: the value a read returns and its side effects, the rights a write is judged by and what a
permitted write changes (R3 to R6, R61, R87, R97 to R99, R298, R346, R407 to R417). -/

namespace Sys2Proof.Machine

/-! ### Reading (R346) -/

/-- The moment up to which island `i` shows time: now, or when it stopped (R413). -/
def State.nowAt (s : State) (i : Nat) : Nat := if s.running i then s.now else (tget s.itc ⟨0, 0⟩ i).since

/-- Firings in the window of `lvl` at `source` as it stands (R45). -/
def State.inWindow (s : State) (lvl source span : Nat) : Nat :=
  let w := tget s.wins ⟨0, 0⟩ (winKey lvl source)
  if s.now - w.last < span then w.count else 0

/-- Whole seconds, begun ones included, from moment `t` of island `i` to `e`. -/
def State.secondsTo (s : State) (i e : Nat) : Nat := (e - s.nowAt i + 999999999) / 1000000000

/-- STATE of a live entry (R115) as seen between two commands: 4 draining for an orphan, 0 awaiting grant while an entry granted before it at
its target has beats to perform, 1 address sent while it has performed none, 2 data moving while it has some left, 3 awaiting response after the
last (DEDUCED, log entry 20). -/
def State.txnState (s : State) (t : Txn) : Nat :=
  if t.orphan then 4
  else if s.mtx.txns.any (fun p => decide (p.2.target = t.target ∧ p.2.tag < t.tag ∧ p.2.codes.length < p.2.req.beats)) then 0
  else if t.codes = [] then 1
  else if t.codes.length < t.req.beats then 2
  else 3

/-- Word 0 of a live in-flight entry (R115). -/
def State.txnWord (s : State) (k : Nat) : Word :=
  match s.mtx.txns.find? (fun p => p.1 = k) with
  | none => 0
  | some (_, t) =>
    let st := s.txnState t
    let age := min 2047 ((s.now - t.accepted) * 333 / 64000)
    w32 (1 + 2 * t.req.port + 16 * t.req.id + 256 * t.target + 2048 * bit t.req.write + 4096 * (t.req.beats - t.answered)
      + 131072 * st + 1048576 * bit t.orphan + 2097152 * age)

/-- The tasks that are Ready. -/
def State.readyTasks (s : State) : List Nat := (List.range 256).filter (fun t => decide (s.taskState t = tkReady))

/-- What SUP, MTX and EVT words show beside what they hold. -/
def State.lookCore (s : State) (a : Nat) : Word :=
  let v := s.reg a
  match slotOf a (SUP_L5_STAT 0) 4 24, slotOf a (MTX_GATE_STAT 0) 4 61, slotOf a (MTX_TXN 0 0) 8 98, slotOf a (MTX_ITC 0 0) 8 24 with
  | some i, _, _, _ => SUP_L5_STAT_FIRE_WIN.put v (min 3 (s.inWindow 5 i 10000000000))
  | _, some g, _, _ => MTX_GATE_STAT_FIRE_WIN.put v (min 16 (s.inWindow 1 g 1000000000))
  | _, _, some k, _ => s.txnWord k
  | _, _, _, some i => w32 (s.itcOf i)
  | _, _, _, _ =>
    if a = EVT_MGMT_UNLOCK then EVT_MGMT_UNLOCK_UNLOCK_FAIL.put v s.recentFailures.length
    else if a = EVT_LEDGER_NEXT 0 then w32 s.eh.nextAcc
    else v

/-- What IDX, TRIB, LEND, TIM, TWN, APS and SVC words show beside what they hold. -/
def State.lookRest (s : State) (a : Nat) : Word :=
  let v := s.reg a
  match slotOf a (IDX_STATUS 0) 4 4096, slotOf a (TRIB_TPL_ROM 0 0) 4 1024, slotOf a (LEND_DESC2 0) 16 4096,
      slotOf a (TIM_REF_STAT 0) 16 16, slotOf a (APS_WTR 0) 64 4, slotOf a (SVC_PAIR_STAT 0) 4 2 with
  | some e, _, _, _, _, _ =>
    let t := tget s.wtrs 0 e
    if t = 0 then v else IDX_STATUS_WTR_LEFT.put v ((s.secondsTo islPX (t - 1) + 9) / 10)
  | _, some j, _, _, _, _ => romTemplateWord (j / 128) (j % 128)
  | _, _, some d, _, _, _ =>
    match s.lend.descs.find? (fun p => p.1 = d) with
    | some p => LEND_DESC2_AGE.put v (min 65535 ((s.nowAt islFM - p.2.since) / 1000))
    | none => v
  | _, _, _, some i, _, _ =>
    if TIM_REF_STAT_STATE.get v = rfWait then TIM_REF_STAT_WAIT.put v (s.secondsTo islTM (s.ref i).waitEnd) else v
  | _, _, _, _, some g, _ =>
    match (s.grp g).wtr with
    | some p => w32 (s.secondsTo islPX p.2)
    | none => v
  | _, _, _, _, _, some q => SVC_PAIR_STAT_MISMATCH_WIN.put v (min 3 (s.inWindow 9 q 10000000000))
  | _, _, _, _, _, _ =>
    if a = TIM_TOD 0 then w32 (s.ptpTime / 1000000000)
    else if a = TWN_STAT then if s.twn TWN_STAT_WTR then TWN_STAT_WTR_LEFT.put v (s.secondsTo islTW s.tw.wtrEnd) else v
    else if a = SVC_SCHED_STAT then
      let l := s.readyTasks
      let best := l.foldl (fun b t => min b (s.taskPrio t)) 15
      SVC_SCHED_STAT_READY.put (SVC_SCHED_STAT_PRIO.put v (if l = [] then 0 else best)) l.length
    else v

/-- The word of the register target that a read at `a` returns. -/
def State.look (s : State) (a : Nat) : Word := if a < 0x40040000 then s.lookCore a else s.lookRest a

/-- The side effect of reading register word `a` through `port` (R346). -/
def State.latch (s : State) (port a : Nat) : State :=
  if !s.running (s.regIsl a) then s
  else match slotOf a (MTX_TXN 0 0) 8 98, slotOf a (MTX_ITC 0 0) 8 24 with
  | some k, _ =>
    s.setReg (MTX_TXN k 1) (match s.mtx.txns.find? (fun p => p.1 = k) with
      | some p => p.2.req.addr
      | none => 0)
  | _, some i => (s.setReg (MTX_ITC i 0) (w32 (s.itcOf i))).setReg (MTX_ITC i 1) (w32 (s.itcOf i / 2 ^ 32))
  | _, _ =>
    if a = TIM_TOD 0 then s.latchTod
    else if a = EVT_LEDGER_NEXT 0 then s.latchNext
    else if a = TIM_HO_SAMPLE 1 ∧ port ≠ 7 then s.popSample
    else s

/-- The NVM window is open (R87). -/
def State.windowOpen (s : State) : Bool := s.flag NVM_STAT NVM_STAT_WINDOW

/-- The response to a read at `a` of target `tgt` (R61, R87, R346, R408). -/
def State.readCode (s : State) (tgt a : Nat) : Nat :=
  let up (i : Nat) : Nat := if s.readable i then rOkay else rOffline
  match tgt with
  | 0 => if a % 0x80000 < 0x8000 then rOkay else rDecode
  | 1 => rOkay
  | 2 | 3 | 4 => up (s.targetIsl tgt a)
  | 5 => if (regRow a).isNone then rDecode else up (s.regIsl a)
  | 6 => if s.windowOpen then up islLD else rDecode
  | _ => rDecode

/-- The NOR's contents are not part of the model: a read through the open window returns free bytes (DESIGN CHOICE, log entry 5). -/
def State.norBytes (s : State) (n : Nat) : List Byte := (leBytes 4 s.freeWord.toNat ++ leBytes 4 s.useFree.freeWord.toNat).take n

/-- `n` bytes, at most 8, at address `a` of target `tgt`. -/
def State.readBytes (s : State) (tgt a n : Nat) : List Byte :=
  match tgt with
  | 0 => (List.range n).map (fun i => Config.bootRom (a % 0x80000 + i))
  | 1 => s.bytes (sramBase + a % 0x80000) n
  | 5 => (leBytes 4 (s.look a).toNat).take n
  | 6 => s.norBytes n
  | _ => s.bytes a n

/-- What a read leaves behind. -/
def State.afterRead (s : State) (port tgt a : Nat) : State :=
  if tgt = 5 then s.latch port a else if tgt = 6 then s.useFree.useFree else s

/-- An access to the closed NVM window raises event 0x045 (R87, R418). -/
def State.noteWindow (s : State) (tgt : Nat) : State := if tgt = 6 ∧ !s.windowOpen then s.raise islMX 0x045 else s

/-- A read of `n` bytes at `a` through `port`: the response stands in `mtx.resp`, and the bytes are all 0 where it is an error. An access that is
not aligned to its size fits no beat of R98 and is MALFORMED. -/
def State.readAt (s : State) (port a n : Nat) : State × List Byte :=
  let tgt := s.target a
  let s := s.noteWindow tgt
  let code := if a % n ≠ 0 ∨ (tgt = 5 ∧ n ≠ 4) then rMalformed else s.readCode tgt a
  if code = rOkay then ((s.afterRead port tgt a).respond rOkay, s.readBytes tgt a n) else (s.respond code, List.replicate n 0)

/-! ### Writing registers (R3 to R6, R407, R410, R416) -/

/-- A permitted write that changes the register alone: X clears where 1 is written, and a service's write to an IS register is mirrored. -/
def State.plainWrite (s : State) (w : Writer) (r : RegRow) (a : Nat) (v : Word) : State :=
  let m := r.writable
  if r.ty = .x then s.setReg a (s.reg a &&& ~~~(v &&& m))
  else match w, r.ty with
  | .service _, .is => s.serviceWrite a m v
  | _, _ => s.setReg a ((s.reg a &&& ~~~m) ||| (v &&& m))

/-- A service's new expected signal label is judged at once, unless the path has AIS, LOP or SSF (R152, R154, R155). -/
def State.pathSettings (s : State) (p : PathId) : State :=
  let s := if (s.path p).labelAcc && !s.pathDown p then s.judgeLabel p (s.fld (pathStatAddr p) PATH_HO1_C2_RX) else s
  (s.pathActions p).updateTribs

/-- Whether a write to K1/K2 lands in the K-byte slot of a frame is a matter of time that an access does not carry: a free bit decides
(DESIGN CHOICE, log entry 5). -/
def State.kTxFree (s : State) (n : Nat) (v : Word) : State := (s.kTxWrite n (v &&& 0xFFFF) (s.freeWord.getLsbD 0)).useFree

/-- A permitted write to LINE[n] at block offset `o`. -/
def State.lineWrite (s : State) (w : Writer) (r : RegRow) (n o a : Nat) (v : Word) : State :=
  match o with
  | 0x000 => s.lineEnWrite n (v.getLsbD 0)
  | 0x024 => s.alsCommand n (LINE_ALS_CMD_CMD.get v) (LINE_ALS_CMD_TOKEN.get v)
  | 0x108 => s.kTxFree n v
  | 0x160 => (s.plainWrite w r a v).lineActions n
  | _ => s.plainWrite w r a v

/-- A permitted write to SUP, MTX, EVT, INV or CHK. -/
def State.writeHub (s : State) (w : Writer) (r : RegRow) (a : Nat) (v : Word) : State :=
  if a = SUP_L7_KICK then s.kick true (SUP_L7_KICK_KICK.get v) (SUP_L7_KICK_TOKEN.get v)
  else if a = MTX_FENCE then s.fenceWrite (MTX_FENCE_TOKEN.get v) (MTX_FENCE_GO.get v = 1)
  else if a = INV_SNAPSHOT then s.snapshotWrite (INV_SNAPSHOT_TOKEN.get v) (INV_SNAPSHOT_GO.get v = 1)
  else match slotOf a (EVT_EVENT_CFG 0) 4 1152, slotOf a (EVT_PEND 0) 4 36, slotOf a (CHK_ENTRY0 0) 4 256 with
  | some e, _, _ => s.eventCfgWrite e v
  | _, some k, _ => s.clearPending k v
  | _, _, some j => s.checkWrite w (j / 8) (j % 8) v
  | _, _, _ => s.plainWrite w r a v

/-- A permitted write to PATH, IDX or APS. -/
def State.writePath (s : State) (w : Writer) (r : RegRow) (a : Nat) (v : Word) : State :=
  match slotOf a (IDX_ENTRY_A 0) 4 16384, slotOf a (APS_CMD 0) 64 4, slotOf a (PATH_HO0 0) 16 192, slotOf a (PATH_LO0 0) 16 5376 with
  | some j, _, _, _ => (s.indexWrite (j / 4) (j % 4) v).updateTribs
  | _, some g, _, _ => s.apsCommand g (APS_CMD_CMD.get v) (APS_CMD_CHAN.get v) (APS_CMD_TOKEN.get v)
  | _, _, some h, _ => (s.plainWrite w r a v).pathSettings (.ho (Fin.ofNat 192 h))
  | _, _, _, some l => (s.plainWrite w r a v).pathSettings (.lo (Fin.ofNat 5376 l))
  | _, _, _, _ => s.plainWrite w r a v

/-- A permitted write to TRIB or PW. -/
def State.writeTraffic (s : State) (w : Writer) (r : RegRow) (a : Nat) (v : Word) : State :=
  match slotOf a (TRIB_CFG 0) 64 64, slotOf a (TRIB_MAINT 0) 64 64, slotOf a (TRIB_TPL_ROM 0 0) 4 2048, slotOf a (PW_CFG 0) 4 8192,
      slotOf a (PW_PROF0 0) 4 2048 with
  | some p, _, _, _, _ => s.tribEnWrite p (v.getLsbD 0)
  | _, some p, _, _, _ => s.maintWrite p v
  | _, _, some j, _, _ => s.templateWrite w (j / 128) (j % 128) v
  | _, _, _, some j, _ => s.flowWrite (j / 8) (j % 8) v
  | _, _, _, _, some j => s.profWrite (j / 16) (j % 16) v
  | _, _, _, _, _ => s.plainWrite w r a v

/-- A permitted write to TIM, TWN or SVC. -/
def State.writeTiming (s : State) (w : Writer) (r : RegRow) (a : Nat) (v : Word) : State :=
  if a = TIM_SEL_CMD then
    s.selMirrored (TIM_SEL_CMD_DPLL.get v) (TIM_SEL_CMD_CMD.get v) (TIM_SEL_CMD_REF.get v) (TIM_SEL_CMD_TOKEN.get v)
  else if a = TIM_HO_CMD then s.hoCommand (TIM_HO_CMD_CMD.get v) (TIM_HO_CMD_TOKEN.get v)
  else if a = TWN_CMD then s.twnCommand (TWN_CMD_CMD.get v) (TWN_CMD_TOKEN.get v)
  else if a = SVC_TASK_CMD then s.taskCommand (SVC_TASK_CMD_CMD.get v) (SVC_TASK_CMD_TASK.get v) (SVC_TASK_CMD_TOKEN.get v) false
  else match slotOf a (TIM_REF_QL 0) 16 16, slotOf a (TIM_PTP_PHASE 0) 4 2, slotOf a (TIM_ESMC_TX 0) 4 2 with
  | some i, _, _ => s.refQlWrite i v
  | _, some p, _ => s.phaseWrite p v
  | _, _, some p => s.esmcTxWrite p v
  | _, _, _ => s.plainWrite w r a v

/-- A permitted write to FAC. -/
def State.writeFac (s : State) (w : Writer) (r : RegRow) (a : Nat) (v : Word) : State :=
  if a = FAC_SYNC then s.facSyncWrite (FAC_SYNC_TOKEN.get v) (FAC_SYNC_GO.get v = 1)
  else match slotOf a (FAC_CFG 0) 0x100 8, slotOf a (FAC_CMD 0) 0x100 8, slotOf a (FAC_STREAM 0) 0x100 8, slotOf a (FAC_PATTERN 0) 4 65536 with
  | some n, _, _, _ => s.facCfgWrite n v
  | _, some n, _, _ => s.facCommand n (FAC_CMD_CMD.get v) (FAC_CMD_ARG.get v) (FAC_CMD_TOKEN.get v)
  | _, _, some n, _ => s.facStreamWrite n (FAC_STREAM_TOKEN.get v) (FAC_STREAM_COUNT.get v)
  | _, _, _, some i => s.patternWrite w i v
  | _, _, _, _ => s.plainWrite w r a v

/-- What a permitted write to register word `a` does; it may still be refused for the state it meets. -/
def State.regEffect (s : State) (w : Writer) (r : RegRow) (a : Nat) (v : Word) : State :=
  if a < 0x40100000 then s.writeHub w r a v
  else if a < 0x40180000 then s.lineWrite w r ((a - 0x40100000) / 0x10000) (a % 0x10000) a v
  else if a < 0x40300000 ∨ (0x40640000 ≤ a ∧ a < 0x40650000) then s.writePath w r a v
  else if a < 0x40440000 then s.writeTraffic w r a v
  else if a < 0x40800000 then s.writeTiming w r a v
  else s.writeFac w r a v

/-- Who writes through a port (R94, R272, R410): the cores and the mirror engine as services, the bridge as maintenance, none otherwise. -/
def portWriter (port : Nat) : Option Writer :=
  if port < 4 then some (.service (Fin.ofNat 2 (port / 2)))
  else if port = 5 then some (.service 0)
  else if port = 7 then some .maintenance
  else none

/-- The row grants the writer its right in the state that stands. -/
def State.permits (s : State) (r : RegRow) (w : Writer) : Bool :=
  match w with
  | .service _ => r.svc
  | .maintenance => r.mnt && s.maintained

/-- A word of the folio map or the descriptor table, which the Lending Desk's own port writes (R96). -/
def deskWord (a : Nat) : Bool := decide (0x40450000 ≤ a ∧ a < 0x40470000)

/-- A write of `v` to register word `a` through `port`; the response stands in `mtx.resp`. -/
def State.regWrite (s : State) (port a : Nat) (v : Word) : State :=
  let s := s.respond rOkay
  match regRow a with
  | none => s.respond rDecode
  | some r =>
    if !s.running (s.regIsl a) then s.respond rOffline
    else if r.fields = [] then s
    else if a = EVT_MGMT_UNLOCK then if port = 7 then s.unlockWord v else s.respond rRefused
    else if port = 4 then if deskWord a then s.setReg a v else s.respond rRefused
    else match portWriter port with
    | none => s.respond rRefused
    | some w =>
      if s.permits r w then s.regEffect w r a v
      else if (slotOf a (TRIB_TPL_ROM 0 0) 4 2048).isSome then s.templateRefused ((a - TRIB_TPL_ROM 0 0) / 512)
      else s.respond rRefused

/-! ### Writing memory (R298, R417) -/

/-- The module is in Armed, Serving or Limp. -/
def State.armed (s : State) : Bool := s.inState [stArmed, stServing, stLimp]

/-- The first byte of working SRAM that the cores may write. -/
def State.codeTop (s : State) : Nat := 4096 * s.fld SVC_MEM_CFG SVC_MEM_CFG_CODE_TOP

/-- The response to a write at `a` of a memory target. -/
def State.memCode (s : State) (port tgt a : Nat) : Nat :=
  let up (i : Nat) (ok : Bool) : Nat := if !s.running i then rOffline else if ok then rOkay else rRefused
  let loads := decide (port = 6) && s.inState [stLoading, stChecking]
  match tgt with
  | 0 => if a % 0x80000 < 0x8000 then rRefused else rDecode
  | 1 => if loads || (decide (port < 4) && s.armed && decide (s.codeTop ≤ a % 0x80000)) then rOkay else rRefused
  | 2 => up islFM loads
  | 3 =>
    let base := modelBase (1 - s.activeCopy)
    up islRT (decide (port < 4) && s.armed && s.sp.rtOpen && decide (base ≤ a ∧ a < base + 0x4000))
  | 4 => up islEH (decide (port = 6) && s.flag MTX_REMAP MTX_REMAP_SWAP)
  | 6 => if s.windowOpen then up islLD (decide (port = 6)) else rDecode
  | _ => rDecode

/-- A core's write to the code region (R298): counted, with event 0x44E. -/
def State.noteCode (s : State) (port tgt a : Nat) : State :=
  if port < 4 ∧ tgt = 1 ∧ s.armed ∧ a % 0x80000 < s.codeTop then (s.count SVC_CODE_WR_CNT).raise (islSV (port / 2)) 0x44E [w32 a] else s

/-- The bytes whose strobe is set, stored from address `a` on. -/
def State.storeBytes (s : State) : Nat → List (Option Byte) → State
  | _, [] => s
  | a, none :: l => s.storeBytes (a + 1) l
  | a, some b :: l => (s.setByte a b).storeBytes (a + 1) l

/-- A write of bytes at `a` through `port`, one entry for each byte and none where its strobe is 0; the response stands in `mtx.resp`. -/
def State.writeAt (s : State) (port a : Nat) (bs : List (Option Byte)) : State :=
  let tgt := s.target a
  if tgt = 5 then
    let l := bs.filterMap id
    if bs.length = 4 ∧ l.length = 4 ∧ a % 4 = 0 then s.regWrite port a (w32 (leNat l)) else s.respond rMalformed
  else
    let s := (s.noteWindow tgt).noteCode port tgt a
    let code := if a % bs.length ≠ 0 then rMalformed else s.memCode port tgt a
    let s := s.respond code
    if code ≠ rOkay ∨ tgt = 6 then s
    else s.storeBytes (if tgt = 1 then sramBase + a % 0x80000 else a) bs

/-! ### Transactions still to take effect (R101) -/

/-- Beat `j` of a request: its address and, for a write, its bytes by strobe. A register access carries its word in the lanes its strobes
name (R98). -/
def beatBytes (r : Req) (reg : Bool) (j : Nat) : List (Option Byte) :=
  let st := (r.strobes.getD j 0).toNat
  let l := (List.range 8).map (fun i => if st.testBit i then some (BitVec.ofNat 8 ((r.data.getD j 0).toNat / 256 ^ i)) else none)
  if reg then (if st = 0xF0 then l.drop 4 else l.take 4) else l

/-- The next beat of a transaction takes effect at its target. A write beat without strobes changes nothing. -/
def State.performBeat (s : State) (t : Txn) : State × Txn :=
  let j := t.codes.length
  let a := t.req.addr.toNat + 8 * j
  if t.req.write then
    let bs := beatBytes t.req (decide (t.target = 5)) j
    let s := if bs.all Option.isNone then s.respond rOkay else s.writeAt t.req.port a bs
    (s, { t with codes := t.codes ++ [s.mtx.resp], rdata := t.rdata ++ [0] })
  else
    let n := if t.target = 5 then 4 else 8
    let r := s.readAt t.req.port a n
    let v := leNat r.2 * 256 ^ (if t.target = 5 then a % 8 else 0)
    (r.1, { t with codes := t.codes ++ [r.1.mtx.resp], rdata := t.rdata ++ [BitVec.ofNat 64 v] })

/-- Its next `n` beats. -/
def State.performBeats (s : State) (t : Txn) : Nat → State × Txn
  | 0 => (s, t)
  | n + 1 =>
    let r := s.performBeat t
    r.1.performBeats r.2 n

/-- Every beat of entry `k` that has not yet taken effect does so. -/
def State.perform (s : State) (k : Nat) : State :=
  match s.mtx.txns.find? (fun p => p.1 = k) with
  | none => s
  | some (_, t) =>
    if t.codes.length < t.req.beats then
      let r := s.performBeats t (t.req.beats - t.codes.length)
      r.1.setTxn k r.2
    else s

/-- Entry `x` put in its place among entries in grant order. -/
def insertTag (x : Nat × Txn) : Tbl Txn → Tbl Txn
  | [] => [x]
  | y :: l => if x.2.tag ≤ y.2.tag then x :: y :: l else y :: insertTag x l

/-- Entries of a target granted before tag `tag`, in grant order. -/
def State.granted (s : State) (tgt tag : Nat) : List Nat :=
  let l := s.mtx.txns.filter (fun p => decide (p.2.target = tgt ∧ p.2.tag < tag))
  (l.foldr insertTag []).map (fun p => p.1)

/-- A write that received TIMEOUT is decided: the target carries it out, or it never will. The spec leaves that open, and a free bit tells
(R99, log entry 5). -/
def State.decideOne (s : State) (t : Txn) : State :=
  let s := s.setMtx { s.mtx with lateWrites := s.mtx.lateWrites.erase t }
  if s.freeWord.getLsbD 0 then (s.useFree.performBeats t (t.req.beats - t.codes.length)).1 else s.useFree

/-- The writes of that kind for which `p` holds are decided, oldest first. -/
def State.decideLate (s : State) (p : Txn → Bool) : State := s.each (s.mtx.lateWrites.filter p) State.decideOne

/-- The transactions granted earlier at a target take effect before one that follows (R101), those that received TIMEOUT among them (R99). -/
def State.settle (s : State) (tgt tag : Nat) : State :=
  (s.decideLate (fun t => decide (t.target = tgt ∧ t.tag < tag))).each (s.granted tgt tag) State.perform

/-- An access at `a` through `port` is granted after all that was granted before it at its target, whose pointer moves past the port (R94,
R101). -/
def State.grant (s : State) (port a : Nat) : State := (s.settle (s.target a) s.mtx.nextTag).movePointer (s.target a) port

/-- A read through `port` with ID `id`; an error response is recorded. With MX in reset the port's gate answers OFFLINE (R92). -/
def State.busRead (s : State) (port id a n : Nat) : State × List Byte :=
  if !s.running islMX then ((s.respond rOffline).logAccess port id false a, List.replicate n 0)
  else
    let r := (s.grant port a).readAt port a n
    (r.1.logAccess port id false a, r.2)

/-- A write through `port` with ID `id`, likewise. -/
def State.busWrite (s : State) (port id a : Nat) (bs : List (Option Byte)) : State :=
  if !s.running islMX then (s.respond rOffline).logAccess port id true a
  else ((s.grant port a).writeAt port a bs).logAccess port id true a

/-- A word as four bytes to be written. -/
def wordBytes (v : Word) : List (Option Byte) := (leBytes 4 v.toNat).map some

/-- A maintenance write (R350): refused in the bridge while it is locked, but for an unlock word. -/
def State.bridgeWrite (s : State) (a : Nat) (v : Word) : State :=
  if !s.unlocked && decide (a ≠ EVT_MGMT_UNLOCK) then s.bridgeError a rRefused true else s.busWrite 7 0 a (wordBytes v)

/-- REGISTER_WRITE (R3, R4, R6, R410, R413): judged against the register's type and write rights. -/
def execRegisterWrite (w : Writer) (addr value : Word) (s : State) : Host.Outcome State Fault Refusal :=
  .next (match w with
  | .service q => if s.serviceMay q then s.busWrite (2 * q) 5 addr.toNat (wordBytes value) else s
  | .maintenance => if s.running islEH then s.bridgeWrite addr.toNat value else s)

end Sys2Proof.Machine
end

