-- ==== Sys2Proof/Machine/Commands.lean ====
section
/-! DEFINITION. The writes that stand as rows of their own. Each is granted as a write of a register is: what the register target was granted
before takes effect first (R101), then the writer's rights are judged and the command acts. -/

namespace Sys2Proof.Machine

/-- What the register target was granted before takes effect (R101); with MX in reset nothing reaches it. -/
def State.settleRegs (s : State) : State := if s.running islMX then s.settle 5 s.mtx.nextTag else s

/-- The same for a write by `w`, where it reaches the matrix at all: a pair that executes its program, or the bridge unlocked (R350). -/
def State.settleFor (s : State) (w : Writer) : State :=
  if (match w with
    | .service q => s.serviceMay q
    | .maintenance => s.running islEH && s.unlocked) then s.settleRegs else s

/-! ### Task commands (R325, R326) -/

/-- TASK_MAKE_READY (R325): CMD 1. -/
def execTaskMakeReady (t : Fin 256) (w : Writer) (token : Byte) (s : State) : Host.Outcome State Fault Refusal :=
  .next ((s.settleFor w).taskWrite w 1 t token.toNat false)

/-- TASK_CANCEL (R325, R326): CMD 2; `woken` tells that a wake for the task falls in the same cycle. -/
def execTaskCancel (t : Fin 256) (w : Writer) (token : Byte) (woken : Bool) (s : State) : Host.Outcome State Fault Refusal :=
  .next ((s.settleFor w).taskWrite w 2 t token.toNat woken)

/-- TASK_ENABLE (R325): CMD 3. -/
def execTaskEnable (t : Fin 256) (w : Writer) (token : Byte) (s : State) : Host.Outcome State Fault Refusal :=
  .next ((s.settleFor w).taskWrite w 3 t token.toNat false)

/-- TASK_DISABLE (R325): CMD 4. -/
def execTaskDisable (t : Fin 256) (w : Writer) (token : Byte) (woken : Bool) (s : State) : Host.Outcome State Fault Refusal :=
  .next ((s.settleFor w).taskWrite w 4 t token.toNat woken)

/-! ### The keeper (R44) -/

/-- L7_KICK (R44, R310, R410): a service write with KICK 0xA5 and a new token, from a pair whose lockstep comparison has passed, reloads
L7; a wrong code or an unchecked pair is refused, a repeated token reloads nothing. Maintenance may not write the register. -/
def execL7Kick (w : Writer) (checked : Bool) (kick token : Byte) (s : State) : Host.Outcome State Fault Refusal :=
  .next ((s.settleFor w).commandWrite w true false islSP SUP_L7_KICK (fun s => s.kick checked kick.toNat token.toNat))

/-! ### The global fence (R106) -/

/-- MTX_FENCE_GO (R111). -/
def execMtxFenceGo (w : Writer) (token : Byte) (go : Bool) (s : State) : Host.Outcome State Fault Refusal :=
  .next ((s.settleFor w).commandWrite w false true islMX MTX_FENCE (fun s => s.fenceWrite token.toNat go))

/-! ### The event hub (R329, R338, R344) -/

/-- EVT_PEND_CLEAR (R329, R410): a maintenance write of 1. -/
def execEvtPendClear (k : Fin 36) (w : Writer) (mask : Word) (s : State) : Host.Outcome State Fault Refusal :=
  .next ((s.settleFor w).commandWrite w false true islEH (EVT_PEND k) (fun s => s.clearPending k mask))

/-- INV_SNAPSHOT (R338). -/
def execInvSnapshot (w : Writer) (token : Byte) (go : Bool) (s : State) : Host.Outcome State Fault Refusal :=
  .next ((s.settleFor w).commandWrite w true true islEH INV_SNAPSHOT (fun s => s.snapshotWrite token.toNat go))

/-- CHECK_ENTRY_WRITE (R344). -/
def execCheckEntryWrite (u : Fin 32) (word : Fin 8) (w : Writer) (value : Word) (s : State) : Host.Outcome State Fault Refusal :=
  .next ((s.settleFor w).commandWrite w true true islEH (CHK_ENTRY0 u + 4 * word.val) (fun s => s.checkWrite w u word value))

/-! ### Line ports (R137 to R140, R131) -/

/-- ALS_MANUAL_RESTART (R140): CMD 1, a pulse of 2 s. -/
def execAlsManualRestart (n : Fin 8) (w : Writer) (token : Byte) (s : State) : Host.Outcome State Fault Refusal :=
  .next ((s.settleFor w).commandWrite w true true (islLP n) (LINE_ALS_CMD n) (fun s => s.alsCommand n 1 token.toNat))

/-- ALS_MANUAL_TEST (R140): CMD 2, a pulse of 90 s. -/
def execAlsManualTest (n : Fin 8) (w : Writer) (token : Byte) (s : State) : Host.Outcome State Fault Refusal :=
  .next ((s.settleFor w).commandWrite w true true (islLP n) (LINE_ALS_CMD n) (fun s => s.alsCommand n 2 token.toNat))

/-- LINE_ENABLE (R139, R410): a service write sets EN. -/
def execLineEnable (n : Fin 8) (w : Writer) (s : State) : Host.Outcome State Fault Refusal :=
  .next ((s.settleFor w).commandWrite w true false (islLP n) (LINE_CFG n) (fun s => s.lineEnWrite n true))

/-- LINE_DISABLE (R139, R410): a service write clears EN. -/
def execLineDisable (n : Fin 8) (w : Writer) (s : State) : Host.Outcome State Fault Refusal :=
  .next ((s.settleFor w).commandWrite w true false (islLP n) (LINE_CFG n) (fun s => s.lineEnWrite n false))

/-- LINE_K_TX_WRITE (R131). -/
def execLineKTxWrite (n : Fin 8) (w : Writer) (value : Word) (inKSlot : Bool) (s : State) : Host.Outcome State Fault Refusal :=
  .next ((s.settleFor w).commandWrite w true false (islLP n) (LINE_K_TX n) (fun s => s.kTxWrite n value inKSlot))

/-! ### Linear protection (R285) -/

/-- APS_CLEAR (R289). -/
def execApsClear (g : Fin 4) (w : Writer) (token : Byte) (s : State) : Host.Outcome State Fault Refusal :=
  .next ((s.settleFor w).apsWrite w g 0 0 token.toNat)

/-- APS_LOCKOUT (R289). -/
def execApsLockout (g : Fin 4) (w : Writer) (token : Byte) (s : State) : Host.Outcome State Fault Refusal :=
  .next ((s.settleFor w).apsWrite w g 1 0 token.toNat)

/-- APS_FORCED_SWITCH (R289). -/
def execApsForcedSwitch (g : Fin 4) (chan : Fin 8) (w : Writer) (token : Byte) (s : State) : Host.Outcome State Fault Refusal :=
  .next ((s.settleFor w).apsWrite w g 2 chan token.toNat)

/-- APS_MANUAL_SWITCH (R289). -/
def execApsManualSwitch (g : Fin 4) (chan : Fin 8) (w : Writer) (token : Byte) (s : State) : Host.Outcome State Fault Refusal :=
  .next ((s.settleFor w).apsWrite w g 3 chan token.toNat)

/-- APS_EXERCISE (R289). -/
def execApsExercise (g : Fin 4) (chan : Fin 8) (w : Writer) (token : Byte) (s : State) : Host.Outcome State Fault Refusal :=
  .next ((s.settleFor w).apsWrite w g 4 chan token.toNat)

/-! ### The Index (R157, R164) -/

/-- INDEX_ENTRY_WRITE (R161 to R163). -/
def execIndexEntryWrite (e : Fin 4096) (word : Fin 4) (w : Writer) (value : Word) (s : State) : Host.Outcome State Fault Refusal :=
  .next ((s.settleFor w).commandWrite w true false islPX (IDX_ENTRY_A e + 4 * word) (fun s => (s.indexWrite e word value).updateTribs))

/-- SNCP_LOCKOUT (R164): CMD 1. -/
def execSncpLockout (e : Fin 4096) (w : Writer) (s : State) : Host.Outcome State Fault Refusal :=
  .next ((s.settleFor w).sncpCommand w e 1)

/-- SNCP_FORCED_SWITCH (R164): CMD 2. -/
def execSncpForcedSwitch (e : Fin 4096) (w : Writer) (s : State) : Host.Outcome State Fault Refusal :=
  .next ((s.settleFor w).sncpCommand w e 2)

/-- SNCP_MANUAL_TO_PROTECTING (R164): CMD 3. -/
def execSncpManualToProtecting (e : Fin 4096) (w : Writer) (s : State) : Host.Outcome State Fault Refusal :=
  .next ((s.settleFor w).sncpCommand w e 3)

/-- SNCP_MANUAL_TO_A (R164): CMD 4. -/
def execSncpManualToA (e : Fin 4096) (w : Writer) (s : State) : Host.Outcome State Fault Refusal :=
  .next ((s.settleFor w).sncpCommand w e 4)

/-! ### Tributary ports (R188, R193, R194) -/

/-- TEMPLATE_WRITE (R188): the memory exists once per TR island and a write lands in both copies, so one copy is kept. -/
def execTemplateWrite (t : Fin 16) (i : Fin 128) (w : Writer) (value : Word) (s : State) : Host.Outcome State Fault Refusal :=
  .next (let s := s.settleFor w
  let a := 0x40310000 + 512 * t.val + 4 * i.val
  s.commandWrite w true true (s.regIsl a) a (fun s => s.templateWrite w t i value))

/-- TRIB_ENABLE (R193). -/
def execTribEnable (p : Fin 64) (w : Writer) (s : State) : Host.Outcome State Fault Refusal :=
  .next ((s.settleFor w).commandWrite w true false (islTR p) (TRIB_CFG p) (fun s => s.tribEnWrite p true))

/-- TRIB_DISABLE (R193). -/
def execTribDisable (p : Fin 64) (w : Writer) (s : State) : Host.Outcome State Fault Refusal :=
  .next ((s.settleFor w).commandWrite w true false (islTR p) (TRIB_CFG p) (fun s => s.tribEnWrite p false))

/-- LLOOP (R194). -/
def execLloop (p : Fin 64) (w : Writer) (on : Bool) (s : State) : Host.Outcome State Fault Refusal :=
  .next ((s.settleFor w).maintBit w p TRIB_MAINT_LLOOP on)

/-- FORCE_AIS_TX (R190). -/
def execForceAisTx (p : Fin 64) (w : Writer) (on : Bool) (s : State) : Host.Outcome State Fault Refusal :=
  .next ((s.settleFor w).maintBit w p TRIB_MAINT_FORCE_AIS_TX on)

/-- FORCE_AIS_RX (R176). -/
def execForceAisRx (p : Fin 64) (w : Writer) (on : Bool) (s : State) : Host.Outcome State Fault Refusal :=
  .next ((s.settleFor w).maintBit w p TRIB_MAINT_FORCE_AIS_RX on)

/-! ### Timing (R234, R248, R252) -/

/-- SEL_CLEAR (R234). -/
def execSelClear (d : Fin 2) (w : Writer) (token : Byte) (s : State) : Host.Outcome State Fault Refusal :=
  .next ((s.settleFor w).selWrite w d 0 0 token.toNat)

/-- SEL_FORCED (R234). -/
def execSelForced (d : Fin 2) (ref : Fin 16) (w : Writer) (token : Byte) (s : State) : Host.Outcome State Fault Refusal :=
  .next ((s.settleFor w).selWrite w d 1 ref token.toNat)

/-- SEL_MANUAL (R234). -/
def execSelManual (d : Fin 2) (ref : Fin 16) (w : Writer) (token : Byte) (s : State) : Host.Outcome State Fault Refusal :=
  .next ((s.settleFor w).selWrite w d 2 ref token.toNat)

/-- SEL_FORCED_HOLDOVER (R234, R236, R249). -/
def execSelForcedHoldover (d : Fin 2) (w : Writer) (token : Byte) (s : State) : Host.Outcome State Fault Refusal :=
  .next ((s.settleFor w).selWrite w d 3 0 token.toNat)

/-- SEL_FORCED_FREE_RUN (R234, R236). -/
def execSelForcedFreeRun (d : Fin 2) (w : Writer) (token : Byte) (s : State) : Host.Outcome State Fault Refusal :=
  .next ((s.settleFor w).selWrite w d 4 0 token.toNat)

/-- MODEL_COMMIT (R252). -/
def execModelCommit (w : Writer) (token : Byte) (s : State) : Host.Outcome State Fault Refusal :=
  .next ((s.settleFor w).commandWrite w true false islTM TIM_HO_CMD (fun s => s.hoCommand 1 token.toNat))

/-- ESMC_TX_WRITE (R232). -/
def execEsmcTxWrite (p : Fin 2) (w : Writer) (value : Word) (s : State) : Host.Outcome State Fault Refusal :=
  .next ((s.settleFor w).commandWrite w true false islTM (TIM_ESMC_TX p) (fun s => s.esmcTxWrite p value))

/-- PTP_PHASE_SAMPLE (R239, R248). -/
def execPtpPhaseSample (p : Fin 2) (w : Writer) (value : Word) (s : State) : Host.Outcome State Fault Refusal :=
  .next ((s.settleFor w).commandWrite w true false islTM (TIM_PTP_PHASE p) (fun s => s.phaseWrite p value))

/-! ### Pseudowire flows (R222, R224) -/

/-- FLOW_ENABLE (R209, R223). -/
def execFlowEnable (f : Fin 1024) (w : Writer) (value : Word) (s : State) : Host.Outcome State Fault Refusal :=
  .next (let s := s.settleFor w
  s.commandWrite w true false s.pwIsl (PW_CFG f) (fun s => s.enableFlow f (value ||| 1)))

/-- FLOW_DISABLE (R222). -/
def execFlowDisable (f : Fin 1024) (w : Writer) (value : Word) (s : State) : Host.Outcome State Fault Refusal :=
  .next (let s := s.settleFor w
  s.commandWrite w true false s.pwIsl (PW_CFG f) (fun s => s.disableFlow f (value &&& 0xFFFFFFFE)))

/-- FLOW_ENTRY_WRITE (R223): a word of a flow entry, or of a profile. -/
def execFlowEntryWrite (profile : Bool) (i : Fin 1024) (word : Fin 16) (w : Writer) (value : Word) (s : State) :
    Host.Outcome State Fault Refusal :=
  .next (let t := s.settleFor w
  if profile then
    if i.val < 128 then t.commandWrite w true false t.pwIsl (PW_PROF0 i + 4 * word) (fun s => s.profWrite i word value) else s
  else if word.val < 8 then t.commandWrite w true false t.pwIsl (PW_CFG i + 4 * word) (fun s => s.flowWrite i word value) else s)

/-! ### The twin (R281) -/

/-- TWN_CLEAR (R289). -/
def execTwnClear (w : Writer) (token : Byte) (s : State) : Host.Outcome State Fault Refusal :=
  .next ((s.settleFor w).twnWrite w 0 token.toNat)

/-- TWN_LO (R258, R289). -/
def execTwnLo (w : Writer) (token : Byte) (s : State) : Host.Outcome State Fault Refusal :=
  .next ((s.settleFor w).twnWrite w 1 token.toNat)

/-- TWN_FS (R258, R289). -/
def execTwnFs (w : Writer) (token : Byte) (s : State) : Host.Outcome State Fault Refusal :=
  .next ((s.settleFor w).twnWrite w 2 token.toNat)

/-- TWN_MS_J (R258, R289). -/
def execTwnMsJ (w : Writer) (token : Byte) (s : State) : Host.Outcome State Fault Refusal :=
  .next ((s.settleFor w).twnWrite w 3 token.toNat)

/-- TWN_MS_S (R258, R289). -/
def execTwnMsS (w : Writer) (token : Byte) (s : State) : Host.Outcome State Fault Refusal :=
  .next ((s.settleFor w).twnWrite w 4 token.toNat)

/-! ### Facsimile engines (R362, R370, R374) -/

/-- FAC_START (R361, R374). -/
def execFacStart (n : Fin 8) (step : BitVec 12) (w : Writer) (token : Byte) (s : State) : Host.Outcome State Fault Refusal :=
  .next ((s.settleFor w).facWrite w n 1 step.toNat token.toNat)

/-- FAC_STOP (R361). -/
def execFacStop (n : Fin 8) (w : Writer) (token : Byte) (s : State) : Host.Outcome State Fault Refusal :=
  .next ((s.settleFor w).facWrite w n 2 0 token.toNat)

/-- FAC_TRIG (R374). -/
def execFacTrig (n : Fin 8) (w : Writer) (token : Byte) (s : State) : Host.Outcome State Fault Refusal :=
  .next ((s.settleFor w).facWrite w n 3 0 token.toNat)

/-- FAC_ASSIGN (R353, R354). -/
def execFacAssign (n : Fin 8) (port cmp : Fin 64) (w : Writer) (token : Byte) (s : State) : Host.Outcome State Fault Refusal :=
  .next ((s.settleFor w).facWrite w n 4 (port + 64 * cmp.val) token.toNat)

/-- FAC_RELEASE (R361). -/
def execFacRelease (n : Fin 8) (w : Writer) (token : Byte) (s : State) : Host.Outcome State Fault Refusal :=
  .next ((s.settleFor w).facWrite w n 5 0 token.toNat)

/-- FAC_CAL (R372). -/
def execFacCal (n : Fin 8) (w : Writer) (token : Byte) (s : State) : Host.Outcome State Fault Refusal :=
  .next ((s.settleFor w).facWrite w n 6 0 token.toNat)

/-- FAC_SET_SKEW (R371). -/
def execFacSetSkew (n : Fin 8) (skew : BitVec 12) (w : Writer) (token : Byte) (s : State) : Host.Outcome State Fault Refusal :=
  .next ((s.settleFor w).facWrite w n 7 skew.toNat token.toNat)

/-- FAC_SYNC (R362). -/
def execFacSync (w : Writer) (token : Byte) (go : Bool) (s : State) : Host.Outcome State Fault Refusal :=
  .next ((s.settleFor w).commandWrite w true true islFC FAC_SYNC (fun s => s.facSyncWrite token.toNat go))

/-- FAC_STREAM (R370). -/
def execFacStream (n : Fin 8) (w : Writer) (token : Byte) (count : BitVec 16) (s : State) : Host.Outcome State Fault Refusal :=
  .next ((s.settleFor w).commandWrite w true true islFC (FAC_STREAM n) (fun s => s.facStreamWrite n token.toNat count.toNat))

/-- PATTERN_MEMORY_WRITE (R357). -/
def execPatternMemoryWrite (i : Fin 65536) (w : Writer) (value : Word) (s : State) : Host.Outcome State Fault Refusal :=
  .next ((s.settleFor w).commandWrite w true true islFC (FAC_PATTERN i) (fun s => s.patternWrite w i value))

/-! ### Reads with a side effect (R115, R346) -/

/-- A read of the register target that stands as a row of its own: what was granted before takes effect, and then the side effect `f`, where the
answering island `isl` runs. With MX in reset no read arrives (R92). -/
def State.readRow (s : State) (isl : Nat) (f : State → State) : State :=
  let s := s.settleRegs
  if s.running islMX && s.running isl then f s else s

/-- MTX_TXN_READ (R115). -/
def execMtxTxnRead (k : Fin 98) (s : State) : Host.Outcome State Fault Refusal :=
  .next (s.readRow islMX (fun s => s.latch 0 (MTX_TXN k 0)))

/-- MTX_ITC_READ (R102, R115). -/
def execMtxItcRead (i : Fin 24) (s : State) : Host.Outcome State Fault Refusal :=
  .next (s.readRow islMX (fun s => s.latch 0 (MTX_ITC i 0)))

/-- EVT_LEDGER_NEXT_READ (R346). -/
def execEvtLedgerNextRead (s : State) : Host.Outcome State Fault Refusal := .next (s.readRow islEH State.latchNext)

/-- TIM_TOD_READ (R346): the read of the first word latches the other two. -/
def execTimTodRead (s : State) : Host.Outcome State Fault Refusal := .next (s.readRow islTM State.latchTod)

/-- HO_SAMPLE_POP (R346): a core's read of the second word pops; a read through the bridge does not. -/
def execHoSamplePop (bridge : Bool) (s : State) : Host.Outcome State Fault Refusal :=
  .next (s.readRow islTM (fun s => if bridge then s else s.popSample))

end Sys2Proof.Machine
end

