-- ==== Sys2Proof/Machine/Flags.lean ====
section
/-! DEFINITION. The comparisons and the arithmetic of the service cores. The instruction set keeps no flags (R294 to R296). -/

namespace Sys2Proof.Machine

/-- Signed order. -/
def ltSigned (a b : Word) : Bool := a.slt b

/-- Unsigned order. -/
def ltUnsigned (a b : Word) : Bool := a.ult b

/-- A truth value as a register holds it. -/
def flagWord (b : Bool) : Word := w32 (bit b)

/-- The low 5 bits of a shift amount. -/
def shiftAmount (b : Word) : Nat := b.toNat % 32

/-- The high word of the unsigned product. -/
def mulHigh (a b : Word) : Word := w32 (a.toNat * b.toNat / 2 ^ 32)

/-- Unsigned quotient; by zero it is all ones (R294). -/
def divUnsigned (a b : Word) : Word := if b = 0 then 0xFFFFFFFF else a / b

/-- Unsigned remainder; by zero it is the dividend (R294). -/
def remUnsigned (a b : Word) : Word := if b = 0 then a else a % b

end Sys2Proof.Machine
end

