-- ==== Sys2Proof/Machine/Operands.lean ====
section
/-! DEFINITION. The operand forms of the service cores' instructions: general registers, immediates, addresses and offsets (R294, R295). -/

namespace Sys2Proof.Machine

/-- A general register; g0 reads 0 (R294). -/
def Core.get (c : Core) (r : Nat) : Word := if r = 0 then 0 else tget c.g 0 r

/-- A general register written; writes to g0 are ignored (R294). -/
def Core.put (c : Core) (r : Nat) (v : Word) : Core := if r = 0 then c else { c with g := tset c.g 0 r v }

/-- The next instruction. -/
def Core.step (c : Core) : Core := { c with pc := c.pc + 4 }

/-- A sign-extended 16-bit immediate (R295). -/
def sext (imm : BitVec 16) : Word := imm.signExtend 32

/-- A zero-extended 16-bit immediate. -/
def zext (imm : BitVec 16) : Word := imm.setWidth 32

/-- The address of a load or store: ga + imm. -/
def Core.addr (c : Core) (ga : Nat) (imm : BitVec 16) : Word := c.get ga + sext imm

/-- A branch target: the branch's own address and a signed offset in words. -/
def Core.branch (c : Core) (off : Word) : Word := c.pc + 4 * off

/-- The shift that SHI's immediate names, none where it is illegal: kind 3, or a bit above 6 set (R296). -/
def shiftImm (imm : BitVec 16) (x : Word) : Option Word :=
  let n := imm.toNat % 32
  if 128 ≤ imm.toNat then none
  else match imm.toNat / 32 with
  | 0 => some (x <<< n)
  | 1 => some (x >>> n)
  | 2 => some (x.sshiftRight n)
  | _ => none

end Sys2Proof.Machine
end

