-- ==== Sys2Proof/Machine/Cores.lean ====
section
/-! DEFINITION. The instructions of the service cores (R290 to R299). A lockstep pair executes each instruction once; it arrives as a command
naming the pair, and acts while the pair is in, executes its start routine or a task, and does not wait at a fence. -/

namespace Sys2Proof.Machine

/-- Pair `q` executes instructions now. -/
def State.mayExec (s : State) (q : Nat) : Bool :=
  s.pairIn q && decide ((s.core q).stall = none) && ((s.core q).starting || decide (s.pairTask q ≠ noTask))

/-- The pair's registers after an instruction, where the pair executes at all. -/
def State.onCore (s : State) (q : Nat) (f : Core → Core) : State := if s.mayExec q then s.setCore q (f (s.core q)) else s

/-- An instruction that writes gd and goes on. -/
def State.regOp (s : State) (q gd : Nat) (f : Core → Word) : State := s.onCore q (fun c => (c.put gd (f c)).step)

/-- A branch taken where `f` holds. -/
def State.branchIf (s : State) (q : Nat) (off : BitVec 16) (f : Core → Bool) : State :=
  s.onCore q (fun c => { c with pc := if f c then c.branch (sext off) else c.pc + 4 })

/-- An illegal instruction (R299). -/
def State.illegal (s : State) (q : Nat) : State := s.exception q (abortCode 0) (s.core q).pc

/-! ### Arithmetic and logic (R296) -/

/-- ADDI (R296). -/
def execAddi (q : Fin 2) (gd ga : Fin 32) (imm : BitVec 16) (s : State) : Host.Outcome State Fault Refusal :=
  .next (s.regOp q gd (fun c => c.get ga + sext imm))

/-- ANDI (R296). -/
def execAndi (q : Fin 2) (gd ga : Fin 32) (imm : BitVec 16) (s : State) : Host.Outcome State Fault Refusal :=
  .next (s.regOp q gd (fun c => c.get ga &&& zext imm))

/-- ORI (R296). -/
def execOri (q : Fin 2) (gd ga : Fin 32) (imm : BitVec 16) (s : State) : Host.Outcome State Fault Refusal :=
  .next (s.regOp q gd (fun c => c.get ga ||| zext imm))

/-- XORI (R296). -/
def execXori (q : Fin 2) (gd ga : Fin 32) (imm : BitVec 16) (s : State) : Host.Outcome State Fault Refusal :=
  .next (s.regOp q gd (fun c => c.get ga ^^^ zext imm))

/-- SLTI (R296). -/
def execSlti (q : Fin 2) (gd ga : Fin 32) (imm : BitVec 16) (s : State) : Host.Outcome State Fault Refusal :=
  .next (s.regOp q gd (fun c => flagWord (ltSigned (c.get ga) (sext imm))))

/-- SHI (R296): a kind of 3 or an unused bit set is illegal. -/
def execShi (q : Fin 2) (gd ga : Fin 32) (imm : BitVec 16) (s : State) : Host.Outcome State Fault Refusal :=
  .next (if !s.mayExec q then s
  else match shiftImm imm ((s.core q).get ga) with
  | some v => s.regOp q gd (fun _ => v)
  | none => s.illegal q)

/-- LUI (R296). -/
def execLui (q : Fin 2) (gd : Fin 32) (imm : BitVec 16) (s : State) : Host.Outcome State Fault Refusal :=
  .next (s.regOp q gd (fun _ => zext imm <<< 16))

/-- ADD (R294, R296). -/
def execAdd (q : Fin 2) (gd ga gb : Fin 32) (s : State) : Host.Outcome State Fault Refusal :=
  .next (s.regOp q gd (fun c => c.get ga + c.get gb))

/-- SUB (R294, R296). -/
def execSub (q : Fin 2) (gd ga gb : Fin 32) (s : State) : Host.Outcome State Fault Refusal :=
  .next (s.regOp q gd (fun c => c.get ga - c.get gb))

/-- AND (R294, R296). -/
def execAnd (q : Fin 2) (gd ga gb : Fin 32) (s : State) : Host.Outcome State Fault Refusal :=
  .next (s.regOp q gd (fun c => c.get ga &&& c.get gb))

/-- OR (R294, R296). -/
def execOr (q : Fin 2) (gd ga gb : Fin 32) (s : State) : Host.Outcome State Fault Refusal :=
  .next (s.regOp q gd (fun c => c.get ga ||| c.get gb))

/-- XOR (R294, R296). -/
def execXor (q : Fin 2) (gd ga gb : Fin 32) (s : State) : Host.Outcome State Fault Refusal :=
  .next (s.regOp q gd (fun c => c.get ga ^^^ c.get gb))

/-- SLL (R294, R296). -/
def execSll (q : Fin 2) (gd ga gb : Fin 32) (s : State) : Host.Outcome State Fault Refusal :=
  .next (s.regOp q gd (fun c => c.get ga <<< shiftAmount (c.get gb)))

/-- SRL (R294, R296). -/
def execSrl (q : Fin 2) (gd ga gb : Fin 32) (s : State) : Host.Outcome State Fault Refusal :=
  .next (s.regOp q gd (fun c => c.get ga >>> shiftAmount (c.get gb)))

/-- SRA (R294, R296). -/
def execSra (q : Fin 2) (gd ga gb : Fin 32) (s : State) : Host.Outcome State Fault Refusal :=
  .next (s.regOp q gd (fun c => (c.get ga).sshiftRight (shiftAmount (c.get gb))))

/-- SLT (R294, R296). -/
def execSlt (q : Fin 2) (gd ga gb : Fin 32) (s : State) : Host.Outcome State Fault Refusal :=
  .next (s.regOp q gd (fun c => flagWord (ltSigned (c.get ga) (c.get gb))))

/-- SLTU (R294, R296). -/
def execSltu (q : Fin 2) (gd ga gb : Fin 32) (s : State) : Host.Outcome State Fault Refusal :=
  .next (s.regOp q gd (fun c => flagWord (ltUnsigned (c.get ga) (c.get gb))))

/-- MUL (R294, R296). -/
def execMul (q : Fin 2) (gd ga gb : Fin 32) (s : State) : Host.Outcome State Fault Refusal :=
  .next (s.regOp q gd (fun c => c.get ga * c.get gb))

/-- MULHU (R294, R296). -/
def execMulhu (q : Fin 2) (gd ga gb : Fin 32) (s : State) : Host.Outcome State Fault Refusal :=
  .next (s.regOp q gd (fun c => mulHigh (c.get ga) (c.get gb)))

/-- DIVU (R294, R296). -/
def execDivu (q : Fin 2) (gd ga gb : Fin 32) (s : State) : Host.Outcome State Fault Refusal :=
  .next (s.regOp q gd (fun c => divUnsigned (c.get ga) (c.get gb)))

/-- REMU (R294, R296). -/
def execRemu (q : Fin 2) (gd ga gb : Fin 32) (s : State) : Host.Outcome State Fault Refusal :=
  .next (s.regOp q gd (fun c => remUnsigned (c.get ga) (c.get gb)))

/-! ### Branches and jumps (R295, R296) -/

/-- BEQ (R296). -/
def execBeq (q : Fin 2) (ga gb : Fin 32) (off : BitVec 16) (s : State) : Host.Outcome State Fault Refusal :=
  .next (s.branchIf q off (fun c => decide (c.get ga = c.get gb)))

/-- BNE (R296). -/
def execBne (q : Fin 2) (ga gb : Fin 32) (off : BitVec 16) (s : State) : Host.Outcome State Fault Refusal :=
  .next (s.branchIf q off (fun c => decide (c.get ga ≠ c.get gb)))

/-- BLT (R296). -/
def execBlt (q : Fin 2) (ga gb : Fin 32) (off : BitVec 16) (s : State) : Host.Outcome State Fault Refusal :=
  .next (s.branchIf q off (fun c => ltSigned (c.get ga) (c.get gb)))

/-- BGE (R296). -/
def execBge (q : Fin 2) (ga gb : Fin 32) (off : BitVec 16) (s : State) : Host.Outcome State Fault Refusal :=
  .next (s.branchIf q off (fun c => !ltSigned (c.get ga) (c.get gb)))

/-- BLTU (R296). -/
def execBltu (q : Fin 2) (ga gb : Fin 32) (off : BitVec 16) (s : State) : Host.Outcome State Fault Refusal :=
  .next (s.branchIf q off (fun c => ltUnsigned (c.get ga) (c.get gb)))

/-- BGEU (R296). -/
def execBgeu (q : Fin 2) (ga gb : Fin 32) (off : BitVec 16) (s : State) : Host.Outcome State Fault Refusal :=
  .next (s.branchIf q off (fun c => !ltUnsigned (c.get ga) (c.get gb)))

/-- JAL (R294, R296): the link goes to g31. -/
def execJal (q : Fin 2) (off : BitVec 26) (s : State) : Host.Outcome State Fault Refusal :=
  .next (s.onCore q (fun c => { c.put 31 (c.pc + 4) with pc := c.branch (off.signExtend 32) }))

/-- JALR (R296): bits 1:0 of the target are cleared. -/
def execJalr (q : Fin 2) (gd ga : Fin 32) (imm : BitVec 16) (s : State) : Host.Outcome State Fault Refusal :=
  .next (s.onCore q (fun c => { c.put gd (c.pc + 4) with pc := c.addr ga imm &&& 0xFFFFFFFC }))

/-! ### Loads, stores and AMO (R297 to R299) -/

/-- The pair is about to access target `tgt`: what that target was granted before takes effect, and where that has ended the task the access
is not made. -/
def State.beforeAccess (s : State) (q tgt : Nat) : Option State :=
  let t := s.settle tgt s.mtx.nextTag
  if t.mayExec q && decide (t.pairTask q = s.pairTask q) then some t else none

/-- A response other than OKAY aborts the run (R299). -/
def State.checkResponse (s : State) (q : Nat) (a : Word) : State :=
  if s.mtx.resp = rOkay then s else s.exception q (abortCode (3 + s.mtx.resp)) a

/-- An access by pair `q` to `n` bytes at ga + imm, `f` where it is aligned (R297, R299). -/
def State.aligned (s : State) (q ga : Nat) (imm : BitVec 16) (n : Nat) (f : State → Word → State) : State :=
  if !s.mayExec q then s
  else
    let a := (s.core q).addr ga imm
    if a.toNat % n ≠ 0 then s.exception q (abortCode 1) a
    else match s.beforeAccess q (s.target a.toNat) with
    | some t => f t a
    | none => s.settle (s.target a.toNat) s.mtx.nextTag

/-- A load of `n` bytes; the core stalls until its data arrives. -/
def State.load (s : State) (q gd ga : Nat) (imm : BitVec 16) (n : Nat) (ext : Nat → Word) : State :=
  s.aligned q ga imm n (fun s a =>
    let r := s.busRead (2 * q) (s.target a.toNat) a.toNat n
    if r.1.mtx.resp = rOkay then r.1.regOp q gd (fun _ => ext (leNat r.2)) else r.1.checkResponse q a)

/-- A store of the low `n` bytes of gs. -/
def State.store (s : State) (q gs ga : Nat) (imm : BitVec 16) (n : Nat) : State :=
  s.aligned q ga imm n (fun s a =>
    let v := (s.core q).get gs
    let s := s.setCore q (s.core q).step
    (s.busWrite (2 * q) (s.target a.toNat) a.toNat ((leBytes n v.toNat).map some)).checkResponse q a)

/-- LW (R296, R297). -/
def execLw (q : Fin 2) (gd ga : Fin 32) (imm : BitVec 16) (s : State) : Host.Outcome State Fault Refusal :=
  .next (s.load q gd ga imm 4 w32)

/-- LH (R296, R297). -/
def execLh (q : Fin 2) (gd ga : Fin 32) (imm : BitVec 16) (s : State) : Host.Outcome State Fault Refusal :=
  .next (s.load q gd ga imm 2 (fun v => sext (BitVec.ofNat 16 v)))

/-- LHU (R296, R297). -/
def execLhu (q : Fin 2) (gd ga : Fin 32) (imm : BitVec 16) (s : State) : Host.Outcome State Fault Refusal :=
  .next (s.load q gd ga imm 2 w32)

/-- LB (R296, R297). -/
def execLb (q : Fin 2) (gd ga : Fin 32) (imm : BitVec 16) (s : State) : Host.Outcome State Fault Refusal :=
  .next (s.load q gd ga imm 1 (fun v => (BitVec.ofNat 8 v).signExtend 32))

/-- LBU (R296, R297). -/
def execLbu (q : Fin 2) (gd ga : Fin 32) (imm : BitVec 16) (s : State) : Host.Outcome State Fault Refusal :=
  .next (s.load q gd ga imm 1 w32)

/-- SW (R296, R297). -/
def execSw (q : Fin 2) (gs ga : Fin 32) (imm : BitVec 16) (s : State) : Host.Outcome State Fault Refusal :=
  .next (s.store q gs ga imm 4)

/-- SH (R296, R297). -/
def execSh (q : Fin 2) (gs ga : Fin 32) (imm : BitVec 16) (s : State) : Host.Outcome State Fault Refusal :=
  .next (s.store q gs ga imm 2)

/-- SB (R296, R297). -/
def execSb (q : Fin 2) (gs ga : Fin 32) (imm : BitVec 16) (s : State) : Host.Outcome State Fault Refusal :=
  .next (s.store q gs ga imm 1)

/-- An AMO (R296 to R299): gd takes the word at ga, which takes `f` of it and gb; ID 8, and only in working SRAM. -/
def State.amo (s : State) (q gd ga gb : Nat) (f : Word → Word → Word) : State :=
  s.aligned q ga 0 4 (fun s a =>
    if s.target a.toNat ≠ 1 then s.exception q (abortCode 2) a
    else
      let old := w32 (leNat (s.readBytes 1 a.toNat 4))
      let v := f old ((s.core q).get gb)
      let s := s.busWrite (2 * q) 8 a.toNat (wordBytes v)
      if s.mtx.resp = rOkay then s.regOp q gd (fun _ => old) else s.checkResponse q a)

/-- AMO.SWAP (R296, R297). -/
def execAmoSwap (q : Fin 2) (gd ga gb : Fin 32) (s : State) : Host.Outcome State Fault Refusal :=
  .next (s.amo q gd ga gb (fun _ b => b))

/-- AMO.ADD (R296, R297). -/
def execAmoAdd (q : Fin 2) (gd ga gb : Fin 32) (s : State) : Host.Outcome State Fault Refusal :=
  .next (s.amo q gd ga gb (fun a b => a + b))

/-- AMO.AND (R296, R297). -/
def execAmoAnd (q : Fin 2) (gd ga gb : Fin 32) (s : State) : Host.Outcome State Fault Refusal :=
  .next (s.amo q gd ga gb (fun a b => a &&& b))

/-- AMO.OR (R296, R297). -/
def execAmoOr (q : Fin 2) (gd ga gb : Fin 32) (s : State) : Host.Outcome State Fault Refusal :=
  .next (s.amo q gd ga gb (fun a b => a ||| b))

/-! ### Fences, the time counter, events and the end of a run (R104, R105, R296, R307) -/

/-- The pair waits for the effect of FENCE.L and then goes on (0), ends its run (1) or ends it ready (2). -/
def State.waitL (s : State) (q next : Nat) : State :=
  if !s.mayExec q then s
  else
    (s.setCore q { s.core q with stall := some (.locally (tget s.eh.raised 0 (islSV q)) next) }).releaseL q

/-- DONE (R296, R301). -/
def execDone (q : Fin 2) (s : State) : Host.Outcome State Fault Refusal := .next (s.waitL q 1)

/-- FENCE.L (R104). -/
def execFenceL (q : Fin 2) (s : State) : Host.Outcome State Fault Refusal := .next (s.waitL q 0)

/-- FENCE.G (R105, R109): the pair waits until the fence it requests is over. -/
def execFenceG (q : Fin 2) (s : State) : Host.Outcome State Fault Refusal :=
  .next (if s.mayExec q then (s.setCore q { s.core q with stall := some .globally }).requestFence (2 * q.val) else s)

/-- RDITC (R102, R296): the low word of the island's time counter; the high word is latched. -/
def execRditc (q : Fin 2) (gd : Fin 32) (s : State) : Host.Outcome State Fault Refusal :=
  .next (s.onCore q (fun c => ({ c with itcHi := w32 (s.itcOf (islSV q) / 2 ^ 32) }.put gd (w32 (s.itcOf (islSV q)))).step))

/-- RDITCH (R296). -/
def execRditch (q : Fin 2) (gd : Fin 32) (s : State) : Host.Outcome State Fault Refusal := .next (s.regOp q gd (fun c => c.itcHi))

/-- RAISE (R296). -/
def execRaise (q : Fin 2) (ga gb : Fin 32) (s : State) : Host.Outcome State Fault Refusal :=
  .next (if s.mayExec q then
    let c := s.core q
    (s.setCore q c.step).raise (islSV q) (0x450 + (c.get ga).toNat % 16) [c.get gb]
  else s)

/-- READY (R307). -/
def execReady (q : Fin 2) (s : State) : Host.Outcome State Fault Refusal := .next (s.waitL q 2)

/-- TASK_ABORT (R299): an exception ends the run of pair `q`, whatever it waits for; its cause and address stand in event 0x445. -/
def execTaskAbort (q : Fin 2) (cause : AbortCause) (addr : Word) (s : State) : Host.Outcome State Fault Refusal :=
  .next (if s.pairIn q then
    s.exception q (abortCode (match cause with
      | .illegal => 0
      | .misaligned => 1
      | .amoTarget => 2
      | .response code => 3 + code)) addr
  else s)

end Sys2Proof.Machine
end

