-- ==== Sys2Proof/Machine/Matrix.lean ====
section
/-! DEFINITION. The system matrix: requests and their form, arbitration, same-cycle writes, responses, late responses, reset of a port and the
latching reads of its tables (R94 to R101, R112 to R115, R289, R325, R374). -/

namespace Sys2Proof.Machine

/-- A port's master makes requests: the idle core ports never do (R95), nor one whose island is stopped. -/
def State.portMay (s : State) (port : Nat) : Bool :=
  if port < 4 then decide (port % 2 = 0) && s.pairIn (port / 2) else s.running (s.portIsl port)

/-- The request keeps the form of R98. -/
def reqOk (r : Req) (tgt : Nat) : Bool :=
  let a := r.addr.toNat
  if tgt = 5 then
    decide (r.beats = 1 ∧ a % 4 = 0) && (!r.write || (decide (r.data.length = 1) && decide (r.strobes = [0x0F] ∨ r.strobes = [0xF0])))
  else
    decide (1 ≤ r.beats ∧ r.beats ≤ 16 ∧ a % 8 = 0 ∧ a % 4096 + 8 * r.beats ≤ 4096)
      && (!r.write || decide (r.data.length = r.beats ∧ r.strobes.length = r.beats))

/-- Where a request stands in a target's arbitration: by class, then round-robin from the master last granted (R94). -/
def State.arbRank (s : State) (tgt : Nat) (r : Req) : Nat :=
  let c := portClass r.port
  16 * c + (if c ≤ 1 then (r.port + 7 - s.mtx.pointers.getD (2 * tgt + c) 7) % 8 else 0)

/-- Same-cycle requests in the order in which their targets grant them. -/
def State.grantOrder (s : State) : Nat → List Req → State × List Req
  | 0, _ => (s, [])
  | _, [] => (s, [])
  | n + 1, r :: l =>
    let tgt := s.target r.addr.toNat
    let b := (l.filter (fun x => decide (s.target x.addr.toNat = tgt))).foldl
      (fun b x => if s.arbRank tgt x < s.arbRank tgt b then x else b) r
    let t := (s.movePointer tgt b.port).grantOrder n ((r :: l).erase b)
    (t.1, b :: t.2)

/-! ### Two writes to one register in one cycle (R114) -/

/-- The value a register write carries. -/
def reqValue (r : Req) : Word := w32 (leNat ((beatBytes r true 0).filterMap id))

/-- The same request with another value. -/
def withValue (r : Req) (v : Word) : Req := { r with data := [BitVec.ofNat 64 (v.toNat + v.toNat * 2 ^ 32)] }

/-- The request without its effect: no byte is strobed, and it is answered OKAY. -/
def dropped (r : Req) : Req := { r with strobes := [0] }

/-- A permitted write to a register (R410). -/
def State.permitted (s : State) (r : Req) : Bool :=
  r.write && decide (s.target r.addr.toNat = 5) && s.running (s.regIsl r.addr.toNat) &&
    match regRow r.addr.toNat, portWriter r.port with
    | some row, some w => s.permits row w && (match w with
      | .service _ => s.armed
      | .maintenance => s.unlocked)
    | _, _ => false

/-- The fields named EN or ending in _EN of a register, as a mask. -/
def enMask (a : Nat) : Word :=
  match regRow a with
  | none => 0
  | some row => w32 (row.fields.foldl (fun m f =>
      if ["EN", "MATCH_EN", "TRACE_EN", "RTP_EN"].contains f.name then m ||| Fld.mask ⟨f.lo, f.hi - f.lo + 1⟩ else m) 0)

/-- The order number of a command to TWN_CMD or to a group's APS command register, none elsewhere (R258, R283, R289). -/
def cmdOrder (a : Nat) (v : Word) : Option Nat :=
  if a = TWN_CMD then some (twnOrder (TWN_CMD_CMD.get v))
  else if (slotOf a (APS_CMD 0) 64 4).isSome then some ([24, 2, 4, 14, 18].getD (APS_CMD_CMD.get v) 24)
  else none

/-- Two writes to one register, `r` granted before `x`: a command of lower order loses (R289), of two commands to one engine only the later
is carried out (R374), an enable of a task loses to its disable (R325), and elsewhere the enables are ANDed (R114). -/
def State.mergePair (s : State) (r x : Req) : State × Req × Req :=
  let a := r.addr.toNat
  let v := reqValue r
  let u := reqValue x
  match cmdOrder a v, cmdOrder a u with
  | some m, some n => if m < n then (s, r, dropped x) else if n < m then (s, dropped r, x) else (s, r, x)
  | _, _ =>
    match slotOf a (FAC_CMD 0) 0x100 8 with
    | some e => (s.raise islFC 0x46C [w32 e, s.reg (FAC_CMD e)], dropped r, x)
    | none =>
      if a = SVC_TASK_CMD then
        let one := decide (SVC_TASK_CMD_TASK.get v = SVC_TASK_CMD_TASK.get u)
        if one && decide (SVC_TASK_CMD_CMD.get v = 3 ∧ SVC_TASK_CMD_CMD.get u = 4) then (s, dropped r, x)
        else if one && decide (SVC_TASK_CMD_CMD.get v = 4 ∧ SVC_TASK_CMD_CMD.get u = 3) then (s, r, dropped x)
        else (s, r, x)
      else
        let en := enMask a
        if v &&& en = u &&& en then (s, r, x)
        else ((s.count MTX_MERGE_CNT).raise islMX 0x087 [w32 a, v, u], r, withValue x ((u &&& ~~~en) ||| (v &&& u &&& en)))

/-- Every such pair among a cycle's `n` requests, in grant order. -/
def State.mergeReqs (s : State) : Nat → List Req → State × List Req
  | 0, l => (s, l)
  | _, [] => (s, [])
  | n + 1, r :: l =>
    match l.find? (fun x => decide (x.addr = r.addr) && s.permitted r && s.permitted x) with
    | none =>
      let t := s.mergeReqs n l
      (t.1, r :: t.2)
    | some x =>
      let m := s.mergePair r x
      let t := m.1.mergeReqs n (l.map (fun y => if y = x then m.2.2 else y))
      (t.1, m.2.1 :: t.2)

/-! ### Requests -/

/-- A request answered without reaching a target: MALFORMED, or DECODE where no target's region holds the address (R98, R99). -/
def State.answerAtOnce (s : State) (r : Req) : State :=
  let tgt := s.target r.addr.toNat
  let code := if reqOk r tgt then rDecode else rMalformed
  let s := (s.respond code).logAccess r.port r.id r.write r.addr.toNat
  if r.port.val < 4 then s.exception (r.port / 2) (abortCode (3 + code)) r.addr else s

/-- The bridge refuses a write in itself while it is locked (R350). -/
def State.bridgeHolds (s : State) (r : Req) : Bool :=
  decide (r.port = 7) && r.write && !s.unlocked && decide (r.addr.toNat ≠ EVT_MGMT_UNLOCK)

/-- A request is accepted, or held at its port while an entry of its ID, or an older request held for it, stands (R113). -/
def State.takeRequest (s : State) (r : Req) : State :=
  let k := txnKey r.port r.id
  if s.mtx.txns.any (fun p => decide (p.1 = k)) then s.setMtx { s.mtx with held := s.mtx.held ++ [r] } else s.accept r

/-- MATRIX_REQUEST (R94 to R98, R101, R113, R114): the requests presented in one cycle. One that breaks R98, or reaches no target, is answered
at once, also on an ID not yet released (log entry 98). -/
def execMatrixRequest (reqs : List Req) (s : State) : Host.Outcome State Fault Refusal :=
  .next (if !s.running islMX then s
  else
    let l := reqs.filter (fun r => s.portMay r.port)
    let refused := l.filter s.bridgeHolds
    let l := l.filter (fun r => !s.bridgeHolds r)
    let bad := l.filter (fun r => !reqOk r (s.target r.addr.toNat) || decide (s.target r.addr.toNat = 7))
    let good := l.filter (fun r => reqOk r (s.target r.addr.toNat) && decide (s.target r.addr.toNat ≠ 7))
    let waits (r : Req) : Bool := s.mtx.txns.any (fun p => decide (p.1 = txnKey r.port r.id))
    let now := good.filter (fun r => !waits r)
    let s := s.each refused (fun s r => s.bridgeError r.addr.toNat rRefused true)
    let s := s.each bad State.answerAtOnce
    let g := s.grantOrder now.length now
    let m := g.1.mergeReqs now.length g.2
    (m.1.each m.2 State.takeRequest).each (good.filter waits) State.takeRequest)

/-! ### Responses -/

/-- One response beat of entry `k` reaches its master. The matrix records the first error beat of a transaction alone: the spec does not say
that a later one is recorded again (DESIGN CHOICE, log entry 113). -/
def State.answerBeat (s : State) (k : Nat) (t : Txn) : State :=
  let r := if t.codes.length ≤ t.answered then s.performBeat t else (s, t)
  let t := r.2
  let code := t.codes.getD t.answered rOkay
  let first := decide (code ≠ rOkay) && (t.codes.take t.answered).all (fun c => decide (c = rOkay)) && !t.orphan
  let t := { t with answered := t.answered + 1 }
  let s := if t.req.beats ≤ t.answered then r.1.release k else r.1.setTxn k t
  let s := if first then (s.respond code).logAccess t.req.port t.req.id t.req.write t.req.addr.toNat else s
  if first && decide (t.req.port.val < 4) then s.exception (t.req.port / 2) (abortCode (3 + code)) t.req.addr else s

/-- MATRIX_RESPONSE (R99, R101): what was granted earlier at the target takes effect first; the last beat releases the ID, and a core or a
preemption that waited for it goes on. -/
def execMatrixResponse (k : Fin 98) (s : State) : Host.Outcome State Fault Refusal :=
  .next (match s.mtx.txns.find? (fun p => p.1 = k.val) with
  | none => s
  | some (_, t) =>
    let s := s.settle t.target t.tag
    match s.mtx.txns.find? (fun p => p.1 = k.val) with
    | none => s
    | some (_, t) => ((s.answerBeat k t).releaseCores).dispatch)

/-- LATE_RESPONSE (R99, R100): the tag matches no live entry. A write that had received TIMEOUT has taken effect by now, or never will. -/
def execLateResponse (target : Fin 7) (tag : Fin 128) (s : State) : Host.Outcome State Fault Refusal :=
  .next (if !s.running islMX || s.mtx.txns.any (fun p => decide (p.2.target = target.val ∧ p.2.tag % 128 = tag.val)) then s
  else
    let s := s.decideLate (fun t => decide (t.target = target.val ∧ t.tag % 128 = tag.val))
    (s.count MTX_LATE_CNT).raise islMX 0x086 [w32 target, w32 tag])

/-- MASTER_PORT_RESET (R112). -/
def execMasterPortReset (port : Fin 8) (s : State) : Host.Outcome State Fault Refusal :=
  .next (if s.running islMX then s.resetPort port else s)

end Sys2Proof.Machine
end

