-- ==== Sys2Proof/Machine/Ladder.lean ====
section
/-! DEFINITION. Levels L1, L2, L5 and L6 of the timeout ladder, and the reset of an island (R42, R43, R45, R92, R93, R100, R268). -/

namespace Sys2Proof.Machine

/-! ### An island's block stops and starts -/

/-- A master learns of the error `code` that ended its access (R299, R350). -/
def State.tellMaster (s : State) (r : Req) (code : Nat) : State :=
  if code = rOkay then s
  else if r.port.val < 4 then s.exception (r.port / 2) (abortCode (3 + code)) r.addr
  else if r.port = 7 then s.bridgeError r.addr.toNat code r.write
  else s

/-- The matrix in reset: its masters' gates complete every transaction with OFFLINE, and the in-flight table is empty (R92). -/
def State.dropMatrix (s : State) : State :=
  let hit := s.mtx.txns.filter (fun p => !p.2.orphan)
  let s := s.setMtx { Matrix.init with nextTag := s.mtx.nextTag }
  s.each hit (fun s p => s.tellMaster p.2.req (p.2.endCode rOffline))

/-- What hangs on one island as it goes into reset: its laser and framer (R119), transmit pairs and link, and the fence it takes no part in any
more (R107). -/
def State.stopBlock (s : State) (i : Nat) : State :=
  let s := s.stopIslands [i]
  let s := if i = islMX then s.dropMatrix else s
  let s := if 5 ≤ i ∧ i ≤ 12 then (s.setFld (LINE_FRM_STAT (i - 5)) LINE_FRM_STAT_STATE frDisabled).updateLaser (i - 5) else s.updateDriven
  let s := if i = islFC then s.each (List.range 8) State.facReset else s
  let s := if i = islTW then ((s.resync.setFlag TWN_STAT TWN_STAT_LINK_UP false)).updateHitless else s
  (s.checkFence).releaseCores

/-- The enabled tributary ports of a TR island. -/
def State.portsOfTr (s : State) (i : Nat) : List Nat :=
  (List.range 64).filter (fun p => decide (islTR p = i) && s.flag (TRIB_CFG p) TRIB_CFG_EN)

/-- The block of an island starts on the settings that the image has left. -/
def State.startBlock (s : State) (i : Nat) : State :=
  if 5 ≤ i ∧ i ≤ 12 then s.bootLine (i - 5)
  else if i = islPX then { s with paths := [] }
  else if i = 14 ∨ i = 15 then s.each (s.portsOfTr i) State.startTrib
  else if i = 16 ∨ i = 17 then s.each (s.enabledFlows.filter (fun f => decide (s.flowIsl f = i))) (fun s f => (s.emptyBuffer f).startFlow f)
  else if i = islTM then s.startTiming
  else if i = islFC then s.each ((List.range 8).filter (fun n => s.flag (FAC_CFG n) FAC_CFG_ASSIGN)) State.facAssigned
  else s

/-! ### L5 and the reset of an island -/

/-- RT's contents are discarded as for an invalid seal (R43, R55): the 96 KiB zero-filled, the seal registers cleared and the holdover model
unlearned. -/
def State.discardRetention (s : State) : State :=
  let s := s.zero retentionBase retentionSize
  let s := { s with sp := { s.sp with sealA := 0, sealB := 0 }, eh := { s.eh with retGood := false } }
  s.readModel

/-- RT leaves a reset by L5 (R43): the Ledger starts with a tail-lost record, as after any discard (R55, R335). Before EH has resumed its
numbers, ACCESSION_RESUME places that record. -/
def State.restartRetention (s : State) : State :=
  if s.eh.numbered then s.placeOwn 3 0x477 [s.reg SUP_RET_STAT] else s

/-- The loss of an island held in reset: Safe for MX, EH, PX, FM and TM, Limp for the others (R15, R42). -/
def State.loseIsland (s : State) (i : Nat) : State :=
  if [islMX, islEH, islPX, islFM, islTM].contains i then s.safeEntry 0x27 else s.limpFault 2 0x12

/-- The L5 action on island `i` (R42, R43, R45). SP is not supervised. -/
def State.fireL5 (s : State) (i : Nat) : State :=
  if i = islSP then s
  else
    let s := (s.ladder 5 i).noteFiring 5 i 10000000000
    let n := s.firings 5 i
    if i = islRT then
      let s := s.discardRetention.stopBlock i
      if 2 ≤ n then s.safeEntry 0x26 else s
    else if n < 3 then if i = 1 ∨ i = 2 then s.pairOut (i - 1) 1 2 else s.stopBlock i
    else
      let s := (s.escalate 5 i).setFlag (SUP_L5_STAT i) SUP_L5_STAT_HELD true
      let s := if i = 1 ∨ i = 2 then s.pairOut (i - 1) 2 2 else s.stopBlock i
      s.loseIsland i

/-- L5_TIMEOUT (R42, R43): the heartbeat of a running island expires. -/
def execL5Timeout (i : Fin 24) (s : State) : Host.Outcome State Fault Refusal :=
  .next (if s.running i then s.fireL5 i else s)

/-- An island other than the cores' and SP may run now (R20, R26, R42, R46, R86). -/
def State.mayRun (s : State) (i : Nat) : Bool :=
  let held := s.flag (SUP_L5_STAT i) SUP_L5_STAT_HELD
  let loads := [islMX, islEH, islLD, islFM, islRT].contains i
  s.enabled i && !held && decide (i ≠ 1 ∧ i ≠ 2 ∧ i ≠ islSP) && decide (s.sp.powerFail = .idle) &&
    (if s.inState [stLoading, stChecking] then loads || s.ld.applied
    else if s.life = stSafe then [islMX, islEH, islRT].contains i
    else s.armed)

/-- ISLAND_RESET (R92, R107, R420): an island enters reset, its gates going offline; or it leaves reset, its gates idle and its block starting
afresh. LD leaving reset in Loading or Checking sends the mark of step 1 and starts its program again (log entry 102). A core pair leaves reset
only through its self-check, and after a power failure has been declared nothing leaves reset. -/
def execIslandReset (i : Fin 24) (enter : Bool) (s : State) : Host.Outcome State Fault Refusal :=
  .next (if enter then
    if !s.running i || decide (i.val = islSP) then s
    else if i.val = 1 ∨ i.val = 2 then s.pairOut (i.val - 1) 1 2
    else s.stopBlock i
  else if s.running i || !s.mayRun i then s
  else
    let s := (s.clearGates [i.val]).setIslands [i.val] true
    if i.val = islRT then s.restartRetention
    else if i.val = islLD ∧ s.inState [stLoading, stChecking] then s.startLoader
    else if s.ld.applied || s.armed then s.startBlock i else s)

/-! ### L1, L2 and L6 -/

/-- An entry ends in an error that its master receives; a core aborts its run (R93, R99, R299). -/
def State.failTxn (s : State) (k code gate : Nat) : State :=
  match s.mtx.txns.find? (fun p => p.1 = k) with
  | none => s
  | some (_, t) =>
    let c := t.endCode code
    let s := s.endTxn k code gate
    let s := if t.req.port.val < 4 ∧ !t.orphan ∧ c ≠ rOkay then s.exception (t.req.port / 2) (abortCode (3 + c)) t.req.addr else s
    (s.releaseCores).dispatch

/-- The oldest entry whose path leads through gate `g`: the master's gate to MX or the target's. The spec does not say which of several
transactions is the one in transfer when L1 fires: the one granted first is taken (DESIGN CHOICE, log entry 117). -/
def State.txnOver (s : State) (g : Nat) : Option Nat :=
  let l := s.mtx.txns.filter (fun p =>
    let m := s.portIsl p.2.req.port
    let t := s.targetIsl p.2.target p.2.req.addr.toNat
    (decide (m ≠ islMX) && decide (mxGate m = g)) || (decide (t ≠ islMX) && decide (mxGate t = g)))
  ((l.foldr insertTag []).head?).map (fun p => p.1)

/-- The oldest event on its way over gate `g` (R91). -/
def State.eventOver (s : State) (g : Nat) : Option Ev :=
  let passes (i : Nat) : Bool :=
    if i = islEH then false
    else if i = islSP then decide (g = 56)
    else if i = islRT then decide (g = 54)
    else decide (g = mxGate islEH) || (decide (i ≠ islMX) && decide (g = mxGate i))
  s.chan.find? (fun e => passes e.isl)

/-- The word in transfer over gate `g` is discarded (R93): a transaction, whose initiator receives a gate error, or an event, which is lost.
Where both cross the gate a free bit tells which channel waited (DESIGN CHOICE, log entry 117). What the other gates carry arrives within its own
command, so nothing of theirs is in transfer between two commands. -/
def State.discardWord (s : State) (g : Nat) : State :=
  match s.txnOver g, s.eventOver g with
  | some k, some ev => if s.freeWord.getLsbD 0 then s.useFree.failTxn k rGate g else { s.useFree with chan := s.chan.erase ev }
  | some k, none => s.failTxn k rGate g
  | none, some ev => { s with chan := s.chan.erase ev }
  | none, none => s

/-- L1_TIMEOUT (R42, R45, R93): the gate returns to idle, the word in transfer is discarded and its initiator receives a gate error; the
sixteenth firing within 1 s resets the island whose edge was awaited. -/
def execL1Timeout (g : Fin 61) (awaitedHigh : Bool) (s : State) : Host.Outcome State Fault Refusal :=
  .next (let e := gateEnds g
  if !s.running e.1 || !s.running e.2 then s
  else
    let s := ((s.discardWord g).count (MTX_GATE_TO_CNT g)).setFld (MTX_GATE_STAT g) MTX_GATE_STAT_PHASE 0
    let s := (s.ladder 1 g).noteFiring 1 g 1000000000
    if 16 ≤ s.firings 1 g then (s.escalate 1 g).fireL5 (if awaitedHigh then e.2 else e.1) else s)

/-- L2_TIMEOUT (R42, R45, R99, R100): TIMEOUT for every beat not yet answered and the ID released. A write that has not wholly taken effect may
still do so until its late response, or never. The sixteenth firing on a target within 1 s resets the island addressed. -/
def execL2Timeout (k : Fin 98) (s : State) : Host.Outcome State Fault Refusal :=
  .next (match s.mtx.txns.find? (fun p => p.1 = k.val) with
  | none => s
  | some (_, t) =>
    let isl := s.targetIsl t.target t.req.addr.toNat
    let s := if t.req.write && decide (t.codes.length < t.req.beats) then
        s.setMtx { s.mtx with lateWrites := s.mtx.lateWrites ++ [t] }
      else s
    let s := (s.ladder 2 t.target).noteFiring 2 t.target 1000000000
    let s := s.failTxn k rTimeout 0
    if 16 ≤ s.firings 2 t.target then (s.escalate 2 t.target).fireL5 isl else s)

/-- L6_TIMEOUT (R42, R268): the twin's heartbeat is overdue and LINK_UP falls. SOURCE of SUP_TO_STAT lists no number for the twin link: it reads
0 (DESIGN CHOICE, log entry 34). -/
def execL6Timeout (s : State) : Host.Outcome State Fault Refusal :=
  .next (if s.running islTW && s.twn TWN_STAT_LINK_UP then (s.ladder 6 0).linkFall else s)

end Sys2Proof.Machine
end

