-- ==== Sys2Proof/Machine/CrossRules.lean ====
section
/-! DEFINITION. The cross-record rules of the image, judged once on the final values (R75, check 6 of R79): each owning chapter's rules in
its order. -/

namespace Sys2Proof.Machine

/-! ### Islands named by the image (R21) -/

/-- The island of the port that an endpoint word names; a pseudowire's is that of its packet port. -/
def State.epIsland (s : State) (w : Word) : Nat :=
  match epType w with
  | 3 => islTR (w.toNat % 64)
  | 4 => islPK (s.flowHome (w.toNat % 1024))
  | _ => islLP (w.toNat % 8)

/-- No Index entry, whatever its VALID, no enabled flow (R224) and no engine names a port in a disabled island (R21). An engine has an
assignment while its ASSIGN is 1: a PORT field beside ASSIGN 0 is none (DESIGN CHOICE, log entry 124). -/
def State.islandsOk (s : State) : Bool :=
  s.endpointWords.all (fun w => decide (epType w = 0) || s.enabled (s.epIsland w))
    && s.enabledFlows.all (fun f => s.enabled (islPK (s.flowHome f)))
    && (List.range 8).all (fun n => !s.flag (FAC_CFG n) FAC_CFG_ASSIGN || s.enabled (islTR (s.fld (FAC_CFG n) FAC_CFG_PORT)))

/-! ### Line ports (R137, R141, R142, J0 in SONET mode) -/

/-- The settings of line port `n` by itself. -/
def State.lineOk (s : State) (n : Nat) : Bool :=
  (!s.bitAt SUP_ALS_CFG n || !s.enabled (islLP n)
      || decide (s.fld (LINE_ALS_CFG n) LINE_ALS_CFG_DEACT_MS + 20 ≤ s.fld SUP_ALS_CFG SUP_ALS_CFG_T_DEACT_MS))
    && (!s.flag (LINE_CFG n) LINE_CFG_SONET || decide (s.fld (LINE_J0_CFG n) LINE_J0_CFG_MODE ≠ 2))
    && decide (s.fld (LINE_DEG_CFG n) LINE_DEG_CFG_SD_EXP ≠ s.fld (LINE_DEG_CFG n) LINE_DEG_CFG_SF_EXP)

/-- The PEERs of the ports whose byte group, fixed by field `f`, is transparent. -/
def State.dccPeers (s : State) (f : Fld) : List Nat :=
  ((List.range 8).filter (fun n => !s.flag (LINE_DCC_CFG n) f)).map (fun n => s.fld (LINE_DCC_CFG n) LINE_DCC_CFG_PEER)

/-- Each port, and no PEER named twice for one byte group (R141). -/
def State.linesOk (s : State) : Bool :=
  (List.range 8).all s.lineOk && decide (s.dccPeers LINE_DCC_CFG_RS_FIX).Nodup && decide (s.dccPeers LINE_DCC_CFG_MS_FIX).Nodup

/-! ### Paths and the Index (R159, R160, R165) -/

/-- CONTENT of TUG-3 or position `k`, 0 to 2, of a slot. -/
def State.slotContent (s : State) (m k : Nat) : Nat := s.fld (PATH_SLOT_MAP m) ⟨9 * k, 2⟩

/-- A slot by itself, enabled or not (R165): its AUG, where TERM may be set, and CONTENT exactly on what is terminated. -/
def State.slotOk (s : State) (k : Nat) : Bool :=
  let port := s.fld (PATH_SLOT_CFG k) PATH_SLOT_CFG_PORT
  let sonet := s.flag (LINE_CFG port) LINE_CFG_SONET
  let concat := decide (s.fld (PATH_SLOT_CFG k) PATH_SLOT_CFG_STRUCT = 0)
  let term (n : Nat) : Bool := s.bitAt (PATH_SLOT_CFG k) (10 + n)
  let c := s.slotContent k
  decide (s.fld (PATH_SLOT_CFG k) PATH_SLOT_CFG_AUG < 4 ^ s.fld (LINE_CFG port) LINE_CFG_RATE)
    && (if concat then
        !term 1 && !term 2 && !(sonet && term 0) && (term 0 == (List.range 3).any (fun n => decide (c n ≠ 0)))
      else (List.range 3).all (fun n => decide (c n ≠ 1) && (term n == decide (c n ≠ 0))))
    && (!sonet || (List.range 3).all (fun n => decide (c n ≠ 1)))

/-- The enabled PATH slots. -/
def State.enabledSlots (s : State) : List Nat := (List.range 64).filter (fun k => s.flag (PATH_SLOT_CFG k) PATH_SLOT_CFG_EN)

/-- Every slot, no port and AUG bound by two enabled ones, and EXCTHR above DEGTHR. -/
def State.slotsOk (s : State) : Bool :=
  (List.range 64).all s.slotOk
    && decide (s.enabledSlots.map (fun k => (s.fld (PATH_SLOT_CFG k) PATH_SLOT_CFG_PORT, s.fld (PATH_SLOT_CFG k) PATH_SLOT_CFG_AUG))).Nodup
    && decide (s.fld PATH_HO_DEG_CFG PATH_HO_DEG_CFG_DEGTHR < s.fld PATH_HO_DEG_CFG PATH_HO_DEG_CFG_EXCTHR)
    && decide (s.fld PATH_LO_DEG_CFG PATH_LO_DEG_CFG_DEGTHR < s.fld PATH_LO_DEG_CFG PATH_LO_DEG_CFG_EXCTHR)

/-- R160: R159 of every valid entry, every path endpoint of any entry in an enabled slot and of the right kind, every CHECK correct. -/
def State.indexOk (s : State) : Bool :=
  s.endpointWords.all (fun w => decide (epType w ≠ 1 ∧ epType w ≠ 2) || s.epOk w)
    && s.validEntries.all (fun e => s.endsOk (s.entryEnds e) (s.entrySncp e) && s.entryOk e)
    && decide (s.validEntries.flatMap (fun e => keptList (s.entryEnds e))).Nodup

/-! ### Tributary ports (R168, R187) -/

/-- Template `t` belongs to a group's mode (R168): 0 and 1 are E1, 2 to 7 are T1, a loadable one follows its MASK, and MASK 3 fits both. -/
def State.templateFits (s : State) (t mode : Nat) : Bool :=
  let m := s.fld (TRIB_TPL_CFG (t - 8)) TRIB_TPL_CFG_MASK
  if t < 8 then decide (mode = bit (decide (2 ≤ t)))
  else decide (m = 3) || decide (mode = bit (decide (m = 2)))

/-- The 256 samples of template `t` with the gain of port `p`. -/
def State.gainedTemplate (s : State) (p t : Nat) : List Int := (List.range 256).map (fun i => s.gained p (s.tplSample t i))

/-- R187 for one loadable template under one port's gain. -/
def State.maskOk (s : State) (p t : Nat) : Bool :=
  let l := s.gainedTemplate p t
  let m := s.fld (TRIB_TPL_CFG (t - 8)) TRIB_TPL_CFG_MASK
  let peak := l.foldl (fun a v => max a v.natAbs) 0
  (l.take 4 ++ l.drop 252).all (fun v => decide (v.natAbs ≤ 8))
    && (if m = 3 then decide (1024 ≤ peak ∧ peak ≤ 2047) else Config.pulseMask m l)

/-- The settings of tributary port `p` (R168, R187, and the rules in the field tables of chapter 07). -/
def State.tribOk (s : State) (p : Nat) : Bool :=
  let mode := s.tribMode p
  let framing := s.fld (TRIB_CFG p) TRIB_CFG_FRAMING
  let t := s.fld (TRIB_CFG p) TRIB_CFG_TEMPLATE
  let los := s.fld (TRIB_LOS_CFG p) TRIB_LOS_CFG_N_LOS
  decide (framing = 0 ∨ (mode = 0 ∧ framing ≤ 2) ∨ (mode = 1 ∧ 3 ≤ framing))
    && s.templateFits t mode
    && (!s.flag (TRIB_CFG p) TRIB_CFG_TX_RETIME || decide (framing ≠ 0))
    && decide (los = 0 ∨ (mode = 0 ∧ 10 ≤ los ∧ los ≤ 255) ∨ (mode = 1 ∧ 100 ≤ los ∧ los ≤ 250))
    && (!s.flag (TRIB_CFG p) TRIB_CFG_EN || decide (t < 8) || s.maskOk p t)

/-! ### Flows (R197, R206, R208, R215, R223 to R225), timing (R237, R244, R250) and protection groups (R288) -/

/-- Every flow that the image enables may be enabled among them all. -/
def State.flowsOk (s : State) : Bool := s.enabledFlows.all (fun f => s.mayEnable s.enabledFlows f)

/-- The domain of a PTP port is one of its profile (R245). -/
def State.domainOk (s : State) (p : Nat) : Bool :=
  let d := s.fld (TIM_PTP_PORT_CFG p) TIM_PTP_PORT_CFG_DOMAIN
  if s.flag (TIM_PTP_PORT_CFG p) TIM_PTP_PORT_CFG_PROFILE then decide (44 ≤ d ∧ d ≤ 63) else decide (24 ≤ d ∧ d ≤ 43)

/-- The bandwidth of DPLL0, the slope limit of DPLL1, the averaging time of holdover and the PTP domains. -/
def State.timingOk (s : State) : Bool :=
  let bw := s.fld TIM_DPLL_CFG0 TIM_DPLL_CFG0_BW
  (if s.flag TIM_CFG TIM_CFG_OPTION then decide (bw = 2) else decide (4 ≤ bw ∧ bw ≤ 6))
    && decide (2 * s.fld TIM_DPLL_CFG1 TIM_DPLL_CFG1_PSL ≤ s.fld SUP_MON_CFG SUP_MON_CFG_LIMIT_PPB)
    && decide (s.fld TIM_HO_CFG2 TIM_HO_CFG2_HO_AVG_S ≤ s.fld TIM_HO_CFG TIM_HO_CFG_ANCHOR_S) && [0, 1].all s.domainOk

/-- The enabled protection groups. -/
def State.enabledGroups (s : State) : List Nat := (List.range 4).filter (fun g => s.flag (APS_CFG g) APS_CFG_EN)

/-- The ports of a group's WORK, in rising order. -/
def State.workPorts (s : State) (g : Nat) : List Nat := (List.range 8).filter (fun n => s.bitAt (APS_CFG g) (8 + n))

/-- R288 for one group. -/
def State.groupOk (s : State) (g : Nat) : Bool :=
  let prot := s.fld (APS_CFG g) APS_CFG_PROT
  let work := s.workPorts g
  let kind (n : Nat) : Nat × Nat := (s.fld (LINE_CFG n) LINE_CFG_RATE, s.fld (LINE_CFG n) LINE_CFG_SONET)
  !work.contains prot
    && (if s.fld (APS_CFG g) APS_CFG_ARCH = 0 then decide (work.length = 1) else decide (1 ≤ work.length ∧ work.length ≤ 7))
    && work.all (fun n => decide (kind n = kind prot))
    && (prot :: work).all (fun n => s.flag (LINE_CFG n) LINE_CFG_EN)
    && s.enabledSlots.all (fun k => decide (s.fld (PATH_SLOT_CFG k) PATH_SLOT_CFG_PORT ≠ prot))

/-- R288: each enabled group, and no port in two of them. -/
def State.groupsOk (s : State) : Bool :=
  s.enabledGroups.all s.groupOk
    && decide (s.enabledGroups.flatMap (fun g => s.fld (APS_CFG g) APS_CFG_PROT :: s.workPorts g)).Nodup

/-! ### The service engine (R323, R324) and the Facsimile engines (R354) -/

/-- R323: the save areas and the programs against the code region. -/
def State.memoryOk (s : State) : Bool :=
  let code := s.fld SVC_MEM_CFG SVC_MEM_CFG_CODE_TOP
  let save := s.fld SVC_MEM_CFG SVC_MEM_CFG_SAVE_BASE
  decide (code ≤ save) && decide (save * 4096 + 0x8000 ≤ 0x7F000)
    && s.ld.programs.all (fun p => decide (p.1 + p.2 ≤ 4096 * code) || decide (4096 * code ≤ p.1))

/-- R324 for task `t`: BUDGET within the L4 window, which counts 100 µs, and ENTRY in the code region. -/
def State.taskOk (s : State) (t : Nat) : Bool :=
  !s.flag (SVC_TASK_W1 t) SVC_TASK_W1_EN
    || (decide (s.fld (SVC_TASK_W1 t) SVC_TASK_W1_BUDGET ≤ 100 * s.fld SUP_TO_CFG SUP_TO_CFG_L4_WIN)
      && decide ((s.reg (SVC_TASK_ENTRY t)).toNat < 4096 * s.fld SVC_MEM_CFG SVC_MEM_CFG_CODE_TOP))

/-- R354 for the engines whose ASSIGN is 1. -/
def State.enginesOk (s : State) : Bool :=
  let l := (List.range 8).filter (fun n => s.flag (FAC_CFG n) FAC_CFG_ASSIGN)
  (l.isEmpty || s.flag SUP_ISLAND_CFG SUP_ISLAND_CFG_FC_EN)
    && decide (l.map (fun n => s.fld (FAC_CFG n) FAC_CFG_PORT)).Nodup
    && l.all (fun n => decide (s.tribMode (s.fld (FAC_CFG n) FAC_CFG_PORT) = s.tribMode (s.fld (FAC_CFG n) FAC_CFG_CMP_PORT)))

/-- Every cross-record rule holds of the registers as the image leaves them. -/
def crossRulesHold (s : State) : Bool :=
  s.islandsOk && s.linesOk && s.slotsOk && s.indexOk && (List.range 64).all s.tribOk && s.flowsOk && s.timingOk && s.groupsOk
    && s.memoryOk && (List.range 256).all s.taskOk && s.enginesOk

end Sys2Proof.Machine
end

