-- ==== Sys2Proof/Machine/Loader.lean ====
section
/-! DEFINITION. The loader: its steps, the Rorum image format and the checks of a slot, the rejection and the application of a slot,
and the Archive scan (R61 to R86, R335, R336, R420). -/

namespace Sys2Proof.Machine

/-! ### Steps (R86, R420) -/

/-- A step's start mark: the last step's duration is kept in µs, and SP times the new step. -/
def State.beginStep (s : State) (k : Nat) : State :=
  let j := s.fld NVM_STAT NVM_STAT_STEP
  let s := if 1 ≤ j ∧ j ≤ 9 then
      s.setReg (NVM_STEP_TIME (j - 1)) (w32 (min 0xFFFFFFFF ((s.now - s.ld.stepSince) / 1000)))
    else s
  let s := s.setFld NVM_STAT NVM_STAT_STEP k
  { s with ld := { s.ld with stepSince := s.now, timed := true } }

/-- LD executes its step program. -/
def State.loaderRuns (s : State) : Bool := s.ld.running && s.running islLD

/-- The slot in use, 0 or 1 (SUP_STATE.SLOT). -/
def State.slot (s : State) : Nat := s.fld SUP_STATE SUP_STATE_SLOT

/-- The first failure of a slot: its code and the section it names (R79, R81). -/
def State.failSlot (s : State) (code sec : Nat) : State :=
  match s.ld.fail with
  | some _ => s
  | none => { s with ld := { s.ld with fail := some (code, sec) } }

/-- Bytes read from the slot: they pass through SHA-256 and through check unit 31 (R78, R79). -/
def State.readSlot (s : State) (bs : List Byte) : State :=
  let s := { s with ld := { s.ld with slotBytes := s.ld.slotBytes ++ bs } }
  let s := s.setReg (CHK_RUN 31) (crc32c s.ld.slotBytes)
  (s.setFlag (CHK_STAT 31) CHK_STAT_RUNNING true).count (CHK_BYTE_CNT 31) bs.length

/-! ### Step 1 and step 2 -/

/-- The 48 Bookplate bytes that SUP_BKP_CHECK covers (R88). -/
def State.bookplateBytes (s : State) : List Byte :=
  (List.range 12).flatMap fun i => leBytes 4 (s.reg (SUP_BKP_SERIAL_LO + 4 * i)).toNat

/-- The module is unprovisioned: the check word does not match or the key hash is all zero (R83). -/
def State.bookplateBad (s : State) : Bool :=
  decide (s.reg SUP_BKP_CHECK ≠ crc32c s.bookplateBytes) || (List.range 8).all fun k => decide (s.reg (SUP_BKP_KEYHASH k) = 0)

/-- BOOT_ROM_SELF_CHECK (R83, R420): the check of step 1, whose mark LD's hardware sent as LD left reset; a failed self-check executes nothing
and sends no further mark. -/
def execBootRomSelfCheck (crcOk : Bool) (s : State) : Host.Outcome State Fault Refusal :=
  .next (if s.loaderRuns && decide (s.life = stLoading) && decide (s.fld NVM_STAT NVM_STAT_STEP = 1) && !s.ld.selfChecked then
    { s with ld := { s.ld with running := crcOk, selfChecked := true, unprovisioned := s.bookplateBad } }
  else s)

/-- The read mode of R65 for what SFDP offers, in the coding of NVM_STAT.MODE. -/
def readMode (t : Sfdp) : Nat :=
  if t.quadEnabled && t.read144 then 3 else if t.quadEnabled && t.read114 then 2 else 1

/-- NOR_DISCOVERY (R64 to R66): JEDEC ID, density, addressing and read mode, or the 0x03 fallback; event 0x040. -/
def execNorDiscovery (jedec : BitVec 24) (sfdp : Option Sfdp) (s : State) : Host.Outcome State Fault Refusal :=
  .next (if s.loaderRuns && decide (s.life = stLoading) && decide (s.fld NVM_STAT NVM_STAT_STEP = 1) && s.ld.selfChecked then
    let s := s.beginStep 2
    let s := s.setReg NVM_JEDEC_ID (w32 jedec.toNat)
    let d := match sfdp with
      | some t => t.densityLog2
      | none => 27
    let s := s.setFld NVM_STAT NVM_STAT_MODE (match sfdp with | some t => readMode t | none => 0)
    let s := s.setFlag NVM_STAT NVM_STAT_ADDR4 (match sfdp with | some t => t.addr4Only | none => false)
    let s := s.setFlag NVM_STAT NVM_STAT_SFDP_OK sfdp.isSome
    let s := s.setFld NVM_STAT NVM_STAT_DENSITY_LOG2 d
    let s := { s with ld := { s.ld with density := d, fallback03 := sfdp.isNone } }
    s.raise islLD 0x040 [s.reg NVM_STAT, s.reg NVM_JEDEC_ID]
  else s)

/-! ### Step 3: the Catalog (R69 to R72) -/

/-- The little-endian value of `n` bytes at offset `o`. -/
def at' (bs : List Byte) (o n : Nat) : Nat := leNat ((bs.drop o).take n)

/-- The verdict on the Catalog header in the order of R69: none where it passes. -/
def headerFault (h : List Byte) (stepping : Nat) : Option Nat :=
  let steppings := at' h 0x0E 1
  let len := at' h 0x08 4
  if at' h 0 4 ≠ 0x4D524F52 ∨ at' h 4 2 ≠ 1 then some 0x10
  else if at' h 0x1C 4 ≠ (crc32c (h.take 0x1C)).toNat then some 0x11
  else if at' h 0x0C 2 ≠ 0x9024 then some 0x12
  else if len < 512 ∨ 4194304 < len ∨ len % 4 ≠ 0 ∨ at' h 0x18 4 + 256 ≠ len ∨ at' h 6 2 < 1 ∨ 255 < at' h 6 2
      ∨ 3 < at' h 0x0F 1 ∨ steppings = 0 ∨ 3 < steppings then some 0x13
  else if steppings >>> (stepping - 1) % 2 = 0 then some 0x12
  else none

/-- The `i`-th section entry (R70). -/
def entryAt (bs : List Byte) (i : Nat) : SecEntry :=
  let o := 0x20 + 16 * i
  ⟨at' bs o 1, at' bs (o + 4) 4, at' bs (o + 8) 4, BitVec.ofNat 32 (at' bs (o + 12) 4)⟩

/-- A section entry is in order: its own fields, and its place right after its predecessor, within the Colophon's offset and 4 MiB (R70,
R71). -/
def entryOk (bs : List Byte) (i start colophon : Nat) : Bool :=
  let e := entryAt bs i
  let o := 0x20 + 16 * i
  decide (1 ≤ e.ty ∧ e.ty ≤ 3 ∧ at' bs (o + 1) 1 = 0 ∧ at' bs (o + 2) 2 = 0 ∧ e.length ≠ 0 ∧ e.length % 4 = 0 ∧ e.offset = start
    ∧ e.offset + e.length ≤ colophon ∧ e.offset + e.length ≤ 4194304)

/-- The verdict on `n` entries from entry `i` on (R71): none, or the SECTION value of the fault. -/
def entriesFault (bs : List Byte) (colophon : Nat) : Nat → Nat → Nat → Option Nat
  | 0, _, start => if start = colophon then none else some 0xFF
  | n + 1, i, start =>
    if entryOk bs i start colophon then entriesFault bs colophon n (i + 1) (start + (entryAt bs i).length) else some i

/-- The verdict before the section entries are read: the code, none where they are (R66, R69, R83). The spec does not say where in step 3 slot
A's IMAGE_LENGTH is held against the density: it is judged once the header has passed R69, before any entry (DESIGN CHOICE, log entry 109). -/
def State.slotFault (s : State) (bs : List Byte) : Option Nat :=
  if s.ld.unprovisioned then some 0x25
  else if s.slot = 1 ∧ s.ld.density < 26 then some 0x28
  else match headerFault bs (s.fld SUP_IDENT SUP_IDENT_STEPPING) with
    | some c => some c
    | none => if s.slot = 0 ∧ 2 ^ s.ld.density < 8 * at' bs 8 4 then some 0x28 else none

/-- The verdict on a slot's Catalog: code and SECTION, none where the body is to be read (R66, R69 to R72, R83). -/
def State.catalogFault (s : State) (bs : List Byte) : Option (Nat × Nat) :=
  match s.slotFault bs with
  | some c => some (c, 0xFF)
  | none =>
    let n := at' bs 6 2
    match entriesFault bs (at' bs 0x18 4) n 0 (0x20 + 16 * n) with
    | some sec => some (0x14, sec)
    | none =>
      let es := (List.range n).map (entryAt bs)
      if es.all (fun e => e.ty != 2) then some (0x14, 0xFF)
      else if 2097152 < (es.filter (fun e => e.ty = 1)).foldl (fun a e => a + e.length) 0 then some (0x14, 0xFF)
      else none

/-- The clock of the slot (R67): 25 MHz for the header, and for the rest of the slot what the header's NVM_CLK selects, but in the 0x03 fallback. -/
def State.slotClock (s : State) (bs : List Byte) : State :=
  s.setFld NVM_STAT NVM_STAT_CLK (if (s.slotFault bs).isNone && !s.ld.fallback03 then at' bs 0x0F 1 else 0)

/-- CATALOG_HEADER (R67, R69 to R72, R83): `bytes` are the header and the section entries of the slot. -/
def execCatalogHeader (bytes : List Byte) (s : State) : Host.Outcome State Fault Refusal :=
  .next (if s.loaderRuns && decide (s.life = stLoading) && decide (2 ≤ s.fld NVM_STAT NVM_STAT_STEP) && decide (s.ld.sections = [])
      && decide (s.ld.fail = none) then
    let s := (s.beginStep 3).slotClock bytes
    match s.catalogFault bytes with
    | some (c, sec) => s.failSlot c sec
    | none =>
      let s := { s with ld := { s.ld with
        sections := (List.range (at' bytes 6 2)).map (entryAt bytes), secNo := 0, imageLength := at' bytes 8 4
        version := w32 (at' bytes 0x10 4), build := w32 (at' bytes 0x14 4) } }
      let s := s.zero sramBase sramSize
      (s.readSlot (bytes.take (0x20 + 16 * at' bytes 6 2))).beginStep 4
  else s)

/-! ### Step 4: register-load records (R73 to R75) -/

/-- The field value a word holds, signed where the table's range is signed (R75). -/
def fieldValue (f : RegField) (w : Word) : Int :=
  let v := (Fld.mk f.lo (f.hi - f.lo + 1)).get w
  match f.range with
  | some (lo, _) => if lo < 0 then signed (f.hi - f.lo + 1) v else v
  | none => v

/-- A field's value is in the fixed part of its permitted range (R7, R75). -/
def fieldOk (f : RegField) (w : Word) : Bool :=
  match f.range with
  | some (lo, hi) => decide (lo ≤ fieldValue f w) && decide (fieldValue f w ≤ hi)
  | none => true

/-- The bits of a row's word that some field covers; the others are reserved, the whole word of a row without fields (R4). -/
def RegRow.covered (r : RegRow) : Nat := r.fields.foldl (fun a f => a ||| (Fld.mk f.lo (f.hi - f.lo + 1)).mask) 0

/-- The word at `a` as the records staged so far leave it. -/
def State.stagedWord (s : State) (a : Nat) : Word :=
  s.ld.staged.foldl (fun w r => if r.addr = a then (w &&& ~~~r.mask) ||| (r.value &&& r.mask) else w) (s.reg a)

/-- The fixed ranges that are no single interval of a field, judged on the fields a record touches: DPLL1 in the mask of a reference that it
may not select (chapter 09), a PTP domain of neither profile (R245), an ENTRY that is not 4-aligned (R324), a PERIOD of 1 to 9 µs (chapter 11). -/
def rangeOk (a : Nat) (mask w : Word) : Bool :=
  let sees (f : Fld) := decide (f.mask &&& mask.toNat ≠ 0)
  match slotOf a (TIM_REF_CFG 0) 16 16, slotOf a (TIM_PTP_PORT_CFG 0) 32 2, slotOf a (SVC_TASK_ENTRY 0) 16 256, slotOf a (SVC_TASK_W2 0) 16 256 with
  | some i, _, _, _ => !sees TIM_REF_CFG_DPLL_MASK || !w.getLsbD 6 || [10, 11, 14].contains i
  | _, some _, _, _ => !sees TIM_PTP_PORT_CFG_DOMAIN || decide (24 ≤ TIM_PTP_PORT_CFG_DOMAIN.get w ∧ TIM_PTP_PORT_CFG_DOMAIN.get w ≤ 63)
  | _, _, some _, _ => mask = 0 || decide (w.toNat % 4 = 0)
  | _, _, _, some _ => !sees SVC_TASK_W2_PERIOD || decide (SVC_TASK_W2_PERIOD.get w = 0 ∨ 10 ≤ SVC_TASK_W2_PERIOD.get w)
  | _, _, _, _ => true

/-- The verdict on one staged word: not image-settable (0x17), a reserved bit or a value out of range (0x18), or none (R74, R75). -/
def State.wordFault (s : State) (r : Staged) : Option Nat :=
  match regRow r.addr with
  | none => some 0x17
  | some row =>
    if !row.image || decide (r.addr = MTX_TGT_CFG6) then some 0x17
    else
      let w := (s.stagedWord r.addr &&& ~~~r.mask) ||| (r.value &&& r.mask)
      if (r.value &&& r.mask).toNat &&& (0xFFFFFFFF - row.covered) ≠ 0 then some 0x18
      else if row.fields.all (fun f => decide ((Fld.mk f.lo (f.hi - f.lo + 1)).mask &&& r.mask.toNat = 0) || fieldOk f w)
          && rangeOk r.addr r.mask w then none
      else some 0x18

/-- What a record head and its words say (R73): the END record, the words it writes, or none where it is malformed. -/
inductive Record where
  | finish
  | writes (l : List Staged)
deriving DecidableEq, Repr

/-- A register-load record, read from its words (R73). -/
def parseRecord : List Word → Option Record
  | [] => none
  | h :: ws =>
    let op := h.toNat >>> 28
    let n := h.toNat >>> 16 % 4096
    if h.toNat % 65536 ≠ 0 then none
    else if op = 0xF then if n = 0 ∧ ws = [] then some .finish else none
    else if op = 1 then
      match ws with
      | a :: vs => if 1 ≤ n ∧ vs.length = n then
          some (.writes (vs.zipIdx.map (fun p => ⟨a.toNat + 4 * p.2, 0xFFFFFFFF, p.1⟩))) else none
      | [] => none
    else if op = 2 then
      match ws with
      | [a, m, v] => if n = 1 ∧ v &&& ~~~m = 0 then some (.writes [⟨a.toNat, m, v⟩]) else none
      | _ => none
    else if op = 3 then
      match ws with
      | [a, v] => if 1 ≤ n then some (.writes ((List.range n).map (fun k => ⟨a.toNat + 4 * k, 0xFFFFFFFF, v⟩))) else none
      | _ => none
    else none

/-- The words of a record judged and staged one by one, until the first fault (R75). -/
def State.stageWords (s : State) (sec : Nat) : List Staged → State
  | [] => s
  | r :: rs =>
    match s.wordFault r with
    | some c => s.failSlot c sec
    | none => State.stageWords { s with ld := { s.ld with staged := s.ld.staged ++ [r] } } sec rs

/-- The section being read, none once all have been. -/
def State.section? (s : State) : Option SecEntry := s.ld.sections[s.ld.secNo]?

/-- Body bytes of the current section. -/
def State.readBody (s : State) (bs : List Byte) : State :=
  ({ s with ld := { s.ld with secBytes := s.ld.secBytes ++ bs } }).readSlot bs

/-- The loader reads a section of type `ty`, with no failure so far. -/
def State.inSection (s : State) (ty : Nat) : Bool :=
  s.loaderRuns && decide (s.life = stLoading) && decide (s.ld.fail = none) &&
    (match s.section? with | some e => decide (e.ty = ty) | none => false)

/-- REGISTER_LOAD_RECORD (R73 to R75): a whole record is judged for format, address and field ranges as it arrives, then staged. -/
def execRegisterLoadRecord (words : List Word) (s : State) : Host.Outcome State Fault Refusal :=
  .next (if s.inSection 1 then
    let sec := s.ld.secNo
    let s := s.readBody (words.flatMap (fun w => leBytes 4 w.toNat))
    if s.ld.ended then s.failSlot 0x16 sec
    else match parseRecord words with
      | none => s.failSlot 0x16 sec
      | some .finish => { s with ld := { s.ld with ended := true } }
      | some (.writes l) => s.stageWords sec l
  else s)

/-! ### Step 4: service programs and section ends (R70, R76) -/

/-- Two byte ranges of working SRAM, offset and size, share a byte; an empty one shares none. -/
def overlaps (a b : Nat × Nat) : Bool := decide (max a.1 b.1 < min (a.1 + a.2) (b.1 + b.2))

/-- SERVICE_PROGRAM_HEAD (R76). -/
def execServiceProgramHead (words : List Word) (s : State) : Host.Outcome State Fault Refusal :=
  .next (if s.inSection 2 && decide (s.ld.secBytes = []) && !s.ld.head then
    let sec := s.ld.secNo
    let w (i : Nat) : Nat := (words.getD i 0).toNat
    let len := match s.section? with
      | some e => e.length
      | none => 0
    let s := s.readBody (words.flatMap (fun w => leBytes 4 w.toNat))
    let s : State := { s with ld := { s.ld with head := true } }
    if words.length ≠ 4 ∨ w 0 % 4 ≠ 0 ∨ 0x7FFFC < w 0 ∨ w 1 + 16 ≠ len ∨ 1 < w 2 ∨ w 3 ≠ 0 ∨ sramSize < w 0 + w 1
        ∨ s.ld.programs.any (overlaps (w 0, w 1)) then s.failSlot 0x14 sec
    else if w 2 = 1 ∧ (s.ld.vector ∨ w 0 ≠ 0) then s.failSlot 0x27 sec
    else { s with ld := { s.ld with programs := s.ld.programs ++ [(w 0, w 1)], vector := s.ld.vector || decide (w 2 = 1) } }
  else s)

/-- The body of a service program whose head has been judged lands in working SRAM (R76). -/
def State.loadProgram (s : State) : State :=
  match s.ld.programs.getLast? with
  | some (a, n) => if s.ld.head then s.setBytes (sramBase + a) ((s.ld.secBytes.drop 16).take n) else s
  | none => s

/-- SECTION_END (R70, R72, R73, R76): `rest` are the body bytes not yet read; a program's body lands in working SRAM, the section's CRC is
checked, then the END record of a register load or the head of a program, and after the last section the presence of a VECTOR section. Words
after an END make it not the last, which is judged as they arrive. A program section too short for its head is judged at its end, after its CRC
as a missing END is (DESIGN CHOICE, log entry 110). -/
def execSectionEnd (rest : List Byte) (s : State) : Host.Outcome State Fault Refusal :=
  .next (if s.inSection 1 || s.inSection 2 || s.inSection 3 then
    match s.section? with
    | none => s
    | some e =>
      let sec := s.ld.secNo
      let s := s.readBody rest
      let s := if e.ty = 1 ∧ s.ld.ended ∧ rest ≠ [] then s.failSlot 0x16 sec else s
      let s := if e.ty = 2 then s.loadProgram else s
      let s := if crc32c s.ld.secBytes ≠ e.crc then s.failSlot 0x15 sec
        else if e.ty = 1 ∧ !s.ld.ended then s.failSlot 0x16 sec
        else if e.ty = 2 ∧ !s.ld.head then s.failSlot 0x14 sec
        else s
      let s := { s with ld := { s.ld with secNo := sec + 1, secBytes := [], ended := false, head := false } }
      if sec + 1 = s.ld.sections.length ∧ !s.ld.vector then s.failSlot 0x27 0xFF else s
  else s)

/-! ### Steps 5 and 6: checking, rejection and application (R77 to R83) -/

/-- Checks 1 to 5 of R79 on the Colophon: the code of the first failure, none where all pass. -/
def State.colophonFault (s : State) (c : List Byte) : Option Nat :=
  let digest := (c.drop 0x10).take 32
  let key := (c.drop 0x30).take 64
  if c.length ≠ 256 ∨ at' c 0 4 ≠ 0x4F4C4F43 ∨ at' c 4 2 ≠ 1 ∨ at' c 0xFC 4 ≠ (crc32c (c.take 0xFC)).toNat
      ∨ at' c 8 4 ≠ s.ld.version.toNat ∨ at' c 6 2 ≠ 0 ∨ (c.drop 0xB0).take 76 ≠ List.replicate 76 0 then some 0x20
  else if at' c 0x0C 4 ≠ (crc32c s.ld.slotBytes).toNat then some 0x21
  else if digest ≠ sha256 (s.ld.slotBytes ++ c.take 16) then some 0x22
  else if sha256 key ≠ (List.range 8).flatMap (fun k => leBytes 4 (s.reg (SUP_BKP_KEYHASH k)).toNat) then some 0x23
  else if ecdsaVerify (beNat (key.take 32)) (beNat (key.drop 32)) (beNat ((c.drop 0x70).take 32)) (beNat ((c.drop 0x90).take 32))
      (beNat digest) then none
  else some 0x24

/-- The bits of a staged record that its register takes: those its own type covers, so a status field keeps its value (R3). -/
def Staged.taken (r : Staged) : Word := r.mask &&& ((regRow r.addr).elim 0 RegRow.writable)

/-- The staged records written in order (R3, R75, R80). -/
def State.applyStaged (s : State) : State :=
  s.each s.ld.staged (fun s r => s.setReg r.addr ((s.reg r.addr &&& ~~~r.taken) ||| (r.value &&& r.taken)))

/-- SLOT_REJECT (R81): memories scrubbed, NVM_SLOT_STAT and event 0x041; slot B is tried next, and after it the module enters Safe. -/
def State.rejectSlot (s : State) (code sec : Nat) : State :=
  let slot := s.slot
  let s := (s.zero sramBase sramSize).zero folioBase folioSize
  let s := s.setFld (NVM_SLOT_STAT slot) NVM_SLOT_STAT_RESULT code
  let s := s.setFld (NVM_SLOT_STAT slot) NVM_SLOT_STAT_SECTION sec
  let s := s.raise islLD 0x041 [s.reg (NVM_SLOT_STAT slot)]
  if slot = 0 then
    let s := s.setFld SUP_STATE SUP_STATE_SLOT 1
    let s := s.setFld NVM_STAT NVM_STAT_CLK 0
    let s := s.enter stLoading 0x01 [s.reg SUP_RST_CAUSE]
    { s with ld := { Loader.init with
      running := true, selfChecked := true, timed := true, stepSince := s.ld.stepSince, unprovisioned := s.ld.unprovisioned
      fallback03 := s.ld.fallback03, density := s.ld.density } }
  else s.safeEntry 0x22

/-- Islands that leave reset in step 6: every enabled one but the service cores' (chapter 03, R86). -/
def State.stepSixIslands (s : State) : List Nat := (List.range 24).filter (fun i => s.enabled i && i != 1 && i != 2)

/-- SLOT_APPLY (R80): the accepted slot's islands leave reset, its records are written in order and folio memory is zero-filled. -/
def State.applySlot (s : State) : State :=
  let slot := s.slot
  let s := s.setFld (NVM_SLOT_STAT slot) NVM_SLOT_STAT_RESULT 0x01
  let s := s.setFld (NVM_SLOT_STAT slot) NVM_SLOT_STAT_SECTION 0xFF
  let s := s.raise islLD 0x042 [s.reg (NVM_SLOT_STAT slot)]
  let s := s.setReg SUP_ISLAND_CFG (s.stagedWord SUP_ISLAND_CFG)
  let s := s.setIslands s.stepSixIslands true
  let n := s.ld.staged.length
  let s := s.applyStaged
  let s := s.setReg NVM_IMG_VER s.ld.version
  let s := s.setReg NVM_IMG_BUILD s.ld.build
  let s := s.setFlag SUP_STATE SUP_STATE_PAIRED (s.flag SUP_FIT_CFG SUP_FIT_CFG_PAIRED)
  let s := s.zero folioBase folioSize
  let s := { s with ld := { s.ld with applied := true, staged := [], slotBytes := [] } }
  s.raise islLD 0x043 [w32 n]

/-- LD halts in the step whose mark it has sent: nothing more is executed, and SP goes on timing the step (R86, R420). -/
def State.haltLoader (s : State) : State := { s with ld := { s.ld with running := false } }

/-- What step 6 does (R79 to R81): a slot that has failed is rejected, and another passes check 6 and is applied, or is rejected. -/
def State.judgeSlot (s : State) (verdict : Option (Nat × Nat)) : State :=
  match verdict with
  | some (c, sec) => s.rejectSlot c sec
  | none => if crossRulesHold s.applyStaged then s.applySlot else s.rejectSlot 0x26 0xFF

/-- Steps 5 and 6 on a slot that has been read (R79 to R81, R86): Checking is entered; a slot that failed while it was read is rejected with its
code, and a slot read in full passes checks 1 to 6 or is rejected at the first failure. A loader that stalls in one of the two steps goes no
further. -/
def State.checkSlot (s : State) (colophon : List Byte) (stalls : CheckStall) : State :=
  let s := (s.enter stChecking 0x00).beginStep 5
  if stalls = .inStep5 then s.haltLoader
  else
    let verdict := match s.ld.fail with
      | some f => some f
      | none => (s.colophonFault colophon).map (fun c => (c, 0xFF))
    let s := s.beginStep 6
    if stalls = .inStep6 then s.haltLoader else s.judgeSlot verdict

/-- The slot has been read: it has failed, or its last section has ended. -/
def State.slotRead (s : State) : Bool :=
  s.ld.fail.isSome || (decide (s.ld.sections ≠ []) && decide (s.ld.secNo = s.ld.sections.length))

/-! ### Step 7: the Archive (R53, R84 to R86, R336) -/

/-- An Archive head is valid: MAGIC and LENGTH (R53, R84). -/
def archiveHeadOk (h : List Byte) : Bool := decide (at' h 0 4 = 0x41524348) && decide (at' h 4 4 = 4096)

/-- A head put in its place by falling accession number. -/
def insertHead (x : Nat × Nat) : List (Nat × Nat) → List (Nat × Nat)
  | [] => [x]
  | y :: l => if y.1 ≤ x.1 then x :: y :: l else y :: insertHead x l

/-- The valid heads by falling accession number, as (accession, index). -/
def archiveOrder (heads : List (List Byte)) : List (Nat × Nat) :=
  ((heads.zipIdx.filter (fun p => archiveHeadOk p.1)).map (fun p => (at' p.1 8 8, p.2))).foldr insertHead []

/-- A whole Archive record passes its check (R53). -/
def archiveOk (r : List Byte) : Bool :=
  decide (r.length = 4096) && archiveHeadOk r && decide (at' r 0xFFC 4 = (crc32c (r.take 0xFFC)).toNat)

/-- The newest record that passes, among the four with the highest numbers (R84): its index and bytes. -/
def newestArchive (heads : List (List Byte)) (records : List (Nat × List Byte)) : Option (Nat × List Byte) :=
  ((archiveOrder heads).take 4).findSome? fun p =>
    match tget records [] p.2 with
    | r => if archiveOk r then some (p.2, r) else none

/-- The Ledger records an Archive record holds, oldest first. -/
def archivedRecords (r : List Byte) : List (List Byte) :=
  (List.range (min 120 (at' r 0x2C 4))).map (fun i => (r.drop (0xE0 + 32 * i)).take 32)

/-- An Archive record's Ledger record copied back into its slot with FLAGS.RELOADED, unless a record numbered at this start owns the
slot (R336 step 1). -/
def State.reloadRecord (s : State) (r : List Byte) : State :=
  let n := at' r 0 6
  let taken := (List.range (min 2048 (s.eh.nextAcc - s.eh.startAcc))).any (fun i => decide ((s.eh.startAcc + i) % 2048 = n % 2048))
  if taken then s
  else s.setBytes (slotAddr n) (r.take 0x13 ++ [(r.getD 0x13 0) ||| 1] ++ r.drop 0x14)

/-- ARCHIVE_RECORD_HANDOFF (R336). -/
def State.takeArchive (s : State) (r : List Byte) : State :=
  let a := at' r 8 8
  if a < s.eh.nextAcc then s
  else
    let s := if s.eh.retGood then s else s.each (archivedRecords r) State.reloadRecord
    let next := (a / 2 ^ 32 + 1) * 2 ^ 32 + (a + 1) % 2048
    let s := { s with eh := { s.eh with nextAcc := next % 2 ^ 48, startAcc := next % 2 ^ 48 } }
    let s := s.setFlag EVT_STAT EVT_STAT_JUMPED true
    s.placeOwn 4 0x476 [w32 a, w32 (a / 2 ^ 32)]

/-- ARCHIVE_SCAN (R66, R68, R84): step 7; the newest valid record, if any, is handed to EH with event 0x047. -/
def execArchiveScan (heads : List (List Byte)) (records : List (Nat × List Byte)) (s : State) :
    Host.Outcome State Fault Refusal :=
  .next (if s.loaderRuns && decide (s.life = stChecking) && s.ld.applied && !s.ld.scanned then
    let s := s.beginStep 7
    let s := { s with ld := { s.ld with scanned := true } }
    if s.ld.density < 27 then s
    else match newestArchive heads records with
      | none => s
      | some (i, r) =>
        let s := s.setFld NVM_ARCH_STAT NVM_ARCH_STAT_NEWEST i
        let s := s.setFlag NVM_ARCH_STAT NVM_ARCH_STAT_FOUND true
        let s := { s with ld := { s.ld with archNewest := some i } }
        (s.raise islLD 0x047 [s.reg NVM_ARCH_STAT]).takeArchive r
  else s)

/-- ACCESSION_RESUME (R335): EH sets its next accession number and numbers the queued records, those of its own events among them. -/
def execAccessionResume (s : State) : Host.Outcome State Fault Refusal :=
  .next (if s.running islEH && !s.eh.numbered then
    let s := s.takeOwn
    if s.eh.numbered then s else s.numberQueue
  else s)

end Sys2Proof.Machine
end

