-- ==== Sys2Proof/Machine/Mgmt.lean ====
section
/-! DEFINITION. The management port: SPI and I2C transactions through the bridge, and the timers of the unlock sequence (R347 to R350). -/

namespace Sys2Proof.Machine

/-- The SPI target answers: EH runs and EVT_CFG enables it. -/
def State.spiOn (s : State) : Bool := s.running islEH && s.flag EVT_CFG EVT_CFG_SPI_EN

/-- The module's 7-bit I2C address, by the SENIOR strap (R348). -/
def State.i2cAddress (s : State) : BitVec 7 := if s.sp.senior then 0x5A else 0x5B

/-- The I2C target acknowledges `device`: it is the module's address, EH runs and EVT_CFG enables the target (R348, R349). -/
def State.i2cOn (s : State) (device : BitVec 7) : Bool :=
  s.running islEH && s.flag EVT_CFG EVT_CFG_I2C_EN && decide (device = s.i2cAddress)

/-- What the host clocks out. -/
def State.reply (s : State) (l : List Byte) : State := { s with mg := { s.mg with reply := l } }

/-- The status byte: the response code in bits 2:0. -/
def State.statusByte (s : State) : Byte := BitVec.ofNat 8 s.mtx.resp

/-- A word's four bytes on the wire, most significant first (R347). -/
def wireBytes (l : List Byte) : List Byte := l.reverse

/-- A bridge read: the state after it and the four data bytes, all 0 on an error response. -/
def State.bridgeRead (s : State) (a : Nat) : State × List Byte := s.busRead 7 0 a 4

/-- SPI_READ (R8, R347): 0xA5, the data, the status byte. -/
def execSpiRead (addr : Word) (s : State) : Host.Outcome State Fault Refusal :=
  .next (if s.spiOn then
    let r := s.bridgeRead addr.toNat
    r.1.reply ([0xA5] ++ wireBytes r.2 ++ [r.1.statusByte])
  else s)

/-- SPI_WRITE (R347, R350): 0xA5, the status byte. -/
def execSpiWrite (addr value : Word) (s : State) : Host.Outcome State Fault Refusal :=
  .next (if s.spiOn then
    let s := s.bridgeWrite addr.toNat value
    s.reply [0xA5, s.statusByte]
  else s)

/-- Event 0x47C, first in each second (R347, R419): bus 0 SPI or 1 I2C, the kind of error and the address. -/
def State.protocolError (s : State) (bus kind : Nat) (addr : Word) : State :=
  s.raiseFirst islEH 0x47C 0 [w32 (bus + 256 * kind), addr]

/-- SPI_BAD_OPCODE (R347): nothing is issued, 0xFF is returned until CS_N rises, and event 0x47C tells kind 1. -/
def execSpiBadOpcode (opcode : Byte) (s : State) : Host.Outcome State Fault Refusal :=
  .next (if s.spiOn && decide (opcode ≠ 0x02 ∧ opcode ≠ 0x03) then (s.reply [0xFF]).protocolError 0 1 0 else s)

/-- A transaction that ends early (R347, R348): before the access is issued nothing happens, kind 2; after it the access completes, a read
or a write of `v`, and its result is discarded, kind 3. -/
def State.endEarly (s : State) (bus : Nat) (addr : Option Word) (issued : Option (Option Word)) : State :=
  match addr, issued with
  | some a, some none => ((s.bridgeRead a.toNat).1).protocolError bus 3 a
  | some a, some (some v) => (s.bridgeWrite a.toNat v).protocolError bus 3 a
  | some a, none => s.protocolError bus 2 a
  | none, _ => s.protocolError bus 2 0

/-- SPI_EARLY_END (R347). -/
def execSpiEarlyEnd (addr : Option Word) (issued : Option (Option Word)) (s : State) : Host.Outcome State Fault Refusal :=
  .next (if s.spiOn then (s.endEarly 0 addr issued).reply [] else s)

/-- I2C_READ (R348): the data, the status byte. -/
def execI2cRead (device : BitVec 7) (addr : Word) (s : State) : Host.Outcome State Fault Refusal :=
  .next (if s.i2cOn device then
    let r := s.bridgeRead addr.toNat
    r.1.reply (wireBytes r.2 ++ [r.1.statusByte])
  else s)

/-- I2C_WRITE (R348): the status byte. -/
def execI2cWrite (device : BitVec 7) (addr value : Word) (s : State) : Host.Outcome State Fault Refusal :=
  .next (if s.i2cOn device then
    let s := s.bridgeWrite addr.toNat value
    s.reply [s.statusByte]
  else s)

/-- I2C_EARLY_END (R348). -/
def execI2cEarlyEnd (device : BitVec 7) (addr : Option Word) (issued : Option (Option Word)) (s : State) : Host.Outcome State Fault Refusal :=
  .next (if s.i2cOn device then (s.endEarly 1 addr issued).reply [] else s)

/-! ### The unlock sequence (R350) -/

/-- MGMT_UNLOCK_WRITE: an unlock word through the bridge, answered OKAY. -/
def execMgmtUnlockWrite (value : Word) (s : State) : Host.Outcome State Fault Refusal :=
  .next (if s.running islEH then s.bridgeWrite EVT_MGMT_UNLOCK value else s)

/-- UNLOCK_WINDOW_EXPIRY: no second word within 10 ms is a failed sequence. -/
def execUnlockWindowExpiry (s : State) : Host.Outcome State Fault Refusal :=
  .next (if s.running islEH && decide (s.unlockState = 1) then s.unlockFails else s)

/-- UNLOCK_BAR_END: the bridge is locked. -/
def execUnlockBarEnd (s : State) : Host.Outcome State Fault Refusal :=
  .next (if s.running islEH && decide (s.unlockState = 3) then s.setUnlock 0 else s)

/-- UNLOCK_TIMEOUT: UNLOCK_TO_S without a maintenance write that received OKAY; event 0x479 with reason 1. -/
def execUnlockTimeout (s : State) : Host.Outcome State Fault Refusal :=
  .next (if s.running islEH && decide (s.unlockState = 2) then s.lockBridge 1 else s)

end Sys2Proof.Machine
end

