-- ==== Sys2Proof/Machine/Mirror.lean ====
section
/-! DEFINITION. Class C mirroring at the sink (R272, R274). -/

namespace Sys2Proof.Machine

/-- One record of address, mask and value applied: APS and SNCP state as the Active twin decided it, everything else as a service write
through the mirror engine's port; the bits under the mask take the value. -/
def State.applyMirror (s : State) (r : MirrorRec) : State :=
  let a := r.addr.toNat
  match slotOf a (APS_STAT 0) 0x40 4, slotOf a (IDX_STATUS 0) 4 4096 with
  | some g, _ => if s.running islPX then s.setReg (APS_STAT g) ((s.reg a &&& ~~~r.mask) ||| (r.value &&& r.mask)) else s
  | _, some e =>
    if !s.running islPX then s
    else
      let s := s.setReg a ((s.reg a &&& ~~~(r.mask &&& selectorMask)) ||| (r.value &&& r.mask &&& selectorMask))
      (s.selectSide e (s.idx e IDX_STATUS_SEL)).updateTribs
  | _, _ => s.busWrite 5 0 a (wordBytes ((s.reg a &&& ~~~r.mask) ||| (r.value &&& r.mask)))

/-- MIRROR_C (R269, R272, R274): a message accepted in order is acknowledged, and in a twin that is not Active its records are applied in
order, after which SYNC_C stands. -/
def execMirrorC (m : MsgHead) (recs : List MirrorRec) (s : State) : Host.Outcome State Fault Refusal :=
  .next (s.received 2 m false fun s =>
    if s.mirrorSink then ((s.each recs State.applyMirror).setFlag TWN_SYNC_STAT TWN_SYNC_STAT_SYNC_C true).roleEval else s)

end Sys2Proof.Machine
end

