-- ==== Sys2Proof/Machine/Start.lean ====
section
/-! DEFINITION. Loader steps 5 to 9: the checking of a slot and its application, the preparation of the Archive, the entry into Armed, and
accesses to the NVM window (R61, R62, R78 to R87, R300, R301). -/

namespace Sys2Proof.Machine

/-- The blocks whose islands left reset in step 6 start on what the image has written (R80, R416). -/
def State.startBlocks (s : State) : State := s.each (s.stepSixIslands.filter (fun i => s.running i)) State.startBlock

/-- SLOT_CHECKING (R79 to R81, R86): the slot has failed or has been read in full, and Checking judges it, unless the loader stalls. -/
def execSlotChecking (colophon : List Byte) (stalls : CheckStall) (s : State) : Host.Outcome State Fault Refusal :=
  .next (if s.loaderRuns && decide (s.life = stLoading) && s.slotRead then
    let s := s.checkSlot colophon stalls
    if s.ld.applied then s.startBlocks else s
  else s)

/-- A task of the image: enabled ones become Idle, and those with INIT receive the Armed wake (R301, R305). -/
def State.armTask (s : State) (t : Nat) : State :=
  if s.flag (SVC_TASK_W1 t) SVC_TASK_W1_EN then
    let s := s.setTaskState t tkIdle
    if s.flag (SVC_TASK_W1 t) SVC_TASK_W1_INIT then s.wake t wkInit else s
  else s

/-- A check unit that the image has enabled runs from Armed, unit 31 with them, which was the loader's until then (R78, R344). -/
def State.armCheck (s : State) (u : Nat) : State :=
  (s.setUnit u { s.unit u with fed := false }).setFlag (CHK_STAT u) CHK_STAT_RUNNING (s.flag (CHK_ENTRY0 u) CHK_ENTRY0_EN)

/-- A core pair is released at Armed: it comes in and executes its start routine (R62, R300). -/
def State.releasePair (s : State) (q : Nat) : State :=
  if s.enabled (islSV q) then
    let s := (s.setIslands [islSV q] true).setFld (SVC_PAIR_STAT q) SVC_PAIR_STAT_STATE 0
    s.bootPair q
  else s

/-- Step 8: SWAP set with event 0x044, the window closed, the cores released; then Armed and step 9, in which required tasks report (R13,
R62, R86, R307). -/
def State.armModule (s : State) : State :=
  let s := (s.setFlag MTX_REMAP MTX_REMAP_SWAP true).setFlag NVM_STAT NVM_STAT_WINDOW false
  let s := s.raise islLD 0x044
  let s := ((s.enter stArmed 0x00).each [0, 1] State.releasePair).each (List.range 32) State.armCheck
  let s := s.each (List.range 256) State.armTask
  let s := s.beginStep 9
  ({ s with ld := { s.ld with running := false } }).dispatch.checkReady

/-- The record that follows the newest one in the ring, or record 0. -/
def State.nextArchive (s : State) : Nat :=
  match s.ld.archNewest with
  | some i => (i + 1) % 512
  | none => 0

/-- ARCHIVE_PREPARE (R66, R85, R86, R420): the erase ends, and step 8 follows; a loader that stalls in step 8 stays in Checking, with the record
prepared. Below 80 Mbit nothing is erased and neither event is raised. NEXT is the record that the erase was of also where the erase reports an
error (DESIGN CHOICE, log entry 111). -/
def execArchivePrepare (eraseOk stalls : Bool) (s : State) : Host.Outcome State Fault Refusal :=
  .next (if s.loaderRuns && decide (s.life = stChecking) && s.ld.applied && s.ld.scanned then
    let s := if s.ld.density < 27 then s
      else
        let s := s.setFld NVM_ARCH_STAT NVM_ARCH_STAT_NEXT s.nextArchive
        let s := s.setFlag NVM_ARCH_STAT NVM_ARCH_STAT_PREPARED eraseOk
        s.raise islLD (if eraseOk then 0x046 else 0x048) [s.reg NVM_ARCH_STAT]
    let s := s.beginStep 8
    if stalls then s.haltLoader else s.armModule
  else s)

/-- NVM_WINDOW_ACCESS (R13, R87, R95, R98): an access in the NVM window's range by a master that makes requests. Through the closed window it
ends DECODE with event 0x045. -/
def execNvmWindowAccess (port : Fin 8) (write : Bool) (addr : Word) (s : State) : Host.Outcome State Fault Refusal :=
  .next (if !s.portMay port || decide (s.target addr.toNat ≠ 6) then s
  else
    let id := if port.val < 4 then 6 else 0
    if !write then (s.busRead port id addr.toNat 4).1
    else if port.val = 7 then s.bridgeWrite addr.toNat 0
    else s.busWrite port id addr.toNat (wordBytes 0))

end Sys2Proof.Machine
end

