-- ==== Sys2Proof/Machine/Dispatch.lean ====
section
/-! DEFINITION. Which meaning each command has. -/

namespace Sys2Proof.Machine

def exec (i : Instr) (s : State) : Host.Outcome State Fault Refusal :=
  match i with
  -- power (R40, R49, R54, R55, R380, R382, R386)
  | .spPowerOnReset => Sys2Proof.Machine.execSpPowerOnReset s
  | .converterStart => Sys2Proof.Machine.execConverterStart s
  | .mainPowerGood senior test vbak => Sys2Proof.Machine.execMainPowerGood senior test vbak s
  | .powerFailure => Sys2Proof.Machine.execPowerFailure s
  | .archiveWriteDone => Sys2Proof.Machine.execArchiveWriteDone s
  | .powerReturn => Sys2Proof.Machine.execPowerReturn s
  | .converterStop => Sys2Proof.Machine.execConverterStop s
  | .railFailure r => Sys2Proof.Machine.execRailFailure r s
  | .railRestart => Sys2Proof.Machine.execRailRestart s
  | .sg5Warning c => Sys2Proof.Machine.execSg5Warning c s
  | .sg5Trip c => Sys2Proof.Machine.execSg5Trip c s
  | .sg5TripClear c => Sys2Proof.Machine.execSg5TripClear c s
  | .vbakMeasure vbak => Sys2Proof.Machine.execVbakMeasure vbak s
  | .rtBrownOut => Sys2Proof.Machine.execRtBrownOut s
  -- supervisor and safety (R28 to R48)
  | .mainClockDeviation => Sys2Proof.Machine.execMainClockDeviation s
  | .safetySelfTest pass => Sys2Proof.Machine.execSafetySelfTest pass s
  | .padEnableMismatch => Sys2Proof.Machine.execPadEnableMismatch s
  | .keepaliveLoss => Sys2Proof.Machine.execKeepaliveLoss s
  | .key2 => Sys2Proof.Machine.execKey2 s
  | .claimInChange level => Sys2Proof.Machine.execClaimInChange level s
  | .claimDisagree => Sys2Proof.Machine.execClaimDisagree s
  | .monitorEvaluation phaseA phaseB => Sys2Proof.Machine.execMonitorEvaluation phaseA phaseB s
  | .squelchRelease => Sys2Proof.Machine.execSquelchRelease s
  | .tmReport freq caseTemp ntcTemp phases => Sys2Proof.Machine.execTmReport freq caseTemp ntcTemp phases s
  | .spLaserShutdown n losHeld => Sys2Proof.Machine.execSpLaserShutdown n losHeld s
  | .l1Timeout g awaitedHigh => Sys2Proof.Machine.execL1Timeout g awaitedHigh s
  | .l2Timeout k => Sys2Proof.Machine.execL2Timeout k s
  | .l3Timeout q => Sys2Proof.Machine.execL3Timeout q s
  | .l4Timeout q => Sys2Proof.Machine.execL4Timeout q s
  | .l5Timeout idx => Sys2Proof.Machine.execL5Timeout idx s
  | .l6Timeout => Sys2Proof.Machine.execL6Timeout s
  | .l7Timeout => Sys2Proof.Machine.execL7Timeout s
  | .l8Timeout => Sys2Proof.Machine.execL8Timeout s
  | .safeHoldExpiry testPasses => Sys2Proof.Machine.execSafeHoldExpiry testPasses s
  | .safeSeal => Sys2Proof.Machine.execSafeSeal s
  | .safeCountClear => Sys2Proof.Machine.execSafeCountClear s
  | .l7Kick w checked kick token => Sys2Proof.Machine.execL7Kick w checked kick token s
  | .fittingMismatch => Sys2Proof.Machine.execFittingMismatch s
  | .fittingMismatchClear => Sys2Proof.Machine.execFittingMismatchClear s
  | .islandReset idx enter => Sys2Proof.Machine.execIslandReset idx enter s
  -- loader and image (R61 to R88, R420)
  | .bootRomSelfCheck crcOk => Sys2Proof.Machine.execBootRomSelfCheck crcOk s
  | .norDiscovery jedec sfdp => Sys2Proof.Machine.execNorDiscovery jedec sfdp s
  | .catalogHeader bytes => Sys2Proof.Machine.execCatalogHeader bytes s
  | .registerLoadRecord words => Sys2Proof.Machine.execRegisterLoadRecord words s
  | .serviceProgramHead words => Sys2Proof.Machine.execServiceProgramHead words s
  | .sectionEnd rest => Sys2Proof.Machine.execSectionEnd rest s
  | .slotChecking colophon stalls => Sys2Proof.Machine.execSlotChecking colophon stalls s
  | .archiveScan heads records => Sys2Proof.Machine.execArchiveScan heads records s
  | .archivePrepare eraseOk stalls => Sys2Proof.Machine.execArchivePrepare eraseOk stalls s
  | .nvmWindowAccess port write addr => Sys2Proof.Machine.execNvmWindowAccess port write addr s
  -- matrix and fences (R94 to R115)
  | .matrixRequest reqs => Sys2Proof.Machine.execMatrixRequest reqs s
  | .matrixResponse k => Sys2Proof.Machine.execMatrixResponse k s
  | .lateResponse target tag => Sys2Proof.Machine.execLateResponse target tag s
  | .masterPortReset port => Sys2Proof.Machine.execMasterPortReset port s
  | .registerWrite w addr value => Sys2Proof.Machine.execRegisterWrite w addr value s
  | .mtxTxnRead k => Sys2Proof.Machine.execMtxTxnRead k s
  | .mtxItcRead idx => Sys2Proof.Machine.execMtxItcRead idx s
  | .mtxFenceGo w token go => Sys2Proof.Machine.execMtxFenceGo w token go s
  | .fenceDrainDone => Sys2Proof.Machine.execFenceDrainDone s
  | .fenceMarker idx => Sys2Proof.Machine.execFenceMarker idx s
  | .fenceMarkerTimeout => Sys2Proof.Machine.execFenceMarkerTimeout s
  -- line ports (R116 to R144)
  | .losBallChange n level => Sys2Proof.Machine.execLosBallChange n level s
  | .modAbsChange n level => Sys2Proof.Machine.execModAbsChange n level s
  | .modAbsSettle n => Sys2Proof.Machine.execModAbsSettle n s
  | .electricalLos n lost => Sys2Proof.Machine.execElectricalLos n lost s
  | .cdrLockChange n locked => Sys2Proof.Machine.execCdrLockChange n locked s
  | .lineFrame n f => Sys2Proof.Machine.execLineFrame n f s
  | .berSubwindowEnd n d => Sys2Proof.Machine.execBerSubwindowEnd n d s
  | .lineKTxWrite n w value inKSlot => Sys2Proof.Machine.execLineKTxWrite n w value inKSlot s
  | .holdoffEnd n => Sys2Proof.Machine.execHoldoffEnd n s
  | .alsDeactivation n => Sys2Proof.Machine.execAlsDeactivation n s
  | .alsRestartPulse n => Sys2Proof.Machine.execAlsRestartPulse n s
  | .alsPulseEnd n => Sys2Proof.Machine.execAlsPulseEnd n s
  | .alsLosClear n => Sys2Proof.Machine.execAlsLosClear n s
  | .alsManualRestart n w token => Sys2Proof.Machine.execAlsManualRestart n w token s
  | .alsManualTest n w token => Sys2Proof.Machine.execAlsManualTest n w token s
  | .lineEnable n w => Sys2Proof.Machine.execLineEnable n w s
  | .lineDisable n w => Sys2Proof.Machine.execLineDisable n w s
  -- paths and Index (R145 to R167)
  | .pointerReading p r => Sys2Proof.Machine.execPointerReading p r s
  | .pathSecondEnd p => Sys2Proof.Machine.execPathSecondEnd p s
  | .pointerGeneration p fill vc => Sys2Proof.Machine.execPointerGeneration p fill vc s
  | .indexCheckSweep => Sys2Proof.Machine.execIndexCheckSweep s
  | .indexEntryWrite e word w value => Sys2Proof.Machine.execIndexEntryWrite e word w value s
  | .sncpEvaluation e => Sys2Proof.Machine.execSncpEvaluation e s
  | .sncpLockout e w => Sys2Proof.Machine.execSncpLockout e w s
  | .sncpForcedSwitch e w => Sys2Proof.Machine.execSncpForcedSwitch e w s
  | .sncpManualToProtecting e w => Sys2Proof.Machine.execSncpManualToProtecting e w s
  | .sncpManualToA e w => Sys2Proof.Machine.execSncpManualToA e w s
  | .sncpHoldoffExpiry e c => Sys2Proof.Machine.execSncpHoldoffExpiry e c s
  | .sncpWtrExpiry e => Sys2Proof.Machine.execSncpWtrExpiry e s
  -- tributaries (R168 to R196)
  | .tribCdrLockLoss p => Sys2Proof.Machine.execTribCdrLockLoss p s
  | .tribCdrUnlockLos p => Sys2Proof.Machine.execTribCdrUnlockLos p s
  | .tribLos p lost => Sys2Proof.Machine.execTribLos p lost s
  | .tribAisBlock p zeros => Sys2Proof.Machine.execTribAisBlock p zeros s
  | .tribFrame p rx => Sys2Proof.Machine.execTribFrame p rx s
  | .crc4MultiframeSearchEnd p => Sys2Proof.Machine.execCrc4MultiframeSearchEnd p s
  | .tribLofTimer p => Sys2Proof.Machine.execTribLofTimer p s
  | .tribSampleClockInvalid c => Sys2Proof.Machine.execTribSampleClockInvalid c s
  | .tribSampleClockValid c => Sys2Proof.Machine.execTribSampleClockValid c s
  | .uncontrolledSlip p overflow => Sys2Proof.Machine.execUncontrolledSlip p overflow s
  | .controlledSlip p delete => Sys2Proof.Machine.execControlledSlip p delete s
  | .templateWrite t idx w value => Sys2Proof.Machine.execTemplateWrite t idx w value s
  | .tribEnable p w => Sys2Proof.Machine.execTribEnable p w s
  | .tribDisable p w => Sys2Proof.Machine.execTribDisable p w s
  | .lloop p w on => Sys2Proof.Machine.execLloop p w on s
  | .forceAisTx p w on => Sys2Proof.Machine.execForceAisTx p w on s
  | .forceAisRx p w on => Sys2Proof.Machine.execForceAisRx p w on s
  -- pseudowires and the Lending Desk (R197 to R226)
  | .packetReceived p frame => Sys2Proof.Machine.execPacketReceived p frame s
  | .playoutSlot f => Sys2Proof.Machine.execPlayoutSlot f s
  | .folioGrant reqs => Sys2Proof.Machine.execFolioGrant reqs s
  | .pwTransmitPacket f bits stamp => Sys2Proof.Machine.execPwTransmitPacket f bits stamp s
  | .packetSent d => Sys2Proof.Machine.execPacketSent d s
  | .packetLinkChange p up => Sys2Proof.Machine.execPacketLinkChange p up s
  | .flowEnable f w value => Sys2Proof.Machine.execFlowEnable f w value s
  | .flowDisable f w value => Sys2Proof.Machine.execFlowDisable f w value s
  | .flowDrainTimeout f => Sys2Proof.Machine.execFlowDrainTimeout f s
  | .flowDrainComplete f => Sys2Proof.Machine.execFlowDrainComplete f s
  | .flowEntryWrite profile idx word w value => Sys2Proof.Machine.execFlowEntryWrite profile idx word w value s
  -- timing (R227 to R256)
  | .ocxoFault => Sys2Proof.Machine.execOcxoFault s
  | .ocxoRecovery => Sys2Proof.Machine.execOcxoRecovery s
  | .refFreqMeasure idx ppb => Sys2Proof.Machine.execRefFreqMeasure idx ppb s
  | .refActivityFailure idx failed => Sys2Proof.Machine.execRefActivityFailure idx failed s
  | .refQualify idx => Sys2Proof.Machine.execRefQualify idx s
  | .refHoldoffExpiry idx => Sys2Proof.Machine.execRefHoldoffExpiry idx s
  | .refSelection => Sys2Proof.Machine.execRefSelection s
  | .selClear d w token => Sys2Proof.Machine.execSelClear d w token s
  | .selForced d ref w token => Sys2Proof.Machine.execSelForced d ref w token s
  | .selManual d ref w token => Sys2Proof.Machine.execSelManual d ref w token s
  | .selForcedHoldover d w token => Sys2Proof.Machine.execSelForcedHoldover d w token s
  | .selForcedFreeRun d w token => Sys2Proof.Machine.execSelForcedFreeRun d w token s
  | .dpllLock d => Sys2Proof.Machine.execDpllLock d s
  | .dpllLockLoss d => Sys2Proof.Machine.execDpllLockLoss d s
  | .anchorSet => Sys2Proof.Machine.execAnchorSet s
  | .holdoverLimit => Sys2Proof.Machine.execHoldoverLimit s
  | .learningSample offset temp => Sys2Proof.Machine.execLearningSample offset temp s
  | .hoSamplePop bridge => Sys2Proof.Machine.execHoSamplePop bridge s
  | .modelCommit w token => Sys2Proof.Machine.execModelCommit w token s
  | .tempSensorFault fault => Sys2Proof.Machine.execTempSensorFault fault s
  | .esmcTimeout p => Sys2Proof.Machine.execEsmcTimeout p s
  | .esmcInformationPdu p => Sys2Proof.Machine.execEsmcInformationPdu p s
  | .esmcTxWrite p w value => Sys2Proof.Machine.execEsmcTxWrite p w value s
  | .ptpTransmit p => Sys2Proof.Machine.execPtpTransmit p s
  | .ptpPhaseSample p w value => Sys2Proof.Machine.execPtpPhaseSample p w value s
  | .todMessage seconds => Sys2Proof.Machine.execTodMessage seconds s
  | .timTodRead => Sys2Proof.Machine.execTimTodRead s
  -- twin (R257 to R281, R287, R289)
  | .tieHeartbeatSend => Sys2Proof.Machine.execTieHeartbeatSend s
  | .tiePulse width => Sys2Proof.Machine.execTiePulse width s
  | .tieOkLoss => Sys2Proof.Machine.execTieOkLoss s
  | .heartbeatSend => Sys2Proof.Machine.execHeartbeatSend s
  | .heartbeat m hb => Sys2Proof.Machine.execHeartbeat m hb s
  | .pair m id digest cfg ident senior => Sys2Proof.Machine.execPair m id digest cfg ident senior s
  | .pairSend => Sys2Proof.Machine.execPairSend s
  | .mirrorA m c => Sys2Proof.Machine.execMirrorA m c s
  | .mirrorB m c => Sys2Proof.Machine.execMirrorB m c s
  | .mirrorC m recs => Sys2Proof.Machine.execMirrorC m recs s
  | .mirrorSend classB => Sys2Proof.Machine.execMirrorSend classB s
  | .stream2Retransmit => Sys2Proof.Machine.execStream2Retransmit s
  | .stream2AckTimeout => Sys2Proof.Machine.execStream2AckTimeout s
  | .linkErrorDecay => Sys2Proof.Machine.execLinkErrorDecay s
  | .syncPulse frame superframe => Sys2Proof.Machine.execSyncPulse frame superframe s
  | .cal m echo stamp turnaround => Sys2Proof.Machine.execCal m echo stamp turnaround s
  | .calSend => Sys2Proof.Machine.execCalSend s
  | .twinSdCondition on => Sys2Proof.Machine.execTwinSdCondition on s
  | .twinSf => Sys2Proof.Machine.execTwinSf s
  | .handover m frame toJunior => Sys2Proof.Machine.execHandover m frame toJunior s
  | .commandedSwitch => Sys2Proof.Machine.execCommandedSwitch s
  | .handoverClaimTime => Sys2Proof.Machine.execHandoverClaimTime s
  | .handoverFrame => Sys2Proof.Machine.execHandoverFrame s
  | .sameInstantClaim => Sys2Proof.Machine.execSameInstantClaim s
  | .juniorYield => Sys2Proof.Machine.execJuniorYield s
  | .seniorSoloClaim => Sys2Proof.Machine.execSeniorSoloClaim s
  | .juniorSoloClaim => Sys2Proof.Machine.execJuniorSoloClaim s
  | .startWaitExpiry => Sys2Proof.Machine.execStartWaitExpiry s
  | .twnClear w token => Sys2Proof.Machine.execTwnClear w token s
  | .twnLo w token => Sys2Proof.Machine.execTwnLo w token s
  | .twnFs w token => Sys2Proof.Machine.execTwnFs w token s
  | .twnMsJ w token => Sys2Proof.Machine.execTwnMsJ w token s
  | .twnMsS w token => Sys2Proof.Machine.execTwnMsS w token s
  | .equipmentWtrExpiry => Sys2Proof.Machine.execEquipmentWtrExpiry s
  -- linear MSP (R282 to R289)
  | .apsClear g w token => Sys2Proof.Machine.execApsClear g w token s
  | .apsLockout g w token => Sys2Proof.Machine.execApsLockout g w token s
  | .apsForcedSwitch g chan w token => Sys2Proof.Machine.execApsForcedSwitch g chan w token s
  | .apsManualSwitch g chan w token => Sys2Proof.Machine.execApsManualSwitch g chan w token s
  | .apsExercise g chan w token => Sys2Proof.Machine.execApsExercise g chan w token s
  | .mspHoldoffExpiry g chan => Sys2Proof.Machine.execMspHoldoffExpiry g chan s
  | .mspWtrExpiry g => Sys2Proof.Machine.execMspWtrExpiry g s
  | .dfopTimer g present => Sys2Proof.Machine.execDfopTimer g present s
  -- service cores (R290 to R308)
  | .lockstepMismatch q output => Sys2Proof.Machine.execLockstepMismatch q output s
  | .pairSelfCheckDone q pass => Sys2Proof.Machine.execPairSelfCheckDone q pass s
  | .addi q gd ga imm => Sys2Proof.Machine.execAddi q gd ga imm s
  | .andi q gd ga imm => Sys2Proof.Machine.execAndi q gd ga imm s
  | .ori q gd ga imm => Sys2Proof.Machine.execOri q gd ga imm s
  | .xori q gd ga imm => Sys2Proof.Machine.execXori q gd ga imm s
  | .shi q gd ga imm => Sys2Proof.Machine.execShi q gd ga imm s
  | .slti q gd ga imm => Sys2Proof.Machine.execSlti q gd ga imm s
  | .lui q gd imm => Sys2Proof.Machine.execLui q gd imm s
  | .lw q gd ga imm => Sys2Proof.Machine.execLw q gd ga imm s
  | .lh q gd ga imm => Sys2Proof.Machine.execLh q gd ga imm s
  | .lhu q gd ga imm => Sys2Proof.Machine.execLhu q gd ga imm s
  | .lb q gd ga imm => Sys2Proof.Machine.execLb q gd ga imm s
  | .lbu q gd ga imm => Sys2Proof.Machine.execLbu q gd ga imm s
  | .sw q gs ga imm => Sys2Proof.Machine.execSw q gs ga imm s
  | .sh q gs ga imm => Sys2Proof.Machine.execSh q gs ga imm s
  | .sb q gs ga imm => Sys2Proof.Machine.execSb q gs ga imm s
  | .beq q ga gb off => Sys2Proof.Machine.execBeq q ga gb off s
  | .bne q ga gb off => Sys2Proof.Machine.execBne q ga gb off s
  | .blt q ga gb off => Sys2Proof.Machine.execBlt q ga gb off s
  | .bge q ga gb off => Sys2Proof.Machine.execBge q ga gb off s
  | .bltu q ga gb off => Sys2Proof.Machine.execBltu q ga gb off s
  | .bgeu q ga gb off => Sys2Proof.Machine.execBgeu q ga gb off s
  | .jal q off => Sys2Proof.Machine.execJal q off s
  | .jalr q gd ga imm => Sys2Proof.Machine.execJalr q gd ga imm s
  | .add q gd ga gb => Sys2Proof.Machine.execAdd q gd ga gb s
  | .sub q gd ga gb => Sys2Proof.Machine.execSub q gd ga gb s
  | .and q gd ga gb => Sys2Proof.Machine.execAnd q gd ga gb s
  | .or q gd ga gb => Sys2Proof.Machine.execOr q gd ga gb s
  | .xor q gd ga gb => Sys2Proof.Machine.execXor q gd ga gb s
  | .sll q gd ga gb => Sys2Proof.Machine.execSll q gd ga gb s
  | .srl q gd ga gb => Sys2Proof.Machine.execSrl q gd ga gb s
  | .sra q gd ga gb => Sys2Proof.Machine.execSra q gd ga gb s
  | .slt q gd ga gb => Sys2Proof.Machine.execSlt q gd ga gb s
  | .sltu q gd ga gb => Sys2Proof.Machine.execSltu q gd ga gb s
  | .mul q gd ga gb => Sys2Proof.Machine.execMul q gd ga gb s
  | .mulhu q gd ga gb => Sys2Proof.Machine.execMulhu q gd ga gb s
  | .divu q gd ga gb => Sys2Proof.Machine.execDivu q gd ga gb s
  | .remu q gd ga gb => Sys2Proof.Machine.execRemu q gd ga gb s
  | .amoSwap q gd ga gb => Sys2Proof.Machine.execAmoSwap q gd ga gb s
  | .amoAdd q gd ga gb => Sys2Proof.Machine.execAmoAdd q gd ga gb s
  | .amoAnd q gd ga gb => Sys2Proof.Machine.execAmoAnd q gd ga gb s
  | .amoOr q gd ga gb => Sys2Proof.Machine.execAmoOr q gd ga gb s
  | .done q => Sys2Proof.Machine.execDone q s
  | .fenceL q => Sys2Proof.Machine.execFenceL q s
  | .fenceG q => Sys2Proof.Machine.execFenceG q s
  | .rditc q gd => Sys2Proof.Machine.execRditc q gd s
  | .rditch q gd => Sys2Proof.Machine.execRditch q gd s
  | .raise q ga gb => Sys2Proof.Machine.execRaise q ga gb s
  | .ready q => Sys2Proof.Machine.execReady q s
  | .taskAbort q cause addr => Sys2Proof.Machine.execTaskAbort q cause addr s
  -- scheduler (R301 to R308, R325)
  | .taskPeriod t => Sys2Proof.Machine.execTaskPeriod t s
  | .taskMakeReady t w token => Sys2Proof.Machine.execTaskMakeReady t w token s
  | .taskCancel t w token woken => Sys2Proof.Machine.execTaskCancel t w token woken s
  | .taskEnable t w token => Sys2Proof.Machine.execTaskEnable t w token s
  | .taskDisable t w token woken => Sys2Proof.Machine.execTaskDisable t w token woken s
  -- observation (R327 to R352)
  | .eventAccept idx => Sys2Proof.Machine.execEventAccept idx s
  | .ledgerWrite => Sys2Proof.Machine.execLedgerWrite s
  | .accessionResume => Sys2Proof.Machine.execAccessionResume s
  | .evtPendClear k w mask => Sys2Proof.Machine.execEvtPendClear k w mask s
  | .evtLedgerNextRead => Sys2Proof.Machine.execEvtLedgerNextRead s
  | .inventoryTick => Sys2Proof.Machine.execInventoryTick s
  | .invSnapshot w token go => Sys2Proof.Machine.execInvSnapshot w token go s
  | .inventoryGatherDone => Sys2Proof.Machine.execInventoryGatherDone s
  | .checkBlockEnd u block carried => Sys2Proof.Machine.execCheckBlockEnd u block carried s
  | .checkEntryWrite u word w value => Sys2Proof.Machine.execCheckEntryWrite u word w value s
  -- management port (R347 to R351)
  | .spiRead addr => Sys2Proof.Machine.execSpiRead addr s
  | .spiWrite addr value => Sys2Proof.Machine.execSpiWrite addr value s
  | .spiBadOpcode opcode => Sys2Proof.Machine.execSpiBadOpcode opcode s
  | .spiEarlyEnd addr issued => Sys2Proof.Machine.execSpiEarlyEnd addr issued s
  | .i2cRead device addr => Sys2Proof.Machine.execI2cRead device addr s
  | .i2cWrite device addr value => Sys2Proof.Machine.execI2cWrite device addr value s
  | .i2cEarlyEnd device addr issued => Sys2Proof.Machine.execI2cEarlyEnd device addr issued s
  | .mgmtUnlockWrite value => Sys2Proof.Machine.execMgmtUnlockWrite value s
  | .unlockWindowExpiry => Sys2Proof.Machine.execUnlockWindowExpiry s
  | .unlockBarEnd => Sys2Proof.Machine.execUnlockBarEnd s
  | .unlockTimeout => Sys2Proof.Machine.execUnlockTimeout s
  -- Facsimile engines (R353 to R374)
  | .facStart n step w token => Sys2Proof.Machine.execFacStart n step w token s
  | .facStop n w token => Sys2Proof.Machine.execFacStop n w token s
  | .facTrig n w token => Sys2Proof.Machine.execFacTrig n w token s
  | .facAssign n port cmp w token => Sys2Proof.Machine.execFacAssign n port cmp w token s
  | .facRelease n w token => Sys2Proof.Machine.execFacRelease n w token s
  | .facCal n w token => Sys2Proof.Machine.execFacCal n w token s
  | .facCalDone n crossings => Sys2Proof.Machine.execFacCalDone n crossings s
  | .facSetSkew n skew w token => Sys2Proof.Machine.execFacSetSkew n skew w token s
  | .facSync w token go => Sys2Proof.Machine.execFacSync w token go s
  | .facStream n w token count => Sys2Proof.Machine.execFacStream n w token count s
  | .deadTimeEnd n => Sys2Proof.Machine.execDeadTimeEnd n s
  | .facTrigger n trigs => Sys2Proof.Machine.execFacTrigger n trigs s
  | .waitTimeout n => Sys2Proof.Machine.execWaitTimeout n s
  | .stepEnd n => Sys2Proof.Machine.execStepEnd n s
  | .vectorCompare n lag received => Sys2Proof.Machine.execVectorCompare n lag received s
  | .streamSample n => Sys2Proof.Machine.execStreamSample n s
  | .patternMemoryWrite idx w value => Sys2Proof.Machine.execPatternMemoryWrite idx w value s
  -- rows added at the table's end
  | .tribCdrLock p => Sys2Proof.Machine.execTribCdrLock p s
  | .twinLaneAlignment k lock aligned skew => Sys2Proof.Machine.execTwinLaneAlignment k lock aligned skew s
  | .twinLinkCodingError => Sys2Proof.Machine.execTwinLinkCodingError s
  | .syncPulseMissing => Sys2Proof.Machine.execSyncPulseMissing s
  | .transmitFrameBoundary augs => Sys2Proof.Machine.execTransmitFrameBoundary augs s
  | .tribTransmitSymbol p arrived => Sys2Proof.Machine.execTribTransmitSymbol p arrived s
  | .facsimileOutputSample n => Sys2Proof.Machine.execFacsimileOutputSample n s

end Sys2Proof.Machine
end

