-- ==== Sys2Proof/Machine/Step.lean ====
section
/-! DEFINITION. One step of the module: the command at the front of the queue, or the passing of time where none waits. -/

namespace Sys2Proof.Machine

/-- One step. On an empty queue nothing happens but that true time goes on by one frame (DESIGN CHOICE, log entry 2). -/
def step (s : State) : Host.Outcome State Fault Refusal :=
  match s.pending with
  | [] => .next { s with now := s.now + Config.tickNs }
  | c :: rest => exec c { s with pending := rest }

/-- The state with the command that a word spells at the front of its queue; no row of the table has bits, so none is spelled. -/
def State.withFetchWord (s : State) (nbits w : Nat) : State :=
  match decodeTableWord nbits w with
  | some c => { s with pending := c :: s.pending }
  | none => s

end Sys2Proof.Machine
end

