-- ==== Sys2Proof/Safety.lean ====
section
/-! DEFINITION. What counts as a safe run of the module, in the terms that statements use. -/

namespace Sys2Proof

open Sys2Proof.Machine

/-- Every table of the state is in its canonical form: keys strictly rising, and no entry equal to what an unlisted key reads as. -/
abbrev Safety.canonical (s : State) : Prop :=
  Memory.wf s.mem = true ∧ tableWf s.regs resetWord = true

/-- A step stops: it ends in a fault or a refusal. -/
def Safety.stops (s : State) : Prop := ∀ t, step s ≠ .next t

/-- The module drives its shared outputs only with both keys: it claims, and the other twin has been silent (R29). -/
abbrev Safety.twoKeys (s : State) : Prop :=
  s.flag SUP_SAFETY_STAT SUP_SAFETY_STAT_SHARED_EN = true →
    s.flag SUP_SAFETY_STAT SUP_SAFETY_STAT_CLAIM_OUT = true ∧ s.flag SUP_SAFETY_STAT SUP_SAFETY_STAT_KEY2 = true

/-! ### What a step leaves as it was -/

/-- No register but the listed ones differs. -/
def Safety.onlyRegs (l : List Nat) (s t : State) : Prop := ∀ a, a ∉ l → t.reg a = s.reg a

/-- No register outside the addresses that `p` holds of differs. -/
def Safety.regsOutside (p : Nat → Prop) (s t : State) : Prop := ∀ a, ¬ p a → t.reg a = s.reg a

/-- Every byte of memory reads as before. -/
def Safety.sameMem (s t : State) : Prop := ∀ a, t.byte a = s.byte a

/-- Exactly the listed events, by island and number, have been raised since, in order. -/
def Safety.raised (l : List (Nat × Nat)) (s t : State) : Prop :=
  t.chan.map (fun e => (e.isl, e.num)) = s.chan.map (fun e => (e.isl, e.num)) ++ l

/-- Nothing that memory, the registers, the events, the tasks, the fences or the other pair hold differs; pair `q` may. -/
def Safety.onlyCore (q : Nat) (s t : State) : Prop :=
  (∀ p, p ≠ q → t.core p = s.core p) ∧ Safety.onlyRegs [] s t ∧ Safety.sameMem s t ∧ t.chan = s.chan ∧ t.tasks = s.tasks
    ∧ t.mtx.txns = s.mtx.txns ∧ t.mtx.fence = s.mtx.fence

/-- Pair `q` wrote `v` to general register `gd` and went on to the next instruction: a write to g0 is ignored, and every other register of
the pair is as it was (R294). -/
def Safety.wrote (q gd : Nat) (v : Word) (s t : State) : Prop :=
  (∀ r, (t.core q).get r = if r = gd ∧ r ≠ 0 then v else (s.core q).get r) ∧ (t.core q).pc = (s.core q).pc + 4
    ∧ (t.core q).itcHi = (s.core q).itcHi ∧ (t.core q).stall = none ∧ (t.core q).starting = (s.core q).starting

/-- The same, and nothing else differs: what an instruction with a result and no access does. -/
def Safety.result (q gd : Nat) (v : Word) (s t : State) : Prop := Safety.wrote q gd v s t ∧ Safety.onlyCore q s t

/-- Pair `q` went to address `a` with every register as it was. -/
def Safety.wentTo (q : Nat) (a : Word) (s t : State) : Prop :=
  (∀ r, (t.core q).get r = (s.core q).get r) ∧ (t.core q).pc = a ∧ (t.core q).itcHi = (s.core q).itcHi ∧ (t.core q).stall = none
    ∧ (t.core q).starting = (s.core q).starting ∧ Safety.onlyCore q s t

/-- Nothing granted before waits to take effect at target `tgt`: every beat of a live transaction there has, and no write that received
TIMEOUT is undecided (R99, R101). -/
abbrev Safety.quietTarget (tgt : Nat) (s : State) : Prop :=
  (∀ p ∈ s.mtx.txns, p.2.target = tgt → p.2.req.beats ≤ p.2.codes.length) ∧ ∀ x ∈ s.mtx.lateWrites, x.target ≠ tgt

/-- No task other than `u` waits for a pair. -/
abbrev Safety.othersIdle (u : Nat) (s : State) : Prop :=
  ∀ v, v < 256 → v ≠ u → s.taskState v ≠ tkReady ∧ s.taskState v ≠ tkPreempted ∧ s.taskState v ≠ tkParked

/-- No task waits for a pair. -/
abbrev Safety.noneWaits (s : State) : Prop :=
  ∀ v, v < 256 → s.taskState v ≠ tkReady ∧ s.taskState v ≠ tkPreempted ∧ s.taskState v ≠ tkParked

/-- A writer's command reaches the register it is for, the matrix running: a service's from Armed onwards while its pair runs, maintenance's
through the unlocked bridge in Serving, Limp and Safe (R92, R350, R410). -/
abbrev Safety.mayCommand (w : Writer) (s : State) : Prop :=
  s.running islMX = true ∧ match w with
    | .service q => s.serviceMay q = true
    | .maintenance => s.running islEH = true ∧ s.unlocked = true ∧ s.maintained = true

/-- `u` is `s` once what the register target was granted before has taken effect (R101), and there a command of `w` reaches the register it
is for. With nothing in flight at that target `u` is `s`. -/
abbrev Safety.granted (w : Writer) (s u : State) : Prop := u = s.settleFor w ∧ Safety.mayCommand w u

/-- Frame `frame` at packet port `p` passes the checks of length and FCS, is neither PTP nor ESMC, and carries packet `k` for flow `f`
(R199, R200). -/
abbrev Safety.forFlow (s : State) (p : Nat) (frame : List Byte) (k : Pkt) (f : Nat) : Prop :=
  let t := vlanTags frame
  let g := frame.take 12 ++ (frame.take (frame.length - 4)).drop (12 + 4 * t)
  s.running (islPK p) = true ∧ 64 ≤ frame.length ∧ fcsOk frame = true ∧ frame.length ≤ 1518 + 4 * t ∧ s.ptpIn p g = none
    ∧ ¬ (g.take 6 = esmcAddress ∧ field g 12 2 = 0x8809 ∧ (g.getD 14 0).toNat = 0x0A) ∧ g.take 6 = s.portMac p
    ∧ parseFrame g = .packet k ∧ s.flowOf p k = some f

/-- Packet `k` passes every check before the jitter buffer of flow `f` and carries payload `l`, with L set in its control word or not
(R201 to R204, R220). -/
abbrev Safety.goodPacket (s : State) (f : Nat) (k : Pkt) (l : List Byte) : Prop :=
  s.flowEn f = true ∧ s.lend.descs.length < 4096 ∧ s.addrsMatch (s.flowProf f) k = true ∧ k.bad = false
    ∧ (k.zeroSum = true → s.flag (PW_PROF0 (s.flowProf f)) PW_PROF0_UDP0_OK = true)
    ∧ s.payloadOf f k.body = some l ∧ l.length = s.flowP f

/-- The registers in which the Lending Desk shows what is lent. -/
def Safety.lendRegs (a : Nat) : Prop := a = LEND_STAT ∨ a = LEND_SHARED ∨ a = LEND_RETURN_CNT ∨ ∃ k, k < 8192 ∧ a = LEND_MAP k

/-- A register of the TIM block. -/
def Safety.timRegs (a : Nat) : Prop := 0x40500000 ≤ a ∧ a < 0x40530000

/-- Commands that touch neither a byte of memory nor the life cycle: all but those that start, stop or reset something, that access memory,
registers or NVM at large, that take a rung of the timeout ladder, or that record in memory. -/
def Safety.quiet : Instr → Bool
  | .spPowerOnReset .. | .mainPowerGood .. | .powerFailure .. | .archiveWriteDone .. | .powerReturn .. | .converterStop .. |
    .railFailure .. | .sg5Trip .. | .mainClockDeviation .. | .safetySelfTest .. | .padEnableMismatch .. | .l1Timeout .. |
    .l2Timeout .. | .l3Timeout .. | .l4Timeout .. | .l5Timeout .. | .l7Timeout .. | .l8Timeout .. | .safeSeal .. |
    .fittingMismatch .. | .fittingMismatchClear .. | .islandReset .. | .catalogHeader .. | .sectionEnd .. | .slotChecking .. |
    .archiveScan .. | .archivePrepare .. | .nvmWindowAccess .. | .matrixRequest .. | .matrixResponse .. | .registerWrite .. |
    .fenceDrainDone .. | .fenceMarkerTimeout .. | .packetReceived .. | .pwTransmitPacket .. | .mirrorC .. | .lockstepMismatch .. |
    .pairSelfCheckDone .. | .shi .. | .lw .. | .lh .. | .lhu .. | .lb .. | .lbu .. | .sw .. | .sh .. | .sb .. | .amoSwap .. |
    .amoAdd .. | .amoAnd .. | .amoOr .. | .done .. | .fenceL .. | .ready .. | .taskAbort .. | .taskPeriod .. | .taskMakeReady .. |
    .taskCancel .. | .taskEnable .. | .taskDisable .. | .eventAccept .. | .ledgerWrite .. | .accessionResume .. |
    .inventoryGatherDone .. | .spiRead .. | .spiWrite .. | .spiEarlyEnd .. | .i2cRead .. | .i2cWrite .. | .i2cEarlyEnd .. |
    .mgmtUnlockWrite .. => false
  | _ => true

/-- The module runs alone, its role follows from the life cycle and no MSP group is enabled: what a port does stays with the port (R263,
R282). -/
abbrev Safety.alone (s : State) : Prop :=
  s.paired = false ∧ s.role = (if s.live then roActive else roObserver) ∧ ∀ g, g < 4 → s.flag (APS_CFG g) APS_CFG_EN = false

/-- Nothing differs but the registers in `l` and READY, which the role machine judges anew whenever a line port acts: no other bit of
TWN_STAT and no byte of memory (R260). -/
abbrev Safety.lineOnly (l : List Nat) (s t : State) : Prop :=
  Safety.onlyRegs (TWN_STAT :: l) s t ∧ (∀ j, j ≠ TWN_STAT_READY.lo → t.bitAt TWN_STAT j = s.bitAt TWN_STAT j) ∧ Safety.sameMem s t

/-- The registers of line port `n` that its receive side writes. -/
def Safety.lineRegs (n : Nat) : List Nat :=
  [LINE_STAT n, LINE_STICKY n, LINE_FRM_STAT n, LINE_OOF_CNT n, LINE_K_RX n, LINE_S1 n]

/-- Events of line port `n` by their k. -/
def Safety.lineEvents (n : Nat) (l : List Nat) : List (Nat × Nat) := l.map (fun k => (islLP n, 0x100 + 0x40 * n + k))

/-- The registers by which a tributary port shows what it transmits: they follow what the Index gives it (R190). -/
def Safety.tribTx (a : Nat) : Prop := ∃ p, p < 64 ∧ (a = TRIB_STAT p ∨ a = TRIB_TX_STAT p)

/-- A register of the TWN block, or SP's safety status, or the output status of a tributary port: what the role machine writes. -/
def Safety.twinRegs (a : Nat) : Prop := (0x40600000 ≤ a ∧ a < 0x40610000) ∨ a = SUP_SAFETY_STAT ∨ Safety.tribTx a

/-- Message head `m` is the next one of a stream of the twin link outside quarantine: it is accepted (R269). -/
abbrev Safety.nextMsg (s : State) (stream : Nat) (m : MsgHead) : Prop :=
  s.linkRuns = true ∧ s.twn TWN_STAT_QUAR = false ∧ (m.seq.toNat + 65536 - s.lastSeq stream) % 65536 = 1

/-- A register of the PATH block. -/
def Safety.pathBlock (a : Nat) : Prop := 0x40200000 ≤ a ∧ a < 0x40240000

/-- The registers of an Index entry's life: its words, its status, and what the Index keeps for all entries. -/
def Safety.idxRegs (e a : Nat) : Prop :=
  a = IDX_STATUS e ∨ a = IDX_STAT ∨ a = IDX_CHECK_CNT ∨ a = IDX_CHECK_LAST ∨ a = IDX_SWITCH_CNT ∨ a = IDX_ENTRY_W3 e

/-- The entry that feeds the endpoint `w` passes its check wherever it is active: the use changes nothing (R161). -/
abbrev Safety.feedOk (s : State) (w : Word) : Prop :=
  ∀ x, s.holder w = some x → s.idx x.1 IDX_STATUS_ACTIVE = true → s.entryOk x.1 = true

/-- The registers that hold the pointers and the store of a path. -/
def Safety.pointerRegs (p : PathId) : List Nat :=
  match p with
  | .ho h => [PATH_HO2 h, PATH_HO3 h]
  | .lo l => [PATH_LO3 l]

end Sys2Proof
end

