-- ==== Sys2Proof/WellFormed.lean ====
section
/-! DEFINITION. Which commands are well formed: operands that a type does not bound are within what the spec gives them. A meaning is total
and does not rest on this. -/

namespace Sys2Proof

/-- A request of 1 to 16 beats; a write carries strobes and data for each beat (R98). -/
def reqWf (r : Req) : Bool :=
  decide (1 ≤ r.beats ∧ r.beats ≤ 16) && (!r.write || decide (r.strobes.length = r.beats ∧ r.data.length = r.beats))

/-- Bytes of one received STM-1, STM-4 or STM-16 frame (R119). -/
def lineFrameWf (f : LineFrame) : Bool :=
  [2430, 9720, 38880].contains f.bytes.length && f.found.all (fun p => decide (p.2.length = f.bytes.length))

/-- The AUG-1s of one transmitted frame: 1, 4 or 16, each of 9 pointer bytes and 9 rows of 261 (R145). -/
def augsWf (l : List (List Byte)) : Bool := [1, 4, 16].contains l.length && l.all (fun a => decide (a.length = 2358))

/-- The container of a path: nine rows of a VC-4, a VC-3 or an STS-1 SPE, or four frames of a VC-12 or VC-11 (R152). -/
def vcWf (p : PathId) (vc : List Byte) : Bool :=
  match p with
  | .ho _ => [2349, 783, 765].contains vc.length
  | .lo _ => [765, 140, 104].contains vc.length

/-- An Archive record found on the NOR lies in the ring and has 4,096 bytes (R52). -/
def archiveWf (p : Nat × List Byte) : Bool := decide (p.1 < 512) && decide (p.2.length = 4096)

/-- The command's operands are within what the spec gives them. -/
def Instr.wf : Instr → Bool
  | .mainPowerGood _ _ vbak => decide (vbak < 512)
  | .norDiscovery _ (some t) => decide (24 ≤ t.densityLog2 ∧ t.densityLog2 ≤ 31)
  | .catalogHeader bytes => decide (0x20 ≤ bytes.length)
  | .registerLoadRecord words => decide (words ≠ [])
  | .slotChecking colophon _ => decide (colophon = [] ∨ colophon.length = 256)
  | .archiveScan heads records => decide (heads.length ≤ 512) && heads.all (fun h => decide (h.length = 16)) && records.all archiveWf
  | .matrixRequest reqs => reqs.all reqWf
  | .lineFrame _ f => lineFrameWf f
  | .pointerReading p r => vcWf p r.vc
  | .pointerGeneration p fill vc => decide (fill ≤ 64) && vcWf p vc
  | .tribAisBlock _ zeros => decide (zeros ≤ 512)
  | .tribFrame _ (some l) => decide (l.length = 193 ∨ l.length = 256)
  | .tribTransmitSymbol _ arrived => decide (arrived.length ≤ 512)
  | .packetReceived _ frame => decide (frame.length ≤ 1526)
  | .pwTransmitPacket _ bits _ => decide (bits.length % 8 = 0 ∧ bits.length ≤ 11520)
  | .flowEntryWrite profile _ word _ _ => profile || decide (word.val < 8)
  | .todMessage (some n) => decide (n < 2 ^ 48)
  | .cal _ _ stamp turnaround => decide (stamp < 2 ^ 64) && decide (turnaround < 2 ^ 32)
  | .mirrorB _ c => decide (c.ptpNanos < 1000000000)
  | .mirrorC _ recs => decide (recs.length ≤ 127)
  | .shi _ _ _ imm => shiftImmOk imm
  | .checkBlockEnd _ block _ => decide (block ≠ [])
  | .spiBadOpcode op => decide (op ≠ 0x02 ∧ op ≠ 0x03)
  | .spiEarlyEnd addr issued => addr.isSome || issued.isNone
  | .i2cEarlyEnd _ addr issued => addr.isSome || issued.isNone
  | .facCalDone _ crossings => decide (crossings.length = 64)
  | .transmitFrameBoundary augs => decide (augs.length = 8) && augs.all augsWf
  | _ => true

end Sys2Proof
end

