-- ==== Sys2Proof/Certificates/Slice0/Obligations.lean ====
section
/-! DEFINITION. The statements for the provers. A statement about a next state says that the command answers it, what it holds, and what it
leaves as it was: registers by address, memory by byte. -/

open Sys2Proof Sys2Proof.Machine

/-- SP power-on reset, converter start and stop, rail failures and restart, SG-5 and the backup cell. SP_POWER_ON_RESET of an unpowered SP
leaves the module Dormant, every register at its reset word, RT's seal and brown-out latch as they were, the retention bytes kept and
every other byte at what unlisted memory reads as (log entry 8, the model's choice). CONVERTER_START, with SP powered, the module Dormant
and no off time running, and RAIL_RESTART start the converter with all five rails good and change no other register and no byte.
RT_BROWN_OUT clears both seal registers and latches BOD_SEEN, and changes no register and no byte. RAIL_FAILURE of VCORE, VSER, VANA or
VDDIO in Dormant stops the converter, notes the rail as the last to fail, and keeps the converter off for 10 ms, or for 60 s after three
failures within 60 s. A VSUP failure is noted in SUP_RAIL_STAT alone. VBAK_MEASURE shows the measurement, sets VBAK_LOW below VBAK_WARN,
clears it more than 50 mV above, raises 0x023 where it changed, and touches no other register (R40, R54, R380, R381, R382, R392, R411,
R57, R386). -/
def Obligations.PowerUpAndRails : Prop :=
  ((∀ s : State, s.sp.powered = false →
    ∃ t, exec .spPowerOnReset s = .next t ∧ t.sp.powered = true ∧ t.life = stDormant ∧ (∀ a, t.reg a = resetWord a)
      ∧ t.sp.sealA = s.sp.sealA ∧ t.sp.sealB = s.sp.sealB ∧ t.sp.sealCrc = s.sp.sealCrc ∧ t.sp.bodSeen = s.sp.bodSeen ∧ t.chan = []
      ∧ (∀ a, retentionBase ≤ a → a < retentionBase + retentionSize → t.byte a = s.byte a)
      ∧ (∀ a, a < retentionBase ∨ retentionBase + retentionSize ≤ a → t.byte a = 0))
  ∧ (∀ s : State, s.sp.powered = true → s.sp.dormant = true → s.sp.railOff = 0 →
    ∃ t, exec .converterStart s = .next t ∧ t.sp.converter = true ∧ t.fld SUP_RAIL_STAT SUP_RAIL_STAT_GOOD = 0x1F
      ∧ Safety.onlyRegs [SUP_RAIL_STAT] s t ∧ Safety.sameMem s t ∧ t.chan = s.chan)
  ∧ (∀ s : State, s.sp.railOff ≠ 0 → s.sp.converter = false →
    ∃ t, exec .railRestart s = .next t ∧ t.sp.converter = true ∧ t.sp.railOff = 0 ∧ t.sp.rstCause = 3
      ∧ t.fld SUP_RAIL_STAT SUP_RAIL_STAT_GOOD = 0x1F ∧ Safety.onlyRegs [SUP_RAIL_STAT] s t ∧ Safety.sameMem s t ∧ t.chan = s.chan)
  ∧ (∀ s : State, ∃ t, exec .rtBrownOut s = .next t ∧ t.sp.sealA = 0 ∧ t.sp.sealB = 0 ∧ t.sp.bodSeen = true
      ∧ Safety.onlyRegs [] s t ∧ Safety.sameMem s t ∧ t.chan = s.chan))
  ∧ ((∀ (s : State) (r : Rail), s.sp.converter = true → r ≠ .vsup → s.sp.dormant = true →
    ∃ t, exec (.railFailure r) s = .next t ∧ t.sp.converter = false ∧ t.life = stDormant
      ∧ t.sp.railOff = (if 2 ≤ (s.sp.railFails.filter (fun x => s.now - x < 60000000000)).length then 60000 else 10)
      ∧ t.fld SUP_RAIL_STAT SUP_RAIL_STAT_GOOD = 0x10 ∧ t.fld SUP_RAIL_STAT SUP_RAIL_STAT_LAST_FAIL = railCode r)
  ∧ (∀ s : State, s.sp.converter = true →
    ∃ t, exec (.railFailure .vsup) s = .next t ∧ t.fld SUP_RAIL_STAT SUP_RAIL_STAT_LAST_FAIL = 5
      ∧ t.flag SUP_RAIL_STAT ⟨4, 1⟩ = false ∧ Safety.onlyRegs [SUP_RAIL_STAT] s t ∧ Safety.sameMem s t ∧ t.chan = s.chan)
  ∧ (∀ (s : State) (v : Fin 512), s.sp.converter = true →
    ∃ t, exec (.vbakMeasure v) s = .next t ∧ t.fld SUP_PWR_STAT SUP_PWR_STAT_VBAK = v
      ∧ (v.val < s.fld SUP_PWR_CFG SUP_PWR_CFG_VBAK_WARN → t.flag SUP_PWR_STAT SUP_PWR_STAT_VBAK_LOW = true)
      ∧ (s.fld SUP_PWR_CFG SUP_PWR_CFG_VBAK_WARN + 5 < v.val → t.flag SUP_PWR_STAT SUP_PWR_STAT_VBAK_LOW = false)
      ∧ Safety.onlyRegs [SUP_PWR_STAT] s t ∧ Safety.sameMem s t
      ∧ (s.sp.dormant = false → t.flag SUP_PWR_STAT SUP_PWR_STAT_VBAK_LOW ≠ s.flag SUP_PWR_STAT SUP_PWR_STAT_VBAK_LOW →
        Safety.raised [(islSP, 0x023)] s t)))

/-- Main power good into Loading, and the power-fail sequence that seals retention. From Dormant with SP powered and the converter
running, MAIN_POWER_GOOD with TEST latched low answers a next state in Loading, with the reset cause shown, SENIOR as latched, RT open for
writes with its seal cleared, the loader running, and SUP_RET_STAT.VALID telling whether retention was accepted: accepted contents are
kept byte for byte, others are zero-filled, and no byte outside the retention SRAM changes. With TEST latched high the module stays
Dormant with every register and byte as it was. POWER_FAILURE in any state but Dormant halts the loader and L7 and closes RT's write port,
and an RT in service then holds both seal words and the CRC-32C of the 96 KiB of retention SRAM as it now stands. ARCHIVE_WRITE_DONE shows
the record done, clears PREPARED and raises 0x02A. POWER_RETURN is a supervisor reset with cause 0x3 that keeps the seal and every byte.
CONVERTER_STOP, after a power failure or in Dormant, leaves the module Dormant with only VSUP good, retention bytes and seal kept (R14,
R26, R50, R55, R57, R58, R391, R49, R380, R381, R392). -/
def Obligations.StartAndPowerFail : Prop :=
  (∀ (s : State) (senior test : Bool) (vbak : Nat), s.sp.powered = true → s.sp.converter = true → s.sp.dormant = true →
    ((s.latchStraps senior test).sp.test = true →
      ∃ t, exec (.mainPowerGood senior test vbak) s = .next t ∧ t.life = stDormant ∧ Safety.onlyRegs [] s t ∧ Safety.sameMem s t)
    ∧ ((s.latchStraps senior test).sp.test = false →
      ∃ t, exec (.mainPowerGood senior test vbak) s = .next t ∧ t.life = stLoading ∧ t.sp.rtOpen = true ∧ t.sp.sealA = 0 ∧ t.sp.sealB = 0
        ∧ t.ld.running = true ∧ t.fld SUP_RST_CAUSE SUP_RST_CAUSE_CAUSE = s.sp.rstCause % 4
        ∧ t.flag SUP_RET_STAT SUP_RET_STAT_VALID = s.retentionGood
        ∧ (s.sp.latched = false → t.flag SUP_STATE SUP_STATE_SENIOR = senior)
        ∧ (s.retentionGood = true → Safety.sameMem s t)
        ∧ (s.retentionGood = false → ∀ a, retentionBase ≤ a → a < retentionBase + retentionSize → t.byte a = 0)
        ∧ (∀ a, a < retentionBase ∨ retentionBase + retentionSize ≤ a → t.byte a = s.byte a)))
  ∧ ((∀ s : State, s.sp.dormant = false → s.sp.powerFail = .idle →
    ∃ t, exec .powerFailure s = .next t ∧ t.sp.powerFail ≠ .idle ∧ t.sp.rtOpen = false ∧ t.ld.running = false ∧ t.sp.l7Run = false
      ∧ t.flag SUP_SAFETY_STAT SUP_SAFETY_STAT_SHARED_EN = false ∧ t.flag SUP_SAFETY_STAT SUP_SAFETY_STAT_CLAIM_OUT = false
      ∧ (s.running islRT = true → t.sp.sealA = sealWord ∧ t.sp.sealB = sealComplement
          ∧ t.sp.sealCrc = crc32c (t.bytes retentionBase retentionSize)))
  ∧ (∀ s : State, s.sp.powerFail = .archiving → s.sp.stopAfter = false →
    ∃ t, exec .archiveWriteDone s = .next t ∧ t.sp.powerFail = .waiting ∧ t.sp.archDone = true
      ∧ t.flag NVM_ARCH_STAT NVM_ARCH_STAT_PREPARED = false ∧ Safety.onlyRegs [NVM_ARCH_STAT] s t ∧ Safety.sameMem s t
      ∧ (s.sp.dormant = false → Safety.raised [(islLD, 0x02A)] s t))
  ∧ (∀ s : State, s.sp.powerFail = .waiting →
    ∃ t, exec .powerReturn s = .next t ∧ t.life = stDormant ∧ t.sp.rstCause = 3 ∧ t.sp.powerFail = .idle ∧ t.sp.sealA = s.sp.sealA
      ∧ t.sp.sealB = s.sp.sealB ∧ t.sp.sealCrc = s.sp.sealCrc ∧ Safety.sameMem s t ∧ t.flag SUP_SAFETY_STAT SUP_SAFETY_STAT_SHARED_EN = false
      ∧ t.flag SUP_SAFETY_STAT SUP_SAFETY_STAT_CLAIM_OUT = false)
  ∧ (∀ s : State, s.sp.converter = true → (s.sp.powerFail ≠ .idle ∨ s.sp.dormant = true) →
    ∃ t, exec .converterStop s = .next t ∧ t.life = stDormant ∧ t.sp.converter = false ∧ t.fld SUP_RAIL_STAT SUP_RAIL_STAT_GOOD = 0x10
      ∧ (∀ a, retentionBase ≤ a → a < retentionBase + retentionSize → t.byte a = s.byte a)
      ∧ t.sp.sealA = s.sp.sealA ∧ t.sp.sealB = s.sp.sealB ∧ t.sp.sealCrc = s.sp.sealCrc))

/-- Safe-class faults take the module to Safe: cause, count, outputs off, islands stopped. From every state but Dormant and Safe, a main
clock deviation, a failed safety self-test, one that finds a claim disagreement still standing, a pad-enable mismatch, an L7 timeout while
L7 counts, an L8 timeout of a timed loader step and a temperature trip each answer a next state in Safe with the entry cause the spec
gives them, SAFE_COUNT one higher and at most 255, CLAIM_OUT and the shared enable low, the squelch gate closed, every TX_DISABLE asserted
by SP, the NVM window closed, L7 stopped and every island but MX, EH, RT and SP out of service, with every byte of memory as it was. That
a standing disagreement fails the test is the model's reading (log entry 103) (R13, R14, R28, R30, R36, R39, R41, R44, R46, R48, R86). -/
def Obligations.SafeEntryRows : Prop :=
  ∀ (s : State) (x : Instr × Nat),
    (x = (.mainClockDeviation, 0x26) ∨ x = (.safetySelfTest false, 0x26)
      ∨ x = (.safetySelfTest true, 0x26) ∧ s.sp.claimBad = true ∧ s.claimDiffers = true ∨ x = (.padEnableMismatch, 0x26)
      ∨ x = (.l7Timeout, 0x20) ∧ s.sp.l7Run = true ∨ x = (.l8Timeout, 0x23) ∧ s.ld.timed = true
      ∨ x = (.sg5Trip .stageTemp, 0x24) ∨ x = (.sg5Trip .dieTemp, 0x24)) →
    s.life ≠ stDormant → s.life ≠ stSafe →
    ∃ t, exec x.1 s = .next t ∧ t.life = stSafe ∧ t.fld SUP_STATE SUP_STATE_ENTRY_CAUSE = x.2
      ∧ t.fld SUP_TO_STAT SUP_TO_STAT_SAFE_COUNT = min 255 (s.fld SUP_TO_STAT SUP_TO_STAT_SAFE_COUNT + 1)
      ∧ t.flag SUP_SAFETY_STAT SUP_SAFETY_STAT_CLAIM_OUT = false ∧ t.flag SUP_SAFETY_STAT SUP_SAFETY_STAT_SHARED_EN = false
      ∧ t.flag SUP_SAFETY_STAT SUP_SAFETY_STAT_SQUELCH = true ∧ t.fld SUP_SAFETY_STAT SUP_SAFETY_STAT_SP_ALS = 0xFF
      ∧ t.flag NVM_STAT NVM_STAT_WINDOW = false ∧ t.sp.l7Run = false ∧ (∀ i ∈ safeStops, t.running i = false) ∧ Safety.sameMem s t

/-- Safety event rows, monitors and the squelch gate. An SG-5 warning raises 0x020, and CLAIM_DISAGREE, where CLAIM_IN differs in a pair
from the claim that the twin reports, raises 0x015 and counts towards the next self-test; neither changes a register or a byte, and
CLAIM_DISAGREE where nothing differs changes nothing. A passed self-test that finds no standing disagreement changes no register, byte or
event and the count ends. A trip that clears clears its own bit of SUP_SAFETY_STAT and no other bit of any register, but for a converter
that the trip had stopped: it restarts, with every rail good and reset cause 3, once no trip of its kind stands. An over-voltage or
current trip runs the power-fail sequence: the Archive write is under way, or the converter has stopped and the module is Dormant, and the
shared outputs are off. MONITOR_EVALUATION takes one phase sample of each monitor; monitor A, while TM runs, disagrees exactly when this
estimate and the one before it are further than the limit from the frequency expected of the output, monitor B when both are from the
correction last accepted, or after three rejections of the correction word within a second; a monitor that starts to disagree raises 0x010
or 0x011, and the gate closes, with 0x012 where it was open, when either disagrees or TM reports neither a qualified reference nor a valid
model. SQUELCH_RELEASE, in Serving or Limp with TM running, both monitors agreeing and a reference or model standing, reopens the gate
with event 0x013. Neither changes any register but SUP_SAFETY_STAT, nor any byte. The estimate's rounding and the expectation in Free-run
are the model's (log entries 104, 105) (R28, R32, R39, R49, R33, R34, R35, R243). -/
def Obligations.SafetyEventsAndSquelch : Prop :=
  ((∀ (s : State) (c : Sg5), s.sp.dormant = false → ∃ t, exec (.sg5Warning c) s = .next t ∧ Safety.raised [(islSP, 0x020)] s t
      ∧ Safety.onlyRegs [] s t ∧ Safety.sameMem s t)
  ∧ (∀ s : State, s.sp.dormant = false → s.claimDiffers = true →
      ∃ t, exec .claimDisagree s = .next t ∧ t.sp.claimBad = true ∧ Safety.raised [(islSP, 0x015)] s t
      ∧ Safety.onlyRegs [] s t ∧ Safety.sameMem s t)
  ∧ (∀ s : State, s.claimDiffers = false → exec .claimDisagree s = .next s)
  ∧ (∀ s : State, s.sp.dormant = false → s.sp.claimBad = false ∨ s.claimDiffers = false →
      ∃ t, exec (.safetySelfTest true) s = .next t ∧ t.sp.claimBad = false ∧ t.life = s.life
      ∧ Safety.onlyRegs [] s t ∧ Safety.sameMem s t ∧ t.chan = s.chan)
  ∧ (∀ (s : State) (c : Sg5), s.sp.converter = true →
      ∃ t, exec (.sg5TripClear c) s = .next t ∧ t.bitAt SUP_SAFETY_STAT (16 + sg5Code c) = false
      ∧ (∀ j, j ≠ 16 + sg5Code c → t.bitAt SUP_SAFETY_STAT j = s.bitAt SUP_SAFETY_STAT j)
      ∧ t.life = s.life ∧ Safety.onlyRegs [SUP_SAFETY_STAT] s t ∧ Safety.sameMem s t ∧ t.chan = s.chan)
  ∧ (∀ (s : State) (c : Sg5), (c = .overVoltage ∨ c = .current) → s.sp.converter = false → s.sp.powered = true → s.sp.railOff = 0 →
      s.bitAt SUP_SAFETY_STAT (16 + sg5Code c) = true → s.bitAt SUP_SAFETY_STAT (17 - sg5Code c) = false →
      ∃ t, exec (.sg5TripClear c) s = .next t ∧ t.bitAt SUP_SAFETY_STAT (16 + sg5Code c) = false ∧ t.sp.converter = true
      ∧ t.sp.rstCause = 3 ∧ t.fld SUP_RAIL_STAT SUP_RAIL_STAT_GOOD = 0x1F
      ∧ Safety.onlyRegs [SUP_SAFETY_STAT, SUP_RAIL_STAT] s t ∧ Safety.sameMem s t ∧ t.chan = s.chan)
  ∧ (∀ (s : State) (c : Sg5), (c = .overVoltage ∨ c = .current) → s.life ≠ stDormant → s.sp.powerFail = .idle →
      ∃ t, exec (.sg5Trip c) s = .next t ∧ t.flag SUP_SAFETY_STAT SUP_SAFETY_STAT_SHARED_EN = false
      ∧ (t.sp.powerFail = .archiving ∨ t.life = stDormant ∧ t.sp.converter = false)))
  ∧ ((∀ (s : State) (a b : Int), s.sp.dormant = false →
    ∃ t, exec (.monitorEvaluation a b) s = .next t ∧ t.sp.phasesA = pushSample s.sp.phasesA a ∧ t.sp.phasesB = pushSample s.sp.phasesB b
      ∧ t.sp.overA = (s.running islTM && s.overLimit (slopeEstimate t.sp.phasesA) s.expectedA)
      ∧ t.sp.overB = s.overLimit (slopeEstimate t.sp.phasesB) s.sp.corr
      ∧ t.flag SUP_SAFETY_STAT SUP_SAFETY_STAT_MON_A = (t.sp.overA && s.sp.overA)
      ∧ t.flag SUP_SAFETY_STAT SUP_SAFETY_STAT_MON_B = (t.sp.overB && s.sp.overB || decide (3 ≤ s.recentRejects.length))
      ∧ t.flag SUP_SAFETY_STAT SUP_SAFETY_STAT_SQUELCH = (s.flag SUP_SAFETY_STAT SUP_SAFETY_STAT_SQUELCH
          || t.flag SUP_SAFETY_STAT SUP_SAFETY_STAT_MON_A || t.flag SUP_SAFETY_STAT SUP_SAFETY_STAT_MON_B || !(s.sp.refOk || s.sp.hoValid))
      ∧ Safety.raised ((if t.flag SUP_SAFETY_STAT SUP_SAFETY_STAT_MON_A && !s.flag SUP_SAFETY_STAT SUP_SAFETY_STAT_MON_A
            then [(islSP, 0x010)] else [])
          ++ (if t.flag SUP_SAFETY_STAT SUP_SAFETY_STAT_MON_B && !s.flag SUP_SAFETY_STAT SUP_SAFETY_STAT_MON_B then [(islSP, 0x011)] else [])
          ++ (if t.flag SUP_SAFETY_STAT SUP_SAFETY_STAT_SQUELCH && !s.flag SUP_SAFETY_STAT SUP_SAFETY_STAT_SQUELCH
            then [(islSP, 0x012)] else [])) s t
      ∧ Safety.onlyRegs [SUP_SAFETY_STAT] s t ∧ Safety.sameMem s t)
  ∧ (∀ s : State, s.inState [stServing, stLimp] = true → s.running islTM = true → s.flag SUP_SAFETY_STAT SUP_SAFETY_STAT_MON_A = false →
    s.flag SUP_SAFETY_STAT SUP_SAFETY_STAT_MON_B = false → (s.sp.refOk || s.sp.hoValid) = true →
    s.flag SUP_SAFETY_STAT SUP_SAFETY_STAT_SQUELCH = true →
    ∃ t, exec .squelchRelease s = .next t ∧ t.flag SUP_SAFETY_STAT SUP_SAFETY_STAT_SQUELCH = false
      ∧ Safety.raised [(islSP, 0x013)] s t ∧ Safety.onlyRegs [SUP_SAFETY_STAT] s t ∧ Safety.sameMem s t))

/-- The shared outputs are enabled only while the module claims and the second key stands. KEY2 with CLAIM_IN low grants the second key,
and the shared enable then stands exactly where CLAIM_OUT stands, the module is in Serving or Limp and the second gate is closed. Any
change of CLAIM_IN withdraws the key and the enable. Losing the keep-alive leaves no shared output driven and every laser off, whatever SP
commands. These rows and those named beside them keep the invariant that the enable implies both keys, and change no register but
SUP_SAFETY_STAT and the DRIVEN bits of TRIB_STAT (R16, R29, R30, R31, R36). -/
def Obligations.SharedOutputsNeedBothKeys : Prop :=
  (∀ (s t : State) (c : Instr), (c = .key2 ∨ c = .claimInChange true ∨ c = .claimInChange false ∨ c = .keepaliveLoss ∨ c = .squelchRelease
      ∨ c = .safeCountClear ∨ c = .claimDisagree ∨ c = .rtBrownOut) →
    Safety.twoKeys s → exec c s = .next t → Safety.twoKeys t)
  ∧ (∀ s : State, s.sp.powered = true → s.flag SUP_SAFETY_STAT SUP_SAFETY_STAT_CLAIM_IN = false →
    ∃ t, exec .key2 s = .next t ∧ t.flag SUP_SAFETY_STAT SUP_SAFETY_STAT_KEY2 = true
      ∧ t.flag SUP_SAFETY_STAT SUP_SAFETY_STAT_SHARED_EN =
        (s.flag SUP_SAFETY_STAT SUP_SAFETY_STAT_CLAIM_OUT && s.inState [stServing, stLimp] && !s.sp.secondGate)
      ∧ Safety.regsOutside (fun a => a = SUP_SAFETY_STAT ∨ ∃ p : Fin 64, a = TRIB_STAT p) s t ∧ Safety.sameMem s t ∧ t.chan = s.chan)
  ∧ (∀ (s : State) (level : Bool), s.sp.powered = true →
    ∃ t, exec (.claimInChange level) s = .next t ∧ t.flag SUP_SAFETY_STAT SUP_SAFETY_STAT_CLAIM_IN = level
      ∧ t.flag SUP_SAFETY_STAT SUP_SAFETY_STAT_KEY2 = false ∧ t.flag SUP_SAFETY_STAT SUP_SAFETY_STAT_SHARED_EN = false
      ∧ Safety.regsOutside (fun a => a = SUP_SAFETY_STAT ∨ ∃ p : Fin 64, a = TRIB_STAT p) s t ∧ Safety.sameMem s t ∧ t.chan = s.chan)
  ∧ (∀ s : State, ∃ t, exec .keepaliveLoss s = .next t ∧ t.sharedDriven = false
      ∧ (∀ p : Fin 64, s.running (islTR p) = true → t.flag (TRIB_STAT p) TRIB_STAT_DRIVEN = false) ∧ (∀ n, t.laserOff n = true)
      ∧ Safety.regsOutside (fun a => ∃ p : Fin 64, a = TRIB_STAT p) s t ∧ Safety.sameMem s t ∧ t.chan = s.chan)

/-- Safe hold and seal, the L7 kick, fitting mismatches. SAFE_HOLD_EXPIRY with the entry cause absent has EH accept everything on its way
and stops queueing; with the cause present the hold starts again at its present length. SAFE_SEAL with an empty queue and no power failure
resets the module with cause 0x2: Dormant, every register that SP does not hold at its reset word, every byte kept, and an RT in service
sealed with its CRC-32C. SAFE_COUNT_CLEAR in Serving or Limp puts SAFE_COUNT to 0 and changes nothing else. A service kick with code 0xA5
and a new token from a checked pair reloads L7, stores the token and clears RESULT; a wrong code or an unchecked pair gets RESULT 0x01, a
repeated token RESULT 0x02, and neither reloads; no other register changes. A single-fitted module in Serving with LIMP_EN that sees
CLAIM_IN high enters Limp with bit 3 of LIMP_CAUSES and cause 0x13; when CLAIM_IN has stayed low and that was the last cause it returns to
Serving (R47, R48, R50, R412, R14, R15, R23, R44). -/
def Obligations.SafeHoldKickAndFitting : Prop :=
  ((∀ s : State, s.life = stSafe → s.sp.sealing = false → s.sp.powerFail = .idle → s.causeAbsent true = true →
    ∃ t, exec (.safeHoldExpiry true) s = .next t ∧ t.sp.sealing = true ∧ t.chan = [] ∧ t.life = stSafe ∧ Safety.sameMem s t)
  ∧ (∀ s : State, s.life = stSafe → s.sp.sealing = false → s.sp.powerFail = .idle → s.causeAbsent false = false →
    ∃ t, exec (.safeHoldExpiry false) s = .next t ∧ t.sp.holdMs = s.safeHold ∧ t.sp.sealing = false
      ∧ Safety.onlyRegs [] s t ∧ Safety.sameMem s t ∧ t.chan = s.chan)
  ∧ (∀ s : State, s.sp.sealing = true → s.eh.queue = [] → s.sp.powerFail = .idle →
    ∃ t, exec .safeSeal s = .next t ∧ t.life = stDormant ∧ t.sp.rstCause = 2 ∧ Safety.sameMem s t
      ∧ (s.running islRT = true → t.sp.sealA = sealWord ∧ t.sp.sealB = sealComplement
          ∧ t.sp.sealCrc = crc32c (s.bytes retentionBase retentionSize))
      ∧ (∀ a, spHeld a = false → a ≠ SUP_SAFETY_STAT → (∀ i : Fin 23, a ≠ SUP_L5_STAT i) → t.reg a = resetWord a))
  ∧ (∀ s : State, s.inState [stServing, stLimp] = true →
    ∃ t, exec .safeCountClear s = .next t ∧ t.fld SUP_TO_STAT SUP_TO_STAT_SAFE_COUNT = 0 ∧ Safety.onlyRegs [SUP_TO_STAT] s t
      ∧ Safety.sameMem s t ∧ t.chan = s.chan))
  ∧ ((∀ (s u : State) (q : Fin 2) (token : Byte), Safety.granted (.service q) s u → u.running islSP = true →
    u.fld SUP_L7_KICK SUP_L7_KICK_TOKEN ≠ token.toNat →
    ∃ t, exec (.l7Kick (.service q) true 0xA5 token) s = .next t ∧ t.sp.l7Since = u.now ∧ t.fld SUP_L7_KICK SUP_L7_KICK_TOKEN = token.toNat
      ∧ t.fld SUP_L7_KICK SUP_L7_KICK_RESULT = 0 ∧ Safety.onlyRegs [SUP_L7_KICK] u t ∧ Safety.sameMem u t ∧ t.chan = u.chan)
  ∧ (∀ (s u : State) (q : Fin 2) (checked : Bool) (kick token : Byte), Safety.granted (.service q) s u → u.running islSP = true →
    (kick ≠ 0xA5 ∨ checked = false ∨ u.tokenIs SUP_L7_KICK SUP_L7_KICK_TOKEN token.toNat = true) →
    ∃ t, exec (.l7Kick (.service q) checked kick token) s = .next t ∧ t.sp.l7Since = u.sp.l7Since
      ∧ t.fld SUP_L7_KICK SUP_L7_KICK_RESULT = (if kick ≠ 0xA5 ∨ checked = false then 1 else 2)
      ∧ Safety.onlyRegs [SUP_L7_KICK] u t ∧ Safety.sameMem u t ∧ t.chan = u.chan)
  ∧ (∀ s : State, s.flag SUP_FIT_CFG SUP_FIT_CFG_PAIRED = false → s.flag SUP_SAFETY_STAT SUP_SAFETY_STAT_CLAIM_IN = true →
    s.flag SUP_FIT_CFG SUP_FIT_CFG_LIMP_EN = true → s.life = stServing →
    ∃ t, exec .fittingMismatch s = .next t ∧ t.life = stLimp ∧ t.flag SUP_STATE ⟨19, 1⟩ = true
      ∧ t.fld SUP_STATE SUP_STATE_ENTRY_CAUSE = 0x13 ∧ Safety.sameMem s t)
  ∧ (∀ s : State, s.flag SUP_SAFETY_STAT SUP_SAFETY_STAT_CLAIM_IN = false → s.life = stLimp → s.fld SUP_STATE SUP_STATE_LIMP_CAUSES = 8 →
    ∃ t, exec .fittingMismatchClear s = .next t ∧ t.life = stServing ∧ t.fld SUP_STATE SUP_STATE_LIMP_CAUSES = 0 ∧ Safety.sameMem s t))

/-- Firings of the timeout ladder, and islands entering and leaving reset. Below the escalation count, an L1 firing returns the gate to
idle, counts it in MTX_GATE_TO_CNT and SUP_TO_CNT, shows level and source in SUP_TO_STAT and raises 0x030, and with no transaction in
flight it loses the oldest event on its way over the gate, where there is one, and changes nothing else. An L2 firing on the one read in
flight, with none held at a port, takes it out of the in-flight table. An L5 firing takes an island that no core pair owns out of service,
SP aside; of RT it also discards the retention contents with their seal, and no other byte. An L6 firing lowers LINK_UP. SP counts each in
SUP_TO_CNT and shows level and source. ISLAND_RESET into reset, for every island but SP, leaves it out of service with its side of every
gate offline; out of reset it runs again with its side of every gate online. SP is never reset by this row (R42, R43, R45, R93, R100,
R268, R26, R90, R92). -/
def Obligations.LadderAndIslandReset : Prop :=
  ((∀ (s : State) (g : Fin 61) (h : Bool), s.sp.dormant = false → s.running (gateEnds g).1 = true → s.running (gateEnds g).2 = true →
    s.mtx.txns = [] → s.windowCount 1 g 1000000000 < 16 →
    ∃ t, exec (.l1Timeout g h) s = .next t ∧ t.fld (MTX_GATE_STAT g) MTX_GATE_STAT_PHASE = 0
      ∧ t.reg (SUP_TO_CNT 0) = s.reg (SUP_TO_CNT 0) + 1 ∧ t.fld SUP_TO_STAT SUP_TO_STAT_LEVEL = 1
      ∧ t.fld SUP_TO_STAT SUP_TO_STAT_SOURCE = g ∧ t.reg (MTX_GATE_TO_CNT g) = s.reg (MTX_GATE_TO_CNT g) + 1
      ∧ t.chan.map (fun e => (e.isl, e.num)) =
        ((s.eventOver g).elim s.chan s.chan.erase).map (fun e => (e.isl, e.num)) ++ [(islSP, 0x030)]
      ∧ Safety.sameMem s t ∧ Safety.onlyRegs [MTX_GATE_STAT g, MTX_GATE_TO_CNT g, SUP_TO_CNT 0, SUP_TO_STAT] s t)
  ∧ (∀ (s : State) (k : Fin 98) (tx : Txn), s.mtx.txns = [(k.val, tx)] → tx.req.write = false → s.mtx.held = [] →
    s.windowCount 2 tx.target 1000000000 < 16 →
    ∃ t, exec (.l2Timeout k) s = .next t ∧ t.mtx.txns = [] ∧ t.reg (SUP_TO_CNT 1) = s.reg (SUP_TO_CNT 1) + 1
      ∧ t.fld SUP_TO_STAT SUP_TO_STAT_LEVEL = 2 ∧ t.fld SUP_TO_STAT SUP_TO_STAT_SOURCE = tx.target % 4096)
  ∧ (∀ (s : State) (i : Fin 24), s.running i = true → i.val ≠ 1 → i.val ≠ 2 → i.val ≠ islSP → s.windowCount 5 i 10000000000 < 2 →
    ∃ t, exec (.l5Timeout i) s = .next t ∧ t.running i = false ∧ t.reg (SUP_TO_CNT 4) = s.reg (SUP_TO_CNT 4) + 1
      ∧ t.fld SUP_TO_STAT SUP_TO_STAT_LEVEL = 5 ∧ t.fld SUP_TO_STAT SUP_TO_STAT_SOURCE = i)
  ∧ (∀ s : State, s.running islRT = true → s.windowCount 5 islRT 10000000000 < 2 →
    ∃ t, exec (.l5Timeout 22) s = .next t ∧ t.sp.sealA = 0 ∧ t.sp.sealB = 0
      ∧ (∀ a, retentionBase ≤ a → a < retentionBase + retentionSize → t.byte a = 0)
      ∧ (∀ a, a < retentionBase ∨ retentionBase + retentionSize ≤ a → t.byte a = s.byte a))
  ∧ (∀ s : State, s.running islTW = true → s.twn TWN_STAT_LINK_UP = true →
    ∃ t, exec .l6Timeout s = .next t ∧ t.flag TWN_STAT TWN_STAT_LINK_UP = false ∧ t.reg (SUP_TO_CNT 5) = s.reg (SUP_TO_CNT 5) + 1
      ∧ t.fld SUP_TO_STAT SUP_TO_STAT_LEVEL = 6 ∧ Safety.sameMem s t))
  ∧ ((∀ (s : State) (i : Fin 24), s.sp.dormant = false → s.running i = true → i.val ≠ islSP →
    ∃ t, exec (.islandReset i true) s = .next t ∧ t.running i = false
      ∧ (∀ g : Fin 61, (gateEnds g).1 = i.val → t.flag (MTX_GATE_STAT g) MTX_GATE_STAT_OFFLINE_LO = true)
      ∧ (∀ g : Fin 61, (gateEnds g).2 = i.val → t.flag (MTX_GATE_STAT g) MTX_GATE_STAT_OFFLINE_HI = true))
  ∧ (∀ (s : State) (i : Fin 24), s.running i = false → s.mayRun i = true → s.sp.dormant = false →
    ∃ t, exec (.islandReset i false) s = .next t ∧ t.running i = true
      ∧ (∀ g : Fin 61, (gateEnds g).1 = i.val → t.flag (MTX_GATE_STAT g) MTX_GATE_STAT_OFFLINE_LO = false)
      ∧ (∀ g : Fin 61, (gateEnds g).2 = i.val → t.flag (MTX_GATE_STAT g) MTX_GATE_STAT_OFFLINE_HI = false))
  ∧ (∀ s : State, exec (.islandReset 23 true) s = .next s))

/-- A core pair stops on a mismatch or a watchdog expiry, restarts after its self-check, and a task over budget is aborted. A lockstep
mismatch of a pair that is in takes it out of service, counted, with event 0x441 on its way to EH and its Limp cause set unless the module
goes to Safe: restarting, or at the third within 10 s held out with 0x442. An L4 timeout takes it out likewise, held out at the third with
0x443. A passed self-check releases the restarting pair, which begins its start routine at address 0; a failed one holds it out. An L3
timeout with fewer than three aborts behind it aborts the running task once, counted in its ABORTS field, its own count and SVC_ABORT_CNT,
with event 0x444 (R42, R45, R291, R292, R293, R300, R306). -/
def Obligations.PairLossAndReturn : Prop :=
  (∀ (s : State) (q : Fin 2) (output : Word), s.running (islSV q) = true → s.fld (SVC_PAIR_STAT q) SVC_PAIR_STAT_STATE = 0 →
    ∃ t, exec (.lockstepMismatch q output) s = .next t ∧ t.reg SVC_LOCKSTEP_CNT = s.reg SVC_LOCKSTEP_CNT + 1
      ∧ t.fld (SVC_PAIR_STAT q) SVC_PAIR_STAT_STATE = (if 3 ≤ s.windowCount 9 q 10000000000 then 2 else 1)
      ∧ t.running (islSV q) = false ∧ (t.life = stSafe ∨ t.bitAt SUP_STATE (16 + q) = true)
      ∧ (∃ ev ∈ t.chan, ev.isl = islSV q ∧ ev.num = 0x441 ∧ ev.data = [w32 q, output])
      ∧ (3 ≤ s.windowCount 9 q 10000000000 → ∃ ev ∈ t.chan, ev.isl = islSV q ∧ ev.num = 0x442))
  ∧ (∀ (s : State) (q : Fin 2), s.inState [stArmed, stServing, stLimp] = true → s.sp.powerFail = .idle →
    s.fld (SVC_PAIR_STAT q) SVC_PAIR_STAT_STATE = 1 →
    ∃ t, exec (.pairSelfCheckDone q true) s = .next t ∧ t.fld (SVC_PAIR_STAT q) SVC_PAIR_STAT_STATE = 0 ∧ t.running (islSV q) = true
      ∧ (t.core q).starting = true ∧ (t.core q).pc = 0)
  ∧ (∀ (s : State) (q : Fin 2), s.inState [stArmed, stServing, stLimp] = true → s.sp.powerFail = .idle →
    s.fld (SVC_PAIR_STAT q) SVC_PAIR_STAT_STATE = 1 →
    ∃ t, exec (.pairSelfCheckDone q false) s = .next t ∧ t.fld (SVC_PAIR_STAT q) SVC_PAIR_STAT_STATE = 2)
  ∧ (∀ (s : State) (q : Fin 2), s.running (islSV q) = true → s.fld (SVC_PAIR_STAT q) SVC_PAIR_STAT_STATE = 0 →
    ∃ t, exec (.l4Timeout q) s = .next t ∧ t.reg (SUP_TO_CNT 3) = s.reg (SUP_TO_CNT 3) + 1 ∧ t.running (islSV q) = false
      ∧ t.fld (SVC_PAIR_STAT q) SVC_PAIR_STAT_STATE = (if 3 ≤ s.windowCount 4 q 10000000000 then 2 else 1)
      ∧ (3 ≤ s.windowCount 4 q 10000000000 → ∃ ev ∈ t.chan, ev.isl = islSV q ∧ ev.num = 0x443))
  ∧ (∀ (s : State) (q : Fin 2), s.running (islSV q) = true → s.fld (SVC_PAIR_STAT q) SVC_PAIR_STAT_STATE = 0 → s.pairTask q < 256 →
    s.fld (SVC_TASK_STAT (s.pairTask q)) SVC_TASK_STAT_ABORTS < 3 →
    ∃ t, exec (.l3Timeout q) s = .next t ∧ t.reg (SUP_TO_CNT 2) = s.reg (SUP_TO_CNT 2) + 1
      ∧ t.fld (SVC_TASK_STAT (s.pairTask q)) SVC_TASK_STAT_ABORTS = s.fld (SVC_TASK_STAT (s.pairTask q)) SVC_TASK_STAT_ABORTS + 1
      ∧ t.reg SVC_ABORT_CNT = s.reg SVC_ABORT_CNT + 1
      ∧ t.reg (SVC_TASK_ABORTS (s.pairTask q)) = s.reg (SVC_TASK_ABORTS (s.pairTask q)) + 1
      ∧ ∃ ev ∈ t.chan, ev.isl = islSV q ∧ ev.num = 0x444 ∧ ev.data = [w32 (s.pairTask q)])

/-- Loader steps 1 to 3: the boot ROM self-check, the discovery of the NOR, the Catalog. In Loading, in the step 1 that LD marked as it
left reset, BOOT_ROM_SELF_CHECK goes on only where the check passed, and latches whether the module is unprovisioned; no register changes.
NOR_DISCOVERY begins step 2, stores the JEDEC ID, takes density, addressing and read mode from SFDP or falls back to command 0x03 at 128
Mbit, and raises 0x040. CATALOG_HEADER keeps the first fault it finds and then stores nothing; a Catalog without fault has its entries,
version and length kept and working SRAM zero-filled, and no byte outside it changes (R64, R65, R66, R69, R70, R71, R83, R86, R420). -/
def Obligations.LoaderSteps : Prop :=
  (∀ (s : State) (ok : Bool), s.loaderRuns = true → s.life = stLoading → s.fld NVM_STAT NVM_STAT_STEP = 1 → s.ld.selfChecked = false →
    ∃ t, exec (.bootRomSelfCheck ok) s = .next t ∧ t.ld.selfChecked = true ∧ t.ld.running = ok ∧ t.ld.timed = s.ld.timed
      ∧ t.ld.unprovisioned = s.bookplateBad ∧ Safety.onlyRegs [] s t ∧ Safety.sameMem s t ∧ t.chan = s.chan)
  ∧ (∀ (s : State) (jedec : BitVec 24) (x : Sfdp), s.loaderRuns = true → s.life = stLoading → s.fld NVM_STAT NVM_STAT_STEP = 1 →
    s.ld.selfChecked = true → 24 ≤ x.densityLog2 → x.densityLog2 ≤ 31 →
    ∃ t, exec (.norDiscovery jedec (some x)) s = .next t ∧ t.fld NVM_STAT NVM_STAT_STEP = 2 ∧ t.reg NVM_JEDEC_ID = w32 jedec.toNat
      ∧ t.ld.density = x.densityLog2 ∧ t.flag NVM_STAT NVM_STAT_ADDR4 = x.addr4Only ∧ t.fld NVM_STAT NVM_STAT_MODE = readMode x
      ∧ t.flag NVM_STAT NVM_STAT_SFDP_OK = true ∧ t.ld.fallback03 = false ∧ Safety.raised [(islLD, 0x040)] s t ∧ Safety.sameMem s t
      ∧ Safety.onlyRegs [NVM_STAT, NVM_JEDEC_ID, NVM_STEP_TIME 0] s t)
  ∧ (∀ (s : State) (jedec : BitVec 24), s.loaderRuns = true → s.life = stLoading → s.fld NVM_STAT NVM_STAT_STEP = 1 →
    s.ld.selfChecked = true →
    ∃ t, exec (.norDiscovery jedec none) s = .next t ∧ t.ld.density = 27 ∧ t.ld.fallback03 = true ∧ t.fld NVM_STAT NVM_STAT_MODE = 0
      ∧ t.flag NVM_STAT NVM_STAT_SFDP_OK = false)
  ∧ (∀ (s : State) (bytes : List Byte), s.loaderRuns = true → s.life = stLoading → 2 ≤ s.fld NVM_STAT NVM_STAT_STEP → s.ld.sections = [] →
    s.ld.fail = none →
    ∃ t, exec (.catalogHeader bytes) s = .next t ∧ (∀ c, s.catalogFault bytes = some c → t.ld.fail = some c ∧ Safety.sameMem s t)
      ∧ (s.catalogFault bytes = none → t.ld.fail = none ∧ t.ld.sections = (List.range (at' bytes 6 2)).map (entryAt bytes)
        ∧ t.ld.version = w32 (at' bytes 0x10 4) ∧ t.fld NVM_STAT NVM_STAT_STEP = 4
        ∧ t.fld NVM_STAT NVM_STAT_CLK = (if s.ld.fallback03 then 0 else at' bytes 0x0F 1)
        ∧ (∀ a, sramBase ≤ a → a < sramBase + sramSize → t.byte a = 0)
        ∧ (∀ a, a < sramBase ∨ sramBase + sramSize ≤ a → t.byte a = s.byte a)))

/-- The records of an image as the loader takes them, and accesses in the range of the NVM window. A register-load record is kept in the
section and judged: a malformed one fails the slot with 0x16 and its section, END closes the section, and a record that writes one
permitted word stages it. A service program head within working SRAM is accepted. The end of an opaque section moves to the next section
and fails the slot with 0x15 where the CRC differs. None of them stores to memory or writes a register but those of check unit 31. Aligned
accesses of a master that makes requests are granted after what stands before them: through the closed window one ends DECODE with 0x045
and 0x080 and is recorded by the matrix. Through the open one a read is answered, with bytes that the model leaves free (log entry 5), and
a write of any port but the loader's is refused. No memory changes (R70, R72, R73, R75, R76, R78, R13, R87, R95, R98, R99, R417). -/
def Obligations.LoaderRecordsAndNvmWindow : Prop :=
  ((∀ (s : State) (words : List Word), s.inSection 1 = true → s.ld.ended = false →
    ∃ t, exec (.registerLoadRecord words) s = .next t ∧ t.ld.secBytes = s.ld.secBytes ++ words.flatMap (fun w => leBytes 4 w.toNat)
      ∧ (parseRecord words = none → t.ld.fail = some (0x16, s.ld.secNo))
      ∧ (parseRecord words = some .finish → t.ld.ended = true ∧ t.ld.staged = s.ld.staged ∧ t.ld.fail = none)
      ∧ (∀ r, parseRecord words = some (.writes [r]) → s.wordFault r = none →
          t.ld.fail = none ∧ t.ld.staged = s.ld.staged ++ [r])
      ∧ Safety.onlyRegs [CHK_RUN 31, CHK_STAT 31, CHK_BYTE_CNT 31] s t ∧ Safety.sameMem s t ∧ t.chan = s.chan)
  ∧ (∀ (s : State) (a n k : Nat) (e : SecEntry), s.inSection 2 = true → s.ld.secBytes = [] → s.ld.head = false → s.section? = some e →
    e.length = n + 16 → (k = 0 ∨ k = 1 ∧ a = 0 ∧ s.ld.vector = false) → a < 0x7FFFD → a % 4 = 0 → a + n ≤ sramSize →
    s.ld.programs.any (overlaps (a, n)) = false →
    ∃ t, exec (.serviceProgramHead [w32 a, w32 n, w32 k, 0]) s = .next t ∧ t.ld.programs = s.ld.programs ++ [(a, n)] ∧ t.ld.fail = none
      ∧ t.ld.vector = (s.ld.vector || decide (k = 1)) ∧ Safety.onlyRegs [CHK_RUN 31, CHK_STAT 31, CHK_BYTE_CNT 31] s t
      ∧ Safety.sameMem s t ∧ t.chan = s.chan)
  ∧ (∀ (s : State) (rest : List Byte) (e : SecEntry), s.inSection 3 = true → s.section? = some e →
    ∃ t, exec (.sectionEnd rest) s = .next t ∧ t.ld.secNo = s.ld.secNo + 1 ∧ t.ld.secBytes = [] ∧ Safety.sameMem s t
      ∧ (crc32c (s.ld.secBytes ++ rest) ≠ e.crc → t.ld.fail = some (0x15, s.ld.secNo))
      ∧ Safety.onlyRegs [CHK_RUN 31, CHK_STAT 31, CHK_BYTE_CNT 31] s t))
  ∧ ((∀ (s u : State) (port : Fin 8) (write : Bool) (addr : Word), s.portMay port = true → s.running islMX = true → s.target addr.toNat = 6 →
    addr.toNat % 4 = 0 → port.val < 7 → u = s.grant port addr.toNat → u.running islMX = true → u.target addr.toNat = 6 →
    u.flag NVM_STAT NVM_STAT_WINDOW = false →
    ∃ t, exec (.nvmWindowAccess port write addr) s = .next t ∧ t.mtx.resp = rDecode ∧ Safety.raised [(islMX, 0x045), (islMX, 0x080)] u t
      ∧ Safety.onlyRegs [MTX_ERR_LAST, MTX_ERR_ADDR] u t ∧ Safety.sameMem u t)
  ∧ (∀ (s u : State) (port : Fin 8) (addr : Word), s.portMay port = true → s.running islMX = true → s.target addr.toNat = 6 →
    addr.toNat % 4 = 0 → port.val < 7 → u = s.grant port addr.toNat → u.running islMX = true → u.target addr.toNat = 6 →
    u.flag NVM_STAT NVM_STAT_WINDOW = true → u.readable islLD = true →
    (∃ t, exec (.nvmWindowAccess port false addr) s = .next t ∧ t.mtx.resp = rOkay ∧ t.chan = u.chan ∧ Safety.onlyRegs [] u t
      ∧ Safety.sameMem u t)
    ∧ (port.val < 6 → u.running islLD = true →
      ∃ t, exec (.nvmWindowAccess port true addr) s = .next t ∧ t.mtx.resp = rRefused ∧ Safety.raised [(islMX, 0x081)] u t
      ∧ Safety.onlyRegs [MTX_ERR_LAST, MTX_ERR_ADDR] u t ∧ Safety.sameMem u t)))

/-- A failed slot is rejected and scrubbed, slot B tried and then Safe; the Archive scan, Armed, and the resumed accession numbers.
SLOT_CHECKING of a failed slot zero-fills working SRAM and folio memory and keeps the failure in NVM_SLOT_STAT: slot A is followed by slot
B in Loading, slot B by Safe with cause 0x22, retention kept. A loader that stalls in step 5 or 6 stays there in Checking, with the step
timed and nothing rejected. ARCHIVE_SCAN without a valid record only begins step 7. ARCHIVE_PREPARE of a NOR of 128 Mbit or more shows the
erase and the next record, and then either stalls in step 8, still in Checking, or sets SWAP, closes the window and takes the module to
Armed, or through it to Serving where nothing is left to report. That NEXT is shown also where the erase reports an error is the model's
choice (log entry 111). ACCESSION_RESUME with good retention and none of EH's own events waiting numbers on from above every record in the
ring (R53, R61, R62, R66, R78, R79, R81, R84, R85, R86, R335). -/
def Obligations.SlotCheckAndArchive : Prop :=
  (∀ (s : State) (c : List Byte) (f : Nat × Nat), s.loaderRuns = true → s.life = stLoading → s.ld.fail = some f → s.slot = 1 → s.ld.applied = false →
    ∃ t, exec (.slotChecking c .nowhere) s = .next t ∧ t.life = stSafe ∧ t.fld SUP_STATE SUP_STATE_ENTRY_CAUSE = 0x22
      ∧ t.fld (NVM_SLOT_STAT 1) NVM_SLOT_STAT_RESULT = f.1 % 256 ∧ t.fld (NVM_SLOT_STAT 1) NVM_SLOT_STAT_SECTION = f.2 % 256
      ∧ (∀ a, sramBase ≤ a → a < sramBase + sramSize → t.byte a = 0) ∧ (∀ a, folioBase ≤ a → a < folioBase + folioSize → t.byte a = 0)
      ∧ (∀ a, retentionBase ≤ a → t.byte a = s.byte a))
  ∧ (∀ (s : State) (c : List Byte) (f : Nat × Nat), s.loaderRuns = true → s.life = stLoading → s.ld.fail = some f → s.slot = 0 →
    ∃ t, exec (.slotChecking c .nowhere) s = .next t ∧ t.life = stLoading ∧ t.slot = 1 ∧ t.ld.fail = none ∧ t.ld.sections = []
      ∧ t.fld NVM_STAT NVM_STAT_CLK = 0 ∧ t.fld (NVM_SLOT_STAT 0) NVM_SLOT_STAT_RESULT = f.1 % 256
      ∧ (∀ a, sramBase ≤ a → a < sramBase + sramSize → t.byte a = 0))
  ∧ (∀ (s : State) (c : List Byte) (x : CheckStall × Nat), x = (.inStep5, 5) ∨ x = (.inStep6, 6) → s.loaderRuns = true →
    s.life = stLoading → s.slotRead = true → s.ld.applied = false →
    ∃ t, exec (.slotChecking c x.1) s = .next t ∧ t.life = stChecking ∧ t.fld NVM_STAT NVM_STAT_STEP = x.2 ∧ t.ld.running = false
      ∧ t.ld.timed = true ∧ t.ld.stepSince = s.now ∧ Safety.sameMem s t)
  ∧ (∀ (s : State) (heads : List (List Byte)) (records : List (Nat × List Byte)), s.loaderRuns = true → s.life = stChecking →
    s.ld.applied = true → s.ld.scanned = false → s.ld.density = 27 → newestArchive heads records = none →
    ∃ t, exec (.archiveScan heads records) s = .next t ∧ t.ld.scanned = true ∧ t.fld NVM_STAT NVM_STAT_STEP = 7 ∧ Safety.sameMem s t
      ∧ t.chan = s.chan)
  ∧ (∀ (s : State) (ok : Bool), s.loaderRuns = true → s.life = stChecking → s.ld.applied = true → s.ld.scanned = true → 27 ≤ s.ld.density →
    (∃ t, exec (.archivePrepare ok false) s = .next t ∧ t.flag NVM_ARCH_STAT NVM_ARCH_STAT_PREPARED = ok
      ∧ t.fld NVM_ARCH_STAT NVM_ARCH_STAT_NEXT = s.nextArchive % 512 ∧ t.flag MTX_REMAP MTX_REMAP_SWAP = true
      ∧ t.flag NVM_STAT NVM_STAT_WINDOW = false ∧ (t.life = stArmed ∨ t.life = stServing) ∧ t.ld.running = false)
    ∧ ∃ t, exec (.archivePrepare ok true) s = .next t ∧ t.flag NVM_ARCH_STAT NVM_ARCH_STAT_PREPARED = ok
      ∧ t.fld NVM_STAT NVM_STAT_STEP = 8 ∧ t.life = stChecking ∧ t.ld.running = false ∧ Safety.sameMem s t)
  ∧ (∀ s : State, s.running islEH = true → s.eh.numbered = false → s.eh.retGood = true → s.eh.queue = [] → (∀ ev ∈ s.chan, ev.isl ≠ islEH) →
    ∃ t, exec .accessionResume s = .next t ∧ t.eh.numbered = true ∧ t.eh.nextAcc = t.eh.startAcc
      ∧ ((∀ n ∈ s.ringNumbers, n < 2 ^ 48 - 1) → ∀ n ∈ s.ringNumbers, n < t.eh.nextAcc)
      ∧ Safety.sameMem s t ∧ t.chan = s.chan)

/-- A global fence from MTX_FENCE: issued, broadcast once its writes are answered, marked by each island, ended with the missed ones. With
no fence in flight, a permitted GO with a new token issues the next fence number, shows it, and raises 0x0A0. When none of its writes is
still unanswered the markers are broadcast to every running island. A marker reaching an awaited island is raised there as 0x0A1 with the
fence number and the island's clock. When the wait ends, the fence completes with 0x0A2 and RESULT 0x02 where no island is awaited any
more, and otherwise with RESULT 0x03, MTX_FENCE_MISS naming the missed, and 0x0A3. No byte changes, and no other register (R104, R105,
R107, R109, R111). -/
def Obligations.GlobalFences : Prop :=
  (∀ (s u : State) (token : Byte), Safety.granted .maintenance s u → u.fld MTX_FENCE MTX_FENCE_TOKEN ≠ token.toNat → u.mtx.fence = none →
    u.mtx.waiting = [] →
    ∃ t f, exec (.mtxFenceGo .maintenance token true) s = .next t ∧ t.mtx.fence = some f
      ∧ f = ⟨(u.fld MTX_FENCE_NO MTX_FENCE_NO_ISSUED + 1) % 65536, 7, true, [], [], u.liveWrites⟩
      ∧ t.fld MTX_FENCE_NO MTX_FENCE_NO_ISSUED = f.no ∧ t.fld MTX_FENCE MTX_FENCE_FENCE_LO = f.no
      ∧ t.fld MTX_FENCE MTX_FENCE_TOKEN = token.toNat ∧ t.fld MTX_FENCE MTX_FENCE_RESULT = 1
      ∧ Safety.raised [(islMX, 0x0A0)] u t ∧ Safety.onlyRegs [MTX_FENCE, MTX_FENCE_NO] u t ∧ Safety.sameMem u t)
  ∧ (∀ (s : State) (f : Fence), s.mtx.fence = some f → f.draining = true → (∀ x ∈ f.writes, x ∉ s.liveWrites) → s.running islMX = true →
    ∃ t, exec .fenceDrainDone s = .next t ∧ t.mtx.fence = some { f with
        draining := false, waitFor := (List.range 24).filter s.running, unmarked := (List.range 24).filter s.running, writes := [] }
      ∧ Safety.onlyRegs [] s t ∧ Safety.sameMem s t ∧ t.chan = s.chan)
  ∧ (∀ (s : State) (f : Fence) (i : Fin 24), s.sp.dormant = false → s.running i = true → s.mtx.fence = some f → s.mtx.late = [] → i.val ∈ f.unmarked →
    ∃ t, exec (.fenceMarker i) s = .next t ∧ t.mtx.fence = some { f with unmarked := f.unmarked.erase i.val }
      ∧ t.chan = s.chan ++ [⟨0x0A1, i, s.itcOf i, [w32 f.no, w32 i, w32 (s.itcOf i)]⟩]
      ∧ Safety.onlyRegs [] s t ∧ Safety.sameMem s t)
  ∧ (∀ (s : State) (f : Fence), s.sp.dormant = false → s.mtx.fence = some f → f.draining = false → f.issuer = 7 → s.mtx.waiting = [] → f.no < 65536 →
    ∃ t, exec .fenceMarkerTimeout s = .next t ∧ t.mtx.fence = none ∧ t.fld MTX_FENCE_NO MTX_FENCE_NO_COMPLETED = f.no
      ∧ t.fld MTX_FENCE MTX_FENCE_RESULT = (if f.waitFor = [] then 2 else 3)
      ∧ t.reg MTX_FENCE_MISS = w32 (f.waitFor.foldl (fun a i => a + 2 ^ i) 0)
      ∧ Safety.raised [(islMX, if f.waitFor = [] then 0x0A2 else 0x0A3)] s t
      ∧ Safety.onlyRegs [MTX_FENCE, MTX_FENCE_NO, MTX_FENCE_MISS] s t ∧ Safety.sameMem s t)

/-- Matrix bookkeeping rows, requests and responses. A response whose tag matches no live entry of its target is counted and raises 0x086,
with the table as it was, once a write of that tag that had received TIMEOUT has been decided. A reset of a port makes orphans of its live
transactions and of no other, drops what it holds, and raises 0x085 where it had any. A read of an in-flight entry latches its address
word, and a read of an island clock both its words, once what was granted before has taken effect. None changes another register or a
byte. A well-formed request to a mapped target, presented alone, enters the table under its port and ID with the next tag where no entry
of that ID stands, and is held at its port where one does; to an address no target holds it is answered DECODE at once, with MTX_ERR_ADDR
holding the address and event 0x080. The response to an eight-byte loader write to working SRAM stores exactly its eight bytes, least
significant first at the lowest address, and releases the ID (R100, R102, R112, R115, R5, R94, R95, R98, R99, R101, R113). -/
def Obligations.MatrixTransactions : Prop :=
  ((∀ (s u : State) (tgt : Fin 7) (tag : Fin 128), s.running islMX = true → (∀ p ∈ s.mtx.txns, p.2.target = tgt.val → p.2.tag % 128 ≠ tag.val) →
    u = s.decideLate (fun x => decide (x.target = tgt.val ∧ x.tag % 128 = tag.val)) → u.sp.dormant = false →
    ∃ t, exec (.lateResponse tgt tag) s = .next t ∧ t.reg MTX_LATE_CNT = u.reg MTX_LATE_CNT + 1 ∧ Safety.raised [(islMX, 0x086)] u t
      ∧ Safety.onlyRegs [MTX_LATE_CNT] u t ∧ Safety.sameMem u t ∧ t.mtx = u.mtx)
  ∧ (∀ (s : State) (port : Fin 8), s.running islMX = true →
    ∃ t, exec (.masterPortReset port) s = .next t
      ∧ (∀ p ∈ t.mtx.txns, p.2.req.port = port → p.2.orphan = true)
      ∧ (∀ p ∈ s.mtx.txns, p.2.req.port = port → ∃ x ∈ t.mtx.txns, x.1 = p.1)
      ∧ (∀ p ∈ s.mtx.txns, p.2.req.port ≠ port → (∀ x ∈ s.mtx.txns, x.2.req.port = port → x.1 ≠ p.1) → p ∈ t.mtx.txns)
      ∧ t.mtx.held = s.mtx.held.filter (fun r => decide (r.port ≠ port))
      ∧ ((∃ p ∈ s.mtx.txns, p.2.req.port = port ∧ p.2.orphan = false) → Safety.raised [(islMX, 0x085)] s t)
      ∧ Safety.onlyRegs [] s t ∧ Safety.sameMem s t)
  ∧ (∀ (s u : State) (k : Fin 98), u = s.settleRegs → u.running islMX = true →
    ∃ t, exec (.mtxTxnRead k) s = .next t
      ∧ t.reg (MTX_TXN k 1) = (match u.mtx.txns.find? (fun p => p.1 = k.val) with | some p => p.2.req.addr | none => 0)
      ∧ Safety.onlyRegs [MTX_TXN k 1] u t ∧ Safety.sameMem u t ∧ t.chan = u.chan)
  ∧ (∀ (s u : State) (i : Fin 24), u = s.settleRegs → u.running islMX = true →
    ∃ t, exec (.mtxItcRead i) s = .next t ∧ t.reg (MTX_ITC i 0) = w32 (u.itcOf i) ∧ t.reg (MTX_ITC i 1) = w32 (u.itcOf i / 2 ^ 32)
      ∧ Safety.onlyRegs [MTX_ITC i 0, MTX_ITC i 1] u t ∧ Safety.sameMem u t ∧ t.chan = u.chan))
  ∧ ((∀ (s : State) (r : Req), s.running islMX = true → s.portMay r.port = true → s.bridgeHolds r = false →
    reqOk r (s.target r.addr.toNat) = true → s.target r.addr.toNat ≠ 7 → (∀ p ∈ s.mtx.txns, p.1 ≠ txnKey r.port r.id) →
    ∃ t, exec (.matrixRequest [r]) s = .next t ∧ t.mtx.nextTag = s.mtx.nextTag + 1
      ∧ t.mtx.txns.find? (fun p => p.1 = txnKey r.port r.id)
        = some (txnKey r.port r.id, ⟨r, s.target r.addr.toNat, s.now, [], [], 0, false, s.mtx.nextTag⟩)
      ∧ (∀ p ∈ s.mtx.txns, p ∈ t.mtx.txns) ∧ Safety.onlyRegs [] s t ∧ Safety.sameMem s t ∧ t.chan = s.chan)
  ∧ (∀ (s : State) (r : Req), s.running islMX = true → s.portMay r.port = true → s.bridgeHolds r = false →
    reqOk r (s.target r.addr.toNat) = true → s.target r.addr.toNat ≠ 7 → (∃ p ∈ s.mtx.txns, p.1 = txnKey r.port r.id) →
    ∃ t, exec (.matrixRequest [r]) s = .next t ∧ t.mtx.held = s.mtx.held ++ [r] ∧ t.mtx.txns = s.mtx.txns
      ∧ Safety.onlyRegs [] s t ∧ Safety.sameMem s t ∧ t.chan = s.chan)
  ∧ (∀ (s : State) (r : Req), s.running islMX = true → s.portMay r.port = true → s.bridgeHolds r = false →
    reqOk r (s.target r.addr.toNat) = true → s.target r.addr.toNat = 7 → 4 ≤ r.port.val → r.port ≠ 7 →
    ∃ t, exec (.matrixRequest [r]) s = .next t ∧ t.mtx.txns = s.mtx.txns ∧ t.mtx.resp = rDecode ∧ t.reg MTX_ERR_ADDR = r.addr
      ∧ Safety.raised [(islMX, 0x080)] s t ∧ Safety.onlyRegs [MTX_ERR_LAST, MTX_ERR_ADDR] s t ∧ Safety.sameMem s t)
  ∧ (∀ (s : State) (x : Txn) (d : BitVec 64), s.life = stLoading → s.cores = [] → s.schedRuns = false → s.mtx.lateWrites = [] →
    s.mtx.held = [] → s.mtx.txns = [(txnKey 6 x.req.id, x)] → x.req.port = 6 → x.req.write = true → x.req.beats = 1 → x.req.strobes = [0xFF] → x.req.data = [d] →
    x.codes = [] → x.answered = 0 → x.orphan = false → x.target = 1 → s.target x.req.addr.toNat = 1 → x.req.addr.toNat % 8 = 0 →
    ∃ t, exec (.matrixResponse 96) s = .next t ∧ t.mtx.txns = [] ∧ t.mtx.resp = rOkay
      ∧ (∀ j, j < 8 → t.byte (sramBase + x.req.addr.toNat % 0x80000 + j) = BitVec.ofNat 8 (d.toNat / 256 ^ j))
      ∧ (∀ a, a < sramBase + x.req.addr.toNat % 0x80000 ∨ sramBase + x.req.addr.toNat % 0x80000 + 8 ≤ a → t.byte a = s.byte a)
      ∧ Safety.onlyRegs [] s t ∧ t.chan = s.chan))

/-- Register writes and refusals, the unlock sequence, host reads and writes. A service write to LINE_OH_TX of a running port takes the
register's writable bits from the value and keeps the others, with response OKAY. A service write to a register whose row gives services
no right is answered REFUSED with MTX_ERR_ADDR and event 0x081 and changes nothing else. While the bridge is locked a maintenance write is
refused in the bridge, which notes the address and the code, and reaches no register. The word 0xA55A followed by 0x5AA5 unlocks the
bridge with 0x478, and 0 locks it again with 0x479. A wrong word or an expired window is a failed sequence with 0x47A, and the eighth
within 60 s bars unlocking until UNLOCK_BAR_END. The timeout locks with reason 1. No other register and no byte changes, and the unlock
word is always answered OKAY. A read of a register that latches nothing answers its word, most significant byte first, between 0xA5 on SPI
and the status byte 0. An unlocked write to SUP_SCRATCH stores the word and answers status 0, on either bus; an I2C transaction for
another device address is not taken. A bad opcode answers 0xFF and does nothing. A transaction that ends before its access is issued does
nothing; a write that was issued completes, its reply discarded (R3, R4, R6, R99, R350, R410, R413, R8, R347, R348). -/
def Obligations.HostAndRegisterAccess : Prop :=
  ((∀ (s u : State) (q : Fin 2) (n : Fin 8) (v : Word), s.serviceMay q = true → s.running islMX = true → u = s.grant (2 * q) (LINE_OH_TX n) →
    u.running (islLP n) = true →
    ∃ t, exec (.registerWrite (.service q) (w32 (LINE_OH_TX n)) v) s = .next t ∧ t.mtx.resp = rOkay
      ∧ (∀ r, regRow (LINE_OH_TX n) = some r → t.reg (LINE_OH_TX n) = (u.reg (LINE_OH_TX n) &&& ~~~r.writable) ||| (v &&& r.writable))
      ∧ Safety.onlyRegs [LINE_OH_TX n] u t ∧ Safety.sameMem u t ∧ t.chan = u.chan)
  ∧ (∀ (s u : State) (q : Fin 2) (a v : Word) (r : RegRow), s.serviceMay q = true → s.running islMX = true → u = s.grant (2 * q) a.toNat →
    u.running islMX = true → regRow a.toNat = some r → u.target a.toNat = 5 → a.toNat % 4 = 0 → u.running (u.regIsl a.toNat) = true →
    r.svc = false → r.fields ≠ [] → slotOf a.toNat (TRIB_TPL_ROM 0 0) 4 2048 = none →
    ∃ t, exec (.registerWrite (.service q) a v) s = .next t ∧ t.mtx.resp = rRefused ∧ t.reg MTX_ERR_ADDR = a
      ∧ Safety.raised [(islMX, 0x081)] u t ∧ Safety.onlyRegs [MTX_ERR_LAST, MTX_ERR_ADDR] u t ∧ Safety.sameMem u t)
  ∧ (∀ (s : State) (a v : Word), s.sp.dormant = false → s.running islEH = true → s.unlocked = false → a.toNat ≠ EVT_MGMT_UNLOCK →
    ∃ t, exec (.registerWrite .maintenance a v) s = .next t ∧ t.reg EVT_MGMT_REF = a ∧ t.fld EVT_MGMT_REF_CODE ⟨0, 4⟩ = rRefused
      ∧ Safety.onlyRegs [EVT_MGMT_REF, EVT_MGMT_REF_CODE] s t ∧ Safety.sameMem s t))
  ∧ ((∀ (s u : State) (v : Word), s.running islEH = true → s.running islMX = true → u = s.grant 7 EVT_MGMT_UNLOCK → u.running islEH = true →
    ∃ t, exec (.mgmtUnlockWrite v) s = .next t ∧ t.mtx.resp = rOkay ∧ Safety.onlyRegs [EVT_MGMT_UNLOCK] u t ∧ Safety.sameMem u t
      ∧ (u.unlockState = 0 → v = 0xA55A → t.unlockState = 1 ∧ t.chan = u.chan)
      ∧ (u.unlockState = 1 → v = 0x5AA5 → t.unlockState = 2 ∧ Safety.raised [(islEH, 0x478)] u t)
      ∧ (u.unlockState = 2 → v = 0 → t.unlockState = 0 ∧ Safety.raised [(islEH, 0x479)] u t)
      ∧ (u.unlockState = 2 → v ≠ 0 → t.unlockState = 2)
      ∧ (u.unlockState = 0 ∧ v ≠ 0xA55A ∨ u.unlockState = 1 ∧ v ≠ 0x5AA5 → v ≠ 0 →
          t.unlockState = (if 7 ≤ u.recentFailures.length then 3 else 0) ∧ Safety.raised [(islEH, 0x47A)] u t)
      ∧ (u.unlockState ≤ 1 → v = 0 → t.unlockState = 0)
      ∧ (u.unlockState = 3 → t.unlockState = 3))
  ∧ (∀ s : State, s.running islEH = true → s.unlockState = 1 →
    ∃ t, exec .unlockWindowExpiry s = .next t ∧ t.unlockState = (if 7 ≤ s.recentFailures.length then 3 else 0)
      ∧ t.mg.failures = s.recentFailures ++ [s.now] ∧ Safety.raised [(islEH, 0x47A)] s t ∧ Safety.onlyRegs [EVT_MGMT_UNLOCK] s t ∧ Safety.sameMem s t)
  ∧ (∀ s : State, s.running islEH = true → s.unlockState = 3 →
    ∃ t, exec .unlockBarEnd s = .next t ∧ t.unlockState = 0 ∧ Safety.onlyRegs [EVT_MGMT_UNLOCK] s t ∧ Safety.sameMem s t ∧ t.chan = s.chan)
  ∧ (∀ s : State, s.running islEH = true → s.unlockState = 2 →
    ∃ t, exec .unlockTimeout s = .next t ∧ t.unlockState = 0
      ∧ t.chan = s.chan ++ [⟨0x479, islEH, s.itcOf islEH, [w32 1]⟩] ∧ Safety.onlyRegs [EVT_MGMT_UNLOCK] s t ∧ Safety.sameMem s t))
  ∧ ((∀ (s u : State) (a : Word), s.spiOn = true → s.running islMX = true → u = s.grant 7 a.toNat → u.target a.toNat = 5 → a.toNat % 4 = 0 →
    (regRow a.toNat).isSome = true → u.readable (u.regIsl a.toNat) = true → u.latch 7 a.toNat = u →
    ∃ t, exec (.spiRead a) s = .next t ∧ t.mg.reply = [0xA5] ++ (leBytes 4 (u.look a.toNat).toNat).reverse ++ [0]
      ∧ Safety.onlyRegs [] u t ∧ Safety.sameMem u t ∧ t.chan = u.chan)
  ∧ (∀ (s u : State) (d : BitVec 7) (a : Word), s.i2cOn d = true → s.running islMX = true → u = s.grant 7 a.toNat → u.target a.toNat = 5 →
    a.toNat % 4 = 0 → (regRow a.toNat).isSome = true → u.readable (u.regIsl a.toNat) = true → u.latch 7 a.toNat = u →
    ∃ t, exec (.i2cRead d a) s = .next t ∧ t.mg.reply = (leBytes 4 (u.look a.toNat).toNat).reverse ++ [0]
      ∧ Safety.onlyRegs [] u t ∧ Safety.sameMem u t ∧ t.chan = u.chan)
  ∧ (∀ (s u : State) (v : Word), s.spiOn = true → s.running islMX = true → s.unlocked = true → u = s.grant 7 SUP_SCRATCH →
    u.maintained = true → u.running islSP = true →
    ∃ t, exec (.spiWrite (w32 SUP_SCRATCH) v) s = .next t ∧ t.mg.reply = [0xA5, 0] ∧ t.reg SUP_SCRATCH = v
      ∧ Safety.onlyRegs [SUP_SCRATCH] u t ∧ Safety.sameMem u t ∧ t.chan = u.chan)
  ∧ (∀ (s u : State) (d : BitVec 7) (v : Word), s.i2cOn d = true → s.running islMX = true → s.unlocked = true → u = s.grant 7 SUP_SCRATCH →
    u.maintained = true → u.running islSP = true →
    ∃ t, exec (.i2cWrite d (w32 SUP_SCRATCH) v) s = .next t ∧ t.mg.reply = [0] ∧ t.reg SUP_SCRATCH = v
      ∧ Safety.onlyRegs [SUP_SCRATCH] u t ∧ Safety.sameMem u t ∧ t.chan = u.chan)
  ∧ (∀ (s : State) (d : BitVec 7) (a v : Word), s.i2cOn d = false →
    exec (.i2cRead d a) s = .next s ∧ exec (.i2cWrite d a v) s = .next s)
  ∧ (∀ (s : State) (op : Byte), s.spiOn = true → op ≠ 0x02 → op ≠ 0x03 →
    ∃ t, exec (.spiBadOpcode op) s = .next t ∧ t.mg.reply = [0xFF] ∧ Safety.onlyRegs [] s t ∧ Safety.sameMem s t)
  ∧ (∀ (s : State) (a : Option Word), s.spiOn = true →
    ∃ t, exec (.spiEarlyEnd a none) s = .next t ∧ t.mg.reply = [] ∧ Safety.onlyRegs [] s t ∧ Safety.sameMem s t)
  ∧ (∀ (s u : State) (d : BitVec 7) (v : Word), s.i2cOn d = true → s.running islMX = true → s.unlocked = true → u = s.grant 7 SUP_SCRATCH →
    u.maintained = true → u.running islSP = true →
    ∃ t, exec (.i2cEarlyEnd d (some (w32 SUP_SCRATCH)) (some (some v))) s = .next t ∧ t.mg.reply = [] ∧ t.reg SUP_SCRATCH = v
      ∧ Safety.onlyRegs [SUP_SCRATCH] u t ∧ Safety.sameMem u t))

/-- EH counts and queues an accepted event, and the Ledger writer puts its record into its slot. EVENT_ACCEPT takes the oldest event of
the island: counted in EVT_CNT and among that island's accepted events, its pending bit set and INTA driven where configured, and its
record queued under the next accession number where LOG is set, the port open and the queue not full; without LOG nothing is queued.
LEDGER_WRITE takes the head of the queue and stores its 32 bytes in the slot that its accession number names, and no other byte (R103,
R327, R328, R329, R330, R332, R333). -/
def Obligations.EventsAreCountedQueuedAndWritten : Prop :=
  (∀ (s : State) (i : Fin 24) (ev : Ev) (rest : List Ev), s.running islEH = true →
    (i.val = islEH ∨ i.val = islMX ∨ i.val = islRT ∨ i.val = islSP ∨ s.running islMX = true) →
    s.chan = ev :: rest → ev.isl = i.val → ev.num ≠ 0x0A1 → ev.num ≠ 0x028 →
    s.mtx.fence = none → (s.core 0).stall = none → (s.core 1).stall = none → s.wakeTask ev.num = none → ev.num < 1152 →
    ∃ t, exec (.eventAccept i) s = .next t ∧ t.chan = rest ∧ t.reg (EVT_CNT ev.num) = s.reg (EVT_CNT ev.num) + 1
      ∧ tget t.eh.accepted 0 i = tget s.eh.accepted 0 i + 1
      ∧ (s.flag (EVT_EVENT_CFG ev.num) EVT_EVENT_CFG_INTA = true → t.bitAt (EVT_PEND (ev.num / 32)) (ev.num % 32) = true
          ∧ t.flag EVT_STAT EVT_STAT_INTA = true)
      ∧ (s.flag (EVT_EVENT_CFG ev.num) EVT_EVENT_CFG_LOG = true → s.sp.sealing = false → s.sp.rtOpen = true → s.eh.queue.length < 512 →
          s.eh.numbered = true → t.eh.queue = s.eh.queue ++ [⟨some s.eh.nextAcc, recordKind ev.num, ev⟩]
            ∧ t.eh.nextAcc = (s.eh.nextAcc + 1) % 2 ^ 48)
      ∧ (s.flag (EVT_EVENT_CFG ev.num) EVT_EVENT_CFG_LOG = false → t.eh.queue = s.eh.queue ∧ t.eh.nextAcc = s.eh.nextAcc)
      ∧ Safety.sameMem s t)
  ∧ (∀ (s : State) (n kind : Nat) (ev : Ev) (q : List Rec), s.running islEH = true → s.sp.rtOpen = true → s.eh.queue = ⟨some n, kind, ev⟩ :: q →
    s.flag EVT_STAT EVT_STAT_LOSING = false →
    ∃ t, exec .ledgerWrite s = .next t ∧ t.eh.queue = q ∧ t.bytes (slotAddr n) 32 = recordBytes n kind 0 ev
      ∧ (∀ a, a < slotAddr n ∨ slotAddr n + 32 ≤ a → t.byte a = s.byte a) ∧ t.fld EVT_STAT EVT_STAT_QUEUE = q.length % 1024
      ∧ Safety.onlyRegs [EVT_STAT] s t ∧ t.chan = s.chan)

/-- Pending bits, the Inventory and the check units. A maintenance write of 1 clears pending bits, but for one that an event sets in the
same cycle, and leaves INTA and INTB as the bits that remain configure them. Whether what comes at one moment falls in one cycle is free
(log entry 101, the model's choice). Reading the next accession number latches both its words. A tick or a snapshot command with the
reader idle starts a freeze under the next sequence number; a finished gather fills the bank that is not active with what the freeze
copied, less the slots whose read failed, makes it active, raises 0x473 and stores to no byte outside that bank. No other register
changes. CHECK_BLOCK_END of an enabled unit, unit 31 outside Loading and Checking, feeds the block into the unit's CRC, counts bytes and
blocks, shows the running value in mode 0 and the block's result in the others, and in mode 2 counts a match or a mismatch against EXPECT
and shows which. A service write to the polynomial word of a disabled unit stands with event 0x471 where the whole entry is permitted; the
same write to an enabled unit is REFUSED and changes no word of the entry (R329, R338, R339, R340, R346, R410, R342, R343, R344). -/
def Obligations.InventoryAndCheckUnits : Prop :=
  ((∀ (s v : State) (k : Fin 36) (mask keep : Word), Safety.granted .maintenance s v →
    keep = (if v.freeWord.getLsbD 0 then mask &&& v.freshPending k else 0) →
    ∃ t, exec (.evtPendClear k .maintenance mask) s = .next t ∧ t.reg (EVT_PEND k) = v.reg (EVT_PEND k) &&& ~~~(mask &&& ~~~keep)
      ∧ t.flag EVT_STAT EVT_STAT_INTA = t.anyPending EVT_EVENT_CFG_INTA ∧ t.flag EVT_STAT EVT_STAT_INTB = t.anyPending EVT_EVENT_CFG_INTB
      ∧ Safety.onlyRegs [EVT_PEND k, EVT_STAT] v t ∧ Safety.sameMem v t ∧ t.chan = v.chan)
  ∧ (∀ s v : State, v = s.settleRegs → v.running islMX = true → v.running islEH = true →
    ∃ t, exec .evtLedgerNextRead s = .next t ∧ t.reg (EVT_LEDGER_NEXT 0) = w32 v.eh.nextAcc
      ∧ t.reg (EVT_LEDGER_NEXT 1) = w32 (v.eh.nextAcc / 2 ^ 32 % 65536)
      ∧ Safety.onlyRegs [EVT_LEDGER_NEXT 0, EVT_LEDGER_NEXT 1] v t ∧ Safety.sameMem v t ∧ t.chan = v.chan)
  ∧ (∀ s : State, s.gathers = true → s.flag INV_CFG INV_CFG_TICK_EN = true → s.inv.running = none →
    ∃ t, exec .inventoryTick s = .next t ∧ t.inv.seq = (s.inv.seq + 1) % 2 ^ 32 ∧ t.inv.running = some ⟨false, 0⟩
      ∧ t.inv.words = s.freezeWords ⟨false, 0⟩ ((s.inv.seq + 1) % 2 ^ 32) ∧ t.flag INV_STAT INV_STAT_GATHERING = true
      ∧ Safety.onlyRegs [INV_STAT] s t ∧ Safety.sameMem s t ∧ t.chan = s.chan)
  ∧ (∀ (s v : State) (w : Writer) (token : Byte), Safety.granted w s v → v.gathers = true →
    v.fld INV_SNAPSHOT INV_SNAPSHOT_TOKEN ≠ token.toNat → v.inv.running = none →
    ∃ t, exec (.invSnapshot w token true) s = .next t ∧ t.inv.running = some ⟨true, token.toNat⟩
      ∧ t.fld INV_SNAPSHOT INV_SNAPSHOT_TOKEN = token.toNat ∧ t.fld INV_SNAPSHOT INV_SNAPSHOT_RESULT = 1
      ∧ Safety.onlyRegs [INV_SNAPSHOT, INV_STAT] v t ∧ Safety.sameMem v t ∧ t.chan = v.chan)
  ∧ (∀ s : State, s.running islEH = true → s.sp.powerFail = .idle → s.inv.running = some ⟨false, 0⟩ → s.inv.held = none →
    s.fld INV_STAT INV_STAT_ACTIVE ≤ 1 →
    ∃ t, exec .inventoryGatherDone s = .next t ∧ t.fld INV_STAT INV_STAT_ACTIVE = 1 - s.fld INV_STAT INV_STAT_ACTIVE
      ∧ t.inv.running = none ∧ t.flag INV_STAT INV_STAT_GATHERING = false ∧ Safety.raised [(islEH, 0x473)] s t
      ∧ (∀ j, j < 0x8000 → t.byte (inventoryBase + 0x8000 * (1 - s.fld INV_STAT INV_STAT_ACTIVE) + j)
          = (tableBytes 0x2000 0 (s.bankWords s.failedSlots)).getD j 0)
      ∧ (∀ a, a < inventoryBase + 0x8000 * (1 - s.fld INV_STAT INV_STAT_ACTIVE)
          ∨ inventoryBase + 0x8000 * (1 - s.fld INV_STAT INV_STAT_ACTIVE) + 0x8000 ≤ a → t.byte a = s.byte a)
      ∧ Safety.onlyRegs [INV_STAT] s t))
  ∧ ((∀ (s : State) (u : Fin 32) (block : List Byte) (carried : Word), s.running islEH = true → s.chkFld u CHK_ENTRY0_EN = 1 →
    (u = 31 → s.inState [stLoading, stChecking] = false) →
    ∃ t r, exec (.checkBlockEnd u block carried) s = .next t
      ∧ r = s.chkResult u (crcFeed (s.chkWidth u) (s.reg (CHK_POLY u)).toNat (decide (s.chkFld u CHK_ENTRY0_REFIN = 1))
          (if (s.unit u).fed then (s.unit u).reg else (s.reg (CHK_INIT u)).toNat) block)
      ∧ t.reg (CHK_BYTE_CNT u) = s.reg (CHK_BYTE_CNT u) + BitVec.ofNat 32 block.length ∧ t.reg (CHK_BLOCK_CNT u) = s.reg (CHK_BLOCK_CNT u) + 1
      ∧ (s.chkFld u CHK_ENTRY0_MODE = 0 → t.reg (CHK_RUN u) = w32 r)
      ∧ (s.chkFld u CHK_ENTRY0_MODE ≠ 0 → t.reg (CHK_RESULT u) = w32 r ∧ (t.unit u).reg = (s.reg (CHK_INIT u)).toNat)
      ∧ (s.chkFld u CHK_ENTRY0_MODE = 2 → r = (s.reg (CHK_EXPECT u)).toNat →
          t.reg (CHK_MATCH_CNT u) = s.reg (CHK_MATCH_CNT u) + 1 ∧ t.flag (CHK_STAT u) CHK_STAT_MISMATCH = false)
      ∧ (s.chkFld u CHK_ENTRY0_MODE = 2 → r ≠ (s.reg (CHK_EXPECT u)).toNat →
          t.reg (CHK_MISMATCH_CNT u) = s.reg (CHK_MISMATCH_CNT u) + 1 ∧ t.flag (CHK_STAT u) CHK_STAT_MISMATCH = true)
      ∧ Safety.onlyRegs [CHK_BYTE_CNT u, CHK_BLOCK_CNT u, CHK_RUN u, CHK_STAT u, CHK_RESULT u, CHK_MATCH_CNT u, CHK_MISMATCH_CNT u] s t
      ∧ Safety.sameMem s t)
  ∧ (∀ (s v : State) (q : Fin 2) (u : Fin 32) (x : Word), Safety.granted (.service q) s v → v.running islEH = true →
    v.flag (CHK_ENTRY0 u) CHK_ENTRY0_EN = false → x ≠ v.reg (CHK_ENTRY0 u + 4) →
    checkEntryOk (v.reg (CHK_ENTRY0 u)) [x, v.reg (CHK_ENTRY0 u + 8), v.reg (CHK_ENTRY0 u + 12), v.reg (CHK_ENTRY0 u + 16)] = true →
    ∃ t, exec (.checkEntryWrite u 1 (.service q) x) s = .next t ∧ t.reg (CHK_ENTRY0 u + 4) = x ∧ t.mtx.resp = rOkay
      ∧ Safety.raised [(islEH, 0x471)] v t ∧ Safety.onlyRegs [CHK_ENTRY0 u + 4] v t ∧ Safety.sameMem v t)
  ∧ (∀ (s v : State) (q : Fin 2) (u : Fin 32) (x : Word), Safety.granted (.service q) s v → v.running islEH = true →
    v.flag (CHK_ENTRY0 u) CHK_ENTRY0_EN = true → x ≠ v.reg (CHK_ENTRY0 u + 4) →
    ∃ t, exec (.checkEntryWrite u 1 (.service q) x) s = .next t ∧ t.mtx.resp = rRefused ∧ Safety.raised [(islMX, 0x081)] v t
      ∧ Safety.onlyRegs [MTX_ERR_LAST, MTX_ERR_ADDR] v t ∧ Safety.sameMem v t))

/-- Register and immediate operations of the cores: each writes its result to gd and changes nothing else. Wherever the pair may execute,
every register operation completes: gd takes the sum, difference, logic, shift by the low five bits, comparison, product word, quotient or
remainder of ga and gb (0xFFFFFFFF and the dividend for a division by 0), the PC goes on by 4, and no other register of either pair, no
memory and no register word of the module changes. A result for g0 is ignored. ADDI and SLTI take the immediate sign-extended, ANDI, ORI
and XORI zero-extended; LUI puts it in the upper half; SHI shifts left, right or arithmetically right by the low five bits as its kind
says. RDITC reads the low word of the SV island's time counter and latches the high word, which RDITCH reads. Each writes gd alone and
goes on to the next instruction (R294, R295, R296, R102). -/
def Obligations.RegisterAndImmediateArithmetic : Prop :=
  (∀ (s : State) (q : Fin 2) (gd ga gb : Fin 32) (a b : Word), s.mayExec q = true → a = (s.core q).get ga → b = (s.core q).get gb →
    (∃ t, exec (.add q gd ga gb) s = .next t ∧ Safety.result q gd (a + b) s t)
    ∧ (∃ t, exec (.sub q gd ga gb) s = .next t ∧ Safety.result q gd (a - b) s t)
    ∧ (∃ t, exec (.and q gd ga gb) s = .next t ∧ Safety.result q gd (a &&& b) s t)
    ∧ (∃ t, exec (.or q gd ga gb) s = .next t ∧ Safety.result q gd (a ||| b) s t)
    ∧ (∃ t, exec (.xor q gd ga gb) s = .next t ∧ Safety.result q gd (a ^^^ b) s t)
    ∧ (∃ t, exec (.sll q gd ga gb) s = .next t ∧ Safety.result q gd (a <<< (b.toNat % 32)) s t)
    ∧ (∃ t, exec (.srl q gd ga gb) s = .next t ∧ Safety.result q gd (a >>> (b.toNat % 32)) s t)
    ∧ (∃ t, exec (.sra q gd ga gb) s = .next t ∧ Safety.result q gd (a.sshiftRight (b.toNat % 32)) s t)
    ∧ (∃ t, exec (.slt q gd ga gb) s = .next t ∧ Safety.result q gd (if a.slt b then 1 else 0) s t)
    ∧ (∃ t, exec (.sltu q gd ga gb) s = .next t ∧ Safety.result q gd (if a.ult b then 1 else 0) s t)
    ∧ (∃ t, exec (.mul q gd ga gb) s = .next t ∧ Safety.result q gd (a * b) s t)
    ∧ (∃ t, exec (.mulhu q gd ga gb) s = .next t ∧ Safety.result q gd (BitVec.ofNat 32 (a.toNat * b.toNat / 2 ^ 32)) s t)
    ∧ (∃ t, exec (.divu q gd ga gb) s = .next t ∧ Safety.result q gd (if b = 0 then 0xFFFFFFFF else a / b) s t)
    ∧ (∃ t, exec (.remu q gd ga gb) s = .next t ∧ Safety.result q gd (if b = 0 then a else a % b) s t))
  ∧ (∀ (s : State) (q : Fin 2) (gd ga : Fin 32) (imm : BitVec 16) (a : Word), s.mayExec q = true → a = (s.core q).get ga →
    (∃ t, exec (.addi q gd ga imm) s = .next t ∧ Safety.result q gd (a + imm.signExtend 32) s t)
    ∧ (∃ t, exec (.andi q gd ga imm) s = .next t ∧ Safety.result q gd (a &&& imm.setWidth 32) s t)
    ∧ (∃ t, exec (.ori q gd ga imm) s = .next t ∧ Safety.result q gd (a ||| imm.setWidth 32) s t)
    ∧ (∃ t, exec (.xori q gd ga imm) s = .next t ∧ Safety.result q gd (a ^^^ imm.setWidth 32) s t)
    ∧ (∃ t, exec (.slti q gd ga imm) s = .next t ∧ Safety.result q gd (if a.slt (imm.signExtend 32) then 1 else 0) s t)
    ∧ (∃ t, exec (.lui q gd imm) s = .next t ∧ Safety.result q gd (imm ++ (0 : BitVec 16)) s t)
    ∧ (imm.toNat < 32 → (∃ t, exec (.shi q gd ga imm) s = .next t ∧ Safety.result q gd (a <<< imm.toNat) s t))
    ∧ (32 ≤ imm.toNat → imm.toNat < 64 → (∃ t, exec (.shi q gd ga imm) s = .next t ∧ Safety.result q gd (a >>> (imm.toNat - 32)) s t))
    ∧ (64 ≤ imm.toNat → imm.toNat < 96 → (∃ t, exec (.shi q gd ga imm) s = .next t ∧ Safety.result q gd (a.sshiftRight (imm.toNat - 64)) s t))
    ∧ (∃ t, exec (.rditch q gd) s = .next t ∧ Safety.result q gd ((s.core q).itcHi) s t)
    ∧ (∃ t, exec (.rditc q gd) s = .next t ∧ t.core q = ({ s.core q with itcHi := BitVec.ofNat 32 (s.itcOf (islSV q) / 2 ^ 32) }.put gd
        (BitVec.ofNat 32 (s.itcOf (islSV q)))).step ∧ Safety.onlyCore q s t))

/-- Branches and jumps: word offsets from the branch's own address, the link, and the cleared low bits of JALR. A branch goes to its own
address plus four times the signed offset where its comparison holds, and to the next instruction otherwise, with every register
unchanged. JAL links in g31 and JALR in gd, its target with bits 1:0 cleared; a link to g0 is ignored. Nothing outside the pair changes
(R294, R295, R296). -/
def Obligations.BranchesAndJumps : Prop :=
  (∀ (s : State) (q : Fin 2) (ga gb : Fin 32) (off : BitVec 16), s.mayExec q = true →
    (∃ t, exec (.beq q ga gb off) s = .next t
        ∧ Safety.wentTo q (if (s.core q).get ga = (s.core q).get gb then (s.core q).pc + 4 * off.signExtend 32 else (s.core q).pc + 4) s t)
    ∧ (∃ t, exec (.bne q ga gb off) s = .next t
        ∧ Safety.wentTo q (if (s.core q).get ga ≠ (s.core q).get gb then (s.core q).pc + 4 * off.signExtend 32 else (s.core q).pc + 4) s t)
    ∧ (∃ t, exec (.blt q ga gb off) s = .next t
        ∧ Safety.wentTo q (if ((s.core q).get ga).slt ((s.core q).get gb) = true then (s.core q).pc + 4 * off.signExtend 32 else (s.core q).pc + 4) s t)
    ∧ (∃ t, exec (.bge q ga gb off) s = .next t
        ∧ Safety.wentTo q (if ((s.core q).get ga).slt ((s.core q).get gb) = false then (s.core q).pc + 4 * off.signExtend 32 else (s.core q).pc + 4) s t)
    ∧ (∃ t, exec (.bltu q ga gb off) s = .next t
        ∧ Safety.wentTo q (if ((s.core q).get ga).ult ((s.core q).get gb) = true then (s.core q).pc + 4 * off.signExtend 32 else (s.core q).pc + 4) s t)
    ∧ (∃ t, exec (.bgeu q ga gb off) s = .next t
        ∧ Safety.wentTo q (if ((s.core q).get ga).ult ((s.core q).get gb) = false then (s.core q).pc + 4 * off.signExtend 32 else (s.core q).pc + 4) s t))
  ∧ (∀ (s : State) (q : Fin 2) (off : BitVec 26), s.mayExec q = true →
    ∃ t, exec (.jal q off) s = .next t ∧ (t.core q).pc = (s.core q).pc + 4 * off.signExtend 32
      ∧ (∀ r, (t.core q).get r = if r = 31 then (s.core q).pc + 4 else (s.core q).get r) ∧ Safety.onlyCore q s t)
  ∧ (∀ (s : State) (q : Fin 2) (gd ga : Fin 32) (imm : BitVec 16), s.mayExec q = true →
    ∃ t, exec (.jalr q gd ga imm) s = .next t ∧ (t.core q).pc = ((s.core q).get ga + imm.signExtend 32) &&& 0xFFFFFFFC
      ∧ (∀ r, (t.core q).get r = if r = gd.val ∧ r ≠ 0 then (s.core q).pc + 4 else (s.core q).get r) ∧ Safety.onlyCore q s t)

/-- Loads from and stores to working SRAM. With nothing granted before it left to take effect there, a naturally aligned LW, LH, LHU, LB
or LBU from working SRAM, before or after the swap, writes gd with the bytes at ga + imm, the lowest address least significant, extended
as the instruction says, and changes nothing else. Likewise a naturally aligned SW, SH or SB from CODE_TOP on stores the low four, two or
one bytes of gs at ga + imm, least significant first, and no other byte; the pair goes on to the next instruction, and no register changes
(R61, R296, R297, R298). -/
def Obligations.LoadsAndStores : Prop :=
  (∀ (s : State) (q : Fin 2) (gd ga : Fin 32) (imm : BitVec 16) (a : Word) (m : Nat), s.mayExec q = true → s.running islMX = true →
    Safety.quietTarget 1 s → a = (s.core q).get ga + imm.signExtend 32 → s.target a.toNat = 1 → m = 0x10000000 + a.toNat % 0x80000 →
    (a.toNat % 4 = 0 → ∃ t, exec (.lw q gd ga imm) s = .next t ∧ Safety.result q gd (BitVec.ofNat 32 (leNat (s.bytes m 4))) s t)
    ∧ (a.toNat % 2 = 0 → ∃ t, exec (.lh q gd ga imm) s = .next t ∧ Safety.result q gd ((BitVec.ofNat 16 (leNat (s.bytes m 2))).signExtend 32) s t)
    ∧ (a.toNat % 2 = 0 → ∃ t, exec (.lhu q gd ga imm) s = .next t ∧ Safety.result q gd ((BitVec.ofNat 16 (leNat (s.bytes m 2))).setWidth 32) s t)
    ∧ (a.toNat % 1 = 0 → ∃ t, exec (.lb q gd ga imm) s = .next t ∧ Safety.result q gd ((s.byte m).signExtend 32) s t)
    ∧ (a.toNat % 1 = 0 → ∃ t, exec (.lbu q gd ga imm) s = .next t ∧ Safety.result q gd ((s.byte m).setWidth 32) s t))
  ∧ (∀ (s : State) (q : Fin 2) (gs ga : Fin 32) (imm : BitVec 16) (a : Word) (m : Nat), s.mayExec q = true → s.running islMX = true →
    s.armed = true → Safety.quietTarget 1 s → a = (s.core q).get ga + imm.signExtend 32 → s.target a.toNat = 1 → s.codeTop ≤ a.toNat % 0x80000 → m = 0x10000000 + a.toNat % 0x80000 →
    (a.toNat % 4 = 0 → ∃ t, exec (.sw q gs ga imm) s = .next t
        ∧ (∀ j, j < 4 → t.byte (m + j) = BitVec.ofNat 8 (((s.core q).get gs).toNat / 256 ^ j))
        ∧ (∀ x, x < m ∨ m + 4 ≤ x → t.byte x = s.byte x) ∧ t.core q = (s.core q).step ∧ (∀ p, p ≠ q.val → t.core p = s.core p)
        ∧ t.mtx.resp = rOkay ∧ Safety.onlyRegs [] s t ∧ t.chan = s.chan ∧ t.tasks = s.tasks)
    ∧ (a.toNat % 2 = 0 → ∃ t, exec (.sh q gs ga imm) s = .next t
        ∧ (∀ j, j < 2 → t.byte (m + j) = BitVec.ofNat 8 (((s.core q).get gs).toNat / 256 ^ j))
        ∧ (∀ x, x < m ∨ m + 2 ≤ x → t.byte x = s.byte x) ∧ t.core q = (s.core q).step ∧ (∀ p, p ≠ q.val → t.core p = s.core p)
        ∧ t.mtx.resp = rOkay ∧ Safety.onlyRegs [] s t ∧ t.chan = s.chan ∧ t.tasks = s.tasks)
    ∧ (a.toNat % 1 = 0 → ∃ t, exec (.sb q gs ga imm) s = .next t
        ∧ (∀ j, j < 1 → t.byte (m + j) = BitVec.ofNat 8 (((s.core q).get gs).toNat / 256 ^ j))
        ∧ (∀ x, x < m ∨ m + 1 ≤ x → t.byte x = s.byte x) ∧ t.core q = (s.core q).step ∧ (∀ p, p ≠ q.val → t.core p = s.core p)
        ∧ t.mtx.resp = rOkay ∧ Safety.onlyRegs [] s t ∧ t.chan = s.chan ∧ t.tasks = s.tasks))

/-- Atomic operations in working SRAM, and stores to the code region. With nothing granted before left to take effect there, an aligned
AMO on working SRAM from CODE_TOP on gives gd the word that stood at ga and leaves there gb, the sum, the conjunction or the disjunction
of the two; no other byte and no other register changes. From Armed onwards an SW below CODE_TOP stores nothing: it counts in
SVC_CODE_WR_CNT with event 0x44E, is answered REFUSED with event 0x081, and its run is aborted with event 0x445, the task Idle and the
pair free (R294, R296, R297, R298, R99, R299). -/
def Obligations.AtomicsAndCodeRegion : Prop :=
  (∀ (s : State) (q : Fin 2) (gd ga gb : Fin 32) (a old b : Word) (m : Nat), s.mayExec q = true → s.running islMX = true → s.armed = true → Safety.quietTarget 1 s →
    a = (s.core q).get ga → s.target a.toNat = 1 → a.toNat % 4 = 0 → s.codeTop ≤ a.toNat % 0x80000 → m = 0x10000000 + a.toNat % 0x80000 →
    old = BitVec.ofNat 32 (leNat (s.bytes m 4)) → b = (s.core q).get gb →
    (∃ t, exec (.amoSwap q gd ga gb) s = .next t ∧ Safety.wrote q gd old s t ∧ t.bytes m 4 = leBytes 4 (b).toNat
        ∧ (∀ x, x < m ∨ m + 4 ≤ x → t.byte x = s.byte x) ∧ (∀ p, p ≠ q.val → t.core p = s.core p) ∧ t.mtx.resp = rOkay
        ∧ Safety.onlyRegs [] s t ∧ t.chan = s.chan ∧ t.tasks = s.tasks)
    ∧ (∃ t, exec (.amoAdd q gd ga gb) s = .next t ∧ Safety.wrote q gd old s t ∧ t.bytes m 4 = leBytes 4 (old + b).toNat
        ∧ (∀ x, x < m ∨ m + 4 ≤ x → t.byte x = s.byte x) ∧ (∀ p, p ≠ q.val → t.core p = s.core p) ∧ t.mtx.resp = rOkay
        ∧ Safety.onlyRegs [] s t ∧ t.chan = s.chan ∧ t.tasks = s.tasks)
    ∧ (∃ t, exec (.amoAnd q gd ga gb) s = .next t ∧ Safety.wrote q gd old s t ∧ t.bytes m 4 = leBytes 4 (old &&& b).toNat
        ∧ (∀ x, x < m ∨ m + 4 ≤ x → t.byte x = s.byte x) ∧ (∀ p, p ≠ q.val → t.core p = s.core p) ∧ t.mtx.resp = rOkay
        ∧ Safety.onlyRegs [] s t ∧ t.chan = s.chan ∧ t.tasks = s.tasks)
    ∧ (∃ t, exec (.amoOr q gd ga gb) s = .next t ∧ Safety.wrote q gd old s t ∧ t.bytes m 4 = leBytes 4 (old ||| b).toNat
        ∧ (∀ x, x < m ∨ m + 4 ≤ x → t.byte x = s.byte x) ∧ (∀ p, p ≠ q.val → t.core p = s.core p) ∧ t.mtx.resp = rOkay
        ∧ Safety.onlyRegs [] s t ∧ t.chan = s.chan ∧ t.tasks = s.tasks))
  ∧ (∀ (s : State) (q : Fin 2) (gs ga : Fin 32) (imm : BitVec 16) (a : Word) (T : Nat), s.mayExec q = true → s.running islMX = true → s.armed = true → Safety.quietTarget 1 s →
    a = (s.core q).get ga + imm.signExtend 32 → s.target a.toNat = 1 → a.toNat % 4 = 0 → a.toNat % 0x80000 < s.codeTop →
    (s.core q).starting = false → s.pairTask q = T → T < 256 → s.taskPending T = false → Safety.noneWaits s →
    ∃ t, exec (.sw q gs ga imm) s = .next t ∧ t.mtx.resp = rRefused ∧ t.reg SVC_CODE_WR_CNT = s.reg SVC_CODE_WR_CNT + 1
      ∧ t.reg (SVC_TASK_ABORTS T) = s.reg (SVC_TASK_ABORTS T) + 1 ∧ t.taskState T = tkIdle ∧ t.pairTask q = noTask ∧ t.reg MTX_ERR_ADDR = a
      ∧ Safety.raised [(islSV q, 0x44E), (islMX, 0x081), (islSV q, 0x445)] s t ∧ Safety.sameMem s t
      ∧ Safety.onlyRegs [SVC_CODE_WR_CNT, MTX_ERR_LAST, MTX_ERR_ADDR, SVC_TASK_ABORTS T, SVC_ABORT_CNT, SVC_TASK_LONGEST T, SVC_TASK_STAT T,
          SVC_PAIR_STAT q] s t)

/-- Exceptions that abort the run, the fences and RAISE of the cores. An exception ends the run of the task T that the pair runs: T
returns to Idle, the pair is free, both abort counts rise and event 0x445 is raised by the pair's island, while RUNS does not count and no
byte is stored. It holds for TASK_ABORT of every cause, for SHI with an illegal immediate, for misaligned loads and stores, and for an AMO
that is misaligned, or not in working SRAM with nothing granted before left to take effect where it leads. FENCE.L goes on at once where
nothing of the port is outstanding and the island's events have been accepted. FENCE.G stalls the pair and issues the next global fence
with event 0x0A0, which drains the writes then in flight, or queues behind the fence that runs. RAISE raises event 0x450 plus the low four
bits of ga with gb as its data word (R296, R297, R299, R104, R105, R109). -/
def Obligations.ExceptionsFencesAndRaise : Prop :=
  (∀ (s : State) (q : Fin 2) (T : Nat) (i : Instr), s.mayExec q = true → (s.core q).starting = false → s.pairTask q = T → T < 256 →
    s.taskPending T = false → Safety.noneWaits s →
    ((∃ c a, i = .taskAbort q c a)
      ∨ (∃ gd ga imm, i = .shi q gd ga imm ∧ 96 ≤ imm.toNat)
      ∨ (∃ gd ga imm, (i = .lw q gd ga imm ∨ i = .sw q gd ga imm) ∧ ((s.core q).get ga + imm.signExtend 32).toNat % 4 ≠ 0)
      ∨ (∃ gd ga imm, (i = .lh q gd ga imm ∨ i = .lhu q gd ga imm ∨ i = .sh q gd ga imm) ∧ ((s.core q).get ga + imm.signExtend 32).toNat % 2 ≠ 0)
      ∨ (∃ gd ga gb, (i = .amoSwap q gd ga gb ∨ i = .amoAdd q gd ga gb ∨ i = .amoAnd q gd ga gb ∨ i = .amoOr q gd ga gb)
          ∧ (((s.core q).get ga).toNat % 4 ≠ 0 ∨ s.target ((s.core q).get ga).toNat ≠ 1
            ∧ Safety.quietTarget (s.target ((s.core q).get ga).toNat) s))) →
    ∃ t, exec i s = .next t ∧ t.taskState T = tkIdle ∧ t.pairTask q = noTask ∧ t.flag (SVC_PAIR_STAT q) SVC_PAIR_STAT_IDLE = true
      ∧ t.reg (SVC_TASK_ABORTS T) = s.reg (SVC_TASK_ABORTS T) + 1 ∧ t.reg SVC_ABORT_CNT = s.reg SVC_ABORT_CNT + 1
      ∧ t.reg (SVC_TASK_RUNS T) = s.reg (SVC_TASK_RUNS T) ∧ Safety.raised [(islSV q, 0x445)] s t ∧ Safety.sameMem s t
      ∧ Safety.onlyRegs [SVC_TASK_ABORTS T, SVC_ABORT_CNT, SVC_TASK_LONGEST T, SVC_TASK_STAT T, SVC_PAIR_STAT q] s t)
  ∧ ((∀ (s : State) (q : Fin 2), s.mayExec q = true → Safety.noneWaits s → s.portLive q = false →
    tget s.eh.raised 0 (islSV q) ≤ tget s.eh.accepted 0 (islSV q) →
    ∃ t, exec (.fenceL q) s = .next t ∧ Safety.wentTo q ((s.core q).pc + 4) s t)
  ∧ (∀ (s : State) (q : Fin 2), s.mayExec q = true → s.mtx.fence = none →
    ∃ t f, exec (.fenceG q) s = .next t ∧ t.core q = { s.core q with stall := some .globally } ∧ t.mtx.fence = some f
      ∧ f.no = (s.fld MTX_FENCE_NO MTX_FENCE_NO_ISSUED + 1) % 65536 ∧ f.issuer = 2 * q.val ∧ f.draining = true ∧ f.writes = s.liveWrites
      ∧ t.fld MTX_FENCE_NO MTX_FENCE_NO_ISSUED = f.no ∧ Safety.raised [(islMX, 0x0A0)] s t ∧ Safety.onlyRegs [MTX_FENCE_NO] s t
      ∧ Safety.sameMem s t)
  ∧ (∀ (s : State) (q : Fin 2) (f : Fence), s.mayExec q = true → s.mtx.fence = some f →
    ∃ t, exec (.fenceG q) s = .next t ∧ t.core q = { s.core q with stall := some .globally } ∧ t.mtx.fence = some f
      ∧ t.mtx.waiting = (if 2 * q.val ∈ s.mtx.waiting then s.mtx.waiting else s.mtx.waiting ++ [2 * q.val]) ∧ t.chan = s.chan ∧ Safety.onlyRegs [] s t ∧ Safety.sameMem s t)
  ∧ (∀ (s : State) (q : Fin 2) (ga gb : Fin 32), s.mayExec q = true →
    ∃ t, exec (.raise q ga gb) s = .next t ∧ t.core q = (s.core q).step
      ∧ t.chan = s.chan ++ [⟨0x450 + ((s.core q).get ga).toNat % 16, islSV q, s.itcOf (islSV q), [(s.core q).get gb]⟩]
      ∧ Safety.onlyRegs [] s t ∧ Safety.sameMem s t))

/-- The end of a run, task wakes and dispatch. With its port quiet and its island's events accepted, DONE ends the run: the task Idle, the
pair free, RUNS counted, LONGEST kept and the count of budget aborts 0. READY also sets the task's bit in SVC_RDY_MAP with event 0x449;
where every other enabled required task has reported, event 0x44D is raised and Armed is left for Serving, with L7 started. While an
access of the port is outstanding the instruction waits and nothing else changes. A period's wake makes an Idle task Ready with cause
0x800. Where SV0 is free and no other task waits, SV0 takes it at once: PC at ENTRY, g1 the task number, g2 the cause, g3 ARG, g4 the pair
and every other register 0. The wake of a Running task sets PENDING. Nothing else changes (R14, R44, R104, R301, R306, R307, R302, R303,
R305). -/
def Obligations.RunsWakesAndDispatch : Prop :=
  ((∀ (s : State) (q : Fin 2) (T : Nat), s.mayExec q = true → (s.core q).starting = false → s.pairTask q = T → T < 256 →
    s.taskPending T = false → Safety.noneWaits s → s.portLive q = false → tget s.eh.raised 0 (islSV q) ≤ tget s.eh.accepted 0 (islSV q) →
    (∃ t, exec (.done q) s = .next t ∧ t.taskState T = tkIdle ∧ t.pairTask q = noTask
      ∧ t.reg (SVC_TASK_RUNS T) = s.reg (SVC_TASK_RUNS T) + 1 ∧ t.fld (SVC_TASK_STAT T) SVC_TASK_STAT_ABORTS = 0
      ∧ t.reg (SVC_TASK_LONGEST T) = BitVec.ofNat 32 (max (s.reg (SVC_TASK_LONGEST T)).toNat
          (min 0xFFFFFFFF (((s.task T).spent + (s.now - (s.core q).since)) / 1000)))
      ∧ Safety.onlyRegs [SVC_TASK_RUNS T, SVC_TASK_LONGEST T, SVC_TASK_STAT T, SVC_PAIR_STAT q] s t ∧ Safety.sameMem s t ∧ t.chan = s.chan)
    ∧ (s.taskReq T = true → s.reported T = false → s.flag SVC_SCHED_STAT SVC_SCHED_STAT_ALL_REQ_READY = true →
      ∃ t, exec (.ready q) s = .next t ∧ t.taskState T = tkIdle ∧ t.pairTask q = noTask ∧ t.reported T = true
        ∧ t.reg (SVC_TASK_RUNS T) = s.reg (SVC_TASK_RUNS T) + 1 ∧ Safety.raised [(islSV q, 0x449)] s t ∧ Safety.sameMem s t
        ∧ Safety.onlyRegs [SVC_TASK_RUNS T, SVC_TASK_LONGEST T, SVC_TASK_STAT T, SVC_PAIR_STAT q, SVC_RDY_MAP (T / 32)] s t)
    ∧ (s.life = stArmed → s.taskReq T = true → s.reported T = false → s.flag SVC_SCHED_STAT SVC_SCHED_STAT_ALL_REQ_READY = false →
      (∀ u, u < 256 → u ≠ T → s.taskState u = tkDisabled ∨ s.taskReq u = false ∨ s.reported u = true) →
      ∃ t, exec (.ready q) s = .next t ∧ t.life = stServing ∧ t.flag SVC_SCHED_STAT SVC_SCHED_STAT_ALL_REQ_READY = true
        ∧ t.sp.l7Run = true ∧ t.sp.l7Since = s.now ∧ (∃ l, Safety.raised ([(islSV q, 0x449), (s.schedIsl, 0x44D), (islSP, stServing)] ++ l) s t)
        ∧ Safety.sameMem s t))
  ∧ (∀ (s : State) (q : Fin 2), s.mayExec q = true → s.portLive q = true → ∀ i, i = .done q ∨ i = .ready q ∨ i = .fenceL q →
    ∃ t k n, exec i s = .next t ∧ t.core q = { s.core q with stall := some (.locally k n) } ∧ Safety.onlyCore q s t))
  ∧ ((∀ (s : State) (u : Fin 256), s.schedRuns = true → s.fld (SVC_TASK_W2 u) SVC_TASK_W2_PERIOD ≠ 0 → s.taskState u = tkIdle → Safety.noneWaits s →
    s.pairFree 0 = false → s.pairFree 1 = false → s.flag SVC_CFG SVC_CFG_PREEMPT_EN = false → (s.pairsOf u).any s.pairIn = true →
    ∃ t, exec (.taskPeriod u) s = .next t ∧ t.taskState u = tkReady ∧ t.fld (SVC_TASK_STAT u) SVC_TASK_STAT_CAUSE = 0x800
      ∧ Safety.onlyRegs [SVC_TASK_STAT u] s t ∧ Safety.sameMem s t ∧ t.chan = s.chan ∧ t.cores = s.cores)
  ∧ (∀ (s : State) (u : Fin 256), s.fld (SVC_TASK_W2 u) SVC_TASK_W2_PERIOD ≠ 0 → s.taskState u = tkIdle → Safety.noneWaits s →
    s.pairFree 0 = true → (s.pairsOf u).contains 0 = true → (s.task u).saved = false →
    ∃ t, exec (.taskPeriod u) s = .next t ∧ t.taskState u = tkRunning ∧ t.pairTask 0 = u.val
      ∧ t.flag (SVC_PAIR_STAT 0) SVC_PAIR_STAT_IDLE = false ∧ (t.core 0).pc = s.reg (SVC_TASK_ENTRY u)
      ∧ (∀ r, (t.core 0).get r = if r = 1 then BitVec.ofNat 32 u else if r = 2 then 0x800 else if r = 3 then s.reg (SVC_TASK_ARG u) else 0)
      ∧ t.core 1 = s.core 1 ∧ Safety.onlyRegs [SVC_TASK_STAT u, SVC_PAIR_STAT 0] s t ∧ Safety.sameMem s t ∧ t.chan = s.chan)
  ∧ (∀ (s : State) (u : Fin 256), s.schedRuns = true → s.fld (SVC_TASK_W2 u) SVC_TASK_W2_PERIOD ≠ 0 → s.taskState u = tkRunning →
    s.taskPending u = false → Safety.noneWaits s →
    ∃ t, exec (.taskPeriod u) s = .next t ∧ t.taskPending u = true ∧ t.taskState u = tkRunning
      ∧ Safety.onlyRegs [SVC_TASK_STAT u] s t ∧ Safety.sameMem s t ∧ t.chan = s.chan))

/-- The commands on tasks: make ready, cancel, enable, disable; task 0 cannot be disabled; a repeated token does nothing. A command with a
new token stands in SVC_TASK_CMD with RESULT 0x01 and raises 0x44B. Make ready wakes an Idle task with cause 0x802; cancel returns a Ready
task to Idle and drops its wakes, the one of the same cycle with event 0x44A and counted; enable and disable set EN and move between
Disabled and Idle, where a free bit tells whether a disable of the same moment stands in the enable's cycle (log entry 101, the model's
choice). An enable or disable of task 0 is refused with RESULT 0x04. A repeated token changes nothing (R301, R302, R325, R326, R351,
R410). -/
def Obligations.TaskCommands : Prop :=
  (∀ (s v : State) (q : Fin 2) (u : Fin 256) (token : Byte), Safety.granted (.service q) s v → v.fld SVC_TASK_CMD SVC_TASK_CMD_TOKEN ≠ token.toNat →
    (Safety.othersIdle u v →
      (v.taskState u = tkIdle → v.pairFree 0 = false → v.pairFree 1 = false → v.flag SVC_CFG SVC_CFG_PREEMPT_EN = false →
        (v.pairsOf u).any v.pairIn = true →
        ∃ t, exec (.taskMakeReady u (.service q) token) s = .next t ∧ t.taskState u = tkReady
          ∧ t.fld (SVC_TASK_STAT u) SVC_TASK_STAT_CAUSE = 0x802 ∧ t.fld SVC_TASK_CMD SVC_TASK_CMD_CMD = 1
          ∧ t.fld SVC_TASK_CMD SVC_TASK_CMD_TASK = u.val ∧ t.fld SVC_TASK_CMD SVC_TASK_CMD_TOKEN = token.toNat
          ∧ t.fld SVC_TASK_CMD SVC_TASK_CMD_RESULT = 1 ∧ Safety.raised [(v.schedIsl, 0x44B)] v t
          ∧ Safety.onlyRegs [SVC_TASK_CMD, SVC_TASK_STAT u] v t ∧ Safety.sameMem v t)
      ∧ (∀ woken, v.taskState u = tkReady →
        ∃ t, exec (.taskCancel u (.service q) token woken) s = .next t ∧ t.taskState u = tkIdle ∧ t.taskPending u = false
          ∧ t.fld SVC_TASK_CMD SVC_TASK_CMD_RESULT = 1
          ∧ t.reg SVC_TASK_DROPPED = v.reg SVC_TASK_DROPPED + (if woken then 1 else 0)
          ∧ Safety.raised ((v.schedIsl, 0x44B) :: if woken then [(v.schedIsl, 0x44A)] else []) v t
          ∧ Safety.onlyRegs [SVC_TASK_CMD, SVC_TASK_STAT u, SVC_TASK_DROPPED] v t ∧ Safety.sameMem v t)
      ∧ (u ≠ 0 → v.taskState u = tkDisabled →
        ∃ t, exec (.taskEnable u (.service q) token) s = .next t ∧ (v.freeWord.getLsbD 0 = false ∨ (v.task u).off ≠ some v.now →
            t.taskState u = tkIdle ∧ t.flag (SVC_TASK_W1 u) SVC_TASK_W1_EN = true)
          ∧ t.fld SVC_TASK_CMD SVC_TASK_CMD_RESULT = 1 ∧ Safety.raised [(v.schedIsl, 0x44B)] v t
          ∧ Safety.onlyRegs [SVC_TASK_CMD, SVC_TASK_W1 u, SVC_TASK_STAT u] v t ∧ Safety.sameMem v t)
      ∧ (u ≠ 0 → v.taskState u = tkReady →
        ∃ t, exec (.taskDisable u (.service q) token false) s = .next t ∧ t.taskState u = tkDisabled
          ∧ t.flag (SVC_TASK_W1 u) SVC_TASK_W1_EN = false ∧ t.fld SVC_TASK_CMD SVC_TASK_CMD_RESULT = 1
          ∧ Safety.raised [(v.schedIsl, 0x44B)] v t
          ∧ Safety.onlyRegs [SVC_TASK_CMD, SVC_TASK_W1 u, SVC_TASK_STAT u] v t ∧ Safety.sameMem v t))
    ∧ (u = 0 → ∀ i, i = .taskEnable u (.service q) token ∨ i = .taskDisable u (.service q) token false →
      ∃ t, exec i s = .next t ∧ t.fld SVC_TASK_CMD SVC_TASK_CMD_RESULT = 4 ∧ Safety.raised [(v.schedIsl, 0x44B)] v t
        ∧ Safety.onlyRegs [SVC_TASK_CMD] v t ∧ Safety.sameMem v t))
  ∧ (∀ (s v : State) (q : Fin 2) (u : Fin 256) (token : Byte), Safety.granted (.service q) s v → v.fld SVC_TASK_CMD SVC_TASK_CMD_TOKEN = token.toNat →
    ∃ t, exec (.taskCancel u (.service q) token false) s = .next t ∧ Safety.onlyRegs [] v t ∧ Safety.sameMem v t ∧ t.chan = v.chan)

/-- Loss of signal sources of a line port, and its error-rate windows. On an enabled port in frame, each configured source declares dLOS
with event k 0x01 after its own, takes the framer to Dark, and puts AIS, aTSF and MS-RDI in force with k 0x20; K-byte and SSM validity
end. A module removed while the framer searches ends the search with k 0x1D and starts the hold-off, under which no action changes until
HOLDOFF_END. With the 300 ms of MOD_ABS over, TX_DISABLE is what EN, the life cycle and the laser state make it. Only the port's own
status registers change. At the end of a sub-window its count joins the last eight, whose sum LINE_BER_STAT shows. With no spoilt sub-
window, a sum of N times the declare count declares SF or SD, a sum of at most N times the clear count clears SF; a spoilt one holds the
defect. Only LINE_BER_STAT and the port's status change (R116, R117, R118, R119, R129, R135, R138, R133, R134). -/
def Obligations.LossOfSignalAndErrorRates : Prop :=
  ((∀ (s : State) (n : Fin 8), s.lineUp n = true → Safety.alone s → s.fld (LINE_FRM_STAT n) LINE_FRM_STAT_STATE = frInFrame →
    s.lstat n LINE_STAT_LOS = false → s.lstat n LINE_STAT_OOF = false → s.lstat n LINE_STAT_HOLDOFF = false → s.lstat n LINE_STAT_TSF = false →
    s.lstat n LINE_STAT_SD = false → s.lstat n LINE_STAT_TSD = false → ∀ (i : Instr) (k : List Nat),
    ((i = .losBallChange n true ∧ k = [0x19] ∧ s.fld (LINE_CFG n) LINE_CFG_LOS_SRC ≠ 1)
      ∨ (i = .electricalLos n true ∧ k = [] ∧ s.fld (LINE_CFG n) LINE_CFG_LOS_SRC ≠ 0) ∨ (i = .modAbsChange n true ∧ k = [0x18])) →
    ∃ t, exec i s = .next t ∧ t.lstat n LINE_STAT_LOS = true ∧ t.fld (LINE_FRM_STAT n) LINE_FRM_STAT_STATE = frDark
      ∧ t.lstat n LINE_STAT_AIS_OUT = true ∧ t.lstat n LINE_STAT_TSF = true ∧ (t.line n).sendRdi = true
      ∧ t.flag (LINE_STICKY n) ⟨0, 1⟩ = true ∧ t.flag (LINE_K_RX n) LINE_K_RX_VALID = false ∧ t.flag (LINE_S1 n) LINE_S1_RX_VALID = false
      ∧ Safety.raised (Safety.lineEvents n (k ++ [0x01, 0x20])) s t ∧ Safety.lineOnly (Safety.lineRegs n) s t)
  ∧ (∀ (s : State) (n : Fin 8), s.lineUp n = true → Safety.alone s → s.fld (LINE_FRM_STAT n) LINE_FRM_STAT_STATE = frSearch →
    s.lstat n LINE_STAT_LOS = false → s.lstat n LINE_STAT_OOF = false → s.lstat n LINE_STAT_HOLDOFF = false →
    ∃ t, exec (.modAbsChange n true) s = .next t ∧ t.lstat n LINE_STAT_LOS = true ∧ t.lstat n LINE_STAT_HOLDOFF = true
      ∧ t.fld (LINE_FRM_STAT n) LINE_FRM_STAT_STATE = frDark ∧ t.lstat n LINE_STAT_TSF = s.lstat n LINE_STAT_TSF
      ∧ t.lstat n LINE_STAT_AIS_OUT = s.lstat n LINE_STAT_AIS_OUT ∧ Safety.raised (Safety.lineEvents n [0x18, 0x01, 0x1D]) s t
      ∧ Safety.lineOnly (Safety.lineRegs n) s t)
  ∧ (∀ (s : State) (n : Fin 8), s.lineUp n = true → Safety.alone s → s.lstat n LINE_STAT_HOLDOFF = true → s.lstat n LINE_STAT_LOS = true →
    s.lstat n LINE_STAT_TSF = false → s.lstat n LINE_STAT_SD = false → s.lstat n LINE_STAT_TSD = false →
    ∃ t, exec (.holdoffEnd n) s = .next t ∧ t.lstat n LINE_STAT_HOLDOFF = false ∧ t.lstat n LINE_STAT_AIS_OUT = true
      ∧ t.lstat n LINE_STAT_TSF = true ∧ Safety.raised (Safety.lineEvents n [0x1E, 0x20]) s t
      ∧ Safety.lineOnly [LINE_STAT n, LINE_STICKY n] s t)
  ∧ (∀ (s : State) (n : Fin 8), s.running (islLP n) = true → s.sp.modAbs.getLsbD n = false →
    ∃ t, exec (.modAbsSettle n) s = .next t ∧ (t.line n).settling = false
      ∧ t.lstat n LINE_STAT_TXDIS = (!s.flag (LINE_CFG n) LINE_CFG_EN || !s.live || decide (s.als n = alsOff))
      ∧ Safety.onlyRegs [LINE_STAT n] s t ∧ Safety.sameMem s t ∧ t.chan = s.chan))
  ∧ (∀ (s : State) (n : Fin 8), s.lineUp n = true → Safety.alone s →
    (∃ t, exec (.berSubwindowEnd n .exc) s = .next t ∧ (t.line n).excSum = 0 ∧ (t.line n).excOk = true
      ∧ (t.line n).excWin = pushWindow (s.line n).excWin (if (s.line n).excOk && s.b2Counting n then some (s.line n).excSum else none)
      ∧ t.fld (LINE_BER_STAT n) LINE_BER_STAT_EXC_SUM = min 65535 (windowSum (t.line n).excWin)
      ∧ ((t.line n).excWin.any Option.isNone = false →
          (berCounts (s.fld (LINE_DEG_CFG n) LINE_DEG_CFG_SF_EXP)).1 * s.stmN n ≤ windowSum (t.line n).excWin → t.lstat n LINE_STAT_SF = true)
      ∧ ((t.line n).excWin.any Option.isNone = false →
          windowSum (t.line n).excWin ≤ (berCounts (s.fld (LINE_DEG_CFG n) LINE_DEG_CFG_SF_EXP)).2 * s.stmN n →
          windowSum (t.line n).excWin < (berCounts (s.fld (LINE_DEG_CFG n) LINE_DEG_CFG_SF_EXP)).1 * s.stmN n → t.lstat n LINE_STAT_SF = false)
      ∧ ((t.line n).excWin.any Option.isNone = true → t.lstat n LINE_STAT_SF = s.lstat n LINE_STAT_SF)
      ∧ Safety.lineOnly [LINE_BER_STAT n, LINE_STAT n, LINE_STICKY n] s t)
    ∧ (∃ t, exec (.berSubwindowEnd n .deg) s = .next t ∧ (t.line n).degSum = 0 ∧ (t.line n).degOk = true
      ∧ (t.line n).degWin = pushWindow (s.line n).degWin (if (s.line n).degOk && s.b2Counting n then some (s.line n).degSum else none)
      ∧ t.fld (LINE_BER_STAT n) LINE_BER_STAT_DEG_SUM = min 65535 (windowSum (t.line n).degWin)
      ∧ ((t.line n).degWin.any Option.isNone = false →
          (berCounts (s.fld (LINE_DEG_CFG n) LINE_DEG_CFG_SD_EXP)).1 * s.stmN n ≤ windowSum (t.line n).degWin → t.lstat n LINE_STAT_SD = true)
      ∧ ((t.line n).degWin.any Option.isNone = false →
          windowSum (t.line n).degWin ≤ (berCounts (s.fld (LINE_DEG_CFG n) LINE_DEG_CFG_SD_EXP)).2 * s.stmN n →
          windowSum (t.line n).degWin < (berCounts (s.fld (LINE_DEG_CFG n) LINE_DEG_CFG_SD_EXP)).1 * s.stmN n → t.lstat n LINE_STAT_SD = false)
      ∧ ((t.line n).degWin.any Option.isNone = true → t.lstat n LINE_STAT_SD = s.lstat n LINE_STAT_SD)
      ∧ Safety.lineOnly [LINE_BER_STAT n, LINE_STAT n, LINE_STICKY n] s t))

/-- The framer, the LOF integrator, and the parity and overhead of a frame received in frame. CDR lock leads Dark to Search, its loss
raises k 0x1F. Search, Presync, In frame and Out of frame follow one another as the alignment word is found, confirmed, missed four times
or found twice; entering Out of frame counts. In frame the raw K bytes, the orderwire and D bytes are noted, and the B1, B2 and REI
counters advance by the errors of this frame, an M1 beyond 24 on STM-1 counting 0. The 24th count of the integrator declares dLOF. A frame
changes no register outside its port's block and no memory (R119, R120, R121, R122, R123, R128, R132). -/
def Obligations.FramingAndLockOfTheReceiver : Prop :=
  (∀ (s : State) (n : Fin 8), s.running (islLP n) = true → s.fld (LINE_FRM_STAT n) LINE_FRM_STAT_STATE = frDark →
    s.lstat n LINE_STAT_LOS = false → s.lstat n LINE_STAT_OOF = false →
    ∃ t, exec (.cdrLockChange n true) s = .next t ∧ t.fld (LINE_FRM_STAT n) LINE_FRM_STAT_STATE = frSearch
      ∧ t.lstat n LINE_STAT_CDR_LOCK = true ∧ Safety.onlyRegs [LINE_STAT n, LINE_FRM_STAT n] s t ∧ Safety.sameMem s t ∧ t.chan = s.chan)
  ∧ (∀ (s : State) (n : Fin 8), s.lineUp n = true → s.lstat n LINE_STAT_CDR_LOCK = true →
    ∃ t, exec (.cdrLockChange n false) s = .next t ∧ t.lstat n LINE_STAT_CDR_LOCK = false
      ∧ Safety.raised (Safety.lineEvents n [0x1F]) s t ∧ Safety.onlyRegs [LINE_STAT n] s t ∧ Safety.sameMem s t)
  ∧ (∀ (s : State) (n : Fin 8) (f : LineFrame) (r : RxFrame), s.lineUp n = true → Safety.alone s → r = s.lineRx n f.bytes →
    ∃ t, exec (.lineFrame n f) s = .next t ∧ Safety.sameMem s t
      ∧ Safety.regsOutside (fun a => a = TWN_STAT ∨ 0x40100000 + 0x10000 * n.val ≤ a ∧ a < 0x40110000 + 0x10000 * n.val) s t
      ∧ (s.fld (LINE_FRM_STAT n) LINE_FRM_STAT_STATE = frSearch → f.found ≠ none → t.fld (LINE_FRM_STAT n) LINE_FRM_STAT_STATE = frPresync)
      ∧ (s.fld (LINE_FRM_STAT n) LINE_FRM_STAT_STATE = frPresync → r.wordOk = false → t.fld (LINE_FRM_STAT n) LINE_FRM_STAT_STATE = frSearch)
      ∧ (s.fld (LINE_FRM_STAT n) LINE_FRM_STAT_STATE = frPresync → r.wordOk = true → t.fld (LINE_FRM_STAT n) LINE_FRM_STAT_STATE = frInFrame)
      ∧ (s.fld (LINE_FRM_STAT n) LINE_FRM_STAT_STATE = frInFrame → r.wordOk = false → (s.line n).errRun = 3 →
          t.fld (LINE_FRM_STAT n) LINE_FRM_STAT_STATE = frOutOfFrame ∧ t.lstat n LINE_STAT_OOF = true
            ∧ t.reg (LINE_OOF_CNT n) = s.reg (LINE_OOF_CNT n) + 1)
      ∧ (s.fld (LINE_FRM_STAT n) LINE_FRM_STAT_STATE = frInFrame → r.wordOk = false → (s.line n).errRun < 3 →
          t.fld (LINE_FRM_STAT n) LINE_FRM_STAT_STATE = frInFrame)
      ∧ (s.fld (LINE_FRM_STAT n) LINE_FRM_STAT_STATE = frOutOfFrame → r.wordOk = true → 1 ≤ (s.line n).goodRun →
          t.fld (LINE_FRM_STAT n) LINE_FRM_STAT_STATE = frInFrame ∧ t.lstat n LINE_STAT_OOF = false)
      ∧ (∀ p, s.fld (LINE_FRM_STAT n) LINE_FRM_STAT_STATE = frOutOfFrame → (r.wordOk = false ∨ (s.line n).goodRun = 0) →
          f.found = some p → (s.line n).newPos = some p.1 →
          t.fld (LINE_FRM_STAT n) LINE_FRM_STAT_STATE = frInFrame ∧ (t.line n).candidate = p.1)
      ∧ (s.fld (LINE_FRM_STAT n) LINE_FRM_STAT_STATE = frInFrame → r.wordOk = true → s.lstat n LINE_STAT_LOS = false →
          s.lstat n LINE_STAT_LOF = false → s.lstat n LINE_STAT_TIM = false → s.lstat n LINE_STAT_MSAIS = false →
          s.fld (LINE_FRM_STAT n) LINE_FRM_STAT_LOFI < 24 →
          t.fld (LINE_FRM_STAT n) LINE_FRM_STAT_STATE = frInFrame
            ∧ t.reg (LINE_K_RAW n) = BitVec.ofNat 32 (r.k1.toNat + 256 * r.k2.toNat)
            ∧ t.reg (LINE_OH_RX n) = BitVec.ofNat 32 (r.e1.toNat + 256 * r.e2.toNat + 65536 * r.f1.toNat)
            ∧ (t.line n).dcc = r.dcc ∧ (t.line n).refB1 = some r.bip8 ∧ (t.line n).refB2 = some r.bip24
            ∧ (∀ p, (s.line n).refB1 = some p → t.reg (LINE_B1_CNT n) = s.reg (LINE_B1_CNT n) + BitVec.ofNat 32 (bitErrors p r.b1))
            ∧ (∀ p, (s.line n).refB2 = some p → t.reg (LINE_B2_CNT n) = s.reg (LINE_B2_CNT n) + BitVec.ofNat 32 (listErrors p r.b2))
            ∧ (s.fld (LINE_CFG n) LINE_CFG_RATE = 0 → r.m1.toNat ≤ 24 → t.reg (LINE_REI_CNT n) = s.reg (LINE_REI_CNT n) + BitVec.ofNat 32 r.m1.toNat)
            ∧ (s.fld (LINE_CFG n) LINE_CFG_RATE = 0 → 24 < r.m1.toNat → t.reg (LINE_REI_CNT n) = s.reg (LINE_REI_CNT n)))
      ∧ (s.fld (LINE_FRM_STAT n) LINE_FRM_STAT_STATE = frOutOfFrame → r.wordOk = false → f.found = none → s.lstat n LINE_STAT_LOS = false →
          s.lstat n LINE_STAT_LOF = false → s.fld (LINE_FRM_STAT n) LINE_FRM_STAT_LOFI = 23 → t.lstat n LINE_STAT_LOF = true))

/-- Automatic laser shutdown of the line port, its manual pulses, and the supervisor's own drive of TX_DISABLE. dLOS for DEACT_MS puts the
laser off with k 0x1A; RESTART_S later a pulse goes out with k 0x1B; a pulse that ends with dLOS still there returns to Laser off; dLOS
clearing turns the laser on with k 0x1C, and the RESULT of a manual pulse says how it ended. A manual restart or test is accepted in Laser
off only. SP drives its own TX_DISABLE for held LOS, MOD_ABS or an island out of service where enabled, and in Dormant and Safe always;
asserting it alone on LOS raises 0x018 (R36, R37, R116, R136, R140). -/
def Obligations.LaserShutdown : Prop :=
  (∀ (s : State) (n : Fin 8), s.lineUp n = true →
    (s.flag (LINE_CFG n) LINE_CFG_ALS_EN = true → s.lstat n LINE_STAT_LOS = true → s.als n = alsOn →
      ∃ t, exec (.alsDeactivation n) s = .next t ∧ t.als n = alsOff ∧ t.lstat n LINE_STAT_TXDIS = true
        ∧ Safety.raised (Safety.lineEvents n [0x1A]) s t ∧ Safety.onlyRegs [LINE_FRM_STAT n, LINE_STAT n] s t ∧ Safety.sameMem s t)
    ∧ (s.als n = alsOff →
      ∃ t, exec (.alsRestartPulse n) s = .next t ∧ t.als n = alsRestart ∧ t.lstat n LINE_STAT_TXDIS = (!s.live || (s.line n).settling)
        ∧ Safety.raised (Safety.lineEvents n [0x1B]) s t ∧ Safety.onlyRegs [LINE_FRM_STAT n, LINE_STAT n] s t ∧ Safety.sameMem s t)
    ∧ (s.lstat n LINE_STAT_LOS = true → s.als n = alsRestart ∨ s.als n = alsManual →
      ∃ t, exec (.alsPulseEnd n) s = .next t ∧ t.als n = alsOff ∧ t.lstat n LINE_STAT_TXDIS = true
        ∧ (s.als n = alsManual → t.fld (LINE_ALS_CMD n) LINE_ALS_CMD_RESULT = 3)
        ∧ Safety.onlyRegs [LINE_FRM_STAT n, LINE_STAT n, LINE_ALS_CMD n] s t ∧ Safety.sameMem s t ∧ t.chan = s.chan)
    ∧ (s.lstat n LINE_STAT_LOS = false → s.als n ≠ alsOn →
      ∃ t, exec (.alsLosClear n) s = .next t ∧ t.als n = alsOn ∧ t.lstat n LINE_STAT_TXDIS = (!s.live || (s.line n).settling)
        ∧ (s.als n = alsManual → t.fld (LINE_ALS_CMD n) LINE_ALS_CMD_RESULT = 2)
        ∧ Safety.raised (Safety.lineEvents n [0x1C]) s t
        ∧ Safety.onlyRegs [LINE_FRM_STAT n, LINE_STAT n, LINE_ALS_CMD n] s t ∧ Safety.sameMem s t))
  ∧ (∀ (s v : State) (n : Fin 8) (q : Fin 2) (token : Byte) (i : Instr) (cmd : Nat), Safety.granted (.service q) s v →
    v.lineUp n = true → v.fld (LINE_ALS_CMD n) LINE_ALS_CMD_TOKEN ≠ token.toNat →
    ((i = .alsManualRestart n (.service q) token ∧ cmd = 1) ∨ (i = .alsManualTest n (.service q) token ∧ cmd = 2)) →
    ∃ t, exec i s = .next t ∧ t.mtx.resp = rOkay ∧ Safety.sameMem v t
      ∧ (v.als n = alsOff → t.als n = alsManual ∧ t.reg (LINE_ALS_CMD n) = BitVec.ofNat 32 (token.toNat + 256 * cmd + 65536)
          ∧ Safety.raised (Safety.lineEvents n [0x1B]) v t ∧ Safety.onlyRegs [LINE_FRM_STAT n, LINE_STAT n, LINE_ALS_CMD n] v t)
      ∧ (v.als n ≠ alsOff → t.fld (LINE_ALS_CMD n) LINE_ALS_CMD_RESULT = 4 ∧ t.chan = v.chan ∧ Safety.onlyRegs [LINE_ALS_CMD n] v t))
  ∧ (∀ (s : State) (n : Fin 8) (held : Bool), s.sp.powered = true →
    ∃ t, exec (.spLaserShutdown n held) s = .next t ∧ Safety.onlyRegs [SUP_SAFETY_STAT] s t ∧ Safety.sameMem s t
      ∧ t.bitAt SUP_SAFETY_STAT (8 + n.val) = ((s.bitAt SUP_ALS_CFG n && (held || s.sp.modAbs.getLsbD n || !s.running (islLP n)))
          || decide (s.life = stDormant) || decide (s.life = stSafe) || decide (s.sp.powerFail ≠ .idle))
      ∧ (held = false → t.chan = s.chan)
      ∧ (s.sp.dormant = false → s.bitAt SUP_ALS_CFG n = true → held = true → s.bitAt SUP_SAFETY_STAT (8 + n.val) = false →
          s.lstat n LINE_STAT_TXDIS = false → Safety.raised [(islSP, 0x018)] s t))

/-- Enabling and disabling a line port, and the K bytes to be sent. A service enables a port: its framer starts in Dark, or in Search
where the CDR is locked. Disabling it raises k 0x00 alone, clears every defect, turns the laser off and sends AIS and aTSF. Maintenance is
refused. The K bytes written stand in LINE_K_TX, and whether they landed in the K-byte slot is kept. Only the port's own registers change
(R116, R119, R131, R139, R410). -/
def Obligations.LinePortsEnableDisableAndK : Prop :=
  (∀ (s v : State) (n : Fin 8) (q : Fin 2), Safety.granted (.service q) s v → v.running (islLP n) = true →
    v.flag (LINE_CFG n) LINE_CFG_EN = false → Safety.alone v → v.lstat n LINE_STAT_LOS_PIN = false → (v.line n).elec = false →
    v.lstat n LINE_STAT_MOD_ABS = false →
    ∃ t, exec (.lineEnable n (.service q)) s = .next t ∧ t.mtx.resp = rOkay ∧ t.flag (LINE_CFG n) LINE_CFG_EN = true
      ∧ t.lstat n LINE_STAT_DISABLED = false
      ∧ Safety.raised (Safety.lineEvents n ([0x00] ++ (if v.lstat n LINE_STAT_TSF then [0x21] else [])
          ++ if v.lstat n LINE_STAT_TSD then [0x23] else [])) v t
      ∧ t.fld (LINE_FRM_STAT n) LINE_FRM_STAT_STATE = (if v.lstat n LINE_STAT_CDR_LOCK then frSearch else frDark)
      ∧ Safety.lineOnly (LINE_CFG n :: Safety.lineRegs n) v t)
  ∧ (∀ (s v : State) (n : Fin 8) (q : Fin 2), Safety.granted (.service q) s v → v.running (islLP n) = true →
    v.flag (LINE_CFG n) LINE_CFG_EN = true → Safety.alone v →
    ∃ t, exec (.lineDisable n (.service q)) s = .next t ∧ t.mtx.resp = rOkay ∧ t.flag (LINE_CFG n) LINE_CFG_EN = false
      ∧ t.lstat n LINE_STAT_DISABLED = true ∧ t.fld (LINE_STAT n) ⟨0, 9⟩ = 0 ∧ t.lstat n LINE_STAT_TXDIS = true
      ∧ t.lstat n LINE_STAT_AIS_OUT = true ∧ t.lstat n LINE_STAT_TSF = true ∧ t.fld (LINE_FRM_STAT n) LINE_FRM_STAT_STATE = frDisabled
      ∧ Safety.raised (Safety.lineEvents n [0x00]) v t ∧ Safety.lineOnly (LINE_CFG n :: Safety.lineRegs n) v t)
  ∧ (∀ (s v : State) (n : Fin 8), Safety.granted .maintenance s v → v.running (islLP n) = true →
    ∃ t, exec (.lineDisable n .maintenance) s = .next t ∧ t.mtx.resp = rRefused ∧ t.reg MTX_ERR_ADDR = w32 (LINE_CFG n)
      ∧ Safety.onlyRegs [MTX_ERR_LAST, MTX_ERR_ADDR, EVT_MGMT_REF, EVT_MGMT_REF_CODE] v t ∧ Safety.sameMem v t)
  ∧ (∀ (s v : State) (n : Fin 8) (q : Fin 2) (x : Word) (slot : Bool), Safety.granted (.service q) s v → v.running (islLP n) = true →
    ∃ t, exec (.lineKTxWrite n (.service q) x slot) s = .next t ∧ t.mtx.resp = rOkay
      ∧ t.fld (LINE_K_TX n) ⟨0, 16⟩ = x.toNat % 65536 ∧ (t.line n).kLate = slot
      ∧ (slot = true → (t.line n).kNow = if (v.line n).kLate then (v.line n).kNow else v.reg (LINE_K_TX n))
      ∧ Safety.onlyRegs [LINE_K_TX n] v t ∧ Safety.sameMem v t ∧ t.chan = v.chan)

/-- MSP group commands, refusals and timers. In an enabled unidirectional group in which nothing else is requested and no port has aTSF or
aTSD, clear, lockout, forced switch, manual switch and exercise each stand in APS_CMD with their result and event 0x438; APS_STAT and the
first K byte of every running port of the group show the request and its channel, and a forced or manual switch moves selector and bridge
to the channel, with 0x434 for a new request and 0x435 and the switch count for a new selection. A forced switch of a disabled group or to
a channel it does not have changes RESULT to 0x04 alone, with event 0x438. aTSF that has persisted for HOLDOFF makes the channel's SF,
where no other channel has it, the ruling request and selects it; when the wait to restore expires with no port failed the group returns
to channel 0 with event 0x43A. dFOP is declared and cleared with 0x436 and 0x437 (R283, R284, R285, R289, R351, R286). -/
def Obligations.LinearProtection : Prop :=
  (∀ (s v : State) (g : Fin 4) (q : Fin 2) (ch : Fin 8) (token : Byte) (i : Instr) (cmd chan res req sel : Nat),
    Safety.granted (.service q) s v → v.running islPX = true → v.flag (APS_CFG g) APS_CFG_EN = true → v.flag (APS_CFG g) APS_CFG_BIDIR = false →
    v.paired = false → v.fld (APS_CMD g) APS_CMD_TOKEN ≠ token.toNat → v.fld (APS_CMD g) APS_CMD_RESULT ≠ 1 →
    (v.grp g).counted = [] → (v.grp g).wtr = none → (v.grp g).dnr = none → (v.grp g).best = (24, 0) →
    (∀ n, n ∈ v.grpPorts g → v.flag (LINE_STAT n) LINE_STAT_TSF = false ∧ v.flag (LINE_STAT n) LINE_STAT_TSD = false) →
    1 ≤ ch.val → ch.val < (v.grpPorts g).length →
    ((i = .apsClear g (.service q) token ∧ cmd = 0 ∧ chan = 0 ∧ res = 2 ∧ req = 0x0 ∧ sel = 0)
      ∨ (i = .apsLockout g (.service q) token ∧ cmd = 1 ∧ chan = 0 ∧ res = 1 ∧ req = 0xF ∧ sel = 0)
      ∨ (i = .apsForcedSwitch g ch (.service q) token ∧ cmd = 2 ∧ chan = ch.val ∧ res = 1 ∧ req = 0xE ∧ sel = ch.val)
      ∨ (i = .apsManualSwitch g ch (.service q) token ∧ cmd = 3 ∧ chan = ch.val ∧ res = 1 ∧ req = 0x8 ∧ sel = ch.val)
      ∨ (i = .apsExercise g ch (.service q) token ∧ cmd = 4 ∧ chan = ch.val ∧ res = 1 ∧ req = 0x4 ∧ sel = 0)) →
    ∃ t, exec i s = .next t ∧ t.mtx.resp = rOkay
      ∧ t.reg (APS_CMD g) = BitVec.ofNat 32 (token.toNat + 256 * cmd + 4096 * chan + 65536 * res)
      ∧ t.fld (APS_STAT g) APS_STAT_REQ = req ∧ t.fld (APS_STAT g) APS_STAT_CHAN = chan
      ∧ t.fld (APS_STAT g) APS_STAT_SEL = sel ∧ t.fld (APS_STAT g) APS_STAT_BRIDGE = sel
      ∧ (∀ n, n ∈ v.grpPorts g → v.running (islLP n) = true → t.fld (LINE_K_TX n) ⟨0, 8⟩ = 16 * req + chan)
      ∧ Safety.raised ([(islPX, 0x438)]
          ++ (if v.fld (APS_STAT g) APS_STAT_REQ = req ∧ v.fld (APS_STAT g) APS_STAT_CHAN = chan then [] else [(islPX, 0x434)])
          ++ (if v.fld (APS_STAT g) APS_STAT_SEL = sel then [] else [(islPX, 0x435)])) v t
      ∧ t.reg (APS_SWITCH_CNT g) = v.reg (APS_SWITCH_CNT g) + (if v.fld (APS_STAT g) APS_STAT_SEL = sel then 0 else 1)
      ∧ Safety.onlyRegs ([APS_CMD g, APS_STAT g, APS_SWITCH_CNT g] ++ (v.grpPorts g).map LINE_K_TX) v t ∧ Safety.sameMem v t)
  ∧ ((∀ (s v : State) (g : Fin 4) (q : Fin 2) (ch : Fin 8) (token : Byte), Safety.granted (.service q) s v → v.running islPX = true →
    v.fld (APS_CMD g) APS_CMD_TOKEN ≠ token.toNat → (v.flag (APS_CFG g) APS_CFG_EN = false ∨ ch = 0 ∨ (v.grpPorts g).length ≤ ch.val) →
    ∃ t, exec (.apsForcedSwitch g ch (.service q) token) s = .next t ∧ t.fld (APS_CMD g) APS_CMD_RESULT = 4
      ∧ t.fld (APS_CMD g) APS_CMD_CMD = v.fld (APS_CMD g) APS_CMD_CMD ∧ t.fld (APS_CMD g) APS_CMD_TOKEN = v.fld (APS_CMD g) APS_CMD_TOKEN
      ∧ Safety.raised [(islPX, 0x438)] v t ∧ Safety.onlyRegs [APS_CMD g] v t ∧ Safety.sameMem v t)
  ∧ (∀ (s : State) (g : Fin 4) (ch : Fin 8), s.running islPX = true → s.inState [stArmed, stServing, stLimp] = true → s.paired = false →
    s.flag (APS_CFG g) APS_CFG_EN = true → s.flag (APS_CFG g) APS_CFG_BIDIR = false → s.fld (APS_CMD g) APS_CMD_RESULT ≠ 1 →
    (s.grp g).counted = [] → (s.grp g).dnr = none → (s.grp g).best = (24, 0) →
    (1 ≤ ch.val → ch.val < (s.grpPorts g).length → s.flag (LINE_STAT ((s.grpPorts g).getD ch 0)) LINE_STAT_TSF = true →
      (∀ k, k < (s.grpPorts g).length → k ≠ ch.val → s.flag (LINE_STAT ((s.grpPorts g).getD k 0)) LINE_STAT_TSF = false) →
      ∃ t, exec (.mspHoldoffExpiry g ch) s = .next t ∧ t.fld (APS_STAT g) APS_STAT_REQ = 0xD ∧ t.fld (APS_STAT g) APS_STAT_CHAN = ch.val
        ∧ t.fld (APS_STAT g) APS_STAT_SEL = ch.val ∧ (t.grp g).wtr = none
        ∧ Safety.onlyRegs ([APS_STAT g, APS_SWITCH_CNT g] ++ (s.grpPorts g).map LINE_K_TX) s t ∧ Safety.sameMem s t)
    ∧ (∀ c e, (s.grp g).wtr = some (c, e) →
      (∀ n, n ∈ s.grpPorts g → s.flag (LINE_STAT n) LINE_STAT_TSF = false ∧ s.flag (LINE_STAT n) LINE_STAT_TSD = false) →
      ∃ t l, exec (.mspWtrExpiry g) s = .next t ∧ (t.grp g).wtr = none ∧ t.fld (APS_STAT g) APS_STAT_REQ = 0
        ∧ t.fld (APS_STAT g) APS_STAT_SEL = 0 ∧ t.flag (APS_STAT g) APS_STAT_WTR = false ∧ Safety.raised ((islPX, 0x43A) :: l) s t
        ∧ Safety.onlyRegs ([APS_STAT g, APS_SWITCH_CNT g] ++ (s.grpPorts g).map LINE_K_TX) s t ∧ Safety.sameMem s t))
  ∧ (∀ (s : State) (g : Fin 4) (present : Bool), s.sp.dormant = false → s.flag (APS_CFG g) APS_CFG_EN = true →
    s.flag (APS_STAT g) APS_STAT_DFOP = (!present) →
    s.computesOnly = false →
    ∃ t l, exec (.dfopTimer g present) s = .next t ∧ t.flag (APS_STAT g) APS_STAT_DFOP = present
      ∧ Safety.raised ((islPX, if present then 0x436 else 0x437) :: l) s t ∧ Safety.sameMem s t
      ∧ Safety.onlyRegs ([APS_STAT g, APS_CMD g, APS_SWITCH_CNT g] ++ (s.grpPorts g).map LINE_K_TX) s t))

/-- Pointer interpretation and generation, and the second of a path. In the normal state a normal reading keeps the active value; a
pointer with all I bits, or all D bits, inverted moves it up, or down, by one modulo its range and counts an adjustment; a new data flag
with a value in range sets it at once; the third all-ones reading leads to AIS and the eighth invalid one to LOP. In LOP the third
consecutive normal reading of one value leads back. What a port that gives AIS delivers reads as all ones. A reading changes no register
outside the PATH block and the transmit status of the tributary ports, and no memory. Which of the ten value bits are I bits and which D
bits is the model's own convention (log entry 10). A generator that is given AIS sends an all-ones pointer and container and changes no
register. At any other, the store's fill, within its depth, moves the transmitted pointer up at or below the low threshold and down at or
above the high one, one unit and only four readings after the last; between them it stands. Overflow or underflow recentres the store with
event 0x342 and a new data flag due, the pointer then being a free value in range (log entry 5). Only the path's pointer and store
registers change. The sizes are 48 bytes with thresholds 12 and 36 for an AU-4, 8 with 1 and 7 for a TU-11 or TU-12. A second's
adjustments, or errored blocks and REI, are shown with saturation and counting restarts. A second that held AIS, LOP or SSF leaves both
detectors as they are. In another second of a watched higher-order path, dEXC stands exactly when the blocks reach EXCTHR, and dDEG is
declared after DEGM bad seconds and cleared after DEGM good ones. Nothing outside the PATH block changes (R148, R152, R155, R190, R150,
R151, R153). -/
def Obligations.PathPointersAndSeconds : Prop :=
  (∀ (s : State) (p : PathId) (r u : PtrReading), s.running islPX = true → s.pathExists p = true → u = s.arriving p r →
    ∃ t, exec (.pointerReading p r) s = .next t ∧ (t.path p).started = true ∧ Safety.sameMem s t
      ∧ Safety.regsOutside (fun a => Safety.pathBlock a ∨ Safety.tribTx a) s t
      ∧ ((s.path p).started = true → u.concat = true → s.fld (pathStatAddr p) PATH_HO1_PTR_STATE = ptrNorm →
        (u.pointer.toNat = 0x6000 + s.ptrRx p → s.ptrRx p ≤ s.ptrMax p →
          t.fld (pathStatAddr p) PATH_HO1_PTR_STATE = ptrNorm ∧ t.ptrRx p = s.ptrRx p)
        ∧ (u.pointer.toNat = 0x6000 + (s.ptrRx p ^^^ 0x2AA) → 3 ≤ (s.path p).adjGap →
          t.fld (pathStatAddr p) PATH_HO1_PTR_STATE = ptrNorm ∧ t.ptrRx p = (s.ptrRx p + 1) % (s.ptrMax p + 1)
            ∧ (t.path p).adjRx = (s.path p).adjRx + 1)
        ∧ (u.pointer.toNat = 0x6000 + (s.ptrRx p ^^^ 0x155) → 3 ≤ (s.path p).adjGap →
          t.fld (pathStatAddr p) PATH_HO1_PTR_STATE = ptrNorm ∧ t.ptrRx p = (s.ptrRx p + s.ptrMax p) % (s.ptrMax p + 1)
            ∧ (t.path p).adjRx = (s.path p).adjRx + 1)
        ∧ (∀ v, u.pointer.toNat = 0x9000 + v → v ≤ s.ptrMax p → (s.path p).ndfRun < 7 →
          t.fld (pathStatAddr p) PATH_HO1_PTR_STATE = ptrNorm ∧ t.ptrRx p = v)
        ∧ (u.pointer = 0xFFFF → (s.path p).aisRun = 2 → t.fld (pathStatAddr p) PATH_HO1_PTR_STATE = ptrAis ∧ t.ptrRx p = s.ptrRx p)
        ∧ (u.pointer = 0 → (s.path p).invRun = 7 → t.fld (pathStatAddr p) PATH_HO1_PTR_STATE = ptrLop ∧ t.ptrRx p = s.ptrRx p))
      ∧ ((s.path p).started = true → u.concat = true → s.fld (pathStatAddr p) PATH_HO1_PTR_STATE = ptrLop →
        (∀ v, u.pointer.toNat = 0x6000 + v → v ≤ s.ptrMax p → v = s.ptrRx p → (s.path p).sameRun = 2 → (s.path p).sameVal = v →
          t.fld (pathStatAddr p) PATH_HO1_PTR_STATE = ptrNorm ∧ t.ptrRx p = v)))
  ∧ ((∀ (s : State) (p : PathId) (fill : Nat) (vc : List Byte), s.running islPX = true → s.pathExists p = true →
    Safety.feedOk s (s.pathEp p) → s.sendsAis p = true →
    ∃ t, exec (.pointerGeneration p fill vc) s = .next t ∧ (t.path p).sentPtr = 0xFFFF ∧ (t.path p).sentVc = vc.map (fun _ => 0xFF)
      ∧ Safety.onlyRegs [] s t ∧ Safety.sameMem s t ∧ t.chan = s.chan)
  ∧ (∀ (s : State) (p : PathId) (fill : Nat) (vc : List Byte) (d c lo hi : Nat), s.running islPX = true → s.pathExists p = true →
    Safety.feedOk s (s.pathEp p) → s.sendsAis p = false → s.storeSize p = (d, c, lo, hi) →
    (fill = 0 ∨ d < fill →
      ∃ t, exec (.pointerGeneration p fill vc) s = .next t ∧ t.storeFill p = c ∧ (t.path p).ndfPending = true ∧ t.ptrTx p ≤ s.ptrMax p
        ∧ Safety.raised [(islPX, 0x342)] s t ∧ Safety.onlyRegs (Safety.pointerRegs p) s t ∧ Safety.sameMem s t)
    ∧ (1 ≤ fill → fill ≤ d → (s.path p).txGap = 4 → (s.path p).ndfPending = false →
      ∃ t, exec (.pointerGeneration p fill vc) s = .next t ∧ t.storeFill p = fill
        ∧ t.ptrTx p = (if fill ≤ lo then (s.ptrTx p + 1) % (s.ptrMax p + 1)
            else if hi ≤ fill then (s.ptrTx p + s.ptrMax p) % (s.ptrMax p + 1) else s.ptrTx p)
        ∧ (t.path p).adjTx = (s.path p).adjTx + (if fill ≤ lo ∨ hi ≤ fill then 1 else 0)
        ∧ (lo < fill → fill < hi → (t.path p).sentPtr = s.ptrWord p 0b0110 (s.ptrTx p)) ∧ (t.path p).sentVc = s.txVc p vc
        ∧ Safety.onlyRegs (Safety.pointerRegs p) s t ∧ Safety.sameMem s t ∧ t.chan = s.chan)
    ∧ (1 ≤ fill → fill ≤ d → (s.path p).txGap < 4 →
      ∃ t, exec (.pointerGeneration p fill vc) s = .next t ∧ t.storeFill p = fill ∧ t.ptrTx p = s.ptrTx p
        ∧ (t.path p).txGap = min 4 ((s.path p).txGap + 1) ∧ Safety.onlyRegs (Safety.pointerRegs p) s t ∧ Safety.sameMem s t ∧ t.chan = s.chan))
  ∧ (∀ (s : State) (h : Fin 192), s.fld (PATH_SLOT_CFG (h.val / 3)) PATH_SLOT_CFG_STRUCT = 0 → s.storeSize (.ho h) = (48, 24, 12, 36))
  ∧ (∀ (s : State) (l : Fin 5376), s.loTu3 l = false → s.storeSize (.lo l) = (8, 4, 1, 7)))
  ∧ (∀ (s : State) (p : PathId), s.running islPX = true → s.pathExists p = true →
    ∃ t, exec (.pathSecondEnd p) s = .next t ∧ (t.path p).blocks = 0 ∧ (t.path p).rei = 0 ∧ (t.path p).adjTx = 0 ∧ (t.path p).adjRx = 0
      ∧ (t.path p).held = false ∧ Safety.sameMem s t ∧ Safety.regsOutside Safety.pathBlock s t
      ∧ (∀ h, p = .ho h → t.fld (PATH_HO3 h) PATH_HO3_ADJ_TX = min 255 (s.path p).adjTx ∧ t.fld (PATH_HO3 h) PATH_HO3_ADJ_RX = min 255 (s.path p).adjRx)
      ∧ (∀ l, p = .lo l → t.fld (PATH_LO2 l) PATH_LO2_EB = min 2047 (s.path p).blocks ∧ t.fld (PATH_LO2 l) PATH_LO2_REI = min 2047 (s.path p).rei)
      ∧ ((s.path p).held = true ∨ s.pathDown p = true → t.pstat p PATH_HO1_EXC = s.pstat p PATH_HO1_EXC
          ∧ t.pstat p PATH_HO1_DEG = s.pstat p PATH_HO1_DEG ∧ t.chan = s.chan)
      ∧ (∀ h, p = .ho h → (s.path p).held = false → s.pathDown p = false → s.pathWatched p = true →
          t.pstat p PATH_HO1_EXC = decide (s.fld PATH_HO_DEG_CFG PATH_HO_DEG_CFG_EXCTHR ≤ (s.path p).blocks)
          ∧ (s.fld PATH_HO_DEG_CFG PATH_HO_DEG_CFG_DEGTHR ≤ (s.path p).blocks →
              s.fld PATH_HO_DEG_CFG PATH_HO_DEG_CFG_DEGM ≤ (s.path p).badRun + 1 → t.pstat p PATH_HO1_DEG = true)
          ∧ ((s.path p).blocks < s.fld PATH_HO_DEG_CFG PATH_HO_DEG_CFG_DEGTHR →
              s.fld PATH_HO_DEG_CFG PATH_HO_DEG_CFG_DEGM ≤ (s.path p).goodRun + 1 → t.pstat p PATH_HO1_DEG = false)))

/-- Index entries: words 0 to 2 are closed while VALID; activation, check failure, conflict and deactivation; the sweep. A service writes
words 0 to 2 of an entry that is not VALID or has failed its check, and is refused otherwise. Setting VALID activates an entry that R159
permits and whose CHECK is right, with event 0x353 and its endpoints kept; a wrong CHECK fails it with 0x350, counted; R159 broken is a
conflict with 0x352. Clearing VALID ends it with 0x354. A write that leaves VALID at 1 raises nothing and, with SNCP 0, drops the
selector; with an SNCP that may not stand it is refused whole (log entry 122, the model's choice). A sweep fails every active entry whose
CHECK is wrong and leaves a good one as it is. Memory and other blocks' registers keep their values, but for what the ports transmit
(R158, R159, R161, R162, R163). -/
def Obligations.IndexEntries : Prop :=
  (∀ (s v : State) (e : Fin 4096) (q : Fin 2) (k : Fin 4) (x : Word), Safety.granted (.service q) s v → v.running islPX = true → k.val < 3 →
    ∃ t, exec (.indexEntryWrite e k (.service q) x) s = .next t ∧ Safety.sameMem v t
      ∧ (v.flag (IDX_ENTRY_W3 e) IDX_ENTRY_W3_VALID = false ∨ v.idx e IDX_STATUS_CHECK_FAIL = true →
          t.reg (IDX_ENTRY_A e + 4 * k.val) = x ∧ t.mtx.resp = rOkay ∧ t.chan = v.chan
            ∧ Safety.regsOutside (fun a => a = IDX_ENTRY_A e + 4 * k.val ∨ Safety.tribTx a) v t)
      ∧ (v.flag (IDX_ENTRY_W3 e) IDX_ENTRY_W3_VALID = true → v.idx e IDX_STATUS_CHECK_FAIL = false →
          t.mtx.resp = rRefused ∧ Safety.raised [(islMX, 0x081)] v t
            ∧ Safety.regsOutside (fun a => a = MTX_ERR_LAST ∨ a = MTX_ERR_ADDR ∨ Safety.tribTx a) v t))
  ∧ (∀ (s v u : State) (e : Fin 4096) (q : Fin 2) (x : Word), Safety.granted (.service q) s v → v.running islPX = true →
    u = v.serviceWrite (IDX_ENTRY_W3 e) word3Mask x → IDX_ENTRY_W3_CMD.get x < 5 →
    (v.flag (IDX_ENTRY_W3 e) IDX_ENTRY_W3_VALID = false ∨ IDX_ENTRY_W3_VALID.get x = 0 ∨ v.idx e IDX_STATUS_CHECK_FAIL = true
      ∨ v.sncpFits e (IDX_ENTRY_W3_SNCP.get x) = true) →
    ∃ t, exec (.indexEntryWrite e 3 (.service q) x) s = .next t ∧ t.mtx.resp = rOkay ∧ t.reg (IDX_ENTRY_W3 e) = u.reg (IDX_ENTRY_W3 e)
      ∧ Safety.sameMem v t ∧ Safety.regsOutside (fun a => Safety.idxRegs e a ∨ Safety.tribTx a) v t
      ∧ (v.flag (IDX_ENTRY_W3 e) IDX_ENTRY_W3_VALID = false → IDX_ENTRY_W3_VALID.get x = 1 →
          (u.mayActivate e = true → u.entryOk e = true → t.idx e IDX_STATUS_ACTIVE = true ∧ t.idx e IDX_STATUS_CHECK_FAIL = false
              ∧ t.idx e IDX_STATUS_CONFLICT = false ∧ t.keptOf e = v.entryEnds e ∧ Safety.raised [(islPX, 0x353)] v t)
          ∧ (u.mayActivate e = true → u.entryOk e = false → v.idx e IDX_STATUS_CHECK_FAIL = false →
              t.idx e IDX_STATUS_ACTIVE = false ∧ t.idx e IDX_STATUS_CHECK_FAIL = true ∧ t.reg IDX_CHECK_CNT = v.reg IDX_CHECK_CNT + 1
              ∧ t.reg IDX_CHECK_LAST = BitVec.ofNat 32 e ∧ Safety.raised [(islPX, 0x350)] v t)
          ∧ (u.mayActivate e = false → v.idx e IDX_STATUS_CONFLICT = false →
              t.idx e IDX_STATUS_CONFLICT = true ∧ t.idx e IDX_STATUS_ACTIVE = v.idx e IDX_STATUS_ACTIVE ∧ Safety.raised [(islPX, 0x352)] v t))
      ∧ (v.flag (IDX_ENTRY_W3 e) IDX_ENTRY_W3_VALID = true → IDX_ENTRY_W3_VALID.get x = 0 → v.keptOf e ≠ .none →
          t.reg (IDX_STATUS e) = 0 ∧ t.keptOf e = .none ∧ Safety.raised [(islPX, 0x354)] v t)
      ∧ (v.flag (IDX_ENTRY_W3 e) IDX_ENTRY_W3_VALID = true → IDX_ENTRY_W3_VALID.get x = 1 → t.chan = v.chan
          ∧ (IDX_ENTRY_W3_SNCP.get x = 0 → t.reg (IDX_STATUS e) = v.reg (IDX_STATUS e) &&& 7 ∧ tget t.wtrs 0 e = 0)))
  ∧ (∀ (s v : State) (e : Fin 4096) (q : Fin 2) (x : Word), Safety.granted (.service q) s v → v.running islPX = true →
    v.flag (IDX_ENTRY_W3 e) IDX_ENTRY_W3_VALID = true → IDX_ENTRY_W3_VALID.get x = 1 → v.idx e IDX_STATUS_CHECK_FAIL = false →
    v.sncpFits e (IDX_ENTRY_W3_SNCP.get x) = false →
    ∃ t, exec (.indexEntryWrite e 3 (.service q) x) s = .next t ∧ t.mtx.resp = rRefused ∧ Safety.raised [(islMX, 0x081)] v t
      ∧ Safety.regsOutside (fun a => a = MTX_ERR_LAST ∨ a = MTX_ERR_ADDR ∨ Safety.tribTx a) v t ∧ Safety.sameMem v t)
  ∧ (∀ (s : State), s.running islPX = true →
    ∃ t, exec .indexCheckSweep s = .next t ∧ Safety.sameMem s t
      ∧ Safety.regsOutside (fun a => (∃ e, e < 4096 ∧ Safety.idxRegs e a) ∨ Safety.tribTx a) s t
      ∧ (∀ e, e < 4096 → s.flag (IDX_ENTRY_W3 e) IDX_ENTRY_W3_VALID = true → s.entryOk e = false → s.idx e IDX_STATUS_CHECK_FAIL = false →
          t.idx e IDX_STATUS_CHECK_FAIL = true ∧ t.idx e IDX_STATUS_ACTIVE = false)
      ∧ (∀ e, e < 4096 → s.flag (IDX_ENTRY_W3 e) IDX_ENTRY_W3_VALID = true → s.entryOk e = true → s.idx e IDX_STATUS_CHECK_FAIL = false →
          s.idx e IDX_STATUS_ACTIVE = true → t.reg (IDX_STATUS e) = s.reg (IDX_STATUS e)))

/-- SNCP selectors: the commands, the switch to A' on SF of A, wait to restore, hold-off, and the order of requests. A service's lockout,
forced switch, manual switch to A' or to A puts its number into CMD and changes nothing else, but that an entry without SNCP has no
selector state left. In an entry whose CHECK is right, on a twin that does not only compute: with no command, SF of A while A' has none
switches to A' with event 0x360, counted, after the 0x342 of a store that this recentres. When the last condition of A ends in a revertive
entry, wait to restore starts with 0x361; when it expires the selector returns to A with 0x362. A condition that has persisted for HOLDOFF
counts. Lockout outranks forced switch, that SF of A', that SF of A, SD and the manual switches (R162, R164). -/
def Obligations.SncpSelectors : Prop :=
  (∀ (s v : State) (e : Fin 4096) (q : Fin 2) (i : Instr) (c : Nat), Safety.granted (.service q) s v → v.running islPX = true →
    ((i = .sncpLockout e (.service q) ∧ c = 1) ∨ (i = .sncpForcedSwitch e (.service q) ∧ c = 2)
      ∨ (i = .sncpManualToProtecting e (.service q) ∧ c = 3) ∨ (i = .sncpManualToA e (.service q) ∧ c = 4)) →
    (v.flag (IDX_ENTRY_W3 e) IDX_ENTRY_W3_VALID = false ∨ v.idx e IDX_STATUS_CHECK_FAIL = true ∨ v.sncpFits e (v.entrySncp e) = true) →
    ∃ t, exec i s = .next t ∧ t.mtx.resp = rOkay ∧ t.reg (IDX_ENTRY_W3 e) = IDX_ENTRY_W3_CMD.put (v.reg (IDX_ENTRY_W3 e)) c
      ∧ Safety.onlyRegs (IDX_ENTRY_W3 e :: if v.entrySncp e = 0 then [IDX_STATUS e] else []) v t ∧ Safety.sameMem v t ∧ t.chan = v.chan)
  ∧ (∀ (s : State) (e : Fin 4096), s.hasSelector e = true → s.entryOk e = true → s.computesOnly = false →
    s.fld (IDX_ENTRY_W3 e) IDX_ENTRY_W3_CMD = 0 →
    s.fld IDX_SNCP_CFG IDX_SNCP_CFG_HOLDOFF = 0 → s.rawCond e .sfA = true → s.rawCond e .sfAp = false →
    s.idx e IDX_STATUS_SEL = false →
    ∃ t l, exec (.sncpEvaluation e) s = .next t ∧ t.idx e IDX_STATUS_SEL = true ∧ t.fld (IDX_STATUS e) IDX_STATUS_REQ = 4
      ∧ t.idx e IDX_STATUS_SF_A = true ∧ t.reg IDX_SWITCH_CNT = s.reg IDX_SWITCH_CNT + 1 ∧ tget t.wtrs 0 e = 0
      ∧ Safety.raised (l ++ [(islPX, 0x360)]) s t ∧ (∀ x ∈ l, x = (islPX, 0x342)) ∧ Safety.sameMem s t
      ∧ Safety.regsOutside (fun a => Safety.idxRegs e a ∨ Safety.pathBlock a ∨ Safety.tribTx a) s t)
  ∧ (∀ (s : State) (e : Fin 4096), s.hasSelector e = true → s.entryOk e = true → s.computesOnly = false →
    s.fld (IDX_ENTRY_W3 e) IDX_ENTRY_W3_CMD = 0 →
    s.flag (IDX_ENTRY_W3 e) IDX_ENTRY_W3_REVERT = true → s.idx e IDX_STATUS_SEL = true → s.idx e IDX_STATUS_SF_A = true →
    (∀ c, s.rawCond e c = false) →
    ∃ t, exec (.sncpEvaluation e) s = .next t ∧ t.idx e IDX_STATUS_SEL = true ∧ t.fld (IDX_STATUS e) IDX_STATUS_REQ = 9
      ∧ tget t.wtrs 0 e = s.now + s.fld IDX_SNCP_CFG IDX_SNCP_CFG_WTR_MIN * 60000000000 + 1
      ∧ Safety.raised [(islPX, 0x361)] s t ∧ Safety.sameMem s t ∧ Safety.regsOutside (fun a => Safety.idxRegs e a ∨ Safety.tribTx a) s t)
  ∧ (∀ (s : State) (e : Fin 4096) (c : SncpCond), s.hasSelector e = true → s.entryOk e = true → s.rawCond e c = true →
    ∃ t, exec (.sncpHoldoffExpiry e c) s = .next t ∧ t.idx e (condFld c) = true ∧ Safety.onlyRegs [IDX_STATUS e] s t ∧ Safety.sameMem s t
      ∧ t.chan = s.chan)
  ∧ (∀ (s : State) (e : Fin 4096), s.hasSelector e = true → s.entryOk e = true → s.computesOnly = false →
    tget s.wtrs 0 e ≠ 0 → s.fld (IDX_ENTRY_W3 e) IDX_ENTRY_W3_CMD = 0 →
    s.flag (IDX_ENTRY_W3 e) IDX_ENTRY_W3_REVERT = true →
    s.idx e IDX_STATUS_SF_A = false → s.idx e IDX_STATUS_SD_A = false → s.idx e IDX_STATUS_SF_AP = false → s.idx e IDX_STATUS_SD_AP = false →
    ∃ t l, exec (.sncpWtrExpiry e) s = .next t ∧ t.idx e IDX_STATUS_SEL = false ∧ t.fld (IDX_STATUS e) IDX_STATUS_REQ = 10
      ∧ tget t.wtrs 0 e = 0 ∧ Safety.raised ((islPX, 0x362) :: l) s t ∧ Safety.sameMem s t
      ∧ Safety.regsOutside (fun a => Safety.idxRegs e a ∨ Safety.pathBlock a ∨ Safety.tribTx a) s t)
  ∧ (∀ sfA sdA sfAp sdAp wtr rev sel, sncpOrder 1 sfA sdA sfAp sdAp wtr rev sel = (1, false)
      ∧ sncpOrder 2 sfA sdA sfAp sdAp wtr rev sel = (2, true)
      ∧ sncpOrder 0 sfA sdA true sdAp wtr rev sel = (3, false) ∧ sncpOrder 3 false sdA false true wtr rev sel = (5, false)
      ∧ sncpOrder 3 false false false false wtr rev sel = (7, true) ∧ sncpOrder 4 false false false false wtr rev sel = (8, false))

/-- Loss of signal, CDR lock and AIS of a tributary port; sample clocks, slips and templates. On an enabled port that no engine compares,
dLOS for want of pulses or of an unlocked CDR is declared with 0x380 and sends all ones to the Index, its framer going to Search with dOOF
declared where it frames; it clears with 0x381, and CDR lock clears the cause that the CDR gave. Losing lock raises 0x396. The second
512-bit block in a row with fewer than three zeros declares dAIS with 0x382, the second with more clears it with 0x383. Only the port's
status changes. A sample clock that TM marks anew sets its bit with 0x393 or 0x394; only the ports' transmit status and the engines' FREE
follow. An uncontrolled slip recentres the store with 0x391; a controlled one repeats a frame below 32 bits or deletes one above the size
less 32, with 0x390; both count. A template word of 8 to 15 that no enabled port selects takes a service's write; a selected one and a ROM
template refuse it with 0x397, the selected one from maintenance too (R171, R172, R174, R175, R176, R182, R188, R191, R192, R355). -/
def Obligations.TributarySignalAndClocks : Prop :=
  ((∀ (s : State) (p : Fin 64) (i : Instr), s.tribUp p = true → s.tstat p TRIB_STAT_LOS = false →
    (∀ n, n < 8 → s.flag (FAC_CFG n) FAC_CFG_ASSIGN = true → s.fld (FAC_CFG n) FAC_CFG_CMP_PORT ≠ p.val) →
    (i = .tribLos p true ∨ (i = .tribCdrUnlockLos p ∧ s.tstat p TRIB_STAT_CDR_LOCK = false)) →
    (s.framing p = 0 →
      ∃ t, exec i s = .next t ∧ t.tstat p TRIB_STAT_LOS = true ∧ t.tstat p TRIB_STAT_AIS_TO_IDX = true ∧ t.bitAt (TRIB_STICKY p) 0 = true
        ∧ Safety.raised [(islTR p, 0x380)] s t ∧ Safety.onlyRegs [TRIB_STAT p, TRIB_STICKY p] s t ∧ Safety.sameMem s t)
    ∧ (s.framing p ≠ 0 → s.tstat p TRIB_STAT_AIS = false → s.tstat p TRIB_STAT_OOF = false →
      ∃ t, exec i s = .next t ∧ t.tstat p TRIB_STAT_LOS = true ∧ t.tstat p TRIB_STAT_OOF = true ∧ t.rxFramer p = trSearch
        ∧ t.tstat p TRIB_STAT_AIS_TO_IDX = true ∧ Safety.raised [(islTR p, 0x380), (islTR p, 0x384)] s t
        ∧ Safety.onlyRegs [TRIB_STAT p, TRIB_STICKY p, TRIB_FRM_STAT p] s t ∧ Safety.sameMem s t))
  ∧ (∀ (s : State) (p : Fin 64), s.tribUp p = true →
    (∀ n, n < 8 → s.flag (FAC_CFG n) FAC_CFG_ASSIGN = true → s.fld (FAC_CFG n) FAC_CFG_CMP_PORT ≠ p.val) →
    (s.tstat p TRIB_STAT_LOS = true → (s.trib p).losCdr = false →
      ∃ t, exec (.tribLos p false) s = .next t ∧ t.tstat p TRIB_STAT_LOS = false
        ∧ t.tstat p TRIB_STAT_AIS_TO_IDX = ((s.tstat p TRIB_STAT_LOF && s.flag (TRIB_CFG p) TRIB_CFG_AIS_ON_LOF)
            || s.flag (TRIB_MAINT p) TRIB_MAINT_FORCE_AIS_RX)
        ∧ Safety.raised [(islTR p, 0x381)] s t ∧ Safety.onlyRegs [TRIB_STAT p] s t ∧ Safety.sameMem s t)
    ∧ (s.tstat p TRIB_STAT_CDR_LOCK = true →
      ∃ t, exec (.tribCdrLockLoss p) s = .next t ∧ t.tstat p TRIB_STAT_CDR_LOCK = false
        ∧ Safety.raised [(islTR p, 0x396)] s t ∧ Safety.onlyRegs [TRIB_STAT p] s t ∧ Safety.sameMem s t)
    ∧ (s.tstat p TRIB_STAT_CDR_LOCK = false → s.tstat p TRIB_STAT_LOS = true → (s.trib p).losPulse = false →
      ∃ t, exec (.tribCdrLock p) s = .next t ∧ t.tstat p TRIB_STAT_CDR_LOCK = true ∧ t.tstat p TRIB_STAT_LOS = false
        ∧ Safety.raised [(islTR p, 0x381)] s t ∧ Safety.onlyRegs [TRIB_STAT p] s t ∧ Safety.sameMem s t)
    ∧ (∀ zeros, s.tstat p TRIB_STAT_LOS = false → s.tstat p TRIB_STAT_AIS = false → zeros < 3 → (s.trib p).aisOn = 1 →
      ∃ t, exec (.tribAisBlock p zeros) s = .next t ∧ t.tstat p TRIB_STAT_AIS = true ∧ Safety.raised [(islTR p, 0x382)] s t
        ∧ Safety.onlyRegs [TRIB_STAT p, TRIB_STICKY p] s t ∧ Safety.sameMem s t)
    ∧ (∀ zeros, s.tstat p TRIB_STAT_LOS = false → s.tstat p TRIB_STAT_AIS = true → 3 ≤ zeros → (s.trib p).aisOff = 1 → s.framing p = 0 →
      ∃ t, exec (.tribAisBlock p zeros) s = .next t ∧ t.tstat p TRIB_STAT_AIS = false ∧ Safety.raised [(islTR p, 0x383)] s t
        ∧ Safety.onlyRegs [TRIB_STAT p] s t ∧ Safety.sameMem s t)))
  ∧ ((∀ (s : State) (c : Fin 4) (ok : Bool) (i : Instr), s.running (14 + c.val / 2) = true → s.bitAt TRIB_CLK_STAT c.val = (!ok) → s.tm.clkOk = ok →
    i = (if ok then .tribSampleClockValid c else .tribSampleClockInvalid c) →
    ∃ t l, exec i s = .next t ∧ t.bitAt TRIB_CLK_STAT c.val = ok
      ∧ Safety.raised ((14 + c.val / 2, if ok then 0x394 else 0x393) :: l) s t ∧ Safety.sameMem s t
      ∧ Safety.regsOutside (fun a => a = TRIB_CLK_STAT ∨ Safety.tribTx a ∨ ∃ n, n < 8 ∧ (a = FAC_STAT n ∨ a = FAC_STICKY n)) s t)
  ∧ (∀ (s : State) (p : Fin 64) (ovf : Bool), s.tribStore p = true →
    s.retimed p = false ∨ s.fld (TRIB_FRM_STAT p) TRIB_FRM_STAT_TX_STATE ≠ trIn →
    ∃ t, exec (.uncontrolledSlip p ovf) s = .next t ∧ (t.trib p).store.length = s.tribCentre p
      ∧ t.fld (TRIB_TX_STAT p) TRIB_TX_STAT_FILL = s.tribCentre p
      ∧ t.reg (TRIB_SLIP_CNT p) = s.reg (TRIB_SLIP_CNT p) + 1 ∧ Safety.raised [(islTR p, 0x391)] s t
      ∧ Safety.onlyRegs [TRIB_TX_STAT p, TRIB_SLIP_CNT p] s t ∧ Safety.sameMem s t)
  ∧ (∀ (s : State) (p : Fin 64) (del : Bool) (n : Nat), s.tribStore p = true → s.retimed p = true →
    s.fld (TRIB_FRM_STAT p) TRIB_FRM_STAT_TX_STATE = trIn → (s.trib p).store.length = n →
    (if del then 2 * s.tribFrameBits p < n + 32 else n < 32) →
    ∃ t, exec (.controlledSlip p del) s = .next t
      ∧ (t.trib p).store.length = (if del then n - s.tribFrameBits p else n + s.tribFrameBits p)
      ∧ t.fld (TRIB_TX_STAT p) TRIB_TX_STAT_FILL = (t.trib p).store.length % 1024
      ∧ t.reg (TRIB_SLIP_CNT p) = s.reg (TRIB_SLIP_CNT p) + 1 ∧ Safety.raised [(islTR p, 0x390)] s t
      ∧ Safety.onlyRegs [TRIB_TX_STAT p, TRIB_SLIP_CNT p] s t ∧ Safety.sameMem s t)
  ∧ (∀ (s v : State) (q : Fin 2) (x : Fin 16) (k : Fin 128) (w : Word), Safety.granted (.service q) s v → v.running (v.regIsl 0x40310000) = true →
    ∃ t, exec (.templateWrite x k (.service q) w) s = .next t ∧ Safety.sameMem v t
      ∧ (v.templateUser x = none → 8 ≤ x.val → t.mtx.resp = rOkay ∧ t.reg (0x40310000 + 512 * x.val + 4 * k.val) = w ∧ t.chan = v.chan
          ∧ Safety.onlyRegs [0x40310000 + 512 * x.val + 4 * k.val] v t)
      ∧ (∀ p, v.templateUser x = some p → t.mtx.resp = rRefused ∧ Safety.raised [(islTR p, 0x397), (islMX, 0x081)] v t
          ∧ Safety.onlyRegs [MTX_ERR_LAST, MTX_ERR_ADDR] v t)
      ∧ (v.templateUser x = none → x.val < 8 → t.mtx.resp = rRefused
          ∧ Safety.raised [(v.regIsl 0x40310000, 0x397), (islMX, 0x081)] v t ∧ Safety.onlyRegs [MTX_ERR_LAST, MTX_ERR_ADDR] v t))
  ∧ (∀ (s v : State) (x : Fin 16) (k : Fin 128) (w : Word) (p : Nat), Safety.granted .maintenance s v →
    v.running (v.regIsl 0x40310000) = true → v.templateUser x = some p →
    ∃ t l, exec (.templateWrite x k .maintenance w) s = .next t ∧ t.mtx.resp = rRefused ∧ Safety.raised ((islTR p, 0x397) :: l) v t
      ∧ Safety.onlyRegs [MTX_ERR_LAST, MTX_ERR_ADDR, EVT_MGMT_REF, EVT_MGMT_REF_CODE] v t ∧ Safety.sameMem v t))

/-- The framers of a tributary port, the end of the CRC-4 search, and dLOF. The symbols of a received frame period pass through the
decoder of the port's code, which counts its violations, and the bits go towards the Index, all ones where AIS is sent there. Search stays
until the pattern stands in the bits and goes to Confirm with it; Confirm with enough bits goes In frame, ending dOOF, or back to Search.
One frame received In frame counts its errored alignment bits; the rule of loss, of E1 a third errored FAS in a row, leads back to Search
with dOOF, and without it the framer stays unless CRC-4 is monitored. The transmit framer of a retimed port follows the same states and
touches nothing else. The end of an unsuccessful CRC-4 search starts a new one, silently within 400 ms under interworking and with 0x38A
after them. dLOF follows dOOF after LOF_MS (R173, R176, R177, R178, R179, R180). -/
def Obligations.TributaryFraming : Prop :=
  (∀ (s : State) (p : Fin 64) (l : List Pulse) (d : Decoder × List Bool × Nat) (b : List Bool) (m : Nat), s.tribUp p = true →
    d = Decoder.run (s.lineCode p) (decide (s.tribMode p = 1)) (s.trib p).dec (l.map pulseSign) → b = (s.trib p).rx.buf ++ d.2.1 →
    m = s.framing p →
    ∃ t, exec (.tribFrame p (some l)) s = .next t ∧ t.reg (TRIB_CV_CNT p) = s.reg (TRIB_CV_CNT p) + BitVec.ofNat 32 d.2.2
      ∧ (t.trib p).dec = d.1 ∧ (t.trib p).toIdx = (if s.tstat p TRIB_STAT_AIS_TO_IDX then d.2.1.map (fun _ => true) else d.2.1)
      ∧ Safety.onlyRegs [TRIB_CV_CNT p, TRIB_FAS_CNT p, TRIB_CRC_CNT p, TRIB_REI_CNT p, TRIB_FRM_STAT p, TRIB_STAT p, TRIB_STICKY p] s t
      ∧ Safety.sameMem s t
      ∧ (m = 0 → Safety.onlyRegs [TRIB_CV_CNT p] s t ∧ t.chan = s.chan)
      ∧ (m ≠ 0 → s.rxFramer p = trSearch → (searchFrom m b).1 = false → t.rxFramer p = trSearch ∧ (t.trib p).rx.buf = (searchFrom m b).2)
      ∧ (m ≠ 0 → s.rxFramer p = trSearch → (searchFrom m b).1 = true → (searchFrom m b).2.length < confirmSpan m → t.rxFramer p = trConfirm)
      ∧ (m ≠ 0 → s.rxFramer p = trConfirm → b.length < confirmSpan m → t.rxFramer p = trConfirm)
      ∧ (m ≠ 0 → s.rxFramer p = trConfirm → confirmSpan m ≤ b.length → Framer.confirm m { (s.trib p).rx with buf := b } = none →
          (searchFrom m (b.drop 1)).1 = false → t.rxFramer p = trSearch)
      ∧ (∀ g, m ≠ 0 → s.rxFramer p = trConfirm → confirmSpan m ≤ b.length → Framer.confirm m { (s.trib p).rx with buf := b } = some g →
          g.buf.length < frameLen m → s.tstat p TRIB_STAT_AIS = false →
          t.rxFramer p = trIn ∧ t.tstat p TRIB_STAT_OOF = false ∧ t.fld (TRIB_FRM_STAT p) TRIB_FRM_STAT_CRC4 = (if m = 2 then 1 else 0))
      ∧ (∀ e, m ≠ 0 → s.rxFramer p = trIn → b.length = frameLen m → e = alignErrors m (s.trib p).rx.pos b →
          t.reg (TRIB_FAS_CNT p) = s.reg (TRIB_FAS_CNT p) + BitVec.ofNat 32 (e.getD 0)
          ∧ ((frameLoss m (s.trib p).rx.err (s.trib p).rx.bits e).1 = true → s.tstat p TRIB_STAT_AIS = false → (s.trib p).quiet = false →
              t.rxFramer p = trSearch ∧ t.tstat p TRIB_STAT_OOF = true)
          ∧ (∀ k, m = 1 → e = some k → k ≠ 0 → (s.trib p).rx.err = 2 → s.tstat p TRIB_STAT_AIS = false → (s.trib p).quiet = false →
              t.rxFramer p = trSearch ∧ t.tstat p TRIB_STAT_OOF = true)
          ∧ (m ≠ 2 → (frameLoss m (s.trib p).rx.err (s.trib p).rx.bits e).1 = false → t.rxFramer p = trIn)))
  ∧ (∀ (s : State) (p : Fin 64), s.tribUp p = true → s.framing p ≠ 0 → s.flag (TRIB_CFG p) TRIB_CFG_TX_RETIME = true →
    ∃ t, exec (.tribFrame p none) s = .next t ∧ Safety.onlyRegs [TRIB_FRM_STAT p] s t ∧ Safety.sameMem s t ∧ t.chan = s.chan
      ∧ (∀ g, s.fld (TRIB_FRM_STAT p) TRIB_FRM_STAT_TX_STATE = trConfirm → confirmSpan (s.framing p) ≤ (s.trib p).tx.buf.length →
          Framer.confirm (s.framing p) (s.trib p).tx = some g → g.buf.length < frameLen (s.framing p) →
          t.fld (TRIB_FRM_STAT p) TRIB_FRM_STAT_TX_STATE = trIn ∧ (t.trib p).tx = g))
  ∧ (∀ (s : State) (p : Fin 64), s.tribUp p = true → s.rxFramer p = trIn → s.fld (TRIB_FRM_STAT p) TRIB_FRM_STAT_CRC4 = 1 →
    ∃ t, exec (.crc4MultiframeSearchEnd p) s = .next t ∧ Safety.sameMem s t
      ∧ Safety.onlyRegs [TRIB_FRM_STAT p, TRIB_STAT p, TRIB_STICKY p] s t
      ∧ (s.flag (TRIB_CFG p) TRIB_CFG_CRC4_IW = false → s.tstat p TRIB_STAT_AIS = false →
          t.rxFramer p = trSearch ∧ t.tstat p TRIB_STAT_OOF = true)
      ∧ (s.flag (TRIB_CFG p) TRIB_CFG_CRC4_IW = true → s.now + 1 ≤ (s.trib p).firstIn + 400000000 →
          t.rxFramer p = trSearch ∧ t.tstat p TRIB_STAT_OOF = s.tstat p TRIB_STAT_OOF ∧ t.chan = s.chan)
      ∧ (s.flag (TRIB_CFG p) TRIB_CFG_CRC4_IW = true → (s.trib p).firstIn + 400000000 < s.now + 1 →
          t.fld (TRIB_FRM_STAT p) TRIB_FRM_STAT_CRC4 = 3 ∧ t.rxFramer p = trIn ∧ Safety.raised [(islTR p, 0x38A)] s t))
  ∧ (∀ (s : State) (p : Fin 64), s.tribUp p = true → s.tstat p TRIB_STAT_LOS = false → s.tstat p TRIB_STAT_AIS = false →
    s.tstat p TRIB_STAT_LOF ≠ s.tstat p TRIB_STAT_OOF →
    ∃ t, exec (.tribLofTimer p) s = .next t ∧ t.tstat p TRIB_STAT_LOF = s.tstat p TRIB_STAT_OOF
      ∧ t.tstat p TRIB_STAT_AIS_TO_IDX = ((t.tstat p TRIB_STAT_LOF && s.flag (TRIB_CFG p) TRIB_CFG_AIS_ON_LOF)
          || s.flag (TRIB_MAINT p) TRIB_MAINT_FORCE_AIS_RX)
      ∧ Safety.raised [(islTR p, if s.tstat p TRIB_STAT_OOF then 0x386 else 0x387)] s t
      ∧ Safety.onlyRegs [TRIB_STAT p, TRIB_STICKY p] s t ∧ Safety.sameMem s t)

/-- Enabling and disabling a tributary port, its maintenance bits, and the transmitted AMI symbol. A service enables a port, which starts
with dLOS, an unlocked CDR, a centred store and its framer in Search, or disables it, which clears its defects, releases the pair and
empties the store; either raises 0x395. Maintenance sets LLOOP, FORCE_AIS_TX and FORCE_AIS_RX, with 0x398 on a change while the port is
enabled, and AIS follows. Under AIS every symbol is a mark of the polarity opposite to the last, at the nominal rate, and the store
stands. Otherwise the store's oldest bit goes out as the symbol that the coder gives it, behind what has arrived or, under LLOOP, been
received; fill and offset are shown, the offset 0 in retimed timing. The symbol starts where the timer completes the one before; the
output stays within 2047 of zero. AMI sends a 1 as a mark and a 0 as no pulse, HDB3 four zeros after an odd number of marks as 000V (R176,
R182, R184, R185, R190, R193, R194). -/
def Obligations.TributaryControlAndMaintenance : Prop :=
  (∀ (s v : State) (p : Fin 64) (q : Fin 2), Safety.granted (.service q) s v → v.running (islTR p) = true →
    (v.flag (TRIB_CFG p) TRIB_CFG_EN = false →
      ∃ t, exec (.tribEnable p (.service q)) s = .next t ∧ t.mtx.resp = rOkay ∧ t.flag (TRIB_CFG p) TRIB_CFG_EN = true
        ∧ t.tstat p TRIB_STAT_LOS = true ∧ t.tstat p TRIB_STAT_CDR_LOCK = false ∧ t.tstat p TRIB_STAT_DISABLED = false
        ∧ t.tstat p TRIB_STAT_AIS_TO_IDX = true ∧ t.fld (TRIB_TX_STAT p) TRIB_TX_STAT_FILL = v.tribCentre p
        ∧ (v.framing p ≠ 0 → t.rxFramer p = trSearch) ∧ Safety.raised [(islTR p, 0x395)] v t ∧ Safety.sameMem v t
        ∧ Safety.regsOutside (fun a => a = TRIB_CFG p ∨ a = TRIB_STICKY p ∨ a = TRIB_FRM_STAT p ∨ Safety.tribTx a) v t)
    ∧ (v.flag (TRIB_CFG p) TRIB_CFG_EN = true →
      ∃ t, exec (.tribDisable p (.service q)) s = .next t ∧ t.mtx.resp = rOkay ∧ t.flag (TRIB_CFG p) TRIB_CFG_EN = false
        ∧ t.fld (TRIB_STAT p) ⟨0, 6⟩ = 0 ∧ t.tstat p TRIB_STAT_AIS_TO_IDX = true ∧ t.tstat p TRIB_STAT_DRIVEN = false
        ∧ t.tstat p TRIB_STAT_DISABLED = true ∧ t.rxFramer p = trOff ∧ t.fld (TRIB_TX_STAT p) TRIB_TX_STAT_FILL = 0
        ∧ Safety.raised [(islTR p, 0x395)] v t ∧ Safety.onlyRegs [TRIB_CFG p, TRIB_STAT p, TRIB_FRM_STAT p, TRIB_TX_STAT p] v t
        ∧ Safety.sameMem v t))
  ∧ (∀ (s v : State) (p : Fin 64) (on : Bool) (i : Instr) (f : Fld), Safety.granted .maintenance s v →
    v.running (islTR p) = true → v.reg (TRIB_MAINT p) < 8 →
    ((i = .lloop p .maintenance on ∧ f = TRIB_MAINT_LLOOP) ∨ (i = .forceAisTx p .maintenance on ∧ f = TRIB_MAINT_FORCE_AIS_TX)
      ∨ (i = .forceAisRx p .maintenance on ∧ f = TRIB_MAINT_FORCE_AIS_RX)) →
    ∃ t, exec i s = .next t ∧ t.mtx.resp = rOkay ∧ t.reg (TRIB_MAINT p) = f.put (v.reg (TRIB_MAINT p)) (if on then 1 else 0)
      ∧ (f = TRIB_MAINT_FORCE_AIS_RX → on = true → v.flag (TRIB_CFG p) TRIB_CFG_EN = true → v.flag (TRIB_MAINT p) f = false →
          t.tstat p TRIB_STAT_AIS_TO_IDX = true)
      ∧ (f = TRIB_MAINT_FORCE_AIS_TX → on = true → v.flag (TRIB_CFG p) TRIB_CFG_EN = true → v.flag (TRIB_MAINT p) f = false →
          v.tstat p TRIB_STAT_FAC = false → t.tstat p TRIB_STAT_AIS_TX = true)
      ∧ Safety.raised (if v.flag (TRIB_MAINT p) f = on ∨ v.flag (TRIB_CFG p) TRIB_CFG_EN = false then [] else [(islTR p, 0x398)]) v t
      ∧ Safety.onlyRegs [TRIB_MAINT p, TRIB_STAT p, TRIB_TX_STAT p] v t ∧ Safety.sameMem v t)
  ∧ (∀ (s u : State) (p : Fin 64) (arrived : List Bool), u = s.updateTribTx p → s.tribStore p = true →
    ∃ t, exec (.tribTransmitSymbol p arrived) s = .next t ∧ t.tstat p TRIB_STAT_AIS_TX = s.tribSendsAis p
      ∧ (∀ x, x ∈ (t.trib p).out → -2047 ≤ x ∧ x ≤ 2047)
      ∧ (s.tribSendsAis p = true → (t.trib p).coder = ⟨[], -(u.trib p).coder.polarity, !(u.trib p).coder.odd⟩
          ∧ (t.trib p).symbols.map Prod.snd = (-(u.trib p).coder.polarity :: (u.trib p).symbols.map Prod.snd).take 8
          ∧ (t.trib p).store = (u.trib p).store ∧ t.fld (TRIB_TX_STAT p) TRIB_TX_STAT_OFFSET = 0)
      ∧ (∀ l c, s.tribSendsAis p = false →
          l = ((u.trib p).store ++ if s.flag (TRIB_MAINT p) TRIB_MAINT_LLOOP then (u.trib p).looped else arrived).take (s.tribDepth p) →
          l ≠ [] → c = (u.trib p).coder.next (s.lineCode p) l →
          (t.trib p).coder = c.1 ∧ (t.trib p).symbols.map Prod.snd = (c.2 :: (u.trib p).symbols.map Prod.snd).take 8
          ∧ (t.trib p).store = l.drop 1 ∧ t.fld (TRIB_TX_STAT p) TRIB_TX_STAT_FILL = l.length - 1
          ∧ (s.retimed p = true → t.fld (TRIB_TX_STAT p) TRIB_TX_STAT_OFFSET = 0))
      ∧ (∀ y, (u.trib p).symbols.head? = some y → (t.trib p).symbols.head?.map Prod.fst =
          some (y.1 + timerGap (u.trib p).phase (signed 16 (t.fld (TRIB_TX_STAT p) TRIB_TX_STAT_OFFSET))))
      ∧ Safety.onlyRegs [TRIB_STAT p, TRIB_TX_STAT p, TRIB_SAT_CNT p] s t ∧ Safety.sameMem s t)
  ∧ (∀ (pol : Int) (odd b : Bool) (l : List Bool),
    Coder.next .ami ⟨[], pol, odd⟩ (b :: l) = (if b then (⟨[], -pol, !odd⟩, -pol) else (⟨[], pol, odd⟩, 0))
    ∧ Coder.next .hdb3 ⟨[], pol, odd⟩ (true :: l) = (⟨[], -pol, !odd⟩, -pol)
    ∧ Coder.next .hdb3 ⟨[], pol, true⟩ (List.replicate 4 false ++ l) = (⟨[0, 0, pol], pol, false⟩, 0)
    ∧ Coder.next .b8zs ⟨[], pol, odd⟩ (true :: l) = (⟨[], -pol, !odd⟩, -pol))


/-- The commands of a Facsimile engine. A command with a new token from a permitted writer stands in FAC_CMD with its result and raises
0x46C: START from Idle begins the dead time of its step with 0x460 and is refused elsewhere; STOP and RELEASE set the output to 0 and go
to Idle or Off, with 0x461 where the engine ran; TRIG ends a wait that trigger 0 may end; ASSIGN and RELEASE bind and free the ports with
0x467, after 0x46B where FREE changes; CAL runs from Idle; SET_SKEW writes SKEW. A repeated token has no effect (R351, R353, R354, R359,
R361, R362, R363, R371, R372, R374). -/
def Obligations.FacsimileCommands : Prop :=
  (∀ (s v : State) (n : Fin 8) (w : Writer) (token : Byte), Safety.granted w s v → v.running islFC = true →
    v.fld (FAC_CMD n) FAC_CMD_TOKEN ≠ token.toNat →
    (∀ step : BitVec 12,
      (v.egState n = egIdle → (v.engine n).calibrating = false →
        ∃ t, exec (.facStart n step w token) s = .next t ∧ t.mtx.resp = rOkay ∧ t.egState n = egDead
          ∧ t.fld (FAC_STAT n) FAC_STAT_STEP = step.toNat % 1024 ∧ t.fld (FAC_STAT n) FAC_STAT_FAULT = 0 ∧ (t.engine n).out = 0
          ∧ t.reg (FAC_CMD n) = BitVec.ofNat 32 (token.toNat + 256 + 4096 * (step.toNat % 1024) + 16777216)
          ∧ t.reg (FAC_STREAM_STAT n) = 0 ∧ t.reg (FAC_VEC_FIRST n) = 0
          ∧ Safety.raised [(islFC, 0x460), (islFC, 0x46C)] v t
          ∧ Safety.onlyRegs [FAC_CMD n, FAC_STAT n, FAC_STREAM_STAT n, FAC_VEC_FIRST n] v t ∧ Safety.sameMem v t)
      ∧ (v.egState n ≠ egIdle ∨ (v.engine n).calibrating = true →
        ∃ t, exec (.facStart n step w token) s = .next t ∧ t.mtx.resp = rOkay ∧ t.fld (FAC_CMD n) FAC_CMD_RESULT = 4
          ∧ t.fld (FAC_CMD n) FAC_CMD_TOKEN = v.fld (FAC_CMD n) FAC_CMD_TOKEN
          ∧ Safety.raised [(islFC, 0x46C)] v t ∧ Safety.onlyRegs [FAC_CMD n] v t ∧ Safety.sameMem v t))
    ∧ (v.egState n ≠ egOff →
        ∃ t, exec (.facStop n w token) s = .next t ∧ t.mtx.resp = rOkay ∧ t.egState n = egIdle ∧ (t.engine n).out = 0
          ∧ t.reg (FAC_CMD n) = BitVec.ofNat 32 (token.toNat + 512 + 16777216)
          ∧ Safety.raised ((if v.egRuns n then [(islFC, 0x461)] else []) ++ [(islFC, 0x46C)]) v t
          ∧ Safety.onlyRegs [FAC_CMD n, FAC_STAT n] v t ∧ Safety.sameMem v t)
    ∧ (v.egState n = egWaiting → (v.engine n).latching = true →
        ∃ t, exec (.facTrig n w token) s = .next t ∧ t.mtx.resp = rOkay ∧ t.bitAt (FAC_TRIG_STAT n) 0 = true
          ∧ t.reg (FAC_CMD n) = BitVec.ofNat 32 (token.toNat + 768 + 16777216)
          ∧ (FAC_STEP_W2_WAIT.get ((v.engine n).st.getD 2 0) % 2 = 1 → t.egState n = egPlaying ∧ t.fld (FAC_STAT n) FAC_STAT_CAUSE = 0)
          ∧ Safety.raised [(islFC, 0x46C)] v t ∧ Safety.onlyRegs [FAC_CMD n, FAC_TRIG_STAT n, FAC_STAT n] v t ∧ Safety.sameMem v t)
    ∧ (∀ port cmp : Fin 64, v.egState n ≤ egIdle → (v.engine n).calibrating = false → v.assignOk n port cmp = true →
        ∃ t, exec (.facAssign n port cmp w token) s = .next t ∧ t.mtx.resp = rOkay ∧ t.egState n = egIdle
          ∧ t.fld (FAC_CFG n) FAC_CFG_PORT = port.val ∧ t.fld (FAC_CFG n) FAC_CFG_CMP_PORT = cmp.val
          ∧ t.flag (FAC_CFG n) FAC_CFG_ASSIGN = true ∧ t.tstat port TRIB_STAT_FAC = true
          ∧ t.fld (FAC_STAT n) FAC_STAT_MODE = v.tribMode port
          ∧ t.reg (FAC_CMD n) = BitVec.ofNat 32 (token.toNat + 1024 + 4096 * (port.val + 64 * cmp.val) + 16777216)
          ∧ Safety.raised ((if v.flag (FAC_STAT n) FAC_STAT_FREE = (!v.facClock (v.tribMode port)) then [] else [(islFC, 0x46B)])
            ++ [(islFC, 0x467), (islFC, 0x46C)]) v t
          ∧ Safety.regsOutside (fun a => a = FAC_CMD n ∨ a = FAC_CFG n ∨ a = FAC_STAT n ∨ a = FAC_STICKY n ∨ Safety.tribTx a) v t ∧ Safety.sameMem v t)
    ∧ (v.egState n ≠ egOff →
        ∃ t, exec (.facRelease n w token) s = .next t ∧ t.mtx.resp = rOkay ∧ t.egState n = egOff ∧ (t.engine n).out = 0
          ∧ t.flag (FAC_CFG n) FAC_CFG_ASSIGN = false ∧ t.tstat (v.fld (FAC_CFG n) FAC_CFG_PORT) TRIB_STAT_FAC = false
          ∧ t.reg (FAC_CMD n) = BitVec.ofNat 32 (token.toNat + 1280 + 16777216)
          ∧ Safety.raised ((if v.egRuns n then [(islFC, 0x461)] else []) ++ [(islFC, 0x467), (islFC, 0x46C)]) v t
          ∧ Safety.regsOutside (fun a => a = FAC_CMD n ∨ a = FAC_CFG n ∨ a = FAC_STAT n ∨ Safety.tribTx a) v t ∧ Safety.sameMem v t)
    ∧ (v.egState n = egIdle → (v.engine n).calibrating = false →
        ∃ t, exec (.facCal n w token) s = .next t ∧ t.mtx.resp = rOkay ∧ (t.engine n).calibrating = true
          ∧ t.reg (FAC_CMD n) = BitVec.ofNat 32 (token.toNat + 1536 + 33554432)
          ∧ Safety.raised [(islFC, 0x46C)] v t ∧ Safety.onlyRegs [FAC_CMD n] v t ∧ Safety.sameMem v t)
    ∧ (∀ skew : BitVec 12,
        ∃ t, exec (.facSetSkew n skew w token) s = .next t ∧ t.mtx.resp = rOkay ∧ t.fld (FAC_SKEW n) FAC_SKEW_SKEW = skew.toNat
          ∧ t.reg (FAC_CMD n) = BitVec.ofNat 32 (token.toNat + 1792 + 4096 * skew.toNat + 16777216)
          ∧ Safety.raised [(islFC, 0x46C)] v t ∧ Safety.onlyRegs [FAC_CMD n, FAC_SKEW n] v t ∧ Safety.sameMem v t))
  ∧ (∀ (s v : State) (n : Fin 8) (w : Writer) (token : Byte) (step : BitVec 12), Safety.granted w s v → v.running islFC = true →
    v.fld (FAC_CMD n) FAC_CMD_TOKEN = token.toNat →
    ∃ t, exec (.facStart n step w token) s = .next t ∧ t.mtx.resp = rOkay ∧ t.chan = v.chan ∧ t.engine n = v.engine n
      ∧ Safety.onlyRegs [] v t ∧ Safety.sameMem v t)

/-- Calibration, FAC_SYNC and the stream rings of the Facsimile engines. A calibration whose 64 crossings all lie within 16 UI stores
their mean with VALID and its LAG, one that does not fails with RESULT 0x04; either raises 0x468. FAC_SYNC pulses trigger 1 at every
engine that latches, with 0x46D. FAC_STREAM adds to the fill what the bound ring has room for, 0x02 and 0x466 telling of samples lost, and
is refused without a ring or with count 0. A stream sample takes one off the fill and changes the phase by no more than the slope limit,
or, on an empty ring, holds it and counts (R351, R362, R368, R369, R370, R372). -/
def Obligations.FacsimileStreamsAndCalibration : Prop :=
  (∀ (s : State) (n : Fin 8) (l : List Nat), s.running islFC = true → (s.engine n).calibrating = true → l.length = 64 →
    (∀ v, v ∈ l → v ≤ 65535) →
    ∃ t, exec (.facCalDone n (l.map some)) s = .next t ∧ t.reg (FAC_CAL_STAT n) = BitVec.ofNat 32 (l.sum / 64 + 65536)
      ∧ t.fld (FAC_CFG n) FAC_CFG_LAG = (l.sum / 64 + 2048) / 4096 ∧ t.fld (FAC_CMD n) FAC_CMD_RESULT = 1
      ∧ (t.engine n).calibrating = false ∧ Safety.raised [(islFC, 0x468)] s t
      ∧ Safety.onlyRegs [FAC_CAL_STAT n, FAC_CFG n, FAC_CMD n] s t ∧ Safety.sameMem s t)
  ∧ (∀ (s : State) (n : Fin 8) (l : List (Option Nat)), s.running islFC = true → (s.engine n).calibrating = true →
    (none ∈ l ∨ l.length ≠ 64 ∨ ∃ v, 65535 < v ∧ some v ∈ l) →
    ∃ t, exec (.facCalDone n l) s = .next t ∧ t.flag (FAC_CAL_STAT n) FAC_CAL_STAT_VALID = false
      ∧ t.fld (FAC_CMD n) FAC_CMD_RESULT = 4 ∧ (t.engine n).calibrating = false ∧ Safety.raised [(islFC, 0x468)] s t
      ∧ Safety.onlyRegs [FAC_CAL_STAT n, FAC_CMD n] s t ∧ Safety.sameMem s t)
  ∧ (∀ (s v : State) (w : Writer) (token : Byte), Safety.granted w s v → v.running islFC = true → v.fld FAC_SYNC FAC_SYNC_TOKEN ≠ token.toNat →
    ∃ t, exec (.facSync w token true) s = .next t ∧ t.mtx.resp = rOkay ∧ t.reg FAC_SYNC = BitVec.ofNat 32 (token.toNat + 256 + 65536)
      ∧ (∀ n, n < 8 → (v.engine n).latching = true → t.bitAt (FAC_TRIG_STAT n) 1 = true)
      ∧ Safety.raised [(islFC, 0x46D)] v t ∧ Safety.sameMem v t
      ∧ Safety.regsOutside (fun a => a = FAC_SYNC ∨ ∃ n, n < 8 ∧ (a = FAC_TRIG_STAT n ∨ a = FAC_STAT n)) v t)
  ∧ (∀ (s v : State) (n : Fin 8) (w : Writer) (token : Byte) (count : BitVec 16), Safety.granted w s v → v.running islFC = true →
    v.fld (FAC_STREAM n) FAC_STREAM_TOKEN ≠ token.toNat →
    ((v.engine n).ring = none ∨ count = 0 →
      ∃ t, exec (.facStream n w token count) s = .next t ∧ t.mtx.resp = rOkay ∧ t.fld (FAC_STREAM n) FAC_STREAM_RESULT = 4
        ∧ t.fld (FAC_STREAM n) FAC_STREAM_TOKEN = v.fld (FAC_STREAM n) FAC_STREAM_TOKEN ∧ t.chan = v.chan
        ∧ Safety.onlyRegs [FAC_STREAM n] v t ∧ Safety.sameMem v t)
    ∧ (∀ seg, (v.engine n).ring = some seg → count ≠ 0 →
      let fill := v.fld (FAC_STREAM_STAT n) FAC_STREAM_STAT_FILL
      let free := FAC_SEG_W1_LENGTH.get ((v.engine n).sg.getD 3 0) - fill
      ∃ t, exec (.facStream n w token count) s = .next t ∧ t.mtx.resp = rOkay
        ∧ t.fld (FAC_STREAM_STAT n) FAC_STREAM_STAT_FILL = fill + min count.toNat free
        ∧ (count.toNat ≤ free → t.reg (FAC_STREAM n) = BitVec.ofNat 32 (token.toNat + 256 * count.toNat + 16777216) ∧ t.chan = v.chan
            ∧ Safety.onlyRegs [FAC_STREAM n, FAC_STREAM_STAT n] v t)
        ∧ (free < count.toNat → t.reg (FAC_STREAM n) = BitVec.ofNat 32 (token.toNat + 256 * count.toNat + 33554432)
            ∧ t.bitAt (FAC_STICKY n) 1 = true ∧ t.reg (FAC_CNT n 5) = v.reg (FAC_CNT n 5) + 1
            ∧ Safety.raised [(islFC, 0x466)] v t
            ∧ Safety.onlyRegs [FAC_STREAM n, FAC_STREAM_STAT n, FAC_STICKY n, FAC_CNT n 5] v t)
        ∧ Safety.sameMem v t))
  ∧ (∀ (s : State) (n : Fin 8) (seg : Nat), s.running islFC = true → s.egState n = egPlaying → (s.engine n).ring = some seg →
    (s.fld (FAC_STREAM_STAT n) FAC_STREAM_STAT_FILL = 0 →
      ∃ t, exec (.streamSample n) s = .next t ∧ (t.engine n).phiTo = (s.engine n).phiTo ∧ (t.engine n).phiFrom = (s.engine n).phiTo
        ∧ t.bitAt (FAC_STICKY n) 0 = true ∧ t.reg (FAC_CNT n 4) = s.reg (FAC_CNT n 4) + 1
        ∧ Safety.onlyRegs [FAC_STICKY n, FAC_CNT n 4] s t ∧ Safety.sameMem s t)
    ∧ (0 < s.fld (FAC_STREAM_STAT n) FAC_STREAM_STAT_FILL →
      let lim := slopeLimit (s.fld (FAC_STAT n) FAC_STAT_MODE) (((s.engine n).md.getD 1 0).toNat % 65536)
      ∃ t, exec (.streamSample n) s = .next t
        ∧ t.fld (FAC_STREAM_STAT n) FAC_STREAM_STAT_FILL = s.fld (FAC_STREAM_STAT n) FAC_STREAM_STAT_FILL - 1
        ∧ (t.engine n).phiFrom = (s.engine n).phiTo ∧ (t.engine n).phiTo ≤ (s.engine n).phiTo + lim
        ∧ (s.engine n).phiTo - lim ≤ (t.engine n).phiTo
        ∧ Safety.onlyRegs [FAC_STREAM_STAT n, FAC_STICKY n, FAC_CNT n 6] s t ∧ Safety.sameMem s t))

/-- The steps of a Facsimile engine: checks, waits, triggers and ends. At the end of the dead time the step is fetched and checked: an
empty segment, one beyond the memory, one of another kind and a ratio out of range fault with codes 1 to 4 and 0x462; a good unmodulated
step plays, or waits with its trigger latch cleared. Triggers latch, and a masked one ends the wait with the lowest as its cause. A
timed-out wait goes to TO_NEXT with cause 15 and 0x463; the end of a step counts, marks with 0x469, and goes to NEXT or, on LAST, to Idle
with 0x461 (R356, R358, R359, R360, R361, R362, R363, R365, R371). -/
def Obligations.FacsimileSteps : Prop :=
  (∀ (s : State) (n : Fin 8), s.running islFC = true → s.egState n = egDead →
    let k := s.fld (FAC_STAT n) FAC_STAT_STEP
    let seg := s.fld (FAC_STEP_W0 k) FAC_STEP_W0_SEG
    let mod := s.fld (FAC_STEP_W1 k) FAC_STEP_W1_MOD
    let len := s.fld (FAC_SEG_W1 seg) FAC_SEG_W1_LENGTH
    let kind := s.fld (FAC_SEG_W0 seg) FAC_SEG_W0_KIND
    let bytes := if kind = 1 then (len + 1) / 2 else 2 * len
    let fits := 4 * s.fld (FAC_SEG_W0 seg) FAC_SEG_W0_START + bytes ≤ 262144
    let ratio := s.fld (FAC_STEP_W1 k) FAC_STEP_W1_RATIO
    (∀ code, ((len = 0 ∧ code = 1) ∨ (len ≠ 0 ∧ ¬ fits ∧ code = 2) ∨ (len ≠ 0 ∧ fits ∧ 2 ≤ kind ∧ code = 3)
        ∨ (len ≠ 0 ∧ fits ∧ kind = 0 ∧ (ratio < 0x1000 ∨ 0x40000 < ratio) ∧ code = 4)) →
      ∃ t, exec (.deadTimeEnd n) s = .next t ∧ t.egState n = egFault ∧ t.fld (FAC_STAT n) FAC_STAT_FAULT = code ∧ (t.engine n).out = 0
        ∧ t.reg (FAC_CNT n 1) = s.reg (FAC_CNT n 1) + 1 ∧ Safety.raised [(islFC, 0x462)] s t
        ∧ Safety.onlyRegs [FAC_STAT n, FAC_CNT n 1] s t ∧ Safety.sameMem s t)
    ∧ (len ≠ 0 → fits → (kind = 1 ∨ (kind = 0 ∧ 0x1000 ≤ ratio ∧ ratio ≤ 0x40000)) → s.fld (FAC_MOD_W0 mod) FAC_MOD_W0_TYPE = 0 →
      ∃ t, exec (.deadTimeEnd n) s = .next t ∧ (t.engine n).skew = s.fld (FAC_SKEW n) FAC_SKEW_SKEW ∧ (t.engine n).clk = 0
        ∧ (s.fld (FAC_STEP_W2 k) FAC_STEP_W2_WAIT = 0 → t.egState n = egPlaying ∧ Safety.onlyRegs [FAC_STAT n] s t)
        ∧ (s.fld (FAC_STEP_W2 k) FAC_STEP_W2_WAIT ≠ 0 → t.egState n = egWaiting ∧ (t.engine n).latching = true
            ∧ t.fld (FAC_TRIG_STAT n) FAC_TRIG_STAT_BITS = 0 ∧ Safety.onlyRegs [FAC_STAT n, FAC_TRIG_STAT n] s t)
        ∧ t.chan = s.chan ∧ Safety.sameMem s t))
  ∧ (∀ (s : State) (n : Fin 8) (trigs : BitVec 16), s.running islFC = true → (s.engine n).latching = true → trigs.toNat % 16384 ≠ 0 →
    let bits := s.fld (FAC_TRIG_STAT n) FAC_TRIG_STAT_BITS ||| trigs.toNat % 16384
    let hit := bits &&& FAC_STEP_W2_WAIT.get ((s.engine n).st.getD 2 0)
    ∃ t, exec (.facTrigger n trigs) s = .next t ∧ t.fld (FAC_TRIG_STAT n) FAC_TRIG_STAT_BITS = bits ∧ t.chan = s.chan
      ∧ (s.egState n = egWaiting → hit ≠ 0 → t.egState n = egPlaying ∧ Nat.testBit hit (t.fld (FAC_STAT n) FAC_STAT_CAUSE) = true
          ∧ ∀ b, b < t.fld (FAC_STAT n) FAC_STAT_CAUSE → Nat.testBit hit b = false)
      ∧ (s.egState n ≠ egWaiting ∨ hit = 0 → t.reg (FAC_STAT n) = s.reg (FAC_STAT n))
      ∧ Safety.onlyRegs [FAC_TRIG_STAT n, FAC_STAT n] s t ∧ Safety.sameMem s t)
  ∧ (∀ (s : State) (n : Fin 8), s.running islFC = true → s.egState n = egWaiting →
    FAC_STEP_W2_WAIT_TO.get ((s.engine n).st.getD 2 0) ≠ 0 →
    ∃ t, exec (.waitTimeout n) s = .next t ∧ t.egState n = egDead ∧ t.fld (FAC_STAT n) FAC_STAT_CAUSE = 15
      ∧ t.fld (FAC_STAT n) FAC_STAT_STEP = FAC_STEP_W3_TO_NEXT.get ((s.engine n).st.getD 3 0) ∧ (t.engine n).out = 0
      ∧ t.reg (FAC_CNT n 7) = s.reg (FAC_CNT n 7) + 1 ∧ Safety.raised [(islFC, 0x463)] s t
      ∧ Safety.onlyRegs [FAC_STAT n, FAC_CNT n 7] s t ∧ Safety.sameMem s t)
  ∧ (∀ (s : State) (n : Fin 8), s.running islFC = true → s.egState n = egPlaying → (s.engine n).repeats ≠ 0 →
    let w1 := (s.engine n).st.getD 1 0
    let mark := FAC_STEP_W1_MARK.get w1 = 1
    let last := FAC_STEP_W1_LAST.get w1 = 1
    ∃ t, exec (.stepEnd n) s = .next t ∧ (t.engine n).out = 0 ∧ t.reg (FAC_CNT n 0) = s.reg (FAC_CNT n 0) + 1
      ∧ (last → t.egState n = egIdle)
      ∧ (¬ last → t.egState n = egDead ∧ t.fld (FAC_STAT n) FAC_STAT_STEP = FAC_STEP_W3_NEXT.get ((s.engine n).st.getD 3 0))
      ∧ Safety.raised ((if FAC_STEP_W1_MARK.get w1 = 1 then [(islFC, 0x469)] else [])
          ++ (if FAC_STEP_W1_LAST.get w1 = 1 then [(islFC, 0x461)] else [])) s t
      ∧ (¬ mark → Safety.onlyRegs [FAC_CNT n 0, FAC_STAT n] s t)
      ∧ Safety.regsOutside (fun a => a = FAC_CNT n 0 ∨ ∃ m, m < 8 ∧ (a = FAC_TRIG_STAT m ∨ a = FAC_STAT m)) s t ∧ Safety.sameMem s t)

/-- The samples of a Facsimile engine, its vector compares, and writes to the pattern memory. A waveform sample advances the read position
by RATIO and wraps at the segment's end, a play being counted there and the last one ending the output. A vector element with a code that
does not exist faults with code 6; one that asks for a compare owes it; codes stay within 2047 of zero. While an engine calibrates, a
sample is one of the calibration. The symbol received LAG after the oldest element owed is compared, one received at another distance is
not: a compare counts; a wrong symbol or an unlocked CDR counts as a failure, and the first of a step is stored with 0x464. The pattern
memory takes a write to a word that no playing or waiting step uses, and refuses another with 0x46A (R357, R364, R366, R367). -/
def Obligations.FacsimileSamples : Prop :=
  (∀ (s : State) (n : Fin 8), s.running islFC = true → s.egState n = egPlaying → (s.engine n).ended = false →
    (s.engine n).calibrating = false →
    ((s.engine n).kind = 0 →
      let p := (s.engine n).x + (s.engine n).ratio
      let size := max 1 (65536 * (s.engine n).length)
      ∃ t, exec (.facsimileOutputSample n) s = .next t ∧ (t.engine n).x = p % size
        ∧ (t.engine n).plays = (s.engine n).plays + p / size
        ∧ (t.engine n).clk = (s.engine n).clk + 1 ∧ -2048 ≤ (t.engine n).out ∧ (t.engine n).out ≤ 2047
        ∧ ((t.engine n).ended = true ↔ (s.engine n).repeats ≠ 0 ∧ (s.engine n).repeats ≤ (t.engine n).plays)
        ∧ t.chan = s.chan ∧ Safety.onlyRegs [] s t ∧ Safety.sameMem s t)
    ∧ ((s.engine n).kind ≠ 0 → (s.engine n).clk % 64 ≠ 0 →
      ∃ t, exec (.facsimileOutputSample n) s = .next t ∧ (t.engine n).clk = (s.engine n).clk + 1 ∧ (t.engine n).owed = (s.engine n).owed
        ∧ -2047 ≤ (t.engine n).out ∧ (t.engine n).out ≤ 2047 ∧ t.chan = s.chan ∧ Safety.onlyRegs [] s t ∧ Safety.sameMem s t)
    ∧ ((s.engine n).kind ≠ 0 → (s.engine n).clk % 64 = 0 →
      let i := (s.engine n).clk / 64 % max 1 (s.engine n).length
      let c := s.patternNibble (s.engine n).start i
      ∃ t, exec (.facsimileOutputSample n) s = .next t ∧ Safety.sameMem s t
        ∧ ((2 ≤ c % 4 ∨ c / 4 = 3) → t.egState n = egFault ∧ t.fld (FAC_STAT n) FAC_STAT_FAULT = 6 ∧ (t.engine n).out = 0
            ∧ t.reg (FAC_CNT n 1) = s.reg (FAC_CNT n 1) + 1 ∧ Safety.raised [(islFC, 0x462)] s t
            ∧ Safety.onlyRegs [FAC_STAT n, FAC_CNT n 1] s t)
        ∧ (c % 4 < 2 → c / 4 ≠ 3 → (t.engine n).clk = (s.engine n).clk + 1 ∧ t.chan = s.chan ∧ Safety.onlyRegs [] s t
            ∧ (t.engine n).owed = (s.engine n).owed
              ++ (if c / 4 = 2 then [] else [⟨i, s.fld (FAC_STAT n) FAC_STAT_STEP, decide (c / 4 = 1), (s.engine n).runs⟩]))))
  ∧ (∀ (s : State) (n : Fin 8), s.running islFC = true → (s.engine n).calibrating = true →
    ∃ t, exec (.facsimileOutputSample n) s = .next t ∧ (t.engine n).out = s.calOut n ∧ (t.engine n).clk = (s.engine n).clk + 1
      ∧ -2047 ≤ (t.engine n).out ∧ (t.engine n).out ≤ 2047 ∧ t.chan = s.chan ∧ Safety.onlyRegs [] s t ∧ Safety.sameMem s t)
  ∧ (∀ (s : State) (n : Fin 8) (o : Owed) (rest : List Owed) (lag : Byte) (received : Symbol) (ok : Bool), s.running islFC = true →
    (s.engine n).owed = o :: rest → lag.toNat = s.fld (FAC_CFG n) FAC_CFG_LAG →
    ok = (s.cmpLocked n && decide (received = .mark ↔ o.mark = true)) →
    ∃ t, exec (.vectorCompare n lag received) s = .next t ∧ (t.engine n).owed = rest
      ∧ t.reg (FAC_CNT n 2) = s.reg (FAC_CNT n 2) + 1 ∧ Safety.sameMem s t
      ∧ (s.cmpLocked n = false → t.bitAt (FAC_STICKY n) 3 = true)
      ∧ (ok = true → t.chan = s.chan ∧ Safety.onlyRegs [FAC_CNT n 2] s t)
      ∧ (ok = false → t.reg (FAC_CNT n 3) = s.reg (FAC_CNT n 3) + 1)
      ∧ (ok = false → (s.engine n).failed ≠ some o.run →
          t.reg (FAC_VEC_FIRST n) = BitVec.ofNat 32 (o.element + 65536 * o.step + 2147483648) ∧ Safety.raised [(islFC, 0x464)] s t
            ∧ Safety.onlyRegs [FAC_CNT n 2, FAC_CNT n 3, FAC_VEC_FIRST n, FAC_STICKY n] s t)
      ∧ (ok = false → (s.engine n).failed = some o.run →
          t.chan = s.chan ∧ Safety.onlyRegs [FAC_CNT n 2, FAC_CNT n 3, FAC_STICKY n] s t))
  ∧ (∀ (s : State) (n : Fin 8) (lag : Byte) (received : Symbol), lag.toNat ≠ s.fld (FAC_CFG n) FAC_CFG_LAG →
    exec (.vectorCompare n lag received) s = .next s)
  ∧ (∀ (s v : State) (i : Fin 65536) (w : Writer) (value : Word), Safety.granted w s v → v.running islFC = true →
    (v.patternBusy i = false →
      ∃ t, exec (.patternMemoryWrite i w value) s = .next t ∧ t.mtx.resp = rOkay ∧ t.reg (FAC_PATTERN i) = value ∧ t.chan = v.chan
        ∧ Safety.onlyRegs [FAC_PATTERN i] v t ∧ Safety.sameMem v t)
    ∧ (∀ q, w = .service q → v.patternBusy i = true →
      ∃ t, exec (.patternMemoryWrite i w value) s = .next t ∧ t.mtx.resp = rRefused
        ∧ Safety.raised [(islFC, 0x46A), (islMX, 0x081)] v t ∧ Safety.onlyRegs [MTX_ERR_LAST, MTX_ERR_ADDR] v t ∧ Safety.sameMem v t))

/-- What a packet port and the jitter buffer of a flow do with a received frame. A frame shorter than 64 bytes or with a wrong FCS, one
too long for its tags, and one for another address each count in their own counter of the port and nothing else follows. An ESMC PDU shows
its SSM and ends the timeout. A packet of a disabled flow, one whose addresses differ from its profile's, and a malformed one count at the
port and at the flow, with LAST_DISC 9, 3 or 2, and no buffer changes. A link change raises 0x3F0 or 0x3F1. Outside LOPS a good packet
whose number lies behind play-out is late, one that has arrived is a duplicate, and one beyond the buffer is early, each counted with
LAST_DISC 4, 5 or 6 and nothing stored; an early one advances the count of early packets, the others end it. A packet that fits, where its
pages are mapped, is stored in its slot byte for byte with nothing else in memory changed; the first one placed starts play- out at its
number, and Fill becomes Play once TARGET bytes are buffered (R198, R199, R200, R201, R202, R204, R222, R232, R208, R209, R211, R217). -/
def Obligations.ReceivedPackets : Prop :=
  ((∀ (s : State) (p : Fin 2) (frame : List Byte), s.running (islPK p) = true →
    let tags := vlanTags frame
    let g := frame.take 12 ++ (frame.take (frame.length - 4)).drop (12 + 4 * tags)
    (∀ k, ((frame.length < 64 ∨ fcsOk frame = false) ∧ k = rxFcs
        ∨ 64 ≤ frame.length ∧ fcsOk frame = true ∧ 1518 + 4 * tags < frame.length ∧ k = rxOversize
        ∨ 64 ≤ frame.length ∧ fcsOk frame = true ∧ frame.length ≤ 1518 + 4 * tags ∧ s.ptpIn p g = none ∧ g.take 6 ≠ esmcAddress
          ∧ g.take 6 ≠ s.portMac p ∧ k = rxOther) →
      ∃ t, exec (.packetReceived p frame) s = .next t ∧ t.reg (PW_PORT_CNT p k) = s.reg (PW_PORT_CNT p k) + 1
        ∧ Safety.onlyRegs [PW_PORT_CNT p k] s t ∧ Safety.sameMem s t ∧ t.flows = s.flows ∧ t.lend = s.lend)
    ∧ (64 ≤ frame.length → fcsOk frame = true → frame.length ≤ 1518 + 4 * tags → s.ptpIn p g = none → g.take 6 = esmcAddress →
      field g 12 2 = 0x8809 → (g.getD 14 0).toNat = 0x0A → s.running islTM = true →
      ∃ t, exec (.packetReceived p frame) s = .next t ∧ t.reg (PW_PORT_CNT p rxOk) = s.reg (PW_PORT_CNT p rxOk) + 1
        ∧ t.fld (TIM_ESMC_RX p) TIM_ESMC_RX_SSM = (g.getD 27 0).toNat % 16 ∧ t.flag (TIM_ESMC_RX p) TIM_ESMC_RX_TIMEOUT = false
        ∧ Safety.onlyRegs [PW_PORT_CNT p rxOk, TIM_ESMC_RX p] s t ∧ Safety.sameMem s t))
  ∧ (∀ (s : State) (p : Fin 2) (frame : List Byte) (k : Pkt) (f code cnt : Nat), Safety.forFlow s p frame k f →
    (s.flowEn f = false ∧ code = 9 ∧ cnt = rxDisabled
      ∨ s.flowEn f = true ∧ s.lend.descs.length < 4096 ∧ s.addrsMatch (s.flowProf f) k = false ∧ code = 3 ∧ cnt = rxMismatch
      ∨ s.flowEn f = true ∧ s.lend.descs.length < 4096 ∧ s.addrsMatch (s.flowProf f) k = true ∧ k.bad = true ∧ code = 2 ∧ cnt = rxMalformed
      ∨ s.flowEn f = true ∧ s.lend.descs.length < 4096 ∧ s.addrsMatch (s.flowProf f) k = true ∧ s.payloadOf f k.body = none ∧ code = 2
        ∧ cnt = rxMalformed) →
    ∃ t, exec (.packetReceived p frame) s = .next t ∧ t.reg (PW_PORT_CNT p cnt) = s.reg (PW_PORT_CNT p cnt) + 1
      ∧ t.reg (PW_DISC_CNT f) = s.reg (PW_DISC_CNT f) + 1 ∧ t.fld (PW_STAT f) PW_STAT_LAST_DISC = code
      ∧ Safety.onlyRegs [PW_PORT_CNT p cnt, PW_DISC_CNT f, PW_STAT f] s t ∧ Safety.sameMem s t ∧ t.flows = s.flows ∧ t.lend = s.lend)
  ∧ (∀ (s : State) (p : Fin 2) (up : Bool), s.running (islPK p) = true → s.flag (PW_PORT_STAT p) PW_PORT_STAT_LINK = (!up) →
    ∃ t, exec (.packetLinkChange p up) s = .next t ∧ t.flag (PW_PORT_STAT p) PW_PORT_STAT_LINK = up
      ∧ Safety.raised [(islPK p, if up then 0x3F1 else 0x3F0)] s t ∧ Safety.onlyRegs [PW_PORT_STAT p] s t ∧ Safety.sameMem s t))
  ∧ (∀ (s : State) (p : Fin 2) (frame : List Byte) (k : Pkt) (f : Nat) (l : List Byte), Safety.forFlow s p frame k f →
    Safety.goodPacket s f k l → s.flowState f ≠ flLops →
    let n := field k.body 2 2
    let d := (n + 65536 - s.nPlay f) % 65536
    let data := if (k.body.getD 0 0).toNat / 8 % 2 = 1 then List.replicate (s.flowP f) 0xFF else l
    (∀ code cnt, (s.flow f).started = true →
      (32768 ≤ d ∧ code = 4 ∧ cnt = rxLate
        ∨ d < 32768 ∧ d < s.flowS f / s.flowP f ∧ (s.flow f).arrived.contains n = true ∧ code = 5 ∧ cnt = rxDup
        ∨ d < 32768 ∧ s.flowS f / s.flowP f ≤ d ∧ (s.flow f).early < 7 ∧ code = 6 ∧ cnt = rxEarly) →
      ∃ t, exec (.packetReceived p frame) s = .next t ∧ t.reg (PW_PORT_CNT p cnt) = s.reg (PW_PORT_CNT p cnt) + 1
        ∧ t.reg (PW_DISC_CNT f) = s.reg (PW_DISC_CNT f) + 1 ∧ t.fld (PW_STAT f) PW_STAT_LAST_DISC = code
        ∧ (t.flow f).arrived = (s.flow f).arrived ∧ (t.flow f).early = (if code = 6 then (s.flow f).early + 1 else 0)
        ∧ t.flowState f = s.flowState f
        ∧ Safety.onlyRegs [PW_PORT_CNT p cnt, PW_DISC_CNT f, PW_STAT f] s t ∧ Safety.sameMem s t ∧ t.lend = s.lend)
    ∧ ((s.flow f).started = false ∨ (d < 32768 ∧ d < s.flowS f / s.flowP f ∧ (s.flow f).arrived.contains n = false) →
      (∀ v, v ∈ s.slotPages f n → (s.mapOf f v).isSome = true) →
      ∃ t, exec (.packetReceived p frame) s = .next t ∧ t.reg (PW_PORT_CNT p rxOk) = s.reg (PW_PORT_CNT p rxOk) + 1
        ∧ (t.flow f).started = true ∧ (t.flow f).arrived.contains n = true ∧ (t.flow f).early = 0
        ∧ ((s.flow f).started = false → t.nPlay f = n)
        ∧ (s.flowState f = flFill → (t.flowState f = flPlay ↔ s.fld (PW_JB f) PW_JB_TARGET ≤ t.slotsAhead f * s.flowP f))
        ∧ (∀ a, (∀ j, j < s.flowP f → s.slotByte f n j ≠ some a) → t.byte a = s.byte a)
        ∧ ((∀ i j, i < s.flowP f → j < s.flowP f → s.slotByte f n i = s.slotByte f n j → i = j) →
            ∀ j a, j < s.flowP f → s.slotByte f n j = some a → t.byte a = data.getD j 0)
        ∧ Safety.onlyRegs [PW_PORT_CNT p rxOk, PW_STAT f, PW_STAT1 f, PW_STAT2 f] s t ∧ t.lend = s.lend))

/-- Play-out of a slot, and a packet assembled, sent or given up. A slot that falls due plays its payload, or what SUBST says and is
counted lost; n_play advances, the arrival map forgets the number, and the LOPS_N-th missing slot in a row enters LOPS with R, an empty
buffer, and all ones with TSF towards the Index. A packet carries all ones where L is sent, otherwise of SAToP the bits handed over; with
less than a payload's worth none is made. It takes the next SEQ, a free descriptor and the folios granted to the flow, in which alone
memory changes; without a free descriptor it is counted and given up. A sent packet frees its descriptor and folios and counts, or is
discarded by the standby of a pair (R200, R205, R207, R209, R212, R213, R217, R219, R220, R221). -/
def Obligations.PlayoutAndTransmission : Prop :=
  (∀ (s : State) (f : Fin 1024), s.running (s.flowIsl f) = true → s.flowEn f = true → s.flowState f = flPlay →
    0 < s.fld (PW_JB f) PW_JB_LOPS_N →
    let n := s.nPlay f
    let regs (a : Nat) : Prop := a = PW_STAT f ∨ a = PW_STAT1 f ∨ a = PW_STAT2 f ∨ a = PW_STAT3 f ∨ Safety.lendRegs a
    ((s.flow f).arrived.contains n = true →
      ∃ t, exec (.playoutSlot f) s = .next t ∧ t.nPlay f = (n + 1) % 65536 ∧ (t.flow f).arrived.contains n = false
        ∧ (t.flow f).missing = 0 ∧ t.flowState f = flPlay
        ∧ (t.flow f).tsf = false ∧ (s.fld (PW_CFG f) PW_CFG_KIND = 0 → (t.flow f).out = byteBits (s.readSlotOf f n))
        ∧ (s.fld (PW_CFG f) PW_CFG_CLOCK = 0 → t.fld (PW_STAT3 f) PW_STAT3_NCO = 0)
        ∧ Safety.regsOutside regs s t ∧ Safety.sameMem s t)
    ∧ ((s.flow f).arrived.contains n = false →
      ∃ t, exec (.playoutSlot f) s = .next t ∧ t.nPlay f = (n + 1) % 65536 ∧ t.reg (PW_LOST_CNT f) = s.reg (PW_LOST_CNT f) + 1
        ∧ ((s.flow f).missing + 1 = s.fld (PW_JB f) PW_JB_LOPS_N →
            t.flowState f = flLops ∧ t.flag (PW_STAT f) PW_STAT_R_TX = true ∧ (t.flow f).started = false ∧ (t.flow f).arrived = []
              ∧ (t.flow f).tsf = true ∧ (t.flow f).out = List.replicate (8 * s.flowP f) true)
        ∧ ((s.flow f).missing + 1 ≠ s.fld (PW_JB f) PW_JB_LOPS_N →
            t.flowState f = flPlay ∧ (t.flow f).missing = (s.flow f).missing + 1 ∧ (t.flow f).tsf = false
              ∧ (s.fld (PW_CFG f) PW_CFG_KIND = 0 → (t.flow f).out = byteBits (s.substitute f)))
        ∧ Safety.regsOutside (fun a => a = PW_LOST_CNT f ∨ regs a) s t ∧ Safety.sameMem s t))
  ∧ (∀ (s : State) (f : Fin 1024) (bits : List Bool) (payload : List Byte) (stamp : Word), s.running (s.flowIsl f) = true →
    s.flowEn f = true → Safety.feedOk s (flowEp f) → s.nextPayload f bits = some payload →
    let l := s.flowSendsL f
    let seq := (s.fld (PW_STAT1 f) PW_STAT1_TX_SEQ + 1) % 65536
    let bytes := s.buildPacket f seq l stamp payload
    let need := (bytes.length + 255) / 256
    let had := tget s.lend.granted [] f
    (l = true → payload = List.replicate (s.flowP f) 0xFF)
    ∧ (l = false → s.fld (PW_CFG f) PW_CFG_KIND = 0 → (∀ p, s.feedPort f = some p → s.tstat p TRIB_STAT_AIS_TO_IDX = false) →
      payload = bitBytes (s.flowP f) bits)
    ∧ ((∀ d, d < 4096 → s.lend.descs.any (fun x => x.1 == d) = true) →
      ∃ t, exec (.pwTransmitPacket f bits stamp) s = .next t
        ∧ t.reg (PW_PORT_CNT (s.flowHome f) txNoDesc) = s.reg (PW_PORT_CNT (s.flowHome f) txNoDesc) + 1
        ∧ Safety.onlyRegs [PW_PORT_CNT (s.flowHome f) txNoDesc] s t ∧ Safety.sameMem s t ∧ t.lend = s.lend)
    ∧ ((∃ d, d < 4096 ∧ s.lend.descs.any (fun x => x.1 == d) = false) → need ≤ had.length →
      ∃ t d, exec (.pwTransmitPacket f bits stamp) s = .next t ∧ d < 4096 ∧ s.lend.descs.any (fun x => x.1 == d) = false
        ∧ t.fld (PW_STAT1 f) PW_STAT1_TX_SEQ = seq ∧ t.flag (PW_STAT f) PW_STAT_L_TX = l
        ∧ t.flag (LEND_DESC0 d) LEND_DESC0_VALID = true ∧ t.fld (LEND_DESC0 d) LEND_DESC0_FLOW = f.val
        ∧ t.fld (LEND_DESC0 d) LEND_DESC0_SEQ = seq ∧ tget t.lend.granted [] f = had.drop need
        ∧ (tget t.lend.descs ⟨[], 0, 0⟩ d).folios = had.take need
        ∧ (∀ a, (∀ k, k ∈ had.take need → ¬ (folioBase + 256 * k ≤ a ∧ a < folioBase + 256 * k + 256)) → t.byte a = s.byte a)
        ∧ Safety.onlyRegs [LEND_DESC0 d, LEND_DESC1 d, LEND_DESC2 d, LEND_DESC3 d, PW_STAT f, PW_STAT1 f, LEND_STAT, LEND_SHARED] s t))
  ∧ (∀ (s : State) (f : Fin 1024) (bits : List Bool) (stamp : Word), Safety.feedOk s (flowEp f) → s.nextPayload f bits = none →
    exec (.pwTransmitPacket f bits stamp) s = .next s)
  ∧ (∀ (s : State) (d : Fin 4096), s.lend.descs.any (fun x => x.1 == d.val) = true → s.running (islPK (s.flowHome (s.descFlow d))) = true →
    let p := s.flowHome (s.descFlow d)
    let x := tget s.lend.descs ⟨[], 0, 0⟩ d
    ∃ t, exec (.packetSent d) s = .next t ∧ t.lend.descs.any (fun y => y.1 == d.val) = false
      ∧ t.reg (LEND_DESC0 d) = 0 ∧ t.reg (LEND_DESC1 d) = 0 ∧ t.reg (LEND_DESC2 d) = 0 ∧ t.reg (LEND_DESC3 d) = 0
      ∧ t.reg LEND_RETURN_CNT = s.reg LEND_RETURN_CNT + BitVec.ofNat 32 x.folios.length
      ∧ (s.standby = false → tget t.lend.sent [] p = closeFrame (s.readFolios x.folios x.len)
          ∧ t.reg (PW_PORT_CNT p txOk) = s.reg (PW_PORT_CNT p txOk) + 1)
      ∧ (s.standby = true → t.lend.sent = s.lend.sent ∧ t.reg (PW_PORT_CNT p txOk) = s.reg (PW_PORT_CNT p txOk))
      ∧ Safety.onlyRegs [LEND_DESC0 d, LEND_DESC1 d, LEND_DESC2 d, LEND_DESC3 d, LEND_RETURN_CNT, LEND_STAT, LEND_SHARED,
          PW_PORT_CNT p txOk] s t ∧ Safety.sameMem s t)

/-- Folio grants, and the enabling, disabling and writing of a flow's entry. Of the requests of a cycle the lowest requester is served and
each other one counts a retry: a receiver's page gets a folio that nothing holds, mapped in its set, while its guarantee lasts, and
nothing from an empty pool; a transmitter one of the reserve. EN is set where the entry, its profile and the other flows allow it, with
0x3C0 and 0x3C5, and refused with 0x3C2 elsewhere; clearing it starts the draining with 0x3C1; all ones with TSF go towards the Index in
both. An enable of an enabled flow is answered OKAY where it changes nothing and refused otherwise. Other words are written only in an
idle flow, those of a profile only while no enabled flow uses it. The drain's timeout reclaims descriptors with 0x3E3, its completion
leaves the flow Idle with 0x3C3 (R209, R215, R216, R217, R218, R219, R222, R223). -/
def Obligations.FlowsAndGrants : Prop :=
  (∀ (s : State) (reqs : List FolioReq) (r : FolioReq), s.deskUp = true → r ∈ reqs →
    (∀ x, x ∈ reqs → x ≠ r → r.requester < x.requester) →
    (r.requester.val < 2 → s.mapOf r.flow r.vpage = none → r.vpage.val < 2 ^ s.fld (PW_CFG r.flow) PW_CFG_JB_LOG2 →
      s.flowFolios r.flow < s.guaranteeOf r.flow →
      (∃ k, k / 4 = mapSet r.flow r.vpage ∧ s.flag (LEND_MAP k) LEND_MAP_VALID = false) → (∃ j, j < 8192 ∧ j ∉ s.lentFolios) →
      ∃ t k j, exec (.folioGrant reqs) s = .next t ∧ k / 4 = mapSet r.flow r.vpage ∧ s.flag (LEND_MAP k) LEND_MAP_VALID = false
        ∧ j < 8192 ∧ j ∉ s.lentFolios ∧ t.reg (LEND_MAP k) = BitVec.ofNat 32 (2 ^ 31 + r.flow.val * 2 ^ 21 + r.vpage.val * 2 ^ 13 + j)
        ∧ t.flowFolios r.flow = s.flowFolios r.flow + 1 ∧ t.reg LEND_GRANT_CNT = s.reg LEND_GRANT_CNT + 1
        ∧ t.reg LEND_RETRY_CNT = s.reg LEND_RETRY_CNT + BitVec.ofNat 32 (reqs.length - 1)
        ∧ Safety.onlyRegs [LEND_MAP k, PW_STAT r.flow, LEND_GRANT_CNT, LEND_RETRY_CNT, LEND_STAT, LEND_SHARED] s t ∧ Safety.sameMem s t)
    ∧ (r.requester.val < 2 → s.mapOf r.flow r.vpage = none → r.vpage.val < 2 ^ s.fld (PW_CFG r.flow) PW_CFG_JB_LOG2 →
      s.guaranteeOf r.flow ≤ s.flowFolios r.flow → s.sharedFree = 0 →
      ∃ t, exec (.folioGrant reqs) s = .next t ∧ t.reg LEND_RETRY_CNT = s.reg LEND_RETRY_CNT + BitVec.ofNat 32 (reqs.length - 1)
        ∧ t.lend = s.lend ∧ Safety.onlyRegs [LEND_RETRY_CNT] s t ∧ Safety.sameMem s t)
    ∧ (2 ≤ r.requester.val → s.txFolios.length < s.fld LEND_CFG LEND_CFG_TX_RSV → (∃ j, j < 8192 ∧ j ∉ s.lentFolios) →
      ∃ t j, exec (.folioGrant reqs) s = .next t ∧ j < 8192 ∧ j ∉ s.lentFolios
        ∧ tget t.lend.granted [] r.flow = tget s.lend.granted [] r.flow ++ [j] ∧ t.reg LEND_GRANT_CNT = s.reg LEND_GRANT_CNT + 1
        ∧ Safety.onlyRegs [LEND_GRANT_CNT, LEND_RETRY_CNT, LEND_STAT, LEND_SHARED] s t ∧ Safety.sameMem s t))
  ∧ (∀ (s v : State) (f : Fin 1024) (q : Fin 2) (value : Word), Safety.granted (.service q) s v → v.running v.pwIsl = true →
    (v.flowEn f = false → v.flowDraining f = false →
      (let e := v.setReg (PW_CFG f) ((value ||| 1) &&& 0x7FFFFFFF); e.mayEnable e.enabledFlows f = true) →
      ∃ t l, exec (.flowEnable f (.service q) value) s = .next t ∧ t.mtx.resp = rOkay ∧ t.flowEn f = true ∧ t.flowState f = flFill
        ∧ t.flag (PW_STAT f) PW_STAT_R_TX = false ∧ (t.flow f).started = false ∧ (t.flow f).tsf = true
        ∧ t.reg (PW_CFG f) = (v.reg (PW_CFG f) &&& 0x80000000) ||| ((value ||| 1) &&& 0x7FFFFFFF)
        ∧ Safety.raised ((t.flowIsl f, 0x3C0) :: (t.flowIsl f, 0x3C5) :: l) v t ∧ Safety.sameMem v t
        ∧ Safety.onlyRegs [PW_CFG f, PW_STAT f, PW_PORT_STAT 0, PW_PORT_STAT 1, LEND_STAT, LEND_SHARED] v t)
    ∧ (v.flowEn f = false → (v.flowDraining f = true
        ∨ (let e := v.setReg (PW_CFG f) ((value ||| 1) &&& 0x7FFFFFFF); e.mayEnable e.enabledFlows f = false)) →
      ∃ t, exec (.flowEnable f (.service q) value) s = .next t ∧ t.mtx.resp = rRefused
        ∧ Safety.raised [(v.flowIsl f, 0x3C2), (islMX, 0x081)] v t ∧ Safety.onlyRegs [MTX_ERR_LAST, MTX_ERR_ADDR] v t
        ∧ Safety.sameMem v t)
    ∧ (v.flowEn f = true →
      ∃ t l, exec (.flowDisable f (.service q) value) s = .next t ∧ t.mtx.resp = rOkay ∧ t.flowEn f = false ∧ t.flowDraining f = true
        ∧ (t.flow f).tsf = true ∧ (t.flow f).out = List.replicate (8 * v.flowP f) true
        ∧ Safety.raised ((v.flowIsl f, 0x3C1) :: l) v t ∧ Safety.sameMem v t
        ∧ Safety.onlyRegs [PW_CFG f, PW_STAT f, PW_PORT_STAT 0, PW_PORT_STAT 1, LEND_STAT, LEND_SHARED] v t)
    ∧ (v.flowEn f = true →
      ∃ t, exec (.flowEnable f (.service q) value) s = .next t
        ∧ t.mtx.resp = (if (value ||| 1) &&& 0x7FFFFFFF = v.reg (PW_CFG f) then rOkay else rRefused)
        ∧ Safety.onlyRegs [MTX_ERR_LAST, MTX_ERR_ADDR] v t ∧ Safety.sameMem v t)
    ∧ (v.flowEn f = false → v.flowDraining f = false →
      ∃ t, exec (.flowDisable f (.service q) value) s = .next t ∧ t.mtx.resp = rOkay
        ∧ t.reg (PW_CFG f) = (v.reg (PW_CFG f) &&& 0x80000000) ||| (value &&& 0x7FFFFFFE)
        ∧ t.chan = v.chan ∧ Safety.onlyRegs [PW_CFG f] v t ∧ Safety.sameMem v t)
    ∧ (∀ word : Fin 16, 0 < word.val → word.val < 8 →
      (v.flowEn f = false → v.flowDraining f = false →
        ∃ t, exec (.flowEntryWrite false f word (.service q) value) s = .next t ∧ t.mtx.resp = rOkay
          ∧ t.reg (PW_CFG f + 4 * word.val) = (v.reg (PW_CFG f + 4 * word.val) &&& ~~~(flowMask word)) ||| (value &&& flowMask word)
          ∧ t.chan = v.chan ∧ Safety.onlyRegs [PW_CFG f + 4 * word.val] v t ∧ Safety.sameMem v t)
      ∧ (v.flowEn f = true ∨ v.flowDraining f = true →
        ∃ t, exec (.flowEntryWrite false f word (.service q) value) s = .next t ∧ t.mtx.resp = rRefused
          ∧ Safety.onlyRegs [MTX_ERR_LAST, MTX_ERR_ADDR] v t ∧ Safety.sameMem v t))
    ∧ (∀ (i : Fin 128) (word : Fin 16), (v.enabledFlows.any (fun g => decide (v.flowProf g = i.val)) = false →
        ∃ t, exec (.flowEntryWrite true (i.castLE (by decide)) word (.service q) value) s = .next t ∧ t.mtx.resp = rOkay
          ∧ t.reg (PW_PROF0 i + 4 * word.val) = (v.reg (PW_PROF0 i + 4 * word.val) &&& ~~~(profMask word)) ||| (value &&& profMask word)
          ∧ Safety.onlyRegs [PW_PROF0 i + 4 * word.val] v t ∧ Safety.sameMem v t)
      ∧ (v.enabledFlows.any (fun g => decide (v.flowProf g = i.val)) = true →
        ∃ t, exec (.flowEntryWrite true (i.castLE (by decide)) word (.service q) value) s = .next t ∧ t.mtx.resp = rRefused
          ∧ Safety.onlyRegs [MTX_ERR_LAST, MTX_ERR_ADDR] v t ∧ Safety.sameMem v t))
    ∧ exec (.flowEntryWrite false f 0 (.service q) value) v
        = (if value.toNat % 2 = 1 then exec (.flowEnable f (.service q) value) v else exec (.flowDisable f (.service q) value) v))
  ∧ (∀ (s : State) (f : Fin 1024), s.flowDraining f = true → s.flowDescs f ≠ [] → s.running islFM = true →
    ∃ t l, exec (.flowDrainTimeout f) s = .next t ∧ t.flowDescs f = []
      ∧ t.reg LEND_DRAIN_CNT = s.reg LEND_DRAIN_CNT + BitVec.ofNat 32 (s.flowDescs f).length
      ∧ (t.flow f).reclaimed = (s.flow f).reclaimed + (s.flowDescs f).length
      ∧ Safety.raised (l ++ [(islFM, 0x3E3)]) s t ∧ Safety.sameMem s t)
  ∧ (∀ (s : State) (f : Fin 1024), s.flowDraining f = true → s.flowDescs f = [] → s.running (s.flowIsl f) = true →
    ∃ t l, exec (.flowDrainComplete f) s = .next t ∧ t.flowState f = flIdle ∧ t.flowDraining f = false
      ∧ t.flag (PW_STAT f) PW_STAT_R_TX = false ∧ (t.flow f).started = false ∧ tget t.lend.granted [] f = []
      ∧ (s.flowIsl f, 0x3C3) ∈ l ∧ Safety.raised l s t ∧ Safety.sameMem s t
      ∧ Safety.regsOutside (fun a => a = PW_STAT f ∨ a = PW_STAT2 f ∨ Safety.lendRegs a) s t)

/-- The life of a timing reference, automatic selection and the selection commands. A reference in Wait whose conditions are good is
qualified at the end of its wait with 0x400. A failure leaves a qualified one qualified and withdraws it at once from the DPLLs on it,
which resume where it ends in time; after HOLDOFF_MS it is Failed with its cause and 0x401, and no DPLL without a forced holdover or
free-run stays on it. A failed one whose conditions clear waits WTR_S, or QUAL_S the first time, with 0x402, and a failure in Wait ends
the wait. The activity condition is that of the detector for references 10 to 14 and that of their ports for the others. A frequency
measurement shows its offset and counts consecutive ones beyond FREQ_LIM, and DPLL0 leaves Locked where its reference lies beyond 12 ppm
(judged at the measurement by the model's choice, log entry 129). At the selection tick a DPLL without a command takes, with REVERT at 1,
the first candidate by rank, priority and number; without a candidate one that was on a reference goes to Holdover, or to Free-run where
it has not been Locked long enough, and its standby to Free-run. Clear, forced, manual, forced holdover and forced free-run stand in
TIM_SEL_CMD with their result and 0x409, the last two acting at once; one that cannot be carried out changes only RESULT and leaves
selection automatic (log entry 76) (R229, R230, R233, R235, R256, R227, R231, R234, R236, R237). -/
def Obligations.ReferencesAndSelection : Prop :=
  ((∀ (s : State) (i : Fin 16), s.refUp i = true →
    (s.refState i = rfWait → s.refFails i = false →
      ∃ t, exec (.refQualify i) s = .next t ∧ t.refState i = rfQualified ∧ t.fld (TIM_REF_STAT i) TIM_REF_STAT_WAIT = 0
        ∧ (t.ref i).before = true ∧ Safety.raised [(islTM, 0x400)] s t ∧ Safety.onlyRegs [TIM_REF_STAT i] s t ∧ Safety.sameMem s t)
    ∧ (s.refState i = rfQualified → s.refFails i = true →
      ∃ t l, exec (.refHoldoffExpiry i) s = .next t ∧ t.refState i = rfFailed ∧ t.fld (TIM_REF_STAT i) TIM_REF_STAT_CAUSE = s.refCause i
        ∧ (s.flag TIM_STAT TIM_STAT_OCXO_FAULT = false → ∀ d, d < 2 → (s.dpll d).cmd < 3 → t.current d ≠ some i.val)
        ∧ Safety.raised ((islTM, 0x401) :: l) s t ∧ Safety.regsOutside Safety.timRegs s t ∧ Safety.sameMem s t)
    ∧ (s.refState i = rfFailed → (s.ref i).freqBad < 2 → (10 ≤ i.val ∧ i.val ≤ 14 ∨ s.refAct i = false) →
      ∃ t, exec (.refActivityFailure i false) s = .next t ∧ t.refState i = rfWait ∧ (t.ref i).act = false
        ∧ t.fld (TIM_REF_STAT i) TIM_REF_STAT_WAIT
            = (if (s.ref i).before then s.fld (TIM_REF_CFG i) TIM_REF_CFG_WTR_S else s.fld TIM_REF_TIMES TIM_REF_TIMES_QUAL_S)
        ∧ Safety.raised [(islTM, 0x402)] s t ∧ Safety.onlyRegs [TIM_REF_STAT i] s t ∧ Safety.sameMem s t)
    ∧ (s.refState i = rfWait → (10 ≤ i.val ∧ i.val ≤ 14 ∨ s.refAct i = true) →
      ∃ t, exec (.refActivityFailure i true) s = .next t ∧ t.refState i = rfFailed ∧ (t.ref i).act = true
        ∧ t.fld (TIM_REF_STAT i) TIM_REF_STAT_WAIT = 0 ∧ Safety.regsOutside Safety.timRegs s t ∧ Safety.sameMem s t)
    ∧ (s.refState i = rfQualified → (10 ≤ i.val ∧ i.val ≤ 14 ∨ s.refAct i = true) →
      ∃ t, exec (.refActivityFailure i true) s = .next t ∧ t.refState i = rfQualified ∧ (t.ref i).act = true ∧ t.chan = s.chan
        ∧ (s.current 0 = some i.val → t.selValid 0 = false) ∧ (s.current 1 = some i.val → t.selValid 1 = false)
        ∧ Safety.onlyRegs [TIM_STAT] s t ∧ Safety.sameMem s t)
    ∧ (s.refState i = rfQualified → (s.ref i).freqBad < 2 → (10 ≤ i.val ∧ i.val ≤ 14 ∨ s.refAct i = false) →
      ∃ t, exec (.refActivityFailure i false) s = .next t ∧ t.refState i = rfQualified ∧ (t.ref i).act = false ∧ t.chan = s.chan
        ∧ (s.current 0 = some i.val → t.selValid 0 = true) ∧ (s.current 1 = some i.val → t.selValid 1 = true)
        ∧ Safety.onlyRegs [TIM_STAT] s t ∧ Safety.sameMem s t)
    ∧ (∀ ppb : Int, s.refState i = rfQualified → s.dpState 0 = dpLocked → s.sel 0 = i.val → 12000 < ppb.natAbs →
      ∃ t l, exec (.refFreqMeasure i ppb) s = .next t ∧ t.dpState 0 = dpAcquiring ∧ t.flag TIM_STAT TIM_STAT_REF_OK = false
        ∧ Safety.raised ((islTM, 0x404) :: l) s t
        ∧ Safety.onlyRegs [TIM_REF_STAT i, TIM_STAT, TIM_DPLL_STAT 0] s t ∧ Safety.sameMem s t)
    ∧ (∀ ppb : Int, s.refState i = rfQualified → (s.dpState 0 ≠ dpLocked ∨ s.sel 0 ≠ i.val ∨ ppb.natAbs ≤ 12000) →
      ∃ t, exec (.refFreqMeasure i ppb) s = .next t ∧ t.refState i = rfQualified ∧ t.chan = s.chan
        ∧ (t.ref i).freqBad = (if 100 * (s.fld (TIM_REF_CFG i) TIM_REF_CFG_FREQ_LIM : Int) < (ppb.natAbs : Int)
            then min 2 ((s.ref i).freqBad + 1) else 0)
        ∧ (-131072 ≤ ppb → ppb ≤ 131071 → t.fld (TIM_REF_STAT i) TIM_REF_STAT_OFFSET = unsigned 18 ppb)
        ∧ Safety.onlyRegs [TIM_REF_STAT i, TIM_STAT] s t ∧ Safety.sameMem s t)))
  ∧ ((∀ (s : State), s.running islTM = true → s.flag TIM_STAT TIM_STAT_OCXO_FAULT = false →
    ∃ t, exec .refSelection s = .next t ∧ Safety.regsOutside Safety.timRegs s t ∧ Safety.sameMem s t
      ∧ (∀ d i, d < 2 → (s.dpll d).cmd = 0 → s.dpState d ≤ 3 → s.flag TIM_CFG TIM_CFG_REVERT = true → s.candidate d i = true → i < 16 →
          (∀ j, j < 16 → s.candidate d j = true → s.refOrder i ≤ s.refOrder j) →
          t.sel d = i ∧ t.selValid d = (!s.refFails i) ∧ t.current d = some i)
      ∧ (∀ d, d < 2 → (s.dpll d).cmd = 0 → (∀ j, j < 16 → s.candidate d j = false) → t.selValid d = false
          ∧ (s.dpState d = dpAcquiring ∨ s.dpState d = dpLocked → t.dpState d = (if s.dpRan d then dpHoldover else dpFree))
          ∧ t.dpState (d + 2) = dpFree))
  ∧ (∀ (s v : State) (w : Writer) (d : Fin 2) (ref : Fin 16) (token : Byte), Safety.granted w s v → v.running islTM = true →
    v.fld TIM_SEL_CMD TIM_SEL_CMD_TOKEN ≠ token.toNat →
    (∃ t l, exec (.selClear d w token) s = .next t ∧ t.mtx.resp = rOkay ∧ (t.dpll d).cmd = 0
      ∧ t.reg TIM_SEL_CMD = BitVec.ofNat 32 (token.toNat + 2048 * d.val) ∧ Safety.raised ((islTM, 0x409) :: l) v t
      ∧ Safety.regsOutside Safety.timRegs v t ∧ Safety.sameMem v t)
    ∧ (v.refPermitted d ref = true → (v.refState ref = rfWait ∨ v.refState ref = rfQualified) →
      ∃ t l, exec (.selForced d ref w token) s = .next t ∧ t.mtx.resp = rOkay ∧ (t.dpll d).cmd = 1 ∧ (t.dpll d).cmdRef = ref.val
        ∧ t.reg TIM_SEL_CMD = BitVec.ofNat 32 (token.toNat + 256 + 2048 * d.val + 4096 * ref.val + 65536)
        ∧ Safety.raised ((islTM, 0x409) :: l) v t ∧ Safety.regsOutside Safety.timRegs v t ∧ Safety.sameMem v t)
    ∧ (v.refPermitted d ref = true → v.refState ref = rfQualified → v.flag TIM_CFG TIM_CFG_QL_EN = false →
      ∃ t l, exec (.selManual d ref w token) s = .next t ∧ t.mtx.resp = rOkay ∧ (t.dpll d).cmd = 2 ∧ (t.dpll d).cmdRef = ref.val
        ∧ t.reg TIM_SEL_CMD = BitVec.ofNat 32 (token.toNat + 512 + 2048 * d.val + 4096 * ref.val + 65536)
        ∧ Safety.raised ((islTM, 0x409) :: l) v t ∧ Safety.regsOutside Safety.timRegs v t ∧ Safety.sameMem v t)
    ∧ (v.dpRan d = true →
      ∃ t, exec (.selForcedHoldover d w token) s = .next t ∧ t.mtx.resp = rOkay ∧ t.dpState d = dpHoldover ∧ t.selValid d = false
        ∧ t.reg TIM_SEL_CMD = BitVec.ofNat 32 (token.toNat + 768 + 2048 * d.val + 65536)
        ∧ Safety.regsOutside Safety.timRegs v t ∧ Safety.sameMem v t)
    ∧ (∃ t, exec (.selForcedFreeRun d w token) s = .next t ∧ t.mtx.resp = rOkay ∧ t.dpState d = dpFree ∧ t.selValid d = false
        ∧ t.reg TIM_SEL_CMD = BitVec.ofNat 32 (token.toNat + 1024 + 2048 * d.val + 65536)
        ∧ Safety.regsOutside Safety.timRegs v t ∧ Safety.sameMem v t)
    ∧ (∀ i : Instr, (i = .selForced d ref w token ∧ v.refPermitted d ref = false
          ∨ i = .selManual d ref w token ∧ v.refState ref ≠ rfQualified ∨ i = .selForcedHoldover d w token ∧ v.dpRan d = false) →
      ∃ t, exec i s = .next t ∧ t.fld TIM_SEL_CMD TIM_SEL_CMD_RESULT = 4 ∧ t.fld TIM_SEL_CMD TIM_SEL_CMD_TOKEN = v.fld TIM_SEL_CMD TIM_SEL_CMD_TOKEN
        ∧ (t.dpll d).cmd = 0 ∧ Safety.raised [(islTM, 0x409)] v t ∧ Safety.onlyRegs [TIM_SEL_CMD] v t ∧ Safety.sameMem v t)))

/-- The DPLLs, the OCXO, holdover, the learning FIFO, the model commit, and the report to SP. An OCXO fault puts every DPLL in Free-run,
withdraws REF_OK, HO_VALID and the anchor with 0x413, and its end raises it again. A DPLL locks, with its event, where its phase error is
within LOCK_NS, and DPLL0 where its reference is within 12 ppm, and loses its lock beyond four times LOCK_NS; DPLL0 takes REF_OK and the
clock quality along (that the standby DPLLs use LOCK_NS of those they stand by for is the model's choice, log entry 129). Anchor and limit
decide HO_VALID. A learning sample enters the FIFO, a core's read pops it, the bridge's does not. A commit is accepted for a copy that
passes and takes effect at the report. The report shows DPLL0's frequency: its loop's, the last one while its reference fails, the
predicted one in Holdover; DPLL1 rides on it with a slew within PSL, whose rate is a free value (log entry 130). It shows the temperature
of the sensor that TEMP_SRC selects, the mean of its readings over the last second, and holds it where that sensor is the thermistor and
at fault (log entry 131). It rejects a correction beyond 4.6 ppm and squelches without a reference or model (R34, R35, R228, R236, R237,
R238, R241, R243, R249, R250, R251, R252). -/
def Obligations.DpllsAndHoldover : Prop :=
  (∀ s : State, s.running islTM = true →
    (s.flag TIM_STAT TIM_STAT_OCXO_FAULT = false →
      ∃ t l, exec .ocxoFault s = .next t ∧ (∀ d, d < 4 → t.dpState d = dpFree) ∧ t.flag TIM_STAT TIM_STAT_OCXO_FAULT = true
        ∧ t.flag TIM_STAT TIM_STAT_REF_OK = false ∧ t.flag TIM_STAT TIM_STAT_HO_VALID = false
        ∧ t.flag TIM_HO_STAT TIM_HO_STAT_ANCHORED = false ∧ t.selValid 0 = false ∧ t.selValid 1 = false
        ∧ (islTM, 0x413) ∈ l ∧ Safety.raised l s t ∧ Safety.regsOutside Safety.timRegs s t ∧ Safety.sameMem s t)
    ∧ (s.flag TIM_STAT TIM_STAT_OCXO_FAULT = true →
      ∃ t l, exec .ocxoRecovery s = .next t ∧ t.flag TIM_STAT TIM_STAT_OCXO_FAULT = false ∧ (∀ d, t.dpState d = s.dpState d)
        ∧ Safety.raised ((islTM, 0x413) :: l) s t ∧ Safety.onlyRegs [TIM_STAT] s t ∧ Safety.sameMem s t)
    ∧ (∀ d : Fin 4, s.dpState d = dpAcquiring → (s.dpll d).err.natAbs ≤ s.lockWindow d →
        (d = 0 → (s.refOffset (s.sel 0)).natAbs ≤ 12000) →
      ∃ t l, exec (.dpllLock d) s = .next t ∧ t.dpState d = dpLocked
        ∧ (d = 0 → t.flag TIM_STAT TIM_STAT_REF_OK = true ∧ t.fld TIM_STAT TIM_STAT_CLOCK_QL = s.refQl (s.sel 0))
        ∧ Safety.raised ((islTM, 0x404 + min d.val 2) :: l) s t ∧ Safety.onlyRegs [TIM_DPLL_STAT d, TIM_STAT] s t ∧ Safety.sameMem s t)
    ∧ (∀ d : Fin 4, s.dpState d = dpLocked → 4 * s.lockWindow d < (s.dpll d).err.natAbs →
      ∃ t l, exec (.dpllLockLoss d) s = .next t ∧ t.dpState d = dpAcquiring
        ∧ (d = 0 → t.flag TIM_STAT TIM_STAT_REF_OK = false ∧ t.fld TIM_STAT TIM_STAT_CLOCK_QL = s.fld TIM_CFG TIM_CFG_OWN_QL)
        ∧ Safety.raised ((islTM, 0x404 + min d.val 2) :: l) s t ∧ Safety.onlyRegs [TIM_DPLL_STAT d, TIM_STAT] s t ∧ Safety.sameMem s t)
    ∧ (s.dpState 0 = dpLocked →
      ∃ t, exec .anchorSet s = .next t ∧ t.flag TIM_HO_STAT TIM_HO_STAT_ANCHORED = true
        ∧ t.flag TIM_STAT TIM_STAT_HO_VALID = (s.tm.modelOk && !s.flag TIM_STAT TIM_STAT_OCXO_FAULT)
        ∧ Safety.onlyRegs [TIM_HO_STAT, TIM_STAT] s t ∧ Safety.sameMem s t)
    ∧ (s.dpState 0 = dpHoldover →
      ∃ t, exec .holdoverLimit s = .next t ∧ t.flag TIM_STAT TIM_STAT_HO_VALID = false ∧ t.dpState 0 = dpHoldover
        ∧ Safety.onlyRegs [TIM_STAT] s t ∧ Safety.sameMem s t)
    ∧ (∀ fault : Bool, s.flag TIM_HO_STAT TIM_HO_STAT_TEMP_FAULT = (!fault) →
      ∃ t, exec (.tempSensorFault fault) s = .next t ∧ t.flag TIM_HO_STAT TIM_HO_STAT_TEMP_FAULT = fault
        ∧ Safety.raised [(islTM, 0x414)] s t ∧ Safety.onlyRegs [TIM_HO_STAT] s t ∧ Safety.sameMem s t)
    ∧ (∀ offset temp : Int,
      ∃ t, exec (.learningSample offset temp) s = .next t
        ∧ (s.tm.samples.length < 16 → t.tm.samples = s.tm.samples ++ [(offset, temp, decide (s.dpState 0 = dpLocked) && s.tm.learnClean
            && decide (s.refQl (s.sel 0) ≤ s.fld TIM_HO_CFG TIM_HO_CFG_LEARN_QL_MAX))])
        ∧ t.tm.samples.length ≤ 16 ∧ t.chan = s.chan
        ∧ Safety.onlyRegs [TIM_HO_SAMPLE 0, TIM_HO_SAMPLE 1] s t ∧ Safety.sameMem s t))
  ∧ (∀ s v : State, v = s.settleRegs → v.running islMX = true → v.running islTM = true →
    (∃ t, exec (.hoSamplePop false) s = .next t ∧ t.tm.samples = v.tm.samples.drop 1 ∧ t.chan = v.chan
        ∧ Safety.onlyRegs [TIM_HO_SAMPLE 0, TIM_HO_SAMPLE 1] v t ∧ Safety.sameMem v t)
    ∧ exec (.hoSamplePop true) s = .next v)
  ∧ (∀ (s v : State) (q : Fin 2) (token : Byte), Safety.granted (.service q) s v → v.running islTM = true →
    v.fld TIM_HO_CMD TIM_HO_CMD_TOKEN ≠ token.toNat →
      ∃ t, exec (.modelCommit (.service q) token) s = .next t ∧ t.mtx.resp = rOkay ∧ t.activeCopy = v.activeCopy
        ∧ (v.copyOk (1 - v.activeCopy) = true → t.tm.commit = true
            ∧ t.reg TIM_HO_CMD = BitVec.ofNat 32 (token.toNat + 256 + 65536) ∧ t.chan = v.chan)
        ∧ (v.copyOk (1 - v.activeCopy) = false → t.tm.commit = v.tm.commit ∧ t.fld TIM_HO_CMD TIM_HO_CMD_RESULT = 4
            ∧ Safety.raised [(islTM, 0x40E)] v t)
        ∧ Safety.onlyRegs [TIM_HO_CMD] v t ∧ Safety.sameMem v t)
  ∧ (∀ (s : State) (freq caseTemp ntcTemp : Int) (phases : List Int), s.running islTM = true →
    let ntc := s.flag TIM_HO_CFG TIM_HO_CFG_TEMP_SRC
    let readings := s.tm.temps.filter (fun x => decide (s.now < x.1 + 1000000000)) ++ [(s.now, if ntc then ntcTemp else caseTemp)]
    ∃ t, exec (.tmReport freq caseTemp ntcTemp phases) s = .next t ∧ t.tm.commit = false
      ∧ t.activeCopy = (if s.tm.commit then 1 - s.activeCopy else s.activeCopy)
      ∧ (s.dpState 0 = dpFree ∨ s.dpState 0 ≠ dpHoldover ∧ s.selValid 0 = true → t.reg (TIM_DPLL_FREQ 0) = BitVec.ofInt 32 freq)
      ∧ (s.dpState 0 ≠ dpFree → s.dpState 0 ≠ dpHoldover → s.selValid 0 = false →
          t.reg (TIM_DPLL_FREQ 0) = s.reg (TIM_DPLL_FREQ 0))
      ∧ (s.dpState 0 = dpHoldover →
          t.reg (TIM_DPLL_FREQ 0) = BitVec.ofInt 32 (-((s.commitTick).tickTemp caseTemp ntcTemp).predicted.1))
      ∧ (t.dpll 0).out = (s.dpll 0).out + 125 * (t.reg (TIM_DPLL_FREQ 0)).toInt
      ∧ (∃ r : Int, r.natAbs ≤ 1000 * s.fld TIM_DPLL_CFG1 TIM_DPLL_CFG1_PSL ∧ (s.selValid 1 = false → r = 0)
          ∧ t.reg (TIM_DPLL_FREQ 1) = BitVec.ofInt 32 ((t.reg (TIM_DPLL_FREQ 0)).toInt + r))
      ∧ t.reg TIM_HO_TEMP = BitVec.ofInt 32 t.tm.temp
      ∧ t.tm.temp = (if ntc && s.flag TIM_HO_STAT TIM_HO_STAT_TEMP_FAULT then s.tm.temp
          else (readings.map (fun x => x.2)).sum / (readings.length : Int))
      ∧ (4600000 < (t.reg (TIM_DPLL_FREQ 0)).toInt.natAbs → t.flag SUP_SAFETY_STAT SUP_SAFETY_STAT_CORR_REJ = true ∧ t.sp.corr = s.sp.corr)
      ∧ (t.flag TIM_STAT TIM_STAT_REF_OK = false → t.flag TIM_STAT TIM_STAT_HO_VALID = false →
          t.flag SUP_SAFETY_STAT SUP_SAFETY_STAT_SQUELCH = true)
      ∧ Safety.regsOutside (fun a => Safety.timRegs a ∨ a = SUP_SAFETY_STAT) s t ∧ Safety.sameMem s t)

/-- ESMC, PTP transmission, phase samples, time of day messages, and the latched time. An ESMC timeout is shown with 0x416; information
PDUs go out while ESMC_TX is set, and a write that changes TIM_ESMC_TX sends an event PDU. The head of an enabled port's transmit queue
goes out as its profile frames it and leaves a two-step timestamp. A phase sample of the selected port waits for the next tick, which,
where DPLL1 acquires on it and the error exceeds 1 us, steps the time by its whole nanoseconds with 0x410 beside a slew within PSL (a free
value, log entry 130); a ToD second steps it by whole seconds for reference 14, a malformed message raises 0x417. Reading TIM_TOD latches
its words (R232, R239, R245, R246, R247, R248, R346). -/
def Obligations.EsmcAndPtp : Prop :=
  (∀ (s : State) (p : Fin 2), s.running islTM = true →
    (s.flag (TIM_ESMC_RX p) TIM_ESMC_RX_TIMEOUT = false →
      ∃ t, exec (.esmcTimeout p) s = .next t ∧ t.flag (TIM_ESMC_RX p) TIM_ESMC_RX_TIMEOUT = true
        ∧ Safety.raised [(islTM, 0x416)] s t ∧ Safety.onlyRegs [TIM_ESMC_RX p] s t ∧ Safety.sameMem s t)
    ∧ (∃ t, exec (.esmcInformationPdu p) s = .next t ∧ Safety.onlyRegs [] s t ∧ Safety.sameMem s t ∧ t.chan = s.chan
        ∧ (s.flag (TIM_ESMC_TX p) TIM_ESMC_TX_ESMC_TX = true → tget t.tm.esmcOut [] p
            = esmcFrame (s.portMac p) false (s.fld (TIM_ESMC_TX p) TIM_ESMC_TX_SSM)
                (if s.flag (TIM_ESMC_TX p) TIM_ESMC_TX_SEND_TLV then some (s.fld (TIM_ESMC_TX p) TIM_ESMC_TX_ENH) else none))
        ∧ (s.flag (TIM_ESMC_TX p) TIM_ESMC_TX_ESMC_TX = false → t.tm = s.tm))
    ∧ (s.flag (TIM_PTP_PORT_CFG p) TIM_PTP_PORT_CFG_EN = true →
      let k := s.fld TIM_PTP_QPTR (txPtr p)
      let e := s.regBytes (TIM_PTP_TXQ p (32 * k)) 32
      let len := leNat (e.take 2)
      let flags := (e.getD 3 0).toNat
      ∃ t, exec (.ptpTransmit p) s = .next t ∧ t.fld TIM_PTP_QPTR (txPtr p) = (k + 1) % 64
        ∧ (34 ≤ len → len ≤ 112 → flags % 2 = 0 → s.flag (TIM_PTP_PORT_CFG p) TIM_PTP_PORT_CFG_PROFILE = false →
            tget t.tm.ptpOut [] p = s.ptpFrame p (slice e 4 4) (slice e 16 len))
        ∧ ((34 ≤ len ∧ len ≤ 112 ∧ flags / 2 % 2 = 1) → (tget s.tm.stamps [] p).length < 64 →
            (tget t.tm.stamps [] p).length = (tget s.tm.stamps [] p).length + 1)
        ∧ ((len < 34 ∨ 112 < len) → t.tm = s.tm ∧ t.chan = s.chan)
        ∧ Safety.onlyRegs [TIM_PTP_QPTR, TIM_PTP_TSF_OVF_CNT] s t ∧ Safety.sameMem s t))
  ∧ (∀ (s v : State) (p q : Fin 2) (value : Word), Safety.granted (.service q) s v → v.running islTM = true →
    (let x := (v.reg (TIM_ESMC_TX p) &&& ~~~0x3FF0F) ||| (value &&& 0x3FF0F)
      ∃ t, exec (.esmcTxWrite p (.service q) value) s = .next t ∧ t.mtx.resp = rOkay ∧ t.reg (TIM_ESMC_TX p) = x
        ∧ (x ≠ v.reg (TIM_ESMC_TX p) → TIM_ESMC_TX_ESMC_TX.get x = 1 → tget t.tm.esmcOut [] p
            = esmcFrame (v.portMac p) true (TIM_ESMC_TX_SSM.get x)
                (if TIM_ESMC_TX_SEND_TLV.get x = 1 then some (TIM_ESMC_TX_ENH.get x) else none))
        ∧ (x = v.reg (TIM_ESMC_TX p) → t.tm.esmcOut = v.tm.esmcOut)
        ∧ t.chan = v.chan ∧ Safety.onlyRegs [TIM_ESMC_TX p] v t ∧ Safety.sameMem v t)
    ∧ (∃ t, exec (.ptpPhaseSample p (.service q) value) s = .next t ∧ t.mtx.resp = rOkay ∧ t.reg (TIM_PTP_PHASE p) = value
        ∧ t.tm = (if v.sel 1 = 10 + p.val ∧ v.selValid 1 = true then { v.tm with phase := some value.toInt } else v.tm)
        ∧ t.chan = v.chan ∧ Safety.onlyRegs [TIM_PTP_PHASE p] v t ∧ Safety.sameMem v t))
  ∧ (∀ (s : State) (x : Int) (freq caseTemp ntcTemp : Int) (phases : List Int), s.running islTM = true →
    (s.sel 1 = 10 ∨ s.sel 1 = 11) → s.selValid 1 = true → s.dpState 1 = dpAcquiring → s.tm.phase = some x →
    1000000000000 < (x * 1953125 / 128).natAbs →
    ∃ t l m, exec (.tmReport freq caseTemp ntcTemp phases) s = .next t ∧ t.tm.phase = none
      ∧ (∃ slew : Int, slew.natAbs ≤ 1000 * s.fld TIM_DPLL_CFG1 TIM_DPLL_CFG1_PSL
          ∧ (t.dpll 1).out = (s.dpll 1).out - 1000000000 * (x * 1953125 / 128).tdiv 1000000000
              + 125 * ((t.reg (TIM_DPLL_FREQ 0)).toInt + slew))
      ∧ Safety.raised (l ++ (islTM, 0x410) :: m) s t ∧ Safety.sameMem s t)
  ∧ (∀ s : State, s.running islTM = true →
    (∃ t, exec (.todMessage none) s = .next t ∧ t.tm = s.tm ∧ Safety.raised [(islTM, 0x417)] s t ∧ Safety.onlyRegs [] s t ∧ Safety.sameMem s t)
    ∧ (∀ n : Nat, let err : Int := (n : Int) - ((s.ptpTime / 1000000000 : Nat) : Int)
      ∃ t, exec (.todMessage (some n)) s = .next t ∧ Safety.onlyRegs [] s t ∧ Safety.sameMem s t
        ∧ (s.sel 1 = 14 → s.selValid 1 = true → s.dpState 1 = dpAcquiring → err ≠ 0 →
            (t.dpll 1).out = (s.dpll 1).out + 1000000000000000000 * err ∧ Safety.raised [(islTM, 0x410)] s t)
        ∧ (s.sel 1 ≠ 14 → t.tm = s.tm ∧ t.chan = s.chan)))
  ∧ (∀ s v : State, v = s.settleRegs → v.running islMX = true → v.running islTM = true →
    ∃ t, exec .timTodRead s = .next t ∧ t.reg (TIM_TOD 0) = BitVec.ofNat 32 (v.ptpTime / 1000000000)
      ∧ t.reg (TIM_TOD 1) = BitVec.ofNat 32 (v.ptpTime / 1000000000 / 4294967296 % 65536)
      ∧ t.reg (TIM_TOD 2) = BitVec.ofNat 32 (v.ptpTime % 1000000000) ∧ t.chan = v.chan
      ∧ Safety.onlyRegs [TIM_TOD 0, TIM_TOD 1, TIM_TOD 2] v t ∧ Safety.sameMem v t)

/-- Tie lines, and the messages of the twin link that are sent and judged. TIE_HB_OUT carries low, LO, FS, SF or NR as the state and the
standing command say. A pulse of no valid width counts and ends acceptance, the third of one symbol in a row is accepted and TIE_OK rises;
silence ends it with 0x427. The messages due go out on their streams as words, with the next SEQ: a HEARTBEAT as header, payload word 1
and CRC-32C (the payload layouts that R267 names by content alone are free values, log entry 132). A HEARTBEAT accepted in order gives the
role and requests of the twin and, newly heard on aligned lanes, brings the link up with 0x423; a duplicate only counts; PAIR decides
MISMATCH, with 0x42E where it rises (R264, R265, R267, R268, R269, R271, R287). -/
def Obligations.TieLinesAndLinkMessages : Prop :=
  (∀ (s : State) (sym : Nat), s.sp.powered = true →
    (s.sp.powerFail ≠ .idle ∧ sym = 0
      ∨ s.sp.powerFail = .idle ∧ s.inState [stArmed, stServing, stLimp, stSafe] = true ∧ s.twnStanding = 1 ∧ sym = 4
      ∨ s.sp.powerFail = .idle ∧ s.inState [stArmed, stServing, stLimp, stSafe] = true ∧ s.twnStanding = 2 ∧ sym = 3
      ∨ s.sp.powerFail = .idle ∧ s.inState [stArmed, stSafe] = true ∧ s.twnStanding ≠ 1 ∧ s.twnStanding ≠ 2 ∧ sym = 2
      ∨ s.sp.powerFail = .idle ∧ s.live = true ∧ s.paired = false ∧ s.twnStanding ≠ 1 ∧ s.twnStanding ≠ 2 ∧ sym = 1) →
    ∃ t, exec .tieHeartbeatSend s = .next t ∧ t.fld TWN_TIE_STAT TWN_TIE_STAT_TX = sym ∧ t.chan = s.chan
      ∧ Safety.onlyRegs [TWN_TIE_STAT] s t ∧ Safety.sameMem s t)
  ∧ (∀ (s : State) (width : Nat), s.sp.dormant = false → s.paired = true →
    ((∀ k, 1 ≤ k → k ≤ 4 → 40 * width + 250 < 1000 * k ∨ 1000 * k + 250 < 40 * width) →
      ∃ t, exec (.tiePulse width) s = .next t ∧ t.reg TWN_TIE_ERR_CNT = s.reg TWN_TIE_ERR_CNT + 1 ∧ t.tw.tieRun = 0
        ∧ Safety.onlyRegs [TWN_TIE_STAT, TWN_TIE_ERR_CNT] s t ∧ Safety.sameMem s t)
    ∧ (∀ k, 1 ≤ k → k ≤ 4 → 1000 * k ≤ 40 * width + 250 → 40 * width ≤ 1000 * k + 250 →
      ∃ t, exec (.tiePulse width) s = .next t ∧ t.tw.tieSym = k ∧ Safety.sameMem s t
        ∧ (s.tw.tieSym ≠ k → t.tw.tieRun = 1 ∧ t.chan = s.chan ∧ Safety.onlyRegs [TWN_TIE_STAT] s t)
        ∧ (s.tw.tieSym = k → 2 ≤ s.tw.tieRun → t.fld TWN_TIE_STAT TWN_TIE_STAT_RX = k ∧ t.twn TWN_STAT_TIE_OK = true ∧ t.tw.known = true)
        ∧ Safety.regsOutside Safety.twinRegs s t))
  ∧ (∀ s : State, s.sp.dormant = false → s.twn TWN_STAT_TIE_OK = true →
    ∃ t l, exec .tieOkLoss s = .next t ∧ t.twn TWN_STAT_TIE_OK = false ∧ t.fld TWN_TIE_STAT TWN_TIE_STAT_RX = 0 ∧ t.tw.tieRun = 0
      ∧ Safety.raised ((islSP, 0x427) :: l) s t ∧ Safety.regsOutside Safety.twinRegs s t ∧ Safety.sameMem s t)
  ∧ (∀ s : State, s.linkRuns = true →
    (∃ t, exec .heartbeatSend s = .next t ∧ t.tw.tx0 = (s.tw.tx0 + 1) % 65536 ∧ t.chan = s.chan
      ∧ (let l := [BitVec.ofNat 64 (1 + 65536 * t.tw.tx0 + 4294967296 * s.tw.rx2 + 281474976710656), Heartbeat.word s.heartbeatWord]
        t.tw.out = [l ++ [(crc32c (l.flatMap (fun w => leBytes 8 w.toNat))).setWidth 64]])
      ∧ Safety.onlyRegs [] s t ∧ Safety.sameMem s t)
    ∧ (∃ t, exec .pairSend s = .next t ∧ t.tw.tx0 = (s.tw.tx0 + 1) % 65536 ∧ t.chan = s.chan
      ∧ t.tw.out = [(LinkMsg.pair (s.reg TWN_PAIR_ID) (s.reg TWN_PAIR_DIGEST) (s.reg TWN_CFG) (s.reg SUP_IDENT) s.senior).words
          0 t.tw.tx0 s.tw.rx2]
      ∧ Safety.onlyRegs [] s t ∧ Safety.sameMem s t)
    ∧ (s.senior = true → s.twn TWN_STAT_LINK_UP = true →
      ∃ t, exec .calSend s = .next t ∧ t.tw.tx0 = (s.tw.tx0 + 1) % 65536 ∧ t.chan = s.chan
        ∧ t.tw.out = [(LinkMsg.cal false (s.itcOf 20) 0).words 0 t.tw.tx0 s.tw.rx2]
        ∧ Safety.onlyRegs [] s t ∧ Safety.sameMem s t)
    ∧ (s.tw.unacked ≠ [] →
      (∃ t, exec .stream2Retransmit s = .next t ∧ t.tw.unacked = s.tw.unacked ∧ t.chan = s.chan
        ∧ t.tw.out = s.tw.unacked.map (fun p => p.2.words 2 p.1 s.tw.rx2)
        ∧ Safety.onlyRegs [] s t ∧ Safety.sameMem s t)
      ∧ (∃ t, exec .stream2AckTimeout s = .next t ∧ t.tw.snapshot = true ∧ t.flag TWN_SYNC_STAT TWN_SYNC_STAT_SYNC_C = false
        ∧ Safety.regsOutside Safety.twinRegs s t ∧ Safety.sameMem s t)))
  ∧ (∀ (s : State) (m : MsgHead) (hb : Heartbeat),
    (Safety.nextMsg s 0 m →
      ∃ t l, exec (.heartbeat m hb) s = .next t ∧ t.tw.rx0 = m.seq.toNat ∧ t.tw.heard = hb.heard.toNat
        ∧ t.fld TWN_STAT TWN_STAT_TWIN_ROLE = hb.role.val ∧ t.tw.req = hb.request.val ∧ t.tw.sym = hb.tie.val ∧ t.tw.known = true
        ∧ (s.twn TWN_STAT_LINK_UP = false → s.lanesAligned = true → hb.heard.toNat ≠ s.tw.heard →
            t.twn TWN_STAT_LINK_UP = true ∧ (20, 0x423) ∈ l)
        ∧ Safety.raised l s t ∧ Safety.regsOutside Safety.twinRegs s t ∧ Safety.sameMem s t)
    ∧ (s.linkRuns = true → ((m.seq.toNat + 65536 - s.tw.rx0) % 65536 = 0 ∨ 32768 ≤ (m.seq.toNat + 65536 - s.tw.rx0) % 65536) →
      ∃ t, exec (.heartbeat m hb) s = .next t ∧ t.tw = s.tw ∧ t.reg TWN_DUP_CNT = s.reg TWN_DUP_CNT + 1
        ∧ Safety.onlyRegs [TWN_DUP_CNT] s t ∧ Safety.sameMem s t))
  ∧ (∀ (s : State) (m : MsgHead) (id digest cfg ident : Word) (senior : Bool), Safety.nextMsg s 0 m →
    let bad := id ≠ s.reg TWN_PAIR_ID ∨ digest ≠ s.reg TWN_PAIR_DIGEST ∨ cfg ≠ s.reg TWN_CFG ∨ senior = s.senior
    ∃ t l, exec (.pair m id digest cfg ident senior) s = .next t ∧ t.tw.rx0 = m.seq.toNat ∧ (t.twn TWN_STAT_MISMATCH = true ↔ bad)
      ∧ (bad → s.twn TWN_STAT_MISMATCH = false → (20, 0x42E) ∈ l)
      ∧ Safety.raised l s t ∧ Safety.regsOutside Safety.twinRegs s t ∧ Safety.sameMem s t)

/-- Mirroring of classes A, B and C, and the errors of the twin link. At the sink a class A message takes over fills, pointers and the
adjustment state, a class B message time, phases, frequencies, flows and ports; SYNC_A stands after 16 aligned frames in a row and SYNC_B
after 8 periods, and falls with the run; an accepted class C message leaves SYNC_C, and what it says of an MSP group stands in APS_STAT.
The source sends on stream 1 and counts towards its own bits (its count is the model's reading, log entry 18); class C goes out while
fewer than 64 messages are unacknowledged. Each coding error and each lost lane alignment advances the link error count, quarantine begins
at 255, and 10 ms without one take one off; at 0 quarantine ends with 0x426 and mirroring starts over (R262, R268, R269, R270, R272,
R274). -/
def Obligations.MirroringAndLinkErrors : Prop :=
  (∀ (s : State) (m : MsgHead) (c : MirrorA), Safety.nextMsg s 1 m → s.mirrorSink = true → s.running islPX = true →
    let ok := c.phasePs.natAbs ≤ 4000 ∧ ∀ p, p ∈ c.paths → s.storeFill p.1 = p.2.1 ∧ s.ptrTx p.1 = p.2.2.1
    ∃ t, exec (.mirrorA m c) s = .next t ∧ t.tw.rx1 = m.seq.toNat
      ∧ (ok → t.tw.runA = min 16 (s.tw.runA + 1)) ∧ (¬ ok → t.tw.runA = 0)
      ∧ (t.flag TWN_SYNC_STAT TWN_SYNC_STAT_SYNC_A = true ↔ t.tw.runA = 16)
      ∧ (∀ x, c.paths = [x] → (t.path x.1).txGap = x.2.2.2.1 ∧ (t.path x.1).ndfPending = x.2.2.2.2)
      ∧ Safety.regsOutside (fun a => Safety.pathBlock a ∨ Safety.twinRegs a) s t ∧ Safety.sameMem s t)
  ∧ (∀ (s : State) (m : MsgHead) (c : MirrorB), Safety.nextMsg s 1 m → s.mirrorSink = true → s.running islTM = true →
    ∃ t, exec (.mirrorB m c) s = .next t ∧ t.tw.rx1 = m.seq.toNat ∧ (t.dpll 0).out = c.phase0
      ∧ (0 ≤ c.phase1 → c.phase1 < 1000000000 → t.ptpTime = c.ptpSeconds * 1000000000 + c.ptpNanos)
      ∧ t.reg (TIM_DPLL_FREQ 0) = BitVec.ofInt 32 c.freq0 ∧ t.reg (TIM_DPLL_FREQ 1) = BitVec.ofInt 32 c.freq1
      ∧ (c.flows = [] → c.tribs = [] → t.tw.runB = min 8 (s.tw.runB + 1))
      ∧ (t.flag TWN_SYNC_STAT TWN_SYNC_STAT_SYNC_B = true ↔ t.tw.runB = 8)
      ∧ Safety.regsOutside (fun a => a = TIM_DPLL_FREQ 0 ∨ a = TIM_DPLL_FREQ 1 ∨ Safety.twinRegs a
          ∨ ∃ f, f < 1024 ∧ (a = PW_STAT1 f ∨ a = PW_STAT2 f ∨ a = PW_STAT3 f)) s t ∧ Safety.sameMem s t)
  ∧ (∀ (s : State) (m : MsgHead) (recs : List MirrorRec), Safety.nextMsg s 2 m → s.mirrorSink = true →
    ∃ t, exec (.mirrorC m recs) s = .next t ∧ t.flag TWN_SYNC_STAT TWN_SYNC_STAT_SYNC_C = true
      ∧ (recs = [] → t.tw.rx2 = m.seq.toNat ∧ Safety.regsOutside Safety.twinRegs s t ∧ Safety.sameMem s t)
      ∧ (∀ (g : Fin 4) (mask value : Word), recs = [⟨BitVec.ofNat 32 (APS_STAT g), mask, value⟩] → s.running islPX = true →
          t.reg (APS_STAT g) = (s.reg (APS_STAT g) &&& ~~~mask) ||| (value &&& mask)))
  ∧ (∀ (s : State) (b : Bool), s.linkRuns = true → s.mirroring = true →
    ∃ t, exec (.mirrorSend b) s = .next t ∧ t.tw.tx1 = (s.tw.tx1 + 1) % 65536
      ∧ (b = false → t.tw.out.head? = some ((LinkMsg.mirrorA s.classA).words 1 t.tw.tx1 s.tw.rx2) ∧ t.tw.runA = min 16 (s.tw.runA + 1)
          ∧ (t.flag TWN_SYNC_STAT TWN_SYNC_STAT_SYNC_A = true ↔ t.tw.runA = 16))
      ∧ (b = true → t.tw.out.head? = some ((LinkMsg.mirrorB s.classB).words 1 t.tw.tx1 s.tw.rx2) ∧ t.tw.runB = min 8 (s.tw.runB + 1)
          ∧ (t.flag TWN_SYNC_STAT TWN_SYNC_STAT_SYNC_B = true ↔ t.tw.runB = 8))
      ∧ (64 ≤ s.tw.unacked.length → t.tw.unacked = s.tw.unacked)
      ∧ (s.tw.unacked.length < 64 → s.tw.snapshot = false → s.mirrorQ ≠ [] →
          t.tw.unacked = s.tw.unacked ++ [((s.tw.tx2 + 1) % 65536, .mirrorC (s.mirrorQ.take 127))] ∧ t.mirrorQ = s.mirrorQ.drop 127)
      ∧ Safety.regsOutside Safety.twinRegs s t ∧ Safety.sameMem s t)
  ∧ (∀ s : State, s.running 20 = true →
    (0 < s.fld TWN_LINK_ERR TWN_LINK_ERR_ERR →
      ∃ t, exec .linkErrorDecay s = .next t ∧ t.fld TWN_LINK_ERR TWN_LINK_ERR_ERR = s.fld TWN_LINK_ERR TWN_LINK_ERR_ERR - 1
        ∧ (s.fld TWN_LINK_ERR TWN_LINK_ERR_ERR = 1 → s.twn TWN_STAT_QUAR = true →
            t.twn TWN_STAT_QUAR = false ∧ t.flag TWN_SYNC_STAT TWN_SYNC_STAT_SYNC_A = false
              ∧ t.flag TWN_SYNC_STAT TWN_SYNC_STAT_SYNC_B = false ∧ t.flag TWN_SYNC_STAT TWN_SYNC_STAT_SYNC_C = false
              ∧ ∃ l, Safety.raised ((20, 0x426) :: l) s t)
        ∧ (s.fld TWN_LINK_ERR TWN_LINK_ERR_ERR ≠ 1 → t.chan = s.chan ∧ Safety.onlyRegs [TWN_LINK_ERR] s t)
        ∧ Safety.regsOutside Safety.twinRegs s t ∧ Safety.sameMem s t)
    ∧ (∃ t, exec .twinLinkCodingError s = .next t
        ∧ t.fld TWN_LINK_ERR TWN_LINK_ERR_ERR = min 255 (s.fld TWN_LINK_ERR TWN_LINK_ERR_ERR + 1)
        ∧ (254 ≤ s.fld TWN_LINK_ERR TWN_LINK_ERR_ERR → t.twn TWN_STAT_QUAR = true)
        ∧ (s.fld TWN_LINK_ERR TWN_LINK_ERR_ERR < 254 → t.chan = s.chan
            ∧ Safety.onlyRegs [TWN_LINK_ERR, TWN_LANE_STAT 0, TWN_LANE_STAT 1, TWN_LANE_STAT 2, TWN_LANE_STAT 3] s t)
        ∧ Safety.regsOutside Safety.twinRegs s t ∧ Safety.sameMem s t)
    ∧ (∀ (k : Fin 4) (lock aligned : Bool) (skew : Byte),
      ∃ t, exec (.twinLaneAlignment k lock aligned skew) s = .next t ∧ t.flag (TWN_LANE_STAT k) TWN_LANE_STAT_BLOCK_LOCK = lock
        ∧ t.flag (TWN_LANE_STAT k) TWN_LANE_STAT_ALIGNED = aligned ∧ t.fld (TWN_LANE_STAT k) TWN_LANE_STAT_SKEW = skew.toNat
        ∧ (s.flag (TWN_LANE_STAT k) TWN_LANE_STAT_ALIGNED = true → aligned = false →
            t.fld TWN_LINK_ERR TWN_LINK_ERR_ERR = min 255 (s.fld TWN_LINK_ERR TWN_LINK_ERR_ERR + 1))
        ∧ ((s.flag (TWN_LANE_STAT k) TWN_LANE_STAT_ALIGNED = false ∨ aligned = true) → Safety.onlyRegs [TWN_LANE_STAT k] s t ∧ t.chan = s.chan)
        ∧ Safety.regsOutside Safety.twinRegs s t ∧ Safety.sameMem s t))

/-- The transmit frame boundary, the frame timing of a twin, and delay calibration. A frame boundary advances the frame counter, and the
superframe number at counter 0, and the Active twin sends both in its sync pulse. Each enabled port sends the AU payload in its section
overhead, scrambled and with its lane's polarity: B1 and B2 over the frame it sent before (their bytes lie as G.707 lays them, log entry
120) and the K bytes in force. A twin that is not Active takes over counter and superframe number of a sync pulse, its frame timing
advanced by TWN_DELAY, and a missing one raises 0x431 and ends the run of class A. The senior takes the one-way delay of an echo,
corrected by SKEW_TRIM, and keeps CAL_OK while two results lie within 2 ns; the junior echoes a stamp. CAL_OK rising at the junior raises
0x430. (That the junior sets CAL_OK on a stamp is the choice of this model, log entry 54, and its TWN_DELAY is a free value, log entry
133.) (R121, R122, R131, R275, R362). -/
def Obligations.FrameTimingAndCalibration : Prop :=
  (∀ (s : State) (augs : List (List (List Byte))), s.running 20 = true →
    let n := (s.fld TWN_SYNC_STAT TWN_SYNC_STAT_FRAME + 1) % 48
    ∃ t, exec (.transmitFrameBoundary augs) s = .next t ∧ t.fld TWN_SYNC_STAT TWN_SYNC_STAT_FRAME = n ∧ t.tw.boundary = s.now
      ∧ t.tw.super = (if n = 0 then (s.tw.super + 1) % 65536 else s.tw.super) ∧ t.chan = s.chan
      ∧ t.tw.pulse = (if s.linkRuns = true ∧ s.role = roActive then some (n, t.tw.super) else none)
      ∧ (∀ p, p < 8 → s.lineUp p = true → s.reg (LINE_FORCE p) = 0 →
          let bs := (t.line p).tx.bytes (s.stmN p) false (s.txAugs p (augs.getD (s.txPort p) []))
          let lane := scrambleFrame (s.stmN p) (s.flag (LINE_CFG p) LINE_CFG_SCR_EN) bs
          (t.line p).txPar = some (bip8 lane, bip24 (s.stmN p) bs)
            ∧ (t.line p).sent = invertLane (s.flag (LINE_CFG p) LINE_CFG_TX_INV) lane
            ∧ (∀ b1 b2, (s.line p).txPar = some (b1, b2) → (t.line p).tx.b1 = b1 ∧ (t.line p).tx.b2 = b2)
            ∧ (t.line p).tx.k1 = BitVec.ofNat 8 (if (s.line p).kLate then (s.line p).kNow else s.reg (LINE_K_TX p)).toNat)
      ∧ Safety.regsOutside (fun a => a = TWN_SYNC_STAT ∨ ∃ e, e < 8 ∧ (a = FAC_TRIG_STAT e ∨ a = FAC_STAT e)) s t ∧ Safety.sameMem s t)
  ∧ (∀ s : State, s.linkRuns = true → s.role ≠ roActive →
    (∀ (frame : Fin 48) (super : BitVec 16),
      ∃ t, exec (.syncPulse frame super) s = .next t ∧ t.fld TWN_SYNC_STAT TWN_SYNC_STAT_FRAME = frame.val ∧ t.tw.super = super.toNat
        ∧ t.tw.boundary = ((s.now : Int) - (s.reg TWN_DELAY).toInt / 1000).toNat ∧ t.chan = s.chan ∧ Safety.onlyRegs [TWN_SYNC_STAT] s t ∧ Safety.sameMem s t)
    ∧ (∃ t, exec .syncPulseMissing s = .next t ∧ t.tw.runA = 0 ∧ Safety.raised [(20, 0x431)] s t ∧ Safety.onlyRegs [] s t
        ∧ Safety.sameMem s t))
  ∧ (∀ (s : State) (m : MsgHead) (stamp turnaround : Nat), Safety.nextMsg s 0 m →
    (s.senior = true →
      let trim := signed 16 (s.fld TWN_SKEW TWN_SKEW_SKEW_TRIM)
      let d := ((s.itcOf 20 : Int) - stamp - turnaround) * 1000 / 2 + (if s.role = roActive then trim else -trim)
      ∃ t, exec (.cal m true stamp turnaround) s = .next t ∧ t.reg TWN_DELAY = BitVec.ofInt 32 d ∧ t.tw.calLast = some d
        ∧ (s.tw.calLast = none → t.flag TWN_SYNC_STAT TWN_SYNC_STAT_CAL_OK = true)
        ∧ (∀ p, s.tw.calLast = some p → (t.flag TWN_SYNC_STAT TWN_SYNC_STAT_CAL_OK = true ↔ (d - p).natAbs ≤ 2000))
        ∧ Safety.regsOutside Safety.twinRegs s t ∧ Safety.sameMem s t)
    ∧ (s.senior = false →
      ∃ t x l l', exec (.cal m false stamp turnaround) s = .next t ∧ t.tw.out = [(LinkMsg.cal true stamp x).words 0 t.tw.tx0 s.tw.rx2]
        ∧ t.tw.tx0 = (s.tw.tx0 + 1) % 65536
        ∧ t.flag TWN_SYNC_STAT TWN_SYNC_STAT_CAL_OK = true
        ∧ Safety.raised (l ++ (if s.flag TWN_SYNC_STAT TWN_SYNC_STAT_CAL_OK then [] else [(20, 0x430)]) ++ l') s t
        ∧ Safety.regsOutside Safety.twinRegs s t ∧ Safety.sameMem s t))

/-- Commanded switches, SF and SD of a twin. The Active twin that a commanded switch with HITLESS leaves schedules the first frame 0 at
least 1 ms away and sends HANDOVER, towards the other equipment, with 0x43E once stream 2 takes a message; its Standby notes the frame.
Before it, the Active twin lowers its claim once nothing of class C is outstanding and the Standby raises its own; at the frame the roles
change with 0x420 and 0x42C and the switch counts. A twin with SF against itself becomes Observer, drops its claim and sends a HEARTBEAT
that says so. SD is kept as it comes (R257, R259, R261, R269, R277, R278). -/
def Obligations.RolesAndHandover : Prop :=
  (∀ s : State, s.linkRuns = true → s.tw.handover ≠ none →
    (s.role = roActive →
      (s.tw.unacked = [] → s.mirrorQ = [] →
        ∃ t, exec .handoverClaimTime s = .next t ∧ t.flag SUP_SAFETY_STAT SUP_SAFETY_STAT_CLAIM_OUT = false
          ∧ t.flag SUP_SAFETY_STAT SUP_SAFETY_STAT_SHARED_EN = false ∧ t.role = roActive
          ∧ Safety.raised (if s.flag SUP_SAFETY_STAT SUP_SAFETY_STAT_CLAIM_OUT then [(islSP, 0x422)] else []) s t
          ∧ Safety.regsOutside (fun a => a = SUP_SAFETY_STAT ∨ Safety.tribTx a) s t ∧ Safety.sameMem s t)
      ∧ (s.flag SUP_SAFETY_STAT SUP_SAFETY_STAT_CLAIM_OUT = false →
        ∃ t, exec .handoverFrame s = .next t ∧ t.role = roStandby ∧ t.tw.handover = none
          ∧ t.reg TWN_EQ_SWITCH_CNT = s.reg TWN_EQ_SWITCH_CNT + 1 ∧ Safety.raised [(20, 0x420), (20, 0x42C)] s t
          ∧ Safety.regsOutside Safety.twinRegs s t ∧ Safety.sameMem s t))
    ∧ (s.role = roStandby →
      (∃ t, exec .handoverClaimTime s = .next t ∧ t.flag SUP_SAFETY_STAT SUP_SAFETY_STAT_CLAIM_OUT = true ∧ t.role = roStandby
        ∧ Safety.raised (if s.flag SUP_SAFETY_STAT SUP_SAFETY_STAT_CLAIM_OUT then [] else [(islSP, 0x421)]) s t
        ∧ Safety.regsOutside (fun a => a = SUP_SAFETY_STAT ∨ Safety.tribTx a) s t ∧ Safety.sameMem s t)
      ∧ (s.flag SUP_SAFETY_STAT SUP_SAFETY_STAT_CLAIM_OUT = true →
        ∃ t, exec .handoverFrame s = .next t ∧ t.role = roActive ∧ t.tw.handover = none
          ∧ t.reg TWN_EQ_SWITCH_CNT = s.reg TWN_EQ_SWITCH_CNT + 1 ∧ Safety.raised [(20, 0x420), (20, 0x42C)] s t
          ∧ Safety.regsOutside Safety.twinRegs s t ∧ Safety.sameMem s t)))
  ∧ (∀ (s : State) (order : Nat), s.linkRuns = true → s.role = roActive → s.twn TWN_STAT_HITLESS = true → s.twn TWN_STAT_MISMATCH = false →
    s.tw.handover = none → s.tw.unacked.length < 64 → s.twn TWN_STAT_EQ_SEL = s.senior → s.fld TWN_STAT TWN_STAT_EQ_REQ = order →
    (order = 2 ∨ order = 7 ∨ order = 8 ∨ order = 10) →
    let f := (s.tw.super + (if 1000000 ≤ 125000 * (48 - s.fld TWN_SYNC_STAT TWN_SYNC_STAT_FRAME) - (s.now - s.tw.boundary) then 1 else 2)) % 65536
    ∃ t, exec .commandedSwitch s = .next t ∧ t.tw.handover = some f ∧ t.tw.tx2 = (s.tw.tx2 + 1) % 65536
      ∧ t.tw.out = [(LinkMsg.handover (BitVec.ofNat 22 f) s.senior).words 2 t.tw.tx2 s.tw.rx2]
      ∧ t.tw.unacked = s.tw.unacked ++ [(t.tw.tx2, .handover (BitVec.ofNat 22 f) s.senior)]
      ∧ Safety.raised [(20, 0x43E)] s t ∧ Safety.onlyRegs [TWN_SYNC_STAT] s t ∧ Safety.sameMem s t)
  ∧ (∀ (s : State) (m : MsgHead) (frame : BitVec 22), Safety.nextMsg s 2 m → s.role = roStandby → s.twn TWN_STAT_MISMATCH = false →
    ∃ t, exec (.handover m frame (!s.senior)) s = .next t ∧ t.tw.handover = some frame.toNat ∧ t.tw.rx2 = m.seq.toNat
      ∧ Safety.raised [(20, 0x43E)] s t ∧ Safety.onlyRegs [TWN_SYNC_STAT] s t ∧ Safety.sameMem s t)
  ∧ (∀ (s : State) (on : Bool), s.linkRuns = true →
    ∃ t, exec (.twinSdCondition on) s = .next t ∧ t.tw.sd = on ∧ Safety.regsOutside Safety.twinRegs s t ∧ Safety.sameMem s t)
  ∧ (∀ s : State, s.running 20 = true → s.paired = true → (s.live = false ∨ s.sp.powerFail ≠ .idle) →
    ∃ t, exec .twinSf s = .next t ∧ t.role = roObserver ∧ t.flag SUP_SAFETY_STAT SUP_SAFETY_STAT_CLAIM_OUT = false
      ∧ (s.linkRuns = true → ∃ hb : Heartbeat, t.tw.out = [(LinkMsg.heartbeat hb).words 0 t.tw.tx0 s.tw.rx2] ∧ hb.role.val = roObserver ∧ hb.claim = false)
      ∧ Safety.regsOutside Safety.twinRegs s t ∧ Safety.sameMem s t)

/-- Claims without contact, claims at the same instant, and the equipment commands. Of two claims at one instant the junior backs off with
0x433, and a silent junior yields; the senior does neither. The senior, the junior whose claim line stays low, and an Observer that has
not heard its twin since Serving claim alone: Active, SOLO, 0x420 and 0x432. Clear, LO, FS and the manual switches stand in TWN_CMD with
0x42D; a manual switch without HITLESS gets 0x05, any command in an unpaired module 0x04, changing only RESULT. The end of the equipment
wait raises 0x43D (R258, R263, R279, R280, R281, R287, R289). -/
def Obligations.ClaimsAndEquipmentCommands : Prop :=
  (∀ s : State, s.running 20 = true → s.paired = true → s.senior = false → s.role = roActive →
    (s.flag SUP_SAFETY_STAT SUP_SAFETY_STAT_CLAIM_IN = true → s.flag SUP_SAFETY_STAT SUP_SAFETY_STAT_CLAIM_OUT = true →
      ∃ t, exec .sameInstantClaim s = .next t ∧ t.role = roStandby ∧ t.flag SUP_SAFETY_STAT SUP_SAFETY_STAT_CLAIM_OUT = false
        ∧ Safety.raised [(20, 0x420), (islSP, 0x422), (20, 0x433)] s t ∧ Safety.regsOutside Safety.twinRegs s t ∧ Safety.sameMem s t)
    ∧ (s.twn TWN_STAT_SILENT = true →
      ∃ t, exec .juniorYield s = .next t ∧ t.role = roStandby ∧ t.flag SUP_SAFETY_STAT SUP_SAFETY_STAT_CLAIM_OUT = false
        ∧ Safety.regsOutside Safety.twinRegs s t ∧ Safety.sameMem s t))
  ∧ (∀ s : State, s.senior = true → exec .sameInstantClaim s = .next s ∧ exec .juniorYield s = .next s ∧ exec .juniorSoloClaim s = .next s)
  ∧ (∀ (s : State) (i : Instr), s.mayClaim = true → s.role ≠ roActive →
    (i = .seniorSoloClaim ∧ s.senior = true ∧ s.twn TWN_STAT_SILENT = true
      ∨ i = .juniorSoloClaim ∧ s.senior = false ∧ s.twn TWN_STAT_SILENT = true ∧ s.claimLowSince s.tw.silentAt = true
      ∨ i = .startWaitExpiry ∧ s.role = roObserver ∧ s.tw.known = false ∧ s.twn TWN_STAT_MISMATCH = false
        ∧ (s.senior = true ∨ s.claimLowSince s.tw.servedAt = true)) →
    ∃ t, exec i s = .next t ∧ t.role = roActive ∧ t.twn TWN_STAT_SOLO = true ∧ t.flag SUP_SAFETY_STAT SUP_SAFETY_STAT_CLAIM_OUT = true
      ∧ Safety.raised ((20, 0x420) :: (if s.flag SUP_SAFETY_STAT SUP_SAFETY_STAT_CLAIM_OUT then [] else [(islSP, 0x421)]) ++ [(20, 0x432)]) s t
      ∧ Safety.regsOutside Safety.twinRegs s t ∧ Safety.sameMem s t)
  ∧ (∀ (s v : State) (w : Writer) (token : Byte), Safety.granted w s v → v.running 20 = true → v.fld TWN_CMD TWN_CMD_TOKEN ≠ token.toNat →
    (v.paired = true → v.twnStanding = 0 → v.twinOrders = [] →
      (∀ i cmd res, (i = .twnClear w token ∧ cmd = 0 ∧ res = 2 ∨ i = .twnLo w token ∧ cmd = 1 ∧ res = 1 ∨ i = .twnFs w token ∧ cmd = 2 ∧ res = 1) →
        ∃ t l, exec i s = .next t ∧ t.mtx.resp = rOkay ∧ t.reg TWN_CMD = BitVec.ofNat 32 (token.toNat + 256 * cmd + 65536 * res)
          ∧ Safety.raised ((20, 0x42D) :: l) v t ∧ Safety.regsOutside Safety.twinRegs v t ∧ Safety.sameMem v t)
      ∧ (∀ i cmd, (i = .twnMsJ w token ∧ cmd = 3 ∨ i = .twnMsS w token ∧ cmd = 4) →
        (v.twn TWN_STAT_HITLESS = true →
          ∃ t l, exec i s = .next t ∧ t.mtx.resp = rOkay ∧ t.fld TWN_CMD TWN_CMD_CMD = cmd ∧ t.fld TWN_CMD TWN_CMD_TOKEN = token.toNat
            ∧ Safety.raised ((20, 0x42D) :: l) v t ∧ Safety.regsOutside Safety.twinRegs v t ∧ Safety.sameMem v t)
        ∧ (v.twn TWN_STAT_HITLESS = false →
          ∃ t, exec i s = .next t ∧ t.fld TWN_CMD TWN_CMD_RESULT = 5 ∧ t.fld TWN_CMD TWN_CMD_TOKEN = v.fld TWN_CMD TWN_CMD_TOKEN
            ∧ Safety.raised [(20, 0x42D)] v t ∧ Safety.onlyRegs [TWN_CMD] v t ∧ Safety.sameMem v t)))
    ∧ (v.paired = false → ∀ i, (i = .twnClear w token ∨ i = .twnLo w token ∨ i = .twnFs w token ∨ i = .twnMsJ w token ∨ i = .twnMsS w token) →
        ∃ t, exec i s = .next t ∧ t.fld TWN_CMD TWN_CMD_RESULT = 4 ∧ t.fld TWN_CMD TWN_CMD_TOKEN = v.fld TWN_CMD TWN_CMD_TOKEN
          ∧ Safety.raised [(20, 0x42D)] v t ∧ Safety.onlyRegs [TWN_CMD] v t ∧ Safety.sameMem v t))
  ∧ (∀ s : State, s.running 20 = true → s.twn TWN_STAT_WTR = true →
    ∃ t l, exec .equipmentWtrExpiry s = .next t ∧ (s.tw.seniorFault = false → t.twn TWN_STAT_WTR = false)
      ∧ Safety.raised ((20, 0x43D) :: l) s t ∧ Safety.regsOutside Safety.twinRegs s t ∧ Safety.sameMem s t)

/-- A step runs the command at the front of the queue. For every command and state, the step of a state whose queue has the command at its
front is exec of that command on the state with the rest of the queue. That commands wait in a queue is the choice of this model, log
entry 2 (What each step holds (95_what_each_step_holds.md)). -/
def Obligations.StepRunsTheFrontCommand : Prop :=
  ∀ (c : Instr) (rest : List Instr) (s : State), step { s with pending := c :: rest } = exec c { s with pending := rest }

/-- An empty queue only lets time pass, and what reset leaves. On an empty queue a step changes nothing but true time, which goes on by
one tick. At reset the queue is empty, the module is Dormant, no event waits, memory lists nothing, every register reads its reset word,
and every table is canonical. The tick and the reset values that the spec does not give are choices of this model, log entries 2, 3 and 8
(R14, R409, R411). -/
def Obligations.IdleStepAndReset : Prop :=
  (∀ s : State, s.pending = [] → step s = .next { s with now := s.now + Config.tickNs })
  ∧ State.reset.pending = [] ∧ State.reset.life = stDormant ∧ State.reset.mem = [] ∧ State.reset.chan = []
  ∧ (∀ a, State.reset.reg a = resetWord a) ∧ Safety.canonical State.reset

/-- Words of the core instructions, written from R295 and R296, decode to what they stand for. A word of each format decodes to the
instruction it stands for: LUI, LW, SW, SUB, AMO_SWAP, BEQ, JAL, DONE and RAISE; OP 0, an FN that OP 0x20 does not have, and LUI with ga
not 0 are illegal (R295, R296). -/
def Obligations.CoreWords : Prop :=
  ∀ q : Fin 2, decodeCore q 0x1CA04011 = some (.lui q 5 0x4011) ∧ decodeCore q 0x20C50104 = some (.lw q 6 5 0x0104)
    ∧ decodeCore q 0x34E50108 = some (.sw q 7 5 0x0108) ∧ decodeCore q 0x80430801 = some (.sub q 2 3 1)
    ∧ decodeCore q 0x84221800 = some (.amoSwap q 1 2 3) ∧ decodeCore q 0x43E10FFF = some (.beq q 31 1 0x0FFF)
    ∧ decodeCore q 0x58000001 = some (.jal q 1) ∧ decodeCore q 0xFC000001 = some (.done q) ∧ decodeCore q 0xFC011006 = some (.raise q 1 2)
    ∧ decodeCore q 0x00000000 = none ∧ decodeCore q 0x8000000E = none ∧ decodeCore q 0x1CA14011 = none

/-- Decoding and encoding of the core instructions agree, both ways. For every well-formed core instruction with every operand at every
value, decoding its word gives it back; and every word that decodes is the word of the instruction it decodes to, which is well formed, so
each word has one meaning (R295, R296). -/
def Obligations.CoreInstructionsRoundTrip : Prop :=
  (∀ (i : Instr) (q : Fin 2) (w : Word), i.wf = true → encodeCore i = some (q, w) → decodeCore q w = some i)
  ∧ (∀ (q : Fin 2) (w : Word) (i : Instr), decodeCore q w = some i → encodeCore i = some (q, w) ∧ i.wf = true)

/-- Every command answers a next state, and no step stops. Whatever the state, every command answers a next state, leaves the queue of
waiting commands as it is and takes no true time; so no step of the module ends in a fault or a refusal (What each step holds
(95_what_each_step_holds.md)). -/
def Obligations.EveryCommandCompletes : Prop :=
  (∀ (i : Instr) (s : State), ∃ t, exec i s = .next t ∧ t.pending = s.pending ∧ t.now = s.now) ∧ (∀ s : State, ¬ Safety.stops s)

/-- 217 kinds of command change no byte of memory and not the life cycle. Every command but the 71 kinds that start, stop or reset
something, access memory or registers at large, take a rung of the timeout ladder or record in memory leaves every byte of memory, the
status word of the supervisor and the life cycle state as they are (R14, R97). -/
def Obligations.QuietCommandsKeepMemoryAndLifeCycle : Prop :=
  ∀ (i : Instr) (s : State), Safety.quiet i = true →
    ∃ t, exec i s = .next t ∧ Safety.sameMem s t ∧ t.reg SUP_STATE = s.reg SUP_STATE ∧ t.sp.dormant = s.sp.dormant ∧ t.life = s.life

/-- Every step keeps the canonical form of memory and registers. From every state whose memory lists rising addresses and no zero byte,
and whose register table lists rising addresses and no reset word, a step answers a state of which the same holds: equal memories and
register files are equal data. The unlisted value of a byte is the choice of this model, log entry 8 (R3, R97, R409). -/
def Obligations.CanonicalFormKept : Prop :=
  ∀ s t : State, Safety.canonical s → step s = .next t → Safety.canonical t

/-- g0, the link of JAL, wrapping arithmetic, and division by zero. g0 reads 0 and every write to it is ignored, in each instruction with
a result; JAL writes its link to g31 and to no other register; ADD, SUB, MUL and ADDI wrap modulo 2^32; DIVU by zero gives 0xFFFFFFFF and
REMU by zero the dividend (R294). -/
def Obligations.GeneralRegisterRules : Prop :=
  (∀ (c : Core) (v : Word), c.get 0 = 0 ∧ c.put 0 v = c)
  ∧ (∀ (s : State) (q : Fin 2), s.mayExec q = true →
    (∀ i : Instr, (∃ ga gb : Fin 32, i ∈ [.add q 0 ga gb, .sub q 0 ga gb, .and q 0 ga gb, .or q 0 ga gb, .xor q 0 ga gb, .sll q 0 ga gb,
          .srl q 0 ga gb, .sra q 0 ga gb, .slt q 0 ga gb, .sltu q 0 ga gb, .mul q 0 ga gb, .mulhu q 0 ga gb, .divu q 0 ga gb, .remu q 0 ga gb])
        ∨ (∃ (ga : Fin 32) (imm : BitVec 16), i ∈ [.addi q 0 ga imm, .andi q 0 ga imm, .ori q 0 ga imm, .xori q 0 ga imm, .slti q 0 ga imm,
          .lui q 0 imm, .jalr q 0 ga imm]) →
      ∃ t, exec i s = .next t ∧ ∀ r, (t.core q).get r = (s.core q).get r)
    ∧ (∀ off : BitVec 26, ∃ t, exec (.jal q off) s = .next t ∧ (t.core q).get 31 = (s.core q).pc + 4
        ∧ ∀ r, r ≠ 31 → (t.core q).get r = (s.core q).get r)
    ∧ (∀ gd ga gb : Fin 32, gd ≠ 0 →
      let a := ((s.core q).get ga).toNat
      let b := ((s.core q).get gb).toNat
      (∃ t, exec (.add q gd ga gb) s = .next t ∧ ((t.core q).get gd).toNat = (a + b) % 2 ^ 32)
      ∧ (∃ t, exec (.sub q gd ga gb) s = .next t ∧ ((t.core q).get gd).toNat = (a + 2 ^ 32 - b) % 2 ^ 32)
      ∧ (∃ t, exec (.mul q gd ga gb) s = .next t ∧ ((t.core q).get gd).toNat = (a * b) % 2 ^ 32)
      ∧ (∀ imm : BitVec 16, ∃ t, exec (.addi q gd ga imm) s = .next t
          ∧ (((t.core q).get gd).toNat : Int) = ((a : Int) + imm.toInt) % 2 ^ 32)
      ∧ (b = 0 → (∃ t, exec (.divu q gd ga gb) s = .next t ∧ (t.core q).get gd = 0xFFFFFFFF)
          ∧ (∃ t, exec (.remu q gd ga gb) s = .next t ∧ (t.core q).get gd = (s.core q).get ga))))

/-- SUP_SCRATCH holds any value and has no effect. SUP_SCRATCH lies at offset 0x008C of SUP and reads 0 at reset. A maintenance write of
any word to it while the bridge is unlocked stores that word, is answered OKAY and changes nothing else in the module; a read through the
SPI port then returns the word (R415). -/
def Obligations.ScratchRegister : Prop :=
  SUP_SCRATCH = 0x40000000 + 0x008C ∧ State.reset.reg SUP_SCRATCH = 0
  ∧ (∀ (s : State) (v : Word), s.running islEH = true → s.unlocked = true → s.maintained = true → s.running islSP = true → s.mtx.txns = [] →
    exec (.registerWrite .maintenance (BitVec.ofNat 32 SUP_SCRATCH) v) s = .next ((s.setReg SUP_SCRATCH v).respond rOkay)
    ∧ (s.flag EVT_CFG EVT_CFG_SPI_EN = true →
      ∃ t, exec (.spiRead (BitVec.ofNat 32 SUP_SCRATCH)) (s.setReg SUP_SCRATCH v) = .next t
        ∧ t.mg.reply = [0xA5, BitVec.ofNat 8 (v.toNat / 2 ^ 24), BitVec.ofNat 8 (v.toNat / 2 ^ 16), BitVec.ofNat 8 (v.toNat / 2 ^ 8),
            BitVec.ofNat 8 v.toNat, 0]))

/-- Where the boot ROM and working SRAM answer before and after SWAP. Before SWAP an aligned read at 0x0000_0000 to 0x0000_7FFF returns
the boot ROM and one at 0x1000_0000 to 0x1007_FFFF working SRAM; after it working SRAM answers at 0x0000_0000 to 0x0007_FFFF and the boot
ROM at 0x1000_0000 to 0x1000_7FFF. Reads and writes at every other address of either window get an error response, the one for a malformed
request where they are not aligned to their size (R61). -/
def Obligations.RemapOfRomAndSram : Prop :=
  ∀ (s : State) (port a n : Nat) (bs : List (Option Byte)),
    let refusal (k : Nat) := if a % k = 0 then rDecode else rMalformed
    (s.flag MTX_REMAP MTX_REMAP_SWAP = false →
      (a < 0x8000 → a % n = 0 → (s.readAt port a n).1.mtx.resp = rOkay
          ∧ (s.readAt port a n).2 = (List.range n).map (fun i => Config.bootRom (a + i)))
      ∧ (0x10000000 ≤ a → a ≤ 0x1007FFFF → a % n = 0 → (s.readAt port a n).1.mtx.resp = rOkay ∧ (s.readAt port a n).2 = s.bytes a n)
      ∧ (0x8000 ≤ a → a < 0x80000 → (s.readAt port a n).1.mtx.resp = refusal n ∧ (s.writeAt port a bs).mtx.resp = refusal bs.length))
    ∧ (s.flag MTX_REMAP MTX_REMAP_SWAP = true →
      (a ≤ 0x7FFFF → a % n = 0 → (s.readAt port a n).1.mtx.resp = rOkay ∧ (s.readAt port a n).2 = s.bytes (sramBase + a) n)
      ∧ (0x10000000 ≤ a → a ≤ 0x10007FFF → a % n = 0 → (s.readAt port a n).1.mtx.resp = rOkay
          ∧ (s.readAt port a n).2 = (List.range n).map (fun i => Config.bootRom (a - 0x10000000 + i)))
      ∧ (0x10008000 ≤ a → a < 0x10080000 → (s.readAt port a n).1.mtx.resp = refusal n
          ∧ (s.writeAt port a bs).mtx.resp = refusal bs.length))

/-- A write to MTX_FENCE without GO or with the stored token has no effect. A permitted write to MTX_FENCE whose TOKEN equals the stored
one, or whose GO is 0 with any TOKEN, is answered OKAY and leaves the whole state as it is, MTX_FENCE with its TOKEN and RESULT included:
no fence is requested (R111). -/
def Obligations.FenceWritesWithoutEffect : Prop :=
  ∀ (s : State) (token : Byte) (go : Bool), Safety.mayCommand .maintenance s → s.running islMX = true →
    (go = false ∨ s.fld MTX_FENCE MTX_FENCE_TOKEN = token.toNat) →
    exec (.mtxFenceGo .maintenance token go) s = .next (s.respond rOkay)
end

