-- ==== Sys2Proof/Laws/Tables.lean ====
section
/-! SUPPORT. What the sparse tables do: reading after writing, and the canonical form that every table operation keeps. -/

namespace Sys2Proof.Machine

variable {α : Type}

@[simp] theorem tget_nil (d : α) (k : Nat) : tget [] d k = d := rfl

theorem tget_cons (j : Nat) (v : α) (r : Tbl α) (d : α) (k : Nat) :
    tget ((j, v) :: r) d k = if j = k then v else tget r d k := rfl

/-- Reading key `k` where no entry has it gives the default. -/
theorem tget_eq_default {t : Tbl α} {d : α} {k : Nat} (h : ∀ p ∈ t, p.1 ≠ k) : tget t d k = d := by
  induction t with
  | nil => rfl
  | cons p r ih =>
    obtain ⟨j, v⟩ := p
    have hj : j ≠ k := h (j, v) (by simp)
    rw [tget_cons, if_neg hj]
    exact ih (fun q hq => h q (by simp [hq]))

theorem tget_filter_true {t : Tbl α} {d : α} {k : Nat} {f : Nat × α → Bool} (h : ∀ p, p.1 = k → f p = true) :
    tget (t.filter f) d k = tget t d k := by
  induction t with
  | nil => rfl
  | cons p r ih =>
    obtain ⟨j, v⟩ := p
    by_cases hj : j = k
    · have hf : f (j, v) = true := h (j, v) hj
      rw [List.filter_cons_of_pos hf, tget_cons, tget_cons, if_pos hj, if_pos hj]
    · by_cases hf : f (j, v) = true
      · rw [List.filter_cons_of_pos hf, tget_cons, tget_cons, if_neg hj, if_neg hj, ih]
      · rw [List.filter_cons_of_neg hf, tget_cons, if_neg hj, ih]

theorem tget_filter_false {t : Tbl α} {d : α} {k : Nat} {f : Nat × α → Bool} (h : ∀ p, p.1 = k → f p = false) :
    tget (t.filter f) d k = d := by
  apply tget_eq_default
  intro p hp hk
  rw [List.mem_filter] at hp
  rw [h p hk] at hp
  exact absurd hp.2 (by simp)

@[simp] theorem tget_terase_self (t : Tbl α) (d : α) (k : Nat) : tget (terase t k) d k = d := by
  apply tget_filter_false
  intro p hp
  simp [hp]

theorem tget_terase_ne (t : Tbl α) (d : α) {j k : Nat} (h : j ≠ k) : tget (terase t j) d k = tget t d k := by
  apply tget_filter_true
  intro p hp
  simp [hp, Ne.symm h]

theorem tget_tinsert_ne (t : Tbl α) (d v : α) {j k : Nat} (h : j ≠ k) : tget (tinsert t j v) d k = tget t d k := by
  induction t with
  | nil => simp [tinsert, tget_cons, h]
  | cons p r ih =>
    obtain ⟨i, w⟩ := p
    by_cases hi : j < i
    · simp [tinsert, hi, tget_cons, h]
    · rw [tinsert, if_neg hi, tget_cons, tget_cons, ih]

theorem tget_tinsert_self {t : Tbl α} {d v : α} {k : Nat} (h : ∀ p ∈ t, p.1 ≠ k) : tget (tinsert t k v) d k = v := by
  induction t with
  | nil => simp [tinsert, tget_cons]
  | cons p r ih =>
    obtain ⟨i, w⟩ := p
    have hi : i ≠ k := h (i, w) (by simp)
    by_cases hk : k < i
    · simp [tinsert, hk, tget_cons]
    · simp only [tinsert, if_neg hk, tget_cons, if_neg hi]
      exact ih (fun q hq => h q (by simp [hq]))

theorem terase_ne {t : Tbl α} {k : Nat} : ∀ p ∈ terase t k, p.1 ≠ k := by
  intro p hp
  have := (List.mem_filter.mp hp).2
  simpa using this

/-- Reading the key just written gives the value written, in any table. -/
@[simp] theorem tget_tset_self [DecidableEq α] (t : Tbl α) (d : α) (k : Nat) (v : α) : tget (tset t d k v) d k = v := by
  unfold tset
  split
  · next h => simp [h]
  · exact tget_tinsert_self terase_ne

/-- Writing one key leaves every other one alone. -/
theorem tget_tset_ne [DecidableEq α] (t : Tbl α) (d : α) {j k : Nat} (v : α) (d' : α) (h : j ≠ k) :
    tget (tset t d j v) d' k = tget t d' k := by
  unfold tset
  split
  · exact tget_terase_ne t d' h
  · rw [tget_tinsert_ne _ _ _ h, tget_terase_ne _ _ h]

/-! ### The canonical form -/

theorem rising_cons {j : Nat} {v : α} {r : Tbl α} : rising ((j, v) :: r) = true ↔ (∀ p ∈ r, j < p.1) ∧ rising r = true := by
  simp [rising]

theorem rising_filter {t : Tbl α} {f : Nat × α → Bool} (h : rising t = true) : rising (t.filter f) = true := by
  induction t with
  | nil => rfl
  | cons p r ih =>
    obtain ⟨j, v⟩ := p
    rw [rising_cons] at h
    by_cases hf : f (j, v) = true
    · rw [List.filter_cons_of_pos hf, rising_cons]
      exact ⟨fun q hq => h.1 q (List.mem_of_mem_filter hq), ih h.2⟩
    · rw [List.filter_cons_of_neg hf]
      exact ih h.2

theorem mem_tinsert {t : Tbl α} {k : Nat} {v : α} {p : Nat × α} (h : p ∈ tinsert t k v) : p = (k, v) ∨ p ∈ t := by
  induction t with
  | nil => left; simpa [tinsert] using h
  | cons q r ih =>
    obtain ⟨i, w⟩ := q
    by_cases hk : k < i
    · simpa [tinsert, hk] using h
    · rw [tinsert, if_neg hk, List.mem_cons] at h
      rcases h with h | h
      · right; simp [h]
      · rcases ih h with h | h
        · left; exact h
        · right; simp [h]

theorem rising_tinsert {t : Tbl α} {k : Nat} {v : α} (h : rising t = true) (hk : ∀ p ∈ t, p.1 ≠ k) :
    rising (tinsert t k v) = true := by
  induction t with
  | nil => rfl
  | cons q r ih =>
    obtain ⟨i, w⟩ := q
    have hr := rising_cons.mp h
    have hi : i ≠ k := hk (i, w) (by simp)
    by_cases hlt : k < i
    · rw [tinsert, if_pos hlt, rising_cons]
      refine ⟨fun p hp => ?_, h⟩
      rcases List.mem_cons.mp hp with rfl | hp
      · exact hlt
      · exact lt_trans hlt (hr.1 p hp)
    · rw [tinsert, if_neg hlt, rising_cons]
      refine ⟨fun p hp => ?_, ih hr.2 (fun p hp => hk p (by simp [hp]))⟩
      rcases mem_tinsert hp with rfl | hp
      · simp only
        omega
      · exact hr.1 p hp

theorem tableWf_iff [DecidableEq α] {t : Tbl α} {d : Nat → α} :
    tableWf t d = true ↔ rising t = true ∧ ∀ p ∈ t, p.2 ≠ d p.1 := by
  simp [tableWf]

theorem tableWf_nil [DecidableEq α] (d : Nat → α) : tableWf ([] : Tbl α) d = true := rfl

theorem tableWf_filter [DecidableEq α] {t : Tbl α} {d : Nat → α} {f : Nat × α → Bool} (h : tableWf t d = true) :
    tableWf (t.filter f) d = true := by
  rw [tableWf_iff] at h ⊢
  exact ⟨rising_filter h.1, fun p hp => h.2 p (List.mem_of_mem_filter hp)⟩

/-- Writing a key keeps the canonical form: the default removes the entry. -/
theorem tableWf_tset [DecidableEq α] {t : Tbl α} {d : Nat → α} (k : Nat) (v : α) (h : tableWf t d = true) :
    tableWf (tset t (d k) k v) d = true := by
  unfold tset
  split
  · exact tableWf_filter h
  · next hv =>
    have he : tableWf (terase t k) d = true := tableWf_filter h
    rw [tableWf_iff] at he ⊢
    refine ⟨rising_tinsert he.1 terase_ne, fun p hp => ?_⟩
    rcases mem_tinsert hp with rfl | hp
    · exact hv
    · exact he.2 p hp

end Sys2Proof.Machine
end

