-- ==== Sys2Proof/Laws/Fields.lean ====
section
/-! SUPPORT. Bit fields of a word, and reading a register after writing one (R3, R409). -/

namespace Sys2Proof.Machine

theorem Fld.get_eq (f : Fld) (w : Word) : f.get w = w.toNat / 2 ^ f.lo % 2 ^ f.len := by
  rw [Fld.get, Nat.shiftRight_eq_div_pow]

theorem Fld.testBit_get (f : Fld) (w : Word) (i : Nat) : (f.get w).testBit i = (decide (i < f.len) && w.getLsbD (f.lo + i)) := by
  simp [Fld.get, Nat.testBit_mod_two_pow, BitVec.getLsbD]

theorem Fld.getLsbD_put (f : Fld) (w : Word) (v i : Nat) (hi : i < 32) : (f.put w v).getLsbD i =
    if f.lo ≤ i ∧ i < f.lo + f.len then v.testBit (i - f.lo) else w.getLsbD i := by
  have hm : (f.mask).testBit i = decide (f.lo ≤ i ∧ i < f.lo + f.len) := by
    simp only [Fld.mask, Nat.testBit_shiftLeft, Nat.testBit_two_pow_sub_one]
    by_cases h : f.lo ≤ i <;> simp [h]
    omega
  have hv : ((v % 2 ^ f.len) <<< f.lo).testBit i = (decide (f.lo ≤ i ∧ i < f.lo + f.len) && v.testBit (i - f.lo)) := by
    simp only [Nat.testBit_shiftLeft, Nat.testBit_mod_two_pow]
    by_cases h : f.lo ≤ i <;> simp [h]
    by_cases h2 : i < f.lo + f.len
    · simp [h2, show i - f.lo < f.len by omega]
    · simp [h2, show ¬ i - f.lo < f.len by omega]
  simp only [Fld.put, BitVec.getLsbD_or, BitVec.getLsbD_and, BitVec.getLsbD_not, BitVec.getLsbD_ofNat, hm, hv, hi, decide_true,
    Bool.true_and]
  by_cases h : f.lo ≤ i ∧ i < f.lo + f.len
  · simp [h]
  · simp only [decide_eq_false h, if_neg h]
    simp

/-- A field reads the low bits of what was put into it. -/
theorem Fld.get_put_self {f : Fld} (hf : f.lo + f.len ≤ 32) (w : Word) (v : Nat) : f.get (f.put w v) = v % 2 ^ f.len := by
  apply Nat.eq_of_testBit_eq
  intro i
  rw [Fld.testBit_get, Nat.testBit_mod_two_pow]
  by_cases h : i < f.len
  · rw [Fld.getLsbD_put _ _ _ _ (by omega), if_pos (by omega)]
    simp
  · simp [h]

/-- A field keeps its value where another field is put. -/
theorem Fld.get_put_ne {f g : Fld} (h : f.lo + f.len ≤ g.lo ∨ g.lo + g.len ≤ f.lo) (w : Word) (v : Nat) :
    f.get (g.put w v) = f.get w := by
  apply Nat.eq_of_testBit_eq
  intro i
  rw [Fld.testBit_get, Fld.testBit_get]
  by_cases hi : i < f.len
  · by_cases h32 : f.lo + i < 32
    · rw [Fld.getLsbD_put _ _ _ _ h32, if_neg (by omega)]
    · rw [BitVec.getLsbD_of_ge _ _ (by omega), BitVec.getLsbD_of_ge _ _ (by omega)]
  · simp [hi]

variable (s : State) (a b : Nat)

@[simp] theorem reg_setReg_self (w : Word) : (s.setReg a w).reg a = w := by
  simp [State.reg, State.setReg]

theorem reg_setReg_ne {a b : Nat} (w : Word) (h : a ≠ b) : (s.setReg a w).reg b = s.reg b :=
  tget_tset_ne _ _ _ _ h

/-- Reading any register after writing one. -/
theorem reg_setReg (w : Word) : (s.setReg a w).reg b = if a = b then w else s.reg b := by
  by_cases h : a = b
  · subst h; simp
  · rw [reg_setReg_ne s w h, if_neg h]

theorem reg_setFld (f : Fld) (v : Nat) : (s.setFld a f v).reg b = if a = b then f.put (s.reg a) v else s.reg b := reg_setReg s a b _

theorem reg_setFld_ne {a b : Nat} (f : Fld) (v : Nat) (h : a ≠ b) : (s.setFld a f v).reg b = s.reg b := reg_setReg_ne s _ h

@[simp] theorem reg_count_self (n : Nat) : (s.count a n).reg a = s.reg a + BitVec.ofNat 32 n := by simp [State.count]

theorem reg_count_ne {a b : Nat} (n : Nat) (h : a ≠ b) : (s.count a n).reg b = s.reg b := reg_setReg_ne s _ h

/-- A field after it was set, where the value fits. -/
theorem fld_setFld_self {f : Fld} (hf : f.lo + f.len ≤ 32) (v : Nat) : (s.setFld a f v).fld a f = v % 2 ^ f.len := by
  simp [State.fld, State.setFld, Fld.get_put_self hf]

/-- A field after another field of the same register was set. -/
theorem fld_setFld_other {f g : Fld} (h : f.lo + f.len ≤ g.lo ∨ g.lo + g.len ≤ f.lo) (v : Nat) :
    (s.setFld a g v).fld a f = s.fld a f := by
  simp [State.fld, State.setFld, Fld.get_put_ne h]

/-- A field after a write to another register. -/
theorem fld_setFld_ne {a b : Nat} (f g : Fld) (v : Nat) (h : a ≠ b) : (s.setFld a g v).fld b f = s.fld b f := by
  simp [State.fld, reg_setFld_ne s g v h]

theorem fld_setReg_ne {a b : Nat} (f : Fld) (w : Word) (h : a ≠ b) : (s.setReg a w).fld b f = s.fld b f := by
  simp [State.fld, reg_setReg_ne s w h]

@[simp] theorem fld_setReg_self (f : Fld) (w : Word) : (s.setReg a w).fld a f = f.get w := by simp [State.fld]

/-- A flag after it was set or cleared. -/
theorem flag_setFlag_self {f : Fld} (hf : f.lo + f.len ≤ 32) (hl : f.len = 1) (v : Bool) : (s.setFlag a f v).flag a f = v := by
  simp only [State.flag, State.setFlag, fld_setFld_self s a hf, hl]
  cases v <;> rfl

theorem flag_setFlag_other {f g : Fld} (h : f.lo + f.len ≤ g.lo ∨ g.lo + g.len ≤ f.lo) (v : Bool) :
    (s.setFlag a g v).flag a f = s.flag a f := by
  simp only [State.flag, State.setFlag, fld_setFld_other s a h]

theorem flag_setFlag_ne {a b : Nat} (f g : Fld) (v : Bool) (h : a ≠ b) : (s.setFlag a g v).flag b f = s.flag b f := by
  simp only [State.flag, State.setFlag, fld_setFld_ne s f g _ h]

theorem flag_setFld_ne {a b : Nat} (f g : Fld) (v : Nat) (h : a ≠ b) : (s.setFld a g v).flag b f = s.flag b f := by
  simp only [State.flag, fld_setFld_ne s f g _ h]

theorem flag_setFld_other {f g : Fld} (h : f.lo + f.len ≤ g.lo ∨ g.lo + g.len ≤ f.lo) (v : Nat) :
    (s.setFld a g v).flag a f = s.flag a f := by
  simp only [State.flag, fld_setFld_other s a h]

theorem flag_setReg_ne {a b : Nat} (f : Fld) (w : Word) (h : a ≠ b) : (s.setReg a w).flag b f = s.flag b f := by
  simp only [State.flag, fld_setReg_ne s f w h]

end Sys2Proof.Machine
end

