-- ==== Sys2Proof/Laws/State.lean ====
section
/-! SUPPORT. What each named update of the state leaves alone, field by field and read by read: each by rfl. -/

namespace Sys2Proof.Machine

variable (s : State)

@[simp] theorem pending_setReg (a : Nat) (w : Word) : (s.setReg a w).pending = s.pending := rfl
@[simp] theorem now_setReg (a : Nat) (w : Word) : (s.setReg a w).now = s.now := rfl
@[simp] theorem free_setReg (a : Nat) (w : Word) : (s.setReg a w).free = s.free := rfl
@[simp] theorem mem_setReg (a : Nat) (w : Word) : (s.setReg a w).mem = s.mem := rfl
@[simp] theorem itc_setReg (a : Nat) (w : Word) : (s.setReg a w).itc = s.itc := rfl
@[simp] theorem chan_setReg (a : Nat) (w : Word) : (s.setReg a w).chan = s.chan := rfl
@[simp] theorem firsts_setReg (a : Nat) (w : Word) : (s.setReg a w).firsts = s.firsts := rfl
@[simp] theorem wins_setReg (a : Nat) (w : Word) : (s.setReg a w).wins = s.wins := rfl
@[simp] theorem sp_setReg (a : Nat) (w : Word) : (s.setReg a w).sp = s.sp := rfl
@[simp] theorem ld_setReg (a : Nat) (w : Word) : (s.setReg a w).ld = s.ld := rfl
@[simp] theorem mtx_setReg (a : Nat) (w : Word) : (s.setReg a w).mtx = s.mtx := rfl
@[simp] theorem eh_setReg (a : Nat) (w : Word) : (s.setReg a w).eh = s.eh := rfl
@[simp] theorem inv_setReg (a : Nat) (w : Word) : (s.setReg a w).inv = s.inv := rfl
@[simp] theorem mg_setReg (a : Nat) (w : Word) : (s.setReg a w).mg = s.mg := rfl
@[simp] theorem tm_setReg (a : Nat) (w : Word) : (s.setReg a w).tm = s.tm := rfl
@[simp] theorem mirrorQ_setReg (a : Nat) (w : Word) : (s.setReg a w).mirrorQ = s.mirrorQ := rfl
@[simp] theorem lines_setReg (a : Nat) (w : Word) : (s.setReg a w).lines = s.lines := rfl
@[simp] theorem paths_setReg (a : Nat) (w : Word) : (s.setReg a w).paths = s.paths := rfl
@[simp] theorem kept_setReg (a : Nat) (w : Word) : (s.setReg a w).kept = s.kept := rfl
@[simp] theorem engines_setReg (a : Nat) (w : Word) : (s.setReg a w).engines = s.engines := rfl
@[simp] theorem tribs_setReg (a : Nat) (w : Word) : (s.setReg a w).tribs = s.tribs := rfl
@[simp] theorem flows_setReg (a : Nat) (w : Word) : (s.setReg a w).flows = s.flows := rfl
@[simp] theorem tw_setReg (a : Nat) (w : Word) : (s.setReg a w).tw = s.tw := rfl
@[simp] theorem msp_setReg (a : Nat) (w : Word) : (s.setReg a w).msp = s.msp := rfl
@[simp] theorem lend_setReg (a : Nat) (w : Word) : (s.setReg a w).lend = s.lend := rfl
@[simp] theorem cores_setReg (a : Nat) (w : Word) : (s.setReg a w).cores = s.cores := rfl
@[simp] theorem tasks_setReg (a : Nat) (w : Word) : (s.setReg a w).tasks = s.tasks := rfl
@[simp] theorem turns_setReg (a : Nat) (w : Word) : (s.setReg a w).turns = s.turns := rfl
@[simp] theorem chk_setReg (a : Nat) (w : Word) : (s.setReg a w).chk = s.chk := rfl
@[simp] theorem wtrs_setReg (a : Nat) (w : Word) : (s.setReg a w).wtrs = s.wtrs := rfl
@[simp] theorem byte_setReg (a : Nat) (w : Word) (b : Nat) : (s.setReg a w).byte b = s.byte b := rfl
@[simp] theorem core_setReg (a : Nat) (w : Word) (q : Nat) : (s.setReg a w).core q = s.core q := rfl
@[simp] theorem task_setReg (a : Nat) (w : Word) (t : Nat) : (s.setReg a w).task t = s.task t := rfl
@[simp] theorem pending_setFld (a : Nat) (f : Fld) (v : Nat) : (s.setFld a f v).pending = s.pending := rfl
@[simp] theorem now_setFld (a : Nat) (f : Fld) (v : Nat) : (s.setFld a f v).now = s.now := rfl
@[simp] theorem free_setFld (a : Nat) (f : Fld) (v : Nat) : (s.setFld a f v).free = s.free := rfl
@[simp] theorem mem_setFld (a : Nat) (f : Fld) (v : Nat) : (s.setFld a f v).mem = s.mem := rfl
@[simp] theorem itc_setFld (a : Nat) (f : Fld) (v : Nat) : (s.setFld a f v).itc = s.itc := rfl
@[simp] theorem chan_setFld (a : Nat) (f : Fld) (v : Nat) : (s.setFld a f v).chan = s.chan := rfl
@[simp] theorem firsts_setFld (a : Nat) (f : Fld) (v : Nat) : (s.setFld a f v).firsts = s.firsts := rfl
@[simp] theorem wins_setFld (a : Nat) (f : Fld) (v : Nat) : (s.setFld a f v).wins = s.wins := rfl
@[simp] theorem sp_setFld (a : Nat) (f : Fld) (v : Nat) : (s.setFld a f v).sp = s.sp := rfl
@[simp] theorem ld_setFld (a : Nat) (f : Fld) (v : Nat) : (s.setFld a f v).ld = s.ld := rfl
@[simp] theorem mtx_setFld (a : Nat) (f : Fld) (v : Nat) : (s.setFld a f v).mtx = s.mtx := rfl
@[simp] theorem eh_setFld (a : Nat) (f : Fld) (v : Nat) : (s.setFld a f v).eh = s.eh := rfl
@[simp] theorem inv_setFld (a : Nat) (f : Fld) (v : Nat) : (s.setFld a f v).inv = s.inv := rfl
@[simp] theorem mg_setFld (a : Nat) (f : Fld) (v : Nat) : (s.setFld a f v).mg = s.mg := rfl
@[simp] theorem tm_setFld (a : Nat) (f : Fld) (v : Nat) : (s.setFld a f v).tm = s.tm := rfl
@[simp] theorem mirrorQ_setFld (a : Nat) (f : Fld) (v : Nat) : (s.setFld a f v).mirrorQ = s.mirrorQ := rfl
@[simp] theorem lines_setFld (a : Nat) (f : Fld) (v : Nat) : (s.setFld a f v).lines = s.lines := rfl
@[simp] theorem paths_setFld (a : Nat) (f : Fld) (v : Nat) : (s.setFld a f v).paths = s.paths := rfl
@[simp] theorem kept_setFld (a : Nat) (f : Fld) (v : Nat) : (s.setFld a f v).kept = s.kept := rfl
@[simp] theorem engines_setFld (a : Nat) (f : Fld) (v : Nat) : (s.setFld a f v).engines = s.engines := rfl
@[simp] theorem tribs_setFld (a : Nat) (f : Fld) (v : Nat) : (s.setFld a f v).tribs = s.tribs := rfl
@[simp] theorem flows_setFld (a : Nat) (f : Fld) (v : Nat) : (s.setFld a f v).flows = s.flows := rfl
@[simp] theorem tw_setFld (a : Nat) (f : Fld) (v : Nat) : (s.setFld a f v).tw = s.tw := rfl
@[simp] theorem msp_setFld (a : Nat) (f : Fld) (v : Nat) : (s.setFld a f v).msp = s.msp := rfl
@[simp] theorem lend_setFld (a : Nat) (f : Fld) (v : Nat) : (s.setFld a f v).lend = s.lend := rfl
@[simp] theorem cores_setFld (a : Nat) (f : Fld) (v : Nat) : (s.setFld a f v).cores = s.cores := rfl
@[simp] theorem tasks_setFld (a : Nat) (f : Fld) (v : Nat) : (s.setFld a f v).tasks = s.tasks := rfl
@[simp] theorem turns_setFld (a : Nat) (f : Fld) (v : Nat) : (s.setFld a f v).turns = s.turns := rfl
@[simp] theorem chk_setFld (a : Nat) (f : Fld) (v : Nat) : (s.setFld a f v).chk = s.chk := rfl
@[simp] theorem wtrs_setFld (a : Nat) (f : Fld) (v : Nat) : (s.setFld a f v).wtrs = s.wtrs := rfl
@[simp] theorem byte_setFld (a : Nat) (f : Fld) (v : Nat) (b : Nat) : (s.setFld a f v).byte b = s.byte b := rfl
@[simp] theorem core_setFld (a : Nat) (f : Fld) (v : Nat) (q : Nat) : (s.setFld a f v).core q = s.core q := rfl
@[simp] theorem task_setFld (a : Nat) (f : Fld) (v : Nat) (t : Nat) : (s.setFld a f v).task t = s.task t := rfl
@[simp] theorem pending_setFlag (a : Nat) (f : Fld) (v : Bool) : (s.setFlag a f v).pending = s.pending := rfl
@[simp] theorem now_setFlag (a : Nat) (f : Fld) (v : Bool) : (s.setFlag a f v).now = s.now := rfl
@[simp] theorem free_setFlag (a : Nat) (f : Fld) (v : Bool) : (s.setFlag a f v).free = s.free := rfl
@[simp] theorem mem_setFlag (a : Nat) (f : Fld) (v : Bool) : (s.setFlag a f v).mem = s.mem := rfl
@[simp] theorem itc_setFlag (a : Nat) (f : Fld) (v : Bool) : (s.setFlag a f v).itc = s.itc := rfl
@[simp] theorem chan_setFlag (a : Nat) (f : Fld) (v : Bool) : (s.setFlag a f v).chan = s.chan := rfl
@[simp] theorem firsts_setFlag (a : Nat) (f : Fld) (v : Bool) : (s.setFlag a f v).firsts = s.firsts := rfl
@[simp] theorem wins_setFlag (a : Nat) (f : Fld) (v : Bool) : (s.setFlag a f v).wins = s.wins := rfl
@[simp] theorem sp_setFlag (a : Nat) (f : Fld) (v : Bool) : (s.setFlag a f v).sp = s.sp := rfl
@[simp] theorem ld_setFlag (a : Nat) (f : Fld) (v : Bool) : (s.setFlag a f v).ld = s.ld := rfl
@[simp] theorem mtx_setFlag (a : Nat) (f : Fld) (v : Bool) : (s.setFlag a f v).mtx = s.mtx := rfl
@[simp] theorem eh_setFlag (a : Nat) (f : Fld) (v : Bool) : (s.setFlag a f v).eh = s.eh := rfl
@[simp] theorem inv_setFlag (a : Nat) (f : Fld) (v : Bool) : (s.setFlag a f v).inv = s.inv := rfl
@[simp] theorem mg_setFlag (a : Nat) (f : Fld) (v : Bool) : (s.setFlag a f v).mg = s.mg := rfl
@[simp] theorem tm_setFlag (a : Nat) (f : Fld) (v : Bool) : (s.setFlag a f v).tm = s.tm := rfl
@[simp] theorem mirrorQ_setFlag (a : Nat) (f : Fld) (v : Bool) : (s.setFlag a f v).mirrorQ = s.mirrorQ := rfl
@[simp] theorem lines_setFlag (a : Nat) (f : Fld) (v : Bool) : (s.setFlag a f v).lines = s.lines := rfl
@[simp] theorem paths_setFlag (a : Nat) (f : Fld) (v : Bool) : (s.setFlag a f v).paths = s.paths := rfl
@[simp] theorem kept_setFlag (a : Nat) (f : Fld) (v : Bool) : (s.setFlag a f v).kept = s.kept := rfl
@[simp] theorem engines_setFlag (a : Nat) (f : Fld) (v : Bool) : (s.setFlag a f v).engines = s.engines := rfl
@[simp] theorem tribs_setFlag (a : Nat) (f : Fld) (v : Bool) : (s.setFlag a f v).tribs = s.tribs := rfl
@[simp] theorem flows_setFlag (a : Nat) (f : Fld) (v : Bool) : (s.setFlag a f v).flows = s.flows := rfl
@[simp] theorem tw_setFlag (a : Nat) (f : Fld) (v : Bool) : (s.setFlag a f v).tw = s.tw := rfl
@[simp] theorem msp_setFlag (a : Nat) (f : Fld) (v : Bool) : (s.setFlag a f v).msp = s.msp := rfl
@[simp] theorem lend_setFlag (a : Nat) (f : Fld) (v : Bool) : (s.setFlag a f v).lend = s.lend := rfl
@[simp] theorem cores_setFlag (a : Nat) (f : Fld) (v : Bool) : (s.setFlag a f v).cores = s.cores := rfl
@[simp] theorem tasks_setFlag (a : Nat) (f : Fld) (v : Bool) : (s.setFlag a f v).tasks = s.tasks := rfl
@[simp] theorem turns_setFlag (a : Nat) (f : Fld) (v : Bool) : (s.setFlag a f v).turns = s.turns := rfl
@[simp] theorem chk_setFlag (a : Nat) (f : Fld) (v : Bool) : (s.setFlag a f v).chk = s.chk := rfl
@[simp] theorem wtrs_setFlag (a : Nat) (f : Fld) (v : Bool) : (s.setFlag a f v).wtrs = s.wtrs := rfl
@[simp] theorem byte_setFlag (a : Nat) (f : Fld) (v : Bool) (b : Nat) : (s.setFlag a f v).byte b = s.byte b := rfl
@[simp] theorem core_setFlag (a : Nat) (f : Fld) (v : Bool) (q : Nat) : (s.setFlag a f v).core q = s.core q := rfl
@[simp] theorem task_setFlag (a : Nat) (f : Fld) (v : Bool) (t : Nat) : (s.setFlag a f v).task t = s.task t := rfl
@[simp] theorem pending_setBitAt (a k : Nat) (v : Bool) : (s.setBitAt a k v).pending = s.pending := rfl
@[simp] theorem now_setBitAt (a k : Nat) (v : Bool) : (s.setBitAt a k v).now = s.now := rfl
@[simp] theorem free_setBitAt (a k : Nat) (v : Bool) : (s.setBitAt a k v).free = s.free := rfl
@[simp] theorem mem_setBitAt (a k : Nat) (v : Bool) : (s.setBitAt a k v).mem = s.mem := rfl
@[simp] theorem itc_setBitAt (a k : Nat) (v : Bool) : (s.setBitAt a k v).itc = s.itc := rfl
@[simp] theorem chan_setBitAt (a k : Nat) (v : Bool) : (s.setBitAt a k v).chan = s.chan := rfl
@[simp] theorem firsts_setBitAt (a k : Nat) (v : Bool) : (s.setBitAt a k v).firsts = s.firsts := rfl
@[simp] theorem wins_setBitAt (a k : Nat) (v : Bool) : (s.setBitAt a k v).wins = s.wins := rfl
@[simp] theorem sp_setBitAt (a k : Nat) (v : Bool) : (s.setBitAt a k v).sp = s.sp := rfl
@[simp] theorem ld_setBitAt (a k : Nat) (v : Bool) : (s.setBitAt a k v).ld = s.ld := rfl
@[simp] theorem mtx_setBitAt (a k : Nat) (v : Bool) : (s.setBitAt a k v).mtx = s.mtx := rfl
@[simp] theorem eh_setBitAt (a k : Nat) (v : Bool) : (s.setBitAt a k v).eh = s.eh := rfl
@[simp] theorem inv_setBitAt (a k : Nat) (v : Bool) : (s.setBitAt a k v).inv = s.inv := rfl
@[simp] theorem mg_setBitAt (a k : Nat) (v : Bool) : (s.setBitAt a k v).mg = s.mg := rfl
@[simp] theorem tm_setBitAt (a k : Nat) (v : Bool) : (s.setBitAt a k v).tm = s.tm := rfl
@[simp] theorem mirrorQ_setBitAt (a k : Nat) (v : Bool) : (s.setBitAt a k v).mirrorQ = s.mirrorQ := rfl
@[simp] theorem lines_setBitAt (a k : Nat) (v : Bool) : (s.setBitAt a k v).lines = s.lines := rfl
@[simp] theorem paths_setBitAt (a k : Nat) (v : Bool) : (s.setBitAt a k v).paths = s.paths := rfl
@[simp] theorem kept_setBitAt (a k : Nat) (v : Bool) : (s.setBitAt a k v).kept = s.kept := rfl
@[simp] theorem engines_setBitAt (a k : Nat) (v : Bool) : (s.setBitAt a k v).engines = s.engines := rfl
@[simp] theorem tribs_setBitAt (a k : Nat) (v : Bool) : (s.setBitAt a k v).tribs = s.tribs := rfl
@[simp] theorem flows_setBitAt (a k : Nat) (v : Bool) : (s.setBitAt a k v).flows = s.flows := rfl
@[simp] theorem tw_setBitAt (a k : Nat) (v : Bool) : (s.setBitAt a k v).tw = s.tw := rfl
@[simp] theorem msp_setBitAt (a k : Nat) (v : Bool) : (s.setBitAt a k v).msp = s.msp := rfl
@[simp] theorem lend_setBitAt (a k : Nat) (v : Bool) : (s.setBitAt a k v).lend = s.lend := rfl
@[simp] theorem cores_setBitAt (a k : Nat) (v : Bool) : (s.setBitAt a k v).cores = s.cores := rfl
@[simp] theorem tasks_setBitAt (a k : Nat) (v : Bool) : (s.setBitAt a k v).tasks = s.tasks := rfl
@[simp] theorem turns_setBitAt (a k : Nat) (v : Bool) : (s.setBitAt a k v).turns = s.turns := rfl
@[simp] theorem chk_setBitAt (a k : Nat) (v : Bool) : (s.setBitAt a k v).chk = s.chk := rfl
@[simp] theorem wtrs_setBitAt (a k : Nat) (v : Bool) : (s.setBitAt a k v).wtrs = s.wtrs := rfl
@[simp] theorem byte_setBitAt (a k : Nat) (v : Bool) (b : Nat) : (s.setBitAt a k v).byte b = s.byte b := rfl
@[simp] theorem core_setBitAt (a k : Nat) (v : Bool) (q : Nat) : (s.setBitAt a k v).core q = s.core q := rfl
@[simp] theorem task_setBitAt (a k : Nat) (v : Bool) (t : Nat) : (s.setBitAt a k v).task t = s.task t := rfl
@[simp] theorem pending_count (a n : Nat) : (s.count a n).pending = s.pending := rfl
@[simp] theorem now_count (a n : Nat) : (s.count a n).now = s.now := rfl
@[simp] theorem free_count (a n : Nat) : (s.count a n).free = s.free := rfl
@[simp] theorem mem_count (a n : Nat) : (s.count a n).mem = s.mem := rfl
@[simp] theorem itc_count (a n : Nat) : (s.count a n).itc = s.itc := rfl
@[simp] theorem chan_count (a n : Nat) : (s.count a n).chan = s.chan := rfl
@[simp] theorem firsts_count (a n : Nat) : (s.count a n).firsts = s.firsts := rfl
@[simp] theorem wins_count (a n : Nat) : (s.count a n).wins = s.wins := rfl
@[simp] theorem sp_count (a n : Nat) : (s.count a n).sp = s.sp := rfl
@[simp] theorem ld_count (a n : Nat) : (s.count a n).ld = s.ld := rfl
@[simp] theorem mtx_count (a n : Nat) : (s.count a n).mtx = s.mtx := rfl
@[simp] theorem eh_count (a n : Nat) : (s.count a n).eh = s.eh := rfl
@[simp] theorem inv_count (a n : Nat) : (s.count a n).inv = s.inv := rfl
@[simp] theorem mg_count (a n : Nat) : (s.count a n).mg = s.mg := rfl
@[simp] theorem tm_count (a n : Nat) : (s.count a n).tm = s.tm := rfl
@[simp] theorem mirrorQ_count (a n : Nat) : (s.count a n).mirrorQ = s.mirrorQ := rfl
@[simp] theorem lines_count (a n : Nat) : (s.count a n).lines = s.lines := rfl
@[simp] theorem paths_count (a n : Nat) : (s.count a n).paths = s.paths := rfl
@[simp] theorem kept_count (a n : Nat) : (s.count a n).kept = s.kept := rfl
@[simp] theorem engines_count (a n : Nat) : (s.count a n).engines = s.engines := rfl
@[simp] theorem tribs_count (a n : Nat) : (s.count a n).tribs = s.tribs := rfl
@[simp] theorem flows_count (a n : Nat) : (s.count a n).flows = s.flows := rfl
@[simp] theorem tw_count (a n : Nat) : (s.count a n).tw = s.tw := rfl
@[simp] theorem msp_count (a n : Nat) : (s.count a n).msp = s.msp := rfl
@[simp] theorem lend_count (a n : Nat) : (s.count a n).lend = s.lend := rfl
@[simp] theorem cores_count (a n : Nat) : (s.count a n).cores = s.cores := rfl
@[simp] theorem tasks_count (a n : Nat) : (s.count a n).tasks = s.tasks := rfl
@[simp] theorem turns_count (a n : Nat) : (s.count a n).turns = s.turns := rfl
@[simp] theorem chk_count (a n : Nat) : (s.count a n).chk = s.chk := rfl
@[simp] theorem wtrs_count (a n : Nat) : (s.count a n).wtrs = s.wtrs := rfl
@[simp] theorem byte_count (a n : Nat) (b : Nat) : (s.count a n).byte b = s.byte b := rfl
@[simp] theorem core_count (a n : Nat) (q : Nat) : (s.count a n).core q = s.core q := rfl
@[simp] theorem task_count (a n : Nat) (t : Nat) : (s.count a n).task t = s.task t := rfl
@[simp] theorem pending_satInc (a : Nat) (f : Fld) (m : Nat) : (s.satInc a f m).pending = s.pending := rfl
@[simp] theorem now_satInc (a : Nat) (f : Fld) (m : Nat) : (s.satInc a f m).now = s.now := rfl
@[simp] theorem free_satInc (a : Nat) (f : Fld) (m : Nat) : (s.satInc a f m).free = s.free := rfl
@[simp] theorem mem_satInc (a : Nat) (f : Fld) (m : Nat) : (s.satInc a f m).mem = s.mem := rfl
@[simp] theorem itc_satInc (a : Nat) (f : Fld) (m : Nat) : (s.satInc a f m).itc = s.itc := rfl
@[simp] theorem chan_satInc (a : Nat) (f : Fld) (m : Nat) : (s.satInc a f m).chan = s.chan := rfl
@[simp] theorem firsts_satInc (a : Nat) (f : Fld) (m : Nat) : (s.satInc a f m).firsts = s.firsts := rfl
@[simp] theorem wins_satInc (a : Nat) (f : Fld) (m : Nat) : (s.satInc a f m).wins = s.wins := rfl
@[simp] theorem sp_satInc (a : Nat) (f : Fld) (m : Nat) : (s.satInc a f m).sp = s.sp := rfl
@[simp] theorem ld_satInc (a : Nat) (f : Fld) (m : Nat) : (s.satInc a f m).ld = s.ld := rfl
@[simp] theorem mtx_satInc (a : Nat) (f : Fld) (m : Nat) : (s.satInc a f m).mtx = s.mtx := rfl
@[simp] theorem eh_satInc (a : Nat) (f : Fld) (m : Nat) : (s.satInc a f m).eh = s.eh := rfl
@[simp] theorem inv_satInc (a : Nat) (f : Fld) (m : Nat) : (s.satInc a f m).inv = s.inv := rfl
@[simp] theorem mg_satInc (a : Nat) (f : Fld) (m : Nat) : (s.satInc a f m).mg = s.mg := rfl
@[simp] theorem tm_satInc (a : Nat) (f : Fld) (m : Nat) : (s.satInc a f m).tm = s.tm := rfl
@[simp] theorem mirrorQ_satInc (a : Nat) (f : Fld) (m : Nat) : (s.satInc a f m).mirrorQ = s.mirrorQ := rfl
@[simp] theorem lines_satInc (a : Nat) (f : Fld) (m : Nat) : (s.satInc a f m).lines = s.lines := rfl
@[simp] theorem paths_satInc (a : Nat) (f : Fld) (m : Nat) : (s.satInc a f m).paths = s.paths := rfl
@[simp] theorem kept_satInc (a : Nat) (f : Fld) (m : Nat) : (s.satInc a f m).kept = s.kept := rfl
@[simp] theorem engines_satInc (a : Nat) (f : Fld) (m : Nat) : (s.satInc a f m).engines = s.engines := rfl
@[simp] theorem tribs_satInc (a : Nat) (f : Fld) (m : Nat) : (s.satInc a f m).tribs = s.tribs := rfl
@[simp] theorem flows_satInc (a : Nat) (f : Fld) (m : Nat) : (s.satInc a f m).flows = s.flows := rfl
@[simp] theorem tw_satInc (a : Nat) (f : Fld) (m : Nat) : (s.satInc a f m).tw = s.tw := rfl
@[simp] theorem msp_satInc (a : Nat) (f : Fld) (m : Nat) : (s.satInc a f m).msp = s.msp := rfl
@[simp] theorem lend_satInc (a : Nat) (f : Fld) (m : Nat) : (s.satInc a f m).lend = s.lend := rfl
@[simp] theorem cores_satInc (a : Nat) (f : Fld) (m : Nat) : (s.satInc a f m).cores = s.cores := rfl
@[simp] theorem tasks_satInc (a : Nat) (f : Fld) (m : Nat) : (s.satInc a f m).tasks = s.tasks := rfl
@[simp] theorem turns_satInc (a : Nat) (f : Fld) (m : Nat) : (s.satInc a f m).turns = s.turns := rfl
@[simp] theorem chk_satInc (a : Nat) (f : Fld) (m : Nat) : (s.satInc a f m).chk = s.chk := rfl
@[simp] theorem wtrs_satInc (a : Nat) (f : Fld) (m : Nat) : (s.satInc a f m).wtrs = s.wtrs := rfl
@[simp] theorem byte_satInc (a : Nat) (f : Fld) (m : Nat) (b : Nat) : (s.satInc a f m).byte b = s.byte b := rfl
@[simp] theorem core_satInc (a : Nat) (f : Fld) (m : Nat) (q : Nat) : (s.satInc a f m).core q = s.core q := rfl
@[simp] theorem task_satInc (a : Nat) (f : Fld) (m : Nat) (t : Nat) : (s.satInc a f m).task t = s.task t := rfl
@[simp] theorem pending_setByte (a : Nat) (x : Byte) : (s.setByte a x).pending = s.pending := rfl
@[simp] theorem now_setByte (a : Nat) (x : Byte) : (s.setByte a x).now = s.now := rfl
@[simp] theorem free_setByte (a : Nat) (x : Byte) : (s.setByte a x).free = s.free := rfl
@[simp] theorem regs_setByte (a : Nat) (x : Byte) : (s.setByte a x).regs = s.regs := rfl
@[simp] theorem itc_setByte (a : Nat) (x : Byte) : (s.setByte a x).itc = s.itc := rfl
@[simp] theorem chan_setByte (a : Nat) (x : Byte) : (s.setByte a x).chan = s.chan := rfl
@[simp] theorem firsts_setByte (a : Nat) (x : Byte) : (s.setByte a x).firsts = s.firsts := rfl
@[simp] theorem wins_setByte (a : Nat) (x : Byte) : (s.setByte a x).wins = s.wins := rfl
@[simp] theorem sp_setByte (a : Nat) (x : Byte) : (s.setByte a x).sp = s.sp := rfl
@[simp] theorem ld_setByte (a : Nat) (x : Byte) : (s.setByte a x).ld = s.ld := rfl
@[simp] theorem mtx_setByte (a : Nat) (x : Byte) : (s.setByte a x).mtx = s.mtx := rfl
@[simp] theorem eh_setByte (a : Nat) (x : Byte) : (s.setByte a x).eh = s.eh := rfl
@[simp] theorem inv_setByte (a : Nat) (x : Byte) : (s.setByte a x).inv = s.inv := rfl
@[simp] theorem mg_setByte (a : Nat) (x : Byte) : (s.setByte a x).mg = s.mg := rfl
@[simp] theorem tm_setByte (a : Nat) (x : Byte) : (s.setByte a x).tm = s.tm := rfl
@[simp] theorem mirrorQ_setByte (a : Nat) (x : Byte) : (s.setByte a x).mirrorQ = s.mirrorQ := rfl
@[simp] theorem lines_setByte (a : Nat) (x : Byte) : (s.setByte a x).lines = s.lines := rfl
@[simp] theorem paths_setByte (a : Nat) (x : Byte) : (s.setByte a x).paths = s.paths := rfl
@[simp] theorem kept_setByte (a : Nat) (x : Byte) : (s.setByte a x).kept = s.kept := rfl
@[simp] theorem engines_setByte (a : Nat) (x : Byte) : (s.setByte a x).engines = s.engines := rfl
@[simp] theorem tribs_setByte (a : Nat) (x : Byte) : (s.setByte a x).tribs = s.tribs := rfl
@[simp] theorem flows_setByte (a : Nat) (x : Byte) : (s.setByte a x).flows = s.flows := rfl
@[simp] theorem tw_setByte (a : Nat) (x : Byte) : (s.setByte a x).tw = s.tw := rfl
@[simp] theorem msp_setByte (a : Nat) (x : Byte) : (s.setByte a x).msp = s.msp := rfl
@[simp] theorem lend_setByte (a : Nat) (x : Byte) : (s.setByte a x).lend = s.lend := rfl
@[simp] theorem cores_setByte (a : Nat) (x : Byte) : (s.setByte a x).cores = s.cores := rfl
@[simp] theorem tasks_setByte (a : Nat) (x : Byte) : (s.setByte a x).tasks = s.tasks := rfl
@[simp] theorem turns_setByte (a : Nat) (x : Byte) : (s.setByte a x).turns = s.turns := rfl
@[simp] theorem chk_setByte (a : Nat) (x : Byte) : (s.setByte a x).chk = s.chk := rfl
@[simp] theorem wtrs_setByte (a : Nat) (x : Byte) : (s.setByte a x).wtrs = s.wtrs := rfl
@[simp] theorem reg_setByte (a : Nat) (x : Byte) (b : Nat) : (s.setByte a x).reg b = s.reg b := rfl
@[simp] theorem fld_setByte (a : Nat) (x : Byte) (b : Nat) (g : Fld) : (s.setByte a x).fld b g = s.fld b g := rfl
@[simp] theorem flag_setByte (a : Nat) (x : Byte) (b : Nat) (g : Fld) : (s.setByte a x).flag b g = s.flag b g := rfl
@[simp] theorem bitAt_setByte (a : Nat) (x : Byte) (b c : Nat) : (s.setByte a x).bitAt b c = s.bitAt b c := rfl
@[simp] theorem life_setByte (a : Nat) (x : Byte) : (s.setByte a x).life = s.life := rfl
@[simp] theorem running_setByte (a : Nat) (x : Byte) (i : Nat) : (s.setByte a x).running i = s.running i := rfl
@[simp] theorem core_setByte (a : Nat) (x : Byte) (q : Nat) : (s.setByte a x).core q = s.core q := rfl
@[simp] theorem task_setByte (a : Nat) (x : Byte) (t : Nat) : (s.setByte a x).task t = s.task t := rfl
@[simp] theorem pending_setBytes (a : Nat) (l : List Byte) : (s.setBytes a l).pending = s.pending := rfl
@[simp] theorem now_setBytes (a : Nat) (l : List Byte) : (s.setBytes a l).now = s.now := rfl
@[simp] theorem free_setBytes (a : Nat) (l : List Byte) : (s.setBytes a l).free = s.free := rfl
@[simp] theorem regs_setBytes (a : Nat) (l : List Byte) : (s.setBytes a l).regs = s.regs := rfl
@[simp] theorem itc_setBytes (a : Nat) (l : List Byte) : (s.setBytes a l).itc = s.itc := rfl
@[simp] theorem chan_setBytes (a : Nat) (l : List Byte) : (s.setBytes a l).chan = s.chan := rfl
@[simp] theorem firsts_setBytes (a : Nat) (l : List Byte) : (s.setBytes a l).firsts = s.firsts := rfl
@[simp] theorem wins_setBytes (a : Nat) (l : List Byte) : (s.setBytes a l).wins = s.wins := rfl
@[simp] theorem sp_setBytes (a : Nat) (l : List Byte) : (s.setBytes a l).sp = s.sp := rfl
@[simp] theorem ld_setBytes (a : Nat) (l : List Byte) : (s.setBytes a l).ld = s.ld := rfl
@[simp] theorem mtx_setBytes (a : Nat) (l : List Byte) : (s.setBytes a l).mtx = s.mtx := rfl
@[simp] theorem eh_setBytes (a : Nat) (l : List Byte) : (s.setBytes a l).eh = s.eh := rfl
@[simp] theorem inv_setBytes (a : Nat) (l : List Byte) : (s.setBytes a l).inv = s.inv := rfl
@[simp] theorem mg_setBytes (a : Nat) (l : List Byte) : (s.setBytes a l).mg = s.mg := rfl
@[simp] theorem tm_setBytes (a : Nat) (l : List Byte) : (s.setBytes a l).tm = s.tm := rfl
@[simp] theorem mirrorQ_setBytes (a : Nat) (l : List Byte) : (s.setBytes a l).mirrorQ = s.mirrorQ := rfl
@[simp] theorem lines_setBytes (a : Nat) (l : List Byte) : (s.setBytes a l).lines = s.lines := rfl
@[simp] theorem paths_setBytes (a : Nat) (l : List Byte) : (s.setBytes a l).paths = s.paths := rfl
@[simp] theorem kept_setBytes (a : Nat) (l : List Byte) : (s.setBytes a l).kept = s.kept := rfl
@[simp] theorem engines_setBytes (a : Nat) (l : List Byte) : (s.setBytes a l).engines = s.engines := rfl
@[simp] theorem tribs_setBytes (a : Nat) (l : List Byte) : (s.setBytes a l).tribs = s.tribs := rfl
@[simp] theorem flows_setBytes (a : Nat) (l : List Byte) : (s.setBytes a l).flows = s.flows := rfl
@[simp] theorem tw_setBytes (a : Nat) (l : List Byte) : (s.setBytes a l).tw = s.tw := rfl
@[simp] theorem msp_setBytes (a : Nat) (l : List Byte) : (s.setBytes a l).msp = s.msp := rfl
@[simp] theorem lend_setBytes (a : Nat) (l : List Byte) : (s.setBytes a l).lend = s.lend := rfl
@[simp] theorem cores_setBytes (a : Nat) (l : List Byte) : (s.setBytes a l).cores = s.cores := rfl
@[simp] theorem tasks_setBytes (a : Nat) (l : List Byte) : (s.setBytes a l).tasks = s.tasks := rfl
@[simp] theorem turns_setBytes (a : Nat) (l : List Byte) : (s.setBytes a l).turns = s.turns := rfl
@[simp] theorem chk_setBytes (a : Nat) (l : List Byte) : (s.setBytes a l).chk = s.chk := rfl
@[simp] theorem wtrs_setBytes (a : Nat) (l : List Byte) : (s.setBytes a l).wtrs = s.wtrs := rfl
@[simp] theorem reg_setBytes (a : Nat) (l : List Byte) (b : Nat) : (s.setBytes a l).reg b = s.reg b := rfl
@[simp] theorem fld_setBytes (a : Nat) (l : List Byte) (b : Nat) (g : Fld) : (s.setBytes a l).fld b g = s.fld b g := rfl
@[simp] theorem flag_setBytes (a : Nat) (l : List Byte) (b : Nat) (g : Fld) : (s.setBytes a l).flag b g = s.flag b g := rfl
@[simp] theorem bitAt_setBytes (a : Nat) (l : List Byte) (b c : Nat) : (s.setBytes a l).bitAt b c = s.bitAt b c := rfl
@[simp] theorem life_setBytes (a : Nat) (l : List Byte) : (s.setBytes a l).life = s.life := rfl
@[simp] theorem running_setBytes (a : Nat) (l : List Byte) (i : Nat) : (s.setBytes a l).running i = s.running i := rfl
@[simp] theorem core_setBytes (a : Nat) (l : List Byte) (q : Nat) : (s.setBytes a l).core q = s.core q := rfl
@[simp] theorem task_setBytes (a : Nat) (l : List Byte) (t : Nat) : (s.setBytes a l).task t = s.task t := rfl
@[simp] theorem pending_zero (a n : Nat) : (s.zero a n).pending = s.pending := rfl
@[simp] theorem now_zero (a n : Nat) : (s.zero a n).now = s.now := rfl
@[simp] theorem free_zero (a n : Nat) : (s.zero a n).free = s.free := rfl
@[simp] theorem regs_zero (a n : Nat) : (s.zero a n).regs = s.regs := rfl
@[simp] theorem itc_zero (a n : Nat) : (s.zero a n).itc = s.itc := rfl
@[simp] theorem chan_zero (a n : Nat) : (s.zero a n).chan = s.chan := rfl
@[simp] theorem firsts_zero (a n : Nat) : (s.zero a n).firsts = s.firsts := rfl
@[simp] theorem wins_zero (a n : Nat) : (s.zero a n).wins = s.wins := rfl
@[simp] theorem sp_zero (a n : Nat) : (s.zero a n).sp = s.sp := rfl
@[simp] theorem ld_zero (a n : Nat) : (s.zero a n).ld = s.ld := rfl
@[simp] theorem mtx_zero (a n : Nat) : (s.zero a n).mtx = s.mtx := rfl
@[simp] theorem eh_zero (a n : Nat) : (s.zero a n).eh = s.eh := rfl
@[simp] theorem inv_zero (a n : Nat) : (s.zero a n).inv = s.inv := rfl
@[simp] theorem mg_zero (a n : Nat) : (s.zero a n).mg = s.mg := rfl
@[simp] theorem tm_zero (a n : Nat) : (s.zero a n).tm = s.tm := rfl
@[simp] theorem mirrorQ_zero (a n : Nat) : (s.zero a n).mirrorQ = s.mirrorQ := rfl
@[simp] theorem lines_zero (a n : Nat) : (s.zero a n).lines = s.lines := rfl
@[simp] theorem paths_zero (a n : Nat) : (s.zero a n).paths = s.paths := rfl
@[simp] theorem kept_zero (a n : Nat) : (s.zero a n).kept = s.kept := rfl
@[simp] theorem engines_zero (a n : Nat) : (s.zero a n).engines = s.engines := rfl
@[simp] theorem tribs_zero (a n : Nat) : (s.zero a n).tribs = s.tribs := rfl
@[simp] theorem flows_zero (a n : Nat) : (s.zero a n).flows = s.flows := rfl
@[simp] theorem tw_zero (a n : Nat) : (s.zero a n).tw = s.tw := rfl
@[simp] theorem msp_zero (a n : Nat) : (s.zero a n).msp = s.msp := rfl
@[simp] theorem lend_zero (a n : Nat) : (s.zero a n).lend = s.lend := rfl
@[simp] theorem cores_zero (a n : Nat) : (s.zero a n).cores = s.cores := rfl
@[simp] theorem tasks_zero (a n : Nat) : (s.zero a n).tasks = s.tasks := rfl
@[simp] theorem turns_zero (a n : Nat) : (s.zero a n).turns = s.turns := rfl
@[simp] theorem chk_zero (a n : Nat) : (s.zero a n).chk = s.chk := rfl
@[simp] theorem wtrs_zero (a n : Nat) : (s.zero a n).wtrs = s.wtrs := rfl
@[simp] theorem reg_zero (a n : Nat) (b : Nat) : (s.zero a n).reg b = s.reg b := rfl
@[simp] theorem fld_zero (a n : Nat) (b : Nat) (g : Fld) : (s.zero a n).fld b g = s.fld b g := rfl
@[simp] theorem flag_zero (a n : Nat) (b : Nat) (g : Fld) : (s.zero a n).flag b g = s.flag b g := rfl
@[simp] theorem bitAt_zero (a n : Nat) (b c : Nat) : (s.zero a n).bitAt b c = s.bitAt b c := rfl
@[simp] theorem life_zero (a n : Nat) : (s.zero a n).life = s.life := rfl
@[simp] theorem running_zero (a n : Nat) (i : Nat) : (s.zero a n).running i = s.running i := rfl
@[simp] theorem core_zero (a n : Nat) (q : Nat) : (s.zero a n).core q = s.core q := rfl
@[simp] theorem task_zero (a n : Nat) (t : Nat) : (s.zero a n).task t = s.task t := rfl
@[simp] theorem pending_useFree : (s.useFree).pending = s.pending := rfl
@[simp] theorem now_useFree : (s.useFree).now = s.now := rfl
@[simp] theorem regs_useFree : (s.useFree).regs = s.regs := rfl
@[simp] theorem mem_useFree : (s.useFree).mem = s.mem := rfl
@[simp] theorem itc_useFree : (s.useFree).itc = s.itc := rfl
@[simp] theorem chan_useFree : (s.useFree).chan = s.chan := rfl
@[simp] theorem firsts_useFree : (s.useFree).firsts = s.firsts := rfl
@[simp] theorem wins_useFree : (s.useFree).wins = s.wins := rfl
@[simp] theorem sp_useFree : (s.useFree).sp = s.sp := rfl
@[simp] theorem ld_useFree : (s.useFree).ld = s.ld := rfl
@[simp] theorem mtx_useFree : (s.useFree).mtx = s.mtx := rfl
@[simp] theorem eh_useFree : (s.useFree).eh = s.eh := rfl
@[simp] theorem inv_useFree : (s.useFree).inv = s.inv := rfl
@[simp] theorem mg_useFree : (s.useFree).mg = s.mg := rfl
@[simp] theorem tm_useFree : (s.useFree).tm = s.tm := rfl
@[simp] theorem mirrorQ_useFree : (s.useFree).mirrorQ = s.mirrorQ := rfl
@[simp] theorem lines_useFree : (s.useFree).lines = s.lines := rfl
@[simp] theorem paths_useFree : (s.useFree).paths = s.paths := rfl
@[simp] theorem kept_useFree : (s.useFree).kept = s.kept := rfl
@[simp] theorem engines_useFree : (s.useFree).engines = s.engines := rfl
@[simp] theorem tribs_useFree : (s.useFree).tribs = s.tribs := rfl
@[simp] theorem flows_useFree : (s.useFree).flows = s.flows := rfl
@[simp] theorem tw_useFree : (s.useFree).tw = s.tw := rfl
@[simp] theorem msp_useFree : (s.useFree).msp = s.msp := rfl
@[simp] theorem lend_useFree : (s.useFree).lend = s.lend := rfl
@[simp] theorem cores_useFree : (s.useFree).cores = s.cores := rfl
@[simp] theorem tasks_useFree : (s.useFree).tasks = s.tasks := rfl
@[simp] theorem turns_useFree : (s.useFree).turns = s.turns := rfl
@[simp] theorem chk_useFree : (s.useFree).chk = s.chk := rfl
@[simp] theorem wtrs_useFree : (s.useFree).wtrs = s.wtrs := rfl
@[simp] theorem reg_useFree (b : Nat) : (s.useFree).reg b = s.reg b := rfl
@[simp] theorem fld_useFree (b : Nat) (g : Fld) : (s.useFree).fld b g = s.fld b g := rfl
@[simp] theorem flag_useFree (b : Nat) (g : Fld) : (s.useFree).flag b g = s.flag b g := rfl
@[simp] theorem bitAt_useFree (b c : Nat) : (s.useFree).bitAt b c = s.bitAt b c := rfl
@[simp] theorem life_useFree : (s.useFree).life = s.life := rfl
@[simp] theorem running_useFree (i : Nat) : (s.useFree).running i = s.running i := rfl
@[simp] theorem byte_useFree (b : Nat) : (s.useFree).byte b = s.byte b := rfl
@[simp] theorem core_useFree (q : Nat) : (s.useFree).core q = s.core q := rfl
@[simp] theorem task_useFree (t : Nat) : (s.useFree).task t = s.task t := rfl
@[simp] theorem pending_setMtx (x : Matrix) : (s.setMtx x).pending = s.pending := rfl
@[simp] theorem now_setMtx (x : Matrix) : (s.setMtx x).now = s.now := rfl
@[simp] theorem free_setMtx (x : Matrix) : (s.setMtx x).free = s.free := rfl
@[simp] theorem regs_setMtx (x : Matrix) : (s.setMtx x).regs = s.regs := rfl
@[simp] theorem mem_setMtx (x : Matrix) : (s.setMtx x).mem = s.mem := rfl
@[simp] theorem itc_setMtx (x : Matrix) : (s.setMtx x).itc = s.itc := rfl
@[simp] theorem chan_setMtx (x : Matrix) : (s.setMtx x).chan = s.chan := rfl
@[simp] theorem firsts_setMtx (x : Matrix) : (s.setMtx x).firsts = s.firsts := rfl
@[simp] theorem wins_setMtx (x : Matrix) : (s.setMtx x).wins = s.wins := rfl
@[simp] theorem sp_setMtx (x : Matrix) : (s.setMtx x).sp = s.sp := rfl
@[simp] theorem ld_setMtx (x : Matrix) : (s.setMtx x).ld = s.ld := rfl
@[simp] theorem eh_setMtx (x : Matrix) : (s.setMtx x).eh = s.eh := rfl
@[simp] theorem inv_setMtx (x : Matrix) : (s.setMtx x).inv = s.inv := rfl
@[simp] theorem mg_setMtx (x : Matrix) : (s.setMtx x).mg = s.mg := rfl
@[simp] theorem tm_setMtx (x : Matrix) : (s.setMtx x).tm = s.tm := rfl
@[simp] theorem mirrorQ_setMtx (x : Matrix) : (s.setMtx x).mirrorQ = s.mirrorQ := rfl
@[simp] theorem lines_setMtx (x : Matrix) : (s.setMtx x).lines = s.lines := rfl
@[simp] theorem paths_setMtx (x : Matrix) : (s.setMtx x).paths = s.paths := rfl
@[simp] theorem kept_setMtx (x : Matrix) : (s.setMtx x).kept = s.kept := rfl
@[simp] theorem engines_setMtx (x : Matrix) : (s.setMtx x).engines = s.engines := rfl
@[simp] theorem tribs_setMtx (x : Matrix) : (s.setMtx x).tribs = s.tribs := rfl
@[simp] theorem flows_setMtx (x : Matrix) : (s.setMtx x).flows = s.flows := rfl
@[simp] theorem tw_setMtx (x : Matrix) : (s.setMtx x).tw = s.tw := rfl
@[simp] theorem msp_setMtx (x : Matrix) : (s.setMtx x).msp = s.msp := rfl
@[simp] theorem lend_setMtx (x : Matrix) : (s.setMtx x).lend = s.lend := rfl
@[simp] theorem cores_setMtx (x : Matrix) : (s.setMtx x).cores = s.cores := rfl
@[simp] theorem tasks_setMtx (x : Matrix) : (s.setMtx x).tasks = s.tasks := rfl
@[simp] theorem turns_setMtx (x : Matrix) : (s.setMtx x).turns = s.turns := rfl
@[simp] theorem chk_setMtx (x : Matrix) : (s.setMtx x).chk = s.chk := rfl
@[simp] theorem wtrs_setMtx (x : Matrix) : (s.setMtx x).wtrs = s.wtrs := rfl
@[simp] theorem reg_setMtx (x : Matrix) (b : Nat) : (s.setMtx x).reg b = s.reg b := rfl
@[simp] theorem fld_setMtx (x : Matrix) (b : Nat) (g : Fld) : (s.setMtx x).fld b g = s.fld b g := rfl
@[simp] theorem flag_setMtx (x : Matrix) (b : Nat) (g : Fld) : (s.setMtx x).flag b g = s.flag b g := rfl
@[simp] theorem bitAt_setMtx (x : Matrix) (b c : Nat) : (s.setMtx x).bitAt b c = s.bitAt b c := rfl
@[simp] theorem life_setMtx (x : Matrix) : (s.setMtx x).life = s.life := rfl
@[simp] theorem running_setMtx (x : Matrix) (i : Nat) : (s.setMtx x).running i = s.running i := rfl
@[simp] theorem byte_setMtx (x : Matrix) (b : Nat) : (s.setMtx x).byte b = s.byte b := rfl
@[simp] theorem core_setMtx (x : Matrix) (q : Nat) : (s.setMtx x).core q = s.core q := rfl
@[simp] theorem task_setMtx (x : Matrix) (t : Nat) : (s.setMtx x).task t = s.task t := rfl
@[simp] theorem pending_respond (n : Nat) : (s.respond n).pending = s.pending := rfl
@[simp] theorem now_respond (n : Nat) : (s.respond n).now = s.now := rfl
@[simp] theorem free_respond (n : Nat) : (s.respond n).free = s.free := rfl
@[simp] theorem regs_respond (n : Nat) : (s.respond n).regs = s.regs := rfl
@[simp] theorem mem_respond (n : Nat) : (s.respond n).mem = s.mem := rfl
@[simp] theorem itc_respond (n : Nat) : (s.respond n).itc = s.itc := rfl
@[simp] theorem chan_respond (n : Nat) : (s.respond n).chan = s.chan := rfl
@[simp] theorem firsts_respond (n : Nat) : (s.respond n).firsts = s.firsts := rfl
@[simp] theorem wins_respond (n : Nat) : (s.respond n).wins = s.wins := rfl
@[simp] theorem sp_respond (n : Nat) : (s.respond n).sp = s.sp := rfl
@[simp] theorem ld_respond (n : Nat) : (s.respond n).ld = s.ld := rfl
@[simp] theorem eh_respond (n : Nat) : (s.respond n).eh = s.eh := rfl
@[simp] theorem inv_respond (n : Nat) : (s.respond n).inv = s.inv := rfl
@[simp] theorem mg_respond (n : Nat) : (s.respond n).mg = s.mg := rfl
@[simp] theorem tm_respond (n : Nat) : (s.respond n).tm = s.tm := rfl
@[simp] theorem mirrorQ_respond (n : Nat) : (s.respond n).mirrorQ = s.mirrorQ := rfl
@[simp] theorem lines_respond (n : Nat) : (s.respond n).lines = s.lines := rfl
@[simp] theorem paths_respond (n : Nat) : (s.respond n).paths = s.paths := rfl
@[simp] theorem kept_respond (n : Nat) : (s.respond n).kept = s.kept := rfl
@[simp] theorem engines_respond (n : Nat) : (s.respond n).engines = s.engines := rfl
@[simp] theorem tribs_respond (n : Nat) : (s.respond n).tribs = s.tribs := rfl
@[simp] theorem flows_respond (n : Nat) : (s.respond n).flows = s.flows := rfl
@[simp] theorem tw_respond (n : Nat) : (s.respond n).tw = s.tw := rfl
@[simp] theorem msp_respond (n : Nat) : (s.respond n).msp = s.msp := rfl
@[simp] theorem lend_respond (n : Nat) : (s.respond n).lend = s.lend := rfl
@[simp] theorem cores_respond (n : Nat) : (s.respond n).cores = s.cores := rfl
@[simp] theorem tasks_respond (n : Nat) : (s.respond n).tasks = s.tasks := rfl
@[simp] theorem turns_respond (n : Nat) : (s.respond n).turns = s.turns := rfl
@[simp] theorem chk_respond (n : Nat) : (s.respond n).chk = s.chk := rfl
@[simp] theorem wtrs_respond (n : Nat) : (s.respond n).wtrs = s.wtrs := rfl
@[simp] theorem reg_respond (n : Nat) (b : Nat) : (s.respond n).reg b = s.reg b := rfl
@[simp] theorem fld_respond (n : Nat) (b : Nat) (g : Fld) : (s.respond n).fld b g = s.fld b g := rfl
@[simp] theorem flag_respond (n : Nat) (b : Nat) (g : Fld) : (s.respond n).flag b g = s.flag b g := rfl
@[simp] theorem bitAt_respond (n : Nat) (b c : Nat) : (s.respond n).bitAt b c = s.bitAt b c := rfl
@[simp] theorem life_respond (n : Nat) : (s.respond n).life = s.life := rfl
@[simp] theorem running_respond (n : Nat) (i : Nat) : (s.respond n).running i = s.running i := rfl
@[simp] theorem byte_respond (n : Nat) (b : Nat) : (s.respond n).byte b = s.byte b := rfl
@[simp] theorem core_respond (n : Nat) (q : Nat) : (s.respond n).core q = s.core q := rfl
@[simp] theorem task_respond (n : Nat) (t : Nat) : (s.respond n).task t = s.task t := rfl
@[simp] theorem pending_setEngine (n : Nat) (x : Engine) : (s.setEngine n x).pending = s.pending := rfl
@[simp] theorem now_setEngine (n : Nat) (x : Engine) : (s.setEngine n x).now = s.now := rfl
@[simp] theorem free_setEngine (n : Nat) (x : Engine) : (s.setEngine n x).free = s.free := rfl
@[simp] theorem regs_setEngine (n : Nat) (x : Engine) : (s.setEngine n x).regs = s.regs := rfl
@[simp] theorem mem_setEngine (n : Nat) (x : Engine) : (s.setEngine n x).mem = s.mem := rfl
@[simp] theorem itc_setEngine (n : Nat) (x : Engine) : (s.setEngine n x).itc = s.itc := rfl
@[simp] theorem chan_setEngine (n : Nat) (x : Engine) : (s.setEngine n x).chan = s.chan := rfl
@[simp] theorem firsts_setEngine (n : Nat) (x : Engine) : (s.setEngine n x).firsts = s.firsts := rfl
@[simp] theorem wins_setEngine (n : Nat) (x : Engine) : (s.setEngine n x).wins = s.wins := rfl
@[simp] theorem sp_setEngine (n : Nat) (x : Engine) : (s.setEngine n x).sp = s.sp := rfl
@[simp] theorem ld_setEngine (n : Nat) (x : Engine) : (s.setEngine n x).ld = s.ld := rfl
@[simp] theorem mtx_setEngine (n : Nat) (x : Engine) : (s.setEngine n x).mtx = s.mtx := rfl
@[simp] theorem eh_setEngine (n : Nat) (x : Engine) : (s.setEngine n x).eh = s.eh := rfl
@[simp] theorem inv_setEngine (n : Nat) (x : Engine) : (s.setEngine n x).inv = s.inv := rfl
@[simp] theorem mg_setEngine (n : Nat) (x : Engine) : (s.setEngine n x).mg = s.mg := rfl
@[simp] theorem tm_setEngine (n : Nat) (x : Engine) : (s.setEngine n x).tm = s.tm := rfl
@[simp] theorem mirrorQ_setEngine (n : Nat) (x : Engine) : (s.setEngine n x).mirrorQ = s.mirrorQ := rfl
@[simp] theorem lines_setEngine (n : Nat) (x : Engine) : (s.setEngine n x).lines = s.lines := rfl
@[simp] theorem paths_setEngine (n : Nat) (x : Engine) : (s.setEngine n x).paths = s.paths := rfl
@[simp] theorem kept_setEngine (n : Nat) (x : Engine) : (s.setEngine n x).kept = s.kept := rfl
@[simp] theorem tribs_setEngine (n : Nat) (x : Engine) : (s.setEngine n x).tribs = s.tribs := rfl
@[simp] theorem flows_setEngine (n : Nat) (x : Engine) : (s.setEngine n x).flows = s.flows := rfl
@[simp] theorem tw_setEngine (n : Nat) (x : Engine) : (s.setEngine n x).tw = s.tw := rfl
@[simp] theorem msp_setEngine (n : Nat) (x : Engine) : (s.setEngine n x).msp = s.msp := rfl
@[simp] theorem lend_setEngine (n : Nat) (x : Engine) : (s.setEngine n x).lend = s.lend := rfl
@[simp] theorem cores_setEngine (n : Nat) (x : Engine) : (s.setEngine n x).cores = s.cores := rfl
@[simp] theorem tasks_setEngine (n : Nat) (x : Engine) : (s.setEngine n x).tasks = s.tasks := rfl
@[simp] theorem turns_setEngine (n : Nat) (x : Engine) : (s.setEngine n x).turns = s.turns := rfl
@[simp] theorem chk_setEngine (n : Nat) (x : Engine) : (s.setEngine n x).chk = s.chk := rfl
@[simp] theorem wtrs_setEngine (n : Nat) (x : Engine) : (s.setEngine n x).wtrs = s.wtrs := rfl
@[simp] theorem reg_setEngine (n : Nat) (x : Engine) (b : Nat) : (s.setEngine n x).reg b = s.reg b := rfl
@[simp] theorem fld_setEngine (n : Nat) (x : Engine) (b : Nat) (g : Fld) : (s.setEngine n x).fld b g = s.fld b g := rfl
@[simp] theorem flag_setEngine (n : Nat) (x : Engine) (b : Nat) (g : Fld) : (s.setEngine n x).flag b g = s.flag b g := rfl
@[simp] theorem bitAt_setEngine (n : Nat) (x : Engine) (b c : Nat) : (s.setEngine n x).bitAt b c = s.bitAt b c := rfl
@[simp] theorem life_setEngine (n : Nat) (x : Engine) : (s.setEngine n x).life = s.life := rfl
@[simp] theorem running_setEngine (n : Nat) (x : Engine) (i : Nat) : (s.setEngine n x).running i = s.running i := rfl
@[simp] theorem byte_setEngine (n : Nat) (x : Engine) (b : Nat) : (s.setEngine n x).byte b = s.byte b := rfl
@[simp] theorem core_setEngine (n : Nat) (x : Engine) (q : Nat) : (s.setEngine n x).core q = s.core q := rfl
@[simp] theorem task_setEngine (n : Nat) (x : Engine) (t : Nat) : (s.setEngine n x).task t = s.task t := rfl
@[simp] theorem pending_setInv (x : Inventory) : (s.setInv x).pending = s.pending := rfl
@[simp] theorem now_setInv (x : Inventory) : (s.setInv x).now = s.now := rfl
@[simp] theorem free_setInv (x : Inventory) : (s.setInv x).free = s.free := rfl
@[simp] theorem regs_setInv (x : Inventory) : (s.setInv x).regs = s.regs := rfl
@[simp] theorem mem_setInv (x : Inventory) : (s.setInv x).mem = s.mem := rfl
@[simp] theorem itc_setInv (x : Inventory) : (s.setInv x).itc = s.itc := rfl
@[simp] theorem chan_setInv (x : Inventory) : (s.setInv x).chan = s.chan := rfl
@[simp] theorem firsts_setInv (x : Inventory) : (s.setInv x).firsts = s.firsts := rfl
@[simp] theorem wins_setInv (x : Inventory) : (s.setInv x).wins = s.wins := rfl
@[simp] theorem sp_setInv (x : Inventory) : (s.setInv x).sp = s.sp := rfl
@[simp] theorem ld_setInv (x : Inventory) : (s.setInv x).ld = s.ld := rfl
@[simp] theorem mtx_setInv (x : Inventory) : (s.setInv x).mtx = s.mtx := rfl
@[simp] theorem eh_setInv (x : Inventory) : (s.setInv x).eh = s.eh := rfl
@[simp] theorem mg_setInv (x : Inventory) : (s.setInv x).mg = s.mg := rfl
@[simp] theorem tm_setInv (x : Inventory) : (s.setInv x).tm = s.tm := rfl
@[simp] theorem mirrorQ_setInv (x : Inventory) : (s.setInv x).mirrorQ = s.mirrorQ := rfl
@[simp] theorem lines_setInv (x : Inventory) : (s.setInv x).lines = s.lines := rfl
@[simp] theorem paths_setInv (x : Inventory) : (s.setInv x).paths = s.paths := rfl
@[simp] theorem kept_setInv (x : Inventory) : (s.setInv x).kept = s.kept := rfl
@[simp] theorem engines_setInv (x : Inventory) : (s.setInv x).engines = s.engines := rfl
@[simp] theorem tribs_setInv (x : Inventory) : (s.setInv x).tribs = s.tribs := rfl
@[simp] theorem flows_setInv (x : Inventory) : (s.setInv x).flows = s.flows := rfl
@[simp] theorem tw_setInv (x : Inventory) : (s.setInv x).tw = s.tw := rfl
@[simp] theorem msp_setInv (x : Inventory) : (s.setInv x).msp = s.msp := rfl
@[simp] theorem lend_setInv (x : Inventory) : (s.setInv x).lend = s.lend := rfl
@[simp] theorem cores_setInv (x : Inventory) : (s.setInv x).cores = s.cores := rfl
@[simp] theorem tasks_setInv (x : Inventory) : (s.setInv x).tasks = s.tasks := rfl
@[simp] theorem turns_setInv (x : Inventory) : (s.setInv x).turns = s.turns := rfl
@[simp] theorem chk_setInv (x : Inventory) : (s.setInv x).chk = s.chk := rfl
@[simp] theorem wtrs_setInv (x : Inventory) : (s.setInv x).wtrs = s.wtrs := rfl
@[simp] theorem reg_setInv (x : Inventory) (b : Nat) : (s.setInv x).reg b = s.reg b := rfl
@[simp] theorem fld_setInv (x : Inventory) (b : Nat) (g : Fld) : (s.setInv x).fld b g = s.fld b g := rfl
@[simp] theorem flag_setInv (x : Inventory) (b : Nat) (g : Fld) : (s.setInv x).flag b g = s.flag b g := rfl
@[simp] theorem bitAt_setInv (x : Inventory) (b c : Nat) : (s.setInv x).bitAt b c = s.bitAt b c := rfl
@[simp] theorem life_setInv (x : Inventory) : (s.setInv x).life = s.life := rfl
@[simp] theorem running_setInv (x : Inventory) (i : Nat) : (s.setInv x).running i = s.running i := rfl
@[simp] theorem byte_setInv (x : Inventory) (b : Nat) : (s.setInv x).byte b = s.byte b := rfl
@[simp] theorem core_setInv (x : Inventory) (q : Nat) : (s.setInv x).core q = s.core q := rfl
@[simp] theorem task_setInv (x : Inventory) (t : Nat) : (s.setInv x).task t = s.task t := rfl
@[simp] theorem pending_setUnit (n : Nat) (x : CheckUnit) : (s.setUnit n x).pending = s.pending := rfl
@[simp] theorem now_setUnit (n : Nat) (x : CheckUnit) : (s.setUnit n x).now = s.now := rfl
@[simp] theorem free_setUnit (n : Nat) (x : CheckUnit) : (s.setUnit n x).free = s.free := rfl
@[simp] theorem regs_setUnit (n : Nat) (x : CheckUnit) : (s.setUnit n x).regs = s.regs := rfl
@[simp] theorem mem_setUnit (n : Nat) (x : CheckUnit) : (s.setUnit n x).mem = s.mem := rfl
@[simp] theorem itc_setUnit (n : Nat) (x : CheckUnit) : (s.setUnit n x).itc = s.itc := rfl
@[simp] theorem chan_setUnit (n : Nat) (x : CheckUnit) : (s.setUnit n x).chan = s.chan := rfl
@[simp] theorem firsts_setUnit (n : Nat) (x : CheckUnit) : (s.setUnit n x).firsts = s.firsts := rfl
@[simp] theorem wins_setUnit (n : Nat) (x : CheckUnit) : (s.setUnit n x).wins = s.wins := rfl
@[simp] theorem sp_setUnit (n : Nat) (x : CheckUnit) : (s.setUnit n x).sp = s.sp := rfl
@[simp] theorem ld_setUnit (n : Nat) (x : CheckUnit) : (s.setUnit n x).ld = s.ld := rfl
@[simp] theorem mtx_setUnit (n : Nat) (x : CheckUnit) : (s.setUnit n x).mtx = s.mtx := rfl
@[simp] theorem eh_setUnit (n : Nat) (x : CheckUnit) : (s.setUnit n x).eh = s.eh := rfl
@[simp] theorem inv_setUnit (n : Nat) (x : CheckUnit) : (s.setUnit n x).inv = s.inv := rfl
@[simp] theorem mg_setUnit (n : Nat) (x : CheckUnit) : (s.setUnit n x).mg = s.mg := rfl
@[simp] theorem tm_setUnit (n : Nat) (x : CheckUnit) : (s.setUnit n x).tm = s.tm := rfl
@[simp] theorem mirrorQ_setUnit (n : Nat) (x : CheckUnit) : (s.setUnit n x).mirrorQ = s.mirrorQ := rfl
@[simp] theorem lines_setUnit (n : Nat) (x : CheckUnit) : (s.setUnit n x).lines = s.lines := rfl
@[simp] theorem paths_setUnit (n : Nat) (x : CheckUnit) : (s.setUnit n x).paths = s.paths := rfl
@[simp] theorem kept_setUnit (n : Nat) (x : CheckUnit) : (s.setUnit n x).kept = s.kept := rfl
@[simp] theorem engines_setUnit (n : Nat) (x : CheckUnit) : (s.setUnit n x).engines = s.engines := rfl
@[simp] theorem tribs_setUnit (n : Nat) (x : CheckUnit) : (s.setUnit n x).tribs = s.tribs := rfl
@[simp] theorem flows_setUnit (n : Nat) (x : CheckUnit) : (s.setUnit n x).flows = s.flows := rfl
@[simp] theorem tw_setUnit (n : Nat) (x : CheckUnit) : (s.setUnit n x).tw = s.tw := rfl
@[simp] theorem msp_setUnit (n : Nat) (x : CheckUnit) : (s.setUnit n x).msp = s.msp := rfl
@[simp] theorem lend_setUnit (n : Nat) (x : CheckUnit) : (s.setUnit n x).lend = s.lend := rfl
@[simp] theorem cores_setUnit (n : Nat) (x : CheckUnit) : (s.setUnit n x).cores = s.cores := rfl
@[simp] theorem tasks_setUnit (n : Nat) (x : CheckUnit) : (s.setUnit n x).tasks = s.tasks := rfl
@[simp] theorem turns_setUnit (n : Nat) (x : CheckUnit) : (s.setUnit n x).turns = s.turns := rfl
@[simp] theorem wtrs_setUnit (n : Nat) (x : CheckUnit) : (s.setUnit n x).wtrs = s.wtrs := rfl
@[simp] theorem reg_setUnit (n : Nat) (x : CheckUnit) (b : Nat) : (s.setUnit n x).reg b = s.reg b := rfl
@[simp] theorem fld_setUnit (n : Nat) (x : CheckUnit) (b : Nat) (g : Fld) : (s.setUnit n x).fld b g = s.fld b g := rfl
@[simp] theorem flag_setUnit (n : Nat) (x : CheckUnit) (b : Nat) (g : Fld) : (s.setUnit n x).flag b g = s.flag b g := rfl
@[simp] theorem bitAt_setUnit (n : Nat) (x : CheckUnit) (b c : Nat) : (s.setUnit n x).bitAt b c = s.bitAt b c := rfl
@[simp] theorem life_setUnit (n : Nat) (x : CheckUnit) : (s.setUnit n x).life = s.life := rfl
@[simp] theorem running_setUnit (n : Nat) (x : CheckUnit) (i : Nat) : (s.setUnit n x).running i = s.running i := rfl
@[simp] theorem byte_setUnit (n : Nat) (x : CheckUnit) (b : Nat) : (s.setUnit n x).byte b = s.byte b := rfl
@[simp] theorem core_setUnit (n : Nat) (x : CheckUnit) (q : Nat) : (s.setUnit n x).core q = s.core q := rfl
@[simp] theorem task_setUnit (n : Nat) (x : CheckUnit) (t : Nat) : (s.setUnit n x).task t = s.task t := rfl
@[simp] theorem pending_setTw (x : Twin) : (s.setTw x).pending = s.pending := rfl
@[simp] theorem now_setTw (x : Twin) : (s.setTw x).now = s.now := rfl
@[simp] theorem free_setTw (x : Twin) : (s.setTw x).free = s.free := rfl
@[simp] theorem regs_setTw (x : Twin) : (s.setTw x).regs = s.regs := rfl
@[simp] theorem mem_setTw (x : Twin) : (s.setTw x).mem = s.mem := rfl
@[simp] theorem itc_setTw (x : Twin) : (s.setTw x).itc = s.itc := rfl
@[simp] theorem chan_setTw (x : Twin) : (s.setTw x).chan = s.chan := rfl
@[simp] theorem firsts_setTw (x : Twin) : (s.setTw x).firsts = s.firsts := rfl
@[simp] theorem wins_setTw (x : Twin) : (s.setTw x).wins = s.wins := rfl
@[simp] theorem sp_setTw (x : Twin) : (s.setTw x).sp = s.sp := rfl
@[simp] theorem ld_setTw (x : Twin) : (s.setTw x).ld = s.ld := rfl
@[simp] theorem mtx_setTw (x : Twin) : (s.setTw x).mtx = s.mtx := rfl
@[simp] theorem eh_setTw (x : Twin) : (s.setTw x).eh = s.eh := rfl
@[simp] theorem inv_setTw (x : Twin) : (s.setTw x).inv = s.inv := rfl
@[simp] theorem mg_setTw (x : Twin) : (s.setTw x).mg = s.mg := rfl
@[simp] theorem tm_setTw (x : Twin) : (s.setTw x).tm = s.tm := rfl
@[simp] theorem mirrorQ_setTw (x : Twin) : (s.setTw x).mirrorQ = s.mirrorQ := rfl
@[simp] theorem lines_setTw (x : Twin) : (s.setTw x).lines = s.lines := rfl
@[simp] theorem paths_setTw (x : Twin) : (s.setTw x).paths = s.paths := rfl
@[simp] theorem kept_setTw (x : Twin) : (s.setTw x).kept = s.kept := rfl
@[simp] theorem engines_setTw (x : Twin) : (s.setTw x).engines = s.engines := rfl
@[simp] theorem tribs_setTw (x : Twin) : (s.setTw x).tribs = s.tribs := rfl
@[simp] theorem flows_setTw (x : Twin) : (s.setTw x).flows = s.flows := rfl
@[simp] theorem msp_setTw (x : Twin) : (s.setTw x).msp = s.msp := rfl
@[simp] theorem lend_setTw (x : Twin) : (s.setTw x).lend = s.lend := rfl
@[simp] theorem cores_setTw (x : Twin) : (s.setTw x).cores = s.cores := rfl
@[simp] theorem tasks_setTw (x : Twin) : (s.setTw x).tasks = s.tasks := rfl
@[simp] theorem turns_setTw (x : Twin) : (s.setTw x).turns = s.turns := rfl
@[simp] theorem chk_setTw (x : Twin) : (s.setTw x).chk = s.chk := rfl
@[simp] theorem wtrs_setTw (x : Twin) : (s.setTw x).wtrs = s.wtrs := rfl
@[simp] theorem reg_setTw (x : Twin) (b : Nat) : (s.setTw x).reg b = s.reg b := rfl
@[simp] theorem fld_setTw (x : Twin) (b : Nat) (g : Fld) : (s.setTw x).fld b g = s.fld b g := rfl
@[simp] theorem flag_setTw (x : Twin) (b : Nat) (g : Fld) : (s.setTw x).flag b g = s.flag b g := rfl
@[simp] theorem bitAt_setTw (x : Twin) (b c : Nat) : (s.setTw x).bitAt b c = s.bitAt b c := rfl
@[simp] theorem life_setTw (x : Twin) : (s.setTw x).life = s.life := rfl
@[simp] theorem running_setTw (x : Twin) (i : Nat) : (s.setTw x).running i = s.running i := rfl
@[simp] theorem byte_setTw (x : Twin) (b : Nat) : (s.setTw x).byte b = s.byte b := rfl
@[simp] theorem core_setTw (x : Twin) (q : Nat) : (s.setTw x).core q = s.core q := rfl
@[simp] theorem task_setTw (x : Twin) (t : Nat) : (s.setTw x).task t = s.task t := rfl
@[simp] theorem pending_setLine (n : Nat) (x : LinePort) : (s.setLine n x).pending = s.pending := rfl
@[simp] theorem now_setLine (n : Nat) (x : LinePort) : (s.setLine n x).now = s.now := rfl
@[simp] theorem free_setLine (n : Nat) (x : LinePort) : (s.setLine n x).free = s.free := rfl
@[simp] theorem regs_setLine (n : Nat) (x : LinePort) : (s.setLine n x).regs = s.regs := rfl
@[simp] theorem mem_setLine (n : Nat) (x : LinePort) : (s.setLine n x).mem = s.mem := rfl
@[simp] theorem itc_setLine (n : Nat) (x : LinePort) : (s.setLine n x).itc = s.itc := rfl
@[simp] theorem chan_setLine (n : Nat) (x : LinePort) : (s.setLine n x).chan = s.chan := rfl
@[simp] theorem firsts_setLine (n : Nat) (x : LinePort) : (s.setLine n x).firsts = s.firsts := rfl
@[simp] theorem wins_setLine (n : Nat) (x : LinePort) : (s.setLine n x).wins = s.wins := rfl
@[simp] theorem sp_setLine (n : Nat) (x : LinePort) : (s.setLine n x).sp = s.sp := rfl
@[simp] theorem ld_setLine (n : Nat) (x : LinePort) : (s.setLine n x).ld = s.ld := rfl
@[simp] theorem mtx_setLine (n : Nat) (x : LinePort) : (s.setLine n x).mtx = s.mtx := rfl
@[simp] theorem eh_setLine (n : Nat) (x : LinePort) : (s.setLine n x).eh = s.eh := rfl
@[simp] theorem inv_setLine (n : Nat) (x : LinePort) : (s.setLine n x).inv = s.inv := rfl
@[simp] theorem mg_setLine (n : Nat) (x : LinePort) : (s.setLine n x).mg = s.mg := rfl
@[simp] theorem tm_setLine (n : Nat) (x : LinePort) : (s.setLine n x).tm = s.tm := rfl
@[simp] theorem mirrorQ_setLine (n : Nat) (x : LinePort) : (s.setLine n x).mirrorQ = s.mirrorQ := rfl
@[simp] theorem paths_setLine (n : Nat) (x : LinePort) : (s.setLine n x).paths = s.paths := rfl
@[simp] theorem kept_setLine (n : Nat) (x : LinePort) : (s.setLine n x).kept = s.kept := rfl
@[simp] theorem engines_setLine (n : Nat) (x : LinePort) : (s.setLine n x).engines = s.engines := rfl
@[simp] theorem tribs_setLine (n : Nat) (x : LinePort) : (s.setLine n x).tribs = s.tribs := rfl
@[simp] theorem flows_setLine (n : Nat) (x : LinePort) : (s.setLine n x).flows = s.flows := rfl
@[simp] theorem tw_setLine (n : Nat) (x : LinePort) : (s.setLine n x).tw = s.tw := rfl
@[simp] theorem msp_setLine (n : Nat) (x : LinePort) : (s.setLine n x).msp = s.msp := rfl
@[simp] theorem lend_setLine (n : Nat) (x : LinePort) : (s.setLine n x).lend = s.lend := rfl
@[simp] theorem cores_setLine (n : Nat) (x : LinePort) : (s.setLine n x).cores = s.cores := rfl
@[simp] theorem tasks_setLine (n : Nat) (x : LinePort) : (s.setLine n x).tasks = s.tasks := rfl
@[simp] theorem turns_setLine (n : Nat) (x : LinePort) : (s.setLine n x).turns = s.turns := rfl
@[simp] theorem chk_setLine (n : Nat) (x : LinePort) : (s.setLine n x).chk = s.chk := rfl
@[simp] theorem wtrs_setLine (n : Nat) (x : LinePort) : (s.setLine n x).wtrs = s.wtrs := rfl
@[simp] theorem reg_setLine (n : Nat) (x : LinePort) (b : Nat) : (s.setLine n x).reg b = s.reg b := rfl
@[simp] theorem fld_setLine (n : Nat) (x : LinePort) (b : Nat) (g : Fld) : (s.setLine n x).fld b g = s.fld b g := rfl
@[simp] theorem flag_setLine (n : Nat) (x : LinePort) (b : Nat) (g : Fld) : (s.setLine n x).flag b g = s.flag b g := rfl
@[simp] theorem bitAt_setLine (n : Nat) (x : LinePort) (b c : Nat) : (s.setLine n x).bitAt b c = s.bitAt b c := rfl
@[simp] theorem life_setLine (n : Nat) (x : LinePort) : (s.setLine n x).life = s.life := rfl
@[simp] theorem running_setLine (n : Nat) (x : LinePort) (i : Nat) : (s.setLine n x).running i = s.running i := rfl
@[simp] theorem byte_setLine (n : Nat) (x : LinePort) (b : Nat) : (s.setLine n x).byte b = s.byte b := rfl
@[simp] theorem core_setLine (n : Nat) (x : LinePort) (q : Nat) : (s.setLine n x).core q = s.core q := rfl
@[simp] theorem task_setLine (n : Nat) (x : LinePort) (t : Nat) : (s.setLine n x).task t = s.task t := rfl
@[simp] theorem pending_setGrp (n : Nat) (x : Grp) : (s.setGrp n x).pending = s.pending := rfl
@[simp] theorem now_setGrp (n : Nat) (x : Grp) : (s.setGrp n x).now = s.now := rfl
@[simp] theorem free_setGrp (n : Nat) (x : Grp) : (s.setGrp n x).free = s.free := rfl
@[simp] theorem regs_setGrp (n : Nat) (x : Grp) : (s.setGrp n x).regs = s.regs := rfl
@[simp] theorem mem_setGrp (n : Nat) (x : Grp) : (s.setGrp n x).mem = s.mem := rfl
@[simp] theorem itc_setGrp (n : Nat) (x : Grp) : (s.setGrp n x).itc = s.itc := rfl
@[simp] theorem chan_setGrp (n : Nat) (x : Grp) : (s.setGrp n x).chan = s.chan := rfl
@[simp] theorem firsts_setGrp (n : Nat) (x : Grp) : (s.setGrp n x).firsts = s.firsts := rfl
@[simp] theorem wins_setGrp (n : Nat) (x : Grp) : (s.setGrp n x).wins = s.wins := rfl
@[simp] theorem sp_setGrp (n : Nat) (x : Grp) : (s.setGrp n x).sp = s.sp := rfl
@[simp] theorem ld_setGrp (n : Nat) (x : Grp) : (s.setGrp n x).ld = s.ld := rfl
@[simp] theorem mtx_setGrp (n : Nat) (x : Grp) : (s.setGrp n x).mtx = s.mtx := rfl
@[simp] theorem eh_setGrp (n : Nat) (x : Grp) : (s.setGrp n x).eh = s.eh := rfl
@[simp] theorem inv_setGrp (n : Nat) (x : Grp) : (s.setGrp n x).inv = s.inv := rfl
@[simp] theorem mg_setGrp (n : Nat) (x : Grp) : (s.setGrp n x).mg = s.mg := rfl
@[simp] theorem tm_setGrp (n : Nat) (x : Grp) : (s.setGrp n x).tm = s.tm := rfl
@[simp] theorem mirrorQ_setGrp (n : Nat) (x : Grp) : (s.setGrp n x).mirrorQ = s.mirrorQ := rfl
@[simp] theorem lines_setGrp (n : Nat) (x : Grp) : (s.setGrp n x).lines = s.lines := rfl
@[simp] theorem paths_setGrp (n : Nat) (x : Grp) : (s.setGrp n x).paths = s.paths := rfl
@[simp] theorem kept_setGrp (n : Nat) (x : Grp) : (s.setGrp n x).kept = s.kept := rfl
@[simp] theorem engines_setGrp (n : Nat) (x : Grp) : (s.setGrp n x).engines = s.engines := rfl
@[simp] theorem tribs_setGrp (n : Nat) (x : Grp) : (s.setGrp n x).tribs = s.tribs := rfl
@[simp] theorem flows_setGrp (n : Nat) (x : Grp) : (s.setGrp n x).flows = s.flows := rfl
@[simp] theorem tw_setGrp (n : Nat) (x : Grp) : (s.setGrp n x).tw = s.tw := rfl
@[simp] theorem lend_setGrp (n : Nat) (x : Grp) : (s.setGrp n x).lend = s.lend := rfl
@[simp] theorem cores_setGrp (n : Nat) (x : Grp) : (s.setGrp n x).cores = s.cores := rfl
@[simp] theorem tasks_setGrp (n : Nat) (x : Grp) : (s.setGrp n x).tasks = s.tasks := rfl
@[simp] theorem turns_setGrp (n : Nat) (x : Grp) : (s.setGrp n x).turns = s.turns := rfl
@[simp] theorem chk_setGrp (n : Nat) (x : Grp) : (s.setGrp n x).chk = s.chk := rfl
@[simp] theorem wtrs_setGrp (n : Nat) (x : Grp) : (s.setGrp n x).wtrs = s.wtrs := rfl
@[simp] theorem reg_setGrp (n : Nat) (x : Grp) (b : Nat) : (s.setGrp n x).reg b = s.reg b := rfl
@[simp] theorem fld_setGrp (n : Nat) (x : Grp) (b : Nat) (g : Fld) : (s.setGrp n x).fld b g = s.fld b g := rfl
@[simp] theorem flag_setGrp (n : Nat) (x : Grp) (b : Nat) (g : Fld) : (s.setGrp n x).flag b g = s.flag b g := rfl
@[simp] theorem bitAt_setGrp (n : Nat) (x : Grp) (b c : Nat) : (s.setGrp n x).bitAt b c = s.bitAt b c := rfl
@[simp] theorem life_setGrp (n : Nat) (x : Grp) : (s.setGrp n x).life = s.life := rfl
@[simp] theorem running_setGrp (n : Nat) (x : Grp) (i : Nat) : (s.setGrp n x).running i = s.running i := rfl
@[simp] theorem byte_setGrp (n : Nat) (x : Grp) (b : Nat) : (s.setGrp n x).byte b = s.byte b := rfl
@[simp] theorem core_setGrp (n : Nat) (x : Grp) (q : Nat) : (s.setGrp n x).core q = s.core q := rfl
@[simp] theorem task_setGrp (n : Nat) (x : Grp) (t : Nat) : (s.setGrp n x).task t = s.task t := rfl
@[simp] theorem pending_setPath (p : PathId) (x : PathPort) : (s.setPath p x).pending = s.pending := rfl
@[simp] theorem now_setPath (p : PathId) (x : PathPort) : (s.setPath p x).now = s.now := rfl
@[simp] theorem free_setPath (p : PathId) (x : PathPort) : (s.setPath p x).free = s.free := rfl
@[simp] theorem regs_setPath (p : PathId) (x : PathPort) : (s.setPath p x).regs = s.regs := rfl
@[simp] theorem mem_setPath (p : PathId) (x : PathPort) : (s.setPath p x).mem = s.mem := rfl
@[simp] theorem itc_setPath (p : PathId) (x : PathPort) : (s.setPath p x).itc = s.itc := rfl
@[simp] theorem chan_setPath (p : PathId) (x : PathPort) : (s.setPath p x).chan = s.chan := rfl
@[simp] theorem firsts_setPath (p : PathId) (x : PathPort) : (s.setPath p x).firsts = s.firsts := rfl
@[simp] theorem wins_setPath (p : PathId) (x : PathPort) : (s.setPath p x).wins = s.wins := rfl
@[simp] theorem sp_setPath (p : PathId) (x : PathPort) : (s.setPath p x).sp = s.sp := rfl
@[simp] theorem ld_setPath (p : PathId) (x : PathPort) : (s.setPath p x).ld = s.ld := rfl
@[simp] theorem mtx_setPath (p : PathId) (x : PathPort) : (s.setPath p x).mtx = s.mtx := rfl
@[simp] theorem eh_setPath (p : PathId) (x : PathPort) : (s.setPath p x).eh = s.eh := rfl
@[simp] theorem inv_setPath (p : PathId) (x : PathPort) : (s.setPath p x).inv = s.inv := rfl
@[simp] theorem mg_setPath (p : PathId) (x : PathPort) : (s.setPath p x).mg = s.mg := rfl
@[simp] theorem tm_setPath (p : PathId) (x : PathPort) : (s.setPath p x).tm = s.tm := rfl
@[simp] theorem mirrorQ_setPath (p : PathId) (x : PathPort) : (s.setPath p x).mirrorQ = s.mirrorQ := rfl
@[simp] theorem lines_setPath (p : PathId) (x : PathPort) : (s.setPath p x).lines = s.lines := rfl
@[simp] theorem kept_setPath (p : PathId) (x : PathPort) : (s.setPath p x).kept = s.kept := rfl
@[simp] theorem engines_setPath (p : PathId) (x : PathPort) : (s.setPath p x).engines = s.engines := rfl
@[simp] theorem tribs_setPath (p : PathId) (x : PathPort) : (s.setPath p x).tribs = s.tribs := rfl
@[simp] theorem flows_setPath (p : PathId) (x : PathPort) : (s.setPath p x).flows = s.flows := rfl
@[simp] theorem tw_setPath (p : PathId) (x : PathPort) : (s.setPath p x).tw = s.tw := rfl
@[simp] theorem msp_setPath (p : PathId) (x : PathPort) : (s.setPath p x).msp = s.msp := rfl
@[simp] theorem lend_setPath (p : PathId) (x : PathPort) : (s.setPath p x).lend = s.lend := rfl
@[simp] theorem cores_setPath (p : PathId) (x : PathPort) : (s.setPath p x).cores = s.cores := rfl
@[simp] theorem tasks_setPath (p : PathId) (x : PathPort) : (s.setPath p x).tasks = s.tasks := rfl
@[simp] theorem turns_setPath (p : PathId) (x : PathPort) : (s.setPath p x).turns = s.turns := rfl
@[simp] theorem chk_setPath (p : PathId) (x : PathPort) : (s.setPath p x).chk = s.chk := rfl
@[simp] theorem wtrs_setPath (p : PathId) (x : PathPort) : (s.setPath p x).wtrs = s.wtrs := rfl
@[simp] theorem reg_setPath (p : PathId) (x : PathPort) (b : Nat) : (s.setPath p x).reg b = s.reg b := rfl
@[simp] theorem fld_setPath (p : PathId) (x : PathPort) (b : Nat) (g : Fld) : (s.setPath p x).fld b g = s.fld b g := rfl
@[simp] theorem flag_setPath (p : PathId) (x : PathPort) (b : Nat) (g : Fld) : (s.setPath p x).flag b g = s.flag b g := rfl
@[simp] theorem bitAt_setPath (p : PathId) (x : PathPort) (b c : Nat) : (s.setPath p x).bitAt b c = s.bitAt b c := rfl
@[simp] theorem life_setPath (p : PathId) (x : PathPort) : (s.setPath p x).life = s.life := rfl
@[simp] theorem running_setPath (p : PathId) (x : PathPort) (i : Nat) : (s.setPath p x).running i = s.running i := rfl
@[simp] theorem byte_setPath (p : PathId) (x : PathPort) (b : Nat) : (s.setPath p x).byte b = s.byte b := rfl
@[simp] theorem core_setPath (p : PathId) (x : PathPort) (q : Nat) : (s.setPath p x).core q = s.core q := rfl
@[simp] theorem task_setPath (p : PathId) (x : PathPort) (t : Nat) : (s.setPath p x).task t = s.task t := rfl
@[simp] theorem pending_setFlow (n : Nat) (x : Flow) : (s.setFlow n x).pending = s.pending := rfl
@[simp] theorem now_setFlow (n : Nat) (x : Flow) : (s.setFlow n x).now = s.now := rfl
@[simp] theorem free_setFlow (n : Nat) (x : Flow) : (s.setFlow n x).free = s.free := rfl
@[simp] theorem regs_setFlow (n : Nat) (x : Flow) : (s.setFlow n x).regs = s.regs := rfl
@[simp] theorem mem_setFlow (n : Nat) (x : Flow) : (s.setFlow n x).mem = s.mem := rfl
@[simp] theorem itc_setFlow (n : Nat) (x : Flow) : (s.setFlow n x).itc = s.itc := rfl
@[simp] theorem chan_setFlow (n : Nat) (x : Flow) : (s.setFlow n x).chan = s.chan := rfl
@[simp] theorem firsts_setFlow (n : Nat) (x : Flow) : (s.setFlow n x).firsts = s.firsts := rfl
@[simp] theorem wins_setFlow (n : Nat) (x : Flow) : (s.setFlow n x).wins = s.wins := rfl
@[simp] theorem sp_setFlow (n : Nat) (x : Flow) : (s.setFlow n x).sp = s.sp := rfl
@[simp] theorem ld_setFlow (n : Nat) (x : Flow) : (s.setFlow n x).ld = s.ld := rfl
@[simp] theorem mtx_setFlow (n : Nat) (x : Flow) : (s.setFlow n x).mtx = s.mtx := rfl
@[simp] theorem eh_setFlow (n : Nat) (x : Flow) : (s.setFlow n x).eh = s.eh := rfl
@[simp] theorem inv_setFlow (n : Nat) (x : Flow) : (s.setFlow n x).inv = s.inv := rfl
@[simp] theorem mg_setFlow (n : Nat) (x : Flow) : (s.setFlow n x).mg = s.mg := rfl
@[simp] theorem tm_setFlow (n : Nat) (x : Flow) : (s.setFlow n x).tm = s.tm := rfl
@[simp] theorem mirrorQ_setFlow (n : Nat) (x : Flow) : (s.setFlow n x).mirrorQ = s.mirrorQ := rfl
@[simp] theorem lines_setFlow (n : Nat) (x : Flow) : (s.setFlow n x).lines = s.lines := rfl
@[simp] theorem paths_setFlow (n : Nat) (x : Flow) : (s.setFlow n x).paths = s.paths := rfl
@[simp] theorem kept_setFlow (n : Nat) (x : Flow) : (s.setFlow n x).kept = s.kept := rfl
@[simp] theorem engines_setFlow (n : Nat) (x : Flow) : (s.setFlow n x).engines = s.engines := rfl
@[simp] theorem tribs_setFlow (n : Nat) (x : Flow) : (s.setFlow n x).tribs = s.tribs := rfl
@[simp] theorem tw_setFlow (n : Nat) (x : Flow) : (s.setFlow n x).tw = s.tw := rfl
@[simp] theorem msp_setFlow (n : Nat) (x : Flow) : (s.setFlow n x).msp = s.msp := rfl
@[simp] theorem lend_setFlow (n : Nat) (x : Flow) : (s.setFlow n x).lend = s.lend := rfl
@[simp] theorem cores_setFlow (n : Nat) (x : Flow) : (s.setFlow n x).cores = s.cores := rfl
@[simp] theorem tasks_setFlow (n : Nat) (x : Flow) : (s.setFlow n x).tasks = s.tasks := rfl
@[simp] theorem turns_setFlow (n : Nat) (x : Flow) : (s.setFlow n x).turns = s.turns := rfl
@[simp] theorem chk_setFlow (n : Nat) (x : Flow) : (s.setFlow n x).chk = s.chk := rfl
@[simp] theorem wtrs_setFlow (n : Nat) (x : Flow) : (s.setFlow n x).wtrs = s.wtrs := rfl
@[simp] theorem reg_setFlow (n : Nat) (x : Flow) (b : Nat) : (s.setFlow n x).reg b = s.reg b := rfl
@[simp] theorem fld_setFlow (n : Nat) (x : Flow) (b : Nat) (g : Fld) : (s.setFlow n x).fld b g = s.fld b g := rfl
@[simp] theorem flag_setFlow (n : Nat) (x : Flow) (b : Nat) (g : Fld) : (s.setFlow n x).flag b g = s.flag b g := rfl
@[simp] theorem bitAt_setFlow (n : Nat) (x : Flow) (b c : Nat) : (s.setFlow n x).bitAt b c = s.bitAt b c := rfl
@[simp] theorem life_setFlow (n : Nat) (x : Flow) : (s.setFlow n x).life = s.life := rfl
@[simp] theorem running_setFlow (n : Nat) (x : Flow) (i : Nat) : (s.setFlow n x).running i = s.running i := rfl
@[simp] theorem byte_setFlow (n : Nat) (x : Flow) (b : Nat) : (s.setFlow n x).byte b = s.byte b := rfl
@[simp] theorem core_setFlow (n : Nat) (x : Flow) (q : Nat) : (s.setFlow n x).core q = s.core q := rfl
@[simp] theorem task_setFlow (n : Nat) (x : Flow) (t : Nat) : (s.setFlow n x).task t = s.task t := rfl
@[simp] theorem pending_setLend (x : Lending) : (s.setLend x).pending = s.pending := rfl
@[simp] theorem now_setLend (x : Lending) : (s.setLend x).now = s.now := rfl
@[simp] theorem free_setLend (x : Lending) : (s.setLend x).free = s.free := rfl
@[simp] theorem regs_setLend (x : Lending) : (s.setLend x).regs = s.regs := rfl
@[simp] theorem mem_setLend (x : Lending) : (s.setLend x).mem = s.mem := rfl
@[simp] theorem itc_setLend (x : Lending) : (s.setLend x).itc = s.itc := rfl
@[simp] theorem chan_setLend (x : Lending) : (s.setLend x).chan = s.chan := rfl
@[simp] theorem firsts_setLend (x : Lending) : (s.setLend x).firsts = s.firsts := rfl
@[simp] theorem wins_setLend (x : Lending) : (s.setLend x).wins = s.wins := rfl
@[simp] theorem sp_setLend (x : Lending) : (s.setLend x).sp = s.sp := rfl
@[simp] theorem ld_setLend (x : Lending) : (s.setLend x).ld = s.ld := rfl
@[simp] theorem mtx_setLend (x : Lending) : (s.setLend x).mtx = s.mtx := rfl
@[simp] theorem eh_setLend (x : Lending) : (s.setLend x).eh = s.eh := rfl
@[simp] theorem inv_setLend (x : Lending) : (s.setLend x).inv = s.inv := rfl
@[simp] theorem mg_setLend (x : Lending) : (s.setLend x).mg = s.mg := rfl
@[simp] theorem tm_setLend (x : Lending) : (s.setLend x).tm = s.tm := rfl
@[simp] theorem mirrorQ_setLend (x : Lending) : (s.setLend x).mirrorQ = s.mirrorQ := rfl
@[simp] theorem lines_setLend (x : Lending) : (s.setLend x).lines = s.lines := rfl
@[simp] theorem paths_setLend (x : Lending) : (s.setLend x).paths = s.paths := rfl
@[simp] theorem kept_setLend (x : Lending) : (s.setLend x).kept = s.kept := rfl
@[simp] theorem engines_setLend (x : Lending) : (s.setLend x).engines = s.engines := rfl
@[simp] theorem tribs_setLend (x : Lending) : (s.setLend x).tribs = s.tribs := rfl
@[simp] theorem flows_setLend (x : Lending) : (s.setLend x).flows = s.flows := rfl
@[simp] theorem tw_setLend (x : Lending) : (s.setLend x).tw = s.tw := rfl
@[simp] theorem msp_setLend (x : Lending) : (s.setLend x).msp = s.msp := rfl
@[simp] theorem cores_setLend (x : Lending) : (s.setLend x).cores = s.cores := rfl
@[simp] theorem tasks_setLend (x : Lending) : (s.setLend x).tasks = s.tasks := rfl
@[simp] theorem turns_setLend (x : Lending) : (s.setLend x).turns = s.turns := rfl
@[simp] theorem chk_setLend (x : Lending) : (s.setLend x).chk = s.chk := rfl
@[simp] theorem wtrs_setLend (x : Lending) : (s.setLend x).wtrs = s.wtrs := rfl
@[simp] theorem reg_setLend (x : Lending) (b : Nat) : (s.setLend x).reg b = s.reg b := rfl
@[simp] theorem fld_setLend (x : Lending) (b : Nat) (g : Fld) : (s.setLend x).fld b g = s.fld b g := rfl
@[simp] theorem flag_setLend (x : Lending) (b : Nat) (g : Fld) : (s.setLend x).flag b g = s.flag b g := rfl
@[simp] theorem bitAt_setLend (x : Lending) (b c : Nat) : (s.setLend x).bitAt b c = s.bitAt b c := rfl
@[simp] theorem life_setLend (x : Lending) : (s.setLend x).life = s.life := rfl
@[simp] theorem running_setLend (x : Lending) (i : Nat) : (s.setLend x).running i = s.running i := rfl
@[simp] theorem byte_setLend (x : Lending) (b : Nat) : (s.setLend x).byte b = s.byte b := rfl
@[simp] theorem core_setLend (x : Lending) (q : Nat) : (s.setLend x).core q = s.core q := rfl
@[simp] theorem task_setLend (x : Lending) (t : Nat) : (s.setLend x).task t = s.task t := rfl
@[simp] theorem pending_setCore (n : Nat) (x : Core) : (s.setCore n x).pending = s.pending := rfl
@[simp] theorem now_setCore (n : Nat) (x : Core) : (s.setCore n x).now = s.now := rfl
@[simp] theorem free_setCore (n : Nat) (x : Core) : (s.setCore n x).free = s.free := rfl
@[simp] theorem regs_setCore (n : Nat) (x : Core) : (s.setCore n x).regs = s.regs := rfl
@[simp] theorem mem_setCore (n : Nat) (x : Core) : (s.setCore n x).mem = s.mem := rfl
@[simp] theorem itc_setCore (n : Nat) (x : Core) : (s.setCore n x).itc = s.itc := rfl
@[simp] theorem chan_setCore (n : Nat) (x : Core) : (s.setCore n x).chan = s.chan := rfl
@[simp] theorem firsts_setCore (n : Nat) (x : Core) : (s.setCore n x).firsts = s.firsts := rfl
@[simp] theorem wins_setCore (n : Nat) (x : Core) : (s.setCore n x).wins = s.wins := rfl
@[simp] theorem sp_setCore (n : Nat) (x : Core) : (s.setCore n x).sp = s.sp := rfl
@[simp] theorem ld_setCore (n : Nat) (x : Core) : (s.setCore n x).ld = s.ld := rfl
@[simp] theorem mtx_setCore (n : Nat) (x : Core) : (s.setCore n x).mtx = s.mtx := rfl
@[simp] theorem eh_setCore (n : Nat) (x : Core) : (s.setCore n x).eh = s.eh := rfl
@[simp] theorem inv_setCore (n : Nat) (x : Core) : (s.setCore n x).inv = s.inv := rfl
@[simp] theorem mg_setCore (n : Nat) (x : Core) : (s.setCore n x).mg = s.mg := rfl
@[simp] theorem tm_setCore (n : Nat) (x : Core) : (s.setCore n x).tm = s.tm := rfl
@[simp] theorem mirrorQ_setCore (n : Nat) (x : Core) : (s.setCore n x).mirrorQ = s.mirrorQ := rfl
@[simp] theorem lines_setCore (n : Nat) (x : Core) : (s.setCore n x).lines = s.lines := rfl
@[simp] theorem paths_setCore (n : Nat) (x : Core) : (s.setCore n x).paths = s.paths := rfl
@[simp] theorem kept_setCore (n : Nat) (x : Core) : (s.setCore n x).kept = s.kept := rfl
@[simp] theorem engines_setCore (n : Nat) (x : Core) : (s.setCore n x).engines = s.engines := rfl
@[simp] theorem tribs_setCore (n : Nat) (x : Core) : (s.setCore n x).tribs = s.tribs := rfl
@[simp] theorem flows_setCore (n : Nat) (x : Core) : (s.setCore n x).flows = s.flows := rfl
@[simp] theorem tw_setCore (n : Nat) (x : Core) : (s.setCore n x).tw = s.tw := rfl
@[simp] theorem msp_setCore (n : Nat) (x : Core) : (s.setCore n x).msp = s.msp := rfl
@[simp] theorem lend_setCore (n : Nat) (x : Core) : (s.setCore n x).lend = s.lend := rfl
@[simp] theorem tasks_setCore (n : Nat) (x : Core) : (s.setCore n x).tasks = s.tasks := rfl
@[simp] theorem turns_setCore (n : Nat) (x : Core) : (s.setCore n x).turns = s.turns := rfl
@[simp] theorem chk_setCore (n : Nat) (x : Core) : (s.setCore n x).chk = s.chk := rfl
@[simp] theorem wtrs_setCore (n : Nat) (x : Core) : (s.setCore n x).wtrs = s.wtrs := rfl
@[simp] theorem reg_setCore (n : Nat) (x : Core) (b : Nat) : (s.setCore n x).reg b = s.reg b := rfl
@[simp] theorem fld_setCore (n : Nat) (x : Core) (b : Nat) (g : Fld) : (s.setCore n x).fld b g = s.fld b g := rfl
@[simp] theorem flag_setCore (n : Nat) (x : Core) (b : Nat) (g : Fld) : (s.setCore n x).flag b g = s.flag b g := rfl
@[simp] theorem bitAt_setCore (n : Nat) (x : Core) (b c : Nat) : (s.setCore n x).bitAt b c = s.bitAt b c := rfl
@[simp] theorem life_setCore (n : Nat) (x : Core) : (s.setCore n x).life = s.life := rfl
@[simp] theorem running_setCore (n : Nat) (x : Core) (i : Nat) : (s.setCore n x).running i = s.running i := rfl
@[simp] theorem byte_setCore (n : Nat) (x : Core) (b : Nat) : (s.setCore n x).byte b = s.byte b := rfl
@[simp] theorem task_setCore (n : Nat) (x : Core) (t : Nat) : (s.setCore n x).task t = s.task t := rfl
@[simp] theorem pending_setTask (n : Nat) (x : Task) : (s.setTask n x).pending = s.pending := rfl
@[simp] theorem now_setTask (n : Nat) (x : Task) : (s.setTask n x).now = s.now := rfl
@[simp] theorem free_setTask (n : Nat) (x : Task) : (s.setTask n x).free = s.free := rfl
@[simp] theorem regs_setTask (n : Nat) (x : Task) : (s.setTask n x).regs = s.regs := rfl
@[simp] theorem mem_setTask (n : Nat) (x : Task) : (s.setTask n x).mem = s.mem := rfl
@[simp] theorem itc_setTask (n : Nat) (x : Task) : (s.setTask n x).itc = s.itc := rfl
@[simp] theorem chan_setTask (n : Nat) (x : Task) : (s.setTask n x).chan = s.chan := rfl
@[simp] theorem firsts_setTask (n : Nat) (x : Task) : (s.setTask n x).firsts = s.firsts := rfl
@[simp] theorem wins_setTask (n : Nat) (x : Task) : (s.setTask n x).wins = s.wins := rfl
@[simp] theorem sp_setTask (n : Nat) (x : Task) : (s.setTask n x).sp = s.sp := rfl
@[simp] theorem ld_setTask (n : Nat) (x : Task) : (s.setTask n x).ld = s.ld := rfl
@[simp] theorem mtx_setTask (n : Nat) (x : Task) : (s.setTask n x).mtx = s.mtx := rfl
@[simp] theorem eh_setTask (n : Nat) (x : Task) : (s.setTask n x).eh = s.eh := rfl
@[simp] theorem inv_setTask (n : Nat) (x : Task) : (s.setTask n x).inv = s.inv := rfl
@[simp] theorem mg_setTask (n : Nat) (x : Task) : (s.setTask n x).mg = s.mg := rfl
@[simp] theorem tm_setTask (n : Nat) (x : Task) : (s.setTask n x).tm = s.tm := rfl
@[simp] theorem mirrorQ_setTask (n : Nat) (x : Task) : (s.setTask n x).mirrorQ = s.mirrorQ := rfl
@[simp] theorem lines_setTask (n : Nat) (x : Task) : (s.setTask n x).lines = s.lines := rfl
@[simp] theorem paths_setTask (n : Nat) (x : Task) : (s.setTask n x).paths = s.paths := rfl
@[simp] theorem kept_setTask (n : Nat) (x : Task) : (s.setTask n x).kept = s.kept := rfl
@[simp] theorem engines_setTask (n : Nat) (x : Task) : (s.setTask n x).engines = s.engines := rfl
@[simp] theorem tribs_setTask (n : Nat) (x : Task) : (s.setTask n x).tribs = s.tribs := rfl
@[simp] theorem flows_setTask (n : Nat) (x : Task) : (s.setTask n x).flows = s.flows := rfl
@[simp] theorem tw_setTask (n : Nat) (x : Task) : (s.setTask n x).tw = s.tw := rfl
@[simp] theorem msp_setTask (n : Nat) (x : Task) : (s.setTask n x).msp = s.msp := rfl
@[simp] theorem lend_setTask (n : Nat) (x : Task) : (s.setTask n x).lend = s.lend := rfl
@[simp] theorem cores_setTask (n : Nat) (x : Task) : (s.setTask n x).cores = s.cores := rfl
@[simp] theorem turns_setTask (n : Nat) (x : Task) : (s.setTask n x).turns = s.turns := rfl
@[simp] theorem chk_setTask (n : Nat) (x : Task) : (s.setTask n x).chk = s.chk := rfl
@[simp] theorem wtrs_setTask (n : Nat) (x : Task) : (s.setTask n x).wtrs = s.wtrs := rfl
@[simp] theorem reg_setTask (n : Nat) (x : Task) (b : Nat) : (s.setTask n x).reg b = s.reg b := rfl
@[simp] theorem fld_setTask (n : Nat) (x : Task) (b : Nat) (g : Fld) : (s.setTask n x).fld b g = s.fld b g := rfl
@[simp] theorem flag_setTask (n : Nat) (x : Task) (b : Nat) (g : Fld) : (s.setTask n x).flag b g = s.flag b g := rfl
@[simp] theorem bitAt_setTask (n : Nat) (x : Task) (b c : Nat) : (s.setTask n x).bitAt b c = s.bitAt b c := rfl
@[simp] theorem life_setTask (n : Nat) (x : Task) : (s.setTask n x).life = s.life := rfl
@[simp] theorem running_setTask (n : Nat) (x : Task) (i : Nat) : (s.setTask n x).running i = s.running i := rfl
@[simp] theorem byte_setTask (n : Nat) (x : Task) (b : Nat) : (s.setTask n x).byte b = s.byte b := rfl
@[simp] theorem core_setTask (n : Nat) (x : Task) (q : Nat) : (s.setTask n x).core q = s.core q := rfl
@[simp] theorem pending_setRef (n : Nat) (x : Ref) : (s.setRef n x).pending = s.pending := rfl
@[simp] theorem now_setRef (n : Nat) (x : Ref) : (s.setRef n x).now = s.now := rfl
@[simp] theorem free_setRef (n : Nat) (x : Ref) : (s.setRef n x).free = s.free := rfl
@[simp] theorem regs_setRef (n : Nat) (x : Ref) : (s.setRef n x).regs = s.regs := rfl
@[simp] theorem mem_setRef (n : Nat) (x : Ref) : (s.setRef n x).mem = s.mem := rfl
@[simp] theorem itc_setRef (n : Nat) (x : Ref) : (s.setRef n x).itc = s.itc := rfl
@[simp] theorem chan_setRef (n : Nat) (x : Ref) : (s.setRef n x).chan = s.chan := rfl
@[simp] theorem firsts_setRef (n : Nat) (x : Ref) : (s.setRef n x).firsts = s.firsts := rfl
@[simp] theorem wins_setRef (n : Nat) (x : Ref) : (s.setRef n x).wins = s.wins := rfl
@[simp] theorem sp_setRef (n : Nat) (x : Ref) : (s.setRef n x).sp = s.sp := rfl
@[simp] theorem ld_setRef (n : Nat) (x : Ref) : (s.setRef n x).ld = s.ld := rfl
@[simp] theorem mtx_setRef (n : Nat) (x : Ref) : (s.setRef n x).mtx = s.mtx := rfl
@[simp] theorem eh_setRef (n : Nat) (x : Ref) : (s.setRef n x).eh = s.eh := rfl
@[simp] theorem inv_setRef (n : Nat) (x : Ref) : (s.setRef n x).inv = s.inv := rfl
@[simp] theorem mg_setRef (n : Nat) (x : Ref) : (s.setRef n x).mg = s.mg := rfl
@[simp] theorem mirrorQ_setRef (n : Nat) (x : Ref) : (s.setRef n x).mirrorQ = s.mirrorQ := rfl
@[simp] theorem lines_setRef (n : Nat) (x : Ref) : (s.setRef n x).lines = s.lines := rfl
@[simp] theorem paths_setRef (n : Nat) (x : Ref) : (s.setRef n x).paths = s.paths := rfl
@[simp] theorem kept_setRef (n : Nat) (x : Ref) : (s.setRef n x).kept = s.kept := rfl
@[simp] theorem engines_setRef (n : Nat) (x : Ref) : (s.setRef n x).engines = s.engines := rfl
@[simp] theorem tribs_setRef (n : Nat) (x : Ref) : (s.setRef n x).tribs = s.tribs := rfl
@[simp] theorem flows_setRef (n : Nat) (x : Ref) : (s.setRef n x).flows = s.flows := rfl
@[simp] theorem tw_setRef (n : Nat) (x : Ref) : (s.setRef n x).tw = s.tw := rfl
@[simp] theorem msp_setRef (n : Nat) (x : Ref) : (s.setRef n x).msp = s.msp := rfl
@[simp] theorem lend_setRef (n : Nat) (x : Ref) : (s.setRef n x).lend = s.lend := rfl
@[simp] theorem cores_setRef (n : Nat) (x : Ref) : (s.setRef n x).cores = s.cores := rfl
@[simp] theorem tasks_setRef (n : Nat) (x : Ref) : (s.setRef n x).tasks = s.tasks := rfl
@[simp] theorem turns_setRef (n : Nat) (x : Ref) : (s.setRef n x).turns = s.turns := rfl
@[simp] theorem chk_setRef (n : Nat) (x : Ref) : (s.setRef n x).chk = s.chk := rfl
@[simp] theorem wtrs_setRef (n : Nat) (x : Ref) : (s.setRef n x).wtrs = s.wtrs := rfl
@[simp] theorem reg_setRef (n : Nat) (x : Ref) (b : Nat) : (s.setRef n x).reg b = s.reg b := rfl
@[simp] theorem fld_setRef (n : Nat) (x : Ref) (b : Nat) (g : Fld) : (s.setRef n x).fld b g = s.fld b g := rfl
@[simp] theorem flag_setRef (n : Nat) (x : Ref) (b : Nat) (g : Fld) : (s.setRef n x).flag b g = s.flag b g := rfl
@[simp] theorem bitAt_setRef (n : Nat) (x : Ref) (b c : Nat) : (s.setRef n x).bitAt b c = s.bitAt b c := rfl
@[simp] theorem life_setRef (n : Nat) (x : Ref) : (s.setRef n x).life = s.life := rfl
@[simp] theorem running_setRef (n : Nat) (x : Ref) (i : Nat) : (s.setRef n x).running i = s.running i := rfl
@[simp] theorem byte_setRef (n : Nat) (x : Ref) (b : Nat) : (s.setRef n x).byte b = s.byte b := rfl
@[simp] theorem core_setRef (n : Nat) (x : Ref) (q : Nat) : (s.setRef n x).core q = s.core q := rfl
@[simp] theorem task_setRef (n : Nat) (x : Ref) (t : Nat) : (s.setRef n x).task t = s.task t := rfl
@[simp] theorem pending_setDpll (n : Nat) (x : Dpll) : (s.setDpll n x).pending = s.pending := rfl
@[simp] theorem now_setDpll (n : Nat) (x : Dpll) : (s.setDpll n x).now = s.now := rfl
@[simp] theorem free_setDpll (n : Nat) (x : Dpll) : (s.setDpll n x).free = s.free := rfl
@[simp] theorem regs_setDpll (n : Nat) (x : Dpll) : (s.setDpll n x).regs = s.regs := rfl
@[simp] theorem mem_setDpll (n : Nat) (x : Dpll) : (s.setDpll n x).mem = s.mem := rfl
@[simp] theorem itc_setDpll (n : Nat) (x : Dpll) : (s.setDpll n x).itc = s.itc := rfl
@[simp] theorem chan_setDpll (n : Nat) (x : Dpll) : (s.setDpll n x).chan = s.chan := rfl
@[simp] theorem firsts_setDpll (n : Nat) (x : Dpll) : (s.setDpll n x).firsts = s.firsts := rfl
@[simp] theorem wins_setDpll (n : Nat) (x : Dpll) : (s.setDpll n x).wins = s.wins := rfl
@[simp] theorem sp_setDpll (n : Nat) (x : Dpll) : (s.setDpll n x).sp = s.sp := rfl
@[simp] theorem ld_setDpll (n : Nat) (x : Dpll) : (s.setDpll n x).ld = s.ld := rfl
@[simp] theorem mtx_setDpll (n : Nat) (x : Dpll) : (s.setDpll n x).mtx = s.mtx := rfl
@[simp] theorem eh_setDpll (n : Nat) (x : Dpll) : (s.setDpll n x).eh = s.eh := rfl
@[simp] theorem inv_setDpll (n : Nat) (x : Dpll) : (s.setDpll n x).inv = s.inv := rfl
@[simp] theorem mg_setDpll (n : Nat) (x : Dpll) : (s.setDpll n x).mg = s.mg := rfl
@[simp] theorem mirrorQ_setDpll (n : Nat) (x : Dpll) : (s.setDpll n x).mirrorQ = s.mirrorQ := rfl
@[simp] theorem lines_setDpll (n : Nat) (x : Dpll) : (s.setDpll n x).lines = s.lines := rfl
@[simp] theorem paths_setDpll (n : Nat) (x : Dpll) : (s.setDpll n x).paths = s.paths := rfl
@[simp] theorem kept_setDpll (n : Nat) (x : Dpll) : (s.setDpll n x).kept = s.kept := rfl
@[simp] theorem engines_setDpll (n : Nat) (x : Dpll) : (s.setDpll n x).engines = s.engines := rfl
@[simp] theorem tribs_setDpll (n : Nat) (x : Dpll) : (s.setDpll n x).tribs = s.tribs := rfl
@[simp] theorem flows_setDpll (n : Nat) (x : Dpll) : (s.setDpll n x).flows = s.flows := rfl
@[simp] theorem tw_setDpll (n : Nat) (x : Dpll) : (s.setDpll n x).tw = s.tw := rfl
@[simp] theorem msp_setDpll (n : Nat) (x : Dpll) : (s.setDpll n x).msp = s.msp := rfl
@[simp] theorem lend_setDpll (n : Nat) (x : Dpll) : (s.setDpll n x).lend = s.lend := rfl
@[simp] theorem cores_setDpll (n : Nat) (x : Dpll) : (s.setDpll n x).cores = s.cores := rfl
@[simp] theorem tasks_setDpll (n : Nat) (x : Dpll) : (s.setDpll n x).tasks = s.tasks := rfl
@[simp] theorem turns_setDpll (n : Nat) (x : Dpll) : (s.setDpll n x).turns = s.turns := rfl
@[simp] theorem chk_setDpll (n : Nat) (x : Dpll) : (s.setDpll n x).chk = s.chk := rfl
@[simp] theorem wtrs_setDpll (n : Nat) (x : Dpll) : (s.setDpll n x).wtrs = s.wtrs := rfl
@[simp] theorem reg_setDpll (n : Nat) (x : Dpll) (b : Nat) : (s.setDpll n x).reg b = s.reg b := rfl
@[simp] theorem fld_setDpll (n : Nat) (x : Dpll) (b : Nat) (g : Fld) : (s.setDpll n x).fld b g = s.fld b g := rfl
@[simp] theorem flag_setDpll (n : Nat) (x : Dpll) (b : Nat) (g : Fld) : (s.setDpll n x).flag b g = s.flag b g := rfl
@[simp] theorem bitAt_setDpll (n : Nat) (x : Dpll) (b c : Nat) : (s.setDpll n x).bitAt b c = s.bitAt b c := rfl
@[simp] theorem life_setDpll (n : Nat) (x : Dpll) : (s.setDpll n x).life = s.life := rfl
@[simp] theorem running_setDpll (n : Nat) (x : Dpll) (i : Nat) : (s.setDpll n x).running i = s.running i := rfl
@[simp] theorem byte_setDpll (n : Nat) (x : Dpll) (b : Nat) : (s.setDpll n x).byte b = s.byte b := rfl
@[simp] theorem core_setDpll (n : Nat) (x : Dpll) (q : Nat) : (s.setDpll n x).core q = s.core q := rfl
@[simp] theorem task_setDpll (n : Nat) (x : Dpll) (t : Nat) : (s.setDpll n x).task t = s.task t := rfl
@[simp] theorem pending_setTrib (n : Nat) (x : TribPort) : (s.setTrib n x).pending = s.pending := rfl
@[simp] theorem now_setTrib (n : Nat) (x : TribPort) : (s.setTrib n x).now = s.now := rfl
@[simp] theorem free_setTrib (n : Nat) (x : TribPort) : (s.setTrib n x).free = s.free := rfl
@[simp] theorem regs_setTrib (n : Nat) (x : TribPort) : (s.setTrib n x).regs = s.regs := rfl
@[simp] theorem mem_setTrib (n : Nat) (x : TribPort) : (s.setTrib n x).mem = s.mem := rfl
@[simp] theorem itc_setTrib (n : Nat) (x : TribPort) : (s.setTrib n x).itc = s.itc := rfl
@[simp] theorem chan_setTrib (n : Nat) (x : TribPort) : (s.setTrib n x).chan = s.chan := rfl
@[simp] theorem firsts_setTrib (n : Nat) (x : TribPort) : (s.setTrib n x).firsts = s.firsts := rfl
@[simp] theorem wins_setTrib (n : Nat) (x : TribPort) : (s.setTrib n x).wins = s.wins := rfl
@[simp] theorem sp_setTrib (n : Nat) (x : TribPort) : (s.setTrib n x).sp = s.sp := rfl
@[simp] theorem ld_setTrib (n : Nat) (x : TribPort) : (s.setTrib n x).ld = s.ld := rfl
@[simp] theorem mtx_setTrib (n : Nat) (x : TribPort) : (s.setTrib n x).mtx = s.mtx := rfl
@[simp] theorem eh_setTrib (n : Nat) (x : TribPort) : (s.setTrib n x).eh = s.eh := rfl
@[simp] theorem inv_setTrib (n : Nat) (x : TribPort) : (s.setTrib n x).inv = s.inv := rfl
@[simp] theorem mg_setTrib (n : Nat) (x : TribPort) : (s.setTrib n x).mg = s.mg := rfl
@[simp] theorem tm_setTrib (n : Nat) (x : TribPort) : (s.setTrib n x).tm = s.tm := rfl
@[simp] theorem mirrorQ_setTrib (n : Nat) (x : TribPort) : (s.setTrib n x).mirrorQ = s.mirrorQ := rfl
@[simp] theorem lines_setTrib (n : Nat) (x : TribPort) : (s.setTrib n x).lines = s.lines := rfl
@[simp] theorem paths_setTrib (n : Nat) (x : TribPort) : (s.setTrib n x).paths = s.paths := rfl
@[simp] theorem kept_setTrib (n : Nat) (x : TribPort) : (s.setTrib n x).kept = s.kept := rfl
@[simp] theorem engines_setTrib (n : Nat) (x : TribPort) : (s.setTrib n x).engines = s.engines := rfl
@[simp] theorem flows_setTrib (n : Nat) (x : TribPort) : (s.setTrib n x).flows = s.flows := rfl
@[simp] theorem tw_setTrib (n : Nat) (x : TribPort) : (s.setTrib n x).tw = s.tw := rfl
@[simp] theorem msp_setTrib (n : Nat) (x : TribPort) : (s.setTrib n x).msp = s.msp := rfl
@[simp] theorem lend_setTrib (n : Nat) (x : TribPort) : (s.setTrib n x).lend = s.lend := rfl
@[simp] theorem cores_setTrib (n : Nat) (x : TribPort) : (s.setTrib n x).cores = s.cores := rfl
@[simp] theorem tasks_setTrib (n : Nat) (x : TribPort) : (s.setTrib n x).tasks = s.tasks := rfl
@[simp] theorem turns_setTrib (n : Nat) (x : TribPort) : (s.setTrib n x).turns = s.turns := rfl
@[simp] theorem chk_setTrib (n : Nat) (x : TribPort) : (s.setTrib n x).chk = s.chk := rfl
@[simp] theorem wtrs_setTrib (n : Nat) (x : TribPort) : (s.setTrib n x).wtrs = s.wtrs := rfl
@[simp] theorem reg_setTrib (n : Nat) (x : TribPort) (b : Nat) : (s.setTrib n x).reg b = s.reg b := rfl
@[simp] theorem fld_setTrib (n : Nat) (x : TribPort) (b : Nat) (g : Fld) : (s.setTrib n x).fld b g = s.fld b g := rfl
@[simp] theorem flag_setTrib (n : Nat) (x : TribPort) (b : Nat) (g : Fld) : (s.setTrib n x).flag b g = s.flag b g := rfl
@[simp] theorem bitAt_setTrib (n : Nat) (x : TribPort) (b c : Nat) : (s.setTrib n x).bitAt b c = s.bitAt b c := rfl
@[simp] theorem life_setTrib (n : Nat) (x : TribPort) : (s.setTrib n x).life = s.life := rfl
@[simp] theorem running_setTrib (n : Nat) (x : TribPort) (i : Nat) : (s.setTrib n x).running i = s.running i := rfl
@[simp] theorem byte_setTrib (n : Nat) (x : TribPort) (b : Nat) : (s.setTrib n x).byte b = s.byte b := rfl
@[simp] theorem core_setTrib (n : Nat) (x : TribPort) (q : Nat) : (s.setTrib n x).core q = s.core q := rfl
@[simp] theorem task_setTrib (n : Nat) (x : TribPort) (t : Nat) : (s.setTrib n x).task t = s.task t := rfl
@[simp] theorem pending_reply (l : List Byte) : (s.reply l).pending = s.pending := rfl
@[simp] theorem now_reply (l : List Byte) : (s.reply l).now = s.now := rfl
@[simp] theorem free_reply (l : List Byte) : (s.reply l).free = s.free := rfl
@[simp] theorem regs_reply (l : List Byte) : (s.reply l).regs = s.regs := rfl
@[simp] theorem mem_reply (l : List Byte) : (s.reply l).mem = s.mem := rfl
@[simp] theorem itc_reply (l : List Byte) : (s.reply l).itc = s.itc := rfl
@[simp] theorem chan_reply (l : List Byte) : (s.reply l).chan = s.chan := rfl
@[simp] theorem firsts_reply (l : List Byte) : (s.reply l).firsts = s.firsts := rfl
@[simp] theorem wins_reply (l : List Byte) : (s.reply l).wins = s.wins := rfl
@[simp] theorem sp_reply (l : List Byte) : (s.reply l).sp = s.sp := rfl
@[simp] theorem ld_reply (l : List Byte) : (s.reply l).ld = s.ld := rfl
@[simp] theorem mtx_reply (l : List Byte) : (s.reply l).mtx = s.mtx := rfl
@[simp] theorem eh_reply (l : List Byte) : (s.reply l).eh = s.eh := rfl
@[simp] theorem inv_reply (l : List Byte) : (s.reply l).inv = s.inv := rfl
@[simp] theorem tm_reply (l : List Byte) : (s.reply l).tm = s.tm := rfl
@[simp] theorem mirrorQ_reply (l : List Byte) : (s.reply l).mirrorQ = s.mirrorQ := rfl
@[simp] theorem lines_reply (l : List Byte) : (s.reply l).lines = s.lines := rfl
@[simp] theorem paths_reply (l : List Byte) : (s.reply l).paths = s.paths := rfl
@[simp] theorem kept_reply (l : List Byte) : (s.reply l).kept = s.kept := rfl
@[simp] theorem engines_reply (l : List Byte) : (s.reply l).engines = s.engines := rfl
@[simp] theorem tribs_reply (l : List Byte) : (s.reply l).tribs = s.tribs := rfl
@[simp] theorem flows_reply (l : List Byte) : (s.reply l).flows = s.flows := rfl
@[simp] theorem tw_reply (l : List Byte) : (s.reply l).tw = s.tw := rfl
@[simp] theorem msp_reply (l : List Byte) : (s.reply l).msp = s.msp := rfl
@[simp] theorem lend_reply (l : List Byte) : (s.reply l).lend = s.lend := rfl
@[simp] theorem cores_reply (l : List Byte) : (s.reply l).cores = s.cores := rfl
@[simp] theorem tasks_reply (l : List Byte) : (s.reply l).tasks = s.tasks := rfl
@[simp] theorem turns_reply (l : List Byte) : (s.reply l).turns = s.turns := rfl
@[simp] theorem chk_reply (l : List Byte) : (s.reply l).chk = s.chk := rfl
@[simp] theorem wtrs_reply (l : List Byte) : (s.reply l).wtrs = s.wtrs := rfl
@[simp] theorem reg_reply (l : List Byte) (b : Nat) : (s.reply l).reg b = s.reg b := rfl
@[simp] theorem fld_reply (l : List Byte) (b : Nat) (g : Fld) : (s.reply l).fld b g = s.fld b g := rfl
@[simp] theorem flag_reply (l : List Byte) (b : Nat) (g : Fld) : (s.reply l).flag b g = s.flag b g := rfl
@[simp] theorem bitAt_reply (l : List Byte) (b c : Nat) : (s.reply l).bitAt b c = s.bitAt b c := rfl
@[simp] theorem life_reply (l : List Byte) : (s.reply l).life = s.life := rfl
@[simp] theorem running_reply (l : List Byte) (i : Nat) : (s.reply l).running i = s.running i := rfl
@[simp] theorem byte_reply (l : List Byte) (b : Nat) : (s.reply l).byte b = s.byte b := rfl
@[simp] theorem core_reply (l : List Byte) (q : Nat) : (s.reply l).core q = s.core q := rfl
@[simp] theorem task_reply (l : List Byte) (t : Nat) : (s.reply l).task t = s.task t := rfl
@[simp] theorem pending_raise (isl e : Nat) (d : List Word) : (s.raise isl e d).pending = s.pending := by unfold State.raise; split <;> rfl
@[simp] theorem now_raise (isl e : Nat) (d : List Word) : (s.raise isl e d).now = s.now := by unfold State.raise; split <;> rfl
@[simp] theorem free_raise (isl e : Nat) (d : List Word) : (s.raise isl e d).free = s.free := by unfold State.raise; split <;> rfl
@[simp] theorem regs_raise (isl e : Nat) (d : List Word) : (s.raise isl e d).regs = s.regs := by unfold State.raise; split <;> rfl
@[simp] theorem mem_raise (isl e : Nat) (d : List Word) : (s.raise isl e d).mem = s.mem := by unfold State.raise; split <;> rfl
@[simp] theorem itc_raise (isl e : Nat) (d : List Word) : (s.raise isl e d).itc = s.itc := by unfold State.raise; split <;> rfl
@[simp] theorem firsts_raise (isl e : Nat) (d : List Word) : (s.raise isl e d).firsts = s.firsts := by unfold State.raise; split <;> rfl
@[simp] theorem wins_raise (isl e : Nat) (d : List Word) : (s.raise isl e d).wins = s.wins := by unfold State.raise; split <;> rfl
@[simp] theorem sp_raise (isl e : Nat) (d : List Word) : (s.raise isl e d).sp = s.sp := by unfold State.raise; split <;> rfl
@[simp] theorem ld_raise (isl e : Nat) (d : List Word) : (s.raise isl e d).ld = s.ld := by unfold State.raise; split <;> rfl
@[simp] theorem mtx_raise (isl e : Nat) (d : List Word) : (s.raise isl e d).mtx = s.mtx := by unfold State.raise; split <;> rfl
@[simp] theorem inv_raise (isl e : Nat) (d : List Word) : (s.raise isl e d).inv = s.inv := by unfold State.raise; split <;> rfl
@[simp] theorem mg_raise (isl e : Nat) (d : List Word) : (s.raise isl e d).mg = s.mg := by unfold State.raise; split <;> rfl
@[simp] theorem tm_raise (isl e : Nat) (d : List Word) : (s.raise isl e d).tm = s.tm := by unfold State.raise; split <;> rfl
@[simp] theorem mirrorQ_raise (isl e : Nat) (d : List Word) : (s.raise isl e d).mirrorQ = s.mirrorQ := by unfold State.raise; split <;> rfl
@[simp] theorem lines_raise (isl e : Nat) (d : List Word) : (s.raise isl e d).lines = s.lines := by unfold State.raise; split <;> rfl
@[simp] theorem paths_raise (isl e : Nat) (d : List Word) : (s.raise isl e d).paths = s.paths := by unfold State.raise; split <;> rfl
@[simp] theorem kept_raise (isl e : Nat) (d : List Word) : (s.raise isl e d).kept = s.kept := by unfold State.raise; split <;> rfl
@[simp] theorem engines_raise (isl e : Nat) (d : List Word) : (s.raise isl e d).engines = s.engines := by unfold State.raise; split <;> rfl
@[simp] theorem tribs_raise (isl e : Nat) (d : List Word) : (s.raise isl e d).tribs = s.tribs := by unfold State.raise; split <;> rfl
@[simp] theorem flows_raise (isl e : Nat) (d : List Word) : (s.raise isl e d).flows = s.flows := by unfold State.raise; split <;> rfl
@[simp] theorem tw_raise (isl e : Nat) (d : List Word) : (s.raise isl e d).tw = s.tw := by unfold State.raise; split <;> rfl
@[simp] theorem msp_raise (isl e : Nat) (d : List Word) : (s.raise isl e d).msp = s.msp := by unfold State.raise; split <;> rfl
@[simp] theorem lend_raise (isl e : Nat) (d : List Word) : (s.raise isl e d).lend = s.lend := by unfold State.raise; split <;> rfl
@[simp] theorem cores_raise (isl e : Nat) (d : List Word) : (s.raise isl e d).cores = s.cores := by unfold State.raise; split <;> rfl
@[simp] theorem tasks_raise (isl e : Nat) (d : List Word) : (s.raise isl e d).tasks = s.tasks := by unfold State.raise; split <;> rfl
@[simp] theorem turns_raise (isl e : Nat) (d : List Word) : (s.raise isl e d).turns = s.turns := by unfold State.raise; split <;> rfl
@[simp] theorem chk_raise (isl e : Nat) (d : List Word) : (s.raise isl e d).chk = s.chk := by unfold State.raise; split <;> rfl
@[simp] theorem wtrs_raise (isl e : Nat) (d : List Word) : (s.raise isl e d).wtrs = s.wtrs := by unfold State.raise; split <;> rfl
@[simp] theorem reg_raise (isl e : Nat) (d : List Word) (b : Nat) : (s.raise isl e d).reg b = s.reg b := by unfold State.raise; split <;> rfl
@[simp] theorem fld_raise (isl e : Nat) (d : List Word) (b : Nat) (g : Fld) : (s.raise isl e d).fld b g = s.fld b g := by unfold State.raise; split <;> rfl
@[simp] theorem flag_raise (isl e : Nat) (d : List Word) (b : Nat) (g : Fld) : (s.raise isl e d).flag b g = s.flag b g := by unfold State.raise; split <;> rfl
@[simp] theorem bitAt_raise (isl e : Nat) (d : List Word) (b c : Nat) : (s.raise isl e d).bitAt b c = s.bitAt b c := by unfold State.raise; split <;> rfl
@[simp] theorem life_raise (isl e : Nat) (d : List Word) : (s.raise isl e d).life = s.life := by unfold State.raise; split <;> rfl
@[simp] theorem running_raise (isl e : Nat) (d : List Word) (i : Nat) : (s.raise isl e d).running i = s.running i := by unfold State.raise; split <;> rfl
@[simp] theorem byte_raise (isl e : Nat) (d : List Word) (b : Nat) : (s.raise isl e d).byte b = s.byte b := by unfold State.raise; split <;> rfl
@[simp] theorem core_raise (isl e : Nat) (d : List Word) (q : Nat) : (s.raise isl e d).core q = s.core q := by unfold State.raise; split <;> rfl
@[simp] theorem task_raise (isl e : Nat) (d : List Word) (t : Nat) : (s.raise isl e d).task t = s.task t := by unfold State.raise; split <;> rfl
@[simp] theorem pending_raiseFirst (isl e u : Nat) (d : List Word) : (s.raiseFirst isl e u d).pending = s.pending := by unfold State.raiseFirst State.raise; dsimp only; (repeat' split) <;> rfl
@[simp] theorem now_raiseFirst (isl e u : Nat) (d : List Word) : (s.raiseFirst isl e u d).now = s.now := by unfold State.raiseFirst State.raise; dsimp only; (repeat' split) <;> rfl
@[simp] theorem free_raiseFirst (isl e u : Nat) (d : List Word) : (s.raiseFirst isl e u d).free = s.free := by unfold State.raiseFirst State.raise; dsimp only; (repeat' split) <;> rfl
@[simp] theorem regs_raiseFirst (isl e u : Nat) (d : List Word) : (s.raiseFirst isl e u d).regs = s.regs := by unfold State.raiseFirst State.raise; dsimp only; (repeat' split) <;> rfl
@[simp] theorem mem_raiseFirst (isl e u : Nat) (d : List Word) : (s.raiseFirst isl e u d).mem = s.mem := by unfold State.raiseFirst State.raise; dsimp only; (repeat' split) <;> rfl
@[simp] theorem itc_raiseFirst (isl e u : Nat) (d : List Word) : (s.raiseFirst isl e u d).itc = s.itc := by unfold State.raiseFirst State.raise; dsimp only; (repeat' split) <;> rfl
@[simp] theorem wins_raiseFirst (isl e u : Nat) (d : List Word) : (s.raiseFirst isl e u d).wins = s.wins := by unfold State.raiseFirst State.raise; dsimp only; (repeat' split) <;> rfl
@[simp] theorem sp_raiseFirst (isl e u : Nat) (d : List Word) : (s.raiseFirst isl e u d).sp = s.sp := by unfold State.raiseFirst State.raise; dsimp only; (repeat' split) <;> rfl
@[simp] theorem ld_raiseFirst (isl e u : Nat) (d : List Word) : (s.raiseFirst isl e u d).ld = s.ld := by unfold State.raiseFirst State.raise; dsimp only; (repeat' split) <;> rfl
@[simp] theorem mtx_raiseFirst (isl e u : Nat) (d : List Word) : (s.raiseFirst isl e u d).mtx = s.mtx := by unfold State.raiseFirst State.raise; dsimp only; (repeat' split) <;> rfl
@[simp] theorem inv_raiseFirst (isl e u : Nat) (d : List Word) : (s.raiseFirst isl e u d).inv = s.inv := by unfold State.raiseFirst State.raise; dsimp only; (repeat' split) <;> rfl
@[simp] theorem mg_raiseFirst (isl e u : Nat) (d : List Word) : (s.raiseFirst isl e u d).mg = s.mg := by unfold State.raiseFirst State.raise; dsimp only; (repeat' split) <;> rfl
@[simp] theorem tm_raiseFirst (isl e u : Nat) (d : List Word) : (s.raiseFirst isl e u d).tm = s.tm := by unfold State.raiseFirst State.raise; dsimp only; (repeat' split) <;> rfl
@[simp] theorem mirrorQ_raiseFirst (isl e u : Nat) (d : List Word) : (s.raiseFirst isl e u d).mirrorQ = s.mirrorQ := by unfold State.raiseFirst State.raise; dsimp only; (repeat' split) <;> rfl
@[simp] theorem lines_raiseFirst (isl e u : Nat) (d : List Word) : (s.raiseFirst isl e u d).lines = s.lines := by unfold State.raiseFirst State.raise; dsimp only; (repeat' split) <;> rfl
@[simp] theorem paths_raiseFirst (isl e u : Nat) (d : List Word) : (s.raiseFirst isl e u d).paths = s.paths := by unfold State.raiseFirst State.raise; dsimp only; (repeat' split) <;> rfl
@[simp] theorem kept_raiseFirst (isl e u : Nat) (d : List Word) : (s.raiseFirst isl e u d).kept = s.kept := by unfold State.raiseFirst State.raise; dsimp only; (repeat' split) <;> rfl
@[simp] theorem engines_raiseFirst (isl e u : Nat) (d : List Word) : (s.raiseFirst isl e u d).engines = s.engines := by unfold State.raiseFirst State.raise; dsimp only; (repeat' split) <;> rfl
@[simp] theorem tribs_raiseFirst (isl e u : Nat) (d : List Word) : (s.raiseFirst isl e u d).tribs = s.tribs := by unfold State.raiseFirst State.raise; dsimp only; (repeat' split) <;> rfl
@[simp] theorem flows_raiseFirst (isl e u : Nat) (d : List Word) : (s.raiseFirst isl e u d).flows = s.flows := by unfold State.raiseFirst State.raise; dsimp only; (repeat' split) <;> rfl
@[simp] theorem tw_raiseFirst (isl e u : Nat) (d : List Word) : (s.raiseFirst isl e u d).tw = s.tw := by unfold State.raiseFirst State.raise; dsimp only; (repeat' split) <;> rfl
@[simp] theorem msp_raiseFirst (isl e u : Nat) (d : List Word) : (s.raiseFirst isl e u d).msp = s.msp := by unfold State.raiseFirst State.raise; dsimp only; (repeat' split) <;> rfl
@[simp] theorem lend_raiseFirst (isl e u : Nat) (d : List Word) : (s.raiseFirst isl e u d).lend = s.lend := by unfold State.raiseFirst State.raise; dsimp only; (repeat' split) <;> rfl
@[simp] theorem cores_raiseFirst (isl e u : Nat) (d : List Word) : (s.raiseFirst isl e u d).cores = s.cores := by unfold State.raiseFirst State.raise; dsimp only; (repeat' split) <;> rfl
@[simp] theorem tasks_raiseFirst (isl e u : Nat) (d : List Word) : (s.raiseFirst isl e u d).tasks = s.tasks := by unfold State.raiseFirst State.raise; dsimp only; (repeat' split) <;> rfl
@[simp] theorem turns_raiseFirst (isl e u : Nat) (d : List Word) : (s.raiseFirst isl e u d).turns = s.turns := by unfold State.raiseFirst State.raise; dsimp only; (repeat' split) <;> rfl
@[simp] theorem chk_raiseFirst (isl e u : Nat) (d : List Word) : (s.raiseFirst isl e u d).chk = s.chk := by unfold State.raiseFirst State.raise; dsimp only; (repeat' split) <;> rfl
@[simp] theorem wtrs_raiseFirst (isl e u : Nat) (d : List Word) : (s.raiseFirst isl e u d).wtrs = s.wtrs := by unfold State.raiseFirst State.raise; dsimp only; (repeat' split) <;> rfl
@[simp] theorem reg_raiseFirst (isl e u : Nat) (d : List Word) (b : Nat) : (s.raiseFirst isl e u d).reg b = s.reg b := by unfold State.raiseFirst State.raise; dsimp only; (repeat' split) <;> rfl
@[simp] theorem fld_raiseFirst (isl e u : Nat) (d : List Word) (b : Nat) (g : Fld) : (s.raiseFirst isl e u d).fld b g = s.fld b g := by unfold State.raiseFirst State.raise; dsimp only; (repeat' split) <;> rfl
@[simp] theorem flag_raiseFirst (isl e u : Nat) (d : List Word) (b : Nat) (g : Fld) : (s.raiseFirst isl e u d).flag b g = s.flag b g := by unfold State.raiseFirst State.raise; dsimp only; (repeat' split) <;> rfl
@[simp] theorem bitAt_raiseFirst (isl e u : Nat) (d : List Word) (b c : Nat) : (s.raiseFirst isl e u d).bitAt b c = s.bitAt b c := by unfold State.raiseFirst State.raise; dsimp only; (repeat' split) <;> rfl
@[simp] theorem life_raiseFirst (isl e u : Nat) (d : List Word) : (s.raiseFirst isl e u d).life = s.life := by unfold State.raiseFirst State.raise; dsimp only; (repeat' split) <;> rfl
@[simp] theorem running_raiseFirst (isl e u : Nat) (d : List Word) (i : Nat) : (s.raiseFirst isl e u d).running i = s.running i := by unfold State.raiseFirst State.raise; dsimp only; (repeat' split) <;> rfl
@[simp] theorem byte_raiseFirst (isl e u : Nat) (d : List Word) (b : Nat) : (s.raiseFirst isl e u d).byte b = s.byte b := by unfold State.raiseFirst State.raise; dsimp only; (repeat' split) <;> rfl
@[simp] theorem core_raiseFirst (isl e u : Nat) (d : List Word) (q : Nat) : (s.raiseFirst isl e u d).core q = s.core q := by unfold State.raiseFirst State.raise; dsimp only; (repeat' split) <;> rfl
@[simp] theorem task_raiseFirst (isl e u : Nat) (d : List Word) (t : Nat) : (s.raiseFirst isl e u d).task t = s.task t := by unfold State.raiseFirst State.raise; dsimp only; (repeat' split) <;> rfl

/-- What `raise` adds: one event at the end of the channel, with the raising island's time (R91, R418); nothing in Dormant (R26). -/
theorem chan_raise (isl e : Nat) (d : List Word) :
    (s.raise isl e d).chan = if s.sp.dormant then s.chan else s.chan ++ [⟨e, isl, s.itcOf isl, d⟩] := by
  unfold State.raise; split <;> simp_all

@[simp] theorem cores_core_setCore (q : Nat) (x : Core) : (s.setCore q x).core q = x := by simp [State.core, State.setCore]

@[simp] theorem tasks_task_setTask (t : Nat) (x : Task) : (s.setTask t x).task t = x := by simp [State.task, State.setTask]

theorem core_setCore_ne {q r : Nat} (x : Core) (h : q ≠ r) : (s.setCore q x).core r = s.core r := by
  simp [State.core, State.setCore, tget_tset_ne _ _ _ _ h]

theorem task_setTask_ne {t u : Nat} (x : Task) (h : t ≠ u) : (s.setTask t x).task u = s.task u := by
  simp [State.task, State.setTask, tget_tset_ne _ _ _ _ h]

end Sys2Proof.Machine
end

