-- ==== Sys2Proof/Laws/KeepsOps.lean ====
section
/-! SUPPORT. Every operation of Machine/Ops.lean leaves the queue, true time and the canonical form of memory and registers alone. -/

namespace Sys2Proof.Machine

/-- Bytes laid out from `a` on have rising addresses within the range and none of them is 0. -/
theorem cellsFrom_wf (a : Nat) (bs : List Byte) :
    rising (cellsFrom a bs) = true ∧ ∀ p ∈ cellsFrom a bs, a ≤ p.1 ∧ p.1 < a + bs.length ∧ p.2 ≠ 0 := by
  induction bs generalizing a with
  | nil => exact ⟨rfl, fun p hp => by simp [cellsFrom] at hp⟩
  | cons b bs ih =>
    obtain ⟨h1, h2⟩ := ih (a + 1)
    unfold cellsFrom
    split
    · refine ⟨h1, fun p hp => ?_⟩
      have := h2 p hp
      simp only [List.length_cons]
      exact ⟨by omega, by omega, this.2.2⟩
    · next hb =>
      refine ⟨rising_cons.mpr ⟨fun p hp => by have := h2 p hp; omega, h1⟩, fun p hp => ?_⟩
      simp only [List.mem_cons, List.length_cons] at hp ⊢
      rcases hp with rfl | hp
      · exact ⟨by simp, by simp, hb⟩
      · have := h2 p hp
        exact ⟨by omega, by omega, this.2.2⟩

/-- Two tables in rising order, all of the first before all of the second, are one table in rising order. -/
theorem rising_append {α : Type} {t u : Tbl α} (ht : rising t = true) (hu : rising u = true)
    (h : ∀ p ∈ t, ∀ q ∈ u, p.1 < q.1) : rising (t ++ u) = true := by
  induction t with
  | nil => exact hu
  | cons p t ih =>
    rw [rising_cons] at ht
    refine rising_cons.mpr ⟨fun q hq => ?_, ih ht.2 fun x hx => h x (List.mem_cons_of_mem _ hx)⟩
    rcases List.mem_append.mp hq with hq | hq
    · exact ht.1 q hq
    · exact h p List.mem_cons_self q hq

/-- Storing a list of bytes keeps the memory's canonical form. -/
theorem memory_setBytes_wf {m : List Host.Cell} (a : Nat) (bs : List Byte) (h : Memory.wf m = true) :
    Memory.wf (m.filter (fun p => decide (p.1 < a)) ++ cellsFrom a bs ++ m.filter (fun p => decide (a + bs.length ≤ p.1))) = true := by
  unfold Memory.wf at h ⊢
  rw [tableWf_iff] at h ⊢
  obtain ⟨h1, h2⟩ := cellsFrom_wf a bs
  refine ⟨rising_append (rising_append (rising_filter h.1) h1 ?_) (rising_filter h.1) ?_, ?_⟩
  · intro p hp q hq
    have := (List.mem_filter.mp hp).2
    have := h2 q hq
    simp_all
    omega
  · intro p hp q hq
    have hq' := (List.mem_filter.mp hq).2
    rcases List.mem_append.mp hp with hp | hp
    · have := (List.mem_filter.mp hp).2
      simp_all
      omega
    · have := h2 p hp
      simp_all
      omega
  · intro p hp
    rcases List.mem_append.mp hp with hp | hp
    · rcases List.mem_append.mp hp with hp | hp
      · exact h.2 p (List.mem_of_mem_filter hp)
      · exact (h2 p hp).2.2
    · exact h.2 p (List.mem_of_mem_filter hp)

/-- What every operation of a step leaves alone, from state `r` to state `s`: the queue, true time and the canonical form of memory and
registers. -/
structure Keeps (r s : State) : Prop where
  queue : s.pending = r.pending
  clock : s.now = r.now
  mem : Memory.wf r.mem = true → Memory.wf s.mem = true
  regs : tableWf r.regs resetWord = true → tableWf s.regs resetWord = true

/-- `Keeps` of a command's outcome: of its next state, where it has one. -/
def KeepsO (r : State) (o : Host.Outcome State Fault Refusal) : Prop := ∀ t, o = .next t → Keeps r t

theorem keeps_refl (r : State) : Keeps r r := ⟨rfl, rfl, id, id⟩

/-- A state that differs from a kept one in other fields only is kept. -/
theorem keeps_same {r s t : State} (h : Keeps r s) (hq : t.pending = s.pending) (hc : t.now = s.now) (hm : t.mem = s.mem)
    (hr : t.regs = s.regs) : Keeps r t :=
  ⟨hq.trans h.queue, hc.trans h.clock, fun x => hm ▸ h.mem x, fun x => hr ▸ h.regs x⟩

theorem keeps_trans {r s t : State} (h : Keeps r s) (g : Keeps s t) : Keeps r t :=
  ⟨g.queue.trans h.queue, g.clock.trans h.clock, fun x => g.mem (h.mem x), fun x => g.regs (h.regs x)⟩

theorem keeps_ite {r s t : State} {c : Prop} [Decidable c] (h : Keeps r s) (g : Keeps r t) : Keeps r (if c then s else t) := by
  split <;> assumption

theorem keeps_next {r s : State} (h : Keeps r s) : KeepsO r (.next s) := by
  intro t ht
  cases ht
  exact h

theorem keeps_setReg {r s : State} (h : Keeps r s) (a : Nat) (w : Word) : Keeps r (s.setReg a w) :=
  ⟨h.queue, h.clock, h.mem, fun x => tableWf_tset a w (h.regs x)⟩

theorem keeps_setByte {r s : State} (h : Keeps r s) (a : Nat) (b : Byte) : Keeps r (s.setByte a b) :=
  ⟨h.queue, h.clock, fun x => tableWf_tset (d := fun _ => 0) a b (h.mem x), h.regs⟩

theorem keeps_zero {r s : State} (h : Keeps r s) (a n : Nat) : Keeps r (s.zero a n) :=
  ⟨h.queue, h.clock, fun x => tableWf_filter (h.mem x), h.regs⟩

theorem keeps_setBytes {r s : State} (h : Keeps r s) (a : Nat) (bs : List Byte) : Keeps r (s.setBytes a bs) :=
  ⟨h.queue, h.clock, fun x => memory_setBytes_wf a bs (h.mem x), h.regs⟩

theorem keeps_each {r s : State} {α : Type} (h : Keeps r s) (l : List α) (f : State → α → State)
    (hf : ∀ x, Keeps r x → ∀ a, Keeps r (f x a)) : Keeps r (s.each l f) := by
  unfold State.each
  induction l generalizing s with
  | nil => exact h
  | cons a l ih => exact ih (hf s h a)

theorem keeps_when {r s : State} (h : Keeps r s) (c : Bool) (f : State → State) (hf : ∀ x, Keeps r x → Keeps r (f x)) :
    Keeps r (s.when c f) := by
  unfold State.when
  split
  · exact hf s h
  · exact h

theorem keeps_mk {r s : State} (h : Keeps r s) (free : Nat) (itc : Tbl Clock) (chan : List Ev) (firsts : Tbl Nat) (wins : Tbl Win) (sp : Sup) (ld : Loader) (mtx : Matrix) (eh : Hub) (inv : Inventory) (mg : Bridge) (tm : Timing) (mirrorQ : List MirrorRec) (lines : Tbl LinePort) (paths : Tbl PathPort) (kept : Tbl Kept) (engines : Tbl Engine) (tribs : Tbl TribPort) (flows : Tbl Flow) (tw : Twin) (msp : Tbl Grp) (lend : Lending) (cores : Tbl Core) (tasks : Tbl Task) (turns : Nat) (chk : Tbl CheckUnit) (wtrs : Tbl Nat) :
    Keeps r (State.mk s.pending s.now free s.regs s.mem itc chan firsts wins sp ld mtx eh inv mg tm mirrorQ lines paths kept engines tribs flows tw msp lend cores tasks turns chk wtrs) :=
  ⟨h.queue, h.clock, h.mem, h.regs⟩

theorem keeps_fst {α : Type} {r t : State} {p : State × α} {a : α} (h : Keeps r p.1) (e : p = (t, a)) : Keeps r t := by
  subst e
  exact h

theorem keeps_raise {r s : State} (h : Keeps r s) (isl : Nat) (e : Nat) (data : List Word) :
    Keeps r (State.raise s isl e data) := by
  unfold State.raise
  repeat' with_reducible first
    | assumption | apply keeps_ite | (apply keeps_mk; assumption)

theorem keeps_raiseFirst {r s : State} (h : Keeps r s) (isl : Nat) (e : Nat) (unit : Nat) (data : List Word) :
    Keeps r (State.raiseFirst s isl e unit data) := by
  unfold State.raiseFirst
  repeat' with_reducible first
    | assumption | apply keeps_raise | apply keeps_ite | (apply keeps_mk; assumption)

theorem keeps_useFree {r s : State} (h : Keeps r s) :
    Keeps r (State.useFree s) := by
  unfold State.useFree
  repeat' with_reducible first
    | assumption | apply keeps_ite | (apply keeps_mk; assumption)

theorem keeps_mirror {r s : State} (h : Keeps r s) (a : Nat) (mask : Word) (value : Word) :
    Keeps r (State.mirror s a mask value) := by
  unfold State.mirror
  repeat' with_reducible first
    | assumption | apply keeps_ite | (apply keeps_mk; assumption)

theorem keeps_serviceWrite {r s : State} (h : Keeps r s) (a : Nat) (mask : Word) (value : Word) :
    Keeps r (State.serviceWrite s a mask value) := by
  unfold State.serviceWrite
  repeat' with_reducible first
    | assumption | apply keeps_mirror | apply keeps_setReg

theorem keeps_setFld {r s : State} (h : Keeps r s) (a : Nat) (f : Fld) (v : Nat) :
    Keeps r (State.setFld s a f v) := by
  unfold State.setFld
  repeat' with_reducible first
    | assumption | apply keeps_setReg

theorem keeps_setFlag {r s : State} (h : Keeps r s) (a : Nat) (f : Fld) (b : Bool) :
    Keeps r (State.setFlag s a f b) := by
  unfold State.setFlag
  repeat' with_reducible first
    | assumption | apply keeps_setFld

theorem keeps_setBitAt {r s : State} (h : Keeps r s) (a : Nat) (b : Nat) (v : Bool) :
    Keeps r (State.setBitAt s a b v) := by
  unfold State.setBitAt
  repeat' with_reducible first
    | assumption | apply keeps_setFlag

theorem keeps_count {r s : State} (h : Keeps r s) (a : Nat) (n : Nat) :
    Keeps r (State.count s a n) := by
  unfold State.count
  repeat' with_reducible first
    | assumption | apply keeps_setReg

theorem keeps_satInc {r s : State} (h : Keeps r s) (a : Nat) (f : Fld) (m : Nat) :
    Keeps r (State.satInc s a f m) := by
  unfold State.satInc
  repeat' with_reducible first
    | assumption | apply keeps_setFld

theorem keeps_setWord {r s : State} (h : Keeps r s) (a : Nat) (w : Word) :
    Keeps r (State.setWord s a w) := by
  unfold State.setWord
  repeat' with_reducible first
    | assumption | apply keeps_setBytes

end Sys2Proof.Machine
end

