-- ==== Sys2Proof/Laws/KeepsAccess.lean ====
section
/-! SUPPORT. Every operation of Machine/Access.lean leaves the queue, true time and the canonical form of memory and registers alone. -/

namespace Sys2Proof.Machine

theorem keeps_errorResponse {r s : State} (h : Keeps r s) (port : Nat) (tgt : Nat) (code : Nat) (id : Nat) (write : Bool) (addr : Nat) (gate : Nat) :
    Keeps r (State.errorResponse s port tgt code id write addr gate) := by
  unfold State.errorResponse
  repeat' first
    | (with_reducible first
        | assumption | apply keeps_setReg | apply keeps_raise | refine keeps_fst ?_ (by assumption) | apply keeps_ite
        | (apply keeps_mk; assumption) | (apply keeps_mk; first | assumption | apply keeps_setReg | apply keeps_raise | apply keeps_ite))
    | extract_lets +onlyGivenNames x | intro x | split

theorem keeps_bridgeError {r s : State} (h : Keeps r s) (addr : Nat) (code : Nat) (write : Bool) :
    Keeps r (State.bridgeError s addr code write) := by
  unfold State.bridgeError
  repeat' first
    | (with_reducible first
        | assumption | apply keeps_setReg | apply keeps_raiseFirst | (apply keeps_mk; assumption)
        | (apply keeps_mk; first | assumption | apply keeps_setReg | apply keeps_raiseFirst))
    | extract_lets +onlyGivenNames x | intro x

theorem keeps_setMtx {r s : State} (h : Keeps r s) (x : Matrix) :
    Keeps r (State.setMtx s x) := by
  unfold State.setMtx
  repeat' with_reducible first
    | assumption | (apply keeps_mk; assumption)

theorem keeps_respond {r s : State} (h : Keeps r s) (code : Nat) :
    Keeps r (State.respond s code) := by
  unfold State.respond
  repeat' with_reducible first
    | assumption | apply keeps_setMtx | (apply keeps_mk; assumption)

theorem keeps_setTxn {r s : State} (h : Keeps r s) (k : Nat) (t0 : Txn) :
    Keeps r (State.setTxn s k t0) := by
  unfold State.setTxn
  repeat' with_reducible first
    | assumption | apply keeps_setMtx | (apply keeps_mk; assumption)

theorem keeps_movePointer {r s : State} (h : Keeps r s) (tgt : Nat) (port : Nat) :
    Keeps r (State.movePointer s tgt port) := by
  unfold State.movePointer
  repeat' with_reducible first
    | assumption | apply keeps_setMtx | apply keeps_ite | (apply keeps_mk; assumption)

theorem keeps_accept {r s : State} (h : Keeps r s) (r0 : Req) :
    Keeps r (State.accept s r0) := by
  unfold State.accept
  repeat' with_reducible first
    | assumption | apply keeps_setTxn | apply keeps_setMtx | (apply keeps_mk; assumption)

theorem keeps_release {r s : State} (h : Keeps r s) (k : Nat) :
    Keeps r (State.release s k) := by
  unfold State.release
  repeat' first
    | (with_reducible first
        | assumption | apply keeps_setMtx | apply keeps_movePointer | apply keeps_accept | refine keeps_fst ?_ (by assumption)
        | (apply keeps_mk; assumption))
    | extract_lets +onlyGivenNames x | intro x hx | intro x | split

theorem keeps_endTxn {r s : State} (h : Keeps r s) (k : Nat) (code : Nat) (gate : Nat) :
    Keeps r (State.endTxn s k code gate) := by
  unfold State.endTxn
  repeat' first
    | (with_reducible first
        | assumption | apply keeps_release | apply keeps_errorResponse | apply keeps_bridgeError | refine keeps_fst ?_ (by assumption)
        | apply keeps_ite)
    | extract_lets +onlyGivenNames x | intro x hx | intro x | split

theorem keeps_offlineTxns {r s : State} (h : Keeps r s) (l : List Nat) :
    Keeps r (State.offlineTxns s l) := by
  unfold State.offlineTxns
  repeat' first
    | (with_reducible first
        | assumption | apply keeps_each | apply keeps_endTxn | refine keeps_fst ?_ (by assumption))
    | extract_lets +onlyGivenNames x | intro x hx | intro x

theorem keeps_resetPort {r s : State} (h : Keeps r s) (port : Nat) :
    Keeps r (State.resetPort s port) := by
  unfold State.resetPort
  repeat' first
    | (with_reducible first
        | assumption | apply keeps_setMtx | apply keeps_each | apply keeps_setTxn | apply keeps_useFree | apply keeps_raise
        | refine keeps_fst ?_ (by assumption) | apply keeps_ite | (apply keeps_mk; assumption))
    | extract_lets +onlyGivenNames x | intro x hx | intro x

theorem keeps_resetPorts {r s : State} (h : Keeps r s) (l : List Nat) :
    Keeps r (State.resetPorts s l) := by
  unfold State.resetPorts
  repeat' with_reducible first
    | assumption | apply keeps_each | apply keeps_resetPort

theorem keeps_logAccess {r s : State} (h : Keeps r s) (port : Nat) (id : Nat) (write : Bool) (addr : Nat) :
    Keeps r (State.logAccess s port id write addr) := by
  unfold State.logAccess
  repeat' with_reducible first
    | assumption | apply keeps_errorResponse | apply keeps_bridgeError | apply keeps_ite

theorem keeps_judgedWrite {r s : State} (h : Keeps r s) (w : Writer) (ok : Bool) (isl : Nat) (addr : Nat) (f : State → State) (hf : ∀ x, Keeps r x → Keeps r (f x)) :
    Keeps r (State.judgedWrite s w ok isl addr f) := by
  unfold State.judgedWrite
  repeat' first
    | (with_reducible first
        | assumption | apply keeps_respond | apply keeps_movePointer | apply keeps_logAccess | apply keeps_ite)
    | apply hf

theorem keeps_commandWrite {r s : State} (h : Keeps r s) (w : Writer) (svc : Bool) (mnt : Bool) (isl : Nat) (addr : Nat) (f : State → State) (hf : ∀ x, Keeps r x → Keeps r (f x)) :
    Keeps r (State.commandWrite s w svc mnt isl addr f) := by
  unfold State.commandWrite
  repeat' first
    | (with_reducible first
        | assumption | apply keeps_judgedWrite | apply keeps_bridgeError | refine keeps_fst ?_ (by assumption) | apply keeps_ite)
    | apply hf | extract_lets +onlyGivenNames x | intro x | split

end Sys2Proof.Machine
end

