-- ==== Sys2Proof/Laws/KeepsLife.lean ====
section
/-! SUPPORT. Every operation of Machine/Life.lean leaves the queue, true time and the canonical form of memory and registers alone. -/

namespace Sys2Proof.Machine

theorem keeps_syncGate {r s : State} (h : Keeps r s) (g : Nat) :
    Keeps r (State.syncGate s g) := by
  unfold State.syncGate
  repeat' with_reducible first
    | assumption | apply keeps_setFlag | apply keeps_setFld | apply keeps_raise | apply keeps_ite

theorem keeps_syncGates {r s : State} (h : Keeps r s) :
    Keeps r (State.syncGates s) := by
  unfold State.syncGates
  repeat' with_reducible first
    | assumption | apply keeps_each | apply keeps_syncGate

theorem keeps_clockIsland {r s : State} (h : Keeps r s) (b : Bool) (i : Nat) :
    Keeps r (State.clockIsland s b i) := by
  unfold State.clockIsland
  repeat' with_reducible first
    | assumption | apply keeps_setBitAt | apply keeps_ite | (apply keeps_mk; assumption)

theorem keeps_clearGates {r s : State} (h : Keeps r s) (l : List Nat) :
    Keeps r (State.clearGates s l) := by
  unfold State.clearGates
  repeat' with_reducible first
    | assumption | (apply keeps_mk; assumption)

theorem keeps_setIslands {r s : State} (h : Keeps r s) (l : List Nat) (b : Bool) :
    Keeps r (State.setIslands s l b) := by
  unfold State.setIslands
  repeat' first
    | (with_reducible first
        | assumption | apply keeps_each | apply keeps_clockIsland | apply keeps_raise | apply keeps_syncGates | apply keeps_clearGates
        | apply keeps_offlineTxns | apply keeps_resetPorts | apply keeps_ite)
    | extract_lets +onlyGivenNames x | intro x hx | intro x

theorem keeps_updateDriven {r s : State} (h : Keeps r s) :
    Keeps r (State.updateDriven s) := by
  unfold State.updateDriven
  repeat' first
    | (with_reducible first
        | assumption | apply keeps_each | apply keeps_setFlag | apply keeps_ite)
    | extract_lets +onlyGivenNames x | intro x hx | intro x

theorem keeps_updatePads {r s : State} (h : Keeps r s) :
    Keeps r (State.updatePads s) := by
  unfold State.updatePads
  repeat' with_reducible first
    | assumption | apply keeps_setFlag | apply keeps_updateDriven

theorem keeps_squelchClose {r s : State} (h : Keeps r s) :
    Keeps r (State.squelchClose s) := by
  unfold State.squelchClose
  repeat' with_reducible first
    | assumption | apply keeps_setFlag | apply keeps_raise | apply keeps_ite

theorem keeps_updateLaser {r s : State} (h : Keeps r s) (n : Nat) :
    Keeps r (State.updateLaser s n) := by
  unfold State.updateLaser
  repeat' with_reducible first
    | assumption | apply keeps_setFlag

theorem keeps_driveClaim {r s : State} (h : Keeps r s) (b : Bool) :
    Keeps r (State.driveClaim s b) := by
  unfold State.driveClaim
  repeat' with_reducible first
    | assumption | apply keeps_setFlag | apply keeps_updatePads | apply keeps_raise | apply keeps_ite

theorem keeps_setTw {r s : State} (h : Keeps r s) (x : Twin) :
    Keeps r (State.setTw s x) := by
  unfold State.setTw
  repeat' with_reducible first
    | assumption | (apply keeps_mk; assumption)

theorem keeps_roleTo {r s : State} (h : Keeps r s) (r0 : Nat) :
    Keeps r (State.roleTo s r0) := by
  unfold State.roleTo
  repeat' with_reducible first
    | assumption | apply keeps_setFld | apply keeps_raise | apply keeps_driveClaim | apply keeps_ite

theorem keeps_updateHitless {r s : State} (h : Keeps r s) :
    Keeps r (State.updateHitless s) := by
  unfold State.updateHitless
  repeat' with_reducible first
    | assumption | apply keeps_setFlag | apply keeps_raise | apply keeps_ite

theorem keeps_updateSilent {r s : State} (h : Keeps r s) :
    Keeps r (State.updateSilent s) := by
  unfold State.updateSilent
  repeat' with_reducible first
    | assumption | apply keeps_setTw | apply keeps_setFlag | apply keeps_ite | (apply keeps_mk; assumption)

theorem keeps_updateEqWtr {r s : State} (h : Keeps r s) :
    Keeps r (State.updateEqWtr s) := by
  unfold State.updateEqWtr
  repeat' with_reducible first
    | assumption | apply keeps_setTw | apply keeps_setFlag | apply keeps_raise | apply keeps_ite | (apply keeps_mk; assumption)

theorem keeps_dropCommand {r s : State} (h : Keeps r s) :
    Keeps r (State.dropCommand s) := by
  unfold State.dropCommand
  repeat' with_reducible first
    | assumption | apply keeps_setFld | apply keeps_ite

theorem keeps_switchDone {r s : State} (h : Keeps r s) (kind : Nat) :
    Keeps r (State.switchDone s kind) := by
  unfold State.switchDone
  repeat' with_reducible first
    | assumption | apply keeps_count | apply keeps_raise

theorem keeps_dropHandover {r s : State} (h : Keeps r s) :
    Keeps r (State.dropHandover s) := by
  unfold State.dropHandover
  repeat' with_reducible first
    | assumption | apply keeps_setTw | apply keeps_ite | (apply keeps_mk; assumption)

theorem keeps_moveRole {r s : State} (h : Keeps r s) :
    Keeps r (State.moveRole s) := by
  unfold State.moveRole
  repeat' with_reducible first
    | assumption | apply keeps_setTw | apply keeps_roleTo | apply keeps_switchDone | apply keeps_ite | (apply keeps_mk; assumption)

theorem keeps_roleEval {r s : State} (h : Keeps r s) :
    Keeps r (State.roleEval s) := by
  unfold State.roleEval
  repeat' with_reducible first
    | assumption | apply keeps_setFlag | apply keeps_roleTo | apply keeps_updateHitless | apply keeps_updateSilent
    | apply keeps_updateEqWtr | apply keeps_dropCommand | apply keeps_setFld | apply keeps_dropHandover | apply keeps_moveRole
    | apply keeps_ite

theorem keeps_enter {r s : State} (h : Keeps r s) (st : Nat) (cause : Nat) (extra : List Word) :
    Keeps r (State.enter s st cause extra) := by
  unfold State.enter
  repeat' with_reducible first
    | assumption | apply keeps_setFld | apply keeps_raise | apply keeps_updatePads | apply keeps_each | apply keeps_updateLaser
    | apply keeps_setTw | apply keeps_roleEval | apply keeps_ite | (apply keeps_mk; assumption)

theorem keeps_lockBridge {r s : State} (h : Keeps r s) (reason : Nat) :
    Keeps r (State.lockBridge s reason) := by
  unfold State.lockBridge
  repeat' with_reducible first
    | assumption | apply keeps_setFld | apply keeps_raise | apply keeps_ite

theorem keeps_lasersOff {r s : State} (h : Keeps r s) :
    Keeps r (State.lasersOff s) := by
  unfold State.lasersOff
  repeat' with_reducible first
    | assumption | apply keeps_setFld

theorem keeps_outputsOff {r s : State} (h : Keeps r s) :
    Keeps r (State.outputsOff s) := by
  unfold State.outputsOff
  repeat' with_reducible first
    | assumption | apply keeps_setFlag | apply keeps_updateDriven | apply keeps_lasersOff | apply keeps_squelchClose

theorem keeps_markEntry {r s : State} (h : Keeps r s) :
    Keeps r (State.markEntry s) := by
  unfold State.markEntry
  repeat' with_reducible first
    | assumption | (apply keeps_mk; assumption)

theorem keeps_mergeCause {r s : State} (h : Keeps r s) (e : Nat) (cause : Nat) :
    Keeps r (State.mergeCause s e cause) := by
  unfold State.mergeCause
  repeat' with_reducible first
    | assumption | apply keeps_raise | apply keeps_setFld

theorem keeps_enterSafe {r s : State} (h : Keeps r s) (prev : Nat) (cause : Nat) :
    Keeps r (State.enterSafe s prev cause) := by
  unfold State.enterSafe
  repeat' first
    | (with_reducible first
        | assumption | apply keeps_driveClaim | apply keeps_setFld | apply keeps_enter | apply keeps_outputsOff | apply keeps_setFlag
        | apply keeps_markEntry | apply keeps_lockBridge | apply keeps_setIslands | (apply keeps_mk; assumption)
        | (apply keeps_mk; first | assumption | apply keeps_driveClaim | apply keeps_setFld | apply keeps_enter | apply keeps_outputsOff | apply keeps_setFlag | apply keeps_markEntry | apply keeps_lockBridge | apply keeps_setIslands))
    | extract_lets +onlyGivenNames x | intro x

theorem keeps_safeEntry {r s : State} (h : Keeps r s) (cause : Nat) :
    Keeps r (State.safeEntry s cause) := by
  unfold State.safeEntry
  repeat' with_reducible first
    | assumption | apply keeps_mergeCause | apply keeps_useFree | apply keeps_enterSafe | apply keeps_ite

theorem keeps_limpFault {r s : State} (h : Keeps r s) (b : Nat) (code : Nat) :
    Keeps r (State.limpFault s b code) := by
  unfold State.limpFault
  repeat' with_reducible first
    | assumption | apply keeps_setBitAt | apply keeps_mergeCause | apply keeps_useFree | apply keeps_raise | apply keeps_enter
    | apply keeps_markEntry | apply keeps_safeEntry | apply keeps_ite

theorem keeps_limpClear {r s : State} (h : Keeps r s) (b : Nat) :
    Keeps r (State.limpClear s b) := by
  unfold State.limpClear
  repeat' with_reducible first
    | assumption | apply keeps_setBitAt | apply keeps_raise | apply keeps_enter | apply keeps_ite

theorem keeps_ladder {r s : State} (h : Keeps r s) (lvl : Nat) (source : Nat) :
    Keeps r (State.ladder s lvl source) := by
  unfold State.ladder
  repeat' with_reducible first
    | assumption | apply keeps_count | apply keeps_setFld | apply keeps_raise

theorem keeps_noteFiring {r s : State} (h : Keeps r s) (lvl : Nat) (source : Nat) (span : Nat) :
    Keeps r (State.noteFiring s lvl source span) := by
  unfold State.noteFiring
  repeat' with_reducible first
    | assumption | (apply keeps_mk; assumption)

theorem keeps_escalate {r s : State} (h : Keeps r s) (lvl : Nat) (source : Nat) :
    Keeps r (State.escalate s lvl source) := by
  unfold State.escalate
  repeat' with_reducible first
    | assumption | apply keeps_raise

end Sys2Proof.Machine
end

