-- ==== Sys2Proof/Laws/KeepsSched.lean ====
section
/-! SUPPORT. Every operation of Machine/Sched.lean leaves the queue, true time and the canonical form of memory and registers alone. -/

namespace Sys2Proof.Machine

theorem keeps_setCore {r s : State} (h : Keeps r s) (q : Nat) (x : Core) :
    Keeps r (State.setCore s q x) := by
  unfold State.setCore
  repeat' with_reducible first
    | assumption | (apply keeps_mk; assumption)

theorem keeps_setTask {r s : State} (h : Keeps r s) (t0 : Nat) (x : Task) :
    Keeps r (State.setTask s t0 x) := by
  unfold State.setTask
  repeat' with_reducible first
    | assumption | (apply keeps_mk; assumption)

theorem keeps_setTaskState {r s : State} (h : Keeps r s) (t0 : Nat) (st : Nat) :
    Keeps r (State.setTaskState s t0 st) := by
  unfold State.setTaskState
  repeat' with_reducible first
    | assumption | apply keeps_setFld

theorem keeps_setPairTask {r s : State} (h : Keeps r s) (q : Nat) (t0 : Nat) :
    Keeps r (State.setPairTask s q t0) := by
  unfold State.setPairTask
  repeat' with_reducible first
    | assumption | apply keeps_setFld | apply keeps_setFlag

theorem keeps_makeReady {r s : State} (h : Keeps r s) (t0 : Nat) :
    Keeps r (State.makeReady s t0) := by
  unfold State.makeReady
  repeat' with_reducible first
    | assumption | apply keeps_setTask | apply keeps_setTaskState | (apply keeps_mk; assumption)

theorem keeps_mergeWake {r s : State} (h : Keeps r s) (t0 : Nat) (cause : Nat) :
    Keeps r (State.mergeWake s t0 cause) := by
  unfold State.mergeWake
  repeat' with_reducible first
    | assumption | apply keeps_count | apply keeps_raiseFirst

theorem keeps_wake {r s : State} (h : Keeps r s) (t0 : Nat) (cause : Nat) :
    Keeps r (State.wake s t0 cause) := by
  unfold State.wake
  repeat' with_reducible first
    | assumption | apply keeps_count | apply keeps_setFld | apply keeps_makeReady | apply keeps_mergeWake | apply keeps_setFlag
    | apply keeps_setTask | apply keeps_ite | (apply keeps_mk; assumption)

theorem keeps_parkTask {r s : State} (h : Keeps r s) (t0 : Nat) :
    Keeps r (State.parkTask s t0) := by
  unfold State.parkTask
  repeat' with_reducible first
    | assumption | apply keeps_setTaskState | apply keeps_raise | apply keeps_makeReady | apply keeps_ite

theorem keeps_startTask {r s : State} (h : Keeps r s) (q : Nat) (t0 : Nat) :
    Keeps r (State.startTask s q t0) := by
  unfold State.startTask
  repeat' with_reducible first
    | assumption | apply keeps_setFlag | apply keeps_setTaskState | apply keeps_setFld | apply keeps_setPairTask | apply keeps_setCore
    | apply keeps_setTask | apply keeps_ite | (apply keeps_mk; assumption)

theorem keeps_dispatchPair {r s : State} (h : Keeps r s) (q : Nat) :
    Keeps r (State.dispatchPair s q) := by
  unfold State.dispatchPair
  repeat' first
    | (with_reducible first
        | assumption | apply keeps_startTask | refine keeps_fst ?_ (by assumption) | apply keeps_ite)
    | extract_lets +onlyGivenNames x | intro x hx | intro x | split

theorem keeps_saveTask {r s : State} (h : Keeps r s) (q : Nat) :
    Keeps r (State.saveTask s q) := by
  unfold State.saveTask
  repeat' with_reducible first
    | assumption | apply keeps_setBytes | apply keeps_setTask | apply keeps_setTaskState | apply keeps_count
    | (apply keeps_mk; assumption)

theorem keeps_preempt {r s : State} (h : Keeps r s) :
    Keeps r (State.preempt s) := by
  unfold State.preempt
  repeat' first
    | (with_reducible first
        | assumption | apply keeps_saveTask | apply keeps_startTask | refine keeps_fst ?_ (by assumption) | apply keeps_ite)
    | extract_lets +onlyGivenNames x | intro x hx | intro x | split

theorem keeps_dispatch {r s : State} (h : Keeps r s) :
    Keeps r (State.dispatch s) := by
  unfold State.dispatch
  repeat' with_reducible first
    | assumption | apply keeps_each | apply keeps_parkTask | apply keeps_dispatchPair | apply keeps_preempt | apply keeps_ite

theorem keeps_wakeBy {r s : State} (h : Keeps r s) (e : Nat) :
    Keeps r (State.wakeBy s e) := by
  unfold State.wakeBy
  repeat' first
    | (with_reducible first
        | assumption | apply keeps_wake | apply keeps_dispatch | refine keeps_fst ?_ (by assumption))
    | extract_lets +onlyGivenNames x | intro x | split

theorem keeps_serve {r s : State} (h : Keeps r s) :
    Keeps r (State.serve s) := by
  unfold State.serve
  repeat' first
    | (with_reducible first
        | assumption | apply keeps_setReg | apply keeps_enter | (apply keeps_mk; assumption)
        | (apply keeps_mk; first | assumption | apply keeps_setReg | apply keeps_enter))
    | extract_lets +onlyGivenNames x | intro x

theorem keeps_checkReady {r s : State} (h : Keeps r s) :
    Keeps r (State.checkReady s) := by
  unfold State.checkReady
  repeat' with_reducible first
    | assumption | apply keeps_setFlag | apply keeps_raise | apply keeps_serve | apply keeps_ite

theorem keeps_reportReady {r s : State} (h : Keeps r s) (q : Nat) (t0 : Nat) :
    Keeps r (State.reportReady s q t0) := by
  unfold State.reportReady
  repeat' with_reducible first
    | assumption | apply keeps_setBitAt | apply keeps_raise | apply keeps_checkReady | apply keeps_ite

theorem keeps_dropRequest {r s : State} (h : Keeps r s) (q : Nat) :
    Keeps r (State.dropRequest s q) := by
  unfold State.dropRequest
  repeat' with_reducible first
    | assumption | apply keeps_setMtx | (apply keeps_mk; assumption)

theorem keeps_closeRun {r s : State} (h : Keeps r s) (q : Nat) (cancelled : Bool) :
    Keeps r (State.closeRun s q cancelled) := by
  unfold State.closeRun
  repeat' with_reducible first
    | assumption | apply keeps_setReg | apply keeps_setTask | apply keeps_setPairTask | apply keeps_setCore | apply keeps_dropRequest
    | apply keeps_setFlag | apply keeps_setTaskState | apply keeps_setFld | apply keeps_makeReady | apply keeps_ite
    | (apply keeps_mk; assumption)

theorem keeps_finishRun {r s : State} (h : Keeps r s) (q : Nat) (ready : Bool) :
    Keeps r (State.finishRun s q ready) := by
  unfold State.finishRun
  repeat' with_reducible first
    | assumption | apply keeps_count | apply keeps_setFld | apply keeps_closeRun | apply keeps_reportReady | apply keeps_dispatch
    | apply keeps_ite

theorem keeps_abortRun {r s : State} (h : Keeps r s) (q : Nat) (cancelled : Bool) :
    Keeps r (State.abortRun s q cancelled) := by
  unfold State.abortRun
  repeat' with_reducible first
    | assumption | apply keeps_count | apply keeps_closeRun

theorem keeps_endStart {r s : State} (h : Keeps r s) (q : Nat) :
    Keeps r (State.endStart s q) := by
  unfold State.endStart
  repeat' with_reducible first
    | assumption | apply keeps_setCore | apply keeps_limpClear | apply keeps_raise | apply keeps_dispatch | apply keeps_ite
    | (apply keeps_mk; assumption)

theorem keeps_endRun {r s : State} (h : Keeps r s) (q : Nat) (ready : Bool) :
    Keeps r (State.endRun s q ready) := by
  unfold State.endRun
  repeat' with_reducible first
    | assumption | apply keeps_endStart | apply keeps_finishRun | apply keeps_ite

theorem keeps_exception {r s : State} (h : Keeps r s) (q : Nat) (cause : Word) (addr : Word) :
    Keeps r (State.exception s q cause addr) := by
  unfold State.exception
  repeat' with_reducible first
    | assumption | apply keeps_endStart | apply keeps_abortRun | apply keeps_raise | apply keeps_dispatch | apply keeps_ite

theorem keeps_bootPair {r s : State} (h : Keeps r s) (q : Nat) :
    Keeps r (State.bootPair s q) := by
  unfold State.bootPair
  repeat' with_reducible first
    | assumption | apply keeps_setCore | (apply keeps_mk; assumption)

theorem keeps_stopPair {r s : State} (h : Keeps r s) (q : Nat) (why : Nat) :
    Keeps r (State.stopPair s q why) := by
  unfold State.stopPair
  repeat' with_reducible first
    | assumption | apply keeps_setTask | apply keeps_makeReady | apply keeps_setPairTask | apply keeps_setCore | apply keeps_dropRequest
    | apply keeps_ite | (apply keeps_mk; assumption)

theorem keeps_migrate {r s : State} (h : Keeps r s) (q : Nat) :
    Keeps r (State.migrate s q) := by
  unfold State.migrate
  repeat' first
    | (with_reducible first
        | assumption | apply keeps_each | apply keeps_raise)
    | extract_lets +onlyGivenNames x | intro x hx | intro x

theorem keeps_stopIslands {r s : State} (h : Keeps r s) (l : List Nat) :
    Keeps r (State.stopIslands s l) := by
  unfold State.stopIslands
  repeat' first
    | (with_reducible first
        | assumption | apply keeps_setIslands | apply keeps_each | apply keeps_exception)
    | extract_lets +onlyGivenNames x | intro x hx | intro x

theorem keeps_pairOut {r s : State} (h : Keeps r s) (q : Nat) (st : Nat) (why : Nat) (told : List (Nat × List Word)) :
    Keeps r (State.pairOut s q st why told) := by
  unfold State.pairOut
  repeat' first
    | (with_reducible first
        | assumption | apply keeps_setFld | apply keeps_stopPair | apply keeps_stopIslands | apply keeps_each | apply keeps_raise
        | apply keeps_migrate | apply keeps_dispatch | refine keeps_fst ?_ (by assumption) | apply keeps_ite)
    | extract_lets +onlyGivenNames x | intro x hx | intro x

theorem keeps_loseLimp {r s : State} (h : Keeps r s) (q : Nat) :
    Keeps r (State.loseLimp s q) := by
  unfold State.loseLimp
  repeat' with_reducible first
    | assumption | apply keeps_limpFault | apply keeps_safeEntry | apply keeps_ite

theorem keeps_fireL4 {r s : State} (h : Keeps r s) (q : Nat) (told : List (Nat × List Word)) :
    Keeps r (State.fireL4 s q told) := by
  unfold State.fireL4
  repeat' with_reducible first
    | assumption | apply keeps_ladder | apply keeps_noteFiring | apply keeps_escalate | apply keeps_pairOut | apply keeps_loseLimp
    | apply keeps_ite

theorem keeps_execTaskPeriod {r s : State} (h : Keeps r s) (t0 : Fin 256) :
    KeepsO r (execTaskPeriod t0 s) := by
  unfold execTaskPeriod
  repeat' with_reducible first
    | assumption | apply keeps_wake | apply keeps_dispatch | apply keeps_ite | apply keeps_next

theorem keeps_cancelTask {r s : State} (h : Keeps r s) (t0 : Nat) :
    Keeps r (State.cancelTask s t0) := by
  unfold State.cancelTask
  repeat' with_reducible first
    | assumption | apply keeps_setTask | apply keeps_setFlag | apply keeps_setTaskState | apply keeps_abortRun | apply keeps_ite
    | (apply keeps_mk; assumption)

theorem keeps_dropWake {r s : State} (h : Keeps r s) (t0 : Nat) (woken : Bool) :
    Keeps r (State.dropWake s t0 woken) := by
  unfold State.dropWake
  repeat' with_reducible first
    | assumption | apply keeps_count | apply keeps_raise | apply keeps_ite

theorem keeps_disableTask {r s : State} (h : Keeps r s) (t0 : Nat) :
    Keeps r (State.disableTask s t0) := by
  unfold State.disableTask
  repeat' with_reducible first
    | assumption | apply keeps_setFlag | apply keeps_setTask | apply keeps_setTaskState | (apply keeps_mk; assumption)

theorem keeps_enableTask {r s : State} (h : Keeps r s) (t0 : Nat) :
    Keeps r (State.enableTask s t0) := by
  unfold State.enableTask
  repeat' with_reducible first
    | assumption | apply keeps_useFree | apply keeps_setFlag | apply keeps_setTaskState | apply keeps_ite

theorem keeps_taskEffect {r s : State} (h : Keeps r s) (cmd : Nat) (t0 : Nat) (woken : Bool) :
    Keeps r (State.taskEffect s cmd t0 woken) := by
  unfold State.taskEffect
  repeat' first
    | (with_reducible first
        | assumption | apply keeps_wake | apply keeps_dropWake | apply keeps_cancelTask | apply keeps_enableTask | apply keeps_disableTask
        | refine keeps_fst ?_ (by assumption))
    | extract_lets +onlyGivenNames x | intro x | split

theorem keeps_taskCommand {r s : State} (h : Keeps r s) (cmd : Nat) (t0 : Nat) (token : Nat) (woken : Bool) :
    Keeps r (State.taskCommand s cmd t0 token woken) := by
  unfold State.taskCommand
  repeat' with_reducible first
    | assumption | apply keeps_setFld | apply keeps_raise | apply keeps_setReg | apply keeps_taskEffect | apply keeps_dispatch
    | apply keeps_ite

theorem keeps_taskWrite {r s : State} (h : Keeps r s) (w : Writer) (cmd : Nat) (t0 : Nat) (token : Nat) (woken : Bool) :
    Keeps r (State.taskWrite s w cmd t0 token woken) := by
  unfold State.taskWrite
  repeat' first
    | (with_reducible first
        | assumption | apply keeps_commandWrite | apply keeps_taskCommand)
    | extract_lets +onlyGivenNames x | intro x hx | intro x

theorem keeps_mismatch {r s : State} (h : Keeps r s) (q : Nat) (output : Word) :
    Keeps r (State.mismatch s q output) := by
  unfold State.mismatch
  repeat' with_reducible first
    | assumption | apply keeps_count | apply keeps_noteFiring | apply keeps_pairOut | apply keeps_loseLimp | apply keeps_ite

theorem keeps_execLockstepMismatch {r s : State} (h : Keeps r s) (q : Fin 2) (output : Word) :
    KeepsO r (execLockstepMismatch q output s) := by
  unfold execLockstepMismatch
  repeat' with_reducible first
    | assumption | apply keeps_mismatch | apply keeps_ite | apply keeps_next

theorem keeps_execPairSelfCheckDone {r s : State} (h : Keeps r s) (q : Fin 2) (pass : Bool) :
    KeepsO r (execPairSelfCheckDone q pass s) := by
  unfold execPairSelfCheckDone
  repeat' with_reducible first
    | assumption | apply keeps_setFld | apply keeps_setIslands | apply keeps_bootPair | apply keeps_dispatch | apply keeps_raise
    | apply keeps_loseLimp | apply keeps_escalate | apply keeps_ite | apply keeps_next

theorem keeps_execL3Timeout {r s : State} (h : Keeps r s) (q : Fin 2) :
    KeepsO r (execL3Timeout q s) := by
  unfold execL3Timeout
  repeat' with_reducible first
    | assumption | apply keeps_setFld | apply keeps_abortRun | apply keeps_ladder | apply keeps_escalate | apply keeps_fireL4
    | apply keeps_raise | apply keeps_dispatch | apply keeps_ite | apply keeps_next

theorem keeps_execL4Timeout {r s : State} (h : Keeps r s) (q : Fin 2) :
    KeepsO r (execL4Timeout q s) := by
  unfold execL4Timeout
  repeat' with_reducible first
    | assumption | apply keeps_fireL4 | apply keeps_ladder | apply keeps_noteFiring | apply keeps_ite | apply keeps_next

end Sys2Proof.Machine
end

