-- ==== Sys2Proof/Laws/KeepsLedger.lean ====
section
/-! SUPPORT. Every operation of Machine/Ledger.lean leaves the queue, true time and the canonical form of memory and registers alone. -/

namespace Sys2Proof.Machine

theorem keeps_writeRecord {r s : State} (h : Keeps r s) (acc : Nat) (kind : Nat) (flags : Nat) (ev : Ev) :
    Keeps r (State.writeRecord s acc kind flags ev) := by
  unfold State.writeRecord
  repeat' with_reducible first
    | assumption | apply keeps_setBytes | apply keeps_ite

theorem keeps_setQueue {r s : State} (h : Keeps r s) (q : List Rec) :
    Keeps r (State.setQueue s q) := by
  unfold State.setQueue
  repeat' with_reducible first
    | assumption | apply keeps_setFld | (apply keeps_mk; assumption)

theorem keeps_loseRecord {r s : State} (h : Keeps r s) (ev : Ev) :
    Keeps r (State.loseRecord s ev) := by
  unfold State.loseRecord
  repeat' first
    | (with_reducible first
        | assumption | apply keeps_count | apply keeps_setFlag | apply keeps_ite | (apply keeps_mk; assumption)
        | (apply keeps_mk; first | assumption | apply keeps_count | apply keeps_setFlag | apply keeps_ite))
    | extract_lets +onlyGivenNames x | intro x

theorem keeps_takeNumber {r s : State} (h : Keeps r s) :
    Keeps r (State.takeNumber s) := by
  unfold State.takeNumber
  repeat' with_reducible first
    | assumption | (apply keeps_mk; assumption)

theorem keeps_enqueue {r s : State} (h : Keeps r s) (kind : Nat) (ev : Ev) :
    Keeps r (State.enqueue s kind ev) := by
  unfold State.enqueue
  repeat' with_reducible first
    | assumption | apply keeps_loseRecord | apply keeps_setQueue | apply keeps_takeNumber | apply keeps_ite

theorem keeps_updatePins {r s : State} (h : Keeps r s) :
    Keeps r (State.updatePins s) := by
  unfold State.updatePins
  repeat' with_reducible first
    | assumption | apply keeps_setFlag

theorem keeps_countEvent {r s : State} (h : Keeps r s) (e : Nat) :
    Keeps r (State.countEvent s e) := by
  unfold State.countEvent
  repeat' first
    | (with_reducible first
        | assumption | apply keeps_count | apply keeps_setBitAt | apply keeps_setFlag | refine keeps_fst ?_ (by assumption)
        | apply keeps_ite | (apply keeps_mk; assumption)
        | (apply keeps_mk; first | assumption | apply keeps_count | apply keeps_setBitAt | apply keeps_setFlag | apply keeps_ite))
    | extract_lets +onlyGivenNames x | intro x

theorem keeps_placeNow {r s : State} (h : Keeps r s) (kind : Nat) (e : Nat) (data : List Word) :
    Keeps r (State.placeNow s kind e data) := by
  unfold State.placeNow
  repeat' with_reducible first
    | assumption | apply keeps_countEvent | apply keeps_enqueue | apply keeps_wakeBy

theorem keeps_numberQueue {r s : State} (h : Keeps r s) :
    Keeps r (State.numberQueue s) := by
  unfold State.numberQueue
  repeat' first
    | (with_reducible first
        | assumption | apply keeps_setQueue | apply keeps_placeNow | apply keeps_each | apply keeps_takeNumber | apply keeps_ite
        | (apply keeps_mk; assumption))
    | extract_lets +onlyGivenNames x | intro x hx | intro x

theorem keeps_acceptCore {r s : State} (h : Keeps r s) (ev : Ev) :
    Keeps r (State.acceptCore s ev) := by
  unfold State.acceptCore
  repeat' first
    | (with_reducible first
        | assumption | apply keeps_countEvent | apply keeps_numberQueue | apply keeps_takeNumber | apply keeps_enqueue | apply keeps_ite
        | (apply keeps_mk; assumption)
        | (apply keeps_mk; first | assumption | apply keeps_countEvent | apply keeps_numberQueue | apply keeps_takeNumber | apply keeps_enqueue | apply keeps_ite))
    | extract_lets +onlyGivenNames x | intro x

theorem keeps_takeMarker {r s : State} (h : Keeps r s) (ev : Ev) :
    Keeps r (State.takeMarker s ev).1 := by
  unfold State.takeMarker
  repeat' first
    | (with_reducible first
        | assumption | apply keeps_setMtx | refine keeps_fst ?_ (by assumption) | apply keeps_ite | (apply keeps_mk; assumption))
    | extract_lets +onlyGivenNames x | intro x | split

theorem keeps_acceptEvent {r s : State} (h : Keeps r s) (ev : Ev) :
    Keeps r (State.acceptEvent s ev) := by
  unfold State.acceptEvent
  repeat' with_reducible first
    | assumption | apply keeps_takeMarker | apply keeps_acceptCore | apply keeps_wakeBy

theorem keeps_takeOwn {r s : State} (h : Keeps r s) :
    Keeps r (State.takeOwn s) := by
  unfold State.takeOwn
  repeat' with_reducible first
    | assumption | apply keeps_each | apply keeps_acceptEvent | (apply keeps_mk; assumption)

theorem keeps_placeOwn {r s : State} (h : Keeps r s) (kind : Nat) (e : Nat) (data : List Word) :
    Keeps r (State.placeOwn s kind e data) := by
  unfold State.placeOwn
  repeat' with_reducible first
    | assumption | apply keeps_takeOwn | apply keeps_placeNow

theorem keeps_closeLoss {r s : State} (h : Keeps r s) :
    Keeps r (State.closeLoss s) := by
  unfold State.closeLoss
  repeat' first
    | (with_reducible first
        | assumption | apply keeps_setFlag | apply keeps_count | apply keeps_placeOwn | refine keeps_fst ?_ (by assumption)
        | apply keeps_ite | (apply keeps_mk; assumption)
        | (apply keeps_mk; first | assumption | apply keeps_setFlag | apply keeps_count | apply keeps_placeOwn | apply keeps_ite))
    | extract_lets +onlyGivenNames x | intro x

theorem keeps_writeHead {r s : State} (h : Keeps r s) :
    Keeps r (State.writeHead s) := by
  unfold State.writeHead
  repeat' first
    | (with_reducible first
        | assumption | apply keeps_writeRecord | apply keeps_setQueue | apply keeps_closeLoss | refine keeps_fst ?_ (by assumption))
    | (extract_lets +onlyGivenNames x; refine (have hx : Keeps r x := ?_; ?_); (on_goal 1 => subst x); (on_goal 2 => clear_value x))
    | (extract_lets +onlyGivenNames x; clear_value x) | extract_lets +onlyGivenNames x | intro x | split

theorem keeps_writeHeads {r s : State} (h : Keeps r s) (k : Nat) : Keeps r (State.writeHeads k s) := by
  induction k generalizing s with
  | zero => exact h
  | succ k ih => exact ih (keeps_writeHead h)

theorem keeps_powerFailRecord {r s : State} (h : Keeps r s) :
    Keeps r (State.powerFailRecord s) := by
  unfold State.powerFailRecord
  repeat' first
    | (with_reducible first
        | assumption | apply keeps_setQueue | apply keeps_writeRecord | refine keeps_fst ?_ (by assumption) | (apply keeps_mk; assumption)
        | (apply keeps_mk; first | assumption | apply keeps_setQueue | apply keeps_writeRecord))
    | extract_lets +onlyGivenNames x | intro x | split

theorem keeps_acceptAll {r s : State} (h : Keeps r s) :
    Keeps r (State.acceptAll s) := by
  unfold State.acceptAll
  repeat' with_reducible first
    | assumption | apply keeps_each | apply keeps_acceptEvent | (apply keeps_mk; assumption)

end Sys2Proof.Machine
end

