-- ==== Sys2Proof/Laws/KeepsFence.lean ====
section
/-! SUPPORT. Every operation of Machine/Fence.lean leaves the queue, true time and the canonical form of memory and registers alone. -/

namespace Sys2Proof.Machine

theorem keeps_issueFence {r s : State} (h : Keeps r s) (issuer : Nat) :
    Keeps r (State.issueFence s issuer) := by
  unfold State.issueFence
  repeat' with_reducible first
    | assumption | apply keeps_setFld | apply keeps_setMtx | apply keeps_raise | apply keeps_ite | (apply keeps_mk; assumption)

theorem keeps_requestFence {r s : State} (h : Keeps r s) (issuer : Nat) :
    Keeps r (State.requestFence s issuer) := by
  unfold State.requestFence
  repeat' with_reducible first
    | assumption | apply keeps_issueFence | apply keeps_setMtx | apply keeps_ite | (apply keeps_mk; assumption)

theorem keeps_releaseG {r s : State} (h : Keeps r s) (q : Nat) :
    Keeps r (State.releaseG s q) := by
  unfold State.releaseG
  repeat' with_reducible first
    | assumption | apply keeps_setCore | apply keeps_dispatch | apply keeps_ite | (apply keeps_mk; assumption)

theorem keeps_endFence {r s : State} (h : Keeps r s) (f : Fence) (missed : List Nat) :
    Keeps r (State.endFence s f missed) := by
  unfold State.endFence
  repeat' first
    | (with_reducible first
        | assumption | apply keeps_setFld | apply keeps_setReg | apply keeps_raise | apply keeps_setMtx | apply keeps_releaseG
        | apply keeps_issueFence | refine keeps_fst ?_ (by assumption) | apply keeps_ite | (apply keeps_mk; assumption))
    | extract_lets +onlyGivenNames x | intro x hx | intro x | split

theorem keeps_checkFence {r s : State} (h : Keeps r s) :
    Keeps r (State.checkFence s) := by
  unfold State.checkFence
  repeat' first
    | (with_reducible first
        | assumption | apply keeps_endFence | refine keeps_fst ?_ (by assumption) | apply keeps_ite)
    | extract_lets +onlyGivenNames x | intro x | split

theorem keeps_execFenceDrainDone {r s : State} (h : Keeps r s) :
    KeepsO r (execFenceDrainDone s) := by
  unfold execFenceDrainDone
  repeat' first
    | (with_reducible first
        | assumption | apply keeps_setMtx | apply keeps_checkFence | refine keeps_fst ?_ (by assumption) | apply keeps_ite
        | apply keeps_next | (apply keeps_mk; assumption))
    | extract_lets +onlyGivenNames x | intro x | split

theorem keeps_placeMarker {r s : State} (h : Keeps r s) (n : Nat) (i : Nat) :
    Keeps r (State.placeMarker s n i) := by
  unfold State.placeMarker
  repeat' with_reducible first
    | assumption | apply keeps_raise

theorem keeps_execFenceMarker {r s : State} (h : Keeps r s) (i : Fin 24) :
    KeepsO r (execFenceMarker i s) := by
  unfold execFenceMarker
  repeat' first
    | (with_reducible first
        | assumption | apply keeps_setMtx | apply keeps_placeMarker | refine keeps_fst ?_ (by assumption) | apply keeps_ite
        | apply keeps_next | (apply keeps_mk; assumption))
    | extract_lets +onlyGivenNames x | intro x hx | intro x | split

theorem keeps_execFenceMarkerTimeout {r s : State} (h : Keeps r s) :
    KeepsO r (execFenceMarkerTimeout s) := by
  unfold execFenceMarkerTimeout
  repeat' first
    | (with_reducible first
        | assumption | apply keeps_endFence | refine keeps_fst ?_ (by assumption) | apply keeps_ite | apply keeps_next)
    | extract_lets +onlyGivenNames x | intro x | split

theorem keeps_fenceWrite {r s : State} (h : Keeps r s) (token : Nat) (go : Bool) :
    Keeps r (State.fenceWrite s token go) := by
  unfold State.fenceWrite
  repeat' with_reducible first
    | assumption | apply keeps_setFld | apply keeps_requestFence | apply keeps_ite

theorem keeps_releaseL {r s : State} (h : Keeps r s) (q : Nat) :
    Keeps r (State.releaseL s q) := by
  unfold State.releaseL
  repeat' first
    | (with_reducible first
        | assumption | apply keeps_count | apply keeps_setCore | apply keeps_dispatch | apply keeps_endRun
        | refine keeps_fst ?_ (by assumption) | apply keeps_ite | (apply keeps_mk; assumption))
    | extract_lets +onlyGivenNames x | intro x | split

theorem keeps_releaseCores {r s : State} (h : Keeps r s) :
    Keeps r (State.releaseCores s) := by
  unfold State.releaseCores
  repeat' with_reducible first
    | assumption | apply keeps_releaseL

theorem keeps_execEventAccept {r s : State} (h : Keeps r s) (i : Fin 24) :
    KeepsO r (execEventAccept i s) := by
  unfold execEventAccept
  repeat' first
    | (with_reducible first
        | assumption | apply keeps_acceptEvent | apply keeps_checkFence | apply keeps_releaseCores | refine keeps_fst ?_ (by assumption)
        | apply keeps_ite | apply keeps_next | (apply keeps_mk; assumption))
    | extract_lets +onlyGivenNames x | intro x hx | intro x | split

theorem keeps_execLedgerWrite {r s : State} (h : Keeps r s) :
    KeepsO r (execLedgerWrite s) := by
  unfold execLedgerWrite
  repeat' with_reducible first
    | assumption | apply keeps_writeHead | apply keeps_ite | apply keeps_next

end Sys2Proof.Machine
end

