-- ==== Sys2Proof/Laws/KeepsJoin.lean ====
section
/-! SUPPORT. Every operation of Machine/Join.lean leaves the queue, true time and the canonical form of memory and registers alone. -/

namespace Sys2Proof.Machine

theorem keeps_updateIdxStat {r s : State} (h : Keeps r s) :
    Keeps r (State.updateIdxStat s) := by
  unfold State.updateIdxStat
  repeat' with_reducible first
    | assumption | apply keeps_setFld | apply keeps_setFlag

theorem keeps_idxEvent {r s : State} (h : Keeps r s) (e : Nat) (n : Nat) :
    Keeps r (State.idxEvent s e n) := by
  unfold State.idxEvent
  repeat' with_reducible first
    | assumption | apply keeps_raise

theorem keeps_setIdx {r s : State} (h : Keeps r s) (e : Nat) (f : Fld) (b : Bool) :
    Keeps r (State.setIdx s e f b) := by
  unfold State.setIdx
  repeat' with_reducible first
    | assumption | apply keeps_setFlag | apply keeps_updateIdxStat

theorem keeps_checkFails {r s : State} (h : Keeps r s) (e : Nat) :
    Keeps r (State.checkFails s e) := by
  unfold State.checkFails
  repeat' with_reducible first
    | assumption | apply keeps_setFlag | apply keeps_setIdx | apply keeps_count | apply keeps_setReg | apply keeps_idxEvent
    | apply keeps_ite

theorem keeps_checkUse {r s : State} (h : Keeps r s) (e : Nat) :
    Keeps r (State.checkUse s e) := by
  unfold State.checkUse
  repeat' with_reducible first
    | assumption | apply keeps_checkFails | apply keeps_ite

theorem keeps_useFeed {r s : State} (h : Keeps r s) (w : Word) :
    Keeps r (State.useFeed s w) := by
  unfold State.useFeed
  repeat' first
    | (with_reducible first
        | assumption | apply keeps_checkUse | refine keeps_fst ?_ (by assumption))
    | extract_lets +onlyGivenNames x | intro x | split

end Sys2Proof.Machine
end

