-- ==== Sys2Proof/Laws/KeepsMsp.lean ====
section
/-! SUPPORT. Every operation of Machine/Msp.lean leaves the queue, true time and the canonical form of memory and registers alone. -/

namespace Sys2Proof.Machine

theorem keeps_setLine {r s : State} (h : Keeps r s) (n : Nat) (l : LinePort) :
    Keeps r (State.setLine s n l) := by
  unfold State.setLine
  repeat' with_reducible first
    | assumption | (apply keeps_mk; assumption)

theorem keeps_kTxWrite {r s : State} (h : Keeps r s) (n : Nat) (value : Word) (inKSlot : Bool) :
    Keeps r (State.kTxWrite s n value inKSlot) := by
  unfold State.kTxWrite
  repeat' with_reducible first
    | assumption | apply keeps_serviceWrite | apply keeps_setLine | apply keeps_ite | (apply keeps_mk; assumption)

theorem keeps_setGrp {r s : State} (h : Keeps r s) (g : Nat) (x : Grp) :
    Keeps r (State.setGrp s g x) := by
  unfold State.setGrp
  repeat' with_reducible first
    | assumption | (apply keeps_mk; assumption)

theorem keeps_recount {r s : State} (h : Keeps r s) (g : Nat) :
    Keeps r (State.recount s g) := by
  unfold State.recount
  repeat' with_reducible first
    | assumption | apply keeps_setGrp | apply keeps_ite | (apply keeps_mk; assumption)

theorem keeps_dropAps {r s : State} (h : Keeps r s) (g : Nat) :
    Keeps r (State.dropAps s g) := by
  unfold State.dropAps
  repeat' first
    | (with_reducible first
        | assumption | apply keeps_setFld | refine keeps_fst ?_ (by assumption) | apply keeps_ite)
    | extract_lets +onlyGivenNames x | intro x hx | intro x | split

theorem keeps_apsEvent {r s : State} (h : Keeps r s) (g : Nat) (e : Nat) (data : List Word) :
    Keeps r (State.apsEvent s g e data) := by
  unfold State.apsEvent
  repeat' with_reducible first
    | assumption | apply keeps_raise

theorem keeps_mspEvent {r s : State} (h : Keeps r s) (g : Nat) (e : Nat) (data : List Word) :
    Keeps r (State.mspEvent s g e data) := by
  unfold State.mspEvent
  repeat' with_reducible first
    | assumption | apply keeps_apsEvent | apply keeps_ite

theorem keeps_updateGrpWtr {r s : State} (h : Keeps r s) (g : Nat) :
    Keeps r (State.updateGrpWtr s g) := by
  unfold State.updateGrpWtr
  repeat' with_reducible first
    | assumption | apply keeps_setGrp | apply keeps_mspEvent | apply keeps_ite | (apply keeps_mk; assumption)

theorem keeps_applyAps {r s : State} (h : Keeps r s) (g : Nat) (rule : Request) (tx : Request) :
    Keeps r (State.applyAps s g rule tx) := by
  unfold State.applyAps
  repeat' first
    | (with_reducible first
        | assumption | apply keeps_count | apply keeps_setGrp | apply keeps_setFld | apply keeps_setFlag | apply keeps_apsEvent
        | apply keeps_mirror | apply keeps_each | apply keeps_kTxWrite | apply keeps_ite | (apply keeps_mk; assumption))
    | extract_lets +onlyGivenNames x | intro x hx | intro x

theorem keeps_mspEval {r s : State} (h : Keeps r s) (g : Nat) :
    Keeps r (State.mspEval s g) := by
  unfold State.mspEval
  repeat' first
    | (with_reducible first
        | assumption | apply keeps_recount | apply keeps_dropAps | apply keeps_updateGrpWtr | apply keeps_applyAps
        | refine keeps_fst ?_ (by assumption) | apply keeps_ite)
    | extract_lets +onlyGivenNames x | intro x | split

theorem keeps_mspPort {r s : State} (h : Keeps r s) (n : Nat) :
    Keeps r (State.mspPort s n) := by
  unfold State.mspPort
  repeat' first
    | (with_reducible first
        | assumption | apply keeps_mspEval | refine keeps_fst ?_ (by assumption))
    | extract_lets +onlyGivenNames x | intro x | split

theorem keeps_execMspHoldoffExpiry {r s : State} (h : Keeps r s) (g : Fin 4) (chan : Fin 8) :
    KeepsO r (execMspHoldoffExpiry g chan s) := by
  unfold execMspHoldoffExpiry
  repeat' with_reducible first
    | assumption | apply keeps_setGrp | apply keeps_mspEval | apply keeps_ite | apply keeps_next | (apply keeps_mk; assumption)

theorem keeps_execMspWtrExpiry {r s : State} (h : Keeps r s) (g : Fin 4) :
    KeepsO r (execMspWtrExpiry g s) := by
  unfold execMspWtrExpiry
  repeat' with_reducible first
    | assumption | apply keeps_setGrp | apply keeps_mspEvent | apply keeps_mspEval | apply keeps_ite | apply keeps_next
    | (apply keeps_mk; assumption)

theorem keeps_execDfopTimer {r s : State} (h : Keeps r s) (g : Fin 4) (present : Bool) :
    KeepsO r (execDfopTimer g present s) := by
  unfold execDfopTimer
  repeat' with_reducible first
    | assumption | apply keeps_setFlag | apply keeps_apsEvent | apply keeps_mspEval | apply keeps_ite | apply keeps_next

theorem keeps_apsCommand {r s : State} (h : Keeps r s) (g : Nat) (cmd : Nat) (chan : Nat) (token : Nat) :
    Keeps r (State.apsCommand s g cmd chan token) := by
  unfold State.apsCommand
  repeat' with_reducible first
    | assumption | apply keeps_setFld | apply keeps_apsEvent | apply keeps_setReg | apply keeps_mirror | apply keeps_mspEval
    | apply keeps_ite

theorem keeps_apsWrite {r s : State} (h : Keeps r s) (w : Writer) (g : Nat) (cmd : Nat) (chan : Nat) (token : Nat) :
    Keeps r (State.apsWrite s w g cmd chan token) := by
  unfold State.apsWrite
  repeat' first
    | (with_reducible first
        | assumption | apply keeps_commandWrite | apply keeps_apsCommand)
    | extract_lets +onlyGivenNames x | intro x hx | intro x

end Sys2Proof.Machine
end

