-- ==== Sys2Proof/Laws/KeepsPower.lean ====
section
/-! SUPPORT. Every operation of Machine/Power.lean leaves the queue, true time and the canonical form of memory and registers alone. -/

namespace Sys2Proof.Machine

theorem keeps_dormantOutputs {r s : State} (h : Keeps r s) :
    Keeps r (State.dormantOutputs s) := by
  unfold State.dormantOutputs
  repeat' first
    | (with_reducible first
        | assumption | apply keeps_setFlag | apply keeps_setFld | apply keeps_each)
    | extract_lets +onlyGivenNames x | intro x hx | intro x

theorem keeps_supervisorReset {r s : State} (h : Keeps r s) (cause : Nat) : Keeps r (s.supervisorReset cause) :=
  keeps_dormantOutputs ⟨h.queue, h.clock, h.mem, fun x => tableWf_filter (h.regs x)⟩

theorem keeps_converterOff {r s : State} (h : Keeps r s) : Keeps r s.converterOff := by
  have g := keeps_supervisorReset h 3
  unfold State.converterOff
  apply keeps_setFld
  exact ⟨g.queue, g.clock, fun x => tableWf_filter (d := fun _ => (0 : Byte)) (g.mem x), g.regs⟩

theorem keeps_sealRetention {r s : State} (h : Keeps r s) :
    Keeps r (State.sealRetention s) := by
  unfold State.sealRetention
  repeat' with_reducible first
    | assumption | apply keeps_raise | apply keeps_ite | (apply keeps_mk; assumption)

theorem keeps_openRetention {r s : State} (h : Keeps r s) :
    Keeps r (State.openRetention s) := by
  unfold State.openRetention
  repeat' with_reducible first
    | assumption | (apply keeps_mk; assumption)

theorem keeps_checkRetention {r s : State} (h : Keeps r s) (vbak : Nat) :
    Keeps r (State.checkRetention s vbak) := by
  unfold State.checkRetention
  repeat' first
    | (with_reducible first
        | assumption | apply keeps_setFlag | apply keeps_zero | apply keeps_openRetention | apply keeps_ite | (apply keeps_mk; assumption)
        | (apply keeps_mk; first | assumption | apply keeps_setFlag | apply keeps_zero | apply keeps_openRetention | apply keeps_ite))
    | extract_lets +onlyGivenNames x | intro x

theorem keeps_abandonGather {r s : State} (h : Keeps r s) :
    Keeps r (State.abandonGather s) := by
  unfold State.abandonGather
  repeat' with_reducible first
    | assumption | apply keeps_setFlag | (apply keeps_mk; assumption)

theorem keeps_powerFailSequence {r s : State} (h : Keeps r s) (core : Bool) (nor : Bool) :
    Keeps r (State.powerFailSequence s core nor) := by
  unfold State.powerFailSequence
  repeat' first
    | (with_reducible first
        | assumption | apply keeps_raise | apply keeps_driveClaim | apply keeps_roleEval | apply keeps_outputsOff
        | apply keeps_abandonGather | apply keeps_setIslands | apply keeps_acceptAll | apply keeps_writeHeads | apply keeps_useFree
        | apply keeps_powerFailRecord | apply keeps_sealRetention | refine keeps_fst ?_ (by assumption) | apply keeps_ite
        | (apply keeps_mk; assumption)
        | (apply keeps_mk; first | assumption | apply keeps_raise | apply keeps_driveClaim | apply keeps_roleEval | apply keeps_outputsOff | apply keeps_abandonGather | apply keeps_setIslands | apply keeps_acceptAll | apply keeps_writeHeads | apply keeps_useFree | apply keeps_powerFailRecord | apply keeps_sealRetention | apply keeps_ite))
    | extract_lets +onlyGivenNames x | intro x | split

theorem keeps_failPower {r s : State} (h : Keeps r s) (core : Bool) (nor : Bool) :
    Keeps r (State.failPower s core nor) := by
  unfold State.failPower
  repeat' with_reducible first
    | assumption | apply keeps_powerFailSequence | apply keeps_ite

theorem keeps_sequenceEnd {r s : State} (h : Keeps r s) :
    Keeps r (State.sequenceEnd s) := by
  unfold State.sequenceEnd
  repeat' with_reducible first
    | assumption | apply keeps_converterOff | apply keeps_ite

theorem keeps_execSpPowerOnReset {r s : State} (h : Keeps r s) : KeepsO r (execSpPowerOnReset s) := by
  refine keeps_next ?_
  split
  · exact h
  · exact ⟨h.queue, h.clock, fun x => tableWf_filter (h.mem x), fun _ => rfl⟩

theorem keeps_execConverterStart {r s : State} (h : Keeps r s) :
    KeepsO r (execConverterStart s) := by
  unfold execConverterStart
  repeat' with_reducible first
    | assumption | apply keeps_setFld | apply keeps_ite | apply keeps_next | (apply keeps_mk; assumption)

theorem keeps_latchStraps {r s : State} (h : Keeps r s) (senior : Bool) (test : Bool) :
    Keeps r (State.latchStraps s senior test) := by
  unfold State.latchStraps
  repeat' with_reducible first
    | assumption | apply keeps_ite | (apply keeps_mk; assumption)

theorem keeps_startLoader {r s : State} (h : Keeps r s) :
    Keeps r (State.startLoader s) := by
  unfold State.startLoader
  repeat' first
    | (with_reducible first
        | assumption | apply keeps_setFld | (apply keeps_mk; assumption) | (apply keeps_mk; first | assumption | apply keeps_setFld))
    | extract_lets +onlyGivenNames x | intro x

theorem keeps_startLoading {r s : State} (h : Keeps r s) (vbak : Nat) :
    Keeps r (State.startLoading s vbak) := by
  unfold State.startLoading
  extract_lets a b c _ d e f g rt k m n
  have hc : Keeps r c := keeps_setFlag (keeps_setFld (keeps_checkRetention h vbak) ..) ..
  clear_value c
  have hd : Keeps r d := keeps_mk hc ..
  clear_value d
  have hk : Keeps r k := keeps_setIslands (keeps_raise (keeps_enter (keeps_setFld hd ..) ..) ..) ..
  clear_value k rt
  have hm : Keeps r m := by
    subst m
    split
    · exact keeps_mk hk ..
    · exact hk
  exact keeps_startLoader (keeps_raise hm ..)

theorem keeps_execMainPowerGood {r s : State} (h : Keeps r s) (senior : Bool) (test : Bool) (vbak : Nat) :
    KeepsO r (execMainPowerGood senior test vbak s) := by
  unfold execMainPowerGood
  repeat' with_reducible first
    | assumption | apply keeps_latchStraps | apply keeps_startLoading | apply keeps_ite | apply keeps_next

theorem keeps_execPowerFailure {r s : State} (h : Keeps r s) :
    KeepsO r (execPowerFailure s) := by
  unfold execPowerFailure
  repeat' with_reducible first
    | assumption | apply keeps_failPower | apply keeps_ite | apply keeps_next

theorem keeps_execArchiveWriteDone {r s : State} (h : Keeps r s) :
    KeepsO r (execArchiveWriteDone s) := by
  unfold execArchiveWriteDone
  repeat' with_reducible first
    | assumption | apply keeps_setFlag | apply keeps_raise | apply keeps_sequenceEnd | apply keeps_ite | apply keeps_next
    | (apply keeps_mk; assumption)

theorem keeps_execPowerReturn {r s : State} (h : Keeps r s) :
    KeepsO r (execPowerReturn s) := by
  unfold execPowerReturn
  repeat' with_reducible first
    | assumption | apply keeps_supervisorReset | apply keeps_ite | apply keeps_next

theorem keeps_execConverterStop {r s : State} (h : Keeps r s) :
    KeepsO r (execConverterStop s) := by
  unfold execConverterStop
  repeat' with_reducible first
    | assumption | apply keeps_converterOff | apply keeps_ite | apply keeps_next

theorem keeps_noteRail {r s : State} (h : Keeps r s) (r0 : Rail) :
    Keeps r (State.noteRail s r0) := by
  unfold State.noteRail
  repeat' with_reducible first
    | assumption | apply keeps_setBitAt | apply keeps_setFld | apply keeps_satInc

theorem keeps_execRailFailure {r s : State} (h : Keeps r s) (r0 : Rail) :
    KeepsO r (execRailFailure r0 s) := by
  unfold execRailFailure
  repeat' first
    | (with_reducible first
        | assumption | apply keeps_noteRail | apply keeps_converterOff | apply keeps_raise | apply keeps_failPower
        | apply keeps_sequenceEnd | apply keeps_ite | apply keeps_next | (apply keeps_mk; assumption)
        | (apply keeps_mk; first | assumption | apply keeps_noteRail | apply keeps_converterOff | apply keeps_raise | apply keeps_failPower | apply keeps_sequenceEnd | apply keeps_ite))
    | extract_lets +onlyGivenNames x | intro x hx | intro x

theorem keeps_execRailRestart {r s : State} (h : Keeps r s) :
    KeepsO r (execRailRestart s) := by
  unfold execRailRestart
  repeat' with_reducible first
    | assumption | apply keeps_setFld | apply keeps_ite | apply keeps_next | (apply keeps_mk; assumption)

theorem keeps_execSg5Warning {r s : State} (h : Keeps r s) (c : Sg5) :
    KeepsO r (execSg5Warning c s) := by
  unfold execSg5Warning
  repeat' with_reducible first
    | assumption | apply keeps_raise | apply keeps_next

theorem keeps_execSg5Trip {r s : State} (h : Keeps r s) (c : Sg5) :
    KeepsO r (execSg5Trip c s) := by
  unfold execSg5Trip
  repeat' first
    | (with_reducible first
        | assumption | apply keeps_setBitAt | apply keeps_raise | apply keeps_safeEntry | apply keeps_failPower | apply keeps_sequenceEnd
        | apply keeps_ite | apply keeps_next | (apply keeps_mk; assumption)
        | (apply keeps_mk; first | assumption | apply keeps_setBitAt | apply keeps_raise | apply keeps_safeEntry | apply keeps_failPower | apply keeps_sequenceEnd | apply keeps_ite))
    | extract_lets +onlyGivenNames x | intro x

theorem keeps_execSg5TripClear {r s : State} (h : Keeps r s) (c : Sg5) :
    KeepsO r (execSg5TripClear c s) := by
  unfold execSg5TripClear
  repeat' first
    | (with_reducible first
        | assumption | apply keeps_setBitAt | apply keeps_setFld | apply keeps_ite | apply keeps_next | (apply keeps_mk; assumption)
        | (apply keeps_mk; first | assumption | apply keeps_setBitAt | apply keeps_setFld | apply keeps_ite))
    | extract_lets +onlyGivenNames x | intro x

theorem keeps_execVbakMeasure {r s : State} (h : Keeps r s) (vbak : Fin 512) :
    KeepsO r (execVbakMeasure vbak s) := by
  unfold execVbakMeasure
  repeat' with_reducible first
    | assumption | apply keeps_setFld | apply keeps_setFlag | apply keeps_raise | apply keeps_ite | apply keeps_next

theorem keeps_execRtBrownOut {r s : State} (h : Keeps r s) :
    KeepsO r (execRtBrownOut s) := by
  unfold execRtBrownOut
  repeat' with_reducible first
    | assumption | apply keeps_next | (apply keeps_mk; assumption)

end Sys2Proof.Machine
end

