-- ==== Sys2Proof/Laws/KeepsSupervisor.lean ====
section
/-! SUPPORT. Every operation of Machine/Supervisor.lean leaves the queue, true time and the canonical form of memory and registers alone. -/

namespace Sys2Proof.Machine

theorem keeps_execMainClockDeviation {r s : State} (h : Keeps r s) :
    KeepsO r (execMainClockDeviation s) := by
  unfold execMainClockDeviation
  repeat' with_reducible first
    | assumption | apply keeps_safeEntry | apply keeps_next

theorem keeps_execSafetySelfTest {r s : State} (h : Keeps r s) (pass : Bool) :
    KeepsO r (execSafetySelfTest pass s) := by
  unfold execSafetySelfTest
  repeat' with_reducible first
    | assumption | apply keeps_raise | apply keeps_safeEntry | apply keeps_ite | apply keeps_next | (apply keeps_mk; assumption)

theorem keeps_execPadEnableMismatch {r s : State} (h : Keeps r s) :
    KeepsO r (execPadEnableMismatch s) := by
  unfold execPadEnableMismatch
  repeat' with_reducible first
    | assumption | apply keeps_updatePads | apply keeps_raise | apply keeps_safeEntry | apply keeps_ite | apply keeps_next
    | (apply keeps_mk; assumption)

theorem keeps_execKeepaliveLoss {r s : State} (h : Keeps r s) :
    KeepsO r (execKeepaliveLoss s) := by
  unfold execKeepaliveLoss
  repeat' with_reducible first
    | assumption | apply keeps_updateDriven | apply keeps_next | (apply keeps_mk; assumption)

theorem keeps_execKey2 {r s : State} (h : Keeps r s) :
    KeepsO r (execKey2 s) := by
  unfold execKey2
  repeat' with_reducible first
    | assumption | apply keeps_setFlag | apply keeps_updatePads | apply keeps_ite | apply keeps_next

theorem keeps_execClaimInChange {r s : State} (h : Keeps r s) (level : Bool) :
    KeepsO r (execClaimInChange level s) := by
  unfold execClaimInChange
  repeat' with_reducible first
    | assumption | apply keeps_setFlag | apply keeps_setTw | apply keeps_updatePads | apply keeps_ite | apply keeps_next
    | (apply keeps_mk; assumption)

theorem keeps_execClaimDisagree {r s : State} (h : Keeps r s) :
    KeepsO r (execClaimDisagree s) := by
  unfold execClaimDisagree
  repeat' with_reducible first
    | assumption | apply keeps_raise | apply keeps_ite | apply keeps_next | (apply keeps_mk; assumption)

theorem keeps_monitorVerdict {r s : State} (h : Keeps r s) (f : Fld) (e : Nat) (bad : Bool) :
    Keeps r (State.monitorVerdict s f e bad) := by
  unfold State.monitorVerdict
  repeat' with_reducible first
    | assumption | apply keeps_setFlag | apply keeps_raise | apply keeps_ite

theorem keeps_judgeSquelch {r s : State} (h : Keeps r s) :
    Keeps r (State.judgeSquelch s) := by
  unfold State.judgeSquelch
  repeat' with_reducible first
    | assumption | apply keeps_squelchClose | apply keeps_ite

theorem keeps_execMonitorEvaluation {r s : State} (h : Keeps r s) (phaseA : Int) (phaseB : Int) :
    KeepsO r (execMonitorEvaluation phaseA phaseB s) := by
  unfold execMonitorEvaluation
  repeat' with_reducible first
    | assumption | apply keeps_monitorVerdict | apply keeps_judgeSquelch | apply keeps_ite | apply keeps_next
    | (apply keeps_mk; assumption)

theorem keeps_execSquelchRelease {r s : State} (h : Keeps r s) :
    KeepsO r (execSquelchRelease s) := by
  unfold execSquelchRelease
  repeat' with_reducible first
    | assumption | apply keeps_setFlag | apply keeps_raise | apply keeps_ite | apply keeps_next

theorem keeps_execL7Timeout {r s : State} (h : Keeps r s) :
    KeepsO r (execL7Timeout s) := by
  unfold execL7Timeout
  repeat' with_reducible first
    | assumption | apply keeps_ladder | apply keeps_safeEntry | apply keeps_ite | apply keeps_next

theorem keeps_execL8Timeout {r s : State} (h : Keeps r s) :
    KeepsO r (execL8Timeout s) := by
  unfold execL8Timeout
  repeat' with_reducible first
    | assumption | apply keeps_ladder | apply keeps_safeEntry | apply keeps_ite | apply keeps_next

theorem keeps_execSafeHoldExpiry {r s : State} (h : Keeps r s) (testPasses : Bool) :
    KeepsO r (execSafeHoldExpiry testPasses s) := by
  unfold execSafeHoldExpiry
  repeat' first
    | (with_reducible first
        | assumption | apply keeps_raise | apply keeps_acceptAll | apply keeps_ite | apply keeps_next | (apply keeps_mk; assumption)
        | (apply keeps_mk; first | assumption | apply keeps_raise | apply keeps_acceptAll | apply keeps_ite))
    | extract_lets +onlyGivenNames x | intro x

theorem keeps_execSafeSeal {r s : State} (h : Keeps r s) :
    KeepsO r (execSafeSeal s) := by
  unfold execSafeSeal
  repeat' with_reducible first
    | assumption | apply keeps_sealRetention | apply keeps_supervisorReset | apply keeps_ite | apply keeps_next

theorem keeps_execSafeCountClear {r s : State} (h : Keeps r s) :
    KeepsO r (execSafeCountClear s) := by
  unfold execSafeCountClear
  repeat' with_reducible first
    | assumption | apply keeps_setFld | apply keeps_ite | apply keeps_next

theorem keeps_kick {r s : State} (h : Keeps r s) (checked : Bool) (kick : Nat) (token : Nat) :
    Keeps r (State.kick s checked kick token) := by
  unfold State.kick
  repeat' first
    | (with_reducible first
        | assumption | apply keeps_setFld | apply keeps_setReg | apply keeps_ite | (apply keeps_mk; assumption)
        | (apply keeps_mk; first | assumption | apply keeps_setFld | apply keeps_setReg | apply keeps_ite))
    | extract_lets +onlyGivenNames x | intro x

theorem keeps_execFittingMismatch {r s : State} (h : Keeps r s) :
    KeepsO r (execFittingMismatch s) := by
  unfold execFittingMismatch
  repeat' with_reducible first
    | assumption | apply keeps_raise | apply keeps_limpFault | apply keeps_ite | apply keeps_next

theorem keeps_execFittingMismatchClear {r s : State} (h : Keeps r s) :
    KeepsO r (execFittingMismatchClear s) := by
  unfold execFittingMismatchClear
  repeat' with_reducible first
    | assumption | apply keeps_limpClear | apply keeps_ite | apply keeps_next

end Sys2Proof.Machine
end

