-- ==== Sys2Proof/Laws/KeepsLine.lean ====
section
/-! SUPPORT. Every operation of Machine/Line.lean leaves the queue, true time and the canonical form of memory and registers alone. -/

namespace Sys2Proof.Machine

theorem keeps_setLstat {r s : State} (h : Keeps r s) (n : Nat) (f : Fld) (b : Bool) :
    Keeps r (State.setLstat s n f b) := by
  unfold State.setLstat
  repeat' with_reducible first
    | assumption | apply keeps_setBitAt | apply keeps_setFlag | apply keeps_ite

theorem keeps_lineEvent {r s : State} (h : Keeps r s) (n : Nat) (k : Nat) (data : List Word) :
    Keeps r (State.lineEvent s n k data) := by
  unfold State.lineEvent
  repeat' with_reducible first
    | assumption | apply keeps_raise | apply keeps_ite

theorem keeps_lineDefect {r s : State} (h : Keeps r s) (n : Nat) (f : Fld) (b : Bool) (kOn : Nat) (kOff : Nat) (data : List Word) :
    Keeps r (State.lineDefect s n f b kOn kOff data) := by
  unfold State.lineDefect
  repeat' with_reducible first
    | assumption | apply keeps_setLstat | apply keeps_lineEvent | apply keeps_ite

theorem keeps_lineActs {r s : State} (h : Keeps r s) (n : Nat) :
    Keeps r (State.lineActs s n) := by
  unfold State.lineActs
  repeat' with_reducible first
    | assumption | apply keeps_setLstat | apply keeps_setLine | apply keeps_lineDefect | apply keeps_ite | (apply keeps_mk; assumption)

theorem keeps_lineActions {r s : State} (h : Keeps r s) (n : Nat) :
    Keeps r (State.lineActions s n) := by
  unfold State.lineActions
  repeat' with_reducible first
    | assumption | apply keeps_lineActs | apply keeps_mspPort | apply keeps_roleEval

theorem keeps_lineFreeze {r s : State} (h : Keeps r s) (n : Nat) :
    Keeps r (State.lineFreeze s n) := by
  unfold State.lineFreeze
  repeat' with_reducible first
    | assumption | apply keeps_setFlag | apply keeps_setLine | apply keeps_ite | (apply keeps_mk; assumption)

theorem keeps_setFramer {r s : State} (h : Keeps r s) (n : Nat) (st : Nat) :
    Keeps r (State.setFramer s n st) := by
  unfold State.setFramer
  repeat' with_reducible first
    | assumption | apply keeps_setFld | apply keeps_setLine | apply keeps_count | apply keeps_lineDefect | apply keeps_ite
    | (apply keeps_mk; assumption)

theorem keeps_leaveDark {r s : State} (h : Keeps r s) (n : Nat) :
    Keeps r (State.leaveDark s n) := by
  unfold State.leaveDark
  repeat' with_reducible first
    | assumption | apply keeps_setFramer | apply keeps_ite

theorem keeps_updateLos {r s : State} (h : Keeps r s) (n : Nat) :
    Keeps r (State.updateLos s n) := by
  unfold State.updateLos
  repeat' with_reducible first
    | assumption | apply keeps_lineDefect | apply keeps_setLine | apply keeps_setFramer | apply keeps_leaveDark | apply keeps_lineFreeze
    | apply keeps_ite | (apply keeps_mk; assumption)

theorem keeps_execLosBallChange {r s : State} (h : Keeps r s) (n : Fin 8) (level : Bool) :
    KeepsO r (execLosBallChange n level s) := by
  unfold execLosBallChange
  repeat' with_reducible first
    | assumption | apply keeps_setLstat | apply keeps_lineEvent | apply keeps_updateLos | apply keeps_lineActions | apply keeps_ite
    | apply keeps_next | (apply keeps_mk; assumption)

theorem keeps_execElectricalLos {r s : State} (h : Keeps r s) (n : Fin 8) (lost : Bool) :
    KeepsO r (execElectricalLos n lost s) := by
  unfold execElectricalLos
  repeat' with_reducible first
    | assumption | apply keeps_setLine | apply keeps_updateLos | apply keeps_lineActions | apply keeps_ite | apply keeps_next
    | (apply keeps_mk; assumption)

theorem keeps_execModAbsChange {r s : State} (h : Keeps r s) (n : Fin 8) (level : Bool) :
    KeepsO r (execModAbsChange n level s) := by
  unfold execModAbsChange
  repeat' with_reducible first
    | assumption | apply keeps_setLine | apply keeps_setLstat | apply keeps_lineEvent | apply keeps_updateLaser | apply keeps_updateLos
    | apply keeps_lineActions | apply keeps_ite | apply keeps_next | (apply keeps_mk; assumption)

theorem keeps_execModAbsSettle {r s : State} (h : Keeps r s) (n : Fin 8) :
    KeepsO r (execModAbsSettle n s) := by
  unfold execModAbsSettle
  repeat' with_reducible first
    | assumption | apply keeps_setLine | apply keeps_updateLaser | apply keeps_ite | apply keeps_next | (apply keeps_mk; assumption)

theorem keeps_execHoldoffEnd {r s : State} (h : Keeps r s) (n : Fin 8) :
    KeepsO r (execHoldoffEnd n s) := by
  unfold execHoldoffEnd
  repeat' with_reducible first
    | assumption | apply keeps_setLstat | apply keeps_lineEvent | apply keeps_lineActions | apply keeps_ite | apply keeps_next

theorem keeps_execCdrLockChange {r s : State} (h : Keeps r s) (n : Fin 8) (locked : Bool) :
    KeepsO r (execCdrLockChange n locked s) := by
  unfold execCdrLockChange
  repeat' with_reducible first
    | assumption | apply keeps_setLstat | apply keeps_leaveDark | apply keeps_lineEvent | apply keeps_ite | apply keeps_next

theorem keeps_framerStep {r s : State} (h : Keeps r s) (n : Nat) (ok : Bool) (f : LineFrame) :
    Keeps r (State.framerStep s n ok f) := by
  unfold State.framerStep
  repeat' first
    | (with_reducible first
        | assumption | apply keeps_setFramer | apply keeps_setLine | refine keeps_fst ?_ (by assumption) | apply keeps_ite
        | (apply keeps_mk; assumption))
    | extract_lets +onlyGivenNames x | intro x hx | intro x | split

theorem keeps_lofStep {r s : State} (h : Keeps r s) (n : Nat) :
    Keeps r (State.lofStep s n) := by
  unfold State.lofStep
  repeat' with_reducible first
    | assumption | apply keeps_setLine | apply keeps_setFld | apply keeps_lineDefect | apply keeps_ite | (apply keeps_mk; assumption)

theorem keeps_lowDetect {r s : State} (h : Keeps r s) (n : Nat) (low : Nat) :
    Keeps r (State.lowDetect s n low) := by
  unfold State.lowDetect
  repeat' with_reducible first
    | assumption | apply keeps_setLine | apply keeps_setFld | apply keeps_lineDefect | apply keeps_ite | (apply keeps_mk; assumption)

theorem keeps_kFilter {r s : State} (h : Keeps r s) (n : Nat) (v : Nat) :
    Keeps r (State.kFilter s n v) := by
  unfold State.kFilter
  repeat' with_reducible first
    | assumption | apply keeps_setLine | apply keeps_setFld | apply keeps_setFlag | apply keeps_lineEvent | apply keeps_lineDefect
    | apply keeps_ite | (apply keeps_mk; assumption)

theorem keeps_ssmFilter {r s : State} (h : Keeps r s) (n : Nat) (v : Nat) :
    Keeps r (State.ssmFilter s n v) := by
  unfold State.ssmFilter
  repeat' with_reducible first
    | assumption | apply keeps_setLine | apply keeps_setFld | apply keeps_setFlag | apply keeps_lineEvent | apply keeps_ite
    | (apply keeps_mk; assumption)

theorem keeps_judgeTim {r s : State} (h : Keeps r s) (n : Nat) :
    Keeps r (State.judgeTim s n) := by
  unfold State.judgeTim
  repeat' with_reducible first
    | assumption | apply keeps_lineDefect

theorem keeps_acceptTrace {r s : State} (h : Keeps r s) (n : Nat) (t0 : List Byte) :
    Keeps r (State.acceptTrace s n t0) := by
  unfold State.acceptTrace
  repeat' first
    | (with_reducible first
        | assumption | apply keeps_each | apply keeps_setReg | apply keeps_setLine | apply keeps_lineEvent | apply keeps_judgeTim
        | apply keeps_ite | (apply keeps_mk; assumption))
    | extract_lets +onlyGivenNames x | intro x hx | intro x

theorem keeps_tracePeriod {r s : State} (h : Keeps r s) (n : Nat) (t0 : List Byte) :
    Keeps r (State.tracePeriod s n t0) := by
  unfold State.tracePeriod
  repeat' with_reducible first
    | assumption | apply keeps_setLine | apply keeps_acceptTrace | apply keeps_ite | (apply keeps_mk; assumption)

theorem keeps_traceByte {r s : State} (h : Keeps r s) (n : Nat) (b : Byte) :
    Keeps r (State.traceByte s n b) := by
  unfold State.traceByte
  repeat' first
    | (with_reducible first
        | assumption | apply keeps_tracePeriod | apply keeps_setLine | apply keeps_count | refine keeps_fst ?_ (by assumption)
        | apply keeps_ite | (apply keeps_mk; assumption))
    | extract_lets +onlyGivenNames x | intro x | split

theorem keeps_spoilWindows {r s : State} (h : Keeps r s) (n : Nat) :
    Keeps r (State.spoilWindows s n) := by
  unfold State.spoilWindows
  repeat' with_reducible first
    | assumption | apply keeps_setLine | (apply keeps_mk; assumption)

theorem keeps_parityStep {r s : State} (h : Keeps r s) (n : Nat) (f : RxFrame) :
    Keeps r (State.parityStep s n f) := by
  unfold State.parityStep
  repeat' with_reducible first
    | assumption | apply keeps_count | apply keeps_setLine | apply keeps_spoilWindows | apply keeps_ite | (apply keeps_mk; assumption)

theorem keeps_overheadStep {r s : State} (h : Keeps r s) (n : Nat) (f : RxFrame) :
    Keeps r (State.overheadStep s n f) := by
  unfold State.overheadStep
  repeat' with_reducible first
    | assumption | apply keeps_setReg | apply keeps_setLine | apply keeps_parityStep | apply keeps_lowDetect | apply keeps_lineFreeze
    | apply keeps_kFilter | apply keeps_ssmFilter | apply keeps_traceByte | apply keeps_ite | (apply keeps_mk; assumption)

theorem keeps_execLineFrame {r s : State} (h : Keeps r s) (n : Fin 8) (f : LineFrame) :
    KeepsO r (execLineFrame n f s) := by
  unfold execLineFrame
  repeat' with_reducible first
    | assumption | apply keeps_framerStep | apply keeps_lofStep | apply keeps_overheadStep | apply keeps_spoilWindows
    | apply keeps_lineFreeze | apply keeps_lineActions | apply keeps_ite | apply keeps_next

theorem keeps_judgeBer {r s : State} (h : Keeps r s) (n : Nat) (win : List (Option Nat)) (exp : Nat) (f : Fld) (kOn : Nat) (kOff : Nat) :
    Keeps r (State.judgeBer s n win exp f kOn kOff) := by
  unfold State.judgeBer
  repeat' with_reducible first
    | assumption | apply keeps_lineDefect | apply keeps_ite

theorem keeps_execBerSubwindowEnd {r s : State} (h : Keeps r s) (n : Fin 8) (d : BerDetector) :
    KeepsO r (execBerSubwindowEnd n d s) := by
  unfold execBerSubwindowEnd
  repeat' first
    | (with_reducible first
        | assumption | apply keeps_setLine | apply keeps_setFld | apply keeps_judgeBer | apply keeps_lineActions
        | refine keeps_fst ?_ (by assumption) | apply keeps_ite | apply keeps_next | (apply keeps_mk; assumption))
    | extract_lets +onlyGivenNames x | intro x | split

theorem keeps_setAls {r s : State} (h : Keeps r s) (n : Nat) (st : Nat) :
    Keeps r (State.setAls s n st) := by
  unfold State.setAls
  repeat' with_reducible first
    | assumption | apply keeps_setFld | apply keeps_updateLaser

theorem keeps_execAlsDeactivation {r s : State} (h : Keeps r s) (n : Fin 8) :
    KeepsO r (execAlsDeactivation n s) := by
  unfold execAlsDeactivation
  repeat' with_reducible first
    | assumption | apply keeps_setAls | apply keeps_lineEvent | apply keeps_ite | apply keeps_next

theorem keeps_execAlsRestartPulse {r s : State} (h : Keeps r s) (n : Fin 8) :
    KeepsO r (execAlsRestartPulse n s) := by
  unfold execAlsRestartPulse
  repeat' with_reducible first
    | assumption | apply keeps_setAls | apply keeps_lineEvent | apply keeps_ite | apply keeps_next

theorem keeps_execAlsPulseEnd {r s : State} (h : Keeps r s) (n : Fin 8) :
    KeepsO r (execAlsPulseEnd n s) := by
  unfold execAlsPulseEnd
  repeat' with_reducible first
    | assumption | apply keeps_setFld | apply keeps_setAls | apply keeps_ite | apply keeps_next

theorem keeps_execAlsLosClear {r s : State} (h : Keeps r s) (n : Fin 8) :
    KeepsO r (execAlsLosClear n s) := by
  unfold execAlsLosClear
  repeat' with_reducible first
    | assumption | apply keeps_setFld | apply keeps_setAls | apply keeps_lineEvent | apply keeps_ite | apply keeps_next

theorem keeps_alsCommand {r s : State} (h : Keeps r s) (n : Nat) (cmd : Nat) (token : Nat) :
    Keeps r (State.alsCommand s n cmd token) := by
  unfold State.alsCommand
  repeat' with_reducible first
    | assumption | apply keeps_setReg | apply keeps_setAls | apply keeps_lineEvent | apply keeps_setFld | apply keeps_ite

theorem keeps_execSpLaserShutdown {r s : State} (h : Keeps r s) (n : Fin 8) (losHeld : Bool) :
    KeepsO r (execSpLaserShutdown n losHeld s) := by
  unfold execSpLaserShutdown
  repeat' with_reducible first
    | assumption | apply keeps_setBitAt | apply keeps_raise | apply keeps_ite | apply keeps_next

theorem keeps_clearLine {r s : State} (h : Keeps r s) (n : Nat) (st : Nat) :
    Keeps r (State.clearLine s n st) := by
  unfold State.clearLine
  repeat' with_reducible first
    | assumption | apply keeps_setFld | apply keeps_setFlag | apply keeps_setLine | (apply keeps_mk; assumption)

theorem keeps_startLine {r s : State} (h : Keeps r s) (n : Nat) :
    Keeps r (State.startLine s n) := by
  unfold State.startLine
  repeat' with_reducible first
    | assumption | apply keeps_clearLine | apply keeps_setLstat | apply keeps_updateLaser | apply keeps_updateLos
    | apply keeps_lineActions

theorem keeps_enableLine {r s : State} (h : Keeps r s) (n : Nat) :
    Keeps r (State.enableLine s n) := by
  unfold State.enableLine
  repeat' with_reducible first
    | assumption | apply keeps_lineEvent | apply keeps_startLine

theorem keeps_haltLine {r s : State} (h : Keeps r s) (n : Nat) :
    Keeps r (State.haltLine s n) := by
  unfold State.haltLine
  repeat' with_reducible first
    | assumption | apply keeps_clearLine | apply keeps_setLstat | apply keeps_setFld | apply keeps_updateLaser | apply keeps_lineActions

theorem keeps_disableLine {r s : State} (h : Keeps r s) (n : Nat) :
    Keeps r (State.disableLine s n) := by
  unfold State.disableLine
  repeat' with_reducible first
    | assumption | apply keeps_lineEvent | apply keeps_haltLine

theorem keeps_bootLine {r s : State} (h : Keeps r s) (n : Nat) :
    Keeps r (State.bootLine s n) := by
  unfold State.bootLine
  repeat' with_reducible first
    | assumption | apply keeps_setFlag | apply keeps_startLine | apply keeps_haltLine | apply keeps_ite

theorem keeps_lineEnWrite {r s : State} (h : Keeps r s) (n : Nat) (en : Bool) :
    Keeps r (State.lineEnWrite s n en) := by
  unfold State.lineEnWrite
  repeat' with_reducible first
    | assumption | apply keeps_serviceWrite | apply keeps_enableLine | apply keeps_disableLine | apply keeps_ite

theorem keeps_buildFrame {r s : State} (h : Keeps r s) (n : Nat) (augs : List (List Byte)) :
    Keeps r (State.buildFrame s n augs) := by
  unfold State.buildFrame
  repeat' with_reducible first
    | assumption | apply keeps_setLine | apply keeps_useFree | apply keeps_ite | (apply keeps_mk; assumption)

end Sys2Proof.Machine
end

