-- ==== Sys2Proof/Laws/KeepsPath.lean ====
section
/-! SUPPORT. Every operation of Machine/Path.lean leaves the queue, true time and the canonical form of memory and registers alone. -/

namespace Sys2Proof.Machine

theorem keeps_setPath {r s : State} (h : Keeps r s) (p : PathId) (x : PathPort) :
    Keeps r (State.setPath s p x) := by
  unfold State.setPath
  repeat' with_reducible first
    | assumption | (apply keeps_mk; assumption)

theorem keeps_updatePathSum {r s : State} (h : Keeps r s) (k : Nat) :
    Keeps r (State.updatePathSum s k) := by
  unfold State.updatePathSum
  repeat' with_reducible first
    | assumption | apply keeps_setBitAt

theorem keeps_pathEvent {r s : State} (h : Keeps r s) (p : PathId) (e : Nat) :
    Keeps r (State.pathEvent s p e) := by
  unfold State.pathEvent
  repeat' with_reducible first
    | assumption | apply keeps_raise

theorem keeps_pathDefect {r s : State} (h : Keeps r s) (p : PathId) (f : Fld) (b : Bool) :
    Keeps r (State.pathDefect s p f b) := by
  unfold State.pathDefect
  repeat' with_reducible first
    | assumption | apply keeps_setFlag | apply keeps_updatePathSum | apply keeps_pathEvent | apply keeps_ite

theorem keeps_pathTsf {r s : State} (h : Keeps r s) (p : PathId) :
    Keeps r (State.pathTsf s p) := by
  unfold State.pathTsf
  repeat' with_reducible first
    | assumption | apply keeps_setFlag

theorem keeps_updateSsf {r s : State} (h : Keeps r s) (l : Fin 5376) :
    Keeps r (State.updateSsf s l) := by
  unfold State.updateSsf
  repeat' first
    | (with_reducible first
        | assumption | apply keeps_when | apply keeps_setPath | apply keeps_pathDefect | apply keeps_pathTsf
        | (apply keeps_mk; assumption))
    | extract_lets +onlyGivenNames x | intro x hx | intro x

theorem keeps_pathActions {r s : State} (h : Keeps r s) (p : PathId) :
    Keeps r (State.pathActions s p) := by
  unfold State.pathActions
  repeat' first
    | (with_reducible first
        | assumption | apply keeps_pathTsf | apply keeps_each | apply keeps_updateSsf | refine keeps_fst ?_ (by assumption)
        | apply keeps_ite)
    | extract_lets +onlyGivenNames x | intro x hx | intro x | split

theorem keeps_setTrib {r s : State} (h : Keeps r s) (p : Nat) (x : TribPort) :
    Keeps r (State.setTrib s p x) := by
  unfold State.setTrib
  repeat' with_reducible first
    | assumption | (apply keeps_mk; assumption)

theorem keeps_setStore {r s : State} (h : Keeps r s) (p : Nat) (l : List Bool) :
    Keeps r (State.setStore s p l) := by
  unfold State.setStore
  repeat' with_reducible first
    | assumption | apply keeps_setTrib | apply keeps_setFld | (apply keeps_mk; assumption)

theorem keeps_useFrees {r s : State} (h : Keeps r s) (k : Nat) :
    Keeps r (State.useFrees s k) := by
  unfold State.useFrees
  repeat' with_reducible first
    | assumption | (apply keeps_mk; assumption)

theorem keeps_fillStore {r s : State} (h : Keeps r s) (p : Nat) (n : Nat) :
    Keeps r (State.fillStore s p n) := by
  unfold State.fillStore
  repeat' with_reducible first
    | assumption | apply keeps_setStore | apply keeps_useFrees

theorem keeps_updateTribTx {r s : State} (h : Keeps r s) (p : Nat) :
    Keeps r (State.updateTribTx s p) := by
  unfold State.updateTribTx
  repeat' with_reducible first
    | assumption | apply keeps_setFlag | apply keeps_fillStore | apply keeps_ite

theorem keeps_updateTribs {r s : State} (h : Keeps r s) :
    Keeps r (State.updateTribs s) := by
  unfold State.updateTribs
  repeat' with_reducible first
    | assumption | apply keeps_each | apply keeps_updateTribTx

theorem keeps_setStoreFill {r s : State} (h : Keeps r s) (p : PathId) (v : Nat) :
    Keeps r (State.setStoreFill s p v) := by
  unfold State.setStoreFill
  repeat' first
    | (with_reducible first
        | assumption | apply keeps_setFld | refine keeps_fst ?_ (by assumption))
    | extract_lets +onlyGivenNames x | intro x | split

theorem keeps_setPtrTx {r s : State} (h : Keeps r s) (p : PathId) (v : Nat) :
    Keeps r (State.setPtrTx s p v) := by
  unfold State.setPtrTx
  repeat' first
    | (with_reducible first
        | assumption | apply keeps_setFld | refine keeps_fst ?_ (by assumption))
    | extract_lets +onlyGivenNames x | intro x | split

theorem keeps_recentre {r s : State} (h : Keeps r s) (p : PathId) :
    Keeps r (State.recentre s p) := by
  unfold State.recentre
  repeat' with_reducible first
    | assumption | apply keeps_setStoreFill | apply keeps_setPtrTx | apply keeps_useFree | apply keeps_setPath | apply keeps_pathEvent
    | apply keeps_ite | (apply keeps_mk; assumption)

theorem keeps_pointerStep {r s : State} (h : Keeps r s) (p : PathId) (fill : Nat) :
    Keeps r (State.pointerStep s p fill).1 := by
  unfold State.pointerStep
  repeat' first
    | (with_reducible first
        | assumption | apply keeps_recentre | apply keeps_setStoreFill | apply keeps_setPtrTx | apply keeps_setPath
        | refine keeps_fst ?_ (by assumption) | apply keeps_ite
        | (apply keeps_mk; first | assumption | apply keeps_recentre | apply keeps_setStoreFill | apply keeps_setPtrTx | apply keeps_setPath | apply keeps_ite))
    | (extract_lets +onlyGivenNames x; refine (have hx : Keeps r x := ?_; ?_); (on_goal 1 => subst x); (on_goal 2 => clear_value x))
    | extract_lets +onlyGivenNames x | intro x | split

theorem keeps_sendVc {r s : State} (h : Keeps r s) (p : PathId) (ptr : BitVec 16) (vc : List Byte) (trace : Nat) :
    Keeps r (State.sendVc s p ptr vc trace) := by
  unfold State.sendVc
  repeat' with_reducible first
    | assumption | apply keeps_setPath | (apply keeps_mk; assumption)

theorem keeps_execPointerGeneration {r s : State} (h : Keeps r s) (p : PathId) (fill : Nat) (vc : List Byte) :
    KeepsO r (execPointerGeneration p fill vc s) := by
  unfold execPointerGeneration
  repeat' first
    | (with_reducible first
        | assumption | apply keeps_useFeed | apply keeps_pointerStep | apply keeps_sendVc | refine keeps_fst ?_ (by assumption)
        | apply keeps_ite | apply keeps_next)
    | (extract_lets +onlyGivenNames x; refine (have hx : Keeps r x := ?_; ?_); (on_goal 1 => subst x); (on_goal 2 => clear_value x))
    | extract_lets +onlyGivenNames x | intro x | split

theorem keeps_setPtrRx {r s : State} (h : Keeps r s) (p : PathId) (v : Nat) :
    Keeps r (State.setPtrRx s p v) := by
  unfold State.setPtrRx
  repeat' first
    | (with_reducible first
        | assumption | apply keeps_setFld | refine keeps_fst ?_ (by assumption))
    | extract_lets +onlyGivenNames x | intro x | split

theorem keeps_adoptPtr {r s : State} (h : Keeps r s) (p : PathId) (v : Nat) (always : Bool) :
    Keeps r (State.adoptPtr s p v always) := by
  unfold State.adoptPtr
  repeat' with_reducible first
    | assumption | apply keeps_setPtrRx | apply keeps_pathEvent | apply keeps_ite

theorem keeps_movePtr {r s : State} (h : Keeps r s) (p : PathId) (st : Nat) (st' : Nat) (i : PtrInd) :
    Keeps r (State.movePtr s p st st' i) := by
  unfold State.movePtr
  repeat' first
    | (with_reducible first
        | assumption | apply keeps_setPath | apply keeps_setPtrRx | apply keeps_adoptPtr | refine keeps_fst ?_ (by assumption)
        | apply keeps_ite | (apply keeps_mk; assumption))
    | extract_lets +onlyGivenNames x | intro x | split

theorem keeps_interpret {r s : State} (h : Keeps r s) (p : PathId) (r0 : PtrReading) :
    Keeps r (State.interpret s p r0) := by
  unfold State.interpret
  repeat' with_reducible first
    | assumption | apply keeps_setPath | apply keeps_setFld | apply keeps_setFlag | apply keeps_classify | apply keeps_movePtr
    | apply keeps_pathDefect | apply keeps_each | apply keeps_recentre | apply keeps_ite | (apply keeps_mk; assumption)

theorem keeps_setRegBytes {r s : State} (h : Keeps r s) (a : Nat) (n : Nat) (bs : List Byte) :
    Keeps r (State.setRegBytes s a n bs) := by
  unfold State.setRegBytes
  repeat' first
    | (with_reducible first
        | assumption | apply keeps_each | apply keeps_setReg)
    | extract_lets +onlyGivenNames x | intro x hx | intro x

theorem keeps_pathTrace {r s : State} (h : Keeps r s) (p : PathId) (b : Byte) :
    Keeps r (State.pathTrace s p b) := by
  unfold State.pathTrace
  repeat' first
    | (with_reducible first
        | assumption | apply keeps_setPath | apply keeps_setRegBytes | apply keeps_pathEvent | apply keeps_pathDefect
        | refine keeps_fst ?_ (by assumption) | apply keeps_ite | (apply keeps_mk; assumption))
    | extract_lets +onlyGivenNames x | intro x | split

theorem keeps_judgeLabel {r s : State} (h : Keeps r s) (p : PathId) (v : Nat) :
    Keeps r (State.judgeLabel s p v) := by
  unfold State.judgeLabel
  repeat' with_reducible first
    | assumption | apply keeps_pathDefect | apply keeps_ite

theorem keeps_pathLabel {r s : State} (h : Keeps r s) (p : PathId) (v : Nat) :
    Keeps r (State.pathLabel s p v) := by
  unfold State.pathLabel
  repeat' with_reducible first
    | assumption | apply keeps_setPath | apply keeps_setFld | apply keeps_judgeLabel | apply keeps_ite | (apply keeps_mk; assumption)

theorem keeps_pathRdi {r s : State} (h : Keeps r s) (p : PathId) (rdi : Bool) :
    Keeps r (State.pathRdi s p rdi) := by
  unfold State.pathRdi
  repeat' with_reducible first
    | assumption | apply keeps_setPath | apply keeps_pathDefect | apply keeps_ite | (apply keeps_mk; assumption)

theorem keeps_pathParity {r s : State} (h : Keeps r s) (p : PathId) (r0 : PathOverhead) :
    Keeps r (State.pathParity s p r0) := by
  unfold State.pathParity
  repeat' first
    | (with_reducible first
        | assumption | apply keeps_setPath | apply keeps_count | refine keeps_fst ?_ (by assumption) | (apply keeps_mk; assumption))
    | extract_lets +onlyGivenNames x | intro x | split

theorem keeps_multiframe {r s : State} (h : Keeps r s) (h0 : Fin 192) (h4 : Byte) :
    Keeps r (State.multiframe s h0 h4) := by
  unfold State.multiframe
  repeat' with_reducible first
    | assumption | apply keeps_setPath | apply keeps_pathDefect | apply keeps_ite | (apply keeps_mk; assumption)

theorem keeps_pathOverhead {r s : State} (h : Keeps r s) (p : PathId) (vc : List Byte) :
    Keeps r (State.pathOverhead s p vc) := by
  unfold State.pathOverhead
  repeat' first
    | (with_reducible first
        | assumption | apply keeps_setPath | apply keeps_pathTrace | apply keeps_pathParity | apply keeps_pathLabel | apply keeps_pathRdi
        | apply keeps_multiframe | refine keeps_fst ?_ (by assumption) | apply keeps_ite | (apply keeps_mk; assumption))
    | extract_lets +onlyGivenNames x | intro x | split

theorem keeps_execPointerReading {r s : State} (h : Keeps r s) (p : PathId) (r0 : PtrReading) :
    KeepsO r (execPointerReading p r0 s) := by
  unfold execPointerReading
  repeat' first
    | (with_reducible first
        | assumption | apply keeps_updateSsf | apply keeps_interpret | apply keeps_pathActions | apply keeps_pathOverhead
        | apply keeps_updateTribs | refine keeps_fst ?_ (by assumption) | apply keeps_ite | apply keeps_next)
    | extract_lets +onlyGivenNames x | intro x | split

theorem keeps_judgeSecond {r s : State} (h : Keeps r s) (p : PathId) (blocks : Nat) :
    Keeps r (State.judgeSecond s p blocks) := by
  unfold State.judgeSecond
  repeat' with_reducible first
    | assumption | apply keeps_setPath | apply keeps_pathDefect | apply keeps_ite | (apply keeps_mk; assumption)

theorem keeps_execPathSecondEnd {r s : State} (h : Keeps r s) (p : PathId) :
    KeepsO r (execPathSecondEnd p s) := by
  unfold execPathSecondEnd
  repeat' first
    | (with_reducible first
        | assumption | apply keeps_setFld | apply keeps_setPath | apply keeps_judgeSecond | apply keeps_pathActions
        | refine keeps_fst ?_ (by assumption) | apply keeps_ite | apply keeps_next | (apply keeps_mk; assumption))
    | extract_lets +onlyGivenNames x | intro x | split

end Sys2Proof.Machine
end

