-- ==== Sys2Proof/Laws/KeepsIndex.lean ====
section
/-! SUPPORT. Every operation of Machine/Index.lean leaves the queue, true time and the canonical form of memory and registers alone. -/

namespace Sys2Proof.Machine

theorem keeps_conflict {r s : State} (h : Keeps r s) (e : Nat) :
    Keeps r (State.conflict s e) := by
  unfold State.conflict
  repeat' with_reducible first
    | assumption | apply keeps_setIdx | apply keeps_idxEvent | apply keeps_ite

theorem keeps_takeEntry {r s : State} (h : Keeps r s) (e : Nat) (event : Nat) :
    Keeps r (State.takeEntry s e event) := by
  unfold State.takeEntry
  repeat' with_reducible first
    | assumption | apply keeps_setFlag | apply keeps_setIdx | apply keeps_idxEvent | (apply keeps_mk; assumption)

theorem keeps_activate {r s : State} (h : Keeps r s) (e : Nat) :
    Keeps r (State.activate s e) := by
  unfold State.activate
  repeat' with_reducible first
    | assumption | apply keeps_conflict | apply keeps_checkFails | apply keeps_takeEntry | apply keeps_ite

theorem keeps_deactivate {r s : State} (h : Keeps r s) (e : Nat) :
    Keeps r (State.deactivate s e) := by
  unfold State.deactivate
  repeat' with_reducible first
    | assumption | apply keeps_setReg | apply keeps_updateIdxStat | apply keeps_idxEvent | apply keeps_ite | (apply keeps_mk; assumption)

theorem keeps_sweepEntry {r s : State} (h : Keeps r s) (e : Nat) :
    Keeps r (State.sweepEntry s e) := by
  unfold State.sweepEntry
  repeat' with_reducible first
    | assumption | apply keeps_checkFails | apply keeps_takeEntry | apply keeps_conflict | apply keeps_ite

theorem keeps_execIndexCheckSweep {r s : State} (h : Keeps r s) :
    KeepsO r (execIndexCheckSweep s) := by
  unfold execIndexCheckSweep
  repeat' with_reducible first
    | assumption | apply keeps_each | apply keeps_sweepEntry | apply keeps_updateTribs | apply keeps_ite | apply keeps_next

theorem keeps_dropSelector {r s : State} (h : Keeps r s) (e : Nat) :
    Keeps r (State.dropSelector s e) := by
  unfold State.dropSelector
  repeat' with_reducible first
    | assumption | apply keeps_setReg | (apply keeps_mk; assumption)

theorem keeps_indexWrite {r s : State} (h : Keeps r s) (e : Nat) (k : Nat) (value : Word) :
    Keeps r (State.indexWrite s e k value) := by
  unfold State.indexWrite
  repeat' with_reducible first
    | assumption | apply keeps_serviceWrite | apply keeps_respond | apply keeps_idxEvent | apply keeps_activate | apply keeps_deactivate
    | apply keeps_dropSelector | apply keeps_ite

theorem keeps_updateConds {r s : State} (h : Keeps r s) (e : Nat) :
    Keeps r (State.updateConds s e) := by
  unfold State.updateConds
  repeat' first
    | (with_reducible first
        | assumption | apply keeps_each | apply keeps_setFlag)
    | extract_lets +onlyGivenNames x | intro x hx | intro x

theorem keeps_startWtr {r s : State} (h : Keeps r s) (e : Nat) :
    Keeps r (State.startWtr s e) := by
  unfold State.startWtr
  repeat' with_reducible first
    | assumption | apply keeps_setFld | apply keeps_idxEvent | (apply keeps_mk; assumption)

theorem keeps_stopWtr {r s : State} (h : Keeps r s) (e : Nat) :
    Keeps r (State.stopWtr s e) := by
  unfold State.stopWtr
  repeat' with_reducible first
    | assumption | apply keeps_setFld | (apply keeps_mk; assumption)

theorem keeps_showWtr {r s : State} (h : Keeps r s) (e : Nat) :
    Keeps r (State.showWtr s e) := by
  unfold State.showWtr
  repeat' with_reducible first
    | assumption | apply keeps_setFld | apply keeps_ite

theorem keeps_selectSide {r s : State} (h : Keeps r s) (e : Nat) (ap : Bool) :
    Keeps r (State.selectSide s e ap) := by
  unfold State.selectSide
  repeat' first
    | (with_reducible first
        | assumption | apply keeps_setFlag | apply keeps_recentre | refine keeps_fst ?_ (by assumption) | apply keeps_ite)
    | extract_lets +onlyGivenNames x | intro x | split

theorem keeps_noteSplit {r s : State} (h : Keeps r s) (e : Nat) (differs : Bool) :
    Keeps r (State.noteSplit s e differs) := by
  unfold State.noteSplit
  repeat' with_reducible first
    | assumption | apply keeps_count | apply keeps_setTw | apply keeps_ite | (apply keeps_mk; assumption)

theorem keeps_applySelector {r s : State} (h : Keeps r s) (e : Nat) :
    Keeps r (State.applySelector s e) := by
  unfold State.applySelector
  repeat' with_reducible first
    | assumption | apply keeps_noteSplit | apply keeps_setFld | apply keeps_selectSide | apply keeps_count | apply keeps_idxEvent
    | apply keeps_mirror | apply keeps_ite

theorem keeps_evaluateSelector {r s : State} (h : Keeps r s) (e : Nat) :
    Keeps r (State.evaluateSelector s e) := by
  unfold State.evaluateSelector
  repeat' with_reducible first
    | assumption | apply keeps_updateConds | apply keeps_stopWtr | apply keeps_startWtr | apply keeps_showWtr | apply keeps_applySelector
    | apply keeps_ite

theorem keeps_useSelector {r s : State} (h : Keeps r s) (e : Nat) (f : State → State) (hf : ∀ x, Keeps r x → Keeps r (f x)) :
    Keeps r (State.useSelector s e f) := by
  unfold State.useSelector
  repeat' first
    | (with_reducible first
        | assumption | apply keeps_checkUse | apply keeps_updateTribs | apply keeps_ite)
    | apply hf

theorem keeps_execSncpEvaluation {r s : State} (h : Keeps r s) (e : Fin 4096) :
    KeepsO r (execSncpEvaluation e s) := by
  unfold execSncpEvaluation
  repeat' first
    | (with_reducible first
        | assumption | apply keeps_useSelector | apply keeps_evaluateSelector | apply keeps_updateTribs | apply keeps_next)
    | extract_lets +onlyGivenNames x | intro x hx | intro x

theorem keeps_sncpCommand {r s : State} (h : Keeps r s) (w : Writer) (e : Nat) (cmd : Nat) :
    Keeps r (State.sncpCommand s w e cmd) := by
  unfold State.sncpCommand
  repeat' first
    | (with_reducible first
        | assumption | apply keeps_commandWrite | apply keeps_indexWrite)
    | extract_lets +onlyGivenNames x | intro x hx | intro x

theorem keeps_execSncpHoldoffExpiry {r s : State} (h : Keeps r s) (e : Fin 4096) (c : SncpCond) :
    KeepsO r (execSncpHoldoffExpiry e c s) := by
  unfold execSncpHoldoffExpiry
  repeat' first
    | (with_reducible first
        | assumption | apply keeps_useSelector | apply keeps_setFlag | apply keeps_when | apply keeps_stopWtr | apply keeps_ite
        | apply keeps_next)
    | extract_lets +onlyGivenNames x | intro x hx | intro x

theorem keeps_execSncpWtrExpiry {r s : State} (h : Keeps r s) (e : Fin 4096) :
    KeepsO r (execSncpWtrExpiry e s) := by
  unfold execSncpWtrExpiry
  repeat' first
    | (with_reducible first
        | assumption | apply keeps_useSelector | apply keeps_stopWtr | apply keeps_idxEvent | apply keeps_applySelector
        | apply keeps_updateTribs | apply keeps_ite | apply keeps_next)
    | extract_lets +onlyGivenNames x | intro x hx | intro x

end Sys2Proof.Machine
end

