-- ==== Sys2Proof/Laws/KeepsFac.lean ====
section
/-! SUPPORT. Every operation of Machine/Fac.lean leaves the queue, true time and the canonical form of memory and registers alone. -/

namespace Sys2Proof.Machine

theorem keeps_setEngine {r s : State} (h : Keeps r s) (n : Nat) (x : Engine) :
    Keeps r (State.setEngine s n x) := by
  unfold State.setEngine
  repeat' with_reducible first
    | assumption | (apply keeps_mk; assumption)

theorem keeps_setEgState {r s : State} (h : Keeps r s) (n : Nat) (st : Nat) :
    Keeps r (State.setEgState s n st) := by
  unfold State.setEgState
  repeat' with_reducible first
    | assumption | apply keeps_setFld

theorem keeps_setTribFac {r s : State} (h : Keeps r s) (p : Nat) (b : Bool) :
    Keeps r (State.setTribFac s p b) := by
  unfold State.setTribFac
  repeat' with_reducible first
    | assumption | apply keeps_setFlag | apply keeps_updateTribTx

theorem keeps_facFreeOne {r s : State} (h : Keeps r s) (n : Nat) :
    Keeps r (State.facFreeOne s n) := by
  unfold State.facFreeOne
  repeat' with_reducible first
    | assumption | apply keeps_setFlag | apply keeps_setBitAt | apply keeps_raise | apply keeps_ite

theorem keeps_facAssigned {r s : State} (h : Keeps r s) (n : Nat) :
    Keeps r (State.facAssigned s n) := by
  unfold State.facAssigned
  repeat' with_reducible first
    | assumption | apply keeps_setFld | apply keeps_setEgState | apply keeps_facFreeOne | apply keeps_setTribFac | apply keeps_raise

theorem keeps_facQuiet {r s : State} (h : Keeps r s) (n : Nat) :
    Keeps r (State.facQuiet s n) := by
  unfold State.facQuiet
  repeat' with_reducible first
    | assumption | apply keeps_setEngine | (apply keeps_mk; assumption)

theorem keeps_facStopped {r s : State} (h : Keeps r s) (n : Nat) (reason : Nat) :
    Keeps r (State.facStopped s n reason) := by
  unfold State.facStopped
  repeat' with_reducible first
    | assumption | apply keeps_raise

theorem keeps_facFault {r s : State} (h : Keeps r s) (n : Nat) (code : Nat) :
    Keeps r (State.facFault s n code) := by
  unfold State.facFault
  repeat' with_reducible first
    | assumption | apply keeps_setEngine | apply keeps_setFld | apply keeps_setEgState | apply keeps_count | apply keeps_raise
    | (apply keeps_mk; assumption)

theorem keeps_facDead {r s : State} (h : Keeps r s) (n : Nat) (k : Nat) :
    Keeps r (State.facDead s n k) := by
  unfold State.facDead
  repeat' with_reducible first
    | assumption | apply keeps_setFld | apply keeps_setEgState | apply keeps_setEngine | (apply keeps_mk; assumption)

theorem keeps_facPlay {r s : State} (h : Keeps r s) (n : Nat) :
    Keeps r (State.facPlay s n) := by
  unfold State.facPlay
  repeat' with_reducible first
    | assumption | apply keeps_setEgState

theorem keeps_facPulse {r s : State} (h : Keeps r s) (n : Nat) (bits : Nat) :
    Keeps r (State.facPulse s n bits) := by
  unfold State.facPulse
  repeat' with_reducible first
    | assumption | apply keeps_setFld | apply keeps_facPlay | apply keeps_ite

theorem keeps_facPulseAll {r s : State} (h : Keeps r s) (bits : Nat) :
    Keeps r (State.facPulseAll s bits) := by
  unfold State.facPulseAll
  repeat' first
    | (with_reducible first
        | assumption | apply keeps_each | apply keeps_facPulse)
    | extract_lets +onlyGivenNames x | intro x hx | intro x

theorem keeps_facPortPulse {r s : State} (h : Keeps r s) (port : Nat) (b : Nat) :
    Keeps r (State.facPortPulse s port b) := by
  unfold State.facPortPulse
  repeat' first
    | (with_reducible first
        | assumption | apply keeps_each | apply keeps_facPulse | apply keeps_ite)
    | extract_lets +onlyGivenNames x | intro x hx | intro x

theorem keeps_execFacTrigger {r s : State} (h : Keeps r s) (n : Fin 8) (trigs : BitVec 16) :
    KeepsO r (execFacTrigger n trigs s) := by
  unfold execFacTrigger
  repeat' with_reducible first
    | assumption | apply keeps_facPulse | apply keeps_next

theorem keeps_facRefuse {r s : State} (h : Keeps r s) (n : Nat) :
    Keeps r (State.facRefuse s n) := by
  unfold State.facRefuse
  repeat' with_reducible first
    | assumption | apply keeps_setFld

theorem keeps_facAccept {r s : State} (h : Keeps r s) (n : Nat) (cmd : Nat) (arg : Nat) (token : Nat) (result : Nat) :
    Keeps r (State.facAccept s n cmd arg token result) := by
  unfold State.facAccept
  repeat' with_reducible first
    | assumption | apply keeps_setReg

theorem keeps_facStart {r s : State} (h : Keeps r s) (n : Nat) (k : Nat) (token : Nat) :
    Keeps r (State.facStart s n k token) := by
  unfold State.facStart
  repeat' with_reducible first
    | assumption | apply keeps_facAccept | apply keeps_setEngine | apply keeps_setReg | apply keeps_setFld | apply keeps_facDead
    | apply keeps_raise | apply keeps_facRefuse | apply keeps_ite | (apply keeps_mk; assumption)

theorem keeps_facStop {r s : State} (h : Keeps r s) (n : Nat) (token : Nat) :
    Keeps r (State.facStop s n token) := by
  unfold State.facStop
  repeat' with_reducible first
    | assumption | apply keeps_facRefuse | apply keeps_facAccept | apply keeps_facQuiet | apply keeps_setEgState | apply keeps_facStopped
    | apply keeps_ite

theorem keeps_facTrig {r s : State} (h : Keeps r s) (n : Nat) (token : Nat) :
    Keeps r (State.facTrig s n token) := by
  unfold State.facTrig
  repeat' with_reducible first
    | assumption | apply keeps_facAccept | apply keeps_facPulse | apply keeps_facRefuse | apply keeps_ite

theorem keeps_facAssign {r s : State} (h : Keeps r s) (n : Nat) (port : Nat) (cmp : Nat) (token : Nat) :
    Keeps r (State.facAssign s n port cmp token) := by
  unfold State.facAssign
  repeat' with_reducible first
    | assumption | apply keeps_facAccept | apply keeps_setTribFac | apply keeps_serviceWrite | apply keeps_facAssigned
    | apply keeps_facRefuse | apply keeps_ite

theorem keeps_facOff {r s : State} (h : Keeps r s) (n : Nat) :
    Keeps r (State.facOff s n) := by
  unfold State.facOff
  repeat' with_reducible first
    | assumption | apply keeps_facQuiet | apply keeps_setFlag | apply keeps_setEgState | apply keeps_setTribFac | apply keeps_facStopped
    | apply keeps_raise | apply keeps_ite

theorem keeps_facRelease {r s : State} (h : Keeps r s) (n : Nat) (token : Nat) :
    Keeps r (State.facRelease s n token) := by
  unfold State.facRelease
  repeat' with_reducible first
    | assumption | apply keeps_facRefuse | apply keeps_facAccept | apply keeps_facOff | apply keeps_ite

theorem keeps_facReset {r s : State} (h : Keeps r s) (n : Nat) :
    Keeps r (State.facReset s n) := by
  unfold State.facReset
  repeat' with_reducible first
    | assumption | apply keeps_facQuiet | apply keeps_setEgState

theorem keeps_facCal {r s : State} (h : Keeps r s) (n : Nat) (token : Nat) :
    Keeps r (State.facCal s n token) := by
  unfold State.facCal
  repeat' with_reducible first
    | assumption | apply keeps_facAccept | apply keeps_setEngine | apply keeps_facRefuse | apply keeps_ite | (apply keeps_mk; assumption)

theorem keeps_facSetSkew {r s : State} (h : Keeps r s) (n : Nat) (skew : Nat) (token : Nat) :
    Keeps r (State.facSetSkew s n skew token) := by
  unfold State.facSetSkew
  repeat' with_reducible first
    | assumption | apply keeps_facAccept | apply keeps_serviceWrite

theorem keeps_facCommand {r s : State} (h : Keeps r s) (n : Nat) (cmd : Nat) (arg : Nat) (token : Nat) :
    Keeps r (State.facCommand s n cmd arg token) := by
  unfold State.facCommand
  repeat' first
    | (with_reducible first
        | assumption | apply keeps_facStart | apply keeps_facStop | apply keeps_facTrig | apply keeps_facAssign | apply keeps_facRelease
        | apply keeps_facCal | apply keeps_facSetSkew | apply keeps_facRefuse | apply keeps_raise | refine keeps_fst ?_ (by assumption)
        | apply keeps_ite)
    | extract_lets +onlyGivenNames x | intro x | split

theorem keeps_facWrite {r s : State} (h : Keeps r s) (w : Writer) (n : Nat) (cmd : Nat) (arg : Nat) (token : Nat) :
    Keeps r (State.facWrite s w n cmd arg token) := by
  unfold State.facWrite
  repeat' first
    | (with_reducible first
        | assumption | apply keeps_commandWrite | apply keeps_facCommand)
    | extract_lets +onlyGivenNames x | intro x hx | intro x

theorem keeps_execFacCalDone {r s : State} (h : Keeps r s) (n : Fin 8) (crossings : List (Option Nat)) :
    KeepsO r (execFacCalDone n crossings s) := by
  unfold execFacCalDone
  repeat' with_reducible first
    | assumption | apply keeps_setEngine | apply keeps_setReg | apply keeps_setFld | apply keeps_setFlag | apply keeps_raise
    | apply keeps_ite | apply keeps_next | (apply keeps_mk; assumption)

theorem keeps_facSyncWrite {r s : State} (h : Keeps r s) (token : Nat) (go : Bool) :
    Keeps r (State.facSyncWrite s token go) := by
  unfold State.facSyncWrite
  repeat' with_reducible first
    | assumption | apply keeps_setReg | apply keeps_facPulseAll | apply keeps_raise | apply keeps_ite

theorem keeps_facStreamWrite {r s : State} (h : Keeps r s) (n : Nat) (token : Nat) (count : Nat) :
    Keeps r (State.facStreamWrite s n token count) := by
  unfold State.facStreamWrite
  repeat' first
    | (with_reducible first
        | assumption | apply keeps_setFld | apply keeps_count | apply keeps_setReg | apply keeps_setBitAt | apply keeps_raise
        | refine keeps_fst ?_ (by assumption) | apply keeps_ite)
    | extract_lets +onlyGivenNames x | intro x | split

theorem keeps_execDeadTimeEnd {r s : State} (h : Keeps r s) (n : Fin 8) :
    KeepsO r (execDeadTimeEnd n s) := by
  unfold execDeadTimeEnd
  repeat' with_reducible first
    | assumption | apply keeps_setEngine | apply keeps_facFault | apply keeps_setFld | apply keeps_setEgState | apply keeps_facPlay
    | apply keeps_ite | apply keeps_next | (apply keeps_mk; assumption)

theorem keeps_execWaitTimeout {r s : State} (h : Keeps r s) (n : Fin 8) :
    KeepsO r (execWaitTimeout n s) := by
  unfold execWaitTimeout
  repeat' with_reducible first
    | assumption | apply keeps_setFld | apply keeps_count | apply keeps_raise | apply keeps_facDead | apply keeps_ite | apply keeps_next

theorem keeps_execStepEnd {r s : State} (h : Keeps r s) (n : Fin 8) :
    KeepsO r (execStepEnd n s) := by
  unfold execStepEnd
  repeat' with_reducible first
    | assumption | apply keeps_count | apply keeps_facPulseAll | apply keeps_raise | apply keeps_setEngine | apply keeps_setEgState
    | apply keeps_facStopped | apply keeps_facDead | apply keeps_ite | apply keeps_next | (apply keeps_mk; assumption)

theorem keeps_placeMark {r s : State} (h : Keeps r s) (n : Nat) (k : Nat) :
    Keeps r (State.placeMark s n k) := by
  unfold State.placeMark
  repeat' with_reducible first
    | assumption | apply keeps_setEngine | apply keeps_ite | (apply keeps_mk; assumption)

theorem keeps_vecElement {r s : State} (h : Keeps r s) (n : Nat) :
    Keeps r (State.vecElement s n) := by
  unfold State.vecElement
  repeat' with_reducible first
    | assumption | apply keeps_facFault | apply keeps_setEngine | apply keeps_placeMark | apply keeps_ite | (apply keeps_mk; assumption)

theorem keeps_execFacsimileOutputSample {r s : State} (h : Keeps r s) (n : Fin 8) :
    KeepsO r (execFacsimileOutputSample n s) := by
  unfold execFacsimileOutputSample
  repeat' with_reducible first
    | assumption | apply keeps_setEngine | apply keeps_vecElement | apply keeps_ite | apply keeps_next | (apply keeps_mk; assumption)

theorem keeps_execVectorCompare {r s : State} (h : Keeps r s) (n : Fin 8) (lag : Byte) (received : Symbol) :
    KeepsO r (execVectorCompare n lag received s) := by
  unfold execVectorCompare
  repeat' first
    | (with_reducible first
        | assumption | apply keeps_setEngine | apply keeps_count | apply keeps_setBitAt | apply keeps_setReg | apply keeps_raise
        | refine keeps_fst ?_ (by assumption) | apply keeps_ite | apply keeps_next | (apply keeps_mk; assumption))
    | extract_lets +onlyGivenNames x | intro x | split

theorem keeps_execStreamSample {r s : State} (h : Keeps r s) (n : Fin 8) :
    KeepsO r (execStreamSample n s) := by
  unfold execStreamSample
  repeat' first
    | (with_reducible first
        | assumption | apply keeps_setEngine | apply keeps_setBitAt | apply keeps_count | apply keeps_raiseFirst | apply keeps_setReg
        | refine keeps_fst ?_ (by assumption) | apply keeps_ite | apply keeps_next | (apply keeps_mk; assumption))
    | extract_lets +onlyGivenNames x | intro x | split

theorem keeps_patternWrite {r s : State} (h : Keeps r s) (w : Writer) (i : Nat) (value : Word) :
    Keeps r (State.patternWrite s w i value) := by
  unfold State.patternWrite
  repeat' first
    | (with_reducible first
        | assumption | apply keeps_respond | apply keeps_raise | apply keeps_serviceWrite | apply keeps_setReg
        | refine keeps_fst ?_ (by assumption) | apply keeps_ite)
    | extract_lets +onlyGivenNames x | intro x | split

theorem keeps_facFree {r s : State} (h : Keeps r s) (mode : Nat) :
    Keeps r (State.facFree s mode) := by
  unfold State.facFree
  repeat' with_reducible first
    | assumption | apply keeps_each | apply keeps_facFreeOne | apply keeps_ite

theorem keeps_facCfgWrite {r s : State} (h : Keeps r s) (n : Nat) (value : Word) :
    Keeps r (State.facCfgWrite s n value) := by
  unfold State.facCfgWrite
  repeat' with_reducible first
    | assumption | apply keeps_respond | apply keeps_facOff | apply keeps_serviceWrite | apply keeps_setTribFac | apply keeps_facAssigned
    | apply keeps_setFld | apply keeps_facFreeOne | apply keeps_raise | apply keeps_ite

end Sys2Proof.Machine
end

