-- ==== Sys2Proof/Laws/KeepsTrib.lean ====
section
/-! SUPPORT. Every operation of Machine/Trib.lean leaves the queue, true time and the canonical form of memory and registers alone. -/

namespace Sys2Proof.Machine

theorem keeps_setTstat {r s : State} (h : Keeps r s) (p : Nat) (f : Fld) (b : Bool) :
    Keeps r (State.setTstat s p f b) := by
  unfold State.setTstat
  repeat' with_reducible first
    | assumption | apply keeps_setBitAt | apply keeps_setFlag | apply keeps_ite

theorem keeps_tribEvent {r s : State} (h : Keeps r s) (p : Nat) (e : Nat) (data : List Word) :
    Keeps r (State.tribEvent s p e data) := by
  unfold State.tribEvent
  repeat' with_reducible first
    | assumption | apply keeps_raise

theorem keeps_tribDefect {r s : State} (h : Keeps r s) (p : Nat) (f : Fld) (b : Bool) (eOn : Nat) (eOff : Nat) (data : List Word) :
    Keeps r (State.tribDefect s p f b eOn eOff data) := by
  unfold State.tribDefect
  repeat' with_reducible first
    | assumption | apply keeps_setTstat | apply keeps_tribEvent | apply keeps_ite

theorem keeps_tribIdx {r s : State} (h : Keeps r s) (p : Nat) :
    Keeps r (State.tribIdx s p) := by
  unfold State.tribIdx
  repeat' with_reducible first
    | assumption | apply keeps_setTstat

theorem keeps_syncOof {r s : State} (h : Keeps r s) (p : Nat) :
    Keeps r (State.syncOof s p) := by
  unfold State.syncOof
  repeat' with_reducible first
    | assumption | apply keeps_setTrib | apply keeps_tribDefect | apply keeps_ite | (apply keeps_mk; assumption)

theorem keeps_setRxFramer {r s : State} (h : Keeps r s) (p : Nat) (st : Nat) :
    Keeps r (State.setRxFramer s p st) := by
  unfold State.setRxFramer
  repeat' with_reducible first
    | assumption | apply keeps_setFld | apply keeps_setTrib | apply keeps_ite | (apply keeps_mk; assumption)

theorem keeps_updateTribLos {r s : State} (h : Keeps r s) (p : Nat) :
    Keeps r (State.updateTribLos s p) := by
  unfold State.updateTribLos
  repeat' with_reducible first
    | assumption | apply keeps_setTrib | apply keeps_tribDefect | apply keeps_setRxFramer | apply keeps_syncOof | apply keeps_facPortPulse
    | apply keeps_tribIdx | apply keeps_ite | (apply keeps_mk; assumption)

theorem keeps_execTribLos {r s : State} (h : Keeps r s) (p : Fin 64) (lost : Bool) :
    KeepsO r (execTribLos p lost s) := by
  unfold execTribLos
  repeat' with_reducible first
    | assumption | apply keeps_setTrib | apply keeps_updateTribLos | apply keeps_ite | apply keeps_next | (apply keeps_mk; assumption)

theorem keeps_execTribCdrLockLoss {r s : State} (h : Keeps r s) (p : Fin 64) :
    KeepsO r (execTribCdrLockLoss p s) := by
  unfold execTribCdrLockLoss
  repeat' with_reducible first
    | assumption | apply keeps_setTstat | apply keeps_tribEvent | apply keeps_ite | apply keeps_next

theorem keeps_execTribCdrUnlockLos {r s : State} (h : Keeps r s) (p : Fin 64) :
    KeepsO r (execTribCdrUnlockLos p s) := by
  unfold execTribCdrUnlockLos
  repeat' with_reducible first
    | assumption | apply keeps_setTrib | apply keeps_updateTribLos | apply keeps_ite | apply keeps_next | (apply keeps_mk; assumption)

theorem keeps_execTribCdrLock {r s : State} (h : Keeps r s) (p : Fin 64) :
    KeepsO r (execTribCdrLock p s) := by
  unfold execTribCdrLock
  repeat' with_reducible first
    | assumption | apply keeps_setTstat | apply keeps_setTrib | apply keeps_updateTribLos | apply keeps_facPortPulse | apply keeps_ite
    | apply keeps_next | (apply keeps_mk; assumption)

theorem keeps_execTribAisBlock {r s : State} (h : Keeps r s) (p : Fin 64) (zeros : Nat) :
    KeepsO r (execTribAisBlock p zeros s) := by
  unfold execTribAisBlock
  repeat' with_reducible first
    | assumption | apply keeps_setTrib | apply keeps_tribDefect | apply keeps_syncOof | apply keeps_ite | apply keeps_next
    | (apply keeps_mk; assumption)

theorem keeps_basicSearch {r s : State} (h : Keeps r s) (p : Nat) (quiet : Bool) :
    Keeps r (State.basicSearch s p quiet) := by
  unfold State.basicSearch
  repeat' with_reducible first
    | assumption | apply keeps_setRxFramer | apply keeps_setTrib | apply keeps_syncOof | (apply keeps_mk; assumption)

theorem keeps_crc4Search {r s : State} (h : Keeps r s) (p : Nat) (fas : Bool) (fr : List Bool) :
    Keeps r (State.crc4Search s p fas fr) := by
  unfold State.crc4Search
  repeat' with_reducible first
    | assumption | apply keeps_setTrib | apply keeps_setFld | apply keeps_tribEvent | apply keeps_ite | (apply keeps_mk; assumption)

theorem keeps_crc4Judge {r s : State} (h : Keeps r s) (p : Nat) (err : Bool) :
    Keeps r (State.crc4Judge s p err) := by
  unfold State.crc4Judge
  repeat' with_reducible first
    | assumption | apply keeps_count | apply keeps_setTrib | apply keeps_tribEvent | apply keeps_basicSearch | apply keeps_ite
    | (apply keeps_mk; assumption)

theorem keeps_crc4Frame {r s : State} (h : Keeps r s) (p : Nat) (fas : Bool) (fr : List Bool) :
    Keeps r (State.crc4Frame s p fas fr) := by
  unfold State.crc4Frame
  repeat' first
    | (with_reducible first
        | assumption | apply keeps_count | apply keeps_setTrib | apply keeps_crc4Judge | refine keeps_fst ?_ (by assumption)
        | apply keeps_ite | (apply keeps_mk; assumption))
    | extract_lets +onlyGivenNames x | intro x hx | intro x | split

theorem keeps_crc4Step {r s : State} (h : Keeps r s) (p : Nat) (fas : Bool) (fr : List Bool) :
    Keeps r (State.crc4Step s p fas fr) := by
  unfold State.crc4Step
  repeat' with_reducible first
    | assumption | apply keeps_crc4Search | apply keeps_crc4Frame | apply keeps_ite

theorem keeps_esfFrame {r s : State} (h : Keeps r s) (p : Nat) (pos : Nat) (fr : List Bool) :
    Keeps r (State.esfFrame s p pos fr) := by
  unfold State.esfFrame
  repeat' first
    | (with_reducible first
        | assumption | apply keeps_setTrib | apply keeps_count | refine keeps_fst ?_ (by assumption) | apply keeps_ite
        | (apply keeps_mk; assumption))
    | extract_lets +onlyGivenNames x | intro x hx | intro x | split

theorem keeps_raiRun {r s : State} (h : Keeps r s) (p : Nat) (n : Nat) (on : Bool) :
    Keeps r (State.raiRun s p n on) := by
  unfold State.raiRun
  repeat' with_reducible first
    | assumption | apply keeps_setTrib | apply keeps_tribDefect | apply keeps_ite | (apply keeps_mk; assumption)

theorem keeps_alarmE1 {r s : State} (h : Keeps r s) (p : Nat) (fr : List Bool) :
    Keeps r (State.alarmE1 s p fr) := by
  unfold State.alarmE1
  repeat' with_reducible first
    | assumption | apply keeps_setFld | apply keeps_setFlag | apply keeps_raiRun

theorem keeps_alarmSf {r s : State} (h : Keeps r s) (p : Nat) (fr : List Bool) :
    Keeps r (State.alarmSf s p fr) := by
  unfold State.alarmSf
  repeat' with_reducible first
    | assumption | apply keeps_setTrib | apply keeps_raiRun | apply keeps_ite | (apply keeps_mk; assumption)

theorem keeps_alarmEsf {r s : State} (h : Keeps r s) (p : Nat) (b : Bool) :
    Keeps r (State.alarmEsf s p b) := by
  unfold State.alarmEsf
  repeat' with_reducible first
    | assumption | apply keeps_setTrib | apply keeps_setFld | apply keeps_raiRun | apply keeps_ite | (apply keeps_mk; assumption)

theorem keeps_monitorFrame {r s : State} (h : Keeps r s) (p : Nat) (pos : Nat) (fr : List Bool) :
    Keeps r (State.monitorFrame s p pos fr) := by
  unfold State.monitorFrame
  repeat' with_reducible first
    | assumption | apply keeps_alarmE1 | apply keeps_crc4Step | apply keeps_alarmSf | apply keeps_esfFrame | apply keeps_alarmEsf
    | apply keeps_ite

theorem keeps_foundFrame {r s : State} (h : Keeps r s) (p : Nat) (fr : List Bool) :
    Keeps r (State.foundFrame s p fr) := by
  unfold State.foundFrame
  repeat' with_reducible first
    | assumption | apply keeps_setTrib | apply keeps_ite | (apply keeps_mk; assumption)

theorem keeps_rxStep {r s : State} (h : Keeps r s) (p : Nat) :
    Keeps r (State.rxStep s p).1 := by
  unfold State.rxStep
  repeat' first
    | (with_reducible first
        | assumption | apply keeps_setTrib | apply keeps_count | apply keeps_setRxFramer | apply keeps_syncOof | apply keeps_foundFrame
        | apply keeps_monitorFrame | refine keeps_fst ?_ (by assumption) | apply keeps_ite | (apply keeps_mk; assumption))
    | extract_lets +onlyGivenNames x | intro x | split

theorem keeps_rxAdvance {r s : State} (h : Keeps r s) (p n : Nat) : Keeps r (s.rxAdvance p n) := by
  induction n generalizing s with
  | zero => exact h
  | succ n ih =>
    unfold State.rxAdvance
    dsimp only
    split
    · exact ih (keeps_rxStep h p)
    · exact keeps_rxStep h p

theorem keeps_txAdvance {r s : State} (h : Keeps r s) (p n : Nat) : Keeps r (s.txAdvance p n) := by
  induction n generalizing s with
  | zero => exact h
  | succ n ih =>
    have hs (x : TribPort) (a : Nat) (f : Fld) (v : Nat) : Keeps r ((s.setTrib p x).setFld a f v) :=
      keeps_setFld (keeps_setTrib h p x) a f v
    unfold State.txAdvance
    dsimp only
    split
    · exact ih (hs ..)
    · exact hs ..

theorem keeps_decodeLine {r s : State} (h : Keeps r s) (p : Nat) (l : List Pulse) :
    Keeps r (State.decodeLine s p l).1 := by
  unfold State.decodeLine
  repeat' with_reducible first
    | assumption | apply keeps_setTrib | apply keeps_count | apply keeps_ite | (apply keeps_mk; assumption)

theorem keeps_execTribFrame {r s : State} (h : Keeps r s) (p : Fin 64) (rx : Option (List Pulse)) :
    KeepsO r (execTribFrame p rx s) := by
  unfold execTribFrame
  repeat' first
    | (with_reducible first
        | assumption | apply keeps_txAdvance | apply keeps_decodeLine | apply keeps_setTrib | apply keeps_rxAdvance
        | refine keeps_fst ?_ (by assumption) | apply keeps_ite | apply keeps_next | (apply keeps_mk; assumption))
    | extract_lets +onlyGivenNames x | intro x | split

theorem keeps_execCrc4MultiframeSearchEnd {r s : State} (h : Keeps r s) (p : Fin 64) :
    KeepsO r (execCrc4MultiframeSearchEnd p s) := by
  unfold execCrc4MultiframeSearchEnd
  repeat' with_reducible first
    | assumption | apply keeps_basicSearch | apply keeps_setFld | apply keeps_tribEvent | apply keeps_ite | apply keeps_next

theorem keeps_execTribLofTimer {r s : State} (h : Keeps r s) (p : Fin 64) :
    KeepsO r (execTribLofTimer p s) := by
  unfold execTribLofTimer
  repeat' with_reducible first
    | assumption | apply keeps_tribDefect | apply keeps_tribIdx | apply keeps_ite | apply keeps_next

theorem keeps_sampleClock {r s : State} (h : Keeps r s) (c : Nat) (ok : Bool) :
    Keeps r (State.sampleClock s c ok) := by
  unfold State.sampleClock
  repeat' with_reducible first
    | assumption | apply keeps_setBitAt | apply keeps_raise | apply keeps_updateTribs | apply keeps_facFree | apply keeps_ite

theorem keeps_execTribSampleClockInvalid {r s : State} (h : Keeps r s) (c : Fin 4) :
    KeepsO r (execTribSampleClockInvalid c s) := by
  unfold execTribSampleClockInvalid
  repeat' with_reducible first
    | assumption | apply keeps_sampleClock | apply keeps_next

theorem keeps_execTribSampleClockValid {r s : State} (h : Keeps r s) (c : Fin 4) :
    KeepsO r (execTribSampleClockValid c s) := by
  unfold execTribSampleClockValid
  repeat' with_reducible first
    | assumption | apply keeps_sampleClock | apply keeps_next

theorem keeps_slip {r s : State} (h : Keeps r s) (p : Nat) (overflow : Bool) :
    Keeps r (State.slip s p overflow) := by
  unfold State.slip
  repeat' with_reducible first
    | assumption | apply keeps_fillStore | apply keeps_count | apply keeps_tribEvent

theorem keeps_execUncontrolledSlip {r s : State} (h : Keeps r s) (p : Fin 64) (overflow : Bool) :
    KeepsO r (execUncontrolledSlip p overflow s) := by
  unfold execUncontrolledSlip
  repeat' with_reducible first
    | assumption | apply keeps_slip | apply keeps_ite | apply keeps_next

theorem keeps_execControlledSlip {r s : State} (h : Keeps r s) (p : Fin 64) (delete : Bool) :
    KeepsO r (execControlledSlip p delete s) := by
  unfold execControlledSlip
  repeat' with_reducible first
    | assumption | apply keeps_setStore | apply keeps_count | apply keeps_tribEvent | apply keeps_useFrees | apply keeps_ite
    | apply keeps_next

theorem keeps_templateRefused {r s : State} (h : Keeps r s) (t0 : Nat) :
    Keeps r (State.templateRefused s t0) := by
  unfold State.templateRefused
  repeat' first
    | (with_reducible first
        | assumption | apply keeps_respond | apply keeps_tribEvent | apply keeps_raise | refine keeps_fst ?_ (by assumption)
        | apply keeps_ite)
    | extract_lets +onlyGivenNames x | intro x | split

theorem keeps_templateWrite {r s : State} (h : Keeps r s) (w : Writer) (t0 : Nat) (i : Nat) (value : Word) :
    Keeps r (State.templateWrite s w t0 i value) := by
  unfold State.templateWrite
  repeat' with_reducible first
    | assumption | apply keeps_templateRefused | apply keeps_serviceWrite | apply keeps_ite

theorem keeps_startTrib {r s : State} (h : Keeps r s) (p : Nat) :
    Keeps r (State.startTrib s p) := by
  unfold State.startTrib
  repeat' with_reducible first
    | assumption | apply keeps_tribEvent | apply keeps_setTrib | apply keeps_fillStore | apply keeps_setTstat | apply keeps_setFld
    | apply keeps_tribIdx | apply keeps_updateTribTx | apply keeps_updateDriven | apply keeps_ite | (apply keeps_mk; assumption)

theorem keeps_stopTrib {r s : State} (h : Keeps r s) (p : Nat) :
    Keeps r (State.stopTrib s p) := by
  unfold State.stopTrib
  repeat' with_reducible first
    | assumption | apply keeps_tribEvent | apply keeps_setTrib | apply keeps_setFld | apply keeps_setFlag | apply keeps_tribIdx

theorem keeps_tribEnWrite {r s : State} (h : Keeps r s) (p : Nat) (en : Bool) :
    Keeps r (State.tribEnWrite s p en) := by
  unfold State.tribEnWrite
  repeat' with_reducible first
    | assumption | apply keeps_serviceWrite | apply keeps_startTrib | apply keeps_stopTrib | apply keeps_ite

theorem keeps_maintWrite {r s : State} (h : Keeps r s) (p : Nat) (value : Word) :
    Keeps r (State.maintWrite s p value) := by
  unfold State.maintWrite
  repeat' with_reducible first
    | assumption | apply keeps_setReg | apply keeps_tribEvent | apply keeps_tribIdx | apply keeps_updateTribTx | apply keeps_ite

theorem keeps_maintBit {r s : State} (h : Keeps r s) (w : Writer) (p : Nat) (f : Fld) (on : Bool) :
    Keeps r (State.maintBit s w p f on) := by
  unfold State.maintBit
  repeat' first
    | (with_reducible first
        | assumption | apply keeps_commandWrite | apply keeps_maintWrite)
    | extract_lets +onlyGivenNames x | intro x hx | intro x

theorem keeps_startSymbol {r s : State} (h : Keeps r s) (p : Nat) (gap : Nat) (a : Int) :
    Keeps r (State.startSymbol s p gap a) := by
  unfold State.startSymbol
  repeat' with_reducible first
    | assumption | apply keeps_setTrib | apply keeps_count | apply keeps_raiseFirst | apply keeps_ite | (apply keeps_mk; assumption)

theorem keeps_steerTimer {r s : State} (h : Keeps r s) (p : Nat) (nominal : Bool) :
    Keeps r (State.steerTimer s p nominal) := by
  unfold State.steerTimer
  repeat' with_reducible first
    | assumption | apply keeps_setTrib | apply keeps_setFld | apply keeps_ite | (apply keeps_mk; assumption)

theorem keeps_completeSymbol {r s : State} (h : Keeps r s) (p : Nat) :
    Keeps r (State.completeSymbol s p).1 := by
  unfold State.completeSymbol
  repeat' with_reducible first
    | assumption | apply keeps_setTrib | (apply keeps_mk; assumption)

theorem keeps_takeSymbol {r s : State} (h : Keeps r s) (p : Nat) (arrived : List Bool) :
    Keeps r (State.takeSymbol s p arrived).1 := by
  unfold State.takeSymbol
  repeat' with_reducible first
    | assumption | apply keeps_setTrib | apply keeps_setStore | apply keeps_when | apply keeps_useFree | apply keeps_ite
    | (apply keeps_mk; assumption)

theorem keeps_execTribTransmitSymbol {r s : State} (h : Keeps r s) (p : Fin 64) (arrived : List Bool) :
    KeepsO r (execTribTransmitSymbol p arrived s) := by
  unfold execTribTransmitSymbol
  repeat' first
    | (with_reducible first
        | assumption | apply keeps_updateTribTx | apply keeps_setTrib | apply keeps_takeSymbol | apply keeps_steerTimer
        | apply keeps_completeSymbol | apply keeps_startSymbol | refine keeps_fst ?_ (by assumption) | apply keeps_ite | apply keeps_next
        | (apply keeps_mk; first | assumption | apply keeps_updateTribTx | apply keeps_setTrib | apply keeps_takeSymbol | apply keeps_steerTimer | apply keeps_completeSymbol | apply keeps_startSymbol | apply keeps_ite))
    | (extract_lets +onlyGivenNames x; refine (have hx : Keeps r x := ?_; ?_); (on_goal 1 => subst x); (on_goal 2 => clear_value x))
    | extract_lets +onlyGivenNames x | intro x | split

end Sys2Proof.Machine
end

