-- ==== Sys2Proof/Laws/KeepsTiming.lean ====
section
/-! SUPPORT. Every operation of Machine/Timing.lean leaves the queue, true time and the canonical form of memory and registers alone. -/

namespace Sys2Proof.Machine

theorem keeps_setRef {r s : State} (h : Keeps r s) (i : Nat) (r0 : Ref) :
    Keeps r (State.setRef s i r0) := by
  unfold State.setRef
  repeat' with_reducible first
    | assumption | (apply keeps_mk; assumption)

theorem keeps_setDpll {r s : State} (h : Keeps r s) (d : Nat) (x : Dpll) :
    Keeps r (State.setDpll s d x) := by
  unfold State.setDpll
  repeat' with_reducible first
    | assumption | (apply keeps_mk; assumption)

theorem keeps_refEvent {r s : State} (h : Keeps r s) (i : Nat) (e : Nat) :
    Keeps r (State.refEvent s i e) := by
  unfold State.refEvent
  repeat' with_reducible first
    | assumption | apply keeps_raise

theorem keeps_timSettle {r s : State} (h : Keeps r s) :
    Keeps r (State.timSettle s) := by
  unfold State.timSettle
  repeat' first
    | (with_reducible first
        | assumption | apply keeps_setFlag | apply keeps_setFld | apply keeps_raise | apply keeps_ite | (apply keeps_mk; assumption)
        | (apply keeps_mk; first | assumption | apply keeps_setFlag | apply keeps_setFld | apply keeps_raise | apply keeps_ite))
    | extract_lets +onlyGivenNames x | intro x

theorem keeps_loadModel {r s : State} (h : Keeps r s) :
    Keeps r (State.loadModel s) := by
  unfold State.loadModel
  repeat' with_reducible first
    | assumption | apply keeps_setFld | apply keeps_ite | (apply keeps_mk; assumption)

theorem keeps_readModel {r s : State} (h : Keeps r s) :
    Keeps r (State.readModel s) := by
  unfold State.readModel
  repeat' with_reducible first
    | assumption | apply keeps_loadModel | apply keeps_raise | apply keeps_ite

theorem keeps_addOffset {r s : State} (h : Keeps r s) (f : Int) :
    Keeps r (State.addOffset s f) := by
  unfold State.addOffset
  repeat' with_reducible first
    | assumption | apply keeps_ite | (apply keeps_mk; assumption)

theorem keeps_dpEvent {r s : State} (h : Keeps r s) (d : Nat) :
    Keeps r (State.dpEvent s d) := by
  unfold State.dpEvent
  repeat' with_reducible first
    | assumption | apply keeps_raise

theorem keeps_hoEvent {r s : State} (h : Keeps r s) (e : Nat) :
    Keeps r (State.hoEvent s e) := by
  unfold State.hoEvent
  repeat' with_reducible first
    | assumption | apply keeps_raise

theorem keeps_useRef {r s : State} (h : Keeps r s) (d : Nat) (b : Bool) :
    Keeps r (State.useRef s d b) := by
  unfold State.useRef
  repeat' first
    | (with_reducible first
        | assumption | apply keeps_setFlag | apply keeps_ite | (apply keeps_mk; assumption)
        | (apply keeps_mk; first | assumption | apply keeps_setFlag | apply keeps_ite))
    | extract_lets +onlyGivenNames x | intro x

theorem keeps_holdoverEntry {r s : State} (h : Keeps r s) :
    Keeps r (State.holdoverEntry s) := by
  unfold State.holdoverEntry
  repeat' with_reducible first
    | assumption | apply keeps_setFlag | apply keeps_setReg | apply keeps_hoEvent | (apply keeps_mk; assumption)

theorem keeps_setDpState {r s : State} (h : Keeps r s) (d : Nat) (st : Nat) :
    Keeps r (State.setDpState s d st) := by
  unfold State.setDpState
  repeat' first
    | (with_reducible first
        | assumption | apply keeps_setDpll | apply keeps_setFld | apply keeps_dpEvent | apply keeps_setFlag | apply keeps_hoEvent
        | apply keeps_holdoverEntry | apply keeps_ite
        | (apply keeps_mk; first | assumption | apply keeps_setDpll | apply keeps_setFld | apply keeps_dpEvent | apply keeps_setFlag | apply keeps_hoEvent | apply keeps_holdoverEntry | apply keeps_ite)
        | (apply keeps_mk; apply keeps_mk; first | assumption | apply keeps_setDpll | apply keeps_setFld | apply keeps_dpEvent | apply keeps_setFlag | apply keeps_hoEvent | apply keeps_holdoverEntry | apply keeps_ite))
    | extract_lets +onlyGivenNames x | intro x | split

theorem keeps_dpLost {r s : State} (h : Keeps r s) (d : Nat) :
    Keeps r (State.dpLost s d) := by
  unfold State.dpLost
  repeat' with_reducible first
    | assumption | apply keeps_useRef | apply keeps_setDpState | apply keeps_ite

theorem keeps_moveOut {r s : State} (h : Keeps r s) :
    Keeps r (State.moveOut s) := by
  unfold State.moveOut
  repeat' with_reducible first
    | assumption | apply keeps_setDpll | apply keeps_useFree | (apply keeps_mk; assumption)

theorem keeps_switchPhase {r s : State} (h : Keeps r s) (d : Nat) (i : Nat) :
    Keeps r (State.switchPhase s d i) := by
  unfold State.switchPhase
  repeat' first
    | (with_reducible first
        | assumption | apply keeps_moveOut | apply keeps_setDpll | apply keeps_ite | (apply keeps_mk; assumption)
        | (apply keeps_mk; first | assumption | apply keeps_moveOut | apply keeps_setDpll | apply keeps_ite))
    | extract_lets +onlyGivenNames x | intro x

theorem keeps_takeRef {r s : State} (h : Keeps r s) (d : Nat) (i : Nat) :
    Keeps r (State.takeRef s d i) := by
  unfold State.takeRef
  repeat' first
    | (with_reducible first
        | assumption | apply keeps_setDpll | apply keeps_switchPhase | apply keeps_setFld | apply keeps_useRef | apply keeps_count
        | apply keeps_raise | apply keeps_setDpState | apply keeps_ite | (apply keeps_mk; assumption)
        | (apply keeps_mk; first | assumption | apply keeps_setDpll | apply keeps_switchPhase | apply keeps_setFld | apply keeps_useRef | apply keeps_count | apply keeps_raise | apply keeps_setDpState | apply keeps_ite))
    | extract_lets +onlyGivenNames x | intro x

theorem keeps_takeSecond {r s : State} (h : Keeps r s) (d : Nat) (first : Option Nat) :
    Keeps r (State.takeSecond s d first) := by
  unfold State.takeSecond
  repeat' first
    | (with_reducible first
        | assumption | apply keeps_setFld | apply keeps_setDpState | refine keeps_fst ?_ (by assumption) | apply keeps_ite)
    | extract_lets +onlyGivenNames x | intro x hx | intro x | split

theorem keeps_selectFor {r s : State} (h : Keeps r s) (d : Nat) :
    Keeps r (State.selectFor s d) := by
  unfold State.selectFor
  repeat' first
    | (with_reducible first
        | assumption | apply keeps_takeRef | apply keeps_useRef | apply keeps_dpLost | apply keeps_takeSecond
        | refine keeps_fst ?_ (by assumption) | apply keeps_ite)
    | extract_lets +onlyGivenNames x | intro x | split

theorem keeps_select {r s : State} (h : Keeps r s) :
    Keeps r (State.select s) := by
  unfold State.select
  repeat' with_reducible first
    | assumption | apply keeps_selectFor | apply keeps_timSettle

theorem keeps_execRefSelection {r s : State} (h : Keeps r s) :
    KeepsO r (execRefSelection s) := by
  unfold execRefSelection
  repeat' with_reducible first
    | assumption | apply keeps_select | apply keeps_ite | apply keeps_next

theorem keeps_selCommand {r s : State} (h : Keeps r s) (d : Nat) (cmd : Nat) (i : Nat) (token : Nat) :
    Keeps r (State.selCommand s d cmd i token) := by
  unfold State.selCommand
  repeat' first
    | (with_reducible first
        | assumption | apply keeps_setFld | apply keeps_setDpll | apply keeps_raise | apply keeps_setReg | apply keeps_useRef
        | apply keeps_setDpState | apply keeps_timSettle | refine keeps_fst ?_ (by assumption) | apply keeps_ite
        | (apply keeps_mk; assumption))
    | extract_lets +onlyGivenNames x | intro x | split

theorem keeps_selMirrored {r s : State} (h : Keeps r s) (d : Nat) (cmd : Nat) (i : Nat) (token : Nat) :
    Keeps r (State.selMirrored s d cmd i token) := by
  unfold State.selMirrored
  repeat' with_reducible first
    | assumption | apply keeps_selCommand | apply keeps_mirror | apply keeps_ite

theorem keeps_selWrite {r s : State} (h : Keeps r s) (w : Writer) (d : Nat) (cmd : Nat) (i : Nat) (token : Nat) :
    Keeps r (State.selWrite s w d cmd i token) := by
  unfold State.selWrite
  repeat' first
    | (with_reducible first
        | assumption | apply keeps_commandWrite | apply keeps_selMirrored)
    | extract_lets +onlyGivenNames x | intro x hx | intro x

theorem keeps_lapse {r s : State} (h : Keeps r s) (i : Nat) :
    Keeps r (State.lapse s i) := by
  unfold State.lapse
  repeat' first
    | (with_reducible first
        | assumption | apply keeps_each | apply keeps_setDpll | apply keeps_setFld | apply keeps_ite | (apply keeps_mk; assumption))
    | extract_lets +onlyGivenNames x | intro x hx | intro x

theorem keeps_refWaits {r s : State} (h : Keeps r s) (i : Nat) :
    Keeps r (State.refWaits s i) := by
  unfold State.refWaits
  repeat' with_reducible first
    | assumption | apply keeps_setRef | apply keeps_setFld | apply keeps_refEvent | apply keeps_ite | (apply keeps_mk; assumption)

theorem keeps_refJudge {r s : State} (h : Keeps r s) (i : Nat) :
    Keeps r (State.refJudge s i) := by
  unfold State.refJudge
  repeat' first
    | (with_reducible first
        | assumption | apply keeps_each | apply keeps_useRef | apply keeps_setFld | apply keeps_lapse | apply keeps_select
        | apply keeps_refWaits | apply keeps_ite)
    | extract_lets +onlyGivenNames x | intro x hx | intro x

theorem keeps_holdIn {r s : State} (h : Keeps r s) (i : Nat) :
    Keeps r (State.holdIn s i) := by
  unfold State.holdIn
  repeat' with_reducible first
    | assumption | apply keeps_setDpState | apply keeps_timSettle | apply keeps_ite

theorem keeps_execRefFreqMeasure {r s : State} (h : Keeps r s) (i : Fin 16) (ppb : Int) :
    KeepsO r (execRefFreqMeasure i ppb s) := by
  unfold execRefFreqMeasure
  repeat' with_reducible first
    | assumption | apply keeps_setRef | apply keeps_setFld | apply keeps_refJudge | apply keeps_holdIn | apply keeps_ite
    | apply keeps_next | (apply keeps_mk; assumption)

theorem keeps_execRefActivityFailure {r s : State} (h : Keeps r s) (i : Fin 16) (failed : Bool) :
    KeepsO r (execRefActivityFailure i failed s) := by
  unfold execRefActivityFailure
  repeat' with_reducible first
    | assumption | apply keeps_setRef | apply keeps_refJudge | apply keeps_ite | apply keeps_next | (apply keeps_mk; assumption)

theorem keeps_execRefQualify {r s : State} (h : Keeps r s) (i : Fin 16) :
    KeepsO r (execRefQualify i s) := by
  unfold execRefQualify
  repeat' with_reducible first
    | assumption | apply keeps_setRef | apply keeps_setFld | apply keeps_refEvent | apply keeps_ite | apply keeps_next
    | (apply keeps_mk; assumption)

theorem keeps_execRefHoldoffExpiry {r s : State} (h : Keeps r s) (i : Fin 16) :
    KeepsO r (execRefHoldoffExpiry i s) := by
  unfold execRefHoldoffExpiry
  repeat' with_reducible first
    | assumption | apply keeps_setFld | apply keeps_refEvent | apply keeps_lapse | apply keeps_select | apply keeps_ite | apply keeps_next

theorem keeps_refQlWrite {r s : State} (h : Keeps r s) (i : Nat) (value : Word) :
    Keeps r (State.refQlWrite s i value) := by
  unfold State.refQlWrite
  repeat' with_reducible first
    | assumption | apply keeps_serviceWrite | apply keeps_raise | apply keeps_timSettle | apply keeps_ite

theorem keeps_freeRun {r s : State} (h : Keeps r s) :
    Keeps r (State.freeRun s) := by
  unfold State.freeRun
  repeat' first
    | (with_reducible first
        | assumption | apply keeps_useRef | apply keeps_each | apply keeps_setDpState)
    | extract_lets +onlyGivenNames x | intro x hx | intro x

theorem keeps_execOcxoFault {r s : State} (h : Keeps r s) :
    KeepsO r (execOcxoFault s) := by
  unfold execOcxoFault
  repeat' with_reducible first
    | assumption | apply keeps_setFlag | apply keeps_freeRun | apply keeps_raise | apply keeps_timSettle | apply keeps_ite
    | apply keeps_next

theorem keeps_execOcxoRecovery {r s : State} (h : Keeps r s) :
    KeepsO r (execOcxoRecovery s) := by
  unfold execOcxoRecovery
  repeat' with_reducible first
    | assumption | apply keeps_setFlag | apply keeps_raise | apply keeps_timSettle | apply keeps_ite | apply keeps_next

theorem keeps_execDpllLock {r s : State} (h : Keeps r s) (d : Fin 4) :
    KeepsO r (execDpllLock d s) := by
  unfold execDpllLock
  repeat' with_reducible first
    | assumption | apply keeps_setDpState | apply keeps_timSettle | apply keeps_ite | apply keeps_next

theorem keeps_execDpllLockLoss {r s : State} (h : Keeps r s) (d : Fin 4) :
    KeepsO r (execDpllLockLoss d s) := by
  unfold execDpllLockLoss
  repeat' with_reducible first
    | assumption | apply keeps_setDpState | apply keeps_timSettle | apply keeps_ite | apply keeps_next

theorem keeps_execAnchorSet {r s : State} (h : Keeps r s) :
    KeepsO r (execAnchorSet s) := by
  unfold execAnchorSet
  repeat' with_reducible first
    | assumption | apply keeps_setFlag | apply keeps_timSettle | apply keeps_ite | apply keeps_next

theorem keeps_execHoldoverLimit {r s : State} (h : Keeps r s) :
    KeepsO r (execHoldoverLimit s) := by
  unfold execHoldoverLimit
  repeat' with_reducible first
    | assumption | apply keeps_timSettle | apply keeps_ite | apply keeps_next | (apply keeps_mk; assumption)

theorem keeps_execTempSensorFault {r s : State} (h : Keeps r s) (fault : Bool) :
    KeepsO r (execTempSensorFault fault s) := by
  unfold execTempSensorFault
  repeat' with_reducible first
    | assumption | apply keeps_setFlag | apply keeps_raise | apply keeps_ite | apply keeps_next

theorem keeps_showSample {r s : State} (h : Keeps r s) :
    Keeps r (State.showSample s) := by
  unfold State.showSample
  repeat' first
    | (with_reducible first
        | assumption | apply keeps_setReg | refine keeps_fst ?_ (by assumption))
    | extract_lets +onlyGivenNames x | intro x | split

theorem keeps_execLearningSample {r s : State} (h : Keeps r s) (offset : Int) (temp : Int) :
    KeepsO r (execLearningSample offset temp s) := by
  unfold execLearningSample
  repeat' with_reducible first
    | assumption | apply keeps_showSample | apply keeps_ite | apply keeps_next | (apply keeps_mk; assumption)

theorem keeps_popSample {r s : State} (h : Keeps r s) :
    Keeps r (State.popSample s) := by
  unfold State.popSample
  repeat' with_reducible first
    | assumption | apply keeps_showSample | (apply keeps_mk; assumption)

theorem keeps_hoCommand {r s : State} (h : Keeps r s) (cmd : Nat) (token : Nat) :
    Keeps r (State.hoCommand s cmd token) := by
  unfold State.hoCommand
  repeat' with_reducible first
    | assumption | apply keeps_setReg | apply keeps_setFld | apply keeps_raise | apply keeps_ite | (apply keeps_mk; assumption)

theorem keeps_commitTick {r s : State} (h : Keeps r s) :
    Keeps r (State.commitTick s) := by
  unfold State.commitTick
  repeat' with_reducible first
    | assumption | apply keeps_setFld | apply keeps_readModel | apply keeps_ite | (apply keeps_mk; assumption)

theorem keeps_correctionWord {r s : State} (h : Keeps r s) (corr : Int) :
    Keeps r (State.correctionWord s corr) := by
  unfold State.correctionWord
  repeat' with_reducible first
    | assumption | apply keeps_setFlag | apply keeps_raise | apply keeps_ite | (apply keeps_mk; assumption)

theorem keeps_dpll0Freq {r s : State} (h : Keeps r s) (freq : Int) :
    Keeps r (State.dpll0Freq s freq) := by
  unfold State.dpll0Freq
  repeat' with_reducible first
    | assumption | apply keeps_setFlag | apply keeps_setReg | apply keeps_addOffset | apply keeps_ite

theorem keeps_setErr {r s : State} (h : Keeps r s) (d : Nat) (x : Int) :
    Keeps r (State.setErr s d x) := by
  unfold State.setErr
  repeat' with_reducible first
    | assumption | apply keeps_setDpll | apply keeps_setFld | (apply keeps_mk; assumption)

theorem keeps_tickDpll0 {r s : State} (h : Keeps r s) (phases : List Int) :
    Keeps r (State.tickDpll0 s phases) := by
  unfold State.tickDpll0
  repeat' with_reducible first
    | assumption | apply keeps_setDpll | apply keeps_setErr | apply keeps_ite | (apply keeps_mk; assumption)

theorem keeps_tickStandby {r s : State} (h : Keeps r s) (phases : List Int) (d : Nat) :
    Keeps r (State.tickStandby s phases d) := by
  unfold State.tickStandby
  repeat' with_reducible first
    | assumption | apply keeps_setErr | apply keeps_setDpll | apply keeps_setReg | apply keeps_ite | (apply keeps_mk; assumption)

theorem keeps_stepTime {r s : State} (h : Keeps r s) (step : Int) :
    Keeps r (State.stepTime s step) := by
  unfold State.stepTime
  repeat' with_reducible first
    | assumption | apply keeps_setDpll | apply keeps_raise | (apply keeps_mk; assumption)

theorem keeps_judgeStep {r s : State} (h : Keeps r s) (err : Int) :
    Keeps r (State.judgeStep s err) := by
  unfold State.judgeStep
  repeat' with_reducible first
    | assumption | apply keeps_stepTime | apply keeps_setErr | apply keeps_ite

theorem keeps_tickDpll1 {r s : State} (h : Keeps r s) (phases : List Int) :
    Keeps r (State.tickDpll1 s phases) := by
  unfold State.tickDpll1
  repeat' first
    | (with_reducible first
        | assumption | apply keeps_judgeStep | apply keeps_useFree | apply keeps_setDpll | apply keeps_setReg | apply keeps_ite
        | (apply keeps_mk; assumption)
        | (apply keeps_mk; first | assumption | apply keeps_judgeStep | apply keeps_useFree | apply keeps_setDpll | apply keeps_setReg | apply keeps_ite))
    | extract_lets +onlyGivenNames x | intro x

theorem keeps_tickDplls {r s : State} (h : Keeps r s) (phases : List Int) :
    Keeps r (State.tickDplls s phases) := by
  unfold State.tickDplls
  repeat' with_reducible first
    | assumption | apply keeps_tickDpll0 | apply keeps_tickStandby | apply keeps_tickDpll1

theorem keeps_readTemp {r s : State} (h : Keeps r s) (reading : Int) :
    Keeps r (State.readTemp s reading) := by
  unfold State.readTemp
  repeat' with_reducible first
    | assumption | apply keeps_ite | (apply keeps_mk; assumption)

theorem keeps_tickTemp {r s : State} (h : Keeps r s) (caseTemp : Int) (ntcTemp : Int) :
    Keeps r (State.tickTemp s caseTemp ntcTemp) := by
  unfold State.tickTemp
  repeat' with_reducible first
    | assumption | apply keeps_readTemp | apply keeps_setReg | apply keeps_ite | (apply keeps_mk; assumption)

theorem keeps_execTmReport {r s : State} (h : Keeps r s) (freq : Int) (caseTemp : Int) (ntcTemp : Int) (phases : List Int) :
    KeepsO r (execTmReport freq caseTemp ntcTemp phases s) := by
  unfold execTmReport
  repeat' first
    | (with_reducible first
        | assumption | apply keeps_commitTick | apply keeps_tickTemp | apply keeps_dpll0Freq | apply keeps_tickDplls
        | apply keeps_timSettle | apply keeps_correctionWord | apply keeps_judgeSquelch | apply keeps_ite | apply keeps_next
        | (apply keeps_mk; assumption)
        | (apply keeps_mk; first | assumption | apply keeps_commitTick | apply keeps_tickTemp | apply keeps_dpll0Freq | apply keeps_tickDplls | apply keeps_timSettle | apply keeps_correctionWord | apply keeps_judgeSquelch | apply keeps_ite))
    | extract_lets +onlyGivenNames x | intro x

theorem keeps_startTiming {r s : State} (h : Keeps r s) :
    Keeps r (State.startTiming s) := by
  unfold State.startTiming
  repeat' first
    | (with_reducible first
        | assumption | apply keeps_freeRun | apply keeps_each | apply keeps_refWaits | apply keeps_setFld | apply keeps_loadModel
        | apply keeps_raise | apply keeps_timSettle | apply keeps_ite | (apply keeps_mk; assumption)
        | (apply keeps_mk; first | assumption | apply keeps_freeRun | apply keeps_each | apply keeps_refWaits | apply keeps_setFld | apply keeps_loadModel | apply keeps_raise | apply keeps_timSettle | apply keeps_ite))
    | extract_lets +onlyGivenNames x | intro x hx | intro x

theorem keeps_sendEsmc {r s : State} (h : Keeps r s) (p : Nat) (event : Bool) :
    Keeps r (State.sendEsmc s p event) := by
  unfold State.sendEsmc
  repeat' with_reducible first
    | assumption | apply keeps_ite | (apply keeps_mk; assumption)

theorem keeps_esmcReceived {r s : State} (h : Keeps r s) (p : Nat) (f : List Byte) :
    Keeps r (State.esmcReceived s p f) := by
  unfold State.esmcReceived
  repeat' with_reducible first
    | assumption | apply keeps_setFld | apply keeps_setFlag | apply keeps_ite

theorem keeps_execEsmcTimeout {r s : State} (h : Keeps r s) (p : Fin 2) :
    KeepsO r (execEsmcTimeout p s) := by
  unfold execEsmcTimeout
  repeat' with_reducible first
    | assumption | apply keeps_setFlag | apply keeps_raise | apply keeps_ite | apply keeps_next

theorem keeps_execEsmcInformationPdu {r s : State} (h : Keeps r s) (p : Fin 2) :
    KeepsO r (execEsmcInformationPdu p s) := by
  unfold execEsmcInformationPdu
  repeat' with_reducible first
    | assumption | apply keeps_sendEsmc | apply keeps_ite | apply keeps_next

theorem keeps_esmcTxWrite {r s : State} (h : Keeps r s) (p : Nat) (value : Word) :
    Keeps r (State.esmcTxWrite s p value) := by
  unfold State.esmcTxWrite
  repeat' with_reducible first
    | assumption | apply keeps_serviceWrite | apply keeps_sendEsmc | apply keeps_ite

theorem keeps_setQueueBytes {r s : State} (h : Keeps r s) (a : Nat) (bs : List Byte) :
    Keeps r (State.setQueueBytes s a bs) := by
  unfold State.setQueueBytes
  repeat' with_reducible first
    | assumption | apply keeps_setRegBytes

theorem keeps_ptpReceived {r s : State} (h : Keeps r s) (p : Nat) (m : List Byte) :
    Keeps r (State.ptpReceived s p m) := by
  unfold State.ptpReceived
  repeat' first
    | (with_reducible first
        | assumption | apply keeps_useFree | apply keeps_count | apply keeps_raise | apply keeps_setQueueBytes | apply keeps_setFld
        | refine keeps_fst ?_ (by assumption) | apply keeps_ite | (apply keeps_mk; assumption)
        | (apply keeps_mk; first | assumption | apply keeps_useFree | apply keeps_count | apply keeps_raise | apply keeps_setQueueBytes | apply keeps_setFld | apply keeps_ite))
    | extract_lets +onlyGivenNames x | intro x

theorem keeps_pushStamp {r s : State} (h : Keeps r s) (p : Nat) (x : TxStamp) :
    Keeps r (State.pushStamp s p x) := by
  unfold State.pushStamp
  repeat' first
    | (with_reducible first
        | assumption | apply keeps_useFree | apply keeps_count | apply keeps_raise | apply keeps_ite | (apply keeps_mk; assumption)
        | (apply keeps_mk; first | assumption | apply keeps_useFree | apply keeps_count | apply keeps_raise | apply keeps_ite))
    | extract_lets +onlyGivenNames x | intro x

theorem keeps_execPtpTransmit {r s : State} (h : Keeps r s) (p : Fin 2) :
    KeepsO r (execPtpTransmit p s) := by
  unfold execPtpTransmit
  repeat' with_reducible first
    | assumption | apply keeps_setFld | apply keeps_useFree | apply keeps_pushStamp | apply keeps_ite | apply keeps_next
    | (apply keeps_mk; assumption)

theorem keeps_phaseWrite {r s : State} (h : Keeps r s) (p : Nat) (value : Word) :
    Keeps r (State.phaseWrite s p value) := by
  unfold State.phaseWrite
  repeat' first
    | (with_reducible first
        | assumption | apply keeps_serviceWrite | apply keeps_ite | (apply keeps_mk; assumption)
        | (apply keeps_mk; first | assumption | apply keeps_serviceWrite | apply keeps_ite))
    | extract_lets +onlyGivenNames x | intro x

theorem keeps_execTodMessage {r s : State} (h : Keeps r s) (seconds : Option Nat) :
    KeepsO r (execTodMessage seconds s) := by
  unfold execTodMessage
  repeat' first
    | (with_reducible first
        | assumption | apply keeps_raise | apply keeps_stepTime | refine keeps_fst ?_ (by assumption) | apply keeps_ite | apply keeps_next)
    | extract_lets +onlyGivenNames x | intro x | split

theorem keeps_latchTod {r s : State} (h : Keeps r s) :
    Keeps r (State.latchTod s) := by
  unfold State.latchTod
  repeat' with_reducible first
    | assumption | apply keeps_setReg

end Sys2Proof.Machine
end

