-- ==== Sys2Proof/Laws/KeepsHub.lean ====
section
/-! SUPPORT. Every operation of Machine/Hub.lean leaves the queue, true time and the canonical form of memory and registers alone. -/

namespace Sys2Proof.Machine

theorem keeps_clearPending {r s : State} (h : Keeps r s) (k : Nat) (mask : Word) :
    Keeps r (State.clearPending s k mask) := by
  unfold State.clearPending
  repeat' with_reducible first
    | assumption | apply keeps_useFree | apply keeps_setReg | apply keeps_updatePins | apply keeps_ite

theorem keeps_latchNext {r s : State} (h : Keeps r s) :
    Keeps r (State.latchNext s) := by
  unfold State.latchNext
  repeat' with_reducible first
    | assumption | apply keeps_setReg

theorem keeps_eventCfgWrite {r s : State} (h : Keeps r s) (e : Nat) (value : Word) :
    Keeps r (State.eventCfgWrite s e value) := by
  unfold State.eventCfgWrite
  repeat' with_reducible first
    | assumption | apply keeps_setReg | apply keeps_raise | apply keeps_updatePins | apply keeps_ite

theorem keeps_setInv {r s : State} (h : Keeps r s) (x : Inventory) :
    Keeps r (State.setInv s x) := by
  unfold State.setInv
  repeat' with_reducible first
    | assumption | (apply keeps_mk; assumption)

theorem keeps_startFreeze {r s : State} (h : Keeps r s) (f : Freeze) :
    Keeps r (State.startFreeze s f) := by
  unfold State.startFreeze
  repeat' with_reducible first
    | assumption | apply keeps_setInv | apply keeps_setFlag | (apply keeps_mk; assumption)

theorem keeps_freezeDue {r s : State} (h : Keeps r s) (f : Freeze) :
    Keeps r (State.freezeDue s f).1 := by
  unfold State.freezeDue
  repeat' first
    | (with_reducible first
        | assumption | apply keeps_startFreeze | apply keeps_setInv | apply keeps_setFlag | apply keeps_count | apply keeps_raiseFirst
        | apply keeps_ite
        | (apply keeps_mk; first | assumption | apply keeps_startFreeze | apply keeps_setInv | apply keeps_setFlag | apply keeps_count | apply keeps_raiseFirst | apply keeps_ite))
    | (extract_lets +onlyGivenNames x; refine (have hx : Keeps r x := ?_; ?_); (on_goal 1 => subst x); (on_goal 2 => clear_value x))
    | extract_lets +onlyGivenNames x | intro x | split

theorem keeps_execInventoryTick {r s : State} (h : Keeps r s) :
    KeepsO r (execInventoryTick s) := by
  unfold execInventoryTick
  repeat' with_reducible first
    | assumption | apply keeps_freezeDue | apply keeps_ite | apply keeps_next

theorem keeps_snapshotWrite {r s : State} (h : Keeps r s) (token : Nat) (go : Bool) :
    Keeps r (State.snapshotWrite s token go) := by
  unfold State.snapshotWrite
  repeat' with_reducible first
    | assumption | apply keeps_setFld | apply keeps_freezeDue | apply keeps_ite

theorem keeps_execInventoryGatherDone {r s : State} (h : Keeps r s) :
    KeepsO r (execInventoryGatherDone s) := by
  unfold execInventoryGatherDone
  repeat' first
    | (with_reducible first
        | assumption | apply keeps_setBytes | apply keeps_useFree | apply keeps_setFld | apply keeps_setFlag | apply keeps_raise
        | apply keeps_setInv | apply keeps_startFreeze | refine keeps_fst ?_ (by assumption) | apply keeps_ite | apply keeps_next
        | (apply keeps_mk; first | assumption | apply keeps_setBytes | apply keeps_useFree | apply keeps_setFld | apply keeps_setFlag | apply keeps_raise | apply keeps_setInv | apply keeps_startFreeze | apply keeps_ite)
        | (apply keeps_mk; apply keeps_mk; first | assumption | apply keeps_setBytes | apply keeps_useFree | apply keeps_setFld | apply keeps_setFlag | apply keeps_raise | apply keeps_setInv | apply keeps_startFreeze | apply keeps_ite))
    | (extract_lets +onlyGivenNames x; refine (have hx : Keeps r x := ?_; ?_); (on_goal 1 => subst x); (on_goal 2 => clear_value x))
    | (extract_lets +onlyGivenNames x; clear_value x) | extract_lets +onlyGivenNames x | intro x | split

theorem keeps_setUnit {r s : State} (h : Keeps r s) (u : Nat) (x : CheckUnit) :
    Keeps r (State.setUnit s u x) := by
  unfold State.setUnit
  repeat' with_reducible first
    | assumption | (apply keeps_mk; assumption)

theorem keeps_chkCompare {r s : State} (h : Keeps r s) (u : Nat) (result : Nat) (expected : Nat) :
    Keeps r (State.chkCompare s u result expected) := by
  unfold State.chkCompare
  repeat' with_reducible first
    | assumption | apply keeps_count | apply keeps_setFlag | apply keeps_raiseFirst | apply keeps_ite

theorem keeps_execCheckBlockEnd {r s : State} (h : Keeps r s) (u : Fin 32) (block : List Byte) (carried : Word) :
    KeepsO r (execCheckBlockEnd u block carried s) := by
  unfold execCheckBlockEnd
  repeat' with_reducible first
    | assumption | apply keeps_setUnit | apply keeps_count | apply keeps_setReg | apply keeps_setFlag | apply keeps_chkCompare
    | apply keeps_ite | apply keeps_next

theorem keeps_checkWrite {r s : State} (h : Keeps r s) (w : Writer) (u : Nat) (k : Nat) (value : Word) :
    Keeps r (State.checkWrite s w u k value) := by
  unfold State.checkWrite
  repeat' first
    | (with_reducible first
        | assumption | apply keeps_respond | apply keeps_serviceWrite | apply keeps_setReg | apply keeps_setUnit | apply keeps_setFlag
        | apply keeps_raise | refine keeps_fst ?_ (by assumption) | apply keeps_ite | (apply keeps_mk; assumption))
    | extract_lets +onlyGivenNames x | intro x | split

end Sys2Proof.Machine
end

