-- ==== Sys2Proof/Laws/KeepsPw.lean ====
section
/-! SUPPORT. Every operation of Machine/Pw.lean leaves the queue, true time and the canonical form of memory and registers alone. -/

namespace Sys2Proof.Machine

theorem keeps_setFlow {r s : State} (h : Keeps r s) (f : Nat) (x : Flow) :
    Keeps r (State.setFlow s f x) := by
  unfold State.setFlow
  repeat' with_reducible first
    | assumption | (apply keeps_mk; assumption)

theorem keeps_setLend {r s : State} (h : Keeps r s) (x : Lending) :
    Keeps r (State.setLend s x) := by
  unfold State.setLend
  repeat' with_reducible first
    | assumption | (apply keeps_mk; assumption)

theorem keeps_flowEvent {r s : State} (h : Keeps r s) (f : Nat) (e : Nat) (data : List Word) :
    Keeps r (State.flowEvent s f e data) := by
  unfold State.flowEvent
  repeat' with_reducible first
    | assumption | apply keeps_raise

theorem keeps_showFill {r s : State} (h : Keeps r s) (f : Nat) :
    Keeps r (State.showFill s f) := by
  unfold State.showFill
  repeat' with_reducible first
    | assumption | apply keeps_setFld | apply keeps_ite

theorem keeps_showLend {r s : State} (h : Keeps r s) :
    Keeps r (State.showLend s) := by
  unfold State.showLend
  repeat' with_reducible first
    | assumption | apply keeps_setFld | apply keeps_setLend | apply keeps_raise | apply keeps_ite | (apply keeps_mk; assumption)

theorem keeps_denied {r s : State} (h : Keeps r s) (f : Nat) (d : Denial) :
    Keeps r (State.denied s f d) := by
  unfold State.denied
  repeat' with_reducible first
    | assumption | apply keeps_raiseFirst | apply keeps_ite

theorem keeps_grantPage {r s : State} (h : Keeps r s) (f : Nat) (v : Nat) :
    Keeps r (State.grantPage s f v).1 := by
  unfold State.grantPage
  repeat' first
    | (with_reducible first
        | assumption | apply keeps_denied | apply keeps_useFree | apply keeps_setReg | apply keeps_setFld | apply keeps_count
        | apply keeps_showLend | refine keeps_fst ?_ (by assumption) | apply keeps_ite)
    | extract_lets +onlyGivenNames x | intro x hx | intro x | split

theorem keeps_returnPage {r s : State} (h : Keeps r s) (f : Nat) (v : Nat) :
    Keeps r (State.returnPage s f v) := by
  unfold State.returnPage
  repeat' first
    | (with_reducible first
        | assumption | apply keeps_setReg | apply keeps_setFld | apply keeps_count | apply keeps_showLend
        | refine keeps_fst ?_ (by assumption))
    | extract_lets +onlyGivenNames x | intro x | split

theorem keeps_returnAll {r s : State} (h : Keeps r s) (f : Nat) :
    Keeps r (State.returnAll s f) := by
  unfold State.returnAll
  repeat' first
    | (with_reducible first
        | assumption | apply keeps_each | apply keeps_returnPage)
    | extract_lets +onlyGivenNames x | intro x hx | intro x

theorem keeps_grantPages {r s : State} (h : Keeps r s) (f : Nat) (got l : List Nat) : Keeps r (s.grantPages f got l).1 := by
  induction l generalizing s got with
  | nil => exact h
  | cons v vs ih =>
    unfold State.grantPages
    split
    · exact ih h got
    · split
      · next heq => exact ih (keeps_fst (keeps_grantPage h f v) heq) _
      · next heq => exact keeps_each (keeps_fst (keeps_grantPage h f v) heq) _ _ fun x hx a => keeps_returnPage hx f a

theorem keeps_writeSlot {r s : State} (h : Keeps r s) (f : Nat) (n : Nat) (l : List Byte) :
    Keeps r (State.writeSlot s f n l) := by
  unfold State.writeSlot
  repeat' first
    | (with_reducible first
        | assumption | apply keeps_each | apply keeps_setByte | refine keeps_fst ?_ (by assumption))
    | extract_lets +onlyGivenNames x | intro x hx | intro x | split

theorem keeps_discarded {r s : State} (h : Keeps r s) (f : Nat) (code : Nat) :
    Keeps r (State.discarded s f code) := by
  unfold State.discarded
  repeat' with_reducible first
    | assumption | apply keeps_count | apply keeps_setFld | apply keeps_raiseFirst

theorem keeps_discard {r s : State} (h : Keeps r s) (f : Nat) (code : Nat) (cnt : Nat) :
    Keeps r (State.discard s f code cnt) := by
  unfold State.discard
  repeat' with_reducible first
    | assumption | apply keeps_count | apply keeps_discarded

theorem keeps_emptyBuffer {r s : State} (h : Keeps r s) (f : Nat) :
    Keeps r (State.emptyBuffer s f) := by
  unfold State.emptyBuffer
  repeat' with_reducible first
    | assumption | apply keeps_returnAll | apply keeps_setFlow | apply keeps_showFill | (apply keeps_mk; assumption)

theorem keeps_silence {r s : State} (h : Keeps r s) (f : Nat) :
    Keeps r (State.silence s f) := by
  unfold State.silence
  repeat' with_reducible first
    | assumption | apply keeps_setFlow | (apply keeps_mk; assumption)

theorem keeps_enterFill {r s : State} (h : Keeps r s) (f : Nat) (cause : Nat) :
    Keeps r (State.enterFill s f cause) := by
  unfold State.enterFill
  repeat' with_reducible first
    | assumption | apply keeps_setFld | apply keeps_setFlag | apply keeps_silence | apply keeps_flowEvent

theorem keeps_tryPlay {r s : State} (h : Keeps r s) (f : Nat) :
    Keeps r (State.tryPlay s f) := by
  unfold State.tryPlay
  repeat' with_reducible first
    | assumption | apply keeps_setFld | apply keeps_flowEvent | apply keeps_ite

theorem keeps_place {r s : State} (h : Keeps r s) (f : Nat) (n : Nat) (l : List Byte) :
    Keeps r (State.place s f n l).1 := by
  unfold State.place
  repeat' first
    | (with_reducible first
        | assumption | apply keeps_grantPages | apply keeps_discard | apply keeps_count | apply keeps_discarded | apply keeps_writeSlot
        | apply keeps_setFld | apply keeps_setFlow | apply keeps_showFill | refine keeps_fst ?_ (by assumption) | apply keeps_ite
        | (apply keeps_mk; assumption))
    | extract_lets +onlyGivenNames x | intro x | split

theorem keeps_judge {r s : State} (h : Keeps r s) (f : Nat) (n : Nat) (l : List Byte) :
    Keeps r (State.judge s f n l) := by
  unfold State.judge
  repeat' with_reducible first
    | assumption | apply keeps_place | apply keeps_tryPlay | apply keeps_setFlow | apply keeps_discard | apply keeps_flowEvent
    | apply keeps_emptyBuffer | apply keeps_enterFill | apply keeps_ite | (apply keeps_mk; assumption)

theorem keeps_lopsExit {r s : State} (h : Keeps r s) (f : Nat) :
    Keeps r (State.lopsExit s f) := by
  unfold State.lopsExit
  repeat' with_reducible first
    | assumption | apply keeps_setFlow | apply keeps_flowEvent | apply keeps_enterFill | apply keeps_tryPlay | apply keeps_ite
    | (apply keeps_mk; assumption)

theorem keeps_lopsPacket {r s : State} (h : Keeps r s) (f : Nat) (n : Nat) (l : List Byte) :
    Keeps r (State.lopsPacket s f n l) := by
  unfold State.lopsPacket
  repeat' first
    | (with_reducible first
        | assumption | apply keeps_discard | apply keeps_emptyBuffer | apply keeps_place | apply keeps_setFlow | apply keeps_lopsExit
        | refine keeps_fst ?_ (by assumption) | apply keeps_ite | (apply keeps_mk; assumption))
    | extract_lets +onlyGivenNames x | intro x | split

theorem keeps_showRx {r s : State} (h : Keeps r s) (f : Nat) (b : Bool) (fl : Fld) (e : Nat) :
    Keeps r (State.showRx s f b fl e) := by
  unfold State.showRx
  repeat' with_reducible first
    | assumption | apply keeps_setFlag | apply keeps_flowEvent | apply keeps_ite

theorem keeps_flowPacket {r s : State} (h : Keeps r s) (f : Nat) (b : List Byte) :
    Keeps r (State.flowPacket s f b) := by
  unfold State.flowPacket
  repeat' first
    | (with_reducible first
        | assumption | apply keeps_discard | apply keeps_showRx | apply keeps_setFlow | apply keeps_lopsPacket | apply keeps_judge
        | refine keeps_fst ?_ (by assumption) | apply keeps_ite | (apply keeps_mk; assumption))
    | extract_lets +onlyGivenNames x | intro x | split

theorem keeps_classified {r s : State} (h : Keeps r s) (f : Nat) (k : Pkt) :
    Keeps r (State.classified s f k) := by
  unfold State.classified
  repeat' with_reducible first
    | assumption | apply keeps_discard | apply keeps_raiseFirst | apply keeps_flowPacket | apply keeps_ite

theorem keeps_classify {r s : State} (h : Keeps r s) (p : Nat) (f : List Byte) :
    Keeps r (State.classify s p f) := by
  unfold State.classify
  repeat' first
    | (with_reducible first
        | assumption | apply keeps_count | apply keeps_ptpReceived | apply keeps_esmcReceived | apply keeps_classified
        | refine keeps_fst ?_ (by assumption) | apply keeps_ite)
    | extract_lets +onlyGivenNames x | intro x | split

theorem keeps_execPacketReceived {r s : State} (h : Keeps r s) (p : Fin 2) (frame : List Byte) :
    KeepsO r (execPacketReceived p frame s) := by
  unfold execPacketReceived
  repeat' with_reducible first
    | assumption | apply keeps_count | apply keeps_raiseFirst | apply keeps_classify | apply keeps_ite | apply keeps_next

theorem keeps_playBytes {r s : State} (h : Keeps r s) (f : Nat) (l : List Byte) :
    Keeps r (State.playBytes s f l) := by
  unfold State.playBytes
  repeat' first
    | (with_reducible first
        | assumption | apply keeps_setFlow | refine keeps_fst ?_ (by assumption) | apply keeps_ite | (apply keeps_mk; assumption))
    | extract_lets +onlyGivenNames x | intro x | split

theorem keeps_returnPassed {r s : State} (h : Keeps r s) (f : Nat) (n : Nat) :
    Keeps r (State.returnPassed s f n) := by
  unfold State.returnPassed
  repeat' first
    | (with_reducible first
        | assumption | apply keeps_each | apply keeps_returnPage | apply keeps_ite)
    | extract_lets +onlyGivenNames x | intro x hx | intro x

theorem keeps_steer {r s : State} (h : Keeps r s) (f : Nat) :
    Keeps r (State.steer s f) := by
  unfold State.steer
  repeat' with_reducible first
    | assumption | apply keeps_setFld | apply keeps_useFree | apply keeps_ite

theorem keeps_enterLops {r s : State} (h : Keeps r s) (f : Nat) :
    Keeps r (State.enterLops s f) := by
  unfold State.enterLops
  repeat' with_reducible first
    | assumption | apply keeps_setFld | apply keeps_setFlag | apply keeps_silence | apply keeps_flowEvent | apply keeps_emptyBuffer

theorem keeps_execPlayoutSlot {r s : State} (h : Keeps r s) (f : Fin 1024) :
    KeepsO r (execPlayoutSlot f s) := by
  unfold execPlayoutSlot
  repeat' with_reducible first
    | assumption | apply keeps_playBytes | apply keeps_setFlow | apply keeps_count | apply keeps_raiseFirst | apply keeps_setFld
    | apply keeps_returnPassed | apply keeps_steer | apply keeps_showFill | apply keeps_enterLops | apply keeps_ite | apply keeps_next
    | (apply keeps_mk; assumption)

theorem keeps_execFolioGrant {r s : State} (h : Keeps r s) (reqs : List FolioReq) :
    KeepsO r (execFolioGrant reqs s) := by
  unfold execFolioGrant
  repeat' first
    | (with_reducible first
        | assumption | apply keeps_count | apply keeps_grantPage | apply keeps_denied | apply keeps_useFree | apply keeps_setLend
        | apply keeps_showLend | refine keeps_fst ?_ (by assumption) | apply keeps_ite | apply keeps_next | (apply keeps_mk; assumption))
    | extract_lets +onlyGivenNames x | intro x | split

theorem keeps_txGrant {r s t : State} (h : Keeps r s) {f : Nat} {got out : List Nat} (e : s.txGrant f got = some (t, out)) : Keeps r t := by
  unfold State.txGrant at e
  split at e
  · cases e
  · obtain ⟨k, -, hk⟩ := Option.map_eq_some_iff.mp e
    exact keeps_fst (keeps_count (keeps_setLend (keeps_useFree h) _) _ _) hk

theorem keeps_txGrants {r t : State} {f n : Nat} {x : Option (State × List Nat)} {out : List Nat}
    (h : ∀ p, x = some p → Keeps r p.1) (e : State.txGrants f n x = some (t, out)) : Keeps r t := by
  induction n generalizing x with
  | zero => exact h _ e
  | succ n ih =>
    refine ih (fun p hp => ?_) e
    obtain ⟨q, hq, hp⟩ := Option.bind_eq_some_iff.mp hp
    exact keeps_txGrant (h q hq) hp

theorem keeps_writeFolios {r s : State} (h : Keeps r s) (folios : List Nat) (l : List Byte) :
    Keeps r (State.writeFolios s folios l) := by
  unfold State.writeFolios
  repeat' first
    | (with_reducible first
        | assumption | apply keeps_each | apply keeps_setBytes | refine keeps_fst ?_ (by assumption))
    | extract_lets +onlyGivenNames x | intro x hx | intro x

theorem keeps_takeFrames {r s : State} (h : Keeps r s) (f : Nat) :
    Keeps r (State.takeFrames s f) := by
  unfold State.takeFrames
  repeat' first
    | (with_reducible first
        | assumption | apply keeps_setTrib | refine keeps_fst ?_ (by assumption) | apply keeps_ite | (apply keeps_mk; assumption))
    | extract_lets +onlyGivenNames x | intro x | split

theorem keeps_assemble {r s : State} (h : Keeps r s) (f : Nat) (d : Nat) (payload : List Byte) (stamp : Word) :
    Keeps r (State.assemble s f d payload stamp) := by
  unfold State.assemble
  repeat' first
    | (with_reducible first
        | assumption | apply keeps_denied | apply keeps_count | apply keeps_setLend | apply keeps_writeFolios | apply keeps_setReg
        | apply keeps_setFld | apply keeps_showLend | apply keeps_setFlag | apply keeps_ite)
    | (refine keeps_txGrants ?_ (by assumption); rintro _ ⟨⟩) | extract_lets +onlyGivenNames x | intro x | split

theorem keeps_execPwTransmitPacket {r s : State} (h : Keeps r s) (f : Fin 1024) (bits : List Bool) (stamp : Word) :
    KeepsO r (execPwTransmitPacket f bits stamp s) := by
  unfold execPwTransmitPacket
  repeat' first
    | (with_reducible first
        | assumption | apply keeps_useFeed | apply keeps_takeFrames | apply keeps_count | apply keeps_raiseFirst | apply keeps_useFree
        | apply keeps_assemble | refine keeps_fst ?_ (by assumption) | apply keeps_ite | apply keeps_next)
    | extract_lets +onlyGivenNames x | intro x | split

theorem keeps_freeDesc {r s : State} (h : Keeps r s) (d : Nat) :
    Keeps r (State.freeDesc s d) := by
  unfold State.freeDesc
  repeat' first
    | (with_reducible first
        | assumption | apply keeps_setLend | apply keeps_each | apply keeps_setReg | apply keeps_count | apply keeps_showLend
        | (apply keeps_mk; assumption))
    | extract_lets +onlyGivenNames x | intro x hx | intro x

theorem keeps_execPacketSent {r s : State} (h : Keeps r s) (d : Fin 4096) :
    KeepsO r (execPacketSent d s) := by
  unfold execPacketSent
  repeat' with_reducible first
    | assumption | apply keeps_setLend | apply keeps_count | apply keeps_freeDesc | apply keeps_ite | apply keeps_next
    | (apply keeps_mk; assumption)

theorem keeps_execPacketLinkChange {r s : State} (h : Keeps r s) (p : Fin 2) (up : Bool) :
    KeepsO r (execPacketLinkChange p up s) := by
  unfold execPacketLinkChange
  repeat' with_reducible first
    | assumption | apply keeps_setFlag | apply keeps_raise | apply keeps_ite | apply keeps_next

theorem keeps_showHomes {r s : State} (h : Keeps r s) :
    Keeps r (State.showHomes s) := by
  unfold State.showHomes
  repeat' first
    | (with_reducible first
        | assumption | apply keeps_each | apply keeps_setFld)
    | extract_lets +onlyGivenNames x | intro x hx | intro x

theorem keeps_startFlow {r s : State} (h : Keeps r s) (f : Nat) :
    Keeps r (State.startFlow s f) := by
  unfold State.startFlow
  repeat' with_reducible first
    | assumption | apply keeps_setFlow | apply keeps_flowEvent | apply keeps_enterFill | apply keeps_showHomes | apply keeps_showLend

theorem keeps_startFlows {r s : State} (h : Keeps r s) :
    Keeps r (State.startFlows s) := by
  unfold State.startFlows
  repeat' with_reducible first
    | assumption | apply keeps_each | apply keeps_startFlow

theorem keeps_enableFlow {r s : State} (h : Keeps r s) (f : Nat) (value : Word) :
    Keeps r (State.enableFlow s f value) := by
  unfold State.enableFlow
  repeat' with_reducible first
    | assumption | apply keeps_respond | apply keeps_setReg | apply keeps_flowEvent | apply keeps_serviceWrite | apply keeps_startFlow
    | apply keeps_ite

theorem keeps_disableFlow {r s : State} (h : Keeps r s) (f : Nat) (value : Word) :
    Keeps r (State.disableFlow s f value) := by
  unfold State.disableFlow
  repeat' with_reducible first
    | assumption | apply keeps_serviceWrite | apply keeps_setFlag | apply keeps_setFlow | apply keeps_silence | apply keeps_flowEvent
    | apply keeps_showHomes | apply keeps_showLend | apply keeps_respond | apply keeps_ite | (apply keeps_mk; assumption)

theorem keeps_flowWord0 {r s : State} (h : Keeps r s) (f : Nat) (value : Word) :
    Keeps r (State.flowWord0 s f value) := by
  unfold State.flowWord0
  repeat' with_reducible first
    | assumption | apply keeps_enableFlow | apply keeps_disableFlow | apply keeps_ite

theorem keeps_flowWrite {r s : State} (h : Keeps r s) (f : Nat) (k : Nat) (value : Word) :
    Keeps r (State.flowWrite s f k value) := by
  unfold State.flowWrite
  repeat' with_reducible first
    | assumption | apply keeps_flowWord0 | apply keeps_respond | apply keeps_serviceWrite | apply keeps_ite

theorem keeps_profWrite {r s : State} (h : Keeps r s) (q : Nat) (k : Nat) (value : Word) :
    Keeps r (State.profWrite s q k value) := by
  unfold State.profWrite
  repeat' with_reducible first
    | assumption | apply keeps_respond | apply keeps_serviceWrite | apply keeps_ite

theorem keeps_execFlowDrainTimeout {r s : State} (h : Keeps r s) (f : Fin 1024) :
    KeepsO r (execFlowDrainTimeout f s) := by
  unfold execFlowDrainTimeout
  repeat' with_reducible first
    | assumption | apply keeps_each | apply keeps_freeDesc | apply keeps_count | apply keeps_setFlow | apply keeps_raise | apply keeps_ite
    | apply keeps_next | (apply keeps_mk; assumption)

theorem keeps_execFlowDrainComplete {r s : State} (h : Keeps r s) (f : Fin 1024) :
    KeepsO r (execFlowDrainComplete f s) := by
  unfold execFlowDrainComplete
  repeat' with_reducible first
    | assumption | apply keeps_emptyBuffer | apply keeps_setFlow | apply keeps_setLend | apply keeps_count | apply keeps_setFld
    | apply keeps_setFlag | apply keeps_flowEvent | apply keeps_showLend | apply keeps_ite | apply keeps_next
    | (apply keeps_mk; assumption)

end Sys2Proof.Machine
end

