-- ==== Sys2Proof/Laws/KeepsTwin.lean ====
section
/-! SUPPORT. Every operation of Machine/Twin.lean leaves the queue, true time and the canonical form of memory and registers alone. -/

namespace Sys2Proof.Machine

theorem keeps_execTieHeartbeatSend {r s : State} (h : Keeps r s) :
    KeepsO r (execTieHeartbeatSend s) := by
  unfold execTieHeartbeatSend
  repeat' with_reducible first
    | assumption | apply keeps_setFld | apply keeps_ite | apply keeps_next

theorem keeps_execTiePulse {r s : State} (h : Keeps r s) (width : Nat) :
    KeepsO r (execTiePulse width s) := by
  unfold execTiePulse
  repeat' with_reducible first
    | assumption | apply keeps_setFld | apply keeps_setTw | apply keeps_count | apply keeps_raiseFirst | apply keeps_setFlag
    | apply keeps_raise | apply keeps_roleEval | apply keeps_ite | apply keeps_next | (apply keeps_mk; assumption)

theorem keeps_execTieOkLoss {r s : State} (h : Keeps r s) :
    KeepsO r (execTieOkLoss s) := by
  unfold execTieOkLoss
  repeat' with_reducible first
    | assumption | apply keeps_setFlag | apply keeps_setFld | apply keeps_setTw | apply keeps_raise | apply keeps_roleEval
    | apply keeps_ite | apply keeps_next | (apply keeps_mk; assumption)

theorem keeps_resync {r s : State} (h : Keeps r s) :
    Keeps r (State.resync s) := by
  unfold State.resync
  repeat' first
    | (with_reducible first
        | assumption | apply keeps_setTw | apply keeps_setFlag | (apply keeps_mk; assumption)
        | (apply keeps_mk; first | assumption | apply keeps_setTw | apply keeps_setFlag))
    | extract_lets +onlyGivenNames x | intro x

theorem keeps_setUnacked {r s : State} (h : Keeps r s) (l : List (Nat × LinkMsg)) :
    Keeps r (State.setUnacked s l) := by
  unfold State.setUnacked
  repeat' with_reducible first
    | assumption | apply keeps_setTw | apply keeps_setFld | (apply keeps_mk; assumption)

theorem keeps_sendMsg {r s : State} (h : Keeps r s) (stream : Nat) (m : LinkMsg) :
    Keeps r (State.sendMsg s stream m) := by
  unfold State.sendMsg
  repeat' first
    | (with_reducible first
        | assumption | apply keeps_setTw | apply keeps_setUnacked | refine keeps_fst ?_ (by assumption) | (apply keeps_mk; assumption))
    | extract_lets +onlyGivenNames x | intro x | split

theorem keeps_linkError {r s : State} (h : Keeps r s) :
    Keeps r (State.linkError s) := by
  unfold State.linkError
  repeat' with_reducible first
    | assumption | apply keeps_satInc | apply keeps_setFlag | apply keeps_raise | apply keeps_roleEval | apply keeps_ite

theorem keeps_setLastSeq {r s : State} (h : Keeps r s) (stream : Nat) (n : Nat) :
    Keeps r (State.setLastSeq s stream n) := by
  unfold State.setLastSeq
  repeat' first
    | (with_reducible first
        | assumption | apply keeps_setTw | refine keeps_fst ?_ (by assumption) | (apply keeps_mk; assumption))
    | extract_lets +onlyGivenNames x | intro x | split

theorem keeps_judgeSeq {r s : State} (h : Keeps r s) (stream : Nat) (seq : Nat) (heartbeat : Bool) :
    Keeps r (State.judgeSeq s stream seq heartbeat).1 := by
  unfold State.judgeSeq
  repeat' first
    | (with_reducible first
        | assumption | apply keeps_count | apply keeps_raiseFirst | apply keeps_setLastSeq | apply keeps_linkError | apply keeps_ite)
    | (extract_lets +onlyGivenNames x; refine (have hx : Keeps r x := ?_; ?_); (on_goal 1 => subst x); (on_goal 2 => clear_value x))
    | extract_lets +onlyGivenNames x | intro x | split

theorem keeps_takeAck {r s : State} (h : Keeps r s) (ack : Nat) :
    Keeps r (State.takeAck s ack) := by
  unfold State.takeAck
  repeat' with_reducible first
    | assumption | apply keeps_setUnacked | apply keeps_setFlag | apply keeps_updateHitless | apply keeps_ite

theorem keeps_received {r s : State} (h : Keeps r s) (stream : Nat) (m : MsgHead) (heartbeat : Bool) (f : State → State) (hf : ∀ x, Keeps r x → Keeps r (f x)) :
    Keeps r (State.received s stream m heartbeat f) := by
  unfold State.received
  repeat' first
    | (with_reducible first
        | assumption | apply keeps_judgeSeq | apply keeps_takeAck | refine keeps_fst ?_ (by assumption) | apply keeps_ite)
    | apply hf | extract_lets +onlyGivenNames x | intro x | split

theorem keeps_sendHeartbeat {r s : State} (h : Keeps r s) :
    Keeps r (State.sendHeartbeat s) := by
  unfold State.sendHeartbeat
  repeat' with_reducible first
    | assumption | apply keeps_sendMsg | apply keeps_ite

theorem keeps_execHeartbeatSend {r s : State} (h : Keeps r s) :
    KeepsO r (execHeartbeatSend s) := by
  unfold execHeartbeatSend
  repeat' with_reducible first
    | assumption | apply keeps_sendHeartbeat | apply keeps_next

theorem keeps_linkRise {r s : State} (h : Keeps r s) :
    Keeps r (State.linkRise s) := by
  unfold State.linkRise
  repeat' first
    | (with_reducible first
        | assumption | apply keeps_setFlag | apply keeps_each | apply keeps_setFld | apply keeps_setTw | apply keeps_resync
        | apply keeps_raise | (apply keeps_mk; assumption))
    | extract_lets +onlyGivenNames x | intro x hx | intro x

theorem keeps_linkFall {r s : State} (h : Keeps r s) :
    Keeps r (State.linkFall s) := by
  unfold State.linkFall
  repeat' with_reducible first
    | assumption | apply keeps_resync | apply keeps_setFlag | apply keeps_raise | apply keeps_roleEval | apply keeps_ite

theorem keeps_execHeartbeat {r s : State} (h : Keeps r s) (m : MsgHead) (hb : Heartbeat) :
    KeepsO r (execHeartbeat m hb s) := by
  unfold execHeartbeat
  repeat' first
    | (with_reducible first
        | assumption | apply keeps_received | apply keeps_setTw | apply keeps_linkRise | apply keeps_roleEval | apply keeps_setFld
        | apply keeps_ite | apply keeps_next | (apply keeps_mk; assumption))
    | extract_lets +onlyGivenNames x | intro x hx | intro x

theorem keeps_execPair {r s : State} (h : Keeps r s) (m : MsgHead) (id : Word) (digest : Word) (cfg : Word) (ident : Word) (senior : Bool) :
    KeepsO r (execPair m id digest cfg ident senior s) := by
  unfold execPair
  repeat' first
    | (with_reducible first
        | assumption | apply keeps_received | apply keeps_setFlag | apply keeps_resync | apply keeps_raise | apply keeps_roleEval
        | apply keeps_ite | apply keeps_next)
    | extract_lets +onlyGivenNames x | intro x hx | intro x

theorem keeps_execPairSend {r s : State} (h : Keeps r s) :
    KeepsO r (execPairSend s) := by
  unfold execPairSend
  repeat' with_reducible first
    | assumption | apply keeps_sendMsg | apply keeps_ite | apply keeps_next

theorem keeps_execStream2Retransmit {r s : State} (h : Keeps r s) :
    KeepsO r (execStream2Retransmit s) := by
  unfold execStream2Retransmit
  repeat' with_reducible first
    | assumption | apply keeps_setTw | apply keeps_ite | apply keeps_next | (apply keeps_mk; assumption)

theorem keeps_execStream2AckTimeout {r s : State} (h : Keeps r s) :
    KeepsO r (execStream2AckTimeout s) := by
  unfold execStream2AckTimeout
  repeat' with_reducible first
    | assumption | apply keeps_setFlag | apply keeps_setTw | apply keeps_roleEval | apply keeps_ite | apply keeps_next
    | (apply keeps_mk; assumption)

theorem keeps_execLinkErrorDecay {r s : State} (h : Keeps r s) :
    KeepsO r (execLinkErrorDecay s) := by
  unfold execLinkErrorDecay
  repeat' with_reducible first
    | assumption | apply keeps_setFld | apply keeps_resync | apply keeps_setFlag | apply keeps_raise | apply keeps_roleEval
    | apply keeps_ite | apply keeps_next

theorem keeps_execTwinLaneAlignment {r s : State} (h : Keeps r s) (k : Fin 4) (lock : Bool) (aligned : Bool) (skew : Byte) :
    KeepsO r (execTwinLaneAlignment k lock aligned skew s) := by
  unfold execTwinLaneAlignment
  repeat' with_reducible first
    | assumption | apply keeps_setFlag | apply keeps_setFld | apply keeps_linkError | apply keeps_ite | apply keeps_next

theorem keeps_execTwinLinkCodingError {r s : State} (h : Keeps r s) :
    KeepsO r (execTwinLinkCodingError s) := by
  unfold execTwinLinkCodingError
  repeat' with_reducible first
    | assumption | apply keeps_useFree | apply keeps_satInc | apply keeps_linkError | apply keeps_ite | apply keeps_next

theorem keeps_judgeSync {r s : State} (h : Keeps r s) (ok : Bool) (run : Nat) (n : Nat) (f : Fld) :
    Keeps r (State.judgeSync s ok run n f).1 := by
  unfold State.judgeSync
  repeat' with_reducible first
    | assumption | apply keeps_setFlag | apply keeps_ite

theorem keeps_execMirrorA {r s : State} (h : Keeps r s) (m : MsgHead) (c : MirrorA) :
    KeepsO r (execMirrorA m c s) := by
  unfold execMirrorA
  repeat' first
    | (with_reducible first
        | assumption | apply keeps_received | apply keeps_each | apply keeps_setStoreFill | apply keeps_setPtrTx | apply keeps_setPath
        | apply keeps_judgeSync | apply keeps_setTw | apply keeps_roleEval | refine keeps_fst ?_ (by assumption) | apply keeps_ite
        | apply keeps_next | (apply keeps_mk; assumption))
    | extract_lets +onlyGivenNames x | intro x hx | intro x

theorem keeps_execMirrorB {r s : State} (h : Keeps r s) (m : MsgHead) (c : MirrorB) :
    KeepsO r (execMirrorB m c s) := by
  unfold execMirrorB
  repeat' first
    | (with_reducible first
        | assumption | apply keeps_received | apply keeps_setDpll | apply keeps_setReg | apply keeps_each | apply keeps_setFld
        | apply keeps_fillStore | apply keeps_judgeSync | apply keeps_setTw | apply keeps_roleEval | refine keeps_fst ?_ (by assumption)
        | apply keeps_ite | apply keeps_next | (apply keeps_mk; assumption))
    | extract_lets +onlyGivenNames x | intro x hx | intro x

theorem keeps_sendC {r s : State} (h : Keeps r s) :
    Keeps r (State.sendC s) := by
  unfold State.sendC
  repeat' first
    | (with_reducible first
        | assumption | apply keeps_setTw | apply keeps_sendMsg | apply keeps_ite | (apply keeps_mk; assumption)
        | (apply keeps_mk; first | assumption | apply keeps_setTw | apply keeps_sendMsg | apply keeps_ite))
    | extract_lets +onlyGivenNames x | intro x

theorem keeps_execMirrorSend {r s : State} (h : Keeps r s) (classB : Bool) :
    KeepsO r (execMirrorSend classB s) := by
  unfold execMirrorSend
  repeat' first
    | (with_reducible first
        | assumption | apply keeps_sendC | apply keeps_sendMsg | apply keeps_setTw | apply keeps_judgeSync | apply keeps_roleEval
        | refine keeps_fst ?_ (by assumption) | apply keeps_ite | apply keeps_next
        | (apply keeps_mk; first | assumption | apply keeps_sendC | apply keeps_sendMsg | apply keeps_setTw | apply keeps_judgeSync | apply keeps_roleEval | apply keeps_ite))
    | (extract_lets +onlyGivenNames x; refine (have hx : Keeps r x := ?_; ?_); (on_goal 1 => subst x); (on_goal 2 => clear_value x))
    | extract_lets +onlyGivenNames x | intro x | split

theorem keeps_execSyncPulse {r s : State} (h : Keeps r s) (frame : Fin 48) (superframe : BitVec 16) :
    KeepsO r (execSyncPulse frame superframe s) := by
  unfold execSyncPulse
  repeat' with_reducible first
    | assumption | apply keeps_setFld | apply keeps_setTw | apply keeps_ite | apply keeps_next | (apply keeps_mk; assumption)

theorem keeps_execSyncPulseMissing {r s : State} (h : Keeps r s) :
    KeepsO r (execSyncPulseMissing s) := by
  unfold execSyncPulseMissing
  repeat' with_reducible first
    | assumption | apply keeps_setTw | apply keeps_raise | apply keeps_ite | apply keeps_next | (apply keeps_mk; assumption)

theorem keeps_setCal {r s : State} (h : Keeps r s) (ok : Bool) :
    Keeps r (State.setCal s ok) := by
  unfold State.setCal
  repeat' with_reducible first
    | assumption | apply keeps_setFlag | apply keeps_raise | apply keeps_ite

theorem keeps_execCal {r s : State} (h : Keeps r s) (m : MsgHead) (echo : Bool) (stamp : Nat) (turnaround : Nat) :
    KeepsO r (execCal m echo stamp turnaround s) := by
  unfold execCal
  repeat' first
    | (with_reducible first
        | assumption | apply keeps_received | apply keeps_setReg | apply keeps_setTw | apply keeps_setCal | apply keeps_roleEval
        | apply keeps_sendMsg | apply keeps_useFree | refine keeps_fst ?_ (by assumption) | apply keeps_ite | apply keeps_next
        | (apply keeps_mk; assumption))
    | extract_lets +onlyGivenNames x | intro x hx | intro x | split

theorem keeps_execCalSend {r s : State} (h : Keeps r s) :
    KeepsO r (execCalSend s) := by
  unfold execCalSend
  repeat' with_reducible first
    | assumption | apply keeps_sendMsg | apply keeps_ite | apply keeps_next

theorem keeps_sendPulse {r s : State} (h : Keeps r s) (n : Nat) :
    Keeps r (State.sendPulse s n) := by
  unfold State.sendPulse
  repeat' with_reducible first
    | assumption | apply keeps_setTw | apply keeps_ite | (apply keeps_mk; assumption)

theorem keeps_execTransmitFrameBoundary {r s : State} (h : Keeps r s) (augs : List (List (List Byte))) :
    KeepsO r (execTransmitFrameBoundary augs s) := by
  unfold execTransmitFrameBoundary
  repeat' first
    | (with_reducible first
        | assumption | apply keeps_setFld | apply keeps_setTw | apply keeps_sendPulse | apply keeps_each | apply keeps_buildFrame
        | apply keeps_facPulseAll | apply keeps_ite | apply keeps_next | (apply keeps_mk; assumption))
    | extract_lets +onlyGivenNames x | intro x hx | intro x

theorem keeps_execTwinSdCondition {r s : State} (h : Keeps r s) (on : Bool) :
    KeepsO r (execTwinSdCondition on s) := by
  unfold execTwinSdCondition
  repeat' with_reducible first
    | assumption | apply keeps_setTw | apply keeps_roleEval | apply keeps_ite | apply keeps_next | (apply keeps_mk; assumption)

theorem keeps_execTwinSf {r s : State} (h : Keeps r s) :
    KeepsO r (execTwinSf s) := by
  unfold execTwinSf
  repeat' with_reducible first
    | assumption | apply keeps_roleEval | apply keeps_driveClaim | apply keeps_sendHeartbeat | apply keeps_ite | apply keeps_next

theorem keeps_execHandover {r s : State} (h : Keeps r s) (m : MsgHead) (frame : BitVec 22) (toJunior : Bool) :
    KeepsO r (execHandover m frame toJunior s) := by
  unfold execHandover
  repeat' first
    | (with_reducible first
        | assumption | apply keeps_received | apply keeps_setTw | apply keeps_raise | apply keeps_ite | apply keeps_next
        | (apply keeps_mk; assumption))
    | extract_lets +onlyGivenNames x | intro x hx | intro x

theorem keeps_execCommandedSwitch {r s : State} (h : Keeps r s) :
    KeepsO r (execCommandedSwitch s) := by
  unfold execCommandedSwitch
  repeat' with_reducible first
    | assumption | apply keeps_setTw | apply keeps_sendMsg | apply keeps_raise | apply keeps_ite | apply keeps_next
    | (apply keeps_mk; assumption)

theorem keeps_execHandoverClaimTime {r s : State} (h : Keeps r s) :
    KeepsO r (execHandoverClaimTime s) := by
  unfold execHandoverClaimTime
  repeat' with_reducible first
    | assumption | apply keeps_driveClaim | apply keeps_ite | apply keeps_next

theorem keeps_execHandoverFrame {r s : State} (h : Keeps r s) :
    KeepsO r (execHandoverFrame s) := by
  unfold execHandoverFrame
  repeat' with_reducible first
    | assumption | apply keeps_setTw | apply keeps_roleTo | apply keeps_switchDone | apply keeps_ite | apply keeps_next
    | (apply keeps_mk; assumption)

theorem keeps_soloClaim {r s : State} (h : Keeps r s) (solo : Bool) (why : Nat) :
    Keeps r (State.soloClaim s solo why) := by
  unfold State.soloClaim
  repeat' with_reducible first
    | assumption | apply keeps_setFlag | apply keeps_roleTo | apply keeps_raise | apply keeps_ite

theorem keeps_execSameInstantClaim {r s : State} (h : Keeps r s) :
    KeepsO r (execSameInstantClaim s) := by
  unfold execSameInstantClaim
  repeat' with_reducible first
    | assumption | apply keeps_roleTo | apply keeps_raise | apply keeps_ite | apply keeps_next

theorem keeps_execJuniorYield {r s : State} (h : Keeps r s) :
    KeepsO r (execJuniorYield s) := by
  unfold execJuniorYield
  repeat' with_reducible first
    | assumption | apply keeps_roleTo | apply keeps_ite | apply keeps_next

theorem keeps_execSeniorSoloClaim {r s : State} (h : Keeps r s) :
    KeepsO r (execSeniorSoloClaim s) := by
  unfold execSeniorSoloClaim
  repeat' with_reducible first
    | assumption | apply keeps_soloClaim | apply keeps_ite | apply keeps_next

theorem keeps_execJuniorSoloClaim {r s : State} (h : Keeps r s) :
    KeepsO r (execJuniorSoloClaim s) := by
  unfold execJuniorSoloClaim
  repeat' with_reducible first
    | assumption | apply keeps_soloClaim | apply keeps_ite | apply keeps_next

theorem keeps_execStartWaitExpiry {r s : State} (h : Keeps r s) :
    KeepsO r (execStartWaitExpiry s) := by
  unfold execStartWaitExpiry
  repeat' with_reducible first
    | assumption | apply keeps_soloClaim | apply keeps_ite | apply keeps_next

theorem keeps_twnCommand {r s : State} (h : Keeps r s) (cmd : Nat) (token : Nat) :
    Keeps r (State.twnCommand s cmd token) := by
  unfold State.twnCommand
  repeat' with_reducible first
    | assumption | apply keeps_setFld | apply keeps_raise | apply keeps_setReg | apply keeps_mirror | apply keeps_roleEval
    | apply keeps_ite

theorem keeps_twnWrite {r s : State} (h : Keeps r s) (w : Writer) (cmd : Nat) (token : Nat) :
    Keeps r (State.twnWrite s w cmd token) := by
  unfold State.twnWrite
  repeat' first
    | (with_reducible first
        | assumption | apply keeps_commandWrite | apply keeps_twnCommand)
    | extract_lets +onlyGivenNames x | intro x hx | intro x

theorem keeps_execEquipmentWtrExpiry {r s : State} (h : Keeps r s) :
    KeepsO r (execEquipmentWtrExpiry s) := by
  unfold execEquipmentWtrExpiry
  repeat' with_reducible first
    | assumption | apply keeps_setFlag | apply keeps_raise | apply keeps_roleEval | apply keeps_ite | apply keeps_next

end Sys2Proof.Machine
end

