-- ==== Sys2Proof/Laws/KeepsUnlock.lean ====
section
/-! SUPPORT. Every operation of Machine/Unlock.lean leaves the queue, true time and the canonical form of memory and registers alone. -/

namespace Sys2Proof.Machine

theorem keeps_setUnlock {r s : State} (h : Keeps r s) (st : Nat) :
    Keeps r (State.setUnlock s st) := by
  unfold State.setUnlock
  repeat' with_reducible first
    | assumption | apply keeps_setFld

theorem keeps_unlockFails {r s : State} (h : Keeps r s) :
    Keeps r (State.unlockFails s) := by
  unfold State.unlockFails
  repeat' with_reducible first
    | assumption | apply keeps_setUnlock | apply keeps_raise | apply keeps_ite | (apply keeps_mk; assumption)

theorem keeps_unlockWord {r s : State} (h : Keeps r s) (v : Word) :
    Keeps r (State.unlockWord s v) := by
  unfold State.unlockWord
  repeat' first
    | (with_reducible first
        | assumption | apply keeps_setUnlock | apply keeps_unlockFails | apply keeps_raise | apply keeps_lockBridge
        | refine keeps_fst ?_ (by assumption) | apply keeps_ite)
    | extract_lets +onlyGivenNames x | intro x | split

end Sys2Proof.Machine
end

