-- ==== Sys2Proof/Laws/KeepsBus.lean ====
section
/-! SUPPORT. Every operation of Machine/Bus.lean leaves the queue, true time and the canonical form of memory and registers alone. -/

namespace Sys2Proof.Machine

theorem keeps_latch {r s : State} (h : Keeps r s) (port : Nat) (a : Nat) :
    Keeps r (State.latch s port a) := by
  unfold State.latch
  repeat' first
    | (with_reducible first
        | assumption | apply keeps_setReg | apply keeps_latchTod | apply keeps_latchNext | apply keeps_popSample
        | refine keeps_fst ?_ (by assumption) | apply keeps_ite)
    | extract_lets +onlyGivenNames x | intro x hx | intro x | split

theorem keeps_afterRead {r s : State} (h : Keeps r s) (port : Nat) (tgt : Nat) (a : Nat) :
    Keeps r (State.afterRead s port tgt a) := by
  unfold State.afterRead
  repeat' with_reducible first
    | assumption | apply keeps_latch | apply keeps_useFree | apply keeps_ite

theorem keeps_noteWindow {r s : State} (h : Keeps r s) (tgt : Nat) :
    Keeps r (State.noteWindow s tgt) := by
  unfold State.noteWindow
  repeat' with_reducible first
    | assumption | apply keeps_raise | apply keeps_ite

theorem keeps_readAt {r s : State} (h : Keeps r s) (port : Nat) (a : Nat) (n : Nat) :
    Keeps r (State.readAt s port a n).1 := by
  unfold State.readAt
  repeat' first
    | (with_reducible first
        | assumption | apply keeps_noteWindow | apply keeps_afterRead | apply keeps_respond | apply keeps_ite)
    | (extract_lets +onlyGivenNames x; refine (have hx : Keeps r x := ?_; ?_); (on_goal 1 => subst x); (on_goal 2 => clear_value x))
    | extract_lets +onlyGivenNames x | intro x | split

theorem keeps_plainWrite {r s : State} (h : Keeps r s) (w : Writer) (r0 : RegRow) (a : Nat) (v : Word) :
    Keeps r (State.plainWrite s w r0 a v) := by
  unfold State.plainWrite
  repeat' first
    | (with_reducible first
        | assumption | apply keeps_setReg | apply keeps_serviceWrite | refine keeps_fst ?_ (by assumption) | apply keeps_ite)
    | extract_lets +onlyGivenNames x | intro x | split

theorem keeps_pathSettings {r s : State} (h : Keeps r s) (p : PathId) :
    Keeps r (State.pathSettings s p) := by
  unfold State.pathSettings
  repeat' with_reducible first
    | assumption | apply keeps_judgeLabel | apply keeps_pathActions | apply keeps_updateTribs | apply keeps_ite

theorem keeps_kTxFree {r s : State} (h : Keeps r s) (n : Nat) (v : Word) :
    Keeps r (State.kTxFree s n v) := by
  unfold State.kTxFree
  repeat' with_reducible first
    | assumption | apply keeps_kTxWrite | apply keeps_useFree

theorem keeps_lineWrite {r s : State} (h : Keeps r s) (w : Writer) (r0 : RegRow) (n : Nat) (o : Nat) (a : Nat) (v : Word) :
    Keeps r (State.lineWrite s w r0 n o a v) := by
  unfold State.lineWrite
  repeat' first
    | (with_reducible first
        | assumption | apply keeps_lineEnWrite | apply keeps_alsCommand | apply keeps_kTxFree | apply keeps_plainWrite
        | apply keeps_lineActions | refine keeps_fst ?_ (by assumption))
    | extract_lets +onlyGivenNames x | intro x | split

theorem keeps_writeHub {r s : State} (h : Keeps r s) (w : Writer) (r0 : RegRow) (a : Nat) (v : Word) :
    Keeps r (State.writeHub s w r0 a v) := by
  unfold State.writeHub
  repeat' first
    | (with_reducible first
        | assumption | apply keeps_kick | apply keeps_fenceWrite | apply keeps_snapshotWrite | apply keeps_eventCfgWrite
        | apply keeps_clearPending | apply keeps_checkWrite | apply keeps_plainWrite | refine keeps_fst ?_ (by assumption)
        | apply keeps_ite)
    | extract_lets +onlyGivenNames x | intro x | split

theorem keeps_writePath {r s : State} (h : Keeps r s) (w : Writer) (r0 : RegRow) (a : Nat) (v : Word) :
    Keeps r (State.writePath s w r0 a v) := by
  unfold State.writePath
  repeat' first
    | (with_reducible first
        | assumption | apply keeps_indexWrite | apply keeps_updateTribs | apply keeps_apsCommand | apply keeps_plainWrite
        | apply keeps_pathSettings | refine keeps_fst ?_ (by assumption))
    | extract_lets +onlyGivenNames x | intro x | split

theorem keeps_writeTraffic {r s : State} (h : Keeps r s) (w : Writer) (r0 : RegRow) (a : Nat) (v : Word) :
    Keeps r (State.writeTraffic s w r0 a v) := by
  unfold State.writeTraffic
  repeat' first
    | (with_reducible first
        | assumption | apply keeps_tribEnWrite | apply keeps_maintWrite | apply keeps_templateWrite | apply keeps_flowWrite
        | apply keeps_profWrite | apply keeps_plainWrite | refine keeps_fst ?_ (by assumption))
    | extract_lets +onlyGivenNames x | intro x | split

theorem keeps_writeTiming {r s : State} (h : Keeps r s) (w : Writer) (r0 : RegRow) (a : Nat) (v : Word) :
    Keeps r (State.writeTiming s w r0 a v) := by
  unfold State.writeTiming
  repeat' first
    | (with_reducible first
        | assumption | apply keeps_selMirrored | apply keeps_hoCommand | apply keeps_twnCommand | apply keeps_taskCommand
        | apply keeps_refQlWrite | apply keeps_phaseWrite | apply keeps_esmcTxWrite | apply keeps_plainWrite
        | refine keeps_fst ?_ (by assumption) | apply keeps_ite)
    | extract_lets +onlyGivenNames x | intro x | split

theorem keeps_writeFac {r s : State} (h : Keeps r s) (w : Writer) (r0 : RegRow) (a : Nat) (v : Word) :
    Keeps r (State.writeFac s w r0 a v) := by
  unfold State.writeFac
  repeat' first
    | (with_reducible first
        | assumption | apply keeps_facSyncWrite | apply keeps_facCfgWrite | apply keeps_facCommand | apply keeps_facStreamWrite
        | apply keeps_patternWrite | apply keeps_plainWrite | refine keeps_fst ?_ (by assumption) | apply keeps_ite)
    | extract_lets +onlyGivenNames x | intro x | split

theorem keeps_regEffect {r s : State} (h : Keeps r s) (w : Writer) (r0 : RegRow) (a : Nat) (v : Word) :
    Keeps r (State.regEffect s w r0 a v) := by
  unfold State.regEffect
  repeat' with_reducible first
    | assumption | apply keeps_writeHub | apply keeps_lineWrite | apply keeps_writePath | apply keeps_writeTraffic
    | apply keeps_writeTiming | apply keeps_writeFac | apply keeps_ite

theorem keeps_regWrite {r s : State} (h : Keeps r s) (port : Nat) (a : Nat) (v : Word) :
    Keeps r (State.regWrite s port a v) := by
  unfold State.regWrite
  repeat' first
    | (with_reducible first
        | assumption | apply keeps_respond | apply keeps_unlockWord | apply keeps_setReg | apply keeps_regEffect
        | apply keeps_templateRefused | refine keeps_fst ?_ (by assumption) | apply keeps_ite)
    | extract_lets +onlyGivenNames x | intro x | split

theorem keeps_noteCode {r s : State} (h : Keeps r s) (port : Nat) (tgt : Nat) (a : Nat) :
    Keeps r (State.noteCode s port tgt a) := by
  unfold State.noteCode
  repeat' with_reducible first
    | assumption | apply keeps_count | apply keeps_raise | apply keeps_ite

theorem keeps_storeBytes {r s : State} (h : Keeps r s) (a : Nat) (l : List (Option Byte)) : Keeps r (s.storeBytes a l) := by
  induction l generalizing s a with
  | nil => exact h
  | cons o l ih => cases o with
    | none => exact ih h _
    | some b => exact ih (keeps_setByte h a b) _

theorem keeps_writeAt {r s : State} (h : Keeps r s) (port : Nat) (a : Nat) (bs : List (Option Byte)) :
    Keeps r (State.writeAt s port a bs) := by
  unfold State.writeAt
  repeat' with_reducible first
    | assumption | apply keeps_regWrite | apply keeps_respond | apply keeps_noteWindow | apply keeps_noteCode | apply keeps_storeBytes
    | apply keeps_ite

theorem keeps_performBeat {r s : State} (h : Keeps r s) (t0 : Txn) :
    Keeps r (State.performBeat s t0).1 := by
  unfold State.performBeat
  repeat' first
    | (with_reducible first
        | assumption | apply keeps_respond | apply keeps_writeAt | apply keeps_readAt | refine keeps_fst ?_ (by assumption)
        | apply keeps_ite
        | (apply keeps_mk; first | assumption | apply keeps_respond | apply keeps_writeAt | apply keeps_readAt | apply keeps_ite))
    | (extract_lets +onlyGivenNames x; refine (have hx : Keeps r x := ?_; ?_); (on_goal 1 => subst x); (on_goal 2 => clear_value x))
    | extract_lets +onlyGivenNames x | intro x | split

theorem keeps_performBeats {r s : State} (h : Keeps r s) (t : Txn) (n : Nat) : Keeps r (s.performBeats t n).1 := by
  induction n generalizing s t with
  | zero => exact h
  | succ n ih => exact ih (keeps_performBeat h t) _

theorem keeps_perform {r s : State} (h : Keeps r s) (k : Nat) :
    Keeps r (State.perform s k) := by
  unfold State.perform
  repeat' first
    | (with_reducible first
        | assumption | apply keeps_performBeats | apply keeps_setTxn | refine keeps_fst ?_ (by assumption) | apply keeps_ite)
    | extract_lets +onlyGivenNames x | intro x hx | intro x | split

theorem keeps_decideOne {r s : State} (h : Keeps r s) (t0 : Txn) :
    Keeps r (State.decideOne s t0) := by
  unfold State.decideOne
  repeat' with_reducible first
    | assumption | apply keeps_setMtx | apply keeps_useFree | apply keeps_performBeats | apply keeps_ite | (apply keeps_mk; assumption)

theorem keeps_decideLate {r s : State} (h : Keeps r s) (p : Txn → Bool) :
    Keeps r (State.decideLate s p) := by
  unfold State.decideLate
  repeat' with_reducible first
    | assumption | apply keeps_each | apply keeps_decideOne

theorem keeps_settle {r s : State} (h : Keeps r s) (tgt : Nat) (tag : Nat) :
    Keeps r (State.settle s tgt tag) := by
  unfold State.settle
  repeat' with_reducible first
    | assumption | apply keeps_decideLate | apply keeps_each | apply keeps_perform

theorem keeps_grant {r s : State} (h : Keeps r s) (port : Nat) (a : Nat) :
    Keeps r (State.grant s port a) := by
  unfold State.grant
  repeat' with_reducible first
    | assumption | apply keeps_settle | apply keeps_movePointer

theorem keeps_busRead {r s : State} (h : Keeps r s) (port : Nat) (id : Nat) (a : Nat) (n : Nat) :
    Keeps r (State.busRead s port id a n).1 := by
  unfold State.busRead
  repeat' first
    | (with_reducible first
        | assumption | apply keeps_respond | apply keeps_logAccess | apply keeps_grant | apply keeps_readAt
        | refine keeps_fst ?_ (by assumption) | apply keeps_ite)
    | (extract_lets +onlyGivenNames x; refine (have hx : Keeps r x := ?_; ?_); (on_goal 1 => subst x); (on_goal 2 => clear_value x))
    | extract_lets +onlyGivenNames x | intro x | split

theorem keeps_busWrite {r s : State} (h : Keeps r s) (port : Nat) (id : Nat) (a : Nat) (bs : List (Option Byte)) :
    Keeps r (State.busWrite s port id a bs) := by
  unfold State.busWrite
  repeat' with_reducible first
    | assumption | apply keeps_respond | apply keeps_logAccess | apply keeps_grant | apply keeps_writeAt | apply keeps_ite

theorem keeps_bridgeWrite {r s : State} (h : Keeps r s) (a : Nat) (v : Word) :
    Keeps r (State.bridgeWrite s a v) := by
  unfold State.bridgeWrite
  repeat' with_reducible first
    | assumption | apply keeps_bridgeError | apply keeps_busWrite | apply keeps_ite

theorem keeps_execRegisterWrite {r s : State} (h : Keeps r s) (w : Writer) (addr : Word) (value : Word) :
    KeepsO r (execRegisterWrite w addr value s) := by
  unfold execRegisterWrite
  repeat' first
    | (with_reducible first
        | assumption | apply keeps_busWrite | apply keeps_bridgeWrite | refine keeps_fst ?_ (by assumption) | apply keeps_ite
        | apply keeps_next)
    | extract_lets +onlyGivenNames x | intro x | split

end Sys2Proof.Machine
end

