-- ==== Sys2Proof/Laws/KeepsCommands.lean ====
section
/-! SUPPORT. Every operation of Machine/Commands.lean leaves the queue, true time and the canonical form of memory and registers alone. -/

namespace Sys2Proof.Machine

theorem keeps_settleRegs {r s : State} (h : Keeps r s) :
    Keeps r (State.settleRegs s) := by
  unfold State.settleRegs
  repeat' with_reducible first
    | assumption | apply keeps_settle | apply keeps_ite

theorem keeps_settleFor {r s : State} (h : Keeps r s) (w : Writer) :
    Keeps r (State.settleFor s w) := by
  unfold State.settleFor
  repeat' with_reducible first
    | assumption | apply keeps_settleRegs | apply keeps_ite

theorem keeps_execTaskMakeReady {r s : State} (h : Keeps r s) (t0 : Fin 256) (w : Writer) (token : Byte) :
    KeepsO r (execTaskMakeReady t0 w token s) := by
  unfold execTaskMakeReady
  repeat' with_reducible first
    | assumption | apply keeps_settleFor | apply keeps_taskWrite | apply keeps_next

theorem keeps_execTaskCancel {r s : State} (h : Keeps r s) (t0 : Fin 256) (w : Writer) (token : Byte) (woken : Bool) :
    KeepsO r (execTaskCancel t0 w token woken s) := by
  unfold execTaskCancel
  repeat' with_reducible first
    | assumption | apply keeps_settleFor | apply keeps_taskWrite | apply keeps_next

theorem keeps_execTaskEnable {r s : State} (h : Keeps r s) (t0 : Fin 256) (w : Writer) (token : Byte) :
    KeepsO r (execTaskEnable t0 w token s) := by
  unfold execTaskEnable
  repeat' with_reducible first
    | assumption | apply keeps_settleFor | apply keeps_taskWrite | apply keeps_next

theorem keeps_execTaskDisable {r s : State} (h : Keeps r s) (t0 : Fin 256) (w : Writer) (token : Byte) (woken : Bool) :
    KeepsO r (execTaskDisable t0 w token woken s) := by
  unfold execTaskDisable
  repeat' with_reducible first
    | assumption | apply keeps_settleFor | apply keeps_taskWrite | apply keeps_next

theorem keeps_execL7Kick {r s : State} (h : Keeps r s) (w : Writer) (checked : Bool) (kick : Byte) (token : Byte) :
    KeepsO r (execL7Kick w checked kick token s) := by
  unfold execL7Kick
  repeat' first
    | (with_reducible first
        | assumption | apply keeps_settleFor | apply keeps_commandWrite | apply keeps_kick | apply keeps_next)
    | extract_lets +onlyGivenNames x | intro x hx | intro x

theorem keeps_execMtxFenceGo {r s : State} (h : Keeps r s) (w : Writer) (token : Byte) (go : Bool) :
    KeepsO r (execMtxFenceGo w token go s) := by
  unfold execMtxFenceGo
  repeat' first
    | (with_reducible first
        | assumption | apply keeps_settleFor | apply keeps_commandWrite | apply keeps_fenceWrite | apply keeps_next)
    | extract_lets +onlyGivenNames x | intro x hx | intro x

theorem keeps_execEvtPendClear {r s : State} (h : Keeps r s) (k : Fin 36) (w : Writer) (mask : Word) :
    KeepsO r (execEvtPendClear k w mask s) := by
  unfold execEvtPendClear
  repeat' first
    | (with_reducible first
        | assumption | apply keeps_settleFor | apply keeps_commandWrite | apply keeps_clearPending | apply keeps_next)
    | extract_lets +onlyGivenNames x | intro x hx | intro x

theorem keeps_execInvSnapshot {r s : State} (h : Keeps r s) (w : Writer) (token : Byte) (go : Bool) :
    KeepsO r (execInvSnapshot w token go s) := by
  unfold execInvSnapshot
  repeat' first
    | (with_reducible first
        | assumption | apply keeps_settleFor | apply keeps_commandWrite | apply keeps_snapshotWrite | apply keeps_next)
    | extract_lets +onlyGivenNames x | intro x hx | intro x

theorem keeps_execCheckEntryWrite {r s : State} (h : Keeps r s) (u : Fin 32) (word : Fin 8) (w : Writer) (value : Word) :
    KeepsO r (execCheckEntryWrite u word w value s) := by
  unfold execCheckEntryWrite
  repeat' first
    | (with_reducible first
        | assumption | apply keeps_settleFor | apply keeps_commandWrite | apply keeps_checkWrite | apply keeps_next)
    | extract_lets +onlyGivenNames x | intro x hx | intro x

theorem keeps_execAlsManualRestart {r s : State} (h : Keeps r s) (n : Fin 8) (w : Writer) (token : Byte) :
    KeepsO r (execAlsManualRestart n w token s) := by
  unfold execAlsManualRestart
  repeat' first
    | (with_reducible first
        | assumption | apply keeps_settleFor | apply keeps_commandWrite | apply keeps_alsCommand | apply keeps_next)
    | extract_lets +onlyGivenNames x | intro x hx | intro x

theorem keeps_execAlsManualTest {r s : State} (h : Keeps r s) (n : Fin 8) (w : Writer) (token : Byte) :
    KeepsO r (execAlsManualTest n w token s) := by
  unfold execAlsManualTest
  repeat' first
    | (with_reducible first
        | assumption | apply keeps_settleFor | apply keeps_commandWrite | apply keeps_alsCommand | apply keeps_next)
    | extract_lets +onlyGivenNames x | intro x hx | intro x

theorem keeps_execLineEnable {r s : State} (h : Keeps r s) (n : Fin 8) (w : Writer) :
    KeepsO r (execLineEnable n w s) := by
  unfold execLineEnable
  repeat' first
    | (with_reducible first
        | assumption | apply keeps_settleFor | apply keeps_commandWrite | apply keeps_lineEnWrite | apply keeps_next)
    | extract_lets +onlyGivenNames x | intro x hx | intro x

theorem keeps_execLineDisable {r s : State} (h : Keeps r s) (n : Fin 8) (w : Writer) :
    KeepsO r (execLineDisable n w s) := by
  unfold execLineDisable
  repeat' first
    | (with_reducible first
        | assumption | apply keeps_settleFor | apply keeps_commandWrite | apply keeps_lineEnWrite | apply keeps_next)
    | extract_lets +onlyGivenNames x | intro x hx | intro x

theorem keeps_execLineKTxWrite {r s : State} (h : Keeps r s) (n : Fin 8) (w : Writer) (value : Word) (inKSlot : Bool) :
    KeepsO r (execLineKTxWrite n w value inKSlot s) := by
  unfold execLineKTxWrite
  repeat' first
    | (with_reducible first
        | assumption | apply keeps_settleFor | apply keeps_commandWrite | apply keeps_kTxWrite | apply keeps_next)
    | extract_lets +onlyGivenNames x | intro x hx | intro x

theorem keeps_execApsClear {r s : State} (h : Keeps r s) (g : Fin 4) (w : Writer) (token : Byte) :
    KeepsO r (execApsClear g w token s) := by
  unfold execApsClear
  repeat' with_reducible first
    | assumption | apply keeps_settleFor | apply keeps_apsWrite | apply keeps_next

theorem keeps_execApsLockout {r s : State} (h : Keeps r s) (g : Fin 4) (w : Writer) (token : Byte) :
    KeepsO r (execApsLockout g w token s) := by
  unfold execApsLockout
  repeat' with_reducible first
    | assumption | apply keeps_settleFor | apply keeps_apsWrite | apply keeps_next

theorem keeps_execApsForcedSwitch {r s : State} (h : Keeps r s) (g : Fin 4) (chan : Fin 8) (w : Writer) (token : Byte) :
    KeepsO r (execApsForcedSwitch g chan w token s) := by
  unfold execApsForcedSwitch
  repeat' with_reducible first
    | assumption | apply keeps_settleFor | apply keeps_apsWrite | apply keeps_next

theorem keeps_execApsManualSwitch {r s : State} (h : Keeps r s) (g : Fin 4) (chan : Fin 8) (w : Writer) (token : Byte) :
    KeepsO r (execApsManualSwitch g chan w token s) := by
  unfold execApsManualSwitch
  repeat' with_reducible first
    | assumption | apply keeps_settleFor | apply keeps_apsWrite | apply keeps_next

theorem keeps_execApsExercise {r s : State} (h : Keeps r s) (g : Fin 4) (chan : Fin 8) (w : Writer) (token : Byte) :
    KeepsO r (execApsExercise g chan w token s) := by
  unfold execApsExercise
  repeat' with_reducible first
    | assumption | apply keeps_settleFor | apply keeps_apsWrite | apply keeps_next

theorem keeps_execIndexEntryWrite {r s : State} (h : Keeps r s) (e : Fin 4096) (word : Fin 4) (w : Writer) (value : Word) :
    KeepsO r (execIndexEntryWrite e word w value s) := by
  unfold execIndexEntryWrite
  repeat' first
    | (with_reducible first
        | assumption | apply keeps_settleFor | apply keeps_commandWrite | apply keeps_indexWrite | apply keeps_updateTribs
        | apply keeps_next)
    | extract_lets +onlyGivenNames x | intro x hx | intro x

theorem keeps_execSncpLockout {r s : State} (h : Keeps r s) (e : Fin 4096) (w : Writer) :
    KeepsO r (execSncpLockout e w s) := by
  unfold execSncpLockout
  repeat' with_reducible first
    | assumption | apply keeps_settleFor | apply keeps_sncpCommand | apply keeps_next

theorem keeps_execSncpForcedSwitch {r s : State} (h : Keeps r s) (e : Fin 4096) (w : Writer) :
    KeepsO r (execSncpForcedSwitch e w s) := by
  unfold execSncpForcedSwitch
  repeat' with_reducible first
    | assumption | apply keeps_settleFor | apply keeps_sncpCommand | apply keeps_next

theorem keeps_execSncpManualToProtecting {r s : State} (h : Keeps r s) (e : Fin 4096) (w : Writer) :
    KeepsO r (execSncpManualToProtecting e w s) := by
  unfold execSncpManualToProtecting
  repeat' with_reducible first
    | assumption | apply keeps_settleFor | apply keeps_sncpCommand | apply keeps_next

theorem keeps_execSncpManualToA {r s : State} (h : Keeps r s) (e : Fin 4096) (w : Writer) :
    KeepsO r (execSncpManualToA e w s) := by
  unfold execSncpManualToA
  repeat' with_reducible first
    | assumption | apply keeps_settleFor | apply keeps_sncpCommand | apply keeps_next

theorem keeps_execTemplateWrite {r s : State} (h : Keeps r s) (t0 : Fin 16) (i : Fin 128) (w : Writer) (value : Word) :
    KeepsO r (execTemplateWrite t0 i w value s) := by
  unfold execTemplateWrite
  repeat' first
    | (with_reducible first
        | assumption | apply keeps_settleFor | apply keeps_commandWrite | apply keeps_templateWrite | apply keeps_next)
    | extract_lets +onlyGivenNames x | intro x hx | intro x

theorem keeps_execTribEnable {r s : State} (h : Keeps r s) (p : Fin 64) (w : Writer) :
    KeepsO r (execTribEnable p w s) := by
  unfold execTribEnable
  repeat' first
    | (with_reducible first
        | assumption | apply keeps_settleFor | apply keeps_commandWrite | apply keeps_tribEnWrite | apply keeps_next)
    | extract_lets +onlyGivenNames x | intro x hx | intro x

theorem keeps_execTribDisable {r s : State} (h : Keeps r s) (p : Fin 64) (w : Writer) :
    KeepsO r (execTribDisable p w s) := by
  unfold execTribDisable
  repeat' first
    | (with_reducible first
        | assumption | apply keeps_settleFor | apply keeps_commandWrite | apply keeps_tribEnWrite | apply keeps_next)
    | extract_lets +onlyGivenNames x | intro x hx | intro x

theorem keeps_execLloop {r s : State} (h : Keeps r s) (p : Fin 64) (w : Writer) (on : Bool) :
    KeepsO r (execLloop p w on s) := by
  unfold execLloop
  repeat' with_reducible first
    | assumption | apply keeps_settleFor | apply keeps_maintBit | apply keeps_next

theorem keeps_execForceAisTx {r s : State} (h : Keeps r s) (p : Fin 64) (w : Writer) (on : Bool) :
    KeepsO r (execForceAisTx p w on s) := by
  unfold execForceAisTx
  repeat' with_reducible first
    | assumption | apply keeps_settleFor | apply keeps_maintBit | apply keeps_next

theorem keeps_execForceAisRx {r s : State} (h : Keeps r s) (p : Fin 64) (w : Writer) (on : Bool) :
    KeepsO r (execForceAisRx p w on s) := by
  unfold execForceAisRx
  repeat' with_reducible first
    | assumption | apply keeps_settleFor | apply keeps_maintBit | apply keeps_next

theorem keeps_execSelClear {r s : State} (h : Keeps r s) (d : Fin 2) (w : Writer) (token : Byte) :
    KeepsO r (execSelClear d w token s) := by
  unfold execSelClear
  repeat' with_reducible first
    | assumption | apply keeps_settleFor | apply keeps_selWrite | apply keeps_next

theorem keeps_execSelForced {r s : State} (h : Keeps r s) (d : Fin 2) (ref : Fin 16) (w : Writer) (token : Byte) :
    KeepsO r (execSelForced d ref w token s) := by
  unfold execSelForced
  repeat' with_reducible first
    | assumption | apply keeps_settleFor | apply keeps_selWrite | apply keeps_next

theorem keeps_execSelManual {r s : State} (h : Keeps r s) (d : Fin 2) (ref : Fin 16) (w : Writer) (token : Byte) :
    KeepsO r (execSelManual d ref w token s) := by
  unfold execSelManual
  repeat' with_reducible first
    | assumption | apply keeps_settleFor | apply keeps_selWrite | apply keeps_next

theorem keeps_execSelForcedHoldover {r s : State} (h : Keeps r s) (d : Fin 2) (w : Writer) (token : Byte) :
    KeepsO r (execSelForcedHoldover d w token s) := by
  unfold execSelForcedHoldover
  repeat' with_reducible first
    | assumption | apply keeps_settleFor | apply keeps_selWrite | apply keeps_next

theorem keeps_execSelForcedFreeRun {r s : State} (h : Keeps r s) (d : Fin 2) (w : Writer) (token : Byte) :
    KeepsO r (execSelForcedFreeRun d w token s) := by
  unfold execSelForcedFreeRun
  repeat' with_reducible first
    | assumption | apply keeps_settleFor | apply keeps_selWrite | apply keeps_next

theorem keeps_execModelCommit {r s : State} (h : Keeps r s) (w : Writer) (token : Byte) :
    KeepsO r (execModelCommit w token s) := by
  unfold execModelCommit
  repeat' first
    | (with_reducible first
        | assumption | apply keeps_settleFor | apply keeps_commandWrite | apply keeps_hoCommand | apply keeps_next)
    | extract_lets +onlyGivenNames x | intro x hx | intro x

theorem keeps_execEsmcTxWrite {r s : State} (h : Keeps r s) (p : Fin 2) (w : Writer) (value : Word) :
    KeepsO r (execEsmcTxWrite p w value s) := by
  unfold execEsmcTxWrite
  repeat' first
    | (with_reducible first
        | assumption | apply keeps_settleFor | apply keeps_commandWrite | apply keeps_esmcTxWrite | apply keeps_next)
    | extract_lets +onlyGivenNames x | intro x hx | intro x

theorem keeps_execPtpPhaseSample {r s : State} (h : Keeps r s) (p : Fin 2) (w : Writer) (value : Word) :
    KeepsO r (execPtpPhaseSample p w value s) := by
  unfold execPtpPhaseSample
  repeat' first
    | (with_reducible first
        | assumption | apply keeps_settleFor | apply keeps_commandWrite | apply keeps_phaseWrite | apply keeps_next)
    | extract_lets +onlyGivenNames x | intro x hx | intro x

theorem keeps_execFlowEnable {r s : State} (h : Keeps r s) (f : Fin 1024) (w : Writer) (value : Word) :
    KeepsO r (execFlowEnable f w value s) := by
  unfold execFlowEnable
  repeat' first
    | (with_reducible first
        | assumption | apply keeps_settleFor | apply keeps_commandWrite | apply keeps_enableFlow | apply keeps_next)
    | extract_lets +onlyGivenNames x | intro x hx | intro x

theorem keeps_execFlowDisable {r s : State} (h : Keeps r s) (f : Fin 1024) (w : Writer) (value : Word) :
    KeepsO r (execFlowDisable f w value s) := by
  unfold execFlowDisable
  repeat' first
    | (with_reducible first
        | assumption | apply keeps_settleFor | apply keeps_commandWrite | apply keeps_disableFlow | apply keeps_next)
    | extract_lets +onlyGivenNames x | intro x hx | intro x

theorem keeps_execFlowEntryWrite {r s : State} (h : Keeps r s) (profile : Bool) (i : Fin 1024) (word : Fin 16) (w : Writer) (value : Word) :
    KeepsO r (execFlowEntryWrite profile i word w value s) := by
  unfold execFlowEntryWrite
  repeat' first
    | (with_reducible first
        | assumption | apply keeps_settleFor | apply keeps_commandWrite | apply keeps_profWrite | apply keeps_flowWrite | apply keeps_ite
        | apply keeps_next)
    | extract_lets +onlyGivenNames x | intro x hx | intro x

theorem keeps_execTwnClear {r s : State} (h : Keeps r s) (w : Writer) (token : Byte) :
    KeepsO r (execTwnClear w token s) := by
  unfold execTwnClear
  repeat' with_reducible first
    | assumption | apply keeps_settleFor | apply keeps_twnWrite | apply keeps_next

theorem keeps_execTwnLo {r s : State} (h : Keeps r s) (w : Writer) (token : Byte) :
    KeepsO r (execTwnLo w token s) := by
  unfold execTwnLo
  repeat' with_reducible first
    | assumption | apply keeps_settleFor | apply keeps_twnWrite | apply keeps_next

theorem keeps_execTwnFs {r s : State} (h : Keeps r s) (w : Writer) (token : Byte) :
    KeepsO r (execTwnFs w token s) := by
  unfold execTwnFs
  repeat' with_reducible first
    | assumption | apply keeps_settleFor | apply keeps_twnWrite | apply keeps_next

theorem keeps_execTwnMsJ {r s : State} (h : Keeps r s) (w : Writer) (token : Byte) :
    KeepsO r (execTwnMsJ w token s) := by
  unfold execTwnMsJ
  repeat' with_reducible first
    | assumption | apply keeps_settleFor | apply keeps_twnWrite | apply keeps_next

theorem keeps_execTwnMsS {r s : State} (h : Keeps r s) (w : Writer) (token : Byte) :
    KeepsO r (execTwnMsS w token s) := by
  unfold execTwnMsS
  repeat' with_reducible first
    | assumption | apply keeps_settleFor | apply keeps_twnWrite | apply keeps_next

theorem keeps_execFacStart {r s : State} (h : Keeps r s) (n : Fin 8) (step : BitVec 12) (w : Writer) (token : Byte) :
    KeepsO r (execFacStart n step w token s) := by
  unfold execFacStart
  repeat' with_reducible first
    | assumption | apply keeps_settleFor | apply keeps_facWrite | apply keeps_next

theorem keeps_execFacStop {r s : State} (h : Keeps r s) (n : Fin 8) (w : Writer) (token : Byte) :
    KeepsO r (execFacStop n w token s) := by
  unfold execFacStop
  repeat' with_reducible first
    | assumption | apply keeps_settleFor | apply keeps_facWrite | apply keeps_next

theorem keeps_execFacTrig {r s : State} (h : Keeps r s) (n : Fin 8) (w : Writer) (token : Byte) :
    KeepsO r (execFacTrig n w token s) := by
  unfold execFacTrig
  repeat' with_reducible first
    | assumption | apply keeps_settleFor | apply keeps_facWrite | apply keeps_next

theorem keeps_execFacAssign {r s : State} (h : Keeps r s) (n : Fin 8) (port : Fin 64) (cmp : Fin 64) (w : Writer) (token : Byte) :
    KeepsO r (execFacAssign n port cmp w token s) := by
  unfold execFacAssign
  repeat' with_reducible first
    | assumption | apply keeps_settleFor | apply keeps_facWrite | apply keeps_next

theorem keeps_execFacRelease {r s : State} (h : Keeps r s) (n : Fin 8) (w : Writer) (token : Byte) :
    KeepsO r (execFacRelease n w token s) := by
  unfold execFacRelease
  repeat' with_reducible first
    | assumption | apply keeps_settleFor | apply keeps_facWrite | apply keeps_next

theorem keeps_execFacCal {r s : State} (h : Keeps r s) (n : Fin 8) (w : Writer) (token : Byte) :
    KeepsO r (execFacCal n w token s) := by
  unfold execFacCal
  repeat' with_reducible first
    | assumption | apply keeps_settleFor | apply keeps_facWrite | apply keeps_next

theorem keeps_execFacSetSkew {r s : State} (h : Keeps r s) (n : Fin 8) (skew : BitVec 12) (w : Writer) (token : Byte) :
    KeepsO r (execFacSetSkew n skew w token s) := by
  unfold execFacSetSkew
  repeat' with_reducible first
    | assumption | apply keeps_settleFor | apply keeps_facWrite | apply keeps_next

theorem keeps_execFacSync {r s : State} (h : Keeps r s) (w : Writer) (token : Byte) (go : Bool) :
    KeepsO r (execFacSync w token go s) := by
  unfold execFacSync
  repeat' first
    | (with_reducible first
        | assumption | apply keeps_settleFor | apply keeps_commandWrite | apply keeps_facSyncWrite | apply keeps_next)
    | extract_lets +onlyGivenNames x | intro x hx | intro x

theorem keeps_execFacStream {r s : State} (h : Keeps r s) (n : Fin 8) (w : Writer) (token : Byte) (count : BitVec 16) :
    KeepsO r (execFacStream n w token count s) := by
  unfold execFacStream
  repeat' first
    | (with_reducible first
        | assumption | apply keeps_settleFor | apply keeps_commandWrite | apply keeps_facStreamWrite | apply keeps_count
        | apply keeps_next)
    | extract_lets +onlyGivenNames x | intro x hx | intro x

theorem keeps_execPatternMemoryWrite {r s : State} (h : Keeps r s) (i : Fin 65536) (w : Writer) (value : Word) :
    KeepsO r (execPatternMemoryWrite i w value s) := by
  unfold execPatternMemoryWrite
  repeat' first
    | (with_reducible first
        | assumption | apply keeps_settleFor | apply keeps_commandWrite | apply keeps_patternWrite | apply keeps_next)
    | extract_lets +onlyGivenNames x | intro x hx | intro x

theorem keeps_readRow {r s : State} (h : Keeps r s) (isl : Nat) (f : State → State) (hf : ∀ x, Keeps r x → Keeps r (f x)) :
    Keeps r (State.readRow s isl f) := by
  unfold State.readRow
  repeat' first
    | (with_reducible first
        | assumption | apply keeps_settleRegs | apply keeps_ite)
    | apply hf

theorem keeps_execMtxTxnRead {r s : State} (h : Keeps r s) (k : Fin 98) :
    KeepsO r (execMtxTxnRead k s) := by
  unfold execMtxTxnRead
  repeat' first
    | (with_reducible first
        | assumption | apply keeps_readRow | apply keeps_latch | apply keeps_next)
    | extract_lets +onlyGivenNames x | intro x hx | intro x

theorem keeps_execMtxItcRead {r s : State} (h : Keeps r s) (i : Fin 24) :
    KeepsO r (execMtxItcRead i s) := by
  unfold execMtxItcRead
  repeat' first
    | (with_reducible first
        | assumption | apply keeps_readRow | apply keeps_latch | apply keeps_next)
    | extract_lets +onlyGivenNames x | intro x hx | intro x

theorem keeps_execEvtLedgerNextRead {r s : State} (h : Keeps r s) :
    KeepsO r (execEvtLedgerNextRead s) := by
  unfold execEvtLedgerNextRead
  repeat' with_reducible first
    | assumption | apply keeps_readRow | apply keeps_latchNext | apply keeps_next

theorem keeps_execTimTodRead {r s : State} (h : Keeps r s) :
    KeepsO r (execTimTodRead s) := by
  unfold execTimTodRead
  repeat' with_reducible first
    | assumption | apply keeps_readRow | apply keeps_latchTod | apply keeps_next

theorem keeps_execHoSamplePop {r s : State} (h : Keeps r s) (bridge : Bool) :
    KeepsO r (execHoSamplePop bridge s) := by
  unfold execHoSamplePop
  repeat' first
    | (with_reducible first
        | assumption | apply keeps_readRow | apply keeps_popSample | apply keeps_ite | apply keeps_next)
    | extract_lets +onlyGivenNames x | intro x hx | intro x

end Sys2Proof.Machine
end

