-- ==== Sys2Proof/Laws/KeepsCores.lean ====
section
/-! SUPPORT. Every operation of Machine/Cores.lean leaves the queue, true time and the canonical form of memory and registers alone. -/

namespace Sys2Proof.Machine

theorem keeps_onCore {r s : State} (h : Keeps r s) (q : Nat) (f : Core → Core) :
    Keeps r (State.onCore s q f) := by
  unfold State.onCore
  repeat' with_reducible first
    | assumption | apply keeps_setCore | apply keeps_ite

theorem keeps_regOp {r s : State} (h : Keeps r s) (q : Nat) (gd : Nat) (f : Core → Word) :
    Keeps r (State.regOp s q gd f) := by
  unfold State.regOp
  repeat' with_reducible first
    | assumption | apply keeps_onCore

theorem keeps_branchIf {r s : State} (h : Keeps r s) (q : Nat) (off : BitVec 16) (f : Core → Bool) :
    Keeps r (State.branchIf s q off f) := by
  unfold State.branchIf
  repeat' with_reducible first
    | assumption | apply keeps_onCore | apply keeps_ite | (apply keeps_mk; assumption)

theorem keeps_illegal {r s : State} (h : Keeps r s) (q : Nat) :
    Keeps r (State.illegal s q) := by
  unfold State.illegal
  repeat' with_reducible first
    | assumption | apply keeps_exception

theorem keeps_execAddi {r s : State} (h : Keeps r s) (q : Fin 2) (gd : Fin 32) (ga : Fin 32) (imm : BitVec 16) :
    KeepsO r (execAddi q gd ga imm s) := by
  unfold execAddi
  repeat' with_reducible first
    | assumption | apply keeps_regOp | apply keeps_next

theorem keeps_execAndi {r s : State} (h : Keeps r s) (q : Fin 2) (gd : Fin 32) (ga : Fin 32) (imm : BitVec 16) :
    KeepsO r (execAndi q gd ga imm s) := by
  unfold execAndi
  repeat' with_reducible first
    | assumption | apply keeps_regOp | apply keeps_next

theorem keeps_execOri {r s : State} (h : Keeps r s) (q : Fin 2) (gd : Fin 32) (ga : Fin 32) (imm : BitVec 16) :
    KeepsO r (execOri q gd ga imm s) := by
  unfold execOri
  repeat' with_reducible first
    | assumption | apply keeps_regOp | apply keeps_next

theorem keeps_execXori {r s : State} (h : Keeps r s) (q : Fin 2) (gd : Fin 32) (ga : Fin 32) (imm : BitVec 16) :
    KeepsO r (execXori q gd ga imm s) := by
  unfold execXori
  repeat' with_reducible first
    | assumption | apply keeps_regOp | apply keeps_next

theorem keeps_execSlti {r s : State} (h : Keeps r s) (q : Fin 2) (gd : Fin 32) (ga : Fin 32) (imm : BitVec 16) :
    KeepsO r (execSlti q gd ga imm s) := by
  unfold execSlti
  repeat' with_reducible first
    | assumption | apply keeps_regOp | apply keeps_next

theorem keeps_execShi {r s : State} (h : Keeps r s) (q : Fin 2) (gd : Fin 32) (ga : Fin 32) (imm : BitVec 16) :
    KeepsO r (execShi q gd ga imm s) := by
  unfold execShi
  repeat' first
    | (with_reducible first
        | assumption | apply keeps_regOp | apply keeps_illegal | refine keeps_fst ?_ (by assumption) | apply keeps_ite | apply keeps_next)
    | extract_lets +onlyGivenNames x | intro x hx | intro x | split

theorem keeps_execLui {r s : State} (h : Keeps r s) (q : Fin 2) (gd : Fin 32) (imm : BitVec 16) :
    KeepsO r (execLui q gd imm s) := by
  unfold execLui
  repeat' with_reducible first
    | assumption | apply keeps_regOp | apply keeps_next

theorem keeps_execAdd {r s : State} (h : Keeps r s) (q : Fin 2) (gd : Fin 32) (ga : Fin 32) (gb : Fin 32) :
    KeepsO r (execAdd q gd ga gb s) := by
  unfold execAdd
  repeat' with_reducible first
    | assumption | apply keeps_regOp | apply keeps_next

theorem keeps_execSub {r s : State} (h : Keeps r s) (q : Fin 2) (gd : Fin 32) (ga : Fin 32) (gb : Fin 32) :
    KeepsO r (execSub q gd ga gb s) := by
  unfold execSub
  repeat' with_reducible first
    | assumption | apply keeps_regOp | apply keeps_next

theorem keeps_execAnd {r s : State} (h : Keeps r s) (q : Fin 2) (gd : Fin 32) (ga : Fin 32) (gb : Fin 32) :
    KeepsO r (execAnd q gd ga gb s) := by
  unfold execAnd
  repeat' with_reducible first
    | assumption | apply keeps_regOp | apply keeps_next

theorem keeps_execOr {r s : State} (h : Keeps r s) (q : Fin 2) (gd : Fin 32) (ga : Fin 32) (gb : Fin 32) :
    KeepsO r (execOr q gd ga gb s) := by
  unfold execOr
  repeat' with_reducible first
    | assumption | apply keeps_regOp | apply keeps_next

theorem keeps_execXor {r s : State} (h : Keeps r s) (q : Fin 2) (gd : Fin 32) (ga : Fin 32) (gb : Fin 32) :
    KeepsO r (execXor q gd ga gb s) := by
  unfold execXor
  repeat' with_reducible first
    | assumption | apply keeps_regOp | apply keeps_next

theorem keeps_execSll {r s : State} (h : Keeps r s) (q : Fin 2) (gd : Fin 32) (ga : Fin 32) (gb : Fin 32) :
    KeepsO r (execSll q gd ga gb s) := by
  unfold execSll
  repeat' with_reducible first
    | assumption | apply keeps_regOp | apply keeps_next

theorem keeps_execSrl {r s : State} (h : Keeps r s) (q : Fin 2) (gd : Fin 32) (ga : Fin 32) (gb : Fin 32) :
    KeepsO r (execSrl q gd ga gb s) := by
  unfold execSrl
  repeat' with_reducible first
    | assumption | apply keeps_regOp | apply keeps_next

theorem keeps_execSra {r s : State} (h : Keeps r s) (q : Fin 2) (gd : Fin 32) (ga : Fin 32) (gb : Fin 32) :
    KeepsO r (execSra q gd ga gb s) := by
  unfold execSra
  repeat' with_reducible first
    | assumption | apply keeps_regOp | apply keeps_next

theorem keeps_execSlt {r s : State} (h : Keeps r s) (q : Fin 2) (gd : Fin 32) (ga : Fin 32) (gb : Fin 32) :
    KeepsO r (execSlt q gd ga gb s) := by
  unfold execSlt
  repeat' with_reducible first
    | assumption | apply keeps_regOp | apply keeps_next

theorem keeps_execSltu {r s : State} (h : Keeps r s) (q : Fin 2) (gd : Fin 32) (ga : Fin 32) (gb : Fin 32) :
    KeepsO r (execSltu q gd ga gb s) := by
  unfold execSltu
  repeat' with_reducible first
    | assumption | apply keeps_regOp | apply keeps_next

theorem keeps_execMul {r s : State} (h : Keeps r s) (q : Fin 2) (gd : Fin 32) (ga : Fin 32) (gb : Fin 32) :
    KeepsO r (execMul q gd ga gb s) := by
  unfold execMul
  repeat' with_reducible first
    | assumption | apply keeps_regOp | apply keeps_next

theorem keeps_execMulhu {r s : State} (h : Keeps r s) (q : Fin 2) (gd : Fin 32) (ga : Fin 32) (gb : Fin 32) :
    KeepsO r (execMulhu q gd ga gb s) := by
  unfold execMulhu
  repeat' with_reducible first
    | assumption | apply keeps_regOp | apply keeps_next

theorem keeps_execDivu {r s : State} (h : Keeps r s) (q : Fin 2) (gd : Fin 32) (ga : Fin 32) (gb : Fin 32) :
    KeepsO r (execDivu q gd ga gb s) := by
  unfold execDivu
  repeat' with_reducible first
    | assumption | apply keeps_regOp | apply keeps_next

theorem keeps_execRemu {r s : State} (h : Keeps r s) (q : Fin 2) (gd : Fin 32) (ga : Fin 32) (gb : Fin 32) :
    KeepsO r (execRemu q gd ga gb s) := by
  unfold execRemu
  repeat' with_reducible first
    | assumption | apply keeps_regOp | apply keeps_next

theorem keeps_execBeq {r s : State} (h : Keeps r s) (q : Fin 2) (ga : Fin 32) (gb : Fin 32) (off : BitVec 16) :
    KeepsO r (execBeq q ga gb off s) := by
  unfold execBeq
  repeat' with_reducible first
    | assumption | apply keeps_branchIf | apply keeps_next

theorem keeps_execBne {r s : State} (h : Keeps r s) (q : Fin 2) (ga : Fin 32) (gb : Fin 32) (off : BitVec 16) :
    KeepsO r (execBne q ga gb off s) := by
  unfold execBne
  repeat' with_reducible first
    | assumption | apply keeps_branchIf | apply keeps_next

theorem keeps_execBlt {r s : State} (h : Keeps r s) (q : Fin 2) (ga : Fin 32) (gb : Fin 32) (off : BitVec 16) :
    KeepsO r (execBlt q ga gb off s) := by
  unfold execBlt
  repeat' with_reducible first
    | assumption | apply keeps_branchIf | apply keeps_next

theorem keeps_execBge {r s : State} (h : Keeps r s) (q : Fin 2) (ga : Fin 32) (gb : Fin 32) (off : BitVec 16) :
    KeepsO r (execBge q ga gb off s) := by
  unfold execBge
  repeat' with_reducible first
    | assumption | apply keeps_branchIf | apply keeps_next

theorem keeps_execBltu {r s : State} (h : Keeps r s) (q : Fin 2) (ga : Fin 32) (gb : Fin 32) (off : BitVec 16) :
    KeepsO r (execBltu q ga gb off s) := by
  unfold execBltu
  repeat' with_reducible first
    | assumption | apply keeps_branchIf | apply keeps_next

theorem keeps_execBgeu {r s : State} (h : Keeps r s) (q : Fin 2) (ga : Fin 32) (gb : Fin 32) (off : BitVec 16) :
    KeepsO r (execBgeu q ga gb off s) := by
  unfold execBgeu
  repeat' with_reducible first
    | assumption | apply keeps_branchIf | apply keeps_next

theorem keeps_execJal {r s : State} (h : Keeps r s) (q : Fin 2) (off : BitVec 26) :
    KeepsO r (execJal q off s) := by
  unfold execJal
  repeat' with_reducible first
    | assumption | apply keeps_onCore | apply keeps_next | (apply keeps_mk; assumption)

theorem keeps_execJalr {r s : State} (h : Keeps r s) (q : Fin 2) (gd : Fin 32) (ga : Fin 32) (imm : BitVec 16) :
    KeepsO r (execJalr q gd ga imm s) := by
  unfold execJalr
  repeat' with_reducible first
    | assumption | apply keeps_onCore | apply keeps_next | (apply keeps_mk; assumption)

theorem keeps_beforeAccess {r s t : State} (h : Keeps r s) {q tgt : Nat} (e : s.beforeAccess q tgt = some t) : Keeps r t := by
  unfold State.beforeAccess at e
  dsimp only at e
  split at e
  · rw [← Option.some.inj e]
    exact keeps_settle h _ _
  · cases e

theorem keeps_checkResponse {r s : State} (h : Keeps r s) (q : Nat) (a : Word) :
    Keeps r (State.checkResponse s q a) := by
  unfold State.checkResponse
  repeat' with_reducible first
    | assumption | apply keeps_exception | apply keeps_ite

theorem keeps_aligned {r s : State} (h : Keeps r s) (q : Nat) (ga : Nat) (imm : BitVec 16) (n : Nat) (f : State → Word → State) (hf : ∀ x,
    Keeps r x → ∀ v, Keeps r (f x v)) :
    Keeps r (State.aligned s q ga imm n f) := by
  unfold State.aligned
  repeat' first
    | (with_reducible first
        | assumption | apply keeps_exception | apply keeps_settle | apply keeps_ite)
    | refine keeps_beforeAccess ?_ (by assumption) | apply hf | extract_lets +onlyGivenNames x | intro x | split

theorem keeps_load {r s : State} (h : Keeps r s) (q : Nat) (gd : Nat) (ga : Nat) (imm : BitVec 16) (n : Nat) (ext : Nat → Word) :
    Keeps r (State.load s q gd ga imm n ext) := by
  unfold State.load
  repeat' first
    | (with_reducible first
        | assumption | apply keeps_aligned | apply keeps_busRead | apply keeps_regOp | apply keeps_checkResponse
        | refine keeps_fst ?_ (by assumption) | apply keeps_ite)
    | extract_lets +onlyGivenNames x | intro x hx | intro x

theorem keeps_store {r s : State} (h : Keeps r s) (q : Nat) (gs : Nat) (ga : Nat) (imm : BitVec 16) (n : Nat) :
    Keeps r (State.store s q gs ga imm n) := by
  unfold State.store
  repeat' first
    | (with_reducible first
        | assumption | apply keeps_aligned | apply keeps_setCore | apply keeps_busWrite | apply keeps_checkResponse)
    | extract_lets +onlyGivenNames x | intro x hx | intro x

theorem keeps_execLw {r s : State} (h : Keeps r s) (q : Fin 2) (gd : Fin 32) (ga : Fin 32) (imm : BitVec 16) :
    KeepsO r (execLw q gd ga imm s) := by
  unfold execLw
  repeat' with_reducible first
    | assumption | apply keeps_load | apply keeps_next

theorem keeps_execLh {r s : State} (h : Keeps r s) (q : Fin 2) (gd : Fin 32) (ga : Fin 32) (imm : BitVec 16) :
    KeepsO r (execLh q gd ga imm s) := by
  unfold execLh
  repeat' with_reducible first
    | assumption | apply keeps_load | apply keeps_next

theorem keeps_execLhu {r s : State} (h : Keeps r s) (q : Fin 2) (gd : Fin 32) (ga : Fin 32) (imm : BitVec 16) :
    KeepsO r (execLhu q gd ga imm s) := by
  unfold execLhu
  repeat' with_reducible first
    | assumption | apply keeps_load | apply keeps_next

theorem keeps_execLb {r s : State} (h : Keeps r s) (q : Fin 2) (gd : Fin 32) (ga : Fin 32) (imm : BitVec 16) :
    KeepsO r (execLb q gd ga imm s) := by
  unfold execLb
  repeat' with_reducible first
    | assumption | apply keeps_load | apply keeps_next

theorem keeps_execLbu {r s : State} (h : Keeps r s) (q : Fin 2) (gd : Fin 32) (ga : Fin 32) (imm : BitVec 16) :
    KeepsO r (execLbu q gd ga imm s) := by
  unfold execLbu
  repeat' with_reducible first
    | assumption | apply keeps_load | apply keeps_next

theorem keeps_execSw {r s : State} (h : Keeps r s) (q : Fin 2) (gs : Fin 32) (ga : Fin 32) (imm : BitVec 16) :
    KeepsO r (execSw q gs ga imm s) := by
  unfold execSw
  repeat' with_reducible first
    | assumption | apply keeps_store | apply keeps_next

theorem keeps_execSh {r s : State} (h : Keeps r s) (q : Fin 2) (gs : Fin 32) (ga : Fin 32) (imm : BitVec 16) :
    KeepsO r (execSh q gs ga imm s) := by
  unfold execSh
  repeat' with_reducible first
    | assumption | apply keeps_store | apply keeps_next

theorem keeps_execSb {r s : State} (h : Keeps r s) (q : Fin 2) (gs : Fin 32) (ga : Fin 32) (imm : BitVec 16) :
    KeepsO r (execSb q gs ga imm s) := by
  unfold execSb
  repeat' with_reducible first
    | assumption | apply keeps_store | apply keeps_next

theorem keeps_amo {r s : State} (h : Keeps r s) (q : Nat) (gd : Nat) (ga : Nat) (gb : Nat) (f : Word → Word → Word) :
    Keeps r (State.amo s q gd ga gb f) := by
  unfold State.amo
  repeat' first
    | (with_reducible first
        | assumption | apply keeps_aligned | apply keeps_exception | apply keeps_busWrite | apply keeps_regOp | apply keeps_checkResponse
        | apply keeps_ite)
    | extract_lets +onlyGivenNames x | intro x hx | intro x

theorem keeps_execAmoSwap {r s : State} (h : Keeps r s) (q : Fin 2) (gd : Fin 32) (ga : Fin 32) (gb : Fin 32) :
    KeepsO r (execAmoSwap q gd ga gb s) := by
  unfold execAmoSwap
  repeat' with_reducible first
    | assumption | apply keeps_amo | apply keeps_next

theorem keeps_execAmoAdd {r s : State} (h : Keeps r s) (q : Fin 2) (gd : Fin 32) (ga : Fin 32) (gb : Fin 32) :
    KeepsO r (execAmoAdd q gd ga gb s) := by
  unfold execAmoAdd
  repeat' with_reducible first
    | assumption | apply keeps_amo | apply keeps_next

theorem keeps_execAmoAnd {r s : State} (h : Keeps r s) (q : Fin 2) (gd : Fin 32) (ga : Fin 32) (gb : Fin 32) :
    KeepsO r (execAmoAnd q gd ga gb s) := by
  unfold execAmoAnd
  repeat' with_reducible first
    | assumption | apply keeps_amo | apply keeps_next

theorem keeps_execAmoOr {r s : State} (h : Keeps r s) (q : Fin 2) (gd : Fin 32) (ga : Fin 32) (gb : Fin 32) :
    KeepsO r (execAmoOr q gd ga gb s) := by
  unfold execAmoOr
  repeat' with_reducible first
    | assumption | apply keeps_amo | apply keeps_next

theorem keeps_waitL {r s : State} (h : Keeps r s) (q : Nat) (next : Nat) :
    Keeps r (State.waitL s q next) := by
  unfold State.waitL
  repeat' with_reducible first
    | assumption | apply keeps_setCore | apply keeps_releaseL | apply keeps_ite | (apply keeps_mk; assumption)

theorem keeps_execDone {r s : State} (h : Keeps r s) (q : Fin 2) :
    KeepsO r (execDone q s) := by
  unfold execDone
  repeat' with_reducible first
    | assumption | apply keeps_waitL | apply keeps_next

theorem keeps_execFenceL {r s : State} (h : Keeps r s) (q : Fin 2) :
    KeepsO r (execFenceL q s) := by
  unfold execFenceL
  repeat' with_reducible first
    | assumption | apply keeps_waitL | apply keeps_next

theorem keeps_execFenceG {r s : State} (h : Keeps r s) (q : Fin 2) :
    KeepsO r (execFenceG q s) := by
  unfold execFenceG
  repeat' with_reducible first
    | assumption | apply keeps_setCore | apply keeps_requestFence | apply keeps_ite | apply keeps_next | (apply keeps_mk; assumption)

theorem keeps_execRditc {r s : State} (h : Keeps r s) (q : Fin 2) (gd : Fin 32) :
    KeepsO r (execRditc q gd s) := by
  unfold execRditc
  repeat' with_reducible first
    | assumption | apply keeps_onCore | apply keeps_next | (apply keeps_mk; assumption)

theorem keeps_execRditch {r s : State} (h : Keeps r s) (q : Fin 2) (gd : Fin 32) :
    KeepsO r (execRditch q gd s) := by
  unfold execRditch
  repeat' with_reducible first
    | assumption | apply keeps_regOp | apply keeps_next

theorem keeps_execRaise {r s : State} (h : Keeps r s) (q : Fin 2) (ga : Fin 32) (gb : Fin 32) :
    KeepsO r (execRaise q ga gb s) := by
  unfold execRaise
  repeat' with_reducible first
    | assumption | apply keeps_setCore | apply keeps_raise | apply keeps_ite | apply keeps_next

theorem keeps_execReady {r s : State} (h : Keeps r s) (q : Fin 2) :
    KeepsO r (execReady q s) := by
  unfold execReady
  repeat' with_reducible first
    | assumption | apply keeps_waitL | apply keeps_next

theorem keeps_execTaskAbort {r s : State} (h : Keeps r s) (q : Fin 2) (cause : AbortCause) (addr : Word) :
    KeepsO r (execTaskAbort q cause addr s) := by
  unfold execTaskAbort
  repeat' with_reducible first
    | assumption | apply keeps_exception | apply keeps_illegal | apply keeps_ite | apply keeps_next

end Sys2Proof.Machine
end

