-- ==== Sys2Proof/Laws/KeepsMatrix.lean ====
section
/-! SUPPORT. Every operation of Machine/Matrix.lean leaves the queue, true time and the canonical form of memory and registers alone. -/

namespace Sys2Proof.Machine

theorem keeps_grantOrder {r s : State} (h : Keeps r s) (n : Nat) (l : List Req) : Keeps r (s.grantOrder n l).1 := by
  induction n generalizing s l with
  | zero => exact h
  | succ n ih => cases l with
    | nil => exact h
    | cons x l => exact ih (keeps_movePointer h _ _) _

theorem keeps_mergePair {r s : State} (h : Keeps r s) (r0 : Req) (x : Req) :
    Keeps r (State.mergePair s r0 x).1 := by
  unfold State.mergePair
  repeat' first
    | (with_reducible first
        | assumption | apply keeps_raise | apply keeps_count | refine keeps_fst ?_ (by assumption) | apply keeps_ite)
    | extract_lets +onlyGivenNames x | intro x | split

theorem keeps_mergeReqs {r s : State} (h : Keeps r s) (n : Nat) (l : List Req) : Keeps r (s.mergeReqs n l).1 := by
  induction n generalizing s l with
  | zero => exact h
  | succ n ih => cases l with
    | nil => exact h
    | cons x l =>
      unfold State.mergeReqs
      split
      · exact ih h _
      · exact ih (keeps_mergePair h _ _) _

theorem keeps_answerAtOnce {r s : State} (h : Keeps r s) (r0 : Req) :
    Keeps r (State.answerAtOnce s r0) := by
  unfold State.answerAtOnce
  repeat' with_reducible first
    | assumption | apply keeps_respond | apply keeps_logAccess | apply keeps_exception | apply keeps_ite

theorem keeps_takeRequest {r s : State} (h : Keeps r s) (r0 : Req) :
    Keeps r (State.takeRequest s r0) := by
  unfold State.takeRequest
  repeat' with_reducible first
    | assumption | apply keeps_setMtx | apply keeps_accept | apply keeps_ite | (apply keeps_mk; assumption)

theorem keeps_execMatrixRequest {r s : State} (h : Keeps r s) (reqs : List Req) :
    KeepsO r (execMatrixRequest reqs s) := by
  unfold execMatrixRequest
  repeat' first
    | (with_reducible first
        | assumption | apply keeps_each | apply keeps_bridgeError | apply keeps_answerAtOnce | apply keeps_grantOrder
        | apply keeps_mergeReqs | apply keeps_takeRequest | refine keeps_fst ?_ (by assumption) | apply keeps_ite | apply keeps_next)
    | extract_lets +onlyGivenNames x | intro x hx | intro x

theorem keeps_answerBeat {r s : State} (h : Keeps r s) (k : Nat) (t0 : Txn) :
    Keeps r (State.answerBeat s k t0) := by
  unfold State.answerBeat
  repeat' first
    | (with_reducible first
        | assumption | apply keeps_performBeat | apply keeps_release | apply keeps_setTxn | apply keeps_respond | apply keeps_logAccess
        | apply keeps_exception | refine keeps_fst ?_ (by assumption) | apply keeps_ite
        | (apply keeps_mk; first | assumption | apply keeps_performBeat | apply keeps_release | apply keeps_setTxn | apply keeps_respond | apply keeps_logAccess | apply keeps_exception | apply keeps_ite))
    | (extract_lets +onlyGivenNames x; refine (have hx : Keeps r x := ?_; ?_); (on_goal 1 => subst x); (on_goal 2 => clear_value x))
    | extract_lets +onlyGivenNames x | intro x hx | intro x | split

theorem keeps_execMatrixResponse {r s : State} (h : Keeps r s) (k : Fin 98) :
    KeepsO r (execMatrixResponse k s) := by
  unfold execMatrixResponse
  repeat' first
    | (with_reducible first
        | assumption | apply keeps_settle | apply keeps_answerBeat | apply keeps_releaseCores | apply keeps_dispatch
        | refine keeps_fst ?_ (by assumption) | apply keeps_next)
    | extract_lets +onlyGivenNames x | intro x hx | intro x | split

theorem keeps_execLateResponse {r s : State} (h : Keeps r s) (target : Fin 7) (tag : Fin 128) :
    KeepsO r (execLateResponse target tag s) := by
  unfold execLateResponse
  repeat' with_reducible first
    | assumption | apply keeps_decideLate | apply keeps_count | apply keeps_raise | apply keeps_ite | apply keeps_next

theorem keeps_execMasterPortReset {r s : State} (h : Keeps r s) (port : Fin 8) :
    KeepsO r (execMasterPortReset port s) := by
  unfold execMasterPortReset
  repeat' with_reducible first
    | assumption | apply keeps_resetPort | apply keeps_ite | apply keeps_next

end Sys2Proof.Machine
end

