-- ==== Sys2Proof/Laws/KeepsLadder.lean ====
section
/-! SUPPORT. Every operation of Machine/Ladder.lean leaves the queue, true time and the canonical form of memory and registers alone. -/

namespace Sys2Proof.Machine

theorem keeps_tellMaster {r s : State} (h : Keeps r s) (r0 : Req) (code : Nat) :
    Keeps r (State.tellMaster s r0 code) := by
  unfold State.tellMaster
  repeat' with_reducible first
    | assumption | apply keeps_exception | apply keeps_bridgeError | apply keeps_ite

theorem keeps_dropMatrix {r s : State} (h : Keeps r s) :
    Keeps r (State.dropMatrix s) := by
  unfold State.dropMatrix
  repeat' first
    | (with_reducible first
        | assumption | apply keeps_setMtx | apply keeps_each | apply keeps_tellMaster | (apply keeps_mk; assumption))
    | extract_lets +onlyGivenNames x | intro x hx | intro x

theorem keeps_stopBlock {r s : State} (h : Keeps r s) (i : Nat) :
    Keeps r (State.stopBlock s i) := by
  unfold State.stopBlock
  repeat' with_reducible first
    | assumption | apply keeps_stopIslands | apply keeps_dropMatrix | apply keeps_setFld | apply keeps_updateLaser
    | apply keeps_updateDriven | apply keeps_each | apply keeps_facReset | apply keeps_resync | apply keeps_setFlag
    | apply keeps_updateHitless | apply keeps_checkFence | apply keeps_releaseCores | apply keeps_ite

theorem keeps_startBlock {r s : State} (h : Keeps r s) (i : Nat) :
    Keeps r (State.startBlock s i) := by
  unfold State.startBlock
  repeat' first
    | (with_reducible first
        | assumption | apply keeps_bootLine | apply keeps_each | apply keeps_startTrib | apply keeps_emptyBuffer | apply keeps_startFlow
        | apply keeps_startTiming | apply keeps_facAssigned | apply keeps_ite | (apply keeps_mk; assumption))
    | extract_lets +onlyGivenNames x | intro x hx | intro x

theorem keeps_discardRetention {r s : State} (h : Keeps r s) :
    Keeps r (State.discardRetention s) := by
  unfold State.discardRetention
  repeat' first
    | (with_reducible first
        | assumption | apply keeps_zero | apply keeps_readModel | (apply keeps_mk; assumption)
        | (apply keeps_mk; first | assumption | apply keeps_zero | apply keeps_readModel))
    | extract_lets +onlyGivenNames x | intro x

theorem keeps_restartRetention {r s : State} (h : Keeps r s) :
    Keeps r (State.restartRetention s) := by
  unfold State.restartRetention
  repeat' with_reducible first
    | assumption | apply keeps_placeOwn | apply keeps_ite

theorem keeps_loseIsland {r s : State} (h : Keeps r s) (i : Nat) :
    Keeps r (State.loseIsland s i) := by
  unfold State.loseIsland
  repeat' with_reducible first
    | assumption | apply keeps_safeEntry | apply keeps_limpFault | apply keeps_ite

theorem keeps_fireL5 {r s : State} (h : Keeps r s) (i : Nat) :
    Keeps r (State.fireL5 s i) := by
  unfold State.fireL5
  repeat' with_reducible first
    | assumption | apply keeps_ladder | apply keeps_noteFiring | apply keeps_discardRetention | apply keeps_stopBlock
    | apply keeps_safeEntry | apply keeps_pairOut | apply keeps_escalate | apply keeps_setFlag | apply keeps_loseIsland | apply keeps_ite

theorem keeps_execL5Timeout {r s : State} (h : Keeps r s) (i : Fin 24) :
    KeepsO r (execL5Timeout i s) := by
  unfold execL5Timeout
  repeat' with_reducible first
    | assumption | apply keeps_fireL5 | apply keeps_ite | apply keeps_next

theorem keeps_execIslandReset {r s : State} (h : Keeps r s) (i : Fin 24) (enter : Bool) :
    KeepsO r (execIslandReset i enter s) := by
  unfold execIslandReset
  repeat' with_reducible first
    | assumption | apply keeps_enter | apply keeps_pairOut | apply keeps_stopBlock | apply keeps_clearGates | apply keeps_setIslands
    | apply keeps_restartRetention | apply keeps_startLoader | apply keeps_startBlock | apply keeps_ite | apply keeps_next

theorem keeps_failTxn {r s : State} (h : Keeps r s) (k : Nat) (code : Nat) (gate : Nat) :
    Keeps r (State.failTxn s k code gate) := by
  unfold State.failTxn
  repeat' first
    | (with_reducible first
        | assumption | apply keeps_endTxn | apply keeps_exception | apply keeps_releaseCores | apply keeps_dispatch
        | refine keeps_fst ?_ (by assumption) | apply keeps_ite)
    | extract_lets +onlyGivenNames x | intro x hx | intro x | split

theorem keeps_discardWord {r s : State} (h : Keeps r s) (g : Nat) :
    Keeps r (State.discardWord s g) := by
  unfold State.discardWord
  repeat' first
    | (with_reducible first
        | assumption | apply keeps_useFree | apply keeps_failTxn | refine keeps_fst ?_ (by assumption) | apply keeps_ite
        | (apply keeps_mk; assumption)
        | (apply keeps_mk; first | assumption | apply keeps_useFree | apply keeps_failTxn | apply keeps_ite))
    | extract_lets +onlyGivenNames x | intro x | split

theorem keeps_execL1Timeout {r s : State} (h : Keeps r s) (g : Fin 61) (awaitedHigh : Bool) :
    KeepsO r (execL1Timeout g awaitedHigh s) := by
  unfold execL1Timeout
  repeat' with_reducible first
    | assumption | apply keeps_count | apply keeps_setFld | apply keeps_ladder | apply keeps_noteFiring | apply keeps_discardWord
    | apply keeps_escalate | apply keeps_fireL5 | apply keeps_ite | apply keeps_next

theorem keeps_execL2Timeout {r s : State} (h : Keeps r s) (k : Fin 98) :
    KeepsO r (execL2Timeout k s) := by
  unfold execL2Timeout
  repeat' first
    | (with_reducible first
        | assumption | apply keeps_setMtx | apply keeps_ladder | apply keeps_noteFiring | apply keeps_failTxn | apply keeps_escalate
        | apply keeps_fireL5 | refine keeps_fst ?_ (by assumption) | apply keeps_ite | apply keeps_next | (apply keeps_mk; assumption))
    | extract_lets +onlyGivenNames x | intro x hx | intro x | split

theorem keeps_execL6Timeout {r s : State} (h : Keeps r s) :
    KeepsO r (execL6Timeout s) := by
  unfold execL6Timeout
  repeat' with_reducible first
    | assumption | apply keeps_ladder | apply keeps_linkFall | apply keeps_ite | apply keeps_next

end Sys2Proof.Machine
end

