-- ==== Sys2Proof/Laws/KeepsLoader.lean ====
section
/-! SUPPORT. Every operation of Machine/Loader.lean leaves the queue, true time and the canonical form of memory and registers alone. -/

namespace Sys2Proof.Machine

theorem keeps_beginStep {r s : State} (h : Keeps r s) (k : Nat) :
    Keeps r (State.beginStep s k) := by
  unfold State.beginStep
  repeat' first
    | (with_reducible first
        | assumption | apply keeps_setReg | apply keeps_setFld | apply keeps_ite | (apply keeps_mk; assumption)
        | (apply keeps_mk; first | assumption | apply keeps_setReg | apply keeps_setFld | apply keeps_ite))
    | extract_lets +onlyGivenNames x | intro x

theorem keeps_failSlot {r s : State} (h : Keeps r s) (code : Nat) (sec : Nat) :
    Keeps r (State.failSlot s code sec) := by
  unfold State.failSlot
  repeat' first
    | (with_reducible first
        | assumption | refine keeps_fst ?_ (by assumption) | (apply keeps_mk; assumption))
    | extract_lets +onlyGivenNames x | intro x | split

theorem keeps_readSlot {r s : State} (h : Keeps r s) (bs : List Byte) :
    Keeps r (State.readSlot s bs) := by
  unfold State.readSlot
  repeat' with_reducible first
    | assumption | apply keeps_setReg | apply keeps_setFlag | apply keeps_count | (apply keeps_mk; assumption)

theorem keeps_execBootRomSelfCheck {r s : State} (h : Keeps r s) (crcOk : Bool) :
    KeepsO r (execBootRomSelfCheck crcOk s) := by
  unfold execBootRomSelfCheck
  repeat' with_reducible first
    | assumption | apply keeps_ite | apply keeps_next | (apply keeps_mk; assumption)

theorem keeps_execNorDiscovery {r s : State} (h : Keeps r s) (jedec : BitVec 24) (sfdp : Option Sfdp) :
    KeepsO r (execNorDiscovery jedec sfdp s) := by
  unfold execNorDiscovery
  repeat' first
    | (with_reducible first
        | assumption | apply keeps_beginStep | apply keeps_setReg | apply keeps_setFld | apply keeps_setFlag | apply keeps_raise
        | refine keeps_fst ?_ (by assumption) | apply keeps_ite | apply keeps_next | (apply keeps_mk; assumption)
        | (apply keeps_mk; first | assumption | apply keeps_beginStep | apply keeps_setReg | apply keeps_setFld | apply keeps_setFlag | apply keeps_raise | apply keeps_ite))
    | extract_lets +onlyGivenNames x | intro x | split

theorem keeps_slotClock {r s : State} (h : Keeps r s) (bs : List Byte) :
    Keeps r (State.slotClock s bs) := by
  unfold State.slotClock
  repeat' with_reducible first
    | assumption | apply keeps_setFld | apply keeps_ite

theorem keeps_execCatalogHeader {r s : State} (h : Keeps r s) (bytes : List Byte) :
    KeepsO r (execCatalogHeader bytes s) := by
  unfold execCatalogHeader
  repeat' first
    | (with_reducible first
        | assumption | apply keeps_beginStep | apply keeps_slotClock | apply keeps_failSlot | apply keeps_zero | apply keeps_readSlot
        | refine keeps_fst ?_ (by assumption) | apply keeps_ite | apply keeps_next | (apply keeps_mk; assumption)
        | (apply keeps_mk; first | assumption | apply keeps_beginStep | apply keeps_slotClock | apply keeps_failSlot | apply keeps_zero | apply keeps_readSlot | apply keeps_ite))
    | extract_lets +onlyGivenNames x | intro x | split

theorem keeps_stageWords {r s : State} (h : Keeps r s) (sec : Nat) (l : List Staged) : Keeps r (s.stageWords sec l) := by
  induction l generalizing s with
  | nil => exact h
  | cons x l ih =>
    unfold State.stageWords
    split
    · exact keeps_failSlot h _ _
    · exact ih (keeps_mk h ..)

theorem keeps_readBody {r s : State} (h : Keeps r s) (bs : List Byte) :
    Keeps r (State.readBody s bs) := by
  unfold State.readBody
  repeat' with_reducible first
    | assumption | apply keeps_readSlot | (apply keeps_mk; assumption)

theorem keeps_execRegisterLoadRecord {r s : State} (h : Keeps r s) (words : List Word) :
    KeepsO r (execRegisterLoadRecord words s) := by
  unfold execRegisterLoadRecord
  repeat' first
    | (with_reducible first
        | assumption | apply keeps_readBody | apply keeps_failSlot | apply keeps_stageWords | refine keeps_fst ?_ (by assumption)
        | apply keeps_ite | apply keeps_next | (apply keeps_mk; assumption)
        | (apply keeps_mk; first | assumption | apply keeps_readBody | apply keeps_failSlot | apply keeps_stageWords | apply keeps_ite))
    | extract_lets +onlyGivenNames x | intro x hx | intro x | split

theorem keeps_execServiceProgramHead {r s : State} (h : Keeps r s) (words : List Word) :
    KeepsO r (execServiceProgramHead words s) := by
  unfold execServiceProgramHead
  repeat' first
    | (with_reducible first
        | assumption | apply keeps_readBody | apply keeps_failSlot | refine keeps_fst ?_ (by assumption) | apply keeps_ite
        | apply keeps_next | (apply keeps_mk; first | assumption | apply keeps_readBody | apply keeps_failSlot | apply keeps_ite)
        | (apply keeps_mk; apply keeps_mk; first | assumption | apply keeps_readBody | apply keeps_failSlot | apply keeps_ite))
    | extract_lets +onlyGivenNames x | intro x hx | intro x | split

theorem keeps_loadProgram {r s : State} (h : Keeps r s) :
    Keeps r (State.loadProgram s) := by
  unfold State.loadProgram
  repeat' first
    | (with_reducible first
        | assumption | apply keeps_setBytes | refine keeps_fst ?_ (by assumption) | apply keeps_ite)
    | extract_lets +onlyGivenNames x | intro x | split

theorem keeps_execSectionEnd {r s : State} (h : Keeps r s) (rest : List Byte) :
    KeepsO r (execSectionEnd rest s) := by
  unfold execSectionEnd
  repeat' first
    | (with_reducible first
        | assumption | apply keeps_readBody | apply keeps_failSlot | apply keeps_loadProgram | refine keeps_fst ?_ (by assumption)
        | apply keeps_ite | apply keeps_next | (apply keeps_mk; assumption)
        | (apply keeps_mk; first | assumption | apply keeps_readBody | apply keeps_failSlot | apply keeps_loadProgram | apply keeps_ite))
    | extract_lets +onlyGivenNames x | intro x | split

theorem keeps_applyStaged {r s : State} (h : Keeps r s) :
    Keeps r (State.applyStaged s) := by
  unfold State.applyStaged
  repeat' first
    | (with_reducible first
        | assumption | apply keeps_each | apply keeps_setReg)
    | extract_lets +onlyGivenNames x | intro x hx | intro x

theorem keeps_rejectSlot {r s : State} (h : Keeps r s) (code : Nat) (sec : Nat) :
    Keeps r (State.rejectSlot s code sec) := by
  unfold State.rejectSlot
  repeat' first
    | (with_reducible first
        | assumption | apply keeps_zero | apply keeps_setFld | apply keeps_raise | apply keeps_enter | apply keeps_safeEntry
        | apply keeps_ite | (apply keeps_mk; assumption)
        | (apply keeps_mk; first | assumption | apply keeps_zero | apply keeps_setFld | apply keeps_raise | apply keeps_enter | apply keeps_safeEntry | apply keeps_ite))
    | extract_lets +onlyGivenNames x | intro x

theorem keeps_applySlot {r s : State} (h : Keeps r s) :
    Keeps r (State.applySlot s) := by
  unfold State.applySlot
  repeat' first
    | (with_reducible first
        | assumption | apply keeps_setFld | apply keeps_raise | apply keeps_setReg | apply keeps_setIslands | apply keeps_applyStaged
        | apply keeps_setFlag | apply keeps_zero | (apply keeps_mk; assumption)
        | (apply keeps_mk; first | assumption | apply keeps_setFld | apply keeps_raise | apply keeps_setReg | apply keeps_setIslands | apply keeps_applyStaged | apply keeps_setFlag | apply keeps_zero))
    | extract_lets +onlyGivenNames x | intro x

theorem keeps_haltLoader {r s : State} (h : Keeps r s) :
    Keeps r (State.haltLoader s) := by
  unfold State.haltLoader
  repeat' with_reducible first
    | assumption | (apply keeps_mk; assumption)

theorem keeps_judgeSlot {r s : State} (h : Keeps r s) (verdict : Option (Nat × Nat)) :
    Keeps r (State.judgeSlot s verdict) := by
  unfold State.judgeSlot
  repeat' first
    | (with_reducible first
        | assumption | apply keeps_rejectSlot | apply keeps_applyStaged | apply keeps_applySlot | refine keeps_fst ?_ (by assumption)
        | apply keeps_ite)
    | extract_lets +onlyGivenNames x | intro x | split

theorem keeps_checkSlot {r s : State} (h : Keeps r s) (colophon : List Byte) (stalls : CheckStall) :
    Keeps r (State.checkSlot s colophon stalls) := by
  unfold State.checkSlot
  repeat' with_reducible first
    | assumption | apply keeps_enter | apply keeps_beginStep | apply keeps_haltLoader | apply keeps_judgeSlot | apply keeps_ite

theorem keeps_reloadRecord {r s : State} (h : Keeps r s) (r0 : List Byte) :
    Keeps r (State.reloadRecord s r0) := by
  unfold State.reloadRecord
  repeat' with_reducible first
    | assumption | apply keeps_setBytes | apply keeps_ite

theorem keeps_takeArchive {r s : State} (h : Keeps r s) (r0 : List Byte) :
    Keeps r (State.takeArchive s r0) := by
  unfold State.takeArchive
  repeat' first
    | (with_reducible first
        | assumption | apply keeps_each | apply keeps_reloadRecord | apply keeps_setFlag | apply keeps_placeOwn | apply keeps_ite
        | (apply keeps_mk; assumption)
        | (apply keeps_mk; first | assumption | apply keeps_each | apply keeps_reloadRecord | apply keeps_setFlag | apply keeps_placeOwn | apply keeps_ite))
    | extract_lets +onlyGivenNames x | intro x hx | intro x

theorem keeps_execArchiveScan {r s : State} (h : Keeps r s) (heads : List (List Byte)) (records : List (Nat × List Byte)) :
    KeepsO r (execArchiveScan heads records s) := by
  unfold execArchiveScan
  repeat' first
    | (with_reducible first
        | assumption | apply keeps_beginStep | apply keeps_setFld | apply keeps_setFlag | apply keeps_raise | apply keeps_takeArchive
        | refine keeps_fst ?_ (by assumption) | apply keeps_ite | apply keeps_next | (apply keeps_mk; assumption)
        | (apply keeps_mk; first | assumption | apply keeps_beginStep | apply keeps_setFld | apply keeps_setFlag | apply keeps_raise | apply keeps_takeArchive | apply keeps_ite))
    | extract_lets +onlyGivenNames x | intro x | split

theorem keeps_execAccessionResume {r s : State} (h : Keeps r s) :
    KeepsO r (execAccessionResume s) := by
  unfold execAccessionResume
  repeat' with_reducible first
    | assumption | apply keeps_takeOwn | apply keeps_numberQueue | apply keeps_ite | apply keeps_next

end Sys2Proof.Machine
end

