-- ==== Sys2Proof/Laws/KeepsMgmt.lean ====
section
/-! SUPPORT. Every operation of Machine/Mgmt.lean leaves the queue, true time and the canonical form of memory and registers alone. -/

namespace Sys2Proof.Machine

theorem keeps_reply {r s : State} (h : Keeps r s) (l : List Byte) :
    Keeps r (State.reply s l) := by
  unfold State.reply
  repeat' with_reducible first
    | assumption | (apply keeps_mk; assumption)

theorem keeps_bridgeRead {r s : State} (h : Keeps r s) (a : Nat) :
    Keeps r (State.bridgeRead s a).1 := by
  unfold State.bridgeRead
  repeat' with_reducible first
    | assumption | apply keeps_busRead

theorem keeps_execSpiRead {r s : State} (h : Keeps r s) (addr : Word) :
    KeepsO r (execSpiRead addr s) := by
  unfold execSpiRead
  repeat' with_reducible first
    | assumption | apply keeps_bridgeRead | apply keeps_reply | apply keeps_ite | apply keeps_next

theorem keeps_execSpiWrite {r s : State} (h : Keeps r s) (addr : Word) (value : Word) :
    KeepsO r (execSpiWrite addr value s) := by
  unfold execSpiWrite
  repeat' with_reducible first
    | assumption | apply keeps_bridgeWrite | apply keeps_reply | apply keeps_ite | apply keeps_next

theorem keeps_protocolError {r s : State} (h : Keeps r s) (bus : Nat) (kind : Nat) (addr : Word) :
    Keeps r (State.protocolError s bus kind addr) := by
  unfold State.protocolError
  repeat' with_reducible first
    | assumption | apply keeps_raiseFirst

theorem keeps_execSpiBadOpcode {r s : State} (h : Keeps r s) (opcode : Byte) :
    KeepsO r (execSpiBadOpcode opcode s) := by
  unfold execSpiBadOpcode
  repeat' with_reducible first
    | assumption | apply keeps_reply | apply keeps_protocolError | apply keeps_ite | apply keeps_next

theorem keeps_endEarly {r s : State} (h : Keeps r s) (bus : Nat) (addr : Option Word) (issued : Option (Option Word)) :
    Keeps r (State.endEarly s bus addr issued) := by
  unfold State.endEarly
  repeat' first
    | (with_reducible first
        | assumption | apply keeps_bridgeRead | apply keeps_protocolError | apply keeps_bridgeWrite | refine keeps_fst ?_ (by assumption))
    | extract_lets +onlyGivenNames x | intro x | split

theorem keeps_execSpiEarlyEnd {r s : State} (h : Keeps r s) (addr : Option Word) (issued : Option (Option Word)) :
    KeepsO r (execSpiEarlyEnd addr issued s) := by
  unfold execSpiEarlyEnd
  repeat' with_reducible first
    | assumption | apply keeps_endEarly | apply keeps_reply | apply keeps_ite | apply keeps_next

theorem keeps_execI2cRead {r s : State} (h : Keeps r s) (device : BitVec 7) (addr : Word) :
    KeepsO r (execI2cRead device addr s) := by
  unfold execI2cRead
  repeat' with_reducible first
    | assumption | apply keeps_bridgeRead | apply keeps_reply | apply keeps_ite | apply keeps_next

theorem keeps_execI2cWrite {r s : State} (h : Keeps r s) (device : BitVec 7) (addr : Word) (value : Word) :
    KeepsO r (execI2cWrite device addr value s) := by
  unfold execI2cWrite
  repeat' with_reducible first
    | assumption | apply keeps_bridgeWrite | apply keeps_reply | apply keeps_ite | apply keeps_next

theorem keeps_execI2cEarlyEnd {r s : State} (h : Keeps r s) (device : BitVec 7) (addr : Option Word) (issued : Option (Option Word)) :
    KeepsO r (execI2cEarlyEnd device addr issued s) := by
  unfold execI2cEarlyEnd
  repeat' with_reducible first
    | assumption | apply keeps_endEarly | apply keeps_reply | apply keeps_ite | apply keeps_next

theorem keeps_execMgmtUnlockWrite {r s : State} (h : Keeps r s) (value : Word) :
    KeepsO r (execMgmtUnlockWrite value s) := by
  unfold execMgmtUnlockWrite
  repeat' with_reducible first
    | assumption | apply keeps_bridgeWrite | apply keeps_ite | apply keeps_next

theorem keeps_execUnlockWindowExpiry {r s : State} (h : Keeps r s) :
    KeepsO r (execUnlockWindowExpiry s) := by
  unfold execUnlockWindowExpiry
  repeat' with_reducible first
    | assumption | apply keeps_unlockFails | apply keeps_ite | apply keeps_next

theorem keeps_execUnlockBarEnd {r s : State} (h : Keeps r s) :
    KeepsO r (execUnlockBarEnd s) := by
  unfold execUnlockBarEnd
  repeat' with_reducible first
    | assumption | apply keeps_setUnlock | apply keeps_ite | apply keeps_next

theorem keeps_execUnlockTimeout {r s : State} (h : Keeps r s) :
    KeepsO r (execUnlockTimeout s) := by
  unfold execUnlockTimeout
  repeat' with_reducible first
    | assumption | apply keeps_lockBridge | apply keeps_ite | apply keeps_next

end Sys2Proof.Machine
end

