-- ==== Sys2Proof/Laws/KeepsMirror.lean ====
section
/-! SUPPORT. Every operation of Machine/Mirror.lean leaves the queue, true time and the canonical form of memory and registers alone. -/

namespace Sys2Proof.Machine

theorem keeps_applyMirror {r s : State} (h : Keeps r s) (r0 : MirrorRec) :
    Keeps r (State.applyMirror s r0) := by
  unfold State.applyMirror
  repeat' first
    | (with_reducible first
        | assumption | apply keeps_setReg | apply keeps_selectSide | apply keeps_updateTribs | apply keeps_busWrite
        | refine keeps_fst ?_ (by assumption) | apply keeps_ite)
    | extract_lets +onlyGivenNames x | intro x | split

theorem keeps_execMirrorC {r s : State} (h : Keeps r s) (m : MsgHead) (recs : List MirrorRec) :
    KeepsO r (execMirrorC m recs s) := by
  unfold execMirrorC
  repeat' first
    | (with_reducible first
        | assumption | apply keeps_received | apply keeps_each | apply keeps_applyMirror | apply keeps_setFlag | apply keeps_roleEval
        | apply keeps_ite | apply keeps_next)
    | extract_lets +onlyGivenNames x | intro x hx | intro x

end Sys2Proof.Machine
end

