-- ==== Sys2Proof/Laws/KeepsStart.lean ====
section
/-! SUPPORT. Every operation of Machine/Start.lean leaves the queue, true time and the canonical form of memory and registers alone. -/

namespace Sys2Proof.Machine

theorem keeps_startBlocks {r s : State} (h : Keeps r s) :
    Keeps r (State.startBlocks s) := by
  unfold State.startBlocks
  repeat' with_reducible first
    | assumption | apply keeps_each | apply keeps_startBlock

theorem keeps_execSlotChecking {r s : State} (h : Keeps r s) (colophon : List Byte) (stalls : CheckStall) :
    KeepsO r (execSlotChecking colophon stalls s) := by
  unfold execSlotChecking
  repeat' with_reducible first
    | assumption | apply keeps_checkSlot | apply keeps_startBlocks | apply keeps_ite | apply keeps_next

theorem keeps_armTask {r s : State} (h : Keeps r s) (t0 : Nat) :
    Keeps r (State.armTask s t0) := by
  unfold State.armTask
  repeat' with_reducible first
    | assumption | apply keeps_setTaskState | apply keeps_wake | apply keeps_ite

theorem keeps_armCheck {r s : State} (h : Keeps r s) (u : Nat) :
    Keeps r (State.armCheck s u) := by
  unfold State.armCheck
  repeat' with_reducible first
    | assumption | apply keeps_setUnit | apply keeps_setFlag | (apply keeps_mk; assumption)

theorem keeps_releasePair {r s : State} (h : Keeps r s) (q : Nat) :
    Keeps r (State.releasePair s q) := by
  unfold State.releasePair
  repeat' with_reducible first
    | assumption | apply keeps_setIslands | apply keeps_setFld | apply keeps_bootPair | apply keeps_ite

theorem keeps_armModule {r s : State} (h : Keeps r s) :
    Keeps r (State.armModule s) := by
  unfold State.armModule
  repeat' first
    | (with_reducible first
        | assumption | apply keeps_setFlag | apply keeps_raise | apply keeps_enter | apply keeps_each | apply keeps_releasePair
        | apply keeps_armCheck | apply keeps_armTask | apply keeps_beginStep | apply keeps_dispatch | apply keeps_checkReady
        | (apply keeps_mk; assumption)
        | (apply keeps_mk; first | assumption | apply keeps_setFlag | apply keeps_raise | apply keeps_enter | apply keeps_each | apply keeps_releasePair | apply keeps_armCheck | apply keeps_armTask | apply keeps_beginStep | apply keeps_dispatch | apply keeps_checkReady))
    | extract_lets +onlyGivenNames x | intro x hx | intro x

theorem keeps_execArchivePrepare {r s : State} (h : Keeps r s) (eraseOk : Bool) (stalls : Bool) :
    KeepsO r (execArchivePrepare eraseOk stalls s) := by
  unfold execArchivePrepare
  repeat' with_reducible first
    | assumption | apply keeps_setFld | apply keeps_setFlag | apply keeps_raise | apply keeps_beginStep | apply keeps_haltLoader
    | apply keeps_armModule | apply keeps_ite | apply keeps_next

theorem keeps_execNvmWindowAccess {r s : State} (h : Keeps r s) (port : Fin 8) (write : Bool) (addr : Word) :
    KeepsO r (execNvmWindowAccess port write addr s) := by
  unfold execNvmWindowAccess
  repeat' with_reducible first
    | assumption | apply keeps_busRead | apply keeps_bridgeWrite | apply keeps_busWrite | apply keeps_ite | apply keeps_next

end Sys2Proof.Machine
end

