-- ==== Sys2Proof/Laws/StillOps.lean ====
section
/-! SUPPORT. The operations of Machine/Ops.lean that neither store to memory nor move the life cycle leave both alone. -/

namespace Sys2Proof.Machine

/-- What a command that neither stores nor moves the life cycle leaves alone, from state `r` to state `s`: every byte of memory, and the life
cycle state with the causes that SUP_STATE shows. -/
structure Still (r s : State) : Prop where
  mem : s.mem = r.mem
  state : s.reg SUP_STATE = r.reg SUP_STATE
  dormant : s.sp.dormant = r.sp.dormant

/-- `Still` of a command's outcome: of its next state, where it has one. -/
def StillO (r : State) (o : Host.Outcome State Fault Refusal) : Prop := ∀ t, o = .next t → Still r t

theorem still_refl (r : State) : Still r r := ⟨rfl, rfl, rfl⟩

theorem still_trans {r s t : State} (h : Still r s) (g : Still s t) : Still r t :=
  ⟨g.mem.trans h.mem, g.state.trans h.state, g.dormant.trans h.dormant⟩

theorem Still.life {r s : State} (h : Still r s) : s.life = r.life := by
  simp only [State.life, State.fld, h.state, h.dormant]

theorem Still.byte {r s : State} (h : Still r s) (a : Nat) : s.byte a = r.byte a := by
  simp only [State.byte, h.mem]

theorem still_ite {r s t : State} {c : Prop} [Decidable c] (h : Still r s) (g : Still r t) : Still r (if c then s else t) := by
  split <;> assumption

theorem still_next {r s : State} (h : Still r s) : StillO r (.next s) := by
  intro t ht
  cases ht
  exact h

theorem still_fst {α : Type} {r t : State} {p : State × α} {a : α} (h : Still r p.1) (e : p = (t, a)) : Still r t := by
  subst e
  exact h

theorem still_setReg {r s : State} (h : Still r s) (a : Nat) (w : Word) (ha : a ≠ SUP_STATE) : Still r (s.setReg a w) :=
  ⟨h.mem, (reg_setReg_ne s w ha).trans h.state, h.dormant⟩

theorem still_each {r s : State} {α : Type} (h : Still r s) (l : List α) (f : State → α → State)
    (hf : ∀ x, Still r x → ∀ a, Still r (f x a)) : Still r (s.each l f) := by
  unfold State.each
  induction l generalizing s with
  | nil => exact h
  | cons a l ih => exact ih (hf s h a)

theorem still_when {r s : State} (h : Still r s) (c : Bool) (f : State → State) (hf : ∀ x, Still r x → Still r (f x)) :
    Still r (s.when c f) := by
  unfold State.when
  split
  · exact hf s h
  · exact h

theorem still_mk {r s : State} (h : Still r s) {sp : Sup} (hd : sp.dormant = s.sp.dormant) (pending : List Instr) (now : Nat) (free : Nat) (itc : Tbl Clock) (chan : List Ev) (firsts : Tbl Nat) (wins : Tbl Win) (ld : Loader) (mtx : Matrix) (eh : Hub) (inv : Inventory) (mg : Bridge) (tm : Timing) (mirrorQ : List MirrorRec) (lines : Tbl LinePort) (paths : Tbl PathPort) (kept : Tbl Kept) (engines : Tbl Engine) (tribs : Tbl TribPort) (flows : Tbl Flow) (tw : Twin) (msp : Tbl Grp) (lend : Lending) (cores : Tbl Core) (tasks : Tbl Task) (turns : Nat) (chk : Tbl CheckUnit) (wtrs : Tbl Nat) :
    Still r (State.mk pending now free s.regs s.mem itc chan firsts wins sp ld mtx eh inv mg tm mirrorQ lines paths kept engines tribs flows tw msp lend cores tasks turns chk wtrs) :=
  ⟨h.mem, h.state, hd.trans h.dormant⟩

theorem still_raise {r s : State} (h : Still r s) (isl : Nat) (e : Nat) (data : List Word) :
    Still r (State.raise s isl e data) := by
  unfold State.raise
  repeat' with_reducible first
    | assumption | apply still_ite | (apply still_mk <;> first | rfl | assumption)

theorem still_raiseFirst {r s : State} (h : Still r s) (isl : Nat) (e : Nat) (unit : Nat) (data : List Word) :
    Still r (State.raiseFirst s isl e unit data) := by
  unfold State.raiseFirst
  repeat' with_reducible first
    | assumption | apply still_raise | apply still_ite | (apply still_mk <;> first | rfl | assumption)

theorem still_useFree {r s : State} (h : Still r s) :
    Still r (State.useFree s) := by
  unfold State.useFree
  repeat' with_reducible first
    | assumption | apply still_ite | (apply still_mk <;> first | rfl | assumption)

theorem still_mirror {r s : State} (h : Still r s) (a : Nat) (mask : Word) (value : Word) :
    Still r (State.mirror s a mask value) := by
  unfold State.mirror
  repeat' with_reducible first
    | assumption | apply still_ite | (apply still_mk <;> first | rfl | assumption)

theorem still_serviceWrite {r s : State} (h : Still r s) (a : Nat) (mask : Word) (value : Word) (ha : a ≠ SUP_STATE) :
    Still r (State.serviceWrite s a mask value) := by
  unfold State.serviceWrite
  repeat' with_reducible first
    | assumption | apply still_mirror | apply still_setReg

theorem still_setFld {r s : State} (h : Still r s) (a : Nat) (f : Fld) (v : Nat) (ha : a ≠ SUP_STATE) :
    Still r (State.setFld s a f v) := by
  unfold State.setFld
  repeat' with_reducible first
    | assumption | apply still_setReg

theorem still_setFlag {r s : State} (h : Still r s) (a : Nat) (f : Fld) (b : Bool) (ha : a ≠ SUP_STATE) :
    Still r (State.setFlag s a f b) := by
  unfold State.setFlag
  repeat' with_reducible first
    | assumption | apply still_setFld

theorem still_setBitAt {r s : State} (h : Still r s) (a : Nat) (b : Nat) (v : Bool) (ha : a ≠ SUP_STATE) :
    Still r (State.setBitAt s a b v) := by
  unfold State.setBitAt
  repeat' with_reducible first
    | assumption | apply still_setFlag

theorem still_count {r s : State} (h : Still r s) (a : Nat) (n : Nat) (ha : a ≠ SUP_STATE) :
    Still r (State.count s a n) := by
  unfold State.count
  repeat' with_reducible first
    | assumption | apply still_setReg

theorem still_satInc {r s : State} (h : Still r s) (a : Nat) (f : Fld) (m : Nat) (ha : a ≠ SUP_STATE) :
    Still r (State.satInc s a f m) := by
  unfold State.satInc
  repeat' with_reducible first
    | assumption | apply still_setFld

end Sys2Proof.Machine
end

