-- ==== Sys2Proof/Laws/StillAccess.lean ====
section
/-! SUPPORT. The operations of Machine/Access.lean that neither store to memory nor move the life cycle leave both alone. -/

namespace Sys2Proof.Machine

theorem still_errorResponse {r s : State} (h : Still r s) (port : Nat) (tgt : Nat) (code : Nat) (id : Nat) (write : Bool) (addr : Nat) (gate : Nat) :
    Still r (State.errorResponse s port tgt code id write addr gate) := by
  unfold State.errorResponse
  repeat' first
    | (with_reducible first
        | assumption | apply still_setReg | apply still_raise | refine still_fst ?_ (by assumption) | apply still_ite
        | (apply still_mk <;> first | rfl | assumption)
        | (apply still_mk <;> first | rfl | assumption | apply still_setReg | apply still_raise | apply still_ite))
    | decide | (simp only [SUP_STATE, MTX_ERR_LAST, MTX_ERR_ADDR, islMX]; omega) | extract_lets +onlyGivenNames x | intro x | split

theorem still_bridgeError {r s : State} (h : Still r s) (addr : Nat) (code : Nat) (write : Bool) :
    Still r (State.bridgeError s addr code write) := by
  unfold State.bridgeError
  repeat' first
    | (with_reducible first
        | assumption | apply still_setReg | apply still_raiseFirst | (apply still_mk <;> first | rfl | assumption)
        | (apply still_mk <;> first | rfl | assumption | apply still_setReg | apply still_raiseFirst))
    | decide | (simp only [SUP_STATE, EVT_MGMT_REF, EVT_MGMT_REF_CODE, islEH]; omega) | extract_lets +onlyGivenNames x | intro x

theorem still_setMtx {r s : State} (h : Still r s) (x : Matrix) :
    Still r (State.setMtx s x) := by
  unfold State.setMtx
  repeat' first
    | (with_reducible first
        | assumption | (apply still_mk <;> first | rfl | assumption))
    | decide

theorem still_respond {r s : State} (h : Still r s) (code : Nat) :
    Still r (State.respond s code) := by
  unfold State.respond
  repeat' first
    | (with_reducible first
        | assumption | apply still_setMtx | (apply still_mk <;> first | rfl | assumption))
    | decide

theorem still_setTxn {r s : State} (h : Still r s) (k : Nat) (t0 : Txn) :
    Still r (State.setTxn s k t0) := by
  unfold State.setTxn
  repeat' first
    | (with_reducible first
        | assumption | apply still_setMtx | (apply still_mk <;> first | rfl | assumption))
    | decide

theorem still_movePointer {r s : State} (h : Still r s) (tgt : Nat) (port : Nat) :
    Still r (State.movePointer s tgt port) := by
  unfold State.movePointer
  repeat' first
    | (with_reducible first
        | assumption | apply still_setMtx | apply still_ite | (apply still_mk <;> first | rfl | assumption))
    | decide

theorem still_accept {r s : State} (h : Still r s) (r0 : Req) :
    Still r (State.accept s r0) := by
  unfold State.accept
  repeat' first
    | (with_reducible first
        | assumption | apply still_setTxn | apply still_setMtx | (apply still_mk <;> first | rfl | assumption))
    | decide

theorem still_release {r s : State} (h : Still r s) (k : Nat) :
    Still r (State.release s k) := by
  unfold State.release
  repeat' first
    | (with_reducible first
        | assumption | apply still_setMtx | apply still_movePointer | apply still_accept | refine still_fst ?_ (by assumption)
        | (apply still_mk <;> first | rfl | assumption))
    | decide | extract_lets +onlyGivenNames x | intro x hx | intro x | split

theorem still_endTxn {r s : State} (h : Still r s) (k : Nat) (code : Nat) (gate : Nat) :
    Still r (State.endTxn s k code gate) := by
  unfold State.endTxn
  repeat' first
    | (with_reducible first
        | assumption | apply still_release | apply still_errorResponse | apply still_bridgeError | refine still_fst ?_ (by assumption)
        | apply still_ite)
    | decide | extract_lets +onlyGivenNames x | intro x hx | intro x | split

theorem still_offlineTxns {r s : State} (h : Still r s) (l : List Nat) :
    Still r (State.offlineTxns s l) := by
  unfold State.offlineTxns
  repeat' first
    | (with_reducible first
        | assumption | apply still_each | apply still_endTxn | refine still_fst ?_ (by assumption))
    | decide | extract_lets +onlyGivenNames x | intro x hx | intro x

theorem still_resetPort {r s : State} (h : Still r s) (port : Nat) :
    Still r (State.resetPort s port) := by
  unfold State.resetPort
  repeat' first
    | (with_reducible first
        | assumption | apply still_setMtx | apply still_each | apply still_setTxn | apply still_useFree | apply still_raise
        | refine still_fst ?_ (by assumption) | apply still_ite | (apply still_mk <;> first | rfl | assumption))
    | decide | (simp only [SUP_STATE, islMX]; omega) | extract_lets +onlyGivenNames x | intro x hx | intro x

theorem still_resetPorts {r s : State} (h : Still r s) (l : List Nat) :
    Still r (State.resetPorts s l) := by
  unfold State.resetPorts
  repeat' first
    | (with_reducible first
        | assumption | apply still_each | apply still_resetPort)
    | decide

theorem still_logAccess {r s : State} (h : Still r s) (port : Nat) (id : Nat) (write : Bool) (addr : Nat) :
    Still r (State.logAccess s port id write addr) := by
  unfold State.logAccess
  repeat' first
    | (with_reducible first
        | assumption | apply still_errorResponse | apply still_bridgeError | apply still_ite)
    | decide | (simp only [SUP_STATE, islMX]; omega)

theorem still_judgedWrite {r s : State} (h : Still r s) (w : Writer) (ok : Bool) (isl : Nat) (addr : Nat) (f : State → State) (hf : ∀ x, Still r x → Still r (f x)) :
    Still r (State.judgedWrite s w ok isl addr f) := by
  unfold State.judgedWrite
  repeat' first
    | (with_reducible first
        | assumption | apply still_respond | apply still_movePointer | apply still_logAccess | apply still_ite)
    | apply hf | decide | (simp only [SUP_STATE, islMX]; omega)

theorem still_commandWrite {r s : State} (h : Still r s) (w : Writer) (svc : Bool) (mnt : Bool) (isl : Nat) (addr : Nat) (f : State → State) (hf : ∀ x, Still r x → Still r (f x)) :
    Still r (State.commandWrite s w svc mnt isl addr f) := by
  unfold State.commandWrite
  repeat' first
    | (with_reducible first
        | assumption | apply still_judgedWrite | apply still_bridgeError | refine still_fst ?_ (by assumption) | apply still_ite)
    | apply hf | decide | (simp only [SUP_STATE, islEH]; omega) | extract_lets +onlyGivenNames x | intro x | split

end Sys2Proof.Machine
end

