-- ==== Sys2Proof/Laws/StillLife.lean ====
section
/-! SUPPORT. The operations of Machine/Life.lean that neither store to memory nor move the life cycle leave both alone. -/

namespace Sys2Proof.Machine

theorem still_syncGate {r s : State} (h : Still r s) (g : Nat) :
    Still r (State.syncGate s g) := by
  unfold State.syncGate
  repeat' first
    | (with_reducible first
        | assumption | apply still_setFlag | apply still_setFld | apply still_raise | apply still_ite)
    | decide
    | (simp only [SUP_STATE, MTX_GATE_STAT, MTX_GATE_STAT_OFFLINE_LO, MTX_GATE_STAT_OFFLINE_HI, MTX_GATE_STAT_PHASE, islMX]; omega)

theorem still_syncGates {r s : State} (h : Still r s) :
    Still r (State.syncGates s) := by
  unfold State.syncGates
  repeat' first
    | (with_reducible first
        | assumption | apply still_each | apply still_syncGate)
    | decide

theorem still_clockIsland {r s : State} (h : Still r s) (b : Bool) (i : Nat) :
    Still r (State.clockIsland s b i) := by
  unfold State.clockIsland
  repeat' first
    | (with_reducible first
        | assumption | apply still_setBitAt | apply still_ite | (apply still_mk <;> first | rfl | assumption))
    | decide | (simp only [SUP_STATE, islSP, SUP_ISLAND_STAT]; omega)

theorem still_clearGates {r s : State} (h : Still r s) (l : List Nat) :
    Still r (State.clearGates s l) := by
  unfold State.clearGates
  repeat' first
    | (with_reducible first
        | assumption | (apply still_mk <;> first | rfl | assumption))
    | decide

theorem still_setIslands {r s : State} (h : Still r s) (l : List Nat) (b : Bool) :
    Still r (State.setIslands s l b) := by
  unfold State.setIslands
  repeat' first
    | (with_reducible first
        | assumption | apply still_each | apply still_clockIsland | apply still_raise | apply still_syncGates | apply still_clearGates
        | apply still_offlineTxns | apply still_resetPorts | apply still_ite)
    | decide | (simp only [SUP_STATE, SUP_ISLAND_STAT, islSP]; omega) | extract_lets +onlyGivenNames x | intro x hx | intro x

theorem still_updateDriven {r s : State} (h : Still r s) :
    Still r (State.updateDriven s) := by
  unfold State.updateDriven
  repeat' first
    | (with_reducible first
        | assumption | apply still_each | apply still_setFlag | apply still_ite)
    | decide | (simp only [SUP_STATE, islTR, TRIB_STAT, TRIB_STAT_DRIVEN, TRIB_CFG, TRIB_CFG_EN]; omega) | extract_lets +onlyGivenNames x
    | intro x hx | intro x

theorem still_updatePads {r s : State} (h : Still r s) :
    Still r (State.updatePads s) := by
  unfold State.updatePads
  repeat' first
    | (with_reducible first
        | assumption | apply still_setFlag | apply still_updateDriven)
    | decide | (simp only [SUP_STATE, SUP_SAFETY_STAT, SUP_SAFETY_STAT_SHARED_EN, SUP_SAFETY_STAT_CLAIM_OUT, SUP_SAFETY_STAT_KEY2]; omega)

theorem still_squelchClose {r s : State} (h : Still r s) :
    Still r (State.squelchClose s) := by
  unfold State.squelchClose
  repeat' first
    | (with_reducible first
        | assumption | apply still_setFlag | apply still_raise | apply still_ite)
    | decide | (simp only [SUP_STATE, SUP_SAFETY_STAT, SUP_SAFETY_STAT_SQUELCH, islSP]; omega)

theorem still_updateLaser {r s : State} (h : Still r s) (n : Nat) :
    Still r (State.updateLaser s n) := by
  unfold State.updateLaser
  repeat' first
    | (with_reducible first
        | assumption | apply still_setFlag)
    | decide | (simp only [SUP_STATE, LINE_STAT, LINE_STAT_TXDIS, LINE_CFG, LINE_CFG_EN, LINE_FRM_STAT, LINE_FRM_STAT_ALS]; omega)

theorem still_driveClaim {r s : State} (h : Still r s) (b : Bool) :
    Still r (State.driveClaim s b) := by
  unfold State.driveClaim
  repeat' first
    | (with_reducible first
        | assumption | apply still_setFlag | apply still_updatePads | apply still_raise | apply still_ite)
    | decide | (simp only [SUP_STATE, SUP_SAFETY_STAT, SUP_SAFETY_STAT_CLAIM_OUT, islSP]; omega)

theorem still_setTw {r s : State} (h : Still r s) (x : Twin) :
    Still r (State.setTw s x) := by
  unfold State.setTw
  repeat' first
    | (with_reducible first
        | assumption | (apply still_mk <;> first | rfl | assumption))
    | decide

theorem still_roleTo {r s : State} (h : Still r s) (r0 : Nat) :
    Still r (State.roleTo s r0) := by
  unfold State.roleTo
  repeat' first
    | (with_reducible first
        | assumption | apply still_setFld | apply still_raise | apply still_driveClaim | apply still_ite)
    | decide | (simp only [SUP_STATE, TWN_STAT, TWN_STAT_ROLE]; omega)

theorem still_updateHitless {r s : State} (h : Still r s) :
    Still r (State.updateHitless s) := by
  unfold State.updateHitless
  repeat' first
    | (with_reducible first
        | assumption | apply still_setFlag | apply still_raise | apply still_ite)
    | decide
    | (simp only [SUP_STATE, TWN_SYNC_STAT, TWN_SYNC_STAT_CAL_OK, TWN_SYNC_STAT_SYNC_A, TWN_SYNC_STAT_SYNC_B, TWN_SYNC_STAT_SYNC_C, TWN_STAT_HITLESS, TWN_STAT]; omega)

theorem still_updateSilent {r s : State} (h : Still r s) :
    Still r (State.updateSilent s) := by
  unfold State.updateSilent
  repeat' first
    | (with_reducible first
        | assumption | apply still_setTw | apply still_setFlag | apply still_ite | (apply still_mk <;> first | rfl | assumption))
    | decide | (simp only [SUP_STATE, TWN_STAT_LINK_UP, TWN_STAT_TIE_OK, TWN_STAT_SILENT, TWN_STAT, TWN_STAT_SOLO]; omega)

theorem still_updateEqWtr {r s : State} (h : Still r s) :
    Still r (State.updateEqWtr s) := by
  unfold State.updateEqWtr
  repeat' first
    | (with_reducible first
        | assumption | apply still_setTw | apply still_setFlag | apply still_raise | apply still_ite
        | (apply still_mk <;> first | rfl | assumption))
    | decide | (simp only [SUP_STATE, TWN_STAT, TWN_STAT_TWIN_ROLE, TWN_CFG, TWN_CFG_EQ_REVERT, TWN_STAT_WTR, TWN_CFG_EQ_WTR_S]; omega)

theorem still_dropCommand {r s : State} (h : Still r s) :
    Still r (State.dropCommand s) := by
  unfold State.dropCommand
  repeat' first
    | (with_reducible first
        | assumption | apply still_setFld | apply still_ite)
    | decide | (simp only [SUP_STATE, TWN_CMD, TWN_CMD_RESULT]; omega)

theorem still_switchDone {r s : State} (h : Still r s) (kind : Nat) :
    Still r (State.switchDone s kind) := by
  unfold State.switchDone
  repeat' first
    | (with_reducible first
        | assumption | apply still_count | apply still_raise)
    | decide | (simp only [SUP_STATE, TWN_EQ_SWITCH_CNT, TWN_STAT, TWN_STAT_EQ_REQ]; omega)

theorem still_dropHandover {r s : State} (h : Still r s) :
    Still r (State.dropHandover s) := by
  unfold State.dropHandover
  repeat' first
    | (with_reducible first
        | assumption | apply still_setTw | apply still_ite | (apply still_mk <;> first | rfl | assumption))
    | decide | (simp only [SUP_STATE, TWN_STAT_HITLESS, SUP_SAFETY_STAT, SUP_SAFETY_STAT_CLAIM_OUT]; omega)

theorem still_moveRole {r s : State} (h : Still r s) :
    Still r (State.moveRole s) := by
  unfold State.moveRole
  repeat' first
    | (with_reducible first
        | assumption | apply still_setTw | apply still_roleTo | apply still_switchDone | apply still_ite
        | (apply still_mk <;> first | rfl | assumption))
    | decide
    | (simp only [SUP_STATE, TWN_STAT, TWN_STAT_EQ_REQ, TWN_STAT_EQ_SEL, TWN_STAT_HITLESS, TWN_STAT_TWIN_ROLE, TWN_STAT_MISMATCH, TWN_SYNC_STAT, TWN_SYNC_STAT_SYNC_A, TWN_SYNC_STAT_SYNC_B, TWN_SYNC_STAT_SYNC_C, TWN_STAT_SILENT]; omega)

theorem still_roleEval {r s : State} (h : Still r s) :
    Still r (State.roleEval s) := by
  unfold State.roleEval
  repeat' first
    | (with_reducible first
        | assumption | apply still_setFlag | apply still_roleTo | apply still_updateHitless | apply still_updateSilent
        | apply still_updateEqWtr | apply still_dropCommand | apply still_setFld | apply still_dropHandover | apply still_moveRole
        | apply still_ite)
    | decide | (simp only [SUP_STATE, TWN_STAT, TWN_STAT_READY, TWN_STAT_EQ_SEL, TWN_STAT_EQ_REQ]; omega)

theorem still_lockBridge {r s : State} (h : Still r s) (reason : Nat) :
    Still r (State.lockBridge s reason) := by
  unfold State.lockBridge
  repeat' first
    | (with_reducible first
        | assumption | apply still_setFld | apply still_raise | apply still_ite)
    | decide | (simp only [SUP_STATE, EVT_MGMT_UNLOCK, EVT_MGMT_UNLOCK_STATE, islEH]; omega)

theorem still_lasersOff {r s : State} (h : Still r s) :
    Still r (State.lasersOff s) := by
  unfold State.lasersOff
  repeat' first
    | (with_reducible first
        | assumption | apply still_setFld)
    | decide | (simp only [SUP_STATE, SUP_SAFETY_STAT, SUP_SAFETY_STAT_SP_ALS]; omega)

theorem still_outputsOff {r s : State} (h : Still r s) :
    Still r (State.outputsOff s) := by
  unfold State.outputsOff
  repeat' first
    | (with_reducible first
        | assumption | apply still_setFlag | apply still_updateDriven | apply still_lasersOff | apply still_squelchClose)
    | decide | (simp only [SUP_STATE, SUP_SAFETY_STAT, SUP_SAFETY_STAT_SHARED_EN]; omega)

theorem still_markEntry {r s : State} (h : Still r s) :
    Still r (State.markEntry s) := by
  unfold State.markEntry
  repeat' first
    | (with_reducible first
        | assumption | (apply still_mk <;> first | rfl | assumption))
    | decide

theorem still_ladder {r s : State} (h : Still r s) (lvl : Nat) (source : Nat) :
    Still r (State.ladder s lvl source) := by
  unfold State.ladder
  repeat' first
    | (with_reducible first
        | assumption | apply still_count | apply still_setFld | apply still_raise)
    | decide | (simp only [SUP_STATE, SUP_TO_CNT, SUP_TO_STAT, SUP_TO_STAT_LEVEL, SUP_TO_STAT_SOURCE, islSP]; omega)

theorem still_noteFiring {r s : State} (h : Still r s) (lvl : Nat) (source : Nat) (span : Nat) :
    Still r (State.noteFiring s lvl source span) := by
  unfold State.noteFiring
  repeat' first
    | (with_reducible first
        | assumption | (apply still_mk <;> first | rfl | assumption))
    | decide

theorem still_escalate {r s : State} (h : Still r s) (lvl : Nat) (source : Nat) :
    Still r (State.escalate s lvl source) := by
  unfold State.escalate
  repeat' first
    | (with_reducible first
        | assumption | apply still_raise)
    | decide | (simp only [SUP_STATE, islSP]; omega)

end Sys2Proof.Machine
end

