-- ==== Sys2Proof/Laws/StillSched.lean ====
section
/-! SUPPORT. The operations of Machine/Sched.lean that neither store to memory nor move the life cycle leave both alone. -/

namespace Sys2Proof.Machine

theorem still_setCore {r s : State} (h : Still r s) (q : Nat) (x : Core) :
    Still r (State.setCore s q x) := by
  unfold State.setCore
  repeat' first
    | (with_reducible first
        | assumption | (apply still_mk <;> first | rfl | assumption))
    | decide

theorem still_setTask {r s : State} (h : Still r s) (t0 : Nat) (x : Task) :
    Still r (State.setTask s t0 x) := by
  unfold State.setTask
  repeat' first
    | (with_reducible first
        | assumption | (apply still_mk <;> first | rfl | assumption))
    | decide

theorem still_setTaskState {r s : State} (h : Still r s) (t0 : Nat) (st : Nat) :
    Still r (State.setTaskState s t0 st) := by
  unfold State.setTaskState
  repeat' first
    | (with_reducible first
        | assumption | apply still_setFld)
    | decide | (simp only [SUP_STATE, SVC_TASK_STAT, SVC_TASK_STAT_STATE]; omega)

theorem still_setPairTask {r s : State} (h : Still r s) (q : Nat) (t0 : Nat) :
    Still r (State.setPairTask s q t0) := by
  unfold State.setPairTask
  repeat' first
    | (with_reducible first
        | assumption | apply still_setFld | apply still_setFlag)
    | decide | (simp only [SUP_STATE, SVC_PAIR_STAT, SVC_PAIR_STAT_TASK, SVC_PAIR_STAT_IDLE]; omega)

theorem still_makeReady {r s : State} (h : Still r s) (t0 : Nat) :
    Still r (State.makeReady s t0) := by
  unfold State.makeReady
  repeat' first
    | (with_reducible first
        | assumption | apply still_setTask | apply still_setTaskState | (apply still_mk <;> first | rfl | assumption))
    | decide

theorem still_mergeWake {r s : State} (h : Still r s) (t0 : Nat) (cause : Nat) :
    Still r (State.mergeWake s t0 cause) := by
  unfold State.mergeWake
  repeat' first
    | (with_reducible first
        | assumption | apply still_count | apply still_raiseFirst)
    | decide | (simp only [SUP_STATE, SVC_WAKE_MERGED]; omega)

theorem still_wake {r s : State} (h : Still r s) (t0 : Nat) (cause : Nat) :
    Still r (State.wake s t0 cause) := by
  unfold State.wake
  repeat' first
    | (with_reducible first
        | assumption | apply still_count | apply still_setFld | apply still_makeReady | apply still_mergeWake | apply still_setFlag
        | apply still_setTask | apply still_ite | (apply still_mk <;> first | rfl | assumption))
    | decide | (simp only [SUP_STATE, SVC_TASK_DROPPED, SVC_TASK_STAT, SVC_TASK_STAT_CAUSE, SVC_TASK_STAT_PENDING]; omega)

theorem still_parkTask {r s : State} (h : Still r s) (t0 : Nat) :
    Still r (State.parkTask s t0) := by
  unfold State.parkTask
  repeat' first
    | (with_reducible first
        | assumption | apply still_setTaskState | apply still_raise | apply still_makeReady | apply still_ite)
    | decide

theorem still_startTask {r s : State} (h : Still r s) (q : Nat) (t0 : Nat) :
    Still r (State.startTask s q t0) := by
  unfold State.startTask
  repeat' first
    | (with_reducible first
        | assumption | apply still_setFlag | apply still_setTaskState | apply still_setFld | apply still_setPairTask | apply still_setCore
        | apply still_setTask | apply still_ite | (apply still_mk <;> first | rfl | assumption))
    | decide | (simp only [SUP_STATE, SVC_TASK_STAT, SVC_TASK_STAT_PENDING, SVC_TASK_STAT_LAST_PAIR, SVC_TASK_ENTRY]; omega)

theorem still_dispatchPair {r s : State} (h : Still r s) (q : Nat) :
    Still r (State.dispatchPair s q) := by
  unfold State.dispatchPair
  repeat' first
    | (with_reducible first
        | assumption | apply still_startTask | refine still_fst ?_ (by assumption) | apply still_ite)
    | decide | extract_lets +onlyGivenNames x | intro x hx | intro x | split

theorem still_dropRequest {r s : State} (h : Still r s) (q : Nat) :
    Still r (State.dropRequest s q) := by
  unfold State.dropRequest
  repeat' first
    | (with_reducible first
        | assumption | apply still_setMtx | (apply still_mk <;> first | rfl | assumption))
    | decide

theorem still_closeRun {r s : State} (h : Still r s) (q : Nat) (cancelled : Bool) :
    Still r (State.closeRun s q cancelled) := by
  unfold State.closeRun
  repeat' first
    | (with_reducible first
        | assumption | apply still_setReg | apply still_setTask | apply still_setPairTask | apply still_setCore | apply still_dropRequest
        | apply still_setFlag | apply still_setTaskState | apply still_setFld | apply still_makeReady | apply still_ite
        | (apply still_mk <;> first | rfl | assumption))
    | decide | (simp only [SUP_STATE, SVC_TASK_LONGEST, SVC_TASK_STAT, SVC_TASK_STAT_PENDING, SVC_TASK_STAT_CAUSE]; omega)

theorem still_abortRun {r s : State} (h : Still r s) (q : Nat) (cancelled : Bool) :
    Still r (State.abortRun s q cancelled) := by
  unfold State.abortRun
  repeat' first
    | (with_reducible first
        | assumption | apply still_count | apply still_closeRun)
    | decide | (simp only [SUP_STATE, SVC_TASK_ABORTS, SVC_ABORT_CNT]; omega)

theorem still_bootPair {r s : State} (h : Still r s) (q : Nat) :
    Still r (State.bootPair s q) := by
  unfold State.bootPair
  repeat' first
    | (with_reducible first
        | assumption | apply still_setCore | (apply still_mk <;> first | rfl | assumption))
    | decide

theorem still_stopPair {r s : State} (h : Still r s) (q : Nat) (why : Nat) :
    Still r (State.stopPair s q why) := by
  unfold State.stopPair
  repeat' first
    | (with_reducible first
        | assumption | apply still_setTask | apply still_makeReady | apply still_setPairTask | apply still_setCore
        | apply still_dropRequest | apply still_ite | (apply still_mk <;> first | rfl | assumption))
    | decide

theorem still_migrate {r s : State} (h : Still r s) (q : Nat) :
    Still r (State.migrate s q) := by
  unfold State.migrate
  repeat' first
    | (with_reducible first
        | assumption | apply still_each | apply still_raise)
    | decide | (simp only [SUP_STATE, SVC_TASK_W1, SVC_TASK_W1_AFFINITY]; omega) | extract_lets +onlyGivenNames x | intro x hx | intro x

theorem still_cancelTask {r s : State} (h : Still r s) (t0 : Nat) :
    Still r (State.cancelTask s t0) := by
  unfold State.cancelTask
  repeat' first
    | (with_reducible first
        | assumption | apply still_setTask | apply still_setFlag | apply still_setTaskState | apply still_abortRun | apply still_ite
        | (apply still_mk <;> first | rfl | assumption))
    | decide | (simp only [SUP_STATE, SVC_TASK_STAT, SVC_TASK_STAT_PENDING]; omega)

theorem still_dropWake {r s : State} (h : Still r s) (t0 : Nat) (woken : Bool) :
    Still r (State.dropWake s t0 woken) := by
  unfold State.dropWake
  repeat' first
    | (with_reducible first
        | assumption | apply still_count | apply still_raise | apply still_ite)
    | decide | (simp only [SUP_STATE, SVC_TASK_DROPPED]; omega)

theorem still_disableTask {r s : State} (h : Still r s) (t0 : Nat) :
    Still r (State.disableTask s t0) := by
  unfold State.disableTask
  repeat' first
    | (with_reducible first
        | assumption | apply still_setFlag | apply still_setTask | apply still_setTaskState
        | (apply still_mk <;> first | rfl | assumption))
    | decide | (simp only [SUP_STATE, SVC_TASK_W1, SVC_TASK_W1_EN]; omega)

theorem still_enableTask {r s : State} (h : Still r s) (t0 : Nat) :
    Still r (State.enableTask s t0) := by
  unfold State.enableTask
  repeat' first
    | (with_reducible first
        | assumption | apply still_useFree | apply still_setFlag | apply still_setTaskState | apply still_ite)
    | decide | (simp only [SUP_STATE, SVC_TASK_W1, SVC_TASK_W1_EN]; omega)

theorem still_taskEffect {r s : State} (h : Still r s) (cmd : Nat) (t0 : Nat) (woken : Bool) :
    Still r (State.taskEffect s cmd t0 woken) := by
  unfold State.taskEffect
  repeat' first
    | (with_reducible first
        | assumption | apply still_wake | apply still_dropWake | apply still_cancelTask | apply still_enableTask | apply still_disableTask
        | refine still_fst ?_ (by assumption))
    | decide | extract_lets +onlyGivenNames x | intro x | split

end Sys2Proof.Machine
end

