-- ==== Sys2Proof/Laws/StillLedger.lean ====
section
/-! SUPPORT. The operations of Machine/Ledger.lean that neither store to memory nor move the life cycle leave both alone. -/

namespace Sys2Proof.Machine

theorem still_setQueue {r s : State} (h : Still r s) (q : List Rec) :
    Still r (State.setQueue s q) := by
  unfold State.setQueue
  repeat' first
    | (with_reducible first
        | assumption | apply still_setFld | (apply still_mk <;> first | rfl | assumption))
    | decide | (simp only [SUP_STATE, EVT_STAT, EVT_STAT_QUEUE]; omega)

theorem still_loseRecord {r s : State} (h : Still r s) (ev : Ev) :
    Still r (State.loseRecord s ev) := by
  unfold State.loseRecord
  repeat' first
    | (with_reducible first
        | assumption | apply still_count | apply still_setFlag | apply still_ite | (apply still_mk <;> first | rfl | assumption)
        | (apply still_mk <;> first | rfl | assumption | apply still_count | apply still_setFlag | apply still_ite))
    | decide | (simp only [SUP_STATE, EVT_ISL_LOST_CNT, EVT_STAT, EVT_STAT_LOSING]; omega) | extract_lets +onlyGivenNames x | intro x

theorem still_takeNumber {r s : State} (h : Still r s) :
    Still r (State.takeNumber s) := by
  unfold State.takeNumber
  repeat' first
    | (with_reducible first
        | assumption | (apply still_mk <;> first | rfl | assumption))
    | decide

theorem still_enqueue {r s : State} (h : Still r s) (kind : Nat) (ev : Ev) :
    Still r (State.enqueue s kind ev) := by
  unfold State.enqueue
  repeat' first
    | (with_reducible first
        | assumption | apply still_loseRecord | apply still_setQueue | apply still_takeNumber | apply still_ite)
    | decide

theorem still_updatePins {r s : State} (h : Still r s) :
    Still r (State.updatePins s) := by
  unfold State.updatePins
  repeat' first
    | (with_reducible first
        | assumption | apply still_setFlag)
    | decide | (simp only [SUP_STATE, EVT_STAT, EVT_STAT_INTA, EVT_EVENT_CFG_INTA, EVT_STAT_INTB, EVT_EVENT_CFG_INTB]; omega)

theorem still_countEvent {r s : State} (h : Still r s) (e : Nat) :
    Still r (State.countEvent s e) := by
  unfold State.countEvent
  repeat' first
    | (with_reducible first
        | assumption | apply still_count | apply still_setBitAt | apply still_setFlag | refine still_fst ?_ (by assumption)
        | apply still_ite | (apply still_mk <;> first | rfl | assumption)
        | (apply still_mk <;> first | rfl | assumption | apply still_count | apply still_setBitAt | apply still_setFlag | apply still_ite))
    | decide
    | (simp only [SUP_STATE, EVT_CNT, EVT_EVENT_CFG, EVT_EVENT_CFG_INTA, EVT_EVENT_CFG_INTB, EVT_PEND, EVT_STAT, EVT_STAT_INTA, EVT_STAT_INTB]; omega)
    | extract_lets +onlyGivenNames x | intro x

theorem still_takeMarker {r s : State} (h : Still r s) (ev : Ev) :
    Still r (State.takeMarker s ev).1 := by
  unfold State.takeMarker
  repeat' first
    | (with_reducible first
        | assumption | apply still_setMtx | refine still_fst ?_ (by assumption) | apply still_ite
        | (apply still_mk <;> first | rfl | assumption))
    | decide | extract_lets +onlyGivenNames x | intro x | split

end Sys2Proof.Machine
end

