-- ==== Sys2Proof/Laws/StillFence.lean ====
section
/-! SUPPORT. The operations of Machine/Fence.lean that neither store to memory nor move the life cycle leave both alone. -/

namespace Sys2Proof.Machine

theorem still_issueFence {r s : State} (h : Still r s) (issuer : Nat) :
    Still r (State.issueFence s issuer) := by
  unfold State.issueFence
  repeat' first
    | (with_reducible first
        | assumption | apply still_setFld | apply still_setMtx | apply still_raise | apply still_ite
        | (apply still_mk <;> first | rfl | assumption))
    | decide | (simp only [SUP_STATE, MTX_FENCE_NO, MTX_FENCE_NO_ISSUED, MTX_FENCE, MTX_FENCE_FENCE_LO, islMX]; omega)

theorem still_requestFence {r s : State} (h : Still r s) (issuer : Nat) :
    Still r (State.requestFence s issuer) := by
  unfold State.requestFence
  repeat' first
    | (with_reducible first
        | assumption | apply still_issueFence | apply still_setMtx | apply still_ite | (apply still_mk <;> first | rfl | assumption))
    | decide

theorem still_placeMarker {r s : State} (h : Still r s) (n : Nat) (i : Nat) :
    Still r (State.placeMarker s n i) := by
  unfold State.placeMarker
  repeat' first
    | (with_reducible first
        | assumption | apply still_raise)
    | decide

theorem still_execFenceMarker {r s : State} (h : Still r s) (i : Fin 24) :
    StillO r (execFenceMarker i s) := by
  unfold execFenceMarker
  repeat' first
    | (with_reducible first
        | assumption | apply still_setMtx | apply still_placeMarker | refine still_fst ?_ (by assumption) | apply still_ite
        | apply still_next | (apply still_mk <;> first | rfl | assumption))
    | decide | extract_lets +onlyGivenNames x | intro x hx | intro x | split

theorem still_fenceWrite {r s : State} (h : Still r s) (token : Nat) (go : Bool) :
    Still r (State.fenceWrite s token go) := by
  unfold State.fenceWrite
  repeat' first
    | (with_reducible first
        | assumption | apply still_setFld | apply still_requestFence | apply still_ite)
    | decide | (simp only [SUP_STATE, MTX_FENCE, MTX_FENCE_TOKEN, MTX_FENCE_RESULT]; omega)

end Sys2Proof.Machine
end

