-- ==== Sys2Proof/Laws/StillJoin.lean ====
section
/-! SUPPORT. The operations of Machine/Join.lean that neither store to memory nor move the life cycle leave both alone. -/

namespace Sys2Proof.Machine

theorem still_updateIdxStat {r s : State} (h : Still r s) :
    Still r (State.updateIdxStat s) := by
  unfold State.updateIdxStat
  repeat' first
    | (with_reducible first
        | assumption | apply still_setFld | apply still_setFlag)
    | decide | (simp only [SUP_STATE, IDX_STAT, IDX_STAT_ACTIVE, IDX_STAT_CHECK_FAIL, IDX_STAT_CONFLICT]; omega)

theorem still_idxEvent {r s : State} (h : Still r s) (e : Nat) (n : Nat) :
    Still r (State.idxEvent s e n) := by
  unfold State.idxEvent
  repeat' first
    | (with_reducible first
        | assumption | apply still_raise)
    | decide | (simp only [SUP_STATE, islPX, IDX_STATUS]; omega)

theorem still_setIdx {r s : State} (h : Still r s) (e : Nat) (f : Fld) (b : Bool) :
    Still r (State.setIdx s e f b) := by
  unfold State.setIdx
  repeat' first
    | (with_reducible first
        | assumption | apply still_setFlag | apply still_updateIdxStat)
    | decide | (simp only [SUP_STATE, IDX_STATUS]; omega)

theorem still_checkFails {r s : State} (h : Still r s) (e : Nat) :
    Still r (State.checkFails s e) := by
  unfold State.checkFails
  repeat' first
    | (with_reducible first
        | assumption | apply still_setFlag | apply still_setIdx | apply still_count | apply still_setReg | apply still_idxEvent
        | apply still_ite)
    | decide | (simp only [SUP_STATE, IDX_STATUS_CHECK_FAIL, IDX_STATUS, IDX_STATUS_ACTIVE, IDX_CHECK_CNT, IDX_CHECK_LAST]; omega)

theorem still_checkUse {r s : State} (h : Still r s) (e : Nat) :
    Still r (State.checkUse s e) := by
  unfold State.checkUse
  repeat' first
    | (with_reducible first
        | assumption | apply still_checkFails | apply still_ite)
    | decide | (simp only [SUP_STATE, IDX_STATUS_ACTIVE]; omega)

theorem still_useFeed {r s : State} (h : Still r s) (w : Word) :
    Still r (State.useFeed s w) := by
  unfold State.useFeed
  repeat' first
    | (with_reducible first
        | assumption | apply still_checkUse | refine still_fst ?_ (by assumption))
    | decide | extract_lets +onlyGivenNames x | intro x | split

end Sys2Proof.Machine
end

