-- ==== Sys2Proof/Laws/StillMsp.lean ====
section
/-! SUPPORT. The operations of Machine/Msp.lean that neither store to memory nor move the life cycle leave both alone. -/

namespace Sys2Proof.Machine

theorem still_setLine {r s : State} (h : Still r s) (n : Nat) (l : LinePort) :
    Still r (State.setLine s n l) := by
  unfold State.setLine
  repeat' first
    | (with_reducible first
        | assumption | (apply still_mk <;> first | rfl | assumption))
    | decide

theorem still_kTxWrite {r s : State} (h : Still r s) (n : Nat) (value : Word) (inKSlot : Bool) :
    Still r (State.kTxWrite s n value inKSlot) := by
  unfold State.kTxWrite
  repeat' first
    | (with_reducible first
        | assumption | apply still_serviceWrite | apply still_setLine | apply still_ite | (apply still_mk <;> first | rfl | assumption))
    | decide | (simp only [SUP_STATE, LINE_K_TX]; omega)

theorem still_setGrp {r s : State} (h : Still r s) (g : Nat) (x : Grp) :
    Still r (State.setGrp s g x) := by
  unfold State.setGrp
  repeat' first
    | (with_reducible first
        | assumption | (apply still_mk <;> first | rfl | assumption))
    | decide

theorem still_recount {r s : State} (h : Still r s) (g : Nat) :
    Still r (State.recount s g) := by
  unfold State.recount
  repeat' first
    | (with_reducible first
        | assumption | apply still_setGrp | apply still_ite | (apply still_mk <;> first | rfl | assumption))
    | decide | (simp only [SUP_STATE, LINE_STAT, LINE_STAT_TSD, LINE_STAT_TSF, APS_CFG, APS_CFG_HOLDOFF]; omega)

theorem still_dropAps {r s : State} (h : Still r s) (g : Nat) :
    Still r (State.dropAps s g) := by
  unfold State.dropAps
  repeat' first
    | (with_reducible first
        | assumption | apply still_setFld | refine still_fst ?_ (by assumption) | apply still_ite)
    | decide | (simp only [SUP_STATE, APS_CMD, APS_CMD_RESULT]; omega) | extract_lets +onlyGivenNames x | intro x hx | intro x | split

theorem still_apsEvent {r s : State} (h : Still r s) (g : Nat) (e : Nat) (data : List Word) :
    Still r (State.apsEvent s g e data) := by
  unfold State.apsEvent
  repeat' first
    | (with_reducible first
        | assumption | apply still_raise)
    | decide | (simp only [SUP_STATE, islPX]; omega)

theorem still_mspEvent {r s : State} (h : Still r s) (g : Nat) (e : Nat) (data : List Word) :
    Still r (State.mspEvent s g e data) := by
  unfold State.mspEvent
  repeat' first
    | (with_reducible first
        | assumption | apply still_apsEvent | apply still_ite)
    | decide

theorem still_updateGrpWtr {r s : State} (h : Still r s) (g : Nat) :
    Still r (State.updateGrpWtr s g) := by
  unfold State.updateGrpWtr
  repeat' first
    | (with_reducible first
        | assumption | apply still_setGrp | apply still_mspEvent | apply still_ite | (apply still_mk <;> first | rfl | assumption))
    | decide | (simp only [SUP_STATE, APS_STAT, APS_STAT_SEL, APS_CFG, APS_CFG_REVERT, APS_CFG_WTR_MIN]; omega)

theorem still_applyAps {r s : State} (h : Still r s) (g : Nat) (rule : Request) (tx : Request) :
    Still r (State.applyAps s g rule tx) := by
  unfold State.applyAps
  repeat' first
    | (with_reducible first
        | assumption | apply still_count | apply still_setGrp | apply still_setFld | apply still_setFlag | apply still_apsEvent
        | apply still_mirror | apply still_each | apply still_kTxWrite | apply still_ite | (apply still_mk <;> first | rfl | assumption))
    | decide
    | (simp only [SUP_STATE, APS_CFG, APS_CFG_ARCH, APS_CFG_BIDIR, LINE_K_TX, APS_STAT, APS_STAT_SEL, TWN_DIVERGE_CNT, LINE_K_RX, APS_STAT_REQ, APS_STAT_CHAN, APS_STAT_BRIDGE, APS_STAT_FAR_REQ, LINE_K_RX_K1, APS_STAT_FAR_CHAN, APS_STAT_WTR, APS_SWITCH_CNT, islLP]; omega)
    | extract_lets +onlyGivenNames x | intro x hx | intro x

theorem still_mspEval {r s : State} (h : Still r s) (g : Nat) :
    Still r (State.mspEval s g) := by
  unfold State.mspEval
  repeat' first
    | (with_reducible first
        | assumption | apply still_recount | apply still_dropAps | apply still_updateGrpWtr | apply still_applyAps
        | refine still_fst ?_ (by assumption) | apply still_ite)
    | decide | (simp only [SUP_STATE, APS_CFG, APS_CFG_EN, islPX]; omega) | extract_lets +onlyGivenNames x | intro x | split

theorem still_mspPort {r s : State} (h : Still r s) (n : Nat) :
    Still r (State.mspPort s n) := by
  unfold State.mspPort
  repeat' first
    | (with_reducible first
        | assumption | apply still_mspEval | refine still_fst ?_ (by assumption))
    | decide | extract_lets +onlyGivenNames x | intro x | split

theorem still_execMspHoldoffExpiry {r s : State} (h : Still r s) (g : Fin 4) (chan : Fin 8) :
    StillO r (execMspHoldoffExpiry g chan s) := by
  unfold execMspHoldoffExpiry
  repeat' first
    | (with_reducible first
        | assumption | apply still_setGrp | apply still_mspEval | apply still_ite | apply still_next
        | (apply still_mk <;> first | rfl | assumption))
    | decide | (simp only [SUP_STATE, APS_CFG, APS_CFG_EN, LINE_STAT, LINE_STAT_TSF, LINE_STAT_TSD]; omega)

theorem still_execMspWtrExpiry {r s : State} (h : Still r s) (g : Fin 4) :
    StillO r (execMspWtrExpiry g s) := by
  unfold execMspWtrExpiry
  repeat' first
    | (with_reducible first
        | assumption | apply still_setGrp | apply still_mspEvent | apply still_mspEval | apply still_ite | apply still_next
        | (apply still_mk <;> first | rfl | assumption))
    | decide

theorem still_execDfopTimer {r s : State} (h : Still r s) (g : Fin 4) (present : Bool) :
    StillO r (execDfopTimer g present s) := by
  unfold execDfopTimer
  repeat' first
    | (with_reducible first
        | assumption | apply still_setFlag | apply still_apsEvent | apply still_mspEval | apply still_ite | apply still_next)
    | decide | (simp only [SUP_STATE, APS_CFG, APS_CFG_EN, APS_STAT, APS_STAT_DFOP, LINE_K_RX, APS_CFG_PROT]; omega)

theorem still_apsCommand {r s : State} (h : Still r s) (g : Nat) (cmd : Nat) (chan : Nat) (token : Nat) :
    Still r (State.apsCommand s g cmd chan token) := by
  unfold State.apsCommand
  repeat' first
    | (with_reducible first
        | assumption | apply still_setFld | apply still_apsEvent | apply still_setReg | apply still_mirror | apply still_mspEval
        | apply still_ite)
    | decide | (simp only [SUP_STATE, APS_CMD, APS_CMD_TOKEN, APS_CMD_RESULT]; omega)

theorem still_apsWrite {r s : State} (h : Still r s) (w : Writer) (g : Nat) (cmd : Nat) (chan : Nat) (token : Nat) :
    Still r (State.apsWrite s w g cmd chan token) := by
  unfold State.apsWrite
  repeat' first
    | (with_reducible first
        | assumption | apply still_commandWrite | apply still_apsCommand)
    | decide | (simp only [SUP_STATE, islPX, APS_CMD]; omega) | extract_lets +onlyGivenNames x | intro x hx | intro x

end Sys2Proof.Machine
end

