-- ==== Sys2Proof/Laws/StillPower.lean ====
section
/-! SUPPORT. The operations of Machine/Power.lean that neither store to memory nor move the life cycle leave both alone. -/

namespace Sys2Proof.Machine

theorem still_dormantOutputs {r s : State} (h : Still r s) :
    Still r (State.dormantOutputs s) := by
  unfold State.dormantOutputs
  repeat' first
    | (with_reducible first
        | assumption | apply still_setFlag | apply still_setFld | apply still_each)
    | decide
    | (simp only [SUP_STATE, SUP_SAFETY_STAT, SUP_SAFETY_STAT_CLAIM_OUT, SUP_SAFETY_STAT_SHARED_EN, SUP_SAFETY_STAT_SQUELCH, SUP_SAFETY_STAT_SP_ALS, SUP_L5_STAT, SUP_L5_STAT_HELD]; omega)
    | extract_lets +onlyGivenNames x | intro x hx | intro x

theorem still_sealRetention {r s : State} (h : Still r s) :
    Still r (State.sealRetention s) := by
  unfold State.sealRetention
  repeat' first
    | (with_reducible first
        | assumption | apply still_raise | apply still_ite | (apply still_mk <;> first | rfl | assumption))
    | decide | (simp only [SUP_STATE, islRT]; omega)

theorem still_openRetention {r s : State} (h : Still r s) :
    Still r (State.openRetention s) := by
  unfold State.openRetention
  repeat' first
    | (with_reducible first
        | assumption | (apply still_mk <;> first | rfl | assumption))
    | decide

theorem still_abandonGather {r s : State} (h : Still r s) :
    Still r (State.abandonGather s) := by
  unfold State.abandonGather
  repeat' first
    | (with_reducible first
        | assumption | apply still_setFlag | (apply still_mk <;> first | rfl | assumption))
    | decide | (simp only [SUP_STATE, INV_STAT, INV_STAT_GATHERING, INV_STAT_HELD]; omega)

theorem still_execConverterStart {r s : State} (h : Still r s) :
    StillO r (execConverterStart s) := by
  unfold execConverterStart
  repeat' first
    | (with_reducible first
        | assumption | apply still_setFld | apply still_ite | apply still_next | (apply still_mk <;> first | rfl | assumption))
    | decide | (simp only [SUP_STATE, SUP_RAIL_STAT, SUP_RAIL_STAT_GOOD]; omega)

theorem still_latchStraps {r s : State} (h : Still r s) (senior : Bool) (test : Bool) :
    Still r (State.latchStraps s senior test) := by
  unfold State.latchStraps
  repeat' first
    | (with_reducible first
        | assumption | apply still_ite | (apply still_mk <;> first | rfl | assumption))
    | decide

theorem still_startLoader {r s : State} (h : Still r s) :
    Still r (State.startLoader s) := by
  unfold State.startLoader
  repeat' first
    | (with_reducible first
        | assumption | apply still_setFld | (apply still_mk <;> first | rfl | assumption)
        | (apply still_mk <;> first | rfl | assumption | apply still_setFld))
    | decide | (simp only [SUP_STATE, NVM_STAT, NVM_STAT_STEP]; omega) | extract_lets +onlyGivenNames x | intro x

theorem still_noteRail {r s : State} (h : Still r s) (r0 : Rail) :
    Still r (State.noteRail s r0) := by
  unfold State.noteRail
  repeat' first
    | (with_reducible first
        | assumption | apply still_setBitAt | apply still_setFld | apply still_satInc)
    | decide | (simp only [SUP_STATE, SUP_RAIL_STAT, SUP_RAIL_STAT_LAST_FAIL, SUP_RAIL_STAT_FAIL_CNT]; omega)

theorem still_execRailRestart {r s : State} (h : Still r s) :
    StillO r (execRailRestart s) := by
  unfold execRailRestart
  repeat' first
    | (with_reducible first
        | assumption | apply still_setFld | apply still_ite | apply still_next | (apply still_mk <;> first | rfl | assumption))
    | decide | (simp only [SUP_STATE, SUP_RAIL_STAT, SUP_RAIL_STAT_GOOD]; omega)

theorem still_execSg5Warning {r s : State} (h : Still r s) (c : Sg5) :
    StillO r (execSg5Warning c s) := by
  unfold execSg5Warning
  repeat' first
    | (with_reducible first
        | assumption | apply still_raise | apply still_next)
    | decide | (simp only [SUP_STATE, islSP]; omega)

theorem still_execSg5TripClear {r s : State} (h : Still r s) (c : Sg5) :
    StillO r (execSg5TripClear c s) := by
  unfold execSg5TripClear
  repeat' first
    | (with_reducible first
        | assumption | apply still_setBitAt | apply still_setFld | apply still_ite | apply still_next
        | (apply still_mk <;> first | rfl | assumption)
        | (apply still_mk <;> first | rfl | assumption | apply still_setBitAt | apply still_setFld | apply still_ite))
    | decide | (simp only [SUP_STATE, SUP_SAFETY_STAT, SUP_RAIL_STAT, SUP_RAIL_STAT_GOOD]; omega) | extract_lets +onlyGivenNames x
    | intro x

theorem still_execVbakMeasure {r s : State} (h : Still r s) (vbak : Fin 512) :
    StillO r (execVbakMeasure vbak s) := by
  unfold execVbakMeasure
  repeat' first
    | (with_reducible first
        | assumption | apply still_setFld | apply still_setFlag | apply still_raise | apply still_ite | apply still_next)
    | decide
    | (simp only [SUP_STATE, SUP_PWR_STAT, SUP_PWR_STAT_VBAK, SUP_PWR_CFG, SUP_PWR_CFG_VBAK_WARN, SUP_PWR_STAT_VBAK_LOW, islSP]; omega)

theorem still_execRtBrownOut {r s : State} (h : Still r s) :
    StillO r (execRtBrownOut s) := by
  unfold execRtBrownOut
  repeat' first
    | (with_reducible first
        | assumption | apply still_next | (apply still_mk <;> first | rfl | assumption))
    | decide

end Sys2Proof.Machine
end

