-- ==== Sys2Proof/Laws/StillSupervisor.lean ====
section
/-! SUPPORT. The operations of Machine/Supervisor.lean that neither store to memory nor move the life cycle leave both alone. -/

namespace Sys2Proof.Machine

theorem still_execKeepaliveLoss {r s : State} (h : Still r s) :
    StillO r (execKeepaliveLoss s) := by
  unfold execKeepaliveLoss
  repeat' first
    | (with_reducible first
        | assumption | apply still_updateDriven | apply still_next | (apply still_mk <;> first | rfl | assumption))
    | decide

theorem still_execKey2 {r s : State} (h : Still r s) :
    StillO r (execKey2 s) := by
  unfold execKey2
  repeat' first
    | (with_reducible first
        | assumption | apply still_setFlag | apply still_updatePads | apply still_ite | apply still_next)
    | decide | (simp only [SUP_STATE, SUP_SAFETY_STAT, SUP_SAFETY_STAT_CLAIM_IN, SUP_SAFETY_STAT_KEY2]; omega)

theorem still_execClaimInChange {r s : State} (h : Still r s) (level : Bool) :
    StillO r (execClaimInChange level s) := by
  unfold execClaimInChange
  repeat' first
    | (with_reducible first
        | assumption | apply still_setFlag | apply still_setTw | apply still_updatePads | apply still_ite | apply still_next
        | (apply still_mk <;> first | rfl | assumption))
    | decide | (simp only [SUP_STATE, SUP_SAFETY_STAT, SUP_SAFETY_STAT_CLAIM_IN, SUP_SAFETY_STAT_KEY2]; omega)

theorem still_execClaimDisagree {r s : State} (h : Still r s) :
    StillO r (execClaimDisagree s) := by
  unfold execClaimDisagree
  repeat' first
    | (with_reducible first
        | assumption | apply still_raise | apply still_ite | apply still_next | (apply still_mk <;> first | rfl | assumption))
    | decide | (simp only [SUP_STATE, islSP, SUP_SAFETY_STAT]; omega)

theorem still_monitorVerdict {r s : State} (h : Still r s) (f : Fld) (e : Nat) (bad : Bool) :
    Still r (State.monitorVerdict s f e bad) := by
  unfold State.monitorVerdict
  repeat' first
    | (with_reducible first
        | assumption | apply still_setFlag | apply still_raise | apply still_ite)
    | decide | (simp only [SUP_STATE, SUP_SAFETY_STAT, islSP]; omega)

theorem still_judgeSquelch {r s : State} (h : Still r s) :
    Still r (State.judgeSquelch s) := by
  unfold State.judgeSquelch
  repeat' first
    | (with_reducible first
        | assumption | apply still_squelchClose | apply still_ite)
    | decide | (simp only [SUP_STATE, SUP_SAFETY_STAT, SUP_SAFETY_STAT_MON_A, SUP_SAFETY_STAT_MON_B]; omega)

theorem still_execMonitorEvaluation {r s : State} (h : Still r s) (phaseA : Int) (phaseB : Int) :
    StillO r (execMonitorEvaluation phaseA phaseB s) := by
  unfold execMonitorEvaluation
  repeat' first
    | (with_reducible first
        | assumption | apply still_monitorVerdict | apply still_judgeSquelch | apply still_ite | apply still_next
        | (apply still_mk <;> first | rfl | assumption))
    | decide | (simp only [SUP_STATE, islTM, SUP_SAFETY_STAT_MON_A, SUP_SAFETY_STAT_MON_B]; omega)

theorem still_execSquelchRelease {r s : State} (h : Still r s) :
    StillO r (execSquelchRelease s) := by
  unfold execSquelchRelease
  repeat' first
    | (with_reducible first
        | assumption | apply still_setFlag | apply still_raise | apply still_ite | apply still_next)
    | decide
    | (simp only [SUP_STATE, islTM, SUP_SAFETY_STAT, SUP_SAFETY_STAT_MON_A, SUP_SAFETY_STAT_MON_B, SUP_SAFETY_STAT_SQUELCH, islSP]; omega)

theorem still_execSafeCountClear {r s : State} (h : Still r s) :
    StillO r (execSafeCountClear s) := by
  unfold execSafeCountClear
  repeat' first
    | (with_reducible first
        | assumption | apply still_setFld | apply still_ite | apply still_next)
    | decide | (simp only [SUP_STATE, SUP_TO_STAT, SUP_TO_STAT_SAFE_COUNT]; omega)

theorem still_kick {r s : State} (h : Still r s) (checked : Bool) (kick : Nat) (token : Nat) :
    Still r (State.kick s checked kick token) := by
  unfold State.kick
  repeat' first
    | (with_reducible first
        | assumption | apply still_setFld | apply still_setReg | apply still_ite | (apply still_mk <;> first | rfl | assumption)
        | (apply still_mk <;> first | rfl | assumption | apply still_setFld | apply still_setReg | apply still_ite))
    | decide | (simp only [SUP_STATE, SUP_L7_KICK, SUP_L7_KICK_RESULT, SUP_L7_KICK_TOKEN]; omega) | extract_lets +onlyGivenNames x
    | intro x

end Sys2Proof.Machine
end

