-- ==== Sys2Proof/Laws/StillLine.lean ====
section
/-! SUPPORT. The operations of Machine/Line.lean that neither store to memory nor move the life cycle leave both alone. -/

namespace Sys2Proof.Machine

theorem still_setLstat {r s : State} (h : Still r s) (n : Nat) (f : Fld) (b : Bool) :
    Still r (State.setLstat s n f b) := by
  unfold State.setLstat
  repeat' first
    | (with_reducible first
        | assumption | apply still_setBitAt | apply still_setFlag | apply still_ite)
    | decide | (simp only [SUP_STATE, LINE_STICKY, LINE_STAT]; omega)

theorem still_lineEvent {r s : State} (h : Still r s) (n : Nat) (k : Nat) (data : List Word) :
    Still r (State.lineEvent s n k data) := by
  unfold State.lineEvent
  repeat' first
    | (with_reducible first
        | assumption | apply still_raise | apply still_ite)
    | decide | (simp only [SUP_STATE, LINE_CFG, LINE_CFG_EN, islLP]; omega)

theorem still_lineDefect {r s : State} (h : Still r s) (n : Nat) (f : Fld) (b : Bool) (kOn : Nat) (kOff : Nat) (data : List Word) :
    Still r (State.lineDefect s n f b kOn kOff data) := by
  unfold State.lineDefect
  repeat' first
    | (with_reducible first
        | assumption | apply still_setLstat | apply still_lineEvent | apply still_ite)
    | decide

theorem still_lineActs {r s : State} (h : Still r s) (n : Nat) :
    Still r (State.lineActs s n) := by
  unfold State.lineActs
  repeat' first
    | (with_reducible first
        | assumption | apply still_setLstat | apply still_setLine | apply still_lineDefect | apply still_ite
        | (apply still_mk <;> first | rfl | assumption))
    | decide
    | (simp only [SUP_STATE, LINE_STAT_HOLDOFF, LINE_CFG, LINE_CFG_EN, LINE_STAT_SF, LINE_DEG_CFG, LINE_DEG_CFG_AIS_ON_SF, LINE_STAT_AIS_OUT, LINE_STAT_TSF, LINE_STAT_TSD, LINE_STAT_SD]; omega)

theorem still_lineActions {r s : State} (h : Still r s) (n : Nat) :
    Still r (State.lineActions s n) := by
  unfold State.lineActions
  repeat' first
    | (with_reducible first
        | assumption | apply still_lineActs | apply still_mspPort | apply still_roleEval)
    | decide

theorem still_lineFreeze {r s : State} (h : Still r s) (n : Nat) :
    Still r (State.lineFreeze s n) := by
  unfold State.lineFreeze
  repeat' first
    | (with_reducible first
        | assumption | apply still_setFlag | apply still_setLine | apply still_ite | (apply still_mk <;> first | rfl | assumption))
    | decide
    | (simp only [SUP_STATE, LINE_STAT_LOS, LINE_STAT_LOF, LINE_STAT_MSAIS, LINE_K_RX, LINE_K_RX_VALID, LINE_S1, LINE_S1_RX_VALID]; omega)

theorem still_setFramer {r s : State} (h : Still r s) (n : Nat) (st : Nat) :
    Still r (State.setFramer s n st) := by
  unfold State.setFramer
  repeat' first
    | (with_reducible first
        | assumption | apply still_setFld | apply still_setLine | apply still_count | apply still_lineDefect | apply still_ite
        | (apply still_mk <;> first | rfl | assumption))
    | decide | (simp only [SUP_STATE, LINE_FRM_STAT, LINE_FRM_STAT_STATE, LINE_OOF_CNT, LINE_STAT_OOF]; omega)

theorem still_leaveDark {r s : State} (h : Still r s) (n : Nat) :
    Still r (State.leaveDark s n) := by
  unfold State.leaveDark
  repeat' first
    | (with_reducible first
        | assumption | apply still_setFramer | apply still_ite)
    | decide | (simp only [SUP_STATE, LINE_FRM_STAT, LINE_FRM_STAT_STATE, LINE_STAT_LOS, LINE_STAT_CDR_LOCK]; omega)

theorem still_updateLos {r s : State} (h : Still r s) (n : Nat) :
    Still r (State.updateLos s n) := by
  unfold State.updateLos
  repeat' first
    | (with_reducible first
        | assumption | apply still_lineDefect | apply still_setLine | apply still_setFramer | apply still_leaveDark
        | apply still_lineFreeze | apply still_ite | (apply still_mk <;> first | rfl | assumption))
    | decide | (simp only [SUP_STATE, LINE_STAT_LOS]; omega)

theorem still_execLosBallChange {r s : State} (h : Still r s) (n : Fin 8) (level : Bool) :
    StillO r (execLosBallChange n level s) := by
  unfold execLosBallChange
  repeat' first
    | (with_reducible first
        | assumption | apply still_setLstat | apply still_lineEvent | apply still_updateLos | apply still_lineActions | apply still_ite
        | apply still_next | (apply still_mk <;> first | rfl | assumption))
    | decide | (simp only [SUP_STATE, islLP, LINE_STAT_LOS_PIN]; omega)

theorem still_execElectricalLos {r s : State} (h : Still r s) (n : Fin 8) (lost : Bool) :
    StillO r (execElectricalLos n lost s) := by
  unfold execElectricalLos
  repeat' first
    | (with_reducible first
        | assumption | apply still_setLine | apply still_updateLos | apply still_lineActions | apply still_ite | apply still_next
        | (apply still_mk <;> first | rfl | assumption))
    | decide | (simp only [SUP_STATE, islLP]; omega)

theorem still_execModAbsChange {r s : State} (h : Still r s) (n : Fin 8) (level : Bool) :
    StillO r (execModAbsChange n level s) := by
  unfold execModAbsChange
  repeat' first
    | (with_reducible first
        | assumption | apply still_setLine | apply still_setLstat | apply still_lineEvent | apply still_updateLaser
        | apply still_updateLos | apply still_lineActions | apply still_ite | apply still_next
        | (apply still_mk <;> first | rfl | assumption))
    | decide | (simp only [SUP_STATE, islLP, LINE_FRM_STAT, LINE_FRM_STAT_STATE, LINE_STAT_MOD_ABS, LINE_STAT_HOLDOFF]; omega)

theorem still_execModAbsSettle {r s : State} (h : Still r s) (n : Fin 8) :
    StillO r (execModAbsSettle n s) := by
  unfold execModAbsSettle
  repeat' first
    | (with_reducible first
        | assumption | apply still_setLine | apply still_updateLaser | apply still_ite | apply still_next
        | (apply still_mk <;> first | rfl | assumption))
    | decide | (simp only [SUP_STATE, islLP]; omega)

theorem still_execHoldoffEnd {r s : State} (h : Still r s) (n : Fin 8) :
    StillO r (execHoldoffEnd n s) := by
  unfold execHoldoffEnd
  repeat' first
    | (with_reducible first
        | assumption | apply still_setLstat | apply still_lineEvent | apply still_lineActions | apply still_ite | apply still_next)
    | decide | (simp only [SUP_STATE, islLP, LINE_STAT_HOLDOFF]; omega)

theorem still_execCdrLockChange {r s : State} (h : Still r s) (n : Fin 8) (locked : Bool) :
    StillO r (execCdrLockChange n locked s) := by
  unfold execCdrLockChange
  repeat' first
    | (with_reducible first
        | assumption | apply still_setLstat | apply still_leaveDark | apply still_lineEvent | apply still_ite | apply still_next)
    | decide | (simp only [SUP_STATE, islLP, LINE_STAT_CDR_LOCK]; omega)

theorem still_framerStep {r s : State} (h : Still r s) (n : Nat) (ok : Bool) (f : LineFrame) :
    Still r (State.framerStep s n ok f) := by
  unfold State.framerStep
  repeat' first
    | (with_reducible first
        | assumption | apply still_setFramer | apply still_setLine | refine still_fst ?_ (by assumption) | apply still_ite
        | (apply still_mk <;> first | rfl | assumption))
    | decide | (simp only [SUP_STATE, LINE_FRM_STAT, LINE_FRM_STAT_STATE]; omega) | extract_lets +onlyGivenNames x | intro x hx | intro x
    | split

theorem still_lofStep {r s : State} (h : Still r s) (n : Nat) :
    Still r (State.lofStep s n) := by
  unfold State.lofStep
  repeat' first
    | (with_reducible first
        | assumption | apply still_setLine | apply still_setFld | apply still_lineDefect | apply still_ite
        | (apply still_mk <;> first | rfl | assumption))
    | decide | (simp only [SUP_STATE, LINE_FRM_STAT, LINE_FRM_STAT_STATE, LINE_FRM_STAT_LOFI, LINE_STAT_LOS, LINE_STAT_LOF]; omega)

theorem still_lowDetect {r s : State} (h : Still r s) (n : Nat) (low : Nat) :
    Still r (State.lowDetect s n low) := by
  unfold State.lowDetect
  repeat' first
    | (with_reducible first
        | assumption | apply still_setLine | apply still_setFld | apply still_lineDefect | apply still_ite
        | (apply still_mk <;> first | rfl | assumption))
    | decide | (simp only [SUP_STATE, LINE_K_RX, LINE_K_RX_K2_LOW, LINE_STAT_MSAIS, LINE_STAT_MSRDI]; omega)

theorem still_kFilter {r s : State} (h : Still r s) (n : Nat) (v : Nat) :
    Still r (State.kFilter s n v) := by
  unfold State.kFilter
  repeat' first
    | (with_reducible first
        | assumption | apply still_setLine | apply still_setFld | apply still_setFlag | apply still_lineEvent | apply still_lineDefect
        | apply still_ite | (apply still_mk <;> first | rfl | assumption))
    | decide
    | (simp only [SUP_STATE, LINE_K_CFG, LINE_K_CFG_PERSIST, LINE_K_RX, LINE_K_RX_K1, LINE_K_RX_K2_HIGH, LINE_K_RX_VALID, LINE_STAT_KINC]; omega)

theorem still_ssmFilter {r s : State} (h : Still r s) (n : Nat) (v : Nat) :
    Still r (State.ssmFilter s n v) := by
  unfold State.ssmFilter
  repeat' first
    | (with_reducible first
        | assumption | apply still_setLine | apply still_setFld | apply still_setFlag | apply still_lineEvent | apply still_ite
        | (apply still_mk <;> first | rfl | assumption))
    | decide | (simp only [SUP_STATE, LINE_S1, LINE_S1_RX_VALID, LINE_S1_RX]; omega)

theorem still_judgeTim {r s : State} (h : Still r s) (n : Nat) :
    Still r (State.judgeTim s n) := by
  unfold State.judgeTim
  repeat' first
    | (with_reducible first
        | assumption | apply still_lineDefect)
    | decide | (simp only [SUP_STATE, LINE_J0_ACC, LINE_J0_EXP, LINE_J0_CFG, LINE_J0_CFG_MODE, LINE_STAT_TIM]; omega)

theorem still_acceptTrace {r s : State} (h : Still r s) (n : Nat) (t0 : List Byte) :
    Still r (State.acceptTrace s n t0) := by
  unfold State.acceptTrace
  repeat' first
    | (with_reducible first
        | assumption | apply still_each | apply still_setReg | apply still_setLine | apply still_lineEvent | apply still_judgeTim
        | apply still_ite | (apply still_mk <;> first | rfl | assumption))
    | decide | (simp only [SUP_STATE, LINE_J0_ACC]; omega) | extract_lets +onlyGivenNames x | intro x hx | intro x

theorem still_tracePeriod {r s : State} (h : Still r s) (n : Nat) (t0 : List Byte) :
    Still r (State.tracePeriod s n t0) := by
  unfold State.tracePeriod
  repeat' first
    | (with_reducible first
        | assumption | apply still_setLine | apply still_acceptTrace | apply still_ite | (apply still_mk <;> first | rfl | assumption))
    | decide

theorem still_traceByte {r s : State} (h : Still r s) (n : Nat) (b : Byte) :
    Still r (State.traceByte s n b) := by
  unfold State.traceByte
  repeat' first
    | (with_reducible first
        | assumption | apply still_tracePeriod | apply still_setLine | apply still_count | refine still_fst ?_ (by assumption)
        | apply still_ite | (apply still_mk <;> first | rfl | assumption))
    | decide | (simp only [SUP_STATE, LINE_J0_CFG, LINE_J0_CFG_MODE, LINE_J0_CRC_CNT]; omega) | extract_lets +onlyGivenNames x | intro x
    | split

theorem still_spoilWindows {r s : State} (h : Still r s) (n : Nat) :
    Still r (State.spoilWindows s n) := by
  unfold State.spoilWindows
  repeat' first
    | (with_reducible first
        | assumption | apply still_setLine | (apply still_mk <;> first | rfl | assumption))
    | decide

theorem still_parityStep {r s : State} (h : Still r s) (n : Nat) (f : RxFrame) :
    Still r (State.parityStep s n f) := by
  unfold State.parityStep
  repeat' first
    | (with_reducible first
        | assumption | apply still_count | apply still_setLine | apply still_spoilWindows | apply still_ite
        | (apply still_mk <;> first | rfl | assumption))
    | decide | (simp only [SUP_STATE, LINE_STAT_LOS, LINE_STAT_LOF, LINE_B1_CNT, LINE_B2_CNT, LINE_REI_CNT]; omega)

theorem still_overheadStep {r s : State} (h : Still r s) (n : Nat) (f : RxFrame) :
    Still r (State.overheadStep s n f) := by
  unfold State.overheadStep
  repeat' first
    | (with_reducible first
        | assumption | apply still_setReg | apply still_setLine | apply still_parityStep | apply still_lowDetect | apply still_lineFreeze
        | apply still_kFilter | apply still_ssmFilter | apply still_traceByte | apply still_ite
        | (apply still_mk <;> first | rfl | assumption))
    | decide | (simp only [SUP_STATE, LINE_K_RAW, LINE_OH_RX, LINE_STAT_LOS, LINE_STAT_LOF, LINE_STAT_MSAIS]; omega)

theorem still_execLineFrame {r s : State} (h : Still r s) (n : Fin 8) (f : LineFrame) :
    StillO r (execLineFrame n f s) := by
  unfold execLineFrame
  repeat' first
    | (with_reducible first
        | assumption | apply still_framerStep | apply still_lofStep | apply still_overheadStep | apply still_spoilWindows
        | apply still_lineFreeze | apply still_lineActions | apply still_ite | apply still_next)
    | decide | (simp only [SUP_STATE, LINE_FRM_STAT, LINE_FRM_STAT_STATE]; omega)

theorem still_judgeBer {r s : State} (h : Still r s) (n : Nat) (win : List (Option Nat)) (exp : Nat) (f : Fld) (kOn : Nat) (kOff : Nat) :
    Still r (State.judgeBer s n win exp f kOn kOff) := by
  unfold State.judgeBer
  repeat' first
    | (with_reducible first
        | assumption | apply still_lineDefect | apply still_ite)
    | decide

theorem still_execBerSubwindowEnd {r s : State} (h : Still r s) (n : Fin 8) (d : BerDetector) :
    StillO r (execBerSubwindowEnd n d s) := by
  unfold execBerSubwindowEnd
  repeat' first
    | (with_reducible first
        | assumption | apply still_setLine | apply still_setFld | apply still_judgeBer | apply still_lineActions
        | refine still_fst ?_ (by assumption) | apply still_ite | apply still_next | (apply still_mk <;> first | rfl | assumption))
    | decide
    | (simp only [SUP_STATE, LINE_BER_STAT, LINE_BER_STAT_EXC_SUM, LINE_DEG_CFG, LINE_DEG_CFG_SF_EXP, LINE_STAT_SF, LINE_BER_STAT_DEG_SUM, LINE_DEG_CFG_SD_EXP, LINE_STAT_SD]; omega)
    | extract_lets +onlyGivenNames x | intro x | split

theorem still_setAls {r s : State} (h : Still r s) (n : Nat) (st : Nat) :
    Still r (State.setAls s n st) := by
  unfold State.setAls
  repeat' first
    | (with_reducible first
        | assumption | apply still_setFld | apply still_updateLaser)
    | decide | (simp only [SUP_STATE, LINE_FRM_STAT, LINE_FRM_STAT_ALS]; omega)

theorem still_execAlsDeactivation {r s : State} (h : Still r s) (n : Fin 8) :
    StillO r (execAlsDeactivation n s) := by
  unfold execAlsDeactivation
  repeat' first
    | (with_reducible first
        | assumption | apply still_setAls | apply still_lineEvent | apply still_ite | apply still_next)
    | decide | (simp only [SUP_STATE, LINE_CFG, LINE_CFG_ALS_EN, LINE_STAT_LOS]; omega)

theorem still_execAlsRestartPulse {r s : State} (h : Still r s) (n : Fin 8) :
    StillO r (execAlsRestartPulse n s) := by
  unfold execAlsRestartPulse
  repeat' first
    | (with_reducible first
        | assumption | apply still_setAls | apply still_lineEvent | apply still_ite | apply still_next)
    | decide

theorem still_execAlsPulseEnd {r s : State} (h : Still r s) (n : Fin 8) :
    StillO r (execAlsPulseEnd n s) := by
  unfold execAlsPulseEnd
  repeat' first
    | (with_reducible first
        | assumption | apply still_setFld | apply still_setAls | apply still_ite | apply still_next)
    | decide | (simp only [SUP_STATE, LINE_STAT_LOS, LINE_ALS_CMD, LINE_ALS_CMD_RESULT]; omega)

theorem still_execAlsLosClear {r s : State} (h : Still r s) (n : Fin 8) :
    StillO r (execAlsLosClear n s) := by
  unfold execAlsLosClear
  repeat' first
    | (with_reducible first
        | assumption | apply still_setFld | apply still_setAls | apply still_lineEvent | apply still_ite | apply still_next)
    | decide | (simp only [SUP_STATE, LINE_STAT_LOS, LINE_ALS_CMD, LINE_ALS_CMD_RESULT]; omega)

theorem still_alsCommand {r s : State} (h : Still r s) (n : Nat) (cmd : Nat) (token : Nat) :
    Still r (State.alsCommand s n cmd token) := by
  unfold State.alsCommand
  repeat' first
    | (with_reducible first
        | assumption | apply still_setReg | apply still_setAls | apply still_lineEvent | apply still_setFld | apply still_ite)
    | decide | (simp only [SUP_STATE, LINE_ALS_CMD, LINE_ALS_CMD_TOKEN, LINE_ALS_CMD_RESULT]; omega)

theorem still_execSpLaserShutdown {r s : State} (h : Still r s) (n : Fin 8) (losHeld : Bool) :
    StillO r (execSpLaserShutdown n losHeld s) := by
  unfold execSpLaserShutdown
  repeat' first
    | (with_reducible first
        | assumption | apply still_setBitAt | apply still_raise | apply still_ite | apply still_next)
    | decide | (simp only [SUP_STATE, SUP_ALS_CFG, islLP, SUP_SAFETY_STAT, LINE_STAT_TXDIS, islSP]; omega)

theorem still_clearLine {r s : State} (h : Still r s) (n : Nat) (st : Nat) :
    Still r (State.clearLine s n st) := by
  unfold State.clearLine
  repeat' first
    | (with_reducible first
        | assumption | apply still_setFld | apply still_setFlag | apply still_setLine | (apply still_mk <;> first | rfl | assumption))
    | decide
    | (simp only [SUP_STATE, LINE_STAT, LINE_STAT_HOLDOFF, LINE_FRM_STAT, LINE_FRM_STAT_STATE, LINE_FRM_STAT_LOFI, LINE_K_RX, LINE_K_RX_VALID, LINE_S1, LINE_S1_RX_VALID]; omega)

theorem still_startLine {r s : State} (h : Still r s) (n : Nat) :
    Still r (State.startLine s n) := by
  unfold State.startLine
  repeat' first
    | (with_reducible first
        | assumption | apply still_clearLine | apply still_setLstat | apply still_updateLaser | apply still_updateLos
        | apply still_lineActions)
    | decide | (simp only [SUP_STATE, LINE_STAT_DISABLED]; omega)

theorem still_enableLine {r s : State} (h : Still r s) (n : Nat) :
    Still r (State.enableLine s n) := by
  unfold State.enableLine
  repeat' first
    | (with_reducible first
        | assumption | apply still_lineEvent | apply still_startLine)
    | decide

theorem still_haltLine {r s : State} (h : Still r s) (n : Nat) :
    Still r (State.haltLine s n) := by
  unfold State.haltLine
  repeat' first
    | (with_reducible first
        | assumption | apply still_clearLine | apply still_setLstat | apply still_setFld | apply still_updateLaser
        | apply still_lineActions)
    | decide | (simp only [SUP_STATE, LINE_STAT_DISABLED, LINE_FRM_STAT, LINE_FRM_STAT_ALS]; omega)

theorem still_disableLine {r s : State} (h : Still r s) (n : Nat) :
    Still r (State.disableLine s n) := by
  unfold State.disableLine
  repeat' first
    | (with_reducible first
        | assumption | apply still_lineEvent | apply still_haltLine)
    | decide

theorem still_bootLine {r s : State} (h : Still r s) (n : Nat) :
    Still r (State.bootLine s n) := by
  unfold State.bootLine
  repeat' first
    | (with_reducible first
        | assumption | apply still_setFlag | apply still_startLine | apply still_haltLine | apply still_ite)
    | decide | (simp only [SUP_STATE, LINE_STAT, LINE_STAT_LOS_PIN, LINE_STAT_MOD_ABS, LINE_CFG, LINE_CFG_EN]; omega)

theorem still_lineEnWrite {r s : State} (h : Still r s) (n : Nat) (en : Bool) :
    Still r (State.lineEnWrite s n en) := by
  unfold State.lineEnWrite
  repeat' first
    | (with_reducible first
        | assumption | apply still_serviceWrite | apply still_enableLine | apply still_disableLine | apply still_ite)
    | decide | (simp only [SUP_STATE, LINE_CFG, LINE_CFG_EN]; omega)

theorem still_buildFrame {r s : State} (h : Still r s) (n : Nat) (augs : List (List Byte)) :
    Still r (State.buildFrame s n augs) := by
  unfold State.buildFrame
  repeat' first
    | (with_reducible first
        | assumption | apply still_setLine | apply still_useFree | apply still_ite | (apply still_mk <;> first | rfl | assumption))
    | decide | (simp only [SUP_STATE, LINE_FORCE, LINE_FORCE_MSAIS, LINE_CFG, LINE_CFG_SCR_EN, LINE_CFG_TX_INV]; omega)

end Sys2Proof.Machine
end

