-- ==== Sys2Proof/Laws/StillPath.lean ====
section
/-! SUPPORT. The operations of Machine/Path.lean that neither store to memory nor move the life cycle leave both alone. -/

namespace Sys2Proof.Machine

theorem still_setPath {r s : State} (h : Still r s) (p : PathId) (x : PathPort) :
    Still r (State.setPath s p x) := by
  unfold State.setPath
  repeat' first
    | (with_reducible first
        | assumption | (apply still_mk <;> first | rfl | assumption))
    | decide

theorem still_updatePathSum {r s : State} (h : Still r s) (k : Nat) :
    Still r (State.updatePathSum s k) := by
  unfold State.updatePathSum
  repeat' first
    | (with_reducible first
        | assumption | apply still_setBitAt)
    | decide | (simp only [SUP_STATE, PATH_HO1, PATH_LO1, PATH_SUM]; omega)

theorem still_pathEvent {r s : State} (h : Still r s) (p : PathId) (e : Nat) :
    Still r (State.pathEvent s p e) := by
  unfold State.pathEvent
  repeat' first
    | (with_reducible first
        | assumption | apply still_raise)
    | decide | (simp only [SUP_STATE, islPX]; omega) | exact pathStatAddr_ne _

theorem still_setTrib {r s : State} (h : Still r s) (p : Nat) (x : TribPort) :
    Still r (State.setTrib s p x) := by
  unfold State.setTrib
  repeat' first
    | (with_reducible first
        | assumption | (apply still_mk <;> first | rfl | assumption))
    | decide

theorem still_setStore {r s : State} (h : Still r s) (p : Nat) (l : List Bool) :
    Still r (State.setStore s p l) := by
  unfold State.setStore
  repeat' first
    | (with_reducible first
        | assumption | apply still_setTrib | apply still_setFld | (apply still_mk <;> first | rfl | assumption))
    | decide | (simp only [SUP_STATE, TRIB_TX_STAT, TRIB_TX_STAT_FILL]; omega)

theorem still_useFrees {r s : State} (h : Still r s) (k : Nat) :
    Still r (State.useFrees s k) := by
  unfold State.useFrees
  repeat' first
    | (with_reducible first
        | assumption | (apply still_mk <;> first | rfl | assumption))
    | decide

theorem still_fillStore {r s : State} (h : Still r s) (p : Nat) (n : Nat) :
    Still r (State.fillStore s p n) := by
  unfold State.fillStore
  repeat' first
    | (with_reducible first
        | assumption | apply still_setStore | apply still_useFrees)
    | decide

theorem still_updateTribTx {r s : State} (h : Still r s) (p : Nat) :
    Still r (State.updateTribTx s p) := by
  unfold State.updateTribTx
  repeat' first
    | (with_reducible first
        | assumption | apply still_setFlag | apply still_fillStore | apply still_ite)
    | decide | (simp only [SUP_STATE, TRIB_STAT, TRIB_STAT_AIS_TX]; omega)

theorem still_updateTribs {r s : State} (h : Still r s) :
    Still r (State.updateTribs s) := by
  unfold State.updateTribs
  repeat' first
    | (with_reducible first
        | assumption | apply still_each | apply still_updateTribTx)
    | decide | (simp only [SUP_STATE, TRIB_CFG, TRIB_CFG_EN, islTR]; omega)

theorem still_setStoreFill {r s : State} (h : Still r s) (p : PathId) (v : Nat) :
    Still r (State.setStoreFill s p v) := by
  unfold State.setStoreFill
  repeat' first
    | (with_reducible first
        | assumption | apply still_setFld | refine still_fst ?_ (by assumption))
    | decide | (simp only [SUP_STATE, PATH_HO3, PATH_HO3_ES_FILL, PATH_LO3, PATH_LO3_ES_FILL]; omega) | extract_lets +onlyGivenNames x
    | intro x | split

theorem still_setPtrTx {r s : State} (h : Still r s) (p : PathId) (v : Nat) :
    Still r (State.setPtrTx s p v) := by
  unfold State.setPtrTx
  repeat' first
    | (with_reducible first
        | assumption | apply still_setFld | refine still_fst ?_ (by assumption))
    | decide | (simp only [SUP_STATE, PATH_HO2, PATH_HO2_PTR_TX, PATH_LO3, PATH_LO3_PTR_TX]; omega) | extract_lets +onlyGivenNames x
    | intro x | split

theorem still_recentre {r s : State} (h : Still r s) (p : PathId) :
    Still r (State.recentre s p) := by
  unfold State.recentre
  repeat' first
    | (with_reducible first
        | assumption | apply still_setStoreFill | apply still_setPtrTx | apply still_useFree | apply still_setPath | apply still_pathEvent
        | apply still_ite | (apply still_mk <;> first | rfl | assumption))
    | decide

theorem still_pointerStep {r s : State} (h : Still r s) (p : PathId) (fill : Nat) :
    Still r (State.pointerStep s p fill).1 := by
  unfold State.pointerStep
  repeat' first
    | (with_reducible first
        | assumption | apply still_recentre | apply still_setStoreFill | apply still_setPtrTx | apply still_setPath
        | refine still_fst ?_ (by assumption) | apply still_ite
        | (apply still_mk <;> first | rfl | assumption | apply still_recentre | apply still_setStoreFill | apply still_setPtrTx | apply still_setPath | apply still_ite))
    | decide
    | (extract_lets +onlyGivenNames x; refine (have hx : Still r x := ?_; ?_); (on_goal 1 => subst x); (on_goal 2 => clear_value x))
    | extract_lets +onlyGivenNames x | intro x | split

theorem still_sendVc {r s : State} (h : Still r s) (p : PathId) (ptr : BitVec 16) (vc : List Byte) (trace : Nat) :
    Still r (State.sendVc s p ptr vc trace) := by
  unfold State.sendVc
  repeat' first
    | (with_reducible first
        | assumption | apply still_setPath | (apply still_mk <;> first | rfl | assumption))
    | decide

theorem still_execPointerGeneration {r s : State} (h : Still r s) (p : PathId) (fill : Nat) (vc : List Byte) :
    StillO r (execPointerGeneration p fill vc s) := by
  unfold execPointerGeneration
  repeat' first
    | (with_reducible first
        | assumption | apply still_useFeed | apply still_pointerStep | apply still_sendVc | refine still_fst ?_ (by assumption)
        | apply still_ite | apply still_next)
    | decide | (simp only [SUP_STATE, islPX]; omega)
    | (extract_lets +onlyGivenNames x; refine (have hx : Still r x := ?_; ?_); (on_goal 1 => subst x); (on_goal 2 => clear_value x))
    | extract_lets +onlyGivenNames x | intro x | split

theorem still_setPtrRx {r s : State} (h : Still r s) (p : PathId) (v : Nat) :
    Still r (State.setPtrRx s p v) := by
  unfold State.setPtrRx
  repeat' first
    | (with_reducible first
        | assumption | apply still_setFld | refine still_fst ?_ (by assumption))
    | decide | (simp only [SUP_STATE, PATH_HO2, PATH_HO2_PTR_RX, PATH_LO3, PATH_LO3_PTR_RX]; omega) | extract_lets +onlyGivenNames x
    | intro x | split

theorem still_adoptPtr {r s : State} (h : Still r s) (p : PathId) (v : Nat) (always : Bool) :
    Still r (State.adoptPtr s p v always) := by
  unfold State.adoptPtr
  repeat' first
    | (with_reducible first
        | assumption | apply still_setPtrRx | apply still_pathEvent | apply still_ite)
    | decide

theorem still_movePtr {r s : State} (h : Still r s) (p : PathId) (st : Nat) (st' : Nat) (i : PtrInd) :
    Still r (State.movePtr s p st st' i) := by
  unfold State.movePtr
  repeat' first
    | (with_reducible first
        | assumption | apply still_setPath | apply still_setPtrRx | apply still_adoptPtr | refine still_fst ?_ (by assumption)
        | apply still_ite | (apply still_mk <;> first | rfl | assumption))
    | decide | extract_lets +onlyGivenNames x | intro x | split

theorem still_setRegBytes {r s : State} (h : Still r s) (a n : Nat) (bs : List Byte) (ha : SUP_STATE < a) : Still r (s.setRegBytes a n bs) :=
  still_each h _ _ fun _ hx _ => still_setReg hx _ _ (by omega)

theorem still_pathParity {r s : State} (h : Still r s) (p : PathId) (r0 : PathOverhead) :
    Still r (State.pathParity s p r0) := by
  unfold State.pathParity
  repeat' first
    | (with_reducible first
        | assumption | apply still_setPath | apply still_count | refine still_fst ?_ (by assumption)
        | (apply still_mk <;> first | rfl | assumption))
    | decide | (simp only [SUP_STATE, PATH_B3_CNT, PATH_HREI_CNT]; omega) | extract_lets +onlyGivenNames x | intro x | split

end Sys2Proof.Machine
end

