-- ==== Sys2Proof/Laws/StillIndex.lean ====
section
/-! SUPPORT. The operations of Machine/Index.lean that neither store to memory nor move the life cycle leave both alone. -/

namespace Sys2Proof.Machine

theorem still_conflict {r s : State} (h : Still r s) (e : Nat) :
    Still r (State.conflict s e) := by
  unfold State.conflict
  repeat' first
    | (with_reducible first
        | assumption | apply still_setIdx | apply still_idxEvent | apply still_ite)
    | decide | (simp only [SUP_STATE, IDX_STATUS_CONFLICT]; omega)

theorem still_takeEntry {r s : State} (h : Still r s) (e : Nat) (event : Nat) :
    Still r (State.takeEntry s e event) := by
  unfold State.takeEntry
  repeat' first
    | (with_reducible first
        | assumption | apply still_setFlag | apply still_setIdx | apply still_idxEvent | (apply still_mk <;> first | rfl | assumption))
    | decide | (simp only [SUP_STATE, IDX_STATUS, IDX_STATUS_CHECK_FAIL, IDX_STATUS_CONFLICT, IDX_STATUS_ACTIVE]; omega)

theorem still_activate {r s : State} (h : Still r s) (e : Nat) :
    Still r (State.activate s e) := by
  unfold State.activate
  repeat' first
    | (with_reducible first
        | assumption | apply still_conflict | apply still_checkFails | apply still_takeEntry | apply still_ite)
    | decide

theorem still_deactivate {r s : State} (h : Still r s) (e : Nat) :
    Still r (State.deactivate s e) := by
  unfold State.deactivate
  repeat' first
    | (with_reducible first
        | assumption | apply still_setReg | apply still_updateIdxStat | apply still_idxEvent | apply still_ite
        | (apply still_mk <;> first | rfl | assumption))
    | decide | (simp only [SUP_STATE, IDX_STATUS]; omega)

theorem still_sweepEntry {r s : State} (h : Still r s) (e : Nat) :
    Still r (State.sweepEntry s e) := by
  unfold State.sweepEntry
  repeat' first
    | (with_reducible first
        | assumption | apply still_checkFails | apply still_takeEntry | apply still_conflict | apply still_ite)
    | decide | (simp only [SUP_STATE, IDX_STATUS_CHECK_FAIL, IDX_STATUS_ACTIVE, IDX_STATUS_CONFLICT]; omega)

theorem still_execIndexCheckSweep {r s : State} (h : Still r s) :
    StillO r (execIndexCheckSweep s) := by
  unfold execIndexCheckSweep
  repeat' first
    | (with_reducible first
        | assumption | apply still_each | apply still_sweepEntry | apply still_updateTribs | apply still_ite | apply still_next)
    | decide | (simp only [SUP_STATE, islPX]; omega)

theorem still_dropSelector {r s : State} (h : Still r s) (e : Nat) :
    Still r (State.dropSelector s e) := by
  unfold State.dropSelector
  repeat' first
    | (with_reducible first
        | assumption | apply still_setReg | (apply still_mk <;> first | rfl | assumption))
    | decide | (simp only [SUP_STATE, IDX_STATUS]; omega)

theorem still_indexWrite {r s : State} (h : Still r s) (e : Nat) (k : Nat) (value : Word) :
    Still r (State.indexWrite s e k value) := by
  unfold State.indexWrite
  repeat' first
    | (with_reducible first
        | assumption | apply still_serviceWrite | apply still_respond | apply still_idxEvent | apply still_activate
        | apply still_deactivate | apply still_dropSelector | apply still_ite)
    | decide
    | (simp only [SUP_STATE, IDX_ENTRY_W3, IDX_ENTRY_W3_VALID, IDX_STATUS_CHECK_FAIL, IDX_ENTRY_A, IDX_ENTRY_W3_SNCP, IDX_ENTRY_W3_CMD]; omega)

theorem still_updateConds {r s : State} (h : Still r s) (e : Nat) :
    Still r (State.updateConds s e) := by
  unfold State.updateConds
  repeat' first
    | (with_reducible first
        | assumption | apply still_each | apply still_setFlag)
    | decide | (simp only [SUP_STATE, IDX_STATUS, IDX_SNCP_CFG, IDX_SNCP_CFG_HOLDOFF]; omega) | extract_lets +onlyGivenNames x
    | intro x hx | intro x

theorem still_startWtr {r s : State} (h : Still r s) (e : Nat) :
    Still r (State.startWtr s e) := by
  unfold State.startWtr
  repeat' first
    | (with_reducible first
        | assumption | apply still_setFld | apply still_idxEvent | (apply still_mk <;> first | rfl | assumption))
    | decide | (simp only [SUP_STATE, IDX_SNCP_CFG, IDX_SNCP_CFG_WTR_MIN, IDX_STATUS, IDX_STATUS_WTR_LEFT]; omega)

theorem still_stopWtr {r s : State} (h : Still r s) (e : Nat) :
    Still r (State.stopWtr s e) := by
  unfold State.stopWtr
  repeat' first
    | (with_reducible first
        | assumption | apply still_setFld | (apply still_mk <;> first | rfl | assumption))
    | decide | (simp only [SUP_STATE, IDX_STATUS, IDX_STATUS_WTR_LEFT]; omega)

theorem still_showWtr {r s : State} (h : Still r s) (e : Nat) :
    Still r (State.showWtr s e) := by
  unfold State.showWtr
  repeat' first
    | (with_reducible first
        | assumption | apply still_setFld | apply still_ite)
    | decide | (simp only [SUP_STATE, IDX_STATUS, IDX_STATUS_WTR_LEFT]; omega)

theorem still_selectSide {r s : State} (h : Still r s) (e : Nat) (ap : Bool) :
    Still r (State.selectSide s e ap) := by
  unfold State.selectSide
  repeat' first
    | (with_reducible first
        | assumption | apply still_setFlag | apply still_recentre | refine still_fst ?_ (by assumption) | apply still_ite)
    | decide | (simp only [SUP_STATE, IDX_STATUS, IDX_STATUS_SEL]; omega) | extract_lets +onlyGivenNames x | intro x | split

theorem still_noteSplit {r s : State} (h : Still r s) (e : Nat) (differs : Bool) :
    Still r (State.noteSplit s e differs) := by
  unfold State.noteSplit
  repeat' first
    | (with_reducible first
        | assumption | apply still_count | apply still_setTw | apply still_ite | (apply still_mk <;> first | rfl | assumption))
    | decide | (simp only [SUP_STATE, TWN_DIVERGE_CNT]; omega)

theorem still_applySelector {r s : State} (h : Still r s) (e : Nat) :
    Still r (State.applySelector s e) := by
  unfold State.applySelector
  repeat' first
    | (with_reducible first
        | assumption | apply still_noteSplit | apply still_setFld | apply still_selectSide | apply still_count | apply still_idxEvent
        | apply still_mirror | apply still_ite)
    | decide
    | (simp only [SUP_STATE, IDX_ENTRY_W3, IDX_ENTRY_W3_CMD, IDX_STATUS_SF_A, IDX_STATUS_SD_A, IDX_STATUS_SF_AP, IDX_STATUS_SD_AP, IDX_ENTRY_W3_REVERT, IDX_STATUS_SEL, IDX_STATUS, IDX_STATUS_REQ, IDX_SWITCH_CNT]; omega)

theorem still_evaluateSelector {r s : State} (h : Still r s) (e : Nat) :
    Still r (State.evaluateSelector s e) := by
  unfold State.evaluateSelector
  repeat' first
    | (with_reducible first
        | assumption | apply still_updateConds | apply still_stopWtr | apply still_startWtr | apply still_showWtr
        | apply still_applySelector | apply still_ite)
    | decide | (simp only [SUP_STATE, IDX_STATUS_SF_A, IDX_STATUS_SD_A, IDX_STATUS_SEL, IDX_ENTRY_W3, IDX_ENTRY_W3_REVERT]; omega)

theorem still_useSelector {r s : State} (h : Still r s) (e : Nat) (f : State → State) (hf : ∀ x, Still r x → Still r (f x)) :
    Still r (State.useSelector s e f) := by
  unfold State.useSelector
  repeat' first
    | (with_reducible first
        | assumption | apply still_checkUse | apply still_updateTribs | apply still_ite)
    | apply hf | decide

theorem still_execSncpEvaluation {r s : State} (h : Still r s) (e : Fin 4096) :
    StillO r (execSncpEvaluation e s) := by
  unfold execSncpEvaluation
  repeat' first
    | (with_reducible first
        | assumption | apply still_useSelector | apply still_evaluateSelector | apply still_updateTribs | apply still_next)
    | decide | extract_lets +onlyGivenNames x | intro x hx | intro x

theorem still_sncpCommand {r s : State} (h : Still r s) (w : Writer) (e : Nat) (cmd : Nat) :
    Still r (State.sncpCommand s w e cmd) := by
  unfold State.sncpCommand
  repeat' first
    | (with_reducible first
        | assumption | apply still_commandWrite | apply still_indexWrite)
    | decide | (simp only [SUP_STATE, islPX, IDX_ENTRY_W3, IDX_ENTRY_W3_CMD]; omega) | extract_lets +onlyGivenNames x | intro x hx
    | intro x

theorem still_execSncpHoldoffExpiry {r s : State} (h : Still r s) (e : Fin 4096) (c : SncpCond) :
    StillO r (execSncpHoldoffExpiry e c s) := by
  unfold execSncpHoldoffExpiry
  repeat' first
    | (with_reducible first
        | assumption | apply still_useSelector | apply still_setFlag | apply still_when | apply still_stopWtr | apply still_ite
        | apply still_next)
    | decide | (simp only [SUP_STATE, IDX_STATUS]; omega) | extract_lets +onlyGivenNames x | intro x hx | intro x

theorem still_execSncpWtrExpiry {r s : State} (h : Still r s) (e : Fin 4096) :
    StillO r (execSncpWtrExpiry e s) := by
  unfold execSncpWtrExpiry
  repeat' first
    | (with_reducible first
        | assumption | apply still_useSelector | apply still_stopWtr | apply still_idxEvent | apply still_applySelector
        | apply still_updateTribs | apply still_ite | apply still_next)
    | decide | extract_lets +onlyGivenNames x | intro x hx | intro x

end Sys2Proof.Machine
end

