-- ==== Sys2Proof/Laws/StillFac.lean ====
section
/-! SUPPORT. The operations of Machine/Fac.lean that neither store to memory nor move the life cycle leave both alone. -/

namespace Sys2Proof.Machine

theorem still_setEngine {r s : State} (h : Still r s) (n : Nat) (x : Engine) :
    Still r (State.setEngine s n x) := by
  unfold State.setEngine
  repeat' first
    | (with_reducible first
        | assumption | (apply still_mk <;> first | rfl | assumption))
    | decide

theorem still_setEgState {r s : State} (h : Still r s) (n : Nat) (st : Nat) :
    Still r (State.setEgState s n st) := by
  unfold State.setEgState
  repeat' first
    | (with_reducible first
        | assumption | apply still_setFld)
    | decide | (simp only [SUP_STATE, FAC_STAT, FAC_STAT_STATE]; omega)

theorem still_setTribFac {r s : State} (h : Still r s) (p : Nat) (b : Bool) :
    Still r (State.setTribFac s p b) := by
  unfold State.setTribFac
  repeat' first
    | (with_reducible first
        | assumption | apply still_setFlag | apply still_updateTribTx)
    | decide | (simp only [SUP_STATE, TRIB_STAT, TRIB_STAT_FAC]; omega)

theorem still_facFreeOne {r s : State} (h : Still r s) (n : Nat) :
    Still r (State.facFreeOne s n) := by
  unfold State.facFreeOne
  repeat' first
    | (with_reducible first
        | assumption | apply still_setFlag | apply still_setBitAt | apply still_raise | apply still_ite)
    | decide | (simp only [SUP_STATE, FAC_STAT, FAC_STAT_MODE, FAC_STAT_FREE, FAC_STICKY, islFC]; omega)

theorem still_facAssigned {r s : State} (h : Still r s) (n : Nat) :
    Still r (State.facAssigned s n) := by
  unfold State.facAssigned
  repeat' first
    | (with_reducible first
        | assumption | apply still_setFld | apply still_setEgState | apply still_facFreeOne | apply still_setTribFac | apply still_raise)
    | decide | (simp only [SUP_STATE, FAC_CFG, FAC_CFG_PORT, FAC_STAT, FAC_STAT_MODE, islFC]; omega)

theorem still_facQuiet {r s : State} (h : Still r s) (n : Nat) :
    Still r (State.facQuiet s n) := by
  unfold State.facQuiet
  repeat' first
    | (with_reducible first
        | assumption | apply still_setEngine | (apply still_mk <;> first | rfl | assumption))
    | decide

theorem still_facStopped {r s : State} (h : Still r s) (n : Nat) (reason : Nat) :
    Still r (State.facStopped s n reason) := by
  unfold State.facStopped
  repeat' first
    | (with_reducible first
        | assumption | apply still_raise)
    | decide | (simp only [SUP_STATE, islFC]; omega)

theorem still_facFault {r s : State} (h : Still r s) (n : Nat) (code : Nat) :
    Still r (State.facFault s n code) := by
  unfold State.facFault
  repeat' first
    | (with_reducible first
        | assumption | apply still_setEngine | apply still_setFld | apply still_setEgState | apply still_count | apply still_raise
        | (apply still_mk <;> first | rfl | assumption))
    | decide | (simp only [SUP_STATE, FAC_STAT, FAC_STAT_FAULT, FAC_CNT, islFC, FAC_STAT_STEP]; omega)

theorem still_facDead {r s : State} (h : Still r s) (n : Nat) (k : Nat) :
    Still r (State.facDead s n k) := by
  unfold State.facDead
  repeat' first
    | (with_reducible first
        | assumption | apply still_setFld | apply still_setEgState | apply still_setEngine | (apply still_mk <;> first | rfl | assumption))
    | decide | (simp only [SUP_STATE, FAC_STAT, FAC_STAT_STEP]; omega)

theorem still_facPlay {r s : State} (h : Still r s) (n : Nat) :
    Still r (State.facPlay s n) := by
  unfold State.facPlay
  repeat' first
    | (with_reducible first
        | assumption | apply still_setEgState)
    | decide

theorem still_facPulse {r s : State} (h : Still r s) (n : Nat) (bits : Nat) :
    Still r (State.facPulse s n bits) := by
  unfold State.facPulse
  repeat' first
    | (with_reducible first
        | assumption | apply still_setFld | apply still_facPlay | apply still_ite)
    | decide | (simp only [SUP_STATE, islFC, FAC_TRIG_STAT, FAC_TRIG_STAT_BITS, FAC_STEP_W2_WAIT, FAC_STAT, FAC_STAT_CAUSE]; omega)

theorem still_facPulseAll {r s : State} (h : Still r s) (bits : Nat) :
    Still r (State.facPulseAll s bits) := by
  unfold State.facPulseAll
  repeat' first
    | (with_reducible first
        | assumption | apply still_each | apply still_facPulse)
    | decide | extract_lets +onlyGivenNames x | intro x hx | intro x

theorem still_facPortPulse {r s : State} (h : Still r s) (port : Nat) (b : Nat) :
    Still r (State.facPortPulse s port b) := by
  unfold State.facPortPulse
  repeat' first
    | (with_reducible first
        | assumption | apply still_each | apply still_facPulse | apply still_ite)
    | decide | (simp only [SUP_STATE, FAC_CFG, FAC_CFG_ASSIGN, FAC_CFG_CMP_PORT]; omega) | extract_lets +onlyGivenNames x | intro x hx
    | intro x

theorem still_execFacTrigger {r s : State} (h : Still r s) (n : Fin 8) (trigs : BitVec 16) :
    StillO r (execFacTrigger n trigs s) := by
  unfold execFacTrigger
  repeat' first
    | (with_reducible first
        | assumption | apply still_facPulse | apply still_next)
    | decide

theorem still_facRefuse {r s : State} (h : Still r s) (n : Nat) :
    Still r (State.facRefuse s n) := by
  unfold State.facRefuse
  repeat' first
    | (with_reducible first
        | assumption | apply still_setFld)
    | decide | (simp only [SUP_STATE, FAC_CMD, FAC_CMD_RESULT]; omega)

theorem still_facAccept {r s : State} (h : Still r s) (n : Nat) (cmd : Nat) (arg : Nat) (token : Nat) (result : Nat) :
    Still r (State.facAccept s n cmd arg token result) := by
  unfold State.facAccept
  repeat' first
    | (with_reducible first
        | assumption | apply still_setReg)
    | decide | (simp only [SUP_STATE, FAC_CMD]; omega)

theorem still_facStart {r s : State} (h : Still r s) (n : Nat) (k : Nat) (token : Nat) :
    Still r (State.facStart s n k token) := by
  unfold State.facStart
  repeat' first
    | (with_reducible first
        | assumption | apply still_facAccept | apply still_setEngine | apply still_setReg | apply still_setFld | apply still_facDead
        | apply still_raise | apply still_facRefuse | apply still_ite | (apply still_mk <;> first | rfl | assumption))
    | decide | (simp only [SUP_STATE, FAC_STREAM_STAT, FAC_VEC_FIRST, FAC_STAT, FAC_STAT_FAULT, islFC]; omega)

theorem still_facStop {r s : State} (h : Still r s) (n : Nat) (token : Nat) :
    Still r (State.facStop s n token) := by
  unfold State.facStop
  repeat' first
    | (with_reducible first
        | assumption | apply still_facRefuse | apply still_facAccept | apply still_facQuiet | apply still_setEgState
        | apply still_facStopped | apply still_ite)
    | decide

theorem still_facTrig {r s : State} (h : Still r s) (n : Nat) (token : Nat) :
    Still r (State.facTrig s n token) := by
  unfold State.facTrig
  repeat' first
    | (with_reducible first
        | assumption | apply still_facAccept | apply still_facPulse | apply still_facRefuse | apply still_ite)
    | decide

theorem still_facAssign {r s : State} (h : Still r s) (n : Nat) (port : Nat) (cmp : Nat) (token : Nat) :
    Still r (State.facAssign s n port cmp token) := by
  unfold State.facAssign
  repeat' first
    | (with_reducible first
        | assumption | apply still_facAccept | apply still_setTribFac | apply still_serviceWrite | apply still_facAssigned
        | apply still_facRefuse | apply still_ite)
    | decide | (simp only [SUP_STATE, FAC_CFG, FAC_CFG_PORT, FAC_CFG_ASSIGN, FAC_CFG_CMP_PORT]; omega)

theorem still_facOff {r s : State} (h : Still r s) (n : Nat) :
    Still r (State.facOff s n) := by
  unfold State.facOff
  repeat' first
    | (with_reducible first
        | assumption | apply still_facQuiet | apply still_setFlag | apply still_setEgState | apply still_setTribFac
        | apply still_facStopped | apply still_raise | apply still_ite)
    | decide | (simp only [SUP_STATE, FAC_CFG, FAC_CFG_ASSIGN, FAC_CFG_PORT, islFC]; omega)

theorem still_facRelease {r s : State} (h : Still r s) (n : Nat) (token : Nat) :
    Still r (State.facRelease s n token) := by
  unfold State.facRelease
  repeat' first
    | (with_reducible first
        | assumption | apply still_facRefuse | apply still_facAccept | apply still_facOff | apply still_ite)
    | decide

theorem still_facReset {r s : State} (h : Still r s) (n : Nat) :
    Still r (State.facReset s n) := by
  unfold State.facReset
  repeat' first
    | (with_reducible first
        | assumption | apply still_facQuiet | apply still_setEgState)
    | decide

theorem still_facCal {r s : State} (h : Still r s) (n : Nat) (token : Nat) :
    Still r (State.facCal s n token) := by
  unfold State.facCal
  repeat' first
    | (with_reducible first
        | assumption | apply still_facAccept | apply still_setEngine | apply still_facRefuse | apply still_ite
        | (apply still_mk <;> first | rfl | assumption))
    | decide

theorem still_facSetSkew {r s : State} (h : Still r s) (n : Nat) (skew : Nat) (token : Nat) :
    Still r (State.facSetSkew s n skew token) := by
  unfold State.facSetSkew
  repeat' first
    | (with_reducible first
        | assumption | apply still_facAccept | apply still_serviceWrite)
    | decide | (simp only [SUP_STATE, FAC_SKEW]; omega)

theorem still_facCommand {r s : State} (h : Still r s) (n : Nat) (cmd : Nat) (arg : Nat) (token : Nat) :
    Still r (State.facCommand s n cmd arg token) := by
  unfold State.facCommand
  repeat' first
    | (with_reducible first
        | assumption | apply still_facStart | apply still_facStop | apply still_facTrig | apply still_facAssign | apply still_facRelease
        | apply still_facCal | apply still_facSetSkew | apply still_facRefuse | apply still_raise | refine still_fst ?_ (by assumption)
        | apply still_ite)
    | decide | (simp only [SUP_STATE, FAC_CMD, FAC_CMD_TOKEN, islFC]; omega) | extract_lets +onlyGivenNames x | intro x | split

theorem still_facWrite {r s : State} (h : Still r s) (w : Writer) (n : Nat) (cmd : Nat) (arg : Nat) (token : Nat) :
    Still r (State.facWrite s w n cmd arg token) := by
  unfold State.facWrite
  repeat' first
    | (with_reducible first
        | assumption | apply still_commandWrite | apply still_facCommand)
    | decide | (simp only [SUP_STATE, islFC, FAC_CMD]; omega) | extract_lets +onlyGivenNames x | intro x hx | intro x

theorem still_execFacCalDone {r s : State} (h : Still r s) (n : Fin 8) (crossings : List (Option Nat)) :
    StillO r (execFacCalDone n crossings s) := by
  unfold execFacCalDone
  repeat' first
    | (with_reducible first
        | assumption | apply still_setEngine | apply still_setReg | apply still_setFld | apply still_setFlag | apply still_raise
        | apply still_ite | apply still_next | (apply still_mk <;> first | rfl | assumption))
    | decide | (simp only [SUP_STATE, islFC, FAC_CAL_STAT, FAC_CFG, FAC_CFG_LAG, FAC_CMD, FAC_CMD_RESULT, FAC_CAL_STAT_VALID]; omega)

theorem still_facSyncWrite {r s : State} (h : Still r s) (token : Nat) (go : Bool) :
    Still r (State.facSyncWrite s token go) := by
  unfold State.facSyncWrite
  repeat' first
    | (with_reducible first
        | assumption | apply still_setReg | apply still_facPulseAll | apply still_raise | apply still_ite)
    | decide | (simp only [SUP_STATE, FAC_SYNC, FAC_SYNC_TOKEN, islFC]; omega)

theorem still_facStreamWrite {r s : State} (h : Still r s) (n : Nat) (token : Nat) (count : Nat) :
    Still r (State.facStreamWrite s n token count) := by
  unfold State.facStreamWrite
  repeat' first
    | (with_reducible first
        | assumption | apply still_setFld | apply still_count | apply still_setReg | apply still_setBitAt | apply still_raise
        | refine still_fst ?_ (by assumption) | apply still_ite)
    | decide
    | (simp only [SUP_STATE, FAC_STREAM, FAC_STREAM_TOKEN, FAC_STREAM_RESULT, FAC_STREAM_STAT, FAC_STREAM_STAT_FILL, FAC_STICKY, FAC_CNT, islFC]; omega)
    | extract_lets +onlyGivenNames x | intro x | split

theorem still_execDeadTimeEnd {r s : State} (h : Still r s) (n : Fin 8) :
    StillO r (execDeadTimeEnd n s) := by
  unfold execDeadTimeEnd
  repeat' first
    | (with_reducible first
        | assumption | apply still_setEngine | apply still_facFault | apply still_setFld | apply still_setEgState | apply still_facPlay
        | apply still_ite | apply still_next | (apply still_mk <;> first | rfl | assumption))
    | decide
    | (simp only [SUP_STATE, islFC, FAC_STAT, FAC_STAT_STEP, FAC_SKEW, FAC_SKEW_SKEW, FAC_STEP_W2_WAIT, FAC_TRIG_STAT, FAC_TRIG_STAT_BITS]; omega)

theorem still_execWaitTimeout {r s : State} (h : Still r s) (n : Fin 8) :
    StillO r (execWaitTimeout n s) := by
  unfold execWaitTimeout
  repeat' first
    | (with_reducible first
        | assumption | apply still_setFld | apply still_count | apply still_raise | apply still_facDead | apply still_ite
        | apply still_next)
    | decide
    | (simp only [SUP_STATE, islFC, FAC_STEP_W2_WAIT_TO, FAC_STAT, FAC_STAT_CAUSE, FAC_CNT, FAC_STAT_STEP, FAC_STEP_W3_TO_NEXT]; omega)

theorem still_execStepEnd {r s : State} (h : Still r s) (n : Fin 8) :
    StillO r (execStepEnd n s) := by
  unfold execStepEnd
  repeat' first
    | (with_reducible first
        | assumption | apply still_count | apply still_facPulseAll | apply still_raise | apply still_setEngine | apply still_setEgState
        | apply still_facStopped | apply still_facDead | apply still_ite | apply still_next
        | (apply still_mk <;> first | rfl | assumption))
    | decide
    | (simp only [SUP_STATE, islFC, FAC_CNT, FAC_STEP_W1_MARK, FAC_STAT, FAC_STAT_STEP, FAC_STEP_W1_LAST, FAC_STEP_W3_NEXT]; omega)

theorem still_placeMark {r s : State} (h : Still r s) (n : Nat) (k : Nat) :
    Still r (State.placeMark s n k) := by
  unfold State.placeMark
  repeat' first
    | (with_reducible first
        | assumption | apply still_setEngine | apply still_ite | (apply still_mk <;> first | rfl | assumption))
    | decide

theorem still_vecElement {r s : State} (h : Still r s) (n : Nat) :
    Still r (State.vecElement s n) := by
  unfold State.vecElement
  repeat' first
    | (with_reducible first
        | assumption | apply still_facFault | apply still_setEngine | apply still_placeMark | apply still_ite
        | (apply still_mk <;> first | rfl | assumption))
    | decide | (simp only [SUP_STATE, FAC_STAT, FAC_STAT_STEP]; omega)

theorem still_execFacsimileOutputSample {r s : State} (h : Still r s) (n : Fin 8) :
    StillO r (execFacsimileOutputSample n s) := by
  unfold execFacsimileOutputSample
  repeat' first
    | (with_reducible first
        | assumption | apply still_setEngine | apply still_vecElement | apply still_ite | apply still_next
        | (apply still_mk <;> first | rfl | assumption))
    | decide | (simp only [SUP_STATE, islFC]; omega)

theorem still_execVectorCompare {r s : State} (h : Still r s) (n : Fin 8) (lag : Byte) (received : Symbol) :
    StillO r (execVectorCompare n lag received s) := by
  unfold execVectorCompare
  repeat' first
    | (with_reducible first
        | assumption | apply still_setEngine | apply still_count | apply still_setBitAt | apply still_setReg | apply still_raise
        | refine still_fst ?_ (by assumption) | apply still_ite | apply still_next | (apply still_mk <;> first | rfl | assumption))
    | decide | (simp only [SUP_STATE, islFC, FAC_CFG, FAC_CFG_LAG, FAC_CNT, FAC_STICKY, FAC_VEC_FIRST]; omega)
    | extract_lets +onlyGivenNames x | intro x | split

theorem still_execStreamSample {r s : State} (h : Still r s) (n : Fin 8) :
    StillO r (execStreamSample n s) := by
  unfold execStreamSample
  repeat' first
    | (with_reducible first
        | assumption | apply still_setEngine | apply still_setBitAt | apply still_count | apply still_raiseFirst | apply still_setReg
        | refine still_fst ?_ (by assumption) | apply still_ite | apply still_next | (apply still_mk <;> first | rfl | assumption))
    | decide
    | (simp only [SUP_STATE, islFC, FAC_STREAM_STAT, FAC_STREAM_STAT_FILL, FAC_STICKY, FAC_CNT, FAC_STREAM_STAT_RD, FAC_STAT, FAC_STAT_MODE]; omega)
    | extract_lets +onlyGivenNames x | intro x | split

theorem still_patternWrite {r s : State} (h : Still r s) (w : Writer) (i : Nat) (value : Word) :
    Still r (State.patternWrite s w i value) := by
  unfold State.patternWrite
  repeat' first
    | (with_reducible first
        | assumption | apply still_respond | apply still_raise | apply still_serviceWrite | apply still_setReg
        | refine still_fst ?_ (by assumption) | apply still_ite)
    | decide | (simp only [SUP_STATE, islFC, FAC_PATTERN]; omega) | extract_lets +onlyGivenNames x | intro x | split

theorem still_facFree {r s : State} (h : Still r s) (mode : Nat) :
    Still r (State.facFree s mode) := by
  unfold State.facFree
  repeat' first
    | (with_reducible first
        | assumption | apply still_each | apply still_facFreeOne | apply still_ite)
    | decide | (simp only [SUP_STATE, islFC, FAC_STAT, FAC_STAT_MODE]; omega)

theorem still_facCfgWrite {r s : State} (h : Still r s) (n : Nat) (value : Word) :
    Still r (State.facCfgWrite s n value) := by
  unfold State.facCfgWrite
  repeat' first
    | (with_reducible first
        | assumption | apply still_respond | apply still_facOff | apply still_serviceWrite | apply still_setTribFac
        | apply still_facAssigned | apply still_setFld | apply still_facFreeOne | apply still_raise | apply still_ite)
    | decide | (simp only [SUP_STATE, FAC_CFG, FAC_CFG_ASSIGN, FAC_CFG_PORT, FAC_CFG_CMP_PORT, FAC_STAT, FAC_STAT_MODE, islFC]; omega)

end Sys2Proof.Machine
end

