-- ==== Sys2Proof/Laws/StillTrib.lean ====
section
/-! SUPPORT. The operations of Machine/Trib.lean that neither store to memory nor move the life cycle leave both alone. -/

namespace Sys2Proof.Machine

theorem still_setTstat {r s : State} (h : Still r s) (p : Nat) (f : Fld) (b : Bool) :
    Still r (State.setTstat s p f b) := by
  unfold State.setTstat
  repeat' first
    | (with_reducible first
        | assumption | apply still_setBitAt | apply still_setFlag | apply still_ite)
    | decide | (simp only [SUP_STATE, TRIB_STICKY, TRIB_STAT]; omega)

theorem still_tribEvent {r s : State} (h : Still r s) (p : Nat) (e : Nat) (data : List Word) :
    Still r (State.tribEvent s p e data) := by
  unfold State.tribEvent
  repeat' first
    | (with_reducible first
        | assumption | apply still_raise)
    | decide | (simp only [SUP_STATE, islTR, TRIB_STAT]; omega)

theorem still_tribDefect {r s : State} (h : Still r s) (p : Nat) (f : Fld) (b : Bool) (eOn : Nat) (eOff : Nat) (data : List Word) :
    Still r (State.tribDefect s p f b eOn eOff data) := by
  unfold State.tribDefect
  repeat' first
    | (with_reducible first
        | assumption | apply still_setTstat | apply still_tribEvent | apply still_ite)
    | decide

theorem still_tribIdx {r s : State} (h : Still r s) (p : Nat) :
    Still r (State.tribIdx s p) := by
  unfold State.tribIdx
  repeat' first
    | (with_reducible first
        | assumption | apply still_setTstat)
    | decide
    | (simp only [SUP_STATE, TRIB_STAT_AIS_TO_IDX, TRIB_STAT_LOS, TRIB_STAT_LOF, TRIB_CFG, TRIB_CFG_AIS_ON_LOF, TRIB_CFG_EN, TRIB_MAINT, TRIB_MAINT_FORCE_AIS_RX]; omega)

theorem still_syncOof {r s : State} (h : Still r s) (p : Nat) :
    Still r (State.syncOof s p) := by
  unfold State.syncOof
  repeat' first
    | (with_reducible first
        | assumption | apply still_setTrib | apply still_tribDefect | apply still_ite | (apply still_mk <;> first | rfl | assumption))
    | decide | (simp only [SUP_STATE, TRIB_STAT_AIS, TRIB_STAT_OOF]; omega)

theorem still_setRxFramer {r s : State} (h : Still r s) (p : Nat) (st : Nat) :
    Still r (State.setRxFramer s p st) := by
  unfold State.setRxFramer
  repeat' first
    | (with_reducible first
        | assumption | apply still_setFld | apply still_setTrib | apply still_ite | (apply still_mk <;> first | rfl | assumption))
    | decide | (simp only [SUP_STATE, TRIB_FRM_STAT, TRIB_FRM_STAT_RX_STATE, TRIB_FRM_STAT_CRC4]; omega)

theorem still_updateTribLos {r s : State} (h : Still r s) (p : Nat) :
    Still r (State.updateTribLos s p) := by
  unfold State.updateTribLos
  repeat' first
    | (with_reducible first
        | assumption | apply still_setTrib | apply still_tribDefect | apply still_setRxFramer | apply still_syncOof
        | apply still_facPortPulse | apply still_tribIdx | apply still_ite | (apply still_mk <;> first | rfl | assumption))
    | decide | (simp only [SUP_STATE, TRIB_STAT_LOS]; omega)

theorem still_execTribLos {r s : State} (h : Still r s) (p : Fin 64) (lost : Bool) :
    StillO r (execTribLos p lost s) := by
  unfold execTribLos
  repeat' first
    | (with_reducible first
        | assumption | apply still_setTrib | apply still_updateTribLos | apply still_ite | apply still_next
        | (apply still_mk <;> first | rfl | assumption))
    | decide

theorem still_execTribCdrLockLoss {r s : State} (h : Still r s) (p : Fin 64) :
    StillO r (execTribCdrLockLoss p s) := by
  unfold execTribCdrLockLoss
  repeat' first
    | (with_reducible first
        | assumption | apply still_setTstat | apply still_tribEvent | apply still_ite | apply still_next)
    | decide | (simp only [SUP_STATE, TRIB_STAT_CDR_LOCK]; omega)

theorem still_execTribCdrUnlockLos {r s : State} (h : Still r s) (p : Fin 64) :
    StillO r (execTribCdrUnlockLos p s) := by
  unfold execTribCdrUnlockLos
  repeat' first
    | (with_reducible first
        | assumption | apply still_setTrib | apply still_updateTribLos | apply still_ite | apply still_next
        | (apply still_mk <;> first | rfl | assumption))
    | decide | (simp only [SUP_STATE, TRIB_STAT_CDR_LOCK]; omega)

theorem still_execTribCdrLock {r s : State} (h : Still r s) (p : Fin 64) :
    StillO r (execTribCdrLock p s) := by
  unfold execTribCdrLock
  repeat' first
    | (with_reducible first
        | assumption | apply still_setTstat | apply still_setTrib | apply still_updateTribLos | apply still_facPortPulse | apply still_ite
        | apply still_next | (apply still_mk <;> first | rfl | assumption))
    | decide | (simp only [SUP_STATE, TRIB_STAT_CDR_LOCK]; omega)

theorem still_execTribAisBlock {r s : State} (h : Still r s) (p : Fin 64) (zeros : Nat) :
    StillO r (execTribAisBlock p zeros s) := by
  unfold execTribAisBlock
  repeat' first
    | (with_reducible first
        | assumption | apply still_setTrib | apply still_tribDefect | apply still_syncOof | apply still_ite | apply still_next
        | (apply still_mk <;> first | rfl | assumption))
    | decide | (simp only [SUP_STATE, TRIB_STAT_LOS, TRIB_STAT_AIS]; omega)

theorem still_basicSearch {r s : State} (h : Still r s) (p : Nat) (quiet : Bool) :
    Still r (State.basicSearch s p quiet) := by
  unfold State.basicSearch
  repeat' first
    | (with_reducible first
        | assumption | apply still_setRxFramer | apply still_setTrib | apply still_syncOof | (apply still_mk <;> first | rfl | assumption))
    | decide

theorem still_crc4Search {r s : State} (h : Still r s) (p : Nat) (fas : Bool) (fr : List Bool) :
    Still r (State.crc4Search s p fas fr) := by
  unfold State.crc4Search
  repeat' first
    | (with_reducible first
        | assumption | apply still_setTrib | apply still_setFld | apply still_tribEvent | apply still_ite
        | (apply still_mk <;> first | rfl | assumption))
    | decide | (simp only [SUP_STATE, TRIB_FRM_STAT, TRIB_FRM_STAT_CRC4]; omega)

theorem still_crc4Judge {r s : State} (h : Still r s) (p : Nat) (err : Bool) :
    Still r (State.crc4Judge s p err) := by
  unfold State.crc4Judge
  repeat' first
    | (with_reducible first
        | assumption | apply still_count | apply still_setTrib | apply still_tribEvent | apply still_basicSearch | apply still_ite
        | (apply still_mk <;> first | rfl | assumption))
    | decide | (simp only [SUP_STATE, TRIB_CRC_CNT]; omega)

theorem still_crc4Frame {r s : State} (h : Still r s) (p : Nat) (fas : Bool) (fr : List Bool) :
    Still r (State.crc4Frame s p fas fr) := by
  unfold State.crc4Frame
  repeat' first
    | (with_reducible first
        | assumption | apply still_count | apply still_setTrib | apply still_crc4Judge | refine still_fst ?_ (by assumption)
        | apply still_ite | (apply still_mk <;> first | rfl | assumption))
    | decide | (simp only [SUP_STATE, TRIB_REI_CNT]; omega) | extract_lets +onlyGivenNames x | intro x hx | intro x | split

theorem still_crc4Step {r s : State} (h : Still r s) (p : Nat) (fas : Bool) (fr : List Bool) :
    Still r (State.crc4Step s p fas fr) := by
  unfold State.crc4Step
  repeat' first
    | (with_reducible first
        | assumption | apply still_crc4Search | apply still_crc4Frame | apply still_ite)
    | decide | (simp only [SUP_STATE, TRIB_FRM_STAT, TRIB_FRM_STAT_CRC4]; omega)

theorem still_esfFrame {r s : State} (h : Still r s) (p : Nat) (pos : Nat) (fr : List Bool) :
    Still r (State.esfFrame s p pos fr) := by
  unfold State.esfFrame
  repeat' first
    | (with_reducible first
        | assumption | apply still_setTrib | apply still_count | refine still_fst ?_ (by assumption) | apply still_ite
        | (apply still_mk <;> first | rfl | assumption))
    | decide | (simp only [SUP_STATE, TRIB_CRC_CNT]; omega) | extract_lets +onlyGivenNames x | intro x hx | intro x | split

theorem still_raiRun {r s : State} (h : Still r s) (p : Nat) (n : Nat) (on : Bool) :
    Still r (State.raiRun s p n on) := by
  unfold State.raiRun
  repeat' first
    | (with_reducible first
        | assumption | apply still_setTrib | apply still_tribDefect | apply still_ite | (apply still_mk <;> first | rfl | assumption))
    | decide | (simp only [SUP_STATE, TRIB_STAT_LOS, TRIB_STAT_RAI]; omega)

theorem still_alarmE1 {r s : State} (h : Still r s) (p : Nat) (fr : List Bool) :
    Still r (State.alarmE1 s p fr) := by
  unfold State.alarmE1
  repeat' first
    | (with_reducible first
        | assumption | apply still_setFld | apply still_setFlag | apply still_raiRun)
    | decide | (simp only [SUP_STATE, TRIB_FRM_STAT, TRIB_FRM_STAT_SA, TRIB_FRM_STAT_A]; omega)

theorem still_alarmSf {r s : State} (h : Still r s) (p : Nat) (fr : List Bool) :
    Still r (State.alarmSf s p fr) := by
  unfold State.alarmSf
  repeat' first
    | (with_reducible first
        | assumption | apply still_setTrib | apply still_raiRun | apply still_ite | (apply still_mk <;> first | rfl | assumption))
    | decide

theorem still_alarmEsf {r s : State} (h : Still r s) (p : Nat) (b : Bool) :
    Still r (State.alarmEsf s p b) := by
  unfold State.alarmEsf
  repeat' first
    | (with_reducible first
        | assumption | apply still_setTrib | apply still_setFld | apply still_raiRun | apply still_ite
        | (apply still_mk <;> first | rfl | assumption))
    | decide | (simp only [SUP_STATE, TRIB_FRM_STAT, TRIB_FRM_STAT_FDL]; omega)

theorem still_monitorFrame {r s : State} (h : Still r s) (p : Nat) (pos : Nat) (fr : List Bool) :
    Still r (State.monitorFrame s p pos fr) := by
  unfold State.monitorFrame
  repeat' first
    | (with_reducible first
        | assumption | apply still_alarmE1 | apply still_crc4Step | apply still_alarmSf | apply still_esfFrame | apply still_alarmEsf
        | apply still_ite)
    | decide

theorem still_foundFrame {r s : State} (h : Still r s) (p : Nat) (fr : List Bool) :
    Still r (State.foundFrame s p fr) := by
  unfold State.foundFrame
  repeat' first
    | (with_reducible first
        | assumption | apply still_setTrib | apply still_ite | (apply still_mk <;> first | rfl | assumption))
    | decide | (simp only [SUP_STATE, TRIB_STAT_AIS_TO_IDX]; omega)

theorem still_rxStep {r s : State} (h : Still r s) (p : Nat) :
    Still r (State.rxStep s p).1 := by
  unfold State.rxStep
  repeat' first
    | (with_reducible first
        | assumption | apply still_setTrib | apply still_count | apply still_setRxFramer | apply still_syncOof | apply still_foundFrame
        | apply still_monitorFrame | refine still_fst ?_ (by assumption) | apply still_ite | (apply still_mk <;> first | rfl | assumption))
    | decide | (simp only [SUP_STATE, TRIB_FAS_CNT]; omega) | extract_lets +onlyGivenNames x | intro x | split

theorem still_decodeLine {r s : State} (h : Still r s) (p : Nat) (l : List Pulse) :
    Still r (State.decodeLine s p l).1 := by
  unfold State.decodeLine
  repeat' first
    | (with_reducible first
        | assumption | apply still_setTrib | apply still_count | apply still_ite | (apply still_mk <;> first | rfl | assumption))
    | decide | (simp only [SUP_STATE, TRIB_STAT_AIS_TO_IDX, TRIB_MAINT, TRIB_MAINT_LLOOP, TRIB_CV_CNT]; omega)

theorem still_execCrc4MultiframeSearchEnd {r s : State} (h : Still r s) (p : Fin 64) :
    StillO r (execCrc4MultiframeSearchEnd p s) := by
  unfold execCrc4MultiframeSearchEnd
  repeat' first
    | (with_reducible first
        | assumption | apply still_basicSearch | apply still_setFld | apply still_tribEvent | apply still_ite | apply still_next)
    | decide | (simp only [SUP_STATE, TRIB_FRM_STAT, TRIB_FRM_STAT_CRC4, TRIB_CFG, TRIB_CFG_CRC4_IW]; omega)

theorem still_execTribLofTimer {r s : State} (h : Still r s) (p : Fin 64) :
    StillO r (execTribLofTimer p s) := by
  unfold execTribLofTimer
  repeat' first
    | (with_reducible first
        | assumption | apply still_tribDefect | apply still_tribIdx | apply still_ite | apply still_next)
    | decide | (simp only [SUP_STATE, TRIB_STAT_LOS, TRIB_STAT_AIS, TRIB_STAT_LOF, TRIB_STAT_OOF]; omega)

theorem still_sampleClock {r s : State} (h : Still r s) (c : Nat) (ok : Bool) :
    Still r (State.sampleClock s c ok) := by
  unfold State.sampleClock
  repeat' first
    | (with_reducible first
        | assumption | apply still_setBitAt | apply still_raise | apply still_updateTribs | apply still_facFree | apply still_ite)
    | decide | (simp only [SUP_STATE, TRIB_CLK_STAT]; omega)

theorem still_execTribSampleClockInvalid {r s : State} (h : Still r s) (c : Fin 4) :
    StillO r (execTribSampleClockInvalid c s) := by
  unfold execTribSampleClockInvalid
  repeat' first
    | (with_reducible first
        | assumption | apply still_sampleClock | apply still_next)
    | decide

theorem still_execTribSampleClockValid {r s : State} (h : Still r s) (c : Fin 4) :
    StillO r (execTribSampleClockValid c s) := by
  unfold execTribSampleClockValid
  repeat' first
    | (with_reducible first
        | assumption | apply still_sampleClock | apply still_next)
    | decide

theorem still_slip {r s : State} (h : Still r s) (p : Nat) (overflow : Bool) :
    Still r (State.slip s p overflow) := by
  unfold State.slip
  repeat' first
    | (with_reducible first
        | assumption | apply still_fillStore | apply still_count | apply still_tribEvent)
    | decide | (simp only [SUP_STATE, TRIB_SLIP_CNT]; omega)

theorem still_execUncontrolledSlip {r s : State} (h : Still r s) (p : Fin 64) (overflow : Bool) :
    StillO r (execUncontrolledSlip p overflow s) := by
  unfold execUncontrolledSlip
  repeat' first
    | (with_reducible first
        | assumption | apply still_slip | apply still_ite | apply still_next)
    | decide | (simp only [SUP_STATE, TRIB_FRM_STAT, TRIB_FRM_STAT_TX_STATE]; omega)

theorem still_execControlledSlip {r s : State} (h : Still r s) (p : Fin 64) (delete : Bool) :
    StillO r (execControlledSlip p delete s) := by
  unfold execControlledSlip
  repeat' first
    | (with_reducible first
        | assumption | apply still_setStore | apply still_count | apply still_tribEvent | apply still_useFrees | apply still_ite
        | apply still_next)
    | decide | (simp only [SUP_STATE, TRIB_FRM_STAT, TRIB_FRM_STAT_TX_STATE, TRIB_SLIP_CNT]; omega)

theorem still_templateRefused {r s : State} (h : Still r s) (t0 : Nat) :
    Still r (State.templateRefused s t0) := by
  unfold State.templateRefused
  repeat' first
    | (with_reducible first
        | assumption | apply still_respond | apply still_tribEvent | apply still_raise | refine still_fst ?_ (by assumption)
        | apply still_ite)
    | decide | extract_lets +onlyGivenNames x | intro x | split

theorem still_startTrib {r s : State} (h : Still r s) (p : Nat) :
    Still r (State.startTrib s p) := by
  unfold State.startTrib
  repeat' first
    | (with_reducible first
        | assumption | apply still_tribEvent | apply still_setTrib | apply still_fillStore | apply still_setTstat | apply still_setFld
        | apply still_tribIdx | apply still_updateTribTx | apply still_updateDriven | apply still_ite
        | (apply still_mk <;> first | rfl | assumption))
    | decide
    | (simp only [SUP_STATE, TRIB_STAT_CDR_LOCK, TRIB_STAT_LOS, TRIB_STAT_OOF, TRIB_STAT_DISABLED, TRIB_FRM_STAT, TRIB_FRM_STAT_RX_STATE, TRIB_FRM_STAT_TX_STATE, TRIB_CFG, TRIB_CFG_TX_RETIME]; omega)

theorem still_stopTrib {r s : State} (h : Still r s) (p : Nat) :
    Still r (State.stopTrib s p) := by
  unfold State.stopTrib
  repeat' first
    | (with_reducible first
        | assumption | apply still_tribEvent | apply still_setTrib | apply still_setFld | apply still_setFlag | apply still_tribIdx)
    | decide
    | (simp only [SUP_STATE, TRIB_STAT, TRIB_STAT_DISABLED, TRIB_TX_STAT, TRIB_TX_STAT_FILL, TRIB_FRM_STAT, TRIB_FRM_STAT_RX_STATE, TRIB_FRM_STAT_CRC4, TRIB_FRM_STAT_TX_STATE]; omega)

theorem still_tribEnWrite {r s : State} (h : Still r s) (p : Nat) (en : Bool) :
    Still r (State.tribEnWrite s p en) := by
  unfold State.tribEnWrite
  repeat' first
    | (with_reducible first
        | assumption | apply still_serviceWrite | apply still_startTrib | apply still_stopTrib | apply still_ite)
    | decide | (simp only [SUP_STATE, TRIB_CFG, TRIB_CFG_EN]; omega)

theorem still_maintWrite {r s : State} (h : Still r s) (p : Nat) (value : Word) :
    Still r (State.maintWrite s p value) := by
  unfold State.maintWrite
  repeat' first
    | (with_reducible first
        | assumption | apply still_setReg | apply still_tribEvent | apply still_tribIdx | apply still_updateTribTx | apply still_ite)
    | decide | (simp only [SUP_STATE, TRIB_MAINT, TRIB_CFG, TRIB_CFG_EN]; omega)

theorem still_maintBit {r s : State} (h : Still r s) (w : Writer) (p : Nat) (f : Fld) (on : Bool) :
    Still r (State.maintBit s w p f on) := by
  unfold State.maintBit
  repeat' first
    | (with_reducible first
        | assumption | apply still_commandWrite | apply still_maintWrite)
    | decide | (simp only [SUP_STATE, islTR, TRIB_MAINT]; omega) | extract_lets +onlyGivenNames x | intro x hx | intro x

theorem still_startSymbol {r s : State} (h : Still r s) (p : Nat) (gap : Nat) (a : Int) :
    Still r (State.startSymbol s p gap a) := by
  unfold State.startSymbol
  repeat' first
    | (with_reducible first
        | assumption | apply still_setTrib | apply still_count | apply still_raiseFirst | apply still_ite
        | (apply still_mk <;> first | rfl | assumption))
    | decide | (simp only [SUP_STATE, TRIB_SAT_CNT, islTR, TRIB_STAT]; omega)

theorem still_steerTimer {r s : State} (h : Still r s) (p : Nat) (nominal : Bool) :
    Still r (State.steerTimer s p nominal) := by
  unfold State.steerTimer
  repeat' first
    | (with_reducible first
        | assumption | apply still_setTrib | apply still_setFld | apply still_ite | (apply still_mk <;> first | rfl | assumption))
    | decide | (simp only [SUP_STATE, TRIB_CFG, TRIB_CFG_DESYNC_BW, TRIB_TX_STAT, TRIB_TX_STAT_OFFSET]; omega)

theorem still_completeSymbol {r s : State} (h : Still r s) (p : Nat) :
    Still r (State.completeSymbol s p).1 := by
  unfold State.completeSymbol
  repeat' first
    | (with_reducible first
        | assumption | apply still_setTrib | (apply still_mk <;> first | rfl | assumption))
    | decide | (simp only [SUP_STATE, TRIB_TX_STAT, TRIB_TX_STAT_OFFSET]; omega)

theorem still_takeSymbol {r s : State} (h : Still r s) (p : Nat) (arrived : List Bool) :
    Still r (State.takeSymbol s p arrived).1 := by
  unfold State.takeSymbol
  repeat' first
    | (with_reducible first
        | assumption | apply still_setTrib | apply still_setStore | apply still_when | apply still_useFree | apply still_ite
        | (apply still_mk <;> first | rfl | assumption))
    | decide | (simp only [SUP_STATE, TRIB_MAINT, TRIB_MAINT_LLOOP, TRIB_CFG, TRIB_CFG_TX_RETIME]; omega)

theorem still_execTribTransmitSymbol {r s : State} (h : Still r s) (p : Fin 64) (arrived : List Bool) :
    StillO r (execTribTransmitSymbol p arrived s) := by
  unfold execTribTransmitSymbol
  repeat' first
    | (with_reducible first
        | assumption | apply still_updateTribTx | apply still_setTrib | apply still_takeSymbol | apply still_steerTimer
        | apply still_completeSymbol | apply still_startSymbol | refine still_fst ?_ (by assumption) | apply still_ite | apply still_next
        | (apply still_mk <;> first | rfl | assumption | apply still_updateTribTx | apply still_setTrib | apply still_takeSymbol | apply still_steerTimer | apply still_completeSymbol | apply still_startSymbol | apply still_ite))
    | decide | (simp only [SUP_STATE, TRIB_STAT_AIS_TX]; omega)
    | (extract_lets +onlyGivenNames x; refine (have hx : Still r x := ?_; ?_); (on_goal 1 => subst x); (on_goal 2 => clear_value x))
    | extract_lets +onlyGivenNames x | intro x | split

end Sys2Proof.Machine
end

