-- ==== Sys2Proof/Laws/StillTiming.lean ====
section
/-! SUPPORT. The operations of Machine/Timing.lean that neither store to memory nor move the life cycle leave both alone. -/

namespace Sys2Proof.Machine

theorem still_setRef {r s : State} (h : Still r s) (i : Nat) (r0 : Ref) :
    Still r (State.setRef s i r0) := by
  unfold State.setRef
  repeat' first
    | (with_reducible first
        | assumption | (apply still_mk <;> first | rfl | assumption))
    | decide

theorem still_setDpll {r s : State} (h : Still r s) (d : Nat) (x : Dpll) :
    Still r (State.setDpll s d x) := by
  unfold State.setDpll
  repeat' first
    | (with_reducible first
        | assumption | (apply still_mk <;> first | rfl | assumption))
    | decide

theorem still_refEvent {r s : State} (h : Still r s) (i : Nat) (e : Nat) :
    Still r (State.refEvent s i e) := by
  unfold State.refEvent
  repeat' first
    | (with_reducible first
        | assumption | apply still_raise)
    | decide | (simp only [SUP_STATE, islTM, TIM_REF_STAT]; omega)

theorem still_timSettle {r s : State} (h : Still r s) :
    Still r (State.timSettle s) := by
  unfold State.timSettle
  repeat' first
    | (with_reducible first
        | assumption | apply still_setFlag | apply still_setFld | apply still_raise | apply still_ite
        | (apply still_mk <;> first | rfl | assumption)
        | (apply still_mk <;> first | rfl | assumption | apply still_setFlag | apply still_setFld | apply still_raise | apply still_ite))
    | decide
    | (simp only [SUP_STATE, TIM_STAT, TIM_STAT_REF_OK, TIM_STAT_CLOCK_QL, TIM_OUT_CFG, TIM_OUT_CFG_QL_MIN, islTM, TIM_STAT_HO_VALID, TIM_CFG, TIM_CFG_FREERUN_TRAFFIC]; omega)
    | extract_lets +onlyGivenNames x | intro x

theorem still_loadModel {r s : State} (h : Still r s) :
    Still r (State.loadModel s) := by
  unfold State.loadModel
  repeat' first
    | (with_reducible first
        | assumption | apply still_setFld | apply still_ite | (apply still_mk <;> first | rfl | assumption))
    | decide | (simp only [SUP_STATE, TIM_HO_STAT, TIM_HO_STAT_MODEL]; omega)

theorem still_readModel {r s : State} (h : Still r s) :
    Still r (State.readModel s) := by
  unfold State.readModel
  repeat' first
    | (with_reducible first
        | assumption | apply still_loadModel | apply still_raise | apply still_ite)
    | decide | (simp only [SUP_STATE, TIM_HO_STAT, TIM_HO_STAT_MODEL, islTM]; omega)

theorem still_addOffset {r s : State} (h : Still r s) (f : Int) :
    Still r (State.addOffset s f) := by
  unfold State.addOffset
  repeat' first
    | (with_reducible first
        | assumption | apply still_ite | (apply still_mk <;> first | rfl | assumption))
    | decide | (simp only [SUP_STATE, TIM_HO_CFG2, TIM_HO_CFG2_HO_AVG_S]; omega)

theorem still_dpEvent {r s : State} (h : Still r s) (d : Nat) :
    Still r (State.dpEvent s d) := by
  unfold State.dpEvent
  repeat' first
    | (with_reducible first
        | assumption | apply still_raise)
    | decide | (simp only [SUP_STATE, islTM, TIM_DPLL_STAT]; omega)

theorem still_hoEvent {r s : State} (h : Still r s) (e : Nat) :
    Still r (State.hoEvent s e) := by
  unfold State.hoEvent
  repeat' first
    | (with_reducible first
        | assumption | apply still_raise)
    | decide | (simp only [SUP_STATE, islTM, TIM_DPLL_STAT]; omega)

theorem still_useRef {r s : State} (h : Still r s) (d : Nat) (b : Bool) :
    Still r (State.useRef s d b) := by
  unfold State.useRef
  repeat' first
    | (with_reducible first
        | assumption | apply still_setFlag | apply still_ite | (apply still_mk <;> first | rfl | assumption)
        | (apply still_mk <;> first | rfl | assumption | apply still_setFlag | apply still_ite))
    | decide | (simp only [SUP_STATE, TIM_STAT]; omega) | extract_lets +onlyGivenNames x | intro x

theorem still_holdoverEntry {r s : State} (h : Still r s) :
    Still r (State.holdoverEntry s) := by
  unfold State.holdoverEntry
  repeat' first
    | (with_reducible first
        | assumption | apply still_setFlag | apply still_setReg | apply still_hoEvent | (apply still_mk <;> first | rfl | assumption))
    | decide | (simp only [SUP_STATE, TIM_HO_STAT, TIM_HO_STAT_IN_HO, TIM_HO_TIME]; omega)

theorem still_setDpState {r s : State} (h : Still r s) (d : Nat) (st : Nat) :
    Still r (State.setDpState s d st) := by
  unfold State.setDpState
  repeat' first
    | (with_reducible first
        | assumption | apply still_setDpll | apply still_setFld | apply still_dpEvent | apply still_setFlag | apply still_hoEvent
        | apply still_holdoverEntry | apply still_ite
        | (apply still_mk <;> first | rfl | assumption | apply still_setDpll | apply still_setFld | apply still_dpEvent | apply still_setFlag | apply still_hoEvent | apply still_holdoverEntry | apply still_ite)
        | (apply still_mk <;> first | rfl | (apply still_mk <;> first | rfl | assumption | apply still_setDpll | apply still_setFld | apply still_dpEvent | apply still_setFlag | apply still_hoEvent | apply still_holdoverEntry | apply still_ite)))
    | decide | (simp only [SUP_STATE, TIM_DPLL_STAT, TIM_DPLL_STAT_STATE, TIM_HO_STAT, TIM_HO_STAT_IN_HO]; omega)
    | extract_lets +onlyGivenNames x | intro x | split

theorem still_dpLost {r s : State} (h : Still r s) (d : Nat) :
    Still r (State.dpLost s d) := by
  unfold State.dpLost
  repeat' first
    | (with_reducible first
        | assumption | apply still_useRef | apply still_setDpState | apply still_ite)
    | decide

theorem still_moveOut {r s : State} (h : Still r s) :
    Still r (State.moveOut s) := by
  unfold State.moveOut
  repeat' first
    | (with_reducible first
        | assumption | apply still_setDpll | apply still_useFree | (apply still_mk <;> first | rfl | assumption))
    | decide

theorem still_switchPhase {r s : State} (h : Still r s) (d : Nat) (i : Nat) :
    Still r (State.switchPhase s d i) := by
  unfold State.switchPhase
  repeat' first
    | (with_reducible first
        | assumption | apply still_moveOut | apply still_setDpll | apply still_ite | (apply still_mk <;> first | rfl | assumption)
        | (apply still_mk <;> first | rfl | assumption | apply still_moveOut | apply still_setDpll | apply still_ite))
    | decide | (simp only [SUP_STATE, TIM_DPLL_STAT, TIM_DPLL_STAT_REF]; omega) | extract_lets +onlyGivenNames x | intro x

theorem still_takeRef {r s : State} (h : Still r s) (d : Nat) (i : Nat) :
    Still r (State.takeRef s d i) := by
  unfold State.takeRef
  repeat' first
    | (with_reducible first
        | assumption | apply still_setDpll | apply still_switchPhase | apply still_setFld | apply still_useRef | apply still_count
        | apply still_raise | apply still_setDpState | apply still_ite | (apply still_mk <;> first | rfl | assumption)
        | (apply still_mk <;> first | rfl | assumption | apply still_setDpll | apply still_switchPhase | apply still_setFld | apply still_useRef | apply still_count | apply still_raise | apply still_setDpState | apply still_ite))
    | decide | (simp only [SUP_STATE, TIM_STAT, TIM_DPLL_STAT, TIM_DPLL_STAT_REF, TIM_SWITCH_CNT, islTM]; omega)
    | extract_lets +onlyGivenNames x | intro x

theorem still_takeSecond {r s : State} (h : Still r s) (d : Nat) (first : Option Nat) :
    Still r (State.takeSecond s d first) := by
  unfold State.takeSecond
  repeat' first
    | (with_reducible first
        | assumption | apply still_setFld | apply still_setDpState | refine still_fst ?_ (by assumption) | apply still_ite)
    | decide | (simp only [SUP_STATE, TIM_DPLL_STAT, TIM_DPLL_STAT_REF]; omega) | extract_lets +onlyGivenNames x | intro x hx | intro x
    | split

theorem still_selectFor {r s : State} (h : Still r s) (d : Nat) :
    Still r (State.selectFor s d) := by
  unfold State.selectFor
  repeat' first
    | (with_reducible first
        | assumption | apply still_takeRef | apply still_useRef | apply still_dpLost | apply still_takeSecond
        | refine still_fst ?_ (by assumption) | apply still_ite)
    | decide | (simp only [SUP_STATE, TIM_STAT, TIM_STAT_OCXO_FAULT]; omega) | extract_lets +onlyGivenNames x | intro x | split

theorem still_select {r s : State} (h : Still r s) :
    Still r (State.select s) := by
  unfold State.select
  repeat' first
    | (with_reducible first
        | assumption | apply still_selectFor | apply still_timSettle)
    | decide

theorem still_execRefSelection {r s : State} (h : Still r s) :
    StillO r (execRefSelection s) := by
  unfold execRefSelection
  repeat' first
    | (with_reducible first
        | assumption | apply still_select | apply still_ite | apply still_next)
    | decide | (simp only [SUP_STATE, islTM]; omega)

theorem still_selCommand {r s : State} (h : Still r s) (d : Nat) (cmd : Nat) (i : Nat) (token : Nat) :
    Still r (State.selCommand s d cmd i token) := by
  unfold State.selCommand
  repeat' first
    | (with_reducible first
        | assumption | apply still_setFld | apply still_setDpll | apply still_raise | apply still_setReg | apply still_useRef
        | apply still_setDpState | apply still_timSettle | refine still_fst ?_ (by assumption) | apply still_ite
        | (apply still_mk <;> first | rfl | assumption))
    | decide | (simp only [SUP_STATE, TIM_SEL_CMD, TIM_SEL_CMD_TOKEN, TIM_SEL_CMD_RESULT, islTM]; omega) | extract_lets +onlyGivenNames x
    | intro x | split

theorem still_selMirrored {r s : State} (h : Still r s) (d : Nat) (cmd : Nat) (i : Nat) (token : Nat) :
    Still r (State.selMirrored s d cmd i token) := by
  unfold State.selMirrored
  repeat' first
    | (with_reducible first
        | assumption | apply still_selCommand | apply still_mirror | apply still_ite)
    | decide | (simp only [SUP_STATE, TIM_SEL_CMD, TIM_SEL_CMD_TOKEN]; omega)

theorem still_selWrite {r s : State} (h : Still r s) (w : Writer) (d : Nat) (cmd : Nat) (i : Nat) (token : Nat) :
    Still r (State.selWrite s w d cmd i token) := by
  unfold State.selWrite
  repeat' first
    | (with_reducible first
        | assumption | apply still_commandWrite | apply still_selMirrored)
    | decide | (simp only [SUP_STATE, islTM, TIM_SEL_CMD]; omega) | extract_lets +onlyGivenNames x | intro x hx | intro x

theorem still_lapse {r s : State} (h : Still r s) (i : Nat) :
    Still r (State.lapse s i) := by
  unfold State.lapse
  repeat' first
    | (with_reducible first
        | assumption | apply still_each | apply still_setDpll | apply still_setFld | apply still_ite
        | (apply still_mk <;> first | rfl | assumption))
    | decide | (simp only [SUP_STATE, TIM_SEL_CMD, TIM_SEL_CMD_DPLL, TIM_SEL_CMD_CMD, TIM_SEL_CMD_REF, TIM_SEL_CMD_RESULT]; omega)
    | extract_lets +onlyGivenNames x | intro x hx | intro x

theorem still_refWaits {r s : State} (h : Still r s) (i : Nat) :
    Still r (State.refWaits s i) := by
  unfold State.refWaits
  repeat' first
    | (with_reducible first
        | assumption | apply still_setRef | apply still_setFld | apply still_refEvent | apply still_ite
        | (apply still_mk <;> first | rfl | assumption))
    | decide
    | (simp only [SUP_STATE, TIM_REF_CFG, TIM_REF_CFG_WTR_S, TIM_REF_TIMES, TIM_REF_TIMES_QUAL_S, TIM_REF_STAT, TIM_REF_STAT_STATE, TIM_REF_STAT_WAIT, TIM_REF_STAT_CAUSE]; omega)

theorem still_refJudge {r s : State} (h : Still r s) (i : Nat) :
    Still r (State.refJudge s i) := by
  unfold State.refJudge
  repeat' first
    | (with_reducible first
        | assumption | apply still_each | apply still_useRef | apply still_setFld | apply still_lapse | apply still_select
        | apply still_refWaits | apply still_ite)
    | decide | (simp only [SUP_STATE, TIM_REF_STAT, TIM_REF_STAT_STATE, TIM_REF_STAT_WAIT, TIM_REF_STAT_CAUSE]; omega)
    | extract_lets +onlyGivenNames x | intro x hx | intro x

theorem still_holdIn {r s : State} (h : Still r s) (i : Nat) :
    Still r (State.holdIn s i) := by
  unfold State.holdIn
  repeat' first
    | (with_reducible first
        | assumption | apply still_setDpState | apply still_timSettle | apply still_ite)
    | decide

theorem still_execRefFreqMeasure {r s : State} (h : Still r s) (i : Fin 16) (ppb : Int) :
    StillO r (execRefFreqMeasure i ppb s) := by
  unfold execRefFreqMeasure
  repeat' first
    | (with_reducible first
        | assumption | apply still_setRef | apply still_setFld | apply still_refJudge | apply still_holdIn | apply still_ite
        | apply still_next | (apply still_mk <;> first | rfl | assumption))
    | decide | (simp only [SUP_STATE, TIM_REF_CFG, TIM_REF_CFG_FREQ_LIM, TIM_REF_STAT, TIM_REF_STAT_OFFSET]; omega)

theorem still_execRefActivityFailure {r s : State} (h : Still r s) (i : Fin 16) (failed : Bool) :
    StillO r (execRefActivityFailure i failed s) := by
  unfold execRefActivityFailure
  repeat' first
    | (with_reducible first
        | assumption | apply still_setRef | apply still_refJudge | apply still_ite | apply still_next
        | (apply still_mk <;> first | rfl | assumption))
    | decide

theorem still_execRefQualify {r s : State} (h : Still r s) (i : Fin 16) :
    StillO r (execRefQualify i s) := by
  unfold execRefQualify
  repeat' first
    | (with_reducible first
        | assumption | apply still_setRef | apply still_setFld | apply still_refEvent | apply still_ite | apply still_next
        | (apply still_mk <;> first | rfl | assumption))
    | decide | (simp only [SUP_STATE, TIM_REF_STAT, TIM_REF_STAT_STATE, TIM_REF_STAT_WAIT]; omega)

theorem still_execRefHoldoffExpiry {r s : State} (h : Still r s) (i : Fin 16) :
    StillO r (execRefHoldoffExpiry i s) := by
  unfold execRefHoldoffExpiry
  repeat' first
    | (with_reducible first
        | assumption | apply still_setFld | apply still_refEvent | apply still_lapse | apply still_select | apply still_ite
        | apply still_next)
    | decide | (simp only [SUP_STATE, TIM_REF_STAT, TIM_REF_STAT_STATE, TIM_REF_STAT_CAUSE]; omega)

theorem still_refQlWrite {r s : State} (h : Still r s) (i : Nat) (value : Word) :
    Still r (State.refQlWrite s i value) := by
  unfold State.refQlWrite
  repeat' first
    | (with_reducible first
        | assumption | apply still_serviceWrite | apply still_raise | apply still_timSettle | apply still_ite)
    | decide | (simp only [SUP_STATE, TIM_REF_QL, islTM]; omega)

theorem still_freeRun {r s : State} (h : Still r s) :
    Still r (State.freeRun s) := by
  unfold State.freeRun
  repeat' first
    | (with_reducible first
        | assumption | apply still_useRef | apply still_each | apply still_setDpState)
    | decide | extract_lets +onlyGivenNames x | intro x hx | intro x

theorem still_execOcxoFault {r s : State} (h : Still r s) :
    StillO r (execOcxoFault s) := by
  unfold execOcxoFault
  repeat' first
    | (with_reducible first
        | assumption | apply still_setFlag | apply still_freeRun | apply still_raise | apply still_timSettle | apply still_ite
        | apply still_next)
    | decide | (simp only [SUP_STATE, islTM, TIM_STAT, TIM_STAT_OCXO_FAULT, TIM_HO_STAT, TIM_HO_STAT_ANCHORED]; omega)

theorem still_execOcxoRecovery {r s : State} (h : Still r s) :
    StillO r (execOcxoRecovery s) := by
  unfold execOcxoRecovery
  repeat' first
    | (with_reducible first
        | assumption | apply still_setFlag | apply still_raise | apply still_timSettle | apply still_ite | apply still_next)
    | decide | (simp only [SUP_STATE, islTM, TIM_STAT, TIM_STAT_OCXO_FAULT]; omega)

theorem still_execDpllLock {r s : State} (h : Still r s) (d : Fin 4) :
    StillO r (execDpllLock d s) := by
  unfold execDpllLock
  repeat' first
    | (with_reducible first
        | assumption | apply still_setDpState | apply still_timSettle | apply still_ite | apply still_next)
    | decide | (simp only [SUP_STATE, islTM]; omega)

theorem still_execDpllLockLoss {r s : State} (h : Still r s) (d : Fin 4) :
    StillO r (execDpllLockLoss d s) := by
  unfold execDpllLockLoss
  repeat' first
    | (with_reducible first
        | assumption | apply still_setDpState | apply still_timSettle | apply still_ite | apply still_next)
    | decide | (simp only [SUP_STATE, islTM]; omega)

theorem still_execAnchorSet {r s : State} (h : Still r s) :
    StillO r (execAnchorSet s) := by
  unfold execAnchorSet
  repeat' first
    | (with_reducible first
        | assumption | apply still_setFlag | apply still_timSettle | apply still_ite | apply still_next)
    | decide | (simp only [SUP_STATE, islTM, TIM_HO_STAT, TIM_HO_STAT_ANCHORED]; omega)

theorem still_execHoldoverLimit {r s : State} (h : Still r s) :
    StillO r (execHoldoverLimit s) := by
  unfold execHoldoverLimit
  repeat' first
    | (with_reducible first
        | assumption | apply still_timSettle | apply still_ite | apply still_next | (apply still_mk <;> first | rfl | assumption))
    | decide | (simp only [SUP_STATE, islTM]; omega)

theorem still_execTempSensorFault {r s : State} (h : Still r s) (fault : Bool) :
    StillO r (execTempSensorFault fault s) := by
  unfold execTempSensorFault
  repeat' first
    | (with_reducible first
        | assumption | apply still_setFlag | apply still_raise | apply still_ite | apply still_next)
    | decide | (simp only [SUP_STATE, islTM, TIM_HO_STAT, TIM_HO_STAT_TEMP_FAULT]; omega)

theorem still_showSample {r s : State} (h : Still r s) :
    Still r (State.showSample s) := by
  unfold State.showSample
  repeat' first
    | (with_reducible first
        | assumption | apply still_setReg | refine still_fst ?_ (by assumption))
    | decide | (simp only [SUP_STATE, TIM_HO_SAMPLE]; omega) | extract_lets +onlyGivenNames x | intro x | split

theorem still_execLearningSample {r s : State} (h : Still r s) (offset : Int) (temp : Int) :
    StillO r (execLearningSample offset temp s) := by
  unfold execLearningSample
  repeat' first
    | (with_reducible first
        | assumption | apply still_showSample | apply still_ite | apply still_next | (apply still_mk <;> first | rfl | assumption))
    | decide | (simp only [SUP_STATE, islTM, TIM_HO_CFG, TIM_HO_CFG_LEARN_QL_MAX]; omega)

theorem still_popSample {r s : State} (h : Still r s) :
    Still r (State.popSample s) := by
  unfold State.popSample
  repeat' first
    | (with_reducible first
        | assumption | apply still_showSample | (apply still_mk <;> first | rfl | assumption))
    | decide

theorem still_hoCommand {r s : State} (h : Still r s) (cmd : Nat) (token : Nat) :
    Still r (State.hoCommand s cmd token) := by
  unfold State.hoCommand
  repeat' first
    | (with_reducible first
        | assumption | apply still_setReg | apply still_setFld | apply still_raise | apply still_ite
        | (apply still_mk <;> first | rfl | assumption))
    | decide | (simp only [SUP_STATE, TIM_HO_CMD, TIM_HO_CMD_TOKEN, TIM_HO_CMD_RESULT, islTM, TIM_HO_STAT]; omega)

theorem still_commitTick {r s : State} (h : Still r s) :
    Still r (State.commitTick s) := by
  unfold State.commitTick
  repeat' first
    | (with_reducible first
        | assumption | apply still_setFld | apply still_readModel | apply still_ite | (apply still_mk <;> first | rfl | assumption))
    | decide | (simp only [SUP_STATE, TIM_HO_STAT, TIM_HO_STAT_ACTIVE]; omega)

theorem still_correctionWord {r s : State} (h : Still r s) (corr : Int) :
    Still r (State.correctionWord s corr) := by
  unfold State.correctionWord
  repeat' first
    | (with_reducible first
        | assumption | apply still_setFlag | apply still_raise | apply still_ite | (apply still_mk <;> first | rfl | assumption))
    | decide | (simp only [SUP_STATE, SUP_MON_CFG, SUP_MON_CFG_LIMIT_PPB, SUP_SAFETY_STAT, SUP_SAFETY_STAT_CORR_REJ, islSP]; omega)

theorem still_dpll0Freq {r s : State} (h : Still r s) (freq : Int) :
    Still r (State.dpll0Freq s freq) := by
  unfold State.dpll0Freq
  repeat' first
    | (with_reducible first
        | assumption | apply still_setFlag | apply still_setReg | apply still_addOffset | apply still_ite)
    | decide | (simp only [SUP_STATE, TIM_HO_STAT, TIM_HO_STAT_OUT_OF_RANGE, TIM_HO_TIME, TIM_DPLL_FREQ]; omega)

theorem still_setErr {r s : State} (h : Still r s) (d : Nat) (x : Int) :
    Still r (State.setErr s d x) := by
  unfold State.setErr
  repeat' first
    | (with_reducible first
        | assumption | apply still_setDpll | apply still_setFld | (apply still_mk <;> first | rfl | assumption))
    | decide | (simp only [SUP_STATE, TIM_DPLL_STAT, TIM_DPLL_STAT_PHASE]; omega)

theorem still_tickDpll0 {r s : State} (h : Still r s) (phases : List Int) :
    Still r (State.tickDpll0 s phases) := by
  unfold State.tickDpll0
  repeat' first
    | (with_reducible first
        | assumption | apply still_setDpll | apply still_setErr | apply still_ite | (apply still_mk <;> first | rfl | assumption))
    | decide | (simp only [SUP_STATE, TIM_DPLL_FREQ]; omega)

theorem still_tickStandby {r s : State} (h : Still r s) (phases : List Int) (d : Nat) :
    Still r (State.tickStandby s phases d) := by
  unfold State.tickStandby
  repeat' first
    | (with_reducible first
        | assumption | apply still_setErr | apply still_setDpll | apply still_setReg | apply still_ite
        | (apply still_mk <;> first | rfl | assumption))
    | decide | (simp only [SUP_STATE, TIM_DPLL_STAT, TIM_DPLL_STAT_REF, TIM_DPLL_FREQ]; omega)

theorem still_stepTime {r s : State} (h : Still r s) (step : Int) :
    Still r (State.stepTime s step) := by
  unfold State.stepTime
  repeat' first
    | (with_reducible first
        | assumption | apply still_setDpll | apply still_raise | (apply still_mk <;> first | rfl | assumption))
    | decide | (simp only [SUP_STATE, islTM, TIM_DPLL_STAT]; omega)

theorem still_judgeStep {r s : State} (h : Still r s) (err : Int) :
    Still r (State.judgeStep s err) := by
  unfold State.judgeStep
  repeat' first
    | (with_reducible first
        | assumption | apply still_stepTime | apply still_setErr | apply still_ite)
    | decide

theorem still_tickDpll1 {r s : State} (h : Still r s) (phases : List Int) :
    Still r (State.tickDpll1 s phases) := by
  unfold State.tickDpll1
  repeat' first
    | (with_reducible first
        | assumption | apply still_judgeStep | apply still_useFree | apply still_setDpll | apply still_setReg | apply still_ite
        | (apply still_mk <;> first | rfl | assumption)
        | (apply still_mk <;> first | rfl | assumption | apply still_judgeStep | apply still_useFree | apply still_setDpll | apply still_setReg | apply still_ite))
    | decide | (simp only [SUP_STATE, TIM_DPLL_FREQ]; omega) | extract_lets +onlyGivenNames x | intro x

theorem still_tickDplls {r s : State} (h : Still r s) (phases : List Int) :
    Still r (State.tickDplls s phases) := by
  unfold State.tickDplls
  repeat' first
    | (with_reducible first
        | assumption | apply still_tickDpll0 | apply still_tickStandby | apply still_tickDpll1)
    | decide

theorem still_readTemp {r s : State} (h : Still r s) (reading : Int) :
    Still r (State.readTemp s reading) := by
  unfold State.readTemp
  repeat' first
    | (with_reducible first
        | assumption | apply still_ite | (apply still_mk <;> first | rfl | assumption))
    | decide

theorem still_tickTemp {r s : State} (h : Still r s) (caseTemp : Int) (ntcTemp : Int) :
    Still r (State.tickTemp s caseTemp ntcTemp) := by
  unfold State.tickTemp
  repeat' first
    | (with_reducible first
        | assumption | apply still_readTemp | apply still_setReg | apply still_ite | (apply still_mk <;> first | rfl | assumption))
    | decide | (simp only [SUP_STATE, TIM_HO_CFG, TIM_HO_CFG_TEMP_SRC, TIM_HO_STAT, TIM_HO_STAT_TEMP_FAULT, TIM_HO_TEMP]; omega)

theorem still_execTmReport {r s : State} (h : Still r s) (freq : Int) (caseTemp : Int) (ntcTemp : Int) (phases : List Int) :
    StillO r (execTmReport freq caseTemp ntcTemp phases s) := by
  unfold execTmReport
  repeat' first
    | (with_reducible first
        | assumption | apply still_commitTick | apply still_tickTemp | apply still_dpll0Freq | apply still_tickDplls
        | apply still_timSettle | apply still_correctionWord | apply still_judgeSquelch | apply still_ite | apply still_next
        | (apply still_mk <;> first | rfl | assumption)
        | (apply still_mk <;> first | rfl | assumption | apply still_commitTick | apply still_tickTemp | apply still_dpll0Freq | apply still_tickDplls | apply still_timSettle | apply still_correctionWord | apply still_judgeSquelch | apply still_ite))
    | decide | (simp only [SUP_STATE, islTM, TIM_STAT, TIM_STAT_REF_OK, TIM_STAT_HO_VALID, TIM_DPLL_FREQ]; omega)
    | extract_lets +onlyGivenNames x | intro x

theorem still_startTiming {r s : State} (h : Still r s) :
    Still r (State.startTiming s) := by
  unfold State.startTiming
  repeat' first
    | (with_reducible first
        | assumption | apply still_freeRun | apply still_each | apply still_refWaits | apply still_setFld | apply still_loadModel
        | apply still_raise | apply still_timSettle | apply still_ite | (apply still_mk <;> first | rfl | assumption)
        | (apply still_mk <;> first | rfl | assumption | apply still_freeRun | apply still_each | apply still_refWaits | apply still_setFld | apply still_loadModel | apply still_raise | apply still_timSettle | apply still_ite))
    | decide | (simp only [SUP_STATE, TIM_REF_CFG, TIM_REF_CFG_EN, TIM_HO_STAT, TIM_HO_STAT_ACTIVE, islTM]; omega)
    | extract_lets +onlyGivenNames x | intro x hx | intro x

theorem still_sendEsmc {r s : State} (h : Still r s) (p : Nat) (event : Bool) :
    Still r (State.sendEsmc s p event) := by
  unfold State.sendEsmc
  repeat' first
    | (with_reducible first
        | assumption | apply still_ite | (apply still_mk <;> first | rfl | assumption))
    | decide | (simp only [SUP_STATE, TIM_ESMC_TX, TIM_ESMC_TX_ESMC_TX, TIM_ESMC_TX_SEND_TLV, TIM_ESMC_TX_ENH, TIM_ESMC_TX_SSM]; omega)

theorem still_esmcReceived {r s : State} (h : Still r s) (p : Nat) (f : List Byte) :
    Still r (State.esmcReceived s p f) := by
  unfold State.esmcReceived
  repeat' first
    | (with_reducible first
        | assumption | apply still_setFld | apply still_setFlag | apply still_ite)
    | decide | (simp only [SUP_STATE, islTM, TIM_ESMC_RX, TIM_ESMC_RX_SSM, TIM_ESMC_RX_ENH, TIM_ESMC_RX_TIMEOUT]; omega)

theorem still_execEsmcTimeout {r s : State} (h : Still r s) (p : Fin 2) :
    StillO r (execEsmcTimeout p s) := by
  unfold execEsmcTimeout
  repeat' first
    | (with_reducible first
        | assumption | apply still_setFlag | apply still_raise | apply still_ite | apply still_next)
    | decide | (simp only [SUP_STATE, islTM, TIM_ESMC_RX, TIM_ESMC_RX_TIMEOUT]; omega)

theorem still_execEsmcInformationPdu {r s : State} (h : Still r s) (p : Fin 2) :
    StillO r (execEsmcInformationPdu p s) := by
  unfold execEsmcInformationPdu
  repeat' first
    | (with_reducible first
        | assumption | apply still_sendEsmc | apply still_ite | apply still_next)
    | decide | (simp only [SUP_STATE, islTM]; omega)

theorem still_esmcTxWrite {r s : State} (h : Still r s) (p : Nat) (value : Word) :
    Still r (State.esmcTxWrite s p value) := by
  unfold State.esmcTxWrite
  repeat' first
    | (with_reducible first
        | assumption | apply still_serviceWrite | apply still_sendEsmc | apply still_ite)
    | decide | (simp only [SUP_STATE, TIM_ESMC_TX]; omega)

theorem still_setQueueBytes {r s : State} (h : Still r s) (a : Nat) (bs : List Byte) (ha : SUP_STATE < a) : Still r (s.setQueueBytes a bs) :=
  still_setRegBytes h _ _ _ ha

theorem still_ptpReceived {r s : State} (h : Still r s) (p : Nat) (m : List Byte) :
    Still r (State.ptpReceived s p m) := by
  unfold State.ptpReceived
  repeat' first
    | (with_reducible first
        | assumption | apply still_useFree | apply still_count | apply still_raise | apply still_setQueueBytes | apply still_setFld
        | refine still_fst ?_ (by assumption) | apply still_ite | (apply still_mk <;> first | rfl | assumption)
        | (apply still_mk <;> first | rfl | assumption | apply still_useFree | apply still_count | apply still_raise | apply still_setQueueBytes | apply still_setFld | apply still_ite))
    | decide
    | (simp only [SUP_STATE, islTM, TIM_PTP_PORT_CFG, TIM_PTP_PORT_CFG_EN, TIM_PTP_RXQ_OVF_CNT, TIM_PTP_QPTR, TIM_PTP_QPTR_RX, TIM_PTP_RXQ]; omega)
    | extract_lets +onlyGivenNames x | intro x

theorem still_pushStamp {r s : State} (h : Still r s) (p : Nat) (x : TxStamp) :
    Still r (State.pushStamp s p x) := by
  unfold State.pushStamp
  repeat' first
    | (with_reducible first
        | assumption | apply still_useFree | apply still_count | apply still_raise | apply still_ite
        | (apply still_mk <;> first | rfl | assumption)
        | (apply still_mk <;> first | rfl | assumption | apply still_useFree | apply still_count | apply still_raise | apply still_ite))
    | decide | (simp only [SUP_STATE, TIM_PTP_TSF_OVF_CNT, islTM, TIM_PTP_QPTR]; omega) | extract_lets +onlyGivenNames x | intro x

theorem still_execPtpTransmit {r s : State} (h : Still r s) (p : Fin 2) :
    StillO r (execPtpTransmit p s) := by
  unfold execPtpTransmit
  repeat' first
    | (with_reducible first
        | assumption | apply still_setFld | apply still_useFree | apply still_pushStamp | apply still_ite | apply still_next
        | (apply still_mk <;> first | rfl | assumption))
    | decide
    | (simp only [SUP_STATE, islTM, TIM_PTP_PORT_CFG, TIM_PTP_PORT_CFG_EN, TIM_PTP_QPTR, TIM_PTP_TXQ, TIM_PTP_PORT_CFG_ONE_STEP, TIM_PTP_PORT_CFG_PROFILE]; omega)

theorem still_phaseWrite {r s : State} (h : Still r s) (p : Nat) (value : Word) :
    Still r (State.phaseWrite s p value) := by
  unfold State.phaseWrite
  repeat' first
    | (with_reducible first
        | assumption | apply still_serviceWrite | apply still_ite | (apply still_mk <;> first | rfl | assumption)
        | (apply still_mk <;> first | rfl | assumption | apply still_serviceWrite | apply still_ite))
    | decide | (simp only [SUP_STATE, TIM_PTP_PHASE]; omega) | extract_lets +onlyGivenNames x | intro x

theorem still_execTodMessage {r s : State} (h : Still r s) (seconds : Option Nat) :
    StillO r (execTodMessage seconds s) := by
  unfold execTodMessage
  repeat' first
    | (with_reducible first
        | assumption | apply still_raise | apply still_stepTime | refine still_fst ?_ (by assumption) | apply still_ite | apply still_next)
    | decide | (simp only [SUP_STATE, islTM, TIM_REF_STAT]; omega) | extract_lets +onlyGivenNames x | intro x | split

theorem still_latchTod {r s : State} (h : Still r s) :
    Still r (State.latchTod s) := by
  unfold State.latchTod
  repeat' first
    | (with_reducible first
        | assumption | apply still_setReg)
    | decide | (simp only [SUP_STATE, TIM_TOD]; omega)

end Sys2Proof.Machine
end

