-- ==== Sys2Proof/Laws/StillHub.lean ====
section
/-! SUPPORT. The operations of Machine/Hub.lean that neither store to memory nor move the life cycle leave both alone. -/

namespace Sys2Proof.Machine

theorem still_clearPending {r s : State} (h : Still r s) (k : Nat) (mask : Word) :
    Still r (State.clearPending s k mask) := by
  unfold State.clearPending
  repeat' first
    | (with_reducible first
        | assumption | apply still_useFree | apply still_setReg | apply still_updatePins | apply still_ite)
    | decide | (simp only [SUP_STATE, EVT_PEND]; omega)

theorem still_latchNext {r s : State} (h : Still r s) :
    Still r (State.latchNext s) := by
  unfold State.latchNext
  repeat' first
    | (with_reducible first
        | assumption | apply still_setReg)
    | decide | (simp only [SUP_STATE, EVT_LEDGER_NEXT]; omega)

theorem still_eventCfgWrite {r s : State} (h : Still r s) (e : Nat) (value : Word) :
    Still r (State.eventCfgWrite s e value) := by
  unfold State.eventCfgWrite
  repeat' first
    | (with_reducible first
        | assumption | apply still_setReg | apply still_raise | apply still_updatePins | apply still_ite)
    | decide | (simp only [SUP_STATE, EVT_EVENT_CFG, islEH]; omega)

theorem still_setInv {r s : State} (h : Still r s) (x : Inventory) :
    Still r (State.setInv s x) := by
  unfold State.setInv
  repeat' first
    | (with_reducible first
        | assumption | (apply still_mk <;> first | rfl | assumption))
    | decide

theorem still_startFreeze {r s : State} (h : Still r s) (f : Freeze) :
    Still r (State.startFreeze s f) := by
  unfold State.startFreeze
  repeat' first
    | (with_reducible first
        | assumption | apply still_setInv | apply still_setFlag | (apply still_mk <;> first | rfl | assumption))
    | decide | (simp only [SUP_STATE, INV_STAT, INV_STAT_GATHERING]; omega)

theorem still_freezeDue {r s : State} (h : Still r s) (f : Freeze) :
    Still r (State.freezeDue s f).1 := by
  unfold State.freezeDue
  repeat' first
    | (with_reducible first
        | assumption | apply still_startFreeze | apply still_setInv | apply still_setFlag | apply still_count | apply still_raiseFirst
        | apply still_ite
        | (apply still_mk <;> first | rfl | assumption | apply still_startFreeze | apply still_setInv | apply still_setFlag | apply still_count | apply still_raiseFirst | apply still_ite))
    | decide | (simp only [SUP_STATE, INV_STAT, INV_STAT_HELD, INV_MERGE_CNT, islEH]; omega)
    | (extract_lets +onlyGivenNames x; refine (have hx : Still r x := ?_; ?_); (on_goal 1 => subst x); (on_goal 2 => clear_value x))
    | extract_lets +onlyGivenNames x | intro x | split

theorem still_execInventoryTick {r s : State} (h : Still r s) :
    StillO r (execInventoryTick s) := by
  unfold execInventoryTick
  repeat' first
    | (with_reducible first
        | assumption | apply still_freezeDue | apply still_ite | apply still_next)
    | decide | (simp only [SUP_STATE, INV_CFG, INV_CFG_TICK_EN]; omega)

theorem still_snapshotWrite {r s : State} (h : Still r s) (token : Nat) (go : Bool) :
    Still r (State.snapshotWrite s token go) := by
  unfold State.snapshotWrite
  repeat' first
    | (with_reducible first
        | assumption | apply still_setFld | apply still_freezeDue | apply still_ite)
    | decide | (simp only [SUP_STATE, INV_SNAPSHOT, INV_SNAPSHOT_TOKEN, INV_SNAPSHOT_RESULT]; omega)

theorem still_setUnit {r s : State} (h : Still r s) (u : Nat) (x : CheckUnit) :
    Still r (State.setUnit s u x) := by
  unfold State.setUnit
  repeat' first
    | (with_reducible first
        | assumption | (apply still_mk <;> first | rfl | assumption))
    | decide

theorem still_chkCompare {r s : State} (h : Still r s) (u : Nat) (result : Nat) (expected : Nat) :
    Still r (State.chkCompare s u result expected) := by
  unfold State.chkCompare
  repeat' first
    | (with_reducible first
        | assumption | apply still_count | apply still_setFlag | apply still_raiseFirst | apply still_ite)
    | decide | (simp only [SUP_STATE, CHK_MATCH_CNT, CHK_STAT, CHK_STAT_MISMATCH, CHK_MISMATCH_CNT, islEH]; omega)

theorem still_execCheckBlockEnd {r s : State} (h : Still r s) (u : Fin 32) (block : List Byte) (carried : Word) :
    StillO r (execCheckBlockEnd u block carried s) := by
  unfold execCheckBlockEnd
  repeat' first
    | (with_reducible first
        | assumption | apply still_setUnit | apply still_count | apply still_setReg | apply still_setFlag | apply still_chkCompare
        | apply still_ite | apply still_next)
    | decide
    | (simp only [SUP_STATE, islEH, CHK_ENTRY0_EN, CHK_INIT, CHK_POLY, CHK_ENTRY0_REFIN, CHK_ENTRY0_MODE, CHK_BYTE_CNT, CHK_BLOCK_CNT, CHK_RUN, CHK_STAT, CHK_STAT_RUNNING, CHK_RESULT, CHK_EXPECT]; omega)

theorem still_checkWrite {r s : State} (h : Still r s) (w : Writer) (u : Nat) (k : Nat) (value : Word) :
    Still r (State.checkWrite s w u k value) := by
  unfold State.checkWrite
  repeat' first
    | (with_reducible first
        | assumption | apply still_respond | apply still_serviceWrite | apply still_setReg | apply still_setUnit | apply still_setFlag
        | apply still_raise | refine still_fst ?_ (by assumption) | apply still_ite | (apply still_mk <;> first | rfl | assumption))
    | decide | (simp only [SUP_STATE, CHK_ENTRY0, CHK_ENTRY0_EN, CHK_STAT, CHK_STAT_RUNNING, islEH]; omega)
    | extract_lets +onlyGivenNames x | intro x | split

end Sys2Proof.Machine
end

