-- ==== Sys2Proof/Laws/StillPw.lean ====
section
/-! SUPPORT. The operations of Machine/Pw.lean that neither store to memory nor move the life cycle leave both alone. -/

namespace Sys2Proof.Machine

theorem still_setFlow {r s : State} (h : Still r s) (f : Nat) (x : Flow) :
    Still r (State.setFlow s f x) := by
  unfold State.setFlow
  repeat' first
    | (with_reducible first
        | assumption | (apply still_mk <;> first | rfl | assumption))
    | decide

theorem still_setLend {r s : State} (h : Still r s) (x : Lending) :
    Still r (State.setLend s x) := by
  unfold State.setLend
  repeat' first
    | (with_reducible first
        | assumption | (apply still_mk <;> first | rfl | assumption))
    | decide

theorem still_flowEvent {r s : State} (h : Still r s) (f : Nat) (e : Nat) (data : List Word) :
    Still r (State.flowEvent s f e data) := by
  unfold State.flowEvent
  repeat' first
    | (with_reducible first
        | assumption | apply still_raise)
    | decide | (simp only [SUP_STATE, PW_STAT]; omega)

theorem still_showFill {r s : State} (h : Still r s) (f : Nat) :
    Still r (State.showFill s f) := by
  unfold State.showFill
  repeat' first
    | (with_reducible first
        | assumption | apply still_setFld | apply still_ite)
    | decide | (simp only [SUP_STATE, PW_STAT2, PW_STAT2_FILL]; omega)

theorem still_showLend {r s : State} (h : Still r s) :
    Still r (State.showLend s) := by
  unfold State.showLend
  repeat' first
    | (with_reducible first
        | assumption | apply still_setFld | apply still_setLend | apply still_raise | apply still_ite
        | (apply still_mk <;> first | rfl | assumption))
    | decide
    | (simp only [SUP_STATE, LEND_STAT, LEND_STAT_FREE, LEND_STAT_DESC_FREE, LEND_SHARED, LEND_SHARED_FREE, LEND_CFG, LEND_CFG_LOW_WATER, islFM]; omega)

theorem still_denied {r s : State} (h : Still r s) (f : Nat) (d : Denial) :
    Still r (State.denied s f d) := by
  unfold State.denied
  repeat' first
    | (with_reducible first
        | assumption | apply still_raiseFirst | apply still_ite)
    | decide | (simp only [SUP_STATE, islFM, LEND_STAT]; omega)

theorem still_grantPage {r s : State} (h : Still r s) (f : Nat) (v : Nat) :
    Still r (State.grantPage s f v).1 := by
  unfold State.grantPage
  repeat' first
    | (with_reducible first
        | assumption | apply still_denied | apply still_useFree | apply still_setReg | apply still_setFld | apply still_count
        | apply still_showLend | refine still_fst ?_ (by assumption) | apply still_ite)
    | decide | (simp only [SUP_STATE, LEND_MAP, LEND_MAP_VALID, PW_STAT, PW_STAT_FOLIOS, LEND_GRANT_CNT]; omega)
    | extract_lets +onlyGivenNames x | intro x hx | intro x | split

theorem still_returnPage {r s : State} (h : Still r s) (f : Nat) (v : Nat) :
    Still r (State.returnPage s f v) := by
  unfold State.returnPage
  repeat' first
    | (with_reducible first
        | assumption | apply still_setReg | apply still_setFld | apply still_count | apply still_showLend
        | refine still_fst ?_ (by assumption))
    | decide | (simp only [SUP_STATE, LEND_MAP, PW_STAT, PW_STAT_FOLIOS, LEND_RETURN_CNT]; omega) | extract_lets +onlyGivenNames x
    | intro x | split

theorem still_returnAll {r s : State} (h : Still r s) (f : Nat) :
    Still r (State.returnAll s f) := by
  unfold State.returnAll
  repeat' first
    | (with_reducible first
        | assumption | apply still_each | apply still_returnPage)
    | decide | (simp only [SUP_STATE, LEND_MAP_FLOW, LEND_MAP_VPAGE]; omega) | extract_lets +onlyGivenNames x | intro x hx | intro x

theorem still_grantPages {r s : State} (h : Still r s) (f : Nat) (got l : List Nat) : Still r (s.grantPages f got l).1 := by
  induction l generalizing s got with
  | nil => exact h
  | cons v vs ih =>
    unfold State.grantPages
    split
    · exact ih h got
    · split
      · next heq => exact ih (still_fst (still_grantPage h f v) heq) _
      · next heq => exact still_each (still_fst (still_grantPage h f v) heq) _ _ fun x hx a => still_returnPage hx f a

theorem still_discarded {r s : State} (h : Still r s) (f : Nat) (code : Nat) :
    Still r (State.discarded s f code) := by
  unfold State.discarded
  repeat' first
    | (with_reducible first
        | assumption | apply still_count | apply still_setFld | apply still_raiseFirst)
    | decide | (simp only [SUP_STATE, PW_DISC_CNT, PW_STAT, PW_STAT_LAST_DISC]; omega)

theorem still_discard {r s : State} (h : Still r s) (f : Nat) (code : Nat) (cnt : Nat) :
    Still r (State.discard s f code cnt) := by
  unfold State.discard
  repeat' first
    | (with_reducible first
        | assumption | apply still_count | apply still_discarded)
    | decide | (simp only [SUP_STATE, PW_PORT_CNT]; omega)

theorem still_emptyBuffer {r s : State} (h : Still r s) (f : Nat) :
    Still r (State.emptyBuffer s f) := by
  unfold State.emptyBuffer
  repeat' first
    | (with_reducible first
        | assumption | apply still_returnAll | apply still_setFlow | apply still_showFill | (apply still_mk <;> first | rfl | assumption))
    | decide

theorem still_silence {r s : State} (h : Still r s) (f : Nat) :
    Still r (State.silence s f) := by
  unfold State.silence
  repeat' first
    | (with_reducible first
        | assumption | apply still_setFlow | (apply still_mk <;> first | rfl | assumption))
    | decide

theorem still_enterFill {r s : State} (h : Still r s) (f : Nat) (cause : Nat) :
    Still r (State.enterFill s f cause) := by
  unfold State.enterFill
  repeat' first
    | (with_reducible first
        | assumption | apply still_setFld | apply still_setFlag | apply still_silence | apply still_flowEvent)
    | decide | (simp only [SUP_STATE, PW_STAT, PW_STAT_STATE, PW_STAT_R_TX]; omega)

theorem still_tryPlay {r s : State} (h : Still r s) (f : Nat) :
    Still r (State.tryPlay s f) := by
  unfold State.tryPlay
  repeat' first
    | (with_reducible first
        | assumption | apply still_setFld | apply still_flowEvent | apply still_ite)
    | decide | (simp only [SUP_STATE, PW_JB, PW_JB_TARGET, PW_STAT, PW_STAT_STATE]; omega)

theorem still_lopsExit {r s : State} (h : Still r s) (f : Nat) :
    Still r (State.lopsExit s f) := by
  unfold State.lopsExit
  repeat' first
    | (with_reducible first
        | assumption | apply still_setFlow | apply still_flowEvent | apply still_enterFill | apply still_tryPlay | apply still_ite
        | (apply still_mk <;> first | rfl | assumption))
    | decide | (simp only [SUP_STATE, PW_JB, PW_JB_LOPS_EXIT]; omega)

theorem still_showRx {r s : State} (h : Still r s) (f : Nat) (b : Bool) (fl : Fld) (e : Nat) :
    Still r (State.showRx s f b fl e) := by
  unfold State.showRx
  repeat' first
    | (with_reducible first
        | assumption | apply still_setFlag | apply still_flowEvent | apply still_ite)
    | decide | (simp only [SUP_STATE, PW_STAT]; omega)

theorem still_playBytes {r s : State} (h : Still r s) (f : Nat) (l : List Byte) :
    Still r (State.playBytes s f l) := by
  unfold State.playBytes
  repeat' first
    | (with_reducible first
        | assumption | apply still_setFlow | refine still_fst ?_ (by assumption) | apply still_ite
        | (apply still_mk <;> first | rfl | assumption))
    | decide | (simp only [SUP_STATE, PW_CFG, PW_CFG_KIND, PW_SLOTS, TRIB_CFG, TRIB_CFG_FRAMING, PW_JB, PW_JB_IDLE]; omega)
    | extract_lets +onlyGivenNames x | intro x | split

theorem still_returnPassed {r s : State} (h : Still r s) (f : Nat) (n : Nat) :
    Still r (State.returnPassed s f n) := by
  unfold State.returnPassed
  repeat' first
    | (with_reducible first
        | assumption | apply still_each | apply still_returnPage | apply still_ite)
    | decide | extract_lets +onlyGivenNames x | intro x hx | intro x

theorem still_steer {r s : State} (h : Still r s) (f : Nat) :
    Still r (State.steer s f) := by
  unfold State.steer
  repeat' first
    | (with_reducible first
        | assumption | apply still_setFld | apply still_useFree | apply still_ite)
    | decide | (simp only [SUP_STATE, PW_CFG, PW_CFG_CLOCK, PW_STAT3, PW_STAT3_NCO]; omega)

theorem still_enterLops {r s : State} (h : Still r s) (f : Nat) :
    Still r (State.enterLops s f) := by
  unfold State.enterLops
  repeat' first
    | (with_reducible first
        | assumption | apply still_setFld | apply still_setFlag | apply still_silence | apply still_flowEvent | apply still_emptyBuffer)
    | decide | (simp only [SUP_STATE, PW_STAT, PW_STAT_STATE, PW_STAT_R_TX]; omega)

theorem still_execPlayoutSlot {r s : State} (h : Still r s) (f : Fin 1024) :
    StillO r (execPlayoutSlot f s) := by
  unfold execPlayoutSlot
  repeat' first
    | (with_reducible first
        | assumption | apply still_playBytes | apply still_setFlow | apply still_count | apply still_raiseFirst | apply still_setFld
        | apply still_returnPassed | apply still_steer | apply still_showFill | apply still_enterLops | apply still_ite | apply still_next
        | (apply still_mk <;> first | rfl | assumption))
    | decide | (simp only [SUP_STATE, PW_LOST_CNT, PW_STAT, PW_STAT1, PW_STAT1_N_PLAY, PW_JB, PW_JB_LOPS_N]; omega)

theorem still_execFolioGrant {r s : State} (h : Still r s) (reqs : List FolioReq) :
    StillO r (execFolioGrant reqs s) := by
  unfold execFolioGrant
  repeat' first
    | (with_reducible first
        | assumption | apply still_count | apply still_grantPage | apply still_denied | apply still_useFree | apply still_setLend
        | apply still_showLend | refine still_fst ?_ (by assumption) | apply still_ite | apply still_next
        | (apply still_mk <;> first | rfl | assumption))
    | decide | (simp only [SUP_STATE, LEND_RETRY_CNT, PW_CFG, PW_CFG_JB_LOG2, LEND_CFG, LEND_CFG_TX_RSV, LEND_GRANT_CNT]; omega)
    | extract_lets +onlyGivenNames x | intro x | split

theorem still_takeFrames {r s : State} (h : Still r s) (f : Nat) :
    Still r (State.takeFrames s f) := by
  unfold State.takeFrames
  repeat' first
    | (with_reducible first
        | assumption | apply still_setTrib | refine still_fst ?_ (by assumption) | apply still_ite
        | (apply still_mk <;> first | rfl | assumption))
    | decide | (simp only [SUP_STATE, PW_CFG, PW_CFG_KIND, PW_SLOTS]; omega) | extract_lets +onlyGivenNames x | intro x | split

theorem still_freeDesc {r s : State} (h : Still r s) (d : Nat) :
    Still r (State.freeDesc s d) := by
  unfold State.freeDesc
  repeat' first
    | (with_reducible first
        | assumption | apply still_setLend | apply still_each | apply still_setReg | apply still_count | apply still_showLend
        | (apply still_mk <;> first | rfl | assumption))
    | decide | (simp only [SUP_STATE, LEND_DESC0, LEND_RETURN_CNT]; omega) | extract_lets +onlyGivenNames x | intro x hx | intro x

theorem still_execPacketSent {r s : State} (h : Still r s) (d : Fin 4096) :
    StillO r (execPacketSent d s) := by
  unfold execPacketSent
  repeat' first
    | (with_reducible first
        | assumption | apply still_setLend | apply still_count | apply still_freeDesc | apply still_ite | apply still_next
        | (apply still_mk <;> first | rfl | assumption))
    | decide | (simp only [SUP_STATE, islPK, PW_PORT_CNT]; omega)

theorem still_execPacketLinkChange {r s : State} (h : Still r s) (p : Fin 2) (up : Bool) :
    StillO r (execPacketLinkChange p up s) := by
  unfold execPacketLinkChange
  repeat' first
    | (with_reducible first
        | assumption | apply still_setFlag | apply still_raise | apply still_ite | apply still_next)
    | decide
    | (simp only [SUP_STATE, islPK, PW_PORT_STAT, PW_PORT_STAT_LINK, PW_PORT_STAT_SYNC, PW_PORT_STAT_AN_DONE, PW_PORT_CFG, PW_PORT_CFG_AN_EN, PW_PORT_CFG_MODE]; omega)

theorem still_showHomes {r s : State} (h : Still r s) :
    Still r (State.showHomes s) := by
  unfold State.showHomes
  repeat' first
    | (with_reducible first
        | assumption | apply still_each | apply still_setFld)
    | decide | (simp only [SUP_STATE, PW_PORT_STAT, PW_PORT_STAT_FLOWS]; omega) | extract_lets +onlyGivenNames x | intro x hx | intro x

theorem still_startFlow {r s : State} (h : Still r s) (f : Nat) :
    Still r (State.startFlow s f) := by
  unfold State.startFlow
  repeat' first
    | (with_reducible first
        | assumption | apply still_setFlow | apply still_flowEvent | apply still_enterFill | apply still_showHomes | apply still_showLend)
    | decide

theorem still_startFlows {r s : State} (h : Still r s) :
    Still r (State.startFlows s) := by
  unfold State.startFlows
  repeat' first
    | (with_reducible first
        | assumption | apply still_each | apply still_startFlow)
    | decide

theorem still_enableFlow {r s : State} (h : Still r s) (f : Nat) (value : Word) :
    Still r (State.enableFlow s f value) := by
  unfold State.enableFlow
  repeat' first
    | (with_reducible first
        | assumption | apply still_respond | apply still_setReg | apply still_flowEvent | apply still_serviceWrite | apply still_startFlow
        | apply still_ite)
    | decide | (simp only [SUP_STATE, PW_CFG]; omega)

theorem still_disableFlow {r s : State} (h : Still r s) (f : Nat) (value : Word) :
    Still r (State.disableFlow s f value) := by
  unfold State.disableFlow
  repeat' first
    | (with_reducible first
        | assumption | apply still_serviceWrite | apply still_setFlag | apply still_setFlow | apply still_silence | apply still_flowEvent
        | apply still_showHomes | apply still_showLend | apply still_respond | apply still_ite
        | (apply still_mk <;> first | rfl | assumption))
    | decide | (simp only [SUP_STATE, PW_CFG, PW_STAT, PW_STAT_DRAINING]; omega)

theorem still_flowWord0 {r s : State} (h : Still r s) (f : Nat) (value : Word) :
    Still r (State.flowWord0 s f value) := by
  unfold State.flowWord0
  repeat' first
    | (with_reducible first
        | assumption | apply still_enableFlow | apply still_disableFlow | apply still_ite)
    | decide

theorem still_flowWrite {r s : State} (h : Still r s) (f : Nat) (k : Nat) (value : Word) :
    Still r (State.flowWrite s f k value) := by
  unfold State.flowWrite
  repeat' first
    | (with_reducible first
        | assumption | apply still_flowWord0 | apply still_respond | apply still_serviceWrite | apply still_ite)
    | decide | (simp only [SUP_STATE, PW_CFG]; omega)

theorem still_profWrite {r s : State} (h : Still r s) (q : Nat) (k : Nat) (value : Word) :
    Still r (State.profWrite s q k value) := by
  unfold State.profWrite
  repeat' first
    | (with_reducible first
        | assumption | apply still_respond | apply still_serviceWrite | apply still_ite)
    | decide | (simp only [SUP_STATE, PW_PROF0]; omega)

theorem still_execFlowDrainTimeout {r s : State} (h : Still r s) (f : Fin 1024) :
    StillO r (execFlowDrainTimeout f s) := by
  unfold execFlowDrainTimeout
  repeat' first
    | (with_reducible first
        | assumption | apply still_each | apply still_freeDesc | apply still_count | apply still_setFlow | apply still_raise
        | apply still_ite | apply still_next | (apply still_mk <;> first | rfl | assumption))
    | decide | (simp only [SUP_STATE, islFM, LEND_DRAIN_CNT, PW_STAT]; omega)

theorem still_execFlowDrainComplete {r s : State} (h : Still r s) (f : Fin 1024) :
    StillO r (execFlowDrainComplete f s) := by
  unfold execFlowDrainComplete
  repeat' first
    | (with_reducible first
        | assumption | apply still_emptyBuffer | apply still_setFlow | apply still_setLend | apply still_count | apply still_setFld
        | apply still_setFlag | apply still_flowEvent | apply still_showLend | apply still_ite | apply still_next
        | (apply still_mk <;> first | rfl | assumption))
    | decide | (simp only [SUP_STATE, LEND_RETURN_CNT, PW_STAT, PW_STAT_STATE, PW_STAT_DRAINING, PW_STAT_R_TX]; omega)

end Sys2Proof.Machine
end

