-- ==== Sys2Proof/Laws/StillTwin.lean ====
section
/-! SUPPORT. The operations of Machine/Twin.lean that neither store to memory nor move the life cycle leave both alone. -/

namespace Sys2Proof.Machine

theorem still_execTieHeartbeatSend {r s : State} (h : Still r s) :
    StillO r (execTieHeartbeatSend s) := by
  unfold execTieHeartbeatSend
  repeat' first
    | (with_reducible first
        | assumption | apply still_setFld | apply still_ite | apply still_next)
    | decide | (simp only [SUP_STATE, TWN_TIE_STAT, TWN_TIE_STAT_TX]; omega)

theorem still_execTiePulse {r s : State} (h : Still r s) (width : Nat) :
    StillO r (execTiePulse width s) := by
  unfold execTiePulse
  repeat' first
    | (with_reducible first
        | assumption | apply still_setFld | apply still_setTw | apply still_count | apply still_raiseFirst | apply still_setFlag
        | apply still_raise | apply still_roleEval | apply still_ite | apply still_next | (apply still_mk <;> first | rfl | assumption))
    | decide
    | (simp only [SUP_STATE, TWN_TIE_STAT, TWN_TIE_STAT_WIDTH, TWN_TIE_ERR_CNT, islSP, TWN_TIE_STAT_RX, TWN_STAT_TIE_OK, TWN_STAT]; omega)

theorem still_execTieOkLoss {r s : State} (h : Still r s) :
    StillO r (execTieOkLoss s) := by
  unfold execTieOkLoss
  repeat' first
    | (with_reducible first
        | assumption | apply still_setFlag | apply still_setFld | apply still_setTw | apply still_raise | apply still_roleEval
        | apply still_ite | apply still_next | (apply still_mk <;> first | rfl | assumption))
    | decide | (simp only [SUP_STATE, TWN_STAT_TIE_OK, TWN_STAT, TWN_TIE_STAT, TWN_TIE_STAT_RX, islSP]; omega)

theorem still_resync {r s : State} (h : Still r s) :
    Still r (State.resync s) := by
  unfold State.resync
  repeat' first
    | (with_reducible first
        | assumption | apply still_setTw | apply still_setFlag | (apply still_mk <;> first | rfl | assumption)
        | (apply still_mk <;> first | rfl | assumption | apply still_setTw | apply still_setFlag))
    | decide | (simp only [SUP_STATE, TWN_SYNC_STAT, TWN_SYNC_STAT_SYNC_A, TWN_SYNC_STAT_SYNC_B, TWN_SYNC_STAT_SYNC_C]; omega)
    | extract_lets +onlyGivenNames x | intro x

theorem still_setUnacked {r s : State} (h : Still r s) (l : List (Nat × LinkMsg)) :
    Still r (State.setUnacked s l) := by
  unfold State.setUnacked
  repeat' first
    | (with_reducible first
        | assumption | apply still_setTw | apply still_setFld | (apply still_mk <;> first | rfl | assumption))
    | decide | (simp only [SUP_STATE, TWN_SYNC_STAT, TWN_SYNC_STAT_UNACKED]; omega)

theorem still_sendMsg {r s : State} (h : Still r s) (stream : Nat) (m : LinkMsg) :
    Still r (State.sendMsg s stream m) := by
  unfold State.sendMsg
  repeat' first
    | (with_reducible first
        | assumption | apply still_setTw | apply still_setUnacked | refine still_fst ?_ (by assumption)
        | (apply still_mk <;> first | rfl | assumption))
    | decide | extract_lets +onlyGivenNames x | intro x | split

theorem still_linkError {r s : State} (h : Still r s) :
    Still r (State.linkError s) := by
  unfold State.linkError
  repeat' first
    | (with_reducible first
        | assumption | apply still_satInc | apply still_setFlag | apply still_raise | apply still_roleEval | apply still_ite)
    | decide | (simp only [SUP_STATE, TWN_LINK_ERR, TWN_LINK_ERR_ERR, TWN_STAT_QUAR, TWN_STAT]; omega)

theorem still_setLastSeq {r s : State} (h : Still r s) (stream : Nat) (n : Nat) :
    Still r (State.setLastSeq s stream n) := by
  unfold State.setLastSeq
  repeat' first
    | (with_reducible first
        | assumption | apply still_setTw | refine still_fst ?_ (by assumption) | (apply still_mk <;> first | rfl | assumption))
    | decide | extract_lets +onlyGivenNames x | intro x | split

theorem still_judgeSeq {r s : State} (h : Still r s) (stream : Nat) (seq : Nat) (heartbeat : Bool) :
    Still r (State.judgeSeq s stream seq heartbeat).1 := by
  unfold State.judgeSeq
  repeat' first
    | (with_reducible first
        | assumption | apply still_count | apply still_raiseFirst | apply still_setLastSeq | apply still_linkError | apply still_ite)
    | decide | (simp only [SUP_STATE, TWN_STAT_QUAR, TWN_DUP_CNT, TWN_GAP_CNT]; omega)
    | (extract_lets +onlyGivenNames x; refine (have hx : Still r x := ?_; ?_); (on_goal 1 => subst x); (on_goal 2 => clear_value x))
    | extract_lets +onlyGivenNames x | intro x | split

theorem still_takeAck {r s : State} (h : Still r s) (ack : Nat) :
    Still r (State.takeAck s ack) := by
  unfold State.takeAck
  repeat' first
    | (with_reducible first
        | assumption | apply still_setUnacked | apply still_setFlag | apply still_updateHitless | apply still_ite)
    | decide | (simp only [SUP_STATE, TWN_SYNC_STAT, TWN_SYNC_STAT_SYNC_C]; omega)

theorem still_received {r s : State} (h : Still r s) (stream : Nat) (m : MsgHead) (heartbeat : Bool) (f : State → State) (hf : ∀ x, Still r x → Still r (f x)) :
    Still r (State.received s stream m heartbeat f) := by
  unfold State.received
  repeat' first
    | (with_reducible first
        | assumption | apply still_judgeSeq | apply still_takeAck | refine still_fst ?_ (by assumption) | apply still_ite)
    | apply hf | decide | (simp only [SUP_STATE, TWN_STAT_QUAR]; omega) | extract_lets +onlyGivenNames x | intro x | split

theorem still_sendHeartbeat {r s : State} (h : Still r s) :
    Still r (State.sendHeartbeat s) := by
  unfold State.sendHeartbeat
  repeat' first
    | (with_reducible first
        | assumption | apply still_sendMsg | apply still_ite)
    | decide

theorem still_execHeartbeatSend {r s : State} (h : Still r s) :
    StillO r (execHeartbeatSend s) := by
  unfold execHeartbeatSend
  repeat' first
    | (with_reducible first
        | assumption | apply still_sendHeartbeat | apply still_next)
    | decide

theorem still_linkRise {r s : State} (h : Still r s) :
    Still r (State.linkRise s) := by
  unfold State.linkRise
  repeat' first
    | (with_reducible first
        | assumption | apply still_setFlag | apply still_each | apply still_setFld | apply still_setTw | apply still_resync
        | apply still_raise | (apply still_mk <;> first | rfl | assumption))
    | decide | (simp only [SUP_STATE, TWN_STAT, TWN_STAT_LINK_UP, TWN_LANE_STAT, TWN_LANE_STAT_HDR_ERR]; omega)
    | extract_lets +onlyGivenNames x | intro x hx | intro x

theorem still_linkFall {r s : State} (h : Still r s) :
    Still r (State.linkFall s) := by
  unfold State.linkFall
  repeat' first
    | (with_reducible first
        | assumption | apply still_resync | apply still_setFlag | apply still_raise | apply still_roleEval | apply still_ite)
    | decide | (simp only [SUP_STATE, TWN_STAT_LINK_UP, TWN_STAT]; omega)

theorem still_execHeartbeat {r s : State} (h : Still r s) (m : MsgHead) (hb : Heartbeat) :
    StillO r (execHeartbeat m hb s) := by
  unfold execHeartbeat
  repeat' first
    | (with_reducible first
        | assumption | apply still_received | apply still_setTw | apply still_linkRise | apply still_roleEval | apply still_setFld
        | apply still_ite | apply still_next | (apply still_mk <;> first | rfl | assumption))
    | decide | (simp only [SUP_STATE, TWN_STAT_LINK_UP, TWN_STAT_QUAR, TWN_STAT, TWN_STAT_TWIN_ROLE]; omega)
    | extract_lets +onlyGivenNames x | intro x hx | intro x

theorem still_execPair {r s : State} (h : Still r s) (m : MsgHead) (id : Word) (digest : Word) (cfg : Word) (ident : Word) (senior : Bool) :
    StillO r (execPair m id digest cfg ident senior s) := by
  unfold execPair
  repeat' first
    | (with_reducible first
        | assumption | apply still_received | apply still_setFlag | apply still_resync | apply still_raise | apply still_roleEval
        | apply still_ite | apply still_next)
    | decide | (simp only [SUP_STATE, TWN_PAIR_ID, TWN_PAIR_DIGEST, TWN_CFG, TWN_STAT_MISMATCH, TWN_STAT]; omega)
    | extract_lets +onlyGivenNames x | intro x hx | intro x

theorem still_execPairSend {r s : State} (h : Still r s) :
    StillO r (execPairSend s) := by
  unfold execPairSend
  repeat' first
    | (with_reducible first
        | assumption | apply still_sendMsg | apply still_ite | apply still_next)
    | decide | (simp only [SUP_STATE, TWN_PAIR_ID, TWN_PAIR_DIGEST, TWN_CFG, SUP_IDENT]; omega)

theorem still_execStream2Retransmit {r s : State} (h : Still r s) :
    StillO r (execStream2Retransmit s) := by
  unfold execStream2Retransmit
  repeat' first
    | (with_reducible first
        | assumption | apply still_setTw | apply still_ite | apply still_next | (apply still_mk <;> first | rfl | assumption))
    | decide

theorem still_execStream2AckTimeout {r s : State} (h : Still r s) :
    StillO r (execStream2AckTimeout s) := by
  unfold execStream2AckTimeout
  repeat' first
    | (with_reducible first
        | assumption | apply still_setFlag | apply still_setTw | apply still_roleEval | apply still_ite | apply still_next
        | (apply still_mk <;> first | rfl | assumption))
    | decide | (simp only [SUP_STATE, TWN_SYNC_STAT, TWN_SYNC_STAT_SYNC_C]; omega)

theorem still_execLinkErrorDecay {r s : State} (h : Still r s) :
    StillO r (execLinkErrorDecay s) := by
  unfold execLinkErrorDecay
  repeat' first
    | (with_reducible first
        | assumption | apply still_setFld | apply still_resync | apply still_setFlag | apply still_raise | apply still_roleEval
        | apply still_ite | apply still_next)
    | decide | (simp only [SUP_STATE, TWN_LINK_ERR, TWN_LINK_ERR_ERR, TWN_STAT_QUAR, TWN_STAT]; omega)

theorem still_execTwinLaneAlignment {r s : State} (h : Still r s) (k : Fin 4) (lock : Bool) (aligned : Bool) (skew : Byte) :
    StillO r (execTwinLaneAlignment k lock aligned skew s) := by
  unfold execTwinLaneAlignment
  repeat' first
    | (with_reducible first
        | assumption | apply still_setFlag | apply still_setFld | apply still_linkError | apply still_ite | apply still_next)
    | decide | (simp only [SUP_STATE, TWN_LANE_STAT, TWN_LANE_STAT_ALIGNED, TWN_LANE_STAT_BLOCK_LOCK, TWN_LANE_STAT_SKEW]; omega)

theorem still_execTwinLinkCodingError {r s : State} (h : Still r s) :
    StillO r (execTwinLinkCodingError s) := by
  unfold execTwinLinkCodingError
  repeat' first
    | (with_reducible first
        | assumption | apply still_useFree | apply still_satInc | apply still_linkError | apply still_ite | apply still_next)
    | decide | (simp only [SUP_STATE, TWN_LANE_STAT, TWN_LANE_STAT_HDR_ERR]; omega)

theorem still_judgeSync {r s : State} (h : Still r s) (ok : Bool) (run : Nat) (n : Nat) (f : Fld) :
    Still r (State.judgeSync s ok run n f).1 := by
  unfold State.judgeSync
  repeat' first
    | (with_reducible first
        | assumption | apply still_setFlag | apply still_ite)
    | decide | (simp only [SUP_STATE, TWN_SYNC_STAT]; omega)

theorem still_execMirrorA {r s : State} (h : Still r s) (m : MsgHead) (c : MirrorA) :
    StillO r (execMirrorA m c s) := by
  unfold execMirrorA
  repeat' first
    | (with_reducible first
        | assumption | apply still_received | apply still_each | apply still_setStoreFill | apply still_setPtrTx | apply still_setPath
        | apply still_judgeSync | apply still_setTw | apply still_roleEval | refine still_fst ?_ (by assumption) | apply still_ite
        | apply still_next | (apply still_mk <;> first | rfl | assumption))
    | decide | (simp only [SUP_STATE, islPX, TWN_SYNC_STAT_SYNC_A]; omega) | extract_lets +onlyGivenNames x | intro x hx | intro x

theorem still_execMirrorB {r s : State} (h : Still r s) (m : MsgHead) (c : MirrorB) :
    StillO r (execMirrorB m c s) := by
  unfold execMirrorB
  repeat' first
    | (with_reducible first
        | assumption | apply still_received | apply still_setDpll | apply still_setReg | apply still_each | apply still_setFld
        | apply still_fillStore | apply still_judgeSync | apply still_setTw | apply still_roleEval | refine still_fst ?_ (by assumption)
        | apply still_ite | apply still_next | (apply still_mk <;> first | rfl | assumption))
    | decide
    | (simp only [SUP_STATE, TRIB_TX_STAT, TRIB_TX_STAT_FILL, islTM, TIM_DPLL_FREQ, PW_STAT1, PW_STAT1_N_PLAY, PW_STAT1_TX_SEQ, PW_STAT2, PW_STAT2_FILL, PW_STAT3, PW_STAT3_NCO, islTR, TRIB_TX_STAT_OFFSET, TWN_SYNC_STAT_SYNC_B]; omega)
    | extract_lets +onlyGivenNames x | intro x hx | intro x

theorem still_sendC {r s : State} (h : Still r s) :
    Still r (State.sendC s) := by
  unfold State.sendC
  repeat' first
    | (with_reducible first
        | assumption | apply still_setTw | apply still_sendMsg | apply still_ite | (apply still_mk <;> first | rfl | assumption)
        | (apply still_mk <;> first | rfl | assumption | apply still_setTw | apply still_sendMsg | apply still_ite))
    | decide | extract_lets +onlyGivenNames x | intro x

theorem still_execMirrorSend {r s : State} (h : Still r s) (classB : Bool) :
    StillO r (execMirrorSend classB s) := by
  unfold execMirrorSend
  repeat' first
    | (with_reducible first
        | assumption | apply still_sendC | apply still_sendMsg | apply still_setTw | apply still_judgeSync | apply still_roleEval
        | refine still_fst ?_ (by assumption) | apply still_ite | apply still_next
        | (apply still_mk <;> first | rfl | assumption | apply still_sendC | apply still_sendMsg | apply still_setTw | apply still_judgeSync | apply still_roleEval | apply still_ite))
    | decide | (simp only [SUP_STATE, TWN_SYNC_STAT_SYNC_B, TWN_SYNC_STAT_SYNC_A]; omega)
    | (extract_lets +onlyGivenNames x; refine (have hx : Still r x := ?_; ?_); (on_goal 1 => subst x); (on_goal 2 => clear_value x))
    | extract_lets +onlyGivenNames x | intro x | split

theorem still_execSyncPulse {r s : State} (h : Still r s) (frame : Fin 48) (superframe : BitVec 16) :
    StillO r (execSyncPulse frame superframe s) := by
  unfold execSyncPulse
  repeat' first
    | (with_reducible first
        | assumption | apply still_setFld | apply still_setTw | apply still_ite | apply still_next
        | (apply still_mk <;> first | rfl | assumption))
    | decide | (simp only [SUP_STATE, TWN_SYNC_STAT, TWN_SYNC_STAT_FRAME, TWN_DELAY]; omega)

theorem still_execSyncPulseMissing {r s : State} (h : Still r s) :
    StillO r (execSyncPulseMissing s) := by
  unfold execSyncPulseMissing
  repeat' first
    | (with_reducible first
        | assumption | apply still_setTw | apply still_raise | apply still_ite | apply still_next
        | (apply still_mk <;> first | rfl | assumption))
    | decide | (simp only [SUP_STATE, TWN_SYNC_STAT]; omega)

theorem still_setCal {r s : State} (h : Still r s) (ok : Bool) :
    Still r (State.setCal s ok) := by
  unfold State.setCal
  repeat' first
    | (with_reducible first
        | assumption | apply still_setFlag | apply still_raise | apply still_ite)
    | decide | (simp only [SUP_STATE, TWN_SYNC_STAT, TWN_SYNC_STAT_CAL_OK, TWN_DELAY]; omega)

theorem still_execCal {r s : State} (h : Still r s) (m : MsgHead) (echo : Bool) (stamp : Nat) (turnaround : Nat) :
    StillO r (execCal m echo stamp turnaround s) := by
  unfold execCal
  repeat' first
    | (with_reducible first
        | assumption | apply still_received | apply still_setReg | apply still_setTw | apply still_setCal | apply still_roleEval
        | apply still_sendMsg | apply still_useFree | refine still_fst ?_ (by assumption) | apply still_ite | apply still_next
        | (apply still_mk <;> first | rfl | assumption))
    | decide | (simp only [SUP_STATE, TWN_SKEW, TWN_SKEW_SKEW_TRIM, TWN_DELAY]; omega) | extract_lets +onlyGivenNames x | intro x hx
    | intro x | split

theorem still_execCalSend {r s : State} (h : Still r s) :
    StillO r (execCalSend s) := by
  unfold execCalSend
  repeat' first
    | (with_reducible first
        | assumption | apply still_sendMsg | apply still_ite | apply still_next)
    | decide | (simp only [SUP_STATE, TWN_STAT_LINK_UP]; omega)

theorem still_sendPulse {r s : State} (h : Still r s) (n : Nat) :
    Still r (State.sendPulse s n) := by
  unfold State.sendPulse
  repeat' first
    | (with_reducible first
        | assumption | apply still_setTw | apply still_ite | (apply still_mk <;> first | rfl | assumption))
    | decide

theorem still_execTransmitFrameBoundary {r s : State} (h : Still r s) (augs : List (List (List Byte))) :
    StillO r (execTransmitFrameBoundary augs s) := by
  unfold execTransmitFrameBoundary
  repeat' first
    | (with_reducible first
        | assumption | apply still_setFld | apply still_setTw | apply still_sendPulse | apply still_each | apply still_buildFrame
        | apply still_facPulseAll | apply still_ite | apply still_next | (apply still_mk <;> first | rfl | assumption))
    | decide | (simp only [SUP_STATE, TWN_SYNC_STAT, TWN_SYNC_STAT_FRAME, FAC_FRAME_CFG, FAC_FRAME_CFG_MATCH_EN, FAC_FRAME_CFG_SF]; omega)
    | extract_lets +onlyGivenNames x | intro x hx | intro x

theorem still_execTwinSdCondition {r s : State} (h : Still r s) (on : Bool) :
    StillO r (execTwinSdCondition on s) := by
  unfold execTwinSdCondition
  repeat' first
    | (with_reducible first
        | assumption | apply still_setTw | apply still_roleEval | apply still_ite | apply still_next
        | (apply still_mk <;> first | rfl | assumption))
    | decide

theorem still_execTwinSf {r s : State} (h : Still r s) :
    StillO r (execTwinSf s) := by
  unfold execTwinSf
  repeat' first
    | (with_reducible first
        | assumption | apply still_roleEval | apply still_driveClaim | apply still_sendHeartbeat | apply still_ite | apply still_next)
    | decide

theorem still_execHandover {r s : State} (h : Still r s) (m : MsgHead) (frame : BitVec 22) (toJunior : Bool) :
    StillO r (execHandover m frame toJunior s) := by
  unfold execHandover
  repeat' first
    | (with_reducible first
        | assumption | apply still_received | apply still_setTw | apply still_raise | apply still_ite | apply still_next
        | (apply still_mk <;> first | rfl | assumption))
    | decide | (simp only [SUP_STATE, TWN_STAT_MISMATCH]; omega) | extract_lets +onlyGivenNames x | intro x hx | intro x

theorem still_execCommandedSwitch {r s : State} (h : Still r s) :
    StillO r (execCommandedSwitch s) := by
  unfold execCommandedSwitch
  repeat' first
    | (with_reducible first
        | assumption | apply still_setTw | apply still_sendMsg | apply still_raise | apply still_ite | apply still_next
        | (apply still_mk <;> first | rfl | assumption))
    | decide | (simp only [SUP_STATE, TWN_STAT, TWN_STAT_EQ_REQ, TWN_STAT_HITLESS, TWN_STAT_MISMATCH, TWN_STAT_EQ_SEL]; omega)

theorem still_execHandoverClaimTime {r s : State} (h : Still r s) :
    StillO r (execHandoverClaimTime s) := by
  unfold execHandoverClaimTime
  repeat' first
    | (with_reducible first
        | assumption | apply still_driveClaim | apply still_ite | apply still_next)
    | decide

theorem still_execHandoverFrame {r s : State} (h : Still r s) :
    StillO r (execHandoverFrame s) := by
  unfold execHandoverFrame
  repeat' first
    | (with_reducible first
        | assumption | apply still_setTw | apply still_roleTo | apply still_switchDone | apply still_ite | apply still_next
        | (apply still_mk <;> first | rfl | assumption))
    | decide | (simp only [SUP_STATE, SUP_SAFETY_STAT, SUP_SAFETY_STAT_CLAIM_OUT]; omega)

theorem still_soloClaim {r s : State} (h : Still r s) (solo : Bool) (why : Nat) :
    Still r (State.soloClaim s solo why) := by
  unfold State.soloClaim
  repeat' first
    | (with_reducible first
        | assumption | apply still_setFlag | apply still_roleTo | apply still_raise | apply still_ite)
    | decide | (simp only [SUP_STATE, TWN_STAT, TWN_STAT_SOLO]; omega)

theorem still_execSameInstantClaim {r s : State} (h : Still r s) :
    StillO r (execSameInstantClaim s) := by
  unfold execSameInstantClaim
  repeat' first
    | (with_reducible first
        | assumption | apply still_roleTo | apply still_raise | apply still_ite | apply still_next)
    | decide | (simp only [SUP_STATE, SUP_SAFETY_STAT, SUP_SAFETY_STAT_CLAIM_IN, SUP_SAFETY_STAT_CLAIM_OUT, TWN_STAT]; omega)

theorem still_execJuniorYield {r s : State} (h : Still r s) :
    StillO r (execJuniorYield s) := by
  unfold execJuniorYield
  repeat' first
    | (with_reducible first
        | assumption | apply still_roleTo | apply still_ite | apply still_next)
    | decide | (simp only [SUP_STATE, TWN_STAT_SILENT]; omega)

theorem still_execSeniorSoloClaim {r s : State} (h : Still r s) :
    StillO r (execSeniorSoloClaim s) := by
  unfold execSeniorSoloClaim
  repeat' first
    | (with_reducible first
        | assumption | apply still_soloClaim | apply still_ite | apply still_next)
    | decide | (simp only [SUP_STATE, TWN_STAT_SILENT]; omega)

theorem still_execJuniorSoloClaim {r s : State} (h : Still r s) :
    StillO r (execJuniorSoloClaim s) := by
  unfold execJuniorSoloClaim
  repeat' first
    | (with_reducible first
        | assumption | apply still_soloClaim | apply still_ite | apply still_next)
    | decide | (simp only [SUP_STATE, TWN_STAT_SILENT]; omega)

theorem still_execStartWaitExpiry {r s : State} (h : Still r s) :
    StillO r (execStartWaitExpiry s) := by
  unfold execStartWaitExpiry
  repeat' first
    | (with_reducible first
        | assumption | apply still_soloClaim | apply still_ite | apply still_next)
    | decide | (simp only [SUP_STATE, TWN_STAT_MISMATCH]; omega)

theorem still_twnCommand {r s : State} (h : Still r s) (cmd : Nat) (token : Nat) :
    Still r (State.twnCommand s cmd token) := by
  unfold State.twnCommand
  repeat' first
    | (with_reducible first
        | assumption | apply still_setFld | apply still_raise | apply still_setReg | apply still_mirror | apply still_roleEval
        | apply still_ite)
    | decide | (simp only [SUP_STATE, TWN_CMD, TWN_CMD_TOKEN, TWN_CMD_RESULT]; omega)

theorem still_twnWrite {r s : State} (h : Still r s) (w : Writer) (cmd : Nat) (token : Nat) :
    Still r (State.twnWrite s w cmd token) := by
  unfold State.twnWrite
  repeat' first
    | (with_reducible first
        | assumption | apply still_commandWrite | apply still_twnCommand)
    | decide | (simp only [SUP_STATE, TWN_CMD]; omega) | extract_lets +onlyGivenNames x | intro x hx | intro x

theorem still_execEquipmentWtrExpiry {r s : State} (h : Still r s) :
    StillO r (execEquipmentWtrExpiry s) := by
  unfold execEquipmentWtrExpiry
  repeat' first
    | (with_reducible first
        | assumption | apply still_setFlag | apply still_raise | apply still_roleEval | apply still_ite | apply still_next)
    | decide | (simp only [SUP_STATE, TWN_STAT_WTR, TWN_STAT]; omega)

end Sys2Proof.Machine
end

