-- ==== Sys2Proof/Laws/StillUnlock.lean ====
section
/-! SUPPORT. The operations of Machine/Unlock.lean that neither store to memory nor move the life cycle leave both alone. -/

namespace Sys2Proof.Machine

theorem still_setUnlock {r s : State} (h : Still r s) (st : Nat) :
    Still r (State.setUnlock s st) := by
  unfold State.setUnlock
  repeat' first
    | (with_reducible first
        | assumption | apply still_setFld)
    | decide | (simp only [SUP_STATE, EVT_MGMT_UNLOCK, EVT_MGMT_UNLOCK_STATE]; omega)

theorem still_unlockFails {r s : State} (h : Still r s) :
    Still r (State.unlockFails s) := by
  unfold State.unlockFails
  repeat' first
    | (with_reducible first
        | assumption | apply still_setUnlock | apply still_raise | apply still_ite | (apply still_mk <;> first | rfl | assumption))
    | decide | (simp only [SUP_STATE, islEH]; omega)

theorem still_unlockWord {r s : State} (h : Still r s) (v : Word) :
    Still r (State.unlockWord s v) := by
  unfold State.unlockWord
  repeat' first
    | (with_reducible first
        | assumption | apply still_setUnlock | apply still_unlockFails | apply still_raise | apply still_lockBridge
        | refine still_fst ?_ (by assumption) | apply still_ite)
    | decide | (simp only [SUP_STATE, islEH]; omega) | extract_lets +onlyGivenNames x | intro x | split

end Sys2Proof.Machine
end

