-- ==== Sys2Proof/Laws/StillBus.lean ====
section
/-! SUPPORT. The operations of Machine/Bus.lean that neither store to memory nor move the life cycle leave both alone. -/

namespace Sys2Proof.Machine

theorem still_latch {r s : State} (h : Still r s) (port : Nat) (a : Nat) :
    Still r (State.latch s port a) := by
  unfold State.latch
  repeat' first
    | (with_reducible first
        | assumption | apply still_setReg | apply still_latchTod | apply still_latchNext | apply still_popSample
        | refine still_fst ?_ (by assumption) | apply still_ite)
    | decide | (simp only [SUP_STATE, MTX_TXN, MTX_ITC, TIM_TOD, EVT_LEDGER_NEXT, TIM_HO_SAMPLE]; omega) | extract_lets +onlyGivenNames x
    | intro x hx | intro x | split

theorem still_afterRead {r s : State} (h : Still r s) (port : Nat) (tgt : Nat) (a : Nat) :
    Still r (State.afterRead s port tgt a) := by
  unfold State.afterRead
  repeat' first
    | (with_reducible first
        | assumption | apply still_latch | apply still_useFree | apply still_ite)
    | decide

theorem still_noteWindow {r s : State} (h : Still r s) (tgt : Nat) :
    Still r (State.noteWindow s tgt) := by
  unfold State.noteWindow
  repeat' first
    | (with_reducible first
        | assumption | apply still_raise | apply still_ite)
    | decide | (simp only [SUP_STATE, islMX]; omega)

theorem still_readAt {r s : State} (h : Still r s) (port : Nat) (a : Nat) (n : Nat) :
    Still r (State.readAt s port a n).1 := by
  unfold State.readAt
  repeat' first
    | (with_reducible first
        | assumption | apply still_noteWindow | apply still_afterRead | apply still_respond | apply still_ite)
    | decide
    | (extract_lets +onlyGivenNames x; refine (have hx : Still r x := ?_; ?_); (on_goal 1 => subst x); (on_goal 2 => clear_value x))
    | extract_lets +onlyGivenNames x | intro x | split

theorem still_kTxFree {r s : State} (h : Still r s) (n : Nat) (v : Word) :
    Still r (State.kTxFree s n v) := by
  unfold State.kTxFree
  repeat' first
    | (with_reducible first
        | assumption | apply still_kTxWrite | apply still_useFree)
    | decide

theorem still_noteCode {r s : State} (h : Still r s) (port : Nat) (tgt : Nat) (a : Nat) :
    Still r (State.noteCode s port tgt a) := by
  unfold State.noteCode
  repeat' first
    | (with_reducible first
        | assumption | apply still_count | apply still_raise | apply still_ite)
    | decide | (simp only [SUP_STATE, SVC_CODE_WR_CNT, islSV]; omega)

end Sys2Proof.Machine
end

