-- ==== Sys2Proof/Laws/StillCores.lean ====
section
/-! SUPPORT. The operations of Machine/Cores.lean that neither store to memory nor move the life cycle leave both alone. -/

namespace Sys2Proof.Machine

theorem still_onCore {r s : State} (h : Still r s) (q : Nat) (f : Core → Core) :
    Still r (State.onCore s q f) := by
  unfold State.onCore
  repeat' first
    | (with_reducible first
        | assumption | apply still_setCore | apply still_ite)
    | decide

theorem still_regOp {r s : State} (h : Still r s) (q : Nat) (gd : Nat) (f : Core → Word) :
    Still r (State.regOp s q gd f) := by
  unfold State.regOp
  repeat' first
    | (with_reducible first
        | assumption | apply still_onCore)
    | decide

theorem still_branchIf {r s : State} (h : Still r s) (q : Nat) (off : BitVec 16) (f : Core → Bool) :
    Still r (State.branchIf s q off f) := by
  unfold State.branchIf
  repeat' first
    | (with_reducible first
        | assumption | apply still_onCore | apply still_ite | (apply still_mk <;> first | rfl | assumption))
    | decide

theorem still_execAddi {r s : State} (h : Still r s) (q : Fin 2) (gd : Fin 32) (ga : Fin 32) (imm : BitVec 16) :
    StillO r (execAddi q gd ga imm s) := by
  unfold execAddi
  repeat' first
    | (with_reducible first
        | assumption | apply still_regOp | apply still_next)
    | decide

theorem still_execAndi {r s : State} (h : Still r s) (q : Fin 2) (gd : Fin 32) (ga : Fin 32) (imm : BitVec 16) :
    StillO r (execAndi q gd ga imm s) := by
  unfold execAndi
  repeat' first
    | (with_reducible first
        | assumption | apply still_regOp | apply still_next)
    | decide

theorem still_execOri {r s : State} (h : Still r s) (q : Fin 2) (gd : Fin 32) (ga : Fin 32) (imm : BitVec 16) :
    StillO r (execOri q gd ga imm s) := by
  unfold execOri
  repeat' first
    | (with_reducible first
        | assumption | apply still_regOp | apply still_next)
    | decide

theorem still_execXori {r s : State} (h : Still r s) (q : Fin 2) (gd : Fin 32) (ga : Fin 32) (imm : BitVec 16) :
    StillO r (execXori q gd ga imm s) := by
  unfold execXori
  repeat' first
    | (with_reducible first
        | assumption | apply still_regOp | apply still_next)
    | decide

theorem still_execSlti {r s : State} (h : Still r s) (q : Fin 2) (gd : Fin 32) (ga : Fin 32) (imm : BitVec 16) :
    StillO r (execSlti q gd ga imm s) := by
  unfold execSlti
  repeat' first
    | (with_reducible first
        | assumption | apply still_regOp | apply still_next)
    | decide

theorem still_execLui {r s : State} (h : Still r s) (q : Fin 2) (gd : Fin 32) (imm : BitVec 16) :
    StillO r (execLui q gd imm s) := by
  unfold execLui
  repeat' first
    | (with_reducible first
        | assumption | apply still_regOp | apply still_next)
    | decide

theorem still_execAdd {r s : State} (h : Still r s) (q : Fin 2) (gd : Fin 32) (ga : Fin 32) (gb : Fin 32) :
    StillO r (execAdd q gd ga gb s) := by
  unfold execAdd
  repeat' first
    | (with_reducible first
        | assumption | apply still_regOp | apply still_next)
    | decide

theorem still_execSub {r s : State} (h : Still r s) (q : Fin 2) (gd : Fin 32) (ga : Fin 32) (gb : Fin 32) :
    StillO r (execSub q gd ga gb s) := by
  unfold execSub
  repeat' first
    | (with_reducible first
        | assumption | apply still_regOp | apply still_next)
    | decide

theorem still_execAnd {r s : State} (h : Still r s) (q : Fin 2) (gd : Fin 32) (ga : Fin 32) (gb : Fin 32) :
    StillO r (execAnd q gd ga gb s) := by
  unfold execAnd
  repeat' first
    | (with_reducible first
        | assumption | apply still_regOp | apply still_next)
    | decide

theorem still_execOr {r s : State} (h : Still r s) (q : Fin 2) (gd : Fin 32) (ga : Fin 32) (gb : Fin 32) :
    StillO r (execOr q gd ga gb s) := by
  unfold execOr
  repeat' first
    | (with_reducible first
        | assumption | apply still_regOp | apply still_next)
    | decide

theorem still_execXor {r s : State} (h : Still r s) (q : Fin 2) (gd : Fin 32) (ga : Fin 32) (gb : Fin 32) :
    StillO r (execXor q gd ga gb s) := by
  unfold execXor
  repeat' first
    | (with_reducible first
        | assumption | apply still_regOp | apply still_next)
    | decide

theorem still_execSll {r s : State} (h : Still r s) (q : Fin 2) (gd : Fin 32) (ga : Fin 32) (gb : Fin 32) :
    StillO r (execSll q gd ga gb s) := by
  unfold execSll
  repeat' first
    | (with_reducible first
        | assumption | apply still_regOp | apply still_next)
    | decide

theorem still_execSrl {r s : State} (h : Still r s) (q : Fin 2) (gd : Fin 32) (ga : Fin 32) (gb : Fin 32) :
    StillO r (execSrl q gd ga gb s) := by
  unfold execSrl
  repeat' first
    | (with_reducible first
        | assumption | apply still_regOp | apply still_next)
    | decide

theorem still_execSra {r s : State} (h : Still r s) (q : Fin 2) (gd : Fin 32) (ga : Fin 32) (gb : Fin 32) :
    StillO r (execSra q gd ga gb s) := by
  unfold execSra
  repeat' first
    | (with_reducible first
        | assumption | apply still_regOp | apply still_next)
    | decide

theorem still_execSlt {r s : State} (h : Still r s) (q : Fin 2) (gd : Fin 32) (ga : Fin 32) (gb : Fin 32) :
    StillO r (execSlt q gd ga gb s) := by
  unfold execSlt
  repeat' first
    | (with_reducible first
        | assumption | apply still_regOp | apply still_next)
    | decide

theorem still_execSltu {r s : State} (h : Still r s) (q : Fin 2) (gd : Fin 32) (ga : Fin 32) (gb : Fin 32) :
    StillO r (execSltu q gd ga gb s) := by
  unfold execSltu
  repeat' first
    | (with_reducible first
        | assumption | apply still_regOp | apply still_next)
    | decide

theorem still_execMul {r s : State} (h : Still r s) (q : Fin 2) (gd : Fin 32) (ga : Fin 32) (gb : Fin 32) :
    StillO r (execMul q gd ga gb s) := by
  unfold execMul
  repeat' first
    | (with_reducible first
        | assumption | apply still_regOp | apply still_next)
    | decide

theorem still_execMulhu {r s : State} (h : Still r s) (q : Fin 2) (gd : Fin 32) (ga : Fin 32) (gb : Fin 32) :
    StillO r (execMulhu q gd ga gb s) := by
  unfold execMulhu
  repeat' first
    | (with_reducible first
        | assumption | apply still_regOp | apply still_next)
    | decide

theorem still_execDivu {r s : State} (h : Still r s) (q : Fin 2) (gd : Fin 32) (ga : Fin 32) (gb : Fin 32) :
    StillO r (execDivu q gd ga gb s) := by
  unfold execDivu
  repeat' first
    | (with_reducible first
        | assumption | apply still_regOp | apply still_next)
    | decide

theorem still_execRemu {r s : State} (h : Still r s) (q : Fin 2) (gd : Fin 32) (ga : Fin 32) (gb : Fin 32) :
    StillO r (execRemu q gd ga gb s) := by
  unfold execRemu
  repeat' first
    | (with_reducible first
        | assumption | apply still_regOp | apply still_next)
    | decide

theorem still_execBeq {r s : State} (h : Still r s) (q : Fin 2) (ga : Fin 32) (gb : Fin 32) (off : BitVec 16) :
    StillO r (execBeq q ga gb off s) := by
  unfold execBeq
  repeat' first
    | (with_reducible first
        | assumption | apply still_branchIf | apply still_next)
    | decide

theorem still_execBne {r s : State} (h : Still r s) (q : Fin 2) (ga : Fin 32) (gb : Fin 32) (off : BitVec 16) :
    StillO r (execBne q ga gb off s) := by
  unfold execBne
  repeat' first
    | (with_reducible first
        | assumption | apply still_branchIf | apply still_next)
    | decide

theorem still_execBlt {r s : State} (h : Still r s) (q : Fin 2) (ga : Fin 32) (gb : Fin 32) (off : BitVec 16) :
    StillO r (execBlt q ga gb off s) := by
  unfold execBlt
  repeat' first
    | (with_reducible first
        | assumption | apply still_branchIf | apply still_next)
    | decide

theorem still_execBge {r s : State} (h : Still r s) (q : Fin 2) (ga : Fin 32) (gb : Fin 32) (off : BitVec 16) :
    StillO r (execBge q ga gb off s) := by
  unfold execBge
  repeat' first
    | (with_reducible first
        | assumption | apply still_branchIf | apply still_next)
    | decide

theorem still_execBltu {r s : State} (h : Still r s) (q : Fin 2) (ga : Fin 32) (gb : Fin 32) (off : BitVec 16) :
    StillO r (execBltu q ga gb off s) := by
  unfold execBltu
  repeat' first
    | (with_reducible first
        | assumption | apply still_branchIf | apply still_next)
    | decide

theorem still_execBgeu {r s : State} (h : Still r s) (q : Fin 2) (ga : Fin 32) (gb : Fin 32) (off : BitVec 16) :
    StillO r (execBgeu q ga gb off s) := by
  unfold execBgeu
  repeat' first
    | (with_reducible first
        | assumption | apply still_branchIf | apply still_next)
    | decide

theorem still_execJal {r s : State} (h : Still r s) (q : Fin 2) (off : BitVec 26) :
    StillO r (execJal q off s) := by
  unfold execJal
  repeat' first
    | (with_reducible first
        | assumption | apply still_onCore | apply still_next | (apply still_mk <;> first | rfl | assumption))
    | decide

theorem still_execJalr {r s : State} (h : Still r s) (q : Fin 2) (gd : Fin 32) (ga : Fin 32) (imm : BitVec 16) :
    StillO r (execJalr q gd ga imm s) := by
  unfold execJalr
  repeat' first
    | (with_reducible first
        | assumption | apply still_onCore | apply still_next | (apply still_mk <;> first | rfl | assumption))
    | decide

theorem still_execFenceG {r s : State} (h : Still r s) (q : Fin 2) :
    StillO r (execFenceG q s) := by
  unfold execFenceG
  repeat' first
    | (with_reducible first
        | assumption | apply still_setCore | apply still_requestFence | apply still_ite | apply still_next
        | (apply still_mk <;> first | rfl | assumption))
    | decide

theorem still_execRditc {r s : State} (h : Still r s) (q : Fin 2) (gd : Fin 32) :
    StillO r (execRditc q gd s) := by
  unfold execRditc
  repeat' first
    | (with_reducible first
        | assumption | apply still_onCore | apply still_next | (apply still_mk <;> first | rfl | assumption))
    | decide | (simp only [SUP_STATE, islSV]; omega)

theorem still_execRditch {r s : State} (h : Still r s) (q : Fin 2) (gd : Fin 32) :
    StillO r (execRditch q gd s) := by
  unfold execRditch
  repeat' first
    | (with_reducible first
        | assumption | apply still_regOp | apply still_next)
    | decide

theorem still_execRaise {r s : State} (h : Still r s) (q : Fin 2) (ga : Fin 32) (gb : Fin 32) :
    StillO r (execRaise q ga gb s) := by
  unfold execRaise
  repeat' first
    | (with_reducible first
        | assumption | apply still_setCore | apply still_raise | apply still_ite | apply still_next)
    | decide | (simp only [SUP_STATE, islSV]; omega)

end Sys2Proof.Machine
end

