-- ==== Sys2Proof/Laws/StillMatrix.lean ====
section
/-! SUPPORT. The operations of Machine/Matrix.lean that neither store to memory nor move the life cycle leave both alone. -/

namespace Sys2Proof.Machine

theorem still_grantOrder {r s : State} (h : Still r s) (n : Nat) (l : List Req) : Still r (s.grantOrder n l).1 := by
  induction n generalizing s l with
  | zero => exact h
  | succ n ih => cases l with
    | nil => exact h
    | cons x l => exact ih (still_movePointer h _ _) _

theorem still_mergePair {r s : State} (h : Still r s) (r0 : Req) (x : Req) :
    Still r (State.mergePair s r0 x).1 := by
  unfold State.mergePair
  repeat' first
    | (with_reducible first
        | assumption | apply still_raise | apply still_count | refine still_fst ?_ (by assumption) | apply still_ite)
    | decide | (simp only [SUP_STATE, FAC_CMD, islFC, SVC_TASK_CMD, SVC_TASK_CMD_TASK, SVC_TASK_CMD_CMD, MTX_MERGE_CNT, islMX]; omega)
    | extract_lets +onlyGivenNames x | intro x | split

theorem still_mergeReqs {r s : State} (h : Still r s) (n : Nat) (l : List Req) : Still r (s.mergeReqs n l).1 := by
  induction n generalizing s l with
  | zero => exact h
  | succ n ih => cases l with
    | nil => exact h
    | cons x l =>
      unfold State.mergeReqs
      split
      · exact ih h _
      · exact ih (still_mergePair h _ _) _

theorem still_takeRequest {r s : State} (h : Still r s) (r0 : Req) :
    Still r (State.takeRequest s r0) := by
  unfold State.takeRequest
  repeat' first
    | (with_reducible first
        | assumption | apply still_setMtx | apply still_accept | apply still_ite | (apply still_mk <;> first | rfl | assumption))
    | decide

theorem still_execMasterPortReset {r s : State} (h : Still r s) (port : Fin 8) :
    StillO r (execMasterPortReset port s) := by
  unfold execMasterPortReset
  repeat' first
    | (with_reducible first
        | assumption | apply still_resetPort | apply still_ite | apply still_next)
    | decide | (simp only [SUP_STATE, islMX]; omega)

end Sys2Proof.Machine
end

