-- ==== Sys2Proof/Laws/StillLadder.lean ====
section
/-! SUPPORT. The operations of Machine/Ladder.lean that neither store to memory nor move the life cycle leave both alone. -/

namespace Sys2Proof.Machine

theorem still_startBlock {r s : State} (h : Still r s) (i : Nat) :
    Still r (State.startBlock s i) := by
  unfold State.startBlock
  repeat' first
    | (with_reducible first
        | assumption | apply still_bootLine | apply still_each | apply still_startTrib | apply still_emptyBuffer | apply still_startFlow
        | apply still_startTiming | apply still_facAssigned | apply still_ite | (apply still_mk <;> first | rfl | assumption))
    | decide | (simp only [SUP_STATE, islPX, islTM, islFC, FAC_CFG, FAC_CFG_ASSIGN]; omega) | extract_lets +onlyGivenNames x | intro x hx
    | intro x

theorem still_execL6Timeout {r s : State} (h : Still r s) :
    StillO r (execL6Timeout s) := by
  unfold execL6Timeout
  repeat' first
    | (with_reducible first
        | assumption | apply still_ladder | apply still_linkFall | apply still_ite | apply still_next)
    | decide | (simp only [SUP_STATE, islTW, TWN_STAT_LINK_UP]; omega)

end Sys2Proof.Machine
end

