-- ==== Sys2Proof/Laws/StillLoader.lean ====
section
/-! SUPPORT. The operations of Machine/Loader.lean that neither store to memory nor move the life cycle leave both alone. -/

namespace Sys2Proof.Machine

theorem still_beginStep {r s : State} (h : Still r s) (k : Nat) :
    Still r (State.beginStep s k) := by
  unfold State.beginStep
  repeat' first
    | (with_reducible first
        | assumption | apply still_setReg | apply still_setFld | apply still_ite | (apply still_mk <;> first | rfl | assumption)
        | (apply still_mk <;> first | rfl | assumption | apply still_setReg | apply still_setFld | apply still_ite))
    | decide | (simp only [SUP_STATE, NVM_STAT, NVM_STAT_STEP, NVM_STEP_TIME]; omega) | extract_lets +onlyGivenNames x | intro x

theorem still_failSlot {r s : State} (h : Still r s) (code : Nat) (sec : Nat) :
    Still r (State.failSlot s code sec) := by
  unfold State.failSlot
  repeat' first
    | (with_reducible first
        | assumption | refine still_fst ?_ (by assumption) | (apply still_mk <;> first | rfl | assumption))
    | decide | extract_lets +onlyGivenNames x | intro x | split

theorem still_readSlot {r s : State} (h : Still r s) (bs : List Byte) :
    Still r (State.readSlot s bs) := by
  unfold State.readSlot
  repeat' first
    | (with_reducible first
        | assumption | apply still_setReg | apply still_setFlag | apply still_count | (apply still_mk <;> first | rfl | assumption))
    | decide | (simp only [SUP_STATE, CHK_RUN, CHK_STAT, CHK_STAT_RUNNING, CHK_BYTE_CNT]; omega)

theorem still_execBootRomSelfCheck {r s : State} (h : Still r s) (crcOk : Bool) :
    StillO r (execBootRomSelfCheck crcOk s) := by
  unfold execBootRomSelfCheck
  repeat' first
    | (with_reducible first
        | assumption | apply still_ite | apply still_next | (apply still_mk <;> first | rfl | assumption))
    | decide | (simp only [SUP_STATE, NVM_STAT, NVM_STAT_STEP]; omega)

theorem still_execNorDiscovery {r s : State} (h : Still r s) (jedec : BitVec 24) (sfdp : Option Sfdp) :
    StillO r (execNorDiscovery jedec sfdp s) := by
  unfold execNorDiscovery
  repeat' first
    | (with_reducible first
        | assumption | apply still_beginStep | apply still_setReg | apply still_setFld | apply still_setFlag | apply still_raise
        | refine still_fst ?_ (by assumption) | apply still_ite | apply still_next | (apply still_mk <;> first | rfl | assumption)
        | (apply still_mk <;> first | rfl | assumption | apply still_beginStep | apply still_setReg | apply still_setFld | apply still_setFlag | apply still_raise | apply still_ite))
    | decide
    | (simp only [SUP_STATE, NVM_STAT, NVM_STAT_STEP, NVM_JEDEC_ID, NVM_STAT_MODE, NVM_STAT_ADDR4, NVM_STAT_SFDP_OK, NVM_STAT_DENSITY_LOG2, islLD]; omega)
    | extract_lets +onlyGivenNames x | intro x | split

theorem still_slotClock {r s : State} (h : Still r s) (bs : List Byte) :
    Still r (State.slotClock s bs) := by
  unfold State.slotClock
  repeat' first
    | (with_reducible first
        | assumption | apply still_setFld | apply still_ite)
    | decide | (simp only [SUP_STATE, NVM_STAT, NVM_STAT_CLK]; omega)

theorem still_stageWords {r s : State} (h : Still r s) (sec : Nat) (l : List Staged) : Still r (s.stageWords sec l) := by
  induction l generalizing s with
  | nil => exact h
  | cons x l ih =>
    unfold State.stageWords
    split
    · exact still_failSlot h _ _
    · exact ih (still_mk h rfl ..)

theorem still_readBody {r s : State} (h : Still r s) (bs : List Byte) :
    Still r (State.readBody s bs) := by
  unfold State.readBody
  repeat' first
    | (with_reducible first
        | assumption | apply still_readSlot | (apply still_mk <;> first | rfl | assumption))
    | decide

theorem still_execRegisterLoadRecord {r s : State} (h : Still r s) (words : List Word) :
    StillO r (execRegisterLoadRecord words s) := by
  unfold execRegisterLoadRecord
  repeat' first
    | (with_reducible first
        | assumption | apply still_readBody | apply still_failSlot | apply still_stageWords | refine still_fst ?_ (by assumption)
        | apply still_ite | apply still_next | (apply still_mk <;> first | rfl | assumption)
        | (apply still_mk <;> first | rfl | assumption | apply still_readBody | apply still_failSlot | apply still_stageWords | apply still_ite))
    | decide | extract_lets +onlyGivenNames x | intro x hx | intro x | split

theorem still_execServiceProgramHead {r s : State} (h : Still r s) (words : List Word) :
    StillO r (execServiceProgramHead words s) := by
  unfold execServiceProgramHead
  repeat' first
    | (with_reducible first
        | assumption | apply still_readBody | apply still_failSlot | refine still_fst ?_ (by assumption) | apply still_ite
        | apply still_next | (apply still_mk <;> first | rfl | assumption | apply still_readBody | apply still_failSlot | apply still_ite)
        | (apply still_mk <;> first | rfl | (apply still_mk <;> first | rfl | assumption | apply still_readBody | apply still_failSlot | apply still_ite)))
    | decide | extract_lets +onlyGivenNames x | intro x hx | intro x | split

theorem still_haltLoader {r s : State} (h : Still r s) :
    Still r (State.haltLoader s) := by
  unfold State.haltLoader
  repeat' first
    | (with_reducible first
        | assumption | (apply still_mk <;> first | rfl | assumption))
    | decide

end Sys2Proof.Machine
end

