-- ==== Sys2Proof/Laws/StillMgmt.lean ====
section
/-! SUPPORT. The operations of Machine/Mgmt.lean that neither store to memory nor move the life cycle leave both alone. -/

namespace Sys2Proof.Machine

theorem still_reply {r s : State} (h : Still r s) (l : List Byte) :
    Still r (State.reply s l) := by
  unfold State.reply
  repeat' first
    | (with_reducible first
        | assumption | (apply still_mk <;> first | rfl | assumption))
    | decide

theorem still_protocolError {r s : State} (h : Still r s) (bus : Nat) (kind : Nat) (addr : Word) :
    Still r (State.protocolError s bus kind addr) := by
  unfold State.protocolError
  repeat' first
    | (with_reducible first
        | assumption | apply still_raiseFirst)
    | decide | (simp only [SUP_STATE, islEH]; omega)

theorem still_execSpiBadOpcode {r s : State} (h : Still r s) (opcode : Byte) :
    StillO r (execSpiBadOpcode opcode s) := by
  unfold execSpiBadOpcode
  repeat' first
    | (with_reducible first
        | assumption | apply still_reply | apply still_protocolError | apply still_ite | apply still_next)
    | decide

theorem still_execUnlockWindowExpiry {r s : State} (h : Still r s) :
    StillO r (execUnlockWindowExpiry s) := by
  unfold execUnlockWindowExpiry
  repeat' first
    | (with_reducible first
        | assumption | apply still_unlockFails | apply still_ite | apply still_next)
    | decide | (simp only [SUP_STATE, islEH]; omega)

theorem still_execUnlockBarEnd {r s : State} (h : Still r s) :
    StillO r (execUnlockBarEnd s) := by
  unfold execUnlockBarEnd
  repeat' first
    | (with_reducible first
        | assumption | apply still_setUnlock | apply still_ite | apply still_next)
    | decide | (simp only [SUP_STATE, islEH]; omega)

theorem still_execUnlockTimeout {r s : State} (h : Still r s) :
    StillO r (execUnlockTimeout s) := by
  unfold execUnlockTimeout
  repeat' first
    | (with_reducible first
        | assumption | apply still_lockBridge | apply still_ite | apply still_next)
    | decide | (simp only [SUP_STATE, islEH]; omega)

end Sys2Proof.Machine
end

