-- ==== Sys2Proof/Laws/StillStart.lean ====
section
/-! SUPPORT. The operations of Machine/Start.lean that neither store to memory nor move the life cycle leave both alone. -/

namespace Sys2Proof.Machine

theorem still_startBlocks {r s : State} (h : Still r s) :
    Still r (State.startBlocks s) := by
  unfold State.startBlocks
  repeat' first
    | (with_reducible first
        | assumption | apply still_each | apply still_startBlock)
    | decide

theorem still_armTask {r s : State} (h : Still r s) (t0 : Nat) :
    Still r (State.armTask s t0) := by
  unfold State.armTask
  repeat' first
    | (with_reducible first
        | assumption | apply still_setTaskState | apply still_wake | apply still_ite)
    | decide | (simp only [SUP_STATE, SVC_TASK_W1, SVC_TASK_W1_EN, SVC_TASK_W1_INIT]; omega)

theorem still_armCheck {r s : State} (h : Still r s) (u : Nat) :
    Still r (State.armCheck s u) := by
  unfold State.armCheck
  repeat' first
    | (with_reducible first
        | assumption | apply still_setUnit | apply still_setFlag | (apply still_mk <;> first | rfl | assumption))
    | decide | (simp only [SUP_STATE, CHK_STAT, CHK_STAT_RUNNING, CHK_ENTRY0, CHK_ENTRY0_EN]; omega)

theorem still_releasePair {r s : State} (h : Still r s) (q : Nat) :
    Still r (State.releasePair s q) := by
  unfold State.releasePair
  repeat' first
    | (with_reducible first
        | assumption | apply still_setIslands | apply still_setFld | apply still_bootPair | apply still_ite)
    | decide | (simp only [SUP_STATE, islSV, SVC_PAIR_STAT, SVC_PAIR_STAT_STATE]; omega)

end Sys2Proof.Machine
end

