-- ==== Sys2Proof/Tests/Slice0.lean ====
section
/-! SUPPORT. Tests: one ill-formed term for each check of well-formedness, words of core instructions, values and single steps of the
spec's worked cases, and for each obligation with hypotheses states and operands that meet those of each of its clauses. -/

section

namespace Sys2Proof.Tests
end Sys2Proof.Tests

open Sys2Proof Sys2Proof.Machine Sys2Proof.Tests

set_option maxRecDepth 20000
set_option Elab.async false

/-! ### States the tests stand on -/

/-- The module powered and in life cycle state `st`, every island running. -/
def Sys2Proof.Tests.up (st : Nat) : State :=
  let s := State.reset
  let s := { s with sp := { s.sp with dormant := false, powered := true, converter := true, keepalive := true } }
  let s := s.setFld SUP_STATE SUP_STATE_STATE st
  s.setReg SUP_ISLAND_STAT 0xFFFFFF

/-- The module Dormant with SP powered and the converter running. -/
def Sys2Proof.Tests.low : State := { State.reset with sp := { Sup.init with powered := true, converter := true } }

/-- The same with the management bridge unlocked. -/
def Sys2Proof.Tests.unlk (st : Nat) : State := (up st).setFld EVT_MGMT_UNLOCK EVT_MGMT_UNLOCK_STATE 2

/-- A transaction of one beat in flight. -/
def Sys2Proof.Tests.txn (port id : Fin 8) (write : Bool) (addr : Word) (target tag : Nat) : Txn :=
  ⟨⟨port, ⟨id.val, by omega⟩, write, addr, 1, if write then [0xFF] else [], if write then [0x1122334455667788] else []⟩, target, 0, [], [], 0, false, tag⟩

/-- With the matrix changed. -/
def Sys2Proof.Machine.State.inMtx (s : State) (f : Matrix → Matrix) : State := { s with mtx := f s.mtx }

/-- Pair `q` runs task `u` with registers `g` at address 0x100. -/
def Sys2Proof.Tests.ran (q u : Nat) (g : Tbl Word) : State :=
  (((up 4).setPairTask q u).setTaskState u tkRunning).setCore q { Core.init with g := g, pc := 0x100 }

/-- Task `u` in state `st`, neither pair free. -/
def Sys2Proof.Tests.tasked (u st : Nat) : State :=
  ((((up 4).setPairTask 0 8).setPairTask 1 9).setTaskState u st).setFlag SVC_CFG SVC_CFG_PREEMPT_EN false

/-- Alone and Active in Serving, line port `n` enabled with its framer in state `st` and its CDR locked. -/
def Sys2Proof.Tests.lined (n st : Nat) : State :=
  (((((up 4).setFld TWN_STAT TWN_STAT_ROLE 2).setReg (LINE_STAT n) 0).setFlag (LINE_CFG n) LINE_CFG_EN true).setFld
    (LINE_FRM_STAT n) LINE_FRM_STAT_STATE st).setFlag (LINE_STAT n) LINE_STAT_CDR_LOCK true

/-- An MSP group 1 of line ports 2 (protecting) and 3 (working), enabled, unidirectional, with nothing requested. -/
def Sys2Proof.Tests.grouped : State :=
  let s := (up 4).setFlag (APS_CFG 1) APS_CFG_EN true
  let s := (s.setFld (APS_CFG 1) APS_CFG_PROT 2).setFld (APS_CFG 1) APS_CFG_WORK 8
  s.setGrp 1 { Grp.init with best := (24, 0) }

/-- The same with one line port changed. -/
def Sys2Proof.Machine.State.inLine (s : State) (n : Nat) (f : LinePort → LinePort) : State := s.setLine n (f (s.line n))

/-- A reading of pointer word `p` with the container `vc`. -/
def Sys2Proof.Tests.reading (p : BitVec 16) (vc : List Byte) : PtrReading := ⟨p, true, vc⟩

/-- Tributary port `p` enabled in Serving with framing mode `f`. -/
def Sys2Proof.Tests.tribbed (p f : Nat) : State :=
  ((((up 4).setReg (TRIB_STAT p) 0).setFlag (TRIB_CFG p) TRIB_CFG_EN true).setFld (TRIB_CFG p) TRIB_CFG_FRAMING f).setFlag
    (TRIB_STAT p) TRIB_STAT_CDR_LOCK true

/-- The same with one tributary port changed. -/
def Sys2Proof.Machine.State.inTrib (s : State) (p : Nat) (f : TribPort → TribPort) : State := s.setTrib p (f (s.trib p))
/-- The same with one path changed. -/
def Sys2Proof.Machine.State.inPath (s : State) (p : PathId) (f : PathPort → PathPort) : State := s.setPath p (f (s.path p))
/-- The same with one engine changed. -/
def Sys2Proof.Machine.State.inEngine (s : State) (n : Nat) (f : Engine → Engine) : State := s.setEngine n (f (s.engine n))

/-- Two AU-4 passed through in slots 0 and 1 of ports 0 and 1, and Index entry 7 that joins them, with word 3 as given. -/
def Sys2Proof.Tests.joined (w3 : Word) : State :=
  let s := (up 4).setReg (PATH_SLOT_CFG 0) 0
  let s := (((s.setReg (PATH_SLOT_CFG 1) 0).setFlag (PATH_SLOT_CFG 0) PATH_SLOT_CFG_EN true).setFlag (PATH_SLOT_CFG 1) PATH_SLOT_CFG_EN true).setFld
    (PATH_SLOT_CFG 1) PATH_SLOT_CFG_PORT 1
  ((s.setReg (IDX_ENTRY_A 7) 0x10000000).setReg (IDX_ENTRY_B 7) 0x10000001).setReg (IDX_ENTRY_W3 7) w3

/-- Word 3 with `lo` in its low half and the right CHECK. -/
def Sys2Proof.Tests.checked (lo : Nat) : Word := BitVec.ofNat 32 (lo + 65536 * (joined (BitVec.ofNat 32 lo)).entryCheck 7)

/-- Entry 7 active and right in its CHECK, with `lo` in the low half of word 3 (5 is VALID with SNCP 2, 13 the same with REVERT): its A the AU-4
of slot 0 and its A′ that of slot 2. -/
def Sys2Proof.Tests.selecting (lo : Nat) : State :=
  let s := (((joined 0).setReg (PATH_SLOT_CFG 2) 0).setFlag (PATH_SLOT_CFG 2) PATH_SLOT_CFG_EN true).setFld (PATH_SLOT_CFG 2) PATH_SLOT_CFG_PORT 2
  let s := (s.setReg (IDX_ENTRY_AP 7) 0x10000002).setReg (IDX_ENTRY_W3 7) (BitVec.ofNat 32 lo)
  let s := s.setReg (IDX_ENTRY_W3 7) (BitVec.ofNat 32 (lo + 65536 * s.entryCheck 7))
  let s := s.setFlag (IDX_STATUS 7) IDX_STATUS_ACTIVE true
  { s with kept := [(7, ⟨0x10000000, 0x10000001, 0x10000002⟩)] }

/-- Facsimile engine 2 in state `st`, every island enabled, step 5 the running one with the words given, and its segment 3. -/
def Sys2Proof.Tests.fac (st : Nat) (w0 w1 w2 w3 s0 s1 : Word) : State :=
  let s := (unlk 4).setReg SUP_ISLAND_CFG 0xFFFFFFFF
  let s := (s.setEgState 2 st).setFld (FAC_STAT 2) FAC_STAT_STEP 5
  let s := (((s.setReg (FAC_STEP_W0 5) w0).setReg (FAC_STEP_W1 5) w1).setReg (FAC_STEP_W2 5) w2).setReg (FAC_STEP_W3 5) w3
  let s := (s.setReg (FAC_SEG_W0 3) s0).setReg (FAC_SEG_W1 3) s1
  if st = 3 ∨ st = 4 then s.inEngine 2 (fun x => { x with st := [w0, w1, w2, w3], sg := [s0, s1], md := [0, 0], latching := true }) else s

/-- Flow 5 of profile 3 in state `st`: enabled, MEF 8 with ECID 0x123, 16 bytes a packet, a buffer of one page, TARGET 32, LOPS after 3,
joined by Index entry 9 to tributary port 4. -/
def Sys2Proof.Tests.flowing (st : Nat) : State :=
  let s := (up 4).setReg (PW_CFG 5) 0
  let s := (s.setFlag (PW_CFG 5) PW_CFG_EN true).setFld (PW_CFG 5) PW_CFG_PROFILE 3
  let s := (s.setFld (PW_CFG 5) PW_CFG_P 16).setReg (PW_KEY 5) 0x123
  let s := ((s.setFld (PW_JB 5) PW_JB_TARGET 32).setFld (PW_JB 5) PW_JB_LOPS_N 3).setFld (PW_JB 5) PW_JB_LOPS_EXIT 2
  let s := (s.setFld (PW_PROF0 3) PW_PROF0_ENCAP 3).setFld (PW_PROF0 3) PW_PROF0_TTL 9
  let s := (s.setFld (PW_STAT 5) PW_STAT_STATE st)
  let s := (s.setReg (IDX_ENTRY_A 9) 0x30000004).setReg (IDX_ENTRY_B 9) 0x40000005
  let s := s.setReg (IDX_ENTRY_W3 9) 1
  s.setReg (IDX_ENTRY_W3 9) (BitVec.ofNat 32 (1 + 65536 * s.entryCheck 9))

/-- The frame that carries packet `n` to flow 5, its payload the bytes `v`. -/
def Sys2Proof.Tests.packet (key n b0 : Nat) (v : Byte) : List Byte :=
  closeFrame ((up 4).portMac 0 ++ [2,2,2,2,2,2, 0x88, 0xD8] ++ beBytes 4 (key * 4096 + 0x102) ++ beBytes 1 b0 ++ [20] ++ beBytes 2 n
    ++ List.replicate 16 v)

/-- What `packet` carries. -/
def Sys2Proof.Tests.packetOf (key n b0 : Nat) (v : Byte) : Pkt :=
  ⟨3, key, [], false, false, beBytes 1 b0 ++ [20] ++ beBytes 2 n ++ List.replicate (16) v ++ List.replicate 22 0⟩

/-- Page 0 of flow 5 mapped to folio 100 and play-out of packet 10 under way. -/
def Sys2Proof.Tests.playing : State :=
  let s := (flowing 2).setReg (LEND_MAP (4 * mapSet 5 0)) (BitVec.ofNat 32 (2 ^ 31 + 5 * 2 ^ 21 + 100))
  let s := ((s.setFld (PW_STAT 5) PW_STAT_FOLIOS 1).setFld (PW_STAT1 5) PW_STAT1_N_PLAY 10)
  s.setFlow 5 { Flow.init with started := true, nHi := 12, arrived := [10, 12] }

/-- The same with entry 9 active and tributary port 4 up. -/
def Sys2Proof.Tests.fed : State :=
  let s := ((playing.setFlag (IDX_STATUS 9) IDX_STATUS_ACTIVE true).setFlag (TRIB_CFG 4) TRIB_CFG_EN true).setReg (TRIB_STAT 4) 0
  { s with kept := [(9, ⟨0x30000004, 0x40000005, 0⟩)] }

/-- No folio left in the shared pool. -/
def Sys2Proof.Tests.crowded : State :=
  ((List.range 13).foldl (fun s f => s.setFld (PW_STAT (20 + f)) PW_STAT_FOLIOS 511) playing).setFld LEND_CFG LEND_CFG_TX_RSV 2047

/-- Every descriptor in use. -/
def Sys2Proof.Tests.allDescs : State := { playing with lend := { Lending.init with descs := (List.range 4096).map (fun d => (d, ⟨[1], 1, 0⟩)) } }

/-- TM running in Serving with reference 3 enabled, line port 3 receiving its quality, permitted to both DPLLs with priority 2, in state
`st`. -/
def Sys2Proof.Tests.timed (st : Nat) : State :=
  let s := (((unlk 4).setReg (TIM_REF_CFG 3) 0).setReg TIM_STAT 0).setFlag (TIM_REF_CFG 3) TIM_REF_CFG_EN true
  let s := (s.setFld (TIM_REF_CFG 3) TIM_REF_CFG_PRIO 2).setReg (TIM_REF_STAT 3) 0
  let s := (s.setFlag (LINE_S1 3) LINE_S1_RX_VALID true).setFlag (LINE_CFG 3) LINE_CFG_EN true
  ((s.setReg (TIM_REF_CFG 3) (s.reg (TIM_REF_CFG 3) ||| 0x60)).setFlag TIM_CFG TIM_CFG_REVERT true).setFld (TIM_REF_STAT 3) TIM_REF_STAT_STATE st

/-- The same with the DPLLs in state `dp` on it. -/
def Sys2Proof.Tests.steered (st dp : Nat) : State :=
  let s := ((((timed st).setFld TIM_STAT TIM_STAT_SEL0 3).setFld TIM_STAT TIM_STAT_SEL1 3).setFlag TIM_STAT TIM_STAT_SEL0_VALID true).setFlag
    TIM_STAT TIM_STAT_SEL1_VALID true
  let s := (List.range 4).foldl (fun s d => s.setFld (TIM_DPLL_STAT d) TIM_DPLL_STAT_STATE dp) s
  ({ s with now := 2000000000 }).setDpll 0 { Dpll.init with ran := true, ever := true }

/-- A paired module in life cycle state `life` with role `role`, its link up. -/
def Sys2Proof.Tests.linked (life role : Nat) (senior : Bool) : State :=
  let s := (((unlk life).setFlag SUP_FIT_CFG SUP_FIT_CFG_PAIRED true).setFlag SUP_STATE SUP_STATE_SENIOR senior).setReg TWN_STAT 0
  (((s.setFlag TWN_STAT TWN_STAT_LINK_UP true).setFld TWN_STAT TWN_STAT_ROLE role).setFlag TWN_STAT TWN_STAT_READY true).setFld
    TWN_STAT TWN_STAT_EQ_REQ 10

/-- The same with HITLESS and all that it takes. -/
def Sys2Proof.Tests.hitless (role : Nat) (senior : Bool) : State :=
  let s := (linked 4 role senior).setFlag TWN_STAT TWN_STAT_HITLESS true
  s.setReg TWN_SYNC_STAT 0xF

/-- A HEARTBEAT from a twin in role `role` that has heard SEQ 9 of us. -/
def Sys2Proof.Tests.beat (role : Fin 4) : Heartbeat := ⟨role, false, true, 1, 10, false, 4, 9⟩

/-- No task waits where pair 0 or 1 runs task 3. -/
theorem Sys2Proof.Tests.noneRan0 : Safety.noneWaits (ran 0 3 []) := by decide +kernel
theorem Sys2Proof.Tests.noneRan1 : Safety.noneWaits (ran 1 3 []) := by decide +kernel

/-! ### Well-formedness: what each check refuses -/

theorem test_wf_accepts : Instr.wf (.mainPowerGood true false 300) = true ∧ Instr.wf (.shi 0 1 2 0x005F) = true
    ∧ Instr.wf (.pointerReading (.ho 3) (reading 0x60A4 (List.replicate 2349 0))) = true := by decide +kernel
theorem test_wf_refuses_vbak : Instr.wf (.mainPowerGood true false 512) = false := by decide +kernel
theorem test_wf_refuses_nor_density : Instr.wf (.norDiscovery 0x20BA20 (some ⟨23, false, true, true, true⟩)) = false := by decide +kernel
theorem test_wf_refuses_catalog_header : Instr.wf (.catalogHeader []) = false := by decide +kernel
theorem test_wf_refuses_register_load_record : Instr.wf (.registerLoadRecord []) = false := by decide +kernel
theorem test_wf_refuses_colophon : Instr.wf (.slotChecking [0] .nowhere) = false := by decide +kernel
theorem test_wf_refuses_archive_heads : Instr.wf (.archiveScan [[1, 2, 3]] []) = false := by decide +kernel
theorem test_wf_refuses_archive_records : Instr.wf (.archiveScan [] [(512, [])]) = false := by decide +kernel
theorem test_wf_refuses_request_without_beats : Instr.wf (.matrixRequest [⟨0, 0, false, 0x10000000, 0, [], []⟩]) = false := by decide +kernel
theorem test_wf_refuses_write_without_data : Instr.wf (.matrixRequest [⟨0, 0, true, 0x10000000, 1, [0xFF], []⟩]) = false := by decide +kernel
theorem test_wf_refuses_line_frame : Instr.wf (.lineFrame 2 ⟨[1], none⟩) = false := by decide +kernel
theorem test_wf_refuses_container : Instr.wf (.pointerReading (.ho 3) (reading 0x60A4 [0])) = false := by decide +kernel
theorem test_wf_refuses_store_fill : Instr.wf (.pointerGeneration (.ho 3) 65 (List.replicate 2349 0)) = false := by decide +kernel
theorem test_wf_refuses_ais_block : Instr.wf (.tribAisBlock 4 513) = false := by decide +kernel
theorem test_wf_refuses_trib_frame : Instr.wf (.tribFrame 4 (some [.plus])) = false := by decide +kernel
theorem test_wf_refuses_packet_length : Instr.wf (.packetReceived 0 (List.replicate 1527 0)) = false := by decide +kernel
theorem test_wf_refuses_payload_length : Instr.wf (.pwTransmitPacket 5 [true] 0) = false := by decide +kernel
theorem test_wf_refuses_flow_word : Instr.wf (.flowEntryWrite false 5 8 (.service 0) 0) = false := by decide +kernel
theorem test_wf_refuses_tod_second : Instr.wf (.todMessage (some (2 ^ 48))) = false := by decide +kernel
theorem test_wf_refuses_cal_stamp : Instr.wf (.cal ⟨1, 0⟩ true (2 ^ 64) 0) = false := by decide +kernel
theorem test_wf_refuses_mirror_nanos : Instr.wf (.mirrorB ⟨1, 0⟩ ⟨0, 1000000000, 0, 0, 0, 0, [], []⟩) = false := by decide +kernel
theorem test_wf_refuses_mirror_records : Instr.wf (.mirrorC ⟨1, 0⟩ (List.replicate 128 ⟨0, 0, 0⟩)) = false := by decide +kernel
theorem test_wf_refuses_shift_immediate : Instr.wf (.shi 0 1 2 0x0060) = false := by decide +kernel
theorem test_wf_refuses_check_block : Instr.wf (.checkBlockEnd 0 [] 0) = false := by decide +kernel
theorem test_wf_refuses_spi_opcode : Instr.wf (.spiBadOpcode 0x02) = false := by decide +kernel
theorem test_wf_refuses_spi_early_end : Instr.wf (.spiEarlyEnd none (some (some 1))) = false := by decide +kernel
theorem test_wf_refuses_i2c_early_end : Instr.wf (.i2cEarlyEnd 0x48 none (some (some 1))) = false := by decide +kernel
theorem test_wf_refuses_crossings : Instr.wf (.facCalDone 2 []) = false := by decide +kernel
theorem test_wf_refuses_units : Instr.wf (.transmitFrameBoundary []) = false := by decide +kernel
theorem test_wf_refuses_arrivals : Instr.wf (.tribTransmitSymbol 4 (List.replicate 513 true)) = false := by decide +kernel

/-! ### Words of core instructions (chapter 11, worked case) -/

theorem test_word_lui : decodeCore 0 0x1CA04011 = some (.lui 0 5 0x4011) := by decide +kernel
theorem test_word_lw : decodeCore 0 0x20C50104 = some (.lw 0 6 5 0x0104) := by decide +kernel
theorem test_word_sw : decodeCore 0 0x34E50108 = some (.sw 0 7 5 0x0108) := by decide +kernel
theorem test_word_done : decodeCore 0 0xFC000001 = some (.done 0) := by decide +kernel

/-! ### Single steps and values of the spec's worked cases -/

/-- The state after a command. -/
def Sys2Proof.Tests.after (i : Instr) (s : State) : State :=
  match exec i s with
  | .next t => t
  | _ => State.reset

/-- Chapter 01: pair SV1 is held in Serving of a single-fitted senior with LIMP_EN; Limp with cause 0x11. -/
theorem test_limp_on_pair_loss :
    (after (.lockstepMismatch 1 0) (((up 4).setReg SUP_FIT_CFG 2).setReg SUP_STATE 0x02000234)).reg SUP_STATE = 0x02021145 := by
  decide +kernel

/-- Chapter 03: a FIELD record sets LIMIT_PPB in SUP_MON_CFG to 100. -/
theorem test_limit_ppb : (State.reset.setReg SUP_MON_CFG
    ((State.reset.reg SUP_MON_CFG &&& ~~~0x1FFF) ||| 0x64)).reg SUP_MON_CFG = 0x000A0064 := by decide +kernel

/-- Chapter 04: the fence after 0x0106, asked for by token 0x3C. -/
theorem test_fence_issued :
    let t := after (.mtxFenceGo .maintenance 0x3C true) ((unlk 4).setFld MTX_FENCE_NO MTX_FENCE_NO_ISSUED 0x106)
    t.fld MTX_FENCE_NO MTX_FENCE_NO_ISSUED = 0x107 ∧ t.fld MTX_FENCE MTX_FENCE_FENCE_LO = 0x07 ∧ t.fld MTX_FENCE MTX_FENCE_TOKEN = 0x3C
      ∧ t.fld MTX_FENCE MTX_FENCE_RESULT = 1 := by decide +kernel

/-- Chapter 05: three sub-windows of 4,890, 4,941 and 4,927 B2 violations on STM-16 declare dDEG. -/
theorem test_signal_degrade :
    let s := (((lined 5 frInFrame).setFld (LINE_CFG 5) LINE_CFG_RATE 2).setReg (LINE_DEG_CFG 5) 0x36).inLine 5
      (fun x => { x with degWin := [some 0, some 0, some 0, some 0, some 0, some 0, some 4890, some 4941], degSum := 4927, degOk := true })
    let t := after (.berSubwindowEnd 5 .deg) s
    t.fld (LINE_BER_STAT 5) LINE_BER_STAT_DEG_SUM = 14758 ∧ t.flag (LINE_STAT 5) LINE_STAT_SD = true
      ∧ t.flag (LINE_STAT 5) LINE_STAT_TSD = true := by decide +kernel

/-- Chapter 06: the TU-12 (3, 5, 2) of slot 5, bound to LP2 with three TUG-3 of TU-12, is lower-order path 493 at 0x4020_EED0. -/
theorem test_path_of_endpoint :
    (((up 4).setReg (PATH_SLOT_CFG 5) 0xE405).setReg (PATH_SLOT_MAP 5) 0x00080402).epPath 0x20002B82 = some (.lo 493)
      ∧ PATH_LO1 493 = 0x4020EED0 + 4 := by decide +kernel

/-- Chapter 06: CHECK of entry 42 is the CRC-16 over the bytes the case lists. -/
theorem test_entry_check :
    let s := (((up 4).setReg (IDX_ENTRY_A 42) 0x20002B82).setReg (IDX_ENTRY_B 42) 0x30000011).setReg (IDX_ENTRY_AP 42) 0x20002B83
    (s.setReg (IDX_ENTRY_W3 42) 0xB).entryCheck 42 = crcResult 16 false 0 (crcFeed 16 0x1021 false 0xFFFF
      [0x2A, 0x00, 0x00, 0x00, 0x82, 0x2B, 0x00, 0x20, 0x11, 0x00, 0x00, 0x30, 0x83, 0x2B, 0x00, 0x20, 0x0B, 0x00]) := by decide +kernel

/-- Chapter 07: dLOS of an E1 whose CDR has lost its lock: LOS, OOF and AIS_TO_IDX. -/
theorem test_cable_pulled :
    (after (.tribLos 17 true) ((tribbed 17 2).setFlag (TRIB_STAT 17) TRIB_STAT_CDR_LOCK false)).reg (TRIB_STAT 17) = 0x45 := by
  decide +kernel

/-- Chapter 08: page 15 of flow 517 keys set 271, and way 0 with 0xC0A1_EC41 holds it in folio 3,137, whose first byte lies at
0x200C_4100. -/
theorem test_folio_map : mapSet 517 15 = 271 ∧ LEND_MAP (4 * 271) = 0x404510F0
    ∧ ((up 4).setReg (LEND_MAP (4 * 271)) 0xC0A1EC41).mapOf 517 15 = some (4 * 271)
    ∧ LEND_MAP_FOLIO.get 0xC0A1EC41 = 3137 ∧ folioBase + 256 * 3137 = 0x200C4100 := by decide +kernel

/-- Chapter 09: three hours into holdover the predicted offset is 12,353 in 10^-12. -/
theorem test_predicted_offset :
    let s := ((((up 4).setBytes (modelBase 0 + 0x28) (leBytes 4 20000)).setBytes (modelBase 0 + 0x40 + 8 * 161)
      (leBytes 4 (2 ^ 32 - 3100) ++ [16, 0, 0, 0] ++ leBytes 4 (2 ^ 32 - 3040) ++ [16, 0])).setBytes (modelBase 0 + 0x40 + 8 * 168)
      (leBytes 4 (2 ^ 32 - 2640) ++ [16, 0, 0, 0] ++ leBytes 4 (2 ^ 32 - 2580) ++ [16, 0]))
    ({ s with now := 10800000000000, tm := { s.tm with modelOk := true, fEntry := 12346, tEntry := 4120, temp := 4470 } }).predicted
      = (12353, false) := by decide +kernel

/-- Chapter 10: the third pulse of 75 cycles, 3 us, brings FS in while NR goes out. -/
theorem test_tie_symbol :
    (after (.tiePulse 75) (((linked 4 2 true).setReg TWN_TIE_STAT 0x10).setTw { (linked 4 2 true).tw with tieSym := 3, tieRun := 2 })).reg
      TWN_TIE_STAT = 0x4B13 := by decide +kernel

/-- Chapter 10: 40 us after the boundary with counter 17 the next boundary with counter 0 lies more than 1 ms away. -/
theorem test_target_frame :
    let s := (linked 4 2 true).setFld TWN_SYNC_STAT TWN_SYNC_STAT_FRAME 17
    ({ s with now := 5040000, tw := { s.tw with super := 99, boundary := 5000000 } }).targetFrame = 100 := by decide +kernel

/-- Chapter 12: the gap record of 506 lost events, EH's ITC aside. -/
theorem test_gap_record : recordBytes 0x000200001206 1 0 ⟨0x475, 3, 0, [506, 0x000D0331, 0x000D0331]⟩ =
    [0x06, 0x12, 0x00, 0x00, 0x02, 0x00, 0x20, 0x01, 0, 0, 0, 0, 0, 0, 0, 0, 0x75, 0x1C, 0x03, 0x00,
     0xFA, 0x01, 0x00, 0x00, 0x31, 0x03, 0x0D, 0x00, 0x31, 0x03, 0x0D, 0x00] ∧ slotAddr 0x000200001206 = 0x300040C0 := by decide +kernel

/-- Chapter 13: assigning FG2 to TP21 with token 0x10. -/
theorem test_engine_assigned :
    let t := after (.facAssign 2 21 21 .maintenance 0x10) (((unlk 4).setReg SUP_ISLAND_CFG 0xFFFFFFFF).setEgState 2 0)
    t.reg (FAC_CMD 2) = 0x01555410 ∧ t.flag (TRIB_STAT 21) TRIB_STAT_FAC = true := by decide +kernel

/-- Chapter 15: register addresses, and a service's store to a type I register past Armed. -/
theorem test_register_addresses : TRIB_SLIP_CNT 45 = 0x40300C70 ∧ LINE_SERDES_CFG 6 = 0x40160018 := by decide +kernel
theorem test_type_i_store_refused :
    let s := (up 4).setReg (LINE_SERDES_CFG 6) 6
    let t := after (.registerWrite (.service 0) 0x40160018 8) s
    t.mtx.resp = rRefused ∧ t.reg (LINE_SERDES_CFG 6) = 6 := by decide +kernel

/-- The sine of chapter 13's modulation: a quarter turn is 1, a half turn 0, to a part in 10^12. -/
theorem test_sine : (sineOf 1 4 - 2 ^ 48).natAbs ≤ 100 ∧ (sineOf 1 2).natAbs ≤ 100 ∧ (2 * sineOf 1 12 - 2 ^ 48).natAbs ≤ 200
    ∧ (sineOf 3 4 + 2 ^ 48).natAbs ≤ 100 := by decide +kernel

/-! ### Witnesses: states and operands that meet the hypotheses of each clause of an obligation -/

theorem test_witness_PowerUpAndRails :
    (∃ (s : State), s.sp.powered = false)
    ∧ (∃ (s : State), s.sp.powered = false)
    ∧ (∃ (s : State), s.sp.powered = true ∧ s.sp.dormant = true ∧ s.sp.railOff = 0)
    ∧ (∃ (s : State), s.sp.railOff ≠ 0 ∧ s.sp.converter = false)
    ∧ (∃ (s : State) (r : Rail), s.sp.converter = true ∧ r ≠ Rail.vsup ∧ s.sp.dormant = true)
    ∧ (∃ (s : State) (r : Rail), s.sp.converter = true ∧ r ≠ Rail.vsup ∧ s.sp.dormant = true)
    ∧ (∃ (s : State), s.sp.converter = true)
    ∧ (∃ (s : State), s.sp.converter = true) :=
  ⟨⟨State.reset, by decide +kernel⟩,
   ⟨{ State.reset with mem := [(5, 7), (0x30000000, 1)], sp := { Sup.init with sealA := 5 } }, by decide +kernel⟩,
   ⟨low, by decide +kernel⟩,
   ⟨{low with sp := {low.sp with converter := false, railOff := 10}}, by decide +kernel⟩,
   ⟨low, .vcore, by decide +kernel⟩,
   ⟨{ low with sp := { low.sp with railFails := [0, 0] } }, .vser, by decide +kernel⟩,
   ⟨(up 4).setFld SUP_PWR_CFG SUP_PWR_CFG_VBAK_WARN 100, by decide +kernel⟩,
   ⟨((up 4).setFld SUP_PWR_CFG SUP_PWR_CFG_VBAK_WARN 100).setFlag SUP_PWR_STAT SUP_PWR_STAT_VBAK_LOW true, by decide +kernel⟩⟩

theorem test_witness_StartAndPowerFail :
    (∃ (s : State) (senior : Bool) (test : Bool), s.sp.powered = true ∧ s.sp.converter = true ∧ s.sp.dormant = true ∧ (s.latchStraps
      senior test).sp.test = true)
    ∧ (∃ (s : State) (senior : Bool) (test : Bool), s.sp.powered = true ∧ s.sp.converter = true ∧ s.sp.dormant = true ∧ (s.latchStraps
      senior test).sp.test = false)
    ∧ (∃ (s : State) (senior : Bool) (test : Bool), s.sp.powered = true ∧ s.sp.converter = true ∧ s.sp.dormant = true ∧ (s.latchStraps
      senior test).sp.test = false)
    ∧ (∃ (s : State), s.sp.dormant = false ∧ s.sp.powerFail = PowerFail.idle)
    ∧ (∃ (s : State), s.sp.dormant = false ∧ s.sp.powerFail = PowerFail.idle)
    ∧ (∃ (s : State), s.sp.powerFail = PowerFail.archiving ∧ s.sp.stopAfter = false)
    ∧ (∃ (s : State), s.sp.powerFail = PowerFail.waiting)
    ∧ (∃ (s : State), s.sp.converter = true ∧ (s.sp.powerFail ≠ PowerFail.idle ∨ s.sp.dormant = true)) :=
  ⟨⟨low, true, true, by decide +kernel⟩,
   ⟨low, true, false, by decide +kernel⟩,
   ⟨{ low with sp := { low.sp with sealA := sealWord, sealB := sealComplement, sealCrc := low.retentionCrc }, mem := [(0x30000010, 4)] },
    true, false, by decide +kernel⟩,
   ⟨up 4, by decide +kernel⟩,
   ⟨(up 1).setIslands [22] false, by decide +kernel⟩,
   ⟨{up 4 with sp := {(up 4).sp with powerFail := .archiving}}, by decide +kernel⟩,
   ⟨{up 4 with sp := {(up 4).sp with powerFail := .waiting}, mem := [(0x30000010, 4), (9, 9)]}, by decide +kernel⟩,
   ⟨low, by decide +kernel⟩⟩

theorem test_witness_SafeEntryRows :
    (∃ (s : State) (x : Instr × ℕ), (x = (Instr.mainClockDeviation, 38) ∨ x = (Instr.safetySelfTest false, 38) ∨ x = (Instr.safetySelfTest
      true, 38) ∧ s.sp.claimBad = true ∧ s.claimDiffers = true ∨ x = (Instr.padEnableMismatch, 38) ∨ x = (Instr.l7Timeout, 32) ∧
      s.sp.l7Run = true ∨ x = (Instr.l8Timeout, 35) ∧ s.ld.timed = true ∨ x = (Instr.sg5Trip Sg5.stageTemp, 36) ∨ x = (Instr.sg5Trip
      Sg5.dieTemp, 36)) ∧ s.life ≠ stDormant ∧ s.life ≠ stSafe)
    ∧ (∃ (s : State) (x : Instr × ℕ), (x = (Instr.mainClockDeviation, 38) ∨ x = (Instr.safetySelfTest false, 38) ∨ x =
      (Instr.safetySelfTest true, 38) ∧ s.sp.claimBad = true ∧ s.claimDiffers = true ∨ x = (Instr.padEnableMismatch, 38) ∨ x =
      (Instr.l7Timeout, 32) ∧ s.sp.l7Run = true ∨ x = (Instr.l8Timeout, 35) ∧ s.ld.timed = true ∨ x = (Instr.sg5Trip Sg5.stageTemp, 36) ∨
      x = (Instr.sg5Trip Sg5.dieTemp, 36)) ∧ s.life ≠ stDormant ∧ s.life ≠ stSafe)
    ∧ (∃ (s : State) (x : Instr × ℕ), (x = (Instr.mainClockDeviation, 38) ∨ x = (Instr.safetySelfTest false, 38) ∨ x =
      (Instr.safetySelfTest true, 38) ∧ s.sp.claimBad = true ∧ s.claimDiffers = true ∨ x = (Instr.padEnableMismatch, 38) ∨ x =
      (Instr.l7Timeout, 32) ∧ s.sp.l7Run = true ∨ x = (Instr.l8Timeout, 35) ∧ s.ld.timed = true ∨ x = (Instr.sg5Trip Sg5.stageTemp, 36) ∨
      x = (Instr.sg5Trip Sg5.dieTemp, 36)) ∧ s.life ≠ stDormant ∧ s.life ≠ stSafe)
    ∧ (∃ (s : State) (x : Instr × ℕ), (x = (Instr.mainClockDeviation, 38) ∨ x = (Instr.safetySelfTest false, 38) ∨ x =
      (Instr.safetySelfTest true, 38) ∧ s.sp.claimBad = true ∧ s.claimDiffers = true ∨ x = (Instr.padEnableMismatch, 38) ∨ x =
      (Instr.l7Timeout, 32) ∧ s.sp.l7Run = true ∨ x = (Instr.l8Timeout, 35) ∧ s.ld.timed = true ∨ x = (Instr.sg5Trip Sg5.stageTemp, 36) ∨
      x = (Instr.sg5Trip Sg5.dieTemp, 36)) ∧ s.life ≠ stDormant ∧ s.life ≠ stSafe)
    ∧ (∃ (s : State) (x : Instr × ℕ), (x = (Instr.mainClockDeviation, 38) ∨ x = (Instr.safetySelfTest false, 38) ∨ x =
      (Instr.safetySelfTest true, 38) ∧ s.sp.claimBad = true ∧ s.claimDiffers = true ∨ x = (Instr.padEnableMismatch, 38) ∨ x =
      (Instr.l7Timeout, 32) ∧ s.sp.l7Run = true ∨ x = (Instr.l8Timeout, 35) ∧ s.ld.timed = true ∨ x = (Instr.sg5Trip Sg5.stageTemp, 36) ∨
      x = (Instr.sg5Trip Sg5.dieTemp, 36)) ∧ s.life ≠ stDormant ∧ s.life ≠ stSafe)
    ∧ (∃ (s : State) (x : Instr × ℕ), (x = (Instr.mainClockDeviation, 38) ∨ x = (Instr.safetySelfTest false, 38) ∨ x =
      (Instr.safetySelfTest true, 38) ∧ s.sp.claimBad = true ∧ s.claimDiffers = true ∨ x = (Instr.padEnableMismatch, 38) ∨ x =
      (Instr.l7Timeout, 32) ∧ s.sp.l7Run = true ∨ x = (Instr.l8Timeout, 35) ∧ s.ld.timed = true ∨ x = (Instr.sg5Trip Sg5.stageTemp, 36) ∨
      x = (Instr.sg5Trip Sg5.dieTemp, 36)) ∧ s.life ≠ stDormant ∧ s.life ≠ stSafe)
    ∧ (∃ (s : State) (x : Instr × ℕ), (x = (Instr.mainClockDeviation, 38) ∨ x = (Instr.safetySelfTest false, 38) ∨ x =
      (Instr.safetySelfTest true, 38) ∧ s.sp.claimBad = true ∧ s.claimDiffers = true ∨ x = (Instr.padEnableMismatch, 38) ∨ x =
      (Instr.l7Timeout, 32) ∧ s.sp.l7Run = true ∨ x = (Instr.l8Timeout, 35) ∧ s.ld.timed = true ∨ x = (Instr.sg5Trip Sg5.stageTemp, 36) ∨
      x = (Instr.sg5Trip Sg5.dieTemp, 36)) ∧ s.life ≠ stDormant ∧ s.life ≠ stSafe) :=
  ⟨⟨up 4, (.mainClockDeviation, 0x26), by decide +kernel⟩,
   ⟨up 4, (.padEnableMismatch, 0x26), by decide +kernel⟩,
   ⟨{ ((up 5).setFlag SUP_FIT_CFG SUP_FIT_CFG_PAIRED true).setFlag TWN_STAT TWN_STAT_LINK_UP true with sp := { (up 5).sp with claimBad := true }, tw := { (up 5).tw with twinClaim := true } },
    (.safetySelfTest true, 0x26), by decide +kernel⟩,
   ⟨{ up 4 with sp := { (up 4).sp with l7Run := true } }, (.l7Timeout, 0x20), by decide +kernel⟩,
   ⟨{ up 1 with ld := { Loader.init with timed := true } }, (.l8Timeout, 0x23), by decide +kernel⟩,
   ⟨up 4, (.sg5Trip .stageTemp, 0x24), by decide +kernel⟩,
   ⟨up 3, (.sg5Trip .dieTemp, 0x24), by decide +kernel⟩⟩

theorem test_witness_SafetyEventsAndSquelch :
    (∃ (s : State), s.sp.dormant = false)
    ∧ (∃ (s : State), s.sp.dormant = false ∧ s.claimDiffers = true)
    ∧ (∃ (s : State), s.claimDiffers = false)
    ∧ (∃ (s : State), s.sp.dormant = false ∧ (s.sp.claimBad = false ∨ s.claimDiffers = false))
    ∧ (∃ (s : State), s.sp.converter = true)
    ∧ (∃ (s : State) (c : Sg5), (c = Sg5.overVoltage ∨ c = Sg5.current) ∧ s.sp.converter = false ∧ s.sp.powered = true ∧ s.sp.railOff = 0
      ∧ s.bitAt SUP_SAFETY_STAT (16 + sg5Code c) = true ∧ s.bitAt SUP_SAFETY_STAT (17 - sg5Code c) = false)
    ∧ (∃ (s : State) (c : Sg5), (c = Sg5.overVoltage ∨ c = Sg5.current) ∧ s.life ≠ stDormant ∧ s.sp.powerFail = PowerFail.idle)
    ∧ (∃ (s : State), s.inState [stServing, stLimp] = true ∧ s.running islTM = true ∧ s.flag SUP_SAFETY_STAT SUP_SAFETY_STAT_MON_A = false
      ∧ s.flag SUP_SAFETY_STAT SUP_SAFETY_STAT_MON_B = false ∧ (s.sp.refOk || s.sp.hoValid) = true ∧ s.flag SUP_SAFETY_STAT
      SUP_SAFETY_STAT_SQUELCH = true) :=
  ⟨⟨up 4, by decide +kernel⟩,
   ⟨{ (up 4).setFlag SUP_FIT_CFG SUP_FIT_CFG_PAIRED true |>.setFlag TWN_STAT TWN_STAT_LINK_UP true with tw := { (up 4).tw with twinClaim := true } },
    by decide +kernel⟩,
   ⟨{ up 4 with sp := { (up 4).sp with claimBad := true } }, by decide +kernel⟩,
   ⟨(up 4).setReg SUP_SAFETY_STAT 0xFFFFFFFF, by decide +kernel⟩,
   ⟨up 4, by decide +kernel⟩,
   ⟨{ (up 4).converterOff.setReg SUP_SAFETY_STAT 0x10000 with sp := { (up 4).converterOff.sp with railOff := 0 } }, .overVoltage, by
    decide +kernel⟩,
   ⟨up 4, .overVoltage, by decide +kernel⟩,
   ⟨{ (up 4).setFlag SUP_SAFETY_STAT SUP_SAFETY_STAT_SQUELCH true with sp := { (up 4).sp with refOk := true } }, by decide +kernel⟩⟩

theorem test_witness_SharedOutputsNeedBothKeys :
    (∃ (s : State) (t : State) (c : Instr), (c = Instr.key2 ∨ c = Instr.claimInChange true ∨ c = Instr.claimInChange false ∨ c =
      Instr.keepaliveLoss ∨ c = Instr.squelchRelease ∨ c = Instr.safeCountClear ∨ c = Instr.claimDisagree ∨ c = Instr.rtBrownOut) ∧
      Safety.twoKeys s ∧ exec c s = Host.Outcome.next t)
    ∧ (∃ (s : State), s.sp.powered = true ∧ s.flag SUP_SAFETY_STAT SUP_SAFETY_STAT_CLAIM_IN = false)
    ∧ (∃ (s : State), s.sp.powered = true) :=
  ⟨⟨up 4, _, .key2, by decide +kernel, by decide +kernel, rfl⟩,
   ⟨up 4, by decide +kernel⟩,
   ⟨up 4, by decide +kernel⟩⟩

theorem test_witness_SafeHoldKickAndFitting :
    (∃ (s : State), s.life = stSafe ∧ s.sp.sealing = false ∧ s.sp.powerFail = PowerFail.idle ∧ s.causeAbsent true = true)
    ∧ (∃ (s : State), s.life = stSafe ∧ s.sp.sealing = false ∧ s.sp.powerFail = PowerFail.idle ∧ s.causeAbsent false = false)
    ∧ (∃ (s : State), s.sp.sealing = true ∧ s.eh.queue = [] ∧ s.sp.powerFail = PowerFail.idle)
    ∧ (∃ (s : State), s.sp.sealing = true ∧ s.eh.queue = [] ∧ s.sp.powerFail = PowerFail.idle)
    ∧ (∃ (s : State), s.inState [stServing, stLimp] = true)
    ∧ (∃ (s : State) (u : State) (q : Fin 2) (token : Byte), Safety.granted (Writer.service q) s u ∧ u.running islSP = true ∧ u.fld
      SUP_L7_KICK SUP_L7_KICK_TOKEN ≠ BitVec.toNat token)
    ∧ (∃ (s : State) (u : State) (q : Fin 2) (checked : Bool) (kick : Byte) (token : Byte), Safety.granted (Writer.service q) s u ∧
      u.running islSP = true ∧ (kick ≠ 165 ∨ checked = false ∨ u.tokenIs SUP_L7_KICK SUP_L7_KICK_TOKEN (BitVec.toNat token) = true))
    ∧ (∃ (s : State) (u : State) (q : Fin 2) (checked : Bool) (kick : Byte) (token : Byte), Safety.granted (Writer.service q) s u ∧
      u.running islSP = true ∧ (kick ≠ 165 ∨ checked = false ∨ u.tokenIs SUP_L7_KICK SUP_L7_KICK_TOKEN (BitVec.toNat token) = true))
    ∧ (∃ (s : State) (u : State) (q : Fin 2) (checked : Bool) (kick : Byte) (token : Byte), Safety.granted (Writer.service q) s u ∧
      u.running islSP = true ∧ (kick ≠ 165 ∨ checked = false ∨ u.tokenIs SUP_L7_KICK SUP_L7_KICK_TOKEN (BitVec.toNat token) = true))
    ∧ (∃ (s : State), s.flag SUP_FIT_CFG SUP_FIT_CFG_PAIRED = false ∧ s.flag SUP_SAFETY_STAT SUP_SAFETY_STAT_CLAIM_IN = true ∧ s.flag
      SUP_FIT_CFG SUP_FIT_CFG_LIMP_EN = true ∧ s.life = stServing)
    ∧ (∃ (s : State), s.flag SUP_SAFETY_STAT SUP_SAFETY_STAT_CLAIM_IN = false ∧ s.life = stLimp ∧ s.fld SUP_STATE SUP_STATE_LIMP_CAUSES =
      8) :=
  ⟨⟨{ up 6 with chan := [⟨0x100, 5, 3, []⟩, ⟨0x475, 3, 3, []⟩] }, by decide +kernel⟩,
   ⟨(up 6).setFld SUP_STATE SUP_STATE_ENTRY_CAUSE 0x26, by decide +kernel⟩,
   ⟨{ up 6 with sp := { (up 6).sp with sealing := true } }, by decide +kernel⟩,
   ⟨{ (up 6).setIslands [22] false with sp := { (up 6).sp with sealing := true } }, by decide +kernel⟩,
   ⟨(up 4).setFld SUP_TO_STAT SUP_TO_STAT_SAFE_COUNT 9, by decide +kernel⟩,
   ⟨up 4, _, 0, 5, ⟨rfl, by decide +kernel⟩, by decide +kernel⟩,
   ⟨up 4, _, 1, true, 0xA4, 5, ⟨rfl, by decide +kernel⟩, by decide +kernel⟩,
   ⟨up 4, _, 1, true, 0xA5, 0, ⟨rfl, by decide +kernel⟩, by decide +kernel⟩,
   ⟨up 4, _, 1, false, 0xA5, 0, ⟨rfl, by decide +kernel⟩, by decide +kernel⟩,
   ⟨((up 4).setReg SUP_FIT_CFG 2).setFlag SUP_SAFETY_STAT SUP_SAFETY_STAT_CLAIM_IN true, by decide +kernel⟩,
   ⟨(up 5).setFld SUP_STATE SUP_STATE_LIMP_CAUSES 8, by decide +kernel⟩⟩

theorem test_witness_LadderAndIslandReset :
    (∃ (s : State) (g : Fin 61), s.sp.dormant = false ∧ s.running (gateEnds ↑g).1 = true ∧ s.running (gateEnds ↑g).2 = true ∧ s.mtx.txns =
      [] ∧ s.windowCount 1 (↑g) 1000000000 < 16)
    ∧ (∃ (s : State) (g : Fin 61), s.sp.dormant = false ∧ s.running (gateEnds ↑g).1 = true ∧ s.running (gateEnds ↑g).2 = true ∧ s.mtx.txns
      = [] ∧ s.windowCount 1 (↑g) 1000000000 < 16)
    ∧ (∃ (s : State) (g : Fin 61), s.sp.dormant = false ∧ s.running (gateEnds ↑g).1 = true ∧ s.running (gateEnds ↑g).2 = true ∧ s.mtx.txns
      = [] ∧ s.windowCount 1 (↑g) 1000000000 < 16)
    ∧ (∃ (s : State) (g : Fin 61), s.sp.dormant = false ∧ s.running (gateEnds ↑g).1 = true ∧ s.running (gateEnds ↑g).2 = true ∧ s.mtx.txns
      = [] ∧ s.windowCount 1 (↑g) 1000000000 < 16)
    ∧ (∃ (s : State) (k : Fin 98) (tx : Txn), s.mtx.txns = [(↑k, tx)] ∧ tx.req.write = false ∧ s.mtx.held = [] ∧ s.windowCount 2 tx.target
      1000000000 < 16)
    ∧ (∃ (s : State) (k : Fin 98) (tx : Txn), s.mtx.txns = [(↑k, tx)] ∧ tx.req.write = false ∧ s.mtx.held = [] ∧ s.windowCount 2 tx.target
      1000000000 < 16)
    ∧ (∃ (s : State) (i : Fin 24), s.running ↑i = true ∧ ↑i ≠ 1 ∧ ↑i ≠ 2 ∧ ↑i ≠ islSP ∧ s.windowCount 5 (↑i) 10000000000 < 2)
    ∧ (∃ (s : State) (i : Fin 24), s.running ↑i = true ∧ ↑i ≠ 1 ∧ ↑i ≠ 2 ∧ ↑i ≠ islSP ∧ s.windowCount 5 (↑i) 10000000000 < 2)
    ∧ (∃ (s : State) (i : Fin 24), s.running ↑i = true ∧ ↑i ≠ 1 ∧ ↑i ≠ 2 ∧ ↑i ≠ islSP ∧ s.windowCount 5 (↑i) 10000000000 < 2)
    ∧ (∃ (s : State) (i : Fin 24), s.running ↑i = true ∧ ↑i ≠ 1 ∧ ↑i ≠ 2 ∧ ↑i ≠ islSP ∧ s.windowCount 5 (↑i) 10000000000 < 2)
    ∧ (∃ (s : State), s.running islRT = true ∧ s.windowCount 5 islRT 10000000000 < 2)
    ∧ (∃ (s : State), s.running islTW = true ∧ s.twn TWN_STAT_LINK_UP = true)
    ∧ (∃ (s : State) (i : Fin 24), s.sp.dormant = false ∧ s.running ↑i = true ∧ ↑i ≠ islSP)
    ∧ (∃ (s : State) (i : Fin 24), s.running ↑i = false ∧ s.mayRun ↑i = true ∧ s.sp.dormant = false) :=
  ⟨⟨up 4, 5, by decide +kernel⟩,
   ⟨{ up 4 with chan := [⟨0x100, 5, 3, []⟩, ⟨0x006, 23, 3, []⟩, ⟨0x700, 22, 3, []⟩] }, 56, by decide +kernel⟩,
   ⟨{ up 4 with chan := [⟨0x100, 5, 3, []⟩, ⟨0x006, 23, 3, []⟩, ⟨0x700, 22, 3, []⟩] }, 54, by decide +kernel⟩,
   ⟨{ up 4 with chan := [⟨0x006, 23, 3, []⟩, ⟨0x100, 5, 3, []⟩, ⟨0x700, 22, 3, []⟩] }, ⟨mxGate 5, by decide⟩, by decide +kernel⟩,
   ⟨(up 4).inMtx (fun m => { m with txns := [(5, txn 0 5 false 0x40000000 5 0)] }), 5, txn 0 5 false 0x40000000 5 0, by decide +kernel⟩,
   ⟨(up 4).inMtx (fun m => { m with txns := [(97, txn 7 0 false 0x40000000 5 0)] }), 97, txn 7 0 false 0x40000000 5 0, by decide +kernel⟩,
   ⟨up 4, 3, by decide +kernel⟩,
   ⟨up 4, 0, by decide +kernel⟩,
   ⟨up 4, 20, by decide +kernel⟩,
   ⟨up 4, 22, by decide +kernel⟩,
   ⟨linked 4 2 true, by decide +kernel⟩,
   ⟨linked 4 2 true, by decide +kernel⟩,
   ⟨up 4, 5, by decide +kernel⟩,
   ⟨((up 4).setReg SUP_ISLAND_CFG 0xFFFFFFFF).setIslands [14] false, 14, by decide +kernel⟩⟩

theorem test_witness_PairLossAndReturn :
    (∃ (s : State) (q : Fin 2), s.running (islSV ↑q) = true ∧ s.fld (SVC_PAIR_STAT ↑q) SVC_PAIR_STAT_STATE = 0)
    ∧ (∃ (s : State) (q : Fin 2), s.running (islSV ↑q) = true ∧ s.fld (SVC_PAIR_STAT ↑q) SVC_PAIR_STAT_STATE = 0)
    ∧ (∃ (s : State) (q : Fin 2), s.running (islSV ↑q) = true ∧ s.fld (SVC_PAIR_STAT ↑q) SVC_PAIR_STAT_STATE = 0)
    ∧ (∃ (s : State) (q : Fin 2), s.inState [stArmed, stServing, stLimp] = true ∧ s.sp.powerFail = PowerFail.idle ∧ s.fld (SVC_PAIR_STAT
      ↑q) SVC_PAIR_STAT_STATE = 1)
    ∧ (∃ (s : State) (q : Fin 2), s.running (islSV ↑q) = true ∧ s.fld (SVC_PAIR_STAT ↑q) SVC_PAIR_STAT_STATE = 0 ∧ s.pairTask ↑q < 256 ∧
      s.fld (SVC_TASK_STAT (s.pairTask ↑q)) SVC_TASK_STAT_ABORTS < 3) :=
  ⟨⟨up 4, 1, by decide +kernel⟩,
   ⟨{ up 4 with wins := [(9 * 4096, ⟨2, 0⟩)] }, 0, by decide +kernel⟩,
   ⟨{ ran 0 3 [] with wins := [(9 * 4096, ⟨2, 0⟩)] }, 0, by decide +kernel⟩,
   ⟨(up 4).setFld (SVC_PAIR_STAT 1) SVC_PAIR_STAT_STATE 1, 1, by decide +kernel⟩,
   ⟨{ ran 0 3 [] with wins := [(9 * 4096, ⟨2, 0⟩)] }, 0, by decide +kernel⟩⟩

theorem test_witness_LoaderSteps :
    (∃ (s : State), s.loaderRuns = true ∧ s.life = stLoading ∧ s.fld NVM_STAT NVM_STAT_STEP = 1 ∧ s.ld.selfChecked = false)
    ∧ (∃ (s : State) (x : Sfdp), s.loaderRuns = true ∧ s.life = stLoading ∧ s.fld NVM_STAT NVM_STAT_STEP = 1 ∧ s.ld.selfChecked = true ∧
      24 ≤ x.densityLog2 ∧ x.densityLog2 ≤ 31)
    ∧ (∃ (s : State) (x : Sfdp), s.loaderRuns = true ∧ s.life = stLoading ∧ s.fld NVM_STAT NVM_STAT_STEP = 1 ∧ s.ld.selfChecked = true ∧
      24 ≤ x.densityLog2 ∧ x.densityLog2 ≤ 31)
    ∧ (∃ (s : State), s.loaderRuns = true ∧ s.life = stLoading ∧ s.fld NVM_STAT NVM_STAT_STEP = 1 ∧ s.ld.selfChecked = true)
    ∧ (∃ (s : State), s.loaderRuns = true ∧ s.life = stLoading ∧ 2 ≤ s.fld NVM_STAT NVM_STAT_STEP ∧ s.ld.sections = [] ∧ s.ld.fail = none) :=
  ⟨⟨{(up 1).setFld NVM_STAT NVM_STAT_STEP 1 with ld := {(up 1).ld with running := true}}, by decide +kernel⟩,
   ⟨{ (up 1).setFld NVM_STAT NVM_STAT_STEP 1 with ld := { (up 1).ld with running := true, selfChecked := true } }, ⟨31, true, true, true,
    false⟩, by decide +kernel⟩,
   ⟨{ (up 1).setFld NVM_STAT NVM_STAT_STEP 1 with ld := { (up 1).ld with running := true, selfChecked := true } }, ⟨24, true, true, true,
    false⟩, by decide +kernel⟩,
   ⟨{ (up 1).setFld NVM_STAT NVM_STAT_STEP 1 with ld := { (up 1).ld with running := true, selfChecked := true } }, by decide +kernel⟩,
   ⟨{(up 1).setFld NVM_STAT NVM_STAT_STEP 2 with ld := {(up 1).ld with running := true}}, by decide +kernel⟩⟩

theorem test_witness_LoaderRecordsAndNvmWindow :
    (∃ (s : State), s.inSection 1 = true ∧ s.ld.ended = false)
    ∧ (∃ (s : State) (a : ℕ) (n : ℕ) (k : ℕ) (e : SecEntry), s.inSection 2 = true ∧ s.ld.secBytes = [] ∧ s.ld.head = false ∧ s.section? =
      some e ∧ e.length = n + 16 ∧ (k = 0 ∨ k = 1 ∧ a = 0 ∧ s.ld.vector = false) ∧ a < 524285 ∧ a % 4 = 0 ∧ a + n ≤ sramSize ∧
      s.ld.programs.any (overlaps (a, n)) = false)
    ∧ (∃ (s : State) (e : SecEntry), s.inSection 3 = true ∧ s.section? = some e)
    ∧ (∃ (s : State) (u : State) (port : Fin 8) (addr : Word), s.portMay ↑port = true ∧ s.running islMX = true ∧ s.target (BitVec.toNat
      addr) = 6 ∧ BitVec.toNat addr % 4 = 0 ∧ ↑port < 7 ∧ u = s.grant (↑port) (BitVec.toNat addr) ∧ u.running islMX = true ∧ u.target
      (BitVec.toNat addr) = 6 ∧ u.flag NVM_STAT NVM_STAT_WINDOW = false)
    ∧ (∃ (s : State) (u : State) (port : Fin 8) (addr : Word), s.portMay ↑port = true ∧ s.running islMX = true ∧ s.target (BitVec.toNat
      addr) = 6 ∧ BitVec.toNat addr % 4 = 0 ∧ ↑port < 7 ∧ u = s.grant (↑port) (BitVec.toNat addr) ∧ u.running islMX = true ∧ u.target
      (BitVec.toNat addr) = 6 ∧ u.flag NVM_STAT NVM_STAT_WINDOW = true ∧ u.readable islLD = true)
    ∧ (∃ (s : State) (u : State) (port : Fin 8) (addr : Word), s.portMay ↑port = true ∧ s.running islMX = true ∧ s.target (BitVec.toNat
      addr) = 6 ∧ BitVec.toNat addr % 4 = 0 ∧ ↑port < 7 ∧ u = s.grant (↑port) (BitVec.toNat addr) ∧ u.running islMX = true ∧ u.target
      (BitVec.toNat addr) = 6 ∧ u.flag NVM_STAT NVM_STAT_WINDOW = true ∧ u.readable islLD = true ∧ ↑port < 6 ∧ u.running islLD = true) :=
  ⟨⟨{up 1 with ld := {(up 1).ld with running := true, sections := [⟨1,0x100,16,0⟩]}}, by decide +kernel⟩,
   ⟨{up 1 with ld := {(up 1).ld with running := true, sections := [⟨2,0x100,0x60,0⟩]}}, 0x40, 0x50, 0, ⟨2,0x100,0x60,0⟩, by
    decide +kernel⟩,
   ⟨{up 1 with ld := {(up 1).ld with running := true, sections := [⟨3,0x100,16,0⟩]}}, ⟨3,0x100,16,0⟩, by decide +kernel⟩,
   ⟨(up 4).setFlag NVM_STAT NVM_STAT_WINDOW false, _, 2, 0x60000000, by decide +kernel, by decide +kernel, by decide +kernel, by
    decide +kernel, by decide +kernel, rfl, by decide +kernel⟩,
   ⟨{up 1 with ld := {(up 1).ld with running := true, sections := [⟨1,0x100,16,0⟩]}}, _, 2, 0x60000000, by decide +kernel, by
    decide +kernel, by decide +kernel, by decide +kernel, by decide +kernel, rfl, by decide +kernel⟩,
   ⟨{up 1 with ld := {(up 1).ld with running := true, sections := [⟨1,0x100,16,0⟩]}}, _, 2, 0x60000000, by decide +kernel, by
    decide +kernel, by decide +kernel, by decide +kernel, by decide +kernel, rfl, by decide +kernel⟩⟩

theorem test_witness_SlotCheckAndArchive :
    (∃ (s : State) (f : ℕ × ℕ), s.loaderRuns = true ∧ s.life = stLoading ∧ s.ld.fail = some f ∧ s.slot = 1 ∧ s.ld.applied = false)
    ∧ (∃ (s : State) (f : ℕ × ℕ), s.loaderRuns = true ∧ s.life = stLoading ∧ s.ld.fail = some f ∧ s.slot = 0)
    ∧ (∃ (s : State) (x : CheckStall × ℕ), (x = (CheckStall.inStep5, 5) ∨ x = (CheckStall.inStep6, 6)) ∧ s.loaderRuns = true ∧ s.life =
      stLoading ∧ s.slotRead = true ∧ s.ld.applied = false)
    ∧ (∃ (s : State) (x : CheckStall × ℕ), (x = (CheckStall.inStep5, 5) ∨ x = (CheckStall.inStep6, 6)) ∧ s.loaderRuns = true ∧ s.life =
      stLoading ∧ s.slotRead = true ∧ s.ld.applied = false)
    ∧ (∃ (s : State) (heads : List (List Byte)) (records : List (ℕ × List Byte)), s.loaderRuns = true ∧ s.life = stChecking ∧ s.ld.applied
      = true ∧ s.ld.scanned = false ∧ s.ld.density = 27 ∧ newestArchive heads records = none)
    ∧ (∃ (s : State), s.loaderRuns = true ∧ s.life = stChecking ∧ s.ld.applied = true ∧ s.ld.scanned = true ∧ 27 ≤ s.ld.density)
    ∧ (∃ (s : State), s.running islEH = true ∧ s.eh.numbered = false ∧ s.eh.retGood = true ∧ s.eh.queue = [] ∧ ∀ ev ∈ s.chan, ev.isl ≠
      islEH) :=
  ⟨⟨{(up 1).setFld SUP_STATE SUP_STATE_SLOT 1 with ld := {(up 1).ld with running := true, fail := some (0x15, 2)}}, (0x15,2), by
    decide +kernel⟩,
   ⟨{up 1 with ld := {(up 1).ld with running := true, fail := some (0x15, 2)}}, (0x15,2), by decide +kernel⟩,
   ⟨{up 1 with ld := {(up 1).ld with running := true, fail := some (0x15, 2)}}, (CheckStall.inStep5, 5), by decide +kernel⟩,
   ⟨{up 1 with ld := {(up 1).ld with running := true, fail := some (0x15, 2)}}, (CheckStall.inStep6, 6), by decide +kernel⟩,
   ⟨{up 2 with ld := {(up 2).ld with running := true, applied := true, density := 27}}, [List.replicate 16 0xFF], [], by decide +kernel⟩,
   ⟨{up 2 with ld := {(up 2).ld with running := true, applied := true, scanned := true, density := 27}}, by decide +kernel⟩,
   ⟨{up 3 with eh := {(up 3).eh with retGood := true}}, by decide +kernel⟩⟩

theorem test_witness_GlobalFences :
    (∃ (s : State) (u : State) (token : Byte), Safety.granted Writer.maintenance s u ∧ u.fld MTX_FENCE MTX_FENCE_TOKEN ≠ BitVec.toNat
      token ∧ u.mtx.fence = none ∧ u.mtx.waiting = [])
    ∧ (∃ (s : State) (f : Fence), s.mtx.fence = some f ∧ f.draining = true ∧ (∀ x ∈ f.writes, x ∉ s.liveWrites) ∧ s.running islMX = true)
    ∧ (∃ (s : State) (f : Fence) (i : Fin 24), s.sp.dormant = false ∧ s.running ↑i = true ∧ s.mtx.fence = some f ∧ s.mtx.late = [] ∧ ↑i ∈
      f.unmarked)
    ∧ (∃ (s : State) (f : Fence), s.sp.dormant = false ∧ s.mtx.fence = some f ∧ f.draining = false ∧ f.issuer = 7 ∧ s.mtx.waiting = [] ∧
      f.no < 65536) :=
  ⟨⟨unlk 4, _, 5, ⟨rfl, by decide +kernel⟩, by decide +kernel⟩,
   ⟨(up 4).inMtx fun m => { m with fence := some ⟨4, 7, true, [], [], []⟩ }, ⟨4, 7, true, [], [], []⟩, by decide +kernel⟩,
   ⟨(up 4).inMtx fun m => { m with fence := some ⟨4, 7, false, [3,5], [3,5], []⟩ }, ⟨4, 7, false, [3,5], [3,5], []⟩, 3, by decide +kernel⟩,
   ⟨(up 4).inMtx fun m => { m with fence := some ⟨4, 7, false, [3,5], [3,5], []⟩ }, ⟨4, 7, false, [3,5], [3,5], []⟩, by decide +kernel⟩⟩

theorem test_witness_MatrixTransactions :
    (∃ (s : State) (u : State) (tgt : Fin 7) (tag : Fin 128), s.running islMX = true ∧ (∀ p ∈ s.mtx.txns, p.2.target = ↑tgt → p.2.tag %
      128 ≠ ↑tag) ∧ (u = s.decideLate fun (x : Txn) => decide (x.target = ↑tgt ∧ x.tag % 128 = ↑tag)) ∧ u.sp.dormant = false)
    ∧ (∃ (s : State), s.running islMX = true)
    ∧ (∃ (s : State) (u : State), u = s.settleRegs ∧ u.running islMX = true)
    ∧ (∃ (s : State) (r : Req), s.running islMX = true ∧ s.portMay ↑r.port = true ∧ s.bridgeHolds r = false ∧ reqOk r (s.target
      (BitVec.toNat r.addr)) = true ∧ s.target (BitVec.toNat r.addr) ≠ 7 ∧ ∀ p ∈ s.mtx.txns, p.1 ≠ txnKey ↑r.port ↑r.id)
    ∧ (∃ (s : State) (r : Req), s.running islMX = true ∧ s.portMay ↑r.port = true ∧ s.bridgeHolds r = false ∧ reqOk r (s.target
      (BitVec.toNat r.addr)) = true ∧ s.target (BitVec.toNat r.addr) ≠ 7 ∧ ∃ p ∈ s.mtx.txns, p.1 = txnKey ↑r.port ↑r.id)
    ∧ (∃ (s : State) (r : Req), s.running islMX = true ∧ s.portMay ↑r.port = true ∧ s.bridgeHolds r = false ∧ reqOk r (s.target
      (BitVec.toNat r.addr)) = true ∧ s.target (BitVec.toNat r.addr) = 7 ∧ 4 ≤ ↑r.port ∧ r.port ≠ 7)
    ∧ (∃ (s : State) (x : Txn) (d : BitVec 64), s.life = stLoading ∧ s.cores = [] ∧ s.schedRuns = false ∧ s.mtx.lateWrites = [] ∧
      s.mtx.held = [] ∧ s.mtx.txns = [(txnKey 6 ↑x.req.id, x)] ∧ x.req.port = 6 ∧ x.req.write = true ∧ x.req.beats = 1 ∧ x.req.strobes =
      [255] ∧ x.req.data = [d] ∧ x.codes = [] ∧ x.answered = 0 ∧ x.orphan = false ∧ x.target = 1 ∧ s.target (BitVec.toNat x.req.addr) = 1
      ∧ BitVec.toNat x.req.addr % 8 = 0) :=
  ⟨⟨(up 4).inMtx fun m => { m with txns := [(16, txn 1 0 true 0x40 1 3)] }, _, 1, 4, by decide +kernel, by decide +kernel, rfl, by
    decide +kernel⟩,
   ⟨(up 4).inMtx fun m => { m with txns := [(16, txn 1 0 true 0x40 1 3)] }, by decide +kernel⟩,
   ⟨(up 4).inMtx (fun m => { m with txns := [(txnKey 2 0, txn 2 0 false 0x40 1 3)] }), _, rfl, by decide +kernel⟩,
   ⟨up 4, (txn 2 0 false 0x40 1 3).req, by decide +kernel⟩,
   ⟨(up 4).inMtx (fun m => { m with txns := [(txnKey 2 0, txn 2 0 false 0x40 1 3)] }), (txn 2 0 false 0x48 1 3).req, by decide +kernel⟩,
   ⟨up 4, (txn 4 0 false 0x70000000 1 3).req, by decide +kernel⟩,
   ⟨((up 1).setReg SUP_ISLAND_STAT 0xFFFFF9).inMtx fun m => { m with txns := [(96, txn 6 0 true 0x10000048 1 3)] }, txn 6 0 true
    0x10000048 1 3, 0x1122334455667788, by decide +kernel⟩⟩

theorem test_witness_HostAndRegisterAccess :
    (∃ (s : State) (u : State) (q : Fin 2) (n : Fin 8), s.serviceMay ↑q = true ∧ s.running islMX = true ∧ u = s.grant (2 * ↑q) (LINE_OH_TX
      ↑n) ∧ u.running (islLP ↑n) = true)
    ∧ (∃ (s : State) (u : State) (q : Fin 2) (a : Word) (r : RegRow), s.serviceMay ↑q = true ∧ s.running islMX = true ∧ u = s.grant (2 *
      ↑q) (BitVec.toNat a) ∧ u.running islMX = true ∧ regRow (BitVec.toNat a) = some r ∧ u.target (BitVec.toNat a) = 5 ∧ BitVec.toNat a %
      4 = 0 ∧ u.running (u.regIsl (BitVec.toNat a)) = true ∧ r.svc = false ∧ r.fields ≠ [] ∧ slotOf (BitVec.toNat a) (TRIB_TPL_ROM 0 0) 4
      2048 = none)
    ∧ (∃ (s : State) (a : Word), s.sp.dormant = false ∧ s.running islEH = true ∧ s.unlocked = false ∧ BitVec.toNat a ≠ EVT_MGMT_UNLOCK)
    ∧ (∃ (s : State) (u : State), s.running islEH = true ∧ s.running islMX = true ∧ u = s.grant 7 EVT_MGMT_UNLOCK ∧ u.running islEH =
      true)
    ∧ (∃ (s : State), s.running islEH = true ∧ s.unlockState = 1)
    ∧ (∃ (s : State), s.running islEH = true ∧ s.unlockState = 3)
    ∧ (∃ (s : State), s.running islEH = true ∧ s.unlockState = 2)
    ∧ (∃ (s : State) (u : State) (a : Word), s.spiOn = true ∧ s.running islMX = true ∧ u = s.grant 7 (BitVec.toNat a) ∧ u.target
      (BitVec.toNat a) = 5 ∧ BitVec.toNat a % 4 = 0 ∧ (regRow (BitVec.toNat a)).isSome = true ∧ u.readable (u.regIsl (BitVec.toNat a)) =
      true ∧ u.latch 7 (BitVec.toNat a) = u)
    ∧ (∃ (s : State) (u : State) (d : BitVec 7) (a : Word), s.i2cOn d = true ∧ s.running islMX = true ∧ u = s.grant 7 (BitVec.toNat a) ∧
      u.target (BitVec.toNat a) = 5 ∧ BitVec.toNat a % 4 = 0 ∧ (regRow (BitVec.toNat a)).isSome = true ∧ u.readable (u.regIsl
      (BitVec.toNat a)) = true ∧ u.latch 7 (BitVec.toNat a) = u)
    ∧ (∃ (s : State) (u : State), s.spiOn = true ∧ s.running islMX = true ∧ s.unlocked = true ∧ u = s.grant 7 SUP_SCRATCH ∧ u.maintained =
      true ∧ u.running islSP = true)
    ∧ (∃ (s : State) (u : State) (d : BitVec 7), s.i2cOn d = true ∧ s.running islMX = true ∧ s.unlocked = true ∧ u = s.grant 7 SUP_SCRATCH
      ∧ u.maintained = true ∧ u.running islSP = true)
    ∧ (∃ (s : State) (d : BitVec 7), s.i2cOn d = false)
    ∧ (∃ (s : State) (op : Byte), s.spiOn = true ∧ op ≠ 2 ∧ op ≠ 3)
    ∧ (∃ (s : State), s.spiOn = true) :=
  ⟨⟨unlk 4, _, 0, 3, by decide +kernel, by decide +kernel, rfl, by decide +kernel⟩,
   ⟨unlk 4, _, 0, w32 SUP_SCRATCH, (regRow SUP_SCRATCH).get (by decide +kernel), by decide +kernel, by decide +kernel, rfl, by
    decide +kernel⟩,
   ⟨up 4, w32 SUP_SCRATCH, by decide +kernel⟩,
   ⟨(unlk 4).setFlag EVT_CFG EVT_CFG_I2C_EN true, _, by decide +kernel, by decide +kernel, rfl, by decide +kernel⟩,
   ⟨(up 4).setFld EVT_MGMT_UNLOCK EVT_MGMT_UNLOCK_STATE 1, by decide +kernel⟩,
   ⟨(up 4).setFld EVT_MGMT_UNLOCK EVT_MGMT_UNLOCK_STATE 3, by decide +kernel⟩,
   ⟨unlk 4, by decide +kernel⟩,
   ⟨(unlk 4).setFlag EVT_CFG EVT_CFG_I2C_EN true, _, w32 SUP_SCRATCH, by decide +kernel, by decide +kernel, rfl, by decide +kernel⟩,
   ⟨(unlk 4).setFlag EVT_CFG EVT_CFG_I2C_EN true, _, (unlk 4).i2cAddress, w32 SUP_SCRATCH, by decide +kernel, by decide +kernel, rfl, by
    decide +kernel⟩,
   ⟨(unlk 4).setFlag EVT_CFG EVT_CFG_I2C_EN true, _, by decide +kernel, by decide +kernel, by decide +kernel, rfl, by decide +kernel⟩,
   ⟨(unlk 4).setFlag EVT_CFG EVT_CFG_I2C_EN true, _, (unlk 4).i2cAddress, by decide +kernel, by decide +kernel, by decide +kernel, rfl, by
    decide +kernel⟩,
   ⟨unlk 4, 9, by decide +kernel⟩,
   ⟨unlk 4, 9, by decide +kernel⟩,
   ⟨unlk 4, by decide +kernel⟩⟩

theorem test_witness_EventsAreCountedQueuedAndWritten :
    (∃ (s : State) (i : Fin 24) (ev : Ev) (rest : List Ev), s.running islEH = true ∧ (↑i = islEH ∨ ↑i = islMX ∨ ↑i = islRT ∨ ↑i = islSP ∨
      s.running islMX = true) ∧ s.chan = ev :: rest ∧ ev.isl = ↑i ∧ ev.num ≠ 161 ∧ ev.num ≠ 40 ∧ s.mtx.fence = none ∧ (s.core 0).stall =
      none ∧ (s.core 1).stall = none ∧ s.wakeTask ev.num = none ∧ ev.num < 1152)
    ∧ (∃ (s : State) (n : ℕ) (kind : ℕ) (ev : Ev) (q : List Rec), s.running islEH = true ∧ s.sp.rtOpen = true ∧ s.eh.queue =
      { acc := some n, kind := kind, ev := ev } :: q ∧ s.flag EVT_STAT EVT_STAT_LOSING = false) :=
  ⟨
    ⟨{ up 4 with chan := [⟨0x100, 5, 77, [1]⟩], eh := { (up 4).eh with numbered := true, nextAcc := 9 }, sp := { (up 4).sp with rtOpen := true } },
    5, ⟨0x100, 5, 77, [1]⟩, [], by decide +kernel⟩,
   ⟨{ up 4 with eh := { (up 4).eh with queue := [⟨some 5, 2, ⟨0x100, 5, 77, [1,2]⟩⟩, ⟨some 6, 2, ⟨0x100, 5, 77, [1]⟩⟩] }, sp := { (up 4).sp with rtOpen := true } },
    5, 2, ⟨0x100, 5, 77, [1,2]⟩, [⟨some 6, 2, ⟨0x100, 5, 77, [1]⟩⟩], by decide +kernel⟩⟩

theorem test_witness_InventoryAndCheckUnits :
    (∃ (s : State) (v : State) (k : Fin 36) (mask : Word) (keep : Word), Safety.granted Writer.maintenance s v ∧ keep = if BitVec.getLsbD
      v.freeWord 0 = true then mask &&& v.freshPending ↑k else 0)
    ∧ (∃ (s : State) (v : State), v = s.settleRegs ∧ v.running islMX = true ∧ v.running islEH = true)
    ∧ (∃ (s : State), s.gathers = true ∧ s.flag INV_CFG INV_CFG_TICK_EN = true ∧ s.inv.running = none)
    ∧ (∃ (s : State) (v : State) (w : Writer) (token : Byte), Safety.granted w s v ∧ v.gathers = true ∧ v.fld INV_SNAPSHOT
      INV_SNAPSHOT_TOKEN ≠ BitVec.toNat token ∧ v.inv.running = none)
    ∧ (∃ (s : State), s.running islEH = true ∧ s.sp.powerFail = PowerFail.idle ∧ s.inv.running = some { command := false, token := 0 } ∧
      s.inv.held = none ∧ s.fld INV_STAT INV_STAT_ACTIVE ≤ 1)
    ∧ (∃ (s : State) (u : Fin 32), s.running islEH = true ∧ s.chkFld (↑u) CHK_ENTRY0_EN = 1 ∧ (u = 31 → s.inState [stLoading, stChecking]
      = false))
    ∧ (∃ (s : State) (v : State) (q : Fin 2) (u : Fin 32) (x : Word), Safety.granted (Writer.service q) s v ∧ v.running islEH = true ∧
      v.flag (CHK_ENTRY0 ↑u) CHK_ENTRY0_EN = false ∧ x ≠ v.reg (CHK_ENTRY0 ↑u + 4) ∧ checkEntryOk (v.reg (CHK_ENTRY0 ↑u)) [x, v.reg
      (CHK_ENTRY0 ↑u + 8), v.reg (CHK_ENTRY0 ↑u + 12), v.reg (CHK_ENTRY0 ↑u + 16)] = true)
    ∧ (∃ (s : State) (v : State) (q : Fin 2) (u : Fin 32) (x : Word), Safety.granted (Writer.service q) s v ∧ v.running islEH = true ∧
      v.flag (CHK_ENTRY0 ↑u) CHK_ENTRY0_EN = true ∧ x ≠ v.reg (CHK_ENTRY0 ↑u + 4)) :=
  ⟨⟨((unlk 4).setFlag MTX_REMAP MTX_REMAP_SWAP true).setFlag INV_CFG INV_CFG_TICK_EN true, _, 0, 3, _, ⟨rfl, by decide +kernel⟩, rfl⟩,
   ⟨(unlk 4).setReg (EVT_PEND 35) 0xFFFF, _, rfl, by decide +kernel⟩,
   ⟨((unlk 4).setFlag MTX_REMAP MTX_REMAP_SWAP true).setFlag INV_CFG INV_CFG_TICK_EN true, by decide +kernel⟩,
   ⟨(((unlk 4).setFlag MTX_REMAP MTX_REMAP_SWAP true).setFlag INV_CFG INV_CFG_TICK_EN true), _, .service 0, 3, ⟨rfl, by decide +kernel⟩,
    by decide +kernel⟩,
   ⟨{ (unlk 4).setFlag INV_STAT INV_STAT_GATHERING true with inv := { (up 4).inv with running := some ⟨false, 0⟩ } }, by decide +kernel⟩,
   ⟨(up 4).setFld (CHK_ENTRY0 4) CHK_ENTRY0_EN 1, 4, by decide +kernel⟩,
   ⟨((up 4).setFld (CHK_ENTRY0 4) CHK_ENTRY0_WIDTH 31), _, 1, 4, 5, ⟨rfl, by decide +kernel⟩, by decide +kernel⟩,
   ⟨(up 4).setFld (CHK_ENTRY0 4) CHK_ENTRY0_EN 1, _, 1, 4, 5, ⟨rfl, by decide +kernel⟩, by decide +kernel⟩⟩

theorem test_witness_RegisterAndImmediateArithmetic :
    (∃ (s : State) (q : Fin 2) (ga : Fin 32) (gb : Fin 32) (a : Word) (b : Word), s.mayExec ↑q = true ∧ a = (s.core ↑q).get ↑ga ∧ b =
      (s.core ↑q).get ↑gb)
    ∧ (∃ (s : State) (q : Fin 2) (ga : Fin 32) (a : Word), s.mayExec ↑q = true ∧ a = (s.core ↑q).get ↑ga)
    ∧ (∃ (s : State) (q : Fin 2) (ga : Fin 32) (imm : BitVec 16) (a : Word), s.mayExec ↑q = true ∧ a = (s.core ↑q).get ↑ga ∧ imm.toNat <
      32)
    ∧ (∃ (s : State) (q : Fin 2) (ga : Fin 32) (imm : BitVec 16) (a : Word), s.mayExec ↑q = true ∧ a = (s.core ↑q).get ↑ga ∧ 32 ≤
      imm.toNat ∧ imm.toNat < 64)
    ∧ (∃ (s : State) (q : Fin 2) (ga : Fin 32) (imm : BitVec 16) (a : Word), s.mayExec ↑q = true ∧ a = (s.core ↑q).get ↑ga ∧ 64 ≤
      imm.toNat ∧ imm.toNat < 96) :=
  ⟨⟨ran 0 3 [(1,5),(2,0x80000000)], 0, 1, 2, _, _, by decide +kernel, rfl, rfl⟩,
   ⟨ran 0 3 [(1,5),(2,0x80000000)], 0, 1, _, by decide +kernel, rfl⟩,
   ⟨ran 0 3 [(1,5),(2,0x80000000)], 0, 1, 5, _, by decide +kernel, rfl, by decide +kernel⟩,
   ⟨ran 1 3 [(1,5),(2,0)], 1, 1, 34, _, by decide +kernel, rfl, by decide +kernel⟩,
   ⟨ran 1 3 [(1,0x80000005),(2,0)], 1, 1, 95, _, by decide +kernel, rfl, by decide +kernel⟩⟩

theorem test_witness_BranchesAndJumps :
    (∃ (s : State) (q : Fin 2), s.mayExec ↑q = true) :=
  ⟨ran 0 3 [(1,5),(2,5)], 0, by decide +kernel⟩

theorem test_witness_LoadsAndStores :
    (∃ (s : State) (q : Fin 2) (ga : Fin 32) (imm : BitVec 16) (a : Word) (m : ℕ), s.mayExec ↑q = true ∧ s.running islMX = true ∧
      Safety.quietTarget 1 s ∧ a = (s.core ↑q).get ↑ga + BitVec.signExtend 32 imm ∧ s.target (BitVec.toNat a) = 1 ∧ m = 268435456 +
      BitVec.toNat a % 524288 ∧ BitVec.toNat a % 4 = 0)
    ∧ (∃ (s : State) (q : Fin 2) (ga : Fin 32) (imm : BitVec 16) (a : Word) (m : ℕ), s.mayExec ↑q = true ∧ s.running islMX = true ∧
      Safety.quietTarget 1 s ∧ a = (s.core ↑q).get ↑ga + BitVec.signExtend 32 imm ∧ s.target (BitVec.toNat a) = 1 ∧ m = 268435456 +
      BitVec.toNat a % 524288 ∧ BitVec.toNat a % 2 = 0)
    ∧ (∃ (s : State) (q : Fin 2) (ga : Fin 32) (imm : BitVec 16) (a : Word) (m : ℕ), s.mayExec ↑q = true ∧ s.running islMX = true ∧
      Safety.quietTarget 1 s ∧ a = (s.core ↑q).get ↑ga + BitVec.signExtend 32 imm ∧ s.target (BitVec.toNat a) = 1 ∧ m = 268435456 +
      BitVec.toNat a % 524288 ∧ BitVec.toNat a % 1 = 0)
    ∧ (∃ (s : State) (q : Fin 2) (ga : Fin 32) (imm : BitVec 16) (a : Word) (m : ℕ), s.mayExec ↑q = true ∧ s.running islMX = true ∧
      s.armed = true ∧ Safety.quietTarget 1 s ∧ a = (s.core ↑q).get ↑ga + BitVec.signExtend 32 imm ∧ s.target (BitVec.toNat a) = 1 ∧
      s.codeTop ≤ BitVec.toNat a % 524288 ∧ m = 268435456 + BitVec.toNat a % 524288 ∧ BitVec.toNat a % 4 = 0)
    ∧ (∃ (s : State) (q : Fin 2) (ga : Fin 32) (imm : BitVec 16) (a : Word) (m : ℕ), s.mayExec ↑q = true ∧ s.running islMX = true ∧
      s.armed = true ∧ Safety.quietTarget 1 s ∧ a = (s.core ↑q).get ↑ga + BitVec.signExtend 32 imm ∧ s.target (BitVec.toNat a) = 1 ∧
      s.codeTop ≤ BitVec.toNat a % 524288 ∧ m = 268435456 + BitVec.toNat a % 524288 ∧ BitVec.toNat a % 2 = 0)
    ∧ (∃ (s : State) (q : Fin 2) (ga : Fin 32) (imm : BitVec 16) (a : Word) (m : ℕ), s.mayExec ↑q = true ∧ s.running islMX = true ∧
      s.armed = true ∧ Safety.quietTarget 1 s ∧ a = (s.core ↑q).get ↑ga + BitVec.signExtend 32 imm ∧ s.target (BitVec.toNat a) = 1 ∧
      s.codeTop ≤ BitVec.toNat a % 524288 ∧ m = 268435456 + BitVec.toNat a % 524288 ∧ BitVec.toNat a % 1 = 0) :=
  ⟨⟨((ran 0 3 [(1,0x10000010),(2,5)]).setBytes 0x10000010 [0x81,0x92,0xA3,0xB4,5,6,7,8]).setFld SVC_MEM_CFG SVC_MEM_CFG_CODE_TOP 0, 0, 1,
    4, _, _, by decide +kernel, by decide +kernel, by decide +kernel, rfl, by decide +kernel, rfl, by decide +kernel⟩,
   ⟨((ran 0 3 [(1,0x10000010),(2,5)]).setBytes 0x10000010 [0x81,0x92,0xA3,0xB4,5,6,7,8]).setFld SVC_MEM_CFG SVC_MEM_CFG_CODE_TOP 0, 0, 1,
    4, _, _, by decide +kernel, by decide +kernel, by decide +kernel, rfl, by decide +kernel, rfl, by decide +kernel⟩,
   ⟨((ran 0 3 [(1,0x10000010),(2,5)]).setBytes 0x10000010 [0x81,0x92,0xA3,0xB4,5,6,7,8]).setFld SVC_MEM_CFG SVC_MEM_CFG_CODE_TOP 0, 0, 1,
    4, _, _, by decide +kernel, by decide +kernel, by decide +kernel, rfl, by decide +kernel, rfl, by decide +kernel⟩,
   ⟨((ran 0 3 [(1,0x10000010),(2,5)]).setBytes 0x10000010 [0x81,0x92,0xA3,0xB4,5,6,7,8]).setFld SVC_MEM_CFG SVC_MEM_CFG_CODE_TOP 0, 0, 1,
    4, _, _, by decide +kernel, by decide +kernel, by decide +kernel, by decide +kernel, rfl, by decide +kernel, by decide +kernel, rfl,
    by decide +kernel⟩,
   ⟨((ran 0 3 [(1,0x10000010),(2,5)]).setBytes 0x10000010 [0x81,0x92,0xA3,0xB4,5,6,7,8]).setFld SVC_MEM_CFG SVC_MEM_CFG_CODE_TOP 0, 0, 1,
    4, _, _, by decide +kernel, by decide +kernel, by decide +kernel, by decide +kernel, rfl, by decide +kernel, by decide +kernel, rfl,
    by decide +kernel⟩,
   ⟨((ran 0 3 [(1,0x10000010),(2,5)]).setBytes 0x10000010 [0x81,0x92,0xA3,0xB4,5,6,7,8]).setFld SVC_MEM_CFG SVC_MEM_CFG_CODE_TOP 0, 0, 1,
    4, _, _, by decide +kernel, by decide +kernel, by decide +kernel, by decide +kernel, rfl, by decide +kernel, by decide +kernel, rfl,
    by decide +kernel⟩⟩

theorem test_witness_AtomicsAndCodeRegion :
    (∃ (s : State) (q : Fin 2) (ga : Fin 32) (gb : Fin 32) (a : Word) (old : Word) (b : Word) (m : ℕ), s.mayExec ↑q = true ∧ s.running
      islMX = true ∧ s.armed = true ∧ Safety.quietTarget 1 s ∧ a = (s.core ↑q).get ↑ga ∧ s.target (BitVec.toNat a) = 1 ∧ BitVec.toNat a %
      4 = 0 ∧ s.codeTop ≤ BitVec.toNat a % 524288 ∧ m = 268435456 + BitVec.toNat a % 524288 ∧ old = BitVec.ofNat 32 (leNat (s.bytes m 4))
      ∧ b = (s.core ↑q).get ↑gb)
    ∧ (∃ (s : State) (q : Fin 2) (ga : Fin 32) (imm : BitVec 16) (a : Word) (T : ℕ), s.mayExec ↑q = true ∧ s.running islMX = true ∧
      s.armed = true ∧ Safety.quietTarget 1 s ∧ a = (s.core ↑q).get ↑ga + BitVec.signExtend 32 imm ∧ s.target (BitVec.toNat a) = 1 ∧
      BitVec.toNat a % 4 = 0 ∧ BitVec.toNat a % 524288 < s.codeTop ∧ (s.core ↑q).starting = false ∧ s.pairTask ↑q = T ∧ T < 256 ∧
      s.taskPending T = false ∧ Safety.noneWaits s) :=
  ⟨⟨((ran 0 3 [(1,0x10000010),(2,5)]).setBytes 0x10000010 [0x81,0x92,0xA3,0xB4,5,6,7,8]).setFld SVC_MEM_CFG SVC_MEM_CFG_CODE_TOP 0, 0, 1,
    2, _, _, _, _, by decide +kernel, by decide +kernel, by decide +kernel, by decide +kernel, rfl, by decide +kernel, by decide +kernel,
    by decide +kernel, rfl, rfl, rfl⟩,
   ⟨(ran 0 3 [(1,0x10000010),(2,5)]).setFld SVC_MEM_CFG SVC_MEM_CFG_CODE_TOP 1, 0, 1, 0xFFFC, _, 3, by decide +kernel, by decide +kernel,
    by decide +kernel, by decide +kernel, rfl, by decide +kernel⟩⟩

theorem test_witness_ExceptionsFencesAndRaise :
    (∃ (s : State) (q : Fin 2) (T : ℕ) (i : Instr), s.mayExec ↑q = true ∧ (s.core ↑q).starting = false ∧ s.pairTask ↑q = T ∧ T < 256 ∧
      s.taskPending T = false ∧ Safety.noneWaits s ∧ ((∃ (c : AbortCause) (a : Word), i = Instr.taskAbort q c a) ∨ (∃ (gd : Fin 32) (ga :
      Fin 32) (imm : BitVec 16), i = Instr.shi q gd ga imm ∧ 96 ≤ imm.toNat) ∨ (∃ (gd : Fin 32) (ga : Fin 32) (imm : BitVec 16), (i =
      Instr.lw q gd ga imm ∨ i = Instr.sw q gd ga imm) ∧ BitVec.toNat ((s.core ↑q).get ↑ga + BitVec.signExtend 32 imm) % 4 ≠ 0) ∨ (∃ (gd :
      Fin 32) (ga : Fin 32) (imm : BitVec 16), (i = Instr.lh q gd ga imm ∨ i = Instr.lhu q gd ga imm ∨ i = Instr.sh q gd ga imm) ∧
      BitVec.toNat ((s.core ↑q).get ↑ga + BitVec.signExtend 32 imm) % 2 ≠ 0) ∨ ∃ (gd : Fin 32) (ga : Fin 32) (gb : Fin 32), (i =
      Instr.amoSwap q gd ga gb ∨ i = Instr.amoAdd q gd ga gb ∨ i = Instr.amoAnd q gd ga gb ∨ i = Instr.amoOr q gd ga gb) ∧ (BitVec.toNat
      ((s.core ↑q).get ↑ga) % 4 ≠ 0 ∨ s.target (BitVec.toNat ((s.core ↑q).get ↑ga)) ≠ 1 ∧ Safety.quietTarget (s.target (BitVec.toNat
      ((s.core ↑q).get ↑ga))) s)))
    ∧ (∃ (s : State) (q : Fin 2) (T : ℕ) (i : Instr), s.mayExec ↑q = true ∧ (s.core ↑q).starting = false ∧ s.pairTask ↑q = T ∧ T < 256 ∧
      s.taskPending T = false ∧ Safety.noneWaits s ∧ ((∃ (c : AbortCause) (a : Word), i = Instr.taskAbort q c a) ∨ (∃ (gd : Fin 32) (ga :
      Fin 32) (imm : BitVec 16), i = Instr.shi q gd ga imm ∧ 96 ≤ imm.toNat) ∨ (∃ (gd : Fin 32) (ga : Fin 32) (imm : BitVec 16), (i =
      Instr.lw q gd ga imm ∨ i = Instr.sw q gd ga imm) ∧ BitVec.toNat ((s.core ↑q).get ↑ga + BitVec.signExtend 32 imm) % 4 ≠ 0) ∨ (∃ (gd :
      Fin 32) (ga : Fin 32) (imm : BitVec 16), (i = Instr.lh q gd ga imm ∨ i = Instr.lhu q gd ga imm ∨ i = Instr.sh q gd ga imm) ∧
      BitVec.toNat ((s.core ↑q).get ↑ga + BitVec.signExtend 32 imm) % 2 ≠ 0) ∨ ∃ (gd : Fin 32) (ga : Fin 32) (gb : Fin 32), (i =
      Instr.amoSwap q gd ga gb ∨ i = Instr.amoAdd q gd ga gb ∨ i = Instr.amoAnd q gd ga gb ∨ i = Instr.amoOr q gd ga gb) ∧ (BitVec.toNat
      ((s.core ↑q).get ↑ga) % 4 ≠ 0 ∨ s.target (BitVec.toNat ((s.core ↑q).get ↑ga)) ≠ 1 ∧ Safety.quietTarget (s.target (BitVec.toNat
      ((s.core ↑q).get ↑ga))) s)))
    ∧ (∃ (s : State) (q : Fin 2) (T : ℕ) (i : Instr), s.mayExec ↑q = true ∧ (s.core ↑q).starting = false ∧ s.pairTask ↑q = T ∧ T < 256 ∧
      s.taskPending T = false ∧ Safety.noneWaits s ∧ ((∃ (c : AbortCause) (a : Word), i = Instr.taskAbort q c a) ∨ (∃ (gd : Fin 32) (ga :
      Fin 32) (imm : BitVec 16), i = Instr.shi q gd ga imm ∧ 96 ≤ imm.toNat) ∨ (∃ (gd : Fin 32) (ga : Fin 32) (imm : BitVec 16), (i =
      Instr.lw q gd ga imm ∨ i = Instr.sw q gd ga imm) ∧ BitVec.toNat ((s.core ↑q).get ↑ga + BitVec.signExtend 32 imm) % 4 ≠ 0) ∨ (∃ (gd :
      Fin 32) (ga : Fin 32) (imm : BitVec 16), (i = Instr.lh q gd ga imm ∨ i = Instr.lhu q gd ga imm ∨ i = Instr.sh q gd ga imm) ∧
      BitVec.toNat ((s.core ↑q).get ↑ga + BitVec.signExtend 32 imm) % 2 ≠ 0) ∨ ∃ (gd : Fin 32) (ga : Fin 32) (gb : Fin 32), (i =
      Instr.amoSwap q gd ga gb ∨ i = Instr.amoAdd q gd ga gb ∨ i = Instr.amoAnd q gd ga gb ∨ i = Instr.amoOr q gd ga gb) ∧ (BitVec.toNat
      ((s.core ↑q).get ↑ga) % 4 ≠ 0 ∨ s.target (BitVec.toNat ((s.core ↑q).get ↑ga)) ≠ 1 ∧ Safety.quietTarget (s.target (BitVec.toNat
      ((s.core ↑q).get ↑ga))) s)))
    ∧ (∃ (s : State) (q : Fin 2) (T : ℕ) (i : Instr), s.mayExec ↑q = true ∧ (s.core ↑q).starting = false ∧ s.pairTask ↑q = T ∧ T < 256 ∧
      s.taskPending T = false ∧ Safety.noneWaits s ∧ ((∃ (c : AbortCause) (a : Word), i = Instr.taskAbort q c a) ∨ (∃ (gd : Fin 32) (ga :
      Fin 32) (imm : BitVec 16), i = Instr.shi q gd ga imm ∧ 96 ≤ imm.toNat) ∨ (∃ (gd : Fin 32) (ga : Fin 32) (imm : BitVec 16), (i =
      Instr.lw q gd ga imm ∨ i = Instr.sw q gd ga imm) ∧ BitVec.toNat ((s.core ↑q).get ↑ga + BitVec.signExtend 32 imm) % 4 ≠ 0) ∨ (∃ (gd :
      Fin 32) (ga : Fin 32) (imm : BitVec 16), (i = Instr.lh q gd ga imm ∨ i = Instr.lhu q gd ga imm ∨ i = Instr.sh q gd ga imm) ∧
      BitVec.toNat ((s.core ↑q).get ↑ga + BitVec.signExtend 32 imm) % 2 ≠ 0) ∨ ∃ (gd : Fin 32) (ga : Fin 32) (gb : Fin 32), (i =
      Instr.amoSwap q gd ga gb ∨ i = Instr.amoAdd q gd ga gb ∨ i = Instr.amoAnd q gd ga gb ∨ i = Instr.amoOr q gd ga gb) ∧ (BitVec.toNat
      ((s.core ↑q).get ↑ga) % 4 ≠ 0 ∨ s.target (BitVec.toNat ((s.core ↑q).get ↑ga)) ≠ 1 ∧ Safety.quietTarget (s.target (BitVec.toNat
      ((s.core ↑q).get ↑ga))) s)))
    ∧ (∃ (s : State) (q : Fin 2) (T : ℕ) (i : Instr), s.mayExec ↑q = true ∧ (s.core ↑q).starting = false ∧ s.pairTask ↑q = T ∧ T < 256 ∧
      s.taskPending T = false ∧ Safety.noneWaits s ∧ ((∃ (c : AbortCause) (a : Word), i = Instr.taskAbort q c a) ∨ (∃ (gd : Fin 32) (ga :
      Fin 32) (imm : BitVec 16), i = Instr.shi q gd ga imm ∧ 96 ≤ imm.toNat) ∨ (∃ (gd : Fin 32) (ga : Fin 32) (imm : BitVec 16), (i =
      Instr.lw q gd ga imm ∨ i = Instr.sw q gd ga imm) ∧ BitVec.toNat ((s.core ↑q).get ↑ga + BitVec.signExtend 32 imm) % 4 ≠ 0) ∨ (∃ (gd :
      Fin 32) (ga : Fin 32) (imm : BitVec 16), (i = Instr.lh q gd ga imm ∨ i = Instr.lhu q gd ga imm ∨ i = Instr.sh q gd ga imm) ∧
      BitVec.toNat ((s.core ↑q).get ↑ga + BitVec.signExtend 32 imm) % 2 ≠ 0) ∨ ∃ (gd : Fin 32) (ga : Fin 32) (gb : Fin 32), (i =
      Instr.amoSwap q gd ga gb ∨ i = Instr.amoAdd q gd ga gb ∨ i = Instr.amoAnd q gd ga gb ∨ i = Instr.amoOr q gd ga gb) ∧ (BitVec.toNat
      ((s.core ↑q).get ↑ga) % 4 ≠ 0 ∨ s.target (BitVec.toNat ((s.core ↑q).get ↑ga)) ≠ 1 ∧ Safety.quietTarget (s.target (BitVec.toNat
      ((s.core ↑q).get ↑ga))) s)))
    ∧ (∃ (s : State) (q : Fin 2) (T : ℕ) (i : Instr), s.mayExec ↑q = true ∧ (s.core ↑q).starting = false ∧ s.pairTask ↑q = T ∧ T < 256 ∧
      s.taskPending T = false ∧ Safety.noneWaits s ∧ ((∃ (c : AbortCause) (a : Word), i = Instr.taskAbort q c a) ∨ (∃ (gd : Fin 32) (ga :
      Fin 32) (imm : BitVec 16), i = Instr.shi q gd ga imm ∧ 96 ≤ imm.toNat) ∨ (∃ (gd : Fin 32) (ga : Fin 32) (imm : BitVec 16), (i =
      Instr.lw q gd ga imm ∨ i = Instr.sw q gd ga imm) ∧ BitVec.toNat ((s.core ↑q).get ↑ga + BitVec.signExtend 32 imm) % 4 ≠ 0) ∨ (∃ (gd :
      Fin 32) (ga : Fin 32) (imm : BitVec 16), (i = Instr.lh q gd ga imm ∨ i = Instr.lhu q gd ga imm ∨ i = Instr.sh q gd ga imm) ∧
      BitVec.toNat ((s.core ↑q).get ↑ga + BitVec.signExtend 32 imm) % 2 ≠ 0) ∨ ∃ (gd : Fin 32) (ga : Fin 32) (gb : Fin 32), (i =
      Instr.amoSwap q gd ga gb ∨ i = Instr.amoAdd q gd ga gb ∨ i = Instr.amoAnd q gd ga gb ∨ i = Instr.amoOr q gd ga gb) ∧ (BitVec.toNat
      ((s.core ↑q).get ↑ga) % 4 ≠ 0 ∨ s.target (BitVec.toNat ((s.core ↑q).get ↑ga)) ≠ 1 ∧ Safety.quietTarget (s.target (BitVec.toNat
      ((s.core ↑q).get ↑ga))) s)))
    ∧ (∃ (s : State) (q : Fin 2), s.mayExec ↑q = true ∧ Safety.noneWaits s ∧ s.portLive ↑q = false ∧ tget s.eh.raised 0 (islSV ↑q) ≤ tget
      s.eh.accepted 0 (islSV ↑q))
    ∧ (∃ (s : State) (q : Fin 2), s.mayExec ↑q = true ∧ s.mtx.fence = none)
    ∧ (∃ (s : State) (q : Fin 2) (f : Fence), s.mayExec ↑q = true ∧ s.mtx.fence = some f)
    ∧ (∃ (s : State) (q : Fin 2), s.mayExec ↑q = true) :=
  ⟨⟨ran 0 3 [(1,0x10000011),(2,5)], 0, 3, .lw 0 2 1 0, by decide +kernel, by decide +kernel, by decide +kernel, by decide +kernel, by
    decide +kernel, noneRan0, Or.inr (Or.inr (Or.inl ⟨_, _, _, Or.inl rfl, by decide +kernel⟩))⟩,
   ⟨ran 0 3 [(1,0x10000011),(2,5)], 0, 3, .sh 0 2 1 0, by decide +kernel, by decide +kernel, by decide +kernel, by decide +kernel, by
    decide +kernel, noneRan0, Or.inr (Or.inr (Or.inr (Or.inl ⟨_, _, _, Or.inr (Or.inr rfl), by decide +kernel⟩)))⟩,
   ⟨ran 0 3 [(1,0x10000011),(2,5)], 0, 3, .shi 0 2 1 97, by decide +kernel, by decide +kernel, by decide +kernel, by decide +kernel, by
    decide +kernel, noneRan0, Or.inr (Or.inl ⟨_, _, _, rfl, by decide +kernel⟩)⟩,
   ⟨ran 0 3 [(1,0x10000011),(2,5)], 0, 3, .amoAdd 0 2 1 2, by decide +kernel, by decide +kernel, by decide +kernel, by decide +kernel, by
    decide +kernel, noneRan0, Or.inr (Or.inr (Or.inr (Or.inr ⟨_, _, _, Or.inr (Or.inl rfl), Or.inl (by decide +kernel)⟩)))⟩,
   ⟨ran 1 3 [(1,0x40000010),(2,5)], 1, 3, .amoAdd 1 2 1 2, by decide +kernel, by decide +kernel, by decide +kernel, by decide +kernel, by
    decide +kernel, noneRan1, Or.inr (Or.inr (Or.inr (Or.inr ⟨_, _, _, Or.inr (Or.inl rfl), Or.inr (by decide +kernel)⟩)))⟩,
   ⟨(ran 1 3 [(1,0x40000010),(2,5)]).inMtx fun m => { m with fence := some ⟨4, 7, true, [], [], []⟩ }, 1, 3, .taskAbort 1 .illegal 0x100,
    by decide +kernel, by decide +kernel, by decide +kernel, by decide +kernel, by decide +kernel, noneRan1, Or.inl ⟨_, _, rfl⟩⟩,
   ⟨ran 0 3 [(1,0x10000011),(2,5)], 0, by decide +kernel⟩,
   ⟨ran 0 3 [(1,0x10000011),(2,5)], 0, by decide +kernel⟩,
   ⟨(ran 1 3 [(1,0x40000010),(2,5)]).inMtx fun m => { m with fence := some ⟨4, 7, true, [], [], []⟩ }, 1, ⟨4, 7, true, [], [], []⟩, by
    decide +kernel⟩,
   ⟨ran 0 3 [(1,0x10000011),(2,5)], 0, by decide +kernel⟩⟩

theorem test_witness_RunsWakesAndDispatch :
    (∃ (s : State) (q : Fin 2) (T : ℕ), s.mayExec ↑q = true ∧ (s.core ↑q).starting = false ∧ s.pairTask ↑q = T ∧ T < 256 ∧ s.taskPending T
      = false ∧ Safety.noneWaits s ∧ s.portLive ↑q = false ∧ tget s.eh.raised 0 (islSV ↑q) ≤ tget s.eh.accepted 0 (islSV ↑q))
    ∧ (∃ (s : State) (q : Fin 2) (T : ℕ), s.mayExec ↑q = true ∧ (s.core ↑q).starting = false ∧ s.pairTask ↑q = T ∧ T < 256 ∧ s.taskPending
      T = false ∧ Safety.noneWaits s ∧ s.portLive ↑q = false ∧ tget s.eh.raised 0 (islSV ↑q) ≤ tget s.eh.accepted 0 (islSV ↑q) ∧ s.taskReq
      T = true ∧ s.reported T = false ∧ s.flag SVC_SCHED_STAT SVC_SCHED_STAT_ALL_REQ_READY = true)
    ∧ (∃ (s : State) (q : Fin 2) (T : ℕ), s.mayExec ↑q = true ∧ (s.core ↑q).starting = false ∧ s.pairTask ↑q = T ∧ T < 256 ∧ s.taskPending
      T = false ∧ Safety.noneWaits s ∧ s.portLive ↑q = false ∧ tget s.eh.raised 0 (islSV ↑q) ≤ tget s.eh.accepted 0 (islSV ↑q) ∧ s.life =
      stArmed ∧ s.taskReq T = true ∧ s.reported T = false ∧ s.flag SVC_SCHED_STAT SVC_SCHED_STAT_ALL_REQ_READY = false ∧ ∀ u < 256, u ≠ T
      → s.taskState u = tkDisabled ∨ s.taskReq u = false ∨ s.reported u = true)
    ∧ (∃ (s : State) (q : Fin 2) (i : Instr), s.mayExec ↑q = true ∧ s.portLive ↑q = true ∧ (i = Instr.done q ∨ i = Instr.ready q ∨ i =
      Instr.fenceL q))
    ∧ (∃ (s : State) (u : Fin 256), s.schedRuns = true ∧ s.fld (SVC_TASK_W2 ↑u) SVC_TASK_W2_PERIOD ≠ 0 ∧ s.taskState ↑u = tkIdle ∧
      Safety.noneWaits s ∧ s.pairFree 0 = false ∧ s.pairFree 1 = false ∧ s.flag SVC_CFG SVC_CFG_PREEMPT_EN = false ∧ (s.pairsOf ↑u).any
      s.pairIn = true)
    ∧ (∃ (s : State) (u : Fin 256), s.fld (SVC_TASK_W2 ↑u) SVC_TASK_W2_PERIOD ≠ 0 ∧ s.taskState ↑u = tkIdle ∧ Safety.noneWaits s ∧
      s.pairFree 0 = true ∧ (s.pairsOf ↑u).contains 0 = true ∧ (s.task ↑u).saved = false)
    ∧ (∃ (s : State) (u : Fin 256), s.schedRuns = true ∧ s.fld (SVC_TASK_W2 ↑u) SVC_TASK_W2_PERIOD ≠ 0 ∧ s.taskState ↑u = tkRunning ∧
      s.taskPending ↑u = false ∧ Safety.noneWaits s) :=
  ⟨⟨ran 0 3 [(1,0x10000011),(2,5)], 0, 3, by decide +kernel⟩,
   ⟨((ran 1 3 [(1,0x10000011),(2,5)]).setFlag (SVC_TASK_W1 3) SVC_TASK_W1_REQUIRED true).setFlag SVC_SCHED_STAT
    SVC_SCHED_STAT_ALL_REQ_READY true, 1, 3, by decide +kernel⟩,
   ⟨((ran 1 3 [(1,0x10000011),(2,5)]).setFlag (SVC_TASK_W1 3) SVC_TASK_W1_REQUIRED true).setFld SUP_STATE SUP_STATE_STATE 3, 1, 3, by
    decide +kernel⟩,
   ⟨(ran 1 3 [(1,0x10000011),(2,5)]).inMtx fun m => { m with txns := [(32, txn 2 0 true 0x10000048 1 3)] }, 1, .done 1, by decide +kernel⟩,
   ⟨((tasked 5 1).setFld (SVC_TASK_W2 5) SVC_TASK_W2_PERIOD 9), 5, by decide +kernel⟩,
   ⟨((ran 1 3 []).setTaskState 5 1).setFld (SVC_TASK_W2 5) SVC_TASK_W2_PERIOD 9, 5, by decide +kernel⟩,
   ⟨((ran 1 3 []).setTaskState 5 1).setFld (SVC_TASK_W2 3) SVC_TASK_W2_PERIOD 9, 3, by decide +kernel⟩⟩

theorem test_witness_TaskCommands :
    (∃ (s : State) (v : State) (q : Fin 2) (u : Fin 256) (token : Byte), Safety.granted (Writer.service q) s v ∧ v.fld SVC_TASK_CMD
      SVC_TASK_CMD_TOKEN ≠ BitVec.toNat token ∧ Safety.othersIdle (↑u) v ∧ v.taskState ↑u = tkIdle ∧ v.pairFree 0 = false ∧ v.pairFree 1 =
      false ∧ v.flag SVC_CFG SVC_CFG_PREEMPT_EN = false ∧ (v.pairsOf ↑u).any v.pairIn = true)
    ∧ (∃ (s : State) (v : State) (q : Fin 2) (u : Fin 256) (token : Byte), Safety.granted (Writer.service q) s v ∧ v.fld SVC_TASK_CMD
      SVC_TASK_CMD_TOKEN ≠ BitVec.toNat token ∧ Safety.othersIdle (↑u) v ∧ v.taskState ↑u = tkReady)
    ∧ (∃ (s : State) (v : State) (q : Fin 2) (u : Fin 256) (token : Byte), Safety.granted (Writer.service q) s v ∧ v.fld SVC_TASK_CMD
      SVC_TASK_CMD_TOKEN ≠ BitVec.toNat token ∧ Safety.othersIdle (↑u) v ∧ u ≠ 0 ∧ v.taskState ↑u = tkDisabled)
    ∧ (∃ (s : State) (v : State) (q : Fin 2) (u : Fin 256) (token : Byte), Safety.granted (Writer.service q) s v ∧ v.fld SVC_TASK_CMD
      SVC_TASK_CMD_TOKEN ≠ BitVec.toNat token ∧ Safety.othersIdle (↑u) v ∧ u ≠ 0 ∧ v.taskState ↑u = tkReady)
    ∧ (∃ (s : State) (v : State) (q : Fin 2) (u : Fin 256) (token : Byte) (i : Instr), Safety.granted (Writer.service q) s v ∧ v.fld
      SVC_TASK_CMD SVC_TASK_CMD_TOKEN ≠ BitVec.toNat token ∧ u = 0 ∧ (i = Instr.taskEnable u (Writer.service q) token ∨ i =
      Instr.taskDisable u (Writer.service q) token false))
    ∧ (∃ (s : State) (v : State) (q : Fin 2) (u : Fin 256) (token : Byte) (i : Instr), Safety.granted (Writer.service q) s v ∧ v.fld
      SVC_TASK_CMD SVC_TASK_CMD_TOKEN ≠ BitVec.toNat token ∧ u = 0 ∧ (i = Instr.taskEnable u (Writer.service q) token ∨ i =
      Instr.taskDisable u (Writer.service q) token false))
    ∧ (∃ (s : State) (v : State) (q : Fin 2) (token : Byte), Safety.granted (Writer.service q) s v ∧ v.fld SVC_TASK_CMD SVC_TASK_CMD_TOKEN
      = BitVec.toNat token) :=
  ⟨⟨tasked 5 1, _, 0, 5, 9, ⟨rfl, by decide +kernel⟩, by decide +kernel⟩,
   ⟨tasked 5 2, _, 0, 5, 9, ⟨rfl, by decide +kernel⟩, by decide +kernel⟩,
   ⟨tasked 5 0, _, 0, 5, 9, ⟨rfl, by decide +kernel⟩, by decide +kernel⟩,
   ⟨tasked 5 2, _, 0, 5, 9, ⟨rfl, by decide +kernel⟩, by decide +kernel⟩,
   ⟨tasked 5 0, _, 0, _, 9, .taskEnable 0 (.service 0) 9, ⟨rfl, by decide +kernel⟩, by decide +kernel, rfl, by decide +kernel⟩,
   ⟨tasked 5 0, _, 1, _, 9, .taskDisable 0 (.service 1) 9 false, ⟨rfl, by decide +kernel⟩, by decide +kernel, rfl, by decide +kernel⟩,
   ⟨tasked 5 0, _, 0, 0, ⟨rfl, by decide +kernel⟩, by decide +kernel⟩⟩

theorem test_witness_LossOfSignalAndErrorRates :
    (∃ (s : State) (n : Fin 8) (i : Instr) (k : List ℕ), s.lineUp ↑n = true ∧ Safety.alone s ∧ s.fld (LINE_FRM_STAT ↑n)
      LINE_FRM_STAT_STATE = frInFrame ∧ s.lstat (↑n) LINE_STAT_LOS = false ∧ s.lstat (↑n) LINE_STAT_OOF = false ∧ s.lstat (↑n)
      LINE_STAT_HOLDOFF = false ∧ s.lstat (↑n) LINE_STAT_TSF = false ∧ s.lstat (↑n) LINE_STAT_SD = false ∧ s.lstat (↑n) LINE_STAT_TSD =
      false ∧ (i = Instr.losBallChange n true ∧ k = [25] ∧ s.fld (LINE_CFG ↑n) LINE_CFG_LOS_SRC ≠ 1 ∨ i = Instr.electricalLos n true ∧ k =
      [] ∧ s.fld (LINE_CFG ↑n) LINE_CFG_LOS_SRC ≠ 0 ∨ i = Instr.modAbsChange n true ∧ k = [24]))
    ∧ (∃ (s : State) (n : Fin 8), s.lineUp ↑n = true ∧ Safety.alone s ∧ s.fld (LINE_FRM_STAT ↑n) LINE_FRM_STAT_STATE = frSearch ∧ s.lstat
      (↑n) LINE_STAT_LOS = false ∧ s.lstat (↑n) LINE_STAT_OOF = false ∧ s.lstat (↑n) LINE_STAT_HOLDOFF = false)
    ∧ (∃ (s : State) (n : Fin 8), s.lineUp ↑n = true ∧ Safety.alone s ∧ s.lstat (↑n) LINE_STAT_HOLDOFF = true ∧ s.lstat (↑n) LINE_STAT_LOS
      = true ∧ s.lstat (↑n) LINE_STAT_TSF = false ∧ s.lstat (↑n) LINE_STAT_SD = false ∧ s.lstat (↑n) LINE_STAT_TSD = false)
    ∧ (∃ (s : State) (n : Fin 8), s.running (islLP ↑n) = true ∧ s.sp.modAbs.getLsbD ↑n = false)
    ∧ (∃ (s : State) (n : Fin 8), s.lineUp ↑n = true ∧ Safety.alone s) :=
  ⟨⟨lined 3 frInFrame, 3, .losBallChange 3 true, [0x19], by decide +kernel⟩,
   ⟨lined 3 frSearch, 3, by decide +kernel⟩,
   ⟨(((lined 3 frDark).setFlag (LINE_STAT 3) LINE_STAT_HOLDOFF true).setFlag (LINE_STAT 3) LINE_STAT_LOS true), 3, by decide +kernel⟩,
   ⟨lined 3 frInFrame, 3, by decide +kernel⟩,
   ⟨lined 3 frInFrame, 3, by decide +kernel⟩⟩

theorem test_witness_FramingAndLockOfTheReceiver :
    (∃ (s : State) (n : Fin 8), s.running (islLP ↑n) = true ∧ s.fld (LINE_FRM_STAT ↑n) LINE_FRM_STAT_STATE = frDark ∧ s.lstat (↑n)
      LINE_STAT_LOS = false ∧ s.lstat (↑n) LINE_STAT_OOF = false)
    ∧ (∃ (s : State) (n : Fin 8), s.lineUp ↑n = true ∧ s.lstat (↑n) LINE_STAT_CDR_LOCK = true)
    ∧ (∃ (s : State) (n : Fin 8) (f : LineFrame) (r : RxFrame), s.lineUp ↑n = true ∧ Safety.alone s ∧ r = s.lineRx (↑n) f.bytes)
    ∧ (∃ (s : State) (n : Fin 8) (f : LineFrame) (r : RxFrame), s.lineUp ↑n = true ∧ Safety.alone s ∧ r = s.lineRx (↑n) f.bytes) :=
  ⟨⟨((lined 2 frDark).setFlag (LINE_STAT 2) LINE_STAT_CDR_LOCK false), 2, by decide +kernel⟩,
   ⟨lined 2 frSearch, 2, by decide +kernel⟩,
   ⟨lined 2 frInFrame, 2, ⟨List.replicate 2430 0, none⟩, _, by decide +kernel, by decide +kernel, rfl⟩,
   ⟨lined 2 frSearch, 2, ⟨List.replicate 2430 0, some (5, List.replicate 2430 1)⟩, _, by decide +kernel, by decide +kernel, rfl⟩⟩

theorem test_witness_LaserShutdown :
    (∃ (s : State) (n : Fin 8), s.lineUp ↑n = true ∧ s.flag (LINE_CFG ↑n) LINE_CFG_ALS_EN = true ∧ s.lstat (↑n) LINE_STAT_LOS = true ∧
      s.als ↑n = alsOn)
    ∧ (∃ (s : State) (n : Fin 8), s.lineUp ↑n = true ∧ s.als ↑n = alsOff)
    ∧ (∃ (s : State) (n : Fin 8), s.lineUp ↑n = true ∧ s.lstat (↑n) LINE_STAT_LOS = true ∧ (s.als ↑n = alsRestart ∨ s.als ↑n = alsManual))
    ∧ (∃ (s : State) (n : Fin 8), s.lineUp ↑n = true ∧ s.lstat (↑n) LINE_STAT_LOS = false ∧ s.als ↑n ≠ alsOn)
    ∧ (∃ (s : State) (v : State) (n : Fin 8) (q : Fin 2) (token : Byte) (i : Instr) (cmd : ℕ), Safety.granted (Writer.service q) s v ∧
      v.lineUp ↑n = true ∧ v.fld (LINE_ALS_CMD ↑n) LINE_ALS_CMD_TOKEN ≠ BitVec.toNat token ∧ (i = Instr.alsManualRestart n (Writer.service
      q) token ∧ cmd = 1 ∨ i = Instr.alsManualTest n (Writer.service q) token ∧ cmd = 2))
    ∧ (∃ (s : State), s.sp.powered = true) :=
  ⟨⟨((lined 4 frDark).setFlag (LINE_STAT 4) LINE_STAT_LOS true).setFlag (LINE_CFG 4) LINE_CFG_ALS_EN true, 4, by decide +kernel⟩,
   ⟨((lined 4 frDark).setFlag (LINE_STAT 4) LINE_STAT_LOS true).setFld (LINE_FRM_STAT 4) LINE_FRM_STAT_ALS 1, 4, by decide +kernel⟩,
   ⟨((lined 4 frDark).setFlag (LINE_STAT 4) LINE_STAT_LOS true).setFld (LINE_FRM_STAT 4) LINE_FRM_STAT_ALS 2, 4, by decide +kernel⟩,
   ⟨((lined 4 frDark).setFlag (LINE_STAT 4) LINE_STAT_LOS false).setFld (LINE_FRM_STAT 4) LINE_FRM_STAT_ALS 3, 4, by decide +kernel⟩,
   ⟨((lined 4 frDark).setFlag (LINE_STAT 4) LINE_STAT_LOS true).setFlag (LINE_CFG 4) LINE_CFG_ALS_EN true, _, 4, 0, 6, .alsManualRestart 4
    (.service 0) 6, 1, ⟨rfl, by decide +kernel⟩, by decide +kernel⟩,
   ⟨((lined 4 frDark).setFlag (LINE_STAT 4) LINE_STAT_LOS true).setFlag (LINE_CFG 4) LINE_CFG_ALS_EN true, by decide +kernel⟩⟩

theorem test_witness_LinePortsEnableDisableAndK :
    (∃ (s : State) (v : State) (n : Fin 8) (q : Fin 2), Safety.granted (Writer.service q) s v ∧ v.running (islLP ↑n) = true ∧ v.flag
      (LINE_CFG ↑n) LINE_CFG_EN = false ∧ Safety.alone v ∧ v.lstat (↑n) LINE_STAT_LOS_PIN = false ∧ (v.line ↑n).elec = false ∧ v.lstat
      (↑n) LINE_STAT_MOD_ABS = false)
    ∧ (∃ (s : State) (v : State) (n : Fin 8) (q : Fin 2), Safety.granted (Writer.service q) s v ∧ v.running (islLP ↑n) = true ∧ v.flag
      (LINE_CFG ↑n) LINE_CFG_EN = true ∧ Safety.alone v)
    ∧ (∃ (s : State) (v : State) (n : Fin 8), Safety.granted Writer.maintenance s v ∧ v.running (islLP ↑n) = true)
    ∧ (∃ (s : State) (v : State) (n : Fin 8) (q : Fin 2), Safety.granted (Writer.service q) s v ∧ v.running (islLP ↑n) = true) :=
  ⟨⟨(lined 5 frDisabled).setFlag (LINE_CFG 5) LINE_CFG_EN false, _, 5, 1, ⟨rfl, by decide +kernel⟩, by decide +kernel⟩,
   ⟨(lined 5 frInFrame), _, 5, 1, ⟨rfl, by decide +kernel⟩, by decide +kernel⟩,
   ⟨(lined 5 frInFrame).setFld EVT_MGMT_UNLOCK EVT_MGMT_UNLOCK_STATE 2, _, 5, ⟨rfl, by decide +kernel⟩, by decide +kernel⟩,
   ⟨(lined 5 frDisabled).setFlag (LINE_CFG 5) LINE_CFG_EN false, _, 5, 1, ⟨rfl, by decide +kernel⟩, by decide +kernel⟩⟩

theorem test_witness_LinearProtection :
    (∃ (s : State) (v : State) (g : Fin 4) (q : Fin 2) (ch : Fin 8) (token : Byte) (i : Instr) (cmd : ℕ) (chan : ℕ) (res : ℕ) (req : ℕ)
      (sel : ℕ), Safety.granted (Writer.service q) s v ∧ v.running islPX = true ∧ v.flag (APS_CFG ↑g) APS_CFG_EN = true ∧ v.flag (APS_CFG
      ↑g) APS_CFG_BIDIR = false ∧ v.paired = false ∧ v.fld (APS_CMD ↑g) APS_CMD_TOKEN ≠ BitVec.toNat token ∧ v.fld (APS_CMD ↑g)
      APS_CMD_RESULT ≠ 1 ∧ (v.grp ↑g).counted = [] ∧ (v.grp ↑g).wtr = none ∧ (v.grp ↑g).dnr = none ∧ (v.grp ↑g).best = (24, 0) ∧ (∀ n ∈
      v.grpPorts ↑g, v.flag (LINE_STAT n) LINE_STAT_TSF = false ∧ v.flag (LINE_STAT n) LINE_STAT_TSD = false) ∧ 1 ≤ ↑ch ∧ ↑ch <
      (v.grpPorts ↑g).length ∧ (i = Instr.apsClear g (Writer.service q) token ∧ cmd = 0 ∧ chan = 0 ∧ res = 2 ∧ req = 0 ∧ sel = 0 ∨ i =
      Instr.apsLockout g (Writer.service q) token ∧ cmd = 1 ∧ chan = 0 ∧ res = 1 ∧ req = 15 ∧ sel = 0 ∨ i = Instr.apsForcedSwitch g ch
      (Writer.service q) token ∧ cmd = 2 ∧ chan = ↑ch ∧ res = 1 ∧ req = 14 ∧ sel = ↑ch ∨ i = Instr.apsManualSwitch g ch (Writer.service q)
      token ∧ cmd = 3 ∧ chan = ↑ch ∧ res = 1 ∧ req = 8 ∧ sel = ↑ch ∨ i = Instr.apsExercise g ch (Writer.service q) token ∧ cmd = 4 ∧ chan
      = ↑ch ∧ res = 1 ∧ req = 4 ∧ sel = 0))
    ∧ (∃ (s : State) (v : State) (g : Fin 4) (q : Fin 2) (ch : Fin 8) (token : Byte), Safety.granted (Writer.service q) s v ∧ v.running
      islPX = true ∧ v.fld (APS_CMD ↑g) APS_CMD_TOKEN ≠ BitVec.toNat token ∧ (v.flag (APS_CFG ↑g) APS_CFG_EN = false ∨ ch = 0 ∨
      (v.grpPorts ↑g).length ≤ ↑ch))
    ∧ (∃ (s : State) (g : Fin 4) (ch : Fin 8), s.running islPX = true ∧ s.inState [stArmed, stServing, stLimp] = true ∧ s.paired = false ∧
      s.flag (APS_CFG ↑g) APS_CFG_EN = true ∧ s.flag (APS_CFG ↑g) APS_CFG_BIDIR = false ∧ s.fld (APS_CMD ↑g) APS_CMD_RESULT ≠ 1 ∧ (s.grp
      ↑g).counted = [] ∧ (s.grp ↑g).dnr = none ∧ (s.grp ↑g).best = (24, 0) ∧ 1 ≤ ↑ch ∧ ↑ch < (s.grpPorts ↑g).length ∧ s.flag (LINE_STAT
      ((s.grpPorts ↑g).getD (↑ch) 0)) LINE_STAT_TSF = true ∧ ∀ k < (s.grpPorts ↑g).length, k ≠ ↑ch → s.flag (LINE_STAT ((s.grpPorts
      ↑g).getD k 0)) LINE_STAT_TSF = false)
    ∧ (∃ (s : State) (g : Fin 4) (c : ℕ) (e : ℕ), s.running islPX = true ∧ s.inState [stArmed, stServing, stLimp] = true ∧ s.paired =
      false ∧ s.flag (APS_CFG ↑g) APS_CFG_EN = true ∧ s.flag (APS_CFG ↑g) APS_CFG_BIDIR = false ∧ s.fld (APS_CMD ↑g) APS_CMD_RESULT ≠ 1 ∧
      (s.grp ↑g).counted = [] ∧ (s.grp ↑g).dnr = none ∧ (s.grp ↑g).best = (24, 0) ∧ (s.grp ↑g).wtr = some (c, e) ∧ ∀ n ∈ s.grpPorts ↑g,
      s.flag (LINE_STAT n) LINE_STAT_TSF = false ∧ s.flag (LINE_STAT n) LINE_STAT_TSD = false)
    ∧ (∃ (s : State) (g : Fin 4) (present : Bool), s.sp.dormant = false ∧ s.flag (APS_CFG ↑g) APS_CFG_EN = true ∧ s.flag (APS_STAT ↑g)
      APS_STAT_DFOP = !present ∧ s.computesOnly = false) :=
  ⟨⟨grouped, _, 1, 0, 1, 4, .apsClear 1 (.service 0) 4, 0, 0, 2, 0, 0, ⟨rfl, by decide +kernel⟩, by decide +kernel⟩,
   ⟨grouped, _, 1, 0, 0, 4, ⟨rfl, by decide +kernel⟩, by decide +kernel⟩,
   ⟨grouped.setFlag (LINE_STAT 3) LINE_STAT_TSF true, 1, 1, by decide +kernel⟩,
   ⟨(grouped.setFlag (APS_STAT 1) APS_STAT_WTR true).setGrp 1 { Grp.init with best := (24, 0), wtr := some (1, 0) }, 1, 1, 0, by
    decide +kernel⟩,
   ⟨grouped, 1, true, by decide +kernel⟩⟩

theorem test_witness_PathPointersAndSeconds :
    (∃ (s : State) (p : PathId) (r : PtrReading) (u : PtrReading), s.running islPX = true ∧ s.pathExists p = true ∧ u = s.arriving p r)
    ∧ (∃ (s : State) (p : PathId), s.running islPX = true ∧ s.pathExists p = true ∧ Safety.feedOk s (s.pathEp p) ∧ s.sendsAis p = true)
    ∧ (∃ (s : State) (p : PathId), s.running islPX = true ∧ s.pathExists p = true ∧ Safety.feedOk s (s.pathEp p) ∧ s.sendsAis p = true)
    ∧ (∃ (s : State) (p : PathId) (fill : ℕ) (d : ℕ) (c : ℕ) (lo : ℕ) (hi : ℕ), s.running islPX = true ∧ s.pathExists p = true ∧
      Safety.feedOk s (s.pathEp p) ∧ s.sendsAis p = false ∧ s.storeSize p = (d, c, lo, hi) ∧ (fill = 0 ∨ d < fill))
    ∧ (∃ (s : State) (p : PathId) (fill : ℕ) (d : ℕ) (c : ℕ) (lo : ℕ) (hi : ℕ), s.running islPX = true ∧ s.pathExists p = true ∧
      Safety.feedOk s (s.pathEp p) ∧ s.sendsAis p = false ∧ s.storeSize p = (d, c, lo, hi) ∧ 1 ≤ fill ∧ fill ≤ d ∧ (s.path p).txGap = 4 ∧
      (s.path p).ndfPending = false)
    ∧ (∃ (s : State) (p : PathId) (fill : ℕ) (d : ℕ) (c : ℕ) (lo : ℕ) (hi : ℕ), s.running islPX = true ∧ s.pathExists p = true ∧
      Safety.feedOk s (s.pathEp p) ∧ s.sendsAis p = false ∧ s.storeSize p = (d, c, lo, hi) ∧ 1 ≤ fill ∧ fill ≤ d ∧ (s.path p).txGap < 4)
    ∧ (∃ (s : State) (h : Fin 192), s.fld (PATH_SLOT_CFG (↑h / 3)) PATH_SLOT_CFG_STRUCT = 0)
    ∧ (∃ (s : State) (l : Fin 5376), s.loTu3 ↑l = false)
    ∧ (∃ (s : State) (p : PathId), s.running islPX = true ∧ s.pathExists p = true) :=
  ⟨⟨(joined 0).inPath (.ho 0) (fun x => { x with started := true }), .ho 0, reading 0x60A4 (List.replicate 2349 0), _, by decide +kernel,
    by decide +kernel, rfl⟩,
   ⟨(selecting 5).setFlag (PATH_HO1 3) PATH_HO1_TSF_N true, .ho 0, by decide +kernel⟩,
   ⟨(selecting 5).setFlag (PATH_HO1 0) PATH_HO1_TSF_N true, .ho 3, by decide +kernel⟩,
   ⟨((joined 0).setPtrRx (.ho 0) 100).inPath (.ho 0) fun x => { x with started := true }, .ho 0, 0, 48, 24, 12, 36, by decide +kernel⟩,
   ⟨(joined 0).inPath (.ho 0) fun x => { x with started := true }, .ho 0, 20, 48, 24, 12, 36, by decide +kernel⟩,
   ⟨(((joined 0).setPtrRx (.ho 0) 100).setFld (PATH_HO1 0) PATH_HO1_PTR_STATE 2).inPath (.ho 0) fun x =>
    { x with started := true, sameRun := 2, sameVal := 100, txGap := 2 }, .ho 0, 1, 48, 24, 12, 36, by decide +kernel⟩,
   ⟨(joined 0).inPath (.ho 0) fun x => { x with started := true }, 0, by decide +kernel⟩,
   ⟨(joined 0).inPath (.ho 0) fun x => { x with started := true }, 0, by decide +kernel⟩,
   ⟨(selecting 5).setFlag (PATH_HO1 3) PATH_HO1_TSF_N true, .ho 0, by decide +kernel⟩⟩

theorem test_witness_IndexEntries :
    (∃ (s : State) (v : State) (q : Fin 2) (k : Fin 4), Safety.granted (Writer.service q) s v ∧ v.running islPX = true ∧ ↑k < 3)
    ∧ (∃ (s : State) (v : State) (u : State) (e : Fin 4096) (q : Fin 2) (x : Word), Safety.granted (Writer.service q) s v ∧ v.running
      islPX = true ∧ u = v.serviceWrite (IDX_ENTRY_W3 ↑e) word3Mask x ∧ IDX_ENTRY_W3_CMD.get x < 5 ∧ (v.flag (IDX_ENTRY_W3 ↑e)
      IDX_ENTRY_W3_VALID = false ∨ IDX_ENTRY_W3_VALID.get x = 0 ∨ v.idx (↑e) IDX_STATUS_CHECK_FAIL = true ∨ v.sncpFits (↑e)
      (IDX_ENTRY_W3_SNCP.get x) = true))
    ∧ (∃ (s : State) (v : State) (u : State) (e : Fin 4096) (q : Fin 2) (x : Word), Safety.granted (Writer.service q) s v ∧ v.running
      islPX = true ∧ u = v.serviceWrite (IDX_ENTRY_W3 ↑e) word3Mask x ∧ IDX_ENTRY_W3_CMD.get x < 5 ∧ (v.flag (IDX_ENTRY_W3 ↑e)
      IDX_ENTRY_W3_VALID = false ∨ IDX_ENTRY_W3_VALID.get x = 0 ∨ v.idx (↑e) IDX_STATUS_CHECK_FAIL = true ∨ v.sncpFits (↑e)
      (IDX_ENTRY_W3_SNCP.get x) = true))
    ∧ (∃ (s : State) (v : State) (e : Fin 4096) (q : Fin 2) (x : Word), Safety.granted (Writer.service q) s v ∧ v.running islPX = true ∧
      v.flag (IDX_ENTRY_W3 ↑e) IDX_ENTRY_W3_VALID = true ∧ IDX_ENTRY_W3_VALID.get x = 1 ∧ v.idx (↑e) IDX_STATUS_CHECK_FAIL = false ∧
      v.sncpFits (↑e) (IDX_ENTRY_W3_SNCP.get x) = false)
    ∧ (∃ (s : State), s.running islPX = true) :=
  ⟨⟨selecting 5, _, 0, 0, ⟨rfl, by decide +kernel⟩, by decide +kernel⟩,
   ⟨joined 0, _, _, 7, 1, checked 1, ⟨rfl, by decide +kernel⟩, by decide +kernel, rfl, by decide +kernel⟩,
   ⟨selecting 5, _, _, 7, 0, 0, ⟨rfl, by decide +kernel⟩, by decide +kernel, rfl, by decide +kernel⟩,
   ⟨joined (checked 1), _, 7, 1, checked 7, ⟨rfl, by decide +kernel⟩, by decide +kernel⟩,
   ⟨joined 0, by decide +kernel⟩⟩

theorem test_witness_SncpSelectors :
    (∃ (s : State) (v : State) (e : Fin 4096) (q : Fin 2) (i : Instr) (c : ℕ), Safety.granted (Writer.service q) s v ∧ v.running islPX =
      true ∧ (i = Instr.sncpLockout e (Writer.service q) ∧ c = 1 ∨ i = Instr.sncpForcedSwitch e (Writer.service q) ∧ c = 2 ∨ i =
      Instr.sncpManualToProtecting e (Writer.service q) ∧ c = 3 ∨ i = Instr.sncpManualToA e (Writer.service q) ∧ c = 4) ∧ (v.flag
      (IDX_ENTRY_W3 ↑e) IDX_ENTRY_W3_VALID = false ∨ v.idx (↑e) IDX_STATUS_CHECK_FAIL = true ∨ v.sncpFits (↑e) (v.entrySncp ↑e) = true))
    ∧ (∃ (s : State) (v : State) (e : Fin 4096) (q : Fin 2) (i : Instr) (c : ℕ), Safety.granted (Writer.service q) s v ∧ v.running islPX =
      true ∧ (i = Instr.sncpLockout e (Writer.service q) ∧ c = 1 ∨ i = Instr.sncpForcedSwitch e (Writer.service q) ∧ c = 2 ∨ i =
      Instr.sncpManualToProtecting e (Writer.service q) ∧ c = 3 ∨ i = Instr.sncpManualToA e (Writer.service q) ∧ c = 4) ∧ (v.flag
      (IDX_ENTRY_W3 ↑e) IDX_ENTRY_W3_VALID = false ∨ v.idx (↑e) IDX_STATUS_CHECK_FAIL = true ∨ v.sncpFits (↑e) (v.entrySncp ↑e) = true))
    ∧ (∃ (s : State) (v : State) (e : Fin 4096) (q : Fin 2) (i : Instr) (c : ℕ), Safety.granted (Writer.service q) s v ∧ v.running islPX =
      true ∧ (i = Instr.sncpLockout e (Writer.service q) ∧ c = 1 ∨ i = Instr.sncpForcedSwitch e (Writer.service q) ∧ c = 2 ∨ i =
      Instr.sncpManualToProtecting e (Writer.service q) ∧ c = 3 ∨ i = Instr.sncpManualToA e (Writer.service q) ∧ c = 4) ∧ (v.flag
      (IDX_ENTRY_W3 ↑e) IDX_ENTRY_W3_VALID = false ∨ v.idx (↑e) IDX_STATUS_CHECK_FAIL = true ∨ v.sncpFits (↑e) (v.entrySncp ↑e) = true))
    ∧ (∃ (s : State) (v : State) (e : Fin 4096) (q : Fin 2) (i : Instr) (c : ℕ), Safety.granted (Writer.service q) s v ∧ v.running islPX =
      true ∧ (i = Instr.sncpLockout e (Writer.service q) ∧ c = 1 ∨ i = Instr.sncpForcedSwitch e (Writer.service q) ∧ c = 2 ∨ i =
      Instr.sncpManualToProtecting e (Writer.service q) ∧ c = 3 ∨ i = Instr.sncpManualToA e (Writer.service q) ∧ c = 4) ∧ (v.flag
      (IDX_ENTRY_W3 ↑e) IDX_ENTRY_W3_VALID = false ∨ v.idx (↑e) IDX_STATUS_CHECK_FAIL = true ∨ v.sncpFits (↑e) (v.entrySncp ↑e) = true))
    ∧ (∃ (s : State) (e : Fin 4096), s.hasSelector ↑e = true ∧ s.entryOk ↑e = true ∧ s.computesOnly = false ∧ s.fld (IDX_ENTRY_W3 ↑e)
      IDX_ENTRY_W3_CMD = 0 ∧ s.fld IDX_SNCP_CFG IDX_SNCP_CFG_HOLDOFF = 0 ∧ s.rawCond (↑e) SncpCond.sfA = true ∧ s.rawCond (↑e)
      SncpCond.sfAp = false ∧ s.idx (↑e) IDX_STATUS_SEL = false)
    ∧ (∃ (s : State) (e : Fin 4096), s.hasSelector ↑e = true ∧ s.entryOk ↑e = true ∧ s.computesOnly = false ∧ s.fld (IDX_ENTRY_W3 ↑e)
      IDX_ENTRY_W3_CMD = 0 ∧ s.flag (IDX_ENTRY_W3 ↑e) IDX_ENTRY_W3_REVERT = true ∧ s.idx (↑e) IDX_STATUS_SEL = true ∧ s.idx (↑e)
      IDX_STATUS_SF_A = true ∧ ∀ (c : SncpCond), s.rawCond (↑e) c = false)
    ∧ (∃ (s : State) (e : Fin 4096) (c : SncpCond), s.hasSelector ↑e = true ∧ s.entryOk ↑e = true ∧ s.rawCond (↑e) c = true)
    ∧ (∃ (s : State) (e : Fin 4096), s.hasSelector ↑e = true ∧ s.entryOk ↑e = true ∧ s.computesOnly = false ∧ tget s.wtrs 0 ↑e ≠ 0 ∧ s.fld
      (IDX_ENTRY_W3 ↑e) IDX_ENTRY_W3_CMD = 0 ∧ s.flag (IDX_ENTRY_W3 ↑e) IDX_ENTRY_W3_REVERT = true ∧ s.idx (↑e) IDX_STATUS_SF_A = false ∧
      s.idx (↑e) IDX_STATUS_SD_A = false ∧ s.idx (↑e) IDX_STATUS_SF_AP = false ∧ s.idx (↑e) IDX_STATUS_SD_AP = false) :=
  ⟨⟨selecting 5, _, 7, 0, .sncpLockout 7 (.service 0), 1, ⟨rfl, by decide +kernel⟩, by decide +kernel⟩,
   ⟨selecting 5, _, 7, 1, .sncpForcedSwitch 7 (.service 1), 2, ⟨rfl, by decide +kernel⟩, by decide +kernel⟩,
   ⟨selecting 13, _, 7, 0, .sncpManualToProtecting 7 (.service 0), 3, ⟨rfl, by decide +kernel⟩, by decide +kernel⟩,
   ⟨selecting 13, _, 7, 0, .sncpManualToA 7 (.service 0), 4, ⟨rfl, by decide +kernel⟩, by decide +kernel⟩,
   ⟨((selecting 5).setFlag (PATH_HO1 0) PATH_HO1_TSF_N true).setFld IDX_SNCP_CFG IDX_SNCP_CFG_HOLDOFF 0, 7, by decide +kernel⟩,
   ⟨((selecting 13).setFlag (IDX_STATUS 7) IDX_STATUS_SEL true).setFlag (IDX_STATUS 7) IDX_STATUS_SF_A true, 7, by decide +kernel, by
    decide +kernel, by decide +kernel, by decide +kernel, by decide +kernel, by decide +kernel, by decide +kernel,
    (by intro c; cases c <;> decide +kernel)⟩,
   ⟨(selecting 5).setFlag (PATH_HO1 0) PATH_HO1_TSF_N true, 7, .sfA, by decide +kernel⟩,
   ⟨{ (selecting 13).setFlag (IDX_STATUS 7) IDX_STATUS_SEL true with wtrs := [(7, 5)] }, 7, by decide +kernel⟩⟩

theorem test_witness_TributarySignalAndClocks :
    (∃ (s : State) (p : Fin 64) (i : Instr), s.tribUp ↑p = true ∧ s.tstat (↑p) TRIB_STAT_LOS = false ∧ (∀ n < 8, s.flag (FAC_CFG n)
      FAC_CFG_ASSIGN = true → s.fld (FAC_CFG n) FAC_CFG_CMP_PORT ≠ ↑p) ∧ (i = Instr.tribLos p true ∨ i = Instr.tribCdrUnlockLos p ∧
      s.tstat (↑p) TRIB_STAT_CDR_LOCK = false) ∧ s.framing ↑p = 0)
    ∧ (∃ (s : State) (p : Fin 64) (i : Instr), s.tribUp ↑p = true ∧ s.tstat (↑p) TRIB_STAT_LOS = false ∧ (∀ n < 8, s.flag (FAC_CFG n)
      FAC_CFG_ASSIGN = true → s.fld (FAC_CFG n) FAC_CFG_CMP_PORT ≠ ↑p) ∧ (i = Instr.tribLos p true ∨ i = Instr.tribCdrUnlockLos p ∧
      s.tstat (↑p) TRIB_STAT_CDR_LOCK = false) ∧ s.framing ↑p ≠ 0 ∧ s.tstat (↑p) TRIB_STAT_AIS = false ∧ s.tstat (↑p) TRIB_STAT_OOF =
      false)
    ∧ (∃ (s : State) (p : Fin 64), s.tribUp ↑p = true ∧ (∀ n < 8, s.flag (FAC_CFG n) FAC_CFG_ASSIGN = true → s.fld (FAC_CFG n)
      FAC_CFG_CMP_PORT ≠ ↑p) ∧ s.tstat (↑p) TRIB_STAT_LOS = true ∧ (s.trib ↑p).losCdr = false)
    ∧ (∃ (s : State) (p : Fin 64), s.tribUp ↑p = true ∧ (∀ n < 8, s.flag (FAC_CFG n) FAC_CFG_ASSIGN = true → s.fld (FAC_CFG n)
      FAC_CFG_CMP_PORT ≠ ↑p) ∧ s.tstat (↑p) TRIB_STAT_CDR_LOCK = true)
    ∧ (∃ (s : State) (p : Fin 64), s.tribUp ↑p = true ∧ (∀ n < 8, s.flag (FAC_CFG n) FAC_CFG_ASSIGN = true → s.fld (FAC_CFG n)
      FAC_CFG_CMP_PORT ≠ ↑p) ∧ s.tstat (↑p) TRIB_STAT_CDR_LOCK = false ∧ s.tstat (↑p) TRIB_STAT_LOS = true ∧ (s.trib ↑p).losPulse = false)
    ∧ (∃ (s : State) (p : Fin 64) (zeros : ℕ), s.tribUp ↑p = true ∧ (∀ n < 8, s.flag (FAC_CFG n) FAC_CFG_ASSIGN = true → s.fld (FAC_CFG n)
      FAC_CFG_CMP_PORT ≠ ↑p) ∧ s.tstat (↑p) TRIB_STAT_LOS = false ∧ s.tstat (↑p) TRIB_STAT_AIS = false ∧ zeros < 3 ∧ (s.trib ↑p).aisOn =
      1)
    ∧ (∃ (s : State) (p : Fin 64) (zeros : ℕ), s.tribUp ↑p = true ∧ (∀ n < 8, s.flag (FAC_CFG n) FAC_CFG_ASSIGN = true → s.fld (FAC_CFG n)
      FAC_CFG_CMP_PORT ≠ ↑p) ∧ s.tstat (↑p) TRIB_STAT_LOS = false ∧ s.tstat (↑p) TRIB_STAT_AIS = true ∧ 3 ≤ zeros ∧ (s.trib ↑p).aisOff = 1
      ∧ s.framing ↑p = 0)
    ∧ (∃ (s : State) (c : Fin 4) (ok : Bool) (i : Instr), s.running (14 + ↑c / 2) = true ∧ s.bitAt TRIB_CLK_STAT ↑c = !ok ∧ s.tm.clkOk =
      ok ∧ i = if ok = true then Instr.tribSampleClockValid c else Instr.tribSampleClockInvalid c)
    ∧ (∃ (s : State) (c : Fin 4) (ok : Bool) (i : Instr), s.running (14 + ↑c / 2) = true ∧ s.bitAt TRIB_CLK_STAT ↑c = !ok ∧ s.tm.clkOk =
      ok ∧ i = if ok = true then Instr.tribSampleClockValid c else Instr.tribSampleClockInvalid c)
    ∧ (∃ (s : State) (p : Fin 64), s.tribStore ↑p = true ∧ (s.retimed ↑p = false ∨ s.fld (TRIB_FRM_STAT ↑p) TRIB_FRM_STAT_TX_STATE ≠
      trIn))
    ∧ (∃ (s : State) (p : Fin 64) (del : Bool) (n : ℕ), s.tribStore ↑p = true ∧ s.retimed ↑p = true ∧ s.fld (TRIB_FRM_STAT ↑p)
      TRIB_FRM_STAT_TX_STATE = trIn ∧ (s.trib ↑p).store.length = n ∧ if del = true then 2 * s.tribFrameBits ↑p < n + 32 else n < 32)
    ∧ (∃ (s : State) (p : Fin 64) (del : Bool) (n : ℕ), s.tribStore ↑p = true ∧ s.retimed ↑p = true ∧ s.fld (TRIB_FRM_STAT ↑p)
      TRIB_FRM_STAT_TX_STATE = trIn ∧ (s.trib ↑p).store.length = n ∧ if del = true then 2 * s.tribFrameBits ↑p < n + 32 else n < 32)
    ∧ (∃ (s : State) (v : State) (q : Fin 2), Safety.granted (Writer.service q) s v ∧ v.running (v.regIsl 1076953088) = true)
    ∧ (∃ (s : State) (v : State) (x : Fin 16) (p : ℕ), Safety.granted Writer.maintenance s v ∧ v.running (v.regIsl 1076953088) = true ∧
      v.templateUser ↑x = some p) :=
  ⟨⟨tribbed 33 0, 33, .tribLos 33 true, by decide +kernel⟩,
   ⟨tribbed 33 1, 33, .tribLos 33 true, by decide +kernel⟩,
   ⟨(tribbed 33 1).setFlag (TRIB_STAT 33) TRIB_STAT_LOS true, 33, by decide +kernel⟩,
   ⟨(tribbed 33 1).setFlag (TRIB_STAT 33) TRIB_STAT_LOS true, 33, by decide +kernel⟩,
   ⟨((tribbed 33 1).setFlag (TRIB_STAT 33) TRIB_STAT_LOS true).setFlag (TRIB_STAT 33) TRIB_STAT_CDR_LOCK false, 33, by decide +kernel⟩,
   ⟨(tribbed 33 1).inTrib 33 fun x => { x with aisOn := 1 }, 33, 2, by decide +kernel⟩,
   ⟨((tribbed 33 0).setFlag (TRIB_STAT 33) TRIB_STAT_AIS true).inTrib 33 fun x => { x with aisOff := 1 }, 33, 3, by decide +kernel⟩,
   ⟨{ (up 4).setReg TRIB_CLK_STAT 0 with tm := { (up 4).tm with clkOk := true } }, 3, true, _, by decide +kernel, by decide +kernel, by
    decide +kernel, rfl⟩,
   ⟨{ (up 4).setReg TRIB_CLK_STAT 4 with tm := { (up 4).tm with clkOk := false } }, 2, false, _, by decide +kernel, by decide +kernel, by
    decide +kernel, rfl⟩,
   ⟨(tribbed 33 1).setFlag (TRIB_STAT 33) TRIB_STAT_LOS true, 33, by decide +kernel⟩,
   ⟨(((tribbed 33 1).setFlag (TRIB_CFG 33) TRIB_CFG_TX_RETIME true).setFld (TRIB_FRM_STAT 33) TRIB_FRM_STAT_TX_STATE 3).setStore 33
    (List.replicate 31 true), 33, false, 31, by decide +kernel⟩,
   ⟨(((tribbed 33 1).setFlag (TRIB_CFG 33) TRIB_CFG_TX_RETIME true).setFld (TRIB_FRM_STAT 33) TRIB_FRM_STAT_TX_STATE 3).setStore 33
    (List.replicate 510 true), 33, true, 510, by decide +kernel⟩,
   ⟨((unlk 4).setFlag (TRIB_CFG 3) TRIB_CFG_EN true).setFld (TRIB_CFG 3) TRIB_CFG_TEMPLATE 5, _, 3, ⟨rfl, by decide +kernel⟩, by
    decide +kernel⟩,
   ⟨((unlk 4).setFlag (TRIB_CFG 3) TRIB_CFG_EN true).setFld (TRIB_CFG 3) TRIB_CFG_TEMPLATE 5, _, 5, 3, ⟨rfl, by decide +kernel⟩, by
    decide +kernel⟩⟩

theorem test_witness_TributaryFraming :
    (∃ (s : State) (p : Fin 64) (l : List Pulse) (d : Decoder × List Bool × ℕ) (b : List Bool) (m : ℕ), s.tribUp ↑p = true ∧ d =
      Decoder.run (s.lineCode ↑p) (decide (s.tribMode ↑p = 1)) (s.trib ↑p).dec (List.map pulseSign l) ∧ b = (s.trib ↑p).rx.buf ++ d.2.1 ∧
      m = s.framing ↑p)
    ∧ (∃ (s : State) (p : Fin 64), s.tribUp ↑p = true ∧ s.framing ↑p ≠ 0 ∧ s.flag (TRIB_CFG ↑p) TRIB_CFG_TX_RETIME = true)
    ∧ (∃ (s : State) (p : Fin 64), s.tribUp ↑p = true ∧ s.rxFramer ↑p = trIn ∧ s.fld (TRIB_FRM_STAT ↑p) TRIB_FRM_STAT_CRC4 = 1)
    ∧ (∃ (s : State) (p : Fin 64), s.tribUp ↑p = true ∧ s.tstat (↑p) TRIB_STAT_LOS = false ∧ s.tstat (↑p) TRIB_STAT_AIS = false ∧ s.tstat
      (↑p) TRIB_STAT_LOF ≠ s.tstat (↑p) TRIB_STAT_OOF) :=
  ⟨⟨tribbed 2 0, 2, [.zero, .plus, .minus], _, _, _, by decide +kernel, rfl, rfl, rfl⟩,
   ⟨((tribbed 2 1).setFlag (TRIB_CFG 2) TRIB_CFG_TX_RETIME true).setFld (TRIB_FRM_STAT 2) TRIB_FRM_STAT_TX_STATE 2, 2, by decide +kernel⟩,
   ⟨((tribbed 2 2).setFld (TRIB_FRM_STAT 2) TRIB_FRM_STAT_RX_STATE 3).setFld (TRIB_FRM_STAT 2) TRIB_FRM_STAT_CRC4 1, 2, by decide +kernel⟩,
   ⟨((tribbed 2 2).setFld (TRIB_FRM_STAT 2) TRIB_FRM_STAT_RX_STATE 2).setFlag (TRIB_STAT 2) TRIB_STAT_OOF true, 2, by decide +kernel⟩⟩

theorem test_witness_TributaryControlAndMaintenance :
    (∃ (s : State) (v : State) (p : Fin 64) (q : Fin 2), Safety.granted (Writer.service q) s v ∧ v.running (islTR ↑p) = true ∧ v.flag
      (TRIB_CFG ↑p) TRIB_CFG_EN = false)
    ∧ (∃ (s : State) (v : State) (p : Fin 64) (q : Fin 2), Safety.granted (Writer.service q) s v ∧ v.running (islTR ↑p) = true ∧ v.flag
      (TRIB_CFG ↑p) TRIB_CFG_EN = true)
    ∧ (∃ (s : State) (v : State) (p : Fin 64) (on : Bool) (i : Instr) (f : Fld), Safety.granted Writer.maintenance s v ∧ v.running (islTR
      ↑p) = true ∧ v.reg (TRIB_MAINT ↑p) < 8 ∧ (i = Instr.lloop p Writer.maintenance on ∧ f = TRIB_MAINT_LLOOP ∨ i = Instr.forceAisTx p
      Writer.maintenance on ∧ f = TRIB_MAINT_FORCE_AIS_TX ∨ i = Instr.forceAisRx p Writer.maintenance on ∧ f = TRIB_MAINT_FORCE_AIS_RX))
    ∧ (∃ (s : State) (u : State) (p : Fin 64), u = s.updateTribTx ↑p ∧ s.tribStore ↑p = true) :=
  ⟨⟨(tribbed 63 1).setFlag (TRIB_CFG 63) TRIB_CFG_EN false, _, 63, 0, ⟨rfl, by decide +kernel⟩, by decide +kernel⟩,
   ⟨(tribbed 63 0), _, 63, 0, ⟨rfl, by decide +kernel⟩, by decide +kernel⟩,
   ⟨((tribbed 63 0).setFld EVT_MGMT_UNLOCK EVT_MGMT_UNLOCK_STATE 2), _, 63, true, .lloop 63 .maintenance true, TRIB_MAINT_LLOOP, ⟨rfl, by
    decide +kernel⟩, by decide +kernel⟩,
   ⟨(tribbed 63 0).setFld (TRIB_CFG 63) TRIB_CFG_CODE 1, _, 63, rfl, by decide +kernel⟩⟩

theorem test_witness_FacsimileCommands :
    (∃ (s : State) (v : State) (n : Fin 8) (w : Writer) (token : Byte), Safety.granted w s v ∧ v.running islFC = true ∧ v.fld (FAC_CMD ↑n)
      FAC_CMD_TOKEN ≠ BitVec.toNat token ∧ v.egState ↑n = egIdle ∧ (v.engine ↑n).calibrating = false)
    ∧ (∃ (s : State) (v : State) (n : Fin 8) (w : Writer) (token : Byte), Safety.granted w s v ∧ v.running islFC = true ∧ v.fld (FAC_CMD
      ↑n) FAC_CMD_TOKEN ≠ BitVec.toNat token ∧ (v.egState ↑n ≠ egIdle ∨ (v.engine ↑n).calibrating = true))
    ∧ (∃ (s : State) (v : State) (n : Fin 8) (w : Writer) (token : Byte), Safety.granted w s v ∧ v.running islFC = true ∧ v.fld (FAC_CMD
      ↑n) FAC_CMD_TOKEN ≠ BitVec.toNat token ∧ v.egState ↑n ≠ egOff)
    ∧ (∃ (s : State) (v : State) (n : Fin 8) (w : Writer) (token : Byte), Safety.granted w s v ∧ v.running islFC = true ∧ v.fld (FAC_CMD
      ↑n) FAC_CMD_TOKEN ≠ BitVec.toNat token ∧ v.egState ↑n = egWaiting ∧ (v.engine ↑n).latching = true)
    ∧ (∃ (s : State) (v : State) (n : Fin 8) (w : Writer) (token : Byte) (port : Fin 64) (cmp : Fin 64), Safety.granted w s v ∧ v.running
      islFC = true ∧ v.fld (FAC_CMD ↑n) FAC_CMD_TOKEN ≠ BitVec.toNat token ∧ v.egState ↑n ≤ egIdle ∧ (v.engine ↑n).calibrating = false ∧
      v.assignOk ↑n ↑port ↑cmp = true)
    ∧ (∃ (s : State) (v : State) (n : Fin 8) (w : Writer) (token : Byte), Safety.granted w s v ∧ v.running islFC = true ∧ v.fld (FAC_CMD
      ↑n) FAC_CMD_TOKEN ≠ BitVec.toNat token)
    ∧ (∃ (s : State) (v : State) (n : Fin 8) (w : Writer) (token : Byte), Safety.granted w s v ∧ v.running islFC = true ∧ v.fld (FAC_CMD
      ↑n) FAC_CMD_TOKEN = BitVec.toNat token) :=
  ⟨⟨fac 1 0 0 0 0 0 0, _, 2, .service 1, 8, ⟨rfl, by decide +kernel⟩, by decide +kernel⟩,
   ⟨fac 4 0 0 0 0 0 0, _, 2, .maintenance, 8, ⟨rfl, by decide +kernel⟩, by decide +kernel⟩,
   ⟨fac 1 0 0 0 0 0 0, _, 2, .service 1, 8, ⟨rfl, by decide +kernel⟩, by decide +kernel⟩,
   ⟨fac 3 0 0 1 0 0 0, _, 2, .maintenance, 8, ⟨rfl, by decide +kernel⟩, by decide +kernel⟩,
   ⟨fac 1 0 0 0 0 0 0, _, 2, .service 1, 8, 9, 10, ⟨rfl, by decide +kernel⟩, by decide +kernel⟩,
   ⟨fac 1 0 0 0 0 0 0, _, 2, .service 1, 8, ⟨rfl, by decide +kernel⟩, by decide +kernel⟩,
   ⟨(fac 0 0 0 2 0 0 0), _, 2, .maintenance, 0, ⟨rfl, by decide +kernel⟩, by decide +kernel⟩⟩

theorem test_witness_FacsimileStreamsAndCalibration :
    (∃ (s : State) (n : Fin 8) (l : List ℕ), s.running islFC = true ∧ (s.engine ↑n).calibrating = true ∧ l.length = 64 ∧ ∀ v ∈ l, v ≤
      65535)
    ∧ (∃ (s : State) (n : Fin 8) (l : List (Option ℕ)), s.running islFC = true ∧ (s.engine ↑n).calibrating = true ∧ (none ∈ l ∨ l.length ≠
      64 ∨ ∃ (v : ℕ), 65535 < v ∧ some v ∈ l))
    ∧ (∃ (s : State) (n : Fin 8) (l : List (Option ℕ)), s.running islFC = true ∧ (s.engine ↑n).calibrating = true ∧ (none ∈ l ∨ l.length ≠
      64 ∨ ∃ (v : ℕ), 65535 < v ∧ some v ∈ l))
    ∧ (∃ (s : State) (v : State) (w : Writer) (token : Byte), Safety.granted w s v ∧ v.running islFC = true ∧ v.fld FAC_SYNC
      FAC_SYNC_TOKEN ≠ BitVec.toNat token)
    ∧ (∃ (s : State) (v : State) (n : Fin 8) (w : Writer) (token : Byte) (count : BitVec 16), Safety.granted w s v ∧ v.running islFC =
      true ∧ v.fld (FAC_STREAM ↑n) FAC_STREAM_TOKEN ≠ BitVec.toNat token ∧ ((v.engine ↑n).ring = none ∨ count = 0))
    ∧ (∃ (s : State) (v : State) (n : Fin 8) (w : Writer) (token : Byte) (count : BitVec 16) (seg : ℕ), Safety.granted w s v ∧ v.running
      islFC = true ∧ v.fld (FAC_STREAM ↑n) FAC_STREAM_TOKEN ≠ BitVec.toNat token ∧ (v.engine ↑n).ring = some seg ∧ count ≠ 0)
    ∧ (∃ (s : State) (n : Fin 8) (seg : ℕ), s.running islFC = true ∧ s.egState ↑n = egPlaying ∧ (s.engine ↑n).ring = some seg ∧ s.fld
      (FAC_STREAM_STAT ↑n) FAC_STREAM_STAT_FILL = 0)
    ∧ (∃ (s : State) (n : Fin 8) (seg : ℕ), s.running islFC = true ∧ s.egState ↑n = egPlaying ∧ (s.engine ↑n).ring = some seg ∧ 0 < s.fld
      (FAC_STREAM_STAT ↑n) FAC_STREAM_STAT_FILL) :=
  ⟨⟨(fac 1 0 0 0 0 0 0).inEngine 2 fun x => { x with calibrating := true }, 2, List.replicate 64 65535, by decide +kernel⟩,
   ⟨(fac 1 0 0 0 0 0 0).inEngine 2 fun x => { x with calibrating := true }, 2, List.replicate 64 (some 65536), by decide +kernel, by
    decide +kernel, Or.inr (Or.inr ⟨65536, by decide, by decide +kernel⟩)⟩,
   ⟨(fac 1 0 0 0 0 0 0).inEngine 2 fun x => { x with calibrating := true }, 2, none :: List.replicate 63 (some 65536), by decide +kernel,
    by decide +kernel, Or.inl (by decide +kernel)⟩,
   ⟨fac 3 0 0 2 0 0 0, _, .service 0, 7, ⟨rfl, by decide +kernel⟩, by decide +kernel⟩,
   ⟨fac 3 0 0 2 0 0 0, _, 2, .service 0, 7, 5, ⟨rfl, by decide +kernel⟩, by decide +kernel⟩,
   ⟨(fac 4 0 0 1 0 0 100).inEngine 2 fun x => { x with ring := some 3, sg := [0, 100, 0x20000, 100] }, _, 2, .maintenance, 7, 100, 3,
    ⟨rfl, by decide +kernel⟩, by decide +kernel⟩,
   ⟨(fac 4 0 0 1 0 0 100).inEngine 2 fun x => { x with ring := some 3, sg := [0, 100, 0x20000, 100] }, 2, 3, by decide +kernel⟩,
   ⟨(((fac 4 0 0 1 0 0 100).setFld (FAC_STREAM_STAT 2) FAC_STREAM_STAT_FILL 60).setReg (FAC_PATTERN 0) 0x7FFF8000).inEngine 2 fun x =>
    { x with ring := some 3, sg := [0, 100, 0x20000, 100], md := [0, 10] }, 2, 3, by decide +kernel⟩⟩

theorem test_witness_FacsimileSteps :
    (∃ (s : State) (n : Fin 8) (code : ℕ), s.running islFC = true ∧ s.egState ↑n = egDead ∧ (s.fld (FAC_SEG_W1 (s.fld (FAC_STEP_W0 (s.fld
      (FAC_STAT ↑n) FAC_STAT_STEP)) FAC_STEP_W0_SEG)) FAC_SEG_W1_LENGTH = 0 ∧ code = 1 ∨ s.fld (FAC_SEG_W1 (s.fld (FAC_STEP_W0 (s.fld
      (FAC_STAT ↑n) FAC_STAT_STEP)) FAC_STEP_W0_SEG)) FAC_SEG_W1_LENGTH ≠ 0 ∧ ¬(4 * s.fld (FAC_SEG_W0 (s.fld (FAC_STEP_W0 (s.fld (FAC_STAT
      ↑n) FAC_STAT_STEP)) FAC_STEP_W0_SEG)) FAC_SEG_W0_START + if s.fld (FAC_SEG_W0 (s.fld (FAC_STEP_W0 (s.fld (FAC_STAT ↑n)
      FAC_STAT_STEP)) FAC_STEP_W0_SEG)) FAC_SEG_W0_KIND = 1 then (s.fld (FAC_SEG_W1 (s.fld (FAC_STEP_W0 (s.fld (FAC_STAT ↑n)
      FAC_STAT_STEP)) FAC_STEP_W0_SEG)) FAC_SEG_W1_LENGTH + 1) / 2 else 2 * s.fld (FAC_SEG_W1 (s.fld (FAC_STEP_W0 (s.fld (FAC_STAT ↑n)
      FAC_STAT_STEP)) FAC_STEP_W0_SEG)) FAC_SEG_W1_LENGTH) ≤ 262144 ∧ code = 2 ∨ s.fld (FAC_SEG_W1 (s.fld (FAC_STEP_W0 (s.fld (FAC_STAT
      ↑n) FAC_STAT_STEP)) FAC_STEP_W0_SEG)) FAC_SEG_W1_LENGTH ≠ 0 ∧ (4 * s.fld (FAC_SEG_W0 (s.fld (FAC_STEP_W0 (s.fld (FAC_STAT ↑n)
      FAC_STAT_STEP)) FAC_STEP_W0_SEG)) FAC_SEG_W0_START + if s.fld (FAC_SEG_W0 (s.fld (FAC_STEP_W0 (s.fld (FAC_STAT ↑n) FAC_STAT_STEP))
      FAC_STEP_W0_SEG)) FAC_SEG_W0_KIND = 1 then (s.fld (FAC_SEG_W1 (s.fld (FAC_STEP_W0 (s.fld (FAC_STAT ↑n) FAC_STAT_STEP))
      FAC_STEP_W0_SEG)) FAC_SEG_W1_LENGTH + 1) / 2 else 2 * s.fld (FAC_SEG_W1 (s.fld (FAC_STEP_W0 (s.fld (FAC_STAT ↑n) FAC_STAT_STEP))
      FAC_STEP_W0_SEG)) FAC_SEG_W1_LENGTH) ≤ 262144 ∧ 2 ≤ s.fld (FAC_SEG_W0 (s.fld (FAC_STEP_W0 (s.fld (FAC_STAT ↑n) FAC_STAT_STEP))
      FAC_STEP_W0_SEG)) FAC_SEG_W0_KIND ∧ code = 3 ∨ s.fld (FAC_SEG_W1 (s.fld (FAC_STEP_W0 (s.fld (FAC_STAT ↑n) FAC_STAT_STEP))
      FAC_STEP_W0_SEG)) FAC_SEG_W1_LENGTH ≠ 0 ∧ (4 * s.fld (FAC_SEG_W0 (s.fld (FAC_STEP_W0 (s.fld (FAC_STAT ↑n) FAC_STAT_STEP))
      FAC_STEP_W0_SEG)) FAC_SEG_W0_START + if s.fld (FAC_SEG_W0 (s.fld (FAC_STEP_W0 (s.fld (FAC_STAT ↑n) FAC_STAT_STEP)) FAC_STEP_W0_SEG))
      FAC_SEG_W0_KIND = 1 then (s.fld (FAC_SEG_W1 (s.fld (FAC_STEP_W0 (s.fld (FAC_STAT ↑n) FAC_STAT_STEP)) FAC_STEP_W0_SEG))
      FAC_SEG_W1_LENGTH + 1) / 2 else 2 * s.fld (FAC_SEG_W1 (s.fld (FAC_STEP_W0 (s.fld (FAC_STAT ↑n) FAC_STAT_STEP)) FAC_STEP_W0_SEG))
      FAC_SEG_W1_LENGTH) ≤ 262144 ∧ s.fld (FAC_SEG_W0 (s.fld (FAC_STEP_W0 (s.fld (FAC_STAT ↑n) FAC_STAT_STEP)) FAC_STEP_W0_SEG))
      FAC_SEG_W0_KIND = 0 ∧ (s.fld (FAC_STEP_W1 (s.fld (FAC_STAT ↑n) FAC_STAT_STEP)) FAC_STEP_W1_RATIO < 4096 ∨ 262144 < s.fld
      (FAC_STEP_W1 (s.fld (FAC_STAT ↑n) FAC_STAT_STEP)) FAC_STEP_W1_RATIO) ∧ code = 4))
    ∧ (∃ (s : State) (n : Fin 8), s.running islFC = true ∧ s.egState ↑n = egDead ∧ s.fld (FAC_SEG_W1 (s.fld (FAC_STEP_W0 (s.fld (FAC_STAT
      ↑n) FAC_STAT_STEP)) FAC_STEP_W0_SEG)) FAC_SEG_W1_LENGTH ≠ 0 ∧ (4 * s.fld (FAC_SEG_W0 (s.fld (FAC_STEP_W0 (s.fld (FAC_STAT ↑n)
      FAC_STAT_STEP)) FAC_STEP_W0_SEG)) FAC_SEG_W0_START + if s.fld (FAC_SEG_W0 (s.fld (FAC_STEP_W0 (s.fld (FAC_STAT ↑n) FAC_STAT_STEP))
      FAC_STEP_W0_SEG)) FAC_SEG_W0_KIND = 1 then (s.fld (FAC_SEG_W1 (s.fld (FAC_STEP_W0 (s.fld (FAC_STAT ↑n) FAC_STAT_STEP))
      FAC_STEP_W0_SEG)) FAC_SEG_W1_LENGTH + 1) / 2 else 2 * s.fld (FAC_SEG_W1 (s.fld (FAC_STEP_W0 (s.fld (FAC_STAT ↑n) FAC_STAT_STEP))
      FAC_STEP_W0_SEG)) FAC_SEG_W1_LENGTH) ≤ 262144 ∧ (s.fld (FAC_SEG_W0 (s.fld (FAC_STEP_W0 (s.fld (FAC_STAT ↑n) FAC_STAT_STEP))
      FAC_STEP_W0_SEG)) FAC_SEG_W0_KIND = 1 ∨ s.fld (FAC_SEG_W0 (s.fld (FAC_STEP_W0 (s.fld (FAC_STAT ↑n) FAC_STAT_STEP)) FAC_STEP_W0_SEG))
      FAC_SEG_W0_KIND = 0 ∧ 4096 ≤ s.fld (FAC_STEP_W1 (s.fld (FAC_STAT ↑n) FAC_STAT_STEP)) FAC_STEP_W1_RATIO ∧ s.fld (FAC_STEP_W1 (s.fld
      (FAC_STAT ↑n) FAC_STAT_STEP)) FAC_STEP_W1_RATIO ≤ 262144) ∧ s.fld (FAC_MOD_W0 (s.fld (FAC_STEP_W1 (s.fld (FAC_STAT ↑n)
      FAC_STAT_STEP)) FAC_STEP_W1_MOD)) FAC_MOD_W0_TYPE = 0)
    ∧ (∃ (s : State) (n : Fin 8) (trigs : BitVec 16), s.running islFC = true ∧ (s.engine ↑n).latching = true ∧ trigs.toNat % 16384 ≠ 0)
    ∧ (∃ (s : State) (n : Fin 8), s.running islFC = true ∧ s.egState ↑n = egWaiting ∧ FAC_STEP_W2_WAIT_TO.get ((s.engine ↑n).st.getD 2 0)
      ≠ 0)
    ∧ (∃ (s : State) (n : Fin 8), s.running islFC = true ∧ s.egState ↑n = egPlaying ∧ (s.engine ↑n).repeats ≠ 0) :=
  ⟨⟨fac 2 3 0x10000 0 0 0 0, 2, 1, by decide +kernel⟩,
   ⟨fac 2 3 0x40000 0 0 0 5, 2, by decide +kernel⟩,
   ⟨fac 3 3 0x1000 0x8010 0 0 5, 2, 0x8010, by decide +kernel⟩,
   ⟨fac 3 3 0x1000 0x00010010 0x00070006 0 5, 2, by decide +kernel⟩,
   ⟨fac 4 0x10003 0x0C001000 0x00010010 0x00070006 0 5, 2, by decide +kernel⟩⟩

theorem test_witness_FacsimileSamples :
    (∃ (s : State) (n : Fin 8), s.running islFC = true ∧ s.egState ↑n = egPlaying ∧ (s.engine ↑n).ended = false ∧ (s.engine
      ↑n).calibrating = false ∧ (s.engine ↑n).kind = 0)
    ∧ (∃ (s : State) (n : Fin 8), s.running islFC = true ∧ s.egState ↑n = egPlaying ∧ (s.engine ↑n).ended = false ∧ (s.engine
      ↑n).calibrating = false ∧ (s.engine ↑n).kind ≠ 0 ∧ (s.engine ↑n).clk % 64 ≠ 0)
    ∧ (∃ (s : State) (n : Fin 8), s.running islFC = true ∧ s.egState ↑n = egPlaying ∧ (s.engine ↑n).ended = false ∧ (s.engine
      ↑n).calibrating = false ∧ (s.engine ↑n).kind ≠ 0 ∧ (s.engine ↑n).clk % 64 = 0)
    ∧ (∃ (s : State) (n : Fin 8), s.running islFC = true ∧ (s.engine ↑n).calibrating = true)
    ∧ (∃ (s : State) (n : Fin 8) (o : Owed) (rest : List Owed) (lag : Byte) (received : Sys2Proof.Symbol) (ok : Bool), s.running islFC =
      true ∧ (s.engine ↑n).owed = o :: rest ∧ BitVec.toNat lag = s.fld (FAC_CFG ↑n) FAC_CFG_LAG ∧ ok = (s.cmpLocked ↑n && decide (received
      = Symbol.mark ↔ o.mark = true)))
    ∧ (∃ (s : State) (n : Fin 8) (o : Owed) (rest : List Owed) (lag : Byte) (received : Sys2Proof.Symbol) (ok : Bool), s.running islFC =
      true ∧ (s.engine ↑n).owed = o :: rest ∧ BitVec.toNat lag = s.fld (FAC_CFG ↑n) FAC_CFG_LAG ∧ ok = (s.cmpLocked ↑n && decide (received
      = Symbol.mark ↔ o.mark = true)))
    ∧ (∃ (s : State) (n : Fin 8) (lag : Byte), BitVec.toNat lag ≠ s.fld (FAC_CFG ↑n) FAC_CFG_LAG)
    ∧ (∃ (s : State) (v : State) (i : Fin 65536) (w : Writer), Safety.granted w s v ∧ v.running islFC = true ∧ v.patternBusy ↑i = false)
    ∧ (∃ (s : State) (v : State) (i : Fin 65536) (w : Writer) (q : Fin 2), Safety.granted w s v ∧ v.running islFC = true ∧ w =
      Writer.service q ∧ v.patternBusy ↑i = true) :=
  ⟨⟨fac 4 0x10003 0x00018000 0 0 0 5, 2, by decide +kernel⟩,
   ⟨(fac 4 0x10003 0x00018000 0 0 0x10000 5).inEngine 2 fun x => { x with clk := 3 }, 2, by decide +kernel⟩,
   ⟨(fac 4 0x10003 0x00018000 0 0 0x10000 5).setReg (FAC_PATTERN 0) 0x00002301, 2, by decide +kernel⟩,
   ⟨(fac 0 0x10003 0x00018000 0 0 0 5).inEngine 2 (fun x => { x with calibrating := true, clk := 3 }), 2, by decide +kernel⟩,
   ⟨(fac 4 0x10003 0x00018000 0 0 0x10000 5).inEngine 2 (fun x => { x with owed := [⟨4, 5, true, 1⟩, ⟨6, 5, false, 1⟩] }), 2, ⟨4, 5, true,
    1⟩, [⟨6, 5, false, 1⟩], 0, .mark, _, by decide +kernel, by decide +kernel, by decide +kernel, rfl⟩,
   ⟨(fac 4 0x10003 0x00018000 0 0 0x10000 5).inEngine 2 (fun x => { x with owed := [⟨4, 5, true, 1⟩] }), 2, ⟨4, 5, true, 1⟩, [], 0,
    .space, _, by decide +kernel, by decide +kernel, by decide +kernel, rfl⟩,
   ⟨fac 4 0x10003 0x00018000 0 0 0x10000 5, 2, 5, by decide +kernel⟩,
   ⟨fac 4 0x10003 0x00018000 0 0 0x10000 5, _, 65535, .maintenance, ⟨rfl, by decide +kernel⟩, by decide +kernel⟩,
   ⟨fac 4 0x10003 0x00018000 0 0 0x10000 5, _, 0, _, 0, ⟨rfl, by decide +kernel⟩, by decide +kernel, rfl, by decide +kernel⟩⟩

theorem test_witness_ReceivedPackets :
    (∃ (s : State) (p : Fin 2) (frame : List Byte) (k : ℕ), s.running (islPK ↑p) = true ∧ ((frame.length < 64 ∨ fcsOk frame = false) ∧ k =
      rxFcs ∨ 64 ≤ frame.length ∧ fcsOk frame = true ∧ 1518 + 4 * vlanTags frame < frame.length ∧ k = rxOversize ∨ 64 ≤ frame.length ∧
      fcsOk frame = true ∧ frame.length ≤ 1518 + 4 * vlanTags frame ∧ s.ptpIn (↑p) (List.take 12 frame ++ List.drop (12 + 4 * vlanTags
      frame) (List.take (frame.length - 4) frame)) = none ∧ List.take 6 (List.take 12 frame ++ List.drop (12 + 4 * vlanTags frame)
      (List.take (frame.length - 4) frame)) ≠ esmcAddress ∧ List.take 6 (List.take 12 frame ++ List.drop (12 + 4 * vlanTags frame)
      (List.take (frame.length - 4) frame)) ≠ s.portMac ↑p ∧ k = rxOther))
    ∧ (∃ (s : State) (p : Fin 2) (frame : List Byte), s.running (islPK ↑p) = true ∧ 64 ≤ frame.length ∧ fcsOk frame = true ∧ frame.length
      ≤ 1518 + 4 * vlanTags frame ∧ s.ptpIn (↑p) (List.take 12 frame ++ List.drop (12 + 4 * vlanTags frame) (List.take (frame.length - 4)
      frame)) = none ∧ List.take 6 (List.take 12 frame ++ List.drop (12 + 4 * vlanTags frame) (List.take (frame.length - 4) frame)) =
      esmcAddress ∧ field (List.take 12 frame ++ List.drop (12 + 4 * vlanTags frame) (List.take (frame.length - 4) frame)) 12 2 = 34825 ∧
      BitVec.toNat ((List.take 12 frame ++ List.drop (12 + 4 * vlanTags frame) (List.take (frame.length - 4) frame)).getD 14 0) = 10 ∧
      s.running islTM = true)
    ∧ (∃ (s : State) (p : Fin 2) (frame : List Byte) (k : Pkt) (f : ℕ) (code : ℕ) (cnt : ℕ), Safety.forFlow s (↑p) frame k f ∧ (s.flowEn f
      = false ∧ code = 9 ∧ cnt = rxDisabled ∨ s.flowEn f = true ∧ List.length s.lend.descs < 4096 ∧ s.addrsMatch (s.flowProf f) k = false
      ∧ code = 3 ∧ cnt = rxMismatch ∨ s.flowEn f = true ∧ List.length s.lend.descs < 4096 ∧ s.addrsMatch (s.flowProf f) k = true ∧ k.bad =
      true ∧ code = 2 ∧ cnt = rxMalformed ∨ s.flowEn f = true ∧ List.length s.lend.descs < 4096 ∧ s.addrsMatch (s.flowProf f) k = true ∧
      s.payloadOf f k.body = none ∧ code = 2 ∧ cnt = rxMalformed))
    ∧ (∃ (s : State) (p : Fin 2) (up : Bool), s.running (islPK ↑p) = true ∧ s.flag (PW_PORT_STAT ↑p) PW_PORT_STAT_LINK = !up)
    ∧ (∃ (s : State) (p : Fin 2) (frame : List Byte) (k : Pkt) (f : ℕ) (l : List Byte) (code : ℕ) (cnt : ℕ), Safety.forFlow s (↑p) frame k
      f ∧ Safety.goodPacket s f k l ∧ s.flowState f ≠ flLops ∧ (s.flow f).started = true ∧ (32768 ≤ (field k.body 2 2 + 65536 - s.nPlay f)
      % 65536 ∧ code = 4 ∧ cnt = rxLate ∨ (field k.body 2 2 + 65536 - s.nPlay f) % 65536 < 32768 ∧ (field k.body 2 2 + 65536 - s.nPlay f)
      % 65536 < s.flowS f / s.flowP f ∧ (s.flow f).arrived.contains (field k.body 2 2) = true ∧ code = 5 ∧ cnt = rxDup ∨ (field k.body 2 2
      + 65536 - s.nPlay f) % 65536 < 32768 ∧ s.flowS f / s.flowP f ≤ (field k.body 2 2 + 65536 - s.nPlay f) % 65536 ∧ (s.flow f).early < 7
      ∧ code = 6 ∧ cnt = rxEarly))
    ∧ (∃ (s : State) (p : Fin 2) (frame : List Byte) (k : Pkt) (f : ℕ) (l : List Byte), Safety.forFlow s (↑p) frame k f ∧
      Safety.goodPacket s f k l ∧ s.flowState f ≠ flLops ∧ ((s.flow f).started = false ∨ (field k.body 2 2 + 65536 - s.nPlay f) % 65536 <
      32768 ∧ (field k.body 2 2 + 65536 - s.nPlay f) % 65536 < s.flowS f / s.flowP f ∧ (s.flow f).arrived.contains (field k.body 2 2) =
      false) ∧ ∀ v ∈ s.slotPages f (field k.body 2 2), (s.mapOf f v).isSome = true) :=
  ⟨⟨flowing 1, 0, [1,2,3], rxFcs, by decide +kernel⟩,
   ⟨flowing 1, 1, esmcFrame [1,2,3,4,5,6] false 7 none, by decide +kernel⟩,
   ⟨((flowing 1).setFlag (PW_CFG 5) PW_CFG_EN false).setFlag (PW_STAT 5) PW_STAT_DRAINING true, 0, packet 0x123 10 0 7, packetOf 0x123 10
    0 7, 5, 9, rxDisabled, by decide +kernel⟩,
   ⟨flowing 1, 0, true, by decide +kernel⟩,
   ⟨playing, 0, packet 0x123 9 0 7, packetOf 0x123 9 0 7, 5, List.replicate 16 7, 4, rxLate, by decide +kernel⟩,
   ⟨playing, 0, packet 0x123 25 0 7, packetOf 0x123 25 0 7, 5, List.replicate 16 7, by decide +kernel⟩⟩

theorem test_witness_PlayoutAndTransmission :
    (∃ (s : State) (f : Fin 1024), s.running (s.flowIsl ↑f) = true ∧ s.flowEn ↑f = true ∧ s.flowState ↑f = flPlay ∧ 0 < s.fld (PW_JB ↑f)
      PW_JB_LOPS_N ∧ (s.flow ↑f).arrived.contains (s.nPlay ↑f) = true)
    ∧ (∃ (s : State) (f : Fin 1024), s.running (s.flowIsl ↑f) = true ∧ s.flowEn ↑f = true ∧ s.flowState ↑f = flPlay ∧ 0 < s.fld (PW_JB ↑f)
      PW_JB_LOPS_N ∧ (s.flow ↑f).arrived.contains (s.nPlay ↑f) = false)
    ∧ (∃ (s : State) (f : Fin 1024) (bits : List Bool) (payload : List Byte), s.running (s.flowIsl ↑f) = true ∧ s.flowEn ↑f = true ∧
      Safety.feedOk s (flowEp ↑f) ∧ s.nextPayload (↑f) bits = some payload ∧ s.flowSendsL ↑f = true)
    ∧ (∃ (s : State) (f : Fin 1024) (bits : List Bool) (payload : List Byte), s.running (s.flowIsl ↑f) = true ∧ s.flowEn ↑f = true ∧
      Safety.feedOk s (flowEp ↑f) ∧ s.nextPayload (↑f) bits = some payload ∧ s.flowSendsL ↑f = false ∧ s.fld (PW_CFG ↑f) PW_CFG_KIND = 0 ∧
      ∀ (p : ℕ), s.feedPort ↑f = some p → s.tstat p TRIB_STAT_AIS_TO_IDX = false)
    ∧ (∃ (s : State) (f : Fin 1024) (bits : List Bool) (payload : List Byte), s.running (s.flowIsl ↑f) = true ∧ s.flowEn ↑f = true ∧
      Safety.feedOk s (flowEp ↑f) ∧ s.nextPayload (↑f) bits = some payload ∧ s.flowSendsL ↑f = false ∧ s.fld (PW_CFG ↑f) PW_CFG_KIND = 0 ∧
      ∀ (p : ℕ), s.feedPort ↑f = some p → s.tstat p TRIB_STAT_AIS_TO_IDX = false)
    ∧ (∃ (s : State) (f : Fin 1024) (bits : List Bool) (payload : List Byte), s.running (s.flowIsl ↑f) = true ∧ s.flowEn ↑f = true ∧
      Safety.feedOk s (flowEp ↑f) ∧ s.nextPayload (↑f) bits = some payload ∧ ∀ d < 4096, (List.any s.lend.descs fun (x : ℕ × Desc) => x.1
      == d) = true)
    ∧ (∃ (s : State) (f : Fin 1024) (bits : List Bool) (payload : List Byte) (stamp : Word), s.running (s.flowIsl ↑f) = true ∧ s.flowEn ↑f
      = true ∧ Safety.feedOk s (flowEp ↑f) ∧ s.nextPayload (↑f) bits = some payload ∧ (∃ d < 4096, (List.any s.lend.descs fun (x : ℕ ×
      Desc) => x.1 == d) = false) ∧ ((s.buildPacket (↑f) ((s.fld (PW_STAT1 ↑f) PW_STAT1_TX_SEQ + 1) % 65536) (s.flowSendsL ↑f) stamp
      payload).length + 255) / 256 ≤ (tget s.lend.granted [] ↑f).length)
    ∧ (∃ (s : State) (f : Fin 1024) (bits : List Bool), Safety.feedOk s (flowEp ↑f) ∧ s.nextPayload (↑f) bits = none)
    ∧ (∃ (s : State) (d : Fin 4096), (List.any s.lend.descs fun (x : ℕ × Desc) => x.1 == ↑d) = true ∧ s.running (islPK (s.flowHome
      (s.descFlow ↑d))) = true) :=
  ⟨⟨playing, 5, by decide +kernel⟩,
   ⟨playing.setFld (PW_STAT1 5) PW_STAT1_N_PLAY 11, 5, by decide +kernel⟩,
   ⟨fed.setFlag (TRIB_STAT 4) TRIB_STAT_LOS true, 5, [], List.replicate 16 0xFF, by decide +kernel⟩,
   ⟨fed, 5, List.replicate 128 true, List.replicate 16 0xFF, by decide +kernel⟩,
   ⟨fed, 5, List.replicate 128 false, List.replicate 16 0, by decide +kernel⟩,
   ⟨{ fed with lend := { Lending.init with descs := (List.range 4096).map (fun d => (d, ⟨[1], 1, 0⟩)) } }, 5, List.replicate 128 false,
    List.replicate 16 0, by decide +kernel, by decide +kernel, by decide +kernel, by decide +kernel, fun d h => List.any_eq_true.2 ⟨(d,
    ⟨[1], 1, 0⟩), List.mem_map.2 ⟨d, List.mem_range.2 h, rfl⟩, beq_self_eq_true d⟩⟩,
   ⟨{ fed with lend := { Lending.init with granted := [(5, [200, 201])] } }, 5, List.replicate 128 false, List.replicate 16 0, 7, by
    decide +kernel⟩,
   ⟨fed, 5, [true], by decide +kernel⟩,
   ⟨{ (playing.setReg (LEND_DESC0 17) 0xC0500003).setBytes (folioBase + 256 * 200) [1,2,3] with lend := { Lending.init with descs := [(17, ⟨[200], 38, 0⟩)] } },
    17, by decide +kernel⟩⟩

theorem test_witness_FlowsAndGrants :
    (∃ (s : State) (reqs : List FolioReq) (r : FolioReq), s.deskUp = true ∧ r ∈ reqs ∧ (∀ x ∈ reqs, x ≠ r → r.requester < x.requester) ∧
      ↑r.requester < 2 ∧ s.mapOf ↑r.flow ↑r.vpage = none ∧ ↑r.vpage < 2 ^ s.fld (PW_CFG ↑r.flow) PW_CFG_JB_LOG2 ∧ s.flowFolios ↑r.flow <
      s.guaranteeOf ↑r.flow ∧ (∃ (k : ℕ), k / 4 = mapSet ↑r.flow ↑r.vpage ∧ s.flag (LEND_MAP k) LEND_MAP_VALID = false) ∧ ∃ j < 8192, j ∉
      s.lentFolios)
    ∧ (∃ (s : State) (reqs : List FolioReq) (r : FolioReq), s.deskUp = true ∧ r ∈ reqs ∧ (∀ x ∈ reqs, x ≠ r → r.requester < x.requester) ∧
      ↑r.requester < 2 ∧ s.mapOf ↑r.flow ↑r.vpage = none ∧ ↑r.vpage < 2 ^ s.fld (PW_CFG ↑r.flow) PW_CFG_JB_LOG2 ∧ s.guaranteeOf ↑r.flow ≤
      s.flowFolios ↑r.flow ∧ s.sharedFree = 0)
    ∧ (∃ (s : State) (reqs : List FolioReq) (r : FolioReq), s.deskUp = true ∧ r ∈ reqs ∧ (∀ x ∈ reqs, x ≠ r → r.requester < x.requester) ∧
      2 ≤ ↑r.requester ∧ s.txFolios.length < s.fld LEND_CFG LEND_CFG_TX_RSV ∧ ∃ j < 8192, j ∉ s.lentFolios)
    ∧ (∃ (s : State) (v : State) (f : Fin 1024) (q : Fin 2) (value : Word), Safety.granted (Writer.service q) s v ∧ v.running v.pwIsl =
      true ∧ v.flowEn ↑f = false ∧ v.flowDraining ↑f = false ∧ have e := v.setReg (PW_CFG ↑f) ((value ||| 1) &&& 2147483647); e.mayEnable
      e.enabledFlows ↑f = true)
    ∧ (∃ (s : State) (v : State) (f : Fin 1024) (q : Fin 2) (value : Word), Safety.granted (Writer.service q) s v ∧ v.running v.pwIsl =
      true ∧ v.flowEn ↑f = false ∧ (v.flowDraining ↑f = true ∨ have e := v.setReg (PW_CFG ↑f) ((value ||| 1) &&& 2147483647); e.mayEnable
      e.enabledFlows ↑f = false))
    ∧ (∃ (s : State) (v : State) (f : Fin 1024) (q : Fin 2), Safety.granted (Writer.service q) s v ∧ v.running v.pwIsl = true ∧ v.flowEn
      ↑f = true)
    ∧ (∃ (s : State) (v : State) (f : Fin 1024) (q : Fin 2), Safety.granted (Writer.service q) s v ∧ v.running v.pwIsl = true ∧ v.flowEn
      ↑f = false ∧ v.flowDraining ↑f = false)
    ∧ (∃ (s : State) (v : State) (f : Fin 1024) (q : Fin 2) (word : Fin 16), Safety.granted (Writer.service q) s v ∧ v.running v.pwIsl =
      true ∧ 0 < ↑word ∧ ↑word < 8 ∧ v.flowEn ↑f = false ∧ v.flowDraining ↑f = false)
    ∧ (∃ (s : State) (v : State) (f : Fin 1024) (q : Fin 2) (word : Fin 16), Safety.granted (Writer.service q) s v ∧ v.running v.pwIsl =
      true ∧ 0 < ↑word ∧ ↑word < 8 ∧ (v.flowEn ↑f = true ∨ v.flowDraining ↑f = true))
    ∧ (∃ (s : State) (v : State) (q : Fin 2) (i : Fin 128), Safety.granted (Writer.service q) s v ∧ v.running v.pwIsl = true ∧
      (v.enabledFlows.any fun (g : ℕ) => decide (v.flowProf g = ↑i)) = false)
    ∧ (∃ (s : State) (v : State) (q : Fin 2) (i : Fin 128), Safety.granted (Writer.service q) s v ∧ v.running v.pwIsl = true ∧
      (v.enabledFlows.any fun (g : ℕ) => decide (v.flowProf g = ↑i)) = true)
    ∧ (∃ (s : State) (v : State) (q : Fin 2), Safety.granted (Writer.service q) s v ∧ v.running v.pwIsl = true)
    ∧ (∃ (s : State) (f : Fin 1024), s.flowDraining ↑f = true ∧ s.flowDescs ↑f ≠ [] ∧ s.running islFM = true)
    ∧ (∃ (s : State) (f : Fin 1024), s.flowDraining ↑f = true ∧ s.flowDescs ↑f = [] ∧ s.running (s.flowIsl ↑f) = true) :=
  ⟨⟨(playing.setFld (PW_GUAR 5) PW_GUAR_GUAR 4).setFld (PW_CFG 5) PW_CFG_JB_LOG2 1, [⟨2, 7, 0⟩, ⟨0, 5, 1⟩, ⟨3, 8, 0⟩], ⟨0, 5, 1⟩, by
    decide +kernel, by decide +kernel, by decide +kernel, by decide +kernel, by decide +kernel, by decide +kernel, by decide +kernel, ⟨4 *
    mapSet 5 1, by decide +kernel, by decide +kernel⟩, ⟨0, by decide, by decide +kernel⟩⟩,
   ⟨crowded.setFld (PW_CFG 5) PW_CFG_JB_LOG2 1, [⟨2, 7, 0⟩, ⟨1, 5, 1⟩, ⟨3, 8, 0⟩], ⟨1, 5, 1⟩, by decide +kernel⟩,
   ⟨playing, [⟨2, 7, 0⟩, ⟨3, 8, 0⟩], ⟨2, 7, 0⟩, by decide +kernel⟩,
   ⟨(flowing 0).setFlag (PW_CFG 5) PW_CFG_EN false, _, 5, 0, ((flowing 0).reg (PW_CFG 5)), ⟨rfl, by decide +kernel⟩, by decide +kernel⟩,
   ⟨(flowing 0).setFlag (PW_CFG 5) PW_CFG_EN false, _, 5, 0, 0xFFFF0000, ⟨rfl, by decide +kernel⟩, by decide +kernel⟩,
   ⟨flowing 2, _, 5, 1, ⟨rfl, by decide +kernel⟩, by decide +kernel⟩,
   ⟨(flowing 0).setFlag (PW_CFG 5) PW_CFG_EN false, _, 0, 0xFFFF0000, ⟨rfl, by decide +kernel⟩, by decide +kernel⟩,
   ⟨(flowing 0).setFlag (PW_CFG 5) PW_CFG_EN false, _, 5, 0, 3, ⟨rfl, by decide +kernel⟩, by decide +kernel⟩,
   ⟨((flowing 0).setFlag (PW_CFG 5) PW_CFG_EN false).setFlag (PW_STAT 5) PW_STAT_DRAINING true, _, 5, 0, 1, ⟨rfl, by decide +kernel⟩, by
    decide +kernel⟩,
   ⟨(flowing 0).setFlag (PW_CFG 5) PW_CFG_EN false, _, 0, 0xFFFF0000, ⟨rfl, by decide +kernel⟩, by decide +kernel⟩,
   ⟨flowing 2, _, 1, 3, ⟨rfl, by decide +kernel⟩, by decide +kernel⟩,
   ⟨{ ((flowing 2).setFlag (PW_STAT 5) PW_STAT_DRAINING true).setReg (LEND_DESC0 17) 0xC0500003 with lend := { Lending.init with descs := [(17, ⟨[200], 38, 0⟩)] } },
    _, 5, ⟨rfl, by decide +kernel⟩, by decide +kernel⟩,
   ⟨{ ((flowing 2).setFlag (PW_STAT 5) PW_STAT_DRAINING true).setReg (LEND_DESC0 17) 0xC0500003 with lend := { Lending.init with descs := [(17, ⟨[200], 38, 0⟩)] } },
    5, by decide +kernel⟩,
   ⟨((flowing 0).setFlag (PW_CFG 5) PW_CFG_EN false).setFlag (PW_STAT 5) PW_STAT_DRAINING true, 5, by decide +kernel⟩⟩

theorem test_witness_ReferencesAndSelection :
    (∃ (s : State) (i : Fin 16), s.refUp ↑i = true ∧ s.refState ↑i = rfWait ∧ s.refFails ↑i = false)
    ∧ (∃ (s : State) (i : Fin 16), s.refUp ↑i = true ∧ s.refState ↑i = rfQualified ∧ s.refFails ↑i = true)
    ∧ (∃ (s : State) (i : Fin 16), s.refUp ↑i = true ∧ s.refState ↑i = rfFailed ∧ (s.ref ↑i).freqBad < 2 ∧ (10 ≤ ↑i ∧ ↑i ≤ 14 ∨ s.refAct
      ↑i = false))
    ∧ (∃ (s : State) (i : Fin 16), s.refUp ↑i = true ∧ s.refState ↑i = rfWait ∧ (10 ≤ ↑i ∧ ↑i ≤ 14 ∨ s.refAct ↑i = true))
    ∧ (∃ (s : State) (i : Fin 16), s.refUp ↑i = true ∧ s.refState ↑i = rfQualified ∧ (10 ≤ ↑i ∧ ↑i ≤ 14 ∨ s.refAct ↑i = true))
    ∧ (∃ (s : State) (i : Fin 16), s.refUp ↑i = true ∧ s.refState ↑i = rfQualified ∧ (s.ref ↑i).freqBad < 2 ∧ (10 ≤ ↑i ∧ ↑i ≤ 14 ∨
      s.refAct ↑i = false))
    ∧ (∃ (s : State) (i : Fin 16) (ppb : ℤ), s.refUp ↑i = true ∧ s.refState ↑i = rfQualified ∧ s.dpState 0 = dpLocked ∧ s.sel 0 = ↑i ∧
      12000 < ppb.natAbs)
    ∧ (∃ (s : State) (i : Fin 16) (ppb : ℤ), s.refUp ↑i = true ∧ s.refState ↑i = rfQualified ∧ s.dpState 0 = dpLocked ∧ s.sel 0 = ↑i ∧
      12000 < ppb.natAbs)
    ∧ (∃ (s : State) (i : Fin 16) (ppb : ℤ), s.refUp ↑i = true ∧ s.refState ↑i = rfQualified ∧ (s.dpState 0 ≠ dpLocked ∨ s.sel 0 ≠ ↑i ∨
      ppb.natAbs ≤ 12000))
    ∧ (∃ (s : State) (i : Fin 16) (ppb : ℤ), s.refUp ↑i = true ∧ s.refState ↑i = rfQualified ∧ (s.dpState 0 ≠ dpLocked ∨ s.sel 0 ≠ ↑i ∨
      ppb.natAbs ≤ 12000))
    ∧ (∃ (s : State), s.running islTM = true ∧ s.flag TIM_STAT TIM_STAT_OCXO_FAULT = false)
    ∧ (∃ (s : State) (v : State) (w : Writer) (token : Byte), Safety.granted w s v ∧ v.running islTM = true ∧ v.fld TIM_SEL_CMD
      TIM_SEL_CMD_TOKEN ≠ BitVec.toNat token)
    ∧ (∃ (s : State) (v : State) (w : Writer) (d : Fin 2) (ref : Fin 16) (token : Byte), Safety.granted w s v ∧ v.running islTM = true ∧
      v.fld TIM_SEL_CMD TIM_SEL_CMD_TOKEN ≠ BitVec.toNat token ∧ v.refPermitted ↑d ↑ref = true ∧ (v.refState ↑ref = rfWait ∨ v.refState
      ↑ref = rfQualified))
    ∧ (∃ (s : State) (v : State) (w : Writer) (d : Fin 2) (ref : Fin 16) (token : Byte), Safety.granted w s v ∧ v.running islTM = true ∧
      v.fld TIM_SEL_CMD TIM_SEL_CMD_TOKEN ≠ BitVec.toNat token ∧ v.refPermitted ↑d ↑ref = true ∧ v.refState ↑ref = rfQualified ∧ v.flag
      TIM_CFG TIM_CFG_QL_EN = false)
    ∧ (∃ (s : State) (v : State) (w : Writer) (d : Fin 2) (token : Byte), Safety.granted w s v ∧ v.running islTM = true ∧ v.fld
      TIM_SEL_CMD TIM_SEL_CMD_TOKEN ≠ BitVec.toNat token ∧ v.dpRan ↑d = true)
    ∧ (∃ (s : State) (v : State) (w : Writer) (d : Fin 2) (ref : Fin 16) (token : Byte) (i : Instr), Safety.granted w s v ∧ v.running
      islTM = true ∧ v.fld TIM_SEL_CMD TIM_SEL_CMD_TOKEN ≠ BitVec.toNat token ∧ (i = Instr.selForced d ref w token ∧ v.refPermitted ↑d
      ↑ref = false ∨ i = Instr.selManual d ref w token ∧ v.refState ↑ref ≠ rfQualified ∨ i = Instr.selForcedHoldover d w token ∧ v.dpRan
      ↑d = false)) :=
  ⟨⟨timed 2, 3, by decide +kernel⟩,
   ⟨(steered 3 2).setFlag (LINE_CFG 3) LINE_CFG_EN false, 3, by decide +kernel⟩,
   ⟨(timed 1).setRef 3 ⟨false, 1, true, 0⟩, 3, by decide +kernel⟩,
   ⟨(timed 2).setFlag (LINE_S1 3) LINE_S1_RX_VALID false, 3, by decide +kernel⟩,
   ⟨(steered 3 2).setFlag (LINE_CFG 3) LINE_CFG_EN false, 3, by decide +kernel⟩,
   ⟨(steered 3 2).setFlag TIM_STAT TIM_STAT_SEL0_VALID false, 3, by decide +kernel⟩,
   ⟨steered 3 2, 3, 12001, by decide +kernel⟩,
   ⟨steered 3 2, 3, -12001, by decide +kernel⟩,
   ⟨steered 3 2, 3, -12000, by decide +kernel⟩,
   ⟨steered 3 1, 3, 131071, by decide +kernel⟩,
   ⟨timed 2, by decide +kernel⟩,
   ⟨timed 3, _, .service 0, 9, ⟨rfl, by decide +kernel⟩, by decide +kernel⟩,
   ⟨steered 3 2, _, .maintenance, 0, 3, 9, ⟨rfl, by decide +kernel⟩, by decide +kernel⟩,
   ⟨(steered 3 2).setFlag TIM_CFG TIM_CFG_QL_EN false, _, .maintenance, 0, 3, 9, ⟨rfl, by decide +kernel⟩, by decide +kernel⟩,
   ⟨steered 3 2, _, .maintenance, 0, 9, ⟨rfl, by decide +kernel⟩, by decide +kernel⟩,
   ⟨timed 3, _, .service 0, 1, 3, 9, Instr.selForcedHoldover 1 (.service 0) 9, ⟨rfl, by decide +kernel⟩, by decide +kernel⟩⟩

theorem test_witness_DpllsAndHoldover :
    (∃ (s : State), s.running islTM = true ∧ s.flag TIM_STAT TIM_STAT_OCXO_FAULT = false)
    ∧ (∃ (s : State), s.running islTM = true ∧ s.flag TIM_STAT TIM_STAT_OCXO_FAULT = true)
    ∧ (∃ (s : State) (d : Fin 4), s.running islTM = true ∧ s.dpState ↑d = dpAcquiring ∧ (s.dpll ↑d).err.natAbs ≤ s.lockWindow ↑d ∧ (d = 0
      → (s.refOffset (s.sel 0)).natAbs ≤ 12000))
    ∧ (∃ (s : State) (d : Fin 4), s.running islTM = true ∧ s.dpState ↑d = dpLocked ∧ 4 * s.lockWindow ↑d < (s.dpll ↑d).err.natAbs)
    ∧ (∃ (s : State) (d : Fin 4), s.running islTM = true ∧ s.dpState ↑d = dpLocked ∧ 4 * s.lockWindow ↑d < (s.dpll ↑d).err.natAbs)
    ∧ (∃ (s : State), s.running islTM = true ∧ s.dpState 0 = dpLocked)
    ∧ (∃ (s : State), s.running islTM = true ∧ s.dpState 0 = dpHoldover)
    ∧ (∃ (s : State) (fault : Bool), s.running islTM = true ∧ s.flag TIM_HO_STAT TIM_HO_STAT_TEMP_FAULT = !fault)
    ∧ (∃ (s : State), s.running islTM = true)
    ∧ (∃ (s : State) (v : State), v = s.settleRegs ∧ v.running islMX = true ∧ v.running islTM = true)
    ∧ (∃ (s : State) (v : State) (q : Fin 2) (token : Byte), Safety.granted (Writer.service q) s v ∧ v.running islTM = true ∧ v.fld
      TIM_HO_CMD TIM_HO_CMD_TOKEN ≠ BitVec.toNat token) :=
  ⟨⟨steered 3 2, by decide +kernel⟩,
   ⟨(steered 3 1).setFlag TIM_STAT TIM_STAT_OCXO_FAULT true, by decide +kernel⟩,
   ⟨(steered 3 1).setFlag TIM_STAT TIM_STAT_OCXO_FAULT true, 0, by decide +kernel⟩,
   ⟨(steered 3 2).setDpll 0 { (steered 3 2).dpll 0 with err := -900000000000 }, 0, by decide +kernel⟩,
   ⟨(steered 3 2).setDpll 3 { (steered 3 2).dpll 3 with err := 900000000000 }, 3, by decide +kernel⟩,
   ⟨steered 3 2, by decide +kernel⟩,
   ⟨(steered 3 3).setFlag TIM_HO_STAT TIM_HO_STAT_TEMP_FAULT true, by decide +kernel⟩,
   ⟨(steered 3 2).setDpll 3 { (steered 3 2).dpll 3 with err := 900000000000 }, 3, by decide +kernel⟩,
   ⟨steered 3 2, by decide +kernel⟩,
   ⟨(steered 3 2).setDpll 0 { (steered 3 2).dpll 0 with err := -900000000000 }, _, rfl, by decide +kernel⟩,
   ⟨steered 3 2, _, 0, 3, ⟨rfl, by decide +kernel⟩, by decide +kernel⟩⟩

theorem test_witness_EsmcAndPtp :
    (∃ (s : State) (p : Fin 2), s.running islTM = true ∧ s.flag (TIM_ESMC_RX ↑p) TIM_ESMC_RX_TIMEOUT = false)
    ∧ (∃ (s : State), s.running islTM = true)
    ∧ (∃ (s : State) (p : Fin 2), s.running islTM = true ∧ s.flag (TIM_PTP_PORT_CFG ↑p) TIM_PTP_PORT_CFG_EN = true)
    ∧ (∃ (s : State) (v : State) (q : Fin 2), Safety.granted (Writer.service q) s v ∧ v.running islTM = true)
    ∧ (∃ (s : State) (x : ℤ), s.running islTM = true ∧ (s.sel 1 = 10 ∨ s.sel 1 = 11) ∧ s.selValid 1 = true ∧ s.dpState 1 = dpAcquiring ∧
      s.tm.phase = some x ∧ 1000000000000 < (x * 1953125 / 128).natAbs)
    ∧ (∃ (s : State) (v : State), v = s.settleRegs ∧ v.running islMX = true ∧ v.running islTM = true) :=
  ⟨⟨{ (steered 3 1).setFld TIM_STAT TIM_STAT_SEL1 11 with tm := { (steered 3 1).tm with phase := some (-65600000) } }, -65600000, by
    decide +kernel⟩,
   ⟨((steered 3 1).setFlag (TIM_PTP_PORT_CFG 1) TIM_PTP_PORT_CFG_EN true).setReg (TIM_ESMC_TX 1) 0x10001, by decide +kernel⟩,
   ⟨((steered 3 1).setFlag (TIM_PTP_PORT_CFG 1) TIM_PTP_PORT_CFG_EN true).setReg (TIM_ESMC_TX 1) 0x10001, 1, by decide +kernel⟩,
   ⟨{ (steered 3 1).setFld TIM_STAT TIM_STAT_SEL1 11 with tm := { (steered 3 1).tm with phase := some (-65600000) } }, _, -65600000, ⟨rfl,
    by decide +kernel⟩, by decide +kernel⟩,
   ⟨{ (steered 3 1).setFld TIM_STAT TIM_STAT_SEL1 11 with tm := { (steered 3 1).tm with phase := some (-65600000) } }, -65600000, by
    decide +kernel⟩,
   ⟨{ (steered 3 1).setFld TIM_STAT TIM_STAT_SEL1 11 with tm := { (steered 3 1).tm with phase := some (-65600000) } }, _, rfl, by
    decide +kernel⟩⟩

theorem test_witness_TieLinesAndLinkMessages :
    (∃ (s : State) (sym : ℕ), s.sp.powered = true ∧ (s.sp.powerFail ≠ PowerFail.idle ∧ sym = 0 ∨ s.sp.powerFail = PowerFail.idle ∧
      s.inState [stArmed, stServing, stLimp, stSafe] = true ∧ s.twnStanding = 1 ∧ sym = 4 ∨ s.sp.powerFail = PowerFail.idle ∧ s.inState
      [stArmed, stServing, stLimp, stSafe] = true ∧ s.twnStanding = 2 ∧ sym = 3 ∨ s.sp.powerFail = PowerFail.idle ∧ s.inState [stArmed,
      stSafe] = true ∧ s.twnStanding ≠ 1 ∧ s.twnStanding ≠ 2 ∧ sym = 2 ∨ s.sp.powerFail = PowerFail.idle ∧ s.live = true ∧ s.paired =
      false ∧ s.twnStanding ≠ 1 ∧ s.twnStanding ≠ 2 ∧ sym = 1))
    ∧ (∃ (s : State) (width : ℕ), s.sp.dormant = false ∧ s.paired = true ∧ ∀ (k : ℕ), 1 ≤ k → k ≤ 4 → 40 * width + 250 < 1000 * k ∨ 1000 *
      k + 250 < 40 * width)
    ∧ (∃ (s : State) (width : ℕ) (k : ℕ), s.sp.dormant = false ∧ s.paired = true ∧ 1 ≤ k ∧ k ≤ 4 ∧ 1000 * k ≤ 40 * width + 250 ∧ 40 *
      width ≤ 1000 * k + 250)
    ∧ (∃ (s : State), s.sp.dormant = false ∧ s.twn TWN_STAT_TIE_OK = true)
    ∧ (∃ (s : State), s.linkRuns = true)
    ∧ (∃ (s : State), s.linkRuns = true ∧ s.senior = true ∧ s.twn TWN_STAT_LINK_UP = true)
    ∧ (∃ (s : State), s.linkRuns = true ∧ s.tw.unacked ≠ [])
    ∧ (∃ (s : State) (m : MsgHead), Safety.nextMsg s 0 m)
    ∧ (∃ (s : State) (m : MsgHead), s.linkRuns = true ∧ ((m.seq.toNat + 65536 - s.tw.rx0) % 65536 = 0 ∨ 32768 ≤ (m.seq.toNat + 65536 -
      s.tw.rx0) % 65536)) :=
  ⟨⟨{ linked 4 2 true with sp := { (linked 4 2 true).sp with powerFail := .waiting } }, 0, by decide +kernel⟩,
   ⟨{ linked 4 2 true with sp := { (linked 4 2 true).sp with powerFail := .waiting } }, 0, by decide +kernel⟩,
   ⟨linked 4 2 true, 30, 1, by decide +kernel⟩,
   ⟨(linked 4 2 true).setFlag TWN_STAT TWN_STAT_TIE_OK true, by decide +kernel⟩,
   ⟨(linked 4 2 true).setTw { (linked 4 2 true).tw with unacked := [(3, .mirrorC [⟨1, 2, 3⟩]), (4, .handover 5 true)] }, by
    decide +kernel⟩,
   ⟨(linked 4 2 true).setTw { (linked 4 2 true).tw with unacked := [(3, .mirrorC [⟨1, 2, 3⟩]), (4, .handover 5 true)] }, by
    decide +kernel⟩,
   ⟨(linked 4 2 true).setTw { (linked 4 2 true).tw with unacked := [(3, .mirrorC [⟨1, 2, 3⟩]), (4, .handover 5 true)] }, by
    decide +kernel⟩,
   ⟨(linked 4 1 true).setFlag TWN_STAT TWN_STAT_LINK_UP false, ⟨1, 0⟩, by decide +kernel⟩,
   ⟨linked 4 1 true, ⟨0, 0⟩, by decide +kernel⟩⟩

theorem test_witness_MirroringAndLinkErrors :
    (∃ (s : State) (m : MsgHead), Safety.nextMsg s 1 m ∧ s.mirrorSink = true ∧ s.running islPX = true)
    ∧ (∃ (s : State) (m : MsgHead), Safety.nextMsg s 1 m ∧ s.mirrorSink = true ∧ s.running islTM = true)
    ∧ (∃ (s : State) (m : MsgHead), Safety.nextMsg s 2 m ∧ s.mirrorSink = true)
    ∧ (∃ (s : State), s.linkRuns = true ∧ s.mirroring = true)
    ∧ (∃ (s : State), s.running 20 = true ∧ 0 < s.fld TWN_LINK_ERR TWN_LINK_ERR_ERR)
    ∧ (∃ (s : State), s.running 20 = true) :=
  ⟨⟨linked 4 1 true, ⟨1, 0⟩, by decide +kernel⟩,
   ⟨linked 4 1 true, ⟨1, 0⟩, by decide +kernel⟩,
   ⟨linked 4 1 true, ⟨1, 0⟩, by decide +kernel⟩,
   ⟨linked 4 2 true, by decide +kernel⟩,
   ⟨((linked 4 2 true).setFld TWN_LINK_ERR TWN_LINK_ERR_ERR 1).setFlag TWN_STAT TWN_STAT_QUAR true, by decide +kernel⟩,
   ⟨linked 4 2 true, by decide +kernel⟩⟩

theorem test_witness_FrameTimingAndCalibration :
    (∃ (s : State), s.running 20 = true)
    ∧ (∃ (s : State), s.linkRuns = true ∧ s.role ≠ roActive)
    ∧ (∃ (s : State) (m : MsgHead), Safety.nextMsg s 0 m ∧ s.senior = true)
    ∧ (∃ (s : State) (m : MsgHead), Safety.nextMsg s 0 m ∧ s.senior = false) :=
  ⟨⟨lined 2 2, by decide +kernel⟩,
   ⟨linked 4 1 true, by decide +kernel⟩,
   ⟨linked 4 1 true, ⟨1, 0⟩, by decide +kernel⟩,
   ⟨linked 4 2 false, ⟨1, 0⟩, by decide +kernel⟩⟩

theorem test_witness_RolesAndHandover :
    (∃ (s : State), s.linkRuns = true ∧ s.tw.handover ≠ none ∧ s.role = roActive ∧ s.tw.unacked = [] ∧ s.mirrorQ = [])
    ∧ (∃ (s : State), s.linkRuns = true ∧ s.tw.handover ≠ none ∧ s.role = roActive ∧ s.flag SUP_SAFETY_STAT SUP_SAFETY_STAT_CLAIM_OUT =
      false)
    ∧ (∃ (s : State), s.linkRuns = true ∧ s.tw.handover ≠ none ∧ s.role = roStandby)
    ∧ (∃ (s : State), s.linkRuns = true ∧ s.tw.handover ≠ none ∧ s.role = roStandby ∧ s.flag SUP_SAFETY_STAT SUP_SAFETY_STAT_CLAIM_OUT =
      true)
    ∧ (∃ (s : State) (order : ℕ), s.linkRuns = true ∧ s.role = roActive ∧ s.twn TWN_STAT_HITLESS = true ∧ s.twn TWN_STAT_MISMATCH = false
      ∧ s.tw.handover = none ∧ s.tw.unacked.length < 64 ∧ s.twn TWN_STAT_EQ_SEL = s.senior ∧ s.fld TWN_STAT TWN_STAT_EQ_REQ = order ∧
      (order = 2 ∨ order = 7 ∨ order = 8 ∨ order = 10))
    ∧ (∃ (s : State) (m : MsgHead), Safety.nextMsg s 2 m ∧ s.role = roStandby ∧ s.twn TWN_STAT_MISMATCH = false)
    ∧ (∃ (s : State), s.linkRuns = true)
    ∧ (∃ (s : State), s.running 20 = true ∧ s.paired = true ∧ (s.live = false ∨ s.sp.powerFail ≠ PowerFail.idle)) :=
  ⟨⟨(hitless 2 true).setTw { (hitless 2 true).tw with handover := some 3 }, by decide +kernel⟩,
   ⟨(hitless 2 true).setTw { (hitless 2 true).tw with handover := some 3 }, by decide +kernel⟩,
   ⟨((hitless 1 true).setTw { (hitless 1 true).tw with handover := some 3 }).setFlag SUP_SAFETY_STAT SUP_SAFETY_STAT_CLAIM_OUT true, by
    decide +kernel⟩,
   ⟨((hitless 1 true).setTw { (hitless 1 true).tw with handover := some 3 }).setFlag SUP_SAFETY_STAT SUP_SAFETY_STAT_CLAIM_OUT true, by
    decide +kernel⟩,
   ⟨((hitless 2 true).setFld TWN_STAT TWN_STAT_EQ_REQ 7).setFlag TWN_STAT TWN_STAT_EQ_SEL true, 7, by decide +kernel⟩,
   ⟨hitless 1 true, ⟨1, 0⟩, by decide +kernel⟩,
   ⟨(hitless 2 true).setTw { (hitless 2 true).tw with handover := some 3 }, by decide +kernel⟩,
   ⟨linked 3 1 true, by decide +kernel⟩⟩

theorem test_witness_ClaimsAndEquipmentCommands :
    (∃ (s : State), s.running 20 = true ∧ s.paired = true ∧ s.senior = false ∧ s.role = roActive ∧ s.flag SUP_SAFETY_STAT
      SUP_SAFETY_STAT_CLAIM_IN = true ∧ s.flag SUP_SAFETY_STAT SUP_SAFETY_STAT_CLAIM_OUT = true)
    ∧ (∃ (s : State), s.running 20 = true ∧ s.paired = true ∧ s.senior = false ∧ s.role = roActive ∧ s.twn TWN_STAT_SILENT = true)
    ∧ (∃ (s : State), s.senior = true)
    ∧ (∃ (s : State) (i : Instr), s.mayClaim = true ∧ s.role ≠ roActive ∧ (i = Instr.seniorSoloClaim ∧ s.senior = true ∧ s.twn
      TWN_STAT_SILENT = true ∨ i = Instr.juniorSoloClaim ∧ s.senior = false ∧ s.twn TWN_STAT_SILENT = true ∧ s.claimLowSince s.tw.silentAt
      = true ∨ i = Instr.startWaitExpiry ∧ s.role = roObserver ∧ s.tw.known = false ∧ s.twn TWN_STAT_MISMATCH = false ∧ (s.senior = true ∨
      s.claimLowSince s.tw.servedAt = true)))
    ∧ (∃ (s : State) (v : State) (w : Writer) (token : Byte) (i : Instr) (cmd : ℕ) (res : ℕ), Safety.granted w s v ∧ v.running 20 = true ∧
      v.fld TWN_CMD TWN_CMD_TOKEN ≠ BitVec.toNat token ∧ v.paired = true ∧ v.twnStanding = 0 ∧ v.twinOrders = [] ∧ (i = Instr.twnClear w
      token ∧ cmd = 0 ∧ res = 2 ∨ i = Instr.twnLo w token ∧ cmd = 1 ∧ res = 1 ∨ i = Instr.twnFs w token ∧ cmd = 2 ∧ res = 1))
    ∧ (∃ (s : State) (v : State) (w : Writer) (token : Byte) (i : Instr) (cmd : ℕ), Safety.granted w s v ∧ v.running 20 = true ∧ v.fld
      TWN_CMD TWN_CMD_TOKEN ≠ BitVec.toNat token ∧ v.paired = true ∧ v.twnStanding = 0 ∧ v.twinOrders = [] ∧ (i = Instr.twnMsJ w token ∧
      cmd = 3 ∨ i = Instr.twnMsS w token ∧ cmd = 4) ∧ v.twn TWN_STAT_HITLESS = true)
    ∧ (∃ (s : State) (v : State) (w : Writer) (token : Byte) (i : Instr) (cmd : ℕ), Safety.granted w s v ∧ v.running 20 = true ∧ v.fld
      TWN_CMD TWN_CMD_TOKEN ≠ BitVec.toNat token ∧ v.paired = true ∧ v.twnStanding = 0 ∧ v.twinOrders = [] ∧ (i = Instr.twnMsJ w token ∧
      cmd = 3 ∨ i = Instr.twnMsS w token ∧ cmd = 4) ∧ v.twn TWN_STAT_HITLESS = false)
    ∧ (∃ (s : State) (v : State) (w : Writer) (token : Byte) (i : Instr), Safety.granted w s v ∧ v.running 20 = true ∧ v.fld TWN_CMD
      TWN_CMD_TOKEN ≠ BitVec.toNat token ∧ v.paired = false ∧ (i = Instr.twnClear w token ∨ i = Instr.twnLo w token ∨ i = Instr.twnFs w
      token ∨ i = Instr.twnMsJ w token ∨ i = Instr.twnMsS w token))
    ∧ (∃ (s : State), s.running 20 = true ∧ s.twn TWN_STAT_WTR = true) :=
  ⟨⟨(linked 4 2 false).setFlag SUP_SAFETY_STAT SUP_SAFETY_STAT_CLAIM_IN true |>.setFlag SUP_SAFETY_STAT SUP_SAFETY_STAT_CLAIM_OUT true, by
    decide +kernel⟩,
   ⟨(linked 4 2 false).setFlag TWN_STAT TWN_STAT_SILENT true, by decide +kernel⟩,
   ⟨linked 4 2 true, by decide +kernel⟩,
   ⟨((linked 4 1 true).setFlag TWN_STAT TWN_STAT_SILENT true).setFlag TWN_STAT TWN_STAT_LINK_UP false, .seniorSoloClaim, by
    decide +kernel⟩,
   ⟨linked 4 2 true, _, .service 0, 5, .twnClear (.service 0) 5, 0, 2, ⟨rfl, by decide +kernel⟩, by decide +kernel⟩,
   ⟨hitless 2 true, _, .maintenance, 5, .twnMsS .maintenance 5, 4, ⟨rfl, by decide +kernel⟩, by decide +kernel⟩,
   ⟨linked 4 2 true, _, .service 0, 5, .twnMsJ (.service 0) 5, 3, ⟨rfl, by decide +kernel⟩, by decide +kernel⟩,
   ⟨unlk 4, _, .maintenance, 5, .twnMsJ .maintenance 5, ⟨rfl, by decide +kernel⟩, by decide +kernel⟩,
   ⟨(linked 4 2 false).setFlag TWN_STAT TWN_STAT_WTR true, by decide +kernel⟩⟩

theorem test_witness_IdleStepAndReset :
    (∃ (s : State), s.pending = []) :=
  ⟨up 4, by decide +kernel⟩

theorem test_witness_CoreInstructionsRoundTrip :
    (∃ (i : Instr) (q : Fin 2) (w : Word), i.wf = true ∧ encodeCore i = some (q, w))
    ∧ (∃ (q : Fin 2) (w : Word) (i : Instr), decodeCore q w = some i) :=
  ⟨⟨.lui 0 5 0x4011, 0, 0x1CA04011, by decide +kernel⟩,
   ⟨0, 0x1CA04011, .lui 0 5 0x4011, by decide +kernel⟩⟩

theorem test_witness_QuietCommandsKeepMemoryAndLifeCycle :
    (∃ (i : Instr), Safety.quiet i = true) :=
  ⟨.refSelection, by decide +kernel⟩

theorem test_witness_CanonicalFormKept :
    (∃ (s : State) (t : State), Safety.canonical s ∧ step s = Host.Outcome.next t) :=
  ⟨State.reset, _, by decide +kernel, rfl⟩

theorem test_witness_GeneralRegisterRules :
    (∃ (s : State) (q : Fin 2) (i : Instr), s.mayExec ↑q = true ∧ ((∃ (ga : Fin 32) (gb : Fin 32), i ∈ [Instr.add q 0 ga gb, Instr.sub q 0
      ga gb, Instr.and q 0 ga gb, Instr.or q 0 ga gb, Instr.xor q 0 ga gb, Instr.sll q 0 ga gb, Instr.srl q 0 ga gb, Instr.sra q 0 ga gb,
      Instr.slt q 0 ga gb, Instr.sltu q 0 ga gb, Instr.mul q 0 ga gb, Instr.mulhu q 0 ga gb, Instr.divu q 0 ga gb, Instr.remu q 0 ga gb])
      ∨ ∃ (ga : Fin 32) (imm : BitVec 16), i ∈ [Instr.addi q 0 ga imm, Instr.andi q 0 ga imm, Instr.ori q 0 ga imm, Instr.xori q 0 ga imm,
      Instr.slti q 0 ga imm, Instr.lui q 0 imm, Instr.jalr q 0 ga imm]))
    ∧ (∃ (s : State) (q : Fin 2), s.mayExec ↑q = true)
    ∧ (∃ (s : State) (q : Fin 2) (gd : Fin 32), s.mayExec ↑q = true ∧ gd ≠ 0)
    ∧ (∃ (s : State) (q : Fin 2) (gd : Fin 32) (gb : Fin 32), s.mayExec ↑q = true ∧ gd ≠ 0 ∧ BitVec.toNat ((s.core ↑q).get ↑gb) = 0) :=
  ⟨⟨ran 1 3 [(1, 77), (2, 0)], 1, .add 1 0 1 2, by decide +kernel, Or.inl ⟨1, 2, by simp⟩⟩,
   ⟨ran 1 3 [(1, 77), (2, 0)], 1, by decide +kernel⟩,
   ⟨ran 1 3 [(1, 77), (2, 0)], 1, 4, by decide +kernel⟩,
   ⟨ran 1 3 [(1, 77), (2, 0)], 1, 4, 2, by decide +kernel⟩⟩

theorem test_witness_ScratchRegister :
    (∃ (s : State), s.running islEH = true ∧ s.unlocked = true ∧ s.maintained = true ∧ s.running islSP = true ∧ s.mtx.txns = [])
    ∧ (∃ (s : State), s.running islEH = true ∧ s.unlocked = true ∧ s.maintained = true ∧ s.running islSP = true ∧ s.mtx.txns = [] ∧ s.flag
      EVT_CFG EVT_CFG_SPI_EN = true) :=
  ⟨⟨(unlk 4).setFlag EVT_CFG EVT_CFG_SPI_EN true, by decide +kernel⟩,
   ⟨(unlk 4).setFlag EVT_CFG EVT_CFG_SPI_EN true, by decide +kernel⟩⟩

theorem test_witness_RemapOfRomAndSram :
    (∃ (s : State) (a : ℕ) (n : ℕ), s.flag MTX_REMAP MTX_REMAP_SWAP = false ∧ a < 32768 ∧ a % n = 0)
    ∧ (∃ (s : State) (a : ℕ) (n : ℕ), s.flag MTX_REMAP MTX_REMAP_SWAP = false ∧ 268435456 ≤ a ∧ a ≤ 268959743 ∧ a % n = 0)
    ∧ (∃ (s : State) (a : ℕ), s.flag MTX_REMAP MTX_REMAP_SWAP = false ∧ 32768 ≤ a ∧ a < 524288)
    ∧ (∃ (s : State) (a : ℕ) (n : ℕ), s.flag MTX_REMAP MTX_REMAP_SWAP = true ∧ a ≤ 524287 ∧ a % n = 0)
    ∧ (∃ (s : State) (a : ℕ) (n : ℕ), s.flag MTX_REMAP MTX_REMAP_SWAP = true ∧ 268435456 ≤ a ∧ a ≤ 268468223 ∧ a % n = 0)
    ∧ (∃ (s : State) (a : ℕ), s.flag MTX_REMAP MTX_REMAP_SWAP = true ∧ 268468224 ≤ a ∧ a < 268959744) :=
  ⟨⟨up 4, 0x7FF8, 8, by decide +kernel⟩,
   ⟨up 4, 0x10000008, 8, by decide +kernel⟩,
   ⟨up 4, 0x8000, by decide +kernel⟩,
   ⟨(up 4).setFlag MTX_REMAP MTX_REMAP_SWAP true, 0x7FFF8, 8, by decide +kernel⟩,
   ⟨(up 4).setFlag MTX_REMAP MTX_REMAP_SWAP true, 0x10007FF8, 4, by decide +kernel⟩,
   ⟨(up 4).setFlag MTX_REMAP MTX_REMAP_SWAP true, 0x10008000, by decide +kernel⟩⟩

theorem test_witness_FenceWritesWithoutEffect :
    (∃ (s : State) (token : Byte) (go : Bool), Safety.mayCommand Writer.maintenance s ∧ s.running islMX = true ∧ (go = false ∨ s.fld
      MTX_FENCE MTX_FENCE_TOKEN = BitVec.toNat token)) :=
  ⟨unlk 4, 4, false, by decide +kernel⟩

end
end

section
/-! PROOF of O56. Every command keeps the canonical form of memory and registers, from the `keeps_` lemmas of the families. -/

namespace Sys2Proof.Machine

/-- Every command keeps the queue, true time and the canonical form: the `keeps_` lemma of its own meaning, for each row of the table. -/
theorem keeps_exec {r s : State} (h : Keeps r s) (i : Instr) : KeepsO r (exec i s) := by
  cases i with
  -- power (R40, R49, R54, R55, R380, R382, R386)
  | spPowerOnReset => exact keeps_execSpPowerOnReset h
  | converterStart => exact keeps_execConverterStart h
  | mainPowerGood senior test vbak => exact keeps_execMainPowerGood h senior test vbak
  | powerFailure => exact keeps_execPowerFailure h
  | archiveWriteDone => exact keeps_execArchiveWriteDone h
  | powerReturn => exact keeps_execPowerReturn h
  | converterStop => exact keeps_execConverterStop h
  | railFailure r => exact keeps_execRailFailure h r
  | railRestart => exact keeps_execRailRestart h
  | sg5Warning c => exact keeps_execSg5Warning h c
  | sg5Trip c => exact keeps_execSg5Trip h c
  | sg5TripClear c => exact keeps_execSg5TripClear h c
  | vbakMeasure vbak => exact keeps_execVbakMeasure h vbak
  | rtBrownOut => exact keeps_execRtBrownOut h
  -- supervisor and safety (R28 to R48)
  | mainClockDeviation => exact keeps_execMainClockDeviation h
  | safetySelfTest pass => exact keeps_execSafetySelfTest h pass
  | padEnableMismatch => exact keeps_execPadEnableMismatch h
  | keepaliveLoss => exact keeps_execKeepaliveLoss h
  | key2 => exact keeps_execKey2 h
  | claimInChange level => exact keeps_execClaimInChange h level
  | claimDisagree => exact keeps_execClaimDisagree h
  | monitorEvaluation phaseA phaseB => exact keeps_execMonitorEvaluation h phaseA phaseB
  | squelchRelease => exact keeps_execSquelchRelease h
  | tmReport freq caseTemp ntcTemp phases => exact keeps_execTmReport h freq caseTemp ntcTemp phases
  | spLaserShutdown n losHeld => exact keeps_execSpLaserShutdown h n losHeld
  | l1Timeout g awaitedHigh => exact keeps_execL1Timeout h g awaitedHigh
  | l2Timeout k => exact keeps_execL2Timeout h k
  | l3Timeout q => exact keeps_execL3Timeout h q
  | l4Timeout q => exact keeps_execL4Timeout h q
  | l5Timeout idx => exact keeps_execL5Timeout h idx
  | l6Timeout => exact keeps_execL6Timeout h
  | l7Timeout => exact keeps_execL7Timeout h
  | l8Timeout => exact keeps_execL8Timeout h
  | safeHoldExpiry testPasses => exact keeps_execSafeHoldExpiry h testPasses
  | safeSeal => exact keeps_execSafeSeal h
  | safeCountClear => exact keeps_execSafeCountClear h
  | l7Kick w checked kick token => exact keeps_execL7Kick h w checked kick token
  | fittingMismatch => exact keeps_execFittingMismatch h
  | fittingMismatchClear => exact keeps_execFittingMismatchClear h
  | islandReset idx enter => exact keeps_execIslandReset h idx enter
  -- loader and image (R61 to R88, R420)
  | bootRomSelfCheck crcOk => exact keeps_execBootRomSelfCheck h crcOk
  | norDiscovery jedec sfdp => exact keeps_execNorDiscovery h jedec sfdp
  | catalogHeader bytes => exact keeps_execCatalogHeader h bytes
  | registerLoadRecord words => exact keeps_execRegisterLoadRecord h words
  | serviceProgramHead words => exact keeps_execServiceProgramHead h words
  | sectionEnd rest => exact keeps_execSectionEnd h rest
  | slotChecking colophon stalls => exact keeps_execSlotChecking h colophon stalls
  | archiveScan heads records => exact keeps_execArchiveScan h heads records
  | archivePrepare eraseOk stalls => exact keeps_execArchivePrepare h eraseOk stalls
  | nvmWindowAccess port write addr => exact keeps_execNvmWindowAccess h port write addr
  -- matrix and fences (R94 to R115)
  | matrixRequest reqs => exact keeps_execMatrixRequest h reqs
  | matrixResponse k => exact keeps_execMatrixResponse h k
  | lateResponse target tag => exact keeps_execLateResponse h target tag
  | masterPortReset port => exact keeps_execMasterPortReset h port
  | registerWrite w addr value => exact keeps_execRegisterWrite h w addr value
  | mtxTxnRead k => exact keeps_execMtxTxnRead h k
  | mtxItcRead idx => exact keeps_execMtxItcRead h idx
  | mtxFenceGo w token go => exact keeps_execMtxFenceGo h w token go
  | fenceDrainDone => exact keeps_execFenceDrainDone h
  | fenceMarker idx => exact keeps_execFenceMarker h idx
  | fenceMarkerTimeout => exact keeps_execFenceMarkerTimeout h
  -- line ports (R116 to R144)
  | losBallChange n level => exact keeps_execLosBallChange h n level
  | modAbsChange n level => exact keeps_execModAbsChange h n level
  | modAbsSettle n => exact keeps_execModAbsSettle h n
  | electricalLos n lost => exact keeps_execElectricalLos h n lost
  | cdrLockChange n locked => exact keeps_execCdrLockChange h n locked
  | lineFrame n f => exact keeps_execLineFrame h n f
  | berSubwindowEnd n d => exact keeps_execBerSubwindowEnd h n d
  | lineKTxWrite n w value inKSlot => exact keeps_execLineKTxWrite h n w value inKSlot
  | holdoffEnd n => exact keeps_execHoldoffEnd h n
  | alsDeactivation n => exact keeps_execAlsDeactivation h n
  | alsRestartPulse n => exact keeps_execAlsRestartPulse h n
  | alsPulseEnd n => exact keeps_execAlsPulseEnd h n
  | alsLosClear n => exact keeps_execAlsLosClear h n
  | alsManualRestart n w token => exact keeps_execAlsManualRestart h n w token
  | alsManualTest n w token => exact keeps_execAlsManualTest h n w token
  | lineEnable n w => exact keeps_execLineEnable h n w
  | lineDisable n w => exact keeps_execLineDisable h n w
  -- paths and Index (R145 to R167)
  | pointerReading p r => exact keeps_execPointerReading h p r
  | pathSecondEnd p => exact keeps_execPathSecondEnd h p
  | pointerGeneration p fill vc => exact keeps_execPointerGeneration h p fill vc
  | indexCheckSweep => exact keeps_execIndexCheckSweep h
  | indexEntryWrite e word w value => exact keeps_execIndexEntryWrite h e word w value
  | sncpEvaluation e => exact keeps_execSncpEvaluation h e
  | sncpLockout e w => exact keeps_execSncpLockout h e w
  | sncpForcedSwitch e w => exact keeps_execSncpForcedSwitch h e w
  | sncpManualToProtecting e w => exact keeps_execSncpManualToProtecting h e w
  | sncpManualToA e w => exact keeps_execSncpManualToA h e w
  | sncpHoldoffExpiry e c => exact keeps_execSncpHoldoffExpiry h e c
  | sncpWtrExpiry e => exact keeps_execSncpWtrExpiry h e
  -- tributaries (R168 to R196)
  | tribCdrLockLoss p => exact keeps_execTribCdrLockLoss h p
  | tribCdrUnlockLos p => exact keeps_execTribCdrUnlockLos h p
  | tribLos p lost => exact keeps_execTribLos h p lost
  | tribAisBlock p zeros => exact keeps_execTribAisBlock h p zeros
  | tribFrame p rx => exact keeps_execTribFrame h p rx
  | crc4MultiframeSearchEnd p => exact keeps_execCrc4MultiframeSearchEnd h p
  | tribLofTimer p => exact keeps_execTribLofTimer h p
  | tribSampleClockInvalid c => exact keeps_execTribSampleClockInvalid h c
  | tribSampleClockValid c => exact keeps_execTribSampleClockValid h c
  | uncontrolledSlip p overflow => exact keeps_execUncontrolledSlip h p overflow
  | controlledSlip p delete => exact keeps_execControlledSlip h p delete
  | templateWrite t idx w value => exact keeps_execTemplateWrite h t idx w value
  | tribEnable p w => exact keeps_execTribEnable h p w
  | tribDisable p w => exact keeps_execTribDisable h p w
  | lloop p w on => exact keeps_execLloop h p w on
  | forceAisTx p w on => exact keeps_execForceAisTx h p w on
  | forceAisRx p w on => exact keeps_execForceAisRx h p w on
  -- pseudowires and the Lending Desk (R197 to R226)
  | packetReceived p frame => exact keeps_execPacketReceived h p frame
  | playoutSlot f => exact keeps_execPlayoutSlot h f
  | folioGrant reqs => exact keeps_execFolioGrant h reqs
  | pwTransmitPacket f bits stamp => exact keeps_execPwTransmitPacket h f bits stamp
  | packetSent d => exact keeps_execPacketSent h d
  | packetLinkChange p up => exact keeps_execPacketLinkChange h p up
  | flowEnable f w value => exact keeps_execFlowEnable h f w value
  | flowDisable f w value => exact keeps_execFlowDisable h f w value
  | flowDrainTimeout f => exact keeps_execFlowDrainTimeout h f
  | flowDrainComplete f => exact keeps_execFlowDrainComplete h f
  | flowEntryWrite profile idx word w value => exact keeps_execFlowEntryWrite h profile idx word w value
  -- timing (R227 to R256)
  | ocxoFault => exact keeps_execOcxoFault h
  | ocxoRecovery => exact keeps_execOcxoRecovery h
  | refFreqMeasure idx ppb => exact keeps_execRefFreqMeasure h idx ppb
  | refActivityFailure idx failed => exact keeps_execRefActivityFailure h idx failed
  | refQualify idx => exact keeps_execRefQualify h idx
  | refHoldoffExpiry idx => exact keeps_execRefHoldoffExpiry h idx
  | refSelection => exact keeps_execRefSelection h
  | selClear d w token => exact keeps_execSelClear h d w token
  | selForced d ref w token => exact keeps_execSelForced h d ref w token
  | selManual d ref w token => exact keeps_execSelManual h d ref w token
  | selForcedHoldover d w token => exact keeps_execSelForcedHoldover h d w token
  | selForcedFreeRun d w token => exact keeps_execSelForcedFreeRun h d w token
  | dpllLock d => exact keeps_execDpllLock h d
  | dpllLockLoss d => exact keeps_execDpllLockLoss h d
  | anchorSet => exact keeps_execAnchorSet h
  | holdoverLimit => exact keeps_execHoldoverLimit h
  | learningSample offset temp => exact keeps_execLearningSample h offset temp
  | hoSamplePop bridge => exact keeps_execHoSamplePop h bridge
  | modelCommit w token => exact keeps_execModelCommit h w token
  | tempSensorFault fault => exact keeps_execTempSensorFault h fault
  | esmcTimeout p => exact keeps_execEsmcTimeout h p
  | esmcInformationPdu p => exact keeps_execEsmcInformationPdu h p
  | esmcTxWrite p w value => exact keeps_execEsmcTxWrite h p w value
  | ptpTransmit p => exact keeps_execPtpTransmit h p
  | ptpPhaseSample p w value => exact keeps_execPtpPhaseSample h p w value
  | todMessage seconds => exact keeps_execTodMessage h seconds
  | timTodRead => exact keeps_execTimTodRead h
  -- twin (R257 to R281, R287, R289)
  | tieHeartbeatSend => exact keeps_execTieHeartbeatSend h
  | tiePulse width => exact keeps_execTiePulse h width
  | tieOkLoss => exact keeps_execTieOkLoss h
  | heartbeatSend => exact keeps_execHeartbeatSend h
  | heartbeat m hb => exact keeps_execHeartbeat h m hb
  | pair m id digest cfg ident senior => exact keeps_execPair h m id digest cfg ident senior
  | pairSend => exact keeps_execPairSend h
  | mirrorA m c => exact keeps_execMirrorA h m c
  | mirrorB m c => exact keeps_execMirrorB h m c
  | mirrorC m recs => exact keeps_execMirrorC h m recs
  | mirrorSend classB => exact keeps_execMirrorSend h classB
  | stream2Retransmit => exact keeps_execStream2Retransmit h
  | stream2AckTimeout => exact keeps_execStream2AckTimeout h
  | linkErrorDecay => exact keeps_execLinkErrorDecay h
  | syncPulse frame superframe => exact keeps_execSyncPulse h frame superframe
  | cal m echo stamp turnaround => exact keeps_execCal h m echo stamp turnaround
  | calSend => exact keeps_execCalSend h
  | twinSdCondition on => exact keeps_execTwinSdCondition h on
  | twinSf => exact keeps_execTwinSf h
  | handover m frame toJunior => exact keeps_execHandover h m frame toJunior
  | commandedSwitch => exact keeps_execCommandedSwitch h
  | handoverClaimTime => exact keeps_execHandoverClaimTime h
  | handoverFrame => exact keeps_execHandoverFrame h
  | sameInstantClaim => exact keeps_execSameInstantClaim h
  | juniorYield => exact keeps_execJuniorYield h
  | seniorSoloClaim => exact keeps_execSeniorSoloClaim h
  | juniorSoloClaim => exact keeps_execJuniorSoloClaim h
  | startWaitExpiry => exact keeps_execStartWaitExpiry h
  | twnClear w token => exact keeps_execTwnClear h w token
  | twnLo w token => exact keeps_execTwnLo h w token
  | twnFs w token => exact keeps_execTwnFs h w token
  | twnMsJ w token => exact keeps_execTwnMsJ h w token
  | twnMsS w token => exact keeps_execTwnMsS h w token
  | equipmentWtrExpiry => exact keeps_execEquipmentWtrExpiry h
  -- linear MSP (R282 to R289)
  | apsClear g w token => exact keeps_execApsClear h g w token
  | apsLockout g w token => exact keeps_execApsLockout h g w token
  | apsForcedSwitch g chan w token => exact keeps_execApsForcedSwitch h g chan w token
  | apsManualSwitch g chan w token => exact keeps_execApsManualSwitch h g chan w token
  | apsExercise g chan w token => exact keeps_execApsExercise h g chan w token
  | mspHoldoffExpiry g chan => exact keeps_execMspHoldoffExpiry h g chan
  | mspWtrExpiry g => exact keeps_execMspWtrExpiry h g
  | dfopTimer g present => exact keeps_execDfopTimer h g present
  -- service cores (R290 to R308)
  | lockstepMismatch q output => exact keeps_execLockstepMismatch h q output
  | pairSelfCheckDone q pass => exact keeps_execPairSelfCheckDone h q pass
  | addi q gd ga imm => exact keeps_execAddi h q gd ga imm
  | andi q gd ga imm => exact keeps_execAndi h q gd ga imm
  | ori q gd ga imm => exact keeps_execOri h q gd ga imm
  | xori q gd ga imm => exact keeps_execXori h q gd ga imm
  | shi q gd ga imm => exact keeps_execShi h q gd ga imm
  | slti q gd ga imm => exact keeps_execSlti h q gd ga imm
  | lui q gd imm => exact keeps_execLui h q gd imm
  | lw q gd ga imm => exact keeps_execLw h q gd ga imm
  | lh q gd ga imm => exact keeps_execLh h q gd ga imm
  | lhu q gd ga imm => exact keeps_execLhu h q gd ga imm
  | lb q gd ga imm => exact keeps_execLb h q gd ga imm
  | lbu q gd ga imm => exact keeps_execLbu h q gd ga imm
  | sw q gs ga imm => exact keeps_execSw h q gs ga imm
  | sh q gs ga imm => exact keeps_execSh h q gs ga imm
  | sb q gs ga imm => exact keeps_execSb h q gs ga imm
  | beq q ga gb off => exact keeps_execBeq h q ga gb off
  | bne q ga gb off => exact keeps_execBne h q ga gb off
  | blt q ga gb off => exact keeps_execBlt h q ga gb off
  | bge q ga gb off => exact keeps_execBge h q ga gb off
  | bltu q ga gb off => exact keeps_execBltu h q ga gb off
  | bgeu q ga gb off => exact keeps_execBgeu h q ga gb off
  | jal q off => exact keeps_execJal h q off
  | jalr q gd ga imm => exact keeps_execJalr h q gd ga imm
  | add q gd ga gb => exact keeps_execAdd h q gd ga gb
  | sub q gd ga gb => exact keeps_execSub h q gd ga gb
  | and q gd ga gb => exact keeps_execAnd h q gd ga gb
  | or q gd ga gb => exact keeps_execOr h q gd ga gb
  | xor q gd ga gb => exact keeps_execXor h q gd ga gb
  | sll q gd ga gb => exact keeps_execSll h q gd ga gb
  | srl q gd ga gb => exact keeps_execSrl h q gd ga gb
  | sra q gd ga gb => exact keeps_execSra h q gd ga gb
  | slt q gd ga gb => exact keeps_execSlt h q gd ga gb
  | sltu q gd ga gb => exact keeps_execSltu h q gd ga gb
  | mul q gd ga gb => exact keeps_execMul h q gd ga gb
  | mulhu q gd ga gb => exact keeps_execMulhu h q gd ga gb
  | divu q gd ga gb => exact keeps_execDivu h q gd ga gb
  | remu q gd ga gb => exact keeps_execRemu h q gd ga gb
  | amoSwap q gd ga gb => exact keeps_execAmoSwap h q gd ga gb
  | amoAdd q gd ga gb => exact keeps_execAmoAdd h q gd ga gb
  | amoAnd q gd ga gb => exact keeps_execAmoAnd h q gd ga gb
  | amoOr q gd ga gb => exact keeps_execAmoOr h q gd ga gb
  | done q => exact keeps_execDone h q
  | fenceL q => exact keeps_execFenceL h q
  | fenceG q => exact keeps_execFenceG h q
  | rditc q gd => exact keeps_execRditc h q gd
  | rditch q gd => exact keeps_execRditch h q gd
  | raise q ga gb => exact keeps_execRaise h q ga gb
  | ready q => exact keeps_execReady h q
  | taskAbort q cause addr => exact keeps_execTaskAbort h q cause addr
  -- scheduler (R301 to R308, R325)
  | taskPeriod t => exact keeps_execTaskPeriod h t
  | taskMakeReady t w token => exact keeps_execTaskMakeReady h t w token
  | taskCancel t w token woken => exact keeps_execTaskCancel h t w token woken
  | taskEnable t w token => exact keeps_execTaskEnable h t w token
  | taskDisable t w token woken => exact keeps_execTaskDisable h t w token woken
  -- observation (R327 to R352)
  | eventAccept idx => exact keeps_execEventAccept h idx
  | ledgerWrite => exact keeps_execLedgerWrite h
  | accessionResume => exact keeps_execAccessionResume h
  | evtPendClear k w mask => exact keeps_execEvtPendClear h k w mask
  | evtLedgerNextRead => exact keeps_execEvtLedgerNextRead h
  | inventoryTick => exact keeps_execInventoryTick h
  | invSnapshot w token go => exact keeps_execInvSnapshot h w token go
  | inventoryGatherDone => exact keeps_execInventoryGatherDone h
  | checkBlockEnd u block carried => exact keeps_execCheckBlockEnd h u block carried
  | checkEntryWrite u word w value => exact keeps_execCheckEntryWrite h u word w value
  -- management port (R347 to R351)
  | spiRead addr => exact keeps_execSpiRead h addr
  | spiWrite addr value => exact keeps_execSpiWrite h addr value
  | spiBadOpcode opcode => exact keeps_execSpiBadOpcode h opcode
  | spiEarlyEnd addr issued => exact keeps_execSpiEarlyEnd h addr issued
  | i2cRead device addr => exact keeps_execI2cRead h device addr
  | i2cWrite device addr value => exact keeps_execI2cWrite h device addr value
  | i2cEarlyEnd device addr issued => exact keeps_execI2cEarlyEnd h device addr issued
  | mgmtUnlockWrite value => exact keeps_execMgmtUnlockWrite h value
  | unlockWindowExpiry => exact keeps_execUnlockWindowExpiry h
  | unlockBarEnd => exact keeps_execUnlockBarEnd h
  | unlockTimeout => exact keeps_execUnlockTimeout h
  -- Facsimile engines (R353 to R374)
  | facStart n step w token => exact keeps_execFacStart h n step w token
  | facStop n w token => exact keeps_execFacStop h n w token
  | facTrig n w token => exact keeps_execFacTrig h n w token
  | facAssign n port cmp w token => exact keeps_execFacAssign h n port cmp w token
  | facRelease n w token => exact keeps_execFacRelease h n w token
  | facCal n w token => exact keeps_execFacCal h n w token
  | facCalDone n crossings => exact keeps_execFacCalDone h n crossings
  | facSetSkew n skew w token => exact keeps_execFacSetSkew h n skew w token
  | facSync w token go => exact keeps_execFacSync h w token go
  | facStream n w token count => exact keeps_execFacStream h n w token count
  | deadTimeEnd n => exact keeps_execDeadTimeEnd h n
  | facTrigger n trigs => exact keeps_execFacTrigger h n trigs
  | waitTimeout n => exact keeps_execWaitTimeout h n
  | stepEnd n => exact keeps_execStepEnd h n
  | vectorCompare n lag received => exact keeps_execVectorCompare h n lag received
  | streamSample n => exact keeps_execStreamSample h n
  | patternMemoryWrite idx w value => exact keeps_execPatternMemoryWrite h idx w value
  -- rows added at the table's end
  | tribCdrLock p => exact keeps_execTribCdrLock h p
  | twinLaneAlignment k lock aligned skew => exact keeps_execTwinLaneAlignment h k lock aligned skew
  | twinLinkCodingError => exact keeps_execTwinLinkCodingError h
  | syncPulseMissing => exact keeps_execSyncPulseMissing h
  | transmitFrameBoundary augs => exact keeps_execTransmitFrameBoundary h augs
  | tribTransmitSymbol p arrived => exact keeps_execTribTransmitSymbol h p arrived
  | facsimileOutputSample n => exact keeps_execFacsimileOutputSample h n

/-- A step is an idle tick on an empty queue, or the meaning of the command at its front with the rest still waiting. -/
theorem step_cases {s t : State} (h : step s = .next t) :
    (s.pending = [] ∧ t = { s with now := s.now + Config.tickNs }) ∨
      ∃ c rest, s.pending = c :: rest ∧ exec c { s with pending := rest } = .next t := by
  unfold step at h
  split at h
  · next hp =>
    cases h
    exact .inl ⟨hp, rfl⟩
  · next c rest hp => exact .inr ⟨c, rest, hp, h⟩

theorem Keeps.canonical {r s : State} (h : Keeps r s) (hr : Safety.canonical r) : Safety.canonical s :=
  ⟨h.mem hr.1, h.regs hr.2⟩

/-- Settles O56: an idle tick touches neither table, and a command keeps both by `keeps_exec`. -/
theorem canonicalFormKept : Obligations.CanonicalFormKept := by
  unfold Obligations.CanonicalFormKept
  intro s t hs ht
  obtain ⟨-, rfl⟩ | ⟨c, rest, -, hc⟩ := step_cases ht
  · exact hs
  · exact (keeps_exec (keeps_refl { s with pending := rest }) c t hc).canonical hs

end Sys2Proof.Machine
end

section
/-! PROOF. What one register access through the matrix does: the word that travels, the grant, the target's answer and what is recorded of it. -/

namespace Sys2Proof.Machine

/-! ### The word on the bus (R5) -/

theorem leNat_leBytes (n v : Nat) : leNat (leBytes n v) = v % 256 ^ n := by
  induction n generalizing v with
  | zero => simp [leBytes, leNat, Nat.mod_one]
  | succ n ih =>
    have hm : v % 256 ^ (n + 1) = v % 256 + 256 * (v / 256 % 256 ^ n) := by rw [pow_succ', Nat.mod_mul]
    rw [leBytes, leNat, ih, BitVec.toNat_ofNat, hm]

@[simp] theorem length_leBytes (n v : Nat) : (leBytes n v).length = n := by
  induction n generalizing v with
  | zero => rfl
  | succ n ih => simp [leBytes, ih]

theorem w32_leNat_leBytes (v : Word) : w32 (leNat (leBytes 4 v.toNat)) = v := by
  apply BitVec.eq_of_toNat_eq
  have hv := v.isLt
  rw [leNat_leBytes, w32, BitVec.toNat_ofNat]
  omega

theorem w32_toNat (a : Word) : w32 a.toNat = a := by simp [w32]

theorem toNat_w32 {a : Nat} (h : a < 2 ^ 32) : (w32 a).toNat = a := Nat.mod_eq_of_lt h

/-! ### What is recorded of an access (R91, R99, R350) -/

section
variable (s : State) (port id a code gate : Nat) (write : Bool)

theorem not_dormant_of_running {s : State} {i : Nat} (h : s.running i = true) : s.sp.dormant = false := by
  unfold State.running at h
  simp_all

/-- Outside Dormant a raise adds its event and no other. -/
theorem raised_raise {s t : State} (isl e : Nat) (d : List Word) (hc : t.chan = s.chan) (hd : t.sp.dormant = false) :
    Safety.raised [(isl, e)] s (t.raise isl e d) := by
  simp [Safety.raised, chan_raise, hd, hc]

/-- Writing two registers leaves the others alone. -/
theorem onlyRegs_setReg_setReg (b : Nat) (v w : Word) : Safety.onlyRegs [a, b] s ((s.setReg a v).setReg b w) := by
  intro c hc
  simp only [List.mem_cons, List.not_mem_nil, or_false, not_or] at hc
  rw [reg_setReg_ne _ _ (Ne.symm hc.2), reg_setReg_ne _ _ (Ne.symm hc.1)]

/-- An error response outside Dormant: its code, its address, its event, and the two registers that hold it. -/
theorem errorResponse_spec {e : Nat} (tgt : Nat) (he : responseEvent code = some e) (hd : s.sp.dormant = false) {t : State}
    (ht : t = s.errorResponse port tgt code id write a gate) :
    t.mtx.resp = code ∧ t.reg MTX_ERR_ADDR = w32 a ∧ Safety.raised [(islMX, e)] s t
      ∧ Safety.onlyRegs [MTX_ERR_LAST, MTX_ERR_ADDR] s t ∧ Safety.sameMem s t := by
  subst ht
  simp only [State.errorResponse, he]
  refine ⟨?_, ?_, raised_raise _ _ _ rfl hd, fun c hc => ?_, fun c => ?_⟩
  · rw [mtx_raise]
  · rw [reg_raise]
    exact reg_setReg_self _ _ _
  · rw [reg_raise]
    exact onlyRegs_setReg_setReg s _ _ _ _ c hc
  · rw [byte_raise]
    rfl

/-- What the bridge notes of an access in error: the address and the code, in their two registers. -/
theorem bridgeError_spec {t : State} (ht : t = s.bridgeError a code write) :
    t.reg EVT_MGMT_REF = w32 a ∧ t.reg EVT_MGMT_REF_CODE = w32 (code + 256 * bit write)
      ∧ Safety.onlyRegs [EVT_MGMT_REF, EVT_MGMT_REF_CODE] s t ∧ Safety.sameMem s t := by
  subst ht
  unfold State.bridgeError
  refine ⟨?_, ?_, fun c hc => ?_, fun c => ?_⟩
  · rw [reg_raiseFirst, reg_setReg_ne _ _ (by decide)]
    exact reg_setReg_self _ _ _
  · rw [reg_raiseFirst, reg_setReg_self]
  · rw [reg_raiseFirst]
    exact onlyRegs_setReg_setReg s _ _ _ _ c hc
  · rw [byte_raiseFirst]
    rfl

/-- An access answered OKAY leaves no record. -/
theorem logAccess_okay (h : s.mtx.resp = rOkay) : s.logAccess port id write a = s := by
  simp [State.logAccess, h]

/-- A refusal met by another master than the bridge is recorded by the matrix alone. -/
theorem logAccess_refused (h : s.mtx.resp = rRefused) (hm : s.running islMX = true) (hp : port ≠ 7) :
    s.logAccess port id write a = s.errorResponse port (s.target a) rRefused id write a 0 := by
  simp [State.logAccess, h, hm, hp, rRefused, rOkay]

end

/-! ### A register access through the matrix (R94, R98, R101) -/

section
variable {s u : State} {port a : Nat} (hm : s.running islMX = true) (hu : u = s.grant port a) (ht : u.target a = 5) (ha : a % 4 = 0)
include hm hu ht ha

/-- A word written to the register target reaches its register as it was sent, once what was granted before has taken effect. -/
theorem busWrite_register (id : Nat) (v : Word) :
    s.busWrite port id a (wordBytes v) = (u.regWrite port a v).logAccess port id true a := by
  subst hu
  simp [State.busWrite, hm, State.writeAt, ht, ha, wordBytes, w32_leNat_leBytes]

/-- A read of a register that can be read and latches nothing answers its word. -/
theorem busRead_register (id : Nat) (hr : (regRow a).isSome = true) (hi : u.readable (u.regIsl a) = true) (hl : u.latch port a = u) :
    s.busRead port id a 4 = (u.respond rOkay, leBytes 4 (u.look a).toNat) := by
  subst hu
  have hc : (s.grant port a).readCode 5 a = rOkay := by simp [State.readCode, Option.isNone_eq_false_iff.mpr hr, hi]
  have hn : (s.grant port a).noteWindow 5 = s.grant port a := by simp [State.noteWindow]
  have hg : (s.grant port a).readAt port a 4 = ((s.grant port a).respond rOkay, leBytes 4 ((s.grant port a).look a).toNat) := by
    simp [State.readAt, ht, ha, hn, hc, State.afterRead, hl, State.readBytes, List.take_of_length_le]
  have ho : ((s.grant port a).respond rOkay).logAccess port id false a = (s.grant port a).respond rOkay := logAccess_okay _ _ _ _ _ rfl
  simp [State.busRead, hm, hg, ho]

end

/-! ### A write at its register (R3, R6, R410) -/

theorem portWriter_service (q : Fin 2) : portWriter (2 * q) = some (.service q) := by
  fin_cases q <;> rfl

section
variable {s : State} {port a : Nat} {r : RegRow} (hr : regRow a = some r) (hi : s.running (s.regIsl a) = true) (hf : r.fields ≠ [])
include hr hi hf

/-- A write that the row permits in the state that stands has its effect. -/
theorem regWrite_permitted {w : Writer} (v : Word) (ha : a ≠ EVT_MGMT_UNLOCK) (hw : portWriter port = some w) (hp : s.permits r w = true) :
    s.regWrite port a v = (s.respond rOkay).regEffect w r a v := by
  have h4 : port ≠ 4 := by
    rintro rfl
    cases hw
  have hi' : (s.respond rOkay).running ((s.respond rOkay).regIsl a) = true := hi
  have hp' : (s.respond rOkay).permits r w = true := hp
  simp [State.regWrite, hr, hi', hf, ha, h4, hw, hp']

/-- A service's write to a register whose row gives it no right is refused; the templates alone answer for themselves. -/
theorem regWrite_refused {q : Fin 2} (v : Word) (hw : portWriter port = some (.service q)) (hs : r.svc = false)
    (ht : slotOf a (TRIB_TPL_ROM 0 0) 4 2048 = none) : s.regWrite port a v = (s.respond rOkay).respond rRefused := by
  have h4 : port ≠ 4 := by
    rintro rfl
    cases hw
  have h7 : port ≠ 7 := by
    rintro rfl
    cases hw
  have hi' : (s.respond rOkay).running ((s.respond rOkay).regIsl a) = true := hi
  simp [State.regWrite, hr, hi', hf, h4, h7, hw, State.permits, hs, ht]

end

/-- From `u` to `t` register `a` took the word `w` with response OKAY, and no other register, no byte and no event differs. -/
structure Stored (a : Nat) (w : Word) (u t : State) : Prop where
  word : t.reg a = w
  okay : t.mtx.resp = rOkay
  regs : Safety.onlyRegs [a] u t
  mem : Safety.sameMem u t
  chan : t.chan = u.chan

theorem stored_setReg {u : State} (h : u.mtx.resp = rOkay) (a : Nat) (w : Word) : Stored a w u (u.setReg a w) where
  word := reg_setReg_self _ _ _
  okay := h
  regs := fun b hb => reg_setReg_ne _ _ (by simpa [eq_comm] using hb)
  mem := fun _ => rfl
  chan := rfl

/-- The mirror engine's queue is none of what `Stored` speaks of. -/
theorem Stored.mirror {a : Nat} {w : Word} {u t : State} (h : Stored a w u t) (b : Nat) (m x : Word) : Stored a w u (t.mirror b m x) := by
  unfold State.mirror
  split
  · exact ⟨h.word, h.okay, h.regs, h.mem, h.chan⟩
  · exact h

/-- A permitted write that changes a register alone, where no bit clears by writing 1: the writable bits take the value, the others stay. -/
theorem stored_plainWrite {u : State} (h : u.mtx.resp = rOkay) (w : Writer) {r : RegRow} (hx : r.ty ≠ .x) (a : Nat) (v : Word) :
    Stored a ((u.reg a &&& ~~~r.writable) ||| (v &&& r.writable)) u (u.plainWrite w r a v) := by
  unfold State.plainWrite
  rw [if_neg hx]
  split
  · exact (stored_setReg h a _).mirror _ _ _
  · exact stored_setReg h a _

/-- A register access that its row permits, plain in its effect. -/
theorem stored_busWrite {s u : State} {port a : Nat} {r : RegRow} {w : Writer} (hm : s.running islMX = true) (hu : u = s.grant port a)
    (ht : u.target a = 5) (ha : a % 4 = 0) (hr : regRow a = some r) (hi : u.running (u.regIsl a) = true) (hf : r.fields ≠ [])
    (hn : a ≠ EVT_MGMT_UNLOCK) (hw : portWriter port = some w) (hp : u.permits r w = true) (hx : r.ty ≠ .x) (id : Nat) (v : Word)
    (he : ∀ t : State, t.regEffect w r a v = t.plainWrite w r a v) :
    Stored a ((u.reg a &&& ~~~r.writable) ||| (v &&& r.writable)) u (s.busWrite port id a (wordBytes v)) := by
  have h := stored_plainWrite (u := u.respond rOkay) rfl w hx a v
  rw [busWrite_register hm hu ht ha, regWrite_permitted hr hi hf v hn hw hp, he, logAccess_okay _ _ _ _ _ h.okay]
  exact ⟨h.word, h.okay, h.regs, h.mem, h.chan⟩

/-- A service's access to a register that gives it no right: REFUSED, with the address noted and event 0x081, and nothing else (R99). -/
theorem busWrite_refused {s u t : State} {port a : Nat} {r : RegRow} {q : Fin 2} (hm : s.running islMX = true) (hu : u = s.grant port a)
    (hmu : u.running islMX = true) (ht : u.target a = 5) (ha : a % 4 = 0) (hr : regRow a = some r) (hi : u.running (u.regIsl a) = true)
    (hf : r.fields ≠ []) (hw : portWriter port = some (.service q)) (hs : r.svc = false) (hn : slotOf a (TRIB_TPL_ROM 0 0) 4 2048 = none)
    (id : Nat) (v : Word) (hb : t = s.busWrite port id a (wordBytes v)) :
    t.mtx.resp = rRefused ∧ t.reg MTX_ERR_ADDR = w32 a ∧ Safety.raised [(islMX, 0x081)] u t
      ∧ Safety.onlyRegs [MTX_ERR_LAST, MTX_ERR_ADDR] u t ∧ Safety.sameMem u t := by
  have h7 : port ≠ 7 := by
    rintro rfl
    cases hw
  rw [busWrite_register hm hu ht ha, regWrite_refused hr hi hf v hw hs hn,
    logAccess_refused ((u.respond rOkay).respond rRefused) _ _ _ _ rfl hmu h7] at hb
  exact errorResponse_spec ((u.respond rOkay).respond rRefused) port id a rRefused 0 true _ rfl (not_dormant_of_running hmu) hb

/-! ### The rows that the statements name -/

theorem target_register (s : State) {a : Nat} (h : 0x40000000 ≤ a ∧ a < 0x60000000) : s.target a = 5 := by
  unfold State.target
  extract_lets swap
  rw [if_neg (by omega), if_neg (by omega), if_neg (by omega), if_neg (by omega), if_neg (by omega), if_pos h]

theorem regRow_lineOhTx (n : Fin 8) :
    ∃ r, regRow (LINE_OH_TX n) = some r ∧ r.svc = true ∧ r.ty = .is ∧ r.fields ≠ [] := by
  fin_cases n <;> exact ⟨_, rfl, rfl, rfl, by decide⟩

theorem regIsl_lineOhTx (s : State) (n : Fin 8) : s.regIsl (LINE_OH_TX n) = islLP n := by
  fin_cases n <;> rfl

/-- A write of LINE_OH_TX changes the register alone. -/
theorem regEffect_lineOhTx (s : State) (w : Writer) (r : RegRow) (n : Fin 8) (v : Word) :
    s.regEffect w r (LINE_OH_TX n) v = s.plainWrite w r (LINE_OH_TX n) v := by
  fin_cases n <;> rfl

theorem toNat_w32_supScratch : (w32 SUP_SCRATCH).toNat = SUP_SCRATCH := rfl

theorem regRow_supScratch :
    ∃ r, regRow SUP_SCRATCH = some r ∧ r.mnt = true ∧ r.ty = .m ∧ r.fields ≠ [] ∧ r.writable = BitVec.allOnes 32 :=
  ⟨_, rfl, rfl, rfl, by decide, by decide⟩

/-- A write of SUP_SCRATCH changes the register alone. -/
theorem regEffect_supScratch (s : State) (w : Writer) (r : RegRow) (v : Word) :
    s.regEffect w r SUP_SCRATCH v = s.plainWrite w r SUP_SCRATCH v := rfl

/-- A write of SUP_SCRATCH through the unlocked bridge, where maintenance has its rights and SP runs, stores the word. -/
theorem stored_bridgeWrite_supScratch {s u : State} (hm : s.running islMX = true) (hk : s.unlocked = true)
    (hu : u = s.grant 7 SUP_SCRATCH) (hp : u.maintained = true) (hi : u.running islSP = true) (v : Word) :
    Stored SUP_SCRATCH v u (s.bridgeWrite SUP_SCRATCH v) := by
  obtain ⟨r, hr, hmnt, hty, hf, hall⟩ := regRow_supScratch
  have hb : s.bridgeWrite SUP_SCRATCH v = s.busWrite 7 0 SUP_SCRATCH (wordBytes v) := by simp [State.bridgeWrite, hk]
  have h := stored_busWrite (w := .maintenance) hm hu (target_register u (by decide)) (by decide) hr hi hf (by decide) rfl
    (by simp [State.permits, hmnt, hp]) (by simp [hty]) 0 v (fun t => regEffect_supScratch t _ r v)
  rw [hall, BitVec.not_allOnes, BitVec.and_zero, BitVec.zero_or, BitVec.and_allOnes] at h
  exact hb ▸ h

/-! ### The lock of the bridge (R350) -/

/-- From `s` to `t` no register but the bridge's lock, no byte and nothing of the matrix differs. -/
structure LockOnly (s t : State) : Prop where
  regs : Safety.onlyRegs [EVT_MGMT_UNLOCK] s t
  mem : Safety.sameMem s t
  mtx : t.mtx = s.mtx

theorem LockOnly.refl (s : State) : LockOnly s s := ⟨fun _ _ => rfl, fun _ => rfl, rfl⟩

theorem LockOnly.setUnlock {s t : State} (h : LockOnly s t) (st : Nat) : LockOnly s (t.setUnlock st) :=
  ⟨fun a ha => (reg_setFld_ne _ _ _ (by simpa [eq_comm] using ha)).trans (h.regs a ha), h.mem, h.mtx⟩

theorem LockOnly.raise {s t : State} (h : LockOnly s t) (isl e : Nat) (d : List Word) : LockOnly s (t.raise isl e d) :=
  ⟨fun a ha => (reg_raise ..).trans (h.regs a ha), fun a => (byte_raise ..).trans (h.mem a), (mtx_raise ..).trans h.mtx⟩

section
variable (s : State) (st : Nat)

@[simp] theorem unlockState_setUnlock : (s.setUnlock st).unlockState = st % 4 := fld_setFld_self s _ (by decide) st

@[simp] theorem unlockState_raise (isl e : Nat) (d : List Word) : (s.raise isl e d).unlockState = s.unlockState := fld_raise ..

/-- Island time does not hang on the lock. -/
theorem itcOf_setUnlock (i : Nat) : (s.setUnlock st).itcOf i = s.itcOf i := by
  have h : (s.setUnlock st).bitAt SUP_ISLAND_STAT i = s.bitAt SUP_ISLAND_STAT i := flag_setFld_ne s _ _ _ (by decide)
  unfold State.itcOf
  rw [h]
  rfl

theorem lockBridge_unlocked {s : State} (h : s.unlockState = 2) (reason : Nat) :
    s.lockBridge reason = (s.setUnlock 0).raise islEH 0x479 [w32 reason] := if_pos h

/-- A failed sequence is noted, and the eighth within 60 s bars the bridge, where otherwise it is locked. -/
theorem unlockFails_spec {t : State} (ht : t = s.unlockFails) (hd : s.sp.dormant = false) :
    LockOnly s t ∧ t.unlockState = (if 7 ≤ s.recentFailures.length then 3 else 0) ∧ t.mg.failures = s.recentFailures ++ [s.now]
      ∧ Safety.raised [(islEH, 0x47A)] s t := by
  subst ht
  unfold State.unlockFails
  extract_lets l
  have h0 : LockOnly s { s with mg := { s.mg with failures := l } } := ⟨fun _ _ => rfl, fun _ => rfl, rfl⟩
  refine ⟨(h0.setUnlock _).raise _ _ _, ?_, by rw [mg_raise]; rfl, raised_raise _ _ _ rfl hd⟩
  have hl : l.length = s.recentFailures.length + 1 := List.length_append
  rw [unlockState_raise, unlockState_setUnlock, hl]
  by_cases h7 : 7 ≤ s.recentFailures.length
  · rw [if_pos h7, if_pos (by omega)]
  · rw [if_neg h7, if_neg (by omega)]

end

/-! ### The unlock word, by the state of the lock -/

section
variable {s : State} (v : Word)

theorem unlockWord_locked (h : s.unlockState = 0) :
    s.unlockWord v = if v = 0xA55A then s.setUnlock 1 else if v = 0 then s else s.unlockFails := by
  simp [State.unlockWord, h]

theorem unlockWord_begun (h : s.unlockState = 1) :
    s.unlockWord v = if v = 0x5AA5 then (s.setUnlock 2).raise islEH 0x478 else if v = 0 then s.setUnlock 0 else s.unlockFails := by
  simp [State.unlockWord, h]

theorem unlockWord_unlocked (h : s.unlockState = 2) :
    s.unlockWord v = if v = 0 then (s.setUnlock 0).raise islEH 0x479 [w32 0] else s := by
  simp [State.unlockWord, h, lockBridge_unlocked]

theorem unlockWord_barred (h : s.unlockState = 3) : s.unlockWord v = s := by
  simp [State.unlockWord, h]

/-- A word other than 0 that does not go on with the sequence fails it. -/
theorem unlockWord_wrong (h : s.unlockState = 0 ∧ v ≠ 0xA55A ∨ s.unlockState = 1 ∧ v ≠ 0x5AA5) (hv : v ≠ 0) :
    s.unlockWord v = s.unlockFails := by
  obtain ⟨h, hw⟩ | ⟨h, hw⟩ := h
  · rw [unlockWord_locked v h, if_neg hw, if_neg hv]
  · rw [unlockWord_begun v h, if_neg hw, if_neg hv]

theorem unlockState_lt (s : State) : s.unlockState < 4 := Nat.mod_lt _ (by decide)

theorem lockOnly_unlockWord (hd : s.sp.dormant = false) : LockOnly s (s.unlockWord v) := by
  have hf : LockOnly s s.unlockFails := (unlockFails_spec s rfl hd).1
  have hs (st : Nat) : LockOnly s (s.setUnlock st) := (LockOnly.refl s).setUnlock st
  have h4 := unlockState_lt s
  obtain h | h | h | h : s.unlockState = 0 ∨ s.unlockState = 1 ∨ s.unlockState = 2 ∨ s.unlockState = 3 := by omega
  · rw [unlockWord_locked v h]
    split_ifs
    exacts [hs 1, .refl s, hf]
  · rw [unlockWord_begun v h]
    split_ifs
    exacts [(hs 2).raise _ _ _, hs 0, hf]
  · rw [unlockWord_unlocked v h]
    split_ifs
    exacts [(hs 0).raise _ _ _, .refl s]
  · rw [unlockWord_barred v h]
    exact .refl s

end

/-- A word written to EVT_MGMT_UNLOCK passes a locked bridge too, and where EH runs it acts on the lock and is answered OKAY. -/
theorem bridgeWrite_unlock {s u : State} (hm : s.running islMX = true) (hu : u = s.grant 7 EVT_MGMT_UNLOCK) (hi : u.running islEH = true)
    (v : Word) : s.bridgeWrite EVT_MGMT_UNLOCK v = (u.respond rOkay).unlockWord v := by
  obtain ⟨r, hr, hf⟩ : ∃ r, regRow EVT_MGMT_UNLOCK = some r ∧ r.fields ≠ [] := ⟨_, rfl, by decide⟩
  have hi' : (u.respond rOkay).running ((u.respond rOkay).regIsl EVT_MGMT_UNLOCK) = true := hi
  have hw : u.regWrite 7 EVT_MGMT_UNLOCK v = (u.respond rOkay).unlockWord v := by simp [State.regWrite, hr, hi', hf]
  have ho := (lockOnly_unlockWord (s := u.respond rOkay) v (not_dormant_of_running hi)).mtx
  have hb : s.bridgeWrite EVT_MGMT_UNLOCK v = s.busWrite 7 0 EVT_MGMT_UNLOCK (wordBytes v) := by simp [State.bridgeWrite]
  rw [hb, busWrite_register hm hu (target_register u (by decide)) (by decide), hw, logAccess_okay]
  rw [ho]
  rfl

end Sys2Proof.Machine
end

section
/-! PROOF of O14: register writes and refusals, the unlock sequence, and the host's reads and writes. -/

namespace Sys2Proof.Machine

/-! ### What the rows do where the access is taken -/

theorem exec_registerWrite_service {s : State} {q : Fin 2} (h : s.serviceMay q = true) (a v : Word) :
    exec (.registerWrite (.service q) a v) s = .next (s.busWrite (2 * q) 5 a.toNat (wordBytes v)) :=
  congrArg Host.Outcome.next (if_pos h)

theorem exec_registerWrite_maintenance {s : State} (h : s.running islEH = true) (a v : Word) :
    exec (.registerWrite .maintenance a v) s = .next (s.bridgeWrite a.toNat v) :=
  congrArg Host.Outcome.next (if_pos h)

theorem exec_mgmtUnlockWrite {s : State} (h : s.running islEH = true) (v : Word) :
    exec (.mgmtUnlockWrite v) s = .next (s.bridgeWrite EVT_MGMT_UNLOCK v) :=
  congrArg Host.Outcome.next (if_pos h)

theorem exec_unlockWindowExpiry {s : State} (h : s.running islEH = true) (hs : s.unlockState = 1) :
    exec .unlockWindowExpiry s = .next s.unlockFails :=
  congrArg Host.Outcome.next (if_pos (by simp [h, hs]))

theorem exec_unlockBarEnd {s : State} (h : s.running islEH = true) (hs : s.unlockState = 3) :
    exec .unlockBarEnd s = .next (s.setUnlock 0) :=
  congrArg Host.Outcome.next (if_pos (by simp [h, hs]))

theorem exec_unlockTimeout {s : State} (h : s.running islEH = true) (hs : s.unlockState = 2) :
    exec .unlockTimeout s = .next ((s.setUnlock 0).raise islEH 0x479 [w32 1]) :=
  congrArg Host.Outcome.next ((if_pos (by simp [h, hs])).trans (lockBridge_unlocked hs 1))

theorem exec_spiRead {s : State} (h : s.spiOn = true) (a : Word) :
    exec (.spiRead a) s = .next ((s.busRead 7 0 a.toNat 4).1.reply
      ([0xA5] ++ (s.busRead 7 0 a.toNat 4).2.reverse ++ [(s.busRead 7 0 a.toNat 4).1.statusByte])) :=
  congrArg Host.Outcome.next (if_pos h)

theorem exec_i2cRead {s : State} {d : BitVec 7} (h : s.i2cOn d = true) (a : Word) :
    exec (.i2cRead d a) s = .next ((s.busRead 7 0 a.toNat 4).1.reply
      ((s.busRead 7 0 a.toNat 4).2.reverse ++ [(s.busRead 7 0 a.toNat 4).1.statusByte])) :=
  congrArg Host.Outcome.next (if_pos h)

theorem exec_spiWrite {s : State} (h : s.spiOn = true) (a v : Word) :
    exec (.spiWrite a v) s = .next ((s.bridgeWrite a.toNat v).reply [0xA5, (s.bridgeWrite a.toNat v).statusByte]) :=
  congrArg Host.Outcome.next (if_pos h)

theorem exec_i2cWrite {s : State} {d : BitVec 7} (h : s.i2cOn d = true) (a v : Word) :
    exec (.i2cWrite d a v) s = .next ((s.bridgeWrite a.toNat v).reply [(s.bridgeWrite a.toNat v).statusByte]) :=
  congrArg Host.Outcome.next (if_pos h)

theorem exec_i2c_of_off {s : State} {d : BitVec 7} (h : s.i2cOn d = false) (a v : Word) :
    exec (.i2cRead d a) s = .next s ∧ exec (.i2cWrite d a v) s = .next s :=
  ⟨congrArg Host.Outcome.next (if_neg (by simp [h])), congrArg Host.Outcome.next (if_neg (by simp [h]))⟩

theorem exec_spiBadOpcode {s : State} (h : s.spiOn = true) {op : Byte} (h2 : op ≠ 0x02) (h3 : op ≠ 0x03) :
    exec (.spiBadOpcode op) s = .next ((s.reply [0xFF]).protocolError 0 1 0) :=
  congrArg Host.Outcome.next (if_pos (Bool.and_eq_true_iff.mpr ⟨h, decide_eq_true ⟨h2, h3⟩⟩))

theorem exec_spiEarlyEnd_notIssued {s : State} (h : s.spiOn = true) (a : Option Word) :
    exec (.spiEarlyEnd a none) s = .next ((s.protocolError 0 2 (a.getD 0)).reply []) := by
  cases a <;> exact congrArg Host.Outcome.next (if_pos h)

theorem exec_i2cEarlyEnd_write {s : State} {d : BitVec 7} (h : s.i2cOn d = true) (a v : Word) :
    exec (.i2cEarlyEnd d (some a) (some (some v))) s = .next (((s.bridgeWrite a.toNat v).protocolError 1 3 a).reply []) :=
  congrArg Host.Outcome.next (if_pos h)

/-- A protocol error is an event at most. -/
theorem protocolError_frame (s : State) (bus kind : Nat) (a : Word) :
    (∀ b, (s.protocolError bus kind a).reg b = s.reg b) ∧ (∀ b, (s.protocolError bus kind a).byte b = s.byte b)
      ∧ (s.protocolError bus kind a).mg = s.mg :=
  ⟨fun _ => reg_raiseFirst .., fun _ => byte_raiseFirst .., mg_raiseFirst ..⟩

theorem statusByte_okay {s : State} (h : s.mtx.resp = rOkay) : s.statusByte = 0 := by
  simp [State.statusByte, h, rOkay]

/-! ### The obligation -/

/-- A service's write of LINE_OH_TX at a running port (R3, R410). -/
theorem stored_busWrite_lineOhTx {s u : State} {q : Fin 2} {n : Fin 8} (hm : s.running islMX = true)
    (hu : u = s.grant (2 * q) (LINE_OH_TX n)) (hi : u.running (islLP n) = true) (v : Word) :
    ∃ r, regRow (LINE_OH_TX n) = some r ∧ Stored (LINE_OH_TX n) ((u.reg (LINE_OH_TX n) &&& ~~~r.writable) ||| (v &&& r.writable)) u
      (s.busWrite (2 * q) 5 (LINE_OH_TX n) (wordBytes v)) := by
  obtain ⟨r, hr, hsvc, hty, hf⟩ := regRow_lineOhTx n
  have ha : LINE_OH_TX n = 0x40100118 + 0x10000 * n := rfl
  have hn : LINE_OH_TX n ≠ EVT_MGMT_UNLOCK := by
    rw [ha, EVT_MGMT_UNLOCK]
    omega
  exact ⟨r, hr, stored_busWrite hm hu (target_register u (by omega)) (by omega) hr (by rw [regIsl_lineOhTx, hi]) hf hn
    (portWriter_service q) hsvc (by simp [hty]) 5 v fun t => regEffect_lineOhTx t _ r n v⟩

/-- Settles O14: each row is the access of its writer, and what that does to the register, to the lock or to the host's reply is said once
for all rows by the lemmas above. -/
theorem hostAndRegisterAccess : Obligations.HostAndRegisterAccess := by
  unfold Obligations.HostAndRegisterAccess
  refine ⟨⟨?ohTx, ?noRight, ?locked⟩, ⟨?unlockWrite, ?window, ?barEnd, ?timeout⟩,
    ?spiRead, ?i2cRead, ?spiWrite, ?i2cWrite, ?otherDevice, ?badOpcode, ?notIssued, ?issued⟩
  case ohTx =>
    intro s u q n v hmay hm hu hi
    have ha : (w32 (LINE_OH_TX n)).toNat = LINE_OH_TX n := toNat_w32 (by unfold LINE_OH_TX; omega)
    obtain ⟨r, hr, hst⟩ := stored_busWrite_lineOhTx hm hu hi v
    refine ⟨_, exec_registerWrite_service hmay _ v, ?_⟩
    rw [ha]
    refine ⟨hst.okay, fun r' hr' => ?_, hst.regs, hst.mem, hst.chan⟩
    cases hr.symm.trans hr'
    exact hst.word
  case noRight =>
    intro s u q a v r hmay hm hu hmu hr ht ha hi hsvc hf hslot
    refine ⟨_, exec_registerWrite_service hmay a v, ?_⟩
    obtain ⟨hresp, haddr, hrest⟩ := busWrite_refused hm hu hmu ht ha hr hi hf (portWriter_service q) hsvc hslot 5 v rfl
    exact ⟨hresp, haddr.trans (w32_toNat a), hrest⟩
  case locked =>
    intro s a v _ heh hlock ha
    have hb : s.bridgeWrite a.toNat v = s.bridgeError a.toNat rRefused true := by simp [State.bridgeWrite, hlock, ha]
    obtain ⟨href, hcode, hregs, hmem⟩ := bridgeError_spec s a.toNat rRefused true hb
    refine ⟨_, exec_registerWrite_maintenance heh a v, href.trans (w32_toNat a), ?_, hregs, hmem⟩
    rw [State.fld, hcode]
    rfl
  case unlockWrite =>
    intro s u v heh hm hu hi
    have hd := not_dormant_of_running hi
    have hl := lockOnly_unlockWord (s := u.respond rOkay) v hd
    obtain ⟨-, hfst, -, hfev⟩ := unlockFails_spec (u.respond rOkay) rfl hd
    refine ⟨_, exec_mgmtUnlockWrite heh v, ?_⟩
    rw [bridgeWrite_unlock hm hu hi v]
    refine ⟨by rw [hl.mtx]; rfl, hl.regs, hl.mem, fun h hv => ?_, fun h hv => ?_, fun h hv => ?_, fun h hv => ?_, fun h hv => ?_,
      fun h hv => ?_, fun h => ?_⟩
    · rw [unlockWord_locked (s := u.respond rOkay) v h, if_pos hv]
      exact ⟨unlockState_setUnlock _ 1, rfl⟩
    · rw [unlockWord_begun (s := u.respond rOkay) v h, if_pos hv, unlockState_raise]
      exact ⟨unlockState_setUnlock _ 2, raised_raise _ _ _ rfl hd⟩
    · rw [unlockWord_unlocked (s := u.respond rOkay) v h, if_pos hv, unlockState_raise]
      exact ⟨unlockState_setUnlock _ 0, raised_raise _ _ _ rfl hd⟩
    · rw [unlockWord_unlocked (s := u.respond rOkay) v h, if_neg hv]
      exact h
    · rw [unlockWord_wrong (s := u.respond rOkay) v h hv]
      exact ⟨hfst, hfev⟩
    · obtain h | h : u.unlockState = 0 ∨ u.unlockState = 1 := by omega
      · rw [unlockWord_locked (s := u.respond rOkay) v h, if_neg (by simp [hv]), if_pos hv]
        exact h
      · rw [unlockWord_begun (s := u.respond rOkay) v h, if_neg (by simp [hv]), if_pos hv]
        exact unlockState_setUnlock _ 0
    · rw [unlockWord_barred (s := u.respond rOkay) v h]
      exact h
  case window =>
    intro s heh hst
    obtain ⟨hl, hs, hfail, hev⟩ := unlockFails_spec s rfl (not_dormant_of_running heh)
    exact ⟨_, exec_unlockWindowExpiry heh hst, hs, hfail, hev, hl.regs, hl.mem⟩
  case barEnd =>
    intro s heh hst
    have hl := (LockOnly.refl s).setUnlock 0
    exact ⟨_, exec_unlockBarEnd heh hst, unlockState_setUnlock _ 0, hl.regs, hl.mem, rfl⟩
  case timeout =>
    intro s heh hst
    have hl := ((LockOnly.refl s).setUnlock 0).raise islEH 0x479 [w32 1]
    refine ⟨_, exec_unlockTimeout heh hst, ?_, ?_, hl.regs, hl.mem⟩
    · rw [unlockState_raise, unlockState_setUnlock]
    · rw [chan_raise, itcOf_setUnlock, if_neg]
      · rfl
      · simp [State.setUnlock, not_dormant_of_running heh]
  case spiRead =>
    intro s u a hon hm hu ht ha hr hi hl
    refine ⟨_, exec_spiRead hon a, ?_⟩
    rw [busRead_register hm hu ht ha 0 hr hi hl]
    exact ⟨rfl, fun _ _ => rfl, fun _ => rfl, rfl⟩
  case i2cRead =>
    intro s u d a hon hm hu ht ha hr hi hl
    refine ⟨_, exec_i2cRead hon a, ?_⟩
    rw [busRead_register hm hu ht ha 0 hr hi hl]
    exact ⟨rfl, fun _ _ => rfl, fun _ => rfl, rfl⟩
  case spiWrite =>
    intro s u v hon hm hk hu hp hi
    have hst := stored_bridgeWrite_supScratch hm hk hu hp hi v
    refine ⟨_, exec_spiWrite hon (w32 SUP_SCRATCH) v, ?_⟩
    rw [toNat_w32_supScratch, statusByte_okay hst.okay]
    generalize s.bridgeWrite SUP_SCRATCH v = t at hst ⊢
    exact ⟨rfl, hst.word, hst.regs, hst.mem, hst.chan⟩
  case i2cWrite =>
    intro s u d v hon hm hk hu hp hi
    have hst := stored_bridgeWrite_supScratch hm hk hu hp hi v
    refine ⟨_, exec_i2cWrite hon (w32 SUP_SCRATCH) v, ?_⟩
    rw [toNat_w32_supScratch, statusByte_okay hst.okay]
    generalize s.bridgeWrite SUP_SCRATCH v = t at hst ⊢
    exact ⟨rfl, hst.word, hst.regs, hst.mem, hst.chan⟩
  case otherDevice =>
    intro s d a v hoff
    exact exec_i2c_of_off hoff a v
  case badOpcode =>
    intro s op hon h2 h3
    obtain ⟨hregs, hmem, hmg⟩ := protocolError_frame (s.reply [0xFF]) 0 1 0
    exact ⟨_, exec_spiBadOpcode hon h2 h3, by rw [hmg]; rfl, fun a _ => hregs a, hmem⟩
  case notIssued =>
    intro s a hon
    obtain ⟨hregs, hmem, -⟩ := protocolError_frame s 0 2 (a.getD 0)
    exact ⟨_, exec_spiEarlyEnd_notIssued hon a, rfl, fun a _ => hregs a, hmem⟩
  case issued =>
    intro s u d v hon hm hk hu hp hi
    have hst := stored_bridgeWrite_supScratch hm hk hu hp hi v
    refine ⟨_, exec_i2cEarlyEnd_write hon (w32 SUP_SCRATCH) v, ?_⟩
    rw [toNat_w32_supScratch]
    generalize s.bridgeWrite SUP_SCRATCH v = t at hst ⊢
    obtain ⟨hregs, hmem, -⟩ := protocolError_frame t 1 3 (w32 SUP_SCRATCH)
    exact ⟨rfl, (hregs _).trans hst.word, fun a ha => (hregs a).trans (hst.regs a ha), fun a => (hmem a).trans (hst.mem a)⟩

end Sys2Proof.Machine
end

section
/-! PROOF of O51 and O55: the idle step and the reset state; a quiet command that stores to memory through what it lets take effect first. -/

namespace Sys2Proof.Machine

/-- Settles O51: both halves are how `step` and the reset state are given. -/
theorem idleStepAndReset : Obligations.IdleStepAndReset := by
  unfold Obligations.IdleStepAndReset
  refine ⟨fun s hs => ?idle, rfl, rfl, rfl, rfl, fun _ => rfl, tableWf_nil _, tableWf_nil _⟩
  case idle => simp only [step, hs]

/-! ### Why a quiet command may store (R101, R304) -/

/-- A write to SVC_TASK_CMD by SV0 that makes task 1 Ready, granted and not yet performed: CMD 1, TASK 1, TOKEN 1. -/
def makeReadyWrite : Txn :=
  ⟨⟨0, 5, true, w32 SVC_TASK_CMD, 1, [0x0F], [0x00010101]⟩, 5, 0, [], [], 0, false, 0⟩

/-- The module in Serving with that write in flight: SV0 runs task 3 that sent it, and SV1 runs task 2 at address 0x100, which the Idle task 1
of higher priority may preempt. -/
def preemptionInFlight : State :=
  let s := { State.reset with sp := { Sup.init with powered := true, converter := true, dormant := false } }
  let s := (s.setFld SUP_STATE SUP_STATE_STATE stServing).setReg SUP_ISLAND_STAT 0xFFFFFF
  let s := ((s.setTaskState 1 tkIdle).setTaskState 2 tkRunning).setTaskState 3 tkRunning
  let s := ((s.setPairTask 0 3).setPairTask 1 2).setFlag SVC_CFG SVC_CFG_PREEMPT_EN true
  let s := (s.setFld (SVC_TASK_W1 2) SVC_TASK_W1_PRIO 1).setCore 1 { Core.init with pc := 0x100 }
  s.setMtx { s.mtx with txns := [(txnKey 0 5, makeReadyWrite)], nextTag := 1 }

/-- The byte at `a` that an outcome leaves, 0 where it is no next state. -/
def byteLeft (a : Nat) : Host.Outcome State Fault Refusal → Byte
  | .next t => t.byte a
  | _ => 0

/-- The second byte of the PC in the save area of task 2. -/
def savedPc : Nat := preemptionInFlight.saveArea 2 + 125

/-- Reading the time counter of MX lets the write before it take effect, and the preemption saves task 2's context. -/
theorem byteLeft_mtxItcRead : byteLeft savedPc (exec (.mtxItcRead 0) preemptionInFlight) = 0x01 := by
  decide +kernel

/-- Refutes O55: MTX_ITC_READ is counted as quiet, but what the register target was granted before takes effect first, here a task command
whose preemption stores a context in working SRAM. -/
theorem not_quietCommandsKeepMemoryAndLifeCycle : ¬ Obligations.QuietCommandsKeepMemoryAndLifeCycle := by
  unfold Obligations.QuietCommandsKeepMemoryAndLifeCycle
  intro h
  obtain ⟨t, ht, hmem, -⟩ := h (.mtxItcRead 0) preemptionInFlight rfl
  have hleft : t.byte savedPc = 0x01 := by
    have hb := byteLeft_mtxItcRead
    rwa [ht] at hb
  have hbefore : preemptionInFlight.byte savedPc = 0 := rfl
  rw [hmem, hbefore] at hleft
  exact absurd hleft (by decide)

end Sys2Proof.Machine
end

section
/-! SUPPORT. Which registers the pads, the role machine and the start and stop of islands write, and that they leave SP and the loader alone. -/

namespace Sys2Proof.Machine

/-- What `f` keeps at every element of a list stands at its end. -/
theorem each_preserves {α : Type} (Q : State → Prop) {f : State → α → State} {l : List α} (hQ : ∀ x, ∀ b ∈ l, Q x → Q (f x b)) {s : State}
    (h : Q s) : Q (s.each l f) := by
  unfold State.each
  induction l generalizing s with
  | nil => exact h
  | cons b l ih => exact ih (fun x c hc => hQ x c (by simp [hc])) (hQ s b (by simp) h)

/-- A field, and a flag, go by the register they lie in. -/
theorem fld_of_reg {s t : State} {a : Nat} (h : t.reg a = s.reg a) (f : Fld) : t.fld a f = s.fld a f := by rw [State.fld, h, State.fld]

theorem flag_of_reg {s t : State} {a : Nat} (h : t.reg a = s.reg a) (f : Fld) : t.flag a f = s.flag a f := by
  rw [State.flag, fld_of_reg h, State.flag]

theorem life_of_reg {s t : State} (h : t.reg SUP_STATE = s.reg SUP_STATE) (hd : t.sp.dormant = s.sp.dormant) : t.life = s.life := by
  rw [State.life, fld_of_reg h, hd, State.life]

/-- From `r` to `s` no register outside `W` differs, and nothing that SP and the loader hold beside their registers. -/
structure Frame (W : Nat → Prop) (r s : State) : Prop where
  regs : Safety.regsOutside W r s
  sp : s.sp = r.sp
  ld : s.ld = r.ld

namespace Frame

variable {W V : Nat → Prop} {r s t : State}

theorem refl (r : State) : Frame W r r := ⟨fun _ _ => rfl, rfl, rfl⟩

theorem trans (h : Frame W r s) (g : Frame W s t) : Frame W r t :=
  ⟨fun a ha => (g.regs a ha).trans (h.regs a ha), g.sp.trans h.sp, g.ld.trans h.ld⟩

theorem mono (h : Frame W r s) (hW : ∀ a, W a → V a) : Frame V r s :=
  ⟨fun a ha => h.regs a (fun hw => ha (hW a hw)), h.sp, h.ld⟩

theorem setReg (h : Frame W r s) (a : Nat) (w : Word) (ha : W a) : Frame W r (s.setReg a w) :=
  ⟨fun b hb => (reg_setReg_ne s w (by rintro rfl; exact hb ha)).trans (h.regs b hb), h.sp, h.ld⟩

theorem setFld (h : Frame W r s) (a : Nat) (f : Fld) (v : Nat) (ha : W a) : Frame W r (s.setFld a f v) := h.setReg a _ ha

theorem setFlag (h : Frame W r s) (a : Nat) (f : Fld) (b : Bool) (ha : W a) : Frame W r (s.setFlag a f b) := h.setReg a _ ha

theorem count (h : Frame W r s) (a n : Nat) (ha : W a) : Frame W r (s.count a n) := h.setReg a _ ha

theorem raise (h : Frame W r s) (isl e : Nat) (d : List Word) : Frame W r (s.raise isl e d) :=
  ⟨fun a ha => (reg_raise ..).trans (h.regs a ha), (sp_raise ..).trans h.sp, (ld_raise ..).trans h.ld⟩

theorem raiseFirst (h : Frame W r s) (isl e u : Nat) (d : List Word) : Frame W r (s.raiseFirst isl e u d) :=
  ⟨fun a ha => (reg_raiseFirst ..).trans (h.regs a ha), (sp_raiseFirst ..).trans h.sp, (ld_raiseFirst ..).trans h.ld⟩

theorem setMtx (h : Frame W r s) (x : Matrix) : Frame W r (s.setMtx x) := ⟨h.regs, h.sp, h.ld⟩

theorem ite {c : Prop} [Decidable c] (h : Frame W r s) (g : Frame W r t) : Frame W r (if c then s else t) := by
  split <;> assumption

theorem each {α : Type} (l : List α) (f : State → α → State) (hf : ∀ x, ∀ a ∈ l, Frame W r x → Frame W r (f x a)) (h : Frame W r s) :
    Frame W r (s.each l f) :=
  each_preserves (Frame W r) hf h

theorem fld (h : Frame W r s) {a : Nat} (ha : ¬ W a) (f : Fld) : s.fld a f = r.fld a f :=
  fld_of_reg (h.regs a ha) f

theorem flag (h : Frame W r s) {a : Nat} (ha : ¬ W a) (f : Fld) : s.flag a f = r.flag a f := by
  rw [State.flag, h.fld ha, State.flag]

theorem bitAt (h : Frame W r s) {a : Nat} (ha : ¬ W a) (j : Nat) : s.bitAt a j = r.bitAt a j := h.flag ha _

theorem running (h : Frame W r s) (ha : ¬ W SUP_ISLAND_STAT) (i : Nat) : s.running i = r.running i := by
  rw [State.running, h.sp, h.bitAt ha, State.running]

theorem life (h : Frame W r s) (ha : ¬ W SUP_STATE) : s.life = r.life := by
  rw [State.life, h.sp, h.fld ha, State.life]

theorem inState (h : Frame W r s) (ha : ¬ W SUP_STATE) (l : List Nat) : s.inState l = r.inState l := by
  rw [State.inState, h.life ha, State.inState]

end Frame

theorem sameMem_of_mem {s t : State} (h : t.mem = s.mem) : Safety.sameMem s t := fun a => by rw [State.byte, h, State.byte]

/-! ### The pads (R29, R30, R189) -/

/-- The status words of the tributary ports. -/
def driveRegs (a : Nat) : Prop := ∃ p : Fin 64, a = TRIB_STAT p

/-- What judging the enables of the shared outputs may write. -/
def padRegs (a : Nat) : Prop := a = SUP_SAFETY_STAT ∨ driveRegs a

theorem le_of_driveRegs {a : Nat} (h : driveRegs a) : 0x40300108 ≤ a ∧ a < 0x40301108 := by
  obtain ⟨p, rfl⟩ := h
  have hp := p.isLt
  unfold TRIB_STAT
  omega

theorem not_driveRegs_safety : ¬ driveRegs SUP_SAFETY_STAT := fun h => absurd (le_of_driveRegs h).1 (by decide)

theorem padRegs_safety : padRegs SUP_SAFETY_STAT := .inl rfl

theorem not_padRegs_state : ¬ padRegs SUP_STATE := by
  rintro (h | h)
  · exact absurd h (by decide)
  · exact absurd (le_of_driveRegs h).1 (by decide)

theorem driveRegs_tribStat {p : Nat} (hp : p < 64) : driveRegs (TRIB_STAT p) := ⟨⟨p, hp⟩, rfl⟩

/-- What `updateDriven` does at one port. -/
theorem frame_driven {r s : State} {p : Nat} (hp : p ∈ List.range 64) (h : Frame driveRegs r s) :
    Frame driveRegs r (if s.running (islTR p) then
      s.setFlag (TRIB_STAT p) TRIB_STAT_DRIVEN (s.flag (TRIB_CFG p) TRIB_CFG_EN && s.sharedDriven) else s) :=
  (h.setFlag _ _ _ (driveRegs_tribStat (List.mem_range.mp hp))).ite h

theorem frame_updateDriven (s : State) : Frame driveRegs s s.updateDriven :=
  Frame.each _ _ (fun _ _ => frame_driven) (Frame.refl s)

/-- What every application of `f` keeps, going through a list keeps. -/
theorem each_keeps {α β : Type} (g : State → β) {f : State → α → State} (hf : ∀ x a, g (f x a) = g x) (s : State) (l : List α) :
    g (s.each l f) = g s := by
  unfold State.each
  induction l generalizing s with
  | nil => rfl
  | cons a l ih => exact (ih (f s a)).trans (hf s a)

/-- What `f` establishes at one element of a list, and keeps at every other, stands at the end; `I` is what it keeps all along. -/
theorem each_establishes {α : Type} (I Q : State → Prop) {f : State → α → State} {l : List α} {a : α} (ha : a ∈ l)
    (hI : ∀ x, ∀ b ∈ l, I x → I (f x b)) (hQ : ∀ x, ∀ b ∈ l, I x → Q x → Q (f x b)) (hest : ∀ x, I x → Q (f x a)) {s : State} (h : I s) :
    Q (s.each l f) := by
  obtain ⟨l₁, l₂, rfl⟩ := List.append_of_mem ha
  have hfirst : I (s.each l₁ f) := each_preserves I (fun x b hb => hI x b (by simp [hb])) h
  have hboth : I (f (s.each l₁ f) a) ∧ Q (f (s.each l₁ f) a) := ⟨hI _ a ha hfirst, hest _ hfirst⟩
  have hsplit : s.each (l₁ ++ a :: l₂) f = (f (s.each l₁ f) a).each l₂ f := by simp [State.each]
  rw [hsplit]
  exact (each_preserves (fun x => I x ∧ Q x) (fun x b hb hx => ⟨hI x b (by simp [hb]) hx.1, hQ x b (by simp [hb]) hx.1 hx.2⟩) hboth).2

@[simp] theorem chan_updateDriven (s : State) : s.updateDriven.chan = s.chan :=
  each_keeps State.chan (fun x p => by split <;> rfl) s _

theorem mem_updateDriven (s : State) : s.updateDriven.mem = s.mem := (still_updateDriven (still_refl s)).mem

theorem sharedDriven_updateDriven (s : State) : s.updateDriven.sharedDriven = s.sharedDriven := by
  have h := frame_updateDriven s
  rw [State.sharedDriven, h.flag not_driveRegs_safety, h.sp, State.sharedDriven]

/-- Where the shared outputs are not driven, no running port drives its pair (R189). -/
theorem driven_updateDriven_of_off {s : State} (hoff : s.sharedDriven = false) (p : Fin 64) (hp : s.running (islTR p) = true) :
    s.updateDriven.flag (TRIB_STAT p) TRIB_STAT_DRIVEN = false := by
  have hisl : ¬ driveRegs SUP_ISLAND_STAT := fun h => absurd (le_of_driveRegs h).1 (by decide)
  have hshared {x : State} (h : Frame driveRegs s x) : x.sharedDriven = false := by
    rw [← hoff, State.sharedDriven, h.flag not_driveRegs_safety, h.sp, State.sharedDriven]
  refine each_establishes (Frame driveRegs s) (fun x => x.flag (TRIB_STAT p) TRIB_STAT_DRIVEN = false) (List.mem_range.mpr p.isLt)
    (fun _ _ => frame_driven) (fun x q hq hx hd => ?keeps) (fun x hx => ?sets) (Frame.refl s)
  case keeps =>
    by_cases he : TRIB_STAT q = TRIB_STAT p
    · split
      · rw [he, flag_setFlag_self _ _ (by decide) rfl, hshared hx, Bool.and_false]
      · exact hd
    · split
      · rwa [flag_setFlag_ne _ _ _ _ he]
      · exact hd
  case sets =>
    rw [if_pos (by rw [hx.running hisl, hp]), flag_setFlag_self _ _ (by decide) rfl, hshared hx, Bool.and_false]

theorem frame_updatePads (s : State) : Frame padRegs s s.updatePads :=
  ((Frame.refl s).setFlag _ _ _ (.inl rfl)).trans ((frame_updateDriven _).mono fun _ => .inr)

@[simp] theorem chan_updatePads (s : State) : s.updatePads.chan = s.chan := chan_updateDriven _

theorem mem_updatePads (s : State) : s.updatePads.mem = s.mem := (still_updatePads (still_refl s)).mem

/-- The shared enable as the pads are judged: both keys, a state that serves, and the second gate closed (R29, R30). -/
theorem sharedEn_updatePads (s : State) : s.updatePads.flag SUP_SAFETY_STAT SUP_SAFETY_STAT_SHARED_EN =
    (s.flag SUP_SAFETY_STAT SUP_SAFETY_STAT_CLAIM_OUT && s.flag SUP_SAFETY_STAT SUP_SAFETY_STAT_KEY2
      && s.inState [stServing, stLimp] && !s.sp.secondGate) := by
  unfold State.updatePads
  rw [(frame_updateDriven _).flag not_driveRegs_safety, flag_setFlag_self _ _ (by decide) rfl]

/-- Judging the pads changes no other bit of SP's safety status. -/
theorem safetyFlag_updatePads (s : State) {f : Fld} (hf : f.lo + f.len ≤ 3 ∨ 4 ≤ f.lo) :
    s.updatePads.flag SUP_SAFETY_STAT f = s.flag SUP_SAFETY_STAT f := by
  unfold State.updatePads
  rw [(frame_updateDriven _).flag not_driveRegs_safety, flag_setFlag_other _ _ hf]

/-! ### What adds events and keeps memory -/

/-- From `r` to `s` no register outside `W` differs, and nothing of SP, of the loader or of memory; events are only added. -/
structure Added (W : Nat → Prop) (r s : State) : Prop extends Frame W r s where
  chan : r.chan <+: s.chan
  mem : s.mem = r.mem

namespace Added

variable {W V : Nat → Prop} {r s t : State}

theorem refl (s : State) : Added W s s := ⟨Frame.refl s, List.prefix_rfl, rfl⟩

theorem trans (h : Added W r s) (g : Added W s t) : Added W r t := ⟨h.toFrame.trans g.toFrame, h.chan.trans g.chan, g.mem.trans h.mem⟩

theorem mono (h : Added W r s) (hW : ∀ a, W a → V a) : Added V r s := ⟨h.toFrame.mono hW, h.chan, h.mem⟩

theorem setFld (h : Added W r s) (a : Nat) (f : Fld) (v : Nat) (ha : W a) : Added W r (s.setFld a f v) :=
  ⟨h.toFrame.setFld a f v ha, h.chan, h.mem⟩

theorem setFlag (h : Added W r s) (a : Nat) (f : Fld) (b : Bool) (ha : W a) : Added W r (s.setFlag a f b) := h.setFld a f _ ha

theorem count (h : Added W r s) (a n : Nat) (ha : W a) : Added W r (s.count a n) := ⟨h.toFrame.count a n ha, h.chan, h.mem⟩

theorem raise (h : Added W r s) (isl e : Nat) (d : List Word) : Added W r (s.raise isl e d) where
  toFrame := h.toFrame.raise isl e d
  chan := by
    rw [chan_raise]
    split
    · exact h.chan
    · exact h.chan.trans (List.prefix_append _ _)
  mem := (mem_raise ..).trans h.mem

theorem setTw (h : Added W r s) (x : Twin) : Added W r (s.setTw x) := ⟨⟨h.regs, h.sp, h.ld⟩, h.chan, h.mem⟩

theorem ite {c : Prop} [Decidable c] (h : Added W r s) (g : Added W r t) : Added W r (if c then s else t) := by
  split <;> assumption

theorem each {α : Type} (l : List α) (f : State → α → State) (hf : ∀ x, ∀ a ∈ l, Added W r x → Added W r (f x a)) (h : Added W r s) :
    Added W r (s.each l f) :=
  each_preserves (Added W r) hf h

end Added

theorem added_updatePads (s : State) : Added padRegs s s.updatePads where
  toFrame := frame_updatePads s
  chan := by rw [chan_updatePads]
  mem := mem_updatePads s

theorem added_driveClaim (s : State) (b : Bool) : Added padRegs s (s.driveClaim b) :=
  have h := ((Added.refl s).setFlag SUP_SAFETY_STAT SUP_SAFETY_STAT_CLAIM_OUT b (.inl rfl)).trans (added_updatePads _)
  h.ite (h.raise _ _ _)

/-- CLAIM_OUT stands as it was driven. -/
theorem claimOut_driveClaim (s : State) (b : Bool) : (s.driveClaim b).flag SUP_SAFETY_STAT SUP_SAFETY_STAT_CLAIM_OUT = b := by
  have h : ((s.setFlag SUP_SAFETY_STAT SUP_SAFETY_STAT_CLAIM_OUT b).updatePads).flag SUP_SAFETY_STAT SUP_SAFETY_STAT_CLAIM_OUT = b := by
    rw [safetyFlag_updatePads _ (by decide), flag_setFlag_self _ _ (by decide) rfl]
  have hd : s.driveClaim b = (s.setFlag SUP_SAFETY_STAT SUP_SAFETY_STAT_CLAIM_OUT b).updatePads
      ∨ ∃ e, s.driveClaim b = ((s.setFlag SUP_SAFETY_STAT SUP_SAFETY_STAT_CLAIM_OUT b).updatePads).raise islSP e :=
    (ite_eq_or_eq _ _ _).imp id fun he => ⟨_, he⟩
  obtain hd | ⟨e, hd⟩ := hd
  · rw [hd, h]
  · rw [hd, flag_raise, h]

/-! ### The role machine (R257 to R263) -/

/-- The registers of the TWN block. -/
def twnRegs (a : Nat) : Prop := 0x40600000 ≤ a ∧ a < 0x40610000

theorem twinRegs_of_padRegs {a : Nat} (h : padRegs a) : Safety.twinRegs a := by
  obtain rfl | ⟨p, rfl⟩ := h
  · exact .inr (.inl rfl)
  · exact .inr (.inr ⟨p, p.isLt, .inl rfl⟩)

theorem twnRegs_stat : twnRegs TWN_STAT := ⟨by decide, by decide⟩

/-- What the role machine judges before it moves the role. -/
def State.ruled (s : State) : State :=
  let s := s.setFlag TWN_STAT TWN_STAT_READY s.isReady
  let s := ((s.updateHitless).updateSilent).updateEqWtr.dropCommand
  let order := s.ruling
  ((s.setFlag TWN_STAT TWN_STAT_EQ_SEL (s.selectsJunior order)).setFld TWN_STAT TWN_STAT_EQ_REQ order).dropHandover

/-- The role machine in its three cases: no TW to run it, a module alone, and a pair. -/
theorem roleEval_eq (s : State) : s.roleEval =
    if s.sp.dormant || !s.running 20 then s
    else if !s.paired then (s.setFlag TWN_STAT TWN_STAT_READY s.isReady).roleTo (if s.live then roActive else roObserver)
    else s.ruled.moveRole := rfl

section
variable {r s : State} (h : Added twnRegs r s)
include h

theorem Added.updateHitless : Added twnRegs r s.updateHitless := h.ite ((h.setFlag _ _ _ twnRegs_stat).raise _ _ _)

theorem Added.updateSilent : Added twnRegs r s.updateSilent :=
  have hs := ((h.setTw _).ite h).setFlag TWN_STAT _ _ twnRegs_stat
  hs.ite (hs.setFlag _ _ _ twnRegs_stat)

theorem Added.updateEqWtr : Added twnRegs r s.updateEqWtr :=
  have hf := h.setTw { s.tw with seniorFault := _ }
  have hs := (((hf.setTw _).setFlag TWN_STAT _ _ twnRegs_stat).raise 20 0x43C _).ite hf
  (hs.setFlag _ _ _ twnRegs_stat).ite hs

theorem Added.dropCommand : Added twnRegs r s.dropCommand := (h.setFld _ _ _ ⟨by decide, by decide⟩).ite h

theorem Added.dropHandover : Added twnRegs r s.dropHandover := (h.setTw _).ite h

theorem Added.ruled : Added twnRegs r s.ruled :=
  have hc := (h.setFlag TWN_STAT TWN_STAT_READY s.isReady twnRegs_stat).updateHitless.updateSilent.updateEqWtr.dropCommand
  ((hc.setFlag TWN_STAT TWN_STAT_EQ_SEL _ twnRegs_stat).setFld TWN_STAT TWN_STAT_EQ_REQ _ twnRegs_stat).dropHandover

end

section
variable {r s : State} (h : Added Safety.twinRegs r s)
include h

theorem Added.roleTo (x : Nat) : Added Safety.twinRegs r (s.roleTo x) :=
  h.ite (((h.setFld TWN_STAT _ x (.inl twnRegs_stat)).raise _ _ _).trans ((added_driveClaim _ _).mono fun _ => twinRegs_of_padRegs))

theorem Added.switchDone (kind : Nat) : Added Safety.twinRegs r (s.switchDone kind) :=
  (h.count _ _ (.inl ⟨by decide, by decide⟩)).raise _ _ _

theorem Added.moveRole : Added Safety.twinRegs r s.moveRole :=
  ite ((h.setTw _).roleTo _) <| ite h <|
    ite (ite (h.roleTo _) <| ite (h.roleTo _) h) <|
      ite (ite ((h.roleTo _).switchDone _) h) <| ite ((h.roleTo _).switchDone _) h

theorem Added.roleEval : Added Safety.twinRegs r s.roleEval :=
  h.ite <| ((h.setFlag TWN_STAT TWN_STAT_READY s.isReady (.inl twnRegs_stat)).roleTo _).ite
    (h.trans ((Added.refl s).ruled.mono fun _ => .inl)).moveRole

end

theorem not_twnRegs_of_lt {a : Nat} (h : a < 0x40600000) : ¬ twnRegs a := fun ht => absurd ht.1 (by omega)

theorem claimOut_roleTo_observer {s : State} (h : s.flag SUP_SAFETY_STAT SUP_SAFETY_STAT_CLAIM_OUT = false) :
    (s.roleTo roObserver).flag SUP_SAFETY_STAT SUP_SAFETY_STAT_CLAIM_OUT = false := by
  unfold State.roleTo
  split
  · exact h
  · exact claimOut_driveClaim _ _

/-- A module that carries no traffic does not claim: the role machine makes it Observer (R259, R263). -/
theorem claimOut_roleEval_of_not_live {s : State} (hl : s.live = false) (h : s.flag SUP_SAFETY_STAT SUP_SAFETY_STAT_CLAIM_OUT = false) :
    s.roleEval.flag SUP_SAFETY_STAT SUP_SAFETY_STAT_CLAIM_OUT = false := by
  rw [roleEval_eq]
  split_ifs
  · exact h
  · rename_i hlive
    rw [hl] at hlive
    cases hlive
  · exact claimOut_roleTo_observer ((flag_setFlag_ne _ _ _ _ (by decide)).trans h)
  · have hr : Added twnRegs s s.ruled := (Added.refl s).ruled
    have hsf : s.ruled.selfSf = true := by
      rw [State.selfSf, State.live, hr.inState (not_twnRegs_of_lt (by decide)), ← State.live, hl]
      rfl
    have hmove : s.ruled.moveRole = (s.ruled.setTw { s.ruled.tw with handover := none }).roleTo roObserver := if_pos hsf
    rw [hmove]
    exact claimOut_roleTo_observer ((hr.flag (not_twnRegs_of_lt (by decide)) _).trans h)

/-! ### Entry into a life cycle state (R14, R25) -/

/-- The state as SUP_STATE and the event of the entry announce it, before pads, lasers and role follow. -/
def State.announce (s : State) (st cause : Nat) (extra : List Word) : State :=
  let prev := s.life
  let s := { s with sp := { s.sp with dormant := false } }
  let s := ((s.setFld SUP_STATE SUP_STATE_PREV prev).setFld SUP_STATE SUP_STATE_STATE st).setFld SUP_STATE SUP_STATE_ENTRY_CAUSE cause
  s.raise islSP st (s.reg SUP_STATE :: extra)

/-- The pads, the lasers and what TW notes of an entry, as they follow the announced state. -/
def State.follow (s : State) (known : Prop) [Decidable known] : State :=
  let s := s.updatePads.each (List.range 8) State.updateLaser
  if known then s.setTw { s.tw with servedAt := s.now, known := s.twn TWN_STAT_LINK_UP || s.twn TWN_STAT_TIE_OK } else s

theorem enter_eq (s : State) (st cause : Nat) (extra : List Word) :
    s.enter st cause extra = ((s.announce st cause extra).follow (st = stServing ∧ s.life = stArmed)).roleEval := by
  simp only [State.enter, State.follow, State.announce]

/-- What an entry writes beside SUP_STATE. -/
def enterRegs (a : Nat) : Prop := Safety.twinRegs a ∨ ∃ n : Fin 8, a = LINE_STAT n

theorem added_follow (s : State) (known : Prop) [Decidable known] : Added enterRegs s (s.follow known) :=
  have hp : Added enterRegs s s.updatePads := (added_updatePads s).mono fun _ h => .inl (twinRegs_of_padRegs h)
  have hl := Added.each (List.range 8) State.updateLaser
    (fun _ n hn h => h.setFlag _ _ _ (.inr ⟨⟨n, List.mem_range.mp hn⟩, rfl⟩)) hp
  (hl.setTw _).ite hl

theorem added_enter (s : State) (st cause : Nat) (extra : List Word) :
    Added enterRegs (s.announce st cause extra) (s.enter st cause extra) := by
  rw [enter_eq]
  exact (added_follow _ _).trans ((Added.refl _).roleEval.mono fun _ => .inl)

end Sys2Proof.Machine
end

section
/-! PROOF of O5: the shared outputs and their two keys. -/

namespace Sys2Proof.Machine

/-! ### Which rows keep the invariant (R29) -/

/-- Judging the pads makes the invariant hold, whatever stood before. -/
theorem twoKeys_updatePads (s : State) : Safety.twoKeys s.updatePads := by
  intro h
  rw [sharedEn_updatePads] at h
  rw [safetyFlag_updatePads s (by decide), safetyFlag_updatePads s (by decide)]
  simp only [Bool.and_eq_true] at h
  exact h.1.1

/-- The invariant speaks of three bits of one register. -/
theorem twoKeys_of_bits {s t : State} (h : Safety.twoKeys s)
    (heq : ∀ f : Fld, f.lo < 4 → f.len = 1 → t.flag SUP_SAFETY_STAT f = s.flag SUP_SAFETY_STAT f) : Safety.twoKeys t := by
  unfold Safety.twoKeys
  rw [heq _ (by decide) rfl, heq _ (by decide) rfl, heq _ (by decide) rfl]
  exact h

theorem twoKeys_of_reg {s t : State} (h : Safety.twoKeys s) (heq : t.reg SUP_SAFETY_STAT = s.reg SUP_SAFETY_STAT) : Safety.twoKeys t :=
  twoKeys_of_bits h fun f _ _ => by rw [State.flag, State.fld, heq, State.flag, State.fld]

theorem exec_key2 (s : State) : exec .key2 s = .next
    (if !s.sp.powered || s.flag SUP_SAFETY_STAT SUP_SAFETY_STAT_CLAIM_IN then s
      else (s.setFlag SUP_SAFETY_STAT SUP_SAFETY_STAT_KEY2 true).updatePads) := rfl

/-- SP with the level of CLAIM_IN as it now stands, before the keys are judged. -/
def State.claimSeen (s : State) (level : Bool) : State :=
  let s := s.setFlag SUP_SAFETY_STAT SUP_SAFETY_STAT_CLAIM_IN level
  if level then s else s.setTw { s.tw with claimFell := s.now }

theorem exec_claimInChange (s : State) (level : Bool) : exec (.claimInChange level) s = .next
    (if !s.sp.powered then s else ((s.claimSeen level).setFlag SUP_SAFETY_STAT SUP_SAFETY_STAT_KEY2 false).updatePads) := rfl

theorem exec_keepaliveLoss (s : State) :
    exec .keepaliveLoss s = .next ({ s with sp := { s.sp with keepalive := false } }).updateDriven := rfl

theorem twoKeys_key2 {s : State} (h : Safety.twoKeys s) : ∃ t, exec .key2 s = .next t ∧ Safety.twoKeys t := by
  refine ⟨_, exec_key2 s, ?_⟩
  split
  · exact h
  · exact twoKeys_updatePads _

theorem twoKeys_claimInChange {s : State} (h : Safety.twoKeys s) (level : Bool) :
    ∃ t, exec (.claimInChange level) s = .next t ∧ Safety.twoKeys t := by
  refine ⟨_, exec_claimInChange s level, ?_⟩
  split
  · exact h
  · exact twoKeys_updatePads _

theorem twoKeys_keepaliveLoss {s : State} (h : Safety.twoKeys s) : ∃ t, exec .keepaliveLoss s = .next t ∧ Safety.twoKeys t :=
  ⟨_, exec_keepaliveLoss s, twoKeys_of_reg h ((frame_updateDriven _).regs _ not_driveRegs_safety)⟩

theorem twoKeys_squelchRelease {s : State} (h : Safety.twoKeys s) : ∃ t, exec .squelchRelease s = .next t ∧ Safety.twoKeys t := by
  refine ⟨_, rfl, ?_⟩
  split
  · refine twoKeys_of_bits h fun f hlo hlen => ?_
    rw [flag_raise, flag_setFlag_other _ _ (.inl (by simp only [hlen, SUP_SAFETY_STAT_SQUELCH]; omega))]
  · exact h

theorem twoKeys_safeCountClear {s : State} (h : Safety.twoKeys s) : ∃ t, exec .safeCountClear s = .next t ∧ Safety.twoKeys t := by
  refine ⟨_, rfl, ?_⟩
  split
  · exact twoKeys_of_reg h (reg_setFld_ne _ _ _ (by decide))
  · exact h

theorem twoKeys_claimDisagree {s : State} (h : Safety.twoKeys s) : ∃ t, exec .claimDisagree s = .next t ∧ Safety.twoKeys t := by
  refine ⟨_, rfl, ?_⟩
  split
  · exact twoKeys_of_reg h (reg_raise ..)
  · exact h

theorem twoKeys_rtBrownOut {s : State} (h : Safety.twoKeys s) : ∃ t, exec .rtBrownOut s = .next t ∧ Safety.twoKeys t := ⟨_, rfl, h⟩

/-! ### What the rows do -/

theorem claimSeen_flag (s : State) (level : Bool) (f : Fld) :
    (s.claimSeen level).flag SUP_SAFETY_STAT f = (s.setFlag SUP_SAFETY_STAT SUP_SAFETY_STAT_CLAIM_IN level).flag SUP_SAFETY_STAT f := by
  cases level <;> rfl

theorem frame_claimSeen (s : State) (level : Bool) : Frame padRegs s (s.claimSeen level) := by
  have h := (Frame.refl (W := padRegs) s).setFlag _ SUP_SAFETY_STAT_CLAIM_IN level (.inl rfl)
  cases level
  · exact ⟨h.regs, h.sp, h.ld⟩
  · exact h

theorem chan_claimSeen (s : State) (level : Bool) : (s.claimSeen level).chan = s.chan := by cases level <;> rfl

theorem mem_claimSeen (s : State) (level : Bool) : (s.claimSeen level).mem = s.mem := by cases level <;> rfl

/-- Settles O5: every row that touches the keys ends by judging the pads, which makes the enable imply both of them; the others touch none of
its three bits. -/
theorem sharedOutputsNeedBothKeys : Obligations.SharedOutputsNeedBothKeys := by
  unfold Obligations.SharedOutputsNeedBothKeys
  refine ⟨?invariant, ?key2, ?change, ?keepalive⟩
  case invariant =>
    intro s t c hc h ht
    obtain ⟨u, hu, hkeys⟩ : ∃ u, exec c s = .next u ∧ Safety.twoKeys u := by
      obtain rfl | rfl | rfl | rfl | rfl | rfl | rfl | rfl := hc
      exacts [twoKeys_key2 h, twoKeys_claimInChange h true, twoKeys_claimInChange h false, twoKeys_keepaliveLoss h, twoKeys_squelchRelease h,
        twoKeys_safeCountClear h, twoKeys_claimDisagree h, twoKeys_rtBrownOut h]
    cases ht.symm.trans hu
    exact hkeys
  case key2 =>
    intro s hp hc
    refine ⟨_, (exec_key2 s).trans (by rw [if_neg (by simp [hp, hc])]), ?_, ?_, ?_, ?_, ?_⟩
    · rw [safetyFlag_updatePads _ (by decide), flag_setFlag_self _ _ (by decide) rfl]
    · have hlife := ((Frame.refl s).setFlag SUP_SAFETY_STAT SUP_SAFETY_STAT_KEY2 true (.inl rfl)).inState not_padRegs_state [stServing, stLimp]
      rw [sharedEn_updatePads, flag_setFlag_self _ _ (by decide) rfl, flag_setFlag_other _ _ (by decide), Bool.and_true, hlife]
      rfl
    · exact (((Frame.refl s).setFlag _ _ _ (.inl rfl)).trans (frame_updatePads _)).regs
    · exact sameMem_of_mem (mem_updatePads _)
    · exact chan_updatePads _
  case change =>
    intro s level hp
    refine ⟨_, (exec_claimInChange s level).trans (by rw [if_neg (by simp [hp])]), ?_, ?_, ?_, ?_, ?_, ?_⟩
    · rw [safetyFlag_updatePads _ (by decide), flag_setFlag_other _ _ (by decide), claimSeen_flag, flag_setFlag_self _ _ (by decide) rfl]
    · rw [safetyFlag_updatePads _ (by decide), flag_setFlag_self _ _ (by decide) rfl]
    · rw [sharedEn_updatePads, flag_setFlag_self (f := SUP_SAFETY_STAT_KEY2) _ _ (by decide) rfl, Bool.and_false]
      rfl
    · exact (((frame_claimSeen s level).setFlag _ _ _ (.inl rfl)).trans (frame_updatePads _)).regs
    · exact sameMem_of_mem ((mem_updatePads _).trans (mem_claimSeen s level))
    · exact (chan_updatePads _).trans (chan_claimSeen s level)
  case keepalive =>
    intro s
    have hoff : ({ s with sp := { s.sp with keepalive := false } } : State).sharedDriven = false := Bool.and_false _
    refine ⟨_, exec_keepaliveLoss s, ?_, fun p hp => ?_, fun n => ?_, ?_, ?_, ?_⟩
    · rw [sharedDriven_updateDriven, hoff]
    · exact driven_updateDriven_of_off hoff p hp
    · rw [State.laserOff, (frame_updateDriven _).sp]
      exact Bool.or_true _
    · exact (frame_updateDriven { s with sp := { s.sp with keepalive := false } }).regs
    · exact sameMem_of_mem (mem_updateDriven _)
    · exact chan_updateDriven _

end Sys2Proof.Machine
end

section
/-! SUPPORT. What the start and the stop of islands leave alone, and what the entry into Safe leaves standing. -/

namespace Sys2Proof.Machine

/-! ### Islands (R26, R90 to R92, R112) -/

/-- The registers beyond those of SP and of the loader. -/
def beyondNvm (a : Nat) : Prop := 0x40020000 ≤ a

namespace Frame

variable {r s : State} (h : Frame beyondNvm r s)
include h

theorem syncGate (g : Nat) : Frame beyondNvm r (s.syncGate g) :=
  have ha : beyondNvm (MTX_GATE_STAT g) := by unfold beyondNvm MTX_GATE_STAT; omega
  h.ite ((((h.setFlag _ _ _ ha).setFlag _ _ _ ha).setFld _ _ _ ha).raise _ _ _)

theorem syncGates : Frame beyondNvm r s.syncGates := h.each _ _ fun _ _ _ hx => hx.syncGate _

theorem clearGates (l : List Nat) : Frame beyondNvm r (s.clearGates l) := ⟨h.regs, h.sp, h.ld⟩

theorem errorResponse (port tgt code id : Nat) (write : Bool) (addr gate : Nat) :
    Frame beyondNvm r (s.errorResponse port tgt code id write addr gate) := by
  have hr := (h.setReg MTX_ERR_LAST (w32 (port + 16 * tgt + 256 * code + 4096 * id + 65536 * bit write)) (by unfold beyondNvm; decide)).setReg
    MTX_ERR_ADDR (w32 addr) (by unfold beyondNvm; decide)
  have hs := hr.setMtx { s.mtx with resp := code }
  unfold State.errorResponse
  dsimp only
  split
  · exact hs.raise _ _ _
  · exact hs

theorem bridgeError (addr code : Nat) (write : Bool) : Frame beyondNvm r (s.bridgeError addr code write) :=
  have hr := (h.setReg EVT_MGMT_REF (w32 addr) (by unfold beyondNvm; decide)).setMtx { s.mtx with resp := code }
  (hr.setReg EVT_MGMT_REF_CODE _ (by unfold beyondNvm; decide)).raiseFirst _ _ _ _

theorem accept (x : Req) : Frame beyondNvm r (s.accept x) := ⟨h.regs, h.sp, h.ld⟩

theorem movePointer (tgt port : Nat) : Frame beyondNvm r (s.movePointer tgt port) := h.ite (h.setMtx _)

theorem release (k : Nat) : Frame beyondNvm r (s.release k) := by
  unfold State.release
  dsimp only
  split
  · exact h.setMtx _
  · exact (((h.setMtx _).setMtx _).movePointer _ _).accept _

theorem endTxn (k code gate : Nat) : Frame beyondNvm r (s.endTxn k code gate) := by
  unfold State.endTxn
  split
  · exact h
  · next t _ =>
    have he := (h.release k).errorResponse t.req.port.val t.target (t.endCode code) t.req.id.val t.req.write t.req.addr.toNat gate
    exact (h.release k).ite ((he.bridgeError _ _ _).ite he)

theorem offlineTxns (l : List Nat) : Frame beyondNvm r (s.offlineTxns l) := h.each _ _ fun _ _ _ hx => hx.endTxn _ _ _

theorem resetPort (port : Nat) : Frame beyondNvm r (s.resetPort port) := by
  have hm := h.setMtx { s.mtx with held := s.mtx.held.filter (fun r => decide (r.port.val ≠ port)) }
  unfold State.resetPort
  dsimp only
  split
  · exact hm
  · refine raise (each _ _ (fun _ _ _ hx => ?_) hm) _ _ _
    exact ⟨hx.regs, hx.sp, hx.ld⟩

theorem resetPorts (l : List Nat) : Frame beyondNvm r (s.resetPorts l) := h.each _ _ fun _ _ _ hx => hx.resetPort _

end Frame

/-- What the start and the stop of islands write. -/
def islandRegs (a : Nat) : Prop := a = SUP_ISLAND_STAT ∨ beyondNvm a

theorem frame_clockIsland {r s : State} (h : Frame islandRegs r s) (b : Bool) (i : Nat) : Frame islandRegs r (s.clockIsland b i) := by
  unfold State.clockIsland
  refine Frame.setFlag (Frame.ite h ?_) _ _ _ (.inl rfl)
  exact ⟨h.regs, h.sp, h.ld⟩

/-- What follows the RUN bits: the event, the gates, and what an island that stops leaves. -/
def State.islandsMoved (s : State) (l : List Nat) (b : Bool) : State :=
  let s := (s.raise islSP 0x009 [s.reg SUP_STATE]).syncGates
  if b then s else ((s.clearGates l).offlineTxns l).resetPorts l

theorem setIslands_eq (s : State) (l : List Nat) (b : Bool) : s.setIslands l b =
    let l := l.filter (fun i => s.bitAt SUP_ISLAND_STAT i != b)
    if l = [] then s else (s.each l (fun s i => s.clockIsland b i)).islandsMoved l b := rfl

theorem frame_islandsMoved (s : State) (l : List Nat) (b : Bool) : Frame beyondNvm s (s.islandsMoved l b) :=
  have h := ((Frame.refl s).raise islSP 0x009 [s.reg SUP_STATE]).syncGates
  h.ite (((h.clearGates l).offlineTxns l).resetPorts l)

theorem frame_setIslands (s : State) (l : List Nat) (b : Bool) : Frame islandRegs s (s.setIslands l b) :=
  (Frame.refl s).ite (((Frame.refl s).each _ _ fun _ _ _ h => frame_clockIsland h b _).trans
    ((frame_islandsMoved _ _ _).mono fun _ => .inr))

theorem mem_setIslands (s : State) (l : List Nat) (b : Bool) : (s.setIslands l b).mem = s.mem := (still_setIslands (still_refl s) l b).mem

/-- A RUN bit after one island has started or stopped. -/
theorem run_clockIsland (s : State) (b : Bool) {i j : Nat} (hi : i < 32) :
    (s.clockIsland b j).bitAt SUP_ISLAND_STAT i = if i = j then b else s.bitAt SUP_ISLAND_STAT i := by
  have hb (t : State) : (t.setBitAt SUP_ISLAND_STAT j b).bitAt SUP_ISLAND_STAT i = if i = j then b else t.bitAt SUP_ISLAND_STAT i := by
    by_cases h : i = j
    · subst h
      rw [if_pos rfl]
      exact flag_setFlag_self (f := ⟨i, 1⟩) _ _ (Nat.succ_le_of_lt hi) rfl b
    · rw [if_neg h]
      exact flag_setFlag_other _ _ (by simp only; omega) b
  unfold State.clockIsland
  rw [hb]
  by_cases h : j = islSP
  · rw [if_pos h]
  · rw [if_neg h]
    rfl

/-- RUN of each listed island as it was set. -/
theorem run_setIslands (s : State) {l : List Nat} (b : Bool) {i : Nat} (hi : i ∈ l) (h32 : i < 32) :
    (s.setIslands l b).bitAt SUP_ISLAND_STAT i = b := by
  have hne : ¬ beyondNvm SUP_ISLAND_STAT := by unfold beyondNvm; decide
  rw [setIslands_eq]
  set l' := l.filter (fun i => s.bitAt SUP_ISLAND_STAT i != b)
  have hout (hn : i ∉ l') : s.bitAt SUP_ISLAND_STAT i = b := by simpa [l', hi] using hn
  dsimp only
  split
  · next he => exact hout (by simp [he])
  · rw [(frame_islandsMoved _ _ _).bitAt hne]
    have hstep (x : State) (j : Nat) (hx : x.bitAt SUP_ISLAND_STAT i = b) : (x.clockIsland b j).bitAt SUP_ISLAND_STAT i = b := by
      rw [run_clockIsland x b h32, hx, ite_self]
    by_cases hm : i ∈ l'
    · exact each_establishes (fun _ => True) (fun x => x.bitAt SUP_ISLAND_STAT i = b) hm (fun _ _ _ _ => trivial) (fun x j _ _ => hstep x j)
        (fun x _ => by rw [run_clockIsland x b h32, if_pos rfl]) trivial
    · exact each_preserves (fun x => x.bitAt SUP_ISLAND_STAT i = b) (fun x j _ => hstep x j) (hout hm)

/-! ### What an entry shows (R14, R25) -/

theorem not_enterRegs {a : Nat} (hlt : a < 0x40100000) (hne : a ≠ SUP_SAFETY_STAT) : ¬ enterRegs a := by
  rintro ((h | h | ⟨p, -, rfl | rfl⟩) | ⟨n, rfl⟩)
  · omega
  · exact hne h
  · unfold TRIB_STAT at hlt
    omega
  · unfold TRIB_TX_STAT at hlt
    omega
  · unfold LINE_STAT at hlt
    omega

section
variable (s : State) (st cause : Nat) (extra : List Word)

theorem reg_announce_ne {a : Nat} (h : a ≠ SUP_STATE) : (s.announce st cause extra).reg a = s.reg a := by
  unfold State.announce
  rw [reg_raise, reg_setFld_ne _ _ _ h.symm, reg_setFld_ne _ _ _ h.symm, reg_setFld_ne _ _ _ h.symm]
  rfl

theorem flag_announce_ne {a : Nat} (h : a ≠ SUP_STATE) (f : Fld) : (s.announce st cause extra).flag a f = s.flag a f := by
  rw [State.flag, State.fld, reg_announce_ne s st cause extra h, State.flag, State.fld]

theorem state_announce : (s.announce st cause extra).fld SUP_STATE SUP_STATE_STATE = st % 16 := by
  unfold State.announce
  rw [fld_raise, fld_setFld_other _ _ (by decide), fld_setFld_self _ _ (by decide)]
  rfl

theorem cause_announce : (s.announce st cause extra).fld SUP_STATE SUP_STATE_ENTRY_CAUSE = cause % 256 := by
  unfold State.announce
  rw [fld_raise, fld_setFld_self _ _ (by decide)]
  rfl

theorem senior_announce : (s.announce st cause extra).flag SUP_STATE SUP_STATE_SENIOR = s.flag SUP_STATE SUP_STATE_SENIOR := by
  unfold State.announce
  rw [flag_raise, flag_setFld_other _ _ (by decide), flag_setFld_other _ _ (by decide), flag_setFld_other _ _ (by decide)]
  rfl

theorem sp_announce : (s.announce st cause extra).sp = { s.sp with dormant := false } := by
  unfold State.announce
  rw [sp_raise]
  rfl

theorem mem_announce : (s.announce st cause extra).mem = s.mem := by
  unfold State.announce
  rw [mem_raise]
  rfl

theorem raised_announce : Safety.raised [(islSP, st)] s (s.announce st cause extra) := by
  unfold State.announce
  exact raised_raise _ _ _ rfl rfl

end

section
variable (s : State) {st cause : Nat} (extra : List Word)

theorem reg_enter_ne {a : Nat} (hlt : a < 0x40100000) (hne : a ≠ SUP_SAFETY_STAT) (h : a ≠ SUP_STATE) :
    (s.enter st cause extra).reg a = s.reg a :=
  ((added_enter s st cause extra).regs a (not_enterRegs hlt hne)).trans (reg_announce_ne s st cause extra h)

theorem sp_enter : (s.enter st cause extra).sp = { s.sp with dormant := false } := (added_enter s st cause extra).sp.trans (sp_announce ..)

theorem mem_enter : (s.enter st cause extra).mem = s.mem := (added_enter s st cause extra).mem.trans (mem_announce ..)

theorem life_enter (h : st < 16) : (s.enter st cause extra).life = st := by
  have hs : (s.enter st cause extra).fld SUP_STATE SUP_STATE_STATE = st := by
    rw [(added_enter s st cause extra).fld (not_enterRegs (by decide) (by decide)), state_announce, Nat.mod_eq_of_lt h]
  rw [State.life, sp_enter, if_neg (by simp), hs]

theorem cause_enter (h : cause < 256) : (s.enter st cause extra).fld SUP_STATE SUP_STATE_ENTRY_CAUSE = cause := by
  rw [(added_enter s st cause extra).fld (not_enterRegs (by decide) (by decide)), cause_announce, Nat.mod_eq_of_lt h]

theorem senior_enter : (s.enter st cause extra).flag SUP_STATE SUP_STATE_SENIOR = s.flag SUP_STATE SUP_STATE_SENIOR := by
  rw [(added_enter s st cause extra).flag (not_enterRegs (by decide) (by decide)), senior_announce]

/-- Of SP's safety status, what follows an announced entry moves the shared enable alone, until the role is judged. -/
theorem safetyFlag_follow (known : Prop) [Decidable known] {f : Fld} (hf : f.lo + f.len ≤ 3 ∨ 4 ≤ f.lo) :
    (s.follow known).flag SUP_SAFETY_STAT f = s.flag SUP_SAFETY_STAT f := by
  have hl : (s.updatePads.each (List.range 8) State.updateLaser).flag SUP_SAFETY_STAT f = s.updatePads.flag SUP_SAFETY_STAT f :=
    each_keeps (fun x => x.flag SUP_SAFETY_STAT f) (fun x n => flag_setFlag_ne _ _ _ _ (by unfold LINE_STAT SUP_SAFETY_STAT; omega)) _ _
  rw [safetyFlag_updatePads s hf] at hl
  unfold State.follow
  dsimp only
  split
  · rw [flag_setTw, hl]
  · rw [hl]

/-- Entering a state that carries no traffic leaves a claim that was dropped as it is (R16). -/
theorem claimOut_enter (h : st < 16) (hl : [stServing, stLimp].contains st = false)
    (hc : s.flag SUP_SAFETY_STAT SUP_SAFETY_STAT_CLAIM_OUT = false) :
    (s.enter st cause extra).flag SUP_SAFETY_STAT SUP_SAFETY_STAT_CLAIM_OUT = false := by
  have hf := (added_follow (s.announce st cause extra) (st = stServing ∧ s.life = stArmed)).toFrame
  have hlife : ((s.announce st cause extra).follow (st = stServing ∧ s.life = stArmed)).life = st := by
    rw [hf.life (not_enterRegs (by decide) (by decide)), State.life, sp_announce, if_neg (by simp), state_announce, Nat.mod_eq_of_lt h]
  rw [enter_eq]
  refine claimOut_roleEval_of_not_live ?_ ?_
  · rw [State.live, State.inState, hlife, hl]
  · rw [safetyFlag_follow _ _ (by decide), flag_announce_ne _ _ _ _ (by decide), hc]

end

/-! ### The entry into Safe (R13, R16, R46, R48) -/

/-- What the outputs are left as, with SP's safety status and the pads alone written. -/
theorem frame_outputsOff (s : State) : Frame padRegs s s.outputsOff :=
  have h := ((Frame.refl s).setFlag SUP_SAFETY_STAT SUP_SAFETY_STAT_SHARED_EN false padRegs_safety).trans
    ((frame_updateDriven _).mono fun _ => .inr)
  have hl := h.setFld SUP_SAFETY_STAT SUP_SAFETY_STAT_SP_ALS 0xFF padRegs_safety
  hl.ite ((hl.setFlag SUP_SAFETY_STAT _ _ padRegs_safety).raise _ _ _)

theorem mem_outputsOff (s : State) : s.outputsOff.mem = s.mem := (still_outputsOff (still_refl s)).mem

/-- The gate stands closed. -/
theorem squelch_squelchClose (s : State) : s.squelchClose.flag SUP_SAFETY_STAT SUP_SAFETY_STAT_SQUELCH = true := by
  unfold State.squelchClose
  split
  · assumption
  · rw [flag_raise, flag_setFlag_self _ _ (by decide) rfl]

theorem fld_squelchClose (s : State) {f : Fld} (hf : f.lo + f.len ≤ 4 ∨ 5 ≤ f.lo) :
    s.squelchClose.fld SUP_SAFETY_STAT f = s.fld SUP_SAFETY_STAT f := by
  unfold State.squelchClose
  split
  · rfl
  · rw [fld_raise]
    exact fld_setFld_other _ _ hf _

/-- Of the fields below the squelch gate, the outputs' end moves the shared enable alone. -/
theorem fld_outputsOff (s : State) {f : Fld} (hf : f.lo + f.len ≤ 4) :
    s.outputsOff.fld SUP_SAFETY_STAT f = (s.setFlag SUP_SAFETY_STAT SUP_SAFETY_STAT_SHARED_EN false).fld SUP_SAFETY_STAT f := by
  have h8 : f.lo + f.len ≤ 8 := by omega
  rw [State.outputsOff, fld_squelchClose _ (.inl hf), State.lasersOff, fld_setFld_other _ _ (.inl h8),
    (frame_updateDriven _).fld not_driveRegs_safety]

theorem sharedEn_outputsOff (s : State) : s.outputsOff.flag SUP_SAFETY_STAT SUP_SAFETY_STAT_SHARED_EN = false := by
  rw [State.flag, fld_outputsOff s (by decide)]
  exact flag_setFlag_self _ _ (by decide) rfl false

theorem claimOut_outputsOff (s : State) :
    s.outputsOff.flag SUP_SAFETY_STAT SUP_SAFETY_STAT_CLAIM_OUT = s.flag SUP_SAFETY_STAT SUP_SAFETY_STAT_CLAIM_OUT := by
  rw [State.flag, fld_outputsOff s (by decide)]
  exact flag_setFlag_other _ _ (by decide) false

theorem squelch_outputsOff (s : State) : s.outputsOff.flag SUP_SAFETY_STAT SUP_SAFETY_STAT_SQUELCH = true := squelch_squelchClose _

theorem lasers_outputsOff (s : State) : s.outputsOff.fld SUP_SAFETY_STAT SUP_SAFETY_STAT_SP_ALS = 0xFF := by
  rw [State.outputsOff, fld_squelchClose _ (by decide), State.lasersOff, fld_setFld_self _ _ (by decide)]
  rfl

/-- From `s` the module has entered Safe with `cause`: what R46 and R48 leave standing. -/
structure SafeEntered (cause : Nat) (s t : State) : Prop where
  life : t.life = stSafe
  entryCause : t.fld SUP_STATE SUP_STATE_ENTRY_CAUSE = cause
  count : t.fld SUP_TO_STAT SUP_TO_STAT_SAFE_COUNT = min 255 (s.fld SUP_TO_STAT SUP_TO_STAT_SAFE_COUNT + 1)
  claimOut : t.flag SUP_SAFETY_STAT SUP_SAFETY_STAT_CLAIM_OUT = false
  sharedEn : t.flag SUP_SAFETY_STAT SUP_SAFETY_STAT_SHARED_EN = false
  squelch : t.flag SUP_SAFETY_STAT SUP_SAFETY_STAT_SQUELCH = true
  lasers : t.fld SUP_SAFETY_STAT SUP_SAFETY_STAT_SP_ALS = 0xFF
  window : t.flag NVM_STAT NVM_STAT_WINDOW = false
  l7Run : t.sp.l7Run = false
  stopped : ∀ i ∈ safeStops, t.running i = false
  mem : t.mem = s.mem

/-- The state of `s` with its claim dropped and the entry counted, announced as Safe. -/
def State.safeBegun (s : State) (prev cause : Nat) : State :=
  let s := s.driveClaim false
  let s := s.setFld SUP_TO_STAT SUP_TO_STAT_SAFE_COUNT (min 255 (s.fld SUP_TO_STAT SUP_TO_STAT_SAFE_COUNT + 1))
  (s.setFld SUP_STATE SUP_STATE_STATE prev).enter stSafe cause

/-- The same with the hold begun, loader and L7 stopped, the outputs off and the window closed: SP's part of the entry. -/
def State.safeHeld (s : State) : State :=
  let s := { s with sp := { s.sp with holdMs := s.safeHold, l7Run := false }, ld := { s.ld with running := false, timed := false } }
  (s.outputsOff.setFlag NVM_STAT NVM_STAT_WINDOW false).markEntry

theorem enterSafe_eq (s : State) (prev cause : Nat) :
    s.enterSafe prev cause = ((s.safeBegun prev cause).safeHeld.lockBridge 2).setIslands safeStops false := by
  simp only [State.enterSafe, State.safeBegun, State.safeHeld]

theorem frame_lockBridge (s : State) (reason : Nat) : Frame beyondNvm s (s.lockBridge reason) := by
  have h := (Frame.refl s).setFld EVT_MGMT_UNLOCK EVT_MGMT_UNLOCK_STATE 0 (show beyondNvm EVT_MGMT_UNLOCK by unfold beyondNvm; decide)
  unfold State.lockBridge
  dsimp only
  split_ifs
  exacts [h.raise _ _ _, h, .refl s]

theorem not_islandRegs {a : Nat} (hlt : a < 0x40020000) (hne : a ≠ SUP_ISLAND_STAT) : ¬ islandRegs a := by
  rintro (h | h)
  · exact hne h
  · unfold beyondNvm at h
    omega

theorem not_padRegs {a : Nat} (hlt : a < 0x40300108) (hne : a ≠ SUP_SAFETY_STAT) : ¬ padRegs a := by
  rintro (h | h)
  · exact hne h
  · exact absurd (le_of_driveRegs h).1 (by omega)

/-- What the announcement leaves: Safe with its cause, counted, with the claim dropped. -/
theorem safeBegun_spec (s : State) (prev : Nat) {cause : Nat} (hc : cause < 256) :
    (s.safeBegun prev cause).life = stSafe ∧ (s.safeBegun prev cause).fld SUP_STATE SUP_STATE_ENTRY_CAUSE = cause
      ∧ (s.safeBegun prev cause).fld SUP_TO_STAT SUP_TO_STAT_SAFE_COUNT = min 255 (s.fld SUP_TO_STAT SUP_TO_STAT_SAFE_COUNT + 1)
      ∧ (s.safeBegun prev cause).flag SUP_SAFETY_STAT SUP_SAFETY_STAT_CLAIM_OUT = false ∧ (s.safeBegun prev cause).mem = s.mem := by
  have hd := added_driveClaim s false
  unfold State.safeBegun
  dsimp only
  refine ⟨?_, ?_, ?_, ?_, ?_⟩
  · exact life_enter _ _ (by decide)
  · exact cause_enter _ _ hc
  · rw [fld_of_reg (reg_enter_ne _ _ (by decide) (by decide) (by decide)), fld_setFld_ne _ _ _ _ (by decide),
      fld_setFld_self _ _ (by decide), hd.fld (not_padRegs (by decide) (by decide))]
    exact Nat.mod_eq_of_lt (lt_of_le_of_lt (min_le_left _ _) (by decide))
  · refine claimOut_enter _ _ (by decide) (by decide) ?_
    rw [flag_setFld_ne _ _ _ _ (by decide), flag_setFld_ne _ _ _ _ (by decide), claimOut_driveClaim]
  · rw [mem_enter, mem_setFld, mem_setFld, hd.mem]

/-- What SP's part of the entry leaves: outputs off, window closed, L7 stopped, and what the announcement set. -/
theorem safeHeld_spec (s : State) :
    s.safeHeld.reg SUP_STATE = s.reg SUP_STATE ∧ s.safeHeld.sp.dormant = s.sp.dormant ∧ s.safeHeld.reg SUP_TO_STAT = s.reg SUP_TO_STAT
      ∧ s.safeHeld.flag SUP_SAFETY_STAT SUP_SAFETY_STAT_CLAIM_OUT = s.flag SUP_SAFETY_STAT SUP_SAFETY_STAT_CLAIM_OUT
      ∧ s.safeHeld.flag SUP_SAFETY_STAT SUP_SAFETY_STAT_SHARED_EN = false ∧ s.safeHeld.flag SUP_SAFETY_STAT SUP_SAFETY_STAT_SQUELCH = true
      ∧ s.safeHeld.fld SUP_SAFETY_STAT SUP_SAFETY_STAT_SP_ALS = 0xFF ∧ s.safeHeld.flag NVM_STAT NVM_STAT_WINDOW = false ∧ s.safeHeld.sp.l7Run = false
      ∧ s.safeHeld.mem = s.mem := by
  set v : State := { s with
    sp := { s.sp with holdMs := s.safeHold, l7Run := false }, ld := { s.ld with running := false, timed := false } } with hv
  have ho := frame_outputsOff v
  have hreg {a : Nat} (hlt : a < 0x40300108) (hne : a ≠ SUP_SAFETY_STAT) (hn : NVM_STAT ≠ a) : s.safeHeld.reg a = s.reg a :=
    (reg_setFld_ne v.outputsOff NVM_STAT_WINDOW _ hn).trans (ho.regs a (not_padRegs hlt hne))
  have hsafe (f : Fld) : s.safeHeld.fld SUP_SAFETY_STAT f = v.outputsOff.fld SUP_SAFETY_STAT f :=
    fld_setFld_ne v.outputsOff f NVM_STAT_WINDOW _ (by decide)
  have hflag (f : Fld) : s.safeHeld.flag SUP_SAFETY_STAT f = v.outputsOff.flag SUP_SAFETY_STAT f :=
    flag_setFld_ne v.outputsOff f NVM_STAT_WINDOW _ (by decide)
  have hsp : s.safeHeld.sp = { v.outputsOff.sp with entryAt := some v.outputsOff.now } := rfl
  refine ⟨hreg (by decide) (by decide) (by decide), ?_, hreg (by decide) (by decide) (by decide), ?_, ?_, ?_, ?_, ?_, ?_, mem_outputsOff v⟩
  · rw [hsp, ho.sp]
  · rw [hflag, claimOut_outputsOff]
    rfl
  · rw [hflag, sharedEn_outputsOff]
  · rw [hflag, squelch_outputsOff]
  · rw [hsafe, lasers_outputsOff]
  · exact flag_setFlag_self v.outputsOff NVM_STAT (by decide) rfl false
  · rw [hsp, ho.sp]

/-- The entry as a whole. -/
theorem safeEntered_enterSafe (s : State) (prev : Nat) {cause : Nat} (hc : cause < 256) : SafeEntered cause s (s.enterSafe prev cause) := by
  rw [enterSafe_eq]
  obtain ⟨hlife, hcause, hcount, hclaim, hmem⟩ := safeBegun_spec s prev hc
  obtain ⟨hst, hdorm, hto, hclaim', hen, hsq, hals, hwin, hl7, hmem'⟩ := safeHeld_spec (s.safeBegun prev cause)
  generalize s.safeBegun prev cause = u at *
  generalize u.safeHeld = v at *
  have hf : Frame islandRegs v ((v.lockBridge 2).setIslands safeStops false) :=
    ((frame_lockBridge v 2).mono fun _ => .inr).trans (frame_setIslands _ _ _)
  have hm : ((v.lockBridge 2).setIslands safeStops false).mem = v.mem :=
    (mem_setIslands _ _ _).trans (still_lockBridge (still_refl v) 2).mem
  have hlow {a : Nat} (hlt : a < 0x40020000) (hne : a ≠ SUP_ISLAND_STAT) := not_islandRegs hlt hne
  constructor
  case life =>
    rw [hf.life (hlow (by decide) (by decide)), life_of_reg hst hdorm, hlife]
  case entryCause => rw [hf.fld (hlow (by decide) (by decide)), fld_of_reg hst, hcause]
  case count => rw [hf.fld (hlow (by decide) (by decide)), fld_of_reg hto, hcount]
  case claimOut => rw [hf.flag (hlow (by decide) (by decide)), hclaim', hclaim]
  case sharedEn => rw [hf.flag (hlow (by decide) (by decide)), hen]
  case squelch => rw [hf.flag (hlow (by decide) (by decide)), hsq]
  case lasers => rw [hf.fld (hlow (by decide) (by decide)), hals]
  case window => rw [hf.flag (hlow (by decide) (by decide)), hwin]
  case l7Run => rw [hf.sp, hl7]
  case stopped =>
    intro i hi
    have h24 : i < 24 := List.mem_range.mp (List.mem_of_mem_filter hi)
    rw [State.running, run_setIslands _ _ hi (by omega), Bool.and_false]
  case mem => rw [hm, hmem', hmem]

/-- A Safe-class fault from every state but Dormant and Safe (R14, R22). -/
theorem safeEntered_safeEntry {s : State} {cause : Nat} (hc : cause < 256) (hd : s.life ≠ stDormant) (hs : s.life ≠ stSafe) :
    SafeEntered cause s (s.safeEntry cause) := by
  have hfree (prev : Nat) : SafeEntered cause s (s.useFree.enterSafe prev cause) := by
    obtain ⟨h⟩ := safeEntered_enterSafe s.useFree prev hc
    constructor <;> assumption
  unfold State.safeEntry
  rw [if_neg hd, if_neg hs]
  split_ifs
  exacts [hfree _, hfree _, safeEntered_enterSafe s _ hc]

end Sys2Proof.Machine
end

section
/-! PROOF of O3: the faults that take the module to Safe. -/

namespace Sys2Proof.Machine

/-- From `s` to `u`, where a fault of the Safe class strikes, neither the life cycle state nor SAFE_COUNT nor a byte has changed. -/
structure Struck (s u : State) : Prop where
  life : u.life = s.life
  count : u.fld SUP_TO_STAT SUP_TO_STAT_SAFE_COUNT = s.fld SUP_TO_STAT SUP_TO_STAT_SAFE_COUNT
  mem : u.mem = s.mem

namespace Struck

variable {s u : State}

theorem refl (s : State) : Struck s s := ⟨rfl, rfl, rfl⟩

theorem raise (h : Struck s u) (isl e : Nat) (d : List Word) : Struck s (u.raise isl e d) :=
  ⟨(life_raise ..).trans h.life, (fld_raise ..).trans h.count, (mem_raise ..).trans h.mem⟩

theorem setSafety (h : Struck s u) (f : Fld) (b : Bool) : Struck s (u.setFlag SUP_SAFETY_STAT f b) where
  life := (((Frame.refl u).setFlag SUP_SAFETY_STAT f b padRegs_safety).life not_padRegs_state).trans h.life
  count := (fld_setFld_ne _ _ _ _ (by decide)).trans h.count
  mem := h.mem

theorem setSp (h : Struck s u) (x : Sup) (hd : x.dormant = u.sp.dormant) : Struck s { u with sp := x } where
  life := by
    rw [← h.life, State.life, State.life, hd]
    rfl
  count := h.count
  mem := h.mem

theorem updatePads (h : Struck s u) : Struck s u.updatePads where
  life := ((frame_updatePads u).life not_padRegs_state).trans h.life
  count := ((frame_updatePads u).fld (not_padRegs (by decide) (by decide)) _).trans h.count
  mem := (mem_updatePads u).trans h.mem

/-- A firing of the ladder shows its level and source beside SAFE_COUNT (R42). -/
theorem ladder (h : Struck s u) (lvl source : Nat) : Struck s (u.ladder lvl source) := by
  have hne : SUP_TO_CNT (lvl - 1) ≠ SUP_TO_STAT := by
    unfold SUP_TO_CNT SUP_TO_STAT
    omega
  have hst := still_ladder (still_refl u) lvl source
  refine ⟨hst.life.trans h.life, ?_, hst.mem.trans h.mem⟩
  unfold State.ladder
  rw [fld_raise, fld_setFld_other _ _ (by decide), fld_setFld_other _ _ (by decide), ← h.count]
  exact fld_setReg_ne _ _ _ hne

/-- The fault takes the module from `s` to Safe. -/
theorem safeEntry (h : Struck s u) {cause : Nat} (hc : cause < 256) (hd : s.life ≠ stDormant) (hs : s.life ≠ stSafe) :
    SafeEntered cause s (u.safeEntry cause) := by
  rw [← h.life] at hd hs
  have he := safeEntered_safeEntry hc hd hs
  exact { he with count := h.count ▸ he.count, mem := he.mem.trans h.mem }

end Struck

/-! ### The rows -/

theorem not_dormant_of_life {s : State} (h : s.life ≠ stDormant) : s.sp.dormant = false := by
  cases hd : s.sp.dormant
  · rfl
  · exact absurd (by rw [State.life, hd, if_pos rfl]) h

section
variable {s : State}

theorem exec_safetySelfTest_of_failed (hd : s.sp.dormant = false) {pass : Bool} (hf : pass = false ∨ s.sp.claimBad = true ∧ s.claimDiffers = true) :
    exec (.safetySelfTest pass) s = .next
      ((({ s with sp := { s.sp with claimBad := s.sp.claimBad && s.claimDiffers } }).raise islSP 0x03C).safeEntry 0x26) :=
  congrArg Host.Outcome.next ((if_neg (by simp [hd])).trans (if_neg (by
    obtain rfl | ⟨hb, hc⟩ := hf
    · simp
    · simp [hb, hc])))

theorem exec_padEnableMismatch (hd : s.sp.dormant = false) : exec .padEnableMismatch s = .next
    (((({ s with sp := { s.sp with secondGate := true } }).updatePads).raise islSP 0x016).safeEntry 0x26) :=
  congrArg Host.Outcome.next (if_neg (by simp [hd]))

theorem exec_l7Timeout (h : s.sp.l7Run = true) : exec .l7Timeout s = .next ((s.ladder 7 0).safeEntry 0x20) :=
  congrArg Host.Outcome.next (if_pos h)

theorem exec_l8Timeout (h : s.ld.timed = true) :
    exec .l8Timeout s = .next ((s.ladder 8 (s.fld NVM_STAT NVM_STAT_STEP)).safeEntry 0x23) :=
  congrArg Host.Outcome.next (if_pos h)

theorem exec_sg5Trip_temp (hd : s.sp.dormant = false) {c : Sg5} (hc : c = .stageTemp ∨ c = .dieTemp) : exec (.sg5Trip c) s = .next
    (((s.setBitAt SUP_SAFETY_STAT (16 + sg5Code c) true).raise islSP 0x021 [w32 (sg5Code c)]).safeEntry 0x24) :=
  congrArg Host.Outcome.next ((if_neg (by simp [hd])).trans (if_neg (by obtain rfl | rfl := hc <;> decide)))

end

/-- Each row that the statement names is a Safe-class fault with its cause, struck where nothing that the entry goes by has changed. -/
theorem exec_safeRow {s : State} {x : Instr × Nat}
    (hx : x = (.mainClockDeviation, 0x26) ∨ x = (.safetySelfTest false, 0x26)
      ∨ x = (.safetySelfTest true, 0x26) ∧ s.sp.claimBad = true ∧ s.claimDiffers = true ∨ x = (.padEnableMismatch, 0x26)
      ∨ x = (.l7Timeout, 0x20) ∧ s.sp.l7Run = true ∨ x = (.l8Timeout, 0x23) ∧ s.ld.timed = true
      ∨ x = (.sg5Trip .stageTemp, 0x24) ∨ x = (.sg5Trip .dieTemp, 0x24)) (hd : s.sp.dormant = false) :
    ∃ u, exec x.1 s = .next (u.safeEntry x.2) ∧ Struck s u ∧ x.2 < 256 := by
  have h := Struck.refl s
  have htest := (h.setSp { s.sp with claimBad := s.sp.claimBad && s.claimDiffers } rfl).raise islSP 0x03C []
  have htrip (c : Sg5) := (h.setSafety ⟨16 + sg5Code c, 1⟩ true).raise islSP 0x021 [w32 (sg5Code c)]
  obtain rfl | rfl | ⟨rfl, hbad⟩ | rfl | ⟨rfl, hrun⟩ | ⟨rfl, htimed⟩ | rfl | rfl := hx
  · exact ⟨s, rfl, h, by decide⟩
  · exact ⟨_, exec_safetySelfTest_of_failed hd (.inl rfl), htest, by decide⟩
  · exact ⟨_, exec_safetySelfTest_of_failed hd (.inr hbad), htest, by decide⟩
  · exact ⟨_, exec_padEnableMismatch hd, (h.setSp { s.sp with secondGate := true } rfl).updatePads.raise islSP 0x016 [], by decide⟩
  · exact ⟨_, exec_l7Timeout hrun, h.ladder 7 0, by decide⟩
  · exact ⟨_, exec_l8Timeout htimed, h.ladder 8 _, by decide⟩
  · exact ⟨_, exec_sg5Trip_temp hd (.inl rfl), htrip _, by decide⟩
  · exact ⟨_, exec_sg5Trip_temp hd (.inr rfl), htrip _, by decide⟩

/-- Settles O3: every named row is a Safe-class fault, and the entry into Safe leaves what the statement lists. -/
theorem safeEntryRows : Obligations.SafeEntryRows := by
  unfold Obligations.SafeEntryRows
  intro s x hx hd hs
  obtain ⟨u, hu, hstruck, hc⟩ := exec_safeRow hx (not_dormant_of_life hd)
  have h := hstruck.safeEntry hc hd hs
  exact ⟨_, hu, h.life, h.entryCause, h.count, h.claimOut, h.sharedEn, h.squelch, h.lasers, h.window, h.l7Run, h.stopped,
    sameMem_of_mem h.mem⟩

end Sys2Proof.Machine
end

section
/-! SUPPORT. Which registers EH and the Ledger writer leave alone while the scheduler stands still. -/

namespace Sys2Proof.Machine

/-! ### What EH does while the scheduler stands still (R49, R328 to R332) -/

namespace Frame

section
variable {r s : State} (h : Frame beyondNvm r s)
include h

theorem setEh (x : Hub) : Frame beyondNvm r { s with eh := x } := ⟨h.regs, h.sp, h.ld⟩

theorem useFree : Frame beyondNvm r s.useFree := ⟨h.regs, h.sp, h.ld⟩

theorem setQueue (q : List Rec) : Frame beyondNvm r (s.setQueue q) :=
  (h.setEh { s.eh with queue := q }).setFld EVT_STAT EVT_STAT_QUEUE q.length (by unfold beyondNvm; decide)

theorem takeNumber : Frame beyondNvm r s.takeNumber := h.setEh { s.eh with nextAcc := (s.eh.nextAcc + 1) % 2 ^ 48 }

theorem loseRecord (ev : Ev) : Frame beyondNvm r (s.loseRecord ev) :=
  have hl := (h.count (EVT_ISL_LOST_CNT ev.isl) 1 (by unfold beyondNvm EVT_ISL_LOST_CNT; omega)).setFlag EVT_STAT EVT_STAT_LOSING true
    (by unfold beyondNvm; decide)
  ⟨hl.regs, hl.sp, hl.ld⟩

theorem enqueue (kind : Nat) (ev : Ev) : Frame beyondNvm r (s.enqueue kind ev) :=
  h.ite (ite (h.loseRecord ev) (ite (h.setQueue _).takeNumber (h.setQueue _)))

theorem countEvent (e : Nat) : Frame beyondNvm r (s.countEvent e) := by
  have hc := h.count (EVT_CNT e) 1 (by unfold beyondNvm EVT_CNT; omega)
  have hp := hc.setFlag (EVT_PEND (e / 32)) ⟨e % 32, 1⟩ true (by unfold beyondNvm EVT_PEND; omega)
  have hstat : beyondNvm EVT_STAT := by unfold beyondNvm; decide
  unfold State.countEvent
  dsimp only
  refine Frame.ite ?_ hc
  refine Frame.ite (Frame.setFlag (Frame.ite (Frame.setFlag ?_ _ _ _ hstat) ?_) _ _ _ hstat) (Frame.ite (Frame.setFlag ?_ _ _ _ hstat) ?_)
  all_goals exact ⟨hp.regs, hp.sp, hp.ld⟩

theorem takeMarker (ev : Ev) : Frame beyondNvm r (s.takeMarker ev).1 := by
  unfold State.takeMarker
  split
  · split
    · split
      · exact h.setMtx _
      · exact h
    · exact h
  · exact h

theorem writeRecord (acc kind flags : Nat) (ev : Ev) : Frame beyondNvm r (s.writeRecord acc kind flags ev) := Frame.ite ⟨h.regs, h.sp, h.ld⟩ h

theorem powerFailRecord : Frame beyondNvm r s.powerFailRecord := by
  unfold State.powerFailRecord
  split
  · have hw := (h.setQueue []).writeRecord
    exact ⟨(hw _ _ _ _).regs, (hw _ _ _ _).sp, (hw _ _ _ _).ld⟩
  · exact h

variable (hq : r.schedRuns = false)
include hq

/-- No accepted event wakes a task while neither copy of the scheduler runs. -/
theorem wakeBy (e : Nat) : Frame beyondNvm r (s.wakeBy e) := by
  have hisl : ¬ beyondNvm SUP_ISLAND_STAT := by unfold beyondNvm; decide
  have hs : s.schedRuns = false := by rw [State.schedRuns, h.running hisl, h.running hisl, ← State.schedRuns, hq]
  have hwake (t : Nat) : s.wake t e = s := if_pos (by simp [hs])
  have hdispatch : s.dispatch = s := if_pos (by simp [hs])
  unfold State.wakeBy
  split
  · rwa [hwake, hdispatch]
  · exact h

theorem placeNow (kind e : Nat) (d : List Word) : Frame beyondNvm r (s.placeNow kind e d) :=
  ((h.countEvent e).enqueue kind _).wakeBy hq e

theorem numberQueue : Frame beyondNvm r s.numberQueue := by
  unfold State.numberQueue
  extract_lets next old eh numbered emptied placed
  have he : Frame beyondNvm r emptied := (h.setEh { eh with numbered := true, nextAcc := next, startAcc := next }).setQueue []
  clear_value emptied
  exact each old _ (fun _ _ _ hx => (hx.setQueue _).takeNumber) (he.ite (he.placeNow hq _ _ _))

theorem acceptCore (ev : Ev) : Frame beyondNvm r (s.acceptCore ev) := by
  unfold State.acceptCore
  extract_lets counted eh taken numbered
  have ht : Frame beyondNvm r taken := (h.countEvent ev.num).setEh { eh with accepted := tset eh.accepted 0 ev.isl (tget eh.accepted 0 ev.isl + 1) }
  clear_value taken
  exact ite ((Frame.ite ht (ht.numberQueue hq)).setEh _).takeNumber (ite (ht.enqueue _ _) ht)

theorem acceptEvent (ev : Ev) : Frame beyondNvm r (s.acceptEvent ev) := ((h.takeMarker ev).acceptCore hq _).wakeBy hq _

theorem takeOwn : Frame beyondNvm r s.takeOwn := each _ _ (fun _ _ _ hx => hx.acceptEvent hq _) ⟨h.regs, h.sp, h.ld⟩

theorem closeLoss : Frame beyondNvm r s.closeLoss := by
  unfold State.closeLoss
  split
  · extract_lets word d found eh restored
    have hl : Frame beyondNvm r restored := (h.setFlag EVT_STAT EVT_STAT_LOSING false (by unfold beyondNvm; decide)).setEh { eh with lost := 0 }
    clear_value restored
    exact ((hl.count EVT_GAP_CNT 1 (by unfold beyondNvm; decide)).takeOwn hq).placeNow hq _ _ _
  · exact h

theorem writeHead : Frame beyondNvm r s.writeHead := by
  unfold State.writeHead
  split
  · exact ((h.writeRecord _ _ _ _).setQueue _).closeLoss hq
  · exact h

theorem writeHeads (k : Nat) : Frame beyondNvm r (s.writeHeads k) := by
  induction k generalizing s with
  | zero => exact h
  | succ k ih => exact ih (h.writeHead hq)

theorem acceptAll : Frame beyondNvm r s.acceptAll := each _ _ (fun _ _ _ hx => hx.acceptEvent hq _) ⟨h.regs, h.sp, h.ld⟩

end

end Frame

end Sys2Proof.Machine
end

section
/-! PROOF of O2: main power good into Loading, the power-fail sequence and what ends it. -/

namespace Sys2Proof.Machine

/-! ### Memory that a start or a stop clears (R55, R381) -/

theorem byte_zero_in (s : State) {a b n : Nat} (h : a ≤ b ∧ b < a + n) : (s.zero a n).byte b = 0 :=
  tget_filter_false fun p hp => by simp [hp]; omega

theorem byte_zero_out (s : State) {a b n : Nat} (h : b < a ∨ a + n ≤ b) : (s.zero a n).byte b = s.byte b :=
  tget_filter_true fun p hp => by simpa [hp] using h

theorem tget_retentionOnly (m : List Host.Cell) {a : Nat} (h : retentionBase ≤ a ∧ a < retentionBase + retentionSize) :
    tget (retentionOnly m) 0 a = tget m 0 a :=
  tget_filter_true fun p hp => by simpa [hp] using h

theorem retentionCrc_of_mem {s t : State} (h : t.mem = s.mem) : t.retentionCrc = s.retentionCrc := by
  simp only [State.retentionCrc, State.bytes, State.byte, h]

/-! ### The retention check (R50, R55) -/

section
variable (s : State) (vbak : Nat) (ok crcBad : Bool)

/-- SUP_RET_STAT as the check leaves it: its verdicts on the contents and on their CRC, and what SP holds. -/
def State.retentionShown : State :=
  let s := s.setFlag SUP_RET_STAT SUP_RET_STAT_VALID ok
  let s := s.setFlag SUP_RET_STAT SUP_RET_STAT_BOD_SEEN s.sp.bodSeen
  let s := s.setFlag SUP_RET_STAT SUP_RET_STAT_SEAL_BAD (!s.sealGood)
  let s := s.setFlag SUP_RET_STAT SUP_RET_STAT_CRC_BAD crcBad
  let s := s.setFlag SUP_RET_STAT SUP_RET_STAT_ARCH_DONE s.sp.archDone
  let s := s.setFlag SUP_RET_STAT SUP_RET_STAT_ARCH_SKIPPED s.sp.archSkipped
  s.setFlag SUP_RET_STAT SUP_RET_STAT_VBAK_PRESENT (decide (185 < vbak))

/-- The check given its verdicts: the contents kept or cleared, and RT's write port opened. -/
def State.retentionTaken : State :=
  let s := s.retentionShown vbak ok crcBad
  let s := if ok then s else s.zero retentionBase retentionSize
  ({ s with eh := { s.eh with retGood := ok } }).openRetention

theorem checkRetention_eq : ∃ crcBad, s.checkRetention vbak = s.retentionTaken vbak s.retentionGood crcBad :=
  ⟨s.sealGood && decide (s.retentionCrc ≠ s.sp.sealCrc), by
    simp only [State.checkRetention, State.retentionTaken, State.retentionShown]⟩

theorem valid_retentionShown : (s.retentionShown vbak ok crcBad).flag SUP_RET_STAT SUP_RET_STAT_VALID = ok := by
  unfold State.retentionShown
  iterate 6 rw [flag_setFlag_other _ _ (by decide)]
  exact flag_setFlag_self _ _ (by decide) rfl _

theorem regs_retentionTaken : (s.retentionTaken vbak ok crcBad).regs = (s.retentionShown vbak ok crcBad).regs := by
  unfold State.retentionTaken State.openRetention
  dsimp only
  split <;> rfl

theorem reg_retentionTaken (a : Nat) : (s.retentionTaken vbak ok crcBad).reg a = (s.retentionShown vbak ok crcBad).reg a := by
  rw [State.reg, regs_retentionTaken, State.reg]

theorem sp_retentionTaken : (s.retentionTaken vbak ok crcBad).sp = { s.sp with rtOpen := true, sealA := 0, sealB := 0, bodSeen := false } := by
  cases ok <;> rfl

theorem mem_retentionShown : (s.retentionShown vbak ok crcBad).mem = s.mem := by
  unfold State.retentionShown
  iterate 7 rw [mem_setFlag]

theorem mem_retentionTaken : (s.retentionTaken vbak ok crcBad).mem =
    (if ok then s.retentionShown vbak ok crcBad else (s.retentionShown vbak ok crcBad).zero retentionBase retentionSize).mem := by
  unfold State.retentionTaken State.openRetention
  dsimp only

theorem byte_retentionTaken_kept (b : Nat) : (s.retentionTaken vbak true crcBad).byte b = s.byte b := by
  rw [State.byte, mem_retentionTaken, if_pos rfl, mem_retentionShown, State.byte]

theorem byte_retentionTaken_in {b : Nat} (h : retentionBase ≤ b ∧ b < retentionBase + retentionSize) :
    (s.retentionTaken vbak false crcBad).byte b = 0 := by
  rw [State.byte, mem_retentionTaken, if_neg Bool.false_ne_true]
  exact byte_zero_in _ h

theorem byte_retentionTaken_out {b : Nat} (h : b < retentionBase ∨ retentionBase + retentionSize ≤ b) :
    (s.retentionTaken vbak ok crcBad).byte b = s.byte b := by
  rw [State.byte, mem_retentionTaken]
  cases ok
  case false => rw [if_neg Bool.false_ne_true, ← State.byte, byte_zero_out _ h, State.byte, mem_retentionShown, State.byte]
  case true => rw [if_pos rfl, mem_retentionShown, State.byte]

end

/-! ### The start into Loading (R14, R26, R391) -/

theorem reg_startLoader_ne (s : State) {a : Nat} (h : a ≠ NVM_STAT) : s.startLoader.reg a = s.reg a := reg_setFld_ne s _ _ h.symm

/-- From the state `c` that the retention check left, the module has started into Loading: what `t` shows and keeps. -/
structure LoadingStarted (c t : State) : Prop where
  life : t.life = stLoading
  cause : t.fld SUP_RST_CAUSE SUP_RST_CAUSE_CAUSE = c.sp.rstCause % 4
  retention : t.reg SUP_RET_STAT = c.reg SUP_RET_STAT
  senior : t.flag SUP_STATE SUP_STATE_SENIOR = c.sp.senior
  sp : t.sp = { c.sp with dormant := false }
  loader : t.ld.running = true
  mem : t.mem = c.mem

theorem loadingStarted (s : State) (vbak : Nat) : LoadingStarted (s.checkRetention vbak) (s.startLoading vbak) := by
  unfold State.startLoading
  generalize s.checkRetention vbak = c
  extract_lets checked caused shown held awake cleared entered told rt released kept numbered
  have hne {a : Nat} (hlt : a < 0x40100000) (hne : a ≠ SUP_SAFETY_STAT) (h : a ≠ SUP_STATE) : entered.reg a = caused.reg a :=
    (reg_enter_ne cleared [w32 cleared.sp.rstCause] hlt hne h).trans
      ((reg_setFld_ne awake SUP_STATE_STATE 0 h.symm).trans (reg_setFld_ne caused SUP_STATE_SENIOR _ h.symm))
  have hsp : entered.sp = { c.sp with dormant := false } := sp_enter cleared [w32 cleared.sp.rstCause]
  have hmem : entered.mem = c.mem := mem_enter cleared [w32 cleared.sp.rstCause]
  have hlife : entered.life = stLoading := life_enter cleared [w32 cleared.sp.rstCause] (by decide)
  have hcause : entered.reg SUP_RST_CAUSE = caused.reg SUP_RST_CAUSE := hne (by decide) (by decide) (by decide)
  have hret : entered.reg SUP_RET_STAT = c.reg SUP_RET_STAT :=
    (hne (by decide) (by decide) (by decide)).trans (reg_setFld_ne c _ _ (by decide))
  have hsenior : entered.flag SUP_STATE SUP_STATE_SENIOR = c.sp.senior :=
    (senior_enter cleared [w32 cleared.sp.rstCause]).trans
      ((flag_setFld_other awake SUP_STATE (by decide) _).trans (flag_setFlag_self caused SUP_STATE (by decide) rfl _))
  have hshown : caused.fld SUP_RST_CAUSE SUP_RST_CAUSE_CAUSE = c.sp.rstCause % 4 := fld_setFld_self c SUP_RST_CAUSE (by decide) _
  clear_value entered caused
  have hf : Frame islandRegs entered released := ((Frame.refl entered).raise _ _ _).trans (frame_setIslands _ _ _)
  have hm : released.mem = c.mem := (mem_setIslands ..).trans ((mem_raise ..).trans hmem)
  clear_value released
  have hk : Frame islandRegs entered kept ∧ kept.mem = c.mem := by
    clear_value rt
    cases rt with
    | none => exact ⟨hf, hm⟩
    | some p => exact ⟨⟨hf.regs, hf.sp, hf.ld⟩, hm⟩
  clear_value kept
  have hn : Frame islandRegs entered numbered := hk.1.raise _ _ _
  have hreg {a : Nat} (hlt : a < 0x40020000) (hne : a ≠ SUP_ISLAND_STAT) (hnv : a ≠ NVM_STAT) : numbered.startLoader.reg a = entered.reg a :=
    (reg_startLoader_ne _ hnv).trans (hn.regs a (not_islandRegs hlt hne))
  have hdorm : numbered.startLoader.sp = entered.sp := hn.sp
  constructor
  case life => rw [life_of_reg (hreg (by decide) (by decide) (by decide)) (by rw [hdorm]), hlife]
  case cause => rw [fld_of_reg ((hreg (by decide) (by decide) (by decide)).trans hcause), hshown]
  case retention => rw [hreg (by decide) (by decide) (by decide), hret]
  case senior => rw [flag_of_reg (hreg (by decide) (by decide) (by decide)), hsenior]
  case sp => rw [hdorm, hsp]
  case loader => rfl
  case mem => exact (mem_raise ..).trans hk.2

/-! ### MAIN_POWER_GOOD -/

theorem life_of_dormant {s : State} (h : s.sp.dormant = true) : s.life = stDormant := if_pos h

theorem rstCause_latchStraps (s : State) (senior test : Bool) : (s.latchStraps senior test).sp.rstCause = s.sp.rstCause := by
  unfold State.latchStraps
  split <;> rfl

theorem senior_latchStraps {s : State} (h : s.sp.latched = false) (senior test : Bool) : (s.latchStraps senior test).sp.senior = senior := by
  unfold State.latchStraps
  simp [h]

theorem regs_latchStraps (s : State) (senior test : Bool) : (s.latchStraps senior test).regs = s.regs := by
  unfold State.latchStraps
  split <;> rfl

theorem mem_latchStraps (s : State) (senior test : Bool) : (s.latchStraps senior test).mem = s.mem := by
  unfold State.latchStraps
  split <;> rfl

theorem dormant_latchStraps (s : State) (senior test : Bool) : (s.latchStraps senior test).sp.dormant = s.sp.dormant := by
  unfold State.latchStraps
  split <;> rfl

theorem retentionGood_latchStraps (s : State) (senior test : Bool) : (s.latchStraps senior test).retentionGood = s.retentionGood := by
  have hcrc := retentionCrc_of_mem (mem_latchStraps s senior test)
  unfold State.latchStraps at hcrc ⊢
  split
  · rfl
  · rename_i hl
    rw [if_neg hl] at hcrc
    rw [State.retentionGood, State.retentionGood, hcrc]
    rfl

section
variable {s : State} {senior test : Bool} (vbak : Nat) (hp : s.sp.powered = true) (hc : s.sp.converter = true) (hd : s.sp.dormant = true)
include hp hc hd

theorem exec_mainPowerGood_test (ht : (s.latchStraps senior test).sp.test = true) :
    exec (.mainPowerGood senior test vbak) s = .next (s.latchStraps senior test) :=
  congrArg Host.Outcome.next ((if_pos (by simp [hp, hc, hd])).trans (if_pos ht))

theorem exec_mainPowerGood_start (ht : (s.latchStraps senior test).sp.test = false) :
    exec (.mainPowerGood senior test vbak) s = .next ((s.latchStraps senior test).startLoading vbak) :=
  congrArg Host.Outcome.next ((if_pos (by simp [hp, hc, hd])).trans (if_neg (by simp [ht])))

/-- The part of the obligation about MAIN_POWER_GOOD (R14, R26, R55, R58, R391). -/
theorem mainPowerGood_started (ht : (s.latchStraps senior test).sp.test = false) :
    ∃ t, exec (.mainPowerGood senior test vbak) s = .next t ∧ t.life = stLoading ∧ t.sp.rtOpen = true ∧ t.sp.sealA = 0 ∧ t.sp.sealB = 0
      ∧ t.ld.running = true ∧ t.fld SUP_RST_CAUSE SUP_RST_CAUSE_CAUSE = s.sp.rstCause % 4
      ∧ t.flag SUP_RET_STAT SUP_RET_STAT_VALID = s.retentionGood
      ∧ (s.sp.latched = false → t.flag SUP_STATE SUP_STATE_SENIOR = senior)
      ∧ (s.retentionGood = true → Safety.sameMem s t)
      ∧ (s.retentionGood = false → ∀ a, retentionBase ≤ a → a < retentionBase + retentionSize → t.byte a = 0)
      ∧ (∀ a, a < retentionBase ∨ retentionBase + retentionSize ≤ a → t.byte a = s.byte a) := by
  have hl := loadingStarted (s.latchStraps senior test) vbak
  obtain ⟨crcBad, hchecked⟩ := checkRetention_eq (s.latchStraps senior test) vbak
  refine ⟨_, exec_mainPowerGood_start vbak hp hc hd ht, ?_⟩
  have hbyte (a : Nat) : (s.latchStraps senior test).byte a = s.byte a := by rw [State.byte, mem_latchStraps, State.byte]
  rw [hchecked, retentionGood_latchStraps] at hl
  generalize (s.latchStraps senior test).startLoading vbak = t at hl ⊢
  generalize s.retentionGood = ok at hl ⊢
  have hsp := sp_retentionTaken (s.latchStraps senior test) vbak ok crcBad
  have htb (a : Nat) : t.byte a = ((s.latchStraps senior test).retentionTaken vbak ok crcBad).byte a := by
    rw [State.byte, hl.mem, State.byte]
  refine ⟨hl.life, ?_, ?_, ?_, hl.loader, ?_, ?_, fun hla => ?_, fun hok a => ?_, fun hok a h₁ h₂ => ?_, fun a ha => ?_⟩
  · rw [hl.sp, hsp]
  · rw [hl.sp, hsp]
  · rw [hl.sp, hsp]
  · rw [hl.cause, hsp, ← rstCause_latchStraps s senior test]
  · rw [flag_of_reg (hl.retention.trans (reg_retentionTaken ..)), valid_retentionShown]
  · rw [hl.senior, hsp]
    exact senior_latchStraps hla senior test
  · rw [htb, hok, byte_retentionTaken_kept, hbyte]
  · rw [htb, hok, byte_retentionTaken_in _ _ _ ⟨h₁, h₂⟩]
  · rw [htb, byte_retentionTaken_out _ _ _ _ ha, hbyte]

end

/-! ### The power-fail sequence (R49) -/

/-- What steps 1 and 2 of the sequence in `s` leave in `u`: loader and L7 halted, the outputs off, RT running where it ran. -/
structure Halted (s u : State) : Prop where
  l7Run : u.sp.l7Run = false
  loader : u.ld.running = false
  sharedEn : u.flag SUP_SAFETY_STAT SUP_SAFETY_STAT_SHARED_EN = false
  claimOut : u.flag SUP_SAFETY_STAT SUP_SAFETY_STAT_CLAIM_OUT = false
  rt : u.running islRT = s.running islRT

theorem Halted.frame {s u v : State} (h : Halted s u) (hf : Frame beyondNvm u v) : Halted s v := by
  have hlow {a : Nat} (ha : a < 0x40020000) : ¬ beyondNvm a := by
    unfold beyondNvm
    omega
  exact ⟨hf.sp ▸ h.l7Run, hf.ld ▸ h.loader, (hf.flag (hlow (by decide)) _).trans h.sharedEn, (hf.flag (hlow (by decide)) _).trans h.claimOut,
    (hf.running (hlow (by decide)) _).trans h.rt⟩

theorem Halted.setSp {s u : State} (h : Halted s u) (x : Sup) (hd : x.dormant = u.sp.dormant) (hl : x.l7Run = u.sp.l7Run) :
    Halted s { u with sp := x } where
  l7Run := hl.trans h.l7Run
  loader := h.loader
  sharedEn := h.sharedEn
  claimOut := h.claimOut
  rt := by
    rw [← h.rt, State.running, hd]
    rfl

/-- RT holds both seal words and the CRC-32C of its contents. -/
structure Sealed (t : State) : Prop where
  sealA : t.sp.sealA = sealWord
  sealB : t.sp.sealB = sealComplement
  sealCrc : t.sp.sealCrc = t.retentionCrc

theorem Sealed.setSp {t : State} (h : Sealed t) (x : Sup) (ha : x.sealA = t.sp.sealA) (hb : x.sealB = t.sp.sealB)
    (hc : x.sealCrc = t.sp.sealCrc) : Sealed { t with sp := x } :=
  ⟨ha.trans h.sealA, hb.trans h.sealB, hc.trans (h.sealCrc.trans (retentionCrc_of_mem (s := t) rfl).symm)⟩

/-- RT's write port is closed by steps 4 and 5, and over the seal where RT runs. -/
theorem sealRetention_spec (u : State) : u.sealRetention.sp.rtOpen = false ∧ (u.running islRT = true → Sealed u.sealRetention) := by
  unfold State.sealRetention
  split
  · refine ⟨?_, fun _ => ⟨?_, ?_, ?_⟩⟩
    · rw [sp_raise]
    · rw [sp_raise]
    · rw [sp_raise]
    · rw [sp_raise, retentionCrc_of_mem (mem_raise ..)]
      exact retentionCrc_of_mem rfl
  · next hr => exact ⟨rfl, fun h => absurd h hr⟩

theorem Halted.sealRetention {s u : State} (h : Halted s u) : Halted s u.sealRetention := by
  unfold State.sealRetention
  split
  · extract_lets c sp
    exact (h.setSp { sp with rtOpen := false, sealCrc := c, sealA := sealWord, sealB := sealComplement } rfl rfl).frame
      ((Frame.refl _).raise islRT 0x029 [])
  · exact h.setSp { u.sp with rtOpen := false } rfl rfl

theorem frame_abandonGather (s : State) : Frame beyondNvm s s.abandonGather :=
  have hinv : beyondNvm INV_STAT := by unfold beyondNvm; decide
  have h : Frame beyondNvm s { s with inv := { s.inv with running := none, held := none, words := [], dark := [] } } :=
    ⟨fun _ _ => rfl, rfl, rfl⟩
  (h.setFlag INV_STAT INV_STAT_GATHERING false hinv).setFlag INV_STAT INV_STAT_HELD false hinv

/-- RUN of an island outside the list is left alone. -/
theorem run_setIslands_other (s : State) {l : List Nat} (b : Bool) {i : Nat} (hi : i ∉ l) (h32 : i < 32) :
    (s.setIslands l b).bitAt SUP_ISLAND_STAT i = s.bitAt SUP_ISLAND_STAT i := by
  have hne : ¬ beyondNvm SUP_ISLAND_STAT := by unfold beyondNvm; decide
  rw [setIslands_eq]
  dsimp only
  split
  · rfl
  · rw [(frame_islandsMoved _ _ _).bitAt hne]
    refine each_preserves (fun x => x.bitAt SUP_ISLAND_STAT i = s.bitAt SUP_ISLAND_STAT i) (fun x j hj hx => ?_) rfl
    have hij : i ≠ j := by
      rintro rfl
      exact hi (List.mem_of_mem_filter hj)
    rw [run_clockIsland x b h32, if_neg hij, hx]

/-- The islands of step 2: L7 and the loader halted before, the scheduler stopped with the core pairs, RT and the outputs as they were. -/
theorem Halted.stopIslands {s u : State} (h : Halted s u) :
    Halted s (u.setIslands powerFailStops false) ∧ (u.setIslands powerFailStops false).schedRuns = false := by
  have hf := frame_setIslands u powerFailStops false
  have hlow {a : Nat} (hlt : a < 0x40020000) (hne : a ≠ SUP_ISLAND_STAT) := not_islandRegs hlt hne
  refine ⟨⟨hf.sp ▸ h.l7Run, hf.ld ▸ h.loader, (hf.flag (hlow (by decide) (by decide)) _).trans h.sharedEn,
    (hf.flag (hlow (by decide) (by decide)) _).trans h.claimOut, ?_⟩, ?_⟩
  · rw [← h.rt, State.running, hf.sp, run_setIslands_other u false (by decide) (by decide), State.running]
  · rw [State.schedRuns, State.running, State.running, run_setIslands u false (by decide) (by decide),
      run_setIslands u false (by decide) (by decide), Bool.and_false, Bool.or_false]

/-- Steps 1 and 2, from the state `v` in which the sequence is declared. -/
theorem halted_outputsOff {s v : State} (h : v.running islRT = s.running islRT) {x : Sup} {l : Loader}
    (hd : x.dormant = ((v.roleEval.driveClaim false).outputsOff.abandonGather).sp.dormant) (hx : x.l7Run = false) (hl : l.running = false) :
    Halted s { (v.roleEval.driveClaim false).outputsOff.abandonGather with sp := x, ld := l } := by
  have hu : Frame Safety.twinRegs v (v.roleEval.driveClaim false) :=
    (Added.refl v).roleEval.toFrame.trans ((added_driveClaim _ _).toFrame.mono fun _ => twinRegs_of_padRegs)
  have hclaim := claimOut_driveClaim v.roleEval false
  generalize v.roleEval.driveClaim false = u at *
  have ho := frame_outputsOff u
  have hg := frame_abandonGather u.outputsOff
  have hlow {a : Nat} (ha : a < 0x40020000) : ¬ beyondNvm a := by
    unfold beyondNvm
    omega
  refine ⟨hx, hl, ?_, ?_, ?_⟩
  · exact (hg.flag (hlow (by decide)) _).trans (sharedEn_outputsOff u)
  · exact (hg.flag (hlow (by decide)) _).trans ((claimOut_outputsOff u).trans hclaim)
  · have hr : u.outputsOff.abandonGather.running islRT = s.running islRT := by
      rw [hg.running (hlow (by decide)), ho.running (not_padRegs (by decide) (by decide)),
        hu.running fun hw => not_enterRegs (by decide) (by decide) (.inl hw), h]
    rw [← hr, State.running, hd]
    rfl

/-- The sequence as a whole, with the rails standing. -/
theorem powerFailSequence_spec (s : State) : Halted s (s.powerFailSequence true true)
    ∧ (s.powerFailSequence true true).sp.rtOpen = false ∧ (s.running islRT = true → Sealed (s.powerFailSequence true true))
    ∧ (s.powerFailSequence true true).sp.powerFail ≠ .idle := by
  unfold State.powerFailSequence
  extract_lets supState safety toStat ptp told declared unclaimed off sup loader halted stopped accepted last written done prepared
  have hdeclared : ({ told with sp := { declared with powerFail := .waiting } } : State).running islRT = s.running islRT := by
    have := ((Frame.refl (W := beyondNvm) s).raise islSP 0x028 [supState, s.reg SUP_PWR_STAT, 0]).running
      (by unfold beyondNvm; decide) islRT
    rw [← this]
    rfl
  have hhalted : Halted s halted := halted_outputsOff hdeclared rfl rfl rfl
  clear_value halted
  obtain ⟨hstopped, hsched⟩ : Halted s stopped ∧ stopped.schedRuns = false := hhalted.stopIslands
  clear_value stopped
  have haccepted : Frame beyondNvm stopped accepted := (Frame.refl stopped).acceptAll hsched
  clear_value accepted
  have hwritten : Halted s written := hstopped.frame (haccepted.writeHeads hsched _).useFree.powerFailRecord
  have hopen : done.sp.rtOpen = false := (sealRetention_spec written).1
  have hseal : s.running islRT = true → Sealed done := fun hr => (sealRetention_spec written).2 (hwritten.rt.trans hr)
  have hdone : Halted s done := hwritten.sealRetention
  clear_value done
  split
  · exact ⟨hdone.setSp _ rfl rfl, hopen, fun hr => (hseal hr).setSp _ rfl rfl rfl, by simp⟩
  · exact ⟨hdone.setSp _ rfl rfl, hopen, fun hr => (hseal hr).setSp _ rfl rfl rfl, by simp⟩

/-- The part of the obligation about POWER_FAILURE (R49, R50). -/
theorem powerFailure_sealed (s : State) (hd : s.sp.dormant = false) (hp : s.sp.powerFail = .idle) :
    ∃ t, exec .powerFailure s = .next t ∧ t.sp.powerFail ≠ .idle ∧ t.sp.rtOpen = false ∧ t.ld.running = false ∧ t.sp.l7Run = false
      ∧ t.flag SUP_SAFETY_STAT SUP_SAFETY_STAT_SHARED_EN = false ∧ t.flag SUP_SAFETY_STAT SUP_SAFETY_STAT_CLAIM_OUT = false
      ∧ (s.running islRT = true → t.sp.sealA = sealWord ∧ t.sp.sealB = sealComplement
          ∧ t.sp.sealCrc = crc32c (t.bytes retentionBase retentionSize)) := by
  obtain ⟨hhalted, hopen, hsealed, hfail⟩ := powerFailSequence_spec s
  refine ⟨_, congrArg Host.Outcome.next ((if_neg (by simp [hd])).trans (if_pos hp)), hfail, hopen, hhalted.loader, hhalted.l7Run, hhalted.sharedEn,
    hhalted.claimOut, fun hr => ?_⟩
  obtain ⟨hA, hB, hcrc⟩ := hsealed hr
  exact ⟨hA, hB, hcrc⟩

/-! ### ARCHIVE_WRITE_DONE, POWER_RETURN and CONVERTER_STOP -/

theorem sequenceEnd_of_waits {s : State} (h : s.sp.stopAfter = false) : s.sequenceEnd = s := if_neg (by simp [h])

/-- The state of `s` with the Archive write done. -/
def State.archived (s : State) : State :=
  ({ s with sp := { s.sp with powerFail := .waiting, archDone := true } }).setFlag NVM_ARCH_STAT NVM_ARCH_STAT_PREPARED false

theorem exec_archiveWriteDone {s : State} (hp : s.sp.powerFail = .archiving) (hs : s.sp.stopAfter = false) :
    exec .archiveWriteDone s = .next (s.archived.raise islLD 0x02A) :=
  congrArg Host.Outcome.next ((if_pos hp).trans (sequenceEnd_of_waits ((congrArg Sup.stopAfter (sp_raise ..)).trans hs)))

/-- The part of the obligation about ARCHIVE_WRITE_DONE (R49). -/
theorem archiveWriteDone_shown (s : State) (hp : s.sp.powerFail = .archiving) (hs : s.sp.stopAfter = false) :
    ∃ t, exec .archiveWriteDone s = .next t ∧ t.sp.powerFail = .waiting ∧ t.sp.archDone = true
      ∧ t.flag NVM_ARCH_STAT NVM_ARCH_STAT_PREPARED = false ∧ Safety.onlyRegs [NVM_ARCH_STAT] s t ∧ Safety.sameMem s t
      ∧ (s.sp.dormant = false → Safety.raised [(islLD, 0x02A)] s t) := by
  refine ⟨_, exec_archiveWriteDone hp hs, ?_, ?_, ?_, fun a ha => ?_, sameMem_of_mem (mem_raise ..),
    fun hd => raised_raise islLD 0x02A [] (t := s.archived) rfl hd⟩
  · rw [sp_raise]
    rfl
  · rw [sp_raise]
    rfl
  · rw [flag_raise]
    exact flag_setFlag_self _ _ (by decide) rfl false
  · rw [reg_raise]
    exact reg_setFld_ne _ _ _ (by simpa [eq_comm] using ha)

theorem mem_dormantOutputs (s : State) : s.dormantOutputs.mem = s.mem := by
  unfold State.dormantOutputs
  dsimp only
  rw [each_keeps State.mem fun _ _ => mem_setFlag ..]
  rfl

theorem sp_dormantOutputs (s : State) : s.dormantOutputs.sp = s.sp := by
  unfold State.dormantOutputs
  dsimp only
  rw [each_keeps State.sp fun _ _ => sp_setFlag ..]
  rfl

/-- Neither the shared enable nor the claim stands in Dormant (R16). -/
theorem off_dormantOutputs (s : State) : s.dormantOutputs.flag SUP_SAFETY_STAT SUP_SAFETY_STAT_SHARED_EN = false
    ∧ s.dormantOutputs.flag SUP_SAFETY_STAT SUP_SAFETY_STAT_CLAIM_OUT = false := by
  have hl (u : State) (f : Fld) : (u.each (List.range 23) (fun s i => s.setFlag (SUP_L5_STAT i) SUP_L5_STAT_HELD false)).flag SUP_SAFETY_STAT f
      = u.flag SUP_SAFETY_STAT f :=
    each_keeps (fun x => x.flag SUP_SAFETY_STAT f) (fun x i => flag_setFlag_ne _ _ _ _ (by unfold SUP_L5_STAT SUP_SAFETY_STAT; omega)) _ _
  unfold State.dormantOutputs
  dsimp only
  constructor
  · rw [hl, flag_setFld_other _ _ (by decide), flag_setFlag_other _ _ (by decide), flag_setFlag_self _ _ (by decide) rfl]
  · rw [hl, flag_setFld_other _ _ (by decide), flag_setFlag_other _ _ (by decide), flag_setFlag_other _ _ (by decide),
      flag_setFlag_self _ _ (by decide) rfl]

theorem sp_supervisorReset (s : State) (cause : Nat) : (s.supervisorReset cause).sp = { s.keepSup with rstCause := cause } :=
  sp_dormantOutputs _

theorem mem_supervisorReset (s : State) (cause : Nat) : (s.supervisorReset cause).mem = s.mem := mem_dormantOutputs _

theorem life_supervisorReset (s : State) (cause : Nat) : (s.supervisorReset cause).life = stDormant :=
  life_of_dormant (congrArg Sup.dormant (sp_supervisorReset s cause))

/-- The part of the obligation about POWER_RETURN (R49, R58). -/
theorem powerReturn_reset (s : State) (h : s.sp.powerFail = .waiting) :
    ∃ t, exec .powerReturn s = .next t ∧ t.life = stDormant ∧ t.sp.rstCause = 3 ∧ t.sp.powerFail = .idle ∧ t.sp.sealA = s.sp.sealA
      ∧ t.sp.sealB = s.sp.sealB ∧ t.sp.sealCrc = s.sp.sealCrc ∧ Safety.sameMem s t ∧ t.flag SUP_SAFETY_STAT SUP_SAFETY_STAT_SHARED_EN = false
      ∧ t.flag SUP_SAFETY_STAT SUP_SAFETY_STAT_CLAIM_OUT = false := by
  have hsp := sp_supervisorReset s 3
  have hoff : (s.supervisorReset 3).flag SUP_SAFETY_STAT SUP_SAFETY_STAT_SHARED_EN = false
      ∧ (s.supervisorReset 3).flag SUP_SAFETY_STAT SUP_SAFETY_STAT_CLAIM_OUT = false := off_dormantOutputs _
  refine ⟨_, congrArg Host.Outcome.next (if_pos h), life_supervisorReset s 3, ?_, ?_, ?_, ?_, ?_, sameMem_of_mem (mem_supervisorReset s 3), hoff⟩
  all_goals rw [hsp, State.keepSup]

theorem life_converterOff (s : State) : s.converterOff.life = stDormant :=
  life_of_dormant (congrArg Sup.dormant (sp_supervisorReset s 3) :)

theorem byte_converterOff (s : State) {a : Nat} (h : retentionBase ≤ a ∧ a < retentionBase + retentionSize) :
    s.converterOff.byte a = s.byte a := by
  have hm : s.converterOff.mem = retentionOnly s.mem := congrArg retentionOnly (mem_supervisorReset s 3)
  rw [State.byte, hm, tget_retentionOnly _ h, State.byte]

/-- The part of the obligation about CONVERTER_STOP (R14, R381, R392). -/
theorem converterStop_off (s : State) (hc : s.sp.converter = true) (h : s.sp.powerFail ≠ .idle ∨ s.sp.dormant = true) :
    ∃ t, exec .converterStop s = .next t ∧ t.life = stDormant ∧ t.sp.converter = false ∧ t.fld SUP_RAIL_STAT SUP_RAIL_STAT_GOOD = 0x10
      ∧ (∀ a, retentionBase ≤ a → a < retentionBase + retentionSize → t.byte a = s.byte a)
      ∧ t.sp.sealA = s.sp.sealA ∧ t.sp.sealB = s.sp.sealB ∧ t.sp.sealCrc = s.sp.sealCrc := by
  have hsp := sp_supervisorReset s 3
  refine ⟨s.converterOff, congrArg Host.Outcome.next (if_neg ?_), life_converterOff s, rfl, ?_,
    fun a h₁ h₂ => byte_converterOff s ⟨h₁, h₂⟩, ?_, ?_, ?_⟩
  · rcases h with h | h <;> simp [hc, h]
  · exact (fld_setFld_self _ _ (by decide) _).trans rfl
  · exact (congrArg Sup.sealA hsp :)
  · exact (congrArg Sup.sealB hsp :)
  · exact (congrArg Sup.sealCrc hsp :)

/-! ### The obligation -/

/-- With TEST latched high the module stays in Dormant (R391). -/
theorem mainPowerGood_test {s : State} {senior test : Bool} (vbak : Nat) (hp : s.sp.powered = true) (hc : s.sp.converter = true)
    (hd : s.sp.dormant = true) (ht : (s.latchStraps senior test).sp.test = true) :
    ∃ t, exec (.mainPowerGood senior test vbak) s = .next t ∧ t.life = stDormant ∧ Safety.onlyRegs [] s t ∧ Safety.sameMem s t :=
  ⟨_, exec_mainPowerGood_test vbak hp hc hd ht, life_of_dormant ((dormant_latchStraps s senior test).trans hd),
    fun a _ => by rw [State.reg, regs_latchStraps, State.reg], sameMem_of_mem (mem_latchStraps s senior test)⟩

/-- Settles O2: the start by what the check and the entry leave, the power failure by the steps of its sequence, and the ends by the reset. -/
theorem startAndPowerFail : Obligations.StartAndPowerFail := by
  unfold Obligations.StartAndPowerFail
  exact ⟨fun s senior test vbak hp hc hd => ⟨mainPowerGood_test vbak hp hc hd, mainPowerGood_started vbak hp hc hd⟩,
    powerFailure_sealed, archiveWriteDone_shown, powerReturn_reset, converterStop_off⟩

end Sys2Proof.Machine
end

section
/-! SUPPORT. Dispatch where no task or one task waits, and what the scheduler writes as a run ends. -/

namespace Sys2Proof.Machine

/-! ### Dispatch where no task or one task waits (R303, R304, R308) -/

section
variable (s : State) {ok : Nat → Bool}

theorem firstTask_of_none (h : ∀ t, t < 256 → ok t = false) : s.firstTask ok = none := by
  unfold State.firstTask
  refine List.foldlRecOn (List.range 256) _ (motive := (· = none)) rfl fun b hb t ht => ?_
  rw [h t (List.mem_range.mp ht)]
  exact hb

/-- What one task of a list does to the search for the first. -/
def State.firstOf (ok : Nat → Bool) (b : Option Nat) (t : Nat) : Option Nat :=
  if ok t then
    match b with
    | none => some t
    | some u => some (if s.before t u then t else u)
  else b

theorem foldl_firstOf_some {u : Nat} {l : List Nat} (h : ∀ t ∈ l, ok t = true → t = u) : l.foldl (s.firstOf ok) (some u) = some u := by
  refine List.foldlRecOn l _ (motive := (· = some u)) rfl fun b hb t ht => ?_
  subst hb
  unfold State.firstOf
  split
  · next hok => simp [h t ht hok]
  · rfl

theorem foldl_firstOf_none {u : Nat} {l : List Nat} (hu : u ∈ l) (hok : ok u = true) (h : ∀ t ∈ l, ok t = true → t = u) :
    l.foldl (s.firstOf ok) none = some u := by
  induction l with
  | nil => cases hu
  | cons a l ih =>
    have htail : ∀ t ∈ l, ok t = true → t = u := fun t ht => h t (List.mem_cons_of_mem a ht)
    rw [List.foldl_cons]
    by_cases ha : ok a = true
    · have hau : a = u := h a List.mem_cons_self ha
      have hfirst : s.firstOf ok none a = some u := by simp [State.firstOf, hau, hok]
      rw [hfirst, foldl_firstOf_some s htail]
    · have hfirst : s.firstOf ok none a = none := by simp [State.firstOf, ha]
      have hmem : u ∈ l := (List.mem_cons.mp hu).resolve_left (by rintro rfl; exact ha hok)
      rw [hfirst, ih hmem htail]

theorem firstTask_of_only {u : Nat} (hu : u < 256) (hok : ok u = true) (h : ∀ t, t < 256 → t ≠ u → ok t = false) : s.firstTask ok = some u := by
  refine foldl_firstOf_none s (List.mem_range.mpr hu) hok fun t ht htok => ?_
  by_contra hne
  rw [h t (List.mem_range.mp ht) hne] at htok
  cases htok

end

/-- Task `v` does not wait for a pair: neither Ready nor Preempted nor Parked. -/
def State.restful (s : State) (v : Nat) : Prop := s.taskState v ≠ tkReady ∧ s.taskState v ≠ tkPreempted ∧ s.taskState v ≠ tkParked

section
variable {s : State}

theorem parkTask_of_restful {v : Nat} (h : s.restful v) : s.parkTask v = s := by
  obtain ⟨hr, hp, hk⟩ := h
  unfold State.parkTask
  simp [hr, hp, hk]

/-- A Ready task that some pair may take is not parked. -/
theorem parkTask_of_ready {u : Nat} (h : s.taskState u = tkReady) (hin : (s.pairsOf u).any s.pairIn = true) : s.parkTask u = s := by
  unfold State.parkTask
  simp only [h, hin]
  rfl

theorem each_of_fixed {α : Type} {f : State → α → State} {l : List α} (h : ∀ a ∈ l, f s a = s) : s.each l f = s :=
  each_preserves (· = s) (fun x a ha hx => by rw [hx, h a ha]) rfl

theorem dispatchPair_of_not_free {q : Nat} (h : s.pairFree q = false) : s.dispatchPair q = s := if_neg (by simp [h])

theorem dispatchPair_of_restful {q : Nat} (h : ∀ v, v < 256 → s.restful v) : s.dispatchPair q = s := by
  unfold State.dispatchPair
  rw [firstTask_of_none s fun t ht => by simp [(h t ht).1, (h t ht).2.1]]
  split <;> rfl

/-- No Ready task, no preemption (R304). -/
theorem preempt_of_noneReady (h : ∀ v, v < 256 → s.taskState v ≠ tkReady) : s.preempt = s := by
  unfold State.preempt
  rw [firstTask_of_none s fun t ht => by simp [h t ht]]
  split <;> rfl

theorem preempt_of_disabled (h : s.flag SVC_CFG SVC_CFG_PREEMPT_EN = false) : s.preempt = s := if_pos (by simp [h])

/-- The dispatch once tasks are parked or released. -/
theorem dispatch_of_settled (hs : s.schedRuns = true) (hpark : ∀ v, v < 256 → s.parkTask v = s) :
    s.dispatch = ((s.dispatchPair 0).dispatchPair 1).preempt.preempt := by
  unfold State.dispatch
  rw [if_neg (by simp [hs])]
  dsimp only
  rw [each_of_fixed fun v hv => hpark v (List.mem_range.mp hv)]

/-- Where no task waits, a dispatch changes nothing. -/
theorem dispatch_of_restful (h : ∀ v, v < 256 → s.restful v) : s.dispatch = s := by
  cases hs : s.schedRuns
  case false => exact if_pos (by simp [hs])
  case true =>
    have hpre : s.preempt = s := preempt_of_noneReady fun v hv => (h v hv).1
    rw [dispatch_of_settled hs fun v hv => parkTask_of_restful (h v hv), dispatchPair_of_restful h, dispatchPair_of_restful h, hpre, hpre]

end

/-! ### What the scheduler writes -/

/-- From `r` to `s` no register outside `W` differs, nor anything of SP and of the loader, nor memory, the events on their way and true time. -/
structure Held (W : Nat → Prop) (r s : State) : Prop extends Frame W r s where
  mem : s.mem = r.mem
  chan : s.chan = r.chan
  now : s.now = r.now

namespace Held

variable {W : Nat → Prop} {r s t : State}

theorem refl (s : State) : Held W s s := ⟨Frame.refl s, rfl, rfl, rfl⟩

theorem trans (h : Held W r s) (g : Held W s t) : Held W r t :=
  ⟨h.toFrame.trans g.toFrame, g.mem.trans h.mem, g.chan.trans h.chan, g.now.trans h.now⟩

theorem mono {V : Nat → Prop} (h : Held W r s) (hW : ∀ a, W a → V a) : Held V r s := ⟨h.toFrame.mono hW, h.mem, h.chan, h.now⟩

theorem setReg (h : Held W r s) {a : Nat} (w : Word) (ha : W a) : Held W r (s.setReg a w) := ⟨h.toFrame.setReg a w ha, h.mem, h.chan, h.now⟩

theorem setFld (h : Held W r s) {a : Nat} (f : Fld) (v : Nat) (ha : W a) : Held W r (s.setFld a f v) := h.setReg _ ha

theorem setFlag (h : Held W r s) {a : Nat} (f : Fld) (b : Bool) (ha : W a) : Held W r (s.setFlag a f b) := h.setReg _ ha

theorem count (h : Held W r s) {a : Nat} (n : Nat) (ha : W a) : Held W r (s.count a n) := h.setReg _ ha

theorem setTask (h : Held W r s) (u : Nat) (x : Task) : Held W r (s.setTask u x) := ⟨⟨h.regs, h.sp, h.ld⟩, h.mem, h.chan, h.now⟩

theorem setCore (h : Held W r s) (q : Nat) (x : Core) : Held W r (s.setCore q x) := ⟨⟨h.regs, h.sp, h.ld⟩, h.mem, h.chan, h.now⟩

theorem dropRequest (h : Held W r s) (q : Nat) : Held W r (s.dropRequest q) := ⟨⟨h.regs, h.sp, h.ld⟩, h.mem, h.chan, h.now⟩

theorem setTurns (h : Held W r s) (n : Nat) : Held W r { s with turns := n } := ⟨⟨h.regs, h.sp, h.ld⟩, h.mem, h.chan, h.now⟩

theorem setPairTask (h : Held W r s) {q : Nat} (u : Nat) (ha : W (SVC_PAIR_STAT q)) : Held W r (s.setPairTask q u) :=
  (h.setFld SVC_PAIR_STAT_TASK u ha).setFlag SVC_PAIR_STAT_IDLE (decide (u = noTask)) ha

theorem setTaskState (h : Held W r s) {u : Nat} (st : Nat) (ha : W (SVC_TASK_STAT u)) : Held W r (s.setTaskState u st) := h.setFld _ st ha

theorem makeReady (h : Held W r s) {u : Nat} (ha : W (SVC_TASK_STAT u)) : Held W r (s.makeReady u) :=
  ((h.setTurns (s.turns + 1)).setTask u { s.task u with order := s.turns }).setTaskState tkReady ha

end Held

/-! ### The end of a run (R301, R306) -/

/-- The registers of a run of task `T` on pair `q`. -/
def runRegs (q T : Nat) (a : Nat) : Prop := a ∈ [SVC_TASK_RUNS T, SVC_TASK_LONGEST T, SVC_TASK_STAT T, SVC_PAIR_STAT q]

theorem runRegs_bound {q T a : Nat} (hq : q < 2) (hT : T < 256) (h : runRegs q T a) :
    (0x40700010 ≤ a ∧ a < 0x40700018) ∨ (0x40720000 ≤ a ∧ a < 0x40721000) := by
  simp only [runRegs, List.mem_cons, List.not_mem_nil, or_false, SVC_TASK_RUNS, SVC_TASK_LONGEST, SVC_TASK_STAT, SVC_PAIR_STAT] at h
  omega

/-- The run of task `T` on pair `q` in `s` is over in `t`, but for its count of runs and of budget aborts (R301). -/
structure RunClosed (q T : Nat) (s t : State) : Prop extends Held (runRegs q T) s t where
  idle : t.taskState T = tkIdle
  free : t.pairTask q = noTask
  runs : t.reg (SVC_TASK_RUNS T) = s.reg (SVC_TASK_RUNS T)
  aborts : t.fld (SVC_TASK_STAT T) SVC_TASK_STAT_ABORTS = s.fld (SVC_TASK_STAT T) SVC_TASK_STAT_ABORTS
  longest : t.reg (SVC_TASK_LONGEST T) = w32 (max (s.reg (SVC_TASK_LONGEST T)).toNat
    (min 0xFFFFFFFF (((s.task T).spent + (s.now - (s.core q).since)) / 1000)))

theorem longest_ne_stat (T : Nat) : SVC_TASK_LONGEST T ≠ SVC_TASK_STAT T := by unfold SVC_TASK_LONGEST SVC_TASK_STAT; omega

theorem runs_ne_stat (T : Nat) : SVC_TASK_RUNS T ≠ SVC_TASK_STAT T := by unfold SVC_TASK_RUNS SVC_TASK_STAT; omega

theorem longest_ne_runs (T : Nat) : SVC_TASK_LONGEST T ≠ SVC_TASK_RUNS T := by unfold SVC_TASK_LONGEST SVC_TASK_RUNS; omega

/-- The status word of a pair lies below the table of the tasks. -/
theorem pairStat_ne {q : Nat} (hq : q < 2) {a : Nat} (ha : 0x40710000 ≤ a) : SVC_PAIR_STAT q ≠ a := by unfold SVC_PAIR_STAT; omega

theorem task_le_stat (T : Nat) : 0x40710000 ≤ SVC_TASK_STAT T := by unfold SVC_TASK_STAT; omega

theorem task_le_runs (T : Nat) : 0x40710000 ≤ SVC_TASK_RUNS T := by unfold SVC_TASK_RUNS; omega

theorem task_le_longest (T : Nat) : 0x40710000 ≤ SVC_TASK_LONGEST T := by unfold SVC_TASK_LONGEST; omega

theorem reg_setPairTask_ne (s : State) {q a : Nat} (u : Nat) (h : SVC_PAIR_STAT q ≠ a) : (s.setPairTask q u).reg a = s.reg a :=
  (reg_setFld_ne (s.setFld (SVC_PAIR_STAT q) SVC_PAIR_STAT_TASK u) SVC_PAIR_STAT_IDLE _ h).trans (reg_setFld_ne s SVC_PAIR_STAT_TASK u h)

theorem pairTask_setPairTask (s : State) (q u : Nat) : (s.setPairTask q u).pairTask q = u % 512 :=
  (fld_setFld_other (s.setFld (SVC_PAIR_STAT q) SVC_PAIR_STAT_TASK u) _ (by decide) _).trans (fld_setFld_self s _ (by decide) u)

theorem taskState_setTaskState (s : State) (u : Nat) {st : Nat} (h : st < 8) : (s.setTaskState u st).taskState u = st :=
  (fld_setFld_self s (SVC_TASK_STAT u) (by decide) st).trans (Nat.mod_eq_of_lt h)

theorem reg_stopped (s : State) (q : Nat) (x : Core) (a : Nat) : ((s.setCore q x).dropRequest q).reg a = s.reg a := rfl

theorem runClosed_closeRun {s : State} {q T : Nat} (hq : q < 2) (hrun : s.pairTask q = T) (hp : s.taskPending T = false) :
    RunClosed q T s (s.closeRun q false) := by
  unfold State.closeRun
  extract_lets task x us timed charged free core stopped
  have htask : task = T := hrun
  clear_value task
  subst htask
  have hlong : runRegs q task (SVC_TASK_LONGEST task) := by unfold runRegs; simp
  have hpair : runRegs q task (SVC_PAIR_STAT q) := by unfold runRegs; simp
  have hstat : runRegs q task (SVC_TASK_STAT task) := by unfold runRegs; simp
  have hheld : Held (runRegs q task) s stopped :=
    (((((Held.refl s).setReg _ hlong).setTask task _).setPairTask noTask hpair).setCore q _).dropRequest q
  have hstopped (a : Nat) : stopped.reg a = free.reg a := reg_stopped free q _ a
  have hreg {a : Nat} (ha : 0x40710000 ≤ a) : stopped.reg a = timed.reg a :=
    (hstopped a).trans ((reg_setPairTask_ne charged noTask (pairStat_ne hq ha)).trans (reg_setTask timed task _ a))
  have hfree : stopped.pairTask q = noTask := by
    rw [State.pairTask, fld_of_reg (hstopped _)]
    exact pairTask_setPairTask charged q noTask
  have hlongest : timed.reg (SVC_TASK_LONGEST task) = w32 (max (s.reg (SVC_TASK_LONGEST task)).toNat (min 0xFFFFFFFF us)) := reg_setReg_self ..
  have hother {a : Nat} (ha : 0x40710000 ≤ a) (hne : SVC_TASK_LONGEST task ≠ a) : stopped.reg a = s.reg a :=
    (hreg ha).trans (reg_setReg_ne s _ hne)
  clear_value stopped
  have hword := hother (task_le_stat task) (longest_ne_stat task)
  have hpend : stopped.taskPending task = false := (flag_of_reg hword _).trans hp
  rw [if_neg Bool.false_ne_true, if_neg (by simp [hpend])]
  refine ⟨hheld.setTaskState tkIdle hstat, taskState_setTaskState stopped task (by decide), ?_, ?_, ?_, ?_⟩
  · exact (fld_setFld_ne stopped _ _ _ (pairStat_ne hq (task_le_stat task)).symm).trans hfree
  · exact (reg_setFld_ne stopped _ _ (runs_ne_stat task).symm).trans (hother (task_le_runs task) (longest_ne_runs task))
  · exact (fld_setFld_other stopped _ (by decide) _).trans (fld_of_reg hword _)
  · exact (reg_setFld_ne stopped _ _ (longest_ne_stat task).symm).trans ((hreg (task_le_longest task)).trans hlongest)

end Sys2Proof.Machine
end

section
/-! PROOF of O22: the end of a run, task wakes and dispatch. -/

namespace Sys2Proof.Machine

/-! ### DONE and READY (R104, R301, R306) -/

/-- A run ended by its own instruction: counted, and the budget aborts forgotten. -/
def State.runOver (s : State) (q T : Nat) : State :=
  ((s.count (SVC_TASK_RUNS T)).setFld (SVC_TASK_STAT T) SVC_TASK_STAT_ABORTS 0).closeRun q false

/-- The run of task `T` on pair `q` in `s` has ended by DONE or READY in `t` (R306). -/
structure RunOver (q T : Nat) (s t : State) : Prop extends Held (runRegs q T) s t where
  idle : t.taskState T = tkIdle
  free : t.pairTask q = noTask
  runs : t.reg (SVC_TASK_RUNS T) = s.reg (SVC_TASK_RUNS T) + 1
  aborts : t.fld (SVC_TASK_STAT T) SVC_TASK_STAT_ABORTS = 0
  longest : t.reg (SVC_TASK_LONGEST T) = w32 (max (s.reg (SVC_TASK_LONGEST T)).toNat
    (min 0xFFFFFFFF (((s.task T).spent + (s.now - (s.core q).since)) / 1000)))

theorem runOver_spec {s : State} {q T : Nat} (hq : q < 2) (hrun : s.pairTask q = T) (hp : s.taskPending T = false) :
    RunOver q T s (s.runOver q T) := by
  unfold State.runOver
  have hruns : runRegs q T (SVC_TASK_RUNS T) := by unfold runRegs; simp
  have hstat : runRegs q T (SVC_TASK_STAT T) := by unfold runRegs; simp
  have hsr := (runs_ne_stat T).symm
  obtain ⟨u, hu⟩ : ∃ u, u = (s.count (SVC_TASK_RUNS T)).setFld (SVC_TASK_STAT T) SVC_TASK_STAT_ABORTS 0 := ⟨_, rfl⟩
  have hheld : Held (runRegs q T) s u := hu ▸ ((Held.refl s).count 1 hruns).setFld _ 0 hstat
  have hother {a : Nat} (hr : SVC_TASK_RUNS T ≠ a) (hs : SVC_TASK_STAT T ≠ a) : u.reg a = s.reg a := by
    rw [hu, reg_setFld_ne _ _ _ hs, reg_count_ne _ _ hr]
  have hcount : u.reg (SVC_TASK_RUNS T) = s.reg (SVC_TASK_RUNS T) + 1 := by
    rw [hu, reg_setFld_ne _ _ _ hsr, reg_count_self]
    rfl
  have hzero : u.fld (SVC_TASK_STAT T) SVC_TASK_STAT_ABORTS = 0 := by
    rw [hu, fld_setFld_self _ _ (by decide)]
    rfl
  have hpair : u.pairTask q = T :=
    (fld_of_reg (hother (pairStat_ne hq (task_le_runs T)).symm (pairStat_ne hq (task_le_stat T)).symm) _).trans hrun
  have hpend : u.taskPending T = false := by
    rw [hu, State.taskPending, flag_setFld_other _ _ (by decide), State.count, flag_setReg_ne _ _ _ (runs_ne_stat T), ← State.taskPending, hp]
  have htask : (u.task T).spent + (u.now - (u.core q).since) = (s.task T).spent + (s.now - (s.core q).since) := by
    rw [hu, task_setFld, task_count, now_setFld, now_count, core_setFld, core_count]
  rw [← hu]
  have hc := runClosed_closeRun hq hpair hpend
  refine ⟨hheld.trans hc.toHeld, hc.idle, hc.free, hc.runs.trans hcount, hc.aborts.trans hzero, ?_⟩
  rw [hc.longest, htask, hother (longest_ne_runs T).symm (longest_ne_stat T).symm]

/-- Pair `q` with its wait for the fence's effect over: the next instruction. -/
def State.passed (s : State) (q next : Nat) : State :=
  let c : Core := { s.core q with stall := some (.locally (tget s.eh.raised 0 (islSV q)) next) }
  (s.setCore q c).setCore q { c with stall := none, pc := c.pc + 4 }

theorem held_passed (s : State) (q next : Nat) : Held (fun _ => False) s (s.passed q next) := ((Held.refl s).setCore q _).setCore q _

theorem core_passed (s : State) (q next : Nat) : (s.passed q next).core q = { s.core q with stall := none, pc := (s.core q).pc + 4 } :=
  cores_core_setCore ..

theorem settledL_setCore (s : State) (q p n : Nat) (x : Core) : (s.setCore q x).settledL p n = s.settledL p n := rfl

section
variable {s : State} {q : Nat} (hm : s.mayExec q = true)
include hm

/-- While an access of the port is outstanding the instruction waits (R104). -/
theorem waitL_of_portLive (h : s.portLive q = true) (next : Nat) :
    s.waitL q next = s.setCore q { s.core q with stall := some (.locally (tget s.eh.raised 0 (islSV q)) next) } := by
  unfold State.waitL State.releaseL
  rw [if_neg (by simp [hm])]
  have hs (n : Nat) : s.settledL q n = false := by simp [State.settledL, h]
  simp only [cores_core_setCore, settledL_setCore, hs]
  rfl

/-- With the port quiet and the island's events accepted, the instruction takes effect at once (R104). -/
theorem waitL_of_settled (h : s.portLive q = false) (ha : tget s.eh.raised 0 (islSV q) ≤ tget s.eh.accepted 0 (islSV q)) {next : Nat}
    (hn : next ≠ 0) : s.waitL q next = (s.passed q next).endRun q (decide (next = 2)) := by
  unfold State.waitL State.releaseL
  rw [if_neg (by simp [hm])]
  have hs : s.settledL q (tget s.eh.raised 0 (islSV q)) = true := by simp [State.settledL, h, ha]
  simp only [cores_core_setCore, settledL_setCore, hs]
  rw [if_pos trivial, if_neg hn]
  rfl

variable {T : Nat} (hc : (s.core q).starting = false) (hrun : s.pairTask q = T) (hT : T < 256) (hp : s.taskPending T = false)
  (hl : s.portLive q = false) (ha : tget s.eh.raised 0 (islSV q) ≤ tget s.eh.accepted 0 (islSV q))
include hc hrun hT hl ha

/-- DONE and READY end the run. -/
theorem waitL_eq_finishRun {next : Nat} (hn : next ≠ 0) : s.waitL q next = (s.passed q next).finishRun q (decide (next = 2)) := by
  have hstart : ((s.passed q next).core q).starting = false := by rw [core_passed, hc]
  have htask : (s.passed q next).pairTask q ≠ noTask := by
    rw [State.pairTask, (held_passed s q next).fld id, ← State.pairTask, hrun]
    unfold noTask
    omega
  rw [waitL_of_settled hm hl ha hn]
  unfold State.endRun
  rw [if_neg (by simp [hstart]), if_neg htask]

end

/-- The end of a run from the state of the instruction. -/
theorem runOver_passed {s : State} {q T : Nat} (hq : q < 2) (hrun : s.pairTask q = T) (hp : s.taskPending T = false) (next : Nat) :
    RunOver q T s ((s.passed q next).runOver q T) := by
  have hs := held_passed s q next
  have hrun' : (s.passed q next).pairTask q = T := (hs.fld id _).trans hrun
  have ho := runOver_spec hq hrun' ((hs.flag id _).trans hp)
  refine ⟨(hs.mono fun _ h => h.elim).trans ho.toHeld, ho.idle, ho.free, ?_, ho.aborts, ?_⟩
  · rw [ho.runs, hs.regs _ id]
  · rw [ho.longest, hs.regs _ id, core_passed, hs.now]
    rfl

/-- A run writes the state of no other task. -/
theorem stat_not_runRegs {q T v : Nat} (hq : q < 2) (hv : v ≠ T) : ¬ runRegs q T (SVC_TASK_STAT v) := by
  have := (pairStat_ne hq (task_le_stat v)).symm
  simp only [runRegs, List.mem_cons, List.not_mem_nil, or_false, SVC_TASK_RUNS, SVC_TASK_LONGEST]
  unfold SVC_TASK_STAT at *
  omega

/-- Where the pair ran its task, no task waits once that has ended. -/
theorem RunOver.restful {q T : Nat} {s t : State} (h : RunOver q T s t) (hq : q < 2) (hw : Safety.noneWaits s) : ∀ v, v < 256 → t.restful v := by
  intro v hv
  by_cases hvT : v = T
  · subst hvT
    unfold State.restful
    rw [h.idle]
    decide
  · have hsame : t.taskState v = s.taskState v := h.fld (stat_not_runRegs hq hvT) _
    unfold State.restful
    rw [hsame]
    exact hw v hv

/-- DONE ends the run and no other task is dispatched (R301, R306). -/
theorem done_over {s : State} {q : Fin 2} {T : Nat} (hm : s.mayExec q = true) (hc : (s.core q).starting = false) (hrun : s.pairTask q = T)
    (hT : T < 256) (hp : s.taskPending T = false) (hw : Safety.noneWaits s) (hl : s.portLive q = false)
    (ha : tget s.eh.raised 0 (islSV q) ≤ tget s.eh.accepted 0 (islSV q)) :
    exec (.done q) s = .next ((s.passed q 1).runOver q T) := by
  have hrun' : (s.passed q 1).pairTask q = T := ((held_passed s q 1).fld id _).trans hrun
  have hover := runOver_passed q.isLt hrun hp 1
  have hfin : (s.passed q 1).finishRun q false = (s.passed q 1).runOver q T := by
    have hd := dispatch_of_restful (hover.restful q.isLt hw)
    unfold State.finishRun
    rw [hrun']
    exact hd
  exact congrArg Host.Outcome.next ((waitL_eq_finishRun hm hc hrun hT hl ha (by decide)).trans hfin)

/-! ### READY (R307) -/

theorem raised_trans {l m : List (Nat × Nat)} {s t u : State} (h : Safety.raised l s t) (g : Safety.raised m t u) :
    Safety.raised (l ++ m) s u := by
  unfold Safety.raised at *
  rw [g, h, List.append_assoc]

theorem raised_of_prefix {s t : State} (h : s.chan <+: t.chan) : ∃ l, Safety.raised l s t := by
  obtain ⟨l, hl⟩ := h
  exact ⟨l.map fun e => (e.isl, e.num), by rw [Safety.raised, ← hl, List.map_append]⟩

theorem raised_of_chan {l : List (Nat × Nat)} {s t u : State} (hc : t.chan = s.chan) (h : Safety.raised l t u) : Safety.raised l s u := by
  rwa [Safety.raised, ← hc]

/-- A task's report shown and told. -/
def State.readied (s : State) (q T : Nat) : State := (s.setBitAt (SVC_RDY_MAP (T / 32)) (T % 32) true).raise (islSV q) 0x449 [w32 T]

theorem reportReady_eq {s : State} {q T : Nat} (hr : s.taskReq T = true) (hn : s.reported T = false) :
    s.reportReady q T = (s.readied q T).checkReady := if_pos (by simp [hr, hn])

section
variable (s : State) (q T : Nat)

theorem reg_readied_ne {a : Nat} (h : SVC_RDY_MAP (T / 32) ≠ a) : (s.readied q T).reg a = s.reg a := by
  unfold State.readied
  rw [reg_raise]
  exact reg_setFld_ne s _ _ h

theorem reported_readied : (s.readied q T).reported T = true := by
  unfold State.readied
  rw [State.reported, bitAt_raise]
  exact flag_setFlag_self (f := ⟨T % 32, 1⟩) s _ (Nat.succ_le_of_lt (Nat.mod_lt _ (by decide))) rfl true

/-- A report takes back none. -/
theorem reported_readied_of_reported {u : Nat} (h : s.reported u = true) : (s.readied q T).reported u = true := by
  by_cases hw : SVC_RDY_MAP (T / 32) = SVC_RDY_MAP (u / 32)
  · have hword : T / 32 = u / 32 := by
      unfold SVC_RDY_MAP at hw
      omega
    by_cases hb : T % 32 = u % 32
    · have hTu : T = u := by omega
      exact hTu ▸ reported_readied s q T
    · have hkeep : (s.setBitAt (SVC_RDY_MAP (T / 32)) (T % 32) true).reported u = s.reported u := by
        rw [State.reported, ← hw]
        exact (flag_setFlag_other s _ (by simp only; omega) true).trans (by rw [hw]; rfl)
      unfold State.readied
      rw [State.reported, bitAt_raise, ← State.reported, hkeep, h]
  · exact (flag_of_reg (reg_readied_ne s q T hw) _).trans h

theorem mem_readied : (s.readied q T).mem = s.mem := mem_raise ..

theorem now_readied : (s.readied q T).now = s.now := now_raise ..

end

/-- The table entries and the maps of the scheduler lie outside a run's registers. -/
theorem runOver_low {q T a : Nat} (hq : q < 2) (hlo : 0x40700018 ≤ a) (hhi : a < 0x40720000) : ¬ runRegs q T a := by
  simp only [runRegs, List.mem_cons, List.not_mem_nil, or_false, SVC_TASK_RUNS, SVC_TASK_LONGEST, SVC_TASK_STAT, SVC_PAIR_STAT]
  omega

/-- The words of SVC_RDY_MAP. -/
theorem rdyMap_bounds {T : Nat} (hT : T < 256) : 0x40700040 ≤ SVC_RDY_MAP (T / 32) ∧ SVC_RDY_MAP (T / 32) < 0x40700060 := by
  unfold SVC_RDY_MAP
  omega

theorem rdyMap_ne_stat {T : Nat} (hT : T < 256) (v : Nat) : SVC_RDY_MAP (T / 32) ≠ SVC_TASK_STAT v := by
  have := rdyMap_bounds hT
  have := task_le_stat v
  omega

/-- What the scheduler goes by in a task's table entry lies outside a run's registers. -/
theorem RunOver.table {q T : Nat} {s t : State} (h : RunOver q T s t) (hq : q < 2) {v : Nat} (hv : v < 256) :
    t.taskReq v = s.taskReq v ∧ t.reported v = s.reported v := by
  have hb := rdyMap_bounds hv
  refine ⟨h.flag (runOver_low hq ?_ ?_) _, h.bitAt (runOver_low hq ?_ ?_) _⟩
  · unfold SVC_TASK_W1
    omega
  · unfold SVC_TASK_W1
    omega
  · omega
  · omega

section
variable {s : State} {q T : Nat}

theorem taskState_readied (hT : T < 256) (v : Nat) : (s.readied q T).taskState v = s.taskState v :=
  fld_of_reg (reg_readied_ne s q T (rdyMap_ne_stat hT v)) _

theorem restful_readied (hT : T < 256) (h : ∀ v, v < 256 → s.restful v) : ∀ v, v < 256 → (s.readied q T).restful v := by
  intro v hv
  unfold State.restful
  rw [taskState_readied hT]
  exact h v hv

theorem raised_readied (hd : s.sp.dormant = false) : Safety.raised [(islSV q, 0x449)] s (s.readied q T) := raised_raise _ _ _ rfl hd

end

theorem not_dormant_of_mayExec {s : State} {q : Nat} (h : s.mayExec q = true) : s.sp.dormant = false := by
  simp only [State.mayExec, State.pairIn, State.running, Bool.and_eq_true, Bool.not_eq_true'] at h
  obtain ⟨⟨⟨⟨hd, -⟩, -⟩, -⟩, -⟩ := h
  exact hd

/-- READY up to its report, as it is checked against the other tasks. -/
theorem exec_ready {s : State} {q : Fin 2} {T : Nat} (hm : s.mayExec q = true) (hc : (s.core q).starting = false) (hrun : s.pairTask q = T)
    (hT : T < 256) (hp : s.taskPending T = false) (hl : s.portLive q = false)
    (ha : tget s.eh.raised 0 (islSV q) ≤ tget s.eh.accepted 0 (islSV q)) (hr : s.taskReq T = true) (hn : s.reported T = false) :
    exec (.ready q) s = .next ((((s.passed q 2).runOver q T).readied q T).checkReady.dispatch) := by
  have hrun' : (s.passed q 2).pairTask q = T := ((held_passed s q 2).fld id _).trans hrun
  obtain ⟨hreq, hrep⟩ := (runOver_passed q.isLt hrun hp 2).table q.isLt hT
  have hfin : (s.passed q 2).finishRun q true = (((s.passed q 2).runOver q T).readied q T).checkReady.dispatch := by
    have heq := reportReady_eq (q := q.val) (hreq.trans hr) (hrep.trans hn)
    unfold State.finishRun
    rw [hrun', ← heq]
    rfl
  exact congrArg Host.Outcome.next ((waitL_eq_finishRun hm hc hrun hT hl ha (by decide)).trans hfin)

/-! ### Serving is entered (R14, R44, R307) -/

theorem not_enterRegs_of_svc {a : Nat} (h : 0x40700000 ≤ a) : ¬ enterRegs a := by
  rintro ((h' | h' | ⟨p, hp, rfl | rfl⟩) | ⟨n, rfl⟩)
  · omega
  · unfold SUP_SAFETY_STAT at h'
    omega
  · unfold TRIB_STAT at h
    omega
  · unfold TRIB_TX_STAT at h
    omega
  · have := n.isLt
    unfold LINE_STAT at h
    omega

/-- What the entry into Serving leaves: L7 counting from now, and of the scheduler's registers none changed. -/
structure Served (s t : State) : Prop where
  life : t.life = stServing
  l7Run : t.sp.l7Run = true
  l7Since : t.sp.l7Since = s.now
  svc : ∀ a, 0x40700000 ≤ a → t.reg a = s.reg a
  chan : ∃ l, Safety.raised ((islSP, stServing) :: l) s t
  mem : t.mem = s.mem

theorem served_serve (s : State) : Served s s.serve := by
  unfold State.serve
  extract_lets timed sup loader counting
  have hsp : counting.sp = { sup with l7Run := true, l7Since := timed.now } := rfl
  have hreg {a : Nat} (h : 0x40700000 ≤ a) : counting.reg a = s.reg a :=
    reg_setReg_ne s _ (by unfold NVM_STEP_TIME; omega)
  have hchan : counting.chan = s.chan := rfl
  have hmem : counting.mem = s.mem := rfl
  have hnow : timed.now = s.now := rfl
  clear_value counting
  have hadded := added_enter counting stServing 0x00 []
  have hentered : (counting.enter stServing 0x00).sp = { counting.sp with dormant := false } := sp_enter counting []
  obtain ⟨l, hl⟩ := raised_of_prefix hadded.chan
  refine ⟨life_enter counting [] (by decide), ?_, ?_, fun a ha => ?_, ⟨l, ?_⟩, (mem_enter counting []).trans hmem⟩
  · rw [hentered, hsp]
  · rw [hentered, hsp]
    exact hnow
  · have hstate : a ≠ SUP_STATE := by unfold SUP_STATE; omega
    rw [hadded.regs a (not_enterRegs_of_svc ha), reg_announce_ne _ _ _ _ hstate, hreg ha]
  · exact raised_trans (raised_of_chan hchan (raised_announce counting stServing 0x00 [])) hl

/-- Every enabled required task has reported, as it is shown and told (R307). -/
def State.allReady (s : State) : State := (s.setFlag SVC_SCHED_STAT SVC_SCHED_STAT_ALL_REQ_READY true).raise s.schedIsl 0x44D

theorem checkReady_of_all {s : State} (hn : s.flag SVC_SCHED_STAT SVC_SCHED_STAT_ALL_REQ_READY = false)
    (h : ∀ u, u < 256 → s.taskState u = tkDisabled ∨ s.taskReq u = false ∨ s.reported u = true) (hl : s.life = stArmed) :
    s.checkReady = s.allReady.serve := by
  have hall : (List.range 256).all (fun t => decide (s.taskState t = tkDisabled) || !s.taskReq t || s.reported t) = true := by
    rw [List.all_eq_true]
    intro u hu
    rcases h u (List.mem_range.mp hu) with h | h | h <;> simp [h]
  have hlife : s.allReady.life = stArmed := by
    rw [State.allReady, life_raise, ← hl]
    exact ((Frame.refl (W := (· = SVC_SCHED_STAT)) s).setFlag _ _ _ rfl).life (by decide)
  unfold State.checkReady
  rw [if_neg (by simp [hn]), if_pos hall]
  exact if_pos hlife

theorem checkReady_of_shown {s : State} (h : s.flag SVC_SCHED_STAT SVC_SCHED_STAT_ALL_REQ_READY = true) : s.checkReady = s := if_pos h

/-- The registers of the service core complex. -/
def svcRegs (a : Nat) : Prop := 0x40700000 ≤ a

theorem svcRegs_of_runRegs {q T a : Nat} (hq : q < 2) (hT : T < 256) (h : runRegs q T a) : svcRegs a := by
  have := runRegs_bound hq hT h
  unfold svcRegs
  omega

theorem frame_readied (s : State) (q T : Nat) : Frame svcRegs s (s.readied q T) :=
  ((Frame.refl s).setFlag (SVC_RDY_MAP (T / 32)) ⟨T % 32, 1⟩ true (by unfold svcRegs SVC_RDY_MAP; omega)).raise _ _ _

theorem reg_allReady_ne (s : State) {a : Nat} (h : SVC_SCHED_STAT ≠ a) : s.allReady.reg a = s.reg a :=
  (reg_raise ..).trans (reg_setFld_ne s _ _ h)

theorem flag_allReady (s : State) : s.allReady.flag SVC_SCHED_STAT SVC_SCHED_STAT_ALL_REQ_READY = true :=
  (flag_raise ..).trans (flag_setFlag_self s _ (by decide) rfl true)

theorem raised_allReady {s : State} (hd : s.sp.dormant = false) : Safety.raised [(s.schedIsl, 0x44D)] s s.allReady := raised_raise _ _ _ rfl hd

/-- The entry into Serving makes no task wait. -/
theorem restful_serve {s : State} (h : ∀ v, v < 256 → s.restful v) : ∀ v, v < 256 → s.allReady.serve.restful v := by
  intro v hv
  have hlow := task_le_stat v
  have hne : SVC_SCHED_STAT ≠ SVC_TASK_STAT v := by
    unfold SVC_SCHED_STAT
    omega
  have hsame : s.allReady.serve.taskState v = s.taskState v :=
    fld_of_reg (((served_serve s.allReady).svc _ (by omega)).trans (reg_allReady_ne s hne)) _
  unfold State.restful
  rw [hsame]
  exact h v hv

/-- Where every other required task has reported, all have once task `T` has. -/
theorem readyAll_readied {s e : State} {q T : Nat} (hT : T < 256) (h : RunOver q T s e) (hq : q < 2)
    (hothers : ∀ u, u < 256 → u ≠ T → s.taskState u = tkDisabled ∨ s.taskReq u = false ∨ s.reported u = true) :
    ∀ u, u < 256 → (e.readied q T).taskState u = tkDisabled ∨ (e.readied q T).taskReq u = false ∨ (e.readied q T).reported u = true := by
  intro u hu
  by_cases huT : u = T
  · subst huT
    exact .inr (.inr (reported_readied e q u))
  · obtain ⟨hreq, hrep⟩ := h.table hq hu
    have hword : SVC_RDY_MAP (T / 32) ≠ SVC_TASK_W1 u := by
      have := rdyMap_bounds hT
      unfold SVC_TASK_W1
      omega
    rcases hothers u hu huT with hd | hr | hr
    · exact .inl ((taskState_readied hT u).trans ((h.fld (stat_not_runRegs hq huT) _).trans hd))
    · exact .inr (.inl ((flag_of_reg (reg_readied_ne e q T hword) _).trans (hreq.trans hr)))
    · exact .inr (.inr (reported_readied_of_reported e q T (hrep.trans hr)))

section
variable {s : State} {q : Fin 2} {T : Nat} (hm : s.mayExec q = true) (hc : (s.core q).starting = false) (hrun : s.pairTask q = T)
  (hT : T < 256) (hp : s.taskPending T = false) (hw : Safety.noneWaits s) (hl : s.portLive q = false)
  (ha : tget s.eh.raised 0 (islSV q) ≤ tget s.eh.accepted 0 (islSV q))
include hm hc hrun hT hp hw hl ha

/-- The part of the obligation about DONE. -/
theorem done_ends : ∃ t, exec (.done q) s = .next t ∧ t.taskState T = tkIdle ∧ t.pairTask q = noTask
    ∧ t.reg (SVC_TASK_RUNS T) = s.reg (SVC_TASK_RUNS T) + 1 ∧ t.fld (SVC_TASK_STAT T) SVC_TASK_STAT_ABORTS = 0
    ∧ t.reg (SVC_TASK_LONGEST T) = BitVec.ofNat 32 (max (s.reg (SVC_TASK_LONGEST T)).toNat
        (min 0xFFFFFFFF (((s.task T).spent + (s.now - (s.core q).since)) / 1000)))
    ∧ Safety.onlyRegs [SVC_TASK_RUNS T, SVC_TASK_LONGEST T, SVC_TASK_STAT T, SVC_PAIR_STAT q] s t ∧ Safety.sameMem s t ∧ t.chan = s.chan := by
  have h := runOver_passed q.isLt hrun hp 1
  exact ⟨_, done_over hm hc hrun hT hp hw hl ha, h.idle, h.free, h.runs, h.aborts, h.longest, h.regs, sameMem_of_mem h.mem, h.chan⟩

/-- The part about READY where all had reported before. -/
theorem ready_reports (hr : s.taskReq T = true) (hn : s.reported T = false)
    (hall : s.flag SVC_SCHED_STAT SVC_SCHED_STAT_ALL_REQ_READY = true) :
    ∃ t, exec (.ready q) s = .next t ∧ t.taskState T = tkIdle ∧ t.pairTask q = noTask ∧ t.reported T = true
      ∧ t.reg (SVC_TASK_RUNS T) = s.reg (SVC_TASK_RUNS T) + 1 ∧ Safety.raised [(islSV q, 0x449)] s t ∧ Safety.sameMem s t
      ∧ Safety.onlyRegs [SVC_TASK_RUNS T, SVC_TASK_LONGEST T, SVC_TASK_STAT T, SVC_PAIR_STAT q, SVC_RDY_MAP (T / 32)] s t := by
  have h := runOver_passed q.isLt hrun hp 2
  have hexec := exec_ready hm hc hrun hT hp hl ha hr hn
  generalize (s.passed q 2).runOver q T = e at h hexec
  have hb := rdyMap_bounds hT
  have hreg {a : Nat} (hne : SVC_RDY_MAP (T / 32) ≠ a) : (e.readied q T).reg a = e.reg a := reg_readied_ne e q T hne
  have hshown : (e.readied q T).flag SVC_SCHED_STAT SVC_SCHED_STAT_ALL_REQ_READY = true := by
    rw [flag_of_reg (hreg (by unfold SVC_SCHED_STAT; omega)), h.flag (runOver_low q.isLt (by decide) (by decide)), hall]
  rw [checkReady_of_shown hshown, dispatch_of_restful (restful_readied hT (h.restful q.isLt hw))] at hexec
  have hd : e.sp.dormant = false := h.sp ▸ not_dormant_of_mayExec hm
  refine ⟨_, hexec, (taskState_readied hT T).trans h.idle, ?_, reported_readied e q T, ?_, raised_of_chan h.chan (raised_readied hd),
    sameMem_of_mem ((mem_readied e q T).trans h.mem), fun a hout => ?_⟩
  · have hne : SVC_RDY_MAP (T / 32) ≠ SVC_PAIR_STAT q := by
      have := q.isLt
      unfold SVC_PAIR_STAT
      omega
    exact (fld_of_reg (hreg hne) _).trans h.free
  · have := task_le_runs T
    rw [hreg (by omega), h.runs]
  · simp only [List.mem_cons, List.not_mem_nil, or_false, not_or] at hout
    obtain ⟨h₁, h₂, h₃, h₄, h₅⟩ := hout
    exact (hreg (Ne.symm h₅)).trans (h.regs a (by simp [runRegs, h₁, h₂, h₃, h₄]))

/-- The part about the last READY awaited, in Armed. -/
theorem ready_serves (harmed : s.life = stArmed) (hr : s.taskReq T = true) (hn : s.reported T = false)
    (hnone : s.flag SVC_SCHED_STAT SVC_SCHED_STAT_ALL_REQ_READY = false)
    (hothers : ∀ u, u < 256 → u ≠ T → s.taskState u = tkDisabled ∨ s.taskReq u = false ∨ s.reported u = true) :
    ∃ t, exec (.ready q) s = .next t ∧ t.life = stServing ∧ t.flag SVC_SCHED_STAT SVC_SCHED_STAT_ALL_REQ_READY = true
      ∧ t.sp.l7Run = true ∧ t.sp.l7Since = s.now ∧ (∃ l, Safety.raised ([(islSV q, 0x449), (s.schedIsl, 0x44D), (islSP, stServing)] ++ l) s t)
      ∧ Safety.sameMem s t := by
  have h := runOver_passed q.isLt hrun hp 2
  have hexec := exec_ready hm hc hrun hT hp hl ha hr hn
  generalize (s.passed q 2).runOver q T = e at h hexec
  have hreported := readyAll_readied hT h q.isLt hothers
  have hf := (h.toFrame.mono fun _ => svcRegs_of_runRegs q.isLt hT).trans (frame_readied e q T)
  have hsup {a : Nat} (hlt : a < 0x40700000) : ¬ svcRegs a := Nat.not_le.mpr hlt
  have hnone' : (e.readied q T).flag SVC_SCHED_STAT SVC_SCHED_STAT_ALL_REQ_READY = false := by
    have hne : SVC_RDY_MAP (T / 32) ≠ SVC_SCHED_STAT := by have := rdyMap_bounds hT; unfold SVC_SCHED_STAT; omega
    rw [flag_of_reg (reg_readied_ne e q T hne), h.flag (runOver_low q.isLt (by decide) (by decide)), hnone]
  have hisl : (e.readied q T).schedIsl = s.schedIsl := by
    rw [State.schedIsl, hf.running (hsup (by decide)), hf.running (hsup (by decide)), State.schedIsl]
  have hraised : Safety.raised [(islSV q, 0x449)] s (e.readied q T) :=
    raised_of_chan h.chan (raised_readied (h.sp ▸ not_dormant_of_mayExec hm))
  have hrest := restful_readied (q := q) hT (h.restful q.isLt hw)
  have hd : (e.readied q T).sp.dormant = false := hf.sp ▸ not_dormant_of_mayExec hm
  have hmem : (e.readied q T).mem = s.mem := (mem_readied e q T).trans h.mem
  have hnow : (e.readied q T).now = s.now := (now_readied e q T).trans h.now
  rw [checkReady_of_all hnone' hreported ((hf.life (hsup (by decide))).trans harmed)] at hexec
  generalize e.readied q T = r at *
  have hserved := served_serve r.allReady
  rw [dispatch_of_restful (restful_serve hrest)] at hexec
  obtain ⟨l, hl'⟩ := hserved.chan
  refine ⟨_, hexec, hserved.life, ?_, hserved.l7Run, ?_, ⟨l, ?_⟩, sameMem_of_mem (hserved.mem.trans ((mem_raise ..).trans hmem))⟩
  · rw [flag_of_reg (hserved.svc _ (by decide)), flag_allReady]
  · rw [hserved.l7Since, ← hnow]
    exact now_raise ..
  · have htold := raised_trans hraised (raised_trans (raised_allReady hd) hl')
    rwa [hisl] at htold

end

/-- The part about an instruction that waits for its port. -/
theorem waits_of_portLive {s : State} {q : Fin 2} (hm : s.mayExec q = true) (hl : s.portLive q = true) {i : Instr}
    (hi : i = .done q ∨ i = .ready q ∨ i = .fenceL q) :
    ∃ t k n, exec i s = .next t ∧ t.core q = { s.core q with stall := some (.locally k n) } ∧ Safety.onlyCore q s t := by
  have hexec : ∃ n, exec i s = .next (s.waitL q n) := by
    obtain rfl | rfl | rfl := hi
    exacts [⟨1, rfl⟩, ⟨2, rfl⟩, ⟨0, rfl⟩]
  obtain ⟨n, hn⟩ := hexec
  rw [waitL_of_portLive hm hl n] at hn
  exact ⟨_, _, n, hn, cores_core_setCore .., fun p hpq => core_setCore_ne _ _ (Ne.symm hpq), fun a _ => reg_setCore .., fun a => byte_setCore ..,
    rfl, rfl, rfl, rfl⟩

/-! ### Wakes (R301, R302) -/

/-- An Idle task woken by `cause`. -/
def State.woken (s : State) (u cause : Nat) : State := (s.setFld (SVC_TASK_STAT u) SVC_TASK_STAT_CAUSE cause).makeReady u

/-- A Running task that is to run again for `cause`. -/
def State.noted (s : State) (u cause : Nat) : State :=
  (s.setFlag (SVC_TASK_STAT u) SVC_TASK_STAT_PENDING true).setTask u { s.task u with pcause := cause }

section
variable {s : State} {u : Nat} (hs : s.schedRuns = true)
include hs

theorem wake_of_idle (h : s.taskState u = tkIdle) (cause : Nat) : s.wake u cause = s.woken u cause := by
  unfold State.wake
  rw [if_neg (by simp [hs])]
  dsimp only
  rw [h, if_neg (by decide), if_pos rfl]
  rfl

theorem wake_of_running (h : s.taskState u = tkRunning) (hp : s.taskPending u = false) (cause : Nat) : s.wake u cause = s.noted u cause := by
  unfold State.wake
  rw [if_neg (by simp [hs])]
  dsimp only
  rw [h, if_neg (by decide), if_neg (by decide), if_neg (by decide), if_neg (by simp [hp])]
  rfl

end

theorem exec_taskPeriod {s : State} {u : Fin 256} (hperiod : s.fld (SVC_TASK_W2 u) SVC_TASK_W2_PERIOD ≠ 0) (h : s.taskState u ≠ tkDisabled) :
    exec (.taskPeriod u) s = .next ((s.wake u wkTimer).dispatch) :=
  congrArg Host.Outcome.next (if_neg (by simp [hperiod, h]))

section
variable (s : State) (u cause : Nat)

theorem held_woken : Held (· = SVC_TASK_STAT u) s (s.woken u cause) :=
  ((Held.refl (W := (· = SVC_TASK_STAT u)) s).setFld SVC_TASK_STAT_CAUSE cause rfl).makeReady rfl

theorem taskState_woken : (s.woken u cause).taskState u = tkReady := taskState_setTaskState _ u (by decide)

theorem cause_woken : (s.woken u cause).fld (SVC_TASK_STAT u) SVC_TASK_STAT_CAUSE = cause % 65536 :=
  (fld_setFld_other _ _ (by decide) _).trans (fld_setFld_self s _ (by decide) cause)

theorem cores_woken : (s.woken u cause).cores = s.cores := rfl

theorem saved_woken : ((s.woken u cause).task u).saved = (s.task u).saved := by
  unfold State.woken State.makeReady
  rw [State.setTaskState, task_setFld, tasks_task_setTask]
  rfl

theorem held_noted : Held (· = SVC_TASK_STAT u) s (s.noted u cause) :=
  ((Held.refl (W := (· = SVC_TASK_STAT u)) s).setFlag SVC_TASK_STAT_PENDING true rfl).setTask u _

theorem taskPending_noted : (s.noted u cause).taskPending u = true := flag_setFlag_self s _ (by decide) rfl true

theorem taskState_noted : (s.noted u cause).taskState u = s.taskState u := fld_setFld_other s _ (by decide) _

end

/-- Only the status word of task `u` written, every other task's state stands. -/
theorem taskState_of_stat {s t : State} {u : Nat} (h : Frame (· = SVC_TASK_STAT u) s t) {v : Nat} (hv : v ≠ u) : t.taskState v = s.taskState v :=
  h.fld (by unfold SVC_TASK_STAT; omega) _

/-- The wake of a Running task: PENDING set, and nothing dispatched. -/
theorem taskPeriod_running (s : State) (u : Fin 256) (hs : s.schedRuns = true) (hperiod : s.fld (SVC_TASK_W2 u) SVC_TASK_W2_PERIOD ≠ 0)
    (hrun : s.taskState u = tkRunning) (hp : s.taskPending u = false) (hw : Safety.noneWaits s) :
    ∃ t, exec (.taskPeriod u) s = .next t ∧ t.taskPending u = true ∧ t.taskState u = tkRunning
      ∧ Safety.onlyRegs [SVC_TASK_STAT u] s t ∧ Safety.sameMem s t ∧ t.chan = s.chan := by
  have hheld := held_noted s u wkTimer
  have hstate : (s.noted u wkTimer).taskState u = tkRunning := (taskState_noted ..).trans hrun
  have hrest : ∀ v, v < 256 → (s.noted u wkTimer).restful v := by
    intro v hv
    have hsame : (s.noted u wkTimer).taskState v = s.taskState v := by
      by_cases hvu : v = u
      · rw [hvu, hstate, hrun]
      · exact taskState_of_stat hheld.toFrame hvu
    unfold State.restful
    rw [hsame]
    exact hw v hv
  have hexec := exec_taskPeriod hperiod (by rw [hrun]; decide)
  rw [wake_of_running hs hrun hp, dispatch_of_restful hrest] at hexec
  exact ⟨_, hexec, taskPending_noted .., hstate, fun a ha => hheld.regs a (by simpa using ha), sameMem_of_mem hheld.mem, hheld.chan⟩

/-! ### Where the scheduler's view of the pairs stands (R303, R308) -/

section
variable {W : Nat → Prop} {s t : State} (h : Frame W s t) (hisl : ¬ W SUP_ISLAND_STAT) (hpair : ∀ p, p < 2 → ¬ W (SVC_PAIR_STAT p))
include h hisl

theorem schedRuns_of_frame : t.schedRuns = s.schedRuns := by
  rw [State.schedRuns, h.running hisl, h.running hisl, State.schedRuns]

include hpair

theorem pairIn_of_frame {p : Nat} (hp : p < 2) : t.pairIn p = s.pairIn p := by
  rw [State.pairIn, h.running hisl, h.fld (hpair p hp), State.pairIn]

theorem pairsOf_of_frame {u : Nat} (hw : ¬ W (SVC_TASK_W1 u)) : t.pairsOf u = s.pairsOf u := by
  have hreq : t.taskReq u = s.taskReq u := h.flag hw _
  have haff := h.fld hw SVC_TASK_W1_AFFINITY
  unfold State.pairsOf
  rw [haff, hreq]
  dsimp only
  by_cases ha : s.fld (SVC_TASK_W1 u) SVC_TASK_W1_AFFINITY = 1 ∨ s.fld (SVC_TASK_W1 u) SVC_TASK_W1_AFFINITY = 2
  · rw [pairIn_of_frame h hisl hpair (by omega)]
  · rw [if_neg (by tauto), if_neg (by tauto)]

end

theorem lt_of_mem_pairsOf {s : State} {u p : Nat} (h : p ∈ s.pairsOf u) : p < 2 := by
  unfold State.pairsOf at h
  dsimp only at h
  split at h
  · next ha =>
    rw [List.mem_singleton] at h
    omega
  · simp only [List.mem_cons, List.not_mem_nil, or_false] at h
    omega

/-- Where only task `u` was woken, the others rest as before. -/
theorem restful_woken {s : State} {u : Nat} (hw : Safety.noneWaits s) (cause : Nat) {v : Nat} (hv : v < 256) (hvu : v ≠ u) :
    (s.woken u cause).restful v := by
  unfold State.restful
  rw [taskState_of_stat (held_woken s u cause).toFrame hvu]
  exact hw v hv

/-- Neither the islands, nor the pairs, nor the table of the tasks is a status word of a task. -/
theorem not_stat_of_low (u : Nat) {a : Nat} (h : a < 0x40720000) : a ≠ SVC_TASK_STAT u := by unfold SVC_TASK_STAT; omega

theorem pairStat_low {p : Nat} (hp : p < 2) : SVC_PAIR_STAT p < 0x40720000 := by unfold SVC_PAIR_STAT; omega

theorem w1_low {u : Nat} (hu : u < 256) : SVC_TASK_W1 u < 0x40720000 := by unfold SVC_TASK_W1; omega

section
variable {s t : State} {u : Nat} (h : Frame (· = SVC_TASK_STAT u) s t)
include h

theorem pairIn_of_stat {p : Nat} (hp : p < 2) : t.pairIn p = s.pairIn p :=
  pairIn_of_frame h (not_stat_of_low u (by decide)) (fun _ hp => not_stat_of_low u (pairStat_low hp)) hp

theorem pairsOf_of_stat {v : Nat} (hv : v < 256) : t.pairsOf v = s.pairsOf v :=
  pairsOf_of_frame h (not_stat_of_low u (by decide)) (fun _ hp => not_stat_of_low u (pairStat_low hp)) (not_stat_of_low u (w1_low hv))

theorem schedRuns_of_stat : t.schedRuns = s.schedRuns := schedRuns_of_frame h (not_stat_of_low u (by decide))

theorem pairTask_of_stat {p : Nat} (hp : p < 2) : t.pairTask p = s.pairTask p := h.fld (not_stat_of_low u (pairStat_low hp)) _

theorem pairFree_of_stat (hc : t.cores = s.cores) {p : Nat} (hp : p < 2) : t.pairFree p = s.pairFree p := by
  have hcore : t.core p = s.core p := by rw [State.core, hc, State.core]
  rw [State.pairFree, pairIn_of_stat h hp, hcore, pairTask_of_stat h hp, State.pairFree]

/-- Some pair that may take task `v` is in. -/
theorem any_pairIn_of_stat {v : Nat} (hv : v < 256) (hin : (s.pairsOf v).any s.pairIn = true) : (t.pairsOf v).any t.pairIn = true := by
  obtain ⟨p, hp, hpin⟩ := List.any_eq_true.mp hin
  rw [pairsOf_of_stat h hv]
  exact List.any_eq_true.mpr ⟨p, hp, (pairIn_of_stat h (lt_of_mem_pairsOf hp)).trans hpin⟩

end

/-- The dispatch after the wake of task `u`, which some pair may take. -/
theorem dispatch_woken {s : State} {u : Nat} (hu : u < 256) (hs : s.schedRuns = true) (hw : Safety.noneWaits s)
    (hin : (s.pairsOf u).any s.pairIn = true) (cause : Nat) :
    (s.woken u cause).dispatch = (((s.woken u cause).dispatchPair 0).dispatchPair 1).preempt.preempt := by
  have hf := (held_woken s u cause).toFrame
  refine dispatch_of_settled ((schedRuns_of_stat hf).trans hs) fun v hv => ?_
  by_cases hvu : v = u
  · rw [hvu]
    exact parkTask_of_ready (taskState_woken s u cause) (any_pairIn_of_stat hf hu hin)
  · exact parkTask_of_restful (restful_woken hw cause hv hvu)

/-- The wake of an Idle task that no pair can take now: it is Ready. -/
theorem taskPeriod_idle (s : State) (u : Fin 256) (hs : s.schedRuns = true) (hperiod : s.fld (SVC_TASK_W2 u) SVC_TASK_W2_PERIOD ≠ 0)
    (hi : s.taskState u = tkIdle) (hw : Safety.noneWaits s) (h0 : s.pairFree 0 = false) (h1 : s.pairFree 1 = false)
    (hpre : s.flag SVC_CFG SVC_CFG_PREEMPT_EN = false) (hin : (s.pairsOf u).any s.pairIn = true) :
    ∃ t, exec (.taskPeriod u) s = .next t ∧ t.taskState u = tkReady ∧ t.fld (SVC_TASK_STAT u) SVC_TASK_STAT_CAUSE = 0x800
      ∧ Safety.onlyRegs [SVC_TASK_STAT u] s t ∧ Safety.sameMem s t ∧ t.chan = s.chan ∧ t.cores = s.cores := by
  have hheld := held_woken s u wkTimer
  have hcores := cores_woken s u wkTimer
  have hpreempt : (s.woken u wkTimer).preempt = s.woken u wkTimer :=
    preempt_of_disabled ((hheld.flag (not_stat_of_low u (by decide)) _).trans hpre)
  have hdispatch : (s.woken u wkTimer).dispatch = s.woken u wkTimer := by
    rw [dispatch_woken u.isLt hs hw hin,
      dispatchPair_of_not_free ((pairFree_of_stat hheld.toFrame hcores (by decide)).trans h0),
      dispatchPair_of_not_free ((pairFree_of_stat hheld.toFrame hcores (by decide)).trans h1), hpreempt, hpreempt]
  have hexec := exec_taskPeriod hperiod (by rw [hi]; decide)
  rw [wake_of_idle hs hi, hdispatch] at hexec
  exact ⟨_, hexec, taskState_woken .., cause_woken .., fun a ha => hheld.regs a (by simpa using ha), sameMem_of_mem hheld.mem, hheld.chan, hcores⟩

/-! ### A task dispatched on a free pair (R303, R305) -/

/-- The general registers at the start of a run. -/
theorem get_freshRegs (s : State) (q u : Nat) (c : Core) (hc : c.g = s.freshRegs q u) (r : Nat) : c.get r = if r = 1 then w32 u
    else if r = 2 then w32 (s.fld (SVC_TASK_STAT u) SVC_TASK_STAT_CAUSE) else if r = 3 then s.reg (SVC_TASK_ARG u)
    else if r = 4 then w32 q else 0 := by
  have hskip (g : Tbl Word) {j : Nat} (v : Word) (h : r ≠ j) : tget (tset g 0 j v) 0 r = tget g 0 r := tget_tset_ne g 0 v 0 h.symm
  unfold Core.get
  rw [hc]
  unfold State.freshRegs
  dsimp only
  by_cases h4 : r = 4
  · subst h4
    exact tget_tset_self ..
  rw [hskip _ _ h4, if_neg h4]
  by_cases h3 : r = 3
  · subst h3
    exact tget_tset_self ..
  rw [hskip _ _ h3, if_neg h3]
  by_cases h2 : r = 2
  · subst h2
    exact tget_tset_self ..
  rw [hskip _ _ h2, if_neg h2]
  by_cases h1 : r = 1
  · subst h1
    exact tget_tset_self ..
  rw [hskip _ _ h1, if_neg h1]
  exact ite_self 0

/-- Task `u` begins a run on pair `q`: what `t` holds of it. -/
structure Started (q u : Nat) (s t : State) : Prop extends
    Held (fun a => a ∈ [SVC_TASK_STAT u, SVC_PAIR_STAT q]) s t where
  state : t.taskState u = tkRunning
  task : t.pairTask q = u
  idle : t.flag (SVC_PAIR_STAT q) SVC_PAIR_STAT_IDLE = false
  pc : (t.core q).pc = s.reg (SVC_TASK_ENTRY u)
  g : ∀ r, (t.core q).get r = if r = 1 then w32 u else if r = 2 then w32 (s.fld (SVC_TASK_STAT u) SVC_TASK_STAT_CAUSE)
    else if r = 3 then s.reg (SVC_TASK_ARG u) else if r = 4 then w32 q else 0
  others : ∀ p, p ≠ q → t.core p = s.core p

theorem started_startTask {s : State} {q u : Nat} (hq : q < 2) (hu : u < 256) (hr : s.taskState u = tkReady) (hx : (s.task u).saved = false) :
    Started q u s (s.startTask q u) := by
  have hstat : SVC_TASK_STAT u ∈ [SVC_TASK_STAT u, SVC_PAIR_STAT q] := by simp
  have hpair : SVC_PAIR_STAT q ∈ [SVC_TASK_STAT u, SVC_PAIR_STAT q] := by simp
  unfold State.startTask
  extract_lets cleared running paired x c a
  have hcleared : cleared = s.setFlag (SVC_TASK_STAT u) SVC_TASK_STAT_PENDING false := if_pos hr
  have hheld : Held (fun b => b ∈ [SVC_TASK_STAT u, SVC_PAIR_STAT q]) s paired :=
    (((hcleared ▸ (Held.refl s).setFlag _ false hstat).setTaskState tkRunning hstat).setFld _ q hstat).setPairTask u hpair
  have hcores : paired.cores = s.cores := by
    simp only [paired, running, State.setPairTask, State.setTaskState, cores_setFlag, cores_setFld, hcleared]
  have htasks : x = s.task u := by
    simp only [x, paired, running, State.setPairTask, State.setTaskState, task_setFlag, task_setFld, hcleared]
  have hword : paired.reg (SVC_TASK_STAT u) = running.reg (SVC_TASK_STAT u) :=
    reg_setPairTask_ne running u (pairStat_ne hq (task_le_stat u))
  have hstate : paired.taskState u = tkRunning := by
    rw [State.taskState, fld_of_reg hword]
    exact (fld_setFld_other (cleared.setTaskState u tkRunning) _ (by decide) q).trans (taskState_setTaskState cleared u (by decide))
  have hcause : paired.fld (SVC_TASK_STAT u) SVC_TASK_STAT_CAUSE = s.fld (SVC_TASK_STAT u) SVC_TASK_STAT_CAUSE := by
    rw [fld_of_reg hword]
    refine (fld_setFld_other (cleared.setTaskState u tkRunning) _ (by decide) q).trans ((fld_setFld_other cleared _ (by decide) tkRunning).trans ?_)
    rw [hcleared]
    exact fld_setFld_other s _ (by decide) _
  have htask : paired.pairTask q = u := (pairTask_setPairTask running q u).trans (Nat.mod_eq_of_lt (by omega))
  have hidle : paired.flag (SVC_PAIR_STAT q) SVC_PAIR_STAT_IDLE = false := by
    have hnone : decide (u = noTask) = false := decide_eq_false (by unfold noTask; omega)
    exact (flag_setFlag_self (running.setFld (SVC_PAIR_STAT q) SVC_PAIR_STAT_TASK u) _ (by decide) rfl _).trans hnone
  have hlow {b : Nat} (h₁ : 0x40710000 ≤ b) (h₂ : b < 0x40720000) : paired.reg b = s.reg b := hheld.regs b (by
    simp only [List.mem_cons, List.not_mem_nil, or_false, SVC_TASK_STAT, SVC_PAIR_STAT]
    omega)
  clear_value paired
  rw [if_neg (by rw [htasks, hx]; decide)]
  have hcore (y : Core) (z : Task) : ((paired.setCore q y).setTask u z).core q = y := by rw [core_setTask, cores_core_setCore]
  refine ⟨(hheld.setCore q _).setTask u _, hstate, htask, hidle, ?_, fun r => ?_, fun p hp => ?_⟩
  · rw [hcore]
    exact hlow (by unfold SVC_TASK_ENTRY; omega) (by unfold SVC_TASK_ENTRY; omega)
  · rw [hcore, get_freshRegs paired q u _ rfl r, hcause, hlow (by unfold SVC_TASK_ARG; omega) (by unfold SVC_TASK_ARG; omega)]
  · rw [core_setTask, core_setCore_ne _ _ hp.symm, State.core, hcores, State.core]

/-- The dispatch of the one task that waits, on a free SV0. -/
theorem dispatchPair_woken {s : State} {u : Nat} (hu : u < 256) (hw : Safety.noneWaits s) (cause : Nat) (hfree : s.pairFree 0 = true)
    (hpairs : (s.pairsOf u).contains 0 = true) : (s.woken u cause).dispatchPair 0 = (s.woken u cause).startTask 0 u := by
  have hf := (held_woken s u cause).toFrame
  have hfree' : (s.woken u cause).pairFree 0 = true := (pairFree_of_stat hf (cores_woken s u cause) (by decide)).trans hfree
  have hfirst : (s.woken u cause).firstTask (fun t => (decide ((s.woken u cause).taskState t = tkReady)
      || decide ((s.woken u cause).taskState t = tkPreempted)) && ((s.woken u cause).pairsOf t).contains 0) = some u := by
    refine firstTask_of_only _ hu ?_ fun v hv hvu => ?_
    · rw [taskState_woken, pairsOf_of_stat hf hu, hpairs]
      rfl
    · obtain ⟨hready, hpreempted, -⟩ := restful_woken hw cause hv hvu
      simp [hready, hpreempted]
  unfold State.dispatchPair
  rw [if_pos hfree', hfirst]

/-- Once the task runs, no task waits. -/
theorem restful_started {s t : State} {q u : Nat} (h : Started q u s t) (hq : q < 2) (hrest : ∀ v, v < 256 → v ≠ u → s.restful v) :
    ∀ v, v < 256 → t.restful v := by
  intro v hv
  unfold State.restful
  by_cases hvu : v = u
  · rw [hvu, h.state]
    decide
  · have hout : SVC_TASK_STAT v ∉ [SVC_TASK_STAT u, SVC_PAIR_STAT q] := by
      have := (pairStat_ne hq (task_le_stat v)).symm
      simp only [List.mem_cons, List.not_mem_nil, or_false]
      unfold SVC_TASK_STAT at *
      omega
    have hsame : t.taskState v = s.taskState v := h.fld hout _
    rw [hsame]
    exact hrest v hv hvu

/-- The wake of an Idle task with SV0 free: it runs at once. -/
theorem taskPeriod_dispatched (s : State) (u : Fin 256) (hperiod : s.fld (SVC_TASK_W2 u) SVC_TASK_W2_PERIOD ≠ 0) (hi : s.taskState u = tkIdle)
    (hw : Safety.noneWaits s) (hfree : s.pairFree 0 = true) (hpairs : (s.pairsOf u).contains 0 = true) (hx : (s.task u).saved = false) :
    ∃ t, exec (.taskPeriod u) s = .next t ∧ t.taskState u = tkRunning ∧ t.pairTask 0 = u.val
      ∧ t.flag (SVC_PAIR_STAT 0) SVC_PAIR_STAT_IDLE = false ∧ (t.core 0).pc = s.reg (SVC_TASK_ENTRY u)
      ∧ (∀ r, (t.core 0).get r = if r = 1 then BitVec.ofNat 32 u else if r = 2 then 0x800 else if r = 3 then s.reg (SVC_TASK_ARG u) else 0)
      ∧ t.core 1 = s.core 1 ∧ Safety.onlyRegs [SVC_TASK_STAT u, SVC_PAIR_STAT 0] s t ∧ Safety.sameMem s t ∧ t.chan = s.chan := by
  have hin0 : s.pairIn 0 = true := by
    simp only [State.pairFree, Bool.and_eq_true] at hfree
    obtain ⟨⟨hin, -⟩, -⟩ := hfree
    exact hin
  have hs : s.schedRuns = true := by
    simp only [State.pairIn, Bool.and_eq_true] at hin0
    exact Bool.or_eq_true_iff.mpr (.inl hin0.1)
  have hin : (s.pairsOf u).any s.pairIn = true := List.any_eq_true.mpr ⟨0, List.contains_iff_mem.mp hpairs, hin0⟩
  have hheld := held_woken s u wkTimer
  have h : Started 0 u (s.woken u wkTimer) ((s.woken u wkTimer).startTask 0 u) :=
    started_startTask (by decide) u.isLt (taskState_woken ..) ((saved_woken ..).trans hx)
  have hrest := restful_started h (by decide) fun v hv hvu => restful_woken hw wkTimer hv hvu
  have hexec := exec_taskPeriod hperiod (by rw [hi]; decide)
  rw [wake_of_idle hs hi, dispatch_woken u.isLt hs hw hin, dispatchPair_woken u.isLt hw wkTimer hfree hpairs] at hexec
  have hcause := cause_woken s u wkTimer
  have hcores := cores_woken s u wkTimer
  generalize s.woken u wkTimer = w at *
  generalize w.startTask 0 u = t at *
  have hpre : t.preempt = t := preempt_of_noneReady fun v hv => (hrest v hv).1
  rw [dispatchPair_of_restful hrest, hpre, hpre] at hexec
  have htable {a : Nat} (ha : a < 0x40720000) : w.reg a = s.reg a := hheld.regs a (not_stat_of_low u ha)
  have hu := u.isLt
  refine ⟨t, hexec, h.state, h.task, h.idle, ?_, fun r => ?_, ?_, fun a ha => ?_, sameMem_of_mem (h.mem.trans hheld.mem), h.chan.trans hheld.chan⟩
  · rw [h.pc, htable (by unfold SVC_TASK_ENTRY; omega)]
  · rw [h.g, hcause, htable (by unfold SVC_TASK_ARG; omega)]
    have h4 : (if r = 4 then w32 0 else 0) = (0 : Word) := ite_self _
    rw [h4]
    rfl
  · rw [h.others 1 (by decide), State.core, hcores, State.core]
  · refine (h.regs a ha).trans (hheld.regs a fun hstat => ha ?_)
    simp [hstat]

/-- Settles O22: a run's end by what closing it leaves, the wakes by the one task they make wait. -/
theorem runsWakesAndDispatch : Obligations.RunsWakesAndDispatch := by
  unfold Obligations.RunsWakesAndDispatch
  exact ⟨⟨fun s q T hm hc hrun hT hp hw hl ha => ⟨done_ends hm hc hrun hT hp hw hl ha, ready_reports hm hc hrun hT hp hw hl ha,
      ready_serves hm hc hrun hT hp hw hl ha⟩, fun s q hm hl i hi => waits_of_portLive hm hl hi⟩,
    taskPeriod_idle, taskPeriod_dispatched, taskPeriod_running⟩

end Sys2Proof.Machine
end

section
/-! SUPPORT. What a row writes where SP's own state moves too: registers at most, no byte, and whether an event. -/

namespace Sys2Proof.Machine

/-- From `r` to `s` no register outside `W` and no byte differs; what SP and the blocks hold beside their registers may. -/
structure Touched (W : Nat → Prop) (r s : State) : Prop where
  regs : Safety.regsOutside W r s
  mem : s.mem = r.mem

namespace Touched

variable {W V : Nat → Prop} {r s t : State}

theorem refl (s : State) : Touched W s s := ⟨fun _ _ => rfl, rfl⟩

theorem trans (h : Touched W r s) (g : Touched W s t) : Touched W r t :=
  ⟨fun a ha => (g.regs a ha).trans (h.regs a ha), g.mem.trans h.mem⟩

theorem mono (h : Touched W r s) (hW : ∀ a, W a → V a) : Touched V r s := ⟨fun a ha => h.regs a fun hw => ha (hW a hw), h.mem⟩

/-- Only what registers and memory do not hold moves on to `t`. -/
theorem beside (h : Touched W r s) (hr : t.regs = s.regs) (hm : t.mem = s.mem) : Touched W r t :=
  ⟨fun a ha => by rw [State.reg, hr, ← State.reg, h.regs a ha], hm.trans h.mem⟩

theorem setReg (h : Touched W r s) (a : Nat) (w : Word) (ha : W a) : Touched W r (s.setReg a w) :=
  ⟨fun b hb => (reg_setReg_ne s w (by rintro rfl; exact hb ha)).trans (h.regs b hb), h.mem⟩

theorem setFld (h : Touched W r s) (a : Nat) (f : Fld) (v : Nat) (ha : W a) : Touched W r (s.setFld a f v) := h.setReg a _ ha

theorem setFlag (h : Touched W r s) (a : Nat) (f : Fld) (b : Bool) (ha : W a) : Touched W r (s.setFlag a f b) := h.setReg a _ ha

theorem raise (h : Touched W r s) (isl e : Nat) (d : List Word) : Touched W r (s.raise isl e d) :=
  ⟨fun a ha => (reg_raise ..).trans (h.regs a ha), (mem_raise ..).trans h.mem⟩

theorem ite {c : Prop} [Decidable c] (h : Touched W r s) (g : Touched W r t) : Touched W r (if c then s else t) := by
  split <;> assumption

end Touched

theorem Added.touched {W : Nat → Prop} {r s : State} (h : Added W r s) : Touched W r s := ⟨h.regs, h.mem⟩

theorem raised_of_chan_eq {s t : State} (h : t.chan = s.chan) : Safety.raised [] s t := by
  rw [Safety.raised, h, List.append_nil]

/-- An event raised under a condition. -/
theorem raised_ite {c : Prop} [Decidable c] {l : List (Nat × Nat)} {s t u : State} (h : Safety.raised l s t) (hu : u.chan = s.chan) :
    Safety.raised (if c then l else []) s (if c then t else u) := by
  split
  · exact h
  · exact raised_of_chan_eq hu

/-! ### The converter with its rails (R381, R392) -/

/-- SP in the state `x` with the converter's five rails shown good. -/
def State.railsUp (s : State) (x : Sup) : State := ({ s with sp := x }).setFld SUP_RAIL_STAT SUP_RAIL_STAT_GOOD 0x1F

section
variable (s : State) (x : Sup)

theorem good_railsUp : (s.railsUp x).fld SUP_RAIL_STAT SUP_RAIL_STAT_GOOD = 0x1F :=
  (fld_setFld_self { s with sp := x } SUP_RAIL_STAT (by decide) 0x1F).trans rfl

theorem touched_railsUp : Touched (· ∈ [SUP_RAIL_STAT]) s (s.railsUp x) :=
  ((Touched.refl s).beside (t := { s with sp := x }) rfl rfl).setFld _ _ _ (by simp)

end

end Sys2Proof.Machine
end

section
/-! PROOF of O1: SP's power-on reset, the converter and its rails, and the backup cell. -/

namespace Sys2Proof.Machine

/-! ### Power-on and the converter (R40, R54, R380, R392, R411) -/

/-- The module as SP's power-on reset leaves it: what RT, the latch and the balls hold beside it is kept. -/
def State.poweredOn (s : State) : State := { State.reset with
  pending := s.pending, now := s.now, free := s.free, mem := retentionOnly s.mem
  itc := [(islSP, ⟨0, s.now⟩)]
  sp := { Sup.init with
    powered := true, sealA := s.sp.sealA, sealB := s.sp.sealB, sealCrc := s.sp.sealCrc, bodSeen := s.sp.bodSeen
    archDone := s.sp.archDone, archSkipped := s.sp.archSkipped, archive := s.sp.archive
    losBall := s.sp.losBall, modAbs := s.sp.modAbs } }

theorem exec_spPowerOnReset {s : State} (h : s.sp.powered = false) : exec .spPowerOnReset s = .next s.poweredOn :=
  congrArg Host.Outcome.next (if_neg (by simp [h]))

theorem byte_poweredOn_in (s : State) {a : Nat} (h : retentionBase ≤ a ∧ a < retentionBase + retentionSize) : s.poweredOn.byte a = s.byte a :=
  tget_retentionOnly s.mem h

theorem byte_poweredOn_out (s : State) {a : Nat} (h : a < retentionBase ∨ retentionBase + retentionSize ≤ a) : s.poweredOn.byte a = 0 :=
  tget_filter_false fun p hp => by
    simp only [hp, Bool.and_eq_false_iff, decide_eq_false_iff_not]
    omega

theorem exec_converterStart {s : State} (hp : s.sp.powered = true) (hd : s.sp.dormant = true) (h : s.sp.railOff = 0) :
    exec .converterStart s = .next (s.railsUp { s.sp with converter := true }) :=
  congrArg Host.Outcome.next (if_pos (by simp [hp, hd, h]))

theorem exec_railRestart {s : State} (h : s.sp.railOff ≠ 0) (hc : s.sp.converter = false) :
    exec .railRestart s = .next (s.railsUp { s.sp with railOff := 0, converter := true, rstCause := 3 }) :=
  congrArg Host.Outcome.next (if_pos ⟨h, by simp [hc]⟩)

/-! ### A rail fails (R381, R382, R412) -/

theorem railCode_lt (r : Rail) : railCode r < 8 := by cases r <;> decide

theorem touched_noteRail (s : State) (r : Rail) : Touched (· ∈ [SUP_RAIL_STAT]) s (s.noteRail r) :=
  (((Touched.refl s).setFlag _ _ _ (by simp)).setFld _ _ _ (by simp)).setFld _ _ _ (by simp)

theorem lastFail_noteRail (s : State) (r : Rail) : (s.noteRail r).fld SUP_RAIL_STAT SUP_RAIL_STAT_LAST_FAIL = railCode r := by
  unfold State.noteRail State.satInc
  rw [fld_setFld_other _ _ (by decide), fld_setFld_self _ _ (by decide)]
  exact Nat.mod_eq_of_lt (railCode_lt r)

theorem bit_noteRail_vsup (s : State) : (s.noteRail .vsup).flag SUP_RAIL_STAT ⟨4, 1⟩ = false := by
  unfold State.noteRail State.satInc
  rw [flag_setFld_other _ _ (by decide), flag_setFld_other _ _ (by decide)]
  exact flag_setFlag_self _ _ (by decide) rfl false

/-- What Dormant shows of SP's outputs and of the islands held. -/
def dormantRegs (a : Nat) : Prop := a = SUP_SAFETY_STAT ∨ ∃ i : Fin 23, a = SUP_L5_STAT i

theorem touched_dormantOutputs (s : State) : Touched dormantRegs s s.dormantOutputs := by
  unfold State.dormantOutputs
  extract_lets unclaimed off squelched dark
  have h : Touched dormantRegs s dark :=
    ((((Touched.refl s).setFlag _ _ _ (.inl rfl)).setFlag _ _ _ (.inl rfl)).setFlag _ _ _ (.inl rfl)).setFld _ _ _ (.inl rfl)
  exact each_preserves _ (fun _ i hi hx => hx.setFlag _ _ _ (.inr ⟨⟨i, List.mem_range.mp hi⟩, rfl⟩)) h

/-- A supervisor reset leaves SP's own registers as they were, but for what Dormant shows (R412). -/
theorem reg_supervisorReset_held (s : State) (cause : Nat) {a : Nat} (h : spHeld a = true) (hd : ¬ dormantRegs a) :
    (s.supervisorReset cause).reg a = s.reg a :=
  ((touched_dormantOutputs _).regs a hd).trans (tget_filter_true fun p hp => by rw [hp, h])

theorem not_dormantRegs_rail : ¬ dormantRegs SUP_RAIL_STAT := by
  rintro (h | ⟨i, h⟩)
  · exact absurd h (by decide)
  · unfold SUP_RAIL_STAT SUP_L5_STAT at h
    omega

theorem lastFail_converterOff (s : State) :
    s.converterOff.fld SUP_RAIL_STAT SUP_RAIL_STAT_LAST_FAIL = s.fld SUP_RAIL_STAT SUP_RAIL_STAT_LAST_FAIL :=
  (fld_setFld_other _ SUP_RAIL_STAT (by decide) _).trans (fld_of_reg (reg_supervisorReset_held s 3 (by decide) not_dormantRegs_rail) _)

theorem good_converterOff (s : State) : s.converterOff.fld SUP_RAIL_STAT SUP_RAIL_STAT_GOOD = 0x10 :=
  (fld_setFld_self _ SUP_RAIL_STAT (by decide) _).trans rfl

/-- The rail noted, with the failures of the last 60 s and the time the converter stays off. -/
def State.railDown (s : State) (r : Rail) : State :=
  let recent := (s.sp.railFails.filter (fun t => s.now - t < 60000000000)) ++ [s.now]
  { s.noteRail r with sp := { s.sp with railFails := recent, railOff := if 3 ≤ recent.length then 60000 else 10, stopAfter := true } }

theorem exec_railFailure_dormant {s : State} {r : Rail} (hc : s.sp.converter = true) (hr : r ≠ .vsup) (hd : s.sp.dormant = true) :
    exec (.railFailure r) s = .next (s.railDown r).converterOff :=
  congrArg Host.Outcome.next ((if_neg (by simp [hc])).trans ((if_neg hr).trans (if_pos hd)))

theorem exec_railFailure_vsup {s : State} (hc : s.sp.converter = true) : exec (.railFailure .vsup) s = .next (s.noteRail .vsup) :=
  congrArg Host.Outcome.next ((if_neg (by simp [hc])).trans (if_pos rfl))

theorem railOff_railDown (s : State) (r : Rail) : (s.railDown r).sp.railOff
    = if 2 ≤ (s.sp.railFails.filter (fun x => s.now - x < 60000000000)).length then 60000 else 10 := by
  have h (l : List Nat) : (3 ≤ (l ++ [s.now]).length) = (2 ≤ l.length) := by
    rw [List.length_append, List.length_singleton, eq_iff_iff]
    omega
  simp only [State.railDown, h]

/-! ### The backup cell (R57, R386) -/

/-- VBAK_LOW after a measurement: below the warning level it is set, and more than 50 mV above it is cleared. -/
def vbakLow (low : Bool) (warn v : Nat) : Bool := if low then !decide (warn + 5 < v) else decide (v < warn)

/-- The measurement shown in its register. -/
def State.vbakShown (s : State) (v : Nat) : State := s.setFld SUP_PWR_STAT SUP_PWR_STAT_VBAK v

/-- VBAK_LOW as it stands and as the measurement judges it. -/
def State.lowNow (s : State) : Bool := s.flag SUP_PWR_STAT SUP_PWR_STAT_VBAK_LOW
def State.lowNext (s : State) (v : Nat) : Bool := vbakLow s.lowNow (s.fld SUP_PWR_CFG SUP_PWR_CFG_VBAK_WARN) v

/-- VBAK_LOW moved, and told. -/
def State.vbakMoved (s : State) (low : Bool) : State :=
  let s := s.setFlag SUP_PWR_STAT SUP_PWR_STAT_VBAK_LOW low
  s.raise islSP 0x023 [s.reg SUP_PWR_STAT]

theorem exec_vbakMeasure {s : State} (hc : s.sp.converter = true) (v : Fin 512) : exec (.vbakMeasure v) s = .next
    (if s.lowNow = s.lowNext v then s.vbakShown v else (s.vbakShown v).vbakMoved (s.lowNext v)) := by
  have hlow : (s.vbakShown v).lowNow = s.lowNow := flag_setFld_other s _ (by decide) _
  have hwarn : (s.vbakShown v).fld SUP_PWR_CFG SUP_PWR_CFG_VBAK_WARN = s.fld SUP_PWR_CFG SUP_PWR_CFG_VBAK_WARN :=
    fld_setFld_ne s _ _ _ (by decide)
  have hexec : exec (.vbakMeasure v) s = .next (if (s.vbakShown v).lowNow = (s.vbakShown v).lowNext v then s.vbakShown v
      else (s.vbakShown v).vbakMoved ((s.vbakShown v).lowNext v)) :=
    congrArg Host.Outcome.next (if_neg (by simp [hc]))
  rw [hexec, State.lowNext, hlow, hwarn, ← State.lowNext]

section
variable (s : State) (v : Fin 512)

theorem vbak_vbakShown : (s.vbakShown v).fld SUP_PWR_STAT SUP_PWR_STAT_VBAK = v :=
  (fld_setFld_self s SUP_PWR_STAT (by decide) v).trans (Nat.mod_eq_of_lt v.isLt)

theorem touched_vbakMoved (low : Bool) : Touched (· ∈ [SUP_PWR_STAT]) s ((s.vbakShown v).vbakMoved low) :=
  (((Touched.refl s).setFld _ _ _ (by simp)).setFlag _ _ _ (by simp)).raise _ _ _

theorem vbak_vbakMoved (low : Bool) : ((s.vbakShown v).vbakMoved low).fld SUP_PWR_STAT SUP_PWR_STAT_VBAK = v :=
  (fld_raise ..).trans ((fld_setFld_other _ _ (by decide) _).trans (vbak_vbakShown s v))

theorem low_vbakMoved (low : Bool) : ((s.vbakShown v).vbakMoved low).lowNow = low :=
  (flag_raise ..).trans (flag_setFlag_self _ _ (by decide) rfl low)

/-- What a measurement leaves, whether VBAK_LOW moves or not. -/
theorem vbakMeasure_spec (hc : s.sp.converter = true) :
    ∃ t, exec (.vbakMeasure v) s = .next t ∧ t.fld SUP_PWR_STAT SUP_PWR_STAT_VBAK = v ∧ t.lowNow = s.lowNext v
      ∧ Touched (· ∈ [SUP_PWR_STAT]) s t ∧ (s.sp.dormant = false → t.lowNow ≠ s.lowNow → Safety.raised [(islSP, 0x023)] s t) := by
  refine ⟨_, exec_vbakMeasure hc v, ?_⟩
  by_cases h : s.lowNow = s.lowNext v
  · have hlow : (s.vbakShown v).lowNow = s.lowNow := flag_setFld_other s _ (by decide) _
    rw [if_pos h]
    exact ⟨vbak_vbakShown s v, hlow.trans h, (Touched.refl s).setFld _ _ _ (by simp), fun _ hne => absurd hlow hne⟩
  · rw [if_neg h]
    exact ⟨vbak_vbakMoved s v _, low_vbakMoved s v _, touched_vbakMoved s v _, fun hd _ => raised_raise _ _ _ rfl hd⟩

end

/-! ### The obligation -/

/-- Settles O1: the power-on reset by what it keeps, the converter by the rails it shows, a rail failure by the reset that follows it, and
the backup cell by what a measurement judges. -/
theorem powerUpAndRails : Obligations.PowerUpAndRails := by
  unfold Obligations.PowerUpAndRails
  refine ⟨⟨?powerOn, ?start, ?restart, ?brownOut⟩, ?rail, ?vsup, ?vbak⟩
  case powerOn =>
    intro s hp
    exact ⟨_, exec_spPowerOnReset hp, rfl, rfl, fun _ => rfl, rfl, rfl, rfl, rfl, rfl, fun a h₁ h₂ => byte_poweredOn_in s ⟨h₁, h₂⟩,
      fun a h => byte_poweredOn_out s h⟩
  case start =>
    intro s hp hd hoff
    have ht := touched_railsUp s { s.sp with converter := true }
    exact ⟨_, exec_converterStart hp hd hoff, rfl, good_railsUp s _, ht.regs, sameMem_of_mem ht.mem, rfl⟩
  case restart =>
    intro s hoff hc
    have ht := touched_railsUp s { s.sp with railOff := 0, converter := true, rstCause := 3 }
    exact ⟨_, exec_railRestart hoff hc, rfl, rfl, rfl, good_railsUp s _, ht.regs, sameMem_of_mem ht.mem, rfl⟩
  case brownOut =>
    intro s
    exact ⟨_, rfl, rfl, rfl, rfl, fun _ _ => rfl, fun _ => rfl, rfl⟩
  case rail =>
    intro s r hc hr hd
    have hlast : (s.railDown r).fld SUP_RAIL_STAT SUP_RAIL_STAT_LAST_FAIL = railCode r := lastFail_noteRail s r
    exact ⟨_, exec_railFailure_dormant hc hr hd, rfl, life_converterOff _, railOff_railDown s r, good_converterOff _,
      (lastFail_converterOff _).trans hlast⟩
  case vsup =>
    intro s hc
    have ht := touched_noteRail s .vsup
    exact ⟨_, exec_railFailure_vsup hc, lastFail_noteRail s .vsup, bit_noteRail_vsup s, ht.regs, sameMem_of_mem ht.mem, rfl⟩
  case vbak =>
    intro s v hc
    obtain ⟨t, ht, hv, hlow, htouched, hraised⟩ := vbakMeasure_spec s v hc
    refine ⟨t, ht, hv, fun hlt => hlow.trans ?_, fun hgt => hlow.trans ?_, htouched.regs, sameMem_of_mem htouched.mem, hraised⟩
    · unfold State.lowNext vbakLow
      split
      · simp only [Bool.not_eq_true', decide_eq_false_iff_not]
        omega
      · exact decide_eq_true hlt
    · unfold State.lowNext vbakLow
      split
      · simp only [Bool.not_eq_false', decide_eq_true_eq]
        exact hgt
      · simp only [decide_eq_false_iff_not]
        omega

end Sys2Proof.Machine
end

section
/-! PROOF of O4: the SG-5 conditions, the claim disagreement, the frequency monitors and the squelch gate. -/

namespace Sys2Proof.Machine

/-! ### Warnings, the self-test and a trip that clears (R28, R32, R39) -/

section
variable {s : State}

theorem exec_claimDisagree_of_differs (h : s.claimDiffers = true) : exec .claimDisagree s = .next
    (({ s with sp := { s.sp with claimBad := true } }).raise islSP 0x015 [s.reg SUP_SAFETY_STAT]) :=
  congrArg Host.Outcome.next (if_pos h)

theorem exec_claimDisagree_of_agrees (h : s.claimDiffers = false) : exec .claimDisagree s = .next s :=
  congrArg Host.Outcome.next (if_neg (by simp [h]))

theorem exec_safetySelfTest_of_passed (hd : s.sp.dormant = false) (h : s.sp.claimBad = false ∨ s.claimDiffers = false) :
    exec (.safetySelfTest true) s = .next { s with sp := { s.sp with claimBad := false } } := by
  have hbad : (s.sp.claimBad && s.claimDiffers) = false := Bool.and_eq_false_iff.mpr h
  refine congrArg Host.Outcome.next ((if_neg (by simp [hd])).trans ((if_pos (by simp [hbad])).trans ?_))
  rw [hbad]

/-- SP's safety status with the bit of an SG-5 trip cleared. -/
def State.tripCleared (s : State) (c : Sg5) : State := s.setBitAt SUP_SAFETY_STAT (16 + sg5Code c) false

theorem exec_sg5TripClear_of_converter (h : s.sp.converter = true) (c : Sg5) : exec (.sg5TripClear c) s = .next (s.tripCleared c) := by
  refine congrArg Host.Outcome.next (if_neg ?_)
  rintro ⟨-, -, hc, -⟩
  simp [h] at hc

theorem bit_tripCleared (s : State) (c : Sg5) : (s.tripCleared c).bitAt SUP_SAFETY_STAT (16 + sg5Code c) = false :=
  flag_setFlag_self _ _ (by cases c <;> decide) rfl false

theorem bit_tripCleared_ne (s : State) (c : Sg5) {j : Nat} (h : j ≠ 16 + sg5Code c) :
    (s.tripCleared c).bitAt SUP_SAFETY_STAT j = s.bitAt SUP_SAFETY_STAT j :=
  flag_setFlag_other _ _ (by simp only; omega) false

theorem touched_tripCleared (s : State) (c : Sg5) : Touched (· ∈ [SUP_SAFETY_STAT]) s (s.tripCleared c) :=
  (Touched.refl s).setFlag _ _ _ (by simp)

/-- A converter that an over-voltage or current trip had stopped restarts once neither of the two stands. -/
theorem exec_sg5TripClear_of_stopped {c : Sg5} (hc : c = .overVoltage ∨ c = .current) (hoff : s.sp.converter = false)
    (hp : s.sp.powered = true) (hr : s.sp.railOff = 0) (hbit : s.bitAt SUP_SAFETY_STAT (16 + sg5Code c) = true)
    (hother : s.bitAt SUP_SAFETY_STAT (17 - sg5Code c) = false) :
    exec (.sg5TripClear c) s = .next ((s.tripCleared c).railsUp { s.sp with converter := true, rstCause := 3 }) := by
  have hself := bit_tripCleared s c
  have hrest := (bit_tripCleared_ne s c (j := 17 - sg5Code c) (by obtain rfl | rfl := hc <;> decide)).trans hother
  have hnone : (s.tripCleared c).bitAt SUP_SAFETY_STAT 16 = false ∧ (s.tripCleared c).bitAt SUP_SAFETY_STAT 17 = false := by
    obtain rfl | rfl := hc
    · exact ⟨hself, hrest⟩
    · exact ⟨hrest, hself⟩
  obtain ⟨h16, h17⟩ := hnone
  exact congrArg Host.Outcome.next (if_pos ⟨hbit, hc, (congrArg not hoff :), hp, (congrArg not h16 :), (congrArg not h17 :), hr⟩)

end

/-! ### A trip that runs the power-fail sequence (R39, R49) -/

theorem powerFail_enterSafe (s : State) (prev cause : Nat) : (s.enterSafe prev cause).sp.powerFail = s.sp.powerFail := by
  have hbegun : (s.safeBegun prev cause).sp.powerFail = s.sp.powerFail := by
    have hd := (added_driveClaim s false).sp
    unfold State.safeBegun
    dsimp only
    rw [sp_enter]
    exact (congrArg Sup.powerFail hd :)
  have hheld (u : State) : u.safeHeld.sp.powerFail = u.sp.powerFail := by
    set v : State := { u with
      sp := { u.sp with holdMs := u.safeHold, l7Run := false }, ld := { u.ld with running := false, timed := false } } with hv
    have hsp : u.safeHeld.sp = { v.outputsOff.sp with entryAt := some v.outputsOff.now } := rfl
    rw [hsp, (frame_outputsOff v).sp]
  rw [enterSafe_eq, (frame_setIslands _ _ _).sp, (frame_lockBridge _ _).sp, hheld, hbegun]

/-- A fault of the Safe class declares no power failure. -/
theorem powerFail_safeEntry (s : State) (cause : Nat) : (s.safeEntry cause).sp.powerFail = s.sp.powerFail := by
  have hfree (prev : Nat) : (s.useFree.enterSafe prev cause).sp.powerFail = s.sp.powerFail := powerFail_enterSafe s.useFree prev cause
  have hmerge : (s.mergeCause 0x006 cause).sp = s.sp := sp_raise ..
  unfold State.safeEntry
  split_ifs
  exacts [rfl, congrArg Sup.powerFail hmerge, rfl, rfl, hfree _, hfree _, powerFail_enterSafe _ _ _]

theorem schedRuns_powerFailStops (u : State) : (u.setIslands powerFailStops false).schedRuns = false := by
  rw [State.schedRuns, State.running, State.running, run_setIslands u false (by decide) (by decide),
    run_setIslands u false (by decide) (by decide), Bool.and_false, Bool.or_false]

theorem stopAfter_sealRetention (u : State) : u.sealRetention.sp.stopAfter = u.sp.stopAfter := by
  unfold State.sealRetention
  split
  · rw [sp_raise]
  · rfl

/-- Whether SP stops the converter at the sequence's end stands through it. -/
theorem stopAfter_powerFailSequence (s : State) : (s.powerFailSequence true true).sp.stopAfter = s.sp.stopAfter := by
  unfold State.powerFailSequence
  extract_lets supState safety toStat ptp told declared unclaimed off sup loader halted stopped accepted last written done prepared
  have htold : declared = s.sp := sp_raise ..
  have hoff : off.sp = { declared with powerFail := .waiting } := by
    rw [(frame_abandonGather _).sp, (frame_outputsOff _).sp, (added_driveClaim _ _).sp, (Added.refl _).roleEval.sp]
  have hhalted : halted.sp.stopAfter = s.sp.stopAfter := by
    rw [← htold]
    exact (congrArg Sup.stopAfter hoff :)
  clear_value halted
  have hstopped : stopped.sp = halted.sp := (frame_setIslands halted powerFailStops false).sp
  have hsched : stopped.schedRuns = false := schedRuns_powerFailStops halted
  clear_value stopped
  have haccepted : Frame beyondNvm stopped accepted := (Frame.refl stopped).acceptAll hsched
  clear_value accepted
  have hwritten : written.sp = stopped.sp := (haccepted.writeHeads hsched _).useFree.powerFailRecord.sp
  have hdone : done.sp.stopAfter = s.sp.stopAfter := by
    rw [stopAfter_sealRetention, hwritten, hstopped, hhalted]
  clear_value done
  split <;> exact hdone

theorem sharedEn_supervisorReset (s : State) (cause : Nat) :
    (s.supervisorReset cause).flag SUP_SAFETY_STAT SUP_SAFETY_STAT_SHARED_EN = false := (off_dormantOutputs _).1

theorem sharedEn_converterOff (s : State) : s.converterOff.flag SUP_SAFETY_STAT SUP_SAFETY_STAT_SHARED_EN = false := by
  unfold State.converterOff
  rw [flag_setFld_ne _ _ _ _ (by decide)]
  exact sharedEn_supervisorReset s 3

/-- The sequence with the converter to be stopped at its end: the Archive write is under way, or the converter has stopped. -/
theorem failPower_stopping {u : State} (hp : u.sp.powerFail = .idle) (hs : u.sp.stopAfter = true) {t : State}
    (ht : t = (u.failPower true true).sequenceEnd) : t.flag SUP_SAFETY_STAT SUP_SAFETY_STAT_SHARED_EN = false
      ∧ (t.sp.powerFail = .archiving ∨ t.life = stDormant ∧ t.sp.converter = false) := by
  obtain ⟨hhalted, -, -, hrun⟩ := powerFailSequence_spec u
  have hstop := (stopAfter_powerFailSequence u).trans hs
  have hfail : u.failPower true true = u.powerFailSequence true true := if_pos hp
  rw [hfail] at ht
  generalize u.powerFailSequence true true = v at *
  cases hv : v.sp.powerFail
  case idle => exact absurd hv hrun
  case archiving =>
    have hend : v.sequenceEnd = v := if_neg (by simp [hv])
    rw [ht, hend]
    exact ⟨hhalted.sharedEn, .inl hv⟩
  case waiting =>
    have hend : v.sequenceEnd = v.converterOff := if_pos ⟨hv, hstop⟩
    rw [ht, hend]
    exact ⟨sharedEn_converterOff v, .inr ⟨life_converterOff v, rfl⟩⟩

/-- The trip bit set and told, as it strikes. -/
def State.tripped (s : State) (c : Sg5) : State :=
  (s.setBitAt SUP_SAFETY_STAT (16 + sg5Code c) true).raise islSP 0x021 [w32 (sg5Code c)]

/-- SP is to stop the converter when the sequence has ended. -/
def State.stopping (s : State) : State := { s with sp := { s.sp with stopAfter := true } }

theorem exec_sg5Trip_power {s : State} {c : Sg5} (hc : c = .overVoltage ∨ c = .current) (hd : s.sp.dormant = false) :
    exec (.sg5Trip c) s = .next ((((s.tripped c).safeEntry 0x24).stopping.failPower true true).sequenceEnd) := by
  have hexec : exec (.sg5Trip c) s = .next (if s.sp.dormant then s else
      if c = .overVoltage ∨ c = .current then (((s.tripped c).safeEntry 0x24).stopping.failPower true true).sequenceEnd
      else (s.tripped c).safeEntry 0x24) := rfl
  rw [hexec, hd, if_neg Bool.false_ne_true, if_pos hc]

theorem sg5Trip_stopping {s : State} {c : Sg5} (hc : c = .overVoltage ∨ c = .current) (hl : s.life ≠ stDormant)
    (hp : s.sp.powerFail = .idle) :
    ∃ t, exec (.sg5Trip c) s = .next t ∧ t.flag SUP_SAFETY_STAT SUP_SAFETY_STAT_SHARED_EN = false
      ∧ (t.sp.powerFail = .archiving ∨ t.life = stDormant ∧ t.sp.converter = false) := by
  have hidle : ((s.tripped c).safeEntry 0x24).stopping.sp.powerFail = .idle :=
    (powerFail_safeEntry _ _).trans ((congrArg Sup.powerFail (sp_raise ..)).trans hp)
  exact ⟨_, exec_sg5Trip_power hc (not_dormant_of_life hl), failPower_stopping hidle rfl rfl⟩

/-! ### The monitors and the gate (R33 to R35, R243) -/

section
variable (s : State) {f : Fld} (e : Nat) (bad : Bool)

theorem sp_monitorVerdict : (s.monitorVerdict f e bad).sp = s.sp := by
  unfold State.monitorVerdict
  dsimp only
  split
  · rw [sp_raise, sp_setFlag]
  · rfl

/-- The verdict shown in its bit. -/
theorem flag_monitorVerdict_self (hf : f.lo + f.len ≤ 32) (hl : f.len = 1) : (s.monitorVerdict f e bad).flag SUP_SAFETY_STAT f = bad := by
  have h := flag_setFlag_self s SUP_SAFETY_STAT hf hl bad
  unfold State.monitorVerdict
  dsimp only
  split
  · rw [flag_raise, h]
  · exact h

theorem flag_monitorVerdict_other {g : Fld} (h : f.lo + f.len ≤ g.lo ∨ g.lo + g.len ≤ f.lo) :
    (s.monitorVerdict f e bad).flag SUP_SAFETY_STAT g = s.flag SUP_SAFETY_STAT g := by
  have h := flag_setFlag_other s SUP_SAFETY_STAT h.symm bad
  unfold State.monitorVerdict
  dsimp only
  split
  · rw [flag_raise, h]
  · exact h

theorem touched_monitorVerdict : Touched (· ∈ [SUP_SAFETY_STAT]) s (s.monitorVerdict f e bad) :=
  have h := (Touched.refl s).setFlag SUP_SAFETY_STAT f bad (by simp)
  (h.raise _ _ _).ite h

/-- A monitor that starts to disagree tells it. -/
theorem raised_monitorVerdict (hd : s.sp.dormant = false) :
    Safety.raised (if bad && !s.flag SUP_SAFETY_STAT f then [(islSP, e)] else []) s (s.monitorVerdict f e bad) :=
  raised_ite (u := s.setFlag SUP_SAFETY_STAT f bad) (raised_raise islSP e [] rfl hd) rfl

end

/-- Why the gate is to close: a monitor disagrees, or TM reports neither reference nor model. -/
def State.gateCloses (s : State) : Bool :=
  s.flag SUP_SAFETY_STAT SUP_SAFETY_STAT_MON_A || s.flag SUP_SAFETY_STAT SUP_SAFETY_STAT_MON_B || !(s.sp.refOk || s.sp.hoValid)

section
variable (s : State)

theorem judgeSquelch_eq : s.judgeSquelch = if s.gateCloses then s.squelchClose else s := rfl

theorem sp_squelchClose : s.squelchClose.sp = s.sp := by
  unfold State.squelchClose
  split
  · rfl
  · rw [sp_raise, sp_setFlag]

theorem touched_squelchClose : Touched (· ∈ [SUP_SAFETY_STAT]) s s.squelchClose :=
  have h := Touched.refl s
  h.ite ((h.setFlag SUP_SAFETY_STAT _ _ (by simp)).raise _ _ _)

theorem raised_squelchClose (hd : s.sp.dormant = false) :
    Safety.raised (if s.flag SUP_SAFETY_STAT SUP_SAFETY_STAT_SQUELCH then [] else [(islSP, 0x012)]) s s.squelchClose := by
  unfold State.squelchClose
  split
  · exact raised_of_chan_eq rfl
  · exact raised_raise _ _ _ rfl hd

theorem sp_judgeSquelch : s.judgeSquelch.sp = s.sp := by
  rw [judgeSquelch_eq]
  split
  · exact sp_squelchClose s
  · rfl

theorem touched_judgeSquelch : Touched (· ∈ [SUP_SAFETY_STAT]) s s.judgeSquelch :=
  (touched_squelchClose s).ite (.refl s)

theorem squelch_judgeSquelch :
    s.judgeSquelch.flag SUP_SAFETY_STAT SUP_SAFETY_STAT_SQUELCH = (s.flag SUP_SAFETY_STAT SUP_SAFETY_STAT_SQUELCH || s.gateCloses) := by
  rw [judgeSquelch_eq]
  cases hg : s.gateCloses
  case false => rw [if_neg Bool.false_ne_true, Bool.or_false]
  case true => rw [if_pos rfl, squelch_squelchClose, Bool.or_true]

theorem fld_judgeSquelch {f : Fld} (hf : f.lo + f.len ≤ 4 ∨ 5 ≤ f.lo) :
    s.judgeSquelch.fld SUP_SAFETY_STAT f = s.fld SUP_SAFETY_STAT f := by
  rw [judgeSquelch_eq]
  split
  · exact fld_squelchClose s hf
  · rfl

theorem flag_judgeSquelch {f : Fld} (hf : f.lo + f.len ≤ 4 ∨ 5 ≤ f.lo) :
    s.judgeSquelch.flag SUP_SAFETY_STAT f = s.flag SUP_SAFETY_STAT f := by
  rw [State.flag, fld_judgeSquelch s hf, State.flag]

/-- The gate tells that it closes, where it was open. -/
theorem raised_judgeSquelch (hd : s.sp.dormant = false) :
    Safety.raised (if s.judgeSquelch.flag SUP_SAFETY_STAT SUP_SAFETY_STAT_SQUELCH && !s.flag SUP_SAFETY_STAT SUP_SAFETY_STAT_SQUELCH
      then [(islSP, 0x012)] else []) s s.judgeSquelch := by
  have hclose := raised_squelchClose s hd
  rw [squelch_judgeSquelch, judgeSquelch_eq]
  cases hg : s.gateCloses
  case false =>
    simp only [Bool.or_false, Bool.and_not_self, Bool.false_eq_true, if_false]
    exact raised_of_chan_eq rfl
  case true =>
    cases hq : s.flag SUP_SAFETY_STAT SUP_SAFETY_STAT_SQUELCH <;> simpa [hq] using hclose

end

/-! ### MONITOR_EVALUATION and SQUELCH_RELEASE -/

/-- Monitor A's estimate lies over the limit, as TM runs; monitor B's does. -/
def State.overNowA (s : State) (a : Int) : Bool := s.running islTM && s.overLimit (slopeEstimate (pushSample s.sp.phasesA a)) s.expectedA
def State.overNowB (s : State) (b : Int) : Bool := s.overLimit (slopeEstimate (pushSample s.sp.phasesB b)) s.sp.corr

/-- SP with one more sample of each monitor taken. -/
def State.sampled (s : State) (a b : Int) : State := { s with sp := { s.sp with
  phasesA := pushSample s.sp.phasesA a, phasesB := pushSample s.sp.phasesB b, overA := s.overNowA a, overB := s.overNowB b } }

/-- The verdicts of the two monitors. -/
def State.badA (s : State) (a : Int) : Bool := s.overNowA a && s.sp.overA
def State.badB (s : State) (b : Int) : Bool := s.overNowB b && s.sp.overB || decide (3 ≤ s.recentRejects.length)

/-- The state with both verdicts shown, before the gate is judged. -/
def State.verdicts (s : State) (a b : Int) : State :=
  ((s.sampled a b).monitorVerdict SUP_SAFETY_STAT_MON_A 0x010 (s.badA a)).monitorVerdict SUP_SAFETY_STAT_MON_B 0x011 (s.badB b)

theorem exec_monitorEvaluation {s : State} (hd : s.sp.dormant = false) (a b : Int) :
    exec (.monitorEvaluation a b) s = .next (s.verdicts a b).judgeSquelch :=
  congrArg Host.Outcome.next (if_neg (by simp [hd]))

section
variable (s : State) (a b : Int)

theorem sp_verdicts : (s.verdicts a b).sp = (s.sampled a b).sp := (sp_monitorVerdict ..).trans (sp_monitorVerdict ..)

theorem monA_verdicts : (s.verdicts a b).flag SUP_SAFETY_STAT SUP_SAFETY_STAT_MON_A = s.badA a :=
  (flag_monitorVerdict_other _ _ _ (by decide)).trans (flag_monitorVerdict_self _ _ _ (by decide) rfl)

theorem monB_verdicts : (s.verdicts a b).flag SUP_SAFETY_STAT SUP_SAFETY_STAT_MON_B = s.badB b :=
  flag_monitorVerdict_self _ _ _ (by decide) rfl

theorem squelch_verdicts :
    (s.verdicts a b).flag SUP_SAFETY_STAT SUP_SAFETY_STAT_SQUELCH = s.flag SUP_SAFETY_STAT SUP_SAFETY_STAT_SQUELCH :=
  (flag_monitorVerdict_other _ _ _ (by decide)).trans (flag_monitorVerdict_other _ _ _ (by decide))

theorem gateCloses_verdicts : (s.verdicts a b).gateCloses = (s.badA a || s.badB b || !(s.sp.refOk || s.sp.hoValid)) := by
  rw [State.gateCloses, monA_verdicts, monB_verdicts, sp_verdicts, State.sampled]

theorem touched_verdicts : Touched (· ∈ [SUP_SAFETY_STAT]) s (s.verdicts a b) :=
  (((Touched.refl s).beside (t := s.sampled a b) rfl rfl).trans (touched_monitorVerdict _ _ _)).trans (touched_monitorVerdict _ _ _)

theorem raised_verdicts (hd : s.sp.dormant = false) :
    Safety.raised ((if s.badA a && !s.flag SUP_SAFETY_STAT SUP_SAFETY_STAT_MON_A then [(islSP, 0x010)] else [])
      ++ (if s.badB b && !s.flag SUP_SAFETY_STAT SUP_SAFETY_STAT_MON_B then [(islSP, 0x011)] else [])) s (s.verdicts a b) := by
  have hA := raised_monitorVerdict (s.sampled a b) (f := SUP_SAFETY_STAT_MON_A) 0x010 (s.badA a) hd
  have hsp := sp_monitorVerdict (s.sampled a b) (f := SUP_SAFETY_STAT_MON_A) 0x010 (s.badA a)
  have hB := raised_monitorVerdict ((s.sampled a b).monitorVerdict SUP_SAFETY_STAT_MON_A 0x010 (s.badA a)) (f := SUP_SAFETY_STAT_MON_B)
    0x011 (s.badB b) ((congrArg Sup.dormant hsp).trans hd)
  rw [flag_monitorVerdict_other _ _ _ (by decide)] at hB
  exact raised_trans (raised_of_chan (s := s) rfl hA) hB

end

theorem exec_squelchRelease {s : State} (hl : s.inState [stServing, stLimp] = true) (hr : s.running islTM = true)
    (hA : s.flag SUP_SAFETY_STAT SUP_SAFETY_STAT_MON_A = false) (hB : s.flag SUP_SAFETY_STAT SUP_SAFETY_STAT_MON_B = false)
    (hq : (s.sp.refOk || s.sp.hoValid) = true) (hs : s.flag SUP_SAFETY_STAT SUP_SAFETY_STAT_SQUELCH = true) :
    exec .squelchRelease s = .next ((s.setFlag SUP_SAFETY_STAT SUP_SAFETY_STAT_SQUELCH false).raise islSP 0x013) :=
  congrArg Host.Outcome.next (if_pos (by rw [hl, hr, hA, hB, hq, hs]; rfl))

/-! ### The obligation -/

/-- Settles O4: the rows of SG-5 and of the claim by their one write or event, a trip by the power-fail sequence, and an evaluation by the
two verdicts and the gate that is judged on them. -/
theorem safetyEventsAndSquelch : Obligations.SafetyEventsAndSquelch := by
  unfold Obligations.SafetyEventsAndSquelch
  refine ⟨⟨?warning, ?differs, ?agrees, ?selfTest, ?clear, ?restart, ?trip⟩, ?evaluation, ?release⟩
  case warning =>
    intro s c hd
    exact ⟨_, rfl, raised_raise _ _ _ rfl hd, fun _ _ => reg_raise .., fun _ => byte_raise ..⟩
  case differs =>
    intro s hd h
    exact ⟨_, exec_claimDisagree_of_differs h, by rw [sp_raise], raised_raise _ _ _ rfl hd, fun _ _ => reg_raise .., fun _ => byte_raise ..⟩
  case agrees => exact fun s h => exec_claimDisagree_of_agrees h
  case selfTest =>
    intro s hd h
    exact ⟨_, exec_safetySelfTest_of_passed hd h, rfl, rfl, fun _ _ => rfl, fun _ => rfl, rfl⟩
  case clear =>
    intro s c hc
    have ht := touched_tripCleared s c
    exact ⟨_, exec_sg5TripClear_of_converter hc c, bit_tripCleared s c, fun j hj => bit_tripCleared_ne s c hj,
      life_of_reg (ht.regs _ (by decide)) rfl, ht.regs, sameMem_of_mem ht.mem, rfl⟩
  case restart =>
    intro s c hc hoff hp hr hbit hother
    have ht : Touched (· ∈ [SUP_SAFETY_STAT, SUP_RAIL_STAT]) s ((s.tripCleared c).railsUp { s.sp with converter := true, rstCause := 3 }) :=
      ((touched_tripCleared s c).mono (by simp)).trans ((touched_railsUp _ _).mono (by simp))
    exact ⟨_, exec_sg5TripClear_of_stopped hc hoff hp hr hbit hother, (flag_setFld_ne _ _ _ _ (by decide)).trans (bit_tripCleared s c), rfl, rfl,
      good_railsUp _ _, ht.regs, sameMem_of_mem ht.mem, rfl⟩
  case trip => exact fun s c hc hl hp => sg5Trip_stopping hc hl hp
  case evaluation =>
    intro s a b hd
    have ht := (touched_verdicts s a b).trans (touched_judgeSquelch _)
    have hsp := (sp_judgeSquelch (s.verdicts a b)).trans (sp_verdicts s a b)
    have hA := (flag_judgeSquelch (s.verdicts a b) (by decide)).trans (monA_verdicts s a b)
    have hB := (flag_judgeSquelch (s.verdicts a b) (by decide)).trans (monB_verdicts s a b)
    have hgate := raised_trans (raised_verdicts s a b hd)
      (raised_judgeSquelch (s.verdicts a b) ((congrArg Sup.dormant (sp_verdicts s a b)).trans hd))
    rw [squelch_verdicts] at hgate
    refine ⟨_, exec_monitorEvaluation hd a b, ?_⟩
    rw [hsp, hA, hB]
    refine ⟨rfl, rfl, rfl, rfl, rfl, rfl, ?_, hgate, ht.regs, sameMem_of_mem ht.mem⟩
    rw [squelch_judgeSquelch, squelch_verdicts, gateCloses_verdicts, Bool.or_assoc, Bool.or_assoc, Bool.or_assoc]
  case release =>
    intro s hl hr hA hB hq hs
    have hd := not_dormant_of_running hr
    have ht : Touched (· ∈ [SUP_SAFETY_STAT]) s ((s.setFlag SUP_SAFETY_STAT SUP_SAFETY_STAT_SQUELCH false).raise islSP 0x013) :=
      ((Touched.refl s).setFlag _ _ _ (by simp)).raise _ _ _
    exact ⟨_, exec_squelchRelease hl hr hA hB hq hs, (flag_raise ..).trans (flag_setFlag_self _ _ (by decide) rfl false),
      raised_raise _ _ _ rfl hd, ht.regs, sameMem_of_mem ht.mem⟩

end Sys2Proof.Machine
end

section
/-! PROOF of O6, O7 and O8: each fails of a state that its hypotheses admit, and the model evaluates that state to the refuting outcome. -/

namespace Sys2Proof.Machine

/-! ### A task woken while the module is in Safe (R47, R301, R302) -/

/-- The events on their way in an outcome, by island and number. -/
def eventsLeft : Host.Outcome State Fault Refusal → List (Nat × Nat)
  | .next t => t.chan.map (fun e => (e.isl, e.num))
  | _ => []

/-- The module in Safe with SV0 out of reset beside MX, EH, RT and SP, where the wake map gives event 0x03D to task 1, which is Ready. -/
def safeWithScheduler : State :=
  let s := { State.reset with sp := { Sup.init with powered := true, converter := true, dormant := false } }
  let s := (s.setFld SUP_STATE SUP_STATE_STATE stSafe).setReg SUP_ISLAND_STAT 0xC0000B
  let entry := SVC_WAKE_MAP_TASK_ODD.put (SVC_WAKE_MAP_VALID_ODD.put 0 1) 1
  (s.setTaskState 1 tkReady).setReg (SVC_WAKE_MAP 0x1E) entry

/-- Accepting event 0x03D wakes a task that is Ready already, which raises event 0x44C behind it. -/
theorem eventsLeft_safeHoldExpiry : eventsLeft (exec (.safeHoldExpiry true) safeWithScheduler) = [(islSV 0, 0x44C)] := by
  decide +kernel

/-- Refutes O6: the hold's end leaves nothing on its way only where no copy of the scheduler runs. Safe stops the core pairs (R46), but the
statement takes any state in Safe: with SV0 out of reset, the event that EH accepts wakes a task, and the merged wake raises 0x44C. -/
theorem not_safeHoldKickAndFitting : ¬ Obligations.SafeHoldKickAndFitting := by
  unfold Obligations.SafeHoldKickAndFitting
  rintro ⟨⟨hexpiry, -⟩, -⟩
  obtain ⟨t, ht, -, hchan, -⟩ := hexpiry safeWithScheduler (by decide +kernel) rfl rfl (by decide +kernel)
  have hleft := eventsLeft_safeHoldExpiry
  rw [ht, eventsLeft, hchan] at hleft
  exact absurd hleft (by decide)

/-! ### A core that reads retention while RT is reset (R43, R299, R304) -/

/-- A read of the first word of retention SRAM by SV0, granted and not yet answered. -/
def retentionRead : Txn := ⟨⟨0, 5, false, w32 retentionBase, 1, [], []⟩, 3, 0, [], [], 0, false, 0⟩

/-- The module in Serving with that read in flight: SV0 runs task 3 that sent it, SV1 runs task 2 at address 0x100, and task 1 of higher
priority is Ready for SV1 alone. -/
def retentionReadInFlight : State :=
  let s := (preemptionInFlight.setTaskState 1 tkReady).setFld (SVC_TASK_W1 1) SVC_TASK_W1_AFFINITY 2
  s.setMtx { s.mtx with txns := [(txnKey 0 5, retentionRead)] }

/-- RT's reset answers the read OFFLINE, which aborts task 3; the dispatch that follows lets task 1 preempt task 2, whose context is saved. -/
theorem byteLeft_l5Timeout : byteLeft savedPc (exec (.l5Timeout 22) retentionReadInFlight) = 0x01 := by
  decide +kernel

/-- Refutes O7: the reset of RT by L5 discards its contents, but other bytes need not stay. A core whose read RT leaves unanswered aborts its
task (R299), and the dispatch after it may save the context of another in working SRAM (R304). -/
theorem not_ladderAndIslandReset : ¬ Obligations.LadderAndIslandReset := by
  unfold Obligations.LadderAndIslandReset
  rintro ⟨⟨-, -, -, hrt, -⟩, -⟩
  obtain ⟨t, ht, -, -, -, hother⟩ := hrt retentionReadInFlight (by decide +kernel) (by decide +kernel)
  have hleft : t.byte savedPc = 0x01 := by
    have hb := byteLeft_l5Timeout
    rwa [ht] at hb
  have hbefore : retentionReadInFlight.byte savedPc = 0 := rfl
  rw [hother savedPc (.inl (by decide +kernel)), hbefore] at hleft
  exact absurd hleft (by decide)

/-! ### A pair lost before any state is shown (R25, R42, R291) -/

/-- The life cycle state that an outcome leaves, and bit 0 of LIMP_CAUSES. -/
def lossLeft : Host.Outcome State Fault Refusal → Nat × Bool
  | .next t => (t.life, t.bitAt SUP_STATE 16)
  | _ => (stSafe, true)

/-- SV0 alone out of reset, outside Dormant but with SUP_STATE.STATE at 0, as it stands within the start into Loading. -/
def stateNotShown : State :=
  let s := { State.reset with sp := { Sup.init with powered := true, converter := true, dormant := false } }
  (s.setFld SUP_STATE SUP_STATE_STATE stDormant).setReg SUP_ISLAND_STAT 2

/-- The loss of the only pair is a fault of the Safe class, which enters no state where STATE reads 0, and sets no bit of LIMP_CAUSES. -/
theorem lossLeft_lockstepMismatch : lossLeft (exec (.lockstepMismatch 0 0) stateNotShown) = (stDormant, false) := by
  decide +kernel

/-- Refutes O8: a mismatch of the last pair sets no Limp cause, since Safe is to be entered, and Safe is entered from every state but Dormant.
The statement asks only that the pair is in, which a state with SUP_STATE.STATE at 0 satisfies too. -/
theorem not_pairLossAndReturn : ¬ Obligations.PairLossAndReturn := by
  unfold Obligations.PairLossAndReturn
  rintro ⟨hmismatch, -⟩
  obtain ⟨t, ht, -, -, -, hlost, -⟩ := hmismatch stateNotShown 0 0 (by decide +kernel) (by decide +kernel)
  have hleft := lossLeft_lockstepMismatch
  rw [ht, lossLeft, Prod.mk.injEq] at hleft
  obtain ⟨hlife, hbit⟩ := hleft
  rcases hlost with hsafe | hset
  · exact absurd (hsafe.symm.trans hlife) (by decide)
  · have hfalse : t.bitAt SUP_STATE (16 + ((0 : Fin 2) : Nat)) = false := hbit
    rw [hset] at hfalse
    cases hfalse

end Sys2Proof.Machine
end

section
/-! SUPPORT. A service's command that reaches its register (R92, R98, R410). -/

namespace Sys2Proof.Machine

theorem movePointer_eq (s : State) (tgt port : Nat) : ∃ m : Matrix, s.movePointer tgt port = s.setMtx m ∧ m.resp = s.mtx.resp := by
  unfold State.movePointer
  dsimp only
  split
  · exact ⟨s.mtx, rfl, rfl⟩
  · exact ⟨_, rfl, rfl⟩

theorem Added.setReg {W : Nat → Prop} {r s : State} (h : Added W r s) (a : Nat) (w : BitVec 32) (ha : W a) : Added W r (s.setReg a w) :=
  ⟨h.toFrame.setReg a w ha, h.chan, h.mem⟩

theorem Added.setTm {W : Nat → Prop} {r s : State} (h : Added W r s) (x : Timing) : Added W r { s with tm := x } :=
  ⟨⟨h.regs, h.sp, h.ld⟩, h.chan, h.mem⟩

/-- A granted command of a service acts at a running island on the state that stands, but for the matrix, and is answered OKAY where the
command leaves the answer alone. -/
theorem commandWrite_granted {s v : State} {q : Fin 2} (h : Safety.granted (.service q) s v) {isl : Nat} (hi : v.running isl = true) (mnt : Bool)
    (addr : Nat) {f : State → State} (hf : ∀ m : Matrix, m.resp = rOkay → (f (v.setMtx m)).mtx.resp = rOkay) :
    ∃ m : Matrix, m.resp = rOkay
      ∧ (s.settleFor (.service q)).commandWrite (.service q) true mnt isl addr f = f (v.setMtx m) := by
  obtain ⟨hv, hm, hmay⟩ := h
  obtain ⟨m, hmove, hresp⟩ := movePointer_eq (v.respond rOkay) 5 (writerPort (.service q))
  refine ⟨m, hresp, ?_⟩
  have hm' : (v.respond rOkay).running islMX = true := hm
  have hi' : (v.respond rOkay).running isl = true := hi
  rw [← hv, State.commandWrite, if_pos hmay, State.judgedWrite]
  rw [hm', hi', if_neg (by simp), if_pos rfl, hmove]
  exact logAccess_okay _ _ _ _ _ (hf m hresp)

end Sys2Proof.Machine
end

section
/-! PROOF of O26: automatic laser shutdown, its manual pulses and SP's own drive of TX_DISABLE. -/

namespace Sys2Proof.Machine

/-! ### The laser state machine enters a state (R116, R136) -/

section
variable (s : State) (n st : Nat)

theorem frmStat_ne_lineStat : LINE_FRM_STAT n ≠ LINE_STAT n := by unfold LINE_FRM_STAT LINE_STAT; omega

theorem lineCfg_ne_frmStat : LINE_FRM_STAT n ≠ LINE_CFG n := by unfold LINE_FRM_STAT LINE_CFG; omega

theorem added_setAls : Added (· ∈ [LINE_FRM_STAT n, LINE_STAT n]) s (s.setAls n st) :=
  ((Added.refl s).setFld (LINE_FRM_STAT n) LINE_FRM_STAT_ALS st (by simp)).setFlag _ _ _ (by simp)

theorem chan_setAls : (s.setAls n st).chan = s.chan := rfl

theorem als_setAls : (s.setAls n st).als n = st % 8 :=
  (fld_setFld_ne _ _ _ _ (frmStat_ne_lineStat n).symm).trans (fld_setFld_self s _ (by decide) st)

/-- The line port's own drive of TX_DISABLE once its laser state is entered. -/
theorem txdis_setAls : (s.setAls n st).lstat n LINE_STAT_TXDIS
    = (!s.flag (LINE_CFG n) LINE_CFG_EN || !s.live || (s.line n).settling || decide (st % 8 = 1)) := by
  have hf : Frame (· = LINE_FRM_STAT n) s (s.setFld (LINE_FRM_STAT n) LINE_FRM_STAT_ALS st) := (Frame.refl s).setFld _ _ _ rfl
  have hstate : ¬ SUP_STATE = LINE_FRM_STAT n := by unfold SUP_STATE LINE_FRM_STAT; omega
  have h : (s.setAls n st).lstat n LINE_STAT_TXDIS = _ := flag_setFlag_self _ _ (by decide) rfl _
  rw [h, hf.flag (lineCfg_ne_frmStat n).symm, hf.inState hstate, fld_setFld_self s _ (by decide) st]
  rfl

end

section
variable {s : State} {n : Nat}

theorem enabled_of_lineUp (h : s.lineUp n = true) : s.flag (LINE_CFG n) LINE_CFG_EN = true := (Bool.and_eq_true_iff.mp h).2

theorem not_dormant_of_lineUp (h : s.lineUp n = true) : s.sp.dormant = false := not_dormant_of_running (Bool.and_eq_true_iff.mp h).1

/-- An event of an enabled port. -/
theorem raised_lineEvent {r : State} (hc : s.chan = r.chan) (hd : s.sp.dormant = false) (he : s.flag (LINE_CFG n) LINE_CFG_EN = true) (k : Nat) :
    Safety.raised (Safety.lineEvents n [k]) r (s.lineEvent n k) := by
  rw [State.lineEvent, if_pos (.inr he)]
  exact raised_raise _ _ _ hc hd

theorem Added.lineEvent {W : Nat → Prop} {r : State} (h : Added W r s) (k : Nat) : Added W r (s.lineEvent n k) := (h.raise _ _ _).ite h

theorem flag_lineEvent (k a : Nat) (f : Fld) : (s.lineEvent n k).flag a f = s.flag a f := by
  unfold State.lineEvent
  split
  · exact flag_raise ..
  · rfl

theorem fld_lineEvent (k a : Nat) (f : Fld) : (s.lineEvent n k).fld a f = s.fld a f := by
  unfold State.lineEvent
  split
  · exact fld_raise ..
  · rfl

theorem reg_lineEvent (k a : Nat) : (s.lineEvent n k).reg a = s.reg a := by
  unfold State.lineEvent
  split
  · exact reg_raise ..
  · rfl

end

/-- The port's laser has entered `st` from the state `u`, with event `k`. -/
structure LaserMoved (n st k : Nat) (u t : State) : Prop where
  als : t.als n = st
  txdis : t.lstat n LINE_STAT_TXDIS = (!u.live || (u.line n).settling || decide (st = 1))
  raised : Safety.raised (Safety.lineEvents n [k]) u t
  added : Added (· ∈ [LINE_FRM_STAT n, LINE_STAT n]) u t

theorem laserMoved {u : State} {n st : Nat} (h : u.lineUp n = true) (hst : st < 8) (k : Nat) :
    LaserMoved n st k u ((u.setAls n st).lineEvent n k) where
  als := (fld_lineEvent ..).trans ((als_setAls u n st).trans (Nat.mod_eq_of_lt hst))
  txdis := by
    rw [State.lstat, flag_lineEvent, ← State.lstat, txdis_setAls, enabled_of_lineUp h, Nat.mod_eq_of_lt hst]
    rfl
  raised := by
    have ha := added_setAls u n st
    have hcfg : ¬ LINE_CFG n ∈ [LINE_FRM_STAT n, LINE_STAT n] := by simp [LINE_CFG, LINE_FRM_STAT, LINE_STAT]
    exact raised_lineEvent (chan_setAls u n st) (by rw [ha.sp, not_dormant_of_lineUp h]) ((ha.flag hcfg _).trans (enabled_of_lineUp h)) k
  added := (added_setAls u n st).lineEvent k

/-! ### The end of a pulse (R136, R140) -/

/-- What a pulse's end reports: the RESULT of a manual one. -/
def State.pulseEnded (s : State) (n r : Nat) : State :=
  if s.als n = alsManual then s.setFld (LINE_ALS_CMD n) LINE_ALS_CMD_RESULT r else s

section
variable (s : State) (n r : Nat)

theorem added_pulseEnded : Added (· ∈ [LINE_ALS_CMD n]) s (s.pulseEnded n r) :=
  ((Added.refl s).setFld _ _ _ (by simp)).ite (.refl s)

theorem chan_pulseEnded : (s.pulseEnded n r).chan = s.chan := by
  unfold State.pulseEnded
  split <;> rfl

theorem lines_pulseEnded : (s.pulseEnded n r).lines = s.lines := by
  unfold State.pulseEnded
  split <;> rfl

theorem result_pulseEnded (h : s.als n = alsManual) : (s.pulseEnded n r).fld (LINE_ALS_CMD n) LINE_ALS_CMD_RESULT = r % 256 := by
  rw [State.pulseEnded, if_pos h, fld_setFld_self _ _ (by decide)]
  rfl

theorem lineUp_pulseEnded (h : s.lineUp n = true) : (s.pulseEnded n r).lineUp n = true := by
  have ha := added_pulseEnded s n r
  rw [State.lineUp, ha.running (by simp [SUP_ISLAND_STAT, LINE_ALS_CMD]; omega), ha.flag (by simp [LINE_CFG, LINE_ALS_CMD])]
  exact h

theorem live_pulseEnded : (s.pulseEnded n r).live = s.live :=
  (added_pulseEnded s n r).inState (by simp [SUP_STATE, LINE_ALS_CMD]; omega) _

end

/-! ### The rows (R136) -/

section
variable {s : State} {n : Fin 8}

theorem exec_alsDeactivation (hup : s.lineUp n = true) (hen : s.flag (LINE_CFG n) LINE_CFG_ALS_EN = true) (hlos : s.lstat n LINE_STAT_LOS = true)
    (hon : s.als n = alsOn) : exec (.alsDeactivation n) s = .next ((s.setAls n alsOff).lineEvent n 0x1A) :=
  congrArg Host.Outcome.next (if_pos (by simp [hup, hen, hlos, hon]))

theorem exec_alsRestartPulse (hup : s.lineUp n = true) (hoff : s.als n = alsOff) :
    exec (.alsRestartPulse n) s = .next ((s.setAls n alsRestart).lineEvent n 0x1B) :=
  congrArg Host.Outcome.next (if_pos (by simp [hup, hoff]))

theorem exec_alsPulseEnd (hup : s.lineUp n = true) (hlos : s.lstat n LINE_STAT_LOS = true) (h : s.als n = alsRestart ∨ s.als n = alsManual) :
    exec (.alsPulseEnd n) s = .next ((s.pulseEnded n 3).setAls n alsOff) :=
  congrArg Host.Outcome.next (if_pos (by simp [hup, hlos, h]))

theorem exec_alsLosClear (hup : s.lineUp n = true) (hlos : s.lstat n LINE_STAT_LOS = false) (h : s.als n ≠ alsOn) :
    exec (.alsLosClear n) s = .next (((s.pulseEnded n 2).setAls n alsOn).lineEvent n 0x1C) :=
  congrArg Host.Outcome.next (if_pos (by simp [hup, hlos, h]))

/-- RESULT of the last command stands while the laser moves. -/
theorem result_added {u t : State} (h : Added (· ∈ [LINE_FRM_STAT n, LINE_STAT n]) u t) :
    t.fld (LINE_ALS_CMD n) LINE_ALS_CMD_RESULT = u.fld (LINE_ALS_CMD n) LINE_ALS_CMD_RESULT :=
  h.fld (by simp [LINE_ALS_CMD, LINE_FRM_STAT, LINE_STAT]) _

theorem added_pulse {s u t : State} (h : Added (· ∈ [LINE_ALS_CMD n]) s u) (g : Added (· ∈ [LINE_FRM_STAT n, LINE_STAT n]) u t) :
    Added (· ∈ [LINE_FRM_STAT n, LINE_STAT n, LINE_ALS_CMD n]) s t :=
  (h.mono (by simp)).trans (g.mono (by simp +contextual [or_imp]))

theorem alsPulseEnd_spec (hup : s.lineUp n = true) (hlos : s.lstat n LINE_STAT_LOS = true) (h : s.als n = alsRestart ∨ s.als n = alsManual) :
    ∃ t, exec (.alsPulseEnd n) s = .next t ∧ t.als n = alsOff ∧ t.lstat n LINE_STAT_TXDIS = true
      ∧ (s.als n = alsManual → t.fld (LINE_ALS_CMD n) LINE_ALS_CMD_RESULT = 3)
      ∧ Safety.onlyRegs [LINE_FRM_STAT n, LINE_STAT n, LINE_ALS_CMD n] s t ∧ Safety.sameMem s t ∧ t.chan = s.chan := by
  have hoff := added_setAls (s.pulseEnded n 3) n alsOff
  have hadded := added_pulse (added_pulseEnded s n 3) hoff
  refine ⟨_, exec_alsPulseEnd hup hlos h, als_setAls _ _ _, ?_, fun hman => ?_, hadded.regs, sameMem_of_mem hadded.mem, chan_pulseEnded s n 3⟩
  · rw [txdis_setAls]
    exact Bool.or_true _
  · rw [result_added hoff, result_pulseEnded s n 3 hman]

theorem alsLosClear_spec (hup : s.lineUp n = true) (hlos : s.lstat n LINE_STAT_LOS = false) (h : s.als n ≠ alsOn) :
    ∃ t, exec (.alsLosClear n) s = .next t ∧ t.als n = alsOn ∧ t.lstat n LINE_STAT_TXDIS = (!s.live || (s.line n).settling)
      ∧ (s.als n = alsManual → t.fld (LINE_ALS_CMD n) LINE_ALS_CMD_RESULT = 2)
      ∧ Safety.raised (Safety.lineEvents n [0x1C]) s t
      ∧ Safety.onlyRegs [LINE_FRM_STAT n, LINE_STAT n, LINE_ALS_CMD n] s t ∧ Safety.sameMem s t := by
  have hmoved := laserMoved (lineUp_pulseEnded s n 2 hup) (st := alsOn) (by decide) 0x1C
  have hadded := added_pulse (added_pulseEnded s n 2) hmoved.added
  refine ⟨_, exec_alsLosClear hup hlos h, hmoved.als, ?_, fun hman => ?_, raised_of_chan (chan_pulseEnded s n 2) hmoved.raised, hadded.regs,
    sameMem_of_mem hadded.mem⟩
  · rw [hmoved.txdis, live_pulseEnded, State.line, lines_pulseEnded, ← State.line]
    exact Bool.or_false _
  · rw [result_added hmoved.added, result_pulseEnded s n 2 hman]

end

/-! ### Manual commands (R140) -/

section
variable {x : State} {n cmd token : Nat} (htok : x.fld (LINE_ALS_CMD n) LINE_ALS_CMD_TOKEN ≠ token)
include htok

theorem alsCommand_of_off (hup : x.lineUp n = true) (hoff : x.als n = alsOff) (hcmd : cmd = 1 ∨ cmd = 2) :
    x.alsCommand n cmd token = ((x.setReg (LINE_ALS_CMD n) (w32 (token + 256 * cmd + 65536))).setAls n alsManual).lineEvent n 0x1B := by
  unfold State.alsCommand
  rw [if_neg (by simp [State.tokenIs, htok]), if_pos (by simp [hup, hoff, hcmd])]

theorem alsCommand_of_not_off (hoff : x.als n ≠ alsOff) :
    x.alsCommand n cmd token = x.setFld (LINE_ALS_CMD n) LINE_ALS_CMD_RESULT 0x04 := by
  unfold State.alsCommand
  rw [if_neg (by simp [State.tokenIs, htok]), if_neg (by simp [hoff])]

end

/-- What a manual command leaves of the state `v` that it reached. -/
structure AlsCommanded (n cmd token : Nat) (v t : State) : Prop where
  okay : t.mtx.resp = rOkay
  mem : t.mem = v.mem
  accepted : v.als n = alsOff → t.als n = alsManual ∧ t.reg (LINE_ALS_CMD n) = BitVec.ofNat 32 (token + 256 * cmd + 65536)
    ∧ Safety.raised (Safety.lineEvents n [0x1B]) v t ∧ Safety.onlyRegs [LINE_FRM_STAT n, LINE_STAT n, LINE_ALS_CMD n] v t
  refused : v.als n ≠ alsOff → t.fld (LINE_ALS_CMD n) LINE_ALS_CMD_RESULT = 4 ∧ t.chan = v.chan ∧ Safety.onlyRegs [LINE_ALS_CMD n] v t

theorem alsCommanded {v : State} {m : Matrix} {n : Fin 8} {cmd token : Nat} (hm : m.resp = rOkay) (hup : v.lineUp n = true)
    (htok : v.fld (LINE_ALS_CMD n) LINE_ALS_CMD_TOKEN ≠ token) (hcmd : cmd = 1 ∨ cmd = 2) :
    AlsCommanded n cmd token v ((v.setMtx m).alsCommand n cmd token) := by
  by_cases hoff : v.als n = alsOff
  · set u := (v.setMtx m).setReg (LINE_ALS_CMD n) (w32 (token + 256 * cmd + 65536)) with hu
    have hset : Added (· ∈ [LINE_ALS_CMD n]) (v.setMtx m) u := (Added.refl (v.setMtx m)).setReg _ _ (by simp)
    have hup' : u.lineUp n = true := by
      rw [State.lineUp, hset.running (by simp [SUP_ISLAND_STAT, LINE_ALS_CMD]; omega), hset.flag (by simp [LINE_CFG, LINE_ALS_CMD])]
      exact hup
    have hmoved := laserMoved hup' (st := alsManual) (by decide) 0x1B
    have hadded := added_pulse hset hmoved.added
    have hchan : u.chan = v.chan := by rw [hu, chan_setReg, chan_setMtx]
    have hword : u.reg (LINE_ALS_CMD n) = BitVec.ofNat 32 (token + 256 * cmd + 65536) := reg_setReg_self _ _ _
    rw [alsCommand_of_off (x := v.setMtx m) htok hup hoff hcmd, ← hu]
    refine ⟨?_, hadded.mem, fun _ => ⟨hmoved.als, ?_, raised_of_chan hchan hmoved.raised, hadded.regs⟩, fun h => absurd hoff h⟩
    · unfold State.lineEvent
      split
      · exact (mtx_raise ..).symm ▸ hm
      · exact hm
    · rw [hmoved.added.regs _ (by simp [LINE_ALS_CMD, LINE_FRM_STAT, LINE_STAT]), hword]
  · rw [alsCommand_of_not_off (x := v.setMtx m) htok hoff]
    refine ⟨hm, rfl, fun h => absurd h hoff, fun _ => ⟨fld_setFld_self (v.setMtx m) _ (by decide) 4, rfl, fun a ha => ?_⟩⟩
    exact reg_setFld_ne (v.setMtx m) _ _ (by simpa [eq_comm] using ha)

/-- The two rows are the same command with its CMD. -/
theorem exec_alsManual {s v : State} {n : Fin 8} {q : Fin 2} {token : Byte} {i : Instr} {cmd : Nat} (hg : Safety.granted (.service q) s v)
    (hup : v.lineUp n = true) (htok : v.fld (LINE_ALS_CMD n) LINE_ALS_CMD_TOKEN ≠ token.toNat)
    (hi : (i = .alsManualRestart n (.service q) token ∧ cmd = 1) ∨ (i = .alsManualTest n (.service q) token ∧ cmd = 2)) :
    ∃ t, exec i s = .next t ∧ AlsCommanded n cmd token.toNat v t := by
  have hcmd : cmd = 1 ∨ cmd = 2 := hi.imp And.right And.right
  obtain ⟨m, hm, hwrite⟩ := commandWrite_granted hg (isl := islLP n) (Bool.and_eq_true_iff.mp hup).1 true (LINE_ALS_CMD n)
    (f := fun s => s.alsCommand n cmd token.toNat) fun m hm => (alsCommanded hm hup htok hcmd).okay
  refine ⟨_, ?_, alsCommanded hm hup htok hcmd⟩
  obtain ⟨rfl, rfl⟩ | ⟨rfl, rfl⟩ := hi
  · exact congrArg Host.Outcome.next hwrite
  · exact congrArg Host.Outcome.next hwrite

/-! ### SP's own drive (R36, R37) -/

/-- SP holds the LOS of an enabled port. -/
def State.spHolds (s : State) (n : Nat) (held : Bool) : Bool := s.bitAt SUP_ALS_CFG n && held

/-- SP asserts the port's TX_DISABLE ball. -/
def State.spDrives (s : State) (n : Nat) (held : Bool) : Bool :=
  s.spHolds n held || (s.bitAt SUP_ALS_CFG n && (s.sp.modAbs.getLsbD n || !s.running (islLP n))) || decide (s.life = stDormant)
    || decide (s.life = stSafe) || decide (s.sp.powerFail ≠ .idle)

/-- The drive shown in SP's safety status. -/
def State.spDriven (s : State) (n : Nat) (held : Bool) : State := s.setBitAt SUP_SAFETY_STAT (8 + n) (s.spDrives n held)

section
variable (s : State) (n : Fin 8) (held : Bool)

theorem touched_spDriven : Touched (· ∈ [SUP_SAFETY_STAT]) s (s.spDriven n held) := (Touched.refl s).setFlag _ _ _ (by simp)

theorem exec_spLaserShutdown (hp : s.sp.powered = true) : exec (.spLaserShutdown n held) s = .next
    (if s.spHolds n held && !s.bitAt SUP_SAFETY_STAT (8 + n.val) && !s.lstat n LINE_STAT_TXDIS
      then (s.spDriven n held).raise islSP 0x018 [w32 n] else s.spDriven n held) := by
  have hne : SUP_SAFETY_STAT ≠ LINE_STAT n := by unfold SUP_SAFETY_STAT LINE_STAT; omega
  have hstat : (s.spDriven n held).lstat n LINE_STAT_TXDIS = s.lstat n LINE_STAT_TXDIS := flag_setFlag_ne s _ _ _ hne
  rw [← hstat]
  exact congrArg Host.Outcome.next (if_neg (by simp [hp]))

theorem bit_spDriven : (s.spDriven n held).bitAt SUP_SAFETY_STAT (8 + n.val) = s.spDrives n held :=
  flag_setFlag_self s _ (f := ⟨8 + n.val, 1⟩) (by simp only; omega) rfl _

theorem spDrives_eq : s.spDrives n held
    = ((s.bitAt SUP_ALS_CFG n && (held || s.sp.modAbs.getLsbD n || !s.running (islLP n)))
      || decide (s.life = stDormant) || decide (s.life = stSafe) || decide (s.sp.powerFail ≠ .idle)) := by
  rw [State.spDrives, State.spHolds, ← Bool.and_or_distrib_left, ← Bool.or_assoc]

end

/-! ### The obligation -/

/-- Settles O26: each row of the port moves the laser state machine, the manual commands among them, and SP's drive is one bit that it
judges. -/
theorem laserShutdown : Obligations.LaserShutdown := by
  unfold Obligations.LaserShutdown
  refine ⟨fun s n hup => ⟨?deactivation, ?restart, fun hlos h => alsPulseEnd_spec hup hlos h, fun hlos h => alsLosClear_spec hup hlos h⟩,
    ?manual, ?supervisor⟩
  case deactivation =>
    intro hen hlos hon
    have h := laserMoved hup (st := alsOff) (by decide) 0x1A
    exact ⟨_, exec_alsDeactivation hup hen hlos hon, h.als, h.txdis.trans (Bool.or_true _), h.raised, h.added.regs, sameMem_of_mem h.added.mem⟩
  case restart =>
    intro hoff
    have h := laserMoved hup (st := alsRestart) (by decide) 0x1B
    exact ⟨_, exec_alsRestartPulse hup hoff, h.als, h.txdis.trans (Bool.or_false _), h.raised, h.added.regs, sameMem_of_mem h.added.mem⟩
  case manual =>
    intro s v n q token i cmd hg hup htok hi
    obtain ⟨t, ht, h⟩ := exec_alsManual hg hup htok hi
    exact ⟨t, ht, h.okay, sameMem_of_mem h.mem, h.accepted, h.refused⟩
  case supervisor =>
    intro s n held hp
    have ht := touched_spDriven s n held
    have hbit := (bit_spDriven s n held).trans (spDrives_eq s n held)
    refine ⟨_, exec_spLaserShutdown s n held hp, ((ht.raise _ _ _).ite ht).regs, sameMem_of_mem ((ht.raise _ _ _).ite ht).mem, ?_, ?_, ?_⟩
    · rw [← hbit]
      split
      · exact bitAt_raise ..
      · rfl
    · rintro rfl
      rw [if_neg (by simp [State.spHolds])]
      rfl
    · rintro hd hcfg rfl hwas htx
      rw [if_pos (by simp [State.spHolds, hcfg, hwas, htx])]
      exact raised_raise _ _ _ rfl hd

end Sys2Proof.Machine
end

section
/-! SUPPORT. What follows from the DPLLs' states (R241, R242, R250), and a DPLL entering a state (R235, R236). -/

namespace Sys2Proof.Machine

/-! ### What follows from the states -/

/-- REF_OK and CLOCK_QL as the state of DPLL0 gives them (R241). -/
def State.qualityShown (s : State) : State :=
  let s := s.setFlag TIM_STAT TIM_STAT_REF_OK (decide (s.dpState 0 = dpLocked))
  s.setFld TIM_STAT TIM_STAT_CLOCK_QL s.clockQl

/-- The quality stop of the outputs, with its event where it changes (R241). -/
def State.stopJudged (s : State) : State :=
  let stop := decide (s.fld TIM_OUT_CFG TIM_OUT_CFG_QL_MIN < s.clockQl)
  if stop = s.tm.qualityStop then s else ({ s with tm := { s.tm with qualityStop := stop } }).raise islTM 0x415 [w32 0, s.reg TIM_STAT]

/-- HO_VALID by its rule, with its event where it changes (R250). -/
def State.hoJudged (s : State) : State :=
  let ho := s.hoValid
  if s.flag TIM_STAT TIM_STAT_HO_VALID = ho then s
  else
    let s := s.setFlag TIM_STAT TIM_STAT_HO_VALID ho
    s.raise islTM 0x40C [w32 0, s.reg TIM_STAT]

/-- Sample clock validity, with its event where it changes (R242). -/
def State.clkJudged (s : State) : State :=
  let ok := s.flag TIM_STAT TIM_STAT_REF_OK || s.flag TIM_STAT TIM_STAT_HO_VALID || s.flag TIM_CFG TIM_CFG_FREERUN_TRAFFIC
  if ok = s.tm.clkOk then s else ({ s with tm := { s.tm with clkOk := ok } }).raise islTM 0x418 [w32 0, s.reg TIM_STAT]

theorem timSettle_eq (s : State) : s.timSettle = s.qualityShown.stopJudged.hoJudged.clkJudged := rfl

/-- No register changes, and of TM's own state at most the quality stop and the sample clock's validity as last judged. -/
structure Judged (r s : State) : Prop extends Added (fun _ => False) r s where
  tm : ∃ stop ok, s.tm = { r.tm with qualityStop := stop, clkOk := ok }

theorem judged_stopJudged (s : State) : Judged s s.stopJudged := by
  unfold State.stopJudged
  dsimp only
  split
  · exact ⟨.refl s, _, _, rfl⟩
  · exact ⟨((Added.refl s).setTm _).raise _ _ _, _, _, tm_raise ..⟩

theorem judged_clkJudged (s : State) : Judged s s.clkJudged := by
  unfold State.clkJudged
  dsimp only
  split
  · exact ⟨.refl s, _, _, rfl⟩
  · exact ⟨((Added.refl s).setTm _).raise _ _ _, _, _, tm_raise ..⟩

section
variable (s : State)

theorem clockQl_lt : s.clockQl < 16 := by
  unfold State.clockQl
  split
  · exact Nat.mod_lt _ (by decide)
  · exact Nat.mod_lt _ (by decide)

theorem refOk_qualityShown : s.qualityShown.flag TIM_STAT TIM_STAT_REF_OK = decide (s.dpState 0 = dpLocked) :=
  (flag_setFld_other _ _ (by decide) _).trans (flag_setFlag_self s _ (by decide) rfl _)

/-- The fields of TIM_STAT that the quality is not shown in. -/
theorem fld_qualityShown {f : Fld} (hf : f.lo + f.len ≤ 16 ∨ 17 ≤ f.lo ∧ f.lo + f.len ≤ 20) :
    s.qualityShown.fld TIM_STAT f = s.fld TIM_STAT f :=
  (fld_setFld_other _ _ (.inl (by show _ ≤ 20; omega)) _).trans (fld_setFld_other s _ (by show _ ≤ 16 ∨ 17 ≤ _; omega) _)

theorem flag_qualityShown {f : Fld} (hf : f.lo + f.len ≤ 16 ∨ 17 ≤ f.lo ∧ f.lo + f.len ≤ 20) :
    s.qualityShown.flag TIM_STAT f = s.flag TIM_STAT f := by
  rw [State.flag, fld_qualityShown s hf, State.flag]

theorem added_qualityShown : Added (· ∈ [TIM_STAT]) s s.qualityShown :=
  ((Added.refl s).setFlag TIM_STAT _ _ (by simp)).setFld TIM_STAT _ _ (by simp)

theorem added_hoJudged : Added (· ∈ [TIM_STAT]) s s.hoJudged :=
  (Added.refl s).ite (((Added.refl s).setFlag TIM_STAT _ _ (by simp)).raise _ _ _)

theorem hoValid_hoJudged : s.hoJudged.flag TIM_STAT TIM_STAT_HO_VALID = s.hoValid := by
  unfold State.hoJudged
  dsimp only
  split
  · assumption
  · rw [flag_raise, flag_setFlag_self _ _ (by decide) rfl]

theorem fld_hoJudged {f : Fld} (hf : f.lo + f.len ≤ 17 ∨ 18 ≤ f.lo) : s.hoJudged.fld TIM_STAT f = s.fld TIM_STAT f := by
  unfold State.hoJudged
  dsimp only
  split
  · rfl
  · rw [fld_raise]
    exact fld_setFld_other s _ hf _

theorem tm_hoJudged : s.hoJudged.tm = s.tm := by
  unfold State.hoJudged
  dsimp only
  split
  · rfl
  · rw [tm_raise, tm_setFlag]

end

/-- TIM_STAT after the settling of the states `s`. -/
structure Settled (s t : State) : Prop extends Added (· ∈ [TIM_STAT]) s t where
  refOk : t.flag TIM_STAT TIM_STAT_REF_OK = decide (s.dpState 0 = dpLocked)
  quality : t.fld TIM_STAT TIM_STAT_CLOCK_QL = s.clockQl
  hoValid : t.flag TIM_STAT TIM_STAT_HO_VALID = s.hoValid
  others : ∀ f : Fld, f.lo + f.len ≤ 16 ∨ 18 ≤ f.lo ∧ f.lo + f.len ≤ 20 → t.fld TIM_STAT f = s.fld TIM_STAT f
  tm : ∃ stop ok, t.tm = { s.tm with qualityStop := stop, clkOk := ok }

theorem dpStat_ne_timStat (d : Nat) : ¬ TIM_DPLL_STAT d ∈ [TIM_STAT] := by
  simp only [List.mem_singleton, TIM_DPLL_STAT, TIM_STAT]
  omega

theorem refQl_ne_timStat (i : Nat) : ¬ TIM_REF_QL i ∈ [TIM_STAT] := by
  simp only [List.mem_singleton, TIM_REF_QL, TIM_STAT]
  omega

/-- CLOCK_QL rests on the states, the selected reference and the settings. -/
theorem clockQl_of_added {s t : State} (h : Added (· ∈ [TIM_STAT]) s t) (hsel : t.sel 0 = s.sel 0) : t.clockQl = s.clockQl := by
  rw [State.clockQl, State.dpState, h.fld (dpStat_ne_timStat 0), hsel, State.refQl, h.fld (refQl_ne_timStat _), h.fld (by decide)]
  rfl

theorem hoValid_of_added {s t : State} (h : Added (· ∈ [TIM_STAT]) s t)
    (hfault : t.flag TIM_STAT TIM_STAT_OCXO_FAULT = s.flag TIM_STAT TIM_STAT_OCXO_FAULT)
    (htm : ∃ stop ok, t.tm = { s.tm with qualityStop := stop, clkOk := ok }) : t.hoValid = s.hoValid := by
  obtain ⟨stop, ok, htm⟩ := htm
  rw [State.hoValid, State.dpState, h.fld (dpStat_ne_timStat 0), hfault, h.flag (by decide), htm]
  rfl

theorem settled_timSettle (s : State) : Settled s s.timSettle := by
  rw [timSettle_eq]
  have hq := added_qualityShown s
  have hstop := judged_stopJudged s.qualityShown
  have hho := added_hoJudged s.qualityShown.stopJudged
  have hclk := judged_clkJudged s.qualityShown.stopJudged.hoJudged
  have hnone {r t : State} (h : Added (fun _ => False) r t) : Added (· ∈ [TIM_STAT]) r t := h.mono fun _ => False.elim
  have htm : ∃ stop ok, s.qualityShown.stopJudged.tm = { s.tm with qualityStop := stop, clkOk := ok } := hstop.tm
  refine ⟨((hq.trans (hnone hstop.toAdded)).trans hho).trans (hnone hclk.toAdded), ?refOk, ?quality, ?hoValid, ?others, ?tm⟩
  case refOk =>
    rw [hclk.flag id, State.flag, fld_hoJudged _ (by decide), ← State.flag, hstop.flag id, refOk_qualityShown]
  case quality =>
    rw [hclk.fld id, fld_hoJudged _ (by decide), hstop.fld id]
    refine (fld_setFld_self (s.setFlag TIM_STAT TIM_STAT_REF_OK (decide (s.dpState 0 = dpLocked))) TIM_STAT (by decide) _).trans ?_
    rw [clockQl_of_added (s := s) ((Added.refl s).setFlag TIM_STAT _ _ (by simp)) (fld_setFld_other s _ (by decide) _)]
    exact Nat.mod_eq_of_lt (clockQl_lt s)
  case hoValid =>
    rw [hclk.flag id, hoValid_hoJudged]
    refine hoValid_of_added (hq.trans (hnone hstop.toAdded)) ?_ htm
    rw [hstop.flag id, flag_qualityShown s (by decide)]
  case others =>
    intro f hf
    rw [hclk.fld id, fld_hoJudged _ (by omega), hstop.fld id, fld_qualityShown s (by omega)]
  case tm =>
    obtain ⟨stop, ok, hs⟩ := htm
    obtain ⟨stop', ok', hc⟩ := hclk.tm
    exact ⟨stop', ok', by rw [hc, tm_hoJudged, hs]⟩

/-- Settling keeps what the registers say of a DPLL. -/
theorem Settled.dpState {s t : State} (h : Settled s t) (d : Nat) : t.dpState d = s.dpState d := h.fld (dpStat_ne_timStat d) _

theorem Settled.flag_other {s t : State} (h : Settled s t) {f : Fld} (hf : f.lo + f.len ≤ 16 ∨ 18 ≤ f.lo ∧ f.lo + f.len ≤ 20) :
    t.flag TIM_STAT f = s.flag TIM_STAT f := by
  rw [State.flag, h.others f hf, State.flag]

/-- What TM holds apart from the two things that settling judges. -/
theorem Settled.keeps {β : Type} {s t : State} (h : Settled s t) (g : Timing → β)
    (hg : ∀ x a b, g { x with qualityStop := a, clkOk := b } = g x) :
    g t.tm = g s.tm := by
  obtain ⟨a, b, htm⟩ := h.tm
  rw [htm, hg]

/-! ### A DPLL stops using its reference (R235) -/

section
variable (s : State) (d : Nat) (b : Bool)

theorem added_useRef : Added (· ∈ [TIM_STAT]) s (s.useRef d b) := by
  have h := (Added.refl s).setFlag (W := (· ∈ [TIM_STAT])) TIM_STAT (selValidFld d) b (by simp)
  exact h.ite ((h.setTm _).ite ((h.setTm _).ite h))

theorem flag_useRef (f : Fld) : (s.useRef d b).flag TIM_STAT f = (s.setFlag TIM_STAT (selValidFld d) b).flag TIM_STAT f := by
  unfold State.useRef
  dsimp only
  split
  · rfl
  · split
    · rfl
    · split <;> rfl

theorem selValidFld_ok : (selValidFld d).lo + (selValidFld d).len ≤ 32 ∧ (selValidFld d).len = 1 := by
  unfold selValidFld
  split <;> decide

theorem selValid_useRef : (s.useRef d b).selValid d = b := by
  rw [State.selValid, flag_useRef, flag_setFlag_self _ _ (selValidFld_ok d).1 (selValidFld_ok d).2]

end

/-! ### A DPLL enters a state (R236) -/

/-- DPLL `d` in the state `st`, with its event. -/
def State.dpMoved (s : State) (d st : Nat) : State :=
  let x := s.dpll d
  let s := s.setDpll d { x with since := if st = dpLocked then s.now else x.since, ran := s.dpRan d }
  (s.setFld (TIM_DPLL_STAT d) TIM_DPLL_STAT_STATE st).dpEvent d

/-- DPLL0 has left Holdover, with its event (R249). -/
def State.holdoverLeft (s : State) : State :=
  (({ s with tm := { s.tm with limit := false } }).setFlag TIM_HO_STAT TIM_HO_STAT_IN_HO false).hoEvent 0x40B

/-- What DPLL0 forgets as it enters the state `st`. -/
def State.dpForgot (s : State) (st : Nat) : State :=
  { s with tm := { s.tm with learnClean := false, avg := if st = dpLocked then [] else s.tm.avg } }

section
variable (s : State) (d st : Nat)

theorem setDpState_eq (hst : st ≠ dpHoldover) : s.setDpState d st =
    if s.dpState d = st then s
    else if d ≠ 0 then s.dpMoved d st
    else if s.dpState d = dpHoldover then ((s.dpMoved d st).dpForgot st).holdoverLeft
    else (s.dpMoved d st).dpForgot st := by
  unfold State.setDpState
  dsimp only
  rw [if_neg hst]
  rfl

theorem added_dpMoved : Added (· ∈ [TIM_DPLL_STAT d]) s (s.dpMoved d st) :=
  (((Added.refl s).setTm _).setFld _ _ _ (by simp)).raise _ _ _

theorem dpState_dpMoved (h : st < 8) : (s.dpMoved d st).dpState d = st := by
  unfold State.dpMoved State.dpEvent State.dpState
  dsimp only
  rw [fld_raise, fld_setFld_self _ _ (by decide)]
  exact Nat.mod_eq_of_lt h

theorem raised_dpMoved (hd : s.sp.dormant = false) : Safety.raised [(islTM, 0x404 + min d 2)] s (s.dpMoved d st) :=
  raised_raise _ _ _ rfl hd

theorem added_dpForgot : Added (fun _ => False) s (s.dpForgot st) := (Added.refl s).setTm _

theorem added_holdoverLeft : Added (· ∈ [TIM_HO_STAT]) s s.holdoverLeft :=
  (((Added.refl s).setTm _).setFlag _ _ _ (by simp)).raise _ _ _

theorem anchored_holdoverLeft : s.holdoverLeft.flag TIM_HO_STAT TIM_HO_STAT_ANCHORED = s.flag TIM_HO_STAT TIM_HO_STAT_ANCHORED :=
  (flag_raise ..).trans (flag_setFlag_other _ _ (by decide) _)

end

/-- DPLL `d` has gone from one state to another, with its event, where neither is Holdover. -/
structure DpEntered (d st : Nat) (s t : State) : Prop extends Added (· ∈ [TIM_DPLL_STAT d]) s t where
  state : t.dpState d = st
  raised : Safety.raised [(islTM, 0x404 + min d 2)] s t

theorem dpEntered_setDpState {s : State} {d st : Nat} (hlt : st < 8) (hst : st ≠ dpHoldover) (hold : s.dpState d ≠ dpHoldover)
    (hne : s.dpState d ≠ st) (hd : s.sp.dormant = false) : DpEntered d st s (s.setDpState d st) := by
  have hmoved : DpEntered d st s (s.dpMoved d st) := ⟨added_dpMoved s d st, dpState_dpMoved s d st hlt, raised_dpMoved s d st hd⟩
  rw [setDpState_eq s d st hst, if_neg hne]
  split
  · exact hmoved
  · exact ⟨hmoved.toAdded.setTm _, hmoved.state, hmoved.raised⟩

/-- The registers that tell of a DPLL that goes to Free-run. -/
def dpFreeRegs (a : Nat) : Prop := a = TIM_HO_STAT ∨ ∃ d < 4, a = TIM_DPLL_STAT d

theorem timRegs_of_dpFreeRegs {a : Nat} (h : dpFreeRegs a) : Safety.timRegs a := by
  obtain rfl | ⟨d, hd, rfl⟩ := h
  · unfold Safety.timRegs TIM_HO_STAT
    omega
  · unfold Safety.timRegs TIM_DPLL_STAT
    omega

theorem not_dpFreeRegs_timStat : ¬ dpFreeRegs TIM_STAT := by
  rintro (h | ⟨d, -, h⟩)
  · exact absurd h (by decide)
  · unfold TIM_STAT TIM_DPLL_STAT at h
    omega

/-- DPLL `d` is in Free-run; the anchor stands, and no other DPLL changes its state. -/
structure DpFreed (d : Nat) (s t : State) : Prop extends Added dpFreeRegs s t where
  state : t.dpState d = dpFree
  others : ∀ e, e ≠ d → t.dpState e = s.dpState e
  anchored : t.flag TIM_HO_STAT TIM_HO_STAT_ANCHORED = s.flag TIM_HO_STAT TIM_HO_STAT_ANCHORED

theorem dpStat_ne_hoStat (d : Nat) : TIM_DPLL_STAT d ≠ TIM_HO_STAT := by
  unfold TIM_DPLL_STAT TIM_HO_STAT
  omega

theorem dpFreed_setDpState (s : State) {d : Nat} (hd : d < 4) : DpFreed d s (s.setDpState d dpFree) := by
  have ha := added_dpMoved s d dpFree
  have hmoved : DpFreed d s (s.dpMoved d dpFree) := {
    toAdded := ha.mono fun a h => .inr ⟨d, hd, List.mem_singleton.mp h⟩
    state := dpState_dpMoved s d dpFree (by decide)
    others := fun e he => ha.fld (by simpa [TIM_DPLL_STAT] using he) _
    anchored := ha.flag (by simpa using (dpStat_ne_hoStat d).symm) _ }
  rw [setDpState_eq s d dpFree (by decide)]
  split
  · next h => exact ⟨.refl s, h, fun _ _ => rfl, rfl⟩
  split
  · exact hmoved
  have hforgot : DpFreed d s ((s.dpMoved d dpFree).dpForgot dpFree) := ⟨hmoved.toAdded.setTm _, hmoved.state, hmoved.others, hmoved.anchored⟩
  split
  · have hleft := added_holdoverLeft ((s.dpMoved d dpFree).dpForgot dpFree)
    have hstat (e : Nat) : ((s.dpMoved d dpFree).dpForgot dpFree).holdoverLeft.dpState e = ((s.dpMoved d dpFree).dpForgot dpFree).dpState e :=
      hleft.fld (by simpa using dpStat_ne_hoStat e) _
    exact {
      toAdded := hforgot.toAdded.trans (hleft.mono fun a h => .inl (List.mem_singleton.mp h))
      state := (hstat d).trans hforgot.state
      others := fun e he => (hstat e).trans (hforgot.others e he)
      anchored := (anchored_holdoverLeft _).trans hforgot.anchored }
  · exact hforgot

/-- Every DPLL freely running (R228, R236). -/
structure FreeRun (s t : State) : Prop extends Added (fun a => a ∈ [TIM_STAT] ∨ dpFreeRegs a) s t where
  states : ∀ d, d < 4 → t.dpState d = dpFree
  selValid0 : t.selValid 0 = false
  selValid1 : t.selValid 1 = false
  fault : t.flag TIM_STAT TIM_STAT_OCXO_FAULT = s.flag TIM_STAT TIM_STAT_OCXO_FAULT
  anchored : t.flag TIM_HO_STAT TIM_HO_STAT_ANCHORED = s.flag TIM_HO_STAT TIM_HO_STAT_ANCHORED

theorem freeRun_spec (s : State) : FreeRun s s.freeRun := by
  set u := (s.useRef 0 false).useRef 1 false with hu
  have hrefs : Added (· ∈ [TIM_STAT]) s u := (added_useRef s 0 false).trans (added_useRef _ 1 false)
  have heach : Added dpFreeRegs u s.freeRun :=
    Added.each (List.range 4) (fun s d => s.setDpState d dpFree) (fun x d hd h => h.trans (dpFreed_setDpState x (List.mem_range.mp hd)).toAdded)
      (.refl u)
  have hstat (f : Fld) : s.freeRun.flag TIM_STAT f = u.flag TIM_STAT f := heach.flag not_dpFreeRegs_timStat f
  refine ⟨(hrefs.mono fun _ => .inl).trans (heach.mono fun _ => .inr), fun d hd => ?states, ?valid0, ?valid1, ?fault, ?anchored⟩
  case states =>
    exact each_establishes (fun _ => True) (fun x => x.dpState d = dpFree) (f := fun s d => s.setDpState d dpFree) (List.mem_range.mpr hd)
      (fun _ _ _ _ => trivial)
      (fun x e he _ hx => by
        by_cases hde : d = e
        · exact hde ▸ (dpFreed_setDpState x (List.mem_range.mp he)).state
        · exact ((dpFreed_setDpState x (List.mem_range.mp he)).others d hde).trans hx)
      (fun x _ => (dpFreed_setDpState x hd).state) trivial
  case valid0 =>
    rw [State.selValid, hstat, hu, flag_useRef, flag_setFlag_other _ _ (by decide)]
    exact selValid_useRef s 0 false
  case valid1 =>
    rw [State.selValid, hstat]
    exact selValid_useRef _ 1 false
  case fault => rw [hstat, hu, flag_useRef, flag_setFlag_other _ _ (by decide), flag_useRef, flag_setFlag_other _ _ (by decide)]
  case anchored =>
    have hkept : s.freeRun.flag TIM_HO_STAT TIM_HO_STAT_ANCHORED = u.flag TIM_HO_STAT TIM_HO_STAT_ANCHORED :=
      each_preserves (fun x => x.flag TIM_HO_STAT TIM_HO_STAT_ANCHORED = u.flag TIM_HO_STAT TIM_HO_STAT_ANCHORED)
        (fun x e he hx => (dpFreed_setDpState x (List.mem_range.mp he)).anchored.trans hx) rfl
    exact hkept.trans (hrefs.flag (by decide) _)

end Sys2Proof.Machine
end

section
/-! PROOF of O43: the DPLLs, the OCXO, holdover, learning, the model commit and the report to SP. -/

namespace Sys2Proof.Machine

/-! ### OCXO, lock, anchor and holdover (R228, R236, R250) -/

theorem not_dormant_of_tm {s : State} (h : s.running islTM = true) : s.sp.dormant = false := not_dormant_of_running h

theorem exec_ocxoFault {s : State} (h : s.running islTM = true) (hf : s.flag TIM_STAT TIM_STAT_OCXO_FAULT = false) :
    let x := (s.setFlag TIM_STAT TIM_STAT_OCXO_FAULT true).setFlag TIM_HO_STAT TIM_HO_STAT_ANCHORED false
    exec .ocxoFault s = .next (x.freeRun.raise islTM 0x413 [w32 1, x.freeRun.reg TIM_STAT]).timSettle :=
  congrArg Host.Outcome.next (if_pos (by simp [h, hf]))

/-- What an OCXO fault leaves. -/
structure FaultShown (s t : State) : Prop extends Added (fun a => a ∈ [TIM_STAT, TIM_HO_STAT] ∨ dpFreeRegs a) s t where
  states : ∀ d, d < 4 → t.dpState d = dpFree
  fault : t.flag TIM_STAT TIM_STAT_OCXO_FAULT = true
  refOk : t.flag TIM_STAT TIM_STAT_REF_OK = false
  hoValid : t.flag TIM_STAT TIM_STAT_HO_VALID = false
  anchored : t.flag TIM_HO_STAT TIM_HO_STAT_ANCHORED = false
  selValid0 : t.selValid 0 = false
  selValid1 : t.selValid 1 = false
  told : ∃ l, (islTM, 0x413) ∈ l ∧ Safety.raised l s t

theorem faultShown {s : State} (hd : s.sp.dormant = false) :
    let x := (s.setFlag TIM_STAT TIM_STAT_OCXO_FAULT true).setFlag TIM_HO_STAT TIM_HO_STAT_ANCHORED false
    FaultShown s (x.freeRun.raise islTM 0x413 [w32 1, x.freeRun.reg TIM_STAT]).timSettle := by
  intro x
  have hx : Added (· ∈ [TIM_STAT, TIM_HO_STAT]) s x := ((Added.refl s).setFlag _ _ _ (by simp)).setFlag _ _ _ (by simp)
  have hfree := freeRun_spec x
  set y := x.freeRun.raise islTM 0x413 [w32 1, x.freeRun.reg TIM_STAT] with hy
  have hset := settled_timSettle y
  have hfault : y.flag TIM_STAT TIM_STAT_OCXO_FAULT = true := by
    rw [hy, flag_raise, hfree.fault, flag_setFlag_ne _ _ _ _ (by decide)]
    exact flag_setFlag_self s _ (by decide) rfl true
  have hanchor : y.flag TIM_HO_STAT TIM_HO_STAT_ANCHORED = false := by
    rw [hy, flag_raise, hfree.anchored]
    exact flag_setFlag_self _ _ (by decide) rfl false
  have hstate (d : Nat) (hd : d < 4) : y.dpState d = dpFree := (fld_raise ..).trans (hfree.states d hd)
  refine {
    toAdded := ((hx.mono fun _ => .inl).trans (hfree.toAdded.mono fun a h => ?regs)).trans
      (((Added.refl _).raise _ _ _).trans (hset.toAdded.mono fun a h => ?stat))
    states := fun d hd => (hset.dpState d).trans (hstate d hd)
    fault := (hset.flag_other (by decide)).trans hfault
    refOk := hset.refOk.trans (by rw [hstate 0 (by decide)]; rfl)
    hoValid := hset.hoValid.trans (by simp [State.hoValid, hfault])
    anchored := (hset.flag (by decide) _).trans hanchor
    selValid0 := (hset.flag_other (by decide)).trans ((flag_raise ..).trans hfree.selValid0)
    selValid1 := (hset.flag_other (by decide)).trans ((flag_raise ..).trans hfree.selValid1)
    told := ?told }
  case regs => exact h.imp_left fun h => by simpa using .inl (List.mem_singleton.mp h)
  case stat => exact .inl (by simpa using .inl (List.mem_singleton.mp h))
  case told =>
    obtain ⟨l, hl⟩ := raised_of_prefix (hx.chan.trans hfree.chan)
    obtain ⟨m, hm⟩ := raised_of_prefix hset.chan
    have hraise : Safety.raised [(islTM, 0x413)] x.freeRun y := raised_raise _ _ _ rfl (by rw [hfree.sp, hx.sp, hd])
    exact ⟨_, by simp, raised_trans (raised_trans hl hraise) hm⟩

theorem ocxoFault_spec {s : State} (h : s.running islTM = true) (hf : s.flag TIM_STAT TIM_STAT_OCXO_FAULT = false) :
    ∃ t l, exec .ocxoFault s = .next t ∧ (∀ d, d < 4 → t.dpState d = dpFree) ∧ t.flag TIM_STAT TIM_STAT_OCXO_FAULT = true
      ∧ t.flag TIM_STAT TIM_STAT_REF_OK = false ∧ t.flag TIM_STAT TIM_STAT_HO_VALID = false
      ∧ t.flag TIM_HO_STAT TIM_HO_STAT_ANCHORED = false ∧ t.selValid 0 = false ∧ t.selValid 1 = false
      ∧ (islTM, 0x413) ∈ l ∧ Safety.raised l s t ∧ Safety.regsOutside Safety.timRegs s t ∧ Safety.sameMem s t := by
  have hs := faultShown (not_dormant_of_tm h)
  obtain ⟨l, hl, hraised⟩ := hs.told
  have hregs (a : Nat) (ha : a ∈ [TIM_STAT, TIM_HO_STAT] ∨ dpFreeRegs a) : Safety.timRegs a := by
    unfold Safety.timRegs
    rcases ha with ha | ha
    · rcases List.mem_cons.mp ha with rfl | ha
      · decide
      · exact List.mem_singleton.mp ha ▸ by decide
    · exact timRegs_of_dpFreeRegs ha
  exact ⟨_, l, exec_ocxoFault h hf, hs.states, hs.fault, hs.refOk, hs.hoValid, hs.anchored, hs.selValid0, hs.selValid1, hl, hraised,
    (hs.toAdded.mono hregs).regs, sameMem_of_mem hs.mem⟩

theorem exec_ocxoRecovery {s : State} (h : s.running islTM = true) (hf : s.flag TIM_STAT TIM_STAT_OCXO_FAULT = true) :
    let x := s.setFlag TIM_STAT TIM_STAT_OCXO_FAULT false
    exec .ocxoRecovery s = .next (x.raise islTM 0x413 [w32 0, x.reg TIM_STAT]).timSettle :=
  congrArg Host.Outcome.next (if_pos (by simp [h, hf]))

theorem ocxoRecovery_spec {s : State} (h : s.running islTM = true) (hf : s.flag TIM_STAT TIM_STAT_OCXO_FAULT = true) :
    ∃ t l, exec .ocxoRecovery s = .next t ∧ t.flag TIM_STAT TIM_STAT_OCXO_FAULT = false ∧ (∀ d, t.dpState d = s.dpState d)
      ∧ Safety.raised ((islTM, 0x413) :: l) s t ∧ Safety.onlyRegs [TIM_STAT] s t ∧ Safety.sameMem s t := by
  have hd := not_dormant_of_tm h
  set x := s.setFlag TIM_STAT TIM_STAT_OCXO_FAULT false with hx
  set y := x.raise islTM 0x413 [w32 0, x.reg TIM_STAT] with hy
  have hxy : Added (· ∈ [TIM_STAT]) s y := ((Added.refl s).setFlag _ _ _ (by simp)).raise _ _ _
  have hset := settled_timSettle y
  obtain ⟨l, hl⟩ := raised_of_prefix hset.chan
  have hraise : Safety.raised [(islTM, 0x413)] s y := raised_raise _ _ _ rfl hd
  refine ⟨_, l, exec_ocxoRecovery h hf, ?_, fun d => (hset.dpState d).trans (hxy.fld (dpStat_ne_timStat d) _), raised_trans hraise hl,
    (hxy.trans hset.toAdded).regs, sameMem_of_mem (hxy.trans hset.toAdded).mem⟩
  rw [hset.flag_other (by decide), hy, flag_raise]
  exact flag_setFlag_self s _ (by decide) rfl false

/-- A DPLL that goes from one state to another below Holdover, and what is settled then. -/
theorem dpEntered_settled {s : State} {d st : Nat} (h : DpEntered d st s (s.setDpState d st)) :
    ∃ l, (s.setDpState d st).timSettle.dpState d = st ∧ Settled (s.setDpState d st) (s.setDpState d st).timSettle
      ∧ Safety.raised ((islTM, 0x404 + min d 2) :: l) s (s.setDpState d st).timSettle
      ∧ Safety.onlyRegs [TIM_DPLL_STAT d, TIM_STAT] s (s.setDpState d st).timSettle ∧ Safety.sameMem s (s.setDpState d st).timSettle := by
  have hset := settled_timSettle (s.setDpState d st)
  obtain ⟨l, hl⟩ := raised_of_prefix hset.chan
  have hadded : Added (· ∈ [TIM_DPLL_STAT d, TIM_STAT]) s (s.setDpState d st).timSettle :=
    (h.toAdded.mono (by simp)).trans (hset.toAdded.mono (by simp))
  exact ⟨l, (hset.dpState d).trans h.state, hset, raised_trans h.raised hl, hadded.regs, sameMem_of_mem hadded.mem⟩

theorem dpllLock_spec {s : State} (h : s.running islTM = true) (d : Fin 4) (hst : s.dpState d = dpAcquiring)
    (herr : (s.dpll d).err.natAbs ≤ s.lockWindow d) (hoff : d = 0 → (s.refOffset (s.sel 0)).natAbs ≤ 12000) :
    ∃ t l, exec (.dpllLock d) s = .next t ∧ t.dpState d = dpLocked
      ∧ (d = 0 → t.flag TIM_STAT TIM_STAT_REF_OK = true ∧ t.fld TIM_STAT TIM_STAT_CLOCK_QL = s.refQl (s.sel 0))
      ∧ Safety.raised ((islTM, 0x404 + min d.val 2) :: l) s t ∧ Safety.onlyRegs [TIM_DPLL_STAT d, TIM_STAT] s t ∧ Safety.sameMem s t := by
  have hcan : s.canLock d = true := by
    by_cases hd : d = 0
    · simp [State.canLock, herr, dpll0Range, hoff hd]
    · simp [State.canLock, herr, hd]
  have hent := dpEntered_setDpState (s := s) (d := d) (st := dpLocked) (by decide) (by decide) (by rw [hst]; decide) (by rw [hst]; decide)
    (not_dormant_of_tm h)
  obtain ⟨l, hstate, hset, hraised, hregs, hmem⟩ := dpEntered_settled hent
  refine ⟨_, l, congrArg Host.Outcome.next (if_pos (by simp [h, hst, hcan])), hstate, ?_, hraised, hregs, hmem⟩
  rintro rfl
  have hlocked : (s.setDpState 0 dpLocked).dpState 0 = dpLocked := hent.state
  have hstat : ¬ TIM_STAT ∈ [TIM_DPLL_STAT 0] := by decide
  refine ⟨hset.refOk.trans (decide_eq_true hlocked), hset.quality.trans ?_⟩
  have hsel : (s.setDpState 0 dpLocked).sel 0 = s.sel 0 := hent.fld hstat _
  have hql (i : Nat) : ¬ TIM_REF_QL i ∈ [TIM_DPLL_STAT 0] := by
    simp only [List.mem_singleton, TIM_REF_QL, TIM_DPLL_STAT]
    omega
  have hshown : (s.setDpState 0 dpLocked).refQl (s.sel 0) = s.refQl (s.sel 0) := hent.fld (hql _) _
  exact (if_pos hlocked).trans ((congrArg _ hsel).trans hshown)

theorem dpllLockLoss_spec {s : State} (h : s.running islTM = true) (d : Fin 4) (hst : s.dpState d = dpLocked)
    (herr : 4 * s.lockWindow d < (s.dpll d).err.natAbs) :
    ∃ t l, exec (.dpllLockLoss d) s = .next t ∧ t.dpState d = dpAcquiring
      ∧ (d = 0 → t.flag TIM_STAT TIM_STAT_REF_OK = false ∧ t.fld TIM_STAT TIM_STAT_CLOCK_QL = s.fld TIM_CFG TIM_CFG_OWN_QL)
      ∧ Safety.raised ((islTM, 0x404 + min d.val 2) :: l) s t ∧ Safety.onlyRegs [TIM_DPLL_STAT d, TIM_STAT] s t ∧ Safety.sameMem s t := by
  have hent := dpEntered_setDpState (s := s) (d := d) (st := dpAcquiring) (by decide) (by decide) (by rw [hst]; decide) (by rw [hst]; decide)
    (not_dormant_of_tm h)
  obtain ⟨l, hstate, hset, hraised, hregs, hmem⟩ := dpEntered_settled hent
  refine ⟨_, l, congrArg Host.Outcome.next (if_pos (by simp [h, hst, herr])), hstate, ?_, hraised, hregs, hmem⟩
  rintro rfl
  have hacq : (s.setDpState 0 dpAcquiring).dpState 0 ≠ dpLocked := by
    rw [show (s.setDpState 0 dpAcquiring).dpState 0 = dpAcquiring from hent.state]
    decide
  exact ⟨hset.refOk.trans (decide_eq_false hacq), hset.quality.trans ((if_neg hacq).trans (hent.fld (by decide) _))⟩

theorem anchorSet_spec {s : State} (h : s.running islTM = true) (hst : s.dpState 0 = dpLocked) :
    ∃ t, exec .anchorSet s = .next t ∧ t.flag TIM_HO_STAT TIM_HO_STAT_ANCHORED = true
      ∧ t.flag TIM_STAT TIM_STAT_HO_VALID = (s.tm.modelOk && !s.flag TIM_STAT TIM_STAT_OCXO_FAULT)
      ∧ Safety.onlyRegs [TIM_HO_STAT, TIM_STAT] s t ∧ Safety.sameMem s t := by
  set x := s.setFlag TIM_HO_STAT TIM_HO_STAT_ANCHORED true with hx
  have hset := settled_timSettle x
  have hadded : Added (· ∈ [TIM_HO_STAT, TIM_STAT]) s x.timSettle :=
    ((Added.refl s).setFlag _ _ _ (by simp)).trans (hset.toAdded.mono (by simp))
  have hanchor : x.flag TIM_HO_STAT TIM_HO_STAT_ANCHORED = true := flag_setFlag_self s _ (by decide) rfl true
  have hlocked : x.dpState 0 = dpLocked := (fld_setFld_ne s _ _ _ (by decide)).trans hst
  have hfault : x.flag TIM_STAT TIM_STAT_OCXO_FAULT = s.flag TIM_STAT TIM_STAT_OCXO_FAULT := flag_setFlag_ne s _ _ _ (by decide)
  have hmodel : x.tm = s.tm := tm_setFlag s ..
  refine ⟨_, congrArg Host.Outcome.next (if_pos (by simp [h, hst])), (hset.flag (by decide) _).trans hanchor, hset.hoValid.trans ?_, hadded.regs,
    sameMem_of_mem hadded.mem⟩
  rw [State.hoValid, hanchor, hlocked, hfault, hmodel]
  simp [dpLocked, dpHoldover]

theorem holdoverLimit_spec {s : State} (h : s.running islTM = true) (hst : s.dpState 0 = dpHoldover) :
    ∃ t, exec .holdoverLimit s = .next t ∧ t.flag TIM_STAT TIM_STAT_HO_VALID = false ∧ t.dpState 0 = dpHoldover
      ∧ Safety.onlyRegs [TIM_STAT] s t ∧ Safety.sameMem s t := by
  set x : State := { s with tm := { s.tm with limit := true } } with hx
  have hset := settled_timSettle x
  have hadded := ((Added.refl s).setTm { s.tm with limit := true }).trans hset.toAdded
  have hhold : x.dpState 0 = dpHoldover := hst
  refine ⟨_, congrArg Host.Outcome.next (if_pos (by simp [h, hst])), hset.hoValid.trans ?_, (hset.dpState 0).trans hhold, hadded.regs,
    sameMem_of_mem hadded.mem⟩
  rw [State.hoValid, hhold]
  exact Bool.and_false _

theorem tempSensorFault_spec {s : State} (h : s.running islTM = true) (fault : Bool) (hne : s.flag TIM_HO_STAT TIM_HO_STAT_TEMP_FAULT = !fault) :
    ∃ t, exec (.tempSensorFault fault) s = .next t ∧ t.flag TIM_HO_STAT TIM_HO_STAT_TEMP_FAULT = fault
      ∧ Safety.raised [(islTM, 0x414)] s t ∧ Safety.onlyRegs [TIM_HO_STAT] s t ∧ Safety.sameMem s t := by
  have hd := not_dormant_of_tm h
  set x := s.setFlag TIM_HO_STAT TIM_HO_STAT_TEMP_FAULT fault with hx
  have hadded : Added (· ∈ [TIM_HO_STAT]) s (x.raise islTM 0x414 [w32 (bit fault), x.reg TIM_HO_STAT]) :=
    ((Added.refl s).setFlag _ _ _ (by simp)).raise _ _ _
  exact ⟨_, congrArg Host.Outcome.next (if_pos (by simp [h, hne])), (flag_raise ..).trans (flag_setFlag_self s _ (by decide) rfl fault),
    raised_raise _ _ _ rfl hd, hadded.regs, sameMem_of_mem hadded.mem⟩

/-! ### Learning and the model commit (R251, R252) -/

section
variable (s : State)

theorem added_showSample : Added (· ∈ [TIM_HO_SAMPLE 0, TIM_HO_SAMPLE 1]) s s.showSample := by
  unfold State.showSample
  split
  · exact ((Added.refl s).setReg _ _ (by simp)).setReg _ _ (by simp)
  · exact ((Added.refl s).setReg _ _ (by simp)).setReg _ _ (by simp)

theorem tm_showSample : s.showSample.tm = s.tm := by
  unfold State.showSample
  split <;> rfl

theorem chan_showSample : s.showSample.chan = s.chan := by
  unfold State.showSample
  split <;> rfl

end

theorem learningSample_spec {s : State} (h : s.running islTM = true) (offset temp : Int) :
    ∃ t, exec (.learningSample offset temp) s = .next t
      ∧ (s.tm.samples.length < 16 → t.tm.samples = s.tm.samples ++ [(offset, temp, decide (s.dpState 0 = dpLocked) && s.tm.learnClean
          && decide (s.refQl (s.sel 0) ≤ s.fld TIM_HO_CFG TIM_HO_CFG_LEARN_QL_MAX))])
      ∧ t.tm.samples.length ≤ 16 ∧ t.chan = s.chan
      ∧ Safety.onlyRegs [TIM_HO_SAMPLE 0, TIM_HO_SAMPLE 1] s t ∧ Safety.sameMem s t := by
  have hadded (x : Timing) := ((Added.refl s).setTm x).trans (added_showSample { s with tm := x })
  refine ⟨_, congrArg Host.Outcome.next (if_neg (by simp [h])), fun hlt => ?_, ?_, chan_showSample _, (hadded _).regs,
    sameMem_of_mem (hadded _).mem⟩
  · rw [tm_showSample]
    have hfit : (s.tm.samples ++ [(offset, temp, decide (s.dpState 0 = dpLocked) && s.tm.learnClean
        && decide (s.refQl (s.sel 0) ≤ s.fld TIM_HO_CFG TIM_HO_CFG_LEARN_QL_MAX))]).length - 16 = 0 := by
      rw [List.length_append, List.length_singleton]
      omega
    exact (congrArg (List.drop · _) hfit).trans (List.drop_zero ..)
  · rw [tm_showSample, List.length_drop]
    omega

theorem hoSamplePop_spec {s v : State} (hv : v = s.settleRegs) (hm : v.running islMX = true) (ht : v.running islTM = true) :
    (∃ t, exec (.hoSamplePop false) s = .next t ∧ t.tm.samples = v.tm.samples.drop 1 ∧ t.chan = v.chan
        ∧ Safety.onlyRegs [TIM_HO_SAMPLE 0, TIM_HO_SAMPLE 1] v t ∧ Safety.sameMem v t)
    ∧ exec (.hoSamplePop true) s = .next v := by
  have hexec (bridge : Bool) : exec (.hoSamplePop bridge) s = .next (if bridge then v else v.popSample) := by
    subst hv
    exact congrArg Host.Outcome.next (if_pos (by simp [hm, ht]))
  have hadded := ((Added.refl v).setTm { v.tm with samples := v.tm.samples.drop 1 }).trans (added_showSample _)
  exact ⟨⟨_, hexec false, congrArg Timing.samples (tm_showSample _), chan_showSample _, hadded.regs, sameMem_of_mem hadded.mem⟩, hexec true⟩

section
variable {x : State} {token : Nat} (htok : x.fld TIM_HO_CMD TIM_HO_CMD_TOKEN ≠ token)
include htok

theorem hoCommand_of_ok (hok : x.copyOk (1 - x.activeCopy) = true) : x.hoCommand 1 token =
    ({ x with tm := { x.tm with commit := true } }).setReg TIM_HO_CMD (w32 (token + 256 + 65536)) := by
  unfold State.hoCommand
  rw [if_neg (by simp [State.tokenIs, htok]), if_pos ⟨rfl, hok⟩]

theorem hoCommand_of_bad (hbad : x.copyOk (1 - x.activeCopy) = false) : x.hoCommand 1 token =
    (x.setFld TIM_HO_CMD TIM_HO_CMD_RESULT 0x04).raise islTM 0x40E
      [w32 0, (x.setFld TIM_HO_CMD TIM_HO_CMD_RESULT 0x04).reg TIM_HO_STAT] := by
  unfold State.hoCommand
  rw [if_neg (by simp [State.tokenIs, htok]), if_neg (by simp [hbad])]
  rfl

end

/-- What a commit leaves of the state `v` that it reached. -/
structure Committed (token : Nat) (v t : State) : Prop where
  okay : t.mtx.resp = rOkay
  added : Added (· ∈ [TIM_HO_CMD]) v t
  accepted : v.copyOk (1 - v.activeCopy) = true →
    t.tm.commit = true ∧ t.reg TIM_HO_CMD = BitVec.ofNat 32 (token + 256 + 65536) ∧ t.chan = v.chan
  refused : v.copyOk (1 - v.activeCopy) = false → t.tm.commit = v.tm.commit ∧ t.fld TIM_HO_CMD TIM_HO_CMD_RESULT = 4
    ∧ Safety.raised [(islTM, 0x40E)] v t

theorem committed {v : State} {m : Matrix} {token : Nat} (hm : m.resp = rOkay) (ht : v.running islTM = true)
    (htok : v.fld TIM_HO_CMD TIM_HO_CMD_TOKEN ≠ token) : Committed token v ((v.setMtx m).hoCommand 1 token) := by
  have hd := not_dormant_of_tm ht
  have hv : Added (· ∈ [TIM_HO_CMD]) v (v.setMtx m) := ⟨⟨fun _ _ => rfl, rfl, rfl⟩, List.prefix_rfl, rfl⟩
  cases hok : v.copyOk (1 - v.activeCopy)
  case true =>
    rw [hoCommand_of_ok (x := v.setMtx m) htok hok]
    exact ⟨hm, (hv.setTm _).setReg _ _ (by simp),
      fun _ => ⟨congrArg Timing.commit (tm_setReg ..), reg_setReg_self .., chan_setReg ..⟩,
      fun h => absurd (hok.symm.trans h) (by decide)⟩
  case false =>
    rw [hoCommand_of_bad (x := v.setMtx m) htok hok]
    refine ⟨(congrArg Matrix.resp (mtx_raise ..)).trans hm, (hv.setFld _ _ _ (by simp)).raise _ _ _,
      fun h => absurd (hok.symm.trans h) (by decide), fun _ => ⟨congrArg Timing.commit (tm_raise ..), ?_, ?_⟩⟩
    · exact (fld_raise ..).trans (fld_setFld_self _ _ (by decide) 4)
    · exact raised_raise _ _ _ rfl hd

theorem modelCommit_spec {s v : State} {q : Fin 2} {token : Byte} (hg : Safety.granted (.service q) s v) (ht : v.running islTM = true)
    (htok : v.fld TIM_HO_CMD TIM_HO_CMD_TOKEN ≠ token.toNat) :
    ∃ t, exec (.modelCommit (.service q) token) s = .next t ∧ Committed token.toNat v t := by
  obtain ⟨m, hm, hwrite⟩ := commandWrite_granted hg ht false TIM_HO_CMD (f := fun s => s.hoCommand 1 token.toNat)
    fun m hm => (committed hm ht htok).okay
  exact ⟨_, congrArg Host.Outcome.next hwrite, committed hm ht htok⟩

end Sys2Proof.Machine
end

section
/-! PROOF of O43, continued: the tick's report to SP (R34, R35, R243, R249, R252). -/

namespace Sys2Proof.Machine

/-! ### A commit takes effect, and the temperature is read -/

/-- What a commit's tick leaves: the copy that is active now, and of TM's own state whether a commit waits and whether the model is valid. -/
structure CommitTicked (s t : State) : Prop extends Added (· ∈ [TIM_HO_STAT]) s t where
  active : t.activeCopy = if s.tm.commit then 1 - s.activeCopy else s.activeCopy
  tempFault : t.flag TIM_HO_STAT TIM_HO_STAT_TEMP_FAULT = s.flag TIM_HO_STAT TIM_HO_STAT_TEMP_FAULT
  now : t.now = s.now
  tm : ∃ ok, t.tm = { s.tm with commit := false, modelOk := ok }

section
variable (s : State)

theorem added_readModel : Added (· ∈ [TIM_HO_STAT]) s s.readModel :=
  have h : Added (· ∈ [TIM_HO_STAT]) s s.loadModel := ((Added.refl s).setTm _).setFld _ _ _ (by simp)
  h.ite (h.raise _ _ _)

theorem fld_readModel {f : Fld} (hf : 2 ≤ f.lo) : s.readModel.fld TIM_HO_STAT f = s.fld TIM_HO_STAT f := by
  have hload : s.loadModel.fld TIM_HO_STAT f = s.fld TIM_HO_STAT f := fld_setFld_other (g := TIM_HO_STAT_MODEL) _ _ (.inr hf) _
  unfold State.readModel
  dsimp only
  split
  · exact hload
  · exact (fld_raise ..).trans hload

theorem now_readModel : s.readModel.now = s.now := by
  unfold State.readModel
  dsimp only
  split
  · rfl
  · exact now_raise ..

theorem tm_readModel : ∃ ok, s.readModel.tm = { s.tm with modelOk := ok } := by
  unfold State.readModel
  dsimp only
  split
  · exact ⟨_, rfl⟩
  · exact ⟨_, tm_raise ..⟩

/-- The copies swapped as an accepted commit takes effect. -/
def State.copySwapped (s : State) : State :=
  ({ s with tm := { s.tm with commit := false } }).setFld TIM_HO_STAT TIM_HO_STAT_ACTIVE (1 - s.activeCopy)

theorem added_copySwapped : Added (· ∈ [TIM_HO_STAT]) s s.copySwapped := ((Added.refl s).setTm _).setFld _ _ _ (by simp)

theorem active_copySwapped : s.copySwapped.activeCopy = 1 - s.activeCopy := by
  rw [State.activeCopy, State.copySwapped, fld_setFld_self _ _ (by decide)]
  exact Nat.mod_eq_of_lt (Nat.lt_succ_of_le (Nat.sub_le 1 _))

theorem tempFault_copySwapped : s.copySwapped.flag TIM_HO_STAT TIM_HO_STAT_TEMP_FAULT = s.flag TIM_HO_STAT TIM_HO_STAT_TEMP_FAULT :=
  flag_setFld_other _ _ (by decide) _

theorem commitTicked_commitTick : CommitTicked s s.commitTick := by
  cases hc : s.tm.commit
  case false =>
    have hnone : s.commitTick = s := if_neg (by simp [hc])
    rw [hnone]
    exact ⟨.refl s, by rw [hc]; rfl, rfl, rfl, s.tm.modelOk, by rw [← hc]⟩
  case true =>
    have hswap : s.commitTick = s.copySwapped.readModel := if_pos hc
    rw [hswap]
    exact {
      toAdded := (added_copySwapped s).trans (added_readModel _)
      active := (fld_readModel _ (by decide)).trans ((active_copySwapped s).trans (if_pos hc).symm)
      tempFault := by rw [State.flag, fld_readModel _ (by decide), ← State.flag, tempFault_copySwapped]
      now := now_readModel _
      tm := tm_readModel s.copySwapped }

end

/-- The readings of the last second, with one more. -/
def State.readings (s : State) (reading : Int) : List (Nat × Int) :=
  s.tm.temps.filter (fun x => decide (s.now < x.1 + 1000000000)) ++ [(s.now, reading)]

/-- What reading the selected sensor leaves: T, shown, and of TM's own state nothing but what it holds of temperatures. -/
structure TempTicked (caseTemp ntcTemp : Int) (s t : State) : Prop extends Added (· ∈ [TIM_HO_TEMP]) s t where
  shown : t.reg TIM_HO_TEMP = BitVec.ofInt 32 t.tm.temp
  temp : t.tm.temp = if s.flag TIM_HO_CFG TIM_HO_CFG_TEMP_SRC && s.flag TIM_HO_STAT TIM_HO_STAT_TEMP_FAULT then s.tm.temp
    else ((s.readings (if s.flag TIM_HO_CFG TIM_HO_CFG_TEMP_SRC then ntcTemp else caseTemp)).map (fun x => x.2)).sum
      / ((s.readings (if s.flag TIM_HO_CFG TIM_HO_CFG_TEMP_SRC then ntcTemp else caseTemp)).length : Int)
  tm : ∃ l g T y, t.tm = { s.tm with temps := l, tempLog := g, temp := T, slope := y }

theorem tempTicked_tickTemp (s : State) (caseTemp ntcTemp : Int) : TempTicked caseTemp ntcTemp s (s.tickTemp caseTemp ntcTemp) := by
  unfold State.tickTemp
  dsimp only
  split
  · next hbad => exact ⟨((Added.refl s).setTm _).setReg _ _ (by simp), reg_setReg_self .., by rw [hbad]; rfl, _, _, _, _, rfl⟩
  · next hgood =>
    refine ⟨((Added.refl s).setTm _).setReg _ _ (by simp), reg_setReg_self .., ?_, _, _, _, _, rfl⟩
    rw [if_neg hgood]
    rfl

/-! ### DPLL0's frequency (R235, R249) -/

/-- DPLL0's frequency word at a tick. -/
def State.freqWord (s : State) (freq : Int) : Word :=
  if s.dpState 0 = dpHoldover then BitVec.ofInt 32 (-s.predicted.1)
  else if s.dpState 0 ≠ dpFree ∧ s.selValid 0 = false then s.reg (TIM_DPLL_FREQ 0)
  else BitVec.ofInt 32 freq

/-- What DPLL0's frequency leaves: the active copy stands, and of TM's own state only the mean offset moves. -/
structure FreqTicked (freq : Int) (s t : State) : Prop extends Added (· ∈ [TIM_HO_STAT, TIM_HO_TIME, TIM_DPLL_FREQ 0]) s t where
  freq : t.reg (TIM_DPLL_FREQ 0) = s.freqWord freq
  active : t.activeCopy = s.activeCopy
  tm : ∃ l, t.tm = { s.tm with avg := l }

theorem freqTicked_dpll0Freq (s : State) (freq : Int) : FreqTicked freq s (s.dpll0Freq freq) := by
  unfold State.dpll0Freq
  split
  · next hhold =>
    refine ⟨(((Added.refl s).setFlag _ _ _ (by simp)).setReg _ _ (by simp)).setReg _ _ (by simp), ?_, ?_, _, rfl⟩
    · rw [State.freqWord, if_pos hhold, reg_setReg_self]
    · exact (fld_of_reg (reg_setReg_ne _ _ (by decide)) _).trans
        ((fld_of_reg (reg_setReg_ne _ _ (by decide)) _).trans (fld_setFld_other s _ (by decide) _))
  · next hhold =>
    split
    · next hlost => exact ⟨.refl s, by rw [State.freqWord, if_neg hhold, if_pos (by simpa using hlost)], rfl, _, rfl⟩
    · next hruns =>
      have hadded : Added (· ∈ [TIM_HO_STAT, TIM_HO_TIME, TIM_DPLL_FREQ 0]) s (s.setReg (TIM_DPLL_FREQ 0) (BitVec.ofInt 32 freq)) :=
        (Added.refl s).setReg _ _ (by simp)
      have hword : s.freqWord freq = BitVec.ofInt 32 freq := by rw [State.freqWord, if_neg hhold, if_neg (by simpa using hruns)]
      have hactive : (s.setReg (TIM_DPLL_FREQ 0) (BitVec.ofInt 32 freq)).activeCopy = s.activeCopy :=
        fld_of_reg (reg_setReg_ne s _ (by decide)) _
      dsimp only
      split
      · exact ⟨hadded.setTm _, (reg_setReg_self ..).trans hword.symm, hactive, _, rfl⟩
      · exact ⟨hadded, (reg_setReg_self ..).trans hword.symm, hactive, _, rfl⟩

end Sys2Proof.Machine
end

section
/-! PROOF of O43, concluded: the DPLLs at a tick, and what SP judges of the report (R34, R35, R238, R243). -/

namespace Sys2Proof.Machine

/-! ### The DPLLs at a tick (R227, R235, R238) -/

/-- What ticking DPLL `d` leaves: registers in `W` at most, no other DPLL, and of TM's own state neither the commit nor T. -/
structure DpTicked (d : Nat) (W : Nat → Prop) (r s : State) : Prop extends Added W r s where
  others : ∀ e, e ≠ d → s.dpll e = r.dpll e
  commit : s.tm.commit = r.tm.commit
  temp : s.tm.temp = r.tm.temp

namespace DpTicked

variable {d : Nat} {W V : Nat → Prop} {r s t : State}

theorem refl (s : State) : DpTicked d W s s := ⟨.refl s, fun _ _ => rfl, rfl, rfl⟩

theorem setDpll (h : DpTicked d W r s) (x : Dpll) : DpTicked d W r (s.setDpll d x) where
  toAdded := h.toAdded.setTm _
  others e he := (tget_tset_ne _ _ _ _ he.symm).trans (h.others e he)
  commit := h.commit
  temp := h.temp

theorem setReg (h : DpTicked d W r s) (a : Nat) (w : Word) (ha : W a) : DpTicked d W r (s.setReg a w) :=
  ⟨h.toAdded.setReg a w ha, h.others, h.commit, h.temp⟩

theorem setErr (h : DpTicked d W r s) (x : Int) (ha : W (TIM_DPLL_STAT d)) : DpTicked d W r (s.setErr d x) :=
  (h.setDpll _).setReg _ _ ha

theorem raise (h : DpTicked d W r s) (isl e : Nat) (l : List Word) : DpTicked d W r (s.raise isl e l) where
  toAdded := h.toAdded.raise isl e l
  others k hk := by
    rw [State.dpll, tm_raise]
    exact h.others k hk
  commit := (congrArg Timing.commit (tm_raise ..)).trans h.commit
  temp := (congrArg Timing.temp (tm_raise ..)).trans h.temp

theorem useFree (h : DpTicked d W r s) : DpTicked d W r s.useFree := ⟨⟨⟨h.regs, h.sp, h.ld⟩, h.chan, h.mem⟩, h.others, h.commit, h.temp⟩

theorem phaseTaken (h : DpTicked d W r s) : DpTicked d W r { s with tm := { s.tm with phase := none } } :=
  ⟨h.toAdded.setTm _, h.others, h.commit, h.temp⟩

theorem ite {c : Prop} [Decidable c] (h : DpTicked d W r s) (g : DpTicked d W r t) : DpTicked d W r (if c then s else t) := by
  split <;> assumption

end DpTicked

section
variable (s : State) (phases : List Int)

theorem dpTicked_tickDpll0 : DpTicked 0 (· ∈ [TIM_DPLL_STAT 0]) s (s.tickDpll0 phases) :=
  have h := DpTicked.refl s
  ((h.setDpll _).setErr _ (by simp)).ite (h.setDpll _)

theorem out_setErr (d : Nat) (x : Int) : ((s.setErr d x).dpll d).out = (s.dpll d).out :=
  have h : (s.setErr d x).dpll d = { s.dpll d with err := x } := tget_tset_self ..
  (congrArg Dpll.out h :)

theorem out_tickDpll0 : ((s.tickDpll0 phases).dpll 0).out = (s.dpll 0).out + 125 * (s.reg (TIM_DPLL_FREQ 0)).toInt := by
  unfold State.tickDpll0
  dsimp only
  split
  · rw [out_setErr]
    exact congrArg Dpll.out (tget_tset_self ..)
  · exact congrArg Dpll.out (tget_tset_self ..)

theorem dpTicked_tickStandby (d : Nat) : DpTicked d (· ∈ [TIM_DPLL_STAT d, TIM_DPLL_FREQ d]) s (s.tickStandby phases d) :=
  have h := DpTicked.refl s
  h.ite (((h.setErr _ (by simp)).setDpll _).setReg _ _ (by simp))

/-- DPLL1 with its time error taken, where it has a reference. -/
def State.errorTaken (s : State) : State := if s.selValid 1 then s.judgeStep (s.timeError phases) else s

/-- The slew of DPLL1 at this tick, and what stands once it is chosen. -/
def State.slew (s : State) : Int := if s.selValid 1 then s.slewRate else 0

def State.slewChosen (s : State) : State := if s.selValid 1 then s.useFree else s

theorem dpTicked_judgeStep (err : Int) : DpTicked 1 (· ∈ [TIM_DPLL_STAT 1]) s (s.judgeStep err) :=
  have h := DpTicked.refl s
  (((h.setDpll _).raise _ _ _).setErr _ (by simp)).ite (h.setErr _ (by simp))

theorem dpTicked_errorTaken : DpTicked 1 (· ∈ [TIM_DPLL_STAT 1]) s (s.errorTaken phases) :=
  (dpTicked_judgeStep s _).ite (.refl s)

theorem dpTicked_slewChosen : DpTicked 1 (· ∈ [TIM_DPLL_STAT 1]) s s.slewChosen :=
  (DpTicked.refl s).useFree.ite (.refl s)

theorem slewRate_le : s.slewRate.natAbs ≤ 1000 * s.fld TIM_DPLL_CFG1 TIM_DPLL_CFG1_PSL := by
  have hlt (m n : Nat) : n % (m + 1) ≤ m := Nat.le_of_lt_succ (Nat.mod_lt _ (Nat.succ_pos m))
  have hmin : min (1000 * s.fld TIM_DPLL_CFG1 TIM_DPLL_CFG1_PSL) ((s.dpll 1).err.natAbs / 125) ≤ 1000 * s.fld TIM_DPLL_CFG1 TIM_DPLL_CFG1_PSL :=
    Nat.min_le_left _ _
  unfold State.slewRate
  dsimp only
  split
  · rw [Int.natAbs_neg, Int.natAbs_natCast]
    exact (hlt _ _).trans hmin
  · rw [Int.natAbs_natCast]
    exact (hlt _ _).trans hmin

theorem slew_le : s.slew.natAbs ≤ 1000 * s.fld TIM_DPLL_CFG1 TIM_DPLL_CFG1_PSL := by
  unfold State.slew
  split
  · exact slewRate_le s
  · exact Nat.zero_le _

theorem tickDpll1_eq : ∃ x : Dpll, s.tickDpll1 phases =
    ({ (s.errorTaken phases).slewChosen.setDpll 1 x with
        tm := { ((s.errorTaken phases).slewChosen.setDpll 1 x).tm with phase := none } }).setReg (TIM_DPLL_FREQ 1)
      (BitVec.ofInt 32 ((s.reg (TIM_DPLL_FREQ 0)).toInt + (s.errorTaken phases).slew)) := ⟨_, rfl⟩

theorem selValid_errorTaken : (s.errorTaken phases).selValid 1 = s.selValid 1 :=
  (dpTicked_errorTaken s phases).flag (by decide) _

theorem DpTicked.trans {d : Nat} {W : Nat → Prop} {r s t : State} (h : DpTicked d W r s) (g : DpTicked d W s t) : DpTicked d W r t :=
  ⟨h.toAdded.trans g.toAdded, fun e he => (g.others e he).trans (h.others e he), g.commit.trans h.commit, g.temp.trans h.temp⟩

theorem DpTicked.mono {d : Nat} {W V : Nat → Prop} {r s : State} (h : DpTicked d W r s) (hW : ∀ a, W a → V a) : DpTicked d V r s :=
  ⟨h.toAdded.mono hW, h.others, h.commit, h.temp⟩

theorem dpTicked_tickDpll1 : DpTicked 1 (· ∈ [TIM_DPLL_STAT 1, TIM_DPLL_FREQ 1]) s (s.tickDpll1 phases) := by
  obtain ⟨x, hx⟩ := tickDpll1_eq s phases
  have h := ((dpTicked_errorTaken s phases).trans (dpTicked_slewChosen _)).mono (V := (· ∈ [TIM_DPLL_STAT 1, TIM_DPLL_FREQ 1])) (by simp)
  rw [hx]
  exact ((h.setDpll x).phaseTaken).setReg _ _ (by simp)

/-- DPLL1 rides on DPLL0's frequency with a slew within its limit. -/
theorem freq_tickDpll1 : ∃ r : Int, r.natAbs ≤ 1000 * s.fld TIM_DPLL_CFG1 TIM_DPLL_CFG1_PSL ∧ (s.selValid 1 = false → r = 0)
    ∧ (s.tickDpll1 phases).reg (TIM_DPLL_FREQ 1) = BitVec.ofInt 32 ((s.reg (TIM_DPLL_FREQ 0)).toInt + r) := by
  obtain ⟨x, hx⟩ := tickDpll1_eq s phases
  refine ⟨(s.errorTaken phases).slew, ?_, fun h => if_neg (by simp [selValid_errorTaken, h]), by rw [hx, reg_setReg_self]⟩
  rw [← (dpTicked_errorTaken s phases).fld (a := TIM_DPLL_CFG1) (by decide)]
  exact slew_le _

/-- The registers of the DPLLs that a tick writes apart from DPLL0's frequency. -/
def dpTickRegs : List Nat :=
  [TIM_DPLL_STAT 0, TIM_DPLL_STAT 1, TIM_DPLL_STAT 2, TIM_DPLL_STAT 3, TIM_DPLL_FREQ 1, TIM_DPLL_FREQ 2, TIM_DPLL_FREQ 3]

/-- What a tick of the four DPLLs leaves. -/
structure DpllsTicked (s t : State) : Prop extends Added (· ∈ dpTickRegs) s t where
  out : (t.dpll 0).out = (s.dpll 0).out + 125 * (s.reg (TIM_DPLL_FREQ 0)).toInt
  rides : ∃ r : Int, r.natAbs ≤ 1000 * s.fld TIM_DPLL_CFG1 TIM_DPLL_CFG1_PSL ∧ (s.selValid 1 = false → r = 0)
    ∧ t.reg (TIM_DPLL_FREQ 1) = BitVec.ofInt 32 ((s.reg (TIM_DPLL_FREQ 0)).toInt + r)
  commit : t.tm.commit = s.tm.commit
  temp : t.tm.temp = s.tm.temp

theorem dpllsTicked_tickDplls : DpllsTicked s (s.tickDplls phases) := by
  set x := s.tickDpll0 phases with hx
  set y := x.tickStandby phases 2 with hy
  set z := y.tickStandby phases 3 with hz
  have h0 := dpTicked_tickDpll0 s phases
  have h2 := dpTicked_tickStandby x phases 2
  have h3 := dpTicked_tickStandby y phases 3
  have h1 := dpTicked_tickDpll1 z phases
  have hw : Added (· ∈ dpTickRegs) s z :=
    ((h0.toAdded.mono (by simp [dpTickRegs])).trans (h2.toAdded.mono (by simp [dpTickRegs]))).trans (h3.toAdded.mono (by simp [dpTickRegs]))
  refine ⟨hw.trans (h1.toAdded.mono (by simp [dpTickRegs])), ?out, ?rides, ?commit, ?temp⟩
  case out =>
    show ((z.tickDpll1 phases).dpll 0).out = _
    rw [h1.others 0 (by decide), hz, h3.others 0 (by decide), hy, h2.others 0 (by decide), hx, out_tickDpll0]
  case rides =>
    obtain ⟨r, hr, hzero, hfreq⟩ := freq_tickDpll1 z phases
    refine ⟨r, ?_, fun h => hzero ?_, ?_⟩
    · rwa [← hw.fld (a := TIM_DPLL_CFG1) (by decide)]
    · exact (hw.flag (by decide) _).trans h
    · rw [← hw.regs (TIM_DPLL_FREQ 0) (by decide)]
      exact hfreq
  case commit => exact h1.commit.trans (h3.commit.trans (h2.commit.trans h0.commit))
  case temp => exact h1.temp.trans (h3.temp.trans (h2.temp.trans h0.temp))

end

/-! ### The report (R34, R35, R243) -/

/-- What SP keeps of a correction word that it rejects. -/
def State.corrRejected (s : State) (corr : Int) : State :=
  let s := { s with sp := { s.sp with rejects := s.recentRejects ++ [s.now] } }
  (s.setFlag SUP_SAFETY_STAT SUP_SAFETY_STAT_CORR_REJ true).raise islSP 0x014 [BitVec.ofInt 32 corr]

/-- What SP keeps of one that it takes. -/
def State.corrTaken (s : State) (corr : Int) : State :=
  ({ s with sp := { s.sp with corr := corr, corrSeen := true, rejects := s.recentRejects } }).setFlag SUP_SAFETY_STAT SUP_SAFETY_STAT_CORR_REJ
    false

section
variable (s : State) (corr : Int)

theorem correctionWord_cases : s.correctionWord corr = s.corrRejected corr
    ∨ ¬ 4600000 < corr.natAbs ∧ s.correctionWord corr = s.corrTaken corr := by
  unfold State.correctionWord
  dsimp only
  split
  · exact .inl rfl
  · next h => exact .inr ⟨fun hbig => h (by simp [hbig]), rfl⟩

theorem touched_setSp (x : Sup) : Touched (· ∈ [SUP_SAFETY_STAT]) s { s with sp := x } := (Touched.refl s).beside rfl rfl

theorem touched_corrRejected : Touched (· ∈ [SUP_SAFETY_STAT]) s (s.corrRejected corr) :=
  ((touched_setSp s _).setFlag SUP_SAFETY_STAT _ _ (by simp)).raise _ _ _

theorem touched_corrTaken : Touched (· ∈ [SUP_SAFETY_STAT]) s (s.corrTaken corr) :=
  (touched_setSp s _).setFlag SUP_SAFETY_STAT _ _ (by simp)

theorem corrRej_corrRejected : (s.corrRejected corr).flag SUP_SAFETY_STAT SUP_SAFETY_STAT_CORR_REJ = true :=
  (flag_raise ..).trans (flag_setFlag_self _ _ (by decide) rfl true)

/-- Monitor B's judgement of the correction word. -/
structure CorrJudged (corr : Int) (s t : State) : Prop extends Touched (· ∈ [SUP_SAFETY_STAT]) s t where
  tm : t.tm = s.tm
  refOk : t.sp.refOk = s.sp.refOk
  hoValid : t.sp.hoValid = s.sp.hoValid
  rejects : 4600000 < corr.natAbs → t.flag SUP_SAFETY_STAT SUP_SAFETY_STAT_CORR_REJ = true ∧ t.sp.corr = s.sp.corr

theorem corrJudged_correctionWord : CorrJudged corr s (s.correctionWord corr) := by
  obtain h | ⟨hsmall, h⟩ := correctionWord_cases s corr
  · rw [h]
    have hsp : (s.corrRejected corr).sp = { s.sp with rejects := s.recentRejects ++ [s.now] } := sp_raise ..
    exact ⟨touched_corrRejected s corr, tm_raise .., by rw [hsp], by rw [hsp], fun _ => ⟨corrRej_corrRejected s corr, by rw [hsp]⟩⟩
  · rw [h]
    exact ⟨touched_corrTaken s corr, rfl, rfl, rfl, fun hbig => absurd hbig hsmall⟩

theorem tm_judgeSquelch : s.judgeSquelch.tm = s.tm := by
  rw [judgeSquelch_eq]
  split
  · unfold State.squelchClose
    split
    · rfl
    · exact tm_raise ..
  · rfl

end

/-- The state as TM settles it at a tick. -/
def State.ticked (s : State) (freq caseTemp ntcTemp : Int) (phases : List Int) : State :=
  ((((s.commitTick).tickTemp caseTemp ntcTemp).dpll0Freq freq).tickDplls phases).timSettle

/-- What the tick leaves before SP judges its report. -/
structure Ticked (s : State) (freq caseTemp ntcTemp : Int) (t : State) : Prop extends Added Safety.timRegs s t where
  commit : t.tm.commit = false
  active : t.activeCopy = if s.tm.commit then 1 - s.activeCopy else s.activeCopy
  freq : t.reg (TIM_DPLL_FREQ 0) = ((s.commitTick).tickTemp caseTemp ntcTemp).freqWord freq
  out : (t.dpll 0).out = (s.dpll 0).out + 125 * (t.reg (TIM_DPLL_FREQ 0)).toInt
  rides : ∃ r : Int, r.natAbs ≤ 1000 * s.fld TIM_DPLL_CFG1 TIM_DPLL_CFG1_PSL ∧ (s.selValid 1 = false → r = 0)
    ∧ t.reg (TIM_DPLL_FREQ 1) = BitVec.ofInt 32 ((t.reg (TIM_DPLL_FREQ 0)).toInt + r)
  shown : t.reg TIM_HO_TEMP = BitVec.ofInt 32 t.tm.temp
  temp : t.tm.temp = if s.flag TIM_HO_CFG TIM_HO_CFG_TEMP_SRC && s.flag TIM_HO_STAT TIM_HO_STAT_TEMP_FAULT then s.tm.temp
    else ((s.readings (if s.flag TIM_HO_CFG TIM_HO_CFG_TEMP_SRC then ntcTemp else caseTemp)).map (fun x => x.2)).sum
      / ((s.readings (if s.flag TIM_HO_CFG TIM_HO_CFG_TEMP_SRC then ntcTemp else caseTemp)).length : Int)

/-- A list of TM's registers. -/
theorem timRegs_of_mem {l : List Nat} (hl : l.all (fun a => decide (0x40500000 ≤ a ∧ a < 0x40530000)) = true) {a : Nat} (h : a ∈ l) :
    Safety.timRegs a := by
  have h := of_decide_eq_true (List.all_eq_true.mp hl a h)
  exact h

theorem ticked_spec (s : State) (freq caseTemp ntcTemp : Int) (phases : List Int) :
    Ticked s freq caseTemp ntcTemp (s.ticked freq caseTemp ntcTemp phases) := by
  set a := s.commitTick with ha
  set b := a.tickTemp caseTemp ntcTemp with hb
  set c := b.dpll0Freq freq with hc
  set d := c.tickDplls phases with hd
  have hA := commitTicked_commitTick s
  have hB := tempTicked_tickTemp a caseTemp ntcTemp
  have hC := freqTicked_dpll0Freq b freq
  have hD := dpllsTicked_tickDplls c phases
  have hE := settled_timSettle d
  have heq : s.ticked freq caseTemp ntcTemp phases = d.timSettle := rfl
  obtain ⟨ok, hAtm⟩ := hA.tm
  obtain ⟨l, g, T, y, hBtm⟩ := hB.tm
  obtain ⟨avg, hCtm⟩ := hC.tm
  have hfreq : d.timSettle.reg (TIM_DPLL_FREQ 0) = c.reg (TIM_DPLL_FREQ 0) :=
    (hE.regs _ (by decide)).trans (hD.regs _ (by decide))
  have htemp : d.timSettle.tm.temp = b.tm.temp := by
    rw [hE.keeps Timing.temp fun _ _ _ => rfl, hD.temp, hCtm]
  rw [heq]
  refine ⟨?added, ?commit, ?active, hfreq.trans hC.freq, ?out, ?rides, ?shown, ?temp⟩
  case added =>
    exact ((((hA.toAdded.mono fun a => timRegs_of_mem (by decide)).trans (hB.toAdded.mono fun a => timRegs_of_mem (by decide))).trans
      (hC.toAdded.mono fun a => timRegs_of_mem (by decide))).trans (hD.toAdded.mono fun a => timRegs_of_mem (by decide))).trans
      (hE.toAdded.mono fun a => timRegs_of_mem (by decide))
  case commit => rw [hE.keeps Timing.commit fun _ _ _ => rfl, hD.commit, hCtm, hBtm, hAtm]
  case active =>
    calc d.timSettle.activeCopy = d.activeCopy := hE.fld (by decide) _
      _ = c.activeCopy := hD.fld (by decide) _
      _ = b.activeCopy := hC.active
      _ = a.activeCopy := hB.fld (by decide) _
      _ = _ := hA.active
  case out =>
    have hkept : d.timSettle.dpll 0 = d.dpll 0 := hE.keeps (fun x => tget x.dplls .init 0) fun _ _ _ => rfl
    have hstart : c.dpll 0 = s.dpll 0 := by rw [State.dpll, hCtm, hBtm, hAtm, State.dpll]
    rw [hkept, hD.out, hfreq, hstart]
  case rides =>
    obtain ⟨r, hr, hzero, hword⟩ := hD.rides
    have hpsl : c.fld TIM_DPLL_CFG1 TIM_DPLL_CFG1_PSL = s.fld TIM_DPLL_CFG1 TIM_DPLL_CFG1_PSL := by
      rw [hC.fld (by decide), hB.fld (by decide), hA.fld (by decide)]
    have hsel : c.selValid 1 = s.selValid 1 := by
      rw [State.selValid, hC.flag (by decide), hB.flag (by decide), hA.flag (by decide), State.selValid]
    refine ⟨r, hpsl ▸ hr, fun h => hzero (hsel.trans h), ?_⟩
    rw [hE.regs _ (by decide), hword, hfreq]
  case shown => rw [hE.regs _ (by decide), hD.regs _ (by decide), hC.regs _ (by decide), hB.shown, htemp]
  case temp =>
    have hsrc : a.flag TIM_HO_CFG TIM_HO_CFG_TEMP_SRC = s.flag TIM_HO_CFG TIM_HO_CFG_TEMP_SRC := hA.flag (by decide) _
    have hread (x : Int) : a.readings x = s.readings x := by rw [State.readings, hAtm, hA.now, State.readings]
    have hheld : a.tm.temp = s.tm.temp := by rw [hAtm]
    rw [htemp, hB.temp, hsrc, hA.tempFault, hread, hheld]

/-- The frequency word by DPLL0's state as it was before the tick. -/
theorem freqWord_tick (s : State) (freq caseTemp ntcTemp : Int) : ((s.commitTick).tickTemp caseTemp ntcTemp).freqWord freq =
    if s.dpState 0 = dpHoldover then BitVec.ofInt 32 (-((s.commitTick).tickTemp caseTemp ntcTemp).predicted.1)
    else if s.dpState 0 ≠ dpFree ∧ s.selValid 0 = false then s.reg (TIM_DPLL_FREQ 0)
    else BitVec.ofInt 32 freq := by
  have hA := commitTicked_commitTick s
  have hB := tempTicked_tickTemp s.commitTick caseTemp ntcTemp
  have hstate : ((s.commitTick).tickTemp caseTemp ntcTemp).dpState 0 = s.dpState 0 := (hB.fld (by decide) _).trans (hA.fld (by decide) _)
  have hsel : ((s.commitTick).tickTemp caseTemp ntcTemp).selValid 0 = s.selValid 0 := (hB.flag (by decide) _).trans (hA.flag (by decide) _)
  have hreg : ((s.commitTick).tickTemp caseTemp ntcTemp).reg (TIM_DPLL_FREQ 0) = s.reg (TIM_DPLL_FREQ 0) :=
    (hB.regs _ (by decide)).trans (hA.regs _ (by decide))
  rw [State.freqWord, hstate, hsel, hreg]

/-- What SP reads of the report. -/
def State.tickReported (s : State) : State :=
  { s with sp := { s.sp with refOk := s.flag TIM_STAT TIM_STAT_REF_OK, hoValid := s.flag TIM_STAT TIM_STAT_HO_VALID } }

theorem exec_tmReport {s : State} (h : s.running islTM = true) (freq caseTemp ntcTemp : Int) (phases : List Int) :
    let x := (s.ticked freq caseTemp ntcTemp phases).tickReported
    exec (.tmReport freq caseTemp ntcTemp phases) s = .next (x.correctionWord (x.reg (TIM_DPLL_FREQ 0)).toInt).judgeSquelch :=
  congrArg Host.Outcome.next (if_neg (by simp [h]))

/-- SP's judgement of the report that `y` has settled. -/
structure ReportJudged (y t : State) : Prop extends Touched (· ∈ [SUP_SAFETY_STAT]) y t where
  tm : t.tm = y.tm
  rejects : 4600000 < (y.reg (TIM_DPLL_FREQ 0)).toInt.natAbs → t.flag SUP_SAFETY_STAT SUP_SAFETY_STAT_CORR_REJ = true ∧ t.sp.corr = y.sp.corr
  squelches : y.flag TIM_STAT TIM_STAT_REF_OK = false → y.flag TIM_STAT TIM_STAT_HO_VALID = false →
    t.flag SUP_SAFETY_STAT SUP_SAFETY_STAT_SQUELCH = true

theorem reportJudged (y : State) :
    ReportJudged y (y.tickReported.correctionWord (y.tickReported.reg (TIM_DPLL_FREQ 0)).toInt).judgeSquelch := by
  have hcorr := corrJudged_correctionWord y.tickReported (y.tickReported.reg (TIM_DPLL_FREQ 0)).toInt
  set x := y.tickReported.correctionWord (y.tickReported.reg (TIM_DPLL_FREQ 0)).toInt with hx
  have hreported : Touched (· ∈ [SUP_SAFETY_STAT]) y y.tickReported := (Touched.refl y).beside rfl rfl
  refine ⟨(hreported.trans hcorr.toTouched).trans (touched_judgeSquelch x), (tm_judgeSquelch x).trans hcorr.tm, fun hbig => ?_, fun hr hh => ?_⟩
  · obtain ⟨hrej, hkept⟩ := hcorr.rejects hbig
    exact ⟨(flag_judgeSquelch x (by decide)).trans hrej, by rw [sp_judgeSquelch, hkept]; rfl⟩
  · have hr' : x.sp.refOk = false := hcorr.refOk.trans hr
    have hh' : x.sp.hoValid = false := hcorr.hoValid.trans hh
    rw [squelch_judgeSquelch]
    simp [State.gateCloses, hr', hh']

/-! ### The obligation -/

/-- Settles O43: TIM_STAT follows from DPLL0's state by one rule, a DPLL's entry into a state by another, and the report is composed of the
tick's parts. -/
theorem dpllsAndHoldover : Obligations.DpllsAndHoldover := by
  unfold Obligations.DpllsAndHoldover
  refine ⟨fun s h => ⟨ocxoFault_spec h, ocxoRecovery_spec h, dpllLock_spec h, dpllLockLoss_spec h, anchorSet_spec h, holdoverLimit_spec h,
    tempSensorFault_spec h, learningSample_spec h⟩, fun s v hv hm ht => hoSamplePop_spec hv hm ht, ?commit, ?report⟩
  case commit =>
    intro s v q token hg ht htok
    obtain ⟨t, hexec, h⟩ := modelCommit_spec hg ht htok
    exact ⟨t, hexec, h.okay, h.added.fld (by decide) _, h.accepted, h.refused, h.added.regs, sameMem_of_mem h.added.mem⟩
  case report =>
    intro s freq caseTemp ntcTemp phases hrun ntc readings
    have hy := ticked_spec s freq caseTemp ntcTemp phases
    set y := s.ticked freq caseTemp ntcTemp phases with hy'
    have ht := reportJudged y
    set t := (y.tickReported.correctionWord (y.tickReported.reg (TIM_DPLL_FREQ 0)).toInt).judgeSquelch with ht'
    have hreg (a : Nat) (ha : ¬ a ∈ [SUP_SAFETY_STAT]) : t.reg a = y.reg a := ht.regs a ha
    have hfreq : t.reg (TIM_DPLL_FREQ 0) = _ := ((hreg _ (by decide)).trans hy.freq).trans (freqWord_tick s freq caseTemp ntcTemp)
    refine ⟨t, exec_tmReport hrun freq caseTemp ntcTemp phases, by rw [ht.tm, hy.commit], (fld_of_reg (hreg _ (by decide)) _).trans hy.active,
      fun h => ?loop, fun hf hh hv => ?lost, fun hh => ?holdover, ?out, ?rides, ?shown, by rw [ht.tm]; exact hy.temp, fun hbig => ?rejects,
      fun hr hh => ?squelches, fun a ha => ?regs, ?mem⟩
    case loop =>
      rw [hfreq]
      rcases h with h | ⟨h, hv⟩
      · rw [if_neg (by rw [h]; decide), if_neg (by simp [h])]
      · rw [if_neg h, if_neg (by simp [hv])]
    case lost => rw [hfreq, if_neg hh, if_pos ⟨hf, hv⟩]
    case holdover => rw [hfreq, if_pos hh]
    case out => rw [State.dpll, ht.tm, ← State.dpll, hreg _ (by decide), hy.out]
    case rides => rw [hreg (TIM_DPLL_FREQ 0) (by decide), hreg (TIM_DPLL_FREQ 1) (by decide)]; exact hy.rides
    case shown => rw [hreg _ (by decide), ht.tm]; exact hy.shown
    case rejects =>
      rw [hreg _ (by decide)] at hbig
      obtain ⟨hrej, hcorr⟩ := ht.rejects hbig
      exact ⟨hrej, by rw [hcorr, hy.sp]⟩
    case squelches =>
      rw [flag_of_reg (hreg TIM_STAT (by decide))] at hr hh
      exact ht.squelches hr hh
    case regs =>
      rw [hreg a fun h => ha (.inr (List.mem_singleton.mp h)), hy.regs a fun h => ha (.inl h)]
    case mem => exact sameMem_of_mem (ht.mem.trans hy.mem)

end Sys2Proof.Machine
end

section
/-! SUPPORT. The loader's step marks, a slot that fails, and which registers the start of the cores and the dispatch of tasks leave alone
(R62, R81, R86, R303). -/

namespace Sys2Proof.Machine

/-! ### A step's start mark (R86) -/

/-- What a step's start mark writes: the step and the durations of the steps. -/
def stepRegs (a : Nat) : Prop := a = NVM_STAT ∨ ∃ j < 9, a = NVM_STEP_TIME j

theorem not_stepRegs {a : Nat} (hne : a ≠ NVM_STAT) (h : a < 0x40010020 ∨ 0x40010044 ≤ a) : ¬ stepRegs a := by
  rintro (rfl | ⟨j, hj, rfl⟩)
  · exact hne rfl
  · unfold NVM_STEP_TIME at h
    omega

section
variable (s : State) (k : Nat)

/-- The duration of the step that ends. -/
def State.stepTimed (s : State) : State :=
  let j := s.fld NVM_STAT NVM_STAT_STEP
  if 1 ≤ j ∧ j ≤ 9 then s.setReg (NVM_STEP_TIME (j - 1)) (w32 (min 0xFFFFFFFF ((s.now - s.ld.stepSince) / 1000))) else s

theorem beginStep_eq : s.beginStep k = { s.stepTimed.setFld NVM_STAT NVM_STAT_STEP k with
    ld := { s.stepTimed.ld with stepSince := s.stepTimed.now, timed := true } } := rfl

/-- The duration's register beside, nothing has moved. -/
theorem stepTimed_cases : s.stepTimed = s ∨ ∃ j < 9, ∃ w, s.stepTimed = s.setReg (NVM_STEP_TIME j) w := by
  unfold State.stepTimed
  dsimp only
  split
  · exact .inr ⟨_, by omega, _, rfl⟩
  · exact .inl rfl

theorem touched_stepTimed : Touched (fun a => ∃ j < 9, a = NVM_STEP_TIME j) s s.stepTimed := by
  obtain h | ⟨j, hj, w, h⟩ := stepTimed_cases s
  · exact h.symm ▸ .refl s
  · exact h.symm ▸ (Touched.refl s).setReg _ _ ⟨j, hj, rfl⟩

theorem touched_beginStep : Touched stepRegs s (s.beginStep k) :=
  (((touched_stepTimed s).mono fun _ => .inr).setFld NVM_STAT NVM_STAT_STEP k (.inl rfl)).beside rfl rfl

theorem step_beginStep (h : k < 16) : (s.beginStep k).fld NVM_STAT NVM_STAT_STEP = k :=
  (fld_setFld_self s.stepTimed NVM_STAT (f := NVM_STAT_STEP) (by decide) k).trans (Nat.mod_eq_of_lt h)

theorem window_beginStep : (s.beginStep k).flag NVM_STAT NVM_STAT_WINDOW = s.flag NVM_STAT NVM_STAT_WINDOW := by
  refine (flag_setFld_other s.stepTimed NVM_STAT (by decide) k).trans (flag_of_reg ((touched_stepTimed s).regs _ ?_) _)
  rintro ⟨j, -, h⟩
  unfold NVM_STAT NVM_STEP_TIME at h
  omega

/-- What a register does not hold stands. -/
theorem keeps_stepTimed {β : Type} (g : State → β) (hg : ∀ x a w, g (State.setReg x a w) = g x) : g s.stepTimed = g s := by
  obtain h | ⟨j, -, w, h⟩ := stepTimed_cases s
  · rw [h]
  · rw [h, hg]

theorem sp_beginStep : (s.beginStep k).sp = s.sp := keeps_stepTimed s State.sp fun _ _ _ => rfl

theorem chan_beginStep : (s.beginStep k).chan = s.chan := keeps_stepTimed s State.chan fun _ _ _ => rfl

theorem now_beginStep : (s.beginStep k).now = s.now := keeps_stepTimed s State.now fun _ _ _ => rfl

theorem ld_beginStep : (s.beginStep k).ld = { s.ld with stepSince := s.now, timed := true } := by
  rw [beginStep_eq, keeps_stepTimed s State.ld fun _ _ _ => rfl, keeps_stepTimed s State.now fun _ _ _ => rfl]

theorem reg_beginStep_ne {a : Nat} (hne : a ≠ NVM_STAT) (h : a < 0x40010020 ∨ 0x40010044 ≤ a) : (s.beginStep k).reg a = s.reg a :=
  (touched_beginStep s k).regs a (not_stepRegs hne h)

theorem life_beginStep : (s.beginStep k).life = s.life :=
  life_of_reg (reg_beginStep_ne s k (by decide) (by decide)) (by rw [sp_beginStep])

end

/-! ### An entry leaves the rest of SUP_STATE and the loader alone (R14) -/

section
variable (s : State) (st cause : Nat) (extra : List Word)

theorem ld_enter : (s.enter st cause extra).ld = s.ld := by
  refine (added_enter s st cause extra).ld.trans ?_
  unfold State.announce
  rw [ld_raise]
  rfl

theorem slot_enter : (s.enter st cause extra).slot = s.slot := by
  refine ((added_enter s st cause extra).fld (not_enterRegs (by decide) (by decide)) _).trans ?_
  unfold State.announce
  rw [fld_raise, fld_setFld_other _ _ (by decide), fld_setFld_other _ _ (by decide), fld_setFld_other _ _ (by decide)]
  rfl

theorem now_enter : (s.enter st cause extra).now = s.now := (keeps_enter (keeps_refl s) st cause extra).clock

end

/-! ### Safe keeps what the loader showed (R46) -/

theorem ld_enterSafe (s : State) (prev cause : Nat) : (s.enterSafe prev cause).ld = { s.ld with running := false, timed := false } := by
  rw [enterSafe_eq, (frame_setIslands _ _ _).ld, (frame_lockBridge _ _).ld]
  refine (frame_outputsOff _).ld.trans ?_
  have hbegun : (s.safeBegun prev cause).ld = s.ld := (ld_enter _ _ _ _).trans (added_driveClaim s false).ld
  rw [← hbegun]

/-- A register of the loader other than its status, and none of SP's. -/
theorem reg_enterSafe (s : State) (prev cause : Nat) {a : Nat} (hlo : NVM_STAT < a) (hhi : a < 0x40020000) :
    (s.enterSafe prev cause).reg a = s.reg a := by
  unfold NVM_STAT at hlo
  have hsafety : a ≠ SUP_SAFETY_STAT := by unfold SUP_SAFETY_STAT; omega
  have hstate : a ≠ SUP_STATE := by unfold SUP_STATE; omega
  have hcount : SUP_TO_STAT ≠ a := by unfold SUP_TO_STAT; omega
  have hstat : NVM_STAT ≠ a := by unfold NVM_STAT; omega
  have hpads : ¬ padRegs a := not_padRegs (by omega) hsafety
  have hbegun : (s.safeBegun prev cause).reg a = s.reg a := by
    refine (reg_enter_ne _ _ (by omega) hsafety hstate).trans ?_
    rw [reg_setFld_ne _ _ _ hstate.symm, reg_setFld_ne _ _ _ hcount, (added_driveClaim s false).regs a hpads]
  have hheld (u : State) : u.safeHeld.reg a = u.reg a :=
    (reg_setFld_ne _ NVM_STAT_WINDOW _ hstat).trans ((frame_outputsOff _).regs a hpads)
  rw [enterSafe_eq, (frame_setIslands _ _ _).regs a (not_islandRegs hhi (by unfold SUP_ISLAND_STAT; omega)),
    (frame_lockBridge _ _).regs a (by unfold beyondNvm; omega), hheld, hbegun]

/-- The entry from a state that is neither Dormant, Safe nor Limp. -/
theorem safeEntry_of_other {s : State} {cause : Nat} (hd : s.life ≠ stDormant) (hs : s.life ≠ stSafe) (hl : s.life ≠ stLimp) :
    s.safeEntry cause = s.enterSafe s.life cause := by
  unfold State.safeEntry
  rw [if_neg hd, if_neg hs, if_neg (fun h => hl h.1)]

/-! ### The start of the cores and the dispatch of tasks (R62, R303, R304) -/

/-- The registers beyond MTX_REMAP, and the islands' RUN bits. -/
def armRegs (a : Nat) : Prop := a = SUP_ISLAND_STAT ∨ MTX_REMAP < a

theorem not_armRegs {a : Nat} (hne : a ≠ SUP_ISLAND_STAT) (h : a ≤ MTX_REMAP) : ¬ armRegs a := by
  rintro (h' | h')
  · exact hne h'
  · omega

theorem armRegs_taskStat (t : Nat) : armRegs (SVC_TASK_STAT t) := .inr (by unfold SVC_TASK_STAT MTX_REMAP; omega)

theorem armRegs_pairStat (q : Nat) : armRegs (SVC_PAIR_STAT q) := .inr (by unfold SVC_PAIR_STAT MTX_REMAP; omega)

/-- What of a state the registers, SP and the loader hold stays where only its other parts move. -/
theorem Frame.beside {W : Nat → Prop} {r s t : State} (h : Frame W r s) (hr : t.regs = s.regs) (hsp : t.sp = s.sp) (hld : t.ld = s.ld) :
    Frame W r t :=
  ⟨fun a ha => by rw [State.reg, hr, ← State.reg, h.regs a ha], hsp.trans h.sp, hld.trans h.ld⟩

section
variable {r s : State} (h : Frame armRegs r s)
include h

theorem frame_setTask (t : Nat) (x : Task) : Frame armRegs r (s.setTask t x) := h.beside rfl rfl rfl

theorem frame_setCore (q : Nat) (x : Core) : Frame armRegs r (s.setCore q x) := h.beside rfl rfl rfl

theorem frame_setTaskState (t st : Nat) : Frame armRegs r (s.setTaskState t st) := h.setFld _ _ _ (armRegs_taskStat t)

theorem frame_makeReady (t : Nat) : Frame armRegs r (s.makeReady t) :=
  have hturn : Frame armRegs r (({ s with turns := s.turns + 1 }).setTask t { s.task t with order := s.turns }) := h.beside rfl rfl rfl
  frame_setTaskState hturn t tkReady

theorem frame_wake (t cause : Nat) : Frame armRegs r (s.wake t cause) := by
  have hidle := frame_makeReady (h.setFld (SVC_TASK_STAT t) SVC_TASK_STAT_CAUSE cause (armRegs_taskStat t)) t
  have hmerged : Frame armRegs r (s.mergeWake t cause) := (h.count SVC_WAKE_MERGED 1 (.inr (by decide))).raiseFirst _ _ _ _
  have hpending := frame_setTask (h.setFlag (SVC_TASK_STAT t) SVC_TASK_STAT_PENDING true (armRegs_taskStat t)) t { s.task t with pcause := cause }
  exact h.ite ((h.count SVC_TASK_DROPPED 1 (.inr (by decide))).ite (hidle.ite (hmerged.ite (h.ite hpending))))

theorem frame_parkTask (t : Nat) : Frame armRegs r (s.parkTask t) :=
  ((frame_setTaskState h t tkParked).raise _ _ _).ite (((frame_makeReady h t).raise _ _ _).ite h)

theorem frame_startTask (q t : Nat) : Frame armRegs r (s.startTask q t) := by
  have hready := Frame.ite (c := s.taskState t = tkReady) (h.setFlag (SVC_TASK_STAT t) SVC_TASK_STAT_PENDING false (armRegs_taskStat t)) h
  have hrunning := (frame_setTaskState hready t tkRunning).setFld (SVC_TASK_STAT t) SVC_TASK_STAT_LAST_PAIR q (armRegs_taskStat t)
  have hpair := (hrunning.setFld (SVC_PAIR_STAT q) SVC_PAIR_STAT_TASK t (armRegs_pairStat q)).setFlag (SVC_PAIR_STAT q) SVC_PAIR_STAT_IDLE
    (decide (t = noTask)) (armRegs_pairStat q)
  exact (frame_setTask (frame_setCore hpair q _) t _).ite (frame_setTask (frame_setCore hpair q _) t _)

theorem frame_dispatchPair (q : Nat) : Frame armRegs r (s.dispatchPair q) := by
  unfold State.dispatchPair
  split
  · split
    · exact frame_startTask h q _
    · exact h
  · exact h

theorem frame_saveTask (q : Nat) : Frame armRegs r (s.saveTask q) :=
  have hsaved := frame_setTask (h.beside (t := s.setBytes (s.saveArea (s.pairTask q)) (s.core q).context) rfl rfl rfl) (s.pairTask q) _
  (frame_setTaskState hsaved (s.pairTask q) tkPreempted).count SVC_PREEMPT_CNT 1 (.inr (by decide))

theorem frame_preempt : Frame armRegs r s.preempt := by
  unfold State.preempt
  split
  · exact h
  · split
    · exact h
    · exact frame_startTask (frame_saveTask h _) _ _

theorem frame_dispatch : Frame armRegs r s.dispatch :=
  have hparked := Frame.each (List.range 256) State.parkTask (fun _ t _ hx => frame_parkTask hx t) h
  h.ite (frame_preempt (frame_preempt (frame_dispatchPair (frame_dispatchPair hparked 0) 1)))

theorem frame_syncGate (g : Nat) : Frame armRegs r (s.syncGate g) :=
  have ha : armRegs (MTX_GATE_STAT g) := .inr (by unfold MTX_GATE_STAT MTX_REMAP; omega)
  h.ite ((((h.setFlag _ _ _ ha).setFlag _ _ _ ha).setFld _ _ _ ha).raise _ _ _)

theorem frame_clockedIsland (i : Nat) : Frame armRegs r (s.clockIsland true i) := by
  unfold State.clockIsland
  refine Frame.setFlag (Frame.ite h ?_) _ _ _ (.inl rfl)
  exact h.beside rfl rfl rfl

theorem frame_islandsStarted (l : List Nat) : Frame armRegs r (s.setIslands l true) := by
  rw [setIslands_eq]
  dsimp only
  split
  · exact h
  · exact ((h.each _ _ fun _ i _ hx => frame_clockedIsland hx i).raise _ _ _).each _ _ fun _ g _ hx => frame_syncGate hx g

theorem frame_releasePair (q : Nat) : Frame armRegs r (s.releasePair q) :=
  (frame_setCore ((frame_islandsStarted h [islSV q]).setFld _ _ _ (armRegs_pairStat q)) q _).ite h

theorem frame_armCheck (u : Nat) : Frame armRegs r (s.armCheck u) :=
  (h.beside (t := s.setUnit u { s.unit u with fed := false }) rfl rfl rfl).setFlag (CHK_STAT u) _ _
    (.inr (by unfold CHK_STAT MTX_REMAP; omega))

theorem frame_armTask (t : Nat) : Frame armRegs r (s.armTask t) :=
  have hidle := frame_setTaskState h t tkIdle
  ((frame_wake hidle t wkInit).ite hidle).ite h

end

end Sys2Proof.Machine
end

section
/-! PROOF of O11: a failed slot, the Archive scan, Armed, and the resumed accession numbers. -/

namespace Sys2Proof.Machine

/-! ### Checking (R79, R86) -/

/-- From `s` the module has entered Checking and begun step `k`. -/
structure Checking (k : Nat) (s u : State) : Prop where
  life : u.life = stChecking
  step : u.fld NVM_STAT NVM_STAT_STEP = k
  slot : u.slot = s.slot
  ld : u.ld = { s.ld with stepSince := s.now, timed := true }
  mem : u.mem = s.mem
  now : u.now = s.now

theorem checking_step5 (s : State) : Checking 5 s ((s.enter stChecking 0x00).beginStep 5) where
  life := (life_beginStep ..).trans (life_enter s [] (by decide))
  step := step_beginStep _ 5 (by decide)
  slot := (fld_of_reg (reg_beginStep_ne _ _ (by decide) (by decide)) _).trans (slot_enter s stChecking 0x00 [])
  ld := by rw [ld_beginStep, ld_enter, now_enter]
  mem := (touched_beginStep _ 5).mem.trans (mem_enter s [])
  now := (now_beginStep ..).trans (now_enter s stChecking 0x00 [])

theorem Checking.step6 {s u : State} (h : Checking 5 s u) : Checking 6 s (u.beginStep 6) where
  life := (life_beginStep ..).trans h.life
  step := step_beginStep _ 6 (by decide)
  slot := (fld_of_reg (reg_beginStep_ne _ _ (by decide) (by decide)) _).trans h.slot
  ld := by rw [ld_beginStep, h.ld, h.now]
  mem := (touched_beginStep _ 6).mem.trans h.mem
  now := (now_beginStep ..).trans h.now

/-- The state in which step 6 judges a slot. -/
def State.judging (s : State) : State := ((s.enter stChecking 0x00).beginStep 5).beginStep 6

theorem checking_judging (s : State) : Checking 6 s s.judging := (checking_step5 s).step6

theorem exec_slotChecking {s : State} (hl : s.loaderRuns = true) (hst : s.life = stLoading) (hread : s.slotRead = true) (c : List Byte)
    (x : CheckStall) : exec (.slotChecking c x) s = .next (if (s.checkSlot c x).ld.applied then (s.checkSlot c x).startBlocks
      else s.checkSlot c x) :=
  congrArg Host.Outcome.next (if_pos (by simp [hl, hst, hread]))

/-- A slot that is not applied stays as it was judged. -/
theorem exec_slotChecking_of_not_applied {s t : State} (hl : s.loaderRuns = true) (hst : s.life = stLoading) (hread : s.slotRead = true)
    {c : List Byte} {x : CheckStall} (hcheck : s.checkSlot c x = t) (happ : t.ld.applied = false) : exec (.slotChecking c x) s = .next t := by
  rw [exec_slotChecking hl hst hread, hcheck, happ]
  rfl

/-- A slot that failed while it was read is rejected with that failure. -/
theorem checkSlot_of_failed {s : State} {f : Nat × Nat} (hf : s.ld.fail = some f) (c : List Byte) :
    s.checkSlot c .nowhere = s.judging.rejectSlot f.1 f.2 := by
  have hfail : ((s.enter stChecking 0x00).beginStep 5).ld.fail = some f := by rw [(checking_step5 s).ld, hf]
  unfold State.checkSlot
  dsimp only
  rw [if_neg (by decide), if_neg (by decide), hfail]
  rfl

theorem slotRead_of_failed {s : State} {f : Nat × Nat} (hf : s.ld.fail = some f) : s.slotRead = true := by
  rw [State.slotRead, hf]
  rfl

/-! ### A rejected slot (R81) -/

/-- Working SRAM and folio memory zero-filled. -/
def State.scrubbed (s : State) : State := (s.zero sramBase sramSize).zero folioBase folioSize

/-- The failure of slot `slot` shown and told. -/
def State.failureShown (s : State) (slot code sec : Nat) : State :=
  let s := s.scrubbed.setFld (NVM_SLOT_STAT slot) NVM_SLOT_STAT_RESULT code
  let s := s.setFld (NVM_SLOT_STAT slot) NVM_SLOT_STAT_SECTION sec
  s.raise islLD 0x041 [s.reg (NVM_SLOT_STAT slot)]

/-- What the failure of a slot leaves, before the next slot or Safe. -/
structure FailureShown (slot code sec : Nat) (s t : State) : Prop extends Frame (· = NVM_SLOT_STAT slot) s t where
  result : t.fld (NVM_SLOT_STAT slot) NVM_SLOT_STAT_RESULT = code % 256
  sec : t.fld (NVM_SLOT_STAT slot) NVM_SLOT_STAT_SECTION = sec % 256
  sram : ∀ a, sramBase ≤ a → a < sramBase + sramSize → t.byte a = 0
  folio : ∀ a, folioBase ≤ a → a < folioBase + folioSize → t.byte a = 0
  retained : ∀ a, retentionBase ≤ a → t.byte a = s.byte a

theorem failureShown_spec (s : State) (slot code sec : Nat) : FailureShown slot code sec s (s.failureShown slot code sec) := by
  have hscrub : Frame (· = NVM_SLOT_STAT slot) s s.scrubbed := (Frame.refl s).beside rfl rfl rfl
  have hbyte (a : Nat) : (s.failureShown slot code sec).byte a = s.scrubbed.byte a := byte_raise ..
  exact {
    toFrame := ((hscrub.setFld _ NVM_SLOT_STAT_RESULT code rfl).setFld _ NVM_SLOT_STAT_SECTION sec rfl).raise _ _ _
    result := (fld_raise ..).trans ((fld_setFld_other _ _ (by decide) _).trans (fld_setFld_self s.scrubbed _ (by decide) code))
    sec := (fld_raise ..).trans (fld_setFld_self _ _ (by decide) sec)
    sram := fun a hlo hhi => by
      rw [hbyte, State.scrubbed, byte_zero_out _ (by simp only [sramBase, sramSize, folioBase] at *; omega), byte_zero_in _ ⟨hlo, hhi⟩]
    folio := fun a hlo hhi => by rw [hbyte, State.scrubbed, byte_zero_in _ ⟨hlo, hhi⟩]
    retained := fun a ha => by
      rw [hbyte, State.scrubbed, byte_zero_out _ (by simp only [retentionBase, folioSize, folioBase] at *; omega),
        byte_zero_out _ (by simp only [retentionBase, sramBase, sramSize] at *; omega)] }

theorem rejectSlot_of_B {s : State} (h : s.slot = 1) (code sec : Nat) : s.rejectSlot code sec = (s.failureShown 1 code sec).safeEntry 0x22 := by
  unfold State.rejectSlot
  rw [h]
  exact if_neg (by decide)

/-- The loader as `l`. -/
def State.withLoader (s : State) (l : Loader) : State := { s with ld := l }

theorem touched_withLoader (s : State) (l : Loader) : Touched (fun _ => False) s (s.withLoader l) := (Touched.refl s).beside rfl rfl

theorem life_withLoader (s : State) (l : Loader) : (s.withLoader l).life = s.life := life_of_reg ((touched_withLoader s l).regs _ id) rfl

/-- The loader as it begins with slot B. -/
def State.slotBLoader (s : State) : Loader :=
  { Loader.init with
    running := true, selfChecked := true, timed := true, stepSince := s.ld.stepSince, unprovisioned := s.ld.unprovisioned
    fallback03 := s.ld.fallback03, density := s.ld.density }

/-- Slot B shown, with the clock as at the start. -/
def State.slotBShown (s : State) : State := (s.setFld SUP_STATE SUP_STATE_SLOT 1).setFld NVM_STAT NVM_STAT_CLK 0

/-- Slot B in Loading, after slot A has failed. -/
def State.slotB (s : State) : State :=
  let s := s.slotBShown
  let s := s.enter stLoading 0x01 [s.reg SUP_RST_CAUSE]
  s.withLoader s.slotBLoader

theorem rejectSlot_of_A {s : State} (h : s.slot = 0) (code sec : Nat) : s.rejectSlot code sec = (s.failureShown 0 code sec).slotB := by
  unfold State.rejectSlot
  rw [h]
  dsimp only
  rw [if_pos rfl]
  simp only [State.slotB, State.slotBShown, State.slotBLoader, State.withLoader, State.failureShown, State.scrubbed]

/-- What begins with slot B. -/
structure SlotB (s t : State) : Prop where
  life : t.life = stLoading
  slot : t.slot = 1
  fail : t.ld.fail = none
  sections : t.ld.sections = []
  applied : t.ld.applied = false
  clk : t.fld NVM_STAT NVM_STAT_CLK = 0
  slotStat : t.reg (NVM_SLOT_STAT 0) = s.reg (NVM_SLOT_STAT 0)
  mem : t.mem = s.mem

theorem slotB_spec (s : State) : SlotB s s.slotB := by
  set x := s.slotBShown with hx
  set y := x.enter stLoading 0x01 [x.reg SUP_RST_CAUSE] with hy
  have heq : s.slotB = y.withLoader y.slotBLoader := rfl
  have hld := touched_withLoader y y.slotBLoader
  have hreg {a : Nat} (ha : a < 0x40100000) (hsafety : a ≠ SUP_SAFETY_STAT) (hstate : a ≠ SUP_STATE) :
      (y.withLoader y.slotBLoader).reg a = x.reg a :=
    (hld.regs a id).trans (reg_enter_ne x [x.reg SUP_RST_CAUSE] ha hsafety hstate)
  have hslot : y.slot = x.slot := slot_enter x stLoading 0x01 [x.reg SUP_RST_CAUSE]
  have hshown : x.slot = 1 := (fld_setFld_ne _ _ _ _ (by decide)).trans (fld_setFld_self s _ (by decide) 1)
  rw [heq]
  exact {
    life := (life_withLoader _ _).trans (life_enter x [x.reg SUP_RST_CAUSE] (by decide))
    slot := (fld_of_reg (hld.regs _ id) _).trans (hslot.trans hshown)
    fail := rfl
    sections := rfl
    applied := rfl
    clk := (fld_of_reg (hreg (by decide) (by decide) (by decide)) _).trans (fld_setFld_self _ _ (by decide) 0)
    slotStat := by
      rw [hreg (by decide) (by decide) (by decide), hx, State.slotBShown, reg_setFld_ne _ _ _ (by decide), reg_setFld_ne _ _ _ (by decide)]
    mem := hld.mem.trans (mem_enter x [x.reg SUP_RST_CAUSE]) }

theorem slotB_rejected {s : State} (hl : s.loaderRuns = true) (hst : s.life = stLoading) {f : Nat × Nat} (hf : s.ld.fail = some f)
    (hslot : s.slot = 1) (happ : s.ld.applied = false) (c : List Byte) :
    ∃ t, exec (.slotChecking c .nowhere) s = .next t ∧ t.life = stSafe ∧ t.fld SUP_STATE SUP_STATE_ENTRY_CAUSE = 0x22
      ∧ t.fld (NVM_SLOT_STAT 1) NVM_SLOT_STAT_RESULT = f.1 % 256 ∧ t.fld (NVM_SLOT_STAT 1) NVM_SLOT_STAT_SECTION = f.2 % 256
      ∧ (∀ a, sramBase ≤ a → a < sramBase + sramSize → t.byte a = 0) ∧ (∀ a, folioBase ≤ a → a < folioBase + folioSize → t.byte a = 0)
      ∧ (∀ a, retentionBase ≤ a → t.byte a = s.byte a) := by
  have hj := checking_judging s
  have hshown := failureShown_spec s.judging 1 f.1 f.2
  set u := s.judging.failureShown 1 f.1 f.2 with hu
  have hlife : u.life = stChecking := (hshown.life (by decide)).trans hj.life
  have hentry : u.safeEntry 0x22 = u.enterSafe u.life 0x22 :=
    safeEntry_of_other (by rw [hlife]; decide) (by rw [hlife]; decide) (by rw [hlife]; decide)
  have hsafe := safeEntered_enterSafe u u.life (cause := 0x22) (by decide)
  have hcheck : s.checkSlot c .nowhere = u.enterSafe u.life 0x22 := by
    rw [checkSlot_of_failed hf, rejectSlot_of_B (hj.slot.trans hslot), ← hu, hentry]
  have happlied : (u.enterSafe u.life 0x22).ld.applied = false := by rw [ld_enterSafe, hshown.ld, hj.ld, happ]
  have hstat := reg_enterSafe u u.life 0x22 (a := NVM_SLOT_STAT 1) (by decide) (by decide)
  have hbyte (a : Nat) : (u.enterSafe u.life 0x22).byte a = u.byte a := sameMem_of_mem hsafe.mem a
  exact ⟨_, exec_slotChecking_of_not_applied hl hst (slotRead_of_failed hf) hcheck happlied, hsafe.life, hsafe.entryCause,
    (fld_of_reg hstat _).trans hshown.result, (fld_of_reg hstat _).trans hshown.sec, fun a hlo hhi => (hbyte a).trans (hshown.sram a hlo hhi),
    fun a hlo hhi => (hbyte a).trans (hshown.folio a hlo hhi),
    fun a ha => (hbyte a).trans ((hshown.retained a ha).trans (sameMem_of_mem hj.mem a))⟩

theorem slotA_rejected {s : State} (hl : s.loaderRuns = true) (hst : s.life = stLoading) {f : Nat × Nat} (hf : s.ld.fail = some f)
    (hslot : s.slot = 0) (c : List Byte) :
    ∃ t, exec (.slotChecking c .nowhere) s = .next t ∧ t.life = stLoading ∧ t.slot = 1 ∧ t.ld.fail = none ∧ t.ld.sections = []
      ∧ t.fld NVM_STAT NVM_STAT_CLK = 0 ∧ t.fld (NVM_SLOT_STAT 0) NVM_SLOT_STAT_RESULT = f.1 % 256
      ∧ (∀ a, sramBase ≤ a → a < sramBase + sramSize → t.byte a = 0) := by
  have hshown := failureShown_spec s.judging 0 f.1 f.2
  set u := s.judging.failureShown 0 f.1 f.2 with hu
  have hb := slotB_spec u
  have hcheck : s.checkSlot c .nowhere = u.slotB := by
    rw [checkSlot_of_failed hf, rejectSlot_of_A ((checking_judging s).slot.trans hslot), ← hu]
  exact ⟨_, exec_slotChecking_of_not_applied hl hst (slotRead_of_failed hf) hcheck hb.applied, hb.life, hb.slot, hb.fail, hb.sections, hb.clk,
    (fld_of_reg hb.slotStat _).trans hshown.result, fun a hlo hhi => (sameMem_of_mem hb.mem a).trans (hshown.sram a hlo hhi)⟩

/-! ### A loader that stalls (R86, R420) -/

theorem checkSlot_of_stall (s : State) (c : List Byte) {x : CheckStall × Nat} (hx : x = (.inStep5, 5) ∨ x = (.inStep6, 6)) :
    ∃ u, Checking x.2 s u ∧ s.checkSlot c x.1 = u.haltLoader := by
  obtain rfl | rfl := hx
  · refine ⟨_, checking_step5 s, ?_⟩
    unfold State.checkSlot
    exact if_pos rfl
  · refine ⟨_, checking_judging s, ?_⟩
    unfold State.checkSlot
    dsimp only
    rw [if_neg (by decide), if_pos rfl]
    rfl

theorem slotChecking_stalled {s : State} (hl : s.loaderRuns = true) (hst : s.life = stLoading) (hread : s.slotRead = true)
    (happ : s.ld.applied = false) (c : List Byte) {x : CheckStall × Nat} (hx : x = (.inStep5, 5) ∨ x = (.inStep6, 6)) :
    ∃ t, exec (.slotChecking c x.1) s = .next t ∧ t.life = stChecking ∧ t.fld NVM_STAT NVM_STAT_STEP = x.2 ∧ t.ld.running = false
      ∧ t.ld.timed = true ∧ t.ld.stepSince = s.now ∧ Safety.sameMem s t := by
  obtain ⟨u, hu, hcheck⟩ := checkSlot_of_stall s c hx
  have happlied : u.haltLoader.ld.applied = false := (congrArg Loader.applied hu.ld).trans happ
  exact ⟨_, exec_slotChecking_of_not_applied hl hst hread hcheck happlied, hu.life, hu.step, rfl, congrArg Loader.timed hu.ld,
    congrArg Loader.stepSince hu.ld, sameMem_of_mem hu.mem⟩

/-! ### The Archive (R66, R84, R85) -/

theorem archiveScan_none {s : State} (hl : s.loaderRuns = true) (hst : s.life = stChecking) (happ : s.ld.applied = true)
    (hscan : s.ld.scanned = false) (hden : s.ld.density = 27) {heads : List (List Byte)} {records : List (Nat × List Byte)}
    (hnone : newestArchive heads records = none) :
    ∃ t, exec (.archiveScan heads records) s = .next t ∧ t.ld.scanned = true ∧ t.fld NVM_STAT NVM_STAT_STEP = 7 ∧ Safety.sameMem s t
      ∧ t.chan = s.chan := by
  set x := s.beginStep 7 with hx
  have hexec : exec (.archiveScan heads records) s = .next { x with ld := { x.ld with scanned := true } } := by
    refine congrArg Host.Outcome.next ((if_pos (by simp [hl, hst, happ, hscan])).trans ((if_neg ?_).trans ?_))
    · show ¬ x.ld.density < 27
      rw [hx, ld_beginStep, hden]
      decide
    · rw [hnone]
  exact ⟨_, hexec, rfl, step_beginStep s 7 (by decide), sameMem_of_mem (touched_beginStep s 7).mem, chan_beginStep s 7⟩

/-- NEXT and the erase's outcome shown and told. -/
def State.archiveShown (s : State) (ok : Bool) : State :=
  let s := s.setFld NVM_ARCH_STAT NVM_ARCH_STAT_NEXT s.nextArchive
  let s := s.setFlag NVM_ARCH_STAT NVM_ARCH_STAT_PREPARED ok
  s.raise islLD (if ok then 0x046 else 0x048) [s.reg NVM_ARCH_STAT]

section
variable (s : State) (ok : Bool)

theorem added_archiveShown : Added (· ∈ [NVM_ARCH_STAT]) s (s.archiveShown ok) :=
  (((Added.refl s).setFld NVM_ARCH_STAT _ _ (by simp)).setFlag NVM_ARCH_STAT _ _ (by simp)).raise _ _ _

theorem prepared_archiveShown : (s.archiveShown ok).flag NVM_ARCH_STAT NVM_ARCH_STAT_PREPARED = ok :=
  (flag_raise ..).trans (flag_setFlag_self _ _ (by decide) rfl ok)

theorem next_archiveShown : (s.archiveShown ok).fld NVM_ARCH_STAT NVM_ARCH_STAT_NEXT = s.nextArchive % 512 :=
  (fld_raise ..).trans ((fld_setFld_other _ _ (by decide) _).trans (fld_setFld_self s _ (by decide) _))

end

section
variable {s : State} (hl : s.loaderRuns = true) (hst : s.life = stChecking) (happ : s.ld.applied = true) (hscan : s.ld.scanned = true)
  (hden : 27 ≤ s.ld.density)
include hl hst happ hscan hden

theorem exec_archivePrepare (ok stalls : Bool) : exec (.archivePrepare ok stalls) s = .next
    (if stalls then ((s.archiveShown ok).beginStep 8).haltLoader else ((s.archiveShown ok).beginStep 8).armModule) := by
  have hshown : (if s.ld.density < 27 then s else s.archiveShown ok) = s.archiveShown ok := if_neg (by omega)
  rw [← hshown]
  exact congrArg Host.Outcome.next (if_pos (by simp [hl, hst, happ, hscan]))

theorem exec_archivePrepare_armed (ok : Bool) : exec (.archivePrepare ok false) s = .next ((s.archiveShown ok).beginStep 8).armModule := by
  rw [exec_archivePrepare hl hst happ hscan hden, if_neg Bool.false_ne_true]

theorem exec_archivePrepare_stalled (ok : Bool) : exec (.archivePrepare ok true) s = .next ((s.archiveShown ok).beginStep 8).haltLoader := by
  rw [exec_archivePrepare hl hst happ hscan hden, if_pos rfl]

end

/-! ### Armed (R13, R62, R307) -/

/-- SWAP set, with its event, and the window closed. -/
def State.swapped (s : State) : State :=
  ((s.setFlag MTX_REMAP MTX_REMAP_SWAP true).setFlag NVM_STAT NVM_STAT_WINDOW false).raise islLD 0x044

/-- The cores released, and the check units and the tasks as the image has them. -/
def State.coresReleased (s : State) : State :=
  (((s.enter stArmed 0x00).each [0, 1] State.releasePair).each (List.range 32) State.armCheck).each (List.range 256) State.armTask

/-- Step 9 begun, LD done and the tasks dispatched. -/
def State.stepNine (s : State) : State :=
  let s := s.beginStep 9
  ({ s with ld := { s.ld with running := false } }).dispatch

theorem armModule_eq (s : State) : s.armModule = s.swapped.coresReleased.stepNine.checkReady := by
  simp only [State.armModule, State.swapped, State.coresReleased, State.stepNine]

/-- What the loader and the remap show stands. -/
structure Shows (s t : State) : Prop where
  archive : t.reg NVM_ARCH_STAT = s.reg NVM_ARCH_STAT
  remap : t.reg MTX_REMAP = s.reg MTX_REMAP
  window : t.flag NVM_STAT NVM_STAT_WINDOW = s.flag NVM_STAT NVM_STAT_WINDOW

theorem Shows.trans {s t u : State} (h : Shows s t) (g : Shows t u) : Shows s u :=
  ⟨g.archive.trans h.archive, g.remap.trans h.remap, g.window.trans h.window⟩

theorem shows_of_frame {s t : State} (h : Frame armRegs s t) : Shows s t :=
  ⟨h.regs _ (not_armRegs (by decide) (by decide)), h.regs _ (not_armRegs (by decide) (by decide)), h.flag (not_armRegs (by decide) (by decide)) _⟩

theorem life_of_frame {s t : State} (h : Frame armRegs s t) : t.life = s.life := h.life (not_armRegs (by decide) (by decide))

theorem shows_enter (s : State) (st cause : Nat) (extra : List Word) : Shows s (s.enter st cause extra) :=
  ⟨reg_enter_ne _ _ (by decide) (by decide) (by decide), reg_enter_ne _ _ (by decide) (by decide) (by decide),
    flag_of_reg (reg_enter_ne _ _ (by decide) (by decide) (by decide)) _⟩

section
variable (s : State)

theorem frame_coresReleased : Frame armRegs (s.enter stArmed 0x00) s.coresReleased :=
  Frame.each (List.range 256) State.armTask (fun _ t _ h => frame_armTask h t)
    (Frame.each (List.range 32) State.armCheck (fun _ u _ h => frame_armCheck h u)
      (Frame.each [0, 1] State.releasePair (fun _ q _ h => frame_releasePair h q) (.refl _)))

theorem shows_coresReleased : Shows s s.coresReleased := (shows_enter s stArmed 0x00 []).trans (shows_of_frame (frame_coresReleased s))

theorem life_coresReleased : s.coresReleased.life = stArmed := (life_of_frame (frame_coresReleased s)).trans (life_enter s [] (by decide))

/-- The dispatch of step 9 starts with LD done. -/
theorem frame_stepNine : Frame armRegs { s.beginStep 9 with ld := { (s.beginStep 9).ld with running := false } } s.stepNine :=
  frame_dispatch (.refl _)

theorem shows_stepNine : Shows s s.stepNine := by
  have hstep : Shows s { s.beginStep 9 with ld := { (s.beginStep 9).ld with running := false } } :=
    ⟨reg_beginStep_ne s 9 (by decide) (by decide), reg_beginStep_ne s 9 (by decide) (by decide), window_beginStep s 9⟩
  exact hstep.trans (shows_of_frame (frame_stepNine s))

theorem life_stepNine : s.stepNine.life = s.life := (life_of_frame (frame_stepNine s)).trans (life_beginStep s 9)

theorem running_stepNine : s.stepNine.ld.running = false := congrArg Loader.running (frame_stepNine s).ld

theorem shows_allReady : Shows s s.allReady :=
  have h (a : Nat) (ha : SVC_SCHED_STAT ≠ a) : s.allReady.reg a = s.reg a := reg_allReady_ne s ha
  ⟨h _ (by decide), h _ (by decide), flag_of_reg (h _ (by decide)) _⟩

/-- The last step's duration kept and L7 counting, as Serving is entered. -/
def State.serveBegun (s : State) : State :=
  let s := s.setReg (NVM_STEP_TIME 8) (w32 (min 0xFFFFFFFF ((s.now - s.ld.stepSince) / 1000)))
  { s with sp := { s.sp with l7Run := true, l7Since := s.now }, ld := { s.ld with timed := false } }

theorem serve_eq : s.serve = s.serveBegun.enter stServing 0x00 := rfl

theorem shows_serve : Shows s s.serve := by
  have h : Touched (· ∈ [NVM_STEP_TIME 8]) s s.serveBegun := ((Touched.refl s).setReg (NVM_STEP_TIME 8) _ (by simp)).beside rfl rfl
  have hbegun : Shows s s.serveBegun := ⟨h.regs _ (by decide), h.regs _ (by decide), flag_of_reg (h.regs _ (by decide)) _⟩
  rw [serve_eq]
  exact hbegun.trans (shows_enter _ stServing 0x00 [])

theorem running_serve : s.serve.ld.running = s.ld.running := by
  rw [serve_eq, ld_enter]
  rfl

/-- An armed module stays in Armed or is taken to Serving, and shows what it showed. -/
theorem armed_checkReady (h : s.life = stArmed) :
    Shows s s.checkReady ∧ (s.checkReady.life = stArmed ∨ s.checkReady.life = stServing) ∧ s.checkReady.ld.running = s.ld.running := by
  have hself : Shows s s ∧ (s.life = stArmed ∨ s.life = stServing) ∧ s.ld.running = s.ld.running := ⟨⟨rfl, rfl, rfl⟩, .inl h, rfl⟩
  unfold State.checkReady
  split
  · exact hself
  · split
    · have hlife : s.allReady.life = stArmed := by
        refine (life_raise ..).trans (Eq.trans ?_ h)
        exact ((Frame.refl (W := (· = SVC_SCHED_STAT)) s).setFlag _ _ _ rfl).life (by decide)
      have hrun : s.allReady.ld = s.ld := ld_raise ..
      have hserve : (if s.allReady.life = stArmed then s.allReady.serve else s.allReady) = s.allReady.serve := if_pos hlife
      show Shows s (if s.allReady.life = stArmed then s.allReady.serve else s.allReady) ∧ _
      exact hserve.symm ▸ ⟨(shows_allReady s).trans (shows_serve _), .inr (served_serve _).life, (running_serve _).trans (by rw [hrun])⟩
    · exact hself

end

/-- What step 8 leaves where it does not stall. -/
theorem armModule_spec (s : State) : s.armModule.reg NVM_ARCH_STAT = s.reg NVM_ARCH_STAT ∧ s.armModule.flag MTX_REMAP MTX_REMAP_SWAP = true
    ∧ s.armModule.flag NVM_STAT NVM_STAT_WINDOW = false ∧ (s.armModule.life = stArmed ∨ s.armModule.life = stServing)
    ∧ s.armModule.ld.running = false := by
  have hswap : s.swapped.flag MTX_REMAP MTX_REMAP_SWAP = true :=
    (flag_raise ..).trans ((flag_setFlag_ne _ _ _ _ (by decide)).trans (flag_setFlag_self s _ (by decide) rfl true))
  have hwindow : s.swapped.flag NVM_STAT NVM_STAT_WINDOW = false := (flag_raise ..).trans (flag_setFlag_self _ _ (by decide) rfl false)
  have harchive : s.swapped.reg NVM_ARCH_STAT = s.reg NVM_ARCH_STAT :=
    (((Frame.refl (W := (· ∈ [MTX_REMAP, NVM_STAT])) s).setFlag _ _ _ (by simp)).setFlag _ _ _ (by simp)).raise
      islLD 0x044 [] |>.regs _ (by decide)
  obtain ⟨hready, hlife, hrun⟩ := armed_checkReady s.swapped.coresReleased.stepNine ((life_stepNine _).trans (life_coresReleased _))
  have hshows := ((shows_coresReleased s.swapped).trans (shows_stepNine _)).trans hready
  rw [armModule_eq]
  exact ⟨hshows.archive.trans harchive, (flag_of_reg hshows.remap _).trans hswap, hshows.window.trans hwindow, hlife,
    hrun.trans (running_stepNine _)⟩

/-! ### The accession numbers resume (R335) -/

/-- The number after the highest of a list. -/
def nextAbove (l : List Nat) : Nat := l.foldl (fun a n => max a (n + 1)) 0

theorem foldl_max_le {l : List Nat} {a b : Nat} (ha : a ≤ b) (h : ∀ n ∈ l, n < b) : l.foldl (fun a n => max a (n + 1)) a ≤ b := by
  induction l generalizing a with
  | nil => exact ha
  | cons n l ih => exact ih (max_le ha (h n (by simp))) fun m hm => h m (by simp [hm])

theorem le_foldl_max (l : List Nat) (a : Nat) : a ≤ l.foldl (fun a n => max a (n + 1)) a := by
  induction l generalizing a with
  | nil => exact le_rfl
  | cons n l ih => exact (le_max_left _ _).trans (ih _)

theorem lt_foldl_max {l : List Nat} {n : Nat} (h : n ∈ l) (a : Nat) : n < l.foldl (fun a n => max a (n + 1)) a := by
  induction l generalizing a with
  | nil => simp at h
  | cons m l ih =>
    rcases List.mem_cons.mp h with rfl | h
    · exact (le_max_right a (n + 1)).trans (le_foldl_max l _)
    · exact ih h _

theorem lt_nextAbove_mod {l : List Nat} {n b : Nat} (hb : ∀ m ∈ l, m < b - 1) (h : n ∈ l) : n < nextAbove l % b := by
  have hpos : 0 < b - 1 := lt_of_le_of_lt (Nat.zero_le _) (hb n h)
  have hle : nextAbove l ≤ b - 1 := foldl_max_le (Nat.zero_le _) hb
  rw [Nat.mod_eq_of_lt (by omega)]
  exact lt_foldl_max h 0

/-- EH with its next number set from the ring, and nothing queued. -/
def State.resumed (s : State) : State :=
  let next := nextAbove s.ringNumbers % 2 ^ 48
  ({ s with eh := { s.eh with numbered := true, nextAcc := next, startAcc := next } }).setQueue []

section
variable (s : State)

theorem eh_resumed : s.resumed.eh = { s.eh with
    numbered := true, nextAcc := nextAbove s.ringNumbers % 2 ^ 48, startAcc := nextAbove s.ringNumbers % 2 ^ 48, queue := [] } := rfl

theorem mem_resumed : s.resumed.mem = s.mem := rfl

theorem chan_resumed : s.resumed.chan = s.chan := rfl

end

theorem takeOwn_of_none {s : State} (h : ∀ ev ∈ s.chan, ev.isl ≠ islEH) : s.takeOwn = s := by
  have hkept : s.chan.filter (fun e => decide (e.isl ≠ islEH)) = s.chan := List.filter_eq_self.mpr fun ev hev => by simp [h ev hev]
  have hown : s.chan.filter (fun e : Ev => decide (e.isl = islEH)) = [] := List.filter_eq_nil_iff.mpr fun ev hev => by simp [h ev hev]
  unfold State.takeOwn
  rw [hkept, hown]
  rfl

theorem numberQueue_of_good {s : State} (hr : s.eh.retGood = true) (hq : s.eh.queue = []) : s.numberQueue = s.resumed := by
  unfold State.numberQueue State.resumed nextAbove
  dsimp only
  rw [hq, hr]
  rfl

theorem exec_accessionResume {s : State} (hrun : s.running islEH = true) (hn : s.eh.numbered = false) (hr : s.eh.retGood = true)
    (hq : s.eh.queue = []) (hown : ∀ ev ∈ s.chan, ev.isl ≠ islEH) : exec .accessionResume s = .next s.resumed := by
  have hexec : exec .accessionResume s = .next (if s.takeOwn.eh.numbered then s.takeOwn else s.takeOwn.numberQueue) :=
    congrArg Host.Outcome.next (if_pos (by simp [hrun, hn]))
  rw [hexec, takeOwn_of_none hown, hn, numberQueue_of_good hr hq]
  rfl

/-! ### The obligation -/

/-- Settles O11: a failed slot is shown and scrubbed before slot B or Safe, and nothing from Armed on writes what the loader and the remap
show. -/
theorem slotCheckAndArchive : Obligations.SlotCheckAndArchive := by
  unfold Obligations.SlotCheckAndArchive
  refine ⟨fun s c f hl hst hf hslot happ => slotB_rejected hl hst hf hslot happ c, fun s c f hl hst hf hslot => slotA_rejected hl hst hf hslot c,
    fun s c x hx hl hst hread happ => slotChecking_stalled hl hst hread happ c hx,
    fun s heads records hl hst happ hscan hden hnone => archiveScan_none hl hst happ hscan hden hnone, ?prepare, ?resume⟩
  case prepare =>
    intro s ok hl hst happ hscan hden
    have hshown := added_archiveShown s ok
    have hstep : ((s.archiveShown ok).beginStep 8).reg NVM_ARCH_STAT = (s.archiveShown ok).reg NVM_ARCH_STAT :=
      reg_beginStep_ne _ 8 (by decide) (by decide)
    refine ⟨?_, ?_⟩
    · obtain ⟨harch, hswap, hwindow, hlife, hrun⟩ := armModule_spec ((s.archiveShown ok).beginStep 8)
      exact ⟨_, exec_archivePrepare_armed hl hst happ hscan hden ok, (flag_of_reg (harch.trans hstep) _).trans (prepared_archiveShown s ok),
        (fld_of_reg (harch.trans hstep) _).trans (next_archiveShown s ok), hswap, hwindow, hlife, hrun⟩
    · exact ⟨_, exec_archivePrepare_stalled hl hst happ hscan hden ok, (flag_of_reg hstep _).trans (prepared_archiveShown s ok),
        step_beginStep _ 8 (by decide), (life_beginStep _ 8).trans ((hshown.life (by decide)).trans hst), rfl,
        sameMem_of_mem ((touched_beginStep _ 8).mem.trans hshown.mem)⟩
  case resume =>
    intro s hrun hn hr hq hown
    exact ⟨_, exec_accessionResume hrun hn hr hq hown, by rw [eh_resumed], by rw [eh_resumed],
      fun hb n h => by rw [eh_resumed]; exact lt_nextAbove_mod hb h, sameMem_of_mem (mem_resumed s), chan_resumed s⟩

end Sys2Proof.Machine
end

section
/-! PROOF of O59: where the boot ROM and working SRAM answer, and what every other address of their windows is answered. -/

namespace Sys2Proof.Machine

/-! ### Where an address of the two windows leads (R61) -/

section
variable (s : State) {a : Nat}

theorem target_lowWindow (h : a < 0x80000) : s.target a = if s.flag MTX_REMAP MTX_REMAP_SWAP then 1 else 0 := if_pos h

theorem target_highWindow (h : 0x10000000 ≤ a ∧ a < 0x10080000) :
    s.target a = if s.flag MTX_REMAP MTX_REMAP_SWAP then 0 else 1 :=
  (if_neg (by omega)).trans (if_pos h)

end

/-! ### The code of an access at its target (R98, R99) -/

/-- The code of a read of `n` bytes at target `tgt`: MALFORMED where it fits no beat, what the target answers otherwise. -/
def State.readAnswer (s : State) (tgt a n : Nat) : Nat := if a % n ≠ 0 ∨ (tgt = 5 ∧ n ≠ 4) then rMalformed else s.readCode tgt a

/-- The code of a write of `n` bytes at a memory target likewise. -/
def State.writeAnswer (s : State) (port tgt a n : Nat) : Nat := if a % n ≠ 0 then rMalformed else s.memCode port tgt a

section
variable (s : State) {port tgt a n : Nat}

theorem readAnswer_of_aligned (ha : a % n = 0) (h5 : tgt ≠ 5) : s.readAnswer tgt a n = s.readCode tgt a := if_neg (by omega)

theorem writeAnswer_of_aligned (ha : a % n = 0) : s.writeAnswer port tgt a n = s.memCode port tgt a := if_neg (by omega)

end

section
variable {s : State} {port tgt a n code : Nat} (ht : s.target a = tgt)
include ht

theorem readAt_of_okay (h : (s.noteWindow tgt).readAnswer tgt a n = rOkay) : s.readAt port a n =
    (((s.noteWindow tgt).afterRead port tgt a).respond rOkay, (s.noteWindow tgt).readBytes tgt a n) := by
  subst ht
  exact if_pos h

theorem readAt_of_error (h : (s.noteWindow tgt).readAnswer tgt a n = code) (herror : code ≠ rOkay) :
    (s.readAt port a n).1 = (s.noteWindow tgt).respond code := by
  subst ht h
  exact congrArg Prod.fst (if_neg herror)

theorem writeAt_of_error (h5 : tgt ≠ 5) {bs : List (Option Byte)}
    (h : ((s.noteWindow tgt).noteCode port tgt a).writeAnswer port tgt a bs.length = code) (herror : code ≠ rOkay) :
    s.writeAt port a bs = ((s.noteWindow tgt).noteCode port tgt a).respond code := by
  subst ht h
  exact (if_neg h5).trans (if_pos (.inl herror))

end

theorem noteWindow_of_ne {s : State} {tgt : Nat} (h : tgt ≠ 6) : s.noteWindow tgt = s := if_neg fun hn => h hn.1

theorem noteCode_of_ne {s : State} {port tgt : Nat} (a : Nat) (h : tgt ≠ 1) : s.noteCode port tgt a = s := if_neg fun hn => h hn.2.1

/-! ### What the boot ROM and working SRAM answer (R61) -/

/-- The answer to an access to no byte of a window's device: DECODE, or MALFORMED where the access is not aligned to its size `k`. -/
def windowRefusal (a k : Nat) : Nat := if a % k = 0 then rDecode else rMalformed

theorem windowRefusal_ne_okay (a k : Nat) : windowRefusal a k ≠ rOkay := by
  unfold windowRefusal
  split <;> decide

section
variable {s : State} {a n : Nat} (port : Nat)

theorem readAt_bootRom (ht : s.target a = 0) (hin : a % 0x80000 < 0x8000) (ha : a % n = 0) :
    (s.readAt port a n).1.mtx.resp = rOkay ∧ (s.readAt port a n).2 = (List.range n).map (fun i => Config.bootRom (a % 0x80000 + i)) := by
  have hcode : (s.noteWindow 0).readAnswer 0 a n = rOkay := (readAnswer_of_aligned _ ha (by decide)).trans (if_pos hin)
  rw [readAt_of_okay ht hcode]
  exact ⟨rfl, rfl⟩

theorem readAt_workingSram (ht : s.target a = 1) (ha : a % n = 0) :
    (s.readAt port a n).1.mtx.resp = rOkay ∧ (s.readAt port a n).2 = s.bytes (sramBase + a % 0x80000) n := by
  rw [readAt_of_okay ht (readAnswer_of_aligned _ ha (by decide)), noteWindow_of_ne (by decide)]
  exact ⟨rfl, rfl⟩

section
variable (ht : s.target a = 0) (hout : 0x8000 ≤ a % 0x80000)
include ht hout

theorem readAt_beyondRom : (s.readAt port a n).1.mtx.resp = windowRefusal a n := by
  have hdecode : (s.noteWindow 0).readCode 0 a = rDecode := if_neg (by omega)
  have hcode : (s.noteWindow 0).readAnswer 0 a n = windowRefusal a n := by
    by_cases ha : a % n = 0
    · rw [readAnswer_of_aligned _ ha (by decide), hdecode, windowRefusal, if_pos ha]
    · rw [State.readAnswer, if_pos (.inl ha), windowRefusal, if_neg ha]
  rw [readAt_of_error ht hcode (windowRefusal_ne_okay a n)]
  rfl

theorem writeAt_beyondRom (bs : List (Option Byte)) : (s.writeAt port a bs).mtx.resp = windowRefusal a bs.length := by
  have hdecode : ((s.noteWindow 0).noteCode port 0 a).memCode port 0 a = rDecode := if_neg (by omega)
  have hcode : ((s.noteWindow 0).noteCode port 0 a).writeAnswer port 0 a bs.length = windowRefusal a bs.length := by
    rw [State.writeAnswer, hdecode, windowRefusal, ite_not]
  rw [writeAt_of_error ht (by decide) hcode (windowRefusal_ne_okay a bs.length)]
  rfl

end

end

/-! ### The obligation -/

/-- Settles O59: SWAP alone decides which window leads to the ROM and which to working SRAM, and beyond the ROM's 32 KiB nothing answers. -/
theorem remapOfRomAndSram : Obligations.RemapOfRomAndSram := by
  unfold Obligations.RemapOfRomAndSram
  intro s port a n bs
  refine ⟨fun hswap => ⟨fun ha hal => ?romLow, fun hlo hhi hal => ?sramHigh, fun hlo hhi => ?beyondLow⟩,
    fun hswap => ⟨fun ha hal => ?sramLow, fun hlo hhi hal => ?romHigh, fun hlo hhi => ?beyondHigh⟩⟩
  case romLow =>
    have ht : s.target a = 0 := by rw [target_lowWindow s (by omega), hswap]; rfl
    have h := readAt_bootRom port ht (by omega) hal
    rwa [Nat.mod_eq_of_lt (show a < 0x80000 by omega)] at h
  case sramHigh =>
    have ht : s.target a = 1 := by rw [target_highWindow s (by omega), hswap]; rfl
    have h := readAt_workingSram port ht hal
    rwa [show sramBase + a % 0x80000 = a by unfold sramBase; omega] at h
  case beyondLow =>
    have ht : s.target a = 0 := by rw [target_lowWindow s hhi, hswap]; rfl
    exact ⟨readAt_beyondRom port ht (by omega), writeAt_beyondRom port ht (by omega) bs⟩
  case sramLow =>
    have ht : s.target a = 1 := by rw [target_lowWindow s (by omega), hswap]; rfl
    have h := readAt_workingSram port ht hal
    rwa [Nat.mod_eq_of_lt (show a < 0x80000 by omega)] at h
  case romHigh =>
    have ht : s.target a = 0 := by rw [target_highWindow s (by omega), hswap]; rfl
    have h := readAt_bootRom port ht (by omega) hal
    rwa [show a % 0x80000 = a - 0x10000000 by omega] at h
  case beyondHigh =>
    have ht : s.target a = 0 := by rw [target_highWindow s ⟨by omega, hhi⟩, hswap]; rfl
    exact ⟨readAt_beyondRom port ht (by omega), writeAt_beyondRom port ht (by omega) bs⟩

end Sys2Proof.Machine
end

section
/-! PROOF of O19: it fails of a state that its hypotheses admit, and the model evaluates that state to the refuting outcome. -/

namespace Sys2Proof.Machine

/-- A read of the first word of working SRAM by SV0, performed with answer 0 and not yet taken back. -/
def sramReadPerformed : Txn := ⟨⟨0, 5, false, 0, 1, [], []⟩, 1, 0, [rOkay], [0], 0, false, 0⟩

/-- The module of `preemptionInFlight` after SWAP, its table of transactions listing under the key of the task command in flight that read
as well. -/
def keyListedTwice : State :=
  let s := preemptionInFlight.setFlag MTX_REMAP MTX_REMAP_SWAP true
  s.setMtx { s.mtx with txns := [(txnKey 0 5, makeReadyWrite), (txnKey 0 5, sramReadPerformed)] }

/-- Working SRAM's own transaction has no beat left, yet its key lets the task command take effect before the load, and the preemption saves
task 2's context. -/
theorem byteLeft_lw : byteLeft savedPc (exec (.lw 0 1 0 0) keyListedTwice) = 0x01 := by
  decide +kernel

/-- Refutes O19: a load changes memory where the table of transactions lists one key twice. That no beat is left at working SRAM says nothing
then of the entry that comes first under the key, and its beats take effect before the load (R101). The statement takes every state; the
module's own commands keep the keys apart. -/
theorem not_loadsAndStores : ¬ Obligations.LoadsAndStores := by
  unfold Obligations.LoadsAndStores
  rintro ⟨hload, -⟩
  obtain ⟨hlw, -⟩ := hload keyListedTwice 0 1 0 0 0 0x10000000 (by decide +kernel) (by decide +kernel) (by decide +kernel)
    (by decide +kernel) (by decide +kernel) (by decide)
  obtain ⟨t, ht, -, -, -, hmem, -⟩ := hlw (by decide)
  have hleft : t.byte savedPc = 0x01 := by
    have hb := byteLeft_lw
    rwa [ht] at hb
  have hbefore : keyListedTwice.byte savedPc = 0 := rfl
  rw [hmem, hbefore] at hleft
  exact absurd hleft (by decide)

end Sys2Proof.Machine
end

section
/-! PROOF of O9: the boot ROM self-check, the discovery of the NOR, and the Catalog. -/

namespace Sys2Proof.Machine

/-! ### The self-check (R83, R420) -/

theorem not_dormant_of_loading {s : State} (h : s.life = stLoading) : s.sp.dormant = false := not_dormant_of_life (by rw [h]; decide)

theorem exec_bootRomSelfCheck {s : State} (hl : s.loaderRuns = true) (hst : s.life = stLoading) (hstep : s.fld NVM_STAT NVM_STAT_STEP = 1)
    (hnew : s.ld.selfChecked = false) (ok : Bool) : exec (.bootRomSelfCheck ok) s =
      .next (s.withLoader { s.ld with running := ok, selfChecked := true, unprovisioned := s.bookplateBad }) :=
  congrArg Host.Outcome.next (if_pos (by simp [hl, hst, hstep, hnew]))

/-! ### A step's start mark, where the step before it is known (R86) -/

section
variable (s : State) (k : Nat)

theorem touched_beginStep_of_step {j : Nat} (hstep : s.fld NVM_STAT NVM_STAT_STEP = j + 1) (hj : j < 9) :
    Touched (· ∈ [NVM_STAT, NVM_STEP_TIME j]) s (s.beginStep k) := by
  have htimed : s.stepTimed = s.setReg (NVM_STEP_TIME j) (w32 (min 0xFFFFFFFF ((s.now - s.ld.stepSince) / 1000))) := by
    rw [State.stepTimed, hstep]
    exact if_pos ⟨by omega, by omega⟩
  rw [beginStep_eq, htimed]
  exact ((((Touched.refl s).setReg _ _ (by simp)).setFld NVM_STAT NVM_STAT_STEP k (by simp)).beside rfl rfl)

/-- The rest of NVM_STAT stands. -/
theorem fld_beginStep_other {f : Fld} (hf : f.lo + f.len ≤ NVM_STAT_STEP.lo ∨ NVM_STAT_STEP.lo + NVM_STAT_STEP.len ≤ f.lo) :
    (s.beginStep k).fld NVM_STAT f = s.fld NVM_STAT f := by
  refine (fld_setFld_other s.stepTimed NVM_STAT hf k).trans (fld_of_reg ((touched_stepTimed s).regs _ ?_) _)
  rintro ⟨j, -, h⟩
  unfold NVM_STAT NVM_STEP_TIME at h
  omega

end

/-! ### Discovery (R64 to R66) -/

/-- What discovery found shown: the JEDEC ID, the read mode, the addressing, whether SFDP answered, and the density. -/
def State.norShown (s : State) (jedec mode : Nat) (addr4 sfdp : Bool) (density : Nat) : State :=
  let s := (s.setReg NVM_JEDEC_ID (w32 jedec)).setFld NVM_STAT NVM_STAT_MODE mode
  ((s.setFlag NVM_STAT NVM_STAT_ADDR4 addr4).setFlag NVM_STAT NVM_STAT_SFDP_OK sfdp).setFld NVM_STAT NVM_STAT_DENSITY_LOG2 density

section
variable (s : State) (jedec mode : Nat) (addr4 sfdp : Bool) (density : Nat)

theorem touched_norShown : Touched (· ∈ [NVM_STAT, NVM_JEDEC_ID]) s (s.norShown jedec mode addr4 sfdp density) :=
  (((((Touched.refl s).setReg NVM_JEDEC_ID _ (by simp)).setFld _ _ _ (by simp)).setFlag _ _ _ (by simp)).setFlag _ _ _ (by simp)).setFld
    _ _ _ (by simp)

theorem sp_norShown : (s.norShown jedec mode addr4 sfdp density).sp = s.sp := by
  simp only [State.norShown, sp_setFld, sp_setFlag, sp_setReg]

theorem chan_norShown : (s.norShown jedec mode addr4 sfdp density).chan = s.chan := by
  simp only [State.norShown, chan_setFld, chan_setFlag, chan_setReg]

theorem ld_norShown : (s.norShown jedec mode addr4 sfdp density).ld = s.ld := by
  simp only [State.norShown, ld_setFld, ld_setFlag, ld_setReg]

theorem step_norShown : (s.norShown jedec mode addr4 sfdp density).fld NVM_STAT NVM_STAT_STEP = s.fld NVM_STAT NVM_STAT_STEP := by
  unfold State.norShown
  dsimp only
  rw [fld_setFld_other _ _ (by decide), State.setFlag, fld_setFld_other _ _ (by decide), State.setFlag, fld_setFld_other _ _ (by decide),
    fld_setFld_other _ _ (by decide), fld_setReg_ne _ _ _ (by decide)]

theorem jedec_norShown : (s.norShown jedec mode addr4 sfdp density).reg NVM_JEDEC_ID = w32 jedec := by
  unfold State.norShown
  dsimp only
  rw [reg_setFld_ne _ _ _ (by decide), State.setFlag, reg_setFld_ne _ _ _ (by decide), State.setFlag, reg_setFld_ne _ _ _ (by decide),
    reg_setFld_ne _ _ _ (by decide), reg_setReg_self]

theorem mode_norShown (h : mode < 4) : (s.norShown jedec mode addr4 sfdp density).fld NVM_STAT NVM_STAT_MODE = mode := by
  unfold State.norShown
  dsimp only
  rw [fld_setFld_other _ _ (by decide), State.setFlag, fld_setFld_other _ _ (by decide), State.setFlag, fld_setFld_other _ _ (by decide),
    fld_setFld_self _ _ (by decide)]
  exact Nat.mod_eq_of_lt h

theorem addr4_norShown : (s.norShown jedec mode addr4 sfdp density).flag NVM_STAT NVM_STAT_ADDR4 = addr4 := by
  unfold State.norShown
  dsimp only
  rw [flag_setFld_other _ _ (by decide), flag_setFlag_other _ _ (by decide), flag_setFlag_self _ _ (by decide) rfl]

theorem sfdpOk_norShown : (s.norShown jedec mode addr4 sfdp density).flag NVM_STAT NVM_STAT_SFDP_OK = sfdp := by
  unfold State.norShown
  dsimp only
  rw [flag_setFld_other _ _ (by decide), flag_setFlag_self _ _ (by decide) rfl]

end

/-- Density and read command kept in the loader, and the discovery told with event 0x040. -/
def State.norTold (s : State) (sfdp : Bool) (density : Nat) : State :=
  let s := s.withLoader { s.ld with density := density, fallback03 := !sfdp }
  s.raise islLD 0x040 [s.reg NVM_STAT, s.reg NVM_JEDEC_ID]

section
variable (s : State) (sfdp : Bool) (density : Nat)

theorem touched_norTold : Touched (fun _ => False) s (s.norTold sfdp density) := (touched_withLoader s _).raise _ _ _

theorem ld_norTold : (s.norTold sfdp density).ld = { s.ld with density := density, fallback03 := !sfdp } := ld_raise ..

theorem raised_norTold {s : State} (hd : s.sp.dormant = false) : Safety.raised [(islLD, 0x040)] s (s.norTold sfdp density) :=
  raised_raise _ _ _ rfl hd

end

/-- The state that discovery leaves, in step 2. -/
def State.discovered (s : State) (jedec mode : Nat) (addr4 sfdp : Bool) (density : Nat) : State :=
  ((s.beginStep 2).norShown jedec mode addr4 sfdp density).norTold sfdp density

theorem exec_norDiscovery {s : State} (hl : s.loaderRuns = true) (hst : s.life = stLoading) (hstep : s.fld NVM_STAT NVM_STAT_STEP = 1)
    (hchk : s.ld.selfChecked = true) (jedec : BitVec 24) (found : Option Sfdp) : exec (.norDiscovery jedec found) s =
      .next (s.discovered jedec.toNat (found.elim 0 readMode) (found.elim false Sfdp.addr4Only) found.isSome
        (found.elim 27 Sfdp.densityLog2)) := by
  refine congrArg Host.Outcome.next ((if_pos (by simp [hl, hst, hstep, hchk])).trans ?_)
  cases found <;> simp only [State.discovered, State.norTold, State.norShown, State.withLoader, Option.elim_some, Option.elim_none, Option.isSome_some,
    Option.isSome_none, Option.isNone_some, Option.isNone_none, Bool.not_true, Bool.not_false]

theorem readMode_lt (x : Sfdp) : readMode x < 4 := by
  unfold readMode
  split_ifs <;> decide

/-- What discovery leaves, whatever it found. -/
structure Discovered (jedec mode : Nat) (addr4 sfdp : Bool) (density : Nat) (s t : State) : Prop where
  touched : Touched (· ∈ [NVM_STAT, NVM_JEDEC_ID, NVM_STEP_TIME 0]) s t
  step : t.fld NVM_STAT NVM_STAT_STEP = 2
  jedec : t.reg NVM_JEDEC_ID = w32 jedec
  mode : t.fld NVM_STAT NVM_STAT_MODE = mode
  addr4 : t.flag NVM_STAT NVM_STAT_ADDR4 = addr4
  sfdpOk : t.flag NVM_STAT NVM_STAT_SFDP_OK = sfdp
  ld : t.ld = { s.ld with stepSince := s.now, timed := true, density := density, fallback03 := !sfdp }
  raised : Safety.raised [(islLD, 0x040)] s t

theorem discovered_spec {s : State} (hst : s.life = stLoading) (hstep : s.fld NVM_STAT NVM_STAT_STEP = 1) (jedec : Nat) {mode : Nat}
    (hmode : mode < 4) (addr4 sfdp : Bool) (density : Nat) :
    Discovered jedec mode addr4 sfdp density s (s.discovered jedec mode addr4 sfdp density) := by
  have hreg (a : Nat) : (s.discovered jedec mode addr4 sfdp density).reg a =
      ((s.beginStep 2).norShown jedec mode addr4 sfdp density).reg a := (touched_norTold ..).regs a id
  have hmark := (touched_beginStep_of_step s 2 hstep (by decide)).mono (V := (· ∈ [NVM_STAT, NVM_JEDEC_ID, NVM_STEP_TIME 0]))
    fun a ha => by simp only [List.mem_cons] at ha ⊢; tauto
  have hshown := (touched_norShown (s.beginStep 2) jedec mode addr4 sfdp density).mono (V := (· ∈ [NVM_STAT, NVM_JEDEC_ID, NVM_STEP_TIME 0]))
    fun a ha => by simp only [List.mem_cons] at ha ⊢; tauto
  exact {
    touched := (hmark.trans hshown).trans ((touched_norTold ..).mono fun _ => False.elim)
    step := (fld_of_reg (hreg _) _).trans ((step_norShown ..).trans (step_beginStep s 2 (by decide)))
    jedec := (hreg _).trans (jedec_norShown ..)
    mode := (fld_of_reg (hreg _) _).trans (mode_norShown _ _ _ _ _ _ hmode)
    addr4 := (flag_of_reg (hreg _) _).trans (addr4_norShown ..)
    sfdpOk := (flag_of_reg (hreg _) _).trans (sfdpOk_norShown ..)
    ld := by rw [State.discovered, ld_norTold, ld_norShown, ld_beginStep]
    raised := raised_of_chan ((chan_norShown ..).trans (chan_beginStep s 2))
      (raised_norTold _ _ (by rw [sp_norShown, sp_beginStep, not_dormant_of_loading hst])) }

/-! ### The verdict on a Catalog (R66, R69 to R72, R83) -/

/-- The verdict hangs on the slot, the stepping, the density and whether the module is provisioned, and on nothing else of the state. -/
theorem slotFault_congr {s t : State} (hunprovisioned : t.ld.unprovisioned = s.ld.unprovisioned) (hdensity : t.ld.density = s.ld.density)
    (hslot : t.slot = s.slot) (hid : t.reg SUP_IDENT = s.reg SUP_IDENT) (bytes : List Byte) : t.slotFault bytes = s.slotFault bytes := by
  unfold State.slotFault
  rw [hunprovisioned, hdensity, hslot, fld_of_reg hid]

theorem catalogFault_congr {s t : State} {bytes : List Byte} (h : t.slotFault bytes = s.slotFault bytes) :
    t.catalogFault bytes = s.catalogFault bytes := by
  unfold State.catalogFault
  rw [h]

theorem slotFault_of_catalogFault {s : State} {bytes : List Byte} (h : s.catalogFault bytes = none) : s.slotFault bytes = none := by
  unfold State.catalogFault at h
  split at h
  · cases h
  · assumption

/-- A header that passes selects a clock that NVM_STAT.CLK holds (R69). -/
theorem nvmClk_of_headerFault {header : List Byte} {stepping : Nat} (h : headerFault header stepping = none) : at' header 0x0F 1 < 4 := by
  unfold headerFault at h
  extract_lets steppings len at h
  split_ifs at h with _ _ _ hform _
  omega

theorem nvmClk_of_slotFault {s : State} {bytes : List Byte} (h : s.slotFault bytes = none) : at' bytes 0x0F 1 < 4 := by
  cases hheader : headerFault bytes (s.fld SUP_IDENT SUP_IDENT_STEPPING) with
  | none => exact nvmClk_of_headerFault hheader
  | some c =>
    rw [State.slotFault, hheader] at h
    split_ifs at h

/-! ### CATALOG_HEADER (R67, R69 to R72) -/

/-- Step 3 begun, with the slot's clock. -/
def State.catalogBegun (s : State) (bytes : List Byte) : State := (s.beginStep 3).slotClock bytes

section
variable (s : State) (bytes : List Byte)

theorem touched_catalogBegun : Touched stepRegs s (s.catalogBegun bytes) := (touched_beginStep s 3).setFld NVM_STAT _ _ (.inl rfl)

theorem ld_catalogBegun : (s.catalogBegun bytes).ld = { s.ld with stepSince := s.now, timed := true } := ld_beginStep s 3

theorem slotFault_beginStep (k : Nat) : (s.beginStep k).slotFault bytes = s.slotFault bytes :=
  slotFault_congr (by rw [ld_beginStep]) (by rw [ld_beginStep]) (fld_of_reg (reg_beginStep_ne s k (by decide) (by decide)) _)
    (reg_beginStep_ne s k (by decide) (by decide)) bytes

theorem slotFault_catalogBegun : (s.catalogBegun bytes).slotFault bytes = s.slotFault bytes := by
  have hreg {a : Nat} (ha : NVM_STAT ≠ a) : (s.catalogBegun bytes).reg a = (s.beginStep 3).reg a := reg_setFld_ne _ _ _ ha
  rw [← slotFault_beginStep s bytes 3]
  exact slotFault_congr (s := s.beginStep 3) (t := s.catalogBegun bytes) rfl rfl (fld_of_reg (hreg (by decide)) _) (hreg (by decide)) bytes

theorem catalogFault_catalogBegun : (s.catalogBegun bytes).catalogFault bytes = s.catalogFault bytes :=
  catalogFault_congr (slotFault_catalogBegun s bytes)

theorem clk_catalogBegun (h : s.slotFault bytes = none) : (s.catalogBegun bytes).fld NVM_STAT NVM_STAT_CLK =
    if s.ld.fallback03 then 0 else at' bytes 0x0F 1 := by
  have hclk := nvmClk_of_slotFault h
  rw [State.catalogBegun, State.slotClock, slotFault_beginStep, h, ld_beginStep, fld_setFld_self _ _ (by decide)]
  cases s.ld.fallback03 with
  | true => rfl
  | false => exact Nat.mod_eq_of_lt hclk

/-- Working SRAM zero-filled, and the Catalog read as the first of the slot's bytes, its entries kept. -/
def State.catalogKept (s : State) (bytes : List Byte) : State :=
  let s := s.withLoader { s.ld with
    sections := (List.range (at' bytes 6 2)).map (entryAt bytes), secNo := 0, imageLength := at' bytes 8 4
    version := w32 (at' bytes 0x10 4), build := w32 (at' bytes 0x14 4) }
  (s.zero sramBase sramSize).readSlot (bytes.take (0x20 + 16 * at' bytes 6 2))

end

/-- What the verdict on the Catalog makes of it. -/
def State.catalogJudged (s : State) (bytes : List Byte) : Option (Nat × Nat) → State
  | some (c, sec) => s.failSlot c sec
  | none => (s.catalogKept bytes).beginStep 4

theorem exec_catalogHeader {s : State} (hl : s.loaderRuns = true) (hst : s.life = stLoading) (hstep : 2 ≤ s.fld NVM_STAT NVM_STAT_STEP)
    (hsec : s.ld.sections = []) (hfail : s.ld.fail = none) (bytes : List Byte) :
    exec (.catalogHeader bytes) s = .next ((s.catalogBegun bytes).catalogJudged bytes (s.catalogFault bytes)) := by
  rw [← catalogFault_catalogBegun]
  exact congrArg Host.Outcome.next (if_pos (by simp [hl, hst, hstep, hsec, hfail]))

theorem failSlot_of_none {s : State} (h : s.ld.fail = none) (code sec : Nat) :
    s.failSlot code sec = s.withLoader { s.ld with fail := some (code, sec) } := by
  unfold State.failSlot
  rw [h]
  rfl

/-! ### What the Catalog leaves (R69 to R72, R78) -/

/-- The registers of check unit 31, through which the bytes of a slot pass (R78). -/
def slotCheckRegs : List Nat := [CHK_RUN 31, CHK_STAT 31, CHK_BYTE_CNT 31]

theorem touched_readSlot (s : State) (bs : List Byte) : Touched (· ∈ slotCheckRegs) s (s.readSlot bs) :=
  have hbytes : Touched (· ∈ slotCheckRegs) s (s.withLoader { s.ld with slotBytes := s.ld.slotBytes ++ bs }) :=
    (Touched.refl s).beside rfl rfl
  ((hbytes.setReg (CHK_RUN 31) _ (by decide)).setFlag (CHK_STAT 31) _ _ (by decide)).setReg (CHK_BYTE_CNT 31) _ (by decide)

section
variable (s : State) (bytes : List Byte)

theorem ld_catalogKept : (s.catalogKept bytes).ld = { s.ld with
    sections := (List.range (at' bytes 6 2)).map (entryAt bytes), secNo := 0, imageLength := at' bytes 8 4
    version := w32 (at' bytes 0x10 4), build := w32 (at' bytes 0x14 4)
    slotBytes := s.ld.slotBytes ++ bytes.take (0x20 + 16 * at' bytes 6 2) } := rfl

theorem byte_catalogKept (a : Nat) : (s.catalogKept bytes).byte a = (s.zero sramBase sramSize).byte a :=
  sameMem_of_mem (touched_readSlot _ _).mem a

theorem nvmStat_catalogKept : (s.catalogKept bytes).reg NVM_STAT = s.reg NVM_STAT := (touched_readSlot _ _).regs NVM_STAT (by decide)

end

/-- A Catalog without fault: its entries are kept and working SRAM is zero-filled, in step 4 at the clock it selects. -/
theorem catalogHeader_good {s : State} {bytes : List Byte} (hfail : s.ld.fail = none) (h : s.catalogFault bytes = none) {t : State}
    (ht : t = ((s.catalogBegun bytes).catalogKept bytes).beginStep 4) :
    t.ld.fail = none ∧ t.ld.sections = (List.range (at' bytes 6 2)).map (entryAt bytes) ∧ t.ld.version = w32 (at' bytes 0x10 4)
      ∧ t.fld NVM_STAT NVM_STAT_STEP = 4 ∧ t.fld NVM_STAT NVM_STAT_CLK = (if s.ld.fallback03 then 0 else at' bytes 0x0F 1)
      ∧ (∀ a, sramBase ≤ a → a < sramBase + sramSize → t.byte a = 0)
      ∧ (∀ a, a < sramBase ∨ sramBase + sramSize ≤ a → t.byte a = s.byte a) := by
  have hbyte (a : Nat) : t.byte a = ((s.catalogBegun bytes).zero sramBase sramSize).byte a := by
    rw [ht]
    exact (sameMem_of_mem (touched_beginStep _ 4).mem a).trans (byte_catalogKept _ bytes a)
  have hld := ld_beginStep ((s.catalogBegun bytes).catalogKept bytes) 4
  rw [← ht, ld_catalogKept, ld_catalogBegun] at hld
  refine ⟨?_, ?_, ?_, ?_, ?_, fun a hlo hhi => (hbyte a).trans (byte_zero_in _ ⟨hlo, hhi⟩),
    fun a ha => (hbyte a).trans ((byte_zero_out _ ha).trans (sameMem_of_mem (touched_catalogBegun s bytes).mem a))⟩
  · rw [hld]
    exact hfail
  · rw [hld]
  · rw [hld]
  · rw [ht]
    exact step_beginStep _ 4 (by decide)
  · rw [ht, fld_beginStep_other _ 4 (by decide), fld_of_reg (nvmStat_catalogKept _ bytes)]
    exact clk_catalogBegun s bytes (slotFault_of_catalogFault h)

/-! ### The obligation -/

/-- Settles O9: each of the three rows has one branch in the step that the hypotheses name, and the Catalog's verdict is the one it has before
the row, which step 3's mark and the clock do not touch. -/
theorem loaderSteps : Obligations.LoaderSteps := by
  unfold Obligations.LoaderSteps
  refine ⟨fun s ok hl hst hstep hnew => ?selfCheck, fun s jedec x hl hst hstep hchk _ _ => ?found, fun s jedec hl hst hstep hchk => ?fallback,
    fun s bytes hl hst hstep hsec hfail => ?catalog⟩
  case selfCheck =>
    exact ⟨_, exec_bootRomSelfCheck hl hst hstep hnew ok, rfl, rfl, rfl, rfl, fun a _ => (touched_withLoader s _).regs a id, fun _ => rfl, rfl⟩
  case found =>
    have h := discovered_spec hst hstep jedec.toNat (readMode_lt x) x.addr4Only true x.densityLog2
    exact ⟨_, exec_norDiscovery hl hst hstep hchk jedec (some x), h.step, h.jedec, congrArg Loader.density h.ld, h.addr4, h.mode, h.sfdpOk,
      congrArg Loader.fallback03 h.ld, h.raised, sameMem_of_mem h.touched.mem, h.touched.regs⟩
  case fallback =>
    have h := discovered_spec hst hstep jedec.toNat (mode := 0) (by decide) false false 27
    exact ⟨_, exec_norDiscovery hl hst hstep hchk jedec none, congrArg Loader.density h.ld, congrArg Loader.fallback03 h.ld, h.mode, h.sfdpOk⟩
  case catalog =>
    have hexec := exec_catalogHeader hl hst hstep hsec hfail bytes
    cases h : s.catalogFault bytes with
    | some f =>
      rw [h] at hexec
      have hbegun : (s.catalogBegun bytes).ld.fail = none := (congrArg Loader.fail (ld_catalogBegun s bytes)).trans hfail
      refine ⟨_, hexec, ?_, fun hn => by cases hn⟩
      rintro c ⟨⟩
      rw [State.catalogJudged, failSlot_of_none hbegun]
      exact ⟨rfl, sameMem_of_mem (touched_catalogBegun s bytes).mem⟩
    | none =>
      rw [h] at hexec
      exact ⟨_, hexec, fun _ hc => (by cases hc), fun _ => catalogHeader_good hfail h rfl⟩

end Sys2Proof.Machine
end

section
/-! SUPPORT. What the body of a section leaves: the bytes in the loader and in check unit 31, and a verdict that moves the loader alone. -/

namespace Sys2Proof.Machine

/-! ### A verdict of the loader (R79) -/

/-- From `r` to `s` the loader may have moved, and neither a register nor a byte nor an event differs. -/
structure LoaderOnly (r s : State) : Prop where
  regs : s.regs = r.regs
  mem : s.mem = r.mem
  chan : s.chan = r.chan

namespace LoaderOnly

variable {r s t : State}

theorem refl (s : State) : LoaderOnly s s := ⟨rfl, rfl, rfl⟩

theorem trans (h : LoaderOnly r s) (g : LoaderOnly s t) : LoaderOnly r t :=
  ⟨g.regs.trans h.regs, g.mem.trans h.mem, g.chan.trans h.chan⟩

theorem withLoader (h : LoaderOnly r s) (l : Loader) : LoaderOnly r (s.withLoader l) := ⟨h.regs, h.mem, h.chan⟩

theorem failSlot (h : LoaderOnly r s) (code sec : Nat) : LoaderOnly r (s.failSlot code sec) := by
  unfold State.failSlot
  split
  · exact h
  · exact h.withLoader _

theorem stageWords (sec : Nat) (l : List Staged) (h : LoaderOnly r s) : LoaderOnly r (s.stageWords sec l) := by
  induction l generalizing s with
  | nil => exact h
  | cons x xs ih =>
    unfold State.stageWords
    split
    · exact h.failSlot _ _
    · exact ih (h.withLoader _)

theorem ite {c : Prop} [Decidable c] (h : LoaderOnly r s) (g : LoaderOnly r t) : LoaderOnly r (if c then s else t) := by
  split <;> assumption

theorem touched {W : Nat → Prop} (h : LoaderOnly s t) (g : Touched W r s) : Touched W r t := g.beside h.regs h.mem

end LoaderOnly

/-- The first failure of a slot stands. -/
theorem failSlot_of_some {s : State} {f : Nat × Nat} (h : s.ld.fail = some f) (code sec : Nat) : s.failSlot code sec = s := by
  unfold State.failSlot
  rw [h]

/-! ### The bytes of a section (R78) -/

section
variable (s : State) (bs : List Byte)

theorem touched_readBody : Touched (· ∈ slotCheckRegs) s (s.readBody bs) :=
  ((Touched.refl s).beside (t := s.withLoader { s.ld with secBytes := s.ld.secBytes ++ bs }) rfl rfl).trans (touched_readSlot _ bs)

/-- What no register holds is as the bytes in the loader leave it. -/
theorem readSlot_keeps_of_setReg {β : Type} (g : State → β) (hg : ∀ x a w, g (State.setReg x a w) = g x) :
    g (s.readSlot bs) = g (s.withLoader { s.ld with slotBytes := s.ld.slotBytes ++ bs }) :=
  (hg _ _ _).trans ((hg _ _ _).trans (hg _ _ _))

theorem ld_readBody : (s.readBody bs).ld = { s.ld with secBytes := s.ld.secBytes ++ bs, slotBytes := s.ld.slotBytes ++ bs } :=
  readSlot_keeps_of_setReg _ bs State.ld fun _ _ _ => rfl

theorem chan_readBody : (s.readBody bs).chan = s.chan := readSlot_keeps_of_setReg _ bs State.chan fun _ _ _ => rfl

/-- What the loader makes of a section's bytes leaves registers, memory and events as reading the bytes does. -/
theorem LoaderOnly.afterBody {s t : State} {bs : List Byte} (h : LoaderOnly (s.readBody bs) t) :
    Safety.onlyRegs slotCheckRegs s t ∧ Safety.sameMem s t ∧ t.chan = s.chan :=
  have htouched := h.touched (touched_readBody s bs)
  ⟨htouched.regs, sameMem_of_mem htouched.mem, h.chan.trans (chan_readBody s bs)⟩

end

theorem inSection_iff {s : State} {ty : Nat} : s.inSection ty = true ↔
    s.loaderRuns = true ∧ s.life = stLoading ∧ s.ld.fail = none ∧ ∃ e, s.section? = some e ∧ e.ty = ty := by
  unfold State.inSection
  cases s.section? <;> simp [and_assoc]

end Sys2Proof.Machine
end

section
/-! PROOF of O10: the records of an image, and accesses in the range of the NVM window. -/

namespace Sys2Proof.Machine

/-! ### Register-load records (R73 to R75) -/

/-- The registers of check unit 31 are none that an image may set (R74). -/
theorem not_image_slotCheckRegs : ∀ a ∈ slotCheckRegs, ∃ row, regRow a = some row ∧ row.image = false := by
  simp only [slotCheckRegs, List.forall_mem_cons]
  exact ⟨⟨_, rfl, rfl⟩, ⟨_, rfl, rfl⟩, ⟨_, rfl, rfl⟩, List.forall_mem_nil _⟩

theorem image_of_wordFault {s : State} {r : Staged} (h : s.wordFault r = none) {row : RegRow} (hrow : regRow r.addr = some row) :
    row.image = true := by
  cases himage : row.image with
  | true => rfl
  | false => simp [State.wordFault, hrow, himage] at h

theorem wordFault_congr {s t : State} {r : Staged} (hstaged : t.ld.staged = s.ld.staged) (hreg : t.reg r.addr = s.reg r.addr) :
    t.wordFault r = s.wordFault r := by
  have hword : t.stagedWord r.addr = s.stagedWord r.addr := by rw [State.stagedWord, hstaged, hreg, State.stagedWord]
  unfold State.wordFault
  rw [hword]

/-- A word that is permitted before its record is read is permitted after it. -/
theorem wordFault_readBody {s : State} {r : Staged} (h : s.wordFault r = none) (bs : List Byte) : (s.readBody bs).wordFault r = none := by
  have hne : r.addr ∉ slotCheckRegs := fun hmem => by
    obtain ⟨row, hrow, himage⟩ := not_image_slotCheckRegs _ hmem
    rw [image_of_wordFault h hrow] at himage
    cases himage
  rw [← h]
  exact wordFault_congr (by rw [ld_readBody]) ((touched_readBody s bs).regs _ hne)

/-- What a record does once its words have been read, before any END of its section. -/
def State.recordJudged (s : State) (sec : Nat) : Option Record → State
  | none => s.failSlot 0x16 sec
  | some .finish => s.withLoader { s.ld with ended := true }
  | some (.writes l) => s.stageWords sec l

theorem loaderOnly_recordJudged (s : State) (sec : Nat) (x : Option Record) : LoaderOnly s (s.recordJudged sec x) :=
  match x with
  | none => (LoaderOnly.refl s).failSlot 0x16 sec
  | some .finish => (LoaderOnly.refl s).withLoader _
  | some (.writes l) => (LoaderOnly.refl s).stageWords sec l

theorem secBytes_failSlot (s : State) (code sec : Nat) : (s.failSlot code sec).ld.secBytes = s.ld.secBytes := by
  unfold State.failSlot
  split <;> rfl

theorem secBytes_stageWords (s : State) (sec : Nat) (l : List Staged) : (s.stageWords sec l).ld.secBytes = s.ld.secBytes := by
  induction l generalizing s with
  | nil => rfl
  | cons x xs ih =>
    unfold State.stageWords
    split
    · exact secBytes_failSlot ..
    · exact ih _

theorem secBytes_recordJudged (s : State) (sec : Nat) (x : Option Record) : (s.recordJudged sec x).ld.secBytes = s.ld.secBytes :=
  match x with
  | none => secBytes_failSlot s 0x16 sec
  | some .finish => rfl
  | some (.writes l) => secBytes_stageWords s sec l

theorem exec_registerLoadRecord {s : State} (h : s.inSection 1 = true) (hend : s.ld.ended = false) (words : List Word) :
    exec (.registerLoadRecord words) s =
      .next ((s.readBody (words.flatMap fun w => leBytes 4 w.toNat)).recordJudged s.ld.secNo (parseRecord words)) := by
  refine congrArg Host.Outcome.next ((if_pos h).trans ((if_neg (by rw [ld_readBody, hend]; decide)).trans ?_))
  obtain _ | _ | l := parseRecord words <;> rfl

theorem stageWords_of_permitted {s : State} {r : Staged} (h : s.wordFault r = none) (sec : Nat) :
    s.stageWords sec [r] = s.withLoader { s.ld with staged := s.ld.staged ++ [r] } := by
  simp only [State.stageWords, h, State.withLoader]

theorem registerLoadRecord_judged {s : State} (h : s.inSection 1 = true) (hend : s.ld.ended = false) (words : List Word) :
    ∃ t, exec (.registerLoadRecord words) s = .next t ∧ t.ld.secBytes = s.ld.secBytes ++ words.flatMap (fun w => leBytes 4 w.toNat)
      ∧ (parseRecord words = none → t.ld.fail = some (0x16, s.ld.secNo))
      ∧ (parseRecord words = some .finish → t.ld.ended = true ∧ t.ld.staged = s.ld.staged ∧ t.ld.fail = none)
      ∧ (∀ r, parseRecord words = some (.writes [r]) → s.wordFault r = none → t.ld.fail = none ∧ t.ld.staged = s.ld.staged ++ [r])
      ∧ Safety.onlyRegs slotCheckRegs s t ∧ Safety.sameMem s t ∧ t.chan = s.chan := by
  obtain ⟨-, -, hfail, -⟩ := inSection_iff.mp h
  set bs := words.flatMap fun w => leBytes 4 w.toNat
  have hld := ld_readBody s bs
  have hunfailed : (s.readBody bs).ld.fail = none := by rw [hld, hfail]
  have hstaged : (s.readBody bs).ld.staged = s.ld.staged := by rw [hld]
  refine ⟨_, exec_registerLoadRecord h hend words, (secBytes_recordJudged ..).trans (by rw [hld]), fun hp => ?malformed,
    fun hp => ?finish, fun r hp hr => ?word, (loaderOnly_recordJudged _ _ _).afterBody⟩
  case malformed =>
    rw [hp, State.recordJudged, failSlot_of_none hunfailed]
    rfl
  case finish =>
    rw [hp]
    exact ⟨rfl, hstaged, hunfailed⟩
  case word =>
    rw [hp, State.recordJudged, stageWords_of_permitted (wordFault_readBody hr _)]
    exact ⟨hunfailed, congrArg (· ++ [r]) hstaged⟩

/-! ### The head of a service program (R76) -/

/-- A service program's head accepted: its place in working SRAM, and whether it is the VECTOR. -/
def State.programAccepted (s : State) (a n k : Nat) : State :=
  s.withLoader { s.ld with head := true, programs := s.ld.programs ++ [(a, n)], vector := s.ld.vector || decide (k = 1) }

section
variable {s : State} {a n k : Nat} {e : SecEntry} (h : s.inSection 2 = true) (hbytes : s.ld.secBytes = []) (hhead : s.ld.head = false)
  (he : s.section? = some e) (hlen : e.length = n + 16) (hk : k = 0 ∨ k = 1 ∧ a = 0 ∧ s.ld.vector = false) (ha : a < 0x7FFFD)
  (hal : a % 4 = 0) (hn : a + n ≤ sramSize) (hfree : s.ld.programs.any (overlaps (a, n)) = false)
include h hbytes hhead he hlen hk ha hal hn hfree

theorem exec_serviceProgramHead : exec (.serviceProgramHead [w32 a, w32 n, w32 k, 0]) s =
    .next ((s.readBody ([w32 a, w32 n, w32 k, 0].flatMap fun w => leBytes 4 w.toNat)).programAccepted a n k) := by
  have hsize : sramSize = 0x80000 := rfl
  have hwa : (w32 a).toNat = a := toNat_w32 (by omega)
  have hwn : (w32 n).toNat = n := toNat_w32 (by omega)
  have hwk : (w32 k).toNat = k := toNat_w32 (by omega)
  have hfits : a % 4 = 0 ∧ a ≤ 0x7FFFC ∧ n + 16 = e.length ∧ k ≤ 1 ∧ a + n ≤ sramSize := by omega
  have hvector : k = 1 → s.ld.vector = false ∧ a = 0 := by
    rintro rfl
    obtain hzero | ⟨-, hat0, hnone⟩ := hk
    · cases hzero
    · exact ⟨hnone, hat0⟩
  refine congrArg Host.Outcome.next ((if_pos (by simp [h, hbytes, hhead])).trans ((if_neg ?_).trans ((if_neg ?_).trans ?_)))
  · simpa [hwa, hwn, hwk, he, hfree, ld_readBody] using hfits
  · simpa [hwa, hwk, ld_readBody] using hvector
  · simp [hwa, hwn, hwk, State.programAccepted, State.withLoader]

theorem serviceProgramHead_accepted : ∃ t, exec (.serviceProgramHead [w32 a, w32 n, w32 k, 0]) s = .next t
    ∧ t.ld.programs = s.ld.programs ++ [(a, n)] ∧ t.ld.fail = none ∧ t.ld.vector = (s.ld.vector || decide (k = 1))
    ∧ Safety.onlyRegs slotCheckRegs s t ∧ Safety.sameMem s t ∧ t.chan = s.chan := by
  obtain ⟨-, -, hfail, -⟩ := inSection_iff.mp h
  have hld := ld_readBody s ([w32 a, w32 n, w32 k, 0].flatMap fun w => leBytes 4 w.toNat)
  refine ⟨_, exec_serviceProgramHead h hbytes hhead he hlen hk ha hal hn hfree, ?_, ?_, ?_,
    ((LoaderOnly.refl _).withLoader _).afterBody⟩
  all_goals
    rw [State.programAccepted, State.withLoader, hld]
  exact hfail

end

/-! ### The end of an opaque section (R70, R72) -/

/-- The next section begun. -/
def State.sectionClosed (s : State) (sec : Nat) : State :=
  s.withLoader { s.ld with secNo := sec + 1, secBytes := [], ended := false, head := false }

/-- The verdict on a section's CRC. -/
def State.crcJudged (s : State) (e : SecEntry) (sec : Nat) : State :=
  if crc32c s.ld.secBytes ≠ e.crc then s.failSlot 0x15 sec else s

/-- After the last section a VECTOR must have been among them. -/
def State.vectorJudged (s : State) (sec : Nat) : State :=
  if sec + 1 = s.ld.sections.length ∧ !s.ld.vector then s.failSlot 0x27 0xFF else s

section
variable (s : State) (e : SecEntry) (sec : Nat)

theorem loaderOnly_vectorJudged : LoaderOnly s (s.vectorJudged sec) :=
  LoaderOnly.ite ((LoaderOnly.refl s).failSlot 0x27 0xFF) (.refl s)

theorem loaderOnly_crcJudged : LoaderOnly s (s.crcJudged e sec) := LoaderOnly.ite ((LoaderOnly.refl s).failSlot 0x15 sec) (.refl s)

theorem secNo_sectionClosed : (s.sectionClosed sec).ld.secNo = sec + 1 := rfl

theorem secBytes_sectionClosed : (s.sectionClosed sec).ld.secBytes = [] := rfl

theorem fail_sectionClosed : (s.sectionClosed sec).ld.fail = s.ld.fail := rfl

theorem fail_crcJudged {s : State} (h : s.ld.fail = none) (hcrc : crc32c s.ld.secBytes ≠ e.crc) :
    (s.crcJudged e sec).ld.fail = some (0x15, sec) := by
  rw [State.crcJudged, if_pos hcrc, failSlot_of_none h]
  rfl

theorem secNo_failSlot (code : Nat) : (s.failSlot code sec).ld.secNo = s.ld.secNo := by
  unfold State.failSlot
  split <;> rfl

theorem secNo_vectorJudged : (s.vectorJudged sec).ld.secNo = s.ld.secNo := by
  unfold State.vectorJudged
  split
  · exact secNo_failSlot ..
  · rfl

theorem secBytes_vectorJudged : (s.vectorJudged sec).ld.secBytes = s.ld.secBytes := by
  unfold State.vectorJudged
  split
  · exact secBytes_failSlot ..
  · rfl

/-- A failure stands to the end of its section. -/
theorem vectorJudged_of_failed {s : State} {f : Nat × Nat} (h : s.ld.fail = some f) : s.vectorJudged sec = s := by
  unfold State.vectorJudged
  rw [failSlot_of_some h, ite_self]

end

theorem exec_sectionEnd_opaque {s : State} {e : SecEntry} (h : s.inSection 3 = true) (he : s.section? = some e) (rest : List Byte) :
    exec (.sectionEnd rest) s =
      .next ((((s.readBody rest).crcJudged e s.ld.secNo).sectionClosed s.ld.secNo).vectorJudged s.ld.secNo) := by
  obtain ⟨-, -, -, e', he', hty⟩ := inSection_iff.mp h
  obtain rfl : e = e' := Option.some.inj (he.symm.trans he')
  refine congrArg Host.Outcome.next ((if_pos (by simp [h])).trans ?_)
  rw [he]
  generalize s.readBody rest = u
  dsimp -zeta only
  extract_lets sec read noEnd loaded judged
  have hnoEnd : noEnd = u := if_neg (by simp [hty])
  have hloaded : loaded = u := (if_neg (by simp [hty])).trans hnoEnd
  have hjudged : judged = u.crcJudged e sec := by
    unfold judged
    rw [hloaded, if_neg (show ¬ (e.ty = 1 ∧ (!u.ld.ended) = true) by simp [hty]),
      if_neg (show ¬ (e.ty = 2 ∧ (!u.ld.head) = true) by simp [hty])]
    rfl
  clear_value judged
  subst hjudged
  rfl

theorem sectionEnd_opaque {s : State} {e : SecEntry} (h : s.inSection 3 = true) (he : s.section? = some e) (rest : List Byte) :
    ∃ t, exec (.sectionEnd rest) s = .next t ∧ t.ld.secNo = s.ld.secNo + 1 ∧ t.ld.secBytes = [] ∧ Safety.sameMem s t
      ∧ (crc32c (s.ld.secBytes ++ rest) ≠ e.crc → t.ld.fail = some (0x15, s.ld.secNo)) ∧ Safety.onlyRegs slotCheckRegs s t := by
  obtain ⟨-, -, hfail, -⟩ := inSection_iff.mp h
  have hld := ld_readBody s rest
  have hunfailed : (s.readBody rest).ld.fail = none := by rw [hld, hfail]
  have hbytes : (s.readBody rest).ld.secBytes = s.ld.secBytes ++ rest := by rw [hld]
  have hjudged := loaderOnly_crcJudged (s.readBody rest) e s.ld.secNo
  obtain ⟨hregs, hmem, -⟩ := ((hjudged.withLoader _).trans (loaderOnly_vectorJudged _ s.ld.secNo)).afterBody
  refine ⟨_, exec_sectionEnd_opaque h he rest, (secNo_vectorJudged ..).trans (secNo_sectionClosed ..),
    (secBytes_vectorJudged ..).trans (secBytes_sectionClosed ..), hmem, fun hcrc => ?_, hregs⟩
  have hclosed : (((s.readBody rest).crcJudged e s.ld.secNo).sectionClosed s.ld.secNo).ld.fail = some (0x15, s.ld.secNo) :=
    (fail_sectionClosed ..).trans (fail_crcJudged e s.ld.secNo hunfailed (by rwa [hbytes]))
  rw [vectorJudged_of_failed s.ld.secNo hclosed, hclosed]

/-! ### The NVM window at its target (R87, R98) -/

section
variable {u : State} {a : Nat} (port : Nat) (ht : u.target a = 6) (ha : a % 4 = 0)
include ht ha

section
variable (hw : u.flag NVM_STAT NVM_STAT_WINDOW = false)

omit ht ha in
include hw in
/-- The closed window notes an access. -/
theorem noteWindow_closed : u.noteWindow 6 = u.raise islMX 0x045 := if_pos ⟨rfl, by rw [State.windowOpen, hw]; rfl⟩

include hw

/-- A read through the closed window is noted and answered DECODE. -/
theorem readAt_closedWindow : (u.readAt port a 4).1 = (u.raise islMX 0x045).respond rDecode := by
  have hcode : (u.raise islMX 0x045).readAnswer 6 a 4 = rDecode :=
    (readAnswer_of_aligned _ ha (by decide)).trans (if_neg (by rw [State.windowOpen, flag_raise, hw]; decide))
  rw [← noteWindow_closed hw] at hcode
  rw [readAt_of_error ht hcode (by decide), noteWindow_closed hw]

/-- A write through the closed window likewise. -/
theorem writeAt_closedWindow {bs : List (Option Byte)} (hlen : bs.length = 4) :
    u.writeAt port a bs = (u.raise islMX 0x045).respond rDecode := by
  have hnote : (u.noteWindow 6).noteCode port 6 a = u.raise islMX 0x045 := (noteCode_of_ne a (by decide)).trans (noteWindow_closed hw)
  have hcode : (u.raise islMX 0x045).writeAnswer port 6 a bs.length = rDecode :=
    (writeAnswer_of_aligned _ (by rwa [hlen])).trans (if_neg (by rw [State.windowOpen, flag_raise, hw]; decide))
  rw [← hnote] at hcode
  rw [writeAt_of_error ht (by decide) hcode (by decide), hnote]

end

section
variable (hw : u.flag NVM_STAT NVM_STAT_WINDOW = true)

omit ht ha in
include hw in
theorem noteWindow_open : u.noteWindow 6 = u := if_neg (by rw [State.windowOpen, hw]; decide)

include hw

/-- A read through the open window takes its bytes from the free words. -/
theorem readAt_openWindow (hl : u.readable islLD = true) : (u.readAt port a 4).1 = u.useFree.useFree.respond rOkay := by
  have hcode : u.readAnswer 6 a 4 = rOkay := (readAnswer_of_aligned _ ha (by decide)).trans ((if_pos hw).trans (if_pos hl))
  rw [← noteWindow_open hw] at hcode
  rw [readAt_of_okay ht hcode, noteWindow_open hw]
  rfl

/-- A write through the open window is the loader's alone. -/
theorem writeAt_openWindow {bs : List (Option Byte)} (hlen : bs.length = 4) (hp : port ≠ 6) (hl : u.running islLD = true) :
    u.writeAt port a bs = u.respond rRefused := by
  have hnote : (u.noteWindow 6).noteCode port 6 a = u := (noteCode_of_ne a (by decide)).trans (noteWindow_open hw)
  have hcode : u.writeAnswer port 6 a bs.length = rRefused :=
    (writeAnswer_of_aligned _ (by rwa [hlen])).trans ((if_pos hw).trans ((if_neg (by simp [hl])).trans (if_neg (by simp [hp]))))
  rw [← hnote] at hcode
  rw [writeAt_of_error ht (by decide) hcode (by decide), hnote]

end

end

/-! ### An access in the range of the window (R95, R99) -/

/-- The ID of an access to the NVM window: the cores issue target 6's number (R297). -/
def windowId (port : Fin 8) : Nat := if port.val < 4 then 6 else 0

section
variable {s : State} {port : Fin 8} {addr : Word} (hmay : s.portMay port = true) (hm : s.running islMX = true) (ht : s.target addr.toNat = 6)
include hmay hm ht

theorem exec_nvmWindowAccess_read : exec (.nvmWindowAccess port false addr) s =
    .next (((s.grant port addr.toNat).readAt port addr.toNat 4).1.logAccess port (windowId port) false addr.toNat) := by
  refine congrArg Host.Outcome.next ((if_neg (by simp [hmay, ht])).trans ((if_pos rfl).trans ?_))
  rw [State.busRead, if_neg (by simp [hm])]
  rfl

theorem exec_nvmWindowAccess_write (hp : port.val < 7) : exec (.nvmWindowAccess port true addr) s =
    .next (((s.grant port addr.toNat).writeAt port addr.toNat (wordBytes 0)).logAccess port (windowId port) true addr.toNat) := by
  refine congrArg Host.Outcome.next ((if_neg (by simp [hmay, ht])).trans ((if_neg (by decide)).trans ((if_neg (by omega)).trans ?_)))
  rw [State.busWrite, if_neg (by simp [hm])]
  rfl

end

/-- An error met by another master than the bridge is recorded by the matrix alone. -/
theorem logAccess_error {s : State} {code : Nat} (h : s.mtx.resp = code) (hc : code ≠ rOkay) (hm : s.running islMX = true) (port id a : Nat)
    (write : Bool) (hp : port ≠ 7) : s.logAccess port id write a = s.errorResponse port (s.target a) code id write a 0 := by
  subst h
  simp [State.logAccess, hc, hm, hp]

/-- What the closed window leaves of an access, once it has been granted. -/
theorem closedWindow_logged {u : State} (hmu : u.running islMX = true) {port : Nat} (hp : port ≠ 7) (id a : Nat) (write : Bool) {t : State}
    (h : t = ((u.raise islMX 0x045).respond rDecode).logAccess port id write a) :
    t.mtx.resp = rDecode ∧ Safety.raised [(islMX, 0x045), (islMX, 0x080)] u t ∧ Safety.onlyRegs [MTX_ERR_LAST, MTX_ERR_ADDR] u t
      ∧ Safety.sameMem u t := by
  have hd := not_dormant_of_running hmu
  have hnoted : Safety.raised [(islMX, 0x045)] u ((u.raise islMX 0x045).respond rDecode) := raised_raise _ _ _ rfl hd
  have hrun : ((u.raise islMX 0x045).respond rDecode).running islMX = true := (running_raise ..).trans hmu
  rw [logAccess_error (code := rDecode) rfl (by decide) hrun port id a write hp] at h
  obtain ⟨hresp, -, hraised, hregs, hmem⟩ := errorResponse_spec _ port id a rDecode 0 write _ rfl (not_dormant_of_running hrun) h
  exact ⟨hresp, raised_trans hnoted hraised, fun b hb => (hregs b hb).trans (reg_raise ..), fun b => (hmem b).trans (byte_raise ..)⟩

/-- What the open window leaves of a read answered: two free words used, and nothing else but the answer. -/
theorem openWindow_answered (u : State) : (u.useFree.useFree.respond rOkay).mtx.resp = rOkay ∧ (u.useFree.useFree.respond rOkay).chan = u.chan
    ∧ Safety.onlyRegs [] u (u.useFree.useFree.respond rOkay) ∧ Safety.sameMem u (u.useFree.useFree.respond rOkay) :=
  ⟨rfl, rfl, fun _ _ => rfl, fun _ => rfl⟩

/-- What the open window leaves of a write refused. -/
theorem openWindow_refused {u : State} (hmu : u.running islMX = true) {port : Nat} (hp : port ≠ 7) (id a : Nat) {t : State}
    (h : t = (u.respond rRefused).logAccess port id true a) :
    t.mtx.resp = rRefused ∧ Safety.raised [(islMX, 0x081)] u t ∧ Safety.onlyRegs [MTX_ERR_LAST, MTX_ERR_ADDR] u t ∧ Safety.sameMem u t := by
  rw [logAccess_refused (u.respond rRefused) port id a true rfl hmu hp] at h
  obtain ⟨hresp, -, hraised, hregs, hmem⟩ :=
    errorResponse_spec (u.respond rRefused) port id a rRefused 0 true _ rfl (not_dormant_of_running hmu) h
  exact ⟨hresp, hraised, hregs, hmem⟩

/-! ### The obligation -/

/-- Settles O10: a record and a section's end move the loader and check unit 31 alone, whatever the verdict, and an access in the window's
range has one answer in the state in which it is granted. -/
theorem loaderRecordsAndNvmWindow : Obligations.LoaderRecordsAndNvmWindow := by
  unfold Obligations.LoaderRecordsAndNvmWindow
  refine ⟨⟨fun s words h hend => registerLoadRecord_judged h hend words, ?head, fun s rest e h he => sectionEnd_opaque h he rest⟩,
    ?closed, ?opened⟩
  case head => exact fun s a n k e h hbytes hhead he hlen hk ha hal hn hfree =>
    serviceProgramHead_accepted h hbytes hhead he hlen hk ha hal hn hfree
  case closed =>
    rintro s u port write addr hmay hm ht hal hp rfl hmu htu hw
    have hlogged := closedWindow_logged hmu (port := port) (by omega) (windowId port) addr.toNat write rfl
    cases write with
    | false =>
      refine ⟨_, exec_nvmWindowAccess_read hmay hm ht, ?_⟩
      rwa [readAt_closedWindow port htu hal hw]
    | true =>
      refine ⟨_, exec_nvmWindowAccess_write hmay hm ht hp, ?_⟩
      rwa [writeAt_closedWindow port htu hal hw rfl]
  case opened =>
    rintro s u port addr hmay hm ht hal hp rfl hmu htu hw hread
    refine ⟨⟨_, exec_nvmWindowAccess_read hmay hm ht, ?_⟩, fun hport hrun => ⟨_, exec_nvmWindowAccess_write hmay hm ht hp, ?_⟩⟩
    · rw [readAt_openWindow port htu hal hw hread, logAccess_okay _ _ _ _ _ rfl]
      exact openWindow_answered _
    · rw [writeAt_openWindow port htu hal hw rfl (by omega) hrun]
      exact openWindow_refused hmu (by omega) _ _ rfl

end Sys2Proof.Machine
end

section
/-! PROOF of O12 and O60: each fails of a state that its hypotheses admit, and the model evaluates that state to the refuting outcome. -/

namespace Sys2Proof.Machine

/-! ### The fence number that MTX_FENCE has room for (R105, R111) -/

/-- The module in Serving with every island out of reset and the bridge unlocked, after 255 fences have been issued and completed. -/
def fences255 : State :=
  let s := { State.reset with sp := { Sup.init with powered := true, converter := true, dormant := false } }
  let s := (s.setFld SUP_STATE SUP_STATE_STATE stServing).setReg SUP_ISLAND_STAT 0xFFFFFF
  ((s.setUnlock 2).setFld MTX_FENCE_NO MTX_FENCE_NO_ISSUED 255).setFld MTX_FENCE_NO MTX_FENCE_NO_COMPLETED 255

/-- FENCE_LO and the number of the running fence that an outcome leaves. -/
def fenceLeft : Host.Outcome State Fault Refusal → Nat × Option Nat
  | .next t => (t.fld MTX_FENCE MTX_FENCE_FENCE_LO, t.mtx.fence.map Fence.no)
  | _ => (0, none)

/-- Fence 256 is issued, and FENCE_LO shows its low 8 bits. -/
theorem fenceLeft_mtxFenceGo : fenceLeft (exec (.mtxFenceGo .maintenance 1 true) fences255) = (0, some 256) := by
  decide +kernel

/-- Refutes O12: FENCE_LO has eight bits and shows the low byte of the fence number (R111), where the statement wants the whole number. They
differ from the 256th fence on. -/
theorem not_globalFences : ¬ Obligations.GlobalFences := by
  unfold Obligations.GlobalFences
  rintro ⟨hissue, -⟩
  have hgranted : Safety.granted .maintenance fences255 (fences255.settleFor .maintenance) := ⟨rfl, by decide +kernel⟩
  obtain ⟨t, f, ht, hfence, -, -, hlo, -⟩ := hissue fences255 _ 1 hgranted (by decide +kernel) (by decide +kernel) (by decide +kernel)
  have hleft := fenceLeft_mtxFenceGo
  rw [ht, fenceLeft, hfence, hlo, Prod.mk.injEq] at hleft
  obtain ⟨hzero, hno⟩ := hleft
  rw [Option.map_some, hzero] at hno
  exact absurd hno (by decide)

/-! ### What the register target was granted before (R101) -/

/-- The module of `preemptionInFlight`, with the task command of SV0 in flight, and the bridge unlocked. -/
def unlockedInFlight : State := preemptionInFlight.setUnlock 2

/-- The write to MTX_FENCE lets the task command before it take effect, and the preemption saves task 2's context. -/
theorem byteLeft_mtxFenceGo : byteLeft savedPc (exec (.mtxFenceGo .maintenance 0 false) unlockedInFlight) = 0x01 := by
  decide +kernel

/-- Refutes O60: the write itself does nothing, but the row that carries it is granted after what the register target was granted before, and
that takes effect first (R101). The statement takes any state, one with a task command in flight too, whose preemption stores a context. -/
theorem not_fenceWritesWithoutEffect : ¬ Obligations.FenceWritesWithoutEffect := by
  unfold Obligations.FenceWritesWithoutEffect
  intro h
  have hnext := h unlockedInFlight 0 false (by decide +kernel) (by decide +kernel) (.inl rfl)
  have hleft := byteLeft_mtxFenceGo
  rw [hnext, byteLeft, byte_respond] at hleft
  have hbefore : unlockedInFlight.byte savedPc = 0 := rfl
  rw [hbefore] at hleft
  exact absurd hleft (by decide)

end Sys2Proof.Machine
end

section
/-! SUPPORT. What a table lists after an entry is erased or put in place, and what memory holds after bytes are stored one by one. -/

namespace Sys2Proof.Machine

/-! ### Entries of a table -/

section
variable {α : Type}

theorem mem_terase {t : Tbl α} {k : Nat} {p : Nat × α} : p ∈ terase t k ↔ p ∈ t ∧ p.1 ≠ k := by simp [terase]

theorem mem_tinsert_iff {t : Tbl α} {k : Nat} {v : α} {p : Nat × α} : p ∈ tinsert t k v ↔ p = (k, v) ∨ p ∈ t := by
  induction t with
  | nil => simp [tinsert]
  | cons q r ih =>
    unfold tinsert
    split
    · simp
    · rw [List.mem_cons, ih, List.mem_cons]
      tauto

theorem terase_of_absent {t : Tbl α} {k : Nat} (h : ∀ p ∈ t, p.1 ≠ k) : terase t k = t :=
  List.filter_eq_self.mpr fun p hp => by simp [h p hp]

theorem any_key_of_absent {t : Tbl α} {k : Nat} (h : ∀ p ∈ t, p.1 ≠ k) : t.any (fun p => decide (p.1 = k)) = false :=
  List.any_eq_false.mpr fun p hp => by simpa using h p hp

/-- The entry put at a key that no other has is the one found there. -/
theorem find?_tinsert_self {t : Tbl α} {k : Nat} (v : α) (h : ∀ p ∈ t, p.1 ≠ k) : (tinsert t k v).find? (fun p => p.1 = k) = some (k, v) := by
  induction t with
  | nil => simp [tinsert]
  | cons q r ih =>
    have hq : q.1 ≠ k := h q (by simp)
    have hr := ih fun p hp => h p (by simp [hp])
    unfold tinsert
    split
    · simp
    · rw [List.find?_cons_of_neg (by simpa using hq), hr]

end

/-! ### Bytes stored one by one (R98) -/

section
variable (s : State) {a b : Nat} (v : Byte)

@[simp] theorem byte_setByte_self : (s.setByte a v).byte a = v := tget_tset_self _ _ _ _

theorem byte_setByte_ne (h : a ≠ b) : (s.setByte a v).byte b = s.byte b := tget_tset_ne _ _ _ _ h

end

/-- Bytes stored by their strobes move memory alone. -/
theorem storeBytes_eq (s : State) (a : Nat) (l : List (Option Byte)) : ∃ m, s.storeBytes a l = { s with mem := m } := by
  induction l generalizing s a with
  | nil => exact ⟨s.mem, rfl⟩
  | cons x l ih =>
    cases x with
    | none => exact ih s (a + 1)
    | some v =>
      obtain ⟨m, hm⟩ := ih (s.setByte a v) (a + 1)
      exact ⟨m, hm⟩

/-- A byte outside their range stays. -/
theorem byte_storeBytes_outside {a b : Nat} {l : List (Option Byte)} (s : State) (h : b < a ∨ a + l.length ≤ b) :
    (s.storeBytes a l).byte b = s.byte b := by
  induction l generalizing s a with
  | nil => rfl
  | cons x l ih =>
    rw [List.length_cons] at h
    cases x with
    | none => exact ih s (by omega)
    | some v => exact (ih (s.setByte a v) (by omega)).trans (byte_setByte_ne s v (by omega))

/-- A byte whose strobe is set is stored at its place. -/
theorem byte_storeBytes_at {a j : Nat} {l : List (Option Byte)} {v : Byte} (s : State) (h : l[j]? = some (some v)) :
    (s.storeBytes a l).byte (a + j) = v := by
  induction l generalizing s a j with
  | nil => simp at h
  | cons x l ih =>
    cases j with
    | zero =>
      obtain rfl : x = some v := by simpa using h
      exact (byte_storeBytes_outside (s.setByte a v) (.inl (by omega))).trans (byte_setByte_self s v)
    | succ j =>
      rw [show a + (j + 1) = a + 1 + j by omega]
      cases x with
      | none => exact ih s (by simpa using h)
      | some w => exact ih (s.setByte a w) (by simpa using h)

end Sys2Proof.Machine
end

section
/-! PROOF of O13: the matrix's bookkeeping rows, its requests and its responses. -/

namespace Sys2Proof.Machine

/-! ### A late response (R99, R100) -/

theorem exec_lateResponse {s : State} {tgt : Fin 7} {tag : Fin 128} (hm : s.running islMX = true)
    (hnone : ∀ p ∈ s.mtx.txns, p.2.target = tgt.val → p.2.tag % 128 ≠ tag.val) : exec (.lateResponse tgt tag) s =
      .next (((s.decideLate (fun x => decide (x.target = tgt.val ∧ x.tag % 128 = tag.val))).count MTX_LATE_CNT).raise islMX 0x086
        [w32 tgt, w32 tag]) := by
  have hany : s.mtx.txns.any (fun p => decide (p.2.target = tgt.val ∧ p.2.tag % 128 = tag.val)) = false :=
    List.any_eq_false.mpr fun p hp => by simpa using hnone p hp
  exact congrArg Host.Outcome.next (if_neg (by rw [hm, hany]; decide))

/-! ### The reset of a port (R112) -/

/-- A live transaction of port `port` that is no orphan yet. -/
def liveOf (port : Nat) (p : Nat × Txn) : Bool := decide (p.2.req.port.val = port) && !p.2.orphan

/-- The requests held at the port are dropped. -/
def State.unheld (s : State) (port : Nat) : State :=
  s.setMtx { s.mtx with held := s.mtx.held.filter (fun r => decide (r.port.val ≠ port)) }

/-- Entry `p` becomes an orphan. -/
def State.orphan (s : State) (p : Nat × Txn) : State := (s.setTxn p.1 (p.2.orphaned s.freeWord)).useFree

theorem resetPort_eq (s : State) (port : Nat) : s.resetPort port =
    if s.mtx.txns.filter (liveOf port) = [] then s.unheld port
    else ((s.unheld port).each (s.mtx.txns.filter (liveOf port)) State.orphan).raise islMX 0x085
      [w32 port, w32 (s.mtx.txns.filter (liveOf port)).length] := rfl

theorem mem_txns_orphan (s : State) (p : Nat × Txn) {x : Nat × Txn} :
    x ∈ (s.orphan p).mtx.txns ↔ x = (p.1, p.2.orphaned s.freeWord) ∨ x ∈ s.mtx.txns ∧ x.1 ≠ p.1 := by
  rw [← mem_terase]
  exact mem_tinsert_iff

/-- What the reset of a port has made of the table of `s`, the entries `l` being orphans already: an entry of the port is an orphan or still
stands as it was, every key stands, and an entry of another key as well. -/
structure Orphaning (port : Nat) (l : List (Nat × Txn)) (s t : State) : Prop where
  own : ∀ x ∈ t.mtx.txns, x.2.req.port.val = port → x.2.orphan = true ∨ x ∈ s.mtx.txns ∧ ∀ p ∈ l, x.1 ≠ p.1
  keys : ∀ x ∈ s.mtx.txns, ∃ y ∈ t.mtx.txns, y.1 = x.1
  others : ∀ x ∈ s.mtx.txns, (∀ p ∈ l, x.1 ≠ p.1) → x ∈ t.mtx.txns
  held : t.mtx.held = s.mtx.held
  regs : t.regs = s.regs
  mem : t.mem = s.mem
  chan : t.chan = s.chan
  sp : t.sp = s.sp

namespace Orphaning

variable {port : Nat} {s t : State}

theorem refl (port : Nat) (s : State) : Orphaning port [] s s where
  own := fun x hx _ => .inr ⟨hx, by simp⟩
  keys := fun x hx => ⟨x, hx, rfl⟩
  others := fun x hx _ => hx
  held := rfl
  regs := rfl
  mem := rfl
  chan := rfl
  sp := rfl

theorem orphan {l : List (Nat × Txn)} (h : Orphaning port l s t) (p : Nat × Txn) : Orphaning port (l ++ [p]) s (t.orphan p) where
  own := fun x hx hport => by
    rcases (mem_txns_orphan t p).mp hx with rfl | ⟨hx, hne⟩
    · exact .inl rfl
    · refine (h.own x hx hport).imp id fun ⟨hs, hl⟩ => ⟨hs, fun q hq => ?_⟩
      rcases List.mem_append.mp hq with hq | hq
      · exact hl q hq
      · rwa [List.mem_singleton.mp hq]
  keys := fun x hx => by
    obtain ⟨y, hy, hyx⟩ := h.keys x hx
    by_cases hyp : y.1 = p.1
    · exact ⟨_, (mem_txns_orphan t p).mpr (.inl rfl), hyp.symm.trans hyx⟩
    · exact ⟨y, (mem_txns_orphan t p).mpr (.inr ⟨hy, hyp⟩), hyx⟩
  others := fun x hx hl =>
    (mem_txns_orphan t p).mpr (.inr ⟨h.others x hx fun q hq => hl q (by simp [hq]), hl p (by simp)⟩)
  held := h.held
  regs := h.regs
  mem := h.mem
  chan := h.chan
  sp := h.sp

theorem each {l : List (Nat × Txn)} (h : Orphaning port l s t) (l' : List (Nat × Txn)) : Orphaning port (l ++ l') s (t.each l' State.orphan) := by
  induction l' generalizing l t with
  | nil => rwa [List.append_nil]
  | cons p l' ih =>
    rw [← List.singleton_append, ← List.append_assoc]
    exact ih (h.orphan p)

end Orphaning

/-- What the reset of a port leaves of the table, of the requests held, of the events, and of all that registers and memory hold. -/
structure PortReset (port : Nat) (s t : State) : Prop where
  own : ∀ x ∈ t.mtx.txns, x.2.req.port.val = port → x.2.orphan = true
  keys : ∀ x ∈ s.mtx.txns, ∃ y ∈ t.mtx.txns, y.1 = x.1
  others : ∀ x ∈ s.mtx.txns, (∀ p ∈ s.mtx.txns, p.2.req.port.val = port → x.1 ≠ p.1) → x ∈ t.mtx.txns
  held : t.mtx.held = s.mtx.held.filter (fun r => decide (r.port.val ≠ port))
  raised : (∃ p ∈ s.mtx.txns, p.2.req.port.val = port ∧ p.2.orphan = false) → Safety.raised [(islMX, 0x085)] s t
  regs : t.regs = s.regs
  mem : t.mem = s.mem

theorem portReset_resetPort (port : Nat) {s : State} (hd : s.sp.dormant = false) : PortReset port s (s.resetPort port) := by
  have hlive {p : Nat × Txn} : p ∈ s.mtx.txns.filter (liveOf port) ↔ p ∈ s.mtx.txns ∧ p.2.req.port.val = port ∧ p.2.orphan = false := by
    simp [liveOf]
  rw [resetPort_eq]
  split
  case isTrue hnil =>
    have hnone (p : Nat × Txn) (hp : p ∈ s.mtx.txns) (hport : p.2.req.port.val = port) : p.2.orphan = true := by
      by_contra ho
      have hmem := hlive.mpr ⟨hp, hport, by simpa using ho⟩
      rw [hnil] at hmem
      cases hmem
    refine ⟨hnone, fun x hx => ⟨x, hx, rfl⟩, fun _ hx _ => hx, rfl, fun ⟨p, hp, hport, ho⟩ => ?_, rfl, rfl⟩
    rw [hnone p hp hport] at ho
    cases ho
  case isFalse =>
    have ho := (Orphaning.refl port (s.unheld port)).each (s.mtx.txns.filter (liveOf port))
    rw [List.nil_append] at ho
    refine ⟨fun x hx hport => ?_, ?_, fun x hx hne => ?_, ?_, fun _ => raised_raise _ _ _ ho.chan ?_, ?_, ?_⟩
    · rw [mtx_raise] at hx
      by_contra hno
      obtain ⟨hs, hne⟩ := (ho.own x hx hport).resolve_left hno
      exact hne x (hlive.mpr ⟨hs, hport, by simpa using hno⟩) rfl
    · rw [mtx_raise]
      exact ho.keys
    · rw [mtx_raise]
      exact ho.others x hx fun p hp => hne p (hlive.mp hp).1 (hlive.mp hp).2.1
    · rw [mtx_raise]
      exact ho.held
    · rw [ho.sp]
      exact hd
    · rw [regs_raise]
      exact ho.regs
    · rw [mem_raise]
      exact ho.mem

/-! ### The latching reads of the tables (R102, R115) -/

theorem readRow_of_running {s : State} {isl : Nat} (hm : s.settleRegs.running islMX = true) (hi : s.settleRegs.running isl = true)
    (f : State → State) : s.readRow isl f = f s.settleRegs := if_pos (by simp [hm, hi])

/-- The address word that a read of entry `k` latches. -/
def State.txnAddress (s : State) (k : Nat) : Word :=
  match s.mtx.txns.find? (fun p => p.1 = k) with
  | some p => p.2.req.addr
  | none => 0

theorem slotOf_txn (k : Fin 98) : slotOf (MTX_TXN k 0) (MTX_TXN 0 0) 8 98 = some k.val := by
  have hk := k.isLt
  unfold slotOf MTX_TXN
  rw [if_pos (by omega)]
  congr 1
  omega

theorem slotOf_itc (i : Fin 24) : slotOf (MTX_ITC i 0) (MTX_ITC 0 0) 8 24 = some i.val := by
  have hi := i.isLt
  unfold slotOf MTX_ITC
  rw [if_pos (by omega)]
  congr 1
  omega

theorem slotOf_itc_txn (i : Fin 24) : slotOf (MTX_ITC i 0) (MTX_TXN 0 0) 8 98 = none := by
  unfold slotOf MTX_ITC MTX_TXN
  exact if_neg (by omega)

theorem regIsl_mtx (s : State) {a : Nat} (h : 0x40020000 ≤ a ∧ a < 0x40030000) : s.regIsl a = islMX := by
  unfold State.regIsl
  extract_lets pk
  rw [if_neg (by omega), if_neg (by omega), if_pos h.2]

section
variable {u : State} (hm : u.running islMX = true)
include hm

theorem latch_txn (k : Fin 98) : u.latch 0 (MTX_TXN k 0) = u.setReg (MTX_TXN k 1) (u.txnAddress k) := by
  have hk := k.isLt
  have hisl : u.regIsl (MTX_TXN k 0) = islMX := regIsl_mtx u (by unfold MTX_TXN; omega)
  unfold State.latch
  rw [if_neg (by simp [hisl, hm]), slotOf_txn]
  rfl

theorem latch_itc (i : Fin 24) : u.latch 0 (MTX_ITC i 0) =
    (u.setReg (MTX_ITC i 0) (w32 (u.itcOf i))).setReg (MTX_ITC i 1) (w32 (u.itcOf i / 2 ^ 32)) := by
  have hi := i.isLt
  have hisl : u.regIsl (MTX_ITC i 0) = islMX := regIsl_mtx u (by unfold MTX_ITC; omega)
  unfold State.latch
  rw [if_neg (by simp [hisl, hm]), slotOf_itc_txn, slotOf_itc]

end

/-! ### Requests presented alone (R94 to R98, R101, R113) -/

theorem movePointer_pointers (s : State) (tgt port : Nat) :
    ∃ l, s.movePointer tgt port = s.setMtx { s.mtx with pointers := l } := by
  unfold State.movePointer
  dsimp only
  split
  · exact ⟨s.mtx.pointers, rfl⟩
  · exact ⟨_, rfl⟩

section
variable {s : State} {r : Req} (hm : s.running islMX = true) (hmay : s.portMay r.port = true) (hheld : s.bridgeHolds r = false)
include hm hmay hheld

/-- A request that keeps the form of R98 and reaches a target is granted alone. -/
theorem exec_matrixRequest_taken (hok : reqOk r (s.target r.addr.toNat) = true) (ht : s.target r.addr.toNat ≠ 7)
    (hfree : ∀ p ∈ s.mtx.txns, p.1 ≠ txnKey r.port r.id) :
    exec (.matrixRequest [r]) s = .next ((s.movePointer (s.target r.addr.toNat) r.port).takeRequest r) := by
  have hnone := any_key_of_absent hfree
  refine congrArg Host.Outcome.next ((if_neg (by simp [hm])).trans ?_)
  simp [hmay, hheld, hok, ht, hnone, State.grantOrder, State.mergeReqs, State.each]

/-- One of an ID whose entry stands is granted nothing. -/
theorem exec_matrixRequest_held (hok : reqOk r (s.target r.addr.toNat) = true) (ht : s.target r.addr.toNat ≠ 7)
    (hstands : ∃ p ∈ s.mtx.txns, p.1 = txnKey r.port r.id) : exec (.matrixRequest [r]) s = .next (s.takeRequest r) := by
  have hany : s.mtx.txns.any (fun p => decide (p.1 = txnKey r.port r.id)) = true := by simpa using hstands
  refine congrArg Host.Outcome.next ((if_neg (by simp [hm])).trans ?_)
  simp [hmay, hheld, hok, ht, hany, State.grantOrder, State.mergeReqs, State.each]

/-- One to an address that no target's region holds is answered at once. -/
theorem exec_matrixRequest_unmapped (ht : s.target r.addr.toNat = 7) : exec (.matrixRequest [r]) s = .next (s.answerAtOnce r) := by
  refine congrArg Host.Outcome.next ((if_neg (by simp [hm])).trans ?_)
  simp [hmay, hheld, ht, State.grantOrder, State.mergeReqs, State.each]

end

/-- A request that is held waits at its port, and nothing else differs. -/
theorem takeRequest_of_standing {s : State} {r : Req} (h : ∃ p ∈ s.mtx.txns, p.1 = txnKey r.port r.id) :
    s.takeRequest r = s.setMtx { s.mtx with held := s.mtx.held ++ [r] } := if_pos (by simpa using h)

theorem takeRequest_of_free {s : State} {r : Req} (h : ∀ p ∈ s.mtx.txns, p.1 ≠ txnKey r.port r.id) : s.takeRequest r = s.accept r :=
  if_neg (by rw [any_key_of_absent h]; decide)

/-- The entry that a granted request becomes. -/
def State.granting (s : State) (r : Req) : Txn := ⟨r, s.target r.addr.toNat, s.now, [], [], 0, false, s.mtx.nextTag⟩

/-- A request accepted where no entry has its key is found there under the next tag, and the other entries stay. -/
theorem accept_of_free {s : State} {r : Req} (h : ∀ p ∈ s.mtx.txns, p.1 ≠ txnKey r.port r.id) :
    (s.accept r).mtx.txns.find? (fun p => p.1 = txnKey r.port r.id) = some (txnKey r.port r.id, s.granting r)
      ∧ ∀ p ∈ s.mtx.txns, p ∈ (s.accept r).mtx.txns := by
  have htxns : (s.accept r).mtx.txns = tinsert s.mtx.txns (txnKey r.port r.id) (s.granting r) :=
    congrArg (tinsert · _ _) (terase_of_absent h)
  rw [htxns]
  exact ⟨find?_tinsert_self _ h, fun p hp => mem_tinsert_iff.mpr (.inr hp)⟩

theorem txns_errorResponse (s : State) (port tgt code id addr gate : Nat) (write : Bool) :
    (s.errorResponse port tgt code id write addr gate).mtx.txns = s.mtx.txns := by
  unfold State.errorResponse
  dsimp only
  split
  · rw [mtx_raise]
    rfl
  · rfl

/-- A well-formed request that no target answers, from another master than the cores and the bridge, ends DECODE. -/
theorem answerAtOnce_unmapped {s : State} {r : Req} (hm : s.running islMX = true) (hok : reqOk r (s.target r.addr.toNat) = true)
    (hport : 4 ≤ r.port.val) (h7 : r.port ≠ 7) :
    s.answerAtOnce r = (s.respond rDecode).errorResponse r.port (s.target r.addr.toNat) rDecode r.id r.write r.addr.toNat 0 := by
  have hlog := logAccess_error (s := s.respond rDecode) (code := rDecode) rfl (by decide) hm r.port r.id r.addr.toNat r.write (by omega)
  have hcode : (if reqOk r (s.target r.addr.toNat) then rDecode else rMalformed) = rDecode := if_pos hok
  unfold State.answerAtOnce
  dsimp only
  rw [hcode, if_neg (by omega)]
  exact hlog

/-! ### The response to a write of the loader (R5, R99, R101, R113) -/

/-- With nothing granted before a lone transaction, and no write undecided, nothing has to take effect before it. -/
theorem settle_alone {s : State} {k tgt : Nat} {x : Txn} (hlate : s.mtx.lateWrites = []) (htxns : s.mtx.txns = [(k, x)]) :
    s.settle tgt x.tag = s := by
  have hdecide (f : Txn → Bool) : s.decideLate f = s := by rw [State.decideLate, hlate]; rfl
  have hnone : s.granted tgt x.tag = [] := by simp [State.granted, htxns]
  rw [State.settle, hdecide, hnone]
  rfl

theorem releaseL_of_running {s : State} {q : Nat} (h : (s.core q).stall = none) : s.releaseL q = s := by
  unfold State.releaseL
  dsimp only
  rw [h]

/-- Where neither pair waits, no fence lets one go on. -/
theorem releaseCores_of_running {s : State} (h0 : (s.core 0).stall = none) (h1 : (s.core 1).stall = none) : s.releaseCores = s := by
  unfold State.releaseCores
  rw [releaseL_of_running h0, releaseL_of_running h1]

theorem dispatch_of_stopped {s : State} (h : s.schedRuns = false) : s.dispatch = s := if_pos (by simp [h])

/-- The eight bytes of a beat, each with its strobe. -/
def wholeBeat (d : BitVec 64) : List (Option Byte) := (List.range 8).map (fun i => some (BitVec.ofNat 8 (d.toNat / 256 ^ i)))

theorem beatBytes_whole {r : Req} {d : BitVec 64} (hstrobes : r.strobes = [0xFF]) (hdata : r.data = [d]) :
    beatBytes r false 0 = wholeBeat d := by
  unfold beatBytes wholeBeat
  rw [hstrobes, hdata]
  rfl

theorem getElem?_wholeBeat (d : BitVec 64) {j : Nat} (h : j < 8) : (wholeBeat d)[j]? = some (some (BitVec.ofNat 8 (d.toNat / 256 ^ j))) := by
  simp [wholeBeat, h]

theorem inState_loading {s : State} (h : s.life = stLoading) : s.inState [stLoading, stChecking] = true := by
  rw [State.inState, h]
  rfl

/-- While the loader works its own port writes working SRAM. -/
theorem writeAt_workingSram {s : State} {a : Nat} {bs : List (Option Byte)} (hl : s.life = stLoading) (ht : s.target a = 1)
    (ha : a % bs.length = 0) : s.writeAt 6 a bs = (s.respond rOkay).storeBytes (sramBase + a % 0x80000) bs := by
  have hcode : (if a % bs.length ≠ 0 then rMalformed else s.memCode 6 1 a) = rOkay := by
    rw [if_neg (by omega)]
    exact if_pos (by rw [inState_loading hl]; rfl)
  unfold State.writeAt
  dsimp only
  rw [ht, noteWindow_of_ne (by decide), show s.noteCode 6 1 a = s from if_neg fun h => absurd h.1 (by decide), hcode]
  rfl

theorem release_of_none_held {s : State} (k : Nat) (h : s.mtx.held = []) :
    s.release k = s.setMtx { s.mtx with txns := terase s.mtx.txns k } := by
  unfold State.release
  dsimp only [State.setMtx]
  rw [h]
  rfl

/-- The last beat of a transaction answered OKAY releases its entry. -/
theorem answerBeat_of_last {s s' : State} {x x' : Txn} (k : Nat) (hnext : x.codes.length ≤ x.answered) (hperform : s.performBeat x = (s', x'))
    (hokay : x'.codes.getD x'.answered rOkay = rOkay) (hlast : x'.req.beats ≤ x'.answered + 1) : s.answerBeat k x = s'.release k := by
  unfold State.answerBeat
  rw [if_pos hnext, hperform]
  dsimp only
  rw [hokay, if_pos hlast]
  rfl

/-- A loader's write of one beat of eight bytes to working SRAM, granted and not yet performed. -/
structure SramBeat (s : State) (x : Txn) (d : BitVec 64) : Prop where
  port : x.req.port = 6
  write : x.req.write = true
  beats : x.req.beats = 1
  strobes : x.req.strobes = [0xFF]
  data : x.req.data = [d]
  codes : x.codes = []
  answered : x.answered = 0
  target : x.target = 1
  loading : s.life = stLoading
  leads : s.target x.req.addr.toNat = 1
  aligned : x.req.addr.toNat % 8 = 0

/-- Where working SRAM keeps the byte at an address of its window. -/
def sramByte (a : Nat) : Nat := sramBase + a % 0x80000

/-- The eight bytes of a beat stored, and answered OKAY. -/
def State.beatStored (s : State) (a : Nat) (d : BitVec 64) : State := (s.respond rOkay).storeBytes (sramByte a) (wholeBeat d)

/-- The beat moves memory and the response alone. -/
theorem beatStored_eq (s : State) (a : Nat) (d : BitVec 64) : ∃ m, s.beatStored a d = { s.respond rOkay with mem := m } := storeBytes_eq _ _ _

namespace SramBeat

variable {s : State} {x : Txn} {d : BitVec 64} (h : SramBeat s x d)
include h

theorem performBeat_eq :
    s.performBeat x = (s.beatStored x.req.addr.toNat d, { x with codes := [rOkay], rdata := x.rdata ++ [0] }) := by
  have hbytes : beatBytes x.req (decide (x.target = 5)) x.codes.length = wholeBeat d := by
    rw [h.target, h.codes]
    exact beatBytes_whole h.strobes h.data
  have haddr : x.req.addr.toNat + 8 * x.codes.length = x.req.addr.toNat := by simp [h.codes]
  have hwrite : s.writeAt x.req.port x.req.addr.toNat (wholeBeat d) = s.beatStored x.req.addr.toNat d := by
    rw [h.port]
    exact writeAt_workingSram h.loading h.leads h.aligned
  have hresp : (s.beatStored x.req.addr.toNat d).mtx.resp = rOkay := by
    obtain ⟨m, hm⟩ := beatStored_eq s x.req.addr.toNat d
    rw [hm]
    rfl
  unfold State.performBeat
  dsimp only
  rw [if_pos h.write, hbytes, if_neg (show ¬ (wholeBeat d).all Option.isNone = true from Bool.false_ne_true), haddr, hwrite, hresp, h.codes]
  rfl

theorem answerBeat_eq (k : Nat) : s.answerBeat k x = (s.beatStored x.req.addr.toNat d).release k :=
  answerBeat_of_last k (by simp [h.codes]) h.performBeat_eq (by rw [h.answered]; rfl) (by simp [h.beats])

/-- Answered, it leaves the table empty where it stood alone. -/
theorem exec_matrixResponse_eq (hcores : s.cores = []) (hsched : s.schedRuns = false) (hlate : s.mtx.lateWrites = []) (hheld : s.mtx.held = [])
    (htxns : s.mtx.txns = [(txnKey 6 x.req.id, x)]) : exec (.matrixResponse 96) s =
      .next ((s.beatStored x.req.addr.toNat d).setMtx { s.mtx with txns := [], resp := rOkay }) := by
  have hfind : s.mtx.txns.find? (fun p => p.1 = 96) = some (96, x) := by
    rw [htxns]
    rfl
  obtain ⟨m, hm⟩ := beatStored_eq s x.req.addr.toNat d
  have hrelease : s.answerBeat 96 x = (s.beatStored x.req.addr.toNat d).setMtx { s.mtx with txns := [], resp := rOkay } := by
    rw [h.answerBeat_eq, release_of_none_held _ (by rw [hm]; exact hheld), hm]
    simp only [State.respond, State.setMtx, htxns]
    rfl
  have hcore (q : Nat) : ((s.answerBeat 96 x).core q).stall = none := by
    rw [hrelease, hm, core_setMtx]
    simp [State.core, hcores, Core.init]
  have hquiet : (s.answerBeat 96 x).schedRuns = false := by
    rw [hrelease, hm]
    exact hsched
  refine congrArg Host.Outcome.next ?_
  have h96 : ((96 : Fin 98) : Nat) = 96 := rfl
  rw [h96, hfind]
  dsimp only
  rw [settle_alone hlate htxns, hfind]
  dsimp only
  rw [releaseCores_of_running (hcore 0) (hcore 1), dispatch_of_stopped hquiet, hrelease]

end SramBeat

/-! ### The obligation -/

/-- Settles O13: each row has one outcome in the state it meets, and what an outcome leaves of the table is read off its entries. -/
theorem matrixTransactions : Obligations.MatrixTransactions := by
  unfold Obligations.MatrixTransactions
  refine ⟨⟨?late, ?reset, ?readTxn, ?readItc⟩, ?taken, ?held, ?unmapped, ?response⟩
  case late =>
    rintro s u tgt tag hm hnone rfl hd
    refine ⟨_, exec_lateResponse hm hnone, ?_, raised_raise _ _ _ rfl hd, fun a ha => ?_, fun a => byte_raise .., mtx_raise ..⟩
    · rw [reg_raise, reg_count_self]
      rfl
    · rw [reg_raise]
      exact reg_count_ne _ _ (by simpa [eq_comm] using ha)
  case reset =>
    intro s port hm
    have h := portReset_resetPort port (not_dormant_of_running hm)
    refine ⟨_, congrArg Host.Outcome.next (if_pos hm), fun p hp hport => h.own p hp (congrArg Fin.val hport),
      fun p hp _ => h.keys p hp, fun p hp _ hne => h.others p hp fun x hx hport heq => hne x hx (Fin.ext hport) heq.symm, ?_,
      fun ⟨p, hp, hport, ho⟩ => h.raised ⟨p, hp, congrArg Fin.val hport, ho⟩, fun a _ => ?_, sameMem_of_mem h.mem⟩
    · simpa [Fin.ext_iff] using h.held
    · rw [State.reg, h.regs, State.reg]
  case readTxn =>
    rintro s u k rfl hm
    refine ⟨_, congrArg Host.Outcome.next ((readRow_of_running hm hm _).trans (latch_txn hm k)), reg_setReg_self _ _ _, fun a ha => ?_,
      fun _ => rfl, rfl⟩
    exact reg_setReg_ne _ _ (by simpa [eq_comm] using ha)
  case readItc =>
    rintro s u i rfl hm
    refine ⟨_, congrArg Host.Outcome.next ((readRow_of_running hm hm _).trans (latch_itc hm i)), ?_, reg_setReg_self _ _ _,
      onlyRegs_setReg_setReg _ _ _ _ _, fun _ => rfl, rfl⟩
    rw [reg_setReg_ne _ _ (by unfold MTX_ITC; omega)]
    exact reg_setReg_self _ _ _
  case taken =>
    intro s r hm hmay hheld hok ht hfree
    obtain ⟨l, hl⟩ := movePointer_pointers s (s.target r.addr.toNat) r.port
    obtain ⟨hfind, hstay⟩ := accept_of_free (s := s.setMtx { s.mtx with pointers := l }) hfree
    have hexec := exec_matrixRequest_taken hm hmay hheld hok ht hfree
    rw [hl, takeRequest_of_free (s := s.setMtx { s.mtx with pointers := l }) hfree] at hexec
    exact ⟨_, hexec, rfl, hfind, hstay, fun _ _ => rfl, fun _ => rfl, rfl⟩
  case held =>
    intro s r hm hmay hheld hok ht hstands
    have hexec := exec_matrixRequest_held hm hmay hheld hok ht hstands
    rw [takeRequest_of_standing hstands] at hexec
    exact ⟨_, hexec, rfl, rfl, fun _ _ => rfl, fun _ => rfl, rfl⟩
  case unmapped =>
    intro s r hm hmay hheld hok ht hport h7
    have hexec := exec_matrixRequest_unmapped hm hmay hheld ht
    rw [answerAtOnce_unmapped hm hok hport h7] at hexec
    obtain ⟨hresp, haddr, hraised, hregs, hmem⟩ := errorResponse_spec (s.respond rDecode) r.port r.id r.addr.toNat rDecode 0 r.write
      (s.target r.addr.toNat) rfl (not_dormant_of_running hm) rfl
    exact ⟨_, hexec, txns_errorResponse .., hresp, haddr.trans (w32_toNat _), hraised, hregs, hmem⟩
  case response =>
    intro s x d hlife hcores hsched hlate hheld htxns hport hwrite hbeats hstrobes hdata hcodes hans _ htarget hleads hal
    have h : SramBeat s x d := ⟨hport, hwrite, hbeats, hstrobes, hdata, hcodes, hans, htarget, hlife, hleads, hal⟩
    obtain ⟨m, hm⟩ := beatStored_eq s x.req.addr.toNat d
    refine ⟨_, h.exec_matrixResponse_eq hcores hsched hlate hheld htxns, rfl, rfl,
      fun j hj => byte_storeBytes_at (s.respond rOkay) (getElem?_wholeBeat d hj),
      fun a ha => byte_storeBytes_outside (s.respond rOkay) ha, fun a _ => ?_, ?_⟩
    · rw [hm]
      rfl
    · rw [hm]
      rfl

end Sys2Proof.Machine
end

section
/-! SUPPORT. What memory holds after a list of bytes has been stored in it. -/

namespace Sys2Proof.Machine

/-! ### A table after another -/

section
variable {α : Type} {t r : Tbl α} {d : α} {k : Nat}

theorem tget_append_of_absent (h : ∀ p ∈ t, p.1 ≠ k) : tget (t ++ r) d k = tget r d k := by
  induction t with
  | nil => rfl
  | cons p t ih =>
    rw [List.cons_append, tget_cons, if_neg (h p (by simp)), ih fun q hq => h q (by simp [hq])]

theorem tget_append_of_absent_after (h : ∀ p ∈ r, p.1 ≠ k) : tget (t ++ r) d k = tget t d k := by
  induction t with
  | nil => exact tget_eq_default h
  | cons p t ih => rw [List.cons_append, tget_cons, tget_cons, ih]

end

/-! ### Bytes stored as a list (R97) -/

theorem tget_cellsFrom (a : Nat) {bs : List Byte} {j : Nat} (h : j < bs.length) : tget (cellsFrom a bs) 0 (a + j) = bs[j] := by
  induction bs generalizing a j with
  | nil => simp at h
  | cons b bs ih =>
    have habove (p : Host.Cell) (hp : p ∈ cellsFrom (a + 1) bs) : p.1 ≠ a := by
      have := ((cellsFrom_wf (a + 1) bs).2 p hp).1
      omega
    unfold cellsFrom
    cases j with
    | zero =>
      split
      · next hb => exact (tget_eq_default habove).trans hb.symm
      · exact (tget_cons ..).trans (if_pos rfl)
    | succ j =>
      have hnext := ih (a + 1) (j := j) (by simpa using h)
      rw [show a + 1 + j = a + (j + 1) by omega] at hnext
      split
      · exact hnext
      · rw [tget_cons, if_neg (by omega), hnext]
        rfl

section
variable (s : State) {a b j : Nat} {bs : List Byte}

theorem byte_setBytes_at (h : j < bs.length) : (s.setBytes a bs).byte (a + j) = bs[j] := by
  rw [← tget_cellsFrom a h]
  refine (tget_append_of_absent_after fun p hp => ?_).trans (tget_append_of_absent fun p hp => ?_)
  · have := of_decide_eq_true (List.mem_filter.mp hp).2
    omega
  · have := of_decide_eq_true (List.mem_filter.mp hp).2
    omega

theorem byte_setBytes_outside (h : b < a ∨ a + bs.length ≤ b) : (s.setBytes a bs).byte b = s.byte b := by
  have hcells (p : Host.Cell) (hp : p ∈ cellsFrom a bs) : p.1 ≠ b := by
    have := (cellsFrom_wf a bs).2 p hp
    omega
  unfold State.byte State.setBytes
  dsimp only
  rcases h with h | h
  · rw [tget_append_of_absent_after, tget_append_of_absent_after hcells]
    · exact tget_filter_true fun p hp => by simp [hp, h]
    · intro p hp
      have := of_decide_eq_true (List.mem_filter.mp hp).2
      omega
  · rw [List.append_assoc, tget_append_of_absent, tget_append_of_absent hcells]
    · exact tget_filter_true fun p hp => by simp [hp, h]
    · intro p hp
      have := of_decide_eq_true (List.mem_filter.mp hp).2
      omega

/-- The bytes stored are read back. -/
theorem bytes_setBytes : (s.setBytes a bs).bytes a bs.length = bs := by
  refine List.ext_getElem (by simp [State.bytes]) fun j hj hj' => ?_
  simpa [State.bytes] using byte_setBytes_at s hj'

end

end Sys2Proof.Machine
end

section
/-! PROOF of O15: an event accepted by EH, and a record written to its slot. -/

namespace Sys2Proof.Machine

/-! ### What EH moves (R328 to R330) -/

/-- From `r` to `s` registers in `W` differ at most, and what EH holds beside its registers. -/
structure HubMoved (W : Nat → Prop) (r s : State) : Prop extends Held W r s where
  mtx : s.mtx = r.mtx
  cores : s.cores = r.cores

namespace HubMoved

variable {W V : Nat → Prop} {r s t : State}

theorem refl (s : State) : HubMoved W s s := ⟨Held.refl s, rfl, rfl⟩

theorem trans (h : HubMoved W r s) (g : HubMoved W s t) : HubMoved W r t :=
  ⟨h.toHeld.trans g.toHeld, g.mtx.trans h.mtx, g.cores.trans h.cores⟩

theorem mono (h : HubMoved W r s) (hW : ∀ a, W a → V a) : HubMoved V r s := ⟨h.toHeld.mono hW, h.mtx, h.cores⟩

theorem setFlag (h : HubMoved W r s) {a : Nat} (f : Fld) (b : Bool) (ha : W a) : HubMoved W r (s.setFlag a f b) :=
  ⟨h.toHeld.setFlag f b ha, h.mtx, h.cores⟩

theorem setFld (h : HubMoved W r s) {a : Nat} (f : Fld) (v : Nat) (ha : W a) : HubMoved W r (s.setFld a f v) :=
  ⟨h.toHeld.setFld f v ha, h.mtx, h.cores⟩

theorem count (h : HubMoved W r s) {a : Nat} (n : Nat) (ha : W a) : HubMoved W r (s.count a n) :=
  ⟨h.toHeld.count n ha, h.mtx, h.cores⟩

theorem setEh (h : HubMoved W r s) (x : Hub) : HubMoved W r { s with eh := x } :=
  ⟨⟨⟨h.regs, h.sp, h.ld⟩, h.mem, h.chan, h.now⟩, h.mtx, h.cores⟩

theorem ite {c : Prop} [Decidable c] (h : HubMoved W r s) (g : HubMoved W r t) : HubMoved W r (if c then s else t) := by
  split <;> assumption

end HubMoved

/-! ### An event is counted (R328, R329) -/

/-- Event `e` is pending, and noted as the last to have become so. -/
def State.pend (s : State) (e : Nat) : State :=
  let p := s.setBitAt (EVT_PEND (e / 32)) (e % 32) true
  { p with eh := { p.eh with recent := (p.now, e :: if p.eh.recent.1 = p.now then p.eh.recent.2 else []) } }

/-- INTA and INTB are driven where `a` and `b` say so. -/
def State.drive (s : State) (a b : Bool) : State :=
  let d := if a then s.setFlag EVT_STAT EVT_STAT_INTA true else s
  if b then d.setFlag EVT_STAT EVT_STAT_INTB true else d

theorem countEvent_eq (s : State) (e : Nat) : s.countEvent e =
    let c := s.count (EVT_CNT e)
    let a := c.flag (EVT_EVENT_CFG e) EVT_EVENT_CFG_INTA
    let b := c.flag (EVT_EVENT_CFG e) EVT_EVENT_CFG_INTB
    if a || b then (c.pend e).drive a b else c := rfl

section
variable (s : State) (e : Nat)

theorem hubMoved_pend : HubMoved (· = EVT_PEND (e / 32)) s (s.pend e) :=
  ((HubMoved.refl (W := (· = EVT_PEND (e / 32))) s).setFlag ⟨e % 32, 1⟩ true rfl).setEh _

theorem hubMoved_drive (a b : Bool) : HubMoved (· = EVT_STAT) s (s.drive a b) :=
  have hd := ((HubMoved.refl (W := (· = EVT_STAT)) s).setFlag EVT_STAT_INTA true rfl).ite (HubMoved.refl s)
  (hd.setFlag EVT_STAT_INTB true rfl).ite hd

/-- Beside its own counter an event that is counted moves its pending word and EVT_STAT. -/
theorem hubMoved_countEvent : HubMoved (· ∈ [EVT_PEND (e / 32), EVT_STAT]) (s.count (EVT_CNT e)) (s.countEvent e) := by
  rw [countEvent_eq]
  exact HubMoved.ite (((hubMoved_pend _ e).mono (by simp)).trans ((hubMoved_drive _ _ _).mono (by simp))) (HubMoved.refl _)

/-- Of what EH holds beside its registers only the note of what became pending last moves. -/
theorem eh_countEvent : ∃ x, (s.countEvent e).eh = { s.eh with recent := x } := by
  have hdrive (t : State) (a b : Bool) : (t.drive a b).eh = t.eh := by cases a <;> cases b <;> rfl
  rw [countEvent_eq]
  dsimp only
  split
  · rw [hdrive]
    exact ⟨_, rfl⟩
  · exact ⟨s.eh.recent, rfl⟩

theorem pending_pend (b : Bool) : ((s.pend e).drive true b).bitAt (EVT_PEND (e / 32)) (e % 32) = true := by
  have hne : ¬ EVT_PEND (e / 32) = EVT_STAT := by unfold EVT_PEND EVT_STAT; omega
  rw [(hubMoved_drive _ true b).bitAt hne]
  exact flag_setFlag_self s _ (f := ⟨e % 32, 1⟩) (by dsimp only; omega) rfl true

theorem inta_drive (b : Bool) : (s.drive true b).flag EVT_STAT EVT_STAT_INTA = true := by
  have ha : (s.setFlag EVT_STAT EVT_STAT_INTA true).flag EVT_STAT EVT_STAT_INTA = true := flag_setFlag_self s _ (by decide) rfl true
  cases b
  case false => exact ha
  case true => exact (flag_setFlag_other _ _ (by decide) _).trans ha

/-- The configuration of an event that is counted stays. -/
theorem cfg_count (f : Fld) : (s.count (EVT_CNT e)).flag (EVT_EVENT_CFG e) f = s.flag (EVT_EVENT_CFG e) f :=
  flag_of_reg (reg_count_ne s 1 (by unfold EVT_CNT EVT_EVENT_CFG; omega)) f

/-- An event configured for INTA becomes pending and drives INTA. -/
theorem countEvent_inta (h : s.flag (EVT_EVENT_CFG e) EVT_EVENT_CFG_INTA = true) :
    (s.countEvent e).bitAt (EVT_PEND (e / 32)) (e % 32) = true ∧ (s.countEvent e).flag EVT_STAT EVT_STAT_INTA = true := by
  rw [countEvent_eq]
  dsimp only
  rw [cfg_count, h, Bool.true_or, if_pos rfl]
  exact ⟨pending_pend _ e _, inta_drive _ _⟩

end

/-! ### A record is queued (R103, R330) -/

/-- The registers that a record queued or lost moves. -/
def queueRegs (isl a : Nat) : Prop := a = EVT_STAT ∨ a = EVT_ISL_LOST_CNT isl

section
variable (s : State) (kind : Nat) (ev : Ev)

theorem hubMoved_setQueue (q : List Rec) : HubMoved (· = EVT_STAT) s (s.setQueue q) :=
  ((HubMoved.refl s).setEh { s.eh with queue := q }).setFld EVT_STAT_QUEUE q.length rfl

theorem hubMoved_loseRecord : HubMoved (queueRegs ev.isl) s (s.loseRecord ev) :=
  (((HubMoved.refl s).count 1 (.inr rfl)).setFlag EVT_STAT_LOSING true (.inl rfl)).setEh _

theorem hubMoved_enqueue : HubMoved (queueRegs ev.isl) s (s.enqueue kind ev) :=
  have hq (q : List Rec) : HubMoved (queueRegs ev.isl) s (s.setQueue q) := (hubMoved_setQueue s q).mono fun _ h => .inl h
  (HubMoved.refl s).ite ((hubMoved_loseRecord s ev).ite (((hq _).setEh _).ite (hq _)))

/-- The drive of INTA does not hang on the queue. -/
theorem inta_enqueue : (s.enqueue kind ev).flag EVT_STAT EVT_STAT_INTA = s.flag EVT_STAT EVT_STAT_INTA := by
  have hqueue (q : List Rec) : (s.setQueue q).flag EVT_STAT EVT_STAT_INTA = s.flag EVT_STAT EVT_STAT_INTA :=
    flag_setFld_other _ _ (by decide) _
  have hlose : (s.loseRecord ev).flag EVT_STAT EVT_STAT_INTA = s.flag EVT_STAT EVT_STAT_INTA :=
    (flag_setFlag_other (s.count (EVT_ISL_LOST_CNT ev.isl)) _ (by decide) _).trans
      (flag_of_reg (reg_count_ne s 1 (by unfold EVT_ISL_LOST_CNT EVT_STAT; omega)) _)
  unfold State.enqueue
  split_ifs
  exacts [rfl, hlose, hqueue _, hqueue _]

theorem accepted_enqueue : (s.enqueue kind ev).eh.accepted = s.eh.accepted := by
  unfold State.enqueue
  split_ifs <;> rfl

/-- With the port open, the queue not full and the numbers set, the record takes the next number at the end of the queue. -/
theorem enqueue_numbered (hseal : s.sp.sealing = false) (hopen : s.sp.rtOpen = true) (hroom : s.eh.queue.length < 512)
    (hnum : s.eh.numbered = true) : s.enqueue kind ev = (s.setQueue (s.eh.queue ++ [⟨some s.eh.nextAcc, kind, ev⟩])).takeNumber := by
  unfold State.enqueue
  rw [if_neg (by simp [hseal, hopen]), if_neg (by omega), if_pos hnum]

end

/-! ### An event is accepted (R327, R328) -/

/-- The event counted, by its number and by its island. -/
def State.tallied (s : State) (ev : Ev) : State :=
  let c := s.countEvent ev.num
  { c with eh := { c.eh with accepted := tset c.eh.accepted 0 ev.isl (tget c.eh.accepted 0 ev.isl + 1) } }

/-- An event other than the power-fail one as EH takes it. -/
def State.taken (s : State) (ev : Ev) : State :=
  if s.flag (EVT_EVENT_CFG ev.num) EVT_EVENT_CFG_LOG then (s.tallied ev).enqueue (recordKind ev.num) ev else s.tallied ev

/-- The registers that an event moves as it is accepted. -/
def acceptRegs (ev : Ev) (a : Nat) : Prop := a ∈ [EVT_CNT ev.num, EVT_PEND (ev.num / 32), EVT_STAT, EVT_ISL_LOST_CNT ev.isl]

section
variable (s : State) (ev : Ev)

theorem hubMoved_tallied : HubMoved (· ∈ [EVT_PEND (ev.num / 32), EVT_STAT]) (s.count (EVT_CNT ev.num)) (s.tallied ev) :=
  (hubMoved_countEvent s ev.num).setEh _

theorem hubMoved_taken : HubMoved (acceptRegs ev) s (s.taken ev) := by
  have hcount : HubMoved (acceptRegs ev) s (s.count (EVT_CNT ev.num)) := (HubMoved.refl s).count 1 (by simp [acceptRegs])
  have hstat (a : Nat) (ha : a ∈ [EVT_PEND (ev.num / 32), EVT_STAT]) : acceptRegs ev a := by
    rcases List.mem_pair.mp ha with rfl | rfl <;> simp [acceptRegs]
  have hlost (a : Nat) (ha : queueRegs ev.isl a) : acceptRegs ev a := by
    rcases ha with rfl | rfl <;> simp [acceptRegs]
  have htally := hcount.trans ((hubMoved_tallied s ev).mono hstat)
  exact (htally.trans ((hubMoved_enqueue (s.tallied ev) (recordKind ev.num) ev).mono hlost)).ite htally

/-- Of what EH holds, the count of the island and the note of what became pending move. -/
theorem eh_tallied : ∃ x, (s.tallied ev).eh =
    { s.eh with recent := x, accepted := tset s.eh.accepted 0 ev.isl (tget s.eh.accepted 0 ev.isl + 1) } := by
  obtain ⟨x, hx⟩ := eh_countEvent s ev.num
  refine ⟨x, ?_⟩
  unfold State.tallied
  dsimp only
  rw [hx]

theorem accepted_taken : tget (s.taken ev).eh.accepted 0 ev.isl = tget s.eh.accepted 0 ev.isl + 1 := by
  obtain ⟨x, hx⟩ := eh_tallied s ev
  have htally : tget (s.tallied ev).eh.accepted 0 ev.isl = tget s.eh.accepted 0 ev.isl + 1 := by
    rw [hx]
    simp only [tget_tset_self]
  unfold State.taken
  split
  · rw [accepted_enqueue, htally]
  · exact htally


/-- The event is counted once: no queue holds its counter. -/
theorem counted_taken (hisl : ev.isl < 24) (hnum : ev.num < 1152) : (s.taken ev).reg (EVT_CNT ev.num) = s.reg (EVT_CNT ev.num) + 1 := by
  have htally : (s.tallied ev).reg (EVT_CNT ev.num) = s.reg (EVT_CNT ev.num) + 1 := by
    refine ((hubMoved_tallied s ev).regs _ ?_).trans (reg_count_self ..)
    simp only [List.mem_cons, List.not_mem_nil, or_false, EVT_CNT, EVT_PEND, EVT_STAT]
    omega
  have hqueue : ¬ queueRegs ev.isl (EVT_CNT ev.num) := by
    unfold queueRegs EVT_CNT EVT_STAT EVT_ISL_LOST_CNT
    omega
  unfold State.taken
  split
  · exact ((hubMoved_enqueue _ _ _).regs _ hqueue).trans htally
  · exact htally

/-- Configured for INTA, it is pending and INTA driven, queued or not. -/
theorem inta_taken (hisl : ev.isl < 24) (h : s.flag (EVT_EVENT_CFG ev.num) EVT_EVENT_CFG_INTA = true) :
    (s.taken ev).bitAt (EVT_PEND (ev.num / 32)) (ev.num % 32) = true ∧ (s.taken ev).flag EVT_STAT EVT_STAT_INTA = true := by
  obtain ⟨hpend, hinta⟩ : (s.tallied ev).bitAt (EVT_PEND (ev.num / 32)) (ev.num % 32) = true
      ∧ (s.tallied ev).flag EVT_STAT EVT_STAT_INTA = true := countEvent_inta s ev.num h
  have hqueue : ¬ queueRegs ev.isl (EVT_PEND (ev.num / 32)) := by
    unfold queueRegs EVT_PEND EVT_STAT EVT_ISL_LOST_CNT
    omega
  unfold State.taken
  split
  · exact ⟨((hubMoved_enqueue _ _ _).bitAt hqueue _).trans hpend, (inta_enqueue ..).trans hinta⟩
  · exact ⟨hpend, hinta⟩

/-- With LOG set its record is queued under the next number, where the port is open and the queue has room. -/
theorem logged_taken (h : s.flag (EVT_EVENT_CFG ev.num) EVT_EVENT_CFG_LOG = true) (hseal : s.sp.sealing = false) (hopen : s.sp.rtOpen = true)
    (hroom : s.eh.queue.length < 512) (hnumbered : s.eh.numbered = true) :
    (s.taken ev).eh.queue = s.eh.queue ++ [⟨some s.eh.nextAcc, recordKind ev.num, ev⟩]
      ∧ (s.taken ev).eh.nextAcc = (s.eh.nextAcc + 1) % 2 ^ 48 := by
  obtain ⟨x, hx⟩ := eh_tallied s ev
  have hsp : (s.tallied ev).sp = s.sp := (hubMoved_tallied s ev).sp
  have hqueue : (s.tallied ev).eh.queue = s.eh.queue := by rw [hx]
  have hnext : (s.tallied ev).eh.nextAcc = s.eh.nextAcc := by rw [hx]
  have hset : (s.tallied ev).eh.numbered = true := by rw [hx]; exact hnumbered
  unfold State.taken
  rw [if_pos h, enqueue_numbered _ _ _ (by rw [hsp, hseal]) (by rw [hsp, hopen]) (by rw [hqueue]; exact hroom) hset]
  refine ⟨?_, congrArg (fun n => (n + 1) % 2 ^ 48) hnext⟩
  rw [← hqueue, ← hnext]
  rfl

/-- Without LOG nothing is queued. -/
theorem unlogged_taken (h : s.flag (EVT_EVENT_CFG ev.num) EVT_EVENT_CFG_LOG = false) :
    (s.taken ev).eh.queue = s.eh.queue ∧ (s.taken ev).eh.nextAcc = s.eh.nextAcc := by
  obtain ⟨x, hx⟩ := eh_tallied s ev
  unfold State.taken
  rw [if_neg (by simp [h]), hx]
  exact ⟨rfl, rfl⟩

theorem acceptCore_eq (h : ev.num ≠ 0x028) : s.acceptCore ev = s.taken ev := by
  have hlog : (s.tallied ev).flag (EVT_EVENT_CFG ev.num) EVT_EVENT_CFG_LOG = s.flag (EVT_EVENT_CFG ev.num) EVT_EVENT_CFG_LOG := by
    refine ((hubMoved_tallied s ev).flag ?_ _).trans (cfg_count ..)
    simp only [List.mem_cons, List.not_mem_nil, or_false, EVT_EVENT_CFG, EVT_PEND, EVT_STAT]
    omega
  unfold State.taken
  rw [← hlog]
  exact if_neg h

/-- An event that wakes no task, and is neither a fence marker nor the power-fail event, is taken and nothing more. -/
theorem acceptEvent_eq (hisl : ev.isl < 24) (hnum : ev.num < 1152) (hmarker : ev.num ≠ 0x0A1) (hfail : ev.num ≠ 0x028)
    (hwake : s.wakeTask ev.num = none) : s.acceptEvent ev = s.taken ev := by
  have hmap : (s.taken ev).reg (SVC_WAKE_MAP (ev.num / 2)) = s.reg (SVC_WAKE_MAP (ev.num / 2)) := by
    refine (hubMoved_taken s ev).regs _ ?_
    simp only [acceptRegs, List.mem_cons, List.not_mem_nil, or_false, SVC_WAKE_MAP, EVT_CNT, EVT_PEND, EVT_STAT, EVT_ISL_LOST_CNT]
    omega
  have hnone : (s.taken ev).wakeTask ev.num = none := by
    unfold State.wakeTask
    rw [hmap]
    exact hwake
  have htake : s.takeMarker ev = (s, ev) := if_neg hmarker
  unfold State.acceptEvent State.wakeBy
  rw [htake]
  dsimp only
  rw [acceptCore_eq s ev hfail, hnone]

end

/-! ### EVENT_ACCEPT (R91, R327) -/

/-- The events on their way replaced. -/
def State.onward (s : State) (l : List Ev) : State := { s with chan := l }

/-- The path of an event of island `i` is open: EH runs, and MX where the event passes it. -/
theorem eventPath_open {s : State} {i : Nat} (heh : s.running islEH = true)
    (hpath : i = islEH ∨ i = islMX ∨ i = islRT ∨ i = islSP ∨ s.running islMX = true) :
    (eventPath i).all (fun j => s.running j || (decide (j = i) && decide (i ≠ islEH))) = true := by
  unfold eventPath
  split_ifs with h1 h2
  · simp [heh]
  · simp [heh, h1]
  · have hmx : s.running islMX = true := by tauto
    simp [heh, h1, hmx]

section
variable {s : State} {i : Fin 24} {ev : Ev} {rest : List Ev} (heh : s.running islEH = true)
  (hpath : i.val = islEH ∨ i.val = islMX ∨ i.val = islRT ∨ i.val = islSP ∨ s.running islMX = true) (hchan : s.chan = ev :: rest)
  (hisl : ev.isl = i.val)
include heh hpath hchan hisl

theorem exec_eventAccept : exec (.eventAccept i) s = .next ((s.onward rest).acceptEvent ev).checkFence.releaseCores := by
  have hhead : s.inFlight i = ev :: ((rest.filter (fun e => decide (e.isl = i.val))).take 3) := by
    unfold State.inFlight
    rw [hchan, List.filter_cons_of_pos (by simp [hisl])]
    rfl
  refine congrArg Host.Outcome.next ((if_neg (by rw [eventPath_open heh hpath]; decide)).trans ?_)
  rw [hhead]
  dsimp only
  rw [hchan, List.erase_cons_head]
  rfl

/-- With no fence running and neither pair waiting, the event is taken and nothing follows from it. -/
theorem exec_eventAccept_taken (hnum : ev.num < 1152) (hmarker : ev.num ≠ 0x0A1) (hfail : ev.num ≠ 0x028)
    (hwake : s.wakeTask ev.num = none) (hfence : s.mtx.fence = none) (h0 : (s.core 0).stall = none) (h1 : (s.core 1).stall = none) :
    exec (.eventAccept i) s = .next ((s.onward rest).taken ev) := by
  have hmoved := hubMoved_taken (s.onward rest) ev
  have hnofence : ((s.onward rest).taken ev).checkFence = (s.onward rest).taken ev := by
    have hf : ((s.onward rest).taken ev).mtx.fence = none := by
      rw [hmoved.mtx]
      exact hfence
    unfold State.checkFence
    rw [hf]
  have hcore (q : Nat) : ((s.onward rest).taken ev).core q = s.core q := by
    rw [State.core, hmoved.cores]
    rfl
  rw [exec_eventAccept heh hpath hchan hisl, acceptEvent_eq (s.onward rest) ev (by omega) hnum hmarker hfail hwake, hnofence,
    releaseCores_of_running (by rw [hcore, h0]) (by rw [hcore, h1])]

end

/-! ### LEDGER_WRITE (R332, R333) -/

theorem length_recordBytes (acc kind flags : Nat) (ev : Ev) : (recordBytes acc kind flags ev).length = 32 := by simp [recordBytes]

/-- Record `n` written to its slot, and `q` left in the queue. -/
def State.recorded (s : State) (n kind : Nat) (ev : Ev) (q : List Rec) : State :=
  (s.setBytes (slotAddr n) (recordBytes n kind 0 ev)).setQueue q

/-- Outside a loss episode the writer takes one record and places none of its own. -/
theorem exec_ledgerWrite {s : State} {n kind : Nat} {ev : Ev} {q : List Rec} (heh : s.running islEH = true) (hopen : s.sp.rtOpen = true)
    (hqueue : s.eh.queue = ⟨some n, kind, ev⟩ :: q) (hlosing : s.flag EVT_STAT EVT_STAT_LOSING = false) :
    exec .ledgerWrite s = .next (s.recorded n kind ev q) := by
  have hwrite : s.writeRecord n kind 0 ev = s.setBytes (slotAddr n) (recordBytes n kind 0 ev) := if_pos hopen
  have hstill : (s.recorded n kind ev q).flag EVT_STAT EVT_STAT_LOSING = false := (flag_setFld_other _ _ (by decide) _).trans hlosing
  refine congrArg Host.Outcome.next ((if_pos heh).trans ?_)
  unfold State.writeHead
  rw [hqueue]
  dsimp only
  rw [hwrite]
  exact if_neg (by rw [← State.recorded, hstill]; simp)

/-! ### The obligation -/

/-- Settles O15: an event that starts nothing else moves EH's own registers and queue, and a record is stored in its slot alone. -/
theorem eventsAreCountedQueuedAndWritten : Obligations.EventsAreCountedQueuedAndWritten := by
  unfold Obligations.EventsAreCountedQueuedAndWritten
  refine ⟨?accept, ?write⟩
  case accept =>
    intro s i ev rest heh hpath hchan hisl hmarker hfail hfence h0 h1 hwake hnum
    have hi : ev.isl < 24 := hisl ▸ i.isLt
    have hmoved := hubMoved_taken (s.onward rest) ev
    refine ⟨_, exec_eventAccept_taken heh hpath hchan hisl hnum hmarker hfail hwake hfence h0 h1, hmoved.chan,
      counted_taken _ ev hi hnum, ?_, inta_taken (s.onward rest) ev hi, logged_taken (s.onward rest) ev,
      unlogged_taken (s.onward rest) ev, sameMem_of_mem hmoved.mem⟩
    rw [← hisl]
    exact accepted_taken _ ev
  case write =>
    intro s n kind ev q heh hopen hqueue hlosing
    have hmoved := hubMoved_setQueue (s.setBytes (slotAddr n) (recordBytes n kind 0 ev)) q
    have hlen := length_recordBytes n kind 0 ev
    refine ⟨_, exec_ledgerWrite heh hopen hqueue hlosing, rfl, ?_, fun a ha => ?_, fld_setFld_self _ _ (by decide) _, fun a ha => ?_, rfl⟩
    · have hstored := bytes_setBytes s (a := slotAddr n) (bs := recordBytes n kind 0 ev)
      rwa [hlen] at hstored
    · exact byte_setBytes_outside s (by rwa [hlen])
    · exact hmoved.regs a (by simpa using ha)

end Sys2Proof.Machine
end

section
/-! SUPPORT. Line ports: what their shared operations write, raise and leave alone (R118, R119, R129, R132, R135, R139). -/

namespace Sys2Proof.Machine

/-! ### An event and a STAT bit of a port (R139, R144) -/

/-- The registers of line port `n` but LINE_CFG, with which its block begins. -/
def portRegs (n a : Nat) : Prop := 0x40100000 + 0x10000 * n < a ∧ a < 0x40110000 + 0x10000 * n

theorem lineSticky_ne_lineStat (n : Nat) : LINE_STICKY n ≠ LINE_STAT n := by unfold LINE_STICKY LINE_STAT; omega

section
variable {s : State} {n : Nat}

theorem lineEvent_of_on (h : s.flag (LINE_CFG n) LINE_CFG_EN = true) (k : Nat) (d : List Word) :
    s.lineEvent n k d = s.raise (islLP n) (0x100 + 0x40 * n + k) d := if_pos (.inr h)

theorem lineEvent_of_off (h : s.flag (LINE_CFG n) LINE_CFG_EN = false) {k : Nat} (hk : k ≠ 0) (d : List Word) : s.lineEvent n k d = s :=
  if_neg (by simp [h, hk])

end

section
variable (s : State) (n k : Nat) (d : List Word)

theorem reg_portEvent (a : Nat) : (s.lineEvent n k d).reg a = s.reg a := by
  unfold State.lineEvent
  split
  · exact reg_raise ..
  · rfl

theorem lines_portEvent : (s.lineEvent n k d).lines = s.lines := by
  unfold State.lineEvent
  split
  · exact lines_raise ..
  · rfl

theorem mtx_portEvent : (s.lineEvent n k d).mtx = s.mtx := by
  unfold State.lineEvent
  split
  · exact mtx_raise ..
  · rfl

theorem line_setLine (x : LinePort) : (s.setLine n x).line n = x := tget_tset_self _ _ _ _

theorem line_of_lines {s t : State} (h : t.lines = s.lines) (m : Nat) : t.line m = s.line m := by rw [State.line, h, State.line]

end

section
variable (s : State) (n : Nat) {f g : Fld} (b : Bool)

theorem lines_setLstat : (s.setLstat n f b).lines = s.lines := by
  unfold State.setLstat
  split <;> rfl

theorem chan_setLstat : (s.setLstat n f b).chan = s.chan := by
  unfold State.setLstat
  split <;> rfl

theorem mtx_setLstat : (s.setLstat n f b).mtx = s.mtx := by
  unfold State.setLstat
  split <;> rfl

theorem lstat_setLstat_self (hf : f.lo + f.len ≤ 32) (hl : f.len = 1) : (s.setLstat n f b).lstat n f = b := flag_setFlag_self _ _ hf hl _

/-- A STAT bit moves no other field of its register. -/
theorem fld_setLstat_apart (h : f.lo + f.len ≤ g.lo ∨ g.lo + g.len ≤ f.lo) : (s.setLstat n g b).fld (LINE_STAT n) f = s.fld (LINE_STAT n) f := by
  unfold State.setLstat
  refine (fld_setFld_other _ _ h _).trans ?_
  split
  · exact fld_setFld_ne _ _ _ _ (lineSticky_ne_lineStat n)
  · rfl

/-- A STICKY bit stays latched, whatever STAT bit moves. -/
theorem latched_setLstat {j : Nat} (h : s.bitAt (LINE_STICKY n) j = true) : (s.setLstat n g b).bitAt (LINE_STICKY n) j = true := by
  unfold State.setLstat
  refine (flag_setFlag_ne _ _ _ _ (lineSticky_ne_lineStat n).symm).trans ?_
  split
  case isTrue hset =>
    have hlo : g.lo ≤ 13 := of_decide_eq_true (Bool.and_eq_true_iff.mp hset).2
    by_cases hj : j = g.lo
    · rw [hj]
      exact flag_setFlag_self _ _ (f := ⟨g.lo, 1⟩) (by simp only; omega) rfl _
    · exact (flag_setFlag_other _ _ (by simp only; omega) _).trans h
  case isFalse => exact h

/-- A STAT bit that rises latches (R139). -/
theorem latched_setLstat_self (h : s.lstat n f = false) (hlo : f.lo ≤ 13) : (s.setLstat n f true).bitAt (LINE_STICKY n) f.lo = true := by
  unfold State.setLstat
  refine (flag_setFlag_ne _ _ _ _ (lineSticky_ne_lineStat n).symm).trans ?_
  rw [if_pos (by simp [h, hlo])]
  exact flag_setFlag_self _ _ (f := ⟨f.lo, 1⟩) (by simp only; omega) rfl _

end

/-! ### A defect (R135, R139) -/

/-- The k of the event of a defect that was `was` and is `now`. -/
def defectKs (was now : Bool) (kOn kOff : Nat) : List Nat := if was = now then [] else [if now then kOn else kOff]

theorem defectKs_same (b : Bool) (kOn kOff : Nat) : defectKs b b kOn kOff = [] := if_pos rfl

section
variable (s : State) (n : Nat) {f g : Fld} (b : Bool) (kOn kOff : Nat) (d : List Word)

theorem lineDefect_same (h : s.lstat n f = b) : s.lineDefect n f b kOn kOff d = s := if_pos h

theorem lineDefect_changed (h : s.lstat n f ≠ b) :
    s.lineDefect n f b kOn kOff d = (s.setLstat n f b).lineEvent n (if b then kOn else kOff) d := if_neg h

theorem lines_lineDefect : (s.lineDefect n f b kOn kOff d).lines = s.lines := by
  unfold State.lineDefect
  split
  · rfl
  · rw [lines_portEvent, lines_setLstat]

theorem lstat_lineDefect_self (hf : f.lo + f.len ≤ 32) (hl : f.len = 1) : (s.lineDefect n f b kOn kOff d).lstat n f = b := by
  unfold State.lineDefect
  split
  · assumption
  · rw [State.lstat, flag_of_reg (reg_portEvent ..)]
    exact lstat_setLstat_self s n b hf hl

theorem fld_lineDefect_apart (h : f.lo + f.len ≤ g.lo ∨ g.lo + g.len ≤ f.lo) :
    (s.lineDefect n g b kOn kOff d).fld (LINE_STAT n) f = s.fld (LINE_STAT n) f := by
  unfold State.lineDefect
  split
  · rfl
  · rw [fld_of_reg (reg_portEvent ..)]
    exact fld_setLstat_apart s n b h

theorem lstat_lineDefect_apart (h : f.lo + f.len ≤ g.lo ∨ g.lo + g.len ≤ f.lo) :
    (s.lineDefect n g b kOn kOff d).lstat n f = s.lstat n f := by
  rw [State.lstat, State.flag, fld_lineDefect_apart s n b kOn kOff d h, State.lstat, State.flag]

end

/-! ### What a port's operations write -/

section
variable {W : Nat → Prop} {r s : State} (h : Added W r s) {n : Nat}
include h

theorem Added.setLine (x : LinePort) : Added W r (s.setLine n x) := ⟨⟨h.regs, h.sp, h.ld⟩, h.chan, h.mem⟩

theorem Added.portEvent (k : Nat) (d : List Word) : Added W r (s.lineEvent n k d) := (h.raise _ _ _).ite h

theorem Added.setLstat (f : Fld) (b : Bool) (hs : W (LINE_STAT n)) (hk : W (LINE_STICKY n)) : Added W r (s.setLstat n f b) :=
  ((h.setFlag _ _ _ hk).ite h).setFlag _ _ _ hs

theorem Added.lineDefect (f : Fld) (b : Bool) (kOn kOff : Nat) (d : List Word) (hs : W (LINE_STAT n)) (hk : W (LINE_STICKY n)) :
    Added W r (s.lineDefect n f b kOn kOff d) :=
  h.ite ((h.setLstat f b hs hk).portEvent _ _)

theorem Added.lineFreeze (hk : W (LINE_K_RX n)) (h1 : W (LINE_S1 n)) : Added W r (s.lineFreeze n) :=
  Added.ite (((h.setFlag _ _ _ hk).setFlag _ _ _ h1).setLine _) h

theorem Added.lineActs (hs : W (LINE_STAT n)) (hk : W (LINE_STICKY n)) : Added W r (s.lineActs n) :=
  h.ite ((((h.setLstat _ _ hs hk).setLine _).lineDefect _ _ _ _ _ hs hk).lineDefect _ _ _ _ _ hs hk)

end

/-! ### A port moves -/

/-- From `r` to `s` line port `n` has written registers in `W`, its own but LINE_CFG, unlatched no STICKY bit and raised the events `ks`. -/
structure PortMoved (n : Nat) (W : List Nat) (ks : List Nat) (r s : State) : Prop extends Added (· ∈ W) r s where
  own : ∀ a ∈ W, portRegs n a
  raised : Safety.raised (Safety.lineEvents n ks) r s
  latched : ∀ j, r.bitAt (LINE_STICKY n) j = true → s.bitAt (LINE_STICKY n) j = true
  mtx : s.mtx = r.mtx

namespace PortMoved

variable {n : Nat} {W ks ks' : List Nat} {r s t : State}

theorem refl (s : State) (own : ∀ a ∈ W, portRegs n a) : PortMoved n W [] s s :=
  ⟨.refl s, own, raised_of_chan_eq rfl, fun _ => id, rfl⟩

theorem trans (h : PortMoved n W ks r s) (g : PortMoved n W ks' s t) : PortMoved n W (ks ++ ks') r t where
  toAdded := h.toAdded.trans g.toAdded
  own := h.own
  raised := by
    rw [Safety.lineEvents, List.map_append]
    exact raised_trans h.raised g.raised
  latched j hj := g.latched j (h.latched j hj)
  mtx := g.mtx.trans h.mtx

theorem mono {V : List Nat} (h : PortMoved n W ks r s) (hW : ∀ a ∈ W, a ∈ V) (own : ∀ a ∈ V, portRegs n a) : PortMoved n V ks r s :=
  ⟨h.toAdded.mono hW, own, h.raised, h.latched, h.mtx⟩

/-- A register outside the port's block, and LINE_CFG, stay as they are. -/
theorem outside (h : PortMoved n W ks r s) {a : Nat} (ha : ¬ portRegs n a) : s.reg a = r.reg a := h.regs a fun hW => ha (h.own a hW)

section
variable (h : PortMoved n W ks r s)
include h

theorem cfg (f : Fld) : s.fld (LINE_CFG n) f = r.fld (LINE_CFG n) f :=
  fld_of_reg (h.outside (by unfold portRegs LINE_CFG; omega)) f

theorem enabled : s.flag (LINE_CFG n) LINE_CFG_EN = r.flag (LINE_CFG n) LINE_CFG_EN := by rw [State.flag, h.cfg, State.flag]

theorem running (i : Nat) : s.running i = r.running i := by
  have hreg : s.reg SUP_ISLAND_STAT = r.reg SUP_ISLAND_STAT := h.outside (by unfold portRegs SUP_ISLAND_STAT; omega)
  rw [State.running, h.sp, State.bitAt, flag_of_reg hreg, ← State.bitAt, State.running]

theorem lineUp : s.lineUp n = r.lineUp n := by rw [State.lineUp, h.running, h.enabled, State.lineUp]

/-! Each update that neither raises nor unlatches keeps the relation. -/

theorem setFld {a : Nat} (f : Fld) (v : Nat) (ha : a ∈ W) (hne : a ≠ LINE_STICKY n) : PortMoved n W ks r (s.setFld a f v) where
  toAdded := h.toAdded.setFld a f v ha
  own := h.own
  raised := h.raised
  latched j hj := (flag_setFld_ne s _ f v hne).trans (h.latched j hj)
  mtx := h.mtx

theorem setFlag {a : Nat} (f : Fld) (b : Bool) (ha : a ∈ W) (hne : a ≠ LINE_STICKY n) : PortMoved n W ks r (s.setFlag a f b) :=
  h.setFld f _ ha hne

theorem setLine (x : LinePort) : PortMoved n W ks r (s.setLine n x) := ⟨h.toAdded.setLine x, h.own, h.raised, h.latched, h.mtx⟩

theorem setLstat (f : Fld) (b : Bool) (hs : LINE_STAT n ∈ W) (hk : LINE_STICKY n ∈ W) : PortMoved n W ks r (s.setLstat n f b) where
  toAdded := h.toAdded.setLstat f b hs hk
  own := h.own
  raised := by
    rw [Safety.raised, chan_setLstat]
    exact h.raised
  latched j hj := latched_setLstat s n b (h.latched j hj)
  mtx := (mtx_setLstat ..).trans h.mtx

/-- An enabled port raises its event. -/
theorem portEvent (hen : r.flag (LINE_CFG n) LINE_CFG_EN = true) (hd : r.sp.dormant = false) (k : Nat) (d : List Word) :
    PortMoved n W (ks ++ [k]) r (s.lineEvent n k d) where
  toAdded := h.toAdded.portEvent k d
  own := h.own
  raised := by
    rw [lineEvent_of_on (h.enabled.trans hen), Safety.lineEvents, List.map_append]
    exact raised_trans h.raised (raised_raise _ _ _ rfl (by rw [h.sp, hd]))
  latched j hj := (flag_of_reg (reg_portEvent ..) _).trans (h.latched j hj)
  mtx := (mtx_portEvent ..).trans h.mtx

/-- A disabled port raises only k = 0 (R139). -/
theorem portEvent_off (hoff : r.flag (LINE_CFG n) LINE_CFG_EN = false) {k : Nat} (hk : k ≠ 0) (d : List Word) :
    PortMoved n W ks r (s.lineEvent n k d) := by
  rw [lineEvent_of_off (h.enabled.trans hoff) hk]
  exact h

theorem lineDefect (hup : r.lineUp n = true) (f : Fld) (b : Bool) (kOn kOff : Nat) (d : List Word) (hs : LINE_STAT n ∈ W)
    (hk : LINE_STICKY n ∈ W) : PortMoved n W (ks ++ defectKs (s.lstat n f) b kOn kOff) r (s.lineDefect n f b kOn kOff d) := by
  by_cases hb : s.lstat n f = b
  · rw [lineDefect_same _ _ _ _ _ _ hb, hb, defectKs_same, List.append_nil]
    exact h
  · rw [lineDefect_changed _ _ _ _ _ _ hb, defectKs, if_neg hb]
    exact (h.setLstat f b hs hk).portEvent (enabled_of_lineUp hup) (not_dormant_of_lineUp hup) _ _

theorem lineDefect_off (hoff : r.flag (LINE_CFG n) LINE_CFG_EN = false) (f : Fld) (b : Bool) {kOn kOff : Nat} (d : List Word)
    (hOn : kOn ≠ 0) (hOff : kOff ≠ 0) (hs : LINE_STAT n ∈ W) (hk : LINE_STICKY n ∈ W) :
    PortMoved n W ks r (s.lineDefect n f b kOn kOff d) := by
  by_cases hb : s.lstat n f = b
  · rw [lineDefect_same _ _ _ _ _ _ hb]
    exact h
  · rw [lineDefect_changed _ _ _ _ _ _ hb]
    exact (h.setLstat f b hs hk).portEvent_off hoff (by split <;> assumption) _

theorem lineFreeze (hk : LINE_K_RX n ∈ W) (h1 : LINE_S1 n ∈ W) : PortMoved n W ks r (s.lineFreeze n) := by
  unfold State.lineFreeze
  split
  · exact ((h.setFlag _ _ hk (by unfold LINE_K_RX LINE_STICKY; omega)).setFlag _ _ h1 (by unfold LINE_S1 LINE_STICKY; omega)).setLine _
  · exact h

end

end PortMoved

/-! ### A module that runs alone (R260, R263, R282) -/

/-- What the role machine of a module that runs alone comes to: READY judged anew. -/
def State.readyJudged (s : State) : State :=
  if s.sp.dormant || !s.running 20 then s else s.setFlag TWN_STAT TWN_STAT_READY s.isReady

section
variable (s : State)

theorem added_readyJudged : Added (· = TWN_STAT) s s.readyJudged := (Added.refl s).ite ((Added.refl s).setFlag _ _ _ rfl)

theorem lines_readyJudged : s.readyJudged.lines = s.lines := by
  unfold State.readyJudged
  split <;> rfl

theorem chan_readyJudged : s.readyJudged.chan = s.chan := by
  unfold State.readyJudged
  split <;> rfl

theorem mtx_readyJudged : s.readyJudged.mtx = s.mtx := by
  unfold State.readyJudged
  split <;> rfl

theorem bitAt_readyJudged {j : Nat} (hj : j ≠ TWN_STAT_READY.lo) : s.readyJudged.bitAt TWN_STAT j = s.bitAt TWN_STAT j := by
  unfold State.readyJudged
  split
  · rfl
  · exact flag_setFlag_other _ _ (by simp only [TWN_STAT_READY] at hj ⊢; omega) _

end

/-- A module that runs alone still does once a line port has moved. -/
theorem alone_of_frame {n : Nat} (hn : n < 8) {W : Nat → Prop} {r s : State} (h : Frame W r s) (hW : ∀ a, W a → portRegs n a)
    (ha : Safety.alone r) : Safety.alone s := by
  have hreg {a : Nat} (hb : a < 0x40100000 ∨ 0x40180000 ≤ a) : ¬ W a := fun hw => by
    have := hW a hw
    unfold portRegs at this
    omega
  obtain ⟨hpair, hrole, hgrp⟩ := ha
  refine ⟨?_, ?_, fun g hg => ?_⟩
  · rw [State.paired, h.flag (hreg (by decide)), ← State.paired, hpair]
  · rw [State.role, h.fld (hreg (by decide)), ← State.role, hrole, State.live, State.live, h.inState (hreg (by decide))]
  · rw [h.flag (hreg (.inr (by unfold APS_CFG; omega))), hgrp g hg]

/-- No group is enabled, so none is judged (R282). -/
theorem mspPort_of_alone {s : State} (h : Safety.alone s) (n : Nat) : s.mspPort n = s := by
  have hnone : s.grpOf n = none := List.find?_eq_none.mpr fun g hg => by simp [h.2.2 g (List.mem_range.mp hg)]
  rw [State.mspPort, hnone]

theorem roleEval_of_alone {s : State} (h : Safety.alone s) : s.roleEval = s.readyJudged := by
  obtain ⟨hpair, hrole, -⟩ := h
  have hstay : (s.setFlag TWN_STAT TWN_STAT_READY s.isReady).role = if s.live then roActive else roObserver :=
    (fld_setFld_other s TWN_STAT (by decide) _).trans hrole
  rw [roleEval_eq, State.readyJudged, hpair, State.roleTo, if_pos hstay]
  rfl

theorem lineActions_of_alone {s : State} {n : Nat} (h : Safety.alone (s.lineActs n)) : s.lineActions n = (s.lineActs n).readyJudged := by
  rw [State.lineActions, mspPort_of_alone h, roleEval_of_alone h]

section
variable (s : State) (n : Nat)

theorem reg_readyJudged {a : Nat} (ha : a ≠ TWN_STAT) : s.readyJudged.reg a = s.reg a := (added_readyJudged s).regs a ha

theorem lstat_readyJudged (f : Fld) : s.readyJudged.lstat n f = s.lstat n f :=
  flag_of_reg (reg_readyJudged s (by unfold LINE_STAT TWN_STAT; omega)) f

theorem line_readyJudged : s.readyJudged.line n = s.line n := line_of_lines (lines_readyJudged s) n

end

/-- A port that has moved and READY judged anew: only what the statements allow differs. -/
theorem PortMoved.lineOnly {n : Nat} (hn : n < 8) {W ks : List Nat} {r u : State} (h : PortMoved n W ks r u) : Safety.lineOnly W r u.readyJudged := by
  have hr := added_readyJudged u
  refine ⟨fun a ha => ?_, fun j hj => ?_, fun a => ?_⟩
  · simp only [List.mem_cons, not_or] at ha
    exact (hr.regs a ha.1).trans (h.regs a ha.2)
  · exact (bitAt_readyJudged u hj).trans (flag_of_reg (h.outside (by unfold portRegs TWN_STAT; omega)) _)
  · exact (sameMem_of_mem hr.mem a).trans (sameMem_of_mem h.mem a)

theorem PortMoved.raised_readyJudged {n : Nat} {W ks : List Nat} {r u : State} (h : PortMoved n W ks r u) :
    Safety.raised (Safety.lineEvents n ks) r u.readyJudged := by
  rw [Safety.raised, chan_readyJudged]
  exact h.raised

theorem PortMoved.alone {n : Nat} (hn : n < 8) {W ks : List Nat} {r u : State} (h : PortMoved n W ks r u) (ha : Safety.alone r) : Safety.alone u :=
  alone_of_frame hn h.toFrame h.own ha

/-! ### Consequent actions (R135, R138) -/

/-- aTSF is in force: a disabled port, a failed signal or dDEG's exceeded threshold (R135). -/
def State.wantsTsf (s : State) (n : Nat) : Bool := !s.flag (LINE_CFG n) LINE_CFG_EN || s.lineFail n || s.lstat n LINE_STAT_SF

/-- aTSD is in force. -/
def State.wantsTsd (s : State) (n : Nat) : Bool := s.lstat n LINE_STAT_SD && !!s.flag (LINE_CFG n) LINE_CFG_EN

/-- AIS towards PX is in force. -/
def State.wantsAis (s : State) (n : Nat) : Bool :=
  !s.flag (LINE_CFG n) LINE_CFG_EN || s.lineFail n || (s.lstat n LINE_STAT_SF && s.flag (LINE_DEG_CFG n) LINE_DEG_CFG_AIS_ON_SF)

/-- AIS and MS-RDI as the defects require them, aTSF and aTSD still to be judged. -/
def State.aisJudged (s : State) (n : Nat) : State :=
  (s.setLstat n LINE_STAT_AIS_OUT (s.wantsAis n)).setLine n
    { s.line n with sendRdi := s.lineFail n && !!s.flag (LINE_CFG n) LINE_CFG_EN }

section
variable (s : State) (n : Nat)

theorem lineActs_held (h : s.lstat n LINE_STAT_HOLDOFF = true) : s.lineActs n = s := if_pos h

theorem fld_aisJudged {f : Fld} (hf : f.lo + f.len ≤ 14 ∨ 15 ≤ f.lo) : (s.aisJudged n).fld (LINE_STAT n) f = s.fld (LINE_STAT n) f :=
  fld_setLstat_apart s n _ (by simpa [LINE_STAT_AIS_OUT] using hf)

theorem lineActs_eq (h : s.lstat n LINE_STAT_HOLDOFF = false) : s.lineActs n =
    ((s.aisJudged n).lineDefect n LINE_STAT_TSF (s.wantsTsf n) 0x20 0x21).lineDefect n LINE_STAT_TSD (s.wantsTsd n) 0x22 0x23 := by
  have hline : (s.setLstat n LINE_STAT_AIS_OUT (s.wantsAis n)).line n = s.line n := line_of_lines (lines_setLstat ..) n
  have hsd : ((s.aisJudged n).lineDefect n LINE_STAT_TSF (s.wantsTsf n) 0x20 0x21).lstat n LINE_STAT_SD = s.lstat n LINE_STAT_SD := by
    rw [lstat_lineDefect_apart _ _ _ _ _ _ (by decide), State.lstat, State.flag, fld_aisJudged s n (by decide), State.lstat, State.flag]
  unfold State.lineActs
  rw [if_neg (by simp [h]), State.wantsTsd, ← hsd, State.aisJudged, ← hline]
  rfl

/-- The bits of LINE_STAT other than AIS_OUT, aTSF and aTSD stay. -/
theorem fld_lineActs {f : Fld} (hf : f.lo + f.len ≤ 12 ∨ 15 ≤ f.lo) : (s.lineActs n).fld (LINE_STAT n) f = s.fld (LINE_STAT n) f := by
  cases h : s.lstat n LINE_STAT_HOLDOFF
  case true => rw [lineActs_held s n h]
  case false =>
    rw [lineActs_eq s n h, fld_lineDefect_apart _ _ _ _ _ _ (by simp only [LINE_STAT_TSD]; omega),
      fld_lineDefect_apart _ _ _ _ _ _ (by simp only [LINE_STAT_TSF]; omega), fld_aisJudged s n (by omega)]

theorem lstat_lineActs {f : Fld} (hf : f.lo + f.len ≤ 12 ∨ 15 ≤ f.lo) : (s.lineActs n).lstat n f = s.lstat n f := by
  rw [State.lstat, State.flag, fld_lineActs s n hf, State.lstat, State.flag]

/-- Of what the port holds beside its registers only the MS-RDI it sends follows. -/
theorem line_lineActs : ∃ b, (s.lineActs n).line n = { s.line n with sendRdi := b } := by
  cases h : s.lstat n LINE_STAT_HOLDOFF
  case true => exact ⟨(s.line n).sendRdi, by rw [lineActs_held s n h]⟩
  case false =>
    refine ⟨s.lineFail n && !!s.flag (LINE_CFG n) LINE_CFG_EN, ?_⟩
    rw [lineActs_eq s n h, line_of_lines ((lines_lineDefect ..).trans (lines_lineDefect ..))]
    exact line_setLine ..

section
variable (h : s.lstat n LINE_STAT_HOLDOFF = false)
include h

theorem ais_lineActs : (s.lineActs n).lstat n LINE_STAT_AIS_OUT = s.wantsAis n := by
  rw [lineActs_eq s n h, lstat_lineDefect_apart _ _ _ _ _ _ (by decide), lstat_lineDefect_apart _ _ _ _ _ _ (by decide)]
  exact lstat_setLstat_self s n _ (by decide) rfl

theorem tsf_lineActs : (s.lineActs n).lstat n LINE_STAT_TSF = s.wantsTsf n := by
  rw [lineActs_eq s n h, lstat_lineDefect_apart _ _ _ _ _ _ (by decide), lstat_lineDefect_self _ _ _ _ _ _ (by decide) rfl]

theorem rdi_lineActs : ((s.lineActs n).line n).sendRdi = (s.lineFail n && !!s.flag (LINE_CFG n) LINE_CFG_EN) := by
  rw [lineActs_eq s n h, line_of_lines ((lines_lineDefect ..).trans (lines_lineDefect ..))]
  exact congrArg LinePort.sendRdi (line_setLine ..)

end

end

/-- The k of the events by which the consequent actions of a port follow its defects. -/
def State.actKs (s : State) (n : Nat) : List Nat :=
  defectKs (s.lstat n LINE_STAT_TSF) (s.wantsTsf n) 0x20 0x21 ++ defectKs (s.lstat n LINE_STAT_TSD) (s.wantsTsd n) 0x22 0x23

namespace PortMoved

variable {n : Nat} {W ks : List Nat} {r s : State} (h : PortMoved n W ks r s) (hs : LINE_STAT n ∈ W) (hk : LINE_STICKY n ∈ W)
  (hheld : s.lstat n LINE_STAT_HOLDOFF = false)
include h hs hk hheld

theorem lineActs (hup : r.lineUp n = true) : PortMoved n W (ks ++ s.actKs n) r (s.lineActs n) := by
  have hjudged : PortMoved n W ks r (s.aisJudged n) := (h.setLstat _ _ hs hk).setLine _
  have hacted := (hjudged.lineDefect hup LINE_STAT_TSF (s.wantsTsf n) 0x20 0x21 [] hs hk).lineDefect hup LINE_STAT_TSD (s.wantsTsd n) 0x22 0x23 []
    hs hk
  rw [lineActs_eq s n hheld, State.actKs, ← List.append_assoc]
  rw [lstat_lineDefect_apart _ _ _ _ _ _ (by decide)] at hacted
  simp only [State.lstat, State.flag, fld_aisJudged s n (f := LINE_STAT_TSF) (by decide), fld_aisJudged s n (f := LINE_STAT_TSD) (by decide)]
    at hacted ⊢
  exact hacted

theorem lineActs_off (hoff : r.flag (LINE_CFG n) LINE_CFG_EN = false) : PortMoved n W ks r (s.lineActs n) := by
  have hjudged : PortMoved n W ks r (s.aisJudged n) := (h.setLstat _ _ hs hk).setLine _
  rw [lineActs_eq s n hheld]
  exact (hjudged.lineDefect_off hoff _ _ _ (by decide) (by decide) hs hk).lineDefect_off hoff _ _ _ (by decide) (by decide) hs hk

end PortMoved

/-! ### The framer enters a state (R119) -/

/-- What a port remembers once its framer has entered `st`. -/
def LinePort.moved (l : LinePort) (st : Nat) : LinePort :=
  { l with errRun := 0, goodRun := 0, newPos := none, refB1 := none, refB2 := none, synced := l.synced && decide (st ≠ frDark) }

/-- The framer's state and what the port remembers, OOF still to follow. -/
def State.framerMoved (s : State) (n st : Nat) : State :=
  (s.setFld (LINE_FRM_STAT n) LINE_FRM_STAT_STATE st).setLine n ((s.line n).moved st)

section
variable (s : State) (n st : Nat)

theorem setFramer_eq : s.setFramer n st = if s.fld (LINE_FRM_STAT n) LINE_FRM_STAT_STATE = st then s
    else (if st = frOutOfFrame then (s.framerMoved n st).count (LINE_OOF_CNT n) else s.framerMoved n st).lineDefect n LINE_STAT_OOF
      (decide (st = frOutOfFrame)) 0x03 0x04 := rfl

theorem fld_framerMoved_stat (f : Fld) : (s.framerMoved n st).fld (LINE_STAT n) f = s.fld (LINE_STAT n) f :=
  fld_setFld_ne s f LINE_FRM_STAT_STATE st (frmStat_ne_lineStat n)

/-- Where OOF neither falls nor rises, the framer's state moves alone. -/
theorem setFramer_quiet (hoof : s.lstat n LINE_STAT_OOF = false) (hst : st ≠ frOutOfFrame) :
    s.setFramer n st = if s.fld (LINE_FRM_STAT n) LINE_FRM_STAT_STATE = st then s else s.framerMoved n st := by
  have hsame : (s.framerMoved n st).lstat n LINE_STAT_OOF = false := by
    rw [State.lstat, State.flag, fld_framerMoved_stat, ← State.flag, ← State.lstat, hoof]
  rw [setFramer_eq, if_neg hst, decide_eq_false hst, lineDefect_same _ _ _ _ _ _ hsame]

theorem framer_setFramer (hst : st < 8) : (s.setFramer n st).fld (LINE_FRM_STAT n) LINE_FRM_STAT_STATE = st := by
  have hmoved : (s.framerMoved n st).fld (LINE_FRM_STAT n) LINE_FRM_STAT_STATE = st :=
    (fld_setFld_self s _ (by decide) st).trans (Nat.mod_eq_of_lt hst)
  have hcount : ((s.framerMoved n st).count (LINE_OOF_CNT n)).fld (LINE_FRM_STAT n) LINE_FRM_STAT_STATE = st :=
    (fld_setReg_ne _ _ _ (by unfold LINE_OOF_CNT LINE_FRM_STAT; omega)).trans hmoved
  rw [setFramer_eq]
  split
  · assumption
  · have hframe (u : State) := (Added.refl u).lineDefect (W := (· ∈ [LINE_STAT n, LINE_STICKY n])) (n := n) LINE_STAT_OOF
      (decide (st = frOutOfFrame)) 0x03 0x04 [] (by simp) (by simp)
    rw [(hframe _).fld (by simp [LINE_FRM_STAT, LINE_STAT, LINE_STICKY])]
    split
    · exact hcount
    · exact hmoved

end

theorem PortMoved.setFramer_quiet {n st : Nat} {W ks : List Nat} {r s : State} (h : PortMoved n W ks r s) (hoof : s.lstat n LINE_STAT_OOF = false)
    (hst : st ≠ frOutOfFrame) (hW : LINE_FRM_STAT n ∈ W) : PortMoved n W ks r (s.setFramer n st) := by
  rw [Machine.setFramer_quiet s n st hoof hst]
  split
  · exact h
  · exact (h.setFld _ _ hW (by unfold LINE_FRM_STAT LINE_STICKY; omega)).setLine _

end Sys2Proof.Machine
end

section
/-! PROOF of O24: loss of signal sources of a line port, and its error-rate windows. -/

namespace Sys2Proof.Machine

/-! ### The registers of the receive side -/

theorem portRegs_lineRegs (n : Nat) : ∀ a ∈ Safety.lineRegs n, portRegs n a := by
  simp only [Safety.lineRegs, List.mem_cons, List.not_mem_nil, or_false, forall_eq_or_imp, forall_eq, portRegs, LINE_STAT, LINE_STICKY,
    LINE_FRM_STAT, LINE_OOF_CNT, LINE_K_RX, LINE_S1]
  omega

theorem lineRegs_stat (n : Nat) : LINE_STAT n ∈ Safety.lineRegs n := by simp [Safety.lineRegs]

theorem lineRegs_sticky (n : Nat) : LINE_STICKY n ∈ Safety.lineRegs n := by simp [Safety.lineRegs]

theorem lineRegs_framer (n : Nat) : LINE_FRM_STAT n ∈ Safety.lineRegs n := by simp [Safety.lineRegs]

theorem lineRegs_kRx (n : Nat) : LINE_K_RX n ∈ Safety.lineRegs n := by simp [Safety.lineRegs]

theorem lineRegs_s1 (n : Nat) : LINE_S1 n ∈ Safety.lineRegs n := by simp [Safety.lineRegs]

/-! ### Loss of signal (R118, R119, R129, R132) -/

/-- While dLOS stands, the K bytes and the SSM are not valid (R129, R132). -/
theorem valid_lineFreeze {s : State} {n : Nat} (h : s.lstat n LINE_STAT_LOS = true) :
    (s.lineFreeze n).flag (LINE_K_RX n) LINE_K_RX_VALID = false ∧ (s.lineFreeze n).flag (LINE_S1 n) LINE_S1_RX_VALID = false := by
  have hne : LINE_S1 n ≠ LINE_K_RX n := by unfold LINE_S1 LINE_K_RX; omega
  unfold State.lineFreeze
  rw [if_pos (by simp [h])]
  dsimp only
  rw [flag_setLine, flag_setLine, flag_setFlag_ne _ _ _ _ hne, flag_setFlag_self _ _ (by decide) rfl, flag_setFlag_self _ _ (by decide) rfl]
  exact ⟨rfl, rfl⟩

theorem added_lineFreeze (s : State) (n : Nat) : Added (· ∈ [LINE_K_RX n, LINE_S1 n]) s (s.lineFreeze n) :=
  (Added.refl s).lineFreeze (by simp) (by simp)

theorem fld_lineFreeze_stat (s : State) (n : Nat) (f : Fld) : (s.lineFreeze n).fld (LINE_STAT n) f = s.fld (LINE_STAT n) f :=
  (added_lineFreeze s n).fld (by simp [LINE_STAT, LINE_K_RX, LINE_S1]) f

theorem fld_lineFreeze_framer (s : State) (n : Nat) (f : Fld) : (s.lineFreeze n).fld (LINE_FRM_STAT n) f = s.fld (LINE_FRM_STAT n) f :=
  (added_lineFreeze s n).fld (by simp [LINE_FRM_STAT, LINE_K_RX, LINE_S1]) f

theorem fld_setFramer_stat {s : State} {n st : Nat} (hoof : s.lstat n LINE_STAT_OOF = false) (hst : st ≠ frOutOfFrame) (f : Fld) :
    (s.setFramer n st).fld (LINE_STAT n) f = s.fld (LINE_STAT n) f := by
  rw [setFramer_quiet s n st hoof hst]
  split
  · rfl
  · exact fld_framerMoved_stat ..

/-- dLOS declared for port `n`, with its record of the sources. -/
def State.losDeclared (s : State) (n : Nat) : State :=
  let d := s.lineDefect n LINE_STAT_LOS true 0x01 0x02 [w32 (s.losCause n)]
  d.setLine n { d.line n with losBits := s.losCause n }

/-- A source that reports the loss declares dLOS and takes the framer to Dark. -/
theorem updateLos_lost {s : State} {n : Nat} (hup : s.lineUp n = true) (hc : s.losCause n ≠ 0) :
    s.updateLos n = ((s.losDeclared n).setFramer n frDark).lineFreeze n := by
  unfold State.updateLos
  rw [if_neg (by simp [hup])]
  simp only [hc, if_false, decide_true, ne_eq, not_false_eq_true, if_true]
  rfl

theorem lstat_losDeclared_apart (s : State) (n : Nat) {f : Fld} (hf : 1 ≤ f.lo) : (s.losDeclared n).lstat n f = s.lstat n f :=
  lstat_lineDefect_apart s n true 0x01 0x02 _ (.inr hf)

theorem los_losDeclared (s : State) (n : Nat) : (s.losDeclared n).lstat n LINE_STAT_LOS = true :=
  lstat_lineDefect_self s n true 0x01 0x02 _ (by decide) rfl

section
variable {s : State} {n : Nat} (hlos : s.lstat n LINE_STAT_LOS = false)
include hlos

theorem latched_losDeclared : (s.losDeclared n).bitAt (LINE_STICKY n) 0 = true := by
  rw [State.losDeclared, lineDefect_changed _ _ _ _ _ _ (by simp [hlos]), bitAt_setLine, State.bitAt, flag_of_reg (reg_portEvent ..)]
  exact latched_setLstat_self s n hlos (by decide)

theorem moved_losDeclared (hup : s.lineUp n = true) : PortMoved n (Safety.lineRegs n) [0x01] s (s.losDeclared n) := by
  have h := (PortMoved.refl s (portRegs_lineRegs n)).lineDefect hup LINE_STAT_LOS true 0x01 0x02 [w32 (s.losCause n)] (lineRegs_stat n)
    (lineRegs_sticky n)
  rw [hlos] at h
  exact h.setLine _

end

/-- What the declaration of dLOS leaves. -/
structure LosDeclared (n : Nat) (s t : State) : Prop extends PortMoved n (Safety.lineRegs n) [0x01] s t where
  los : t.lstat n LINE_STAT_LOS = true
  stat : ∀ f : Fld, 1 ≤ f.lo → t.lstat n f = s.lstat n f
  framer : t.fld (LINE_FRM_STAT n) LINE_FRM_STAT_STATE = frDark
  losLatched : t.bitAt (LINE_STICKY n) 0 = true
  kValid : t.flag (LINE_K_RX n) LINE_K_RX_VALID = false
  ssmValid : t.flag (LINE_S1 n) LINE_S1_RX_VALID = false

theorem losDeclared_updateLos {s : State} {n : Nat} (hup : s.lineUp n = true) (hc : s.losCause n ≠ 0)
    (hlos : s.lstat n LINE_STAT_LOS = false) (hoof : s.lstat n LINE_STAT_OOF = false) : LosDeclared n s (s.updateLos n) := by
  have hoof' : (s.losDeclared n).lstat n LINE_STAT_OOF = false := (lstat_losDeclared_apart s n (by decide)).trans hoof
  have hrest : PortMoved n (Safety.lineRegs n) [] (s.losDeclared n) (s.updateLos n) := by
    rw [updateLos_lost hup hc]
    exact ((PortMoved.refl _ (portRegs_lineRegs n)).setFramer_quiet hoof' (by decide) (lineRegs_framer n)).lineFreeze (lineRegs_kRx n)
      (lineRegs_s1 n)
  have hstat (f : Fld) : (s.updateLos n).lstat n f = (s.losDeclared n).lstat n f := by
    rw [updateLos_lost hup hc, State.lstat, State.flag, fld_lineFreeze_stat, fld_setFramer_stat hoof' (by decide), State.lstat, State.flag]
  have hdark : ((s.losDeclared n).setFramer n frDark).lstat n LINE_STAT_LOS = true := by
    rw [State.lstat, State.flag, fld_setFramer_stat hoof' (by decide), ← State.flag, ← State.lstat, los_losDeclared]
  have hvalid := valid_lineFreeze hdark
  rw [← updateLos_lost hup hc] at hvalid
  exact {
    toPortMoved := (moved_losDeclared hlos hup).trans hrest
    los := (hstat _).trans (los_losDeclared s n)
    stat f hf := (hstat f).trans (lstat_losDeclared_apart s n hf)
    framer := by rw [updateLos_lost hup hc, fld_lineFreeze_framer, framer_setFramer _ _ _ (by decide)]
    losLatched := hrest.latched 0 (latched_losDeclared hlos)
    kValid := hvalid.1
    ssmValid := hvalid.2 }

/-! ### What the loss of signal puts in force (R135) -/

theorem added_lineActs (s : State) (n : Nat) : Added (· ∈ [LINE_STAT n, LINE_STICKY n]) s (s.lineActs n) :=
  (Added.refl s).lineActs (by simp) (by simp)

theorem lineActions_eq {n : Fin 8} {W ks : List Nat} {r x : State} (h : PortMoved n W ks r (x.lineActs n)) (ha : Safety.alone r) :
    x.lineActions n = (x.lineActs n).readyJudged := lineActions_of_alone (h.alone n.isLt ha)

/-- On port `n` neither loss of signal nor what follows from it stands. -/
def State.calm (s : State) (n : Nat) : Prop :=
  ∀ f ∈ [LINE_STAT_LOS, LINE_STAT_OOF, LINE_STAT_HOLDOFF, LINE_STAT_TSF, LINE_STAT_SD, LINE_STAT_TSD], s.lstat n f = false

/-- The levels of the balls do not disturb a port. -/
theorem calm_of_stat {s u : State} {n : Nat} (h : s.calm n)
    (hstat : ∀ f : Fld, f.lo + f.len ≤ 9 ∨ 11 ≤ f.lo ∧ f.lo + f.len ≤ 15 → u.lstat n f = s.lstat n f) : u.calm n := by
  intro f hf
  rw [hstat f, h f hf]
  simp only [List.mem_cons, List.not_mem_nil, or_false] at hf
  rcases hf with rfl | rfl | rfl | rfl | rfl | rfl <;> decide

/-- What a row leaves that declares dLOS, its own events `k` first. -/
structure LostRow (n : Nat) (k : List Nat) (r t : State) : Prop where
  los : t.lstat n LINE_STAT_LOS = true
  framer : t.fld (LINE_FRM_STAT n) LINE_FRM_STAT_STATE = frDark
  ais : t.lstat n LINE_STAT_AIS_OUT = true
  tsf : t.lstat n LINE_STAT_TSF = true
  rdi : (t.line n).sendRdi = true
  latched : t.flag (LINE_STICKY n) ⟨0, 1⟩ = true
  kValid : t.flag (LINE_K_RX n) LINE_K_RX_VALID = false
  ssmValid : t.flag (LINE_S1 n) LINE_S1_RX_VALID = false
  raised : Safety.raised (Safety.lineEvents n (k ++ [0x01, 0x20])) r t
  only : Safety.lineOnly (Safety.lineRegs n) r t

theorem lostRow {n : Fin 8} {k : List Nat} {r u : State} (hmoved : PortMoved n (Safety.lineRegs n) k r u) (hup : r.lineUp n = true)
    (halone : Safety.alone r) (hcalm : u.calm n) (hc : u.losCause n ≠ 0) : LostRow n k r ((u.updateLos n).lineActions n) := by
  have hd := losDeclared_updateLos (hmoved.lineUp.trans hup) hc (hcalm _ (by simp)) (hcalm _ (by simp))
  have hheld : (u.updateLos n).lstat n LINE_STAT_HOLDOFF = false := (hd.stat _ (by decide)).trans (hcalm _ (by simp))
  have hen : (u.updateLos n).flag (LINE_CFG n) LINE_CFG_EN = true :=
    hd.enabled.trans (hmoved.enabled.trans (enabled_of_lineUp hup))
  have hfail : (u.updateLos n).lineFail n = true := by simp [State.lineFail, hd.los]
  have htsf : (u.updateLos n).lstat n LINE_STAT_TSF = false := (hd.stat _ (by decide)).trans (hcalm _ (by simp))
  have htsd : (u.updateLos n).lstat n LINE_STAT_TSD = false := (hd.stat _ (by decide)).trans (hcalm _ (by simp))
  have hsd : (u.updateLos n).lstat n LINE_STAT_SD = false := (hd.stat _ (by decide)).trans (hcalm _ (by simp))
  have hks : (u.updateLos n).actKs n = [0x20] := by simp [State.actKs, State.wantsTsf, State.wantsTsd, htsf, htsd, hsd, hfail, defectKs]
  have hacted := (hmoved.trans hd.toPortMoved).lineActs (lineRegs_stat n) (lineRegs_sticky n) hheld hup
  rw [hks, List.append_assoc] at hacted
  have hbeside := added_lineActs (u.updateLos n) n
  rw [lineActions_eq hacted halone]
  exact {
    los := by rw [lstat_readyJudged, lstat_lineActs _ _ (by decide), hd.los]
    framer := by
      rw [fld_of_reg (reg_readyJudged _ (by unfold LINE_FRM_STAT TWN_STAT; omega)),
        hbeside.fld (by simp [LINE_FRM_STAT, LINE_STAT, LINE_STICKY]), hd.framer]
    ais := by simp [lstat_readyJudged, ais_lineActs _ _ hheld, State.wantsAis, hfail]
    tsf := by simp [lstat_readyJudged, tsf_lineActs _ _ hheld, State.wantsTsf, hfail]
    rdi := by simp [line_readyJudged, rdi_lineActs _ _ hheld, hfail, hen]
    latched := by
      rw [flag_of_reg (reg_readyJudged _ (by unfold LINE_STICKY TWN_STAT; omega))]
      exact ((PortMoved.refl _ (portRegs_lineRegs n)).lineActs (lineRegs_stat n) (lineRegs_sticky n) hheld
        (hd.lineUp.trans (hmoved.lineUp.trans hup))).latched 0 hd.losLatched
    kValid := by
      rw [flag_of_reg (reg_readyJudged _ (by unfold LINE_K_RX TWN_STAT; omega)),
        hbeside.flag (by simp [LINE_K_RX, LINE_STAT, LINE_STICKY]), hd.kValid]
    ssmValid := by
      rw [flag_of_reg (reg_readyJudged _ (by unfold LINE_S1 TWN_STAT; omega)),
        hbeside.flag (by simp [LINE_S1, LINE_STAT, LINE_STICKY]), hd.ssmValid]
    raised := hacted.raised_readyJudged
    only := hacted.lineOnly n.isLt }

/-- Whichever source reports the loss, it is a cause (R118). -/
theorem losCause_ne_zero {s : State} {n : Nat} (h : (s.lstat n LINE_STAT_LOS_PIN = true ∧ s.fld (LINE_CFG n) LINE_CFG_LOS_SRC ≠ 1)
    ∨ ((s.line n).elec = true ∧ s.fld (LINE_CFG n) LINE_CFG_LOS_SRC ≠ 0) ∨ s.lstat n LINE_STAT_MOD_ABS = true) : s.losCause n ≠ 0 := by
  unfold State.losCause
  rcases h with ⟨hpin, hsrc⟩ | ⟨helec, hsrc⟩ | habs
  · simp [hpin, hsrc, bit]
  · simp [helec, hsrc, bit]
  · simp [habs, bit]

/-! ### The sources (R116 to R118) -/

/-- The LOS ball's level at a running port, with its event. -/
def State.pinSeen (s : State) (n : Nat) (level : Bool) : State :=
  (s.setLstat n LINE_STAT_LOS_PIN level).lineEvent n 0x19 [w32 (bit level)]

/-- MOD_ABS at a running port, with its event, and the laser as it follows. -/
def State.absSeen (s : State) (n : Nat) (level : Bool) : State :=
  ((s.setLstat n LINE_STAT_MOD_ABS level).lineEvent n 0x18 [w32 (bit level)]).updateLaser n

theorem PortMoved.updateLaser {n : Nat} {W ks : List Nat} {r s : State} (h : PortMoved n W ks r s) (hs : LINE_STAT n ∈ W) :
    PortMoved n W ks r (s.updateLaser n) := h.setFlag _ _ hs (by unfold LINE_STAT LINE_STICKY; omega)

section
variable {s : State} {n : Nat} (level : Bool)

theorem moved_pinSeen (hup : s.lineUp n = true) : PortMoved n (Safety.lineRegs n) [0x19] s (s.pinSeen n level) :=
  ((PortMoved.refl s (portRegs_lineRegs n)).setLstat _ _ (lineRegs_stat n) (lineRegs_sticky n)).portEvent (enabled_of_lineUp hup)
    (not_dormant_of_lineUp hup) _ _

theorem moved_absSeen (hup : s.lineUp n = true) : PortMoved n (Safety.lineRegs n) [0x18] s (s.absSeen n level) :=
  (((PortMoved.refl s (portRegs_lineRegs n)).setLstat _ _ (lineRegs_stat n) (lineRegs_sticky n)).portEvent (enabled_of_lineUp hup)
    (not_dormant_of_lineUp hup) _ _).updateLaser (lineRegs_stat n)

theorem lstat_pinSeen {f : Fld} (hf : f.lo + f.len ≤ 10 ∨ 11 ≤ f.lo) : (s.pinSeen n level).lstat n f = s.lstat n f := by
  rw [State.pinSeen, State.lstat, flag_of_reg (reg_portEvent ..), State.flag, fld_setLstat_apart s n level (by simpa [LINE_STAT_LOS_PIN] using hf),
    State.lstat, State.flag]

theorem pin_pinSeen : (s.pinSeen n level).lstat n LINE_STAT_LOS_PIN = level := by
  rw [State.pinSeen, State.lstat, flag_of_reg (reg_portEvent ..)]
  exact lstat_setLstat_self s n level (by decide) rfl

theorem lstat_absSeen {f : Fld} (hf : f.lo + f.len ≤ 9 ∨ 10 ≤ f.lo ∧ f.lo + f.len ≤ 15) : (s.absSeen n level).lstat n f = s.lstat n f := by
  have hlaser := flag_setFlag_other ((s.setLstat n LINE_STAT_MOD_ABS level).lineEvent n 0x18 [w32 (bit level)]) (LINE_STAT n) (f := f)
    (g := LINE_STAT_TXDIS) (by simp only [LINE_STAT_TXDIS]; omega)
  rw [State.absSeen, State.lstat, State.updateLaser, hlaser, flag_of_reg (reg_portEvent ..), State.flag,
    fld_setLstat_apart s n level (by simp only [LINE_STAT_MOD_ABS]; omega), State.lstat, State.flag]

theorem abs_absSeen : (s.absSeen n level).lstat n LINE_STAT_MOD_ABS = level := by
  have hlaser := flag_setFlag_other ((s.setLstat n LINE_STAT_MOD_ABS level).lineEvent n 0x18 [w32 (bit level)]) (LINE_STAT n)
    (f := LINE_STAT_MOD_ABS) (g := LINE_STAT_TXDIS) (by decide)
  rw [State.absSeen, State.lstat, State.updateLaser, hlaser, flag_of_reg (reg_portEvent ..)]
  exact lstat_setLstat_self s n level (by decide) rfl

end

/-- What SP's own receivers see and what TX_DISABLE waits for moves no port. -/
def State.ballSeen (s : State) (n : Fin 8) (level : Bool) : State := { s with sp := { s.sp with losBall := setBall s.sp.losBall n level } }

def State.moduleSeen (s : State) (n : Fin 8) (level : Bool) : State :=
  ({ s with sp := { s.sp with modAbs := setBall s.sp.modAbs n level } }).setLine n { s.line n with settling := !level }

/-- The framer is in a state that searches for the alignment. -/
def State.searches (s : State) (n : Nat) : Bool :=
  let st := s.fld (LINE_FRM_STAT n) LINE_FRM_STAT_STATE
  decide (st = frSearch) || decide (st = frPresync) || decide (st = frOutOfFrame)

/-- dLOS judged as a module goes, a search that was under way aborted first (R118, R138). -/
def State.absJudged (s : State) (n : Nat) (abort : Bool) : State :=
  let s := if abort then s.setLstat n LINE_STAT_HOLDOFF true else s
  let s := s.updateLos n
  if abort then s.lineEvent n 0x1D else s

section
variable {s : State} {n : Fin 8} (hup : s.lineUp n = true)
include hup

theorem running_of_lineUp : s.running (islLP n) = true := (Bool.and_eq_true_iff.mp hup).1

theorem exec_losBallChange : exec (.losBallChange n true) s = .next ((((s.ballSeen n true).pinSeen n true).updateLos n).lineActions n) :=
  have h : (s.ballSeen n true).running (islLP n) = true := running_of_lineUp hup
  congrArg Host.Outcome.next (if_neg (c := (!(s.ballSeen n true).running (islLP n)) = true) (by rw [h]; decide))

theorem exec_electricalLos : exec (.electricalLos n true) s
    = .next (((s.setLine n { s.line n with elec := true }).updateLos n).lineActions n) :=
  congrArg Host.Outcome.next (if_neg (by simp [running_of_lineUp hup]))

theorem exec_modAbsChange : exec (.modAbsChange n true) s
    = .next ((((s.moduleSeen n true).absSeen n true).absJudged n (s.searches n)).lineActions n) := by
  have hrun : (s.moduleSeen n true).running (islLP n) = true := running_of_lineUp hup
  have habort : (true && (s.moduleSeen n true).lineUp n && s.searches n) = s.searches n := by
    rw [show (s.moduleSeen n true).lineUp n = true from hup]
    rfl
  rw [← habort]
  exact congrArg Host.Outcome.next (if_neg (c := (!(s.moduleSeen n true).running (islLP n)) = true) (by rw [hrun]; decide))

end

/-! ### Loss of signal in frame -/

/-- What is held beside registers, memory and the events on their way does not enter into what a row leaves. -/
theorem LostRow.beside {n : Nat} {k : List Nat} {r s t : State} (h : LostRow n k r t) (hregs : r.regs = s.regs) (hmem : r.mem = s.mem)
    (hchan : r.chan = s.chan) : LostRow n k s t := by
  have hreg (a : Nat) : r.reg a = s.reg a := by rw [State.reg, hregs, State.reg]
  obtain ⟨honly, hbits, hbytes⟩ := h.only
  exact { h with
    raised := raised_of_chan hchan h.raised
    only := ⟨fun a ha => (honly a ha).trans (hreg a), fun j hj => (hbits j hj).trans (flag_of_reg (hreg _) _),
      fun a => (hbytes a).trans (sameMem_of_mem hmem a)⟩ }

section
variable {s : State} {n : Fin 8} (hup : s.lineUp n = true) (halone : Safety.alone s) (hcalm : s.calm n)
include hup halone hcalm

theorem lostRow_losBallChange (hsrc : s.fld (LINE_CFG n) LINE_CFG_LOS_SRC ≠ 1) :
    ∃ t, exec (.losBallChange n true) s = .next t ∧ LostRow n [0x19] s t := by
  have hmoved := moved_pinSeen (s := s.ballSeen n true) true hup
  have hcause : ((s.ballSeen n true).pinSeen n true).losCause n ≠ 0 :=
    losCause_ne_zero (.inl ⟨pin_pinSeen true, by rw [hmoved.cfg]; exact hsrc⟩)
  have hcalm' := calm_of_stat (u := (s.ballSeen n true).pinSeen n true) hcalm fun f hf => lstat_pinSeen true (by omega)
  exact ⟨_, exec_losBallChange hup, (lostRow hmoved hup halone hcalm' hcause).beside rfl rfl rfl⟩

theorem lostRow_electricalLos (hsrc : s.fld (LINE_CFG n) LINE_CFG_LOS_SRC ≠ 0) :
    ∃ t, exec (.electricalLos n true) s = .next t ∧ LostRow n [] s t := by
  have helec : ((s.setLine n { s.line n with elec := true }).line n).elec = true := congrArg LinePort.elec (line_setLine ..)
  exact ⟨_, exec_electricalLos hup, lostRow ((PortMoved.refl s (portRegs_lineRegs n)).setLine _) hup halone hcalm
    (losCause_ne_zero (.inr (.inl ⟨helec, hsrc⟩)))⟩

theorem lostRow_modAbsChange (hst : s.searches n = false) : ∃ t, exec (.modAbsChange n true) s = .next t ∧ LostRow n [0x18] s t := by
  have hmoved := moved_absSeen (s := s.moduleSeen n true) true hup
  have hcalm' := calm_of_stat (u := (s.moduleSeen n true).absSeen n true) hcalm fun f hf => lstat_absSeen true (by omega)
  have h := lostRow hmoved hup halone hcalm' (losCause_ne_zero (.inr (.inr (abs_absSeen true))))
  refine ⟨_, exec_modAbsChange hup, ?_⟩
  rw [hst]
  exact h.beside rfl rfl rfl

end

/-! ### The hold-off (R138) -/

section
variable {s : State} {n : Fin 8} (hup : s.lineUp n = true) (halone : Safety.alone s)
include hup halone

/-- A module removed during the search: the search is aborted, and under the hold-off no action changes. -/
theorem searchAborted (hst : s.searches n = true) (hlos : s.lstat n LINE_STAT_LOS = false) (hoof : s.lstat n LINE_STAT_OOF = false) :
    ∃ t, exec (.modAbsChange n true) s = .next t ∧ t.lstat n LINE_STAT_LOS = true ∧ t.lstat n LINE_STAT_HOLDOFF = true
      ∧ t.fld (LINE_FRM_STAT n) LINE_FRM_STAT_STATE = frDark ∧ t.lstat n LINE_STAT_TSF = s.lstat n LINE_STAT_TSF
      ∧ t.lstat n LINE_STAT_AIS_OUT = s.lstat n LINE_STAT_AIS_OUT ∧ Safety.raised (Safety.lineEvents n [0x18, 0x01, 0x1D]) s t
      ∧ Safety.lineOnly (Safety.lineRegs n) s t := by
  set u := (s.moduleSeen n true).absSeen n true with hu
  set w := (u.setLstat n LINE_STAT_HOLDOFF true).updateLos n with hw
  have habs : PortMoved n (Safety.lineRegs n) [0x18] (s.moduleSeen n true) u := moved_absSeen true hup
  have hheld := habs.setLstat LINE_STAT_HOLDOFF true (lineRegs_stat n) (lineRegs_sticky n)
  have hstat {f : Fld} (hf : f.lo + f.len ≤ 9 ∨ 12 ≤ f.lo ∧ f.lo + f.len ≤ 15) : (u.setLstat n LINE_STAT_HOLDOFF true).lstat n f = s.lstat n f := by
    rw [State.lstat, State.flag, fld_setLstat_apart u n true (by simp only [LINE_STAT_HOLDOFF]; omega), ← State.flag, ← State.lstat]
    exact lstat_absSeen true (by omega)
  have hcause : (u.setLstat n LINE_STAT_HOLDOFF true).losCause n ≠ 0 := by
    refine losCause_ne_zero (.inr (.inr ?_))
    rw [State.lstat, State.flag, fld_setLstat_apart u n true (by decide), ← State.flag, ← State.lstat]
    exact abs_absSeen true
  have hd : LosDeclared n (u.setLstat n LINE_STAT_HOLDOFF true) w := losDeclared_updateLos (hheld.lineUp.trans hup) hcause
    ((hstat (by decide)).trans hlos) ((hstat (by decide)).trans hoof)
  have hend := (hheld.trans hd.toPortMoved).portEvent (enabled_of_lineUp hup) (not_dormant_of_lineUp hup) 0x1D []
  have hread {a : Nat} (f : Fld) : (w.lineEvent n 0x1D).flag a f = w.flag a f := flag_of_reg (reg_portEvent ..) f
  have hhold : (w.lineEvent n 0x1D).lstat n LINE_STAT_HOLDOFF = true := by
    rw [State.lstat, hread, ← State.lstat, hd.stat _ (by decide)]
    exact lstat_setLstat_self u n true (by decide) rfl
  have hacts : (w.lineEvent n 0x1D).lineActions n = (w.lineEvent n 0x1D).readyJudged := by
    rw [lineActions_of_alone, lineActs_held _ _ hhold]
    rw [lineActs_held _ _ hhold]
    exact hend.alone n.isLt halone
  have hother {f : Fld} (hlo : 1 ≤ f.lo) (hf : f.lo + f.len ≤ 9 ∨ 12 ≤ f.lo ∧ f.lo + f.len ≤ 15) :
      (w.lineEvent n 0x1D).readyJudged.lstat n f = s.lstat n f := by
    rw [lstat_readyJudged, State.lstat, hread, ← State.lstat, hd.stat f hlo, hstat hf]
  refine ⟨(w.lineEvent n 0x1D).readyJudged, ?_, ?_, ?_, ?_, hother (by decide) (by decide), hother (by decide) (by decide),
    hend.raised_readyJudged, hend.lineOnly n.isLt⟩
  · rw [exec_modAbsChange hup, hst, ← hacts]
    rfl
  · rw [lstat_readyJudged, State.lstat, hread, ← State.lstat, hd.los]
  · rw [lstat_readyJudged, hhold]
  · rw [fld_of_reg (reg_readyJudged _ (by unfold LINE_FRM_STAT TWN_STAT; omega)), fld_of_reg (reg_portEvent ..), hd.framer]

end

/-- The hold-off ends: the actions that the declared loss requires start. -/
theorem holdoffEnded {s : State} {n : Fin 8} (hup : s.lineUp n = true) (halone : Safety.alone s) (hheld : s.lstat n LINE_STAT_HOLDOFF = true)
    (hlos : s.lstat n LINE_STAT_LOS = true) (htsf : s.lstat n LINE_STAT_TSF = false) (hsd : s.lstat n LINE_STAT_SD = false)
    (htsd : s.lstat n LINE_STAT_TSD = false) : ∃ t, exec (.holdoffEnd n) s = .next t ∧ t.lstat n LINE_STAT_HOLDOFF = false
      ∧ t.lstat n LINE_STAT_AIS_OUT = true ∧ t.lstat n LINE_STAT_TSF = true ∧ Safety.raised (Safety.lineEvents n [0x1E, 0x20]) s t
      ∧ Safety.lineOnly [LINE_STAT n, LINE_STICKY n] s t := by
  set u := (s.setLstat n LINE_STAT_HOLDOFF false).lineEvent n 0x1E with hu
  have hown : ∀ a ∈ [LINE_STAT n, LINE_STICKY n], portRegs n a := fun a ha =>
    portRegs_lineRegs n a (by simp only [List.mem_cons, List.not_mem_nil, or_false] at ha; rcases ha with rfl | rfl <;> simp [Safety.lineRegs])
  have hmoved : PortMoved n [LINE_STAT n, LINE_STICKY n] [0x1E] s u := ((PortMoved.refl s hown).setLstat LINE_STAT_HOLDOFF false (by simp)
    (by simp)).portEvent (enabled_of_lineUp hup) (not_dormant_of_lineUp hup) _ _
  have hstat {f : Fld} (hf : f.lo + f.len ≤ 11 ∨ 12 ≤ f.lo) : u.lstat n f = s.lstat n f := by
    rw [hu, State.lstat, flag_of_reg (reg_portEvent ..), State.flag, fld_setLstat_apart s n false (by simpa [LINE_STAT_HOLDOFF] using hf),
      State.lstat, State.flag]
  have hfree : u.lstat n LINE_STAT_HOLDOFF = false := by
    rw [hu, State.lstat, flag_of_reg (reg_portEvent ..)]
    exact lstat_setLstat_self s n false (by decide) rfl
  have hfail : u.lineFail n = true := by simp [State.lineFail, hstat (f := LINE_STAT_LOS) (by decide), hlos]
  have hks : u.actKs n = [0x20] := by
    simp [State.actKs, State.wantsTsf, State.wantsTsd, hstat (f := LINE_STAT_TSF) (by decide), hstat (f := LINE_STAT_TSD) (by decide),
      hstat (f := LINE_STAT_SD) (by decide), htsf, htsd, hsd, hfail, defectKs]
  have hacted := hmoved.lineActs (by simp) (by simp) hfree hup
  rw [hks] at hacted
  refine ⟨(u.lineActs n).readyJudged, ?_, ?_, ?_, ?_, hacted.raised_readyJudged, hacted.lineOnly n.isLt⟩
  · rw [← lineActions_eq hacted halone]
    exact congrArg Host.Outcome.next (if_pos (by simp [running_of_lineUp hup, hheld]))
  · rw [lstat_readyJudged, lstat_lineActs _ _ (by decide), hfree]
  · simp [lstat_readyJudged, ais_lineActs _ _ hfree, State.wantsAis, hfail]
  · simp [lstat_readyJudged, tsf_lineActs _ _ hfree, State.wantsTsf, hfail]

/-! ### TX_DISABLE once MOD_ABS has settled (R116) -/

theorem modAbsSettled {s : State} {n : Fin 8} (hrun : s.running (islLP n) = true) (habs : s.sp.modAbs.getLsbD n = false) :
    ∃ t, exec (.modAbsSettle n) s = .next t ∧ (t.line n).settling = false
      ∧ t.lstat n LINE_STAT_TXDIS = (!s.flag (LINE_CFG n) LINE_CFG_EN || !s.live || decide (s.als n = alsOff))
      ∧ Safety.onlyRegs [LINE_STAT n] s t ∧ Safety.sameMem s t ∧ t.chan = s.chan := by
  set u := s.setLine n { s.line n with settling := false } with hu
  have hsettled : (u.line n).settling = false := congrArg LinePort.settling (line_setLine ..)
  have hadded : Added (· ∈ [LINE_STAT n]) s (u.updateLaser n) := ((Added.refl s).setLine _).setFlag _ _ _ (by simp)
  refine ⟨u.updateLaser n, ?_, hsettled, ?_, hadded.regs, sameMem_of_mem hadded.mem, rfl⟩
  · exact congrArg Host.Outcome.next ((if_neg (by rw [habs]; decide)).trans (if_pos hrun))
  · have hset : (u.updateLaser n).lstat n LINE_STAT_TXDIS
        = (!s.flag (LINE_CFG n) LINE_CFG_EN || !s.live || (u.line n).settling || decide (s.als n = alsOff)) := flag_setFlag_self _ _ (by decide) rfl _
    rw [hset, hsettled, Bool.or_false]

/-! ### Error-rate windows (R133, R134) -/

/-- A sub-window's end, its port's record and its sum shown, the detector still to be judged. -/
def State.windowEnded (s : State) (n : Nat) (l : LinePort) (g : Fld) (win : List (Option Nat)) : State :=
  (s.setLine n l).setFld (LINE_BER_STAT n) g (min 65535 (windowSum win))

/-- The registers of an error-rate detector. -/
def berRegs (n : Nat) : List Nat := [LINE_BER_STAT n, LINE_STAT n, LINE_STICKY n]

theorem portRegs_berRegs (n : Nat) : ∀ a ∈ berRegs n, portRegs n a := by
  simp only [berRegs, List.mem_cons, List.not_mem_nil, or_false, forall_eq_or_imp, forall_eq, portRegs, LINE_BER_STAT, LINE_STAT, LINE_STICKY]
  omega

theorem berRegs_stat (n : Nat) : LINE_STAT n ∈ berRegs n := by simp [berRegs]

theorem berRegs_sticky (n : Nat) : LINE_STICKY n ∈ berRegs n := by simp [berRegs]

section
variable {s : State} {n : Nat} {win : List (Option Nat)} {exp : Nat} {f : Fld} {kOn kOff : Nat}

theorem judgeBer_spoilt (h : win.any Option.isNone = true) : s.judgeBer n win exp f kOn kOff = s := if_pos h

theorem judgeBer_declares (h : win.any Option.isNone = false) (hsum : (berCounts exp).1 * s.stmN n ≤ windowSum win) :
    s.judgeBer n win exp f kOn kOff = s.lineDefect n f true kOn kOff := (if_neg (by rw [h]; decide)).trans (if_pos hsum)

theorem judgeBer_clears (h : win.any Option.isNone = false) (hlow : windowSum win ≤ (berCounts exp).2 * s.stmN n)
    (hsum : windowSum win < (berCounts exp).1 * s.stmN n) : s.judgeBer n win exp f kOn kOff = s.lineDefect n f false kOn kOff :=
  (if_neg (by rw [h]; decide)).trans ((if_neg (by omega)).trans (if_pos hlow))

/-- What judging a detector can come to: its defect declared, cleared, or left as it was. -/
theorem judgeBer_cases (s : State) (n : Nat) (win : List (Option Nat)) (exp : Nat) (f : Fld) (kOn kOff : Nat) :
    s.judgeBer n win exp f kOn kOff = s ∨ ∃ b, s.judgeBer n win exp f kOn kOff = s.lineDefect n f b kOn kOff := by
  unfold State.judgeBer
  split_ifs
  · exact .inl rfl
  · exact .inr ⟨true, rfl⟩
  · exact .inr ⟨false, rfl⟩
  · exact .inl rfl

theorem lines_judgeBer : (s.judgeBer n win exp f kOn kOff).lines = s.lines := by
  obtain h | ⟨b, h⟩ := judgeBer_cases s n win exp f kOn kOff
  · rw [h]
  · rw [h, lines_lineDefect]

end

namespace PortMoved

variable {n : Nat} {W ks : List Nat} {r s : State} (h : PortMoved n W ks r s) (hup : r.lineUp n = true) (hs : LINE_STAT n ∈ W)
  (hk : LINE_STICKY n ∈ W)
include h hup hs hk

theorem judgeBer (win : List (Option Nat)) (exp : Nat) (f : Fld) (kOn kOff : Nat) :
    ∃ ks', PortMoved n W ks' r (s.judgeBer n win exp f kOn kOff) := by
  obtain he | ⟨b, he⟩ := judgeBer_cases s n win exp f kOn kOff
  · rw [he]
    exact ⟨ks, h⟩
  · rw [he]
    exact ⟨_, h.lineDefect hup f b kOn kOff [] hs hk⟩

theorem lineActs_some : ∃ ks', PortMoved n W ks' r (s.lineActs n) := by
  cases hheld : s.lstat n LINE_STAT_HOLDOFF
  case true =>
    rw [lineActs_held s n hheld]
    exact ⟨ks, h⟩
  case false => exact ⟨_, h.lineActs hs hk hheld hup⟩

end PortMoved

/-- What a sub-window's end leaves of the detector whose defect is `f`, its sum shown in `g` and its window `win`. -/
structure BerEnded (n : Nat) (l : LinePort) (f g : Fld) (win : List (Option Nat)) (exp : Nat) (s t : State) : Prop where
  line : ∃ b, t.line n = { l with sendRdi := b }
  shown : t.fld (LINE_BER_STAT n) g = min 65535 (windowSum win)
  declares : win.any Option.isNone = false → (berCounts exp).1 * s.stmN n ≤ windowSum win → t.lstat n f = true
  clears : win.any Option.isNone = false → windowSum win ≤ (berCounts exp).2 * s.stmN n → windowSum win < (berCounts exp).1 * s.stmN n →
    t.lstat n f = false
  holds : win.any Option.isNone = true → t.lstat n f = s.lstat n f
  only : Safety.lineOnly (berRegs n) s t

theorem berEnded {s : State} {n : Fin 8} (hup : s.lineUp n = true) (halone : Safety.alone s) (l : LinePort) {f g : Fld}
    (hf : f.lo + f.len ≤ 12) (hl : f.len = 1) (hg : g.lo + g.len ≤ 32) (hw : g.len = 16) (win : List (Option Nat)) (exp kOn kOff : Nat) :
    BerEnded n l f g win exp s (((s.windowEnded n l g win).judgeBer n win exp f kOn kOff).lineActions n) := by
  set u := s.windowEnded n l g win with hu
  set v := u.judgeBer n win exp f kOn kOff with hv
  have hber : LINE_BER_STAT n ≠ LINE_STICKY n := by unfold LINE_BER_STAT LINE_STICKY; omega
  have hmoved : PortMoved n (berRegs n) [] s u := ((PortMoved.refl s (portRegs_berRegs n)).setLine l).setFld g _ (by simp [berRegs]) hber
  obtain ⟨ks, hjudged⟩ := hmoved.judgeBer hup (berRegs_stat n) (berRegs_sticky n) win exp f kOn kOff
  obtain ⟨ks', hacted⟩ := hjudged.lineActs_some hup (berRegs_stat n) (berRegs_sticky n)
  have hrate : u.stmN n = s.stmN n := by rw [State.stmN, hmoved.cfg, State.stmN]
  have hread (e : Fld) : u.lstat n e = s.lstat n e := flag_setFld_ne _ _ _ _ (by unfold LINE_BER_STAT LINE_STAT; omega)
  have hstat : (v.lineActs n).readyJudged.lstat n f = v.lstat n f := by rw [lstat_readyJudged, lstat_lineActs _ _ (.inl hf)]
  have hset (b : Bool) (h : v = u.lineDefect n f b kOn kOff) : (v.lineActs n).readyJudged.lstat n f = b := by
    rw [hstat, h, lstat_lineDefect_self _ _ _ _ _ _ (by omega) hl]
  rw [lineActions_eq hacted halone]
  refine ⟨?line, ?shown, fun hok hsum => hset true ?_, fun hok hlow hsum => hset false ?_, fun hspoilt => ?_, hacted.lineOnly n.isLt⟩
  case line =>
    obtain ⟨b, hb⟩ := line_lineActs v n
    have hvl : v.line n = l := (line_of_lines lines_judgeBer n).trans (line_setLine s n l)
    exact ⟨b, by rw [line_readyJudged, hb, hvl]⟩
  case shown =>
    have hbeside : Added (· ∈ [LINE_STAT n.val, LINE_STICKY n]) u (v.lineActs n) := by
      refine Added.trans ?_ (added_lineActs v n)
      obtain h | ⟨b, h⟩ := judgeBer_cases u n win exp f kOn kOff
      · rw [hv, h]
        exact .refl u
      · rw [hv, h]
        exact (Added.refl u).lineDefect _ _ _ _ _ (by simp) (by simp)
    rw [fld_of_reg (reg_readyJudged _ (by unfold LINE_BER_STAT TWN_STAT; omega)),
      hbeside.fld (by simp [LINE_BER_STAT, LINE_STAT, LINE_STICKY]), hu, State.windowEnded, fld_setFld_self _ _ hg, hw]
    omega
  · exact judgeBer_declares hok (hrate ▸ hsum)
  · exact judgeBer_clears hok (hrate ▸ hlow) (hrate ▸ hsum)
  · rw [hstat, hv, judgeBer_spoilt hspoilt, hread]

/-- What a port holds once a sub-window of the SF detector, or of the SD detector, has ended with B2 counting in the state `counting`. -/
def LinePort.excEnded (l : LinePort) (counting : Bool) : LinePort :=
  { l with excWin := pushWindow l.excWin (if l.excOk && counting then some l.excSum else none), excSum := 0, excOk := true }

def LinePort.degEnded (l : LinePort) (counting : Bool) : LinePort :=
  { l with degWin := pushWindow l.degWin (if l.degOk && counting then some l.degSum else none), degSum := 0, degOk := true }

section
variable {s : State} {n : Fin 8} (hup : s.lineUp n = true)

theorem fld_windowEnded_degCfg (s : State) (n : Nat) (l : LinePort) (f g : Fld) (win : List (Option Nat)) :
    (s.windowEnded n l g win).fld (LINE_DEG_CFG n) f = s.fld (LINE_DEG_CFG n) f :=
  fld_setFld_ne (s.setLine n l) f g _ (by unfold LINE_BER_STAT LINE_DEG_CFG; omega)

include hup

theorem exec_berSubwindowEnd_exc : exec (.berSubwindowEnd n .exc) s = .next
    (((s.windowEnded n ((s.line n).excEnded (s.b2Counting n)) LINE_BER_STAT_EXC_SUM ((s.line n).excEnded (s.b2Counting n)).excWin).judgeBer n
      ((s.line n).excEnded (s.b2Counting n)).excWin (s.fld (LINE_DEG_CFG n) LINE_DEG_CFG_SF_EXP) LINE_STAT_SF 0x0D 0x0E).lineActions n) := by
  rw [← fld_windowEnded_degCfg]
  exact congrArg Host.Outcome.next (if_neg (by simp [hup]))

theorem exec_berSubwindowEnd_deg : exec (.berSubwindowEnd n .deg) s = .next
    (((s.windowEnded n ((s.line n).degEnded (s.b2Counting n)) LINE_BER_STAT_DEG_SUM ((s.line n).degEnded (s.b2Counting n)).degWin).judgeBer n
      ((s.line n).degEnded (s.b2Counting n)).degWin (s.fld (LINE_DEG_CFG n) LINE_DEG_CFG_SD_EXP) LINE_STAT_SD 0x0F 0x10).lineActions n) := by
  rw [← fld_windowEnded_degCfg]
  exact congrArg Host.Outcome.next (if_neg (by simp [hup]))

end

/-! ### The obligation -/

/-- Settles O24: each source declares dLOS by one lemma, a search aborted by a removal waits for the end of the hold-off, and both detectors
are judged by one lemma over their window. -/
theorem lossOfSignalAndErrorRates : Obligations.LossOfSignalAndErrorRates := by
  unfold Obligations.LossOfSignalAndErrorRates
  refine ⟨⟨?lost, ?aborted, ?ended, fun s n hrun habs => modAbsSettled hrun habs⟩, fun s n hup halone => ⟨?excessive, ?degraded⟩⟩
  case lost =>
    intro s n hup halone hframe hlos hoof hheld htsf hsd htsd i k hi
    have hcalm : s.calm n := by simp [State.calm, hlos, hoof, hheld, htsf, hsd, htsd]
    have hrow : ∃ t, exec i s = .next t ∧ LostRow n k s t := by
      obtain ⟨rfl, rfl, hsrc⟩ | ⟨rfl, rfl, hsrc⟩ | ⟨rfl, rfl⟩ := hi
      · exact lostRow_losBallChange hup halone hcalm hsrc
      · exact lostRow_electricalLos hup halone hcalm hsrc
      · exact lostRow_modAbsChange hup halone hcalm (by simp [State.searches, hframe]; decide)
    obtain ⟨t, ht, h⟩ := hrow
    exact ⟨t, ht, h.los, h.framer, h.ais, h.tsf, h.rdi, h.latched, h.kValid, h.ssmValid, h.raised, h.only⟩
  case aborted =>
    intro s n hup halone hsearch hlos hoof hheld
    exact searchAborted hup halone (by simp [State.searches, hsearch]) hlos hoof
  case ended =>
    intro s n hup halone hheld hlos htsf hsd htsd
    exact holdoffEnded hup halone hheld hlos htsf hsd htsd
  case excessive =>
    have h := berEnded hup halone ((s.line n).excEnded (s.b2Counting n)) (f := LINE_STAT_SF) (g := LINE_BER_STAT_EXC_SUM) (by decide) rfl
      (by decide) rfl ((s.line n).excEnded (s.b2Counting n)).excWin (s.fld (LINE_DEG_CFG n) LINE_DEG_CFG_SF_EXP) 0x0D 0x0E
    obtain ⟨b, hb⟩ := h.line
    refine ⟨_, exec_berSubwindowEnd_exc hup, ?_⟩
    rw [hb]
    exact ⟨rfl, rfl, rfl, h.shown, h.declares, h.clears, h.holds, h.only⟩
  case degraded =>
    have h := berEnded hup halone ((s.line n).degEnded (s.b2Counting n)) (f := LINE_STAT_SD) (g := LINE_BER_STAT_DEG_SUM) (by decide) rfl
      (by decide) rfl ((s.line n).degEnded (s.b2Counting n)).degWin (s.fld (LINE_DEG_CFG n) LINE_DEG_CFG_SD_EXP) 0x0F 0x10
    obtain ⟨b, hb⟩ := h.line
    refine ⟨_, exec_berSubwindowEnd_deg hup, ?_⟩
    rw [hb]
    exact ⟨rfl, rfl, rfl, h.shown, h.declares, h.clears, h.holds, h.only⟩

end Sys2Proof.Machine
end

section
/-! PROOF of O27: enabling and disabling a line port, and the K bytes to be sent. -/

namespace Sys2Proof.Machine

/-! ### A service's write to a port's register (R410, R272) -/

/-- The low bits that a write masks read the value written. -/
theorem get_maskedWrite {k : Nat} (hk : k ≤ 32) (w x : Word) :
    (⟨0, k⟩ : Fld).get ((w &&& ~~~BitVec.ofNat 32 (2 ^ k - 1)) ||| (x &&& BitVec.ofNat 32 (2 ^ k - 1))) = x.toNat % 2 ^ k := by
  apply Nat.eq_of_testBit_eq
  intro i
  rw [Fld.testBit_get, Nat.testBit_mod_two_pow]
  by_cases hi : i < k
  · have h32 : i < 32 := by omega
    have hmask : (BitVec.ofNat 32 (2 ^ k - 1)).getLsbD i = true := by
      rw [BitVec.getLsbD_ofNat, Nat.testBit_two_pow_sub_one]
      simp [hi, h32]
    simp only [BitVec.getLsbD_or, BitVec.getLsbD_and, BitVec.getLsbD_not, hmask, Nat.zero_add, hi, h32, decide_true, Bool.true_and,
      Bool.and_true, Bool.not_true, Bool.and_false, Bool.false_or]
    rfl
  · simp [hi]

section
variable (s : State) (a : Nat) (mask value : Word)

theorem added_serviceWrite : Added (· = a) s (s.serviceWrite a mask value) := by
  have h : Added (· = a) s (s.setReg a ((s.reg a &&& ~~~mask) ||| (value &&& mask))) := (Added.refl s).setReg _ _ rfl
  unfold State.serviceWrite State.mirror
  split
  · exact ⟨⟨h.regs, h.sp, h.ld⟩, h.chan, h.mem⟩
  · exact h

theorem reg_serviceWrite_self : (s.serviceWrite a mask value).reg a = (s.reg a &&& ~~~mask) ||| (value &&& mask) := by
  unfold State.serviceWrite State.mirror
  split
  · exact reg_setReg_self s a _
  · exact reg_setReg_self s a _

theorem lines_serviceWrite : (s.serviceWrite a mask value).lines = s.lines := by
  unfold State.serviceWrite State.mirror
  split <;> rfl

theorem chan_serviceWrite : (s.serviceWrite a mask value).chan = s.chan := by
  unfold State.serviceWrite State.mirror
  split <;> rfl

theorem mtx_serviceWrite : (s.serviceWrite a mask value).mtx = s.mtx := by
  unfold State.serviceWrite State.mirror
  split <;> rfl

end

/-! ### A port put back to its start (R119, R139) -/

/-- Where the low nine bits of a register read 0, every field among them does. -/
theorem flag_of_low {s : State} {a : Nat} (h : s.fld a ⟨0, 9⟩ = 0) {f : Fld} (hf : f.lo + f.len ≤ 9) : s.flag a f = false := by
  have hbit (i : Nat) (hi : i < 9) : (s.reg a).getLsbD i = false := by
    have ht := Fld.testBit_get ⟨0, 9⟩ (s.reg a) i
    rw [← State.fld, h] at ht
    simpa [hi] using ht.symm
  have hzero : s.fld a f = 0 := by
    apply Nat.eq_of_testBit_eq
    intro i
    rw [State.fld, Fld.testBit_get, Nat.zero_testBit]
    by_cases hi : i < f.len
    · rw [hbit _ (by omega), Bool.and_false]
    · simp [hi]
  simp [State.flag, hzero]

section
variable (s : State) (n st : Nat)

/-- The LINE_STAT of a port put back to its start, its other registers to follow. -/
def State.defectsCleared (s : State) (n : Nat) : State := (s.setFld (LINE_STAT n) ⟨0, 9⟩ 0).setFlag (LINE_STAT n) LINE_STAT_HOLDOFF false

theorem fld_clearLine_stat (f : Fld) : (s.clearLine n st).fld (LINE_STAT n) f = (s.defectsCleared n).fld (LINE_STAT n) f := by
  have h : Added (· ∈ [LINE_FRM_STAT n, LINE_K_RX n, LINE_S1 n]) (s.defectsCleared n) (s.clearLine n st) :=
    (((((Added.refl _).setFld _ _ _ (by simp)).setFld _ _ _ (by simp)).setFlag _ _ _ (by simp)).setFlag _ _ _ (by simp)).setLine _
  exact h.fld (by simp [LINE_STAT, LINE_FRM_STAT, LINE_K_RX, LINE_S1]) f

theorem low_clearLine : (s.clearLine n st).fld (LINE_STAT n) ⟨0, 9⟩ = 0 := by
  rw [fld_clearLine_stat, State.defectsCleared, State.setFlag, fld_setFld_other _ _ (by decide), fld_setFld_self _ _ (by decide)]
  rfl

theorem holdoff_clearLine : (s.clearLine n st).lstat n LINE_STAT_HOLDOFF = false := by
  rw [State.lstat, State.flag, fld_clearLine_stat, ← State.flag]
  exact flag_setFlag_self _ _ (by decide) rfl _

theorem lstat_clearLine {f : Fld} (hf : 9 ≤ f.lo ∧ f.lo + f.len ≤ 11 ∨ 12 ≤ f.lo) : (s.clearLine n st).lstat n f = s.lstat n f := by
  rw [State.lstat, State.flag, fld_clearLine_stat, State.defectsCleared, State.setFlag,
    fld_setFld_other _ _ (by simp only [LINE_STAT_HOLDOFF]; omega), fld_setFld_other _ _ (by simp only; omega), State.lstat, State.flag]

theorem framer_clearLine (hst : st < 8) : (s.clearLine n st).fld (LINE_FRM_STAT n) LINE_FRM_STAT_STATE = st := by
  have h : Added (· ∈ [LINE_K_RX n, LINE_S1 n])
      (((s.defectsCleared n).setFld (LINE_FRM_STAT n) LINE_FRM_STAT_STATE st).setFld (LINE_FRM_STAT n) LINE_FRM_STAT_LOFI 0) (s.clearLine n st) :=
    (((Added.refl _).setFlag _ _ _ (by simp)).setFlag _ _ _ (by simp)).setLine _
  rw [h.fld (by simp [LINE_FRM_STAT, LINE_K_RX, LINE_S1]), fld_setFld_other _ _ (by decide), fld_setFld_self _ _ (by decide)]
  exact Nat.mod_eq_of_lt hst

theorem elec_clearLine : ((s.clearLine n st).line n).elec = (s.line n).elec := by
  unfold State.clearLine
  dsimp only
  rw [line_setLine]
  simp only [State.line, lines_setFlag, lines_setFld]

end

theorem PortMoved.clearLine {n : Nat} {ks : List Nat} {r s : State} (h : PortMoved n (Safety.lineRegs n) ks r s) (st : Nat) :
    PortMoved n (Safety.lineRegs n) ks r (s.clearLine n st) := by
  have hstat : LINE_STAT n ≠ LINE_STICKY n := (lineSticky_ne_lineStat n).symm
  have hfrm : LINE_FRM_STAT n ≠ LINE_STICKY n := by unfold LINE_FRM_STAT LINE_STICKY; omega
  have hk : LINE_K_RX n ≠ LINE_STICKY n := by unfold LINE_K_RX LINE_STICKY; omega
  have h1 : LINE_S1 n ≠ LINE_STICKY n := by unfold LINE_S1 LINE_STICKY; omega
  exact ((((((h.setFld _ _ (lineRegs_stat n) hstat).setFlag _ _ (lineRegs_stat n) hstat).setFld _ _ (lineRegs_framer n) hfrm).setFld _ _
    (lineRegs_framer n) hfrm).setFlag _ _ (lineRegs_kRx n) hk).setFlag _ _ (lineRegs_s1 n) h1).setLine _

/-- The event of enabling and disabling is raised whatever EN says (R139). -/
theorem PortMoved.enEvent {n : Nat} {W ks : List Nat} {r s : State} (h : PortMoved n W ks r s) (hd : r.sp.dormant = false) (d : List Word) :
    PortMoved n W (ks ++ [0x00]) r (s.lineEvent n 0x00 d) where
  toAdded := h.toAdded.portEvent 0x00 d
  own := h.own
  raised := by
    rw [State.lineEvent, if_pos (.inl rfl), Safety.lineEvents, List.map_append]
    exact raised_trans h.raised (raised_raise _ _ _ rfl (by rw [h.sp, hd]))
  latched j hj := (flag_of_reg (reg_portEvent ..) _).trans (h.latched j hj)
  mtx := (mtx_portEvent ..).trans h.mtx

/-! ### The matrix's own state is none of a port's -/

theorem lstat_setMtx (s : State) (m : Matrix) (n : Nat) (f : Fld) : (s.setMtx m).lstat n f = s.lstat n f := rfl

theorem line_setMtx (s : State) (m : Matrix) (n : Nat) : (s.setMtx m).line n = s.line n := rfl

theorem alone_setMtx {s : State} (h : Safety.alone s) (m : Matrix) : Safety.alone (s.setMtx m) := h

/-! ### EN is written (R139, R410) -/

/-- The port's EN as a service has written it, the port still to follow. -/
def State.enWritten (s : State) (n : Nat) (en : Bool) : State := s.serviceWrite (LINE_CFG n) 1 (w32 (bit en))

section
variable (s : State) (n : Nat) (en : Bool)

theorem added_enWritten : Added (· = LINE_CFG n) s (s.enWritten n en) := added_serviceWrite ..

theorem enabled_enWritten : (s.enWritten n en).flag (LINE_CFG n) LINE_CFG_EN = en := by
  have h : (⟨0, 1⟩ : Fld).get ((s.reg (LINE_CFG n) &&& ~~~1) ||| (w32 (bit en) &&& 1)) = (w32 (bit en)).toNat % 2 ^ 1 :=
    get_maskedWrite (by decide) _ _
  rw [State.flag, State.fld, State.enWritten, reg_serviceWrite_self, show LINE_CFG_EN = ⟨0, 1⟩ from rfl, h]
  cases en <;> decide

theorem lstat_enWritten (f : Fld) : (s.enWritten n en).lstat n f = s.lstat n f :=
  (added_enWritten s n en).flag (by unfold LINE_STAT LINE_CFG; omega) f

theorem alone_enWritten {n : Fin 8} (h : Safety.alone s) : Safety.alone (s.enWritten n en) := by
  have hf := added_enWritten s n en
  obtain ⟨hpair, hrole, hgrp⟩ := h
  refine ⟨?_, ?_, fun g hg => ?_⟩
  · rw [State.paired, hf.flag (by unfold SUP_FIT_CFG LINE_CFG; omega), ← State.paired, hpair]
  · rw [State.role, hf.fld (by unfold TWN_STAT LINE_CFG; omega), ← State.role, hrole, State.live, State.live,
      hf.inState (by unfold SUP_STATE LINE_CFG; omega)]
  · rw [hf.flag (by unfold APS_CFG LINE_CFG; omega), hgrp g hg]

theorem lines_enWritten : (s.enWritten n en).lines = s.lines := lines_serviceWrite ..

theorem lineUp_enWritten_true : (s.enWritten n true).lineUp n = s.running (islLP n) := by
  rw [State.lineUp, (added_enWritten s n true).running (by unfold SUP_ISLAND_STAT LINE_CFG; omega), enabled_enWritten, Bool.and_true]

/-- A write that changes EN moves the port. -/
theorem lineEnWrite_changed (h : s.flag (LINE_CFG n) LINE_CFG_EN = !en) :
    s.lineEnWrite n en = if en then (s.enWritten n en).enableLine n else (s.enWritten n en).disableLine n := by
  unfold State.lineEnWrite
  dsimp only
  rw [if_neg (by rw [h]; cases en <;> decide)]
  rfl

end

/-- What a port does on its own once EN has been written shows in its own registers and LINE_CFG. -/
theorem lineOnly_enWritten {v t : State} {n : Fin 8} {en : Bool} (h : Safety.lineOnly (Safety.lineRegs n) (v.enWritten n en) t) :
    Safety.lineOnly (LINE_CFG n :: Safety.lineRegs n) v t := by
  have hf := added_enWritten v n en
  obtain ⟨hregs, hbits, hmem⟩ := h
  refine ⟨fun a ha => ?_, fun j hj => ?_, fun a => ?_⟩
  · simp only [List.mem_cons, not_or] at ha
    exact (hregs a (by simp only [List.mem_cons, not_or]; exact ⟨ha.1, ha.2.2⟩)).trans (hf.regs a ha.2.1)
  · exact (hbits j hj).trans (hf.bitAt (by unfold TWN_STAT LINE_CFG; omega) j)
  · exact (hmem a).trans (sameMem_of_mem hf.mem a)

/-! ### The port is disabled -/

/-- What disabling the port leaves, from the state `x` in which EN reads 0. -/
structure LineDisabled (n : Nat) (x t : State) : Prop where
  disabled : t.lstat n LINE_STAT_DISABLED = true
  defects : t.fld (LINE_STAT n) ⟨0, 9⟩ = 0
  txdis : t.lstat n LINE_STAT_TXDIS = true
  ais : t.lstat n LINE_STAT_AIS_OUT = true
  tsf : t.lstat n LINE_STAT_TSF = true
  framer : t.fld (LINE_FRM_STAT n) LINE_FRM_STAT_STATE = frDisabled
  raised : Safety.raised (Safety.lineEvents n [0x00]) x t
  only : Safety.lineOnly (Safety.lineRegs n) x t
  enabled : t.flag (LINE_CFG n) LINE_CFG_EN = false
  mtx : t.mtx = x.mtx

/-- The disabled port before its consequent actions. -/
def State.halted (s : State) (n : Nat) : State :=
  (((s.clearLine n frDisabled).setLstat n LINE_STAT_DISABLED true).setFld (LINE_FRM_STAT n) LINE_FRM_STAT_ALS alsOn).updateLaser n

section
variable {s : State} {n : Nat}

theorem fld_halted {f : Fld} (hf : f.lo + f.len ≤ 15) : (s.halted n).fld (LINE_STAT n) f = (s.clearLine n frDisabled).fld (LINE_STAT n) f := by
  rw [State.halted, State.updateLaser, State.setFlag, fld_setFld_other _ _ (by simp only [LINE_STAT_TXDIS]; omega),
    fld_setFld_ne _ _ _ _ (frmStat_ne_lineStat n), fld_setLstat_apart _ _ _ (by simp only [LINE_STAT_DISABLED]; omega)]

theorem disabled_halted : (s.halted n).lstat n LINE_STAT_DISABLED = true := by
  rw [State.halted, State.lstat, State.updateLaser, flag_setFlag_other _ _ (by decide), flag_setFld_ne _ _ _ _ (frmStat_ne_lineStat n)]
  exact lstat_setLstat_self _ n true (by decide) rfl

theorem framer_halted : (s.halted n).fld (LINE_FRM_STAT n) LINE_FRM_STAT_STATE = frDisabled := by
  have h : Added (· ∈ [LINE_STAT n, LINE_STICKY n]) (s.clearLine n frDisabled) ((s.clearLine n frDisabled).setLstat n LINE_STAT_DISABLED true) :=
    (Added.refl _).setLstat _ _ (by simp) (by simp)
  rw [State.halted, State.updateLaser, State.setFlag, fld_setFld_ne _ _ _ _ (frmStat_ne_lineStat n).symm, fld_setFld_other _ _ (by decide),
    h.fld (by simp [LINE_FRM_STAT, LINE_STAT, LINE_STICKY]), framer_clearLine _ _ _ (by decide)]

theorem PortMoved.halted {ks : List Nat} {r : State} (h : PortMoved n (Safety.lineRegs n) ks r s) :
    PortMoved n (Safety.lineRegs n) ks r (s.halted n) :=
  (((h.clearLine frDisabled).setLstat _ _ (lineRegs_stat n) (lineRegs_sticky n)).setFld _ _ (lineRegs_framer n)
    (by unfold LINE_FRM_STAT LINE_STICKY; omega)).updateLaser (lineRegs_stat n)

theorem txdis_halted (hoff : s.flag (LINE_CFG n) LINE_CFG_EN = false) : (s.halted n).lstat n LINE_STAT_TXDIS = true := by
  have hcfg := ((((PortMoved.refl s (portRegs_lineRegs n)).clearLine frDisabled).setLstat LINE_STAT_DISABLED true (lineRegs_stat n)
    (lineRegs_sticky n)).setFld LINE_FRM_STAT_ALS alsOn (lineRegs_framer n) (by unfold LINE_FRM_STAT LINE_STICKY; omega)).enabled
  rw [State.halted, State.lstat, State.updateLaser, flag_setFlag_self _ _ (by decide) rfl, hcfg, hoff]
  rfl

end

theorem lineDisabled {x : State} {n : Fin 8} (hoff : x.flag (LINE_CFG n) LINE_CFG_EN = false) (hd : x.sp.dormant = false)
    (halone : Safety.alone x) : LineDisabled n x (x.disableLine n) := by
  set u := x.lineEvent n 0x00 [w32 0] with hu
  have hmoved : PortMoved n (Safety.lineRegs n) [0x00] x (u.halted n) := ((PortMoved.refl x (portRegs_lineRegs n)).enEvent hd _).halted
  have hheld : (u.halted n).lstat n LINE_STAT_HOLDOFF = false := by
    rw [State.lstat, State.flag, fld_halted (by decide), ← State.flag, ← State.lstat, holdoff_clearLine]
  have hoff' : (u.halted n).flag (LINE_CFG n) LINE_CFG_EN = false := hmoved.enabled.trans hoff
  have hoffu : u.flag (LINE_CFG n) LINE_CFG_EN = false := (flag_of_reg (reg_portEvent ..) _).trans hoff
  have hacted := hmoved.lineActs_off (lineRegs_stat n) (lineRegs_sticky n) hheld hoff
  have hend : x.disableLine n = ((u.halted n).lineActs n).readyJudged := lineActions_eq hacted halone
  rw [hend]
  exact {
    disabled := by rw [lstat_readyJudged, lstat_lineActs _ _ (by decide), disabled_halted]
    defects := by
      rw [fld_of_reg (reg_readyJudged _ (by unfold LINE_STAT TWN_STAT; omega)), fld_lineActs _ _ (by decide), fld_halted (by decide), low_clearLine]
    txdis := by rw [lstat_readyJudged, lstat_lineActs _ _ (by decide), txdis_halted hoffu]
    ais := by simp [lstat_readyJudged, ais_lineActs _ _ hheld, State.wantsAis, hoff']
    tsf := by simp [lstat_readyJudged, tsf_lineActs _ _ hheld, State.wantsTsf, hoff']
    framer := by
      rw [fld_of_reg (reg_readyJudged _ (by unfold LINE_FRM_STAT TWN_STAT; omega)),
        (added_lineActs _ n).fld (by simp [LINE_FRM_STAT, LINE_STAT, LINE_STICKY]), framer_halted]
    raised := hacted.raised_readyJudged
    only := hacted.lineOnly n.isLt
    enabled := (flag_of_reg (reg_readyJudged _ (by unfold LINE_CFG TWN_STAT; omega)) _).trans (hacted.enabled.trans hoff)
    mtx := (mtx_readyJudged _).trans hacted.mtx }

/-! ### The port is enabled -/

section
variable {s : State} {n : Nat} (hlow : s.fld (LINE_STAT n) ⟨0, 9⟩ = 0)
include hlow

theorem fld_leaveDark_stat (f : Fld) : (s.leaveDark n).fld (LINE_STAT n) f = s.fld (LINE_STAT n) f := by
  unfold State.leaveDark
  split
  · exact fld_setFramer_stat (flag_of_low hlow (by decide)) (by decide) f
  · rfl

/-- No source reports a loss: nothing changes but that Dark may end (R118, R119). -/
theorem updateLos_found (hup : s.lineUp n = true) (hc : s.losCause n = 0) : s.updateLos n = s.leaveDark n := by
  have hlos : s.lstat n LINE_STAT_LOS = false := flag_of_low hlow (by decide)
  have hlow' : (s.leaveDark n).fld (LINE_STAT n) ⟨0, 9⟩ = 0 := (fld_leaveDark_stat hlow _).trans hlow
  have hthawed : (s.leaveDark n).lineFreeze n = s.leaveDark n := if_neg (by
    simp [State.lstat, flag_of_low hlow' (f := LINE_STAT_LOS) (by decide), flag_of_low hlow' (f := LINE_STAT_LOF) (by decide),
      flag_of_low hlow' (f := LINE_STAT_MSAIS) (by decide)])
  unfold State.updateLos
  rw [if_neg (by simp [hup])]
  simp only [hc, ne_eq, not_true_eq_false, decide_false, if_true, if_false, lineDefect_same _ _ _ _ _ _ hlos, hthawed]

/-- Dark ends where the receive CDR is locked. -/
theorem framer_leaveDark (hdark : s.fld (LINE_FRM_STAT n) LINE_FRM_STAT_STATE = frDark) :
    (s.leaveDark n).fld (LINE_FRM_STAT n) LINE_FRM_STAT_STATE = if s.lstat n LINE_STAT_CDR_LOCK then frSearch else frDark := by
  have hlos : s.lstat n LINE_STAT_LOS = false := flag_of_low hlow (by decide)
  unfold State.leaveDark
  cases hcdr : s.lstat n LINE_STAT_CDR_LOCK
  · rw [if_neg (by simp)]
    exact hdark
  · rw [if_pos (by simp [hdark, hlos])]
    exact framer_setFramer _ _ _ (by decide)

theorem PortMoved.leaveDark {W ks : List Nat} {r : State} (h : PortMoved n W ks r s) (hW : LINE_FRM_STAT n ∈ W) :
    PortMoved n W ks r (s.leaveDark n) := by
  unfold State.leaveDark
  split
  · exact h.setFramer_quiet (flag_of_low hlow (by decide)) (by decide) hW
  · exact h

end

/-- The enabled port before its loss of signal is judged. -/
def State.started (s : State) (n : Nat) : State := ((s.clearLine n frDark).setLstat n LINE_STAT_DISABLED false).updateLaser n

section
variable {s : State} {n : Nat}

theorem fld_started {f : Fld} (hf : f.lo + f.len ≤ 15 ∨ 16 ≤ f.lo ∧ f.lo + f.len ≤ 17) :
    (s.started n).fld (LINE_STAT n) f = (s.clearLine n frDark).fld (LINE_STAT n) f := by
  rw [State.started, State.updateLaser, State.setFlag, fld_setFld_other _ _ (by simp only [LINE_STAT_TXDIS]; omega),
    fld_setLstat_apart _ _ _ (by simp only [LINE_STAT_DISABLED]; omega)]

theorem lstat_started {f : Fld} (hf : 9 ≤ f.lo ∧ f.lo + f.len ≤ 11 ∨ 12 ≤ f.lo ∧ f.lo + f.len ≤ 15 ∨ 16 ≤ f.lo ∧ f.lo + f.len ≤ 17) :
    (s.started n).lstat n f = s.lstat n f := by
  rw [State.lstat, State.flag, fld_started (by omega), ← State.flag, ← State.lstat, lstat_clearLine _ _ _ (by omega)]

theorem disabled_started : (s.started n).lstat n LINE_STAT_DISABLED = false := by
  rw [State.started, State.lstat, State.updateLaser, flag_setFlag_other _ _ (by decide)]
  exact lstat_setLstat_self _ n false (by decide) rfl

theorem framer_started : (s.started n).fld (LINE_FRM_STAT n) LINE_FRM_STAT_STATE = frDark := by
  have h : Added (· ∈ [LINE_STAT n, LINE_STICKY n]) (s.clearLine n frDark) (s.started n) :=
    ((Added.refl _).setLstat _ _ (by simp) (by simp)).setFlag _ _ _ (by simp)
  rw [h.fld (by simp [LINE_FRM_STAT, LINE_STAT, LINE_STICKY]), framer_clearLine _ _ _ (by decide)]

theorem elec_started : ((s.started n).line n).elec = (s.line n).elec := by
  have h : (s.started n).lines = (s.clearLine n frDark).lines := by
    rw [State.started, State.updateLaser, lines_setFlag, lines_setLstat]
  rw [line_of_lines h, elec_clearLine]

theorem PortMoved.started {ks : List Nat} {r : State} (h : PortMoved n (Safety.lineRegs n) ks r s) :
    PortMoved n (Safety.lineRegs n) ks r (s.started n) :=
  ((h.clearLine frDark).setLstat _ _ (lineRegs_stat n) (lineRegs_sticky n)).updateLaser (lineRegs_stat n)

end

/-- What enabling the port leaves, from the state `x` in which EN reads 1. -/
structure LineEnabled (n : Nat) (x t : State) : Prop where
  enabled : t.flag (LINE_CFG n) LINE_CFG_EN = true
  disabled : t.lstat n LINE_STAT_DISABLED = false
  raised : Safety.raised (Safety.lineEvents n ([0x00] ++ (if x.lstat n LINE_STAT_TSF then [0x21] else [])
    ++ if x.lstat n LINE_STAT_TSD then [0x23] else [])) x t
  framer : t.fld (LINE_FRM_STAT n) LINE_FRM_STAT_STATE = if x.lstat n LINE_STAT_CDR_LOCK then frSearch else frDark
  only : Safety.lineOnly (Safety.lineRegs n) x t
  mtx : t.mtx = x.mtx

theorem lineEnabled {x : State} {n : Fin 8} (hup : x.lineUp n = true) (halone : Safety.alone x) (hpin : x.lstat n LINE_STAT_LOS_PIN = false)
    (helec : (x.line n).elec = false) (habs : x.lstat n LINE_STAT_MOD_ABS = false) : LineEnabled n x (x.enableLine n) := by
  set u := x.lineEvent n 0x00 [w32 1] with hu
  set e := (u.started n).leaveDark n with he
  have hread (f : Fld) : u.lstat n f = x.lstat n f := flag_of_reg (reg_portEvent ..) f
  have hmoved : PortMoved n (Safety.lineRegs n) [0x00] x (u.started n) :=
    ((PortMoved.refl x (portRegs_lineRegs n)).enEvent (not_dormant_of_lineUp hup) _).started
  have hlow : (u.started n).fld (LINE_STAT n) ⟨0, 9⟩ = 0 := by rw [fld_started (by decide), low_clearLine]
  have hcause : (u.started n).losCause n = 0 := by
    have hpin' : (u.started n).lstat n LINE_STAT_LOS_PIN = false := by rw [lstat_started (by decide), hread, hpin]
    have habs' : (u.started n).lstat n LINE_STAT_MOD_ABS = false := by rw [lstat_started (by decide), hread, habs]
    have helec' : ((u.started n).line n).elec = false := by rw [elec_started, line_of_lines (lines_portEvent ..), helec]
    simp [State.losCause, hpin', habs', helec', bit]
  have hlos : (u.started n).updateLos n = e := updateLos_found hlow (hmoved.lineUp.trans hup) hcause
  have hmovede : PortMoved n (Safety.lineRegs n) [0x00] x e := hmoved.leaveDark hlow (lineRegs_framer n)
  have hstat (f : Fld) : e.lstat n f = (u.started n).lstat n f := by
    rw [State.lstat, State.flag, fld_leaveDark_stat hlow, State.lstat, State.flag]
  have hlowe : e.fld (LINE_STAT n) ⟨0, 9⟩ = 0 := (fld_leaveDark_stat hlow _).trans hlow
  have hclear (f : Fld) (hf : f.lo + f.len ≤ 9) : e.lstat n f = false := flag_of_low hlowe hf
  have hheld : e.lstat n LINE_STAT_HOLDOFF = false := by
    rw [hstat, State.lstat, State.flag, fld_started (by decide), ← State.flag, ← State.lstat, holdoff_clearLine]
  have hfail : e.lineFail n = false := by
    simp [State.lineFail, State.timActs, hclear LINE_STAT_LOS (by decide), hclear LINE_STAT_LOF (by decide), hclear LINE_STAT_TIM (by decide),
      hclear LINE_STAT_MSAIS (by decide)]
  have hen : e.flag (LINE_CFG n) LINE_CFG_EN = true := hmovede.enabled.trans (enabled_of_lineUp hup)
  have hks : e.actKs n = (if x.lstat n LINE_STAT_TSF then [0x21] else []) ++ if x.lstat n LINE_STAT_TSD then [0x23] else [] := by
    have htsf : e.lstat n LINE_STAT_TSF = x.lstat n LINE_STAT_TSF := by rw [hstat, lstat_started (by decide), hread]
    have htsd : e.lstat n LINE_STAT_TSD = x.lstat n LINE_STAT_TSD := by rw [hstat, lstat_started (by decide), hread]
    rw [State.actKs, State.wantsTsf, State.wantsTsd, htsf, htsd, hen, hfail, hclear LINE_STAT_SF (by decide), hclear LINE_STAT_SD (by decide)]
    cases x.lstat n LINE_STAT_TSF <;> cases x.lstat n LINE_STAT_TSD <;> rfl
  have hacted := hmovede.lineActs (lineRegs_stat n) (lineRegs_sticky n) hheld hup
  rw [hks, ← List.append_assoc] at hacted
  have hend : x.enableLine n = (e.lineActs n).readyJudged := by
    rw [← lineActions_eq hacted halone, ← hlos]
    rfl
  rw [hend]
  exact {
    enabled := (flag_of_reg (reg_readyJudged _ (by unfold LINE_CFG TWN_STAT; omega)) _).trans (hacted.enabled.trans (enabled_of_lineUp hup))
    disabled := by rw [lstat_readyJudged, lstat_lineActs _ _ (by decide), hstat, disabled_started]
    raised := hacted.raised_readyJudged
    framer := by
      rw [fld_of_reg (reg_readyJudged _ (by unfold LINE_FRM_STAT TWN_STAT; omega)),
        (added_lineActs _ n).fld (by simp [LINE_FRM_STAT, LINE_STAT, LINE_STICKY]), framer_leaveDark hlow framer_started,
        lstat_started (by decide), hread]
    only := hacted.lineOnly n.isLt
    mtx := (mtx_readyJudged _).trans hacted.mtx }

/-! ### Maintenance is refused (R99, R350, R410) -/

/-- A refusal met by the bridge is recorded by the matrix and by the bridge. -/
theorem logAccess_bridge_refused {s : State} (h : s.mtx.resp = rRefused) (hm : s.running islMX = true) (id a : Nat) (write : Bool) :
    s.logAccess 7 id write a = (s.errorResponse 7 (s.target a) rRefused id write a 0).bridgeError a rRefused write := by
  simp [State.logAccess, h, hm, rRefused, rOkay]

/-- A write that maintenance may not make is refused by the matrix and noted by the bridge. -/
theorem commandWrite_maintenance_refused {s v : State} (h : Safety.granted .maintenance s v) {isl : Nat} (hi : v.running isl = true)
    (addr : Nat) (f : State → State) {t : State} (ht : t = (s.settleFor .maintenance).commandWrite .maintenance true false isl addr f) :
    t.mtx.resp = rRefused ∧ t.reg MTX_ERR_ADDR = w32 addr
      ∧ Safety.onlyRegs [MTX_ERR_LAST, MTX_ERR_ADDR, EVT_MGMT_REF, EVT_MGMT_REF_CODE] v t ∧ Safety.sameMem v t := by
  obtain ⟨hv, hm, heh, hunlocked, -⟩ := h
  obtain ⟨m, hmove, -⟩ := movePointer_eq (v.respond rOkay) 5 (writerPort .maintenance)
  have hm' : (v.respond rOkay).running islMX = true := hm
  have hi' : (v.respond rOkay).running isl = true := hi
  set u := (v.setMtx m).respond rRefused with hu
  have hlogged : t = (u.errorResponse 7 (u.target addr) rRefused 0 true addr 0).bridgeError addr rRefused true := by
    rw [ht, ← hv, State.commandWrite, heh, hunlocked, if_neg (by decide), if_neg (by decide), State.judgedWrite, hm', hi', if_neg (by simp),
      Bool.false_and, if_neg (by decide), hmove]
    exact logAccess_bridge_refused (s := u) rfl hm 0 addr true
  obtain ⟨-, haddr, -, hregs, hmem⟩ := errorResponse_spec u 7 0 addr rRefused 0 true (u.target addr) rfl (not_dormant_of_running (s := u) hm) rfl
  obtain ⟨-, -, hregs', hmem'⟩ := bridgeError_spec _ addr rRefused true hlogged
  refine ⟨?_, ?_, fun a ha => ?_, fun a => (hmem' a).trans (hmem a)⟩
  · rw [hlogged, State.bridgeError]
    exact congrArg Matrix.resp (mtx_raiseFirst ..)
  · rw [hregs' _ (by decide), haddr]
  · simp only [List.mem_cons, List.not_mem_nil, or_false, not_or] at ha
    exact (hregs' a (by simp [ha])).trans (hregs a (by simp [ha]))

/-! ### The K bytes to be sent (R131) -/

/-- What a write of the K bytes leaves. -/
theorem kTxWritten (v : State) (n : Nat) (x : Word) (slot : Bool) :
    (v.kTxWrite n x slot).fld (LINE_K_TX n) ⟨0, 16⟩ = x.toNat % 65536 ∧ ((v.kTxWrite n x slot).line n).kLate = slot
      ∧ (slot = true → ((v.kTxWrite n x slot).line n).kNow = if (v.line n).kLate then (v.line n).kNow else v.reg (LINE_K_TX n))
      ∧ Safety.onlyRegs [LINE_K_TX n] v (v.kTxWrite n x slot) ∧ Safety.sameMem v (v.kTxWrite n x slot) ∧ (v.kTxWrite n x slot).chan = v.chan := by
  have hadded := added_serviceWrite v (LINE_K_TX n) 0xFFFF x
  have hline : (v.kTxWrite n x slot).line n = _ := line_setLine ..
  refine ⟨?_, by rw [hline], fun h => by rw [hline, h]; rfl, fun a ha => ?_, sameMem_of_mem hadded.mem, chan_serviceWrite ..⟩
  · have h : (v.kTxWrite n x slot).reg (LINE_K_TX n) = (v.reg (LINE_K_TX n) &&& ~~~0xFFFF) ||| (x &&& 0xFFFF) := reg_serviceWrite_self ..
    rw [State.fld, h]
    exact get_maskedWrite (k := 16) (by decide) _ _
  · exact hadded.regs a (by simpa using ha)

/-! ### The rows -/

section
variable {s v : State} {n : Fin 8} {q : Fin 2} (hg : Safety.granted (.service q) s v) (hrun : v.running (islLP n) = true)
include hg hrun

/-- A service's write of EN leaves the answer alone and acts on the state that stands, but for the matrix. -/
theorem lineEnWrite_granted (en : Bool) (hmtx : ∀ m : Matrix, ((v.setMtx m).lineEnWrite n en).mtx = m) :
    ∃ m : Matrix, m.resp = rOkay ∧ (s.settleFor (.service q)).commandWrite (.service q) true false (islLP n) (LINE_CFG n)
      (fun s => s.lineEnWrite n en) = (v.setMtx m).lineEnWrite n en :=
  commandWrite_granted hg hrun false (LINE_CFG n) (f := fun s => s.lineEnWrite n en) fun m hm => (congrArg Matrix.resp (hmtx m)).trans hm

theorem exec_lineEnable (hoff : v.flag (LINE_CFG n) LINE_CFG_EN = false) (halone : Safety.alone v) (hpin : v.lstat n LINE_STAT_LOS_PIN = false)
    (helec : (v.line n).elec = false) (habs : v.lstat n LINE_STAT_MOD_ABS = false) :
    ∃ t, exec (.lineEnable n (.service q)) s = .next t ∧ t.mtx.resp = rOkay ∧ ∃ m : Matrix, LineEnabled n ((v.setMtx m).enWritten n true) t := by
  have hspec (m : Matrix) : LineEnabled n ((v.setMtx m).enWritten n true) ((v.setMtx m).lineEnWrite n true) := by
    rw [lineEnWrite_changed _ _ _ (by rw [flag_setMtx, hoff]; rfl), if_pos rfl]
    refine lineEnabled ?up (alone_enWritten _ _ (alone_setMtx halone m)) ?pin ?elec ?abs
    case up => rw [lineUp_enWritten_true, running_setMtx, hrun]
    case pin => rw [lstat_enWritten, lstat_setMtx, hpin]
    case elec => rw [line_of_lines (lines_enWritten ..), line_setMtx, helec]
    case abs => rw [lstat_enWritten, lstat_setMtx, habs]
  obtain ⟨m, hm, hwrite⟩ := lineEnWrite_granted hg hrun true fun m => (hspec m).mtx.trans (mtx_serviceWrite ..)
  exact ⟨_, congrArg Host.Outcome.next hwrite, by rw [(hspec m).mtx, State.enWritten, mtx_serviceWrite]; exact hm, m, hspec m⟩

theorem exec_lineDisable (hon : v.flag (LINE_CFG n) LINE_CFG_EN = true) (halone : Safety.alone v) :
    ∃ t, exec (.lineDisable n (.service q)) s = .next t ∧ t.mtx.resp = rOkay ∧ ∃ m : Matrix, LineDisabled n ((v.setMtx m).enWritten n false) t := by
  have hspec (m : Matrix) : LineDisabled n ((v.setMtx m).enWritten n false) ((v.setMtx m).lineEnWrite n false) := by
    rw [lineEnWrite_changed _ _ _ (by rw [flag_setMtx, hon]; rfl), if_neg Bool.false_ne_true]
    exact lineDisabled (enabled_enWritten ..) ((added_enWritten (v.setMtx m) n false).sp ▸ not_dormant_of_running hrun) (alone_enWritten _ _ halone)
  obtain ⟨m, hm, hwrite⟩ := lineEnWrite_granted hg hrun false fun m => (hspec m).mtx.trans (mtx_serviceWrite ..)
  exact ⟨_, congrArg Host.Outcome.next hwrite, by rw [(hspec m).mtx, State.enWritten, mtx_serviceWrite]; exact hm, m, hspec m⟩

theorem exec_lineKTxWrite (x : Word) (slot : Bool) :
    ∃ t, exec (.lineKTxWrite n (.service q) x slot) s = .next t ∧ t.mtx.resp = rOkay ∧ ∃ m : Matrix, t = (v.setMtx m).kTxWrite n x slot := by
  have hmtx (m : Matrix) : ((v.setMtx m).kTxWrite n x slot).mtx = m := mtx_serviceWrite ..
  obtain ⟨m, hm, hwrite⟩ := commandWrite_granted hg hrun false (LINE_K_TX n) (f := fun s => s.kTxWrite n x slot) fun m hm =>
    (congrArg Matrix.resp (hmtx m)).trans hm
  exact ⟨_, congrArg Host.Outcome.next hwrite, (congrArg Matrix.resp (hmtx m)).trans hm, m, rfl⟩

end

theorem exec_lineDisable_maintenance (s : State) (n : Fin 8) : exec (.lineDisable n .maintenance) s = .next
    ((s.settleFor .maintenance).commandWrite .maintenance true false (islLP n) (LINE_CFG n) (fun s => s.lineEnWrite n false)) := rfl

/-! ### The obligation -/

/-- Settles O27: a service's write of EN moves the port as its start or its halt does, maintenance's is refused, and one of the K bytes stands
in its register. -/
theorem linePortsEnableDisableAndK : Obligations.LinePortsEnableDisableAndK := by
  unfold Obligations.LinePortsEnableDisableAndK
  refine ⟨?enable, ?disable, ?refused, ?kBytes⟩
  case enable =>
    intro s v n q hg hrun hoff halone hpin helec habs
    obtain ⟨t, ht, hresp, m, h⟩ := exec_lineEnable hg hrun hoff halone hpin helec habs
    have hraised := raised_of_chan (s := v) (chan_serviceWrite (v.setMtx m) _ _ _) h.raised
    have hframer := h.framer
    rw [lstat_enWritten] at hframer
    rw [lstat_enWritten, lstat_enWritten] at hraised
    exact ⟨t, ht, hresp, h.enabled, h.disabled, hraised, hframer, lineOnly_enWritten (v := v.setMtx m) h.only⟩
  case disable =>
    intro s v n q hg hrun hon halone
    obtain ⟨t, ht, hresp, m, h⟩ := exec_lineDisable hg hrun hon halone
    exact ⟨t, ht, hresp, h.enabled, h.disabled, h.defects, h.txdis, h.ais, h.tsf, h.framer,
      raised_of_chan (s := v) (chan_serviceWrite (v.setMtx m) _ _ _) h.raised, lineOnly_enWritten (v := v.setMtx m) h.only⟩
  case refused =>
    intro s v n hg hrun
    exact ⟨_, exec_lineDisable_maintenance s n, commandWrite_maintenance_refused hg hrun _ _ rfl⟩
  case kBytes =>
    intro s v n q x slot hg hrun
    obtain ⟨t, ht, hresp, m, rfl⟩ := exec_lineKTxWrite hg hrun x slot
    obtain ⟨hk, hlate, hnow, hregs, hmem, hchan⟩ := kTxWritten (v.setMtx m) n x slot
    exact ⟨_, ht, hresp, hk, hlate, hnow, hregs, hmem, hchan⟩

end Sys2Proof.Machine
end

section
/-! PROOF of O25: the framer, the LOF integrator, and the parity and overhead of a frame received in frame. -/

namespace Sys2Proof.Machine

/-! ### What the framer writes (R119) -/

/-- The registers of the framer and of OOF. -/
def framerRegs (n : Nat) : List Nat := [LINE_FRM_STAT n, LINE_OOF_CNT n, LINE_STAT n, LINE_STICKY n]

section
variable (s : State) (n : Nat) {st : Nat}

theorem added_setFramer (st : Nat) : Added (· ∈ framerRegs n) s (s.setFramer n st) := by
  have hmoved : Added (· ∈ framerRegs n) s (s.framerMoved n st) := ((Added.refl s).setFld _ _ _ (by simp [framerRegs])).setLine _
  rw [setFramer_eq]
  exact (Added.refl s).ite (((hmoved.count _ _ (by simp [framerRegs])).ite hmoved).lineDefect _ _ _ _ _ (by simp [framerRegs])
    (by simp [framerRegs]))

/-- OOF is declared on entering Out of frame, and clears on entering any other state. -/
theorem oof_setFramer (h : s.fld (LINE_FRM_STAT n) LINE_FRM_STAT_STATE ≠ st) :
    (s.setFramer n st).lstat n LINE_STAT_OOF = decide (st = frOutOfFrame) := by
  rw [setFramer_eq, if_neg h, lstat_lineDefect_self _ _ _ _ _ _ (by decide) rfl]

theorem oofCount_setFramer (h : s.fld (LINE_FRM_STAT n) LINE_FRM_STAT_STATE ≠ frOutOfFrame) :
    (s.setFramer n frOutOfFrame).reg (LINE_OOF_CNT n) = s.reg (LINE_OOF_CNT n) + 1 := by
  have hdefect (u : State) := (Added.refl u).lineDefect (W := (· ∈ [LINE_STAT n, LINE_STICKY n])) (n := n) LINE_STAT_OOF
    (decide (frOutOfFrame = frOutOfFrame)) 0x03 0x04 [] (by simp) (by simp)
  have hmoved : (s.framerMoved n frOutOfFrame).reg (LINE_OOF_CNT n) = s.reg (LINE_OOF_CNT n) :=
    reg_setFld_ne s _ _ (by unfold LINE_FRM_STAT LINE_OOF_CNT; omega)
  rw [setFramer_eq, if_neg h, if_pos rfl, (hdefect _).regs _ (by simp [LINE_OOF_CNT, LINE_STAT, LINE_STICKY]), reg_count_self, hmoved]
  rfl

end

/-! ### The framer's step (R119) -/

section
variable {s : State} {n : Nat} {ok : Bool} {f : LineFrame}

theorem added_framerStep (s : State) (n : Nat) (ok : Bool) (f : LineFrame) : Added (· ∈ framerRegs n) s (s.framerStep n ok f) := by
  have hself := Added.refl (W := (· ∈ framerRegs n)) s
  have hset := added_setFramer s n
  have hfound (st : Nat) (o : Option (Nat × List Byte)) (x : LinePort) : Added (· ∈ framerRegs n) s (match o with
      | some p => (s.setFramer n st).setLine n { (s.setFramer n st).line n with candidate := p.1 }
      | none => s.setLine n x) := by
    cases o with
    | none => exact hself.setLine _
    | some p => exact (hset _).setLine _
  have hsearch : Added (· ∈ framerRegs n) s (match f.found with
      | some p => (s.setFramer n frPresync).setLine n { (s.setFramer n frPresync).line n with candidate := p.1 }
      | none => s) := by
    cases f.found with
    | none => exact hself
    | some p => exact (hset _).setLine _
  unfold State.framerStep
  exact hsearch.ite ((hset _).ite (((hself.setLine _).ite ((hset _).ite (hself.setLine _))).ite (((hset _).ite (hfound _ _ _)).ite hself)))

theorem framerStep_search (hst : s.fld (LINE_FRM_STAT n) LINE_FRM_STAT_STATE = frSearch) {p : Nat × List Byte} (hf : f.found = some p) :
    s.framerStep n ok f = (s.setFramer n frPresync).setLine n { (s.setFramer n frPresync).line n with candidate := p.1 } := by
  unfold State.framerStep
  simp only [hst, hf, if_pos]

theorem framerStep_presync (hst : s.fld (LINE_FRM_STAT n) LINE_FRM_STAT_STATE = frPresync) :
    s.framerStep n ok f = s.setFramer n (if ok then frInFrame else frSearch) := by
  unfold State.framerStep
  simp only [hst, if_pos, if_neg (show frPresync ≠ frSearch by decide)]

section
variable (hst : s.fld (LINE_FRM_STAT n) LINE_FRM_STAT_STATE = frInFrame)
include hst

theorem framerStep_inFrame : s.framerStep n ok f = if ok then s.setLine n { s.line n with errRun := 0 }
    else if 3 ≤ (s.line n).errRun then s.setFramer n frOutOfFrame else s.setLine n { s.line n with errRun := (s.line n).errRun + 1 } := by
  unfold State.framerStep
  simp only [hst, if_pos, if_neg (show frInFrame ≠ frSearch by decide), if_neg (show frInFrame ≠ frPresync by decide)]

theorem framerStep_kept : s.framerStep n true f = s.setLine n { s.line n with errRun := 0 } := by rw [framerStep_inFrame hst, if_pos rfl]

theorem framerStep_missed (herr : (s.line n).errRun = 3) : s.framerStep n false f = s.setFramer n frOutOfFrame := by
  rw [framerStep_inFrame hst, if_neg (by decide), if_pos (by omega)]

theorem framerStep_errored (herr : (s.line n).errRun < 3) :
    s.framerStep n false f = s.setLine n { s.line n with errRun := (s.line n).errRun + 1 } := by
  rw [framerStep_inFrame hst, if_neg (by decide), if_neg (by omega)]

end

section
variable (hst : s.fld (LINE_FRM_STAT n) LINE_FRM_STAT_STATE = frOutOfFrame)
include hst

theorem framerStep_outOfFrame : s.framerStep n ok f = if s.oldBack n ok then s.setFramer n frInFrame
    else match s.newBack n f with
      | some p => (s.setFramer n frInFrame).setLine n { (s.setFramer n frInFrame).line n with candidate := p.1 }
      | none => s.setLine n { s.line n with goodRun := bit ok, newPos := f.found.map (fun p => p.1) } := by
  have hother {st : Nat} (h : frOutOfFrame ≠ st) : ¬ s.fld (LINE_FRM_STAT n) LINE_FRM_STAT_STATE = st := by rwa [hst]
  unfold State.framerStep
  exact (if_neg (hother (by decide))).trans ((if_neg (hother (by decide))).trans ((if_neg (hother (by decide))).trans (if_pos hst)))

theorem framerStep_oldBack (hrun : 1 ≤ (s.line n).goodRun) : s.framerStep n true f = s.setFramer n frInFrame := by
  rw [framerStep_outOfFrame hst, if_pos (by simp [State.oldBack, hrun])]

theorem framerStep_newBack (hold : ok = false ∨ (s.line n).goodRun = 0) {p : Nat × List Byte} (hf : f.found = some p)
    (hpos : (s.line n).newPos = some p.1) :
    s.framerStep n ok f = (s.setFramer n frInFrame).setLine n { (s.setFramer n frInFrame).line n with candidate := p.1 } := by
  have hold' : s.oldBack n ok = false := by rcases hold with h | h <;> simp [State.oldBack, h]
  have hnew : s.newBack n f = some p := by simp [State.newBack, hf, hpos]
  rw [framerStep_outOfFrame hst, hold', if_neg (by decide), hnew]

theorem framerStep_lost (hf : f.found = none) :
    s.framerStep n false f = s.setLine n { s.line n with goodRun := 0, newPos := none } := by
  have hnew : s.newBack n f = none := by simp [State.newBack, hf]
  rw [framerStep_outOfFrame hst, if_neg (by simp [State.oldBack]), hnew, hf]
  rfl

end

end

/-! ### The LOF integrator (R120) -/

/-- The frames in frame on end, this one included, at most 24. -/
def State.lofRun (s : State) (n : Nat) : Nat :=
  if decide (s.fld (LINE_FRM_STAT n) LINE_FRM_STAT_STATE = frInFrame) then min 24 ((s.line n).inRun + 1) else 0

/-- What the integrator stands at after this frame. -/
def State.lofCount (s : State) (n : Nat) : Nat :=
  if decide (s.fld (LINE_FRM_STAT n) LINE_FRM_STAT_STATE = frInFrame) then
    (if s.lofRun n = 24 then 0 else s.fld (LINE_FRM_STAT n) LINE_FRM_STAT_LOFI)
  else min 24 (s.fld (LINE_FRM_STAT n) LINE_FRM_STAT_LOFI + 1)

/-- The integrator has counted, dLOF still to be judged. -/
def State.lofCounted (s : State) (n : Nat) : State :=
  (s.setLine n { s.line n with inRun := s.lofRun n, synced := (s.line n).synced || decide (s.lofRun n = 24) }).setFld (LINE_FRM_STAT n)
    LINE_FRM_STAT_LOFI (s.lofCount n)

section
variable (s : State) (n : Nat)

theorem lofStep_eq : s.lofStep n = if (s.lofCounted n).lstat n LINE_STAT_LOS then s.lofCounted n
    else if s.lofCount n = 24 then (s.lofCounted n).lineDefect n LINE_STAT_LOF true 0x05 0x06
    else if s.lofRun n = 24 then (s.lofCounted n).lineDefect n LINE_STAT_LOF false 0x05 0x06
    else s.lofCounted n := rfl

/-- Whatever the integrator stands at, it leaves dLOF alone or judges it. -/
theorem lofStep_cases : s.lofStep n = s.lofCounted n ∨ ∃ b, s.lofStep n = (s.lofCounted n).lineDefect n LINE_STAT_LOF b 0x05 0x06 := by
  rw [lofStep_eq]
  split
  · exact .inl rfl
  split
  · exact .inr ⟨true, rfl⟩
  split
  · exact .inr ⟨false, rfl⟩
  · exact .inl rfl

theorem fld_lofCounted_stat (f : Fld) : (s.lofCounted n).fld (LINE_STAT n) f = s.fld (LINE_STAT n) f :=
  fld_setFld_ne (s.setLine n _) f LINE_FRM_STAT_LOFI _ (frmStat_ne_lineStat n)

theorem fld_lofCounted_framer : (s.lofCounted n).fld (LINE_FRM_STAT n) LINE_FRM_STAT_STATE = s.fld (LINE_FRM_STAT n) LINE_FRM_STAT_STATE :=
  fld_setFld_other (s.setLine n _) (LINE_FRM_STAT n) (by decide) _

theorem lstat_lofCounted (f : Fld) : (s.lofCounted n).lstat n f = s.lstat n f := by
  rw [State.lstat, State.flag, fld_lofCounted_stat, State.lstat, State.flag]

theorem added_lofStep : Added (· ∈ [LINE_FRM_STAT n, LINE_STAT n, LINE_STICKY n]) s (s.lofStep n) := by
  have h : Added (· ∈ [LINE_FRM_STAT n, LINE_STAT n, LINE_STICKY n]) s (s.lofCounted n) := ((Added.refl s).setLine _).setFld _ _ _ (by simp)
  rcases lofStep_cases s n with he | ⟨b, he⟩ <;> rw [he]
  · exact h
  · exact h.lineDefect _ _ _ _ _ (by simp) (by simp)

theorem fld_lofStep_framer : (s.lofStep n).fld (LINE_FRM_STAT n) LINE_FRM_STAT_STATE = s.fld (LINE_FRM_STAT n) LINE_FRM_STAT_STATE := by
  rcases lofStep_cases s n with he | ⟨b, he⟩ <;> rw [he]
  · exact fld_lofCounted_framer s n
  · have h := (Added.refl (s.lofCounted n)).lineDefect (W := (· ∈ [LINE_STAT n, LINE_STICKY n])) (n := n) LINE_STAT_LOF b 0x05 0x06 [] (by simp)
      (by simp)
    rw [h.fld (by simp [LINE_FRM_STAT, LINE_STAT, LINE_STICKY]), fld_lofCounted_framer]

theorem lstat_lofStep {f : Fld} (hf : f.lo + f.len ≤ 2 ∨ 3 ≤ f.lo) : (s.lofStep n).lstat n f = s.lstat n f := by
  rcases lofStep_cases s n with he | ⟨b, he⟩ <;> rw [he]
  · exact lstat_lofCounted s n f
  · rw [lstat_lineDefect_apart _ _ _ _ _ _ (by simp only [LINE_STAT_LOF]; omega), lstat_lofCounted]

theorem lines_lofStep : (s.lofStep n).lines = (s.lofCounted n).lines := by
  rcases lofStep_cases s n with he | ⟨b, he⟩ <;> rw [he]
  exact lines_lineDefect ..

theorem line_lofCounted : (s.lofCounted n).line n
    = { s.line n with inRun := s.lofRun n, synced := (s.line n).synced || decide (s.lofRun n = 24) } := line_setLine ..

/-- The 24th count declares dLOF. -/
theorem lof_lofStep (hst : s.fld (LINE_FRM_STAT n) LINE_FRM_STAT_STATE ≠ frInFrame) (hlos : s.lstat n LINE_STAT_LOS = false)
    (hi : s.fld (LINE_FRM_STAT n) LINE_FRM_STAT_LOFI = 23) : (s.lofStep n).lstat n LINE_STAT_LOF = true := by
  have hcount : s.lofCount n = 24 := by simp [State.lofCount, hst, hi]
  rw [lofStep_eq, lstat_lofCounted, hlos, if_neg (by decide), if_pos hcount, lstat_lineDefect_self _ _ _ _ _ _ (by decide) rfl]

/-- In frame and below 24 the integrator declares nothing. -/
theorem lofStep_inFrame (hst : s.fld (LINE_FRM_STAT n) LINE_FRM_STAT_STATE = frInFrame) (hlof : s.lstat n LINE_STAT_LOF = false)
    (hi : s.fld (LINE_FRM_STAT n) LINE_FRM_STAT_LOFI < 24) : s.lofStep n = s.lofCounted n := by
  have hcount : s.lofCount n ≠ 24 := by
    simp only [State.lofCount, hst, decide_true, if_true]
    split <;> omega
  have hsame : (s.lofCounted n).lstat n LINE_STAT_LOF = false := (lstat_lofCounted s n _).trans hlof
  rw [lofStep_eq, if_neg hcount, lineDefect_same _ _ _ _ _ _ hsame, ite_self, ite_self]

end

/-! ### What is heard in a frame beside its parity (R126 to R132) -/

/-- The registers that the detectors of the overhead write. -/
def heardRegs (n a : Nat) : Prop :=
  a ∈ [LINE_STAT n, LINE_STICKY n, LINE_K_RX n, LINE_S1 n, LINE_J0_CRC_CNT n] ∨ ∃ k, k < 16 ∧ a = LINE_J0_ACC n k

/-- What a port keeps of the frame itself: where it lies, its parities and its D bytes. -/
def LinePort.taken (l : LinePort) : Nat × Option Byte × Option (List Byte) × List Byte := (l.candidate, l.refB1, l.refB2, l.dcc)

/-- From `r` to `s` the detectors of port `n` have moved: the framer, OOF, dLOF and what was taken of the frame stand. -/
structure Heard (n : Nat) (r s : State) : Prop extends Added (heardRegs n) r s where
  taken : (s.line n).taken = (r.line n).taken
  oof : s.lstat n LINE_STAT_OOF = r.lstat n LINE_STAT_OOF
  lof : s.lstat n LINE_STAT_LOF = r.lstat n LINE_STAT_LOF

namespace Heard

variable {n : Nat} {r s t : State}

theorem refl (n : Nat) (s : State) : Heard n s s := ⟨.refl s, rfl, rfl, rfl⟩

theorem ite {c : Prop} [Decidable c] (h : Heard n r s) (g : Heard n r t) : Heard n r (if c then s else t) := by split <;> assumption

theorem each {α : Type} (l : List α) (f : State → α → State) (hf : ∀ x, ∀ a ∈ l, Heard n r x → Heard n r (f x a)) (h : Heard n r s) :
    Heard n r (s.each l f) :=
  each_preserves (Heard n r) hf h

section
variable (h : Heard n r s)
include h

theorem setReg {a : Nat} (w : Word) (ha : heardRegs n a) (hne : a ≠ LINE_STAT n) : Heard n r (s.setReg a w) where
  toAdded := h.toAdded.setReg a w ha
  taken := h.taken
  oof := (flag_setReg_ne s _ w hne).trans h.oof
  lof := (flag_setReg_ne s _ w hne).trans h.lof

theorem setFld {a : Nat} (f : Fld) (v : Nat) (ha : heardRegs n a) (hne : a ≠ LINE_STAT n) : Heard n r (s.setFld a f v) := h.setReg _ ha hne

theorem setFlag {a : Nat} (f : Fld) (b : Bool) (ha : heardRegs n a) (hne : a ≠ LINE_STAT n) : Heard n r (s.setFlag a f b) :=
  h.setFld f _ ha hne

theorem setLine (x : LinePort) (hx : x.taken = (s.line n).taken) : Heard n r (s.setLine n x) where
  toAdded := h.toAdded.setLine x
  taken := (congrArg LinePort.taken (line_setLine s n x)).trans (hx.trans h.taken)
  oof := h.oof
  lof := h.lof

theorem portEvent (k : Nat) (d : List Word) : Heard n r (s.lineEvent n k d) where
  toAdded := h.toAdded.portEvent k d
  taken := (congrArg LinePort.taken (line_of_lines (lines_portEvent ..) n)).trans h.taken
  oof := (flag_of_reg (reg_portEvent ..) _).trans h.oof
  lof := (flag_of_reg (reg_portEvent ..) _).trans h.lof

/-- A defect other than OOF and dLOF. -/
theorem lineDefect {f : Fld} (hf : 3 ≤ f.lo) (b : Bool) (kOn kOff : Nat) (d : List Word) : Heard n r (s.lineDefect n f b kOn kOff d) where
  toAdded := h.toAdded.lineDefect _ _ _ _ _ (by simp [heardRegs]) (by simp [heardRegs])
  taken := (congrArg LinePort.taken (line_of_lines (lines_lineDefect ..) n)).trans h.taken
  oof := (lstat_lineDefect_apart s n b kOn kOff d (.inl (by simp only [LINE_STAT_OOF]; omega))).trans h.oof
  lof := (lstat_lineDefect_apart s n b kOn kOff d (.inl (by simp only [LINE_STAT_LOF]; omega))).trans h.lof

end

end Heard

theorem heardRegs_kRx (n : Nat) : heardRegs n (LINE_K_RX n) ∧ LINE_K_RX n ≠ LINE_STAT n :=
  ⟨.inl (by simp), by unfold LINE_K_RX LINE_STAT; omega⟩

theorem heardRegs_s1 (n : Nat) : heardRegs n (LINE_S1 n) ∧ LINE_S1 n ≠ LINE_STAT n := ⟨.inl (by simp), by unfold LINE_S1 LINE_STAT; omega⟩

theorem heardRegs_crc (n : Nat) : heardRegs n (LINE_J0_CRC_CNT n) ∧ LINE_J0_CRC_CNT n ≠ LINE_STAT n :=
  ⟨.inl (by simp), by unfold LINE_J0_CRC_CNT LINE_STAT; omega⟩

theorem heardRegs_trace {n k : Nat} (hk : k < 16) : heardRegs n (LINE_J0_ACC n k) ∧ LINE_J0_ACC n k ≠ LINE_STAT n :=
  ⟨.inr ⟨k, hk, rfl⟩, by unfold LINE_J0_ACC LINE_STAT; omega⟩

namespace Heard

variable {n : Nat} {r s : State} (h : Heard n r s)
include h

/-- A defect that one run declares and another clears. -/
theorem judged {c d : Prop} [Decidable c] [Decidable d] {f : Fld} (hf : 3 ≤ f.lo) (kOn kOff : Nat) :
    Heard n r (if c then s.lineDefect n f true kOn kOff else if d then s.lineDefect n f false kOn kOff else s) :=
  Heard.ite (h.lineDefect hf ..) (Heard.ite (h.lineDefect hf ..) h)

theorem lowDetect (low : Nat) : Heard n r (s.lowDetect n low) := by
  unfold State.lowDetect
  dsimp only
  refine Heard.judged (Heard.judged (Heard.ite (Heard.setFld ?counted _ _ (heardRegs_kRx n).1 (heardRegs_kRx n).2) ?counted) ?ais _ _) ?rdi _ _
  case counted => exact h.setLine _ rfl
  all_goals decide

theorem lineFreeze : Heard n r (s.lineFreeze n) :=
  Heard.ite (((h.setFlag _ _ (heardRegs_kRx n).1 (heardRegs_kRx n).2).setFlag _ _ (heardRegs_s1 n).1 (heardRegs_s1 n).2).setLine _ rfl) h

/-- The K bytes of a frame made current. -/
theorem kCurrent (v : Nat) : Heard n r
    (((s.setFld (LINE_K_RX n) LINE_K_RX_K1 (v / 32)).setFld (LINE_K_RX n) LINE_K_RX_K2_HIGH (v % 32)).setFlag (LINE_K_RX n) LINE_K_RX_VALID
      true) :=
  ((h.setFld _ _ (heardRegs_kRx n).1 (heardRegs_kRx n).2).setFld _ _ (heardRegs_kRx n).1 (heardRegs_kRx n).2).setFlag _ _ (heardRegs_kRx n).1
    (heardRegs_kRx n).2

/-- A value other than the one accepted before is accepted. -/
theorem kAccepted (v : Nat) (d : List Word) : Heard n r
    (((s.setLine n { s.line n with kAcc := some v }).lineEvent n 0x11 d).lineDefect n LINE_STAT_KINC false 0x12 0x13) :=
  ((h.setLine { s.line n with kAcc := some v } rfl).portEvent _ _).lineDefect (by decide) _ _ _ _

theorem kFilter (v : Nat) : Heard n r (s.kFilter n v) := by
  unfold State.kFilter
  dsimp only
  refine Heard.ite (Heard.ite (Heard.kCurrent ?run v) (Heard.kAccepted (Heard.kCurrent ?run v) v _))
    (Heard.ite (Heard.lineDefect ?run ?kinc _ _ _ _) ?run)
  case run => exact h.setLine _ rfl
  case kinc => decide

theorem ssmFilter (v : Nat) : Heard n r (s.ssmFilter n v) := by
  unfold State.ssmFilter
  dsimp only
  refine Heard.ite (Heard.portEvent (Heard.setFlag (Heard.setFld ?run _ _ ?own ?apart) _ _ ?own ?apart) _ _) ?run
  case run => exact h.setLine _ rfl
  case own => exact (heardRegs_s1 n).1
  case apart => exact (heardRegs_s1 n).2

/-- A trace stands in J0_ACC. -/
theorem traceNoted (raw : List Byte) : Heard n r
    (s.each (List.range 16) fun s k => s.setReg (LINE_J0_ACC n k) (w32 (leNat ((raw.drop (4 * k)).take 4)))) :=
  h.each _ _ fun _ _ hk hx => hx.setReg _ (heardRegs_trace (List.mem_range.mp hk)).1 (heardRegs_trace (List.mem_range.mp hk)).2

theorem traceAccepted : Heard n r (s.setLine n { s.line n with j0Acc := true }) := h.setLine _ rfl

theorem judgeTim : Heard n r (s.judgeTim n) := h.lineDefect (by decide) _ _ _ _

theorem acceptTrace (t : List Byte) : Heard n r (s.acceptTrace n t) :=
  have hnoted := (h.traceNoted (t ++ List.replicate (64 - t.length) 0)).traceAccepted
  (hnoted.ite (hnoted.portEvent _ _)).judgeTim

theorem tracePeriod (t : List Byte) : Heard n r (s.tracePeriod n t) := by
  unfold State.tracePeriod
  dsimp only
  refine Heard.ite (Heard.acceptTrace ?run t) ?run
  exact h.setLine _ rfl

theorem traceByte (b : Byte) : Heard n r (s.traceByte n b) := by
  unfold State.traceByte
  dsimp only
  split
  · exact h
  · exact h.tracePeriod _
  · refine Heard.ite (Heard.ite (h.tracePeriod _) (Heard.setReg ?broken _ (heardRegs_crc n).1 (heardRegs_crc n).2)) (h.setLine _ rfl)
    exact h.setLine _ rfl
  · exact Heard.ite (h.tracePeriod _) (h.setLine _ rfl)

theorem spoilWindows : Heard n r (s.spoilWindows n) := h.setLine _ rfl

theorem lineActs : Heard n r (s.lineActs n) where
  toAdded := h.toAdded.lineActs (by simp [heardRegs]) (by simp [heardRegs])
  taken := by
    obtain ⟨b, hb⟩ := line_lineActs s n
    exact (congrArg LinePort.taken hb).trans h.taken
  oof := (lstat_lineActs s n (by decide)).trans h.oof
  lof := (lstat_lineActs s n (by decide)).trans h.lof

end Heard

/-! ### The parity and the bytes of a frame in frame (R122, R123, R128, R132) -/

/-- The registers that take a frame's bytes and count its errors. -/
def notedRegs (n : Nat) : List Nat := [LINE_K_RAW n, LINE_OH_RX n, LINE_B1_CNT n, LINE_B2_CNT n, LINE_REI_CNT n]

/-- The overhead bytes of a frame noted. -/
def State.bytesNoted (s : State) (n : Nat) (f : RxFrame) : State :=
  ((s.setReg (LINE_K_RAW n) (w32 (f.k1.toNat + 256 * f.k2.toNat))).setReg (LINE_OH_RX n)
    (w32 (f.e1.toNat + 256 * f.e2.toNat + 65536 * f.f1.toNat))).setLine n { s.line n with dcc := f.dcc }

/-- The overhead bytes and the parity of a frame noted, the detectors still to judge. -/
def State.overheadNoted (s : State) (n : Nat) (f : RxFrame) : State := (s.bytesNoted n f).parityStep n f

section
variable (s : State) (n : Nat) (f : RxFrame)

theorem line_count (a k : Nat) : (s.count a k).line n = s.line n := rfl

theorem added_parityStep : Added (· ∈ [LINE_B1_CNT n, LINE_B2_CNT n, LINE_REI_CNT n]) s (s.parityStep n f) := by
  have hself := Added.refl (W := (· ∈ [LINE_B1_CNT n, LINE_B2_CNT n, LINE_REI_CNT n])) s
  have hb1 (c : Prop) [Decidable c] (v : Nat) := (hself.count (LINE_B1_CNT n) v (by simp)).ite hself (c := c)
  exact Added.ite (((((hb1 _ _).setLine _).count _ _ (by simp)).count _ _ (by simp)).setLine _) (((hb1 _ _).setLine _).setLine _)

theorem taken_parityStep : ((s.parityStep n f).line n).taken = ((s.line n).candidate, some f.bip8, some f.bip24, (s.line n).dcc) := by
  have hb1 (c : Prop) [Decidable c] (v : Nat) : (if c then s.count (LINE_B1_CNT n) v else s).line n = s.line n := by split <;> rfl
  unfold State.parityStep State.spoilWindows
  dsimp only
  split
  · simp only [LinePort.taken, line_setLine, line_count, hb1]
  · simp only [LinePort.taken, line_setLine, hb1]

theorem reiOf_of_cfg {t : State} (h : t.reg (LINE_CFG n) = s.reg (LINE_CFG n)) (m1 : Byte) : t.reiOf n m1 = s.reiOf n m1 := by
  rw [State.reiOf, fld_of_reg h, State.reiOf]

theorem b1Count_ne_others : LINE_B2_CNT n ≠ LINE_B1_CNT n ∧ LINE_REI_CNT n ≠ LINE_B1_CNT n := by
  unfold LINE_B2_CNT LINE_B1_CNT LINE_REI_CNT; omega

theorem reg_parityStep_b1 {p : Byte} (hlos : s.lstat n LINE_STAT_LOS = false) (hlof : s.lstat n LINE_STAT_LOF = false)
    (hp : (s.line n).refB1 = some p) :
    (s.parityStep n f).reg (LINE_B1_CNT n) = s.reg (LINE_B1_CNT n) + BitVec.ofNat 32 (bitErrors p f.b1) := by
  unfold State.parityStep State.spoilWindows
  dsimp only
  rw [hlos, hlof, hp]
  split
  · simp [reg_count_ne, b1Count_ne_others]
  · simp

section
variable (hcount : s.b2Counting n = true)
include hcount

theorem reg_parityStep_b2 {p : List Byte} (hp : (s.line n).refB2 = some p) :
    (s.parityStep n f).reg (LINE_B2_CNT n) = s.reg (LINE_B2_CNT n) + BitVec.ofNat 32 (listErrors p f.b2) := by
  have hrei : LINE_REI_CNT n ≠ LINE_B2_CNT n := by unfold LINE_REI_CNT LINE_B2_CNT; omega
  have hb1 (c : Prop) [Decidable c] (v : Nat) : (if c then s.count (LINE_B1_CNT n) v else s).reg (LINE_B2_CNT n) = s.reg (LINE_B2_CNT n) := by
    split
    · exact reg_count_ne s _ (b1Count_ne_others n).1.symm
    · rfl
  unfold State.parityStep
  dsimp only
  rw [if_pos hcount, hp, reg_setLine, reg_count_ne _ _ hrei, reg_count_self, reg_setLine, hb1]

theorem reg_parityStep_rei :
    (s.parityStep n f).reg (LINE_REI_CNT n) = s.reg (LINE_REI_CNT n) + BitVec.ofNat 32 (s.reiOf n f.m1) := by
  have hb2 : LINE_B2_CNT n ≠ LINE_REI_CNT n := by unfold LINE_REI_CNT LINE_B2_CNT; omega
  have hb1 (c : Prop) [Decidable c] (v : Nat) {a : Nat} (ha : LINE_B1_CNT n ≠ a) :
      (if c then s.count (LINE_B1_CNT n) v else s).reg a = s.reg a := by
    split
    · exact reg_count_ne s _ ha
    · rfl
  unfold State.parityStep
  dsimp only
  rw [if_pos hcount, reg_setLine, reg_count_self, reg_count_ne _ _ hb2, reg_setLine, hb1 _ _ (b1Count_ne_others n).2.symm,
    reiOf_of_cfg s n ((reg_setLine ..).trans (hb1 _ _ (by unfold LINE_B1_CNT LINE_CFG; omega)))]

end

end

section
variable (s : State) (n : Nat) (f : RxFrame)

theorem added_bytesNoted : Added (· ∈ [LINE_K_RAW n, LINE_OH_RX n]) s (s.bytesNoted n f) :=
  (((Added.refl s).setReg _ _ (by simp)).setReg _ _ (by simp)).setLine _

theorem line_bytesNoted : (s.bytesNoted n f).line n = { s.line n with dcc := f.dcc } := line_setLine ..

theorem added_overheadNoted : Added (· ∈ notedRegs n) s (s.overheadNoted n f) :=
  ((added_bytesNoted s n f).mono fun a ha => by
    simp only [List.mem_cons, List.not_mem_nil, or_false] at ha
    rcases ha with rfl | rfl <;> simp [notedRegs]).trans
  ((added_parityStep _ n f).mono fun a ha => by
    simp only [List.mem_cons, List.not_mem_nil, or_false] at ha
    simp [notedRegs, ha])

theorem taken_overheadNoted : ((s.overheadNoted n f).line n).taken = ((s.line n).candidate, some f.bip8, some f.bip24, f.dcc) := by
  rw [State.overheadNoted, taken_parityStep, line_bytesNoted]

theorem kRaw_overheadNoted : (s.overheadNoted n f).reg (LINE_K_RAW n) = BitVec.ofNat 32 (f.k1.toNat + 256 * f.k2.toNat) := by
  rw [State.overheadNoted, (added_parityStep _ n f).regs _ (by simp [LINE_K_RAW, LINE_B1_CNT, LINE_B2_CNT, LINE_REI_CNT]), State.bytesNoted,
    reg_setLine, reg_setReg_ne _ _ (by unfold LINE_OH_RX LINE_K_RAW; omega), reg_setReg_self]
  rfl

theorem ohRx_overheadNoted :
    (s.overheadNoted n f).reg (LINE_OH_RX n) = BitVec.ofNat 32 (f.e1.toNat + 256 * f.e2.toNat + 65536 * f.f1.toNat) := by
  rw [State.overheadNoted, (added_parityStep _ n f).regs _ (by simp [LINE_OH_RX, LINE_B1_CNT, LINE_B2_CNT, LINE_REI_CNT]), State.bytesNoted,
    reg_setLine, reg_setReg_self]
  rfl

/-- What the parity is judged on is not among the bytes noted. -/
theorem parity_bytesNoted : (∀ f', (s.bytesNoted n f).lstat n f' = s.lstat n f') ∧ (s.bytesNoted n f).b2Counting n = s.b2Counting n
    ∧ ∀ a ∈ [LINE_CFG n, LINE_B1_CNT n, LINE_B2_CNT n, LINE_REI_CNT n], (s.bytesNoted n f).reg a = s.reg a := by
  have h := added_bytesNoted s n f
  have hreg {a : Nat} (hk : a ≠ LINE_K_RAW n) (ho : a ≠ LINE_OH_RX n) : (s.bytesNoted n f).reg a = s.reg a := h.regs a (by simp [hk, ho])
  have hcfg : (s.bytesNoted n f).reg (LINE_CFG n) = s.reg (LINE_CFG n) :=
    hreg (by unfold LINE_CFG LINE_K_RAW; omega) (by unfold LINE_CFG LINE_OH_RX; omega)
  have hstat (f' : Fld) : (s.bytesNoted n f).lstat n f' = s.lstat n f' :=
    flag_of_reg (hreg (by unfold LINE_STAT LINE_K_RAW; omega) (by unfold LINE_STAT LINE_OH_RX; omega)) f'
  refine ⟨hstat, ?_, fun a ha => ?_⟩
  · simp only [State.b2Counting, State.lineFail, State.timActs, hstat, flag_of_reg hcfg,
      fld_of_reg (hreg (a := LINE_FRM_STAT n) (by unfold LINE_FRM_STAT LINE_K_RAW; omega) (by unfold LINE_FRM_STAT LINE_OH_RX; omega))]
  · simp only [List.mem_cons, List.not_mem_nil, or_false] at ha
    refine hreg ?_ ?_ <;> rcases ha with rfl | rfl | rfl | rfl <;>
      simp [LINE_CFG, LINE_B1_CNT, LINE_B2_CNT, LINE_REI_CNT, LINE_K_RAW, LINE_OH_RX]

theorem b1_overheadNoted {p : Byte} (hlos : s.lstat n LINE_STAT_LOS = false) (hlof : s.lstat n LINE_STAT_LOF = false)
    (hp : (s.line n).refB1 = some p) :
    (s.overheadNoted n f).reg (LINE_B1_CNT n) = s.reg (LINE_B1_CNT n) + BitVec.ofNat 32 (bitErrors p f.b1) := by
  obtain ⟨hstat, -, hreg⟩ := parity_bytesNoted s n f
  rw [State.overheadNoted, reg_parityStep_b1 _ n f ((hstat _).trans hlos) ((hstat _).trans hlof) (by rw [line_bytesNoted, hp]),
    hreg _ (by simp)]

section
variable (hcount : s.b2Counting n = true)
include hcount

theorem b2_overheadNoted {p : List Byte} (hp : (s.line n).refB2 = some p) :
    (s.overheadNoted n f).reg (LINE_B2_CNT n) = s.reg (LINE_B2_CNT n) + BitVec.ofNat 32 (listErrors p f.b2) := by
  obtain ⟨-, hsame, hreg⟩ := parity_bytesNoted s n f
  rw [State.overheadNoted, reg_parityStep_b2 _ n f (hsame.trans hcount) (by rw [line_bytesNoted, hp]), hreg _ (by simp)]

theorem rei_overheadNoted :
    (s.overheadNoted n f).reg (LINE_REI_CNT n) = s.reg (LINE_REI_CNT n) + BitVec.ofNat 32 (s.reiOf n f.m1) := by
  obtain ⟨-, hsame, hreg⟩ := parity_bytesNoted s n f
  rw [State.overheadNoted, reg_parityStep_rei _ n f (hsame.trans hcount), hreg _ (by simp), reiOf_of_cfg s n (hreg _ (by simp))]

end

theorem heard_overheadStep : Heard n (s.overheadNoted n f) (s.overheadStep n f) :=
  have hlow := ((Heard.refl n (s.overheadNoted n f)).lowDetect (f.k2.toNat % 8)).lineFreeze
  (hlow.ite ((hlow.kFilter _).ssmFilter _)).traceByte _

end

/-! ### The row of a received frame -/

/-- Where the registers that the detectors write lie in the port's block. -/
theorem offset_of_heardRegs {n a : Nat} (h : heardRegs n a) : a = LINE_STAT n ∨ a = LINE_STICKY n ∨ a = LINE_K_RX n ∨ a = LINE_S1 n
    ∨ a = LINE_J0_CRC_CNT n ∨ (LINE_J0_ACC n 0 ≤ a ∧ a ≤ LINE_J0_ACC n 15) := by
  rcases h with h | ⟨k, hk, rfl⟩
  · simp only [List.mem_cons, List.not_mem_nil, or_false] at h
    tauto
  · unfold LINE_J0_ACC
    omega

theorem not_heardRegs {n a : Nat} (h : a ∈ [LINE_FRM_STAT n, LINE_OOF_CNT n] ++ notedRegs n) : ¬ heardRegs n a := fun hh => by
  have hoff := offset_of_heardRegs hh
  simp only [notedRegs, List.mem_append, List.mem_cons, List.not_mem_nil, or_false] at h
  simp only [LINE_STAT, LINE_STICKY, LINE_K_RX, LINE_S1, LINE_J0_CRC_CNT, LINE_J0_ACC, LINE_FRM_STAT, LINE_OOF_CNT, LINE_K_RAW, LINE_OH_RX,
    LINE_B1_CNT, LINE_B2_CNT, LINE_REI_CNT] at hoff h
  omega

theorem portRegs_of_heardRegs {n a : Nat} (h : heardRegs n a) : portRegs n a := by
  have hoff := offset_of_heardRegs h
  simp only [LINE_STAT, LINE_STICKY, LINE_K_RX, LINE_S1, LINE_J0_CRC_CNT, LINE_J0_ACC] at hoff
  unfold portRegs
  omega

theorem portRegs_of_notedRegs {n a : Nat} (h : a ∈ notedRegs n) : portRegs n a := by
  simp only [notedRegs, List.mem_cons, List.not_mem_nil, or_false, LINE_K_RAW, LINE_OH_RX, LINE_B1_CNT, LINE_B2_CNT, LINE_REI_CNT] at h
  unfold portRegs
  omega

theorem portRegs_of_framerRegs {n a : Nat} (h : a ∈ framerRegs n) : portRegs n a := by
  simp only [framerRegs, List.mem_cons, List.not_mem_nil, or_false, LINE_FRM_STAT, LINE_OOF_CNT, LINE_STAT, LINE_STICKY] at h
  unfold portRegs
  omega

/-- The overhead of a frame taken in frame, or the windows spoilt in any other state. -/
def State.overheard (z : State) (n : Nat) (r : RxFrame) : State :=
  if z.fld (LINE_FRM_STAT n) LINE_FRM_STAT_STATE = frInFrame then z.overheadStep n r else z.spoilWindows n

/-- What the port comes to after the framer's step `y`, READY still to be judged. -/
def State.frameActed (y : State) (n : Nat) (bytes : List Byte) : State :=
  (((y.lofStep n).overheard n ((y.lofStep n).lineRx n bytes)).lineFreeze n).lineActs n

/-- The bytes are noted and the parity counted, where they are taken at all, and the detectors follow. -/
theorem heard_frameActed (y : State) (n : Nat) (bytes : List Byte) : ∃ x, Heard n x (y.frameActed n bytes)
    ∧ Added (· ∈ notedRegs n) (y.lofStep n) x ∧ (x.line n).candidate = ((y.lofStep n).line n).candidate := by
  unfold State.frameActed State.overheard
  split
  · refine ⟨_, (heard_overheadStep (y.lofStep n) n _).lineFreeze.lineActs, added_overheadNoted .., ?_⟩
    exact congrArg Prod.fst (taken_overheadNoted ..)
  · exact ⟨_, (Heard.refl n (y.lofStep n)).spoilWindows.lineFreeze.lineActs, Added.refl _, rfl⟩

theorem added_frameActed (y : State) (n : Nat) (bytes : List Byte) : Added (portRegs n) y (y.frameActed n bytes) := by
  obtain ⟨x, hheard, hnoted, -⟩ := heard_frameActed y n bytes
  exact (((added_lofStep y n).mono fun a ha => portRegs_of_framerRegs (by
      simp only [List.mem_cons, List.not_mem_nil, or_false] at ha
      rcases ha with rfl | rfl | rfl <;> simp [framerRegs])).trans (hnoted.mono fun a => portRegs_of_notedRegs)).trans
    (hheard.toAdded.mono fun a => portRegs_of_heardRegs)

/-- After the framer's step `y` the rest of the row leaves the framer, OOF and its count alone, and dLOF to the integrator. -/
structure FrameRow (n : Nat) (y t : State) : Prop where
  framer : t.fld (LINE_FRM_STAT n) LINE_FRM_STAT_STATE = y.fld (LINE_FRM_STAT n) LINE_FRM_STAT_STATE
  oof : t.lstat n LINE_STAT_OOF = y.lstat n LINE_STAT_OOF
  oofCount : t.reg (LINE_OOF_CNT n) = y.reg (LINE_OOF_CNT n)
  candidate : (t.line n).candidate = (y.line n).candidate
  lof : t.lstat n LINE_STAT_LOF = (y.lofStep n).lstat n LINE_STAT_LOF

theorem frameRow (y : State) (n : Nat) (bytes : List Byte) : FrameRow n y (y.frameActed n bytes).readyJudged := by
  obtain ⟨x, hheard, hnoted, hcand⟩ := heard_frameActed y n bytes
  have hstat (f : Fld) : x.lstat n f = (y.lofStep n).lstat n f :=
    hnoted.flag (by simp [notedRegs, LINE_STAT, LINE_K_RAW, LINE_OH_RX, LINE_B1_CNT, LINE_B2_CNT, LINE_REI_CNT]) f
  exact {
    framer := by
      rw [fld_of_reg (reg_readyJudged _ (by unfold LINE_FRM_STAT TWN_STAT; omega)), hheard.fld (not_heardRegs (by simp)),
        hnoted.fld (by simp [notedRegs, LINE_FRM_STAT, LINE_K_RAW, LINE_OH_RX, LINE_B1_CNT, LINE_B2_CNT, LINE_REI_CNT]), fld_lofStep_framer]
    oof := by rw [lstat_readyJudged, hheard.oof, hstat, lstat_lofStep _ _ (by decide)]
    oofCount := by
      rw [reg_readyJudged _ (by unfold LINE_OOF_CNT TWN_STAT; omega), hheard.regs _ (not_heardRegs (by simp)),
        hnoted.regs _ (by simp [notedRegs, LINE_OOF_CNT, LINE_K_RAW, LINE_OH_RX, LINE_B1_CNT, LINE_B2_CNT, LINE_REI_CNT]),
        (added_lofStep y n).regs _ (by simp [LINE_OOF_CNT, LINE_FRM_STAT, LINE_STAT, LINE_STICKY])]
    candidate := by
      have htaken : ((y.frameActed n bytes).line n).candidate = (x.line n).candidate := congrArg Prod.fst hheard.taken
      rw [line_readyJudged, htaken, hcand, line_of_lines (lines_lofStep ..), line_lofCounted]
    lof := by rw [lstat_readyJudged, hheard.lof, hstat] }

section
variable {s : State} {n : Fin 8} (hup : s.lineUp n = true) (halone : Safety.alone s) (f : LineFrame)
include hup halone

theorem exec_lineFrame : exec (.lineFrame n f) s = .next
    (((s.framerStep n (s.lineRx n f.bytes).wordOk f).frameActed n (s.frameBytes n (s.lineRx n f.bytes).wordOk f)).readyJudged) := by
  set y := s.framerStep n (s.lineRx n f.bytes).wordOk f with hy
  set bytes := s.frameBytes n (s.lineRx n f.bytes).wordOk f with hb
  have hmoved : Added (portRegs n) s (y.frameActed n bytes) :=
    ((added_framerStep s n _ f).mono fun a => portRegs_of_framerRegs).trans (added_frameActed y n bytes)
  have hends : ((((y.lofStep n).overheard n ((y.lofStep n).lineRx n bytes)).lineFreeze n).lineActions n) = (y.frameActed n bytes).readyJudged :=
    lineActions_of_alone (alone_of_frame n.isLt hmoved.toFrame (fun _ => id) halone)
  rw [← hends]
  exact congrArg Host.Outcome.next (if_neg (by rw [hup]; decide))

end

/-! ### A frame taken in frame -/

/-- In frame, no defect stands that stops the parity, and the integrator is not full. -/
structure Sound (n : Nat) (s : State) : Prop where
  framer : s.fld (LINE_FRM_STAT n) LINE_FRM_STAT_STATE = frInFrame
  los : s.lstat n LINE_STAT_LOS = false
  lof : s.lstat n LINE_STAT_LOF = false
  tim : s.lstat n LINE_STAT_TIM = false
  ais : s.lstat n LINE_STAT_MSAIS = false
  lofi : s.fld (LINE_FRM_STAT n) LINE_FRM_STAT_LOFI < 24

section
variable {s : State} {n : Nat} (h : Sound n s)
include h

theorem Sound.lofStep : s.lofStep n = s.lofCounted n := lofStep_inFrame s n h.framer h.lof h.lofi

theorem Sound.b2Counting : (s.lofCounted n).b2Counting n = true := by
  simp [State.b2Counting, State.lineFail, State.timActs, fld_lofCounted_framer, lstat_lofCounted, h.framer, h.los, h.lof, h.tim, h.ais]

end

section
variable (s : State) (n : Nat)

theorem reg_lofCounted {a : Nat} (ha : a ≠ LINE_FRM_STAT n) : (s.lofCounted n).reg a = s.reg a := reg_setFld_ne (s.setLine n _) _ _ ha.symm

theorem lineRx_of_cfg {t : State} (h : t.reg (LINE_CFG n) = s.reg (LINE_CFG n)) (bytes : List Byte) : t.lineRx n bytes = s.lineRx n bytes := by
  rw [State.lineRx, State.stmN, fld_of_reg h, flag_of_reg h, flag_of_reg h, ← State.stmN, State.lineRx]

end

/-- What a frame taken in frame leaves. -/
structure FrameTaken (n : Nat) (r : RxFrame) (s t : State) : Prop where
  kRaw : t.reg (LINE_K_RAW n) = BitVec.ofNat 32 (r.k1.toNat + 256 * r.k2.toNat)
  ohRx : t.reg (LINE_OH_RX n) = BitVec.ofNat 32 (r.e1.toNat + 256 * r.e2.toNat + 65536 * r.f1.toNat)
  dcc : (t.line n).dcc = r.dcc
  refB1 : (t.line n).refB1 = some r.bip8
  refB2 : (t.line n).refB2 = some r.bip24
  b1 : ∀ p, (s.line n).refB1 = some p → t.reg (LINE_B1_CNT n) = s.reg (LINE_B1_CNT n) + BitVec.ofNat 32 (bitErrors p r.b1)
  b2 : ∀ p, (s.line n).refB2 = some p → t.reg (LINE_B2_CNT n) = s.reg (LINE_B2_CNT n) + BitVec.ofNat 32 (listErrors p r.b2)
  rei : t.reg (LINE_REI_CNT n) = s.reg (LINE_REI_CNT n) + BitVec.ofNat 32 (s.reiOf n r.m1)

theorem frameTaken {s : State} {n : Nat} (h : Sound n s) (bytes : List Byte) :
    FrameTaken n (s.lineRx n bytes) s (s.frameActed n bytes).readyJudged := by
  set z := s.lofCounted n with hz
  set r := s.lineRx n bytes with hr
  have hreg {a : Nat} (ha : a ≠ LINE_FRM_STAT n) : z.reg a = s.reg a := reg_lofCounted s n ha
  have hacted : s.frameActed n bytes = ((z.overheadStep n r).lineFreeze n).lineActs n := by
    rw [State.frameActed, State.overheard, h.lofStep, if_pos ((fld_lofCounted_framer s n).trans h.framer),
      lineRx_of_cfg s n (hreg (by unfold LINE_CFG LINE_FRM_STAT; omega))]
  have hheard : Heard n (z.overheadNoted n r) (s.frameActed n bytes) := by
    rw [hacted]
    exact (heard_overheadStep z n r).lineFreeze.lineActs
  have hnoted {a : Nat} (ha : a ∈ notedRegs n) : (s.frameActed n bytes).readyJudged.reg a = (z.overheadNoted n r).reg a := by
    have hne : a ≠ TWN_STAT := fun he => by
      simp only [he, notedRegs, List.mem_cons, List.not_mem_nil, or_false, TWN_STAT, LINE_K_RAW, LINE_OH_RX, LINE_B1_CNT, LINE_B2_CNT,
        LINE_REI_CNT] at ha
      omega
    rw [reg_readyJudged _ hne, hheard.regs _ (not_heardRegs (by simp [ha]))]
  have htaken : ((s.frameActed n bytes).readyJudged.line n).taken = ((z.line n).candidate, some r.bip8, some r.bip24, r.dcc) := by
    rw [line_readyJudged, hheard.taken, taken_overheadNoted]
  simp only [LinePort.taken, Prod.mk.injEq] at htaken
  obtain ⟨-, hrefB1, hrefB2, hdcc⟩ := htaken
  exact {
    kRaw := (hnoted (by simp [notedRegs])).trans (kRaw_overheadNoted z n r)
    ohRx := (hnoted (by simp [notedRegs])).trans (ohRx_overheadNoted z n r)
    dcc := hdcc
    refB1 := hrefB1
    refB2 := hrefB2
    b1 p hp := by
      rw [hnoted (by simp [notedRegs]), b1_overheadNoted z n r ((lstat_lofCounted ..).trans h.los) ((lstat_lofCounted ..).trans h.lof)
        (by rw [hz, line_lofCounted, hp]), hreg (by unfold LINE_B1_CNT LINE_FRM_STAT; omega)]
    b2 p hp := by
      rw [hnoted (by simp [notedRegs]), b2_overheadNoted z n r h.b2Counting (by rw [hz, line_lofCounted, hp]),
        hreg (by unfold LINE_B2_CNT LINE_FRM_STAT; omega)]
    rei := by
      rw [hnoted (by simp [notedRegs]), rei_overheadNoted z n r h.b2Counting, hreg (by unfold LINE_REI_CNT LINE_FRM_STAT; omega),
        reiOf_of_cfg s n (hreg (by unfold LINE_CFG LINE_FRM_STAT; omega))] }

/-- On STM-1 an M1 up to 24 counts, one beyond it counts 0 (R123). -/
theorem reiOf_stm1 {s : State} {n : Nat} (h : s.fld (LINE_CFG n) LINE_CFG_RATE = 0) (m1 : Byte) :
    s.reiOf n m1 = if m1.toNat ≤ 24 then m1.toNat else 0 := by
  unfold State.reiOf
  rw [h]
  rfl

/-- A frame whose word is correct is taken as it lies on the lane. -/
theorem taken_lineFrame {s : State} {n : Nat} (h : Sound n s) (f : LineFrame) :
    FrameTaken n (s.lineRx n f.bytes) s ((s.framerStep n true f).frameActed n (s.frameBytes n true f)).readyJudged := by
  set y := s.framerStep n true f with hy
  have hkept : y = s.setLine n { s.line n with errRun := 0 } := framerStep_kept h.framer
  have hbytes : s.frameBytes n true f = f.bytes := if_neg fun hout => absurd (h.framer.symm.trans hout.1) (by decide)
  have hline : y.line n = { s.line n with errRun := 0 } := by rw [hkept, line_setLine]
  have hreg (a : Nat) : y.reg a = s.reg a := by rw [hkept, reg_setLine]
  have hflag (g : Fld) : y.lstat n g = s.lstat n g := flag_of_reg (hreg _) g
  have hfrm (g : Fld) : y.fld (LINE_FRM_STAT n) g = s.fld (LINE_FRM_STAT n) g := fld_of_reg (hreg _) g
  have ht := frameTaken (s := y) (n := n) ⟨(hfrm _).trans h.framer, (hflag _).trans h.los, (hflag _).trans h.lof, (hflag _).trans h.tim,
    (hflag _).trans h.ais, (hfrm _).trans_lt h.lofi⟩ f.bytes
  rw [lineRx_of_cfg s n (hreg _)] at ht
  rw [hbytes]
  exact {
    kRaw := ht.kRaw
    ohRx := ht.ohRx
    dcc := ht.dcc
    refB1 := ht.refB1
    refB2 := ht.refB2
    b1 p hp := by rw [ht.b1 p (by rw [hline, hp]), hreg]
    b2 p hp := by rw [ht.b2 p (by rw [hline, hp]), hreg]
    rei := by rw [ht.rei, hreg, reiOf_of_cfg s n (hreg _)] }

/-! ### The lock of the receive CDR (R119) -/

section
variable {s : State} {n : Fin 8} (hrun : s.running (islLP n) = true)
include hrun

theorem exec_cdrLocked : exec (.cdrLockChange n true) s = .next ((s.setLstat n LINE_STAT_CDR_LOCK true).leaveDark n) :=
  congrArg Host.Outcome.next (if_neg (by rw [hrun]; decide))

theorem exec_cdrLost (hlock : s.lstat n LINE_STAT_CDR_LOCK = true) :
    exec (.cdrLockChange n false) s = .next ((s.setLstat n LINE_STAT_CDR_LOCK false).lineEvent n 0x1F) := by
  have hwas : (if s.lstat n LINE_STAT_CDR_LOCK then (s.setLstat n LINE_STAT_CDR_LOCK false).lineEvent n 0x1F
      else s.setLstat n LINE_STAT_CDR_LOCK false) = (s.setLstat n LINE_STAT_CDR_LOCK false).lineEvent n 0x1F := if_pos hlock
  rw [← hwas]
  exact congrArg Host.Outcome.next (if_neg (by rw [hrun]; decide))

end

/-- CDR_LOCK latches nothing. -/
theorem setLstat_cdrLock (s : State) (n : Nat) (b : Bool) :
    s.setLstat n LINE_STAT_CDR_LOCK b = s.setFlag (LINE_STAT n) LINE_STAT_CDR_LOCK b := by
  unfold State.setLstat
  rw [if_neg (by simp [LINE_STAT_CDR_LOCK])]

/-- What CDR lock leaves of a port in Dark without dLOS. -/
structure Searching (n : Nat) (s t : State) : Prop extends Added (· ∈ [LINE_STAT n, LINE_FRM_STAT n]) s t where
  framer : t.fld (LINE_FRM_STAT n) LINE_FRM_STAT_STATE = frSearch
  lock : t.lstat n LINE_STAT_CDR_LOCK = true
  quiet : t.chan = s.chan

theorem searching_cdrLock {s : State} {n : Nat} (hdark : s.fld (LINE_FRM_STAT n) LINE_FRM_STAT_STATE = frDark)
    (hlos : s.lstat n LINE_STAT_LOS = false) (hoof : s.lstat n LINE_STAT_OOF = false) :
    Searching n s ((s.setLstat n LINE_STAT_CDR_LOCK true).leaveDark n) := by
  rw [setLstat_cdrLock]
  set u := s.setFlag (LINE_STAT n) LINE_STAT_CDR_LOCK true with hu
  have hlock : u.lstat n LINE_STAT_CDR_LOCK = true := flag_setFlag_self _ _ (by decide) rfl _
  have hother {f : Fld} (hf : f.lo + f.len ≤ 16) : u.lstat n f = s.lstat n f :=
    flag_setFlag_other s (LINE_STAT n) (.inl (by simpa [LINE_STAT_CDR_LOCK] using hf)) true
  have hdark' : u.fld (LINE_FRM_STAT n) LINE_FRM_STAT_STATE = frDark := (fld_setFld_ne s _ _ _ (frmStat_ne_lineStat n).symm).trans hdark
  have hoof' : u.lstat n LINE_STAT_OOF = false := (hother (by decide)).trans hoof
  have hleft : u.leaveDark n = u.framerMoved n frSearch := by
    unfold State.leaveDark
    rw [if_pos ⟨hdark', by rw [hother (by decide), hlos]; rfl, hlock⟩, setFramer_quiet u n frSearch hoof' (by decide),
      if_neg (by rw [hdark']; decide)]
  rw [hleft]
  exact {
    toAdded := (((Added.refl s).setFlag _ _ _ (by simp)).setFld _ _ _ (by simp)).setLine _
    framer := fld_setFld_self u _ (by decide) _
    lock := by rw [State.lstat, State.flag, fld_framerMoved_stat, ← State.flag, ← State.lstat, hlock]
    quiet := rfl }

/-! ### The obligation -/

/-- Settles O25: the framer's step decides the state, the rest of the row leaves it, and the parity is counted before the detectors judge. -/
theorem framingAndLockOfTheReceiver : Obligations.FramingAndLockOfTheReceiver := by
  unfold Obligations.FramingAndLockOfTheReceiver
  refine ⟨?locked, ?lost, ?frame⟩
  case locked =>
    intro s n hrun hdark hlos hoof
    have h := searching_cdrLock hdark hlos hoof
    exact ⟨_, exec_cdrLocked hrun, h.framer, h.lock, fun a ha => h.regs a ha, sameMem_of_mem h.mem, h.quiet⟩
  case lost =>
    intro s n hup hlock
    refine ⟨_, exec_cdrLost (running_of_lineUp hup) hlock, ?_⟩
    rw [setLstat_cdrLock]
    have h : Added (· ∈ [LINE_STAT n]) s ((s.setFlag (LINE_STAT n) LINE_STAT_CDR_LOCK false).lineEvent n 0x1F) :=
      ((Added.refl s).setFlag _ _ _ (by simp)).portEvent _ _
    refine ⟨?_, ?_, fun a ha => h.regs a ha, sameMem_of_mem h.mem⟩
    · rw [State.lstat, flag_of_reg (reg_portEvent ..)]
      exact flag_setFlag_self _ _ (by decide) rfl _
    · rw [lineEvent_of_on ((flag_setFlag_ne s _ _ _ (by unfold LINE_STAT LINE_CFG; omega)).trans (enabled_of_lineUp hup))]
      exact raised_raise _ _ _ rfl (not_dormant_of_lineUp (s := s) hup)
  case frame =>
    intro s n f r hup halone hr
    subst hr
    have hexec := exec_lineFrame hup halone f
    generalize (s.lineRx n f.bytes).wordOk = ok at hexec ⊢
    have hadded : Added (portRegs n) s ((s.framerStep n ok f).frameActed n (s.frameBytes n ok f)) :=
      ((added_framerStep s n ok f).mono fun a => portRegs_of_framerRegs).trans (added_frameActed _ n _)
    have hready := added_readyJudged ((s.framerStep n ok f).frameActed n (s.frameBytes n ok f))
    have hrow := frameRow (s.framerStep n ok f) n (s.frameBytes n ok f)
    refine ⟨_, hexec, fun a => (sameMem_of_mem hready.mem a).trans (sameMem_of_mem hadded.mem a), fun a ha => ?_, fun hst hf => ?search,
      fun hst hbad => ?presyncBad, fun hst hgood => ?presync, fun hst hbad herr => ?missed, fun hst hbad herr => ?errored,
      fun hst hgood hrun => ?oldBack, fun p hst hold hf hpos => ?newBack, fun hst hgood hlos hlof htim hais hi => ?taken,
      fun hst hbad hf hlos hlof hi => ?lof⟩
    · simp only [not_or] at ha
      exact (hready.regs a ha.1).trans (hadded.regs a fun h => ha.2 ⟨h.1.le, h.2⟩)
    case search =>
      obtain ⟨p, hp⟩ := Option.ne_none_iff_exists'.mp hf
      rw [hrow.framer, framerStep_search hst hp]
      exact framer_setFramer s n _ (by decide)
    case presyncBad => rw [hrow.framer, framerStep_presync hst, hbad, if_neg (by decide), framer_setFramer _ _ _ (by decide)]
    case presync => rw [hrow.framer, framerStep_presync hst, hgood, if_pos rfl, framer_setFramer _ _ _ (by decide)]
    case missed =>
      subst hbad
      rw [hrow.framer, hrow.oof, hrow.oofCount, framerStep_missed hst herr]
      exact ⟨framer_setFramer _ _ _ (by decide), oof_setFramer s n (by rw [hst]; decide), oofCount_setFramer s n (by rw [hst]; decide)⟩
    case errored =>
      subst hbad
      rw [hrow.framer, framerStep_errored hst herr, fld_setLine, hst]
    case oldBack =>
      subst hgood
      rw [hrow.framer, hrow.oof, framerStep_oldBack hst hrun]
      exact ⟨framer_setFramer _ _ _ (by decide), oof_setFramer s n (by rw [hst]; decide)⟩
    case newBack =>
      rw [hrow.framer, hrow.candidate, framerStep_newBack hst hold hf hpos, fld_setLine, line_setLine]
      exact ⟨framer_setFramer _ _ _ (by decide), rfl⟩
    case taken =>
      subst hgood
      have h := taken_lineFrame ⟨hst, hlos, hlof, htim, hais, hi⟩ f
      refine ⟨?_, h.kRaw, h.ohRx, h.dcc, h.refB1, h.refB2, h.b1, h.b2, fun hrate hm => ?_, fun hrate hm => ?_⟩
      · rw [hrow.framer, framerStep_kept hst, fld_setLine, hst]
      · rw [h.rei, reiOf_stm1 hrate, if_pos hm]
      · rw [h.rei, reiOf_stm1 hrate, if_neg (by omega)]
        exact BitVec.add_zero _
    case lof =>
      subst hbad
      rw [hrow.lof, framerStep_lost hst hf]
      exact lof_lofStep _ n (by rw [fld_setLine, hst]; decide) hlos hi

end Sys2Proof.Machine
end

section
/-! PROOF of O47: the transmit frame boundary, the frame timing of a twin, and delay calibration. -/

namespace Sys2Proof.Machine

/-- In a list without repetition the one element of which `g` reads the effect meets `g` as it was at the start. -/
theorem each_once {α β : Type} (I : State → Prop) (g : State → β) {f : State → α → State} {l : List α} (hl : l.Nodup) {a : α} (ha : a ∈ l)
    (hI : ∀ x, ∀ b ∈ l, I x → I (f x b)) (hg : ∀ x, ∀ b, b ≠ a → g (f x b) = g x) {s : State} (h : I s) :
    ∃ x, I x ∧ g x = g s ∧ g (s.each l f) = g (f x a) := by
  obtain ⟨l₁, l₂, rfl⟩ := List.append_of_mem ha
  have hnot : a ∉ l₁ ∧ a ∉ l₂ := by
    have hcons := (List.nodup_middle.mp hl)
    simpa using (List.nodup_cons.mp hcons).1
  have hkeep (l : List α) (hl : a ∉ l) (y : State) : g (y.each l f) = g y :=
    each_preserves (fun x => g x = g y) (fun x b hb hx => (hg x b fun he => hl (he ▸ hb)).trans hx) rfl
  have hsplit : s.each (l₁ ++ a :: l₂) f = (f (s.each l₁ f) a).each l₂ f := by simp [State.each]
  exact ⟨s.each l₁ f, each_preserves I (fun x b hb => hI x b (by simp [hb])) h, hkeep l₁ hnot.1 s, by rw [hsplit, hkeep l₂ hnot.2]⟩

/-! ### What a port's next frame is built from (R122, R131, R282) -/

/-- From `s` to `x` the frame timing alone has moved among the registers. -/
abbrev Synced (s x : State) : Prop := Frame (· = TWN_SYNC_STAT) s x

section
variable {s x : State} (h : Synced s x)
include h

theorem Synced.txPort (n : Nat) : x.txPort n = s.txPort n := by
  have hcfg (g : Nat) (f : Fld) : x.fld (APS_CFG g) f = s.fld (APS_CFG g) f := h.fld (by unfold APS_CFG TWN_SYNC_STAT; omega) f
  have hstat (g : Nat) (f : Fld) : x.fld (APS_STAT g) f = s.fld (APS_STAT g) f := h.fld (by unfold APS_STAT TWN_SYNC_STAT; omega) f
  simp only [State.txPort, State.grpOf, State.grpPorts, State.flag, hcfg, hstat]

theorem Synced.stmN (n : Nat) : x.stmN n = s.stmN n := by
  rw [State.stmN, h.fld (by unfold LINE_CFG TWN_SYNC_STAT; omega), State.stmN]

theorem Synced.augBound (n a : Nat) : x.augBound n a = s.augBound n a := by
  rw [Bool.eq_iff_iff]
  simp only [State.augBound, List.any_eq_true, List.mem_range]
  refine exists_congr fun k => and_congr_right fun hk => ?_
  have hslot : PATH_SLOT_CFG k ≠ TWN_SYNC_STAT := by unfold PATH_SLOT_CFG TWN_SYNC_STAT; omega
  rw [h.flag hslot, h.fld hslot, h.fld hslot]

theorem Synced.txAugs (n : Nat) (augs : List (List Byte)) : x.txAugs n augs = s.txAugs n augs := by
  simp only [State.txAugs, h.txPort, h.stmN, h.augBound]

theorem Synced.lineUp {n : Nat} (hn : n < 8) : x.lineUp n = s.lineUp n := by
  rw [State.lineUp, h.running (by decide), h.flag (by unfold LINE_CFG TWN_SYNC_STAT; omega), State.lineUp]

end

/-- No parity bit is inverted. -/
theorem invertBits_zero (bs : List Byte) : invertBits 0 bs = bs := by
  induction bs with
  | nil => rfl
  | cons b bs ih =>
    rw [invertBits, Nat.min_zero, Nat.sub_zero, ih]
    simp

section
variable {s : State} {n : Nat} (h : s.reg (LINE_FORCE n) = 0)
include h

/-- Where LINE_FORCE is 0 nothing is forced. -/
theorem flag_force (f : Fld) : s.flag (LINE_FORCE n) f = false := by simp [State.flag, State.fld, h, Fld.get]

theorem fld_force (f : Fld) : s.fld (LINE_FORCE n) f = 0 := by simp [State.fld, h, Fld.get]

/-- B1 and B2 over the frame sent before, unforced (R122). -/
theorem parity_lineTx {b1 : Byte} {b2 : List Byte} (hp : (s.line n).txPar = some (b1, b2)) : (s.lineTx n).b1 = b1 ∧ (s.lineTx n).b2 = b2 := by
  unfold State.lineTx
  simp only [hp, Option.getD_some, flag_force h, fld_force h, Nat.min_zero, invertBits_zero, Bool.false_eq_true, if_false, List.map_id']
  exact ⟨trivial, trivial⟩

/-- The K bytes in force: those that waited, or LINE_K_TX (R131). -/
theorem k1_lineTx : (s.lineTx n).k1 = BitVec.ofNat 8 (if (s.line n).kLate then (s.line n).kNow else s.reg (LINE_K_TX n)).toNat := by
  unfold State.lineTx
  simp only [flag_force h, Bool.false_eq_true, if_false]

end

/-- The frame that port `p` sends, of which `l` is left: the payload `augs` in its section overhead, scrambled and with its lane's polarity. -/
structure FrameSent (p : Nat) (augs : List (List Byte)) (s : State) (l : LinePort) : Prop where
  par : l.txPar = some (bip8 (scrambleFrame (s.stmN p) (s.flag (LINE_CFG p) LINE_CFG_SCR_EN) (l.tx.bytes (s.stmN p) false (s.txAugs p augs))),
    bip24 (s.stmN p) (l.tx.bytes (s.stmN p) false (s.txAugs p augs)))
  sent : l.sent = invertLane (s.flag (LINE_CFG p) LINE_CFG_TX_INV)
    (scrambleFrame (s.stmN p) (s.flag (LINE_CFG p) LINE_CFG_SCR_EN) (l.tx.bytes (s.stmN p) false (s.txAugs p augs)))
  parity : ∀ b1 b2, (s.line p).txPar = some (b1, b2) → l.tx.b1 = b1 ∧ l.tx.b2 = b2
  k1 : l.tx.k1 = BitVec.ofNat 8 (if (s.line p).kLate then (s.line p).kNow else s.reg (LINE_K_TX p)).toNat

/-- The bytes of port `n`'s next frame on its lane, scrambled but not yet inverted. -/
def State.lane (s : State) (n : Nat) (augs : List (List Byte)) : List Byte :=
  scrambleFrame (s.stmN n) (s.flag (LINE_CFG n) LINE_CFG_SCR_EN)
    ((s.lineTx n).bytes (s.stmN n) (s.flag (LINE_FORCE n) LINE_FORCE_MSAIS) (s.txAugs n augs))

section
variable (s : State) (n : Nat) (augs : List (List Byte))

/-- What the port keeps of the frame it sends. -/
theorem line_buildFrame (hup : s.lineUp n = true) : (s.buildFrame n augs).line n = { s.line n with
    tx := s.lineTx n, txJ0 := (s.txTrace n).2, kNow := 0, kLate := false
    txPar := some (bip8 (s.lane n augs), bip24 (s.stmN n)
      ((s.lineTx n).bytes (s.stmN n) (s.flag (LINE_FORCE n) LINE_FORCE_MSAIS) (s.txAugs n augs)))
    sent := invertLane (s.flag (LINE_CFG n) LINE_CFG_TX_INV) (s.lane n augs) } := by
  unfold State.buildFrame
  rw [if_neg (by rw [hup]; decide)]
  exact line_setLine ..

/-- Only what the port holds beside its registers, and a free word, goes into its frame. -/
theorem beside_buildFrame : (s.buildFrame n augs).regs = s.regs ∧ (s.buildFrame n augs).sp = s.sp ∧ (s.buildFrame n augs).ld = s.ld
    ∧ (s.buildFrame n augs).chan = s.chan ∧ (s.buildFrame n augs).mem = s.mem ∧ (s.buildFrame n augs).tw = s.tw := by
  unfold State.buildFrame
  split <;> exact ⟨rfl, rfl, rfl, rfl, rfl, rfl⟩

theorem line_buildFrame_ne {m : Nat} (hm : n ≠ m) : (s.buildFrame n augs).line m = s.line m := by
  unfold State.buildFrame
  split
  · rfl
  · exact tget_tset_ne _ _ _ _ hm

end

theorem frameSent_buildFrame {s x : State} (h : Synced s x) {p : Nat} (hp : p < 8) (hline : x.line p = s.line p) (hup : s.lineUp p = true)
    (hforce : s.reg (LINE_FORCE p) = 0) (augs : List (List Byte)) : FrameSent p augs s ((x.buildFrame p augs).line p) := by
  have hforce' : x.reg (LINE_FORCE p) = 0 := (h.regs _ (by unfold LINE_FORCE TWN_SYNC_STAT; omega)).trans hforce
  have hcfg (f : Fld) : x.flag (LINE_CFG p) f = s.flag (LINE_CFG p) f := h.flag (by unfold LINE_CFG TWN_SYNC_STAT; omega) f
  have hbuilt := line_buildFrame x p augs ((h.lineUp hp).trans hup)
  rw [State.lane, flag_force hforce', h.stmN, h.txAugs, hcfg, hcfg] at hbuilt
  rw [hbuilt]
  exact {
    par := rfl
    sent := rfl
    parity b1 b2 hpar := parity_lineTx hforce' (by rw [hline, hpar])
    k1 := by
      show (x.lineTx p).k1 = _
      rw [k1_lineTx hforce', hline, h.regs _ (by unfold LINE_K_TX TWN_SYNC_STAT; omega)] }

/-! ### The frame boundary (R275, R362) -/

/-- The trigger and status registers of the engines, which trigger 2 may move. -/
def trigRegs (a : Nat) : Prop := ∃ e, e < 8 ∧ (a = FAC_TRIG_STAT e ∨ a = FAC_STAT e)

theorem added_facPulseAll (s : State) (bits : Nat) : Added trigRegs s (s.facPulseAll bits) :=
  (Added.refl s).each _ _ fun x e he hx => by
    have he' := List.mem_range.mp he
    have hlatched := hx.setFld (FAC_TRIG_STAT e) FAC_TRIG_STAT_BITS (x.fld (FAC_TRIG_STAT e) FAC_TRIG_STAT_BITS ||| bits) ⟨e, he', .inl rfl⟩
    exact hx.ite (((hlatched.setFld _ FAC_STAT_CAUSE _ ⟨e, he', .inr rfl⟩).setFld _ FAC_STAT_STATE _ ⟨e, he', .inr rfl⟩).ite hlatched)

/-- A trigger moves neither a port, nor the twin, nor the events. -/
theorem beside_facPulseAll (s : State) (bits : Nat) :
    (s.facPulseAll bits).lines = s.lines ∧ (s.facPulseAll bits).tw = s.tw ∧ (s.facPulseAll bits).chan = s.chan := by
  have h := each_keeps (fun x => (x.lines, x.tw, x.chan)) (f := fun x e => x.facPulse e bits) (fun x e => by
    unfold State.facPulse
    dsimp only
    split
    · rfl
    split <;> rfl) s (List.range 8)
  simp only [Prod.mk.injEq] at h
  exact h

/-- The frame timing of a running TW at the boundary that gives frame `n`, the sync pulse still to follow. -/
def State.boundaryTimed (s : State) (n : Nat) : State :=
  (s.setFld TWN_SYNC_STAT TWN_SYNC_STAT_FRAME n).setTw { s.tw with
    super := if n = 0 then (s.tw.super + 1) % 65536 else s.tw.super, boundary := s.now }

def State.boundaryTaken (s : State) (n : Nat) : State := (s.boundaryTimed n).sendPulse n

/-- Every port has built its frame. -/
def State.framesBuilt (s : State) (augs : List (List (List Byte))) : State :=
  s.each (List.range 8) fun s n => s.buildFrame n (augs.getD (s.txPort n) [])

theorem exec_transmitFrameBoundary {s : State} (augs : List (List (List Byte))) (hrun : s.running 20 = true) :
    ∃ u, (u = (s.boundaryTaken ((s.fld TWN_SYNC_STAT TWN_SYNC_STAT_FRAME + 1) % 48)).framesBuilt augs)
      ∧ ∃ t, exec (.transmitFrameBoundary augs) s = .next t ∧ (t = u ∨ t = u.facPulseAll 4) := by
  refine ⟨_, rfl, _, rfl, ?_⟩
  dsimp only
  rw [if_pos hrun]
  exact (ite_eq_or_eq _ _ _).symm

section
variable (s : State) (n : Nat)

theorem added_boundaryTimed : Added (· = TWN_SYNC_STAT) s (s.boundaryTimed n) := 
  ((Added.refl (W := (· = TWN_SYNC_STAT)) s).setFld _ _ _ rfl).setTw _

theorem added_boundaryTaken : Added (· = TWN_SYNC_STAT) s (s.boundaryTaken n) := (added_boundaryTimed s n).setTw _

theorem frame_boundaryTaken (hn : n < 48) : (s.boundaryTaken n).fld TWN_SYNC_STAT TWN_SYNC_STAT_FRAME = n :=
  (fld_setFld_self s _ (by decide) n).trans (Nat.mod_eq_of_lt (by simp only [TWN_SYNC_STAT_FRAME]; omega))

theorem pulse_sendPulse : (s.sendPulse n).tw.pulse = if s.linkRuns = true ∧ s.role = roActive then some (n, s.tw.super) else none := by
  simp [State.sendPulse, State.setTw]

/-- The Active twin of a link that runs sends the counter and the superframe number. -/
theorem pulse_boundaryTaken : (s.boundaryTaken n).tw.pulse
    = if s.linkRuns = true ∧ s.role = roActive then some (n, (s.boundaryTaken n).tw.super) else none := by
  have h : Synced s (s.boundaryTimed n) := (added_boundaryTimed s n).toFrame
  have hruns : (s.boundaryTimed n).linkRuns = s.linkRuns := by
    rw [State.linkRuns, h.running (by decide), State.paired, h.flag (by decide), ← State.paired, h.inState (by decide), State.linkRuns]
  have hrole : (s.boundaryTimed n).role = s.role := h.fld (by decide) _
  rw [State.boundaryTaken, pulse_sendPulse, hruns, hrole]
  rfl

end

/-- Building the frames moves neither registers, nor memory, nor events, nor the twin. -/
structure Framed (r x : State) : Prop extends Added (fun _ => False) r x where
  quiet : x.chan = r.chan
  tw : x.tw = r.tw

theorem framed_buildFrame {r x : State} (h : Framed r x) (n : Nat) (augs : List (List Byte)) : Framed r (x.buildFrame n augs) := by
  obtain ⟨hregs, hsp, hld, hchan, hmem, htw⟩ := beside_buildFrame x n augs
  exact {
    regs a ha := by
      rw [State.reg, hregs]
      exact h.regs a ha
    sp := hsp.trans h.sp
    ld := hld.trans h.ld
    chan := hchan ▸ h.chan
    mem := hmem.trans h.mem
    quiet := hchan.trans h.quiet
    tw := htw.trans h.tw }

theorem framed_framesBuilt (s : State) (augs : List (List (List Byte))) : Framed s (s.framesBuilt augs) :=
  each_preserves (Framed s) (fun _ _ _ hx => framed_buildFrame hx _ _) ⟨.refl s, rfl, rfl⟩

/-- Each port that runs sends its frame. -/
theorem frameSent_framesBuilt {s : State} {n p : Nat} (augs : List (List (List Byte))) (hp : p < 8) (hup : s.lineUp p = true)
    (hforce : s.reg (LINE_FORCE p) = 0) :
    FrameSent p (augs.getD (s.txPort p) []) s (((s.boundaryTaken n).framesBuilt augs).line p) := by
  obtain ⟨x, hx, hline, hlast⟩ := each_once (Framed (s.boundaryTaken n)) (fun x => x.line p)
    (f := fun x q => x.buildFrame q (augs.getD (x.txPort q) [])) List.nodup_range (List.mem_range.mpr hp)
    (fun _ _ _ hx => framed_buildFrame hx _ _) (fun x q hq => line_buildFrame_ne x q _ hq) (⟨.refl _, rfl, rfl⟩ : Framed _ _)
  have hsync : Synced s x := (added_boundaryTaken s n).toFrame.trans (hx.toFrame.mono fun _ => False.elim)
  rw [State.framesBuilt, hlast, hsync.txPort]
  exact frameSent_buildFrame hsync hp hline hup hforce _

/-- What a frame boundary that gives frame `n` leaves. -/
structure BoundaryRow (n : Nat) (augs : List (List (List Byte))) (s t : State) : Prop
    extends Added (fun a => a = TWN_SYNC_STAT ∨ trigRegs a) s t where
  frame : t.fld TWN_SYNC_STAT TWN_SYNC_STAT_FRAME = n
  tw : t.tw = (s.boundaryTaken n).tw
  quiet : t.chan = s.chan
  sent : ∀ p, p < 8 → s.lineUp p = true → s.reg (LINE_FORCE p) = 0 → FrameSent p (augs.getD (s.txPort p) []) s (t.line p)

theorem boundaryRow_framesBuilt (s : State) {n : Nat} (hn : n < 48) (augs : List (List (List Byte))) :
    BoundaryRow n augs s ((s.boundaryTaken n).framesBuilt augs) := by
  have h := framed_framesBuilt (s.boundaryTaken n) augs
  exact {
    toAdded := ((added_boundaryTaken s n).mono fun _ => .inl).trans (h.toAdded.mono fun _ => False.elim)
    frame := (h.fld id _).trans (frame_boundaryTaken s n hn)
    tw := h.tw
    quiet := h.quiet
    sent p hp hup hforce := frameSent_framesBuilt augs hp hup hforce }

/-- Trigger 2 leaves all of it. -/
theorem BoundaryRow.facPulseAll {n : Nat} {augs : List (List (List Byte))} {s t : State} (h : BoundaryRow n augs s t) (bits : Nat) :
    BoundaryRow n augs s (t.facPulseAll bits) := by
  obtain ⟨hlines, htw, hchan⟩ := beside_facPulseAll t bits
  have hadded := added_facPulseAll t bits
  have hsync : ¬ trigRegs TWN_SYNC_STAT := by
    rintro ⟨e, -, he | he⟩
    · unfold TWN_SYNC_STAT FAC_TRIG_STAT at he
      omega
    · unfold TWN_SYNC_STAT FAC_STAT at he
      omega
  exact {
    toAdded := h.toAdded.trans (hadded.mono fun _ => .inr)
    frame := (hadded.fld hsync _).trans h.frame
    tw := htw.trans h.tw
    quiet := hchan.trans h.quiet
    sent p hp hup hforce := by
      rw [line_of_lines hlines]
      exact h.sent p hp hup hforce }

theorem boundaryRow {s : State} (augs : List (List (List Byte))) (hrun : s.running 20 = true) :
    ∃ t, exec (.transmitFrameBoundary augs) s = .next t
      ∧ BoundaryRow ((s.fld TWN_SYNC_STAT TWN_SYNC_STAT_FRAME + 1) % 48) augs s t := by
  obtain ⟨u, hu, t, hexec, ht⟩ := exec_transmitFrameBoundary augs hrun
  have h := boundaryRow_framesBuilt s (n := (s.fld TWN_SYNC_STAT TWN_SYNC_STAT_FRAME + 1) % 48) (Nat.mod_lt _ (by decide)) augs
  rw [← hu] at h
  refine ⟨t, hexec, ?_⟩
  rcases ht with rfl | rfl
  · exact h
  · exact h.facPulseAll 4

/-! ### The role machine leaves the frame timing and the calibration alone (R260, R275) -/

/-- The registers that the role machine writes. -/
def roleRegs (a : Nat) : Prop := a ∈ [TWN_STAT, TWN_CMD, TWN_EQ_SWITCH_CNT] ∨ padRegs a

/-- What a twin has sent on stream 0, what it has accepted on stream 2, and its last calibration. -/
def Twin.said (w : Twin) : List (List (BitVec 64)) × Nat × Nat × Option Int := (w.out, w.tx0, w.rx2, w.calLast)

/-- From `r` to `s` the role machine has moved. -/
structure RoleMoved (r s : State) : Prop extends Added roleRegs r s where
  said : s.tw.said = r.tw.said

namespace RoleMoved

variable {r s t : State}

theorem refl (s : State) : RoleMoved s s := ⟨.refl s, rfl⟩

theorem ite {c : Prop} [Decidable c] (h : RoleMoved r s) (g : RoleMoved r t) : RoleMoved r (if c then s else t) := by split <;> assumption

section
variable (h : RoleMoved r s)
include h

theorem setStat (f : Fld) (v : Nat) : RoleMoved r (s.setFld TWN_STAT f v) := ⟨h.toAdded.setFld _ _ _ (.inl (by simp)), h.said⟩

theorem setStatFlag (f : Fld) (b : Bool) : RoleMoved r (s.setFlag TWN_STAT f b) := h.setStat f _

theorem raise (isl e : Nat) (d : List Word) : RoleMoved r (s.raise isl e d) := ⟨h.toAdded.raise isl e d, by rw [tw_raise, h.said]⟩

theorem setTw (x : Twin) (hx : x.said = s.tw.said) : RoleMoved r (s.setTw x) := ⟨h.toAdded.setTw x, hx.trans h.said⟩

theorem driveClaim (b : Bool) : RoleMoved r (s.driveClaim b) where
  toAdded := h.toAdded.trans ((added_driveClaim s b).mono fun _ => .inr)
  said := by
    have hpads (x : State) : x.updatePads.tw = x.tw :=
      each_keeps State.tw (fun x p => by split <;> rfl) (x.setFlag SUP_SAFETY_STAT SUP_SAFETY_STAT_SHARED_EN _) _
    have htw : (s.driveClaim b).tw = s.tw := by
      unfold State.driveClaim
      dsimp only
      split
      · exact hpads _
      · rw [tw_raise, hpads]
        rfl
    rw [htw, h.said]

theorem roleTo (x : Nat) : RoleMoved r (s.roleTo x) := h.ite (((h.setStat TWN_STAT_ROLE x).raise _ _ _).driveClaim _)

theorem updateHitless : RoleMoved r s.updateHitless := h.ite ((h.setStatFlag TWN_STAT_HITLESS _).raise _ _ _)

theorem updateSilent : RoleMoved r s.updateSilent :=
  have hs := ((h.setTw { s.tw with silentAt := s.now } rfl).ite h).setStatFlag TWN_STAT_SILENT _
  hs.ite (hs.setStatFlag TWN_STAT_SOLO false)

/-- Equipment WTR starts. -/
theorem wtrStarts (n : Nat) : RoleMoved r
    (((s.setTw { s.tw with wtrEnd := s.now + 1000000000 * n }).setFlag TWN_STAT TWN_STAT_WTR true).raise 20 0x43C [w32 n]) :=
  ((h.setTw { s.tw with wtrEnd := s.now + 1000000000 * n } rfl).setStatFlag TWN_STAT_WTR true).raise _ _ _

theorem updateEqWtr : RoleMoved r s.updateEqWtr := by
  unfold State.updateEqWtr
  dsimp only
  refine RoleMoved.ite (RoleMoved.setStatFlag (RoleMoved.ite (RoleMoved.wtrStarts ?fault _) ?fault) _ _) (RoleMoved.ite
    (RoleMoved.wtrStarts ?fault _) ?fault)
  exact h.setTw _ rfl

theorem dropCommand : RoleMoved r s.dropCommand := RoleMoved.ite ⟨h.toAdded.setFld _ _ _ (.inl (by simp)), h.said⟩ h

theorem dropHandover : RoleMoved r s.dropHandover := RoleMoved.ite (h.setTw _ rfl) h

theorem switchDone (kind : Nat) : RoleMoved r (s.switchDone kind) :=
  RoleMoved.raise ⟨h.toAdded.count _ _ (.inl (by simp)), h.said⟩ _ _ _

theorem ruled : RoleMoved r s.ruled :=
  ((((h.setStatFlag TWN_STAT_READY s.isReady).updateHitless.updateSilent.updateEqWtr.dropCommand).setStatFlag TWN_STAT_EQ_SEL _).setStat
    TWN_STAT_EQ_REQ _).dropHandover

theorem moveRole : RoleMoved r s.moveRole :=
  ite ((h.setTw { s.tw with handover := none } rfl).roleTo _) <| ite h <|
    ite (ite (h.roleTo _) <| ite (h.roleTo _) h) <|
      ite (ite ((h.roleTo _).switchDone _) h) <| ite ((h.roleTo _).switchDone _) h

theorem roleEval : RoleMoved r s.roleEval := by
  rw [roleEval_eq]
  exact h.ite (((h.setStatFlag TWN_STAT_READY s.isReady).roleTo _).ite h.ruled.moveRole)

end

end RoleMoved

/-- The frame timing and the delay are none of the role machine's registers. -/
theorem not_roleRegs_timing : ¬ roleRegs TWN_SYNC_STAT ∧ ¬ roleRegs TWN_DELAY := by
  refine ⟨?_, ?_⟩ <;>
  · rintro (h | h | h)
    · exact absurd h (by decide)
    · exact absurd h (by decide)
    · exact absurd (le_of_driveRegs h).2 (by decide)

theorem twinRegs_of_roleRegs {a : Nat} (h : roleRegs a) : Safety.twinRegs a := by
  rcases h with h | h
  · simp only [List.mem_cons, List.not_mem_nil, or_false] at h
    rcases h with rfl | rfl | rfl <;> exact .inl ⟨by decide, by decide⟩
  · exact twinRegs_of_padRegs h

/-! ### A message accepted outside quarantine (R269) -/

/-- From `s` to `v` the next message of a stream has been accepted and its ACK taken: what calibration reads stands as it did. -/
structure Accepted (s v : State) : Prop extends Added (· ∈ [TWN_STAT, TWN_SYNC_STAT]) s v where
  said : v.tw.said = s.tw.said
  role : v.role = s.role
  calOk : v.flag TWN_SYNC_STAT TWN_SYNC_STAT_CAL_OK = s.flag TWN_SYNC_STAT TWN_SYNC_STAT_CAL_OK
  itc : v.itc = s.itc
  now : v.now = s.now

namespace Accepted

variable {s v : State}

theorem ite {c : Prop} [Decidable c] {w : State} (h : Accepted s v) (g : Accepted s w) : Accepted s (if c then v else w) := by
  split <;> assumption

section
variable (h : Accepted s v)
include h

theorem setTw (x : Twin) (hx : x.said = v.tw.said) : Accepted s (v.setTw x) :=
  ⟨h.toAdded.setTw x, hx.trans h.said, h.role, h.calOk, h.itc, h.now⟩

/-- A field of the frame timing other than CAL_OK. -/
theorem setSync {f : Fld} (hf : f.lo + f.len ≤ 3 ∨ 4 ≤ f.lo) (x : Nat) : Accepted s (v.setFld TWN_SYNC_STAT f x) where
  toAdded := h.toAdded.setFld _ _ _ (by simp)
  said := h.said
  role := (fld_setFld_ne v _ _ _ (by decide)).trans h.role
  calOk := (flag_setFld_other v TWN_SYNC_STAT (by simp only [TWN_SYNC_STAT_CAL_OK]; omega) x).trans h.calOk
  itc := h.itc
  now := h.now

theorem updateHitless : Accepted s v.updateHitless := by
  refine Accepted.ite h ?_
  exact {
    toAdded := (h.toAdded.setFlag _ _ _ (by simp)).raise _ _ _
    said := by rw [tw_raise]; exact h.said
    role := by
      rw [State.role, fld_raise]
      exact (fld_setFld_other v TWN_STAT (by decide) _).trans h.role
    calOk := by
      rw [flag_raise]
      exact (flag_setFlag_ne v _ _ _ (by decide)).trans h.calOk
    itc := by rw [itc_raise]; exact h.itc
    now := by rw [now_raise]; exact h.now }

theorem setUnacked (l : List (Nat × LinkMsg)) : Accepted s (v.setUnacked l) :=
  (h.setTw { v.tw with unacked := l } rfl).setSync (f := TWN_SYNC_STAT_UNACKED) (by decide) _

theorem takeAck (ack : Nat) : Accepted s (v.takeAck ack) := by
  unfold State.takeAck
  dsimp only
  refine Accepted.ite (Accepted.updateHitless (Accepted.setSync (Accepted.ite h ?unacked) ?syncC _)) (Accepted.ite h ?unacked)
  case unacked => exact h.setUnacked _
  case syncC => decide

end

end Accepted

theorem received_next {s : State} {m : MsgHead} (h : Safety.nextMsg s 0 m) : ∃ v, Accepted s v ∧ ∀ f, s.received 0 m false f = f v := by
  obtain ⟨hruns, hquar, hseq⟩ := h
  have hjudged : s.judgeSeq 0 m.seq.toNat false = (s.setLastSeq 0 m.seq.toNat, true) := by
    unfold State.judgeSeq
    rw [if_neg (by simp [hruns, hquar])]
    simp [hseq]
  have hnoted : Accepted s (s.setLastSeq 0 m.seq.toNat) :=
    Accepted.setTw ⟨.refl s, rfl, rfl, rfl, rfl, rfl⟩ { s.tw with rx0 := m.seq.toNat } rfl
  have hquar' : (s.setLastSeq 0 m.seq.toNat).twn TWN_STAT_QUAR = false := hquar
  refine ⟨_, hnoted.takeAck m.ack.toNat, fun f => ?_⟩
  unfold State.received
  rw [hjudged]
  simp only [hquar', Bool.false_eq_true, if_false]

/-! ### Calibration (R275) -/

theorem added_setCal (s : State) (ok : Bool) : Added (· = TWN_SYNC_STAT) s (s.setCal ok) :=
  have h := Added.refl (W := (· = TWN_SYNC_STAT)) s
  h.ite ((h.setFlag _ _ _ rfl).raise _ _ _)

theorem tw_setCal (s : State) (ok : Bool) : (s.setCal ok).tw = s.tw := by
  unfold State.setCal
  split
  · rfl
  · rw [tw_raise]
    rfl

theorem calOk_setCal (s : State) (ok : Bool) : (s.setCal ok).flag TWN_SYNC_STAT TWN_SYNC_STAT_CAL_OK = ok := by
  unfold State.setCal
  split
  · assumption
  · rw [flag_raise]
    exact flag_setFlag_self _ _ (by decide) rfl _

/-- CAL_OK rising is told. -/
theorem raised_setCal {s : State} (hd : s.sp.dormant = false) :
    Safety.raised (if s.flag TWN_SYNC_STAT TWN_SYNC_STAT_CAL_OK then [] else [(20, 0x430)]) s (s.setCal true) := by
  unfold State.setCal
  split
  · exact raised_of_chan_eq rfl
  · exact raised_raise _ _ _ rfl hd

/-- The one-way delay that an echo gives, corrected by SKEW_TRIM. -/
def State.delayOf (s : State) (stamp turnaround : Nat) : Int :=
  let trim := signed 16 (s.fld TWN_SKEW TWN_SKEW_SKEW_TRIM)
  ((s.itcOf 20 : Int) - stamp - turnaround) * 1000 / 2 + (if s.role = roActive then trim else -trim)

/-- Two results agree, or there has been one only. -/
def State.calAgrees (s : State) (d : Int) : Bool :=
  match s.tw.calLast with
  | some p => decide ((d - p).natAbs ≤ 2000)
  | none => true

/-- The senior has taken the delay `d`, CAL_OK still to be judged. -/
def State.delayTaken (s : State) (d : Int) : State := (s.setReg TWN_DELAY (BitVec.ofInt 32 d)).setTw { s.tw with calLast := some d }

/-- The junior has sent its echo and holds a free delay, CAL_OK still to be judged. -/
def State.stampEchoed (s : State) (stamp : Nat) : State :=
  let e := (s.sendMsg 0 (.cal true stamp s.freeWord.toNat)).useFree
  (e.setReg TWN_DELAY e.freeWord).useFree

section
variable {s v : State} (h : Accepted s v)
include h

theorem Accepted.delayOf (stamp turnaround : Nat) : v.delayOf stamp turnaround = s.delayOf stamp turnaround := by
  have hitc : v.itcOf 20 = s.itcOf 20 := by
    have hisl : v.bitAt SUP_ISLAND_STAT 20 = s.bitAt SUP_ISLAND_STAT 20 := h.bitAt (by decide) _
    simp only [State.itcOf, h.itc, h.now, h.sp, hisl]
  rw [State.delayOf, hitc, h.role, h.fld (by decide), State.delayOf]

theorem Accepted.calAgrees (d : Int) : v.calAgrees d = s.calAgrees d := by
  have hlast : v.tw.calLast = s.tw.calLast := congrArg (fun x => x.2.2.2) h.said
  rw [State.calAgrees, hlast, State.calAgrees]

theorem Accepted.senior : v.senior = s.senior := h.flag (by decide) _

end

/-- The registers of calibration. -/
theorem twinRegs_sync : Safety.twinRegs TWN_SYNC_STAT ∧ Safety.twinRegs TWN_DELAY :=
  ⟨.inl ⟨by decide, by decide⟩, .inl ⟨by decide, by decide⟩⟩

theorem Accepted.twin {s v : State} (h : Accepted s v) : Added Safety.twinRegs s v := h.toAdded.mono fun a ha => by
  simp only [List.mem_cons, List.not_mem_nil, or_false] at ha
  rcases ha with rfl | rfl <;> exact .inl ⟨by decide, by decide⟩

/-- Whatever `u` holds of the calibration, the role machine leaves once CAL_OK has been judged. -/
structure CalJudged (ok : Bool) (u t : State) : Prop extends Added Safety.twinRegs u t where
  delay : t.reg TWN_DELAY = u.reg TWN_DELAY
  calOk : t.flag TWN_SYNC_STAT TWN_SYNC_STAT_CAL_OK = ok
  said : t.tw.said = u.tw.said

theorem calJudged (u : State) (ok : Bool) : CalJudged ok u (u.setCal ok).roleEval := by
  have hcal := added_setCal u ok
  have hrole := (RoleMoved.refl (u.setCal ok)).roleEval
  exact {
    toAdded := (hcal.mono fun a ha => ha ▸ twinRegs_sync.1).trans (hrole.toAdded.mono fun _ => twinRegs_of_roleRegs)
    delay := (hrole.regs _ not_roleRegs_timing.2).trans (hcal.regs _ (by decide))
    calOk := (hrole.flag not_roleRegs_timing.1 _).trans (calOk_setCal u ok)
    said := hrole.said.trans (congrArg Twin.said (tw_setCal u ok)) }

theorem exec_cal_senior {s v : State} {m : MsgHead} (hv : ∀ f, s.received 0 m false f = f v) (hs : v.senior = true) (stamp turnaround : Nat) :
    exec (.cal m true stamp turnaround) s = .next
      (((v.delayTaken (v.delayOf stamp turnaround)).setCal (v.calAgrees (v.delayOf stamp turnaround))).roleEval) := by
  refine (congrArg Host.Outcome.next (hv _)).trans ?_
  dsimp only
  rw [if_pos hs, if_neg (by decide)]
  rfl

theorem exec_cal_junior {s v : State} {m : MsgHead} (hv : ∀ f, s.received 0 m false f = f v) (hs : v.senior = false) (stamp turnaround : Nat) :
    exec (.cal m false stamp turnaround) s = .next (((v.stampEchoed stamp).setCal true).roleEval) := by
  refine (congrArg Host.Outcome.next (hv _)).trans ?_
  dsimp only
  rw [if_neg (by rw [hs]; decide), if_neg (by decide)]
  rfl

theorem added_delayTaken (s : State) (d : Int) : Added Safety.twinRegs s (s.delayTaken d) :=
  ((Added.refl s).setReg _ _ twinRegs_sync.2).setTw _

theorem added_stampEchoed (s : State) (stamp : Nat) : Added Safety.twinRegs s (s.stampEchoed stamp) := by
  have h : Added Safety.twinRegs s ((s.sendMsg 0 (.cal true stamp s.freeWord.toNat)).setReg TWN_DELAY
      (s.sendMsg 0 (.cal true stamp s.freeWord.toNat)).useFree.freeWord) := ((Added.refl s).setTw _).setReg _ _ twinRegs_sync.2
  exact ⟨⟨h.regs, h.sp, h.ld⟩, h.chan, h.mem⟩

/-! ### The sync pulse of the twin (R275) -/

section
variable {s : State} (hruns : s.linkRuns = true) (hrole : s.role ≠ roActive)
include hruns hrole

theorem exec_syncPulse (frame : Fin 48) (super : BitVec 16) : exec (.syncPulse frame super) s = .next
    ((s.setFld TWN_SYNC_STAT TWN_SYNC_STAT_FRAME frame).setTw { s.tw with
      super := super.toNat, boundary := ((s.now : Int) - (s.reg TWN_DELAY).toInt / 1000).toNat }) :=
  congrArg Host.Outcome.next (if_pos (by simp [hruns, hrole]))

theorem exec_syncPulseMissing :
    exec .syncPulseMissing s = .next ((s.setTw { s.tw with runA := 0 }).raise 20 0x431 [s.reg TWN_SYNC_STAT]) :=
  congrArg Host.Outcome.next (if_pos (by simp [hruns, hrole]))

end

theorem not_dormant_of_linkRuns {s : State} (h : s.linkRuns = true) : s.sp.dormant = false := by
  rw [State.linkRuns, Bool.and_eq_true, Bool.and_eq_true] at h
  exact not_dormant_of_running h.1.1

/-! ### The obligation -/

theorem calSenior {s : State} {m : MsgHead} (h : Safety.nextMsg s 0 m) (hs : s.senior = true) (stamp turnaround : Nat) :
    ∃ t, exec (.cal m true stamp turnaround) s = .next t ∧ t.reg TWN_DELAY = BitVec.ofInt 32 (s.delayOf stamp turnaround)
      ∧ t.tw.calLast = some (s.delayOf stamp turnaround)
      ∧ t.flag TWN_SYNC_STAT TWN_SYNC_STAT_CAL_OK = s.calAgrees (s.delayOf stamp turnaround) ∧ Added Safety.twinRegs s t := by
  obtain ⟨v, hv, hf⟩ := received_next h
  have ht := calJudged (v.delayTaken (v.delayOf stamp turnaround)) (v.calAgrees (v.delayOf stamp turnaround))
  have hlast := congrArg (fun x => x.2.2.2) ht.said
  refine ⟨_, exec_cal_senior hf (hv.senior.trans hs) stamp turnaround, ?_⟩
  rw [hv.delayOf, hv.calAgrees] at ht hlast ⊢
  exact ⟨ht.delay.trans (reg_setReg_self v _ _), hlast, ht.calOk, (hv.twin.trans (added_delayTaken v _)).trans ht.toAdded⟩

theorem calJunior {s : State} {m : MsgHead} (h : Safety.nextMsg s 0 m) (hs : s.senior = false) (stamp turnaround : Nat) :
    ∃ t x l l', exec (.cal m false stamp turnaround) s = .next t ∧ t.tw.out = [(LinkMsg.cal true stamp x).words 0 t.tw.tx0 s.tw.rx2]
      ∧ t.tw.tx0 = (s.tw.tx0 + 1) % 65536 ∧ t.flag TWN_SYNC_STAT TWN_SYNC_STAT_CAL_OK = true
      ∧ Safety.raised (l ++ (if s.flag TWN_SYNC_STAT TWN_SYNC_STAT_CAL_OK then [] else [(20, 0x430)]) ++ l') s t ∧ Added Safety.twinRegs s t := by
  obtain ⟨v, hv, hf⟩ := received_next h
  set u := v.stampEchoed stamp with hu
  have hadded : Added Safety.twinRegs s u := hv.twin.trans (added_stampEchoed v stamp)
  have ht := calJudged u true
  have hout : (u.setCal true).roleEval.tw.out
      = [(LinkMsg.cal true stamp v.freeWord.toNat).words 0 ((v.tw.tx0 + 1) % 65536) v.tw.rx2] := congrArg (fun x => x.1) ht.said
  have htx : (u.setCal true).roleEval.tw.tx0 = (v.tw.tx0 + 1) % 65536 := congrArg (fun x => x.2.1) ht.said
  have htx0 : v.tw.tx0 = s.tw.tx0 := congrArg (fun x => x.2.1) hv.said
  have hrx2 : v.tw.rx2 = s.tw.rx2 := congrArg (fun x => x.2.2.1) hv.said
  have hcal : u.flag TWN_SYNC_STAT TWN_SYNC_STAT_CAL_OK = s.flag TWN_SYNC_STAT TWN_SYNC_STAT_CAL_OK :=
    (flag_setReg_ne (v.sendMsg 0 (.cal true stamp v.freeWord.toNat)).useFree _ _ (by decide)).trans hv.calOk
  obtain ⟨l, hl⟩ := raised_of_prefix hadded.chan
  obtain ⟨l', hl'⟩ := raised_of_prefix (RoleMoved.refl (u.setCal true)).roleEval.chan
  have hrise := raised_setCal (s := u) (by rw [hadded.sp]; exact not_dormant_of_linkRuns h.1)
  rw [hcal] at hrise
  exact ⟨_, v.freeWord.toNat, l, l', exec_cal_junior hf (hv.senior.trans hs) stamp turnaround, by rw [hout, htx, hrx2], by rw [htx, htx0],
    ht.calOk, raised_trans (raised_trans hl hrise) hl', hadded.trans ht.toAdded⟩

/-- Settles O47: the boundary moves the frame timing and each port's frame, and calibration reads what an accepted message leaves alone. -/
theorem frameTimingAndCalibration : Obligations.FrameTimingAndCalibration := by
  unfold Obligations.FrameTimingAndCalibration
  refine ⟨?boundary, ?pulse, ?cal⟩
  case boundary =>
    intro s augs hrun
    obtain ⟨t, hexec, h⟩ := boundaryRow augs hrun
    refine ⟨t, hexec, h.frame, by rw [h.tw]; rfl, by rw [h.tw]; rfl, h.quiet, by rw [h.tw]; exact pulse_boundaryTaken .., ?_, h.regs,
      sameMem_of_mem h.mem⟩
    intro p hp hup hforce
    have hsent := h.sent p hp hup hforce
    exact ⟨hsent.par, hsent.sent, hsent.parity, hsent.k1⟩
  case pulse =>
    intro s hruns hrole
    refine ⟨fun frame super => ⟨_, exec_syncPulse hruns hrole frame super, ?_, rfl, rfl, rfl, fun a ha => ?_, fun _ => rfl⟩,
      _, exec_syncPulseMissing hruns hrole, ?_, ?_, fun a _ => reg_raise .., sameMem_of_mem (mem_raise ..)⟩
    · exact (fld_setFld_self s _ (by decide) _).trans (Nat.mod_eq_of_lt (by have := frame.isLt; simp only [TWN_SYNC_STAT_FRAME]; omega))
    · exact reg_setFld_ne s _ _ fun he => ha (by simp [he])
    · rw [tw_raise]
      rfl
    · exact raised_raise _ _ _ rfl (not_dormant_of_linkRuns (s := s) hruns)
  case cal =>
    intro s m stamp turnaround h
    refine ⟨fun hs => ?senior, fun hs => ?junior⟩
    case senior =>
      obtain ⟨t, hexec, hdelay, hlast, hok, hadded⟩ := calSenior h hs stamp turnaround
      refine ⟨t, hexec, hdelay, hlast, fun hnone => ?_, fun p hp => ?_, hadded.regs, sameMem_of_mem hadded.mem⟩
      · rw [hok, State.calAgrees, hnone]
      · rw [hok, State.calAgrees, hp]
        exact decide_eq_true_iff
    case junior =>
      obtain ⟨t, x, l, l', hexec, hout, htx, hok, hraised, hadded⟩ := calJunior h hs stamp turnaround
      exact ⟨t, x, l, l', hexec, hout, htx, hok, hraised, hadded.regs, sameMem_of_mem hadded.mem⟩

end Sys2Proof.Machine
end


section
/-! SUPPORT. Which bits of registers a change may touch, and what the tributary ports' transmit status follows (R190). -/

namespace Sys2Proof.Machine

/-- From `r` to `s` no register bit outside `W` differs, and nothing of SP, the matrix or memory. -/
structure Within (W : Nat → Nat → Prop) (r s : State) : Prop where
  bits : ∀ a j, ¬ W a j → (s.reg a).getLsbD j = (r.reg a).getLsbD j
  sp : s.sp = r.sp
  mtx : s.mtx = r.mtx
  mem : s.mem = r.mem

namespace Within

variable {W V : Nat → Nat → Prop} {r s t : State}

theorem refl (s : State) : Within W s s := ⟨fun _ _ _ => rfl, rfl, rfl, rfl⟩

theorem trans (h : Within W r s) (g : Within W s t) : Within W r t :=
  ⟨fun a j hj => (g.bits a j hj).trans (h.bits a j hj), g.sp.trans h.sp, g.mtx.trans h.mtx, g.mem.trans h.mem⟩

theorem mono (h : Within W r s) (hW : ∀ a j, W a j → V a j) : Within V r s :=
  ⟨fun a j hj => h.bits a j fun hw => hj (hW a j hw), h.sp, h.mtx, h.mem⟩

/-- Only what the registers, SP, the matrix and memory do not hold moves on to `t`. -/
theorem beside (h : Within W r s) (hr : t.regs = s.regs) (hsp : t.sp = s.sp) (hmtx : t.mtx = s.mtx) (hmem : t.mem = s.mem) : Within W r t :=
  ⟨fun a j hj => by rw [State.reg, hr, ← State.reg, h.bits a j hj], hsp.trans h.sp, hmtx.trans h.mtx, hmem.trans h.mem⟩

theorem setReg (h : Within W r s) (a : Nat) (w : Word) (ha : ∀ j, W a j) : Within W r (s.setReg a w) where
  bits b j hj := (congrArg (·.getLsbD j) (reg_setReg_ne s w (by rintro rfl; exact hj (ha j)))).trans (h.bits b j hj)
  sp := h.sp
  mtx := h.mtx
  mem := h.mem

theorem setFld (h : Within W r s) (a : Nat) (f : Fld) (v : Nat) (ha : ∀ j, f.lo ≤ j → j < f.lo + f.len → W a j) :
    Within W r (s.setFld a f v) where
  bits b j hj := by
    rw [reg_setFld]
    split
    · next he =>
      subst he
      by_cases h32 : j < 32
      · rw [Fld.getLsbD_put _ _ _ _ h32, if_neg fun hf => hj (ha j hf.1 hf.2), h.bits _ _ hj]
      · rw [BitVec.getLsbD_of_ge _ _ (by omega), BitVec.getLsbD_of_ge _ _ (by omega)]
    · exact h.bits b j hj
  sp := h.sp
  mtx := h.mtx
  mem := h.mem

theorem setFlag (h : Within W r s) (a : Nat) (f : Fld) (b : Bool) (ha : ∀ j, f.lo ≤ j → j < f.lo + f.len → W a j) :
    Within W r (s.setFlag a f b) := h.setFld a f _ ha

theorem count (h : Within W r s) (a n : Nat) (ha : ∀ j, W a j) : Within W r (s.count a n) := h.setReg a _ ha

theorem raise (h : Within W r s) (isl e : Nat) (d : List Word) : Within W r (s.raise isl e d) where
  bits b j hj := (congrArg (·.getLsbD j) (reg_raise ..)).trans (h.bits b j hj)
  sp := (sp_raise ..).trans h.sp
  mtx := (mtx_raise ..).trans h.mtx
  mem := (mem_raise ..).trans h.mem

theorem mirror (h : Within W r s) (a : Nat) (m v : Word) : Within W r (s.mirror a m v) := by
  unfold State.mirror
  split
  · exact h.beside rfl rfl rfl rfl
  · exact h

theorem ite {c : Prop} [Decidable c] (h : Within W r s) (g : Within W r t) : Within W r (if c then s else t) := by
  split <;> assumption

theorem each {α : Type} (l : List α) (f : State → α → State) (hf : ∀ x, ∀ a ∈ l, Within W r x → Within W r (f x a)) (h : Within W r s) :
    Within W r (s.each l f) :=
  each_preserves (Within W r) hf h

theorem reg (h : Within W r s) {a : Nat} (ha : ∀ j, ¬ W a j) : s.reg a = r.reg a :=
  BitVec.eq_of_getLsbD_eq fun j _ => h.bits a j (ha j)

theorem fld (h : Within W r s) {a : Nat} {f : Fld} (ha : ∀ j, f.lo ≤ j → j < f.lo + f.len → ¬ W a j) : s.fld a f = r.fld a f := by
  apply Nat.eq_of_testBit_eq
  intro i
  rw [State.fld, State.fld, Fld.testBit_get, Fld.testBit_get]
  by_cases hi : i < f.len
  · rw [h.bits a _ (ha _ (by omega) (by omega))]
  · simp [hi]

theorem flag (h : Within W r s) {a : Nat} {f : Fld} (ha : ∀ j, f.lo ≤ j → j < f.lo + f.len → ¬ W a j) : s.flag a f = r.flag a f := by
  rw [State.flag, h.fld ha, State.flag]

theorem regsOutside {P : Nat → Prop} (h : Within W r s) (hP : ∀ a j, W a j → P a) : Safety.regsOutside P r s :=
  fun a ha => h.reg fun j hw => ha (hP a j hw)

theorem sameMem (h : Within W r s) : Safety.sameMem r s := sameMem_of_mem h.mem

end Within

/-! ### What the ports transmit (R190 to R192) -/

section
variable {W : Nat → Nat → Prop} {r s : State} {p : Nat} (hstat : ∀ j, W (TRIB_STAT p) j) (hfill : ∀ j, W (TRIB_TX_STAT p) j)
include hstat hfill

theorem within_updateTribTx (h : Within W r s) : Within W r (s.updateTribTx p) := by
  have hset := h.setFlag (TRIB_STAT p) TRIB_STAT_AIS_TX (s.tribSendsAis p) fun j _ _ => hstat j
  refine Within.ite (Within.beside (Within.setFld (Within.beside hset ?_ ?_ ?_ ?_) _ _ _ fun j _ _ => hfill j) rfl rfl rfl rfl) hset
  all_goals rfl

end

/-- The ports follow the Index: their transmit status alone, and their stores. -/
theorem within_updateTribs (s : State) : Within (fun a _ => Safety.tribTx a) s s.updateTribs :=
  Within.each _ _ (fun _ p hp hx =>
    have hlt : p < 64 := List.mem_range.mp (List.mem_filter.mp hp).1
    within_updateTribTx (fun _ => ⟨p, hlt, .inl rfl⟩) (fun _ => ⟨p, hlt, .inr rfl⟩) hx) (Within.refl s)

/-- What a port's transmit status does not show stays as it is. -/
theorem updateTribs_keeps {β : Type} (g : State → β) (hflag : ∀ x a b, g (x.setFlag a TRIB_STAT_AIS_TX b) = g x)
    (hfill : ∀ x p n, g (x.fillStore p n) = g x) (s : State) : g s.updateTribs = g s := by
  refine each_keeps g (fun x p => ?_) s _
  unfold State.updateTribTx
  dsimp only
  split
  · rw [hfill, hflag]
  · rw [hflag]

@[simp] theorem chan_updateTribs (s : State) : s.updateTribs.chan = s.chan := updateTribs_keeps State.chan (fun _ _ _ => rfl) (fun _ _ _ => rfl) s
@[simp] theorem kept_updateTribs (s : State) : s.updateTribs.kept = s.kept := updateTribs_keeps State.kept (fun _ _ _ => rfl) (fun _ _ _ => rfl) s
@[simp] theorem wtrs_updateTribs (s : State) : s.updateTribs.wtrs = s.wtrs := updateTribs_keeps State.wtrs (fun _ _ _ => rfl) (fun _ _ _ => rfl) s
@[simp] theorem paths_updateTribs (s : State) : s.updateTribs.paths = s.paths :=
  updateTribs_keeps State.paths (fun _ _ _ => rfl) (fun _ _ _ => rfl) s

theorem le_of_tribTx {a : Nat} (h : Safety.tribTx a) : 0x40300000 ≤ a ∧ a < 0x40302000 := by
  obtain ⟨p, hp, rfl | rfl⟩ := h
  · unfold TRIB_STAT
    omega
  · unfold TRIB_TX_STAT
    omega

end Sys2Proof.Machine
end

section
/-! SUPPORT. What the rows of a path leave of every path's pointer: the bits they write, and the readings an interpreter has counted. -/

namespace Sys2Proof.Machine

/-! ### A path beside its registers -/

theorem pathKey_injective {p q : PathId} (h : pathKey p = pathKey q) : p = q := by
  cases p <;> cases q <;> simp only [pathKey] at h
  · next a b => exact congrArg _ (Fin.ext h)
  · next a b => have := a.isLt; omega
  · next a b => have := b.isLt; omega
  · next a b => exact congrArg _ (Fin.ext (by omega))

section
variable (s : State) (p : PathId)

@[simp] theorem path_setPath_self (x : PathPort) : (s.setPath p x).path p = x := tget_tset_self ..

theorem path_setPath_ne {q : PathId} (x : PathPort) (h : p ≠ q) : (s.setPath p x).path q = s.path q :=
  tget_tset_ne _ _ _ _ fun he => h (pathKey_injective he)

theorem path_of_paths {s t : State} (h : t.paths = s.paths) (p : PathId) : t.path p = s.path p := by rw [State.path, h, State.path]

theorem Within.setPath {W : Nat → Nat → Prop} {r s : State} (h : Within W r s) (p : PathId) (x : PathPort) : Within W r (s.setPath p x) :=
  h.beside rfl rfl rfl rfl

@[simp] theorem path_setFld (a : Nat) (f : Fld) (v : Nat) : (s.setFld a f v).path p = s.path p := rfl
@[simp] theorem path_setFlag (a : Nat) (f : Fld) (b : Bool) : (s.setFlag a f b).path p = s.path p := rfl
@[simp] theorem path_raise (isl e : Nat) (d : List Word) : (s.raise isl e d).path p = s.path p := path_of_paths (paths_raise ..) p
@[simp] theorem path_pathEvent (q : PathId) (e : Nat) : (s.pathEvent q e).path p = s.path p := path_raise ..

@[simp] theorem paths_pathDefect (f : Fld) (b : Bool) : (s.pathDefect p f b).paths = s.paths := by
  unfold State.pathDefect
  split
  · rfl
  · exact paths_raise ..

@[simp] theorem path_pathDefect (q : PathId) (f : Fld) (b : Bool) : (s.pathDefect q f b).path p = s.path p := path_of_paths (paths_pathDefect ..) p


end

/-! ### Where the pointers lie -/

/-- The bits in which a path's pointer state and received pointer value are shown. -/
def ptrBits (a j : Nat) : Prop :=
  (0x40201000 ≤ a ∧ a < 0x40201C00 ∧ (a % 16 = 4 ∧ j < 2 ∨ a % 16 = 8 ∧ j < 10))
    ∨ (0x4020D000 ≤ a ∧ a < 0x40222000 ∧ (a % 16 = 4 ∧ j < 2 ∨ a % 16 = 12 ∧ j < 10))

/-- What path processing writes beside them: the status part of the PATH block, and what the tributary ports transmit. -/
def restBits (a j : Nat) : Prop := (0x40200410 ≤ a ∧ a < 0x40240000 ∧ ¬ ptrBits a j) ∨ Safety.tribTx a

/-- The register that shows a path's received pointer. -/
def ptrRxAddr : PathId → Nat
  | .ho h => PATH_HO2 h
  | .lo l => PATH_LO3 l

theorem pathStatAddr_range (p : PathId) : pathStatAddr p % 16 = 4
    ∧ (0x40201000 ≤ pathStatAddr p ∧ pathStatAddr p < 0x40201C00 ∨ 0x4020D000 ≤ pathStatAddr p ∧ pathStatAddr p < 0x40222000) := by
  cases p with
  | ho i => have := i.isLt; simp only [pathStatAddr, PATH_HO1]; omega
  | lo l => have := l.isLt; simp only [pathStatAddr, PATH_LO1]; omega

theorem ptrRxAddr_range (p : PathId) : 0x40201000 ≤ ptrRxAddr p ∧ ptrRxAddr p < 0x40201C00 ∧ ptrRxAddr p % 16 = 8
    ∨ 0x4020D000 ≤ ptrRxAddr p ∧ ptrRxAddr p < 0x40222000 ∧ ptrRxAddr p % 16 = 12 := by
  cases p with
  | ho i => have := i.isLt; simp only [ptrRxAddr, PATH_HO2]; omega
  | lo l => have := l.isLt; simp only [ptrRxAddr, PATH_LO3]; omega

theorem restBits_of_stat {p : PathId} {j : Nat} (hj : 2 ≤ j) : restBits (pathStatAddr p) j := by
  have hr := pathStatAddr_range p
  refine .inl ?_
  unfold ptrBits
  omega

theorem not_restBits_of_ptrBits {a j : Nat} (h : ptrBits a j) : ¬ restBits a j := by
  rintro (hr | hr)
  · exact hr.2.2 h
  · have := le_of_tribTx hr
    unfold ptrBits at h
    omega

theorem not_restBits_stat {p : PathId} {j : Nat} (hj : j < 2) : ¬ restBits (pathStatAddr p) j := by
  have hr := pathStatAddr_range p
  refine not_restBits_of_ptrBits ?_
  unfold ptrBits
  omega

theorem not_restBits_ptrRx {p : PathId} {j : Nat} (hj : j < 10) : ¬ restBits (ptrRxAddr p) j := by
  have hr := ptrRxAddr_range p
  refine not_restBits_of_ptrBits ?_
  unfold ptrBits
  omega

theorem not_restBits_config {a j : Nat} (h : a < 0x40200410) : ¬ restBits a j := by
  rintro (hr | hr)
  · omega
  · have := le_of_tribTx hr
    omega

/-- What the interpreter of a path has counted. -/
def PathPort.readings (x : PathPort) : Bool × List Nat :=
  (x.started, [x.aisRun, x.invRun, x.ndfRun, x.sameRun, x.sameVal, x.adjGap, x.adjRx])

/-- The same, one by one. -/
structure SameReadings (x y : PathPort) : Prop where
  started : y.started = x.started
  aisRun : y.aisRun = x.aisRun
  invRun : y.invRun = x.invRun
  ndfRun : y.ndfRun = x.ndfRun
  sameRun : y.sameRun = x.sameRun
  sameVal : y.sameVal = x.sameVal
  adjGap : y.adjGap = x.adjGap
  adjRx : y.adjRx = x.adjRx

/-- From `r` to `s` no path's pointer state, received value or readings differ, nor any setting. -/
structure Rest (r s : State) : Prop extends Within restBits r s where
  readings : ∀ p, (s.path p).readings = (r.path p).readings

namespace Rest

variable {r s t : State}

theorem refl (s : State) : Rest s s := ⟨.refl s, fun _ => rfl⟩

theorem trans (h : Rest r s) (g : Rest s t) : Rest r t := ⟨h.toWithin.trans g.toWithin, fun p => (g.readings p).trans (h.readings p)⟩

theorem ite {c : Prop} [Decidable c] (h : Rest r s) (g : Rest r t) : Rest r (if c then s else t) := by
  split <;> assumption

theorem when (h : Rest r s) (c : Bool) (f : State → State) (hf : Rest s (f s)) : Rest r (s.when c f) := (h.trans hf).ite h

theorem each {α : Type} (l : List α) (f : State → α → State) (hf : ∀ x, ∀ a ∈ l, Rest x (f x a)) (h : Rest r s) : Rest r (s.each l f) :=
  each_preserves (Rest r) (fun x a ha hx => hx.trans (hf x a ha)) h

theorem within (h : Within restBits s t) (hp : t.paths = s.paths) : Rest s t := ⟨h, fun p => congrArg _ (path_of_paths hp p)⟩

theorem setReg (h : Rest r s) (a : Nat) (w : Word) (ha : ∀ j, restBits a j) : Rest r (s.setReg a w) :=
  h.trans (.within ((Within.refl s).setReg a w ha) rfl)

theorem setStat (h : Rest r s) (p : PathId) (f : Fld) (v : Nat) (hf : 2 ≤ f.lo) : Rest r (s.setFld (pathStatAddr p) f v) :=
  h.trans (.within ((Within.refl s).setFld _ f v fun _ hj _ => restBits_of_stat (hf.trans hj)) rfl)

theorem setStatFlag (h : Rest r s) (p : PathId) (f : Fld) (b : Bool) (hf : 2 ≤ f.lo) : Rest r (s.setFlag (pathStatAddr p) f b) :=
  h.setStat p f _ hf

theorem raise (h : Rest r s) (isl e : Nat) (d : List Word) : Rest r (s.raise isl e d) :=
  h.trans (.within ((Within.refl s).raise isl e d) (paths_raise ..))

theorem setPath (h : Rest r s) (p : PathId) (x : PathPort) (hx : x.readings = (s.path p).readings) : Rest r (s.setPath p x) := by
  refine h.trans ⟨(Within.refl s).beside rfl rfl rfl rfl, fun q => ?_⟩
  by_cases hq : p = q
  · rw [← hq, path_setPath_self, hx]
  · rw [path_setPath_ne _ _ _ hq]

/-- The readings of a path, one by one. -/
theorem reading (h : Rest r s) (p : PathId) : SameReadings (r.path p) (s.path p) := by
  have he := h.readings p
  simp only [PathPort.readings, Prod.mk.injEq, List.cons.injEq, and_true] at he
  obtain ⟨hstart, hais, hinv, hndf, hrun, hval, hgap, hadj⟩ := he
  exact ⟨hstart, hais, hinv, hndf, hrun, hval, hgap, hadj⟩

/-- Pointer state, received value and settings read as before. -/
theorem state (h : Rest r s) (p : PathId) : s.fld (pathStatAddr p) PATH_HO1_PTR_STATE = r.fld (pathStatAddr p) PATH_HO1_PTR_STATE :=
  h.fld fun _ _ hj => not_restBits_stat hj

theorem ptrRx (h : Rest r s) (p : PathId) : s.ptrRx p = r.ptrRx p := by
  cases p with
  | ho l => exact h.fld fun _ _ hj => not_restBits_ptrRx (p := .ho l) hj
  | lo l => exact h.fld fun _ _ hj => not_restBits_ptrRx (p := .lo l) hj

theorem loTu3 (h : Rest r s) (l : Fin 5376) : s.loTu3 l = r.loTu3 l := by
  have hlt : PATH_SLOT_MAP (l / 84) < 0x40200410 := by have := l.isLt; unfold PATH_SLOT_MAP; omega
  rw [State.loTu3, State.loContent, h.fld fun _ _ _ => not_restBits_config hlt, State.loTu3, State.loContent]

theorem loTu11 (h : Rest r s) (l : Fin 5376) : s.loTu11 l = r.loTu11 l := by
  have hlt : PATH_SLOT_MAP (l / 84) < 0x40200410 := by have := l.isLt; unfold PATH_SLOT_MAP; omega
  rw [State.loTu11, State.bitAt, h.flag fun _ _ _ => not_restBits_config hlt, State.loTu11, State.bitAt]

theorem ptrMax (h : Rest r s) (p : PathId) : s.ptrMax p = r.ptrMax p := by
  cases p with
  | ho _ => rfl
  | lo l => simp only [State.ptrMax, h.loTu3 l, h.loTu11 l]

end Rest

/-! ### Defects and consequent actions (R154, R155) -/

theorem pathSlot_lt (p : PathId) : pathSlot p < 64 := by
  cases p with
  | ho i => have := i.isLt; simp only [pathSlot]; omega
  | lo l => have := l.isLt; simp only [pathSlot]; omega

section
variable {r s : State} (h : Rest r s)
include h

theorem Rest.updatePathSum {k : Nat} (hk : k < 64) : Rest r (s.updatePathSum k) := by
  refine h.trans (.within ((Within.refl s).setFlag _ _ _ fun j _ _ => .inl ?_) rfl)
  unfold PATH_SUM ptrBits
  omega

theorem Rest.pathDefect (p : PathId) {f : Fld} (b : Bool) (hf : 2 ≤ f.lo) : Rest r (s.pathDefect p f b) :=
  h.ite (((h.setStatFlag p f b hf).updatePathSum (pathSlot_lt p)).raise _ _ _)

theorem Rest.pathTsf (p : PathId) : Rest r (s.pathTsf p) :=
  ((h.setStatFlag p PATH_HO1_TSF_I _ (by decide)).setStatFlag p PATH_HO1_TSF_N _ (by decide)).setStatFlag p PATH_HO1_TSD _ (by decide)

theorem Rest.updateSsf (l : Fin 5376) : Rest r (s.updateSsf l) :=
  Rest.pathTsf (Rest.pathDefect (h.when _ _ ((Rest.refl s).setPath _ _ (by rfl))) (.lo l) _ (by decide)) (.lo l)

theorem Rest.pathActions (p : PathId) : Rest r (s.pathActions p) := by
  cases p with
  | lo l => exact h.pathTsf (.lo l)
  | ho i =>
    refine Rest.each _ _ (fun x l _ => ?_) (h.pathTsf (.ho i))
    split
    · exact (Rest.refl x).ite ((Rest.refl x).updateSsf _)
    · exact .refl x

/-! ### The store of a path (R151) -/

theorem Rest.setStoreFill (p : PathId) (v : Nat) : Rest r (s.setStoreFill p v) := by
  cases p with
  | ho i =>
    refine h.trans (.within ((Within.refl s).setFld _ _ _ fun j _ _ => .inl ?_) rfl)
    have := i.isLt
    unfold PATH_HO3 ptrBits
    omega
  | lo l =>
    refine h.trans (.within ((Within.refl s).setFld _ _ _ fun j (hj : 26 ≤ j) _ => .inl ?_) rfl)
    have := l.isLt
    unfold PATH_LO3 ptrBits
    omega

theorem Rest.setPtrTx (p : PathId) (v : Nat) : Rest r (s.setPtrTx p v) := by
  cases p with
  | ho i =>
    refine h.trans (.within ((Within.refl s).setFld _ _ _ fun j (hj : 16 ≤ j) _ => .inl ?_) rfl)
    have := i.isLt
    unfold PATH_HO2 ptrBits
    omega
  | lo l =>
    refine h.trans (.within ((Within.refl s).setFld _ _ _ fun j (hj : 16 ≤ j) _ => .inl ?_) rfl)
    have := l.isLt
    unfold PATH_LO3 ptrBits
    omega

theorem Rest.useFree : Rest r s.useFree := h.trans (.within ((Within.refl s).beside rfl rfl rfl rfl) rfl)

theorem Rest.recentre (p : PathId) : Rest r (s.recentre p) :=
  (((h.setStoreFill p _).setPtrTx p _).useFree.setPath p _ (by rfl)).raise _ _ _

end

end Sys2Proof.Machine
end

section
/-! SUPPORT. The overhead of a path leaves the pointers alone, and what one reading makes of the pointer (R148, R149, R152). -/

namespace Sys2Proof.Machine

/-! ### Path overhead (R149, R152) -/

theorem restBits_traceAcc (s : State) (p : PathId) {k : Nat} (hk : k < (s.traceCfg p).2.2.2) (j : Nat) : restBits ((s.traceCfg p).2.2.1 + 4 * k) j := by
  refine .inl ?_
  unfold ptrBits
  cases p with
  | ho i =>
    have := i.isLt
    simp only [State.traceCfg, PATH_J1_ACC] at hk ⊢
    omega
  | lo l =>
    have := l.isLt
    simp only [State.traceCfg, PATH_J2_ACC] at hk ⊢
    omega

section
variable {r s : State} (h : Rest r s)
include h

theorem Rest.pathTrace (p : PathId) (b : Byte) : Rest r (s.pathTrace p b) := by
  unfold State.pathTrace
  dsimp only
  split
  · exact h.setPath p _ (by rfl)
  · refine Rest.ite (h.setPath p _ (by rfl)) (Rest.ite (h.setPath p _ (by rfl)) (Rest.pathDefect ?_ p _ (by decide)))
    refine Rest.ite ?accepted (Rest.raise ?accepted _ _ _)
    refine Rest.setPath (Rest.each _ _ (fun x k hk => ?_) (h.setPath p _ (by rfl))) p _ (by rfl)
    exact (Rest.refl x).setReg _ _ (restBits_traceAcc s p (List.mem_range.mp hk))

theorem Rest.pathLabel (p : PathId) (v : Nat) : Rest r (s.pathLabel p v) := by
  have hrun := h.setPath p { s.path p with
    labelLast := v
    labelRun := if (s.path p).labelRun ≠ 0 ∧ (s.path p).labelLast = v then min 5 ((s.path p).labelRun + 1) else 1
    labelAcc := (s.path p).labelAcc || decide ((if (s.path p).labelRun ≠ 0 ∧ (s.path p).labelLast = v then min 5 ((s.path p).labelRun + 1) else 1) = 5) }
    (by rfl)
  exact (((hrun.setStat p PATH_HO1_C2_RX v (by decide)).pathDefect p _ (by decide)).pathDefect p _ (by decide)).ite hrun

theorem Rest.pathRdi (p : PathId) (rdi : Bool) : Rest r (s.pathRdi p rdi) := by
  unfold State.pathRdi
  dsimp only
  refine Rest.ite (Rest.pathDefect ?_ p _ (by decide)) (Rest.ite (Rest.pathDefect ?_ p _ (by decide)) ?_)
  all_goals exact h.setPath p _ (by rfl)

theorem Rest.pathParity (p : PathId) (x : PathOverhead) : Rest r (s.pathParity p x) := by
  unfold State.pathParity
  dsimp only
  cases p with
  | ho i =>
    refine Rest.setReg (Rest.setReg (h.setPath _ _ (by rfl)) _ _ fun j => .inl ?_) _ _ fun j => .inl ?_
    · have := i.isLt
      unfold PATH_B3_CNT ptrBits
      omega
    · have := i.isLt
      unfold PATH_HREI_CNT ptrBits
      omega
  | lo l => exact h.setPath _ _ (by rfl)

theorem Rest.multiframe (i : Fin 192) (h4 : Byte) : Rest r (s.multiframe i h4) := by
  unfold State.multiframe
  dsimp only
  refine h.ite (Rest.ite (Rest.pathDefect ?_ (.ho i) _ (by decide)) (Rest.ite (Rest.pathDefect ?_ (.ho i) _ (by decide)) ?_))
  all_goals exact h.setPath _ _ (by rfl)

theorem Rest.pathOverhead (p : PathId) (vc : List Byte) : Rest r (s.pathOverhead p vc) := by
  refine (h.setPath p _ (by rfl)).ite (h.ite ?_)
  have hall := (((h.pathTrace p ((s.vcKind p).read vc).trace).pathParity p ((s.vcKind p).read vc)).pathLabel p ((s.vcKind p).read vc).label).pathRdi
    p ((s.vcKind p).read vc).rdi
  cases p with
  | ho i => exact hall.multiframe i _
  | lo l => exact hall

theorem Rest.updateTribs : Rest r s.updateTribs :=
  h.trans (.within ((within_updateTribs s).mono fun _ _ => .inr) (paths_updateTribs s))

end

/-! ### One reading of the pointer (R148) -/

/-- The path with its interpreter started: in LOP where it was not. -/
def State.inService (s : State) (p : PathId) : State :=
  if (s.path p).started then s
  else ((s.setPath p { PathPort.init with started := true }).setFld (pathStatAddr p) PATH_HO1_PTR_STATE ptrLop).setFlag (pathStatAddr p)
    PATH_HO1_LOP true

/-- The indication of the reading. -/
def State.indication (s : State) (p : PathId) (r : PtrReading) : PtrInd :=
  Machine.classify (s.ptrRx p) (s.ptrMax p) (s.path p).adjGap (r.concat || !s.ptrConcat p) r.pointer

/-- The readings counted with an indication. -/
def State.counted (s : State) (p : PathId) (i : PtrInd) : PathPort := pathRuns (s.path p) (s.ptrRx p) i

/-- The pointer state to which an indication leads. -/
def State.ptrNext (s : State) (p : PathId) (i : PtrInd) : Nat :=
  nextPtrState (s.fld (pathStatAddr p) PATH_HO1_PTR_STATE) (s.counted p i) i

/-- The path with the readings counted: a change of state starts the runs of bad ones anew. -/
def State.ptrCounted (s : State) (p : PathId) (i : PtrInd) : State :=
  s.setPath p (if s.ptrNext p i = s.fld (pathStatAddr p) PATH_HO1_PTR_STATE then s.counted p i
    else { s.counted p i with aisRun := 0, invRun := 0, ndfRun := 0 })

/-- The pointer moved as an indication says, and its new state shown. -/
def State.ptrRead (s : State) (p : PathId) (i : PtrInd) : State :=
  ((s.ptrCounted p i).movePtr p (s.fld (pathStatAddr p) PATH_HO1_PTR_STATE) (s.ptrNext p i) i).setFld (pathStatAddr p) PATH_HO1_PTR_STATE
    (s.ptrNext p i)

/-- The defects that follow from a pointer state, and the stores recentred where AIS or LOP has ended. -/
def State.ptrJudged (s : State) (p : PathId) (st : Nat) : State :=
  let ssf := match p with
    | .ho _ => false
    | .lo l => s.flag (PATH_LO1 l) PATH_LO1_SSF
  if ssf then s
  else
    let was := s.pstat p PATH_HO1_AIS || s.pstat p PATH_HO1_LOP
    let s := (s.pathDefect p PATH_HO1_AIS (decide (st = ptrAis))).pathDefect p PATH_HO1_LOP (decide (st = ptrLop))
    if was && decide (st = ptrNorm) then s.each (s.pathDests p) State.recentre else s

theorem interpret_eq (s : State) (p : PathId) (r : PtrReading) : s.interpret p r =
    ((s.inService p).ptrRead p ((s.inService p).indication p r)).ptrJudged p ((s.inService p).ptrNext p ((s.inService p).indication p r)) := by
  cases p <;> rfl

theorem Rest.ptrJudged {r s : State} (h : Rest r s) (p : PathId) (st : Nat) : Rest r (s.ptrJudged p st) := by
  have hdef := (h.pathDefect p (f := PATH_HO1_AIS) (decide (st = ptrAis)) (by decide)).pathDefect p (f := PATH_HO1_LOP) (decide (st = ptrLop)) (by decide)
  exact h.ite ((Rest.each _ _ (fun x q _ => (Rest.refl x).recentre q) hdef).ite hdef)

/-- What the reading's defects, actions and overhead leave of the pointer. -/
def State.afterReading (s : State) (p : PathId) (r : PtrReading) (st : Nat) : State :=
  (((s.ptrJudged p st).pathActions p).pathOverhead p r.vc |>.pathActions p).updateTribs

theorem rest_afterReading (s : State) (p : PathId) (r : PtrReading) (st : Nat) : Rest s (s.afterReading p r st) :=
  ((((Rest.refl s).ptrJudged p st).pathActions p).pathOverhead p r.vc |>.pathActions p).updateTribs

/-- A lower-order path's server signal fail is judged before its pointer is read. -/
def State.ssfJudged (s : State) : PathId → State
  | .ho _ => s
  | .lo l => s.updateSsf l

theorem rest_ssfJudged (s : State) (p : PathId) : Rest s (s.ssfJudged p) := by
  cases p with
  | ho _ => exact .refl s
  | lo l => exact (Rest.refl s).updateSsf l

theorem exec_pointerReading {s : State} {p : PathId} (hrun : s.running islPX = true) (hex : s.pathExists p = true) (r : PtrReading) :
    exec (.pointerReading p r) s = .next
      ((((s.ssfJudged p).inService p).ptrRead p (((s.ssfJudged p).inService p).indication p (s.arriving p r))).afterReading p (s.arriving p r)
        (((s.ssfJudged p).inService p).ptrNext p (((s.ssfJudged p).inService p).indication p (s.arriving p r)))) := by
  refine congrArg Host.Outcome.next ((if_neg (by simp [hrun, hex])).trans ?_)
  unfold State.afterReading
  rw [← interpret_eq]
  cases p <;> rfl

end Sys2Proof.Machine
end

section
/-! PROOF of O29, the pointer reading: what each indication makes of the pointer (R148). -/

namespace Sys2Proof.Machine

/-! ### The indications of the pointers that the statement names -/

theorem ptrMax_lt (s : State) (p : PathId) : s.ptrMax p < 1024 := by
  cases p with
  | ho _ => exact (by decide : 782 < 1024)
  | lo l => simp only [State.ptrMax]; split <;> [decide; (split <;> decide)]

theorem ptrRx_lt (s : State) (p : PathId) : s.ptrRx p < 1024 := by
  cases p with
  | ho _ => exact Nat.mod_lt _ (by decide)
  | lo _ => exact Nat.mod_lt _ (by decide)

section
variable {active max gap : Nat} {w : BitVec 16}

theorem classify_allOnes (h : w = 0xFFFF) : classify active max gap true w = .ais := if_pos h

theorem classify_zero (h : w = 0) : classify active max gap true w = .inv := by
  subst h
  rfl

theorem classify_newData {v : Nat} (h : w.toNat = 0x9000 + v) (hv : v ≤ max) (hmax : max < 1024) : classify active max gap true w = .ndf v := by
  have hw : w ≠ 0xFFFF := by rintro rfl; simp at h; omega
  have hndf : w.toNat / 4096 = 9 := by omega
  have hval : w.toNat % 1024 = v := by omega
  unfold classify
  simp only [hndf, hval]
  rw [if_neg hw, if_neg (by decide), if_pos (by decide), if_pos hv]

theorem classify_normal (h : w.toNat = 0x6000 + active) (ha : active ≤ max) (hmax : max < 1024) : classify active max gap true w = .norm := by
  have hw : w ≠ 0xFFFF := by rintro rfl; simp at h; omega
  have hndf : w.toNat / 4096 = 6 := by omega
  have hval : w.toNat % 1024 = active := by omega
  unfold classify
  simp only [hndf, hval]
  rw [if_neg hw, if_neg (by decide), if_neg (by decide), if_neg (by decide), if_pos ⟨trivial, ha⟩]

theorem classify_inverted {bits : Nat} (h : w.toNat = 0x6000 + (active ^^^ bits)) (hb : bits < 1024) (hne : bits ≠ 0)
    (ha : active < 1024) (hgap : 3 ≤ gap) :
    classify active max gap true w =
      if 3 ≤ popcount 10 (bits &&& iBits) ∧ popcount 10 (bits &&& dBits) ≤ 2 then .inc
      else if 3 ≤ popcount 10 (bits &&& dBits) ∧ popcount 10 (bits &&& iBits) ≤ 2 then .dec
      else if (active ^^^ bits) ≤ max then .new (active ^^^ bits) else .inv := by
  have hlt : active ^^^ bits < 1024 := Nat.xor_lt_two_pow (n := 10) ha hb
  have hw : w ≠ 0xFFFF := by rintro rfl; simp at h; omega
  have hndf : w.toNat / 4096 = 6 := by omega
  have hval : w.toNat % 1024 = active ^^^ bits := by omega
  have hdiff : active ^^^ bits ^^^ active = bits := by rw [Nat.xor_comm active, Nat.xor_xor_cancel_right]
  have hchg : active ^^^ bits ≠ active := fun he => hne (by rw [← hdiff, he, Nat.xor_self])
  unfold classify
  simp only [hndf, hval, hdiff]
  rw [if_neg hw, if_neg (by decide), if_neg (by decide), if_neg (by decide), if_neg fun hn => hchg hn.1, if_pos hgap, if_pos hgap]

end

/-! ### What the readings count -/

section
variable (x : PathPort) (active : Nat) (i : PtrInd)

theorem started_pathRuns : (pathRuns x active i).started = x.started := by cases i <;> rfl

theorem adjRx_pathRuns : (pathRuns x active i).adjRx = x.adjRx := by cases i <;> rfl

theorem nextPtrState_lt (st : Nat) : nextPtrState st x i < 4 := by
  unfold nextPtrState
  dsimp only
  repeat' split
  all_goals decide

/-- In the normal state neither the third all-ones reading nor the eighth invalid one or new data flag has come: it stands. -/
theorem nextPtrState_norm (hais : x.aisRun ≠ 3) (hinv : x.invRun ≠ 8) (hndf : x.ndfRun ≠ 8) : nextPtrState ptrNorm x i = ptrNorm := by
  unfold nextPtrState
  rw [if_pos rfl, if_neg hais, if_neg (by simp [hinv, hndf])]

theorem nextPtrState_ais (h : x.aisRun = 3) : nextPtrState ptrNorm x i = ptrAis := by
  unfold nextPtrState
  rw [if_pos rfl, if_pos h]

theorem nextPtrState_lop (hais : x.aisRun ≠ 3) (h : x.invRun = 8) : nextPtrState ptrNorm x i = ptrLop := by
  unfold nextPtrState
  rw [if_pos rfl, if_neg hais, if_pos (.inl h)]

theorem nextPtrState_found (h : x.sameRun = 3) : nextPtrState ptrLop x i = ptrNorm := by
  unfold nextPtrState
  rw [if_neg (by decide), if_neg (by decide), if_pos h]

end

/-! ### The pointer after one reading -/

section
variable (s : State) (p : PathId) (i : PtrInd)

theorem statAddr_ne_ptrRxAddr (q : PathId) : pathStatAddr p ≠ ptrRxAddr q := by
  have := pathStatAddr_range p
  have := ptrRxAddr_range q
  omega

theorem ptrRx_eq : s.ptrRx p = s.fld (ptrRxAddr p) PATH_HO2_PTR_RX := by cases p <;> rfl

theorem setPtrRx_eq (v : Nat) : s.setPtrRx p v = s.setFld (ptrRxAddr p) PATH_HO2_PTR_RX v := by cases p <;> rfl

theorem ptrRx_setPtrRx {v : Nat} (h : v < 1024) : (s.setPtrRx p v).ptrRx p = v := by
  rw [ptrRx_eq, setPtrRx_eq, fld_setFld_self _ _ (by decide)]
  exact Nat.mod_eq_of_lt h

theorem ptrRx_of_regs {s t : State} (h : t.reg (ptrRxAddr p) = s.reg (ptrRxAddr p)) : t.ptrRx p = s.ptrRx p := by
  rw [ptrRx_eq, fld_of_reg h, ← ptrRx_eq]

theorem within_ptrRead : Within (fun a _ => Safety.pathBlock a) s (s.ptrRead p i) := by
  have hstat : Safety.pathBlock (pathStatAddr p) := by have := pathStatAddr_range p; unfold Safety.pathBlock; omega
  have hrx : Safety.pathBlock (ptrRxAddr p) := by have := ptrRxAddr_range p; unfold Safety.pathBlock; omega
  have hbase : Within (fun a _ => Safety.pathBlock a) s (s.ptrCounted p i) := (Within.refl s).beside rfl rfl rfl rfl
  have hmove (v : Nat) : Within (fun a _ => Safety.pathBlock a) s ((s.ptrCounted p i).setPtrRx p v) := by
    rw [setPtrRx_eq]
    exact hbase.setFld _ _ _ fun _ _ _ => hrx
  refine Within.setFld ?_ _ _ _ fun _ _ _ => hstat
  cases i with
  | inc | dec =>
    simp only [State.movePtr]
    split
    · exact (hmove _).beside rfl rfl rfl rfl
    · exact hbase
  | ndf v => exact (hbase.ite ((hmove v).raise _ _ _)).ite hbase
  | new v => exact (hbase.ite ((hmove v).raise _ _ _)).ite hbase
  | ais | norm | inv => exact hbase

theorem state_ptrRead : (s.ptrRead p i).fld (pathStatAddr p) PATH_HO1_PTR_STATE = s.ptrNext p i :=
  (fld_setFld_self _ _ (by decide) _).trans (Nat.mod_eq_of_lt (nextPtrState_lt ..))

theorem ptrRx_ptrRead : (s.ptrRead p i).ptrRx p
    = ((s.ptrCounted p i).movePtr p (s.fld (pathStatAddr p) PATH_HO1_PTR_STATE) (s.ptrNext p i) i).ptrRx p :=
  ptrRx_of_regs p (reg_setFld_ne _ _ _ (statAddr_ne_ptrRxAddr p p))

theorem path_ptrCounted : ∃ a b c, (s.ptrCounted p i).path p = { s.counted p i with aisRun := a, invRun := b, ndfRun := c } := by
  rw [State.ptrCounted, path_setPath_self]
  split
  · exact ⟨_, _, _, rfl⟩
  · exact ⟨_, _, _, rfl⟩

theorem adjRx_ptrCounted : ((s.ptrCounted p i).path p).adjRx = (s.path p).adjRx := by
  obtain ⟨a, b, c, h⟩ := path_ptrCounted s p i
  rw [h]
  exact adjRx_pathRuns ..

theorem started_ptrCounted : ((s.ptrCounted p i).path p).started = (s.path p).started := by
  obtain ⟨a, b, c, h⟩ := path_ptrCounted s p i
  rw [h]
  exact started_pathRuns ..

theorem started_ptrRead : ((s.ptrRead p i).path p).started = (s.path p).started := by
  rw [← started_ptrCounted s p i, State.ptrRead, path_setFld]
  have hset (v : Nat) : ((s.ptrCounted p i).setPtrRx p v).path p = (s.ptrCounted p i).path p := by rw [setPtrRx_eq, path_setFld]
  have hadopt (v : Nat) (always : Bool) : ((s.ptrCounted p i).adoptPtr p v always).path p = (s.ptrCounted p i).path p := by
    unfold State.adoptPtr
    split
    · rfl
    · rw [path_pathEvent, hset]
  cases i with
  | inc | dec =>
    simp only [State.movePtr]
    split
    · rw [path_setPath_self]
    · rfl
  | ndf v | new v =>
    simp only [State.movePtr]
    split
    · rw [hadopt]
    · rfl
  | ais | norm | inv => rfl

/-- An indication that moves nothing. -/
theorem ptrRx_ptrRead_still (h : i = .ais ∨ i = .norm ∨ i = .inv) : (s.ptrRead p i).ptrRx p = s.ptrRx p := by
  rw [ptrRx_ptrRead]
  obtain rfl | rfl | rfl := h
  all_goals exact ptrRx_of_regs p rfl

end

section
variable {s : State} {p : PathId} (hst : s.fld (pathStatAddr p) PATH_HO1_PTR_STATE = ptrNorm)
include hst

theorem ptrRead_inc : (s.ptrRead p .inc).ptrRx p = (s.ptrRx p + 1) % (s.ptrMax p + 1)
    ∧ ((s.ptrRead p .inc).path p).adjRx = (s.path p).adjRx + 1 := by
  have hlt := ptrMax_lt s p
  refine ⟨(ptrRx_ptrRead s p _).trans ?_, ?_⟩
  · rw [State.movePtr, if_pos hst]
    exact ptrRx_setPtrRx _ p (lt_of_lt_of_le (Nat.mod_lt _ (Nat.succ_pos _)) hlt)
  · rw [State.ptrRead, path_setFld, State.movePtr, if_pos hst, path_setPath_self]
    exact congrArg (· + 1) (adjRx_ptrCounted s p .inc)

theorem ptrRead_dec : (s.ptrRead p .dec).ptrRx p = (s.ptrRx p + s.ptrMax p) % (s.ptrMax p + 1)
    ∧ ((s.ptrRead p .dec).path p).adjRx = (s.path p).adjRx + 1 := by
  have hlt := ptrMax_lt s p
  refine ⟨(ptrRx_ptrRead s p _).trans ?_, ?_⟩
  · rw [State.movePtr, if_pos hst]
    exact ptrRx_setPtrRx _ p (lt_of_lt_of_le (Nat.mod_lt _ (Nat.succ_pos _)) hlt)
  · rw [State.ptrRead, path_setFld, State.movePtr, if_pos hst, path_setPath_self]
    exact congrArg (· + 1) (adjRx_ptrCounted s p .dec)

theorem ptrRx_ptrRead_ndf {v : Nat} (hv : v < 1024) : (s.ptrRead p (.ndf v)).ptrRx p = v := by
  rw [ptrRx_ptrRead, State.movePtr, if_pos (.inl hst), State.adoptPtr, if_neg (by simp)]
  exact (ptrRx_of_regs p (reg_raise ..)).trans (ptrRx_setPtrRx _ p hv)

end

/-! ### The pointer state after one reading -/

section
variable {s : State} {p : PathId}

theorem ptrNext_ends {i : PtrInd} (hst : s.fld (pathStatAddr p) PATH_HO1_PTR_STATE = ptrNorm) (hi : i = .norm ∨ i = .inc ∨ i = .dec) :
    s.ptrNext p i = ptrNorm := by
  rw [State.ptrNext, hst]
  obtain rfl | rfl | rfl := hi
  all_goals exact nextPtrState_norm _ _ (show 0 ≠ 3 by decide) (show 0 ≠ 8 by decide) (show 0 ≠ 8 by decide)

theorem ptrNext_newData {v : Nat} (hst : s.fld (pathStatAddr p) PATH_HO1_PTR_STATE = ptrNorm) (hrun : (s.path p).ndfRun < 7) :
    s.ptrNext p (.ndf v) = ptrNorm := by
  have hndf : (s.counted p (.ndf v)).ndfRun = min 8 ((s.path p).ndfRun + 1) := rfl
  rw [State.ptrNext, hst]
  exact nextPtrState_norm _ _ (show 0 ≠ 3 by decide) (show 0 ≠ 8 by decide) (by omega)

theorem ptrNext_allOnes (hst : s.fld (pathStatAddr p) PATH_HO1_PTR_STATE = ptrNorm) (hrun : (s.path p).aisRun = 2) : s.ptrNext p .ais = ptrAis := by
  have hais : (s.counted p .ais).aisRun = min 3 ((s.path p).aisRun + 1) := rfl
  rw [hrun] at hais
  rw [State.ptrNext, hst]
  exact nextPtrState_ais _ _ hais

theorem ptrNext_invalid (hst : s.fld (pathStatAddr p) PATH_HO1_PTR_STATE = ptrNorm) (hrun : (s.path p).invRun = 7) : s.ptrNext p .inv = ptrLop := by
  have hinv : (s.counted p .inv).invRun = min 8 ((s.path p).invRun + 1) := rfl
  rw [hrun] at hinv
  rw [State.ptrNext, hst]
  exact nextPtrState_lop _ _ (show 0 ≠ 3 by decide) hinv

theorem ptrNext_found (hst : s.fld (pathStatAddr p) PATH_HO1_PTR_STATE = ptrLop) (hrun : (s.path p).sameRun = 2)
    (hval : (s.path p).sameVal = s.ptrRx p) : s.ptrNext p .norm = ptrNorm := by
  have hsame : (s.counted p .norm).sameRun
      = if (s.path p).sameRun ≠ 0 ∧ (s.path p).sameVal = s.ptrRx p then min 3 ((s.path p).sameRun + 1) else 1 := rfl
  rw [hrun, if_pos ⟨by decide, hval⟩] at hsame
  rw [State.ptrNext, hst]
  exact nextPtrState_found _ _ hsame

end

/-! ### The row -/

/-- What a reading may write. -/
def readBits (a _ : Nat) : Prop := Safety.pathBlock a ∨ Safety.tribTx a

theorem Rest.readBits {s t : State} (h : Rest s t) : Within readBits s t :=
  h.toWithin.mono fun a _ hr => hr.imp (fun hr => by unfold Safety.pathBlock; omega) id

theorem within_inService (s : State) (p : PathId) : Within readBits s (s.inService p) := by
  have hstat : Safety.pathBlock (pathStatAddr p) := by have := pathStatAddr_range p; unfold Safety.pathBlock; omega
  unfold State.inService
  split
  · exact .refl s
  · have hput : Within readBits s (s.setPath p { PathPort.init with started := true }) := (Within.refl s).setPath p _
    exact (hput.setFld _ _ _ fun _ _ _ => .inl hstat).setFlag _ _ _ fun _ _ _ => .inl hstat

theorem started_inService (s : State) (p : PathId) : ((s.inService p).path p).started = true := by
  unfold State.inService
  split
  · assumption
  · rw [path_setFlag, path_setFld, path_setPath_self]

section
variable {s : State} {p : PathId} {r : PtrReading} (hrun : s.running islPX = true) (hex : s.pathExists p = true)
include hrun hex

/-- A reading leaves the path in service, and changes no register but the PATH block's and the ports' transmit status. -/
theorem pointerReading_frame : ∃ t, exec (.pointerReading p r) s = .next t ∧ (t.path p).started = true ∧ Within readBits s t := by
  refine ⟨_, exec_pointerReading hrun hex r, ?_, ?_⟩
  · exact ((rest_afterReading ..).reading p).started.trans ((started_ptrRead ..).trans (started_inService ..))
  · have hread := within_ptrRead ((s.ssfJudged p).inService p) p (((s.ssfJudged p).inService p).indication p (s.arriving p r))
    exact (((rest_ssfJudged s p).readBits.trans (within_inService ..)).trans (hread.mono fun _ _ => .inl)).trans (rest_afterReading ..).readBits

/-- Of a path in service the reading's own effect on the pointer stands, at a state whose pointer and readings were those found. -/
theorem pointerReading_served {t : State} {st : Nat} {i : PtrInd} (ht : exec (.pointerReading p r) s = .next t)
    (hin : (s.path p).started = true) (hconcat : (s.arriving p r).concat = true) (hst : s.fld (pathStatAddr p) PATH_HO1_PTR_STATE = st)
    (hi : classify (s.ptrRx p) (s.ptrMax p) (s.path p).adjGap true (s.arriving p r).pointer = i) :
    ∃ v, Rest s v ∧ v.fld (pathStatAddr p) PATH_HO1_PTR_STATE = st ∧ t.fld (pathStatAddr p) PATH_HO1_PTR_STATE = v.ptrNext p i
      ∧ t.ptrRx p = (v.ptrRead p i).ptrRx p ∧ (t.path p).adjRx = ((v.ptrRead p i).path p).adjRx := by
  have hv := rest_ssfJudged s p
  have hread := hv.reading p
  have hserved : (s.ssfJudged p).inService p = s.ssfJudged p := if_pos (hread.started.trans hin)
  have hind : (s.ssfJudged p).indication p (s.arriving p r) = i := by
    rw [← hi, State.indication, hv.ptrRx, hv.ptrMax, hread.adjGap, hconcat, Bool.true_or]
  rw [exec_pointerReading hrun hex, hserved, hind] at ht
  cases ht
  have hafter := rest_afterReading ((s.ssfJudged p).ptrRead p i) p (s.arriving p r) ((s.ssfJudged p).ptrNext p i)
  exact ⟨_, hv, (hv.state p).trans hst, (hafter.state p).trans (state_ptrRead ..), hafter.ptrRx p, (hafter.reading p).adjRx⟩

section
variable {t : State} (ht : exec (.pointerReading p r) s = .next t) (hin : (s.path p).started = true) (hconcat : (s.arriving p r).concat = true)
include ht hin hconcat

section
variable (hst : s.fld (pathStatAddr p) PATH_HO1_PTR_STATE = ptrNorm)
include hst

theorem reading_normal (hptr : (s.arriving p r).pointer.toNat = 0x6000 + s.ptrRx p) (hle : s.ptrRx p ≤ s.ptrMax p) :
    t.fld (pathStatAddr p) PATH_HO1_PTR_STATE = ptrNorm ∧ t.ptrRx p = s.ptrRx p := by
  obtain ⟨v, hv, hvst, hstate, hrx, -⟩ :=
    pointerReading_served hrun hex ht hin hconcat hst (classify_normal hptr hle (ptrMax_lt s p))
  exact ⟨hstate.trans (ptrNext_ends hvst (by simp)), hrx.trans ((ptrRx_ptrRead_still v p _ (by simp)).trans (hv.ptrRx p))⟩

theorem reading_iBits (hptr : (s.arriving p r).pointer.toNat = 0x6000 + (s.ptrRx p ^^^ 0x2AA)) (hgap : 3 ≤ (s.path p).adjGap) :
    t.fld (pathStatAddr p) PATH_HO1_PTR_STATE = ptrNorm ∧ t.ptrRx p = (s.ptrRx p + 1) % (s.ptrMax p + 1)
      ∧ (t.path p).adjRx = (s.path p).adjRx + 1 := by
  obtain ⟨v, hv, hvst, hstate, hrx, hadj⟩ := pointerReading_served (i := .inc) hrun hex ht hin hconcat hst
    ((classify_inverted hptr (by decide) (by decide) (ptrRx_lt s p) hgap).trans (if_pos (by decide)))
  obtain ⟨hmoved, hcount⟩ := ptrRead_inc hvst
  rw [hv.ptrRx, hv.ptrMax] at hmoved
  exact ⟨hstate.trans (ptrNext_ends hvst (by simp)), hrx.trans hmoved, by rw [hadj, hcount, (hv.reading p).adjRx]⟩

theorem reading_dBits (hptr : (s.arriving p r).pointer.toNat = 0x6000 + (s.ptrRx p ^^^ 0x155)) (hgap : 3 ≤ (s.path p).adjGap) :
    t.fld (pathStatAddr p) PATH_HO1_PTR_STATE = ptrNorm ∧ t.ptrRx p = (s.ptrRx p + s.ptrMax p) % (s.ptrMax p + 1)
      ∧ (t.path p).adjRx = (s.path p).adjRx + 1 := by
  obtain ⟨v, hv, hvst, hstate, hrx, hadj⟩ := pointerReading_served (i := .dec) hrun hex ht hin hconcat hst
    ((classify_inverted hptr (by decide) (by decide) (ptrRx_lt s p) hgap).trans ((if_neg (by decide)).trans (if_pos (by decide))))
  obtain ⟨hmoved, hcount⟩ := ptrRead_dec hvst
  rw [hv.ptrRx, hv.ptrMax] at hmoved
  exact ⟨hstate.trans (ptrNext_ends hvst (by simp)), hrx.trans hmoved, by rw [hadj, hcount, (hv.reading p).adjRx]⟩

theorem reading_newData {val : Nat} (hptr : (s.arriving p r).pointer.toNat = 0x9000 + val) (hle : val ≤ s.ptrMax p)
    (hfew : (s.path p).ndfRun < 7) : t.fld (pathStatAddr p) PATH_HO1_PTR_STATE = ptrNorm ∧ t.ptrRx p = val := by
  have hmax := ptrMax_lt s p
  obtain ⟨v, hv, hvst, hstate, hrx, -⟩ := pointerReading_served hrun hex ht hin hconcat hst (classify_newData hptr hle hmax)
  have hndf := (hv.reading p).ndfRun
  exact ⟨hstate.trans (ptrNext_newData hvst (by omega)), hrx.trans (ptrRx_ptrRead_ndf hvst (by omega))⟩

theorem reading_allOnes (hptr : (s.arriving p r).pointer = 0xFFFF) (htwo : (s.path p).aisRun = 2) :
    t.fld (pathStatAddr p) PATH_HO1_PTR_STATE = ptrAis ∧ t.ptrRx p = s.ptrRx p := by
  obtain ⟨v, hv, hvst, hstate, hrx, -⟩ := pointerReading_served hrun hex ht hin hconcat hst (classify_allOnes hptr)
  exact ⟨hstate.trans (ptrNext_allOnes hvst ((hv.reading p).aisRun.trans htwo)),
    hrx.trans ((ptrRx_ptrRead_still v p _ (by simp)).trans (hv.ptrRx p))⟩

theorem reading_invalid (hptr : (s.arriving p r).pointer = 0) (hseven : (s.path p).invRun = 7) :
    t.fld (pathStatAddr p) PATH_HO1_PTR_STATE = ptrLop ∧ t.ptrRx p = s.ptrRx p := by
  obtain ⟨v, hv, hvst, hstate, hrx, -⟩ := pointerReading_served hrun hex ht hin hconcat hst (classify_zero hptr)
  exact ⟨hstate.trans (ptrNext_invalid hvst ((hv.reading p).invRun.trans hseven)),
    hrx.trans ((ptrRx_ptrRead_still v p _ (by simp)).trans (hv.ptrRx p))⟩

end

theorem reading_found (hst : s.fld (pathStatAddr p) PATH_HO1_PTR_STATE = ptrLop) (hptr : (s.arriving p r).pointer.toNat = 0x6000 + s.ptrRx p)
    (hle : s.ptrRx p ≤ s.ptrMax p) (htwo : (s.path p).sameRun = 2) (hval : (s.path p).sameVal = s.ptrRx p) :
    t.fld (pathStatAddr p) PATH_HO1_PTR_STATE = ptrNorm ∧ t.ptrRx p = s.ptrRx p := by
  obtain ⟨v, hv, hvst, hstate, hrx, -⟩ := pointerReading_served hrun hex ht hin hconcat hst (classify_normal hptr hle (ptrMax_lt s p))
  have hread := hv.reading p
  exact ⟨hstate.trans (ptrNext_found hvst (hread.sameRun.trans htwo) (by rw [hread.sameVal, hval, hv.ptrRx])),
    hrx.trans ((ptrRx_ptrRead_still v p _ (by simp)).trans (hv.ptrRx p))⟩

end

end

end Sys2Proof.Machine
end

section
/-! PROOF of O29, pointer generation: the store of a path, and what its fill makes of the pointer sent (R150, R151). -/

namespace Sys2Proof.Machine

/-! ### The store and the transmitted pointer -/

section
variable (s : State) (p : PathId)

theorem storeSize_lt : (s.storeSize p).1 < 64 ∧ (s.storeSize p).2.1 < 64 := by
  cases p <;> (simp only [State.storeSize]; split <;> decide)

theorem storeFill_setStoreFill {v : Nat} (h : v < 64) : (s.setStoreFill p v).storeFill p = v := by
  cases p with
  | ho i => exact (fld_setFld_self _ _ (by decide) _).trans (Nat.mod_eq_of_lt (by simp only [PATH_HO3_ES_FILL]; omega))
  | lo l => exact (fld_setFld_self _ _ (by decide) _).trans (Nat.mod_eq_of_lt h)

theorem ptrTx_setPtrTx {v : Nat} (h : v < 1024) : (s.setPtrTx p v).ptrTx p = v := by
  cases p with
  | ho i => exact (fld_setFld_self _ _ (by decide) _).trans (Nat.mod_eq_of_lt h)
  | lo l => exact (fld_setFld_self _ _ (by decide) _).trans (Nat.mod_eq_of_lt h)

theorem storeFill_setPtrTx (v : Nat) : (s.setPtrTx p v).storeFill p = s.storeFill p := by
  cases p with
  | ho i => exact fld_setFld_ne _ _ _ _ (by unfold PATH_HO2 PATH_HO3; omega)
  | lo l => exact fld_setFld_other _ _ (by decide) _

theorem ptrTx_setStoreFill (v : Nat) : (s.setStoreFill p v).ptrTx p = s.ptrTx p := by
  cases p with
  | ho i => exact fld_setFld_ne _ _ _ _ (by unfold PATH_HO2 PATH_HO3; omega)
  | lo l => exact fld_setFld_other _ _ (by decide) _

end

/-- Only the pointer and store registers of `p` differ. -/
abbrev PointerOnly (p : PathId) (r s : State) : Prop := Within (fun a _ => a ∈ Safety.pointerRegs p) r s

section
variable {r s : State} {p : PathId} (h : PointerOnly p r s)
include h

theorem PointerOnly.setStoreFill (v : Nat) : PointerOnly p r (s.setStoreFill p v) := by
  cases p with
  | ho i => exact h.setFld _ _ _ fun _ _ _ => by simp [Safety.pointerRegs]
  | lo l => exact h.setFld _ _ _ fun _ _ _ => by simp [Safety.pointerRegs]

theorem PointerOnly.setPtrTx (v : Nat) : PointerOnly p r (s.setPtrTx p v) := by
  cases p with
  | ho i => exact h.setFld _ _ _ fun _ _ _ => by simp [Safety.pointerRegs]
  | lo l => exact h.setFld _ _ _ fun _ _ _ => by simp [Safety.pointerRegs]

theorem PointerOnly.onlyRegs : Safety.onlyRegs (Safety.pointerRegs p) r s := fun _ ha => h.reg fun _ => ha

end

/-! ### Overflow and underflow (R151) -/

section
variable (s : State) (p : PathId)

theorem pointerOnly_recentre : PointerOnly p s (s.recentre p) := by
  have hput : PointerOnly p s ((s.setStoreFill p (s.storeSize p).2.1).setPtrTx p (s.freeWord.toNat % (s.ptrMax p + 1))) :=
    PointerOnly.setPtrTx (PointerOnly.setStoreFill (Within.refl s) _) _
  have hfree : PointerOnly p s ((s.setStoreFill p (s.storeSize p).2.1).setPtrTx p (s.freeWord.toNat % (s.ptrMax p + 1))).useFree :=
    hput.beside rfl rfl rfl rfl
  exact (hfree.setPath p _).raise _ _ _

theorem storeFill_recentre : (s.recentre p).storeFill p = (s.storeSize p).2.1 := by
  have hput := (storeFill_setPtrTx (s.setStoreFill p (s.storeSize p).2.1) p (s.freeWord.toNat % (s.ptrMax p + 1))).trans
    (storeFill_setStoreFill s p (storeSize_lt s p).2)
  rw [← hput]
  cases p with
  | ho i => exact fld_raise ..
  | lo l => exact fld_raise ..

theorem ptrTx_recentre : (s.recentre p).ptrTx p ≤ s.ptrMax p := by
  have hmod : s.freeWord.toNat % (s.ptrMax p + 1) < s.ptrMax p + 1 := Nat.mod_lt _ (Nat.succ_pos _)
  have hput := ptrTx_setPtrTx (s.setStoreFill p (s.storeSize p).2.1) p (lt_of_lt_of_le hmod (ptrMax_lt s p))
  have hraise : (s.recentre p).ptrTx p
      = ((s.setStoreFill p (s.storeSize p).2.1).setPtrTx p (s.freeWord.toNat % (s.ptrMax p + 1))).ptrTx p := by
    cases p with
    | ho i => exact fld_raise ..
    | lo l => exact fld_raise ..
  rw [hraise, hput]
  exact Nat.le_of_lt_succ hmod

theorem ndfPending_recentre : ((s.recentre p).path p).ndfPending = true := by
  rw [State.recentre, path_pathEvent, path_setPath_self]

theorem path_setStoreFill (q : PathId) (v : Nat) : (s.setStoreFill p v).path q = s.path q := by cases p <;> rfl

theorem chan_setStoreFill (v : Nat) : (s.setStoreFill p v).chan = s.chan := by cases p <;> rfl

theorem chan_setPtrTx (v : Nat) : (s.setPtrTx p v).chan = s.chan := by cases p <;> rfl

theorem raised_recentre (hd : s.sp.dormant = false) : Safety.raised [(islPX, 0x342)] s (s.recentre p) := by
  have hsp := (PointerOnly.setPtrTx (PointerOnly.setStoreFill (Within.refl s) (p := p) (s.storeSize p).2.1) (s.freeWord.toNat % (s.ptrMax p + 1))).sp
  refine raised_raise _ _ _ ?_ ((congrArg Sup.dormant hsp).trans hd)
  exact (chan_setPtrTx ..).trans (chan_setStoreFill ..)

end

/-! ### The generator's choice (R150, R151) -/

/-- The pointer bytes of a position at which nothing new is sent. -/
def State.samePtr (s : State) (p : PathId) : BitVec 16 := s.ptrWord p 0b0110 (if (s.path p).ndfPending then (s.path p).ptrOld else s.ptrTx p)

/-- The pointer moved by one unit to `v`. -/
def State.ptrAdjusted (s : State) (p : PathId) (v : Nat) : State :=
  (s.setPtrTx p v).setPath p { s.path p with txGap := 1, adjTx := (s.path p).adjTx + 1, txTotal := (s.path p).txTotal + 1 }

section
variable {s : State} {p : PathId} {fill : Nat}

theorem pointerStep_beyond (h : fill = 0 ∨ (s.storeSize p).1 < fill) : s.pointerStep p fill = (s.recentre p, s.samePtr p) := if_pos h

section
variable (h1 : 1 ≤ fill) (hd : fill ≤ (s.storeSize p).1)
include h1 hd

theorem pointerStep_waits (hgap : (s.path p).txGap < 4) : s.pointerStep p fill
    = ((s.setStoreFill p fill).setPath p { s.path p with txGap := min 4 ((s.path p).txGap + 1) }, s.samePtr p) := by
  unfold State.pointerStep
  rw [if_neg (by omega)]
  exact if_pos hgap

theorem pointerStep_due (hgap : (s.path p).txGap = 4) (hndf : (s.path p).ndfPending = false) : s.pointerStep p fill
    = if fill ≤ (s.storeSize p).2.2.1 then ((s.setStoreFill p fill).ptrAdjusted p ((s.ptrTx p + 1) % (s.ptrMax p + 1)),
        (s.setStoreFill p fill).ptrWord p 0b0110 (s.ptrTx p ^^^ iBits))
      else if (s.storeSize p).2.2.2 ≤ fill then ((s.setStoreFill p fill).ptrAdjusted p ((s.ptrTx p + s.ptrMax p) % (s.ptrMax p + 1)),
        (s.setStoreFill p fill).ptrWord p 0b0110 (s.ptrTx p ^^^ dBits))
      else (s.setStoreFill p fill, s.samePtr p) := by
  have hmax : (s.setStoreFill p fill).ptrMax p = s.ptrMax p := ((Rest.refl s).setStoreFill p fill).ptrMax p
  unfold State.pointerStep State.ptrAdjusted
  dsimp only
  rw [if_neg (by omega), if_neg (by omega), if_neg (by simp [hndf]), hmax, path_setStoreFill, ← Nat.add_assoc, Nat.add_sub_cancel]
  rfl

end

end

/-! ### The row -/

theorem useFeed_of_ok {s : State} {w : Word} (h : Safety.feedOk s w) : s.useFeed w = s := by
  unfold State.useFeed
  split
  · next e k he =>
    refine if_neg ?_
    simp only [Bool.and_eq_true, not_and]
    intro hact
    simp [h _ he hact]
  · rfl

section
variable (s : State) (p q : PathId)

theorem storeFill_setPath (x : PathPort) : (s.setPath q x).storeFill p = s.storeFill p := by cases p <;> rfl

theorem ptrTx_setPath (x : PathPort) : (s.setPath q x).ptrTx p = s.ptrTx p := by cases p <;> rfl

theorem storeFill_sendVc (ptr : BitVec 16) (vc : List Byte) (x : Nat) : (s.sendVc q ptr vc x).storeFill p = s.storeFill p :=
  storeFill_setPath ..

theorem ptrTx_sendVc (ptr : BitVec 16) (vc : List Byte) (x : Nat) : (s.sendVc q ptr vc x).ptrTx p = s.ptrTx p := ptrTx_setPath ..

end

/-- What a position with the fill `n` shows: that fill, the pointer value `v`, `k` adjustments more, and the container sent. -/
structure PointerMoved (p : PathId) (vc : List Byte) (n v k : Nat) (s t : State) : Prop where
  fill : t.storeFill p = n
  ptr : t.ptrTx p = v
  adj : (t.path p).adjTx = (s.path p).adjTx + k
  vc : (t.path p).sentVc = s.txVc p vc
  only : PointerOnly p s t
  chan : t.chan = s.chan

section
variable (s : State) (p : PathId) {n : Nat} (hn : n < 64) (vc : List Byte) (ptr : BitVec 16) (x : Nat)
include hn

theorem pointerMoved_still : PointerMoved p vc n (s.ptrTx p) 0 s ((s.setStoreFill p n).sendVc p ptr (s.txVc p vc) x) where
  fill := (storeFill_sendVc ..).trans (storeFill_setStoreFill s p hn)
  ptr := (ptrTx_sendVc ..).trans (ptrTx_setStoreFill ..)
  adj := by
    rw [State.sendVc, path_setPath_self]
    show ((s.setStoreFill p n).path p).adjTx = _
    rw [path_setStoreFill, Nat.add_zero]
  vc := by rw [State.sendVc, path_setPath_self]
  only := (PointerOnly.setStoreFill (Within.refl s) n).setPath p _
  chan := chan_setStoreFill ..

theorem pointerMoved_adjusted {v : Nat} (hv : v < 1024) :
    PointerMoved p vc n v 1 s (((s.setStoreFill p n).ptrAdjusted p v).sendVc p ptr (s.txVc p vc) x) where
  fill := by rw [storeFill_sendVc, State.ptrAdjusted, storeFill_setPath, storeFill_setPtrTx, storeFill_setStoreFill s p hn]
  ptr := by rw [ptrTx_sendVc, State.ptrAdjusted, ptrTx_setPath, ptrTx_setPtrTx _ _ hv]
  adj := by
    rw [State.sendVc, path_setPath_self, State.ptrAdjusted, path_setPath_self]
    show ((s.setStoreFill p n).path p).adjTx + 1 = _
    rw [path_setStoreFill]
  vc := by rw [State.sendVc, path_setPath_self]
  only := ((PointerOnly.setPtrTx (PointerOnly.setStoreFill (Within.refl s) n) v).setPath p _).setPath p _
  chan := (chan_setPtrTx ..).trans (chan_setStoreFill ..)

end

section
variable {s : State} {p : PathId} (hrun : s.running islPX = true) (hex : s.pathExists p = true) (hfeed : Safety.feedOk s (s.pathEp p))
  (fill : Nat) (vc : List Byte)
include hrun hex hfeed

theorem exec_pointerGeneration_ais (hais : s.sendsAis p = true) : exec (.pointerGeneration p fill vc) s = .next
    (s.sendVc p 0xFFFF (vc.map fun _ => 0xFF) (s.pathTraceOut p).2) := by
  refine congrArg Host.Outcome.next ((if_neg (by simp [hrun, hex])).trans ?_)
  rw [useFeed_of_ok hfeed]
  dsimp only
  rw [if_pos hais, State.txVc, if_pos hais]

theorem exec_pointerGeneration (hais : s.sendsAis p = false) : exec (.pointerGeneration p fill vc) s = .next
    ((s.pointerStep p fill).1.sendVc p (s.pointerStep p fill).2 (s.txVc p vc) (s.pathTraceOut p).2) := by
  refine congrArg Host.Outcome.next ((if_neg (by simp [hrun, hex])).trans ?_)
  rw [useFeed_of_ok hfeed]
  dsimp only
  rw [if_neg (by simp [hais])]

/-- Overflow and underflow alike recentre the store (R151). -/
theorem generation_beyond (hais : s.sendsAis p = false) (hout : fill = 0 ∨ (s.storeSize p).1 < fill) :
    ∃ t, exec (.pointerGeneration p fill vc) s = .next t ∧ t.storeFill p = (s.storeSize p).2.1 ∧ (t.path p).ndfPending = true
      ∧ t.ptrTx p ≤ s.ptrMax p ∧ Safety.raised [(islPX, 0x342)] s t ∧ Safety.onlyRegs (Safety.pointerRegs p) s t ∧ Safety.sameMem s t := by
  refine ⟨_, exec_pointerGeneration hrun hex hfeed fill vc hais, ?_⟩
  rw [pointerStep_beyond hout]
  have honly : PointerOnly p s ((s.recentre p).sendVc p (s.samePtr p) (s.txVc p vc) (s.pathTraceOut p).2) :=
    (pointerOnly_recentre s p).setPath p _
  refine ⟨?_, ?_, ?_, raised_recentre s p (not_dormant_of_running hrun), honly.onlyRegs, honly.sameMem⟩
  · rw [storeFill_sendVc, storeFill_recentre]
  · rw [State.sendVc, path_setPath_self]
    exact ndfPending_recentre s p
  · rw [ptrTx_sendVc]
    exact ptrTx_recentre s p

/-- Four readings after the last change the fill alone decides (R150). -/
theorem generation_due (hais : s.sendsAis p = false) (h1 : 1 ≤ fill) (hd : fill ≤ (s.storeSize p).1) (hgap : (s.path p).txGap = 4)
    (hndf : (s.path p).ndfPending = false) : ∃ t, exec (.pointerGeneration p fill vc) s = .next t
      ∧ PointerMoved p vc fill (if fill ≤ (s.storeSize p).2.2.1 then (s.ptrTx p + 1) % (s.ptrMax p + 1)
          else if (s.storeSize p).2.2.2 ≤ fill then (s.ptrTx p + s.ptrMax p) % (s.ptrMax p + 1) else s.ptrTx p)
        (if fill ≤ (s.storeSize p).2.2.1 ∨ (s.storeSize p).2.2.2 ≤ fill then 1 else 0) s t
      ∧ ((s.storeSize p).2.2.1 < fill → fill < (s.storeSize p).2.2.2 → (t.path p).sentPtr = s.ptrWord p 0b0110 (s.ptrTx p)) := by
  have hfill : fill < 64 := lt_of_le_of_lt hd (storeSize_lt s p).1
  have hmod (v : Nat) : v % (s.ptrMax p + 1) < 1024 := lt_of_lt_of_le (Nat.mod_lt _ (Nat.succ_pos _)) (ptrMax_lt s p)
  refine ⟨_, exec_pointerGeneration hrun hex hfeed fill vc hais, ?_⟩
  rw [pointerStep_due h1 hd hgap hndf]
  by_cases hlow : fill ≤ (s.storeSize p).2.2.1
  · simp only [if_pos hlow, if_pos (Or.inl hlow)]
    exact ⟨pointerMoved_adjusted s p hfill vc _ _ (hmod _), fun hlo => absurd hlow (Nat.not_le.mpr hlo)⟩
  · by_cases hhigh : (s.storeSize p).2.2.2 ≤ fill
    · simp only [if_neg hlow, if_pos hhigh, if_pos (Or.inr hhigh)]
      exact ⟨pointerMoved_adjusted s p hfill vc _ _ (hmod _), fun _ hhi => absurd hhigh (Nat.not_le.mpr hhi)⟩
    · simp only [if_neg hlow, if_neg hhigh, if_neg (not_or_intro hlow hhigh)]
      refine ⟨pointerMoved_still s p hfill vc _ _, fun _ _ => ?_⟩
      rw [State.sendVc, path_setPath_self, State.samePtr, if_neg (by simp [hndf])]

/-- Until then the pointer stands, whatever the fill within the store's depth. -/
theorem generation_waits (hais : s.sendsAis p = false) (h1 : 1 ≤ fill) (hd : fill ≤ (s.storeSize p).1) (hgap : (s.path p).txGap < 4) :
    ∃ t, exec (.pointerGeneration p fill vc) s = .next t ∧ t.storeFill p = fill ∧ t.ptrTx p = s.ptrTx p
      ∧ (t.path p).txGap = min 4 ((s.path p).txGap + 1) ∧ Safety.onlyRegs (Safety.pointerRegs p) s t ∧ Safety.sameMem s t
      ∧ t.chan = s.chan := by
  have hfill : fill < 64 := lt_of_le_of_lt hd (storeSize_lt s p).1
  refine ⟨_, exec_pointerGeneration hrun hex hfeed fill vc hais, ?_⟩
  rw [pointerStep_waits h1 hd hgap]
  have hput : PointerOnly p s (s.setStoreFill p fill) := PointerOnly.setStoreFill (Within.refl s) fill
  have honly : PointerOnly p s (((s.setStoreFill p fill).setPath p { s.path p with txGap := min 4 ((s.path p).txGap + 1) }).sendVc p (s.samePtr p)
    (s.txVc p vc) (s.pathTraceOut p).2) := (hput.setPath p _).setPath p _
  refine ⟨?_, ?_, ?_, honly.onlyRegs, honly.sameMem, chan_setStoreFill ..⟩
  · rw [storeFill_sendVc, storeFill_setPath, storeFill_setStoreFill _ _ hfill]
  · rw [ptrTx_sendVc, ptrTx_setPath, ptrTx_setStoreFill]
  · rw [State.sendVc, path_setPath_self, path_setPath_self]

end

end Sys2Proof.Machine
end

section
/-! PROOF of O29, the second of a path: the counts shown and the detectors judged (R153), and the obligation. -/

namespace Sys2Proof.Machine

/-! ### What a defect and the consequent actions write -/

section
variable {W : Nat → Nat → Prop} {r s : State} (hsum : ∀ k < 2, ∀ j, W (PATH_SUM k) j)
include hsum

theorem within_updatePathSum (h : Within W r s) {k : Nat} (hk : k < 64) : Within W r (s.updatePathSum k) :=
  h.setFlag _ _ _ fun j _ _ => hsum (k / 32) (by omega) j

theorem within_pathDefect (h : Within W r s) (p : PathId) (f : Fld) (b : Bool)
    (hf : ∀ j, f.lo ≤ j → j < f.lo + f.len → W (pathStatAddr p) j) : Within W r (s.pathDefect p f b) :=
  h.ite ((within_updatePathSum hsum (h.setFlag _ f b hf) (pathSlot_lt p)).raise _ _ _)

end

section
variable (s : State) (p : PathId)

theorem statAddr_ne_sum (k : Nat) (hk : k < 64) : pathStatAddr p ≠ PATH_SUM (k / 32) := by
  have := pathStatAddr_range p
  unfold PATH_SUM
  omega

theorem pstat_pathEvent (q : PathId) (e : Nat) (f : Fld) : (s.pathEvent q e).pstat p f = s.pstat p f := flag_raise ..

theorem pstat_updatePathSum {k : Nat} (hk : k < 64) (f : Fld) : (s.updatePathSum k).pstat p f = s.pstat p f :=
  flag_setFlag_ne _ _ _ _ (statAddr_ne_sum p k hk).symm

theorem pstat_pathDefect_self {f : Fld} (b : Bool) (hf : f.len = 1 ∧ f.lo < 32) : (s.pathDefect p f b).pstat p f = b := by
  unfold State.pathDefect
  split
  · assumption
  · rw [pstat_pathEvent, pstat_updatePathSum _ _ (pathSlot_lt p)]
    exact flag_setFlag_self _ _ (by omega) hf.1 _

theorem pstat_pathDefect_other {f g : Fld} (b : Bool) (hfg : f.lo + f.len ≤ g.lo ∨ g.lo + g.len ≤ f.lo) :
    (s.pathDefect p g b).pstat p f = s.pstat p f := by
  unfold State.pathDefect
  split
  · rfl
  · rw [pstat_pathEvent, pstat_updatePathSum _ _ (pathSlot_lt p)]
    exact flag_setFlag_other _ _ hfg _

end

/-- The bits of consequent actions: SSF, TSF and TSD of paths, and the summaries. -/
def actionBits (a j : Nat) : Prop := (10 ≤ j ∧ ∃ p, a = pathStatAddr p) ∨ ∃ k < 2, a = PATH_SUM k

theorem actionBits_sum (k : Nat) (hk : k < 2) (j : Nat) : actionBits (PATH_SUM k) j := .inr ⟨k, hk, rfl⟩

/-- The registers of the defects: the status of paths, and the summaries. -/
def statusRegs (a : Nat) : Prop := (∃ p, a = pathStatAddr p) ∨ ∃ k < 2, a = PATH_SUM k

theorem statusRegs_of_actionBits {a j : Nat} (h : actionBits a j) : statusRegs a := h.imp (·.2) id

theorem pathBlock_of_statusRegs {a : Nat} (h : statusRegs a) : Safety.pathBlock a := by
  unfold Safety.pathBlock
  obtain ⟨p, rfl⟩ | ⟨k, hk, rfl⟩ := h
  · have := pathStatAddr_range p
    omega
  · unfold PATH_SUM
    omega

theorem not_actionBits_stat {p : PathId} {j : Nat} (hj : j < 10) : ¬ actionBits (pathStatAddr p) j := by
  rintro (⟨hge, -⟩ | ⟨k, hk, he⟩)
  · omega
  · exact statAddr_ne_sum p (32 * k) (by omega) (by rw [he, Nat.mul_div_cancel_left _ (by decide)])

section
variable {r s : State} (h : Within actionBits r s)
include h

theorem within_pathTsf (p : PathId) : Within actionBits r (s.pathTsf p) := by
  have hstat {f : Fld} (hf : 10 ≤ f.lo) : ∀ j, f.lo ≤ j → j < f.lo + f.len → actionBits (pathStatAddr p) j :=
    fun _ hj _ => .inl ⟨hf.trans hj, p, rfl⟩
  exact ((h.setFlag _ _ _ (hstat (by decide))).setFlag _ _ _ (hstat (by decide))).setFlag _ _ _ (hstat (by decide))

theorem within_updateSsf (l : Fin 5376) : Within actionBits r (s.updateSsf l) :=
  within_pathTsf (within_pathDefect actionBits_sum ((h.setPath _ _).ite h) (.lo l) PATH_LO1_SSF _
    fun _ hj _ => .inl ⟨hj, .lo l, rfl⟩) (.lo l)

theorem within_pathActions (p : PathId) : Within actionBits r (s.pathActions p) := by
  cases p with
  | lo l => exact within_pathTsf h (.lo l)
  | ho i =>
    refine Within.each _ _ (fun x l _ hx => ?_) (within_pathTsf h (.ho i))
    split
    · exact hx.ite (within_updateSsf hx _)
    · exact hx

end

section
variable (s : State)

theorem path_updateSsf_ho (i : Fin 192) (l : Fin 5376) : (s.updateSsf l).path (.ho i) = s.path (.ho i) := by
  refine (path_pathDefect ..).trans ?_
  unfold State.when
  split
  · exact path_setPath_ne _ _ _ (by simp)
  · rfl

theorem path_pathActions (p : PathId) : (s.pathActions p).path p = s.path p := by
  cases p with
  | lo l => rfl
  | ho i =>
    refine each_keeps (fun x : State => x.path (.ho i)) (fun x l => ?_) _ _
    dsimp only
    split
    · split
      · rfl
      · exact path_updateSsf_ho x i _
    · rfl

end

/-! ### A judged second (R153) -/

/-- The settings by which a path's second is judged. -/
def degCfg : PathId → Nat
  | .ho _ => PATH_HO_DEG_CFG
  | .lo _ => PATH_LO_DEG_CFG

theorem degCfg_lt (p : PathId) : degCfg p < 0x40201000 := by
  cases p
  · exact (by decide : PATH_HO_DEG_CFG < 0x40201000)
  · exact (by decide : PATH_LO_DEG_CFG < 0x40201000)

/-- A second with `n` errored blocks is a bad one. -/
def State.badSecond (s : State) (p : PathId) (n : Nat) : Bool := decide (s.fld (degCfg p) PATH_HO_DEG_CFG_DEGTHR ≤ n)

/-- The bad seconds in a row, this one with them. -/
def State.badSeconds (s : State) (p : PathId) (n : Nat) : Nat :=
  if s.badSecond p n then min (s.fld (degCfg p) PATH_HO_DEG_CFG_DEGM) ((s.path p).badRun + 1) else 0

/-- The good ones. -/
def State.goodSeconds (s : State) (p : PathId) (n : Nat) : Nat :=
  if s.badSecond p n then 0 else min (s.fld (degCfg p) PATH_HO_DEG_CFG_DEGM) ((s.path p).goodRun + 1)

/-- The second counted as a bad or a good one, and dEXC judged. -/
def State.excJudged (s : State) (p : PathId) (n : Nat) : State :=
  (s.setPath p { s.path p with badRun := s.badSeconds p n, goodRun := s.goodSeconds p n }).pathDefect p PATH_HO1_EXC
    (decide (s.fld (degCfg p) PATH_HO_DEG_CFG_EXCTHR ≤ n))

section
variable (s : State) (p : PathId) (n : Nat)

theorem judgeSecond_eq : s.judgeSecond p n
    = if s.badSecond p n && decide (s.badSeconds p n = s.fld (degCfg p) PATH_HO_DEG_CFG_DEGM) then (s.excJudged p n).pathDefect p PATH_HO1_DEG true
      else if !s.badSecond p n && decide (s.goodSeconds p n = s.fld (degCfg p) PATH_HO_DEG_CFG_DEGM) then
        (s.excJudged p n).pathDefect p PATH_HO1_DEG false
      else s.excJudged p n := by cases p <;> rfl

/-- What declaring or clearing dDEG leaves as dEXC left it, a judged second does. -/
theorem judgeSecond_of {P : State → Prop} (h : P (s.excJudged p n)) (hdeg : ∀ b, P ((s.excJudged p n).pathDefect p PATH_HO1_DEG b)) :
    P (s.judgeSecond p n) := by
  rw [judgeSecond_eq]
  split
  · exact hdeg true
  · split
    · exact hdeg false
    · exact h

theorem within_judgeSecond : Within (fun a _ => statusRegs a) s (s.judgeSecond p n) := by
  have hdefect {x : State} (h : Within (fun a _ => statusRegs a) s x) (f : Fld) (b : Bool) : Within (fun a _ => statusRegs a) s (x.pathDefect p f b) :=
    within_pathDefect (fun k hk _ => .inr ⟨k, hk, rfl⟩) h p f b fun _ _ _ => .inl ⟨p, rfl⟩
  have hexc := hdefect ((Within.refl s).setPath p { s.path p with badRun := s.badSeconds p n, goodRun := s.goodSeconds p n }) PATH_HO1_EXC
    (decide (s.fld (degCfg p) PATH_HO_DEG_CFG_EXCTHR ≤ n))
  exact judgeSecond_of s p n hexc fun b => hdefect hexc _ b

/-- Judging a second counts good and bad ones only. -/
theorem path_judgeSecond : (s.judgeSecond p n).path p = { s.path p with badRun := s.badSeconds p n, goodRun := s.goodSeconds p n } := by
  have hexc : (s.excJudged p n).path p = { s.path p with badRun := s.badSeconds p n, goodRun := s.goodSeconds p n } :=
    (path_pathDefect ..).trans (path_setPath_self ..)
  exact judgeSecond_of (P := fun x => x.path p = _) s p n hexc fun b => (path_pathDefect ..).trans hexc

theorem pstat_judgeSecond_exc : (s.judgeSecond p n).pstat p PATH_HO1_EXC = decide (s.fld (degCfg p) PATH_HO_DEG_CFG_EXCTHR ≤ n) := by
  have hexc : (s.excJudged p n).pstat p PATH_HO1_EXC = decide (s.fld (degCfg p) PATH_HO_DEG_CFG_EXCTHR ≤ n) :=
    pstat_pathDefect_self _ _ _ (by decide)
  exact judgeSecond_of (P := fun x => x.pstat p PATH_HO1_EXC = _) s p n hexc fun b => (pstat_pathDefect_other _ _ b (by decide)).trans hexc

/-- The last of DEGM bad seconds declares dDEG. -/
theorem pstat_judgeSecond_bad (hbad : s.fld (degCfg p) PATH_HO_DEG_CFG_DEGTHR ≤ n)
    (hrun : s.fld (degCfg p) PATH_HO_DEG_CFG_DEGM ≤ (s.path p).badRun + 1) : (s.judgeSecond p n).pstat p PATH_HO1_DEG = true := by
  have hb : s.badSecond p n = true := decide_eq_true hbad
  have hm : s.badSeconds p n = s.fld (degCfg p) PATH_HO_DEG_CFG_DEGM := (if_pos hb).trans (Nat.min_eq_left hrun)
  rw [judgeSecond_eq, if_pos (by simp [hb, hm])]
  exact pstat_pathDefect_self _ _ _ (by decide)

/-- The last of DEGM good ones clears it. -/
theorem pstat_judgeSecond_good (hgood : n < s.fld (degCfg p) PATH_HO_DEG_CFG_DEGTHR)
    (hrun : s.fld (degCfg p) PATH_HO_DEG_CFG_DEGM ≤ (s.path p).goodRun + 1) : (s.judgeSecond p n).pstat p PATH_HO1_DEG = false := by
  have hb : s.badSecond p n = false := decide_eq_false (Nat.not_le.mpr hgood)
  have hm : s.goodSeconds p n = s.fld (degCfg p) PATH_HO_DEG_CFG_DEGM := (if_neg (by simp [hb])).trans (Nat.min_eq_left hrun)
  rw [judgeSecond_eq, if_neg (by simp [hb]), if_pos (by simp [hb, hm])]
  exact pstat_pathDefect_self _ _ _ (by decide)

end

/-! ### The row -/

/-- The second's counts shown, and counting restarted. -/
def State.secondShown (s : State) (p : PathId) : State :=
  let x := s.path p
  State.setPath (match p with
    | .ho h => (s.setFld (PATH_HO3 h) PATH_HO3_ADJ_TX (min 255 x.adjTx)).setFld (PATH_HO3 h) PATH_HO3_ADJ_RX (min 255 x.adjRx)
    | .lo l => (s.setFld (PATH_LO2 l) PATH_LO2_EB (min 2047 x.blocks)).setFld (PATH_LO2 l) PATH_LO2_REI (min 2047 x.rei))
    p { x with blocks := 0, rei := 0, adjTx := 0, adjRx := 0, held := false }

/-- The register that shows a path's counts. -/
def secondAddr : PathId → Nat
  | .ho h => PATH_HO3 h
  | .lo l => PATH_LO2 l

theorem secondAddr_range (p : PathId) : 0x40201000 ≤ secondAddr p ∧ secondAddr p < 0x40222000 ∧ secondAddr p % 16 ≠ 4 := by
  cases p with
  | ho i => have := i.isLt; simp only [secondAddr, PATH_HO3]; omega
  | lo l => have := l.isLt; simp only [secondAddr, PATH_LO2]; omega

section
variable (s : State) (p : PathId)

theorem within_secondShown : Within (fun a _ => a = secondAddr p) s (s.secondShown p) := by
  cases p with
  | ho i => exact (((Within.refl s).setFld _ _ _ fun _ _ _ => rfl).setFld _ _ _ fun _ _ _ => rfl).setPath _ _
  | lo l => exact (((Within.refl s).setFld _ _ _ fun _ _ _ => rfl).setFld _ _ _ fun _ _ _ => rfl).setPath _ _

theorem path_secondShown : (s.secondShown p).path p = { s.path p with blocks := 0, rei := 0, adjTx := 0, adjRx := 0, held := false } :=
  path_setPath_self ..

theorem pstat_secondShown (f : Fld) : (s.secondShown p).pstat p f = s.pstat p f := by
  have hne : pathStatAddr p ≠ secondAddr p := by
    have := pathStatAddr_range p
    have := secondAddr_range p
    omega
  exact (within_secondShown s p).flag fun _ _ _ => hne

theorem pathDown_secondShown : (s.secondShown p).pathDown p = s.pathDown p := by
  cases p with
  | ho i => rw [State.pathDown, pstat_secondShown, pstat_secondShown, State.pathDown]
  | lo l =>
    have hssf : (s.secondShown (.lo l)).flag (PATH_LO1 l) PATH_LO1_SSF = s.flag (PATH_LO1 l) PATH_LO1_SSF := pstat_secondShown s (.lo l) _
    simp only [State.pathDown, pstat_secondShown, hssf]

theorem fld_secondShown {a : Nat} (ha : a < 0x40201000) (f : Fld) : (s.secondShown p).fld a f = s.fld a f := by
  have := secondAddr_range p
  exact (within_secondShown s p).fld fun _ _ _ => by omega

theorem pathWatched_secondShown : (s.secondShown p).pathWatched p = s.pathWatched p := by
  cases p with
  | lo l => rfl
  | ho i =>
    have hcfg (n : Nat) : (s.secondShown (.ho i)).bitAt (PATH_SLOT_CFG (i / 3)) n = s.bitAt (PATH_SLOT_CFG (i / 3)) n := by
      have := i.isLt
      rw [State.bitAt, State.flag, fld_secondShown _ _ (by unfold PATH_SLOT_CFG; omega), State.bitAt, State.flag]
    simp only [State.pathWatched, State.hoTerm, State.hoMon, hcfg]

end

/-- The row at a path in service: the counts shown, and a second that counts judged. -/
theorem exec_pathSecondEnd {s : State} {p : PathId} (hrun : s.running islPX = true) (hex : s.pathExists p = true) :
    exec (.pathSecondEnd p) s = .next (if (s.path p).held || s.pathDown p || !s.pathWatched p then s.secondShown p
      else ((s.secondShown p).judgeSecond p (s.path p).blocks).pathActions p) := by
  rw [← pathDown_secondShown, ← pathWatched_secondShown]
  exact congrArg Host.Outcome.next (if_neg (by simp [hrun, hex]))

section
variable (s : State) (p : PathId)

theorem shown_ho (i : Fin 192) : (s.secondShown (.ho i)).fld (PATH_HO3 i) PATH_HO3_ADJ_TX = min 255 (s.path (.ho i)).adjTx
    ∧ (s.secondShown (.ho i)).fld (PATH_HO3 i) PATH_HO3_ADJ_RX = min 255 (s.path (.ho i)).adjRx := by
  simp only [State.secondShown, fld_setPath]
  rw [fld_setFld_other _ _ (by decide), fld_setFld_self _ _ (by decide), fld_setFld_self _ _ (by decide)]
  exact ⟨Nat.mod_eq_of_lt (Nat.lt_succ_of_le (Nat.min_le_left ..)), Nat.mod_eq_of_lt (Nat.lt_succ_of_le (Nat.min_le_left ..))⟩

theorem shown_lo (l : Fin 5376) : (s.secondShown (.lo l)).fld (PATH_LO2 l) PATH_LO2_EB = min 2047 (s.path (.lo l)).blocks
    ∧ (s.secondShown (.lo l)).fld (PATH_LO2 l) PATH_LO2_REI = min 2047 (s.path (.lo l)).rei := by
  simp only [State.secondShown, fld_setPath]
  rw [fld_setFld_other _ _ (by decide), fld_setFld_self _ _ (by decide), fld_setFld_self _ _ (by decide)]
  exact ⟨Nat.mod_eq_of_lt (Nat.lt_succ_of_le (Nat.min_le_left ..)), Nat.mod_eq_of_lt (Nat.lt_succ_of_le (Nat.min_le_left ..))⟩

/-- The counts shown do not lie where defects do. -/
theorem not_statusRegs_second : ¬ statusRegs (secondAddr p) := by
  have hs := secondAddr_range p
  rintro (⟨q, hq⟩ | ⟨k, hk, hq⟩)
  · have := pathStatAddr_range q
    omega
  · unfold PATH_SUM at hq
    omega

theorem chan_secondShown : (s.secondShown p).chan = s.chan := by cases p <;> rfl

end

/-- What a second leaves of a path, judged or not: the counts of secondShown, and beside them the status registers. -/
structure SecondEnded (p : PathId) (s t : State) : Prop where
  within : Within (fun a _ => statusRegs a) (s.secondShown p) t
  path : ∃ b g, t.path p = { (s.secondShown p).path p with badRun := b, goodRun := g }

theorem secondEnded_shown (s : State) (p : PathId) : SecondEnded p s (s.secondShown p) := ⟨.refl _, _, _, rfl⟩

theorem secondEnded_judged (s : State) (p : PathId) (n : Nat) : SecondEnded p s (((s.secondShown p).judgeSecond p n).pathActions p) where
  within := (within_judgeSecond _ p n).trans ((within_pathActions (.refl _) p).mono fun _ _ => statusRegs_of_actionBits)
  path := ⟨_, _, (path_pathActions ..).trans (path_judgeSecond ..)⟩

section
variable {s t : State} {p : PathId} (h : SecondEnded p s t)
include h

theorem SecondEnded.restarted : (t.path p).blocks = 0 ∧ (t.path p).rei = 0 ∧ (t.path p).adjTx = 0 ∧ (t.path p).adjRx = 0 ∧ (t.path p).held = false := by
  obtain ⟨b, g, hpath⟩ := h.path
  rw [hpath, path_secondShown]
  exact ⟨rfl, rfl, rfl, rfl, rfl⟩

theorem SecondEnded.sameMem : Safety.sameMem s t :=
  sameMem_of_mem (h.within.mem.trans (within_secondShown s p).mem)

theorem SecondEnded.regsOutside : Safety.regsOutside Safety.pathBlock s t := by
  have hblock : Safety.pathBlock (secondAddr p) := by
    have := secondAddr_range p
    unfold Safety.pathBlock
    omega
  exact (((within_secondShown s p).mono (V := fun a _ => Safety.pathBlock a) fun _ _ ha => ha ▸ hblock).trans
    (h.within.mono fun _ _ => pathBlock_of_statusRegs)).regsOutside fun _ _ => id

theorem SecondEnded.shown (f : Fld) : t.fld (secondAddr p) f = (s.secondShown p).fld (secondAddr p) f :=
  h.within.fld fun _ _ _ => not_statusRegs_second p

end

/-- The detectors of a judged second: the actions that follow do not move them. -/
theorem pstat_second_judged (s : State) (p : PathId) (n : Nat) {f : Fld} (hf : f.lo + f.len ≤ 10) :
    (((s.secondShown p).judgeSecond p n).pathActions p).pstat p f = ((s.secondShown p).judgeSecond p n).pstat p f :=
  (within_pathActions (.refl _) p).flag fun _ _ hj => not_actionBits_stat (by omega)

section
variable {s : State} {p : PathId}

/-- A held second leaves the detectors; another one of a watched path judges them. -/
theorem secondEnd_spec (hrun : s.running islPX = true) (hex : s.pathExists p = true) : ∃ t, exec (.pathSecondEnd p) s = .next t ∧ SecondEnded p s t
    ∧ ((s.path p).held = true ∨ s.pathDown p = true → t.pstat p PATH_HO1_EXC = s.pstat p PATH_HO1_EXC
        ∧ t.pstat p PATH_HO1_DEG = s.pstat p PATH_HO1_DEG ∧ t.chan = s.chan)
    ∧ ((s.path p).held = false → s.pathDown p = false → s.pathWatched p = true →
        t.pstat p PATH_HO1_EXC = decide (s.fld (degCfg p) PATH_HO_DEG_CFG_EXCTHR ≤ (s.path p).blocks)
          ∧ (s.fld (degCfg p) PATH_HO_DEG_CFG_DEGTHR ≤ (s.path p).blocks → s.fld (degCfg p) PATH_HO_DEG_CFG_DEGM ≤ (s.path p).badRun + 1 →
              t.pstat p PATH_HO1_DEG = true)
          ∧ ((s.path p).blocks < s.fld (degCfg p) PATH_HO_DEG_CFG_DEGTHR → s.fld (degCfg p) PATH_HO_DEG_CFG_DEGM ≤ (s.path p).goodRun + 1 →
              t.pstat p PATH_HO1_DEG = false)) := by
  have hexec := exec_pathSecondEnd hrun hex
  have hcfg (f : Fld) : (s.secondShown p).fld (degCfg p) f = s.fld (degCfg p) f := fld_secondShown s p (degCfg_lt p) f
  have hruns := path_secondShown s p
  by_cases hcounts : ((s.path p).held || s.pathDown p || !s.pathWatched p) = true
  · refine ⟨_, hexec.trans (congrArg _ (if_pos hcounts)), secondEnded_shown s p,
      fun _ => ⟨pstat_secondShown .., pstat_secondShown .., chan_secondShown ..⟩, fun hheld hdown hwatch => ?_⟩
    simp [hheld, hdown, hwatch] at hcounts
  · refine ⟨_, hexec.trans (congrArg _ (if_neg hcounts)), secondEnded_judged s p _, fun hlost => ?_,
      fun _ _ _ => ⟨?_, fun hbad hrun => ?_, fun hgood hrun => ?_⟩⟩
    · rcases hlost with hlost | hlost <;> simp [hlost] at hcounts
    · rw [pstat_second_judged _ _ _ (by decide), pstat_judgeSecond_exc, hcfg]
    · rw [pstat_second_judged _ _ _ (by decide)]
      exact pstat_judgeSecond_bad _ _ _ ((hcfg _).trans_le hbad) (by rw [hcfg, hruns]; exact hrun)
    · rw [pstat_second_judged _ _ _ (by decide)]
      exact pstat_judgeSecond_good _ _ _ (hgood.trans_eq (hcfg _).symm) (by rw [hcfg, hruns]; exact hrun)

end

/-- Settles O29, row by row: what surrounds the interpreter leaves the pointer's own bits and readings alone (`Rest`), so each indication's effect
stands in the end; the generator's choice hangs on the fill alone (`pointerStep_beyond`, `_due`, `_waits`); and a judged second writes status
registers only, so the counts shown stand. -/
theorem pathPointersAndSeconds : Obligations.PathPointersAndSeconds := by
  unfold Obligations.PathPointersAndSeconds
  refine ⟨?_, ⟨?_, ?_, ?_, ?_⟩, ?_⟩
  · intro s p r u hrun hex hu
    subst hu
    obtain ⟨t, ht, hstarted, hframe⟩ := pointerReading_frame hrun hex (r := r)
    refine ⟨t, ht, hstarted, hframe.sameMem, hframe.regsOutside fun _ _ => id, fun hin hconcat hst => ⟨?_, ?_, ?_, ?_, ?_, ?_⟩, ?_⟩
    · exact reading_normal hrun hex ht hin hconcat hst
    · exact reading_iBits hrun hex ht hin hconcat hst
    · exact reading_dBits hrun hex ht hin hconcat hst
    · exact fun v => reading_newData hrun hex ht hin hconcat hst
    · exact reading_allOnes hrun hex ht hin hconcat hst
    · exact reading_invalid hrun hex ht hin hconcat hst
    · rintro hin hconcat hst _ hptr hle rfl htwo hval
      exact reading_found hrun hex ht hin hconcat hst hptr hle htwo hval
  · intro s p fill vc hrun hex hfeed hais
    refine ⟨_, exec_pointerGeneration_ais hrun hex hfeed fill vc hais, ?_, ?_, fun _ _ => rfl, sameMem_of_mem rfl, rfl⟩
    · rw [State.sendVc, path_setPath_self]
    · rw [State.sendVc, path_setPath_self]
  · intro s p fill vc d c lo hi hrun hex hfeed hais hsize
    have hbeyond := generation_beyond hrun hex hfeed fill vc hais
    have hdue := generation_due hrun hex hfeed fill vc hais
    have hwaits := generation_waits hrun hex hfeed fill vc hais
    rw [hsize] at hbeyond hdue hwaits
    refine ⟨hbeyond, fun h1 hd hgap hndf => ?_, hwaits⟩
    obtain ⟨t, ht, hmoved, hsent⟩ := hdue h1 hd hgap hndf
    exact ⟨t, ht, hmoved.fill, hmoved.ptr, hmoved.adj, hsent, hmoved.vc, hmoved.only.onlyRegs, hmoved.only.sameMem, hmoved.chan⟩
  · intro s i hstruct
    exact if_pos hstruct
  · intro s l htu3
    simp [State.storeSize, htu3]
  · intro s p hrun hex
    obtain ⟨t, ht, hended, hkept, hjudged⟩ := secondEnd_spec hrun hex
    obtain ⟨hblocks, hrei, hadjTx, hadjRx, hheld⟩ := hended.restarted
    refine ⟨t, ht, hblocks, hrei, hadjTx, hadjRx, hheld, hended.sameMem, hended.regsOutside, ?_, ?_, hkept, ?_⟩
    · rintro i rfl
      exact ⟨(hended.shown _).trans (shown_ho s i).1, (hended.shown _).trans (shown_ho s i).2⟩
    · rintro l rfl
      exact ⟨(hended.shown _).trans (shown_lo s l).1, (hended.shown _).trans (shown_lo s l).2⟩
    · rintro i rfl
      exact hjudged

end Sys2Proof.Machine
end

section
/-! SUPPORT. The Index: what an entry's check, activation and end write and what each of them leaves (R161 to R163). -/

namespace Sys2Proof.Machine

/-! ### The registers of an entry's status -/

/-- The registers that the life of entry `e` writes beside its own words. -/
def entryStatus (e a : Nat) : Prop := a = IDX_STATUS e ∨ a = IDX_STAT ∨ a = IDX_CHECK_CNT ∨ a = IDX_CHECK_LAST

/-- Only the status of entry `e` and what the Index keeps for all entries differ. -/
abbrev StatusOnly (e : Nat) (r s : State) : Prop := Within (fun a _ => entryStatus e a) r s

theorem entryStatus_range {e a : Nat} (h : entryStatus e a) : 0x40240004 ≤ a ∧ a < 0x40240014 ∨ 0x40260000 ≤ a := by
  unfold entryStatus IDX_STATUS IDX_STAT IDX_CHECK_CNT IDX_CHECK_LAST at h
  omega

theorem idxRegs_of_entryStatus {e a : Nat} (h : entryStatus e a) : Safety.idxRegs e a := by
  unfold entryStatus at h
  unfold Safety.idxRegs
  omega

section
variable {W : Nat → Nat → Prop} {r s : State}

theorem within_updateIdxStat (hstat : ∀ j, W IDX_STAT j) (h : Within W r s) : Within W r s.updateIdxStat :=
  ((h.setFld _ _ _ fun j _ _ => hstat j).setFlag _ _ _ fun j _ _ => hstat j).setFlag _ _ _ fun j _ _ => hstat j

end

section
variable {r s : State} {e : Nat} (h : StatusOnly e r s)
include h

theorem StatusOnly.setStatus (f : Fld) (b : Bool) : StatusOnly e r (s.setFlag (IDX_STATUS e) f b) := h.setFlag _ f b fun _ _ _ => .inl rfl

theorem StatusOnly.setIdx (f : Fld) (b : Bool) : StatusOnly e r (s.setIdx e f b) :=
  within_updateIdxStat (fun _ => .inr (.inl rfl)) (h.setStatus f b)

theorem StatusOnly.conflict : StatusOnly e r (s.conflict e) := h.ite ((h.setIdx IDX_STATUS_CONFLICT true).raise _ _ _)

theorem StatusOnly.takeEntry (n : Nat) : StatusOnly e r (s.takeEntry e n) := by
  have hkept : StatusOnly e r { s with kept := tset s.kept .none e (s.entryEnds e) } := h.beside rfl rfl rfl rfl
  have hflags := (StatusOnly.setStatus hkept IDX_STATUS_CHECK_FAIL false).setFlag (IDX_STATUS e) IDX_STATUS_CONFLICT false fun _ _ _ => .inl rfl
  exact (StatusOnly.setIdx hflags _ _).raise _ _ _

theorem StatusOnly.checkFails : StatusOnly e r (s.checkFails e) :=
  h.ite ((((StatusOnly.setIdx (h.setStatus _ _) _ _).count _ _ fun _ => .inr (.inr (.inl rfl))).setReg _ _ fun _ => .inr (.inr (.inr rfl))).raise _ _ _)

theorem StatusOnly.activate : StatusOnly e r (s.activate e) := h.conflict.ite (h.checkFails.ite (h.takeEntry _))

theorem StatusOnly.deactivate : StatusOnly e r (s.deactivate e) := by
  have hend : StatusOnly e r { s with kept := tset s.kept .none e .none, wtrs := tset s.wtrs 0 e 0 } := h.beside rfl rfl rfl rfl
  have hcleared := within_updateIdxStat (fun _ => .inr (.inl rfl)) (hend.setReg (IDX_STATUS e) 0 fun _ => .inl rfl)
  exact (hcleared.raise _ _ _).ite hcleared

theorem StatusOnly.dropSelector : StatusOnly e r (s.dropSelector e) :=
  (h.beside rfl rfl rfl rfl : StatusOnly e r { s with wtrs := tset s.wtrs 0 e 0 }).setReg _ _ fun _ => .inl rfl

theorem StatusOnly.sweepEntry : StatusOnly e r (s.sweepEntry e) :=
  h.checkFails.ite (((h.takeEntry _).ite h.conflict).ite (h.ite (h.ite ((h.takeEntry _).ite h.conflict))))

end

/-! ### A flag of the status word -/

section
variable (s : State) (e : Nat)

theorem idxStat_ne_status : IDX_STAT ≠ IDX_STATUS e := by unfold IDX_STAT IDX_STATUS; omega

theorem reg_updateIdxStat {a : Nat} (ha : a ≠ IDX_STAT) : s.updateIdxStat.reg a = s.reg a :=
  (within_updateIdxStat (W := fun b _ => b = IDX_STAT) (fun _ => rfl) (.refl s)).reg fun _ => ha

theorem idx_updateIdxStat (f : Fld) : s.updateIdxStat.idx e f = s.idx e f := flag_of_reg (reg_updateIdxStat s (idxStat_ne_status e).symm) f

theorem idx_setIdx_self {f : Fld} (hf : f.lo + f.len ≤ 32) (hl : f.len = 1) (b : Bool) : (s.setIdx e f b).idx e f = b :=
  (idx_updateIdxStat ..).trans (flag_setFlag_self _ _ hf hl b)

theorem idx_setIdx_other {f g : Fld} (h : f.lo + f.len ≤ g.lo ∨ g.lo + g.len ≤ f.lo) (b : Bool) : (s.setIdx e g b).idx e f = s.idx e f :=
  (idx_updateIdxStat ..).trans (flag_setFlag_other _ _ h b)

theorem idx_setStatus_self {f : Fld} (hf : f.lo + f.len ≤ 32) (hl : f.len = 1) (b : Bool) : (s.setFlag (IDX_STATUS e) f b).idx e f = b :=
  flag_setFlag_self _ _ hf hl b

theorem idx_setStatus_other {f g : Fld} (h : f.lo + f.len ≤ g.lo ∨ g.lo + g.len ≤ f.lo) (b : Bool) :
    (s.setFlag (IDX_STATUS e) g b).idx e f = s.idx e f :=
  flag_setFlag_other _ _ h b

theorem idx_idxEvent (d n : Nat) (f : Fld) : (s.idxEvent d n).idx e f = s.idx e f := flag_raise ..

theorem keptOf_idxEvent (d n : Nat) : (s.idxEvent d n).keptOf e = s.keptOf e := by rw [State.keptOf, State.idxEvent, kept_raise, State.keptOf]

end

/-! ### What each operation leaves -/

section
variable {s : State} {e : Nat}

theorem conflict_new (hd : s.sp.dormant = false) (hno : s.idx e IDX_STATUS_CONFLICT = false) :
    (s.conflict e).idx e IDX_STATUS_CONFLICT = true ∧ (s.conflict e).idx e IDX_STATUS_ACTIVE = s.idx e IDX_STATUS_ACTIVE
      ∧ Safety.raised [(islPX, 0x352)] s (s.conflict e) := by
  rw [State.conflict, if_neg (by simp [hno])]
  refine ⟨?_, ?_, raised_raise _ _ _ rfl hd⟩
  · rw [idx_idxEvent, idx_setIdx_self _ _ (by decide) rfl]
  · rw [idx_idxEvent, idx_setIdx_other _ _ (by decide)]

theorem takeEntry_spec (hd : s.sp.dormant = false) (n : Nat) :
    (s.takeEntry e n).idx e IDX_STATUS_ACTIVE = true ∧ (s.takeEntry e n).idx e IDX_STATUS_CHECK_FAIL = false
      ∧ (s.takeEntry e n).idx e IDX_STATUS_CONFLICT = false ∧ (s.takeEntry e n).keptOf e = s.entryEnds e
      ∧ Safety.raised [(islPX, n)] s (s.takeEntry e n) := by
  unfold State.takeEntry
  dsimp only
  refine ⟨?_, ?_, ?_, ?_, raised_raise _ _ _ rfl hd⟩
  · rw [idx_idxEvent, idx_setIdx_self _ _ (by decide) rfl]
  · rw [idx_idxEvent, idx_setIdx_other _ _ (by decide), idx_setStatus_other _ _ (by decide), idx_setStatus_self _ _ (by decide) rfl]
  · rw [idx_idxEvent, idx_setIdx_other _ _ (by decide), idx_setStatus_self _ _ (by decide) rfl]
  · rw [keptOf_idxEvent]
    exact tget_tset_self ..

theorem checkFails_seen (hno : s.idx e IDX_STATUS_CHECK_FAIL = true) : s.checkFails e = s := if_pos hno

/-- The entry's status word where its check has failed. -/
def State.failShown (s : State) (e : Nat) : State := (s.setFlag (IDX_STATUS e) IDX_STATUS_CHECK_FAIL true).setIdx e IDX_STATUS_ACTIVE false

theorem checkFails_eq (hno : s.idx e IDX_STATUS_CHECK_FAIL = false) :
    s.checkFails e = (((s.failShown e).count IDX_CHECK_CNT).setReg IDX_CHECK_LAST (w32 e)).idxEvent e 0x350 := if_neg (by simp [hno])

theorem checkFails_idx (hno : s.idx e IDX_STATUS_CHECK_FAIL = false) :
    (s.checkFails e).idx e IDX_STATUS_ACTIVE = false ∧ (s.checkFails e).idx e IDX_STATUS_CHECK_FAIL = true := by
  have hlast : IDX_CHECK_LAST ≠ IDX_STATUS e := by unfold IDX_STATUS IDX_CHECK_LAST; omega
  have hcnt : IDX_CHECK_CNT ≠ IDX_STATUS e := by unfold IDX_STATUS IDX_CHECK_CNT; omega
  have hflag (f : Fld) : (s.checkFails e).idx e f = (s.failShown e).idx e f := by
    rw [checkFails_eq hno, idx_idxEvent]
    exact flag_of_reg ((reg_setReg_ne _ _ hlast).trans (reg_count_ne _ _ hcnt)) f
  exact ⟨(hflag _).trans (idx_setIdx_self _ _ (by decide) rfl _),
    (hflag _).trans ((idx_setIdx_other _ _ (by decide) _).trans (idx_setStatus_self _ _ (by decide) rfl _))⟩

theorem checkFails_counted (hd : s.sp.dormant = false) (hno : s.idx e IDX_STATUS_CHECK_FAIL = false) :
    (s.checkFails e).reg IDX_CHECK_CNT = s.reg IDX_CHECK_CNT + 1 ∧ (s.checkFails e).reg IDX_CHECK_LAST = BitVec.ofNat 32 e
      ∧ Safety.raised [(islPX, 0x350)] s (s.checkFails e) := by
  have hne : IDX_STATUS e ≠ IDX_CHECK_CNT := by unfold IDX_STATUS IDX_CHECK_CNT; omega
  have hcnt : (s.failShown e).reg IDX_CHECK_CNT = s.reg IDX_CHECK_CNT :=
    (reg_updateIdxStat _ (by decide)).trans ((reg_setFld_ne _ _ _ hne).trans (reg_setFld_ne _ _ _ hne))
  have hchan : (s.failShown e).chan = s.chan := rfl
  have hsp : (s.failShown e).sp.dormant = false := hd
  rw [checkFails_eq hno]
  refine ⟨?_, ?_, raised_raise _ _ _ ((chan_setReg ..).trans hchan) hsp⟩
  · rw [State.idxEvent, reg_raise, reg_setReg_ne _ _ (by decide), reg_count_self, hcnt]
    rfl
  · rw [State.idxEvent, reg_raise, reg_setReg_self]
    rfl

/-- An entry with endpoints kept ends with 0x354. -/
theorem deactivate_spec (hd : s.sp.dormant = false) (hkept : s.keptOf e ≠ .none) :
    (s.deactivate e).reg (IDX_STATUS e) = 0 ∧ (s.deactivate e).keptOf e = .none ∧ Safety.raised [(islPX, 0x354)] s (s.deactivate e) := by
  unfold State.deactivate
  dsimp only
  rw [if_pos hkept]
  refine ⟨?_, ?_, raised_raise _ _ _ rfl hd⟩
  · rw [State.idxEvent, reg_raise, reg_updateIdxStat _ (idxStat_ne_status e).symm]
    exact reg_setReg_self _ _ _
  · rw [keptOf_idxEvent]
    exact tget_tset_self s.kept .none e .none

theorem dropSelector_spec : (s.dropSelector e).reg (IDX_STATUS e) = s.reg (IDX_STATUS e) &&& 7 ∧ tget (s.dropSelector e).wtrs 0 e = 0
    ∧ (s.dropSelector e).chan = s.chan :=
  ⟨reg_setReg_self _ _ _, tget_tset_self s.wtrs 0 e 0, rfl⟩

end

end Sys2Proof.Machine
end

section
/-! PROOF of O30: a service's writes to an entry, and the sweep. -/

namespace Sys2Proof.Machine

/-! ### A service's write to a word of an entry (R162) -/

/-- A field that a write masks whole reads the value written. -/
theorem get_written {f : Fld} (hf : f.lo + f.len ≤ 32) (w mask x : Word) (hmask : ∀ i < f.len, mask.getLsbD (f.lo + i) = true) :
    f.get ((w &&& ~~~mask) ||| (x &&& mask)) = f.get x := by
  apply Nat.eq_of_testBit_eq
  intro i
  rw [Fld.testBit_get, Fld.testBit_get]
  by_cases hi : i < f.len
  · have h32 : f.lo + i < 32 := by omega
    have hbit := hmask i hi
    rw [BitVec.getLsbD_eq_getElem h32] at hbit
    simp [hi, h32, hbit]
  · simp [hi]

theorem fld_serviceWrite (s : State) (a : Nat) {f : Fld} (hf : f.lo + f.len ≤ 32) (mask x : Word)
    (hmask : ∀ i < f.len, mask.getLsbD (f.lo + i) = true) : (s.serviceWrite a mask x).fld a f = f.get x := by
  rw [State.fld, reg_serviceWrite_self, get_written hf _ _ _ hmask]

theorem within_serviceWrite (s : State) (a : Nat) (mask x : Word) : Within (fun b _ => b = a) s (s.serviceWrite a mask x) :=
  ((Within.refl s).setReg a _ fun _ => rfl).mirror ..

theorem serviceWrite_setMtx (s : State) (m : Matrix) (a : Nat) (mask x : Word) :
    (s.setMtx m).serviceWrite a mask x = (s.serviceWrite a mask x).setMtx m := by
  unfold State.serviceWrite State.mirror
  rw [show ((s.setMtx m).setReg a (((s.setMtx m).reg a &&& ~~~mask) ||| (x &&& mask))).mirroring
    = (s.setReg a ((s.reg a &&& ~~~mask) ||| (x &&& mask))).mirroring from rfl]
  split <;> rfl

section
variable (s : State) (m : Matrix) (e : Nat)

theorem mayActivate_setMtx : (s.setMtx m).mayActivate e = s.mayActivate e := rfl

theorem entryOk_setMtx : (s.setMtx m).entryOk e = s.entryOk e := rfl

end

/-- What a write of word 3 does by VALID, before it and after. -/
def State.word3Acts (s : State) (e : Nat) (was now : Bool) : State :=
  if now && !was then s.activate e
  else if was && !now then s.deactivate e
  else if now && decide (s.entrySncp e = 0) then s.dropSelector e
  else s

section
variable (s : State) (e : Nat) {k : Nat} (x : Word)

theorem indexWrite_open (hk : k < 3) (h : s.flag (IDX_ENTRY_W3 e) IDX_ENTRY_W3_VALID = false ∨ s.idx e IDX_STATUS_CHECK_FAIL = true) :
    s.indexWrite e k x = s.serviceWrite (IDX_ENTRY_A e + 4 * k) 0xFFFFFFFF x := by
  unfold State.indexWrite
  dsimp only
  rw [if_pos hk, if_pos (by simpa using h)]

theorem indexWrite_closed (hk : k < 3) (hvalid : s.flag (IDX_ENTRY_W3 e) IDX_ENTRY_W3_VALID = true) (hok : s.idx e IDX_STATUS_CHECK_FAIL = false) :
    s.indexWrite e k x = s.respond rRefused := by
  unfold State.indexWrite
  dsimp only
  rw [if_pos hk, if_neg (by simp [hvalid, hok])]

theorem indexWrite_unfit (hvalid : s.flag (IDX_ENTRY_W3 e) IDX_ENTRY_W3_VALID = true) (hnow : IDX_ENTRY_W3_VALID.get x = 1)
    (hok : s.idx e IDX_STATUS_CHECK_FAIL = false) (hfit : s.sncpFits e (IDX_ENTRY_W3_SNCP.get x) = false) :
    s.indexWrite e 3 x = s.respond rRefused := by
  unfold State.indexWrite
  dsimp only
  rw [if_neg (by decide), if_pos (by simp [hvalid, hnow, hok, hfit])]

theorem indexWrite_word3 (hcmd : IDX_ENTRY_W3_CMD.get x < 5)
    (hfree : s.flag (IDX_ENTRY_W3 e) IDX_ENTRY_W3_VALID = false ∨ IDX_ENTRY_W3_VALID.get x = 0 ∨ s.idx e IDX_STATUS_CHECK_FAIL = true
      ∨ s.sncpFits e (IDX_ENTRY_W3_SNCP.get x) = true) :
    s.indexWrite e 3 x = (s.serviceWrite (IDX_ENTRY_W3 e) word3Mask x).word3Acts e (s.flag (IDX_ENTRY_W3 e) IDX_ENTRY_W3_VALID)
      (decide (IDX_ENTRY_W3_VALID.get x = 1)) := by
  have hnow : (s.serviceWrite (IDX_ENTRY_W3 e) word3Mask x).flag (IDX_ENTRY_W3 e) IDX_ENTRY_W3_VALID = decide (IDX_ENTRY_W3_VALID.get x = 1) := by
    have hlt : IDX_ENTRY_W3_VALID.get x < 2 := Nat.mod_lt _ (by decide)
    rw [State.flag, fld_serviceWrite _ _ (by decide) _ _ (by decide), decide_eq_decide]
    omega
  have hlow : ¬ 5 ≤ IDX_ENTRY_W3_CMD.get x := by omega
  unfold State.indexWrite
  dsimp only
  rw [if_neg (by decide), if_neg]
  · simp only [if_neg hlow, hnow]
    rfl
  · simp only [Bool.and_eq_true, decide_eq_true_eq, Bool.not_eq_true', not_and]
    rcases hfree with h | h | h | h <;> simp [h]

end

section
variable {r s : State} {e : Nat} (h : StatusOnly e r s)
include h

theorem StatusOnly.word3Acts (was now : Bool) : StatusOnly e r (s.word3Acts e was now) :=
  Within.ite (StatusOnly.activate h) (Within.ite (StatusOnly.deactivate h) (Within.ite (StatusOnly.dropSelector h) h))

end

section
variable {s : State} {e : Nat}

theorem word3Acts_set : s.word3Acts e false true = s.activate e := rfl

theorem word3Acts_cleared : s.word3Acts e true false = s.deactivate e := rfl

theorem word3Acts_kept : s.word3Acts e true true = if s.entrySncp e = 0 then s.dropSelector e else s := by
  simp [State.word3Acts]

theorem activate_taken (hmay : s.mayActivate e = true) (hok : s.entryOk e = true) : s.activate e = s.takeEntry e 0x353 := by
  rw [State.activate, if_neg (by simp [hmay]), if_neg (by simp [hok])]

theorem activate_fails (hmay : s.mayActivate e = true) (hok : s.entryOk e = false) : s.activate e = s.checkFails e := by
  rw [State.activate, if_neg (by simp [hmay]), if_pos (by simp [hok])]

theorem activate_conflict (hmay : s.mayActivate e = false) : s.activate e = s.conflict e := by
  rw [State.activate, if_pos (by simp [hmay])]

end

/-! ### What the ports' transmit status does not show -/

section
variable (s : State) (e : Nat)

/-- Below the tributary ports every register stays. -/
theorem reg_updateTribs {a : Nat} (ha : a < 0x40300000) : s.updateTribs.reg a = s.reg a :=
  (within_updateTribs s).reg fun _ h => absurd (le_of_tribTx h).1 (by omega)

theorem mtx_updateTribs : s.updateTribs.mtx = s.mtx := (within_updateTribs s).mtx

theorem status_lt (he : e < 4096) : IDX_STATUS e < 0x40300000 := by unfold IDX_STATUS; omega

theorem idx_updateTribs (he : e < 4096) (f : Fld) : s.updateTribs.idx e f = s.idx e f := flag_of_reg (reg_updateTribs s (status_lt e he)) f

theorem keptOf_updateTribs : s.updateTribs.keptOf e = s.keptOf e := by rw [State.keptOf, kept_updateTribs, State.keptOf]

theorem raised_updateTribs {r s : State} {l : List (Nat × Nat)} (h : Safety.raised l r s) : Safety.raised l r s.updateTribs := by
  unfold Safety.raised at *
  rw [chan_updateTribs, h]

end

/-! ### The write through the matrix -/

section
variable {s v : State} {e : Fin 4096} {q : Fin 2} {k : Fin 4} {x : Word} (hg : Safety.granted (.service q) s v) (hrun : v.running islPX = true)
include hg hrun

/-- A write that leaves the answer alone is answered OKAY, and the ports follow. -/
theorem exec_entryWrite (hmtx : ∀ m : Matrix, ((v.setMtx m).indexWrite e k x).mtx = m) : ∃ m : Matrix, m.resp = rOkay
    ∧ exec (.indexEntryWrite e k (.service q) x) s = .next ((v.setMtx m).indexWrite e k x).updateTribs := by
  obtain ⟨m, hm, hwrite⟩ := commandWrite_granted hg hrun false (IDX_ENTRY_A e + 4 * k) (f := fun s => (s.indexWrite e k x).updateTribs)
    fun m hm => by rw [mtx_updateTribs, hmtx, hm]
  exact ⟨m, hm, congrArg Host.Outcome.next hwrite⟩

/-- A refusal is recorded by the matrix with event 0x081. -/
theorem exec_entryWrite_refused (href : ∀ m : Matrix, (v.setMtx m).indexWrite e k x = (v.setMtx m).respond rRefused) :
    ∃ t, exec (.indexEntryWrite e k (.service q) x) s = .next t ∧ t.mtx.resp = rRefused ∧ Safety.raised [(islMX, 0x081)] v t
      ∧ Safety.regsOutside (fun a => a = MTX_ERR_LAST ∨ a = MTX_ERR_ADDR ∨ Safety.tribTx a) v t ∧ Safety.sameMem v t := by
  obtain ⟨hv, hm, hmay⟩ := hg
  obtain ⟨m, hmove, -⟩ := movePointer_eq (v.respond rOkay) 5 (writerPort (.service q))
  have hm' : (v.respond rOkay).running islMX = true := hm
  have hi' : (v.respond rOkay).running islPX = true := hrun
  set u := (v.setMtx m).respond rRefused with hu
  have hframe := within_updateTribs u
  have hmu : u.updateTribs.running islMX = true := by
    rw [State.running, State.bitAt, hframe.flag fun _ _ _ h => absurd (le_of_tribTx h).1 (by decide), hframe.sp]
    exact hm
  have hresp : u.updateTribs.mtx.resp = rRefused := by rw [mtx_updateTribs]; rfl
  have hport : writerPort (.service q) ≠ 7 := by
    have := q.isLt
    simp only [writerPort]
    omega
  have hlogged : (s.settleFor (.service q)).commandWrite (.service q) true false islPX (IDX_ENTRY_A e + 4 * k) (fun s => (s.indexWrite e k x).updateTribs)
      = u.updateTribs.errorResponse (writerPort (.service q)) (u.updateTribs.target (IDX_ENTRY_A e + 4 * k)) rRefused (writerId (.service q)) true
          (IDX_ENTRY_A e + 4 * k) 0 := by
    rw [← hv, State.commandWrite, if_pos hmay, State.judgedWrite, hm', hi', if_neg (by simp), if_pos rfl, hmove]
    refine Eq.trans ?_ (logAccess_refused _ _ _ _ _ hresp hmu hport)
    rw [show (v.respond rOkay).setMtx m = v.setMtx m from rfl, href]
  obtain ⟨hcode, -, hraised, hregs, hmem⟩ := errorResponse_spec u.updateTribs _ _ _ _ 0 true _ rfl (not_dormant_of_running hmu) hlogged
  refine ⟨_, rfl, hcode, raised_of_chan (chan_updateTribs u) hraised, fun a ha => ?_, fun a => (hmem a).trans (hframe.sameMem a)⟩
  rw [hregs a (by simp only [List.mem_cons, List.not_mem_nil]; tauto)]
  exact hframe.reg fun _ h => ha (.inr (.inr h))

end

/-! ### The sweep (R161) -/

theorem resetWord_entry {a : Nat} (h : 0x40250000 ≤ a ∧ a < 0x40260000) : (resetWord a).getLsbD 0 = false := by
  have hbook : bookplateReset a = none := by
    unfold bookplateReset
    split
    case h_10 => rfl
    all_goals omega
  have hrows : ∀ r ∈ regTableIdx, (BitVec.ofNat 32 r.reset).getLsbD 0 = false := by decide
  have hblock : regBlock a = regTableIdx := by
    unfold regBlock
    repeat rw [if_neg (by omega)]
    exact if_pos (by omega)
  unfold resetWord
  rw [hbook]
  dsimp only
  rw [if_neg (by omega), if_neg (by omega), regRow, hblock]
  split
  · next r hr => exact hrows r (List.mem_of_find?_eq_some hr)
  · rfl

theorem mem_of_tget_ne {α : Type} {t : Tbl α} {d : α} {k : Nat} (h : tget t d k ≠ d) : (k, tget t d k) ∈ t := by
  induction t with
  | nil => exact absurd rfl h
  | cons p t ih =>
    obtain ⟨j, w⟩ := p
    unfold tget at h ⊢
    by_cases hj : j = k
    · rw [if_pos hj, hj]
      exact List.mem_cons_self
    · rw [if_neg hj] at h ⊢
      exact List.mem_cons_of_mem _ (ih h)

section
variable {s : State} {e : Nat}

theorem mem_validEntries (he : e < 4096) (hvalid : s.flag (IDX_ENTRY_W3 e) IDX_ENTRY_W3_VALID = true) : e ∈ s.validEntries := by
  have hbit : (s.reg (IDX_ENTRY_W3 e)).toNat % 2 = 1 := by
    have hne : (s.reg (IDX_ENTRY_W3 e)).toNat % 2 ≠ 0 := of_decide_eq_true hvalid
    omega
  have hrange : 0x40250000 ≤ IDX_ENTRY_W3 e ∧ IDX_ENTRY_W3 e < 0x40260000 := by unfold IDX_ENTRY_W3; omega
  have hlisted : s.reg (IDX_ENTRY_W3 e) ≠ resetWord (IDX_ENTRY_W3 e) := by
    intro heq
    have hreset := resetWord_entry hrange
    rw [← heq, BitVec.getLsbD, Nat.testBit_zero, hbit] at hreset
    exact absurd hreset (by decide)
  refine List.mem_filterMap.mpr ⟨(IDX_ENTRY_W3 e, s.reg (IDX_ENTRY_W3 e)), mem_of_tget_ne hlisted, (if_pos ⟨hrange.1, hrange.2, ?_, hbit⟩).trans ?_⟩
  · refine congrArg some ?_
    unfold IDX_ENTRY_W3
    omega
  · unfold IDX_ENTRY_W3
    omega

theorem lt_of_mem_validEntries (h : e ∈ s.validEntries) : e < 4096 := by
  obtain ⟨⟨a, w⟩, -, ha⟩ := List.mem_filterMap.mp h
  dsimp only at ha
  split at ha
  · cases ha
    omega
  · cases ha

end

/-- CHECK is judged on the entry's four words. -/
theorem entryOk_of_regs {s t : State} (h : ∀ a, 0x40250000 ≤ a → a < 0x40260000 → t.reg a = s.reg a) {e : Nat} (he : e < 4096) :
    t.entryOk e = s.entryOk e := by
  have hW3 := h (IDX_ENTRY_W3 e) (by unfold IDX_ENTRY_W3; omega) (by unfold IDX_ENTRY_W3; omega)
  have hA := h (IDX_ENTRY_A e) (by unfold IDX_ENTRY_A; omega) (by unfold IDX_ENTRY_A; omega)
  have hB := h (IDX_ENTRY_B e) (by unfold IDX_ENTRY_B; omega) (by unfold IDX_ENTRY_B; omega)
  have hAp := h (IDX_ENTRY_AP e) (by unfold IDX_ENTRY_AP; omega) (by unfold IDX_ENTRY_AP; omega)
  have hcheck : t.entryCheck e = s.entryCheck e := by simp only [State.entryCheck, hW3, hA, hB, hAp]
  rw [State.entryOk, hcheck, fld_of_reg hW3, State.entryOk]

/-- The entry's check has failed and it carries nothing. -/
def State.entryFailed (s : State) (e : Nat) : Prop := s.idx e IDX_STATUS_CHECK_FAIL = true ∧ s.idx e IDX_STATUS_ACTIVE = false

section
variable (s : State) {e : Nat} (he : e < 4096)
include he

theorem entryOk_sweepEntry (b : Nat) : (s.sweepEntry b).entryOk e = s.entryOk e :=
  entryOk_of_regs (fun a h1 h2 => (StatusOnly.sweepEntry (e := b) (.refl s)).reg fun _ h => absurd (entryStatus_range h) (by omega)) he

/-- Another entry's turn leaves this entry's status. -/
theorem status_sweepEntry_ne {b : Nat} (h : b ≠ e) : (s.sweepEntry b).reg (IDX_STATUS e) = s.reg (IDX_STATUS e) := by
  refine (StatusOnly.sweepEntry (e := b) (.refl s)).reg fun _ hw => ?_
  unfold entryStatus IDX_STATUS IDX_STAT IDX_CHECK_CNT IDX_CHECK_LAST at hw
  omega

end

section
variable (s : State) {e : Nat}

/-- A wrong CHECK fails the entry at its turn, and it stays failed. -/
theorem entryFailed_sweepEntry (hbad : s.entryOk e = false) (h : s.idx e IDX_STATUS_CHECK_FAIL = false ∨ s.entryFailed e) :
    (s.sweepEntry e).entryFailed e := by
  rw [State.sweepEntry, if_pos (by simp [hbad])]
  rcases h with hno | hfailed
  · exact (checkFails_idx hno).symm
  · rwa [checkFails_seen hfailed.1]

theorem sweepEntry_good (hok : s.entryOk e = true) (hno : s.idx e IDX_STATUS_CHECK_FAIL = false) (hact : s.idx e IDX_STATUS_ACTIVE = true) :
    s.sweepEntry e = s := by
  rw [State.sweepEntry, if_neg (by simp [hok]), if_neg (by simp [hno]), if_pos hact]

end

section
variable {s : State} {e : Nat} (he : e < 4096)
include he

theorem sweep_fails (hvalid : s.flag (IDX_ENTRY_W3 e) IDX_ENTRY_W3_VALID = true) (hbad : s.entryOk e = false)
    (hno : s.idx e IDX_STATUS_CHECK_FAIL = false) : (s.each s.validEntries State.sweepEntry).entryFailed e := by
  have hkeeps {x : State} {b : Nat} (hb : b ≠ e) (f : Fld) : (x.sweepEntry b).idx e f = x.idx e f := flag_of_reg (status_sweepEntry_ne x he hb) f
  refine each_establishes (fun x => x.entryOk e = false ∧ (x.idx e IDX_STATUS_CHECK_FAIL = false ∨ x.entryFailed e)) (fun x => x.entryFailed e)
    (mem_validEntries he hvalid) (fun x b _ hx => ⟨(entryOk_sweepEntry x he b).trans hx.1, ?_⟩) (fun x b _ hx hfailed => ?_)
    (fun x hx => entryFailed_sweepEntry x hx.1 hx.2) ⟨hbad, .inl hno⟩
  · by_cases hb : b = e
    · subst hb
      exact .inr (entryFailed_sweepEntry x hx.1 hx.2)
    · simpa only [State.entryFailed, hkeeps hb] using hx.2
  · by_cases hb : b = e
    · subst hb
      exact entryFailed_sweepEntry x hx.1 (.inr hfailed)
    · simpa only [State.entryFailed, hkeeps hb] using hfailed

theorem sweep_good (hok : s.entryOk e = true) (hno : s.idx e IDX_STATUS_CHECK_FAIL = false) (hact : s.idx e IDX_STATUS_ACTIVE = true) :
    (s.each s.validEntries State.sweepEntry).reg (IDX_STATUS e) = s.reg (IDX_STATUS e) := by
  refine (each_preserves (fun x => x.entryOk e = true ∧ x.reg (IDX_STATUS e) = s.reg (IDX_STATUS e)) (fun x b _ hx => ?_) ⟨hok, rfl⟩).2
  refine ⟨(entryOk_sweepEntry x he b).trans hx.1, ?_⟩
  by_cases hb : b = e
  · subst hb
    rw [sweepEntry_good x hx.1 ((flag_of_reg hx.2 _).trans hno) ((flag_of_reg hx.2 _).trans hact)]
    exact hx.2
  · rw [status_sweepEntry_ne x he hb]
    exact hx.2

end

theorem within_sweep (s : State) : Within (fun a _ => ∃ e, e < 4096 ∧ Safety.idxRegs e a) s (s.each s.validEntries State.sweepEntry) :=
  Within.each _ _ (fun x b hb hx => hx.trans ((StatusOnly.sweepEntry (e := b) (.refl x)).mono fun _ _ ha =>
    ⟨b, lt_of_mem_validEntries hb, idxRegs_of_entryStatus ha⟩)) (.refl s)

/-! ### The obligation -/

section
variable {s v : State} {e : Fin 4096} {q : Fin 2} {x : Word} (hg : Safety.granted (.service q) s v) (hrun : v.running islPX = true)
include hg hrun

/-- A word of an open entry takes the value. -/
theorem entryWord_written {k : Fin 4} (hk : k.val < 3)
    (hopen : v.flag (IDX_ENTRY_W3 e) IDX_ENTRY_W3_VALID = false ∨ v.idx e IDX_STATUS_CHECK_FAIL = true) :
    ∃ t, exec (.indexEntryWrite e k (.service q) x) s = .next t ∧ Safety.sameMem v t ∧ t.reg (IDX_ENTRY_A e + 4 * k.val) = x
      ∧ t.mtx.resp = rOkay ∧ t.chan = v.chan ∧ Safety.regsOutside (fun a => a = IDX_ENTRY_A e + 4 * k.val ∨ Safety.tribTx a) v t := by
  have hind (m : Matrix) : (v.setMtx m).indexWrite e k x = (v.serviceWrite (IDX_ENTRY_A e + 4 * k) 0xFFFFFFFF x).setMtx m := by
    rw [indexWrite_open (v.setMtx m) e x hk hopen, serviceWrite_setMtx]
  obtain ⟨m, hm, ht⟩ := exec_entryWrite hg hrun (k := k) (x := x) (e := e) fun m => by rw [hind]; rfl
  have hwrite := within_serviceWrite v (IDX_ENTRY_A e + 4 * k) 0xFFFFFFFF x
  have htribs := within_updateTribs ((v.serviceWrite (IDX_ENTRY_A e + 4 * k) 0xFFFFFFFF x).setMtx m)
  rw [hind] at ht
  refine ⟨_, ht, sameMem_of_mem (htribs.mem.trans hwrite.mem), ?_, ?_, ?_, fun a ha => ?_⟩
  · have hlow : IDX_ENTRY_A e + 4 * k.val < 0x40300000 := by
      have := e.isLt
      unfold IDX_ENTRY_A
      omega
    rw [reg_updateTribs _ hlow]
    refine (reg_serviceWrite_self ..).trans ?_
    rw [show (0xFFFFFFFF : Word) = BitVec.allOnes 32 from rfl, BitVec.not_allOnes, BitVec.and_zero, BitVec.zero_or, BitVec.and_allOnes]
  · rw [mtx_updateTribs]
    exact hm
  · rw [chan_updateTribs]
    exact chan_serviceWrite ..
  · exact (htribs.reg fun _ h => ha (.inr h)).trans (hwrite.reg fun _ h => ha (.inl h))

/-- The state that a write of word 3 has left before the ports follow: `u` is the word written, with the matrix's answer. -/
theorem exec_word3 (hcmd : IDX_ENTRY_W3_CMD.get x < 5)
    (hfree : v.flag (IDX_ENTRY_W3 e) IDX_ENTRY_W3_VALID = false ∨ IDX_ENTRY_W3_VALID.get x = 0 ∨ v.idx e IDX_STATUS_CHECK_FAIL = true
      ∨ v.sncpFits e (IDX_ENTRY_W3_SNCP.get x) = true) :
    ∃ m : Matrix, m.resp = rOkay ∧ exec (.indexEntryWrite e 3 (.service q) x) s = .next
      (((v.serviceWrite (IDX_ENTRY_W3 e) word3Mask x).setMtx m).word3Acts e (v.flag (IDX_ENTRY_W3 e) IDX_ENTRY_W3_VALID)
        (decide (IDX_ENTRY_W3_VALID.get x = 1))).updateTribs := by
  have hind (m : Matrix) : (v.setMtx m).indexWrite e 3 x = ((v.serviceWrite (IDX_ENTRY_W3 e) word3Mask x).setMtx m).word3Acts e
      (v.flag (IDX_ENTRY_W3 e) IDX_ENTRY_W3_VALID) (decide (IDX_ENTRY_W3_VALID.get x = 1)) := by
    rw [indexWrite_word3 (v.setMtx m) e x hcmd hfree, serviceWrite_setMtx]
    rfl
  obtain ⟨m, hm, ht⟩ := exec_entryWrite hg hrun (k := 3) (x := x) (e := e) fun m =>
    (congrArg State.mtx (hind m)).trans (StatusOnly.word3Acts (.refl _) _ _).mtx
  exact ⟨m, hm, ht.trans (congrArg (fun y => Host.Outcome.next (State.updateTribs y)) (hind m))⟩

end

section
variable (v : State) {e : Nat} (he : e < 4096) (x : Word)
include he

/-- A write of word 3 leaves the word, memory, and every register but the entry's and what the ports show. -/
theorem word3Acts_frame {m : Matrix} (hm : m.resp = rOkay) (was now : Bool) {w t : State}
    (hw : w = (v.serviceWrite (IDX_ENTRY_W3 e) word3Mask x).setMtx m) (ht : t = (w.word3Acts e was now).updateTribs) :
    t.mtx.resp = rOkay ∧ t.reg (IDX_ENTRY_W3 e) = (v.serviceWrite (IDX_ENTRY_W3 e) word3Mask x).reg (IDX_ENTRY_W3 e) ∧ Safety.sameMem v t
      ∧ Safety.regsOutside (fun a => Safety.idxRegs e a ∨ Safety.tribTx a) v t := by
  have hwrite := within_serviceWrite v (IDX_ENTRY_W3 e) word3Mask x
  have hacts := StatusOnly.word3Acts (.refl w) was now (e := e)
  have htribs := within_updateTribs (w.word3Acts e was now)
  subst ht
  refine ⟨?_, ?_, sameMem_of_mem ?_, fun a ha => ?_⟩
  · rw [mtx_updateTribs, hacts.mtx, hw]
    exact hm
  · have hlow : 0x4025000C ≤ IDX_ENTRY_W3 e ∧ IDX_ENTRY_W3 e < 0x40260000 := by unfold IDX_ENTRY_W3; omega
    rw [reg_updateTribs _ (by omega), hacts.reg fun _ h => absurd (entryStatus_range h) (by omega), hw]
    rfl
  · rw [htribs.mem, hacts.mem, hw]
    exact hwrite.mem
  · rw [htribs.reg fun _ h => ha (.inr h), hacts.reg fun _ h => ha (.inl (idxRegs_of_entryStatus h)), hw]
    exact hwrite.reg fun _ h => ha (.inl (by unfold Safety.idxRegs; omega))

end

/-- What the word written leaves of `v` for VALID's change to act on in `w`. -/
structure Word3Put (e : Nat) (x : Word) (v w : State) : Prop where
  status : w.reg (IDX_STATUS e) = v.reg (IDX_STATUS e)
  checks : w.reg IDX_CHECK_CNT = v.reg IDX_CHECK_CNT
  ends : w.entryEnds e = v.entryEnds e
  kept : w.keptOf e = v.keptOf e
  chan : w.chan = v.chan
  sp : w.sp = v.sp
  sncp : w.entrySncp e = IDX_ENTRY_W3_SNCP.get x

theorem word3Put (v : State) (e : Nat) (x : Word) (m : Matrix) : Word3Put e x v ((v.serviceWrite (IDX_ENTRY_W3 e) word3Mask x).setMtx m) := by
  have hwrite := within_serviceWrite v (IDX_ENTRY_W3 e) word3Mask x
  have hreg {a : Nat} (ha : a ≠ IDX_ENTRY_W3 e) : ((v.serviceWrite (IDX_ENTRY_W3 e) word3Mask x).setMtx m).reg a = v.reg a :=
    hwrite.reg fun _ => ha
  have hkept : (v.serviceWrite (IDX_ENTRY_W3 e) word3Mask x).kept = v.kept := by
    unfold State.serviceWrite State.mirror
    split <;> rfl
  refine ⟨hreg ?_, hreg ?_, ?_, congrArg (fun l => tget l Kept.none e) hkept, chan_serviceWrite .., hwrite.sp,
    fld_serviceWrite _ _ (by decide) _ _ (by decide)⟩
  · unfold IDX_STATUS IDX_ENTRY_W3
    omega
  · unfold IDX_CHECK_CNT IDX_ENTRY_W3
    omega
  · have hA : IDX_ENTRY_A e ≠ IDX_ENTRY_W3 e := by unfold IDX_ENTRY_A IDX_ENTRY_W3; omega
    have hB : IDX_ENTRY_B e ≠ IDX_ENTRY_W3 e := by unfold IDX_ENTRY_B IDX_ENTRY_W3; omega
    have hAp : IDX_ENTRY_AP e ≠ IDX_ENTRY_W3 e := by unfold IDX_ENTRY_AP IDX_ENTRY_W3; omega
    rw [State.entryEnds, hreg hA, hreg hB, hreg hAp, State.entryEnds]

section
variable {v w : State} {e : Nat} {x : Word} (h : Word3Put e x v w) (he : e < 4096) (hd : v.sp.dormant = false)
include h he hd

theorem Word3Put.activated (hmay : w.mayActivate e = true) (hok : w.entryOk e = true) {t : State} (ht : t = (w.activate e).updateTribs) :
    t.idx e IDX_STATUS_ACTIVE = true ∧ t.idx e IDX_STATUS_CHECK_FAIL = false ∧ t.idx e IDX_STATUS_CONFLICT = false
      ∧ t.keptOf e = v.entryEnds e ∧ Safety.raised [(islPX, 0x353)] v t := by
  obtain ⟨hact, hfail, hconf, hkept, hraised⟩ := takeEntry_spec (e := e) ((congrArg Sup.dormant h.sp).trans hd) 0x353
  rw [activate_taken hmay hok] at ht
  subst ht
  simp only [idx_updateTribs _ _ he, keptOf_updateTribs]
  exact ⟨hact, hfail, hconf, hkept.trans h.ends, raised_of_chan h.chan (raised_updateTribs hraised)⟩

theorem Word3Put.failed (hmay : w.mayActivate e = true) (hbad : w.entryOk e = false) (hno : v.idx e IDX_STATUS_CHECK_FAIL = false) {t : State}
    (ht : t = (w.activate e).updateTribs) : t.idx e IDX_STATUS_ACTIVE = false ∧ t.idx e IDX_STATUS_CHECK_FAIL = true
      ∧ t.reg IDX_CHECK_CNT = v.reg IDX_CHECK_CNT + 1 ∧ t.reg IDX_CHECK_LAST = BitVec.ofNat 32 e ∧ Safety.raised [(islPX, 0x350)] v t := by
  have hnew : w.idx e IDX_STATUS_CHECK_FAIL = false := (flag_of_reg h.status _).trans hno
  obtain ⟨hact, hfail⟩ := checkFails_idx hnew
  obtain ⟨hcnt, hlast, hraised⟩ := checkFails_counted ((congrArg Sup.dormant h.sp).trans hd) hnew
  rw [activate_fails hmay hbad] at ht
  subst ht
  rw [idx_updateTribs _ _ he, idx_updateTribs _ _ he, reg_updateTribs _ (by decide), reg_updateTribs _ (by decide), hcnt, h.checks]
  exact ⟨hact, hfail, rfl, hlast, raised_of_chan h.chan (raised_updateTribs hraised)⟩

theorem Word3Put.conflicts (hmay : w.mayActivate e = false) (hno : v.idx e IDX_STATUS_CONFLICT = false) {t : State}
    (ht : t = (w.activate e).updateTribs) : t.idx e IDX_STATUS_CONFLICT = true
      ∧ t.idx e IDX_STATUS_ACTIVE = v.idx e IDX_STATUS_ACTIVE ∧ Safety.raised [(islPX, 0x352)] v t := by
  have hidx (f : Fld) : w.idx e f = v.idx e f := flag_of_reg h.status f
  obtain ⟨hconf, hact, hraised⟩ := conflict_new (e := e) ((congrArg Sup.dormant h.sp).trans hd) ((hidx _).trans hno)
  rw [activate_conflict hmay] at ht
  subst ht
  rw [idx_updateTribs _ _ he, idx_updateTribs _ _ he]
  exact ⟨hconf, hact.trans (hidx _), raised_of_chan h.chan (raised_updateTribs hraised)⟩

theorem Word3Put.ended (hkept : v.keptOf e ≠ .none) {t : State} (ht : t = (w.deactivate e).updateTribs) :
    t.reg (IDX_STATUS e) = 0 ∧ t.keptOf e = .none ∧ Safety.raised [(islPX, 0x354)] v t := by
  obtain ⟨hstatus, hnone, hraised⟩ := deactivate_spec (e := e) ((congrArg Sup.dormant h.sp).trans hd) (h.kept ▸ hkept)
  subst ht
  rw [reg_updateTribs _ (status_lt e he), keptOf_updateTribs]
  exact ⟨hstatus, hnone, raised_of_chan h.chan (raised_updateTribs hraised)⟩

omit hd in
theorem Word3Put.stays {t : State} (ht : t = (w.word3Acts e true true).updateTribs) : t.chan = v.chan
    ∧ (IDX_ENTRY_W3_SNCP.get x = 0 → t.reg (IDX_STATUS e) = v.reg (IDX_STATUS e) &&& 7 ∧ tget t.wtrs 0 e = 0) := by
  rw [word3Acts_kept, h.sncp] at ht
  subst ht
  rw [chan_updateTribs, reg_updateTribs _ (status_lt e he), wtrs_updateTribs]
  obtain ⟨hstatus, hwtr, hchan⟩ := dropSelector_spec (s := w) (e := e)
  by_cases hnone : IDX_ENTRY_W3_SNCP.get x = 0
  · rw [if_pos hnone]
    exact ⟨hchan.trans h.chan, fun _ => ⟨by rw [hstatus, h.status], hwtr⟩⟩
  · rw [if_neg hnone]
    exact ⟨h.chan, fun hn => absurd hn hnone⟩

end

/-- Settles O30: a write is the word and then what VALID's change does (`exec_word3`, `word3Acts`), each of these with its own equation and
frame; at the sweep an entry with a wrong CHECK is failed at its turn and kept so by all others' turns. -/
theorem indexEntries : Obligations.IndexEntries := by
  unfold Obligations.IndexEntries
  refine ⟨?_, ?_, ?_, ?_⟩
  · intro s v e q k x hg hrun hk
    by_cases hopen : v.flag (IDX_ENTRY_W3 e) IDX_ENTRY_W3_VALID = false ∨ v.idx e IDX_STATUS_CHECK_FAIL = true
    · obtain ⟨t, ht, hmem, hreg, hresp, hchan, hregs⟩ := entryWord_written hg hrun (x := x) hk hopen
      refine ⟨t, ht, hmem, fun _ => ⟨hreg, hresp, hchan, hregs⟩, fun hvalid hok => ?_⟩
      simp [hvalid, hok] at hopen
    · simp only [not_or, Bool.not_eq_false, Bool.not_eq_true] at hopen
      obtain ⟨hvalid, hok⟩ := hopen
      obtain ⟨t, ht, hresp, hraised, hregs, hmem⟩ := exec_entryWrite_refused hg hrun (k := k) (x := x) (e := e)
        fun m => indexWrite_closed (v.setMtx m) e x hk hvalid hok
      refine ⟨t, ht, hmem, fun hopen => ?_, fun _ _ => ⟨hresp, hraised, hregs⟩⟩
      simp [hvalid, hok] at hopen
  · intro s v u e q x hg hrun hu hcmd hfree
    subst hu
    obtain ⟨m, hm, ht⟩ := exec_word3 hg hrun hcmd hfree
    obtain ⟨hresp, hword, hmem, hregs⟩ := word3Acts_frame v e.isLt x hm _ _ rfl rfl
    have hput := word3Put v e x m
    have hd := not_dormant_of_running hrun
    refine ⟨_, ht, hresp, hword, hmem, hregs, fun hoff hon => ?_, fun hon hoff hkept => ?_, fun hwas hon => ?_⟩
    · rw [hoff, decide_eq_true hon, word3Acts_set]
      rw [← mayActivate_setMtx _ m, ← entryOk_setMtx _ m]
      exact ⟨fun hmay hok => hput.activated e.isLt hd hmay hok rfl, fun hmay hbad hno => hput.failed e.isLt hd hmay hbad hno rfl,
        fun hmay hno => hput.conflicts e.isLt hd hmay hno rfl⟩
    · have hstop : decide (IDX_ENTRY_W3_VALID.get x = 1) = false := by rw [hoff]; rfl
      rw [hon, hstop, word3Acts_cleared]
      exact hput.ended e.isLt hd hkept rfl
    · rw [hwas, decide_eq_true hon]
      exact hput.stays e.isLt rfl
  · intro s v e q x hg hrun hvalid hnow hok hfit
    exact exec_entryWrite_refused hg hrun (k := 3) fun m => indexWrite_unfit (v.setMtx m) e x hvalid hnow hok hfit
  · intro s hrun
    have htribs := within_updateTribs (s.each s.validEntries State.sweepEntry)
    have hsweep := within_sweep s
    refine ⟨_, congrArg Host.Outcome.next (if_neg (by simp [hrun])), sameMem_of_mem (htribs.mem.trans hsweep.mem), fun a ha => ?_,
      fun e he hvalid hbad hno => ?_, fun e he _ hok hno hact => ?_⟩
    · exact (htribs.reg fun _ h => ha (.inr h)).trans (hsweep.reg fun _ h => ha (.inl h))
    · rw [idx_updateTribs _ _ he, idx_updateTribs _ _ he]
      exact sweep_fails he hvalid hbad hno
    · rw [reg_updateTribs _ (status_lt e he)]
      exact sweep_good he hok hno hact

end Sys2Proof.Machine
end

section
/-! SUPPORT. The selector of an entry: its conditions, wait to restore, and the ruling request applied (R164). -/

namespace Sys2Proof.Machine

/-! ### The conditions of an entry are read below its status word -/

section
variable {s t : State} (h : ∀ a, a < 0x40260000 → t.reg a = s.reg a)
include h

theorem epSlot_of_regs (w : Word) : t.epSlot w = s.epSlot w := by
  refine List.find?_congr fun k hk => ?_
  have hcfg : t.reg (PATH_SLOT_CFG k) = s.reg (PATH_SLOT_CFG k) := h _ (by have := List.mem_range.mp hk; unfold PATH_SLOT_CFG; omega)
  simp only [flag_of_reg hcfg, fld_of_reg hcfg]

theorem hoExists_of_regs {i : Nat} (hi : i < 192) : t.hoExists i = s.hoExists i := by
  have hcfg : t.reg (PATH_SLOT_CFG (i / 3)) = s.reg (PATH_SLOT_CFG (i / 3)) := h _ (by unfold PATH_SLOT_CFG; omega)
  simp only [State.hoExists, flag_of_reg hcfg, fld_of_reg hcfg]

theorem loExists_of_regs {l : Nat} (hl : l < 5376) : t.loExists l = s.loExists l := by
  have hcfg : t.reg (PATH_SLOT_CFG (l / 84)) = s.reg (PATH_SLOT_CFG (l / 84)) := h _ (by unfold PATH_SLOT_CFG; omega)
  have hmap : t.reg (PATH_SLOT_MAP (l / 84)) = s.reg (PATH_SLOT_MAP (l / 84)) := h _ (by unfold PATH_SLOT_MAP; omega)
  have hparent : t.loParent l = s.loParent l := by simp only [State.loParent, fld_of_reg hcfg]
  have hlt : s.loParent l < 192 := by
    unfold State.loParent
    split <;> omega
  have hown : t.reg (PATH_SLOT_CFG (s.loParent l / 3)) = s.reg (PATH_SLOT_CFG (s.loParent l / 3)) := h _ (by unfold PATH_SLOT_CFG; omega)
  have hterm : t.hoTerm (s.loParent l) = s.hoTerm (s.loParent l) := flag_of_reg hown _
  have hcontent : t.loContent l = s.loContent l := fld_of_reg hmap _
  have htu11 : t.loTu11 l = s.loTu11 l := flag_of_reg hmap _
  unfold State.loExists
  dsimp only
  rw [hparent, hoExists_of_regs h hlt, hterm, hcontent, htu11]

theorem epPath_of_regs (w : Word) : t.epPath w = s.epPath w := by
  unfold State.epPath
  rw [epSlot_of_regs h]
  split
  · rfl
  · dsimp only
    split
    · split
      · next hh => rw [hoExists_of_regs h hh]
      · rfl
    · split
      · split
        · next hl => rw [loExists_of_regs h hl]
        · rfl
      · rfl

theorem epConds_of_regs (w : Word) (m : Nat) : t.epConds w m = s.epConds w m := by
  unfold State.epConds
  rw [epPath_of_regs h]
  split
  · rfl
  · next p hp =>
    have hstat : t.reg (pathStatAddr p) = s.reg (pathStatAddr p) := h _ (by have := pathStatAddr_range p; omega)
    simp only [State.pstat, flag_of_reg hstat]

theorem entrySncp_of_regs {e : Nat} (he : e < 4096) : t.entrySncp e = s.entrySncp e :=
  fld_of_reg (h _ (by unfold IDX_ENTRY_W3; omega)) _

theorem rawCond_of_regs {e : Nat} (he : e < 4096) (hkept : t.kept = s.kept) (c : SncpCond) : t.rawCond e c = s.rawCond e c := by
  unfold State.rawCond State.keptOf
  simp only [hkept, entrySncp_of_regs h he, epConds_of_regs h]

end

/-! ### What changes in the status word alone -/

/-- Only bits of the status word of entry `e` among `B` differ. -/
abbrev BitsOnly (e : Nat) (B : Nat → Prop) (r s : State) : Prop := Within (fun a j => a = IDX_STATUS e ∧ B j) r s

section
variable {r s : State} {e : Nat} {B : Nat → Prop} (h : BitsOnly e B r s)
include h

theorem BitsOnly.below {a : Nat} (ha : a < 0x40260000) : s.reg a = r.reg a := by
  refine h.reg fun _ hw => ?_
  obtain ⟨rfl, -⟩ := hw
  unfold IDX_STATUS at ha
  omega

theorem BitsOnly.idx {f : Fld} (hf : ∀ j, f.lo ≤ j → j < f.lo + f.len → ¬ B j) : s.idx e f = r.idx e f := h.flag fun j h1 h2 hw => hf j h1 h2 hw.2

theorem BitsOnly.onlyRegs : Safety.onlyRegs [IDX_STATUS e] r s := fun _ ha => h.reg fun _ hw => ha (by rw [hw.1]; exact List.mem_cons_self)

theorem BitsOnly.put (f : Fld) (v : Nat) (hf : ∀ j, f.lo ≤ j → j < f.lo + f.len → B j) : BitsOnly e B r (s.setFld (IDX_STATUS e) f v) :=
  h.setFld _ f v fun j h1 h2 => ⟨rfl, hf j h1 h2⟩

end

/-! ### The conditions that count (R164) -/

/-- One condition shown: it stands, and it counted already or HOLDOFF is 0. -/
def State.condShown (s : State) (e : Nat) (c : SncpCond) : State :=
  s.setFlag (IDX_STATUS e) (condFld c) (s.rawCond e c && (s.idx e (condFld c) || decide (s.fld IDX_SNCP_CFG IDX_SNCP_CFG_HOLDOFF = 0)))

/-- The bits of COND. -/
def condBits (j : Nat) : Prop := 16 ≤ j ∧ j < 20

theorem condBits_of_cond (c : SncpCond) : ∀ j, (condFld c).lo ≤ j → j < (condFld c).lo + (condFld c).len → condBits j := by
  unfold condBits
  cases c <;> (simp only [condFld, IDX_STATUS_SF_A, IDX_STATUS_SD_A, IDX_STATUS_SF_AP, IDX_STATUS_SD_AP]; omega)

theorem condFld_disjoint {c d : SncpCond} (h : c ≠ d) :
    (condFld c).lo + (condFld c).len ≤ (condFld d).lo ∨ (condFld d).lo + (condFld d).len ≤ (condFld c).lo := by
  revert h
  cases c <;> cases d <;> decide

theorem condFld_width (c : SncpCond) : (condFld c).lo + (condFld c).len ≤ 32 ∧ (condFld c).len = 1 := by cases c <;> decide

section
variable (s : State) (e : Nat)

theorem updateConds_eq : s.updateConds e = (((s.condShown e .sfA).condShown e .sdA).condShown e .sfAp).condShown e .sdAp := rfl

theorem bitsOnly_condShown {r : State} (h : BitsOnly e condBits r s) (c : SncpCond) : BitsOnly e condBits r (s.condShown e c) :=
  h.put _ _ (condBits_of_cond c)

theorem bitsOnly_updateConds : BitsOnly e condBits s (s.updateConds e) := by
  rw [updateConds_eq]
  exact bitsOnly_condShown _ e (bitsOnly_condShown _ e (bitsOnly_condShown _ e (bitsOnly_condShown s e (.refl s) _) _) _) _

variable {e : Nat} (he : e < 4096)

theorem idx_condShown_ne {c d : SncpCond} (h : c ≠ d) : (s.condShown e d).idx e (condFld c) = s.idx e (condFld c) :=
  idx_setStatus_other _ _ (condFld_disjoint h) _

include he

theorem idx_condShown (c : SncpCond) {x : State} (h : BitsOnly e condBits s x) (hkept : x.kept = s.kept) (hidx : x.idx e (condFld c) = s.idx e (condFld c)) :
    (x.condShown e c).idx e (condFld c) = (s.rawCond e c && (s.idx e (condFld c) || decide (s.fld IDX_SNCP_CFG IDX_SNCP_CFG_HOLDOFF = 0))) := by
  obtain ⟨h32, hlen⟩ := condFld_width c
  have hcfg : x.reg IDX_SNCP_CFG = s.reg IDX_SNCP_CFG := h.below (by decide)
  rw [State.condShown, idx_setStatus_self _ _ h32 hlen, rawCond_of_regs (fun a => h.below) he hkept, hidx, fld_of_reg hcfg]

/-- COND once shown. -/
theorem idx_updateConds (c : SncpCond) : (s.updateConds e).idx e (condFld c)
    = (s.rawCond e c && (s.idx e (condFld c) || decide (s.fld IDX_SNCP_CFG IDX_SNCP_CFG_HOLDOFF = 0))) := by
  have h1 := bitsOnly_condShown s e (.refl s) .sfA
  have h2 := bitsOnly_condShown _ e h1 .sdA
  have h3 := bitsOnly_condShown _ e h2 .sfAp
  rw [updateConds_eq]
  cases c with
  | sfA =>
    rw [idx_condShown_ne _ (by decide), idx_condShown_ne _ (by decide), idx_condShown_ne _ (by decide)]
    exact idx_condShown s he .sfA (.refl s) rfl rfl
  | sdA =>
    rw [idx_condShown_ne _ (by decide), idx_condShown_ne _ (by decide)]
    exact idx_condShown s he .sdA h1 rfl (idx_condShown_ne _ (by decide))
  | sfAp =>
    rw [idx_condShown_ne _ (by decide)]
    exact idx_condShown s he .sfAp h2 rfl ((idx_condShown_ne _ (by decide)).trans (idx_condShown_ne _ (by decide)))
  | sdAp =>
    exact idx_condShown s he .sdAp h3 rfl
      ((idx_condShown_ne _ (by decide)).trans ((idx_condShown_ne _ (by decide)).trans (idx_condShown_ne _ (by decide))))

end

end Sys2Proof.Machine
end

section
/-! SUPPORT. Wait to restore, and the ruling request applied: what a selector's evaluation leaves (R164). -/

namespace Sys2Proof.Machine

/-- What a mirrored write queues shows nowhere else. -/
theorem mirror_keeps {β : Type} (g : State → β) (hg : ∀ x l, g { x with mirrorQ := l } = g x) (s : State) (a : Nat) (mask value : Word) :
    g (s.mirror a mask value) = g s := by
  unfold State.mirror
  split
  · exact hg s _
  · rfl

/-! ### Wait to restore -/

/-- The bits of WTR_LEFT. -/
def wtrBits (j : Nat) : Prop := 8 ≤ j ∧ j < 16

section
variable (s : State) (e : Nat)

theorem wtrBits_left : ∀ j, IDX_STATUS_WTR_LEFT.lo ≤ j → j < IDX_STATUS_WTR_LEFT.lo + IDX_STATUS_WTR_LEFT.len → wtrBits j := fun _ h1 h2 => ⟨h1, h2⟩

theorem bitsOnly_stopWtr : BitsOnly e wtrBits s (s.stopWtr e) :=
  BitsOnly.put ((Within.refl s).beside rfl rfl rfl rfl : BitsOnly e wtrBits s { s with wtrs := tset s.wtrs 0 e 0 }) _ _ wtrBits_left

theorem wtr_stopWtr : tget (s.stopWtr e).wtrs 0 e = 0 := tget_tset_self s.wtrs 0 e 0

theorem bitsOnly_startWtr : BitsOnly e wtrBits s (s.startWtr e) := by
  have hset : BitsOnly e wtrBits s { s with wtrs := tset s.wtrs 0 e (s.now + s.fld IDX_SNCP_CFG IDX_SNCP_CFG_WTR_MIN * 60000000000 + 1) } :=
    (Within.refl s).beside rfl rfl rfl rfl
  exact (hset.put _ _ wtrBits_left).raise _ _ _

theorem wtr_startWtr : tget (s.startWtr e).wtrs 0 e = s.now + s.fld IDX_SNCP_CFG IDX_SNCP_CFG_WTR_MIN * 60000000000 + 1 :=
  (congrArg (tget · 0 e) (wtrs_raise ..)).trans
    (tget_tset_self s.wtrs 0 e (s.now + s.fld IDX_SNCP_CFG IDX_SNCP_CFG_WTR_MIN * 60000000000 + 1))

theorem raised_startWtr (hd : s.sp.dormant = false) : Safety.raised [(islPX, 0x361)] s (s.startWtr e) := raised_raise _ _ _ rfl hd

end

/-! ### A side taken (R151) -/

section
variable (s : State) (p : PathId)

theorem wtrs_recentre : (s.recentre p).wtrs = s.wtrs := by
  unfold State.recentre State.pathEvent
  rw [wtrs_raise]
  cases p <;> rfl

theorem pathBlock_of_pointerRegs {a : Nat} (h : a ∈ Safety.pointerRegs p) : Safety.pathBlock a := by
  unfold Safety.pathBlock
  cases p with
  | ho i =>
    have := i.isLt
    simp only [Safety.pointerRegs, PATH_HO2, PATH_HO3, List.mem_cons, List.not_mem_nil, or_false] at h
    omega
  | lo l =>
    have := l.isLt
    simp only [Safety.pointerRegs, PATH_LO3, List.mem_cons, List.not_mem_nil, or_false] at h
    omega

end

/-- The events of recentred stores alone. -/
def recentrings (l : List (Nat × Nat)) : Prop := ∀ x ∈ l, x = (islPX, 0x342)

/-- The store of B recentred or not: its path's registers, and event 0x342 or none. -/
structure Recentred (s t : State) : Prop where
  within : Within (fun a _ => Safety.pathBlock a) s t
  wtrs : t.wtrs = s.wtrs
  events : ∃ l, recentrings l ∧ Safety.raised l s t

theorem recentred_refl (s : State) : Recentred s s := ⟨.refl s, rfl, [], by simp [recentrings], raised_of_chan_eq rfl⟩

theorem recentred_recentre (s : State) (p : PathId) (hd : s.sp.dormant = false) : Recentred s (s.recentre p) where
  within := (pointerOnly_recentre s p).mono fun _ _ => pathBlock_of_pointerRegs p
  wtrs := wtrs_recentre s p
  events := ⟨[(islPX, 0x342)], by simp [recentrings], raised_recentre s p hd⟩

theorem recentred_selectSide (s : State) (e : Nat) (ap : Bool) (hd : s.sp.dormant = false) :
    Recentred (s.setFlag (IDX_STATUS e) IDX_STATUS_SEL ap) (s.selectSide e ap) := by
  unfold State.selectSide
  dsimp only
  split
  · split
    · exact recentred_recentre _ _ hd
    · exact recentred_refl _
  · exact recentred_refl _

/-! ### The ruling request applied (R164) -/

/-- The request that rules now, and the side it chooses. -/
def State.sncpRuling (s : State) (e : Nat) : Nat × Bool :=
  sncpOrder (s.fld (IDX_ENTRY_W3 e) IDX_ENTRY_W3_CMD) (s.idx e IDX_STATUS_SF_A) (s.idx e IDX_STATUS_SD_A)
    (s.idx e IDX_STATUS_SF_AP) (s.idx e IDX_STATUS_SD_AP) (decide (tget s.wtrs 0 e ≠ 0))
    (s.flag (IDX_ENTRY_W3 e) IDX_ENTRY_W3_REVERT) (s.idx e IDX_STATUS_SEL)

theorem sncpOrder_lt (cmd : Nat) (sfA sdA sfAp sdAp wtr rev sel : Bool) : (sncpOrder cmd sfA sdA sfAp sdAp wtr rev sel).1 < 16 := by
  unfold sncpOrder
  repeat' split
  all_goals simp

/-- The request shown. -/
def State.requestShown (s : State) (e : Nat) : State := s.setFld (IDX_STATUS e) IDX_STATUS_REQ (s.sncpRuling e).1

/-- The other side taken, counted, with event 0x360. -/
def State.switched (s : State) (e : Nat) (ap : Bool) : State := ((s.selectSide e ap).count IDX_SWITCH_CNT).idxEvent e 0x360

/-- The request shown, and the side taken that it chooses. -/
def State.choiceMade (s : State) (e : Nat) : State :=
  if (s.requestShown e).idx e IDX_STATUS_SEL = (s.sncpRuling e).2 then s.requestShown e else (s.requestShown e).switched e (s.sncpRuling e).2

theorem applySelector_eq {s : State} (hc : s.computesOnly = false) (e : Nat) : s.applySelector e
    = if s.reg (IDX_STATUS e) &&& selectorMask = (s.choiceMade e).reg (IDX_STATUS e) &&& selectorMask then s.choiceMade e
      else (s.choiceMade e).mirror (IDX_STATUS e) selectorMask ((s.choiceMade e).reg (IDX_STATUS e)) :=
  if_neg (by simp [hc])

/-- What applying a request leaves, for a ruling `r`: the request and the side shown; the conditions and wait to restore stand; a change of side
is counted and told after the store of B, and without one nothing but the status word moves. -/
structure Selected (e : Nat) (r : Nat × Bool) (s t : State) : Prop where
  sel : t.idx e IDX_STATUS_SEL = r.2
  req : t.fld (IDX_STATUS e) IDX_STATUS_REQ = r.1
  cond : ∀ c, t.idx e (condFld c) = s.idx e (condFld c)
  wtrs : t.wtrs = s.wtrs
  within : Within (fun a _ => a = IDX_STATUS e ∨ a = IDX_SWITCH_CNT ∨ Safety.pathBlock a) s t
  still : s.idx e IDX_STATUS_SEL = r.2 → t.chan = s.chan ∧ Within (fun a _ => a = IDX_STATUS e) s t
  moved : s.idx e IDX_STATUS_SEL ≠ r.2 → t.reg IDX_SWITCH_CNT = s.reg IDX_SWITCH_CNT + 1
    ∧ ∃ l, recentrings l ∧ Safety.raised (l ++ [(islPX, 0x360)]) s t

/-- A mirrored write changes none of it. -/
theorem Selected.mirror {e : Nat} {r : Nat × Bool} {s t : State} (h : Selected e r s t) (a : Nat) (mask value : Word) :
    Selected e r s (t.mirror a mask value) := by
  have hchan : (t.mirror a mask value).chan = t.chan := mirror_keeps State.chan (fun _ _ => rfl) ..
  have hreg (b : Nat) : (t.mirror a mask value).reg b = t.reg b := mirror_keeps (State.reg · b) (fun _ _ => rfl) ..
  refine ⟨(flag_of_reg (hreg _) _).trans h.sel, (fld_of_reg (hreg _) _).trans h.req, fun c => (flag_of_reg (hreg _) _).trans (h.cond c),
    (mirror_keeps State.wtrs (fun _ _ => rfl) ..).trans h.wtrs, h.within.mirror .., fun hs => ?_, fun hs => ?_⟩
  · obtain ⟨hc, hw⟩ := h.still hs
    exact ⟨hchan.trans hc, hw.mirror ..⟩
  · obtain ⟨hcnt, l, hl, hraised⟩ := h.moved hs
    refine ⟨(hreg _).trans hcnt, l, hl, ?_⟩
    unfold Safety.raised at hraised ⊢
    rw [hchan, hraised]

section
variable (s : State) (e : Nat)

theorem reqBits_requestShown : BitsOnly e (fun j => 4 ≤ j ∧ j < 8) s (s.requestShown e) :=
  BitsOnly.put (.refl s) _ _ fun _ h1 h2 => ⟨h1, h2⟩

theorem req_requestShown : (s.requestShown e).fld (IDX_STATUS e) IDX_STATUS_REQ = (s.sncpRuling e).1 :=
  (fld_setFld_self _ _ (by decide) _).trans (Nat.mod_eq_of_lt (sncpOrder_lt ..))

theorem sel_requestShown : (s.requestShown e).idx e IDX_STATUS_SEL = s.idx e IDX_STATUS_SEL := flag_setFld_other _ _ (by decide) _

theorem cond_requestShown (c : SncpCond) : (s.requestShown e).idx e (condFld c) = s.idx e (condFld c) :=
  (reqBits_requestShown s e).idx fun j h1 _ hj => by have := condBits_of_cond c j h1 ‹_›; unfold condBits at this; omega

theorem switchCnt_ne_status : IDX_SWITCH_CNT ≠ IDX_STATUS e := by unfold IDX_SWITCH_CNT IDX_STATUS; omega

theorem not_pathBlock_status : ¬ Safety.pathBlock (IDX_STATUS e) := by unfold Safety.pathBlock IDX_STATUS; omega

theorem not_pathBlock_switchCnt : ¬ Safety.pathBlock IDX_SWITCH_CNT := by unfold Safety.pathBlock IDX_SWITCH_CNT; omega

variable (hd : s.sp.dormant = false) (ap : Bool)
include hd

/-- The status word once the side is taken: SEL alone has moved. -/
theorem status_switched : (s.switched e ap).reg (IDX_STATUS e) = (s.setFlag (IDX_STATUS e) IDX_STATUS_SEL ap).reg (IDX_STATUS e) := by
  rw [State.switched, State.idxEvent, reg_raise, reg_count_ne _ _ (switchCnt_ne_status e)]
  exact (recentred_selectSide s e ap hd).within.reg fun _ => not_pathBlock_status e

theorem within_switched : Within (fun a _ => a = IDX_STATUS e ∨ a = IDX_SWITCH_CNT ∨ Safety.pathBlock a) s (s.switched e ap) := by
  have hsel : Within (fun a _ => a = IDX_STATUS e ∨ a = IDX_SWITCH_CNT ∨ Safety.pathBlock a) s (s.setFlag (IDX_STATUS e) IDX_STATUS_SEL ap) :=
    (Within.refl s).setFlag _ _ _ fun _ _ _ => .inl rfl
  exact ((hsel.trans ((recentred_selectSide s e ap hd).within.mono fun _ _ ha => .inr (.inr ha))).count _ _ fun _ => .inr (.inl rfl)).raise _ _ _

theorem wtrs_switched : (s.switched e ap).wtrs = s.wtrs := (wtrs_raise ..).trans (recentred_selectSide s e ap hd).wtrs

theorem count_switched : (s.switched e ap).reg IDX_SWITCH_CNT = s.reg IDX_SWITCH_CNT + 1 := by
  rw [State.switched, State.idxEvent, reg_raise, reg_count_self, (recentred_selectSide s e ap hd).within.reg fun _ => not_pathBlock_switchCnt]
  exact congrArg (· + 1) (reg_setFld_ne _ _ _ (switchCnt_ne_status e).symm)

theorem raised_switched : ∃ l, recentrings l ∧ Safety.raised (l ++ [(islPX, 0x360)]) s (s.switched e ap) := by
  have hside := recentred_selectSide s e ap hd
  obtain ⟨l, hl, hraised⟩ := hside.events
  have hd' : ((s.selectSide e ap).count IDX_SWITCH_CNT).sp.dormant = false := (congrArg Sup.dormant hside.within.sp).trans hd
  exact ⟨l, hl, raised_trans (raised_of_chan rfl hraised) (raised_raise _ _ _ rfl hd')⟩

omit ap in
/-- The choice, before it is mirrored. -/
theorem selected_choiceMade : Selected e (s.sncpRuling e) s (s.choiceMade e) := by
  have hreq := reqBits_requestShown s e
  have hd' : (s.requestShown e).sp.dormant = false := hd
  unfold State.choiceMade
  split
  · next hsame =>
    refine ⟨hsame, req_requestShown s e, cond_requestShown s e, rfl, hreq.mono fun _ _ ha => .inl ha.1, fun _ => ⟨rfl, hreq.mono fun _ _ ha => ha.1⟩,
      fun hne => absurd ((sel_requestShown s e).symm.trans hsame) hne⟩
  · next hdiff =>
    have hstatus := status_switched (s.requestShown e) e hd' (s.sncpRuling e).2
    refine ⟨?_, ?_, fun c => ?_, wtrs_switched _ e hd' _, (hreq.mono fun _ _ ha => .inl ha.1).trans (within_switched _ e hd' _), fun hs => ?_, fun _ => ?_⟩
    · exact (flag_of_reg hstatus _).trans (idx_setStatus_self _ _ (by decide) rfl _)
    · exact (fld_of_reg hstatus _).trans ((fld_setFld_other _ _ (by decide) _).trans (req_requestShown s e))
    · refine (flag_of_reg hstatus _).trans ((idx_setStatus_other _ _ ?_ _).trans (cond_requestShown s e c))
      cases c <;> decide
    · exact absurd ((sel_requestShown s e).trans hs) hdiff
    · obtain ⟨l, hl, hraised⟩ := raised_switched (s.requestShown e) e hd' (s.sncpRuling e).2
      refine ⟨(count_switched _ e hd' _).trans ?_, l, hl, raised_of_chan rfl hraised⟩
      exact congrArg (· + 1) (reg_setFld_ne _ _ _ (switchCnt_ne_status e).symm)

theorem selected_applySelector (hc : s.computesOnly = false) : Selected e (s.sncpRuling e) s (s.applySelector e) := by
  have hchoice := selected_choiceMade s e hd
  rw [applySelector_eq hc]
  split
  · exact hchoice
  · exact hchoice.mirror ..

end

end Sys2Proof.Machine
end

section
/-! PROOF of O31: a service's commands to a selector, its evaluation, hold-off and wait to restore. -/

namespace Sys2Proof.Machine

/-! ### A command is a write of CMD alone (R162, R164) -/

/-- A masked write of a word with one field replaced is that word, where the mask covers the field. -/
theorem masked_put {f : Fld} {mask : Word} (hmask : ∀ j < 32, f.lo ≤ j → j < f.lo + f.len → mask.getLsbD j = true) (w : Word) (v : Nat) :
    (w &&& ~~~mask) ||| (f.put w v &&& mask) = f.put w v := by
  refine BitVec.eq_of_getLsbD_eq fun j hj => ?_
  have hput := Fld.getLsbD_put f w v j hj
  rw [BitVec.getLsbD_or, BitVec.getLsbD_and, BitVec.getLsbD_and, BitVec.getLsbD_not]
  by_cases hin : f.lo ≤ j ∧ j < f.lo + f.len
  · simp [hmask j hj hin.1 hin.2]
  · rw [if_neg hin] at hput
    rw [hput]
    cases w.getLsbD j <;> cases mask.getLsbD j <;> simp [hj]

section
variable (s : State) (e : Nat) {c : Nat}

theorem valid_put : decide (IDX_ENTRY_W3_VALID.get (IDX_ENTRY_W3_CMD.put (s.reg (IDX_ENTRY_W3 e)) c) = 1)
    = s.flag (IDX_ENTRY_W3 e) IDX_ENTRY_W3_VALID := by
  have hlt : IDX_ENTRY_W3_VALID.get (s.reg (IDX_ENTRY_W3 e)) < 2 := Nat.mod_lt _ (by decide)
  rw [Fld.get_put_ne (by decide), State.flag, State.fld, decide_eq_decide]
  omega

theorem sncp_put : IDX_ENTRY_W3_SNCP.get (IDX_ENTRY_W3_CMD.put (s.reg (IDX_ENTRY_W3 e)) c) = s.entrySncp e := Fld.get_put_ne (by decide) _ _

theorem indexWrite_command (hc : c < 5) (hfree : s.flag (IDX_ENTRY_W3 e) IDX_ENTRY_W3_VALID = false ∨ s.idx e IDX_STATUS_CHECK_FAIL = true
      ∨ s.sncpFits e (s.entrySncp e) = true) :
    s.indexWrite e 3 (IDX_ENTRY_W3_CMD.put (s.reg (IDX_ENTRY_W3 e)) c)
      = (s.serviceWrite (IDX_ENTRY_W3 e) word3Mask (IDX_ENTRY_W3_CMD.put (s.reg (IDX_ENTRY_W3 e)) c)).word3Acts e
        (s.flag (IDX_ENTRY_W3 e) IDX_ENTRY_W3_VALID) (s.flag (IDX_ENTRY_W3 e) IDX_ENTRY_W3_VALID) := by
  have hcmd : IDX_ENTRY_W3_CMD.get (IDX_ENTRY_W3_CMD.put (s.reg (IDX_ENTRY_W3 e)) c) < 5 := by
    rw [Fld.get_put_self (by decide)]
    exact lt_of_le_of_lt (Nat.mod_le _ _) hc
  rw [indexWrite_word3 s e _ hcmd (by rw [sncp_put]; tauto), valid_put]

end

/-- VALID unchanged: an entry without SNCP drops its selector, another one keeps all. -/
theorem word3Acts_unchanged (u : State) (e : Nat) (b : Bool) :
    u.word3Acts e b b = u ∨ u.entrySncp e = 0 ∧ u.word3Acts e b b = u.dropSelector e := by
  cases b with
  | false => exact .inl rfl
  | true =>
    rw [word3Acts_kept]
    split
    · next h => exact .inr ⟨h, rfl⟩
    · exact .inl rfl

/-- What a command leaves: CMD, and the selector's state where the entry has no SNCP. -/
structure Commanded (e : Nat) (x : Word) (v t : State) : Prop where
  word : t.reg (IDX_ENTRY_W3 e) = x
  only : Safety.onlyRegs (IDX_ENTRY_W3 e :: if v.entrySncp e = 0 then [IDX_STATUS e] else []) v t
  mem : t.mem = v.mem
  chan : t.chan = v.chan

theorem commanded {v u : State} (e c : Nat) (b : Bool)
    (hu : u = v.serviceWrite (IDX_ENTRY_W3 e) word3Mask (IDX_ENTRY_W3_CMD.put (v.reg (IDX_ENTRY_W3 e)) c)) :
    Commanded e (IDX_ENTRY_W3_CMD.put (v.reg (IDX_ENTRY_W3 e)) c) v (u.word3Acts e b b) := by
  have hword : u.reg (IDX_ENTRY_W3 e) = IDX_ENTRY_W3_CMD.put (v.reg (IDX_ENTRY_W3 e)) c := by
    rw [hu, reg_serviceWrite_self, masked_put]
    intro j hj h1 h2
    have h1' : 4 ≤ j := h1
    have h2' : j < 7 := h2
    interval_cases j <;> rfl
  have hwrite : Within (fun a _ => a = IDX_ENTRY_W3 e) v u := hu ▸ within_serviceWrite ..
  have hsncp : u.entrySncp e = v.entrySncp e := by
    rw [State.entrySncp, State.fld, hword]
    exact sncp_put v e
  have hchan : u.chan = v.chan := hu ▸ chan_serviceWrite ..
  rcases word3Acts_unchanged u e b with h | ⟨hnone, h⟩
  · rw [h]
    exact ⟨hword, fun a ha => hwrite.reg fun _ he => ha (by simp [he]), hwrite.mem, hchan⟩
  · rw [h]
    have hstopped : Within (fun a _ => a = IDX_STATUS e) u { u with wtrs := tset u.wtrs 0 e 0 } := (Within.refl u).beside rfl rfl rfl rfl
    have hdrop : Within (fun a _ => a = IDX_STATUS e) u (u.dropSelector e) := hstopped.setReg _ _ fun _ => rfl
    refine ⟨(hdrop.reg fun _ => ?_).trans hword, fun a ha => ?_, hdrop.mem.trans hwrite.mem, hchan⟩
    · unfold IDX_ENTRY_W3 IDX_STATUS
      omega
    · rw [if_pos (hsncp ▸ hnone)] at ha
      exact (hdrop.reg fun _ he => ha (by simp [he])).trans (hwrite.reg fun _ he => ha (by simp [he]))

/-- A service's command to a selector. -/
theorem exec_sncpCommand {s v : State} {e : Fin 4096} {q : Fin 2} {c : Nat} (hg : Safety.granted (.service q) s v) (hrun : v.running islPX = true)
    (hc : c < 5) (hfree : v.flag (IDX_ENTRY_W3 e) IDX_ENTRY_W3_VALID = false ∨ v.idx e IDX_STATUS_CHECK_FAIL = true
      ∨ v.sncpFits e (v.entrySncp e) = true) {t : State} (ht : t = (s.settleFor (.service q)).sncpCommand (.service q) e c) :
    t.mtx.resp = rOkay ∧ Commanded e (IDX_ENTRY_W3_CMD.put (v.reg (IDX_ENTRY_W3 e)) c) v t := by
  have hind (m : Matrix) := indexWrite_command (v.setMtx m) e hc hfree
  obtain ⟨m, hm, hwrite⟩ := commandWrite_granted hg hrun false (IDX_ENTRY_W3 e)
    (f := fun s => s.indexWrite e 3 (IDX_ENTRY_W3_CMD.put (s.reg (IDX_ENTRY_W3 e)) c)) fun m hm => by
      rw [hind, (StatusOnly.word3Acts (.refl _) _ _).mtx, mtx_serviceWrite]
      exact hm
  rw [State.sncpCommand, hwrite, hind] at ht
  subst ht
  have hdone := commanded (v := v.setMtx m) e c (v.flag (IDX_ENTRY_W3 e) IDX_ENTRY_W3_VALID) rfl
  refine ⟨?_, hdone.word, hdone.only, hdone.mem, hdone.chan⟩
  rw [(StatusOnly.word3Acts (.refl _) _ _).mtx, mtx_serviceWrite]
  exact hm

/-! ### A selector in use -/

theorem useSelector_ok {s : State} {e : Nat} (hsel : s.hasSelector e = true) (hok : s.entryOk e = true) (f : State → State) :
    s.useSelector e f = f s := by
  have huse : s.checkUse e = s := if_neg (by simp [hok])
  unfold State.useSelector
  dsimp only
  rw [if_pos hsel, huse, if_pos hsel]

theorem not_dormant_of_selector {s : State} {e : Nat} (h : s.hasSelector e = true) : s.sp.dormant = false :=
  not_dormant_of_running (Bool.and_eq_true_iff.mp (Bool.and_eq_true_iff.mp h).1).1

/-- Of the status word of entry `e` only WTR_LEFT and COND differ, and nothing beside it. -/
abbrev Prepared (e : Nat) (s y : State) : Prop := BitsOnly e (fun j => 8 ≤ j ∧ j < 20) s y

theorem Prepared.of_wtr {s y : State} {e : Nat} (h : BitsOnly e wtrBits s y) : Prepared e s y :=
  h.mono fun _ j ⟨ha, h1, h2⟩ => ⟨ha, h1, h2.trans (by decide)⟩

theorem Prepared.of_cond {s y : State} {e : Nat} (h : BitsOnly e condBits s y) : Prepared e s y :=
  h.mono fun _ j ⟨ha, h1, h2⟩ => ⟨ha, le_trans (by decide) h1, h2⟩

section
variable {s y : State} {e : Nat} (h : Prepared e s y) (he : e < 4096)
include h

theorem Prepared.sel : y.idx e IDX_STATUS_SEL = s.idx e IDX_STATUS_SEL := h.idx fun j (h1 : 3 ≤ j) (h2 : j < 4) => by omega

include he

theorem Prepared.word3 : y.reg (IDX_ENTRY_W3 e) = s.reg (IDX_ENTRY_W3 e) := h.below (by unfold IDX_ENTRY_W3; omega)

theorem Prepared.computesOnly : y.computesOnly = s.computesOnly := by
  have hreg {a : Nat} (ha : a < 0x40260000 ∨ 0x40264000 ≤ a) : y.reg a = s.reg a := h.reg fun _ hw => by
    obtain ⟨rfl, -⟩ := hw
    unfold IDX_STATUS at ha
    omega
  rw [State.computesOnly, State.paired, State.role, flag_of_reg (hreg (.inl (by decide))), fld_of_reg (hreg (.inr (by decide)))]
  rfl

end

/-- The ruling where no command stands and the entry reverts. -/
theorem sncpRuling_of {y : State} {e : Nat} {cmd : Nat} {sfA sdA sfAp sdAp wtr rev : Bool} (hcmd : y.fld (IDX_ENTRY_W3 e) IDX_ENTRY_W3_CMD = cmd)
    (hsfA : y.idx e IDX_STATUS_SF_A = sfA) (hsdA : y.idx e IDX_STATUS_SD_A = sdA) (hsfAp : y.idx e IDX_STATUS_SF_AP = sfAp)
    (hsdAp : y.idx e IDX_STATUS_SD_AP = sdAp) (hwtr : decide (tget y.wtrs 0 e ≠ 0) = wtr) (hrev : y.flag (IDX_ENTRY_W3 e) IDX_ENTRY_W3_REVERT = rev) :
    y.sncpRuling e = sncpOrder cmd sfA sdA sfAp sdAp wtr rev (y.idx e IDX_STATUS_SEL) := by
  rw [State.sncpRuling, hcmd, hsfA, hsdA, hsfAp, hsdAp, hwtr, hrev]

/-! ### The ports follow what a selector has done -/

section
variable {s y : State} {e : Nat} (h : Prepared e s y) {r : Nat × Bool}
include h

/-- The frame of an evaluation, store of B included. -/
theorem evaluated_regs {z : State} (hz : Selected e r y z) :
    Safety.regsOutside (fun a => Safety.idxRegs e a ∨ Safety.pathBlock a ∨ Safety.tribTx a) s z.updateTribs := by
  intro a ha
  rw [(within_updateTribs z).reg fun _ hw => ha (.inr (.inr hw))]
  refine (hz.within.reg fun _ hw => ha ?_).trans (h.reg fun _ hw => ha (.inl (.inl hw.1)))
  unfold Safety.idxRegs
  tauto

/-- The same where the side stands: nothing of a path moves. -/
theorem evaluated_regs_still {z : State} (hz : Selected e r y z) (hs : y.idx e IDX_STATUS_SEL = r.2) :
    Safety.regsOutside (fun a => Safety.idxRegs e a ∨ Safety.tribTx a) s z.updateTribs := by
  intro a ha
  rw [(within_updateTribs z).reg fun _ hw => ha (.inr hw)]
  exact ((hz.still hs).2.reg fun _ hw => ha (.inl (.inl hw))).trans (h.reg fun _ hw => ha (.inl (.inl hw.1)))

theorem evaluated_mem {z : State} (hz : Selected e r y z) : Safety.sameMem s z.updateTribs :=
  sameMem_of_mem ((within_updateTribs z).mem.trans (hz.within.mem.trans h.mem))

end

/-! ### The evaluation (R164) -/

section
variable {s : State} {e : Fin 4096} (hsel : s.hasSelector e = true) (hok : s.entryOk e = true)
include hsel hok

theorem exec_sncpEvaluation : exec (.sncpEvaluation e) s = .next (s.evaluateSelector e).updateTribs :=
  congrArg Host.Outcome.next (useSelector_ok hsel hok _)

end

section
variable {s : State} {e : Nat}

theorem evaluateSelector_failing (h : (s.updateConds e).idx e IDX_STATUS_SF_A = true) :
    s.evaluateSelector e = ((s.updateConds e).stopWtr e).applySelector e := by
  unfold State.evaluateSelector
  dsimp only
  rw [if_pos (by simp [h])]

theorem evaluateSelector_ending (hwas : s.idx e IDX_STATUS_SF_A = true) (hsf : (s.updateConds e).idx e IDX_STATUS_SF_A = false)
    (hsd : (s.updateConds e).idx e IDX_STATUS_SD_A = false) (hside : (s.updateConds e).idx e IDX_STATUS_SEL = true)
    (hrev : (s.updateConds e).flag (IDX_ENTRY_W3 e) IDX_ENTRY_W3_REVERT = true) :
    s.evaluateSelector e = ((s.updateConds e).startWtr e).applySelector e := by
  unfold State.evaluateSelector
  dsimp only
  rw [if_neg (by simp [hsf, hsd]), if_pos (by simp [hwas, hside, hrev])]

/-- WTR_LEFT does not overlap COND. -/
theorem cond_of_wtr {x y : State} (h : BitsOnly e wtrBits x y) (c : SncpCond) : y.idx e (condFld c) = x.idx e (condFld c) :=
  h.idx fun j h1 h2 hw => by
    have hc := condBits_of_cond c j h1 h2
    unfold condBits at hc
    unfold wtrBits at hw
    omega

theorem prepared_stopped : Prepared e s ((s.updateConds e).stopWtr e) :=
  (Prepared.of_cond (bitsOnly_updateConds s e)).trans (Prepared.of_wtr (bitsOnly_stopWtr _ e))

theorem prepared_started : Prepared e s ((s.updateConds e).startWtr e) :=
  (Prepared.of_cond (bitsOnly_updateConds s e)).trans (Prepared.of_wtr (bitsOnly_startWtr _ e))

end

section
variable {s : State} {e : Fin 4096} (hsel : s.hasSelector e = true) (hok : s.entryOk e = true) (hc : s.computesOnly = false)
  (hcmd : s.fld (IDX_ENTRY_W3 e) IDX_ENTRY_W3_CMD = 0)
include hsel hok hc hcmd

/-- SF of A while A′ has none: the selector goes to A′. -/
theorem evaluation_switches (hhold : s.fld IDX_SNCP_CFG IDX_SNCP_CFG_HOLDOFF = 0) (hsfA : s.rawCond e .sfA = true)
    (hsfAp : s.rawCond e .sfAp = false) (hside : s.idx e IDX_STATUS_SEL = false) : ∃ t l, exec (.sncpEvaluation e) s = .next t
      ∧ t.idx e IDX_STATUS_SEL = true ∧ t.fld (IDX_STATUS e) IDX_STATUS_REQ = 4 ∧ t.idx e IDX_STATUS_SF_A = true
      ∧ t.reg IDX_SWITCH_CNT = s.reg IDX_SWITCH_CNT + 1 ∧ tget t.wtrs 0 e = 0 ∧ Safety.raised (l ++ [(islPX, 0x360)]) s t
      ∧ (∀ x ∈ l, x = (islPX, 0x342)) ∧ Safety.sameMem s t
      ∧ Safety.regsOutside (fun a => Safety.idxRegs e a ∨ Safety.pathBlock a ∨ Safety.tribTx a) s t := by
  have hcond (c : SncpCond) : (s.updateConds e).idx e (condFld c) = s.rawCond e c := by
    rw [idx_updateConds s e.isLt, hhold, decide_eq_true rfl, Bool.or_true, Bool.and_true]
  set y := (s.updateConds e).stopWtr e with hy
  have hprep : Prepared e s y := prepared_stopped
  have hycond (c : SncpCond) : y.idx e (condFld c) = s.rawCond e c := (cond_of_wtr (bitsOnly_stopWtr _ e) c).trans (hcond c)
  have hword := hprep.word3 e.isLt
  have hrule : y.sncpRuling e = (4, true) := by
    rw [sncpRuling_of ((fld_of_reg hword _).trans hcmd) ((hycond .sfA).trans hsfA) rfl ((hycond .sfAp).trans hsfAp) rfl rfl rfl]
    rfl
  have hz := selected_applySelector y e ((congrArg Sup.dormant hprep.sp).trans (not_dormant_of_selector hsel)) ((hprep.computesOnly e.isLt).trans hc)
  rw [hrule] at hz
  obtain ⟨hcnt, l, hl, hraised⟩ := hz.moved (by rw [hprep.sel, hside]; decide)
  refine ⟨_, l, (exec_sncpEvaluation hsel hok).trans (by rw [evaluateSelector_failing ((hcond .sfA).trans hsfA), ← hy]), ?_⟩
  rw [idx_updateTribs _ _ e.isLt, idx_updateTribs _ _ e.isLt, fld_of_reg (reg_updateTribs _ (status_lt e e.isLt)),
    reg_updateTribs _ (by decide), wtrs_updateTribs, hz.wtrs]
  exact ⟨hz.sel, hz.req, (hz.cond .sfA).trans ((hycond .sfA).trans hsfA), hcnt.trans (congrArg (· + 1) (hprep.below (by decide))),
    wtr_stopWtr _ _, raised_of_chan rfl (raised_updateTribs hraised), hl, evaluated_mem hprep hz, evaluated_regs hprep hz⟩

/-- The last condition of A ends in a revertive entry: wait to restore starts, and A′ stays. -/
theorem evaluation_waits (hrev : s.flag (IDX_ENTRY_W3 e) IDX_ENTRY_W3_REVERT = true) (hside : s.idx e IDX_STATUS_SEL = true)
    (hwas : s.idx e IDX_STATUS_SF_A = true) (hnone : ∀ c, s.rawCond e c = false) : ∃ t, exec (.sncpEvaluation e) s = .next t
      ∧ t.idx e IDX_STATUS_SEL = true ∧ t.fld (IDX_STATUS e) IDX_STATUS_REQ = 9
      ∧ tget t.wtrs 0 e = s.now + s.fld IDX_SNCP_CFG IDX_SNCP_CFG_WTR_MIN * 60000000000 + 1
      ∧ Safety.raised [(islPX, 0x361)] s t ∧ Safety.sameMem s t ∧ Safety.regsOutside (fun a => Safety.idxRegs e a ∨ Safety.tribTx a) s t := by
  have hconds : Prepared e s (s.updateConds e) := Prepared.of_cond (bitsOnly_updateConds s e)
  have hcond (c : SncpCond) : (s.updateConds e).idx e (condFld c) = false := by
    rw [idx_updateConds s e.isLt, hnone, Bool.false_and]
  set y := (s.updateConds e).startWtr e with hy
  have hprep : Prepared e s y := prepared_started
  have hycond (c : SncpCond) : y.idx e (condFld c) = false := (cond_of_wtr (bitsOnly_startWtr _ e) c).trans (hcond c)
  have hword := hprep.word3 e.isLt
  have hwtr : tget y.wtrs 0 e = s.now + s.fld IDX_SNCP_CFG IDX_SNCP_CFG_WTR_MIN * 60000000000 + 1 :=
    (wtr_startWtr _ e).trans (by rw [fld_of_reg (hconds.below (by decide))]; rfl)
  have hrule : y.sncpRuling e = (9, true) := by
    rw [sncpRuling_of ((fld_of_reg hword _).trans hcmd) (hycond .sfA) (hycond .sdA) (hycond .sfAp) (hycond .sdAp)
      (decide_eq_true (by omega)) ((flag_of_reg hword _).trans hrev)]
    rfl
  have hz := selected_applySelector y e ((congrArg Sup.dormant hprep.sp).trans (not_dormant_of_selector hsel)) ((hprep.computesOnly e.isLt).trans hc)
  rw [hrule] at hz
  have hsame : y.idx e IDX_STATUS_SEL = true := hprep.sel.trans hside
  have hstart : Safety.raised [(islPX, 0x361)] s y :=
    raised_of_chan rfl (raised_startWtr _ e ((congrArg Sup.dormant hconds.sp).trans (not_dormant_of_selector hsel)))
  have hraised : Safety.raised [(islPX, 0x361)] s (y.applySelector e) := by
    unfold Safety.raised at hstart ⊢
    rw [(hz.still hsame).1, hstart]
  refine ⟨_, (exec_sncpEvaluation hsel hok).trans (by rw [evaluateSelector_ending hwas (hcond .sfA) (hcond .sdA) (hconds.sel.trans hside)
    ((flag_of_reg (hconds.word3 e.isLt) _).trans hrev), ← hy]), ?_⟩
  rw [idx_updateTribs _ _ e.isLt, fld_of_reg (reg_updateTribs _ (status_lt e e.isLt)), wtrs_updateTribs, hz.wtrs]
  exact ⟨hz.sel, hz.req, hwtr, raised_updateTribs hraised, evaluated_mem hprep hz, evaluated_regs_still hprep hz hsame⟩

end

/-! ### Hold-off and wait to restore run out (R164) -/

section
variable {s : State} {e : Fin 4096} (hsel : s.hasSelector e = true) (hok : s.entryOk e = true)
include hsel hok

theorem holdoff_counts {c : SncpCond} (hraw : s.rawCond e c = true) : ∃ t, exec (.sncpHoldoffExpiry e c) s = .next t
    ∧ t.idx e (condFld c) = true ∧ Safety.onlyRegs [IDX_STATUS e] s t ∧ Safety.sameMem s t ∧ t.chan = s.chan := by
  obtain ⟨h32, hlen⟩ := condFld_width c
  set y := s.setFlag (IDX_STATUS e) (condFld c) true with hy
  have hset : Prepared e s y := Prepared.of_cond (BitsOnly.put (.refl s) _ _ (condBits_of_cond c))
  have hcond : y.idx e (condFld c) = true := idx_setStatus_self _ _ h32 hlen _
  have hstop := bitsOnly_stopWtr y e
  refine ⟨_, (congrArg Host.Outcome.next (useSelector_ok hsel hok _)).trans (by rw [if_pos hraw, ← hy]), ?_⟩
  unfold State.when
  split
  · have hdone := hset.trans (Prepared.of_wtr hstop)
    exact ⟨(cond_of_wtr hstop c).trans hcond, BitsOnly.onlyRegs hdone, hdone.sameMem, rfl⟩
  · exact ⟨hcond, BitsOnly.onlyRegs hset, hset.sameMem, rfl⟩

/-- Wait to restore expires with 0x362, and A is selected. -/
theorem wtr_expires (hc : s.computesOnly = false) (hwtr : tget s.wtrs 0 e ≠ 0) (hcmd : s.fld (IDX_ENTRY_W3 e) IDX_ENTRY_W3_CMD = 0)
    (hrev : s.flag (IDX_ENTRY_W3 e) IDX_ENTRY_W3_REVERT = true) (hnone : ∀ c, s.idx e (condFld c) = false) :
    ∃ t l, exec (.sncpWtrExpiry e) s = .next t ∧ t.idx e IDX_STATUS_SEL = false ∧ t.fld (IDX_STATUS e) IDX_STATUS_REQ = 10
      ∧ tget t.wtrs 0 e = 0 ∧ Safety.raised ((islPX, 0x362) :: l) s t ∧ Safety.sameMem s t
      ∧ Safety.regsOutside (fun a => Safety.idxRegs e a ∨ Safety.pathBlock a ∨ Safety.tribTx a) s t := by
  have hd := not_dormant_of_selector hsel
  set y := (s.stopWtr e).idxEvent e 0x362 with hy
  have hbits : BitsOnly e wtrBits s y := (bitsOnly_stopWtr s e).raise _ _ _
  have hprep : Prepared e s y := Prepared.of_wtr hbits
  have hycond (c : SncpCond) : y.idx e (condFld c) = false := (cond_of_wtr hbits c).trans (hnone c)
  have hword := hprep.word3 e.isLt
  have hywtr : tget y.wtrs 0 e = 0 := (congrArg (tget · 0 e.val) (wtrs_raise ..)).trans (wtr_stopWtr s e)
  have hrule : y.sncpRuling e = (10, false) := by
    rw [sncpRuling_of ((fld_of_reg hword _).trans hcmd) (hycond .sfA) (hycond .sdA) (hycond .sfAp) (hycond .sdAp)
      (decide_eq_false (by simp [hywtr])) ((flag_of_reg hword _).trans hrev)]
    rfl
  have hz := selected_applySelector y e ((congrArg Sup.dormant hprep.sp).trans hd) ((hprep.computesOnly e.isLt).trans hc)
  rw [hrule] at hz
  have hexpired : Safety.raised [(islPX, 0x362)] s y := raised_raise _ _ _ rfl hd
  have hraised : ∃ l, Safety.raised l y (y.applySelector e) := by
    by_cases hs : y.idx e IDX_STATUS_SEL = false
    · exact ⟨[], raised_of_chan_eq (hz.still hs).1⟩
    · obtain ⟨-, l, -, hl⟩ := hz.moved hs
      exact ⟨_, hl⟩
  obtain ⟨l, hl⟩ := hraised
  refine ⟨_, l, (congrArg Host.Outcome.next (useSelector_ok hsel hok _)).trans (by rw [if_neg hwtr, ← hy]), ?_⟩
  rw [idx_updateTribs _ _ e.isLt, fld_of_reg (reg_updateTribs _ (status_lt e e.isLt)), wtrs_updateTribs, hz.wtrs]
  exact ⟨hz.sel, hz.req, hywtr, raised_updateTribs (raised_trans hexpired hl), evaluated_mem hprep hz, evaluated_regs hprep hz⟩

end

/-! ### The obligation -/

/-- Settles O31: a command is a write of CMD that leaves VALID as it is; an evaluation prepares WTR_LEFT and COND and then applies the request that
rules (`selected_applySelector`), which by the order of R164 is the one named. -/
theorem sncpSelectors : Obligations.SncpSelectors := by
  unfold Obligations.SncpSelectors
  refine ⟨?_, ?_, ?_, ?_, ?_, ?_⟩
  · intro s v e q i c hg hrun hi hfree
    have hcmd (ht : exec i s = .next ((s.settleFor (.service q)).sncpCommand (.service q) e c)) (hlt : c < 5) :
        ∃ t, exec i s = .next t ∧ t.mtx.resp = rOkay ∧ t.reg (IDX_ENTRY_W3 e) = IDX_ENTRY_W3_CMD.put (v.reg (IDX_ENTRY_W3 e)) c
          ∧ Safety.onlyRegs (IDX_ENTRY_W3 e :: if v.entrySncp e = 0 then [IDX_STATUS e] else []) v t ∧ Safety.sameMem v t ∧ t.chan = v.chan := by
      obtain ⟨hresp, hdone⟩ := exec_sncpCommand hg hrun hlt hfree rfl
      exact ⟨_, ht, hresp, hdone.word, hdone.only, sameMem_of_mem hdone.mem, hdone.chan⟩
    obtain ⟨rfl, rfl⟩ | ⟨rfl, rfl⟩ | ⟨rfl, rfl⟩ | ⟨rfl, rfl⟩ := hi
    · exact hcmd rfl (by decide)
    · exact hcmd rfl (by decide)
    · exact hcmd rfl (by decide)
    · exact hcmd rfl (by decide)
  · intro s e hsel hok hc hcmd hhold hsfA hsfAp hside
    exact evaluation_switches hsel hok hc hcmd hhold hsfA hsfAp hside
  · intro s e hsel hok hc hcmd hrev hside hwas hnone
    exact evaluation_waits hsel hok hc hcmd hrev hside hwas hnone
  · intro s e c hsel hok hraw
    exact holdoff_counts hsel hok hraw
  · intro s e hsel hok hc hwtr hcmd hrev hsfA hsdA hsfAp hsdAp
    refine wtr_expires hsel hok hc hwtr hcmd hrev fun c => ?_
    cases c with
    | sfA => exact hsfA
    | sdA => exact hsdA
    | sfAp => exact hsfAp
    | sdAp => exact hsdAp
  · intro sfA sdA sfAp sdAp wtr rev sel
    exact ⟨rfl, rfl, rfl, rfl, rfl, rfl⟩

end Sys2Proof.Machine
end
